-- ==== Sys2Proof/Word.lean ====
section
/-! DEFINITION. The word types of the KV7720 and their plainest arithmetic. -/

namespace Sys2Proof

/-- A register of the register space, or a newt register: 32 bits (R496, R85). -/
abbrev Word := BitVec 32

/-- One byte, the smallest addressable unit of every memory of the chip (R6). -/
abbrev Byte := BitVec 8

/-- Sparse data by number: pairs (key, value) with keys strictly rising and no value equal to the
default of the map it is used as (the default is given to `KMap.at` and `KMap.put`). -/
abbrev KMap (α : Type) := List (Nat × α)

/-- R15: clusters 0 to 207. -/
abbrev ClusterNo := Fin 208
/-- R85, R93: newts 0 to 127 of a cluster, and 128 for its cluster control core. -/
abbrev CoreNo := Fin 129
/-- R85: newts 0 to 127 of a cluster. -/
abbrev NewtNo := Fin 128
/-- R121: the two copy engines of a cluster. -/
abbrev EngNo := Fin 2
/-- R154: channel controllers 0 to 255. -/
abbrev McNo := Fin 256
/-- R286: links 0 to 95. -/
abbrev LinkNo := Fin 96
/-- R367: partitions 0 to 63. -/
abbrev PartNo := Fin 64
/-- R132: context slots 0 to 31 of a partition. -/
abbrev SlotNo := Fin 32
/-- R403: check-value units 0 to 31. -/
abbrev CvNo := Fin 32

namespace Word

/-- Bits [hi:lo] of a word as a number (R5). -/
def bits (w : Word) (hi lo : Nat) : Nat := w.toNat / 2 ^ lo % 2 ^ (hi + 1 - lo)

/-- Bit n of a word (R5). -/
def bit (w : Word) (n : Nat) : Bool := w.getLsbD n

/-- The word with bits [hi:lo] replaced by the low bits of v. -/
def setBits (w : Word) (hi lo : Nat) (v : Nat) : Word :=
  let m : Nat := (2 ^ (hi + 1 - lo) - 1) * 2 ^ lo
  (w &&& ~~~(BitVec.ofNat 32 m)) ||| (BitVec.ofNat 32 ((v % 2 ^ (hi + 1 - lo)) * 2 ^ lo))

/-- The word with bit n set to b. -/
def setBit (w : Word) (n : Nat) (b : Bool) : Word := setBits w n n (if b then 1 else 0)

end Word

/-- A number cut to w bits. -/
def trunc (w n : Nat) : Nat := n % 2 ^ w

/-- Ceiling of a quotient. -/
def ceilDiv (a b : Nat) : Nat := (a + b - 1) / b

/-- A w-bit pattern read as a two's complement number. -/
def signed (w n : Nat) : Int :=
  if n % 2 ^ w < 2 ^ (w - 1) then (n % 2 ^ w : Nat) else (n % 2 ^ w : Nat) - (2 ^ w : Nat)

/-- A number as a w-bit two's complement pattern. -/
def unsigned (w : Nat) (i : Int) : Nat := (i % (2 ^ w : Nat)).toNat

/-- A little-endian byte string as a number (R6). -/
def leNat : List Byte → Nat
  | [] => 0
  | b :: bs => b.toNat + 256 * leNat bs

/-- A number as n bytes, least significant byte first (R6). -/
def leBytes : Nat → Nat → List Byte
  | 0, _ => []
  | n + 1, v => BitVec.ofNat 8 v :: leBytes n (v / 256)

end Sys2Proof
end

