-- ==== Sys2Proof/Messages.lean ====
section
/-! DEFINITION. What commands carry: packets, flits, codewords, XHT datagrams, Ethernet frames,
chain frames and pair messages, in the fields the spec gives them. -/

namespace Sys2Proof

/-- Who writes a register or posts work (R496, R90, R59). -/
inductive Agent where
  /-- newt m of the cluster -/
  | newt (m : Nat)
  /-- the cluster control core of the cluster -/
  | ccc
  /-- the supervisor triad's own loads and stores -/
  | triad
  /-- XHT MGMT of a partition-0 session -/
  | xht
  /-- fabric MGMT -/
  | fabric
  /-- chain MGMT -/
  | chain
deriving DecidableEq, Repr

/-- R118, R119: where a write of an agent of the cluster starts: which of the four agents it is, and the
offset in the store. -/
structure AgentAt where
  agent : Fin 4
  off : Nat
deriving DecidableEq, Repr

/-- R178, R179: what stage S4's test finds: blocks, each with its symbols that fail in passes 2 and 3 and
those in error after the fill; `all`, where the fourth pass comes at once. -/
structure FillTest where
  fails : List (Nat × Nat × Nat)
  all : Bool
deriving DecidableEq, Repr

/-- R409, R419, R424: what the peer reports at formation: that it is OUT, and that every unit that works
there works here. -/
structure PeerReport where
  out : Bool
  units : Bool
deriving DecidableEq, Repr

/-- R11: the status codes the device emits. -/
inductive Status where
  | ok | refused | ue | noAccess | contextKilled | reset | fenced | versionConflict | planViolation
deriving DecidableEq, Repr

/-- R297: the packet header's fields. `value` is words 3 and 4 when VER = 1. -/
structure PktHdr where
  typ : Nat
  cls : Nat
  dstChip : Nat
  dstPort : Nat
  excl : Bool
  reg : Bool
  ver : Bool
  chk : Nat
  srcHost : Nat
  tag : Nat
  srcChip : Nat
  srcPort : Nat
  status : Nat
  offset : Nat
  value : Nat
  deadline : Nat
  rseq : Nat
  kind : Nat
  len : Nat
  check : Nat
deriving DecidableEq, Repr

/-- A whole Fleson packet: header and payload bytes. -/
structure Packet where
  hdr : PktHdr
  payload : List Byte
deriving DecidableEq, Repr

/-- R257: one 128 B flit: link header, 120 B payload and the CRC as received. -/
structure Flit where
  seq : Nat
  ack : Nat
  vc : Nat
  typ : Nat
  fc : Nat
  payload : List Byte
  crc : Nat
deriving DecidableEq, Repr

/-- R255: a codeword as the FEC decoder delivers it. -/
structure Codeword where
  /-- the decoder could not correct it -/
  uncorrectable : Bool
  /-- corrected symbols, at most the 15 that the code corrects (R254) -/
  corrected : Fin 16
  mark : Nat
  cwn : Nat
  lstate : Nat
  flits : List Flit
deriving DecidableEq, Repr

/-- R301: the time-exchange record a requested NULL carries, ticks in 1/16 tick, with the sender's
lock state and depth, and the receiver's arrival stamp t4. -/
structure TimeRec where
  t1 : Nat
  t2 : Nat
  t3 : Nat
  t4 : Nat
  locked : Bool
  depth : Nat
deriving DecidableEq, Repr

/-- R278: the payload of an INIT flit. -/
structure InitInfo where
  chip : Nat
  link : Nat
  vcEn : Nat
  fcMode : Bool
  resume : Bool
  seen : Bool
  rxNext : Nat
  session : Nat
  peerSession : Nat
  free : List Nat
deriving DecidableEq, Repr

/-- R340: the XHT header. -/
structure XhtHdr where
  typ : Nat
  ver : Nat
  dup : Bool
  last : Bool
  retx : Bool
  hasValue : Bool
  session : Nat
  chan : Nat
  seq : Nat
  tag : Nat
  cls : Nat
  status : Nat
  word3 : Nat
  word4 : Nat
  len : Nat
  foff : Nat
  /-- every reserved bit of the header is 0 -/
  rsvdZero : Bool
deriving DecidableEq, Repr

/-- One XHT datagram: header and the piece's payload. -/
structure Datagram where
  hdr : XhtHdr
  payload : List Byte
deriving DecidableEq, Repr

/-- The kind of traffic a frame carries after its addresses (R337, R343, R336, R335). -/
inductive FrameKind where
  /-- an IP packet carrying UDP -/
  | udp
  /-- ARP, neighbour solicitation, ICMP or ICMPv6 echo, for firmware -/
  | toFirmware
  /-- EtherType 0x88B5 -/
  | discovery
  /-- IEEE 802.1Qbb priority flow control -/
  | pfc
  /-- Clause 31 PAUSE -/
  | pause
  /-- anything else -/
  | other
deriving DecidableEq, Repr

/-- A received Ethernet frame in the fields R335 to R338 look at; the Ethernet, IP and UDP formats
are those of their standards. `udpPayload` is the bytes after the UDP header. -/
structure EthFrame where
  len : Nat
  fcsOk : Bool
  /-- TPIDs of the tags, outermost first -/
  tpids : List Nat
  vid : Nat
  pcp : Nat
  dstMac : Nat
  srcMac : Nat
  kind : FrameKind
  /-- IP version 6 -/
  af6 : Bool
  /-- 20 B IPv4 header without fragmentation, or IPv6 without extension header -/
  ipPlain : Bool
  ipChecksumOk : Bool
  dstIp : Nat
  srcIp : Nat
  srcPort : Nat
  dstPort : Nat
  udpChecksum : Nat
  udpChecksumOk : Bool
  udpPayload : List Byte
deriving DecidableEq, Repr

/-- Where a command of R351 came from: session, channel, SEQ and TAG of its datagram. -/
structure CmdReq where
  session : Nat
  chan : Nat
  seq : Nat
  tag : Nat
deriving DecidableEq, Repr

/-- R464: a chain frame as received. -/
structure ChainFrame where
  typ : Nat
  typHi : Nat
  dst : Nat
  bcast : Bool
  src : Nat
  head : Bool
  seq : Nat
  payload : List Byte
  /-- LEN as the frame states it -/
  len : Nat
  crc : Nat
  /-- aborted by a control code group -/
  aborted : Bool
deriving DecidableEq, Repr

/-- R410, R414: a pair message; `link`: the link it came on. -/
structure PairMsg where
  kind : Nat
  chip : Nat
  ord : Nat
  tick : Nat
  arg0 : Nat
  arg1 : Nat
  body : List Byte
  link : Nat := 0
deriving DecidableEq, Repr

/-- R413: an input of the pair: a packet from a HOST link with its VC and whether its plan moved it
(R311), or a datagram with its frame. -/
inductive PairInput where
  | fleson (port vc : Nat) (moved : Bool) (p : Packet)
  | xht (f : EthFrame) (d : Datagram)
deriving DecidableEq, Repr

/-- R315: the places of the grant arbiter. -/
inductive ArbId where
  /-- bank b of cluster c's store -/
  | bank (c b : Nat)
  /-- port selection of channel controller n -/
  | mc (n : Nat)
  /-- unscheduled VC selection of link l -/
  | vc (l : Nat)
  /-- output port o of mesh router r -/
  | mesh (r o : Nat)
deriving DecidableEq, Repr

/-- R399: the items a unit number names. -/
inductive UnitId where
  | newt (c m : Nat)
  | frog (c : Nat)
  | copy (c e : Nat)
  | cluster (c : Nat)
  | mc (n : Nat)
  | link (l : Nat)
  | eth
  | cv (u : Nat)
  | part (p : Nat)
deriving DecidableEq, Repr

/-- R396: fence causes. -/
inductive Cause where
  | none | data | logic | order | miss | widen | link
deriving DecidableEq, Repr

/-- R429: which write or message a core of the triad issues at the voter. -/
structure CoreWrite where
  addr : Nat
  data : Word
deriving DecidableEq, Repr

/-- R413: the tick-dependent decisions a holder carries as ordered notes. The spec gives the note no
bit layout; these are its kinds. -/
inductive NoteKind where
  | leaseExpiry (i : Nat)
  | leaseGraceEnd (i : Nat)
  | recallTimeout (rseq : Nat)
  | quarantineEnd (e : Nat)
  | isoFence (i : Nat)
  | commit (tick : Nat)
  | status (ord : Nat) (st : Status)
  | setLost (s : Nat)
  | fence (u : UnitId)
deriving DecidableEq, Repr

/-- R208, R221, R511: what an access through port 4 does with a directory set: the read of a lookup, the
read of a DIR_SEL lookup, a write-back, the rewrite with every entry INVALID. -/
inductive SetOp where
  | lookup | sel | store | clear
deriving DecidableEq, Repr

/-- R126, R167, R219: whose block access this is. -/
inductive BlkSrc where
  /-- block k of the admitted request with admission sequence number id -/
  | req (id k : Nat)
  /-- block i of the running program of copy engine e of cluster c -/
  | copy (c e i : Nat)
  /-- the table walk of engine e of cluster c; e = 2 is the preload walk (R142, R143) -/
  | walk (c e : Nat)
  /-- block i of the running stream of check-value unit u (R403) -/
  | cv (u i : Nat)
  /-- block i of the fill of extent x (R199) -/
  | fill (x i : Nat)
  /-- block k of the copy step of region r (R222, R225) -/
  | region (r k : Nat)
  /-- block i of a triad access: table write, fetch (R140, R447) -/
  | triad (i : Nat)
  /-- the block of directory set d (R208) -/
  | set (d : Nat) (op : SetOp)
  /-- block b copied for a chip that joins the pair (R424) -/
  | join (b : Nat)
deriving DecidableEq, Repr

/-- R315, R316: one request at an arbiter: requester, priority, transfer length in beats, and the
cycle from which it waits. -/
structure ArbReq where
  who : Nat
  prio : Nat
  beats : Nat
  since : Nat
deriving DecidableEq, Repr

/-- R198, R230: how a LEASE_RENEW arrives: a fabric packet at a port, or the XHT command. -/
inductive RenewSrc where
  | fabric (port : Nat) (p : Packet)
  | xht (q : CmdReq)
deriving DecidableEq, Repr

/-- R496: which path a MGMT message arrives on, with what its answer needs. -/
inductive MgmtSrc where
  | xht (q : CmdReq)
  | fabric (p : Packet)
  | chain (f : ChainFrame)
deriving DecidableEq, Repr

end Sys2Proof
end

