-- ==== Sys2Proof/Machine/TypesHost.lean ====
section
/-! DEFINITION. State of the host side and the chip's own bookkeeping: events, fault records, XHT
sessions and windows, check-value units, resets (chapters 14 to 16). -/

namespace Sys2Proof.Machine

/-- R370: an event record. -/
structure EvRec where
  last : Nat
  first : Nat
  btype : Nat
  inst : Nat
  vec : Nat
  code : Nat
  count : Nat
  d0 : Nat
  d1 : Nat
  part : Nat
  /-- configuration it opened with, R373 -/
  path : Nat
  host : Nat
  cnt : Nat
  time : Nat
deriving DecidableEq, Repr

/-- R399: a fault record. -/
structure FaultRec where
  tick : Nat
  seq : Nat
  src : Nat
  cls : Nat
  inj : Bool
  widen : Bool
  second : Bool
  cause : Nat
  kind : Nat
  bit : Nat
  part : Nat
  unit : Nat
  info : Nat
deriving DecidableEq, Repr

/-- R387, R390: a fence: its tick, and whether a reset of its scope completed after it. -/
structure FenceRec where
  unit : UnitId
  cause : Cause
  tx : Nat
  resetDone : Bool
  /-- every effect of R388 has taken place -/
  contained : Bool
deriving DecidableEq, Repr

/-- R347: what a window records of a request: pending, or its outcome. -/
structure WinEnt where
  seq : Nat
  sent : Bool
  st : Status
  result : Nat
deriving DecidableEq, Repr

/-- R346: a channel window: H and the recorded entries. -/
structure SeqWin where
  h : Option Nat := none
  ents : List WinEnt := []
deriving DecidableEq, Repr

/-- R349: an unacknowledged EVENT or AUDIT message. -/
structure Msg where
  seq : Nat
  body : List Byte
  last : Nat
deriving DecidableEq, Repr

/-- R349: the sender of a channel 17 or 18. -/
structure MsgQ where
  next : Nat := 0
  unacked : List Msg := []
deriving DecidableEq, Repr

/-- R356: a BWR being staged. -/
structure Stage where
  session : Nat
  seq : Nat
  tag : Nat
  cls : Nat
  off : Nat
  len : Nat
  deadline : Nat
  first : Nat
  pieces : List (Nat × List Byte)
deriving DecidableEq, Repr

/-- R361: a correspondence between a fabric tick and 1588 time. -/
structure Corr where
  tick : Nat
  sec : Nat
  ns : Nat
deriving DecidableEq, Repr

/-- R336, R354: a datagram in the ingress buffer: its message, priority, length and arrival. -/
structure InFrame where
  session : Nat
  chan : Nat
  seq : Nat
  pcp : Nat
  len : Nat
  tick : Nat
deriving DecidableEq, Repr

/-- The Ethernet port and XHT (chapter 14). -/
structure Eth where
  /-- session records by number, 8 words (R344) -/
  sess : KMap (List Word) := []
  /-- sessions whose record holds an uncorrectable word (R365) -/
  sessBad : List Nat := []
  /-- windows of channel 16 by session -/
  dataWin : KMap SeqWin := []
  /-- windows of command channels by 16·partition + channel -/
  cmdWin : KMap SeqWin := []
  ev : KMap MsgQ := []
  au : KMap MsgQ := []
  stages : List Stage := []
  /-- R336: paused priorities, each with the tick its pause ends -/
  paused : List (Nat × Nat) := []
  ingress : List InFrame := []
  corr : Option Corr := none
  lastAdv : Option Nat := none
  /-- R233, R339: the last egress cell in which frames without a reservation left, and their bytes in it -/
  cell : Nat := 0
  cellUsed : Nat := 0
deriving DecidableEq, Repr

/-- R134, R151: a context slot. States: 0 FREE, 1 READY, 2 RUNNING, 3 DRAINING, 4 KILLED,
5 RELEASING. -/
structure Ctx where
  state : Nat := 0
  root : Nat := 0
  l1n : Nat := 0
  fltKind : Nat := 0
  fltEng : Nat := 0
  fltCl : Nat := 0
  fltVa : Nat := 0
  fltDesc : Nat := 0
  fltTick : Nat := 0
  /-- the CTX_RELEASE to answer when the clusters are cleared (R136) -/
  releasing : Option CmdReq := none
  /-- the CTX_START to answer once the MODEL_HASH is there (R454) -/
  starting : Option CmdReq := none
  /-- clusters the kill message has not reached yet (R146) -/
  killing : List Nat := []
deriving DecidableEq, Repr

/-- R149: an INV_RANGE in progress for a partition: the command, the context slots it names, the
dropped virtual range, and the copy descriptors whose settling it waits for. -/
structure InvJob where
  q : CmdReq
  slots : List Nat
  lo : Nat
  hi : Nat
  /-- cluster, engine and descriptor number of each descriptor waited for -/
  waits : List (Nat × Nat × Nat)
deriving DecidableEq, Repr

/-- Partitions, events and resets (chapter 15), and the context slots of chapter 06. -/
structure Parts where
  /-- contexts by 32·partition + slot, the context ID (R132) -/
  ctxs : KMap Ctx := []
  /-- context ID that owns each cluster (R132) -/
  owner : KMap (Option Nat) := []
  /-- INV_RANGE in progress by partition -/
  invs : KMap (List InvJob) := []
  /-- pending record of vector v of partition p by 256·p + v (R371) -/
  pend : KMap (Option EvRec) := []
  /-- sealed records awaiting delivery with their seal tick (R372) -/
  sealed : List (Nat × EvRec) := []
  /-- T_r of a partition's reset in progress (R378) -/
  resetting : KMap (Option Nat) := []
  /-- T_r of a cluster's reset in progress (R376) -/
  clReset : KMap (Option Nat) := []
deriving DecidableEq, Repr

/-- R402, R403: a staged check-value stream. -/
structure CvStream where
  off : Nat
  len : Nat
  poly : Nat
  fabric : Bool
  cmp : Bool
  part : Nat
  tag : Nat
  exp : Nat
deriving DecidableEq, Repr

/-- R403: a check-value unit. -/
structure Cv where
  queue : List CvStream := []
  run : Option CvStream := none
  /-- bytes of the running stream taken so far, and the register of R402 -/
  pos : Nat := 0
  crc : Nat := 0
  /-- status fixed by a fence, R404 -/
  ended : Option Status := none
deriving DecidableEq, Repr

/-- R398: an armed injection of a page: kind 2 or 3, for the bit named. -/
structure Armed where
  page : Nat
  bit : Nat
  kind : Nat
deriving DecidableEq, Repr

/-- Errors, fences and check values (chapter 16). -/
structure Errs where
  fq : List FaultRec := []
  nextSeq : Nat := 0
  fences : List FenceRec := []
  /-- armed injections of SECDED words (R398) -/
  armed : List Armed := []
  cvs : KMap Cv := []
  /-- units on which the triad's table or the masks disagree with BLK_STAT (R394) -/
  stale : List UnitId := []
  /-- UE-CHIP reported: its tick (R395) -/
  chipUe : Option Nat := none
  /-- floor-plan failure ticks (R391) -/
  failTick : List (UnitId × Nat) := []
deriving DecidableEq, Repr

/-- R466, R472, R474, R475: the chain port: SEQ and RESP of the last request carried out; reference
ticks of the last STATE frame and of the last alert; the fabric tick by which a RETIRE drains. -/
structure Chain where
  kept : Option (Nat × ChainFrame) := none
  stateAt : Option Nat := none
  alertAt : Option Nat := none
  retireBy : Nat := 0
  /-- R490, R492: reference tick since which CHAIN_ALERT_N is low -/
  inAt : Option Nat := none
deriving DecidableEq, Repr

/-- R436: a stage report: RESULT, DETAIL, END_US, DUR_US, bytes 12 to 31. -/
structure Report where
  result : Nat := 0xFF
  detail : Nat := 0
  stop : Nat := 0
  dur : Nat := 0
  data : List Byte := []
deriving DecidableEq, Repr

/-- R440: a configuration entry: a register write of a stage, or the session 0 record. -/
inductive CfgEnt where
  | reg (stage addr : Nat) (v : Word)
  | sess (stage : Nat) (ws : List Word)
deriving DecidableEq, Repr

/-- R434 to R452: bring-up: reference ticks at which it and its stage started, reports by stage, the
copy in use, its manifest's KEYSLOT and SVN, the configuration list, unit words of the clusters
(R458), the attempts of LMS reservations, whether S5 has placed the images. -/
structure Boot where
  start : Nat := 0
  stageStart : Nat := 0
  reports : KMap Report := []
  copyB : Bool := false
  fallback : Bool := false
  manA : Bool := false
  manB : Bool := false
  keyslot : Nat := 0
  svn : Nat := 0
  manifest : List Byte := []
  cfg : List CfgEnt := []
  units : KMap Nat := []
  tries : Nat := 0
  placed : Bool := false
  kdev : List Byte := []
  /-- R434, R491: bring-up has started; RESET_N is filtered low, or PWRGOOD has fallen -/
  on : Bool := false
  low : Bool := false
  /-- R489: a thermal trip holds the chip in reset -/
  tripped : Bool := false
  /-- R471, R506: a chip reset was ordered -/
  resetDue : Bool := false
deriving DecidableEq, Repr

/-- R453: an entry of the measurement log. -/
structure LogEnt where
  typ : Nat
  num : Nat
  tick : Nat
  dig : List Byte
deriving DecidableEq, Repr

/-- R453 to R455: measurements, their log, the MODEL_HASH of each context slot by context ID, and the
quote: that in preparation (its 192 bytes and its HSS index) and that ready. -/
structure Att where
  mboot : List Byte := List.replicate 48 0
  mrun : List Byte := List.replicate 48 0
  log : List LogEnt := []
  models : KMap (List Byte) := []
  making : Option (List Byte × Nat) := none
  quote : List Byte := []
deriving DecidableEq, Repr

/-- R306 to R309: the plan banks: the records of the plan in force, those loaded into the pending
bank by index, and the pending plan's FRAME. -/
structure Plan where
  cur : List Nat := []
  pend : KMap Nat := []
  named : Bool := false
  frame : Nat := 0
  /-- R235: block slots whose entry a promise kept out: origin of the plan, controller, slot -/
  outBlocks : List (Nat × Nat × Nat) := []
  /-- R235: egress cells in which a promise kept entries out: origin, link, cell, flits of them -/
  outCells : List (Nat × Nat × Nat × Nat) := []
deriving DecidableEq, Repr

/-- R324 to R326: the applied state of one shaper: TOK in millibytes, the slot up to which tokens
have accrued, and the wheel slot its head packet is entered in. -/
structure Shaper where
  en : Bool := false
  rate : Nat := 1
  burst : Nat := 1
  ovh : Nat := 0
  tok : Int := 0
  slot : Nat := 0
  entry : Option Nat := none
  /-- SHP_HELD: packets entered on the wheel (R331) -/
  count : Nat := 0
  /-- a configuration write waits for its wheel slot (R326): slot, SHP_CFG, SHP_RATE, SHP_BURST -/
  cfgDue : Option (Nat × Word × Word × Word) := none
deriving DecidableEq, Repr

/-- What leaves the chip, and what it hands to firmware and to its own runtimes. -/
inductive Out where
  /-- a packet the chip originates or answers, handed to the router -/
  | packet (p : Packet)
  /-- a packet forwarded on a link and VC -/
  | forward (l vc : Nat) (p : Packet)
  /-- a datagram passed on from the port to the XHT engine (R338) -/
  | pass (d : Datagram)
  /-- a datagram sent to the address of a session record (R345) -/
  | xht (record : List Word) (d : Datagram)
  /-- a TIME response, whose VALUE is the time at which it leaves (R361) -/
  | time (record : List Word) (d : Datagram)
  /-- a frame handed to firmware -/
  | firmware (f : EthFrame)
  /-- bytes of an ADVERTISE to a MAC address on a VLAN (R343) -/
  | advertise (mac vid : Nat) (body : List Byte)
  /-- a priority flow control frame that pauses priority q -/
  | pfc (q : Nat)
  /-- a flit sent on a link -/
  | flit (l : Nat) (f : Flit)
  /-- a flit's packet data delivered to a receive buffer -/
  | deliver (l : Nat) (f : Flit)
  /-- the 20 header bits of a codeword sent on a link (R255) -/
  | cwHead (l : Nat) (bits : Nat)
  /-- the time-exchange record that the flit just sent carries (R301) -/
  | timeRec (l : Nat) (t : TimeRec)
  /-- a chain frame sent on the downstream port -/
  | chain (f : ChainFrame)
  /-- a pair message on the MIRROR links -/
  | pair (m : PairMsg)
  /-- a P3 request handed to a cluster control core (R248) -/
  | dispatch (cluster : Nat) (req : Nat)
  /-- the chain alert line pulled or released, the pair alert line, the thermal trip line -/
  | pin (name : String) (asserted : Bool)
  /-- an input handed on in ORD order by a standby (R415) -/
  | apply (ord : Nat)
  /-- the decision an ordered note carries (R413) -/
  | note (ord : Nat) (k : NoteKind)
deriving DecidableEq, Repr

/-- R323, R339: a packet that waits on its shaper, or, `free` of it, on the gate or the pause of its
queue: port (96 Ethernet), partition, length, the packet, and for a response with a reservation its
deadline. -/
structure Held where
  port : Nat
  part : Nat
  len : Nat
  what : Out
  free : Bool
  td : Option Nat
deriving DecidableEq, Repr

end Sys2Proof.Machine
end

