-- ==== Sys2Proof/Machine/TypesPool.lean ====
section
/-! DEFINITION. State of the pool side: requests and promises, block accesses, channel controllers,
extents, isolation, leases, the directory and published regions (chapters 07 to 10). -/

namespace Sys2Proof.Machine

/-- R229: what a request asks for. -/
inductive ReqKind where
  | rd | wr | rdc | publish | brd | bwr | svc
deriving DecidableEq, Repr

/-- Where a block access stands: at the directory, in a recall, at its controller, in the gap of a
sub-block write (R170), or ended. -/
inductive Phase where
  | waitDir
  | recalling (rseq : Nat)
  | ready
  | rmw (slot : Nat)
  | served
deriving DecidableEq, Repr

/-- One access to one code block, from its issue to its end. -/
structure Acc where
  src : BlkSrc
  /-- port of R167 -/
  port : Nat
  /-- block index named, which the directory knows -/
  b : Nat
  /-- block index served: that of the body for a published region (R223) -/
  pb : Nat
  lo : Nat
  len : Nat
  write : Bool
  rdc : Bool
  excl : Bool
  /-- partition charged, R368; 64 for none -/
  part : Nat
  /-- requester of R172: kind in [15:14], ID in [13:0]; 0 for nobody -/
  x : Nat
  /-- bytes to write, or bytes read once served -/
  data : List Byte
  /-- reserved block slot, and the second slot of a sub-block write -/
  slot : Option Nat
  slot2 : Option Nat
  /-- passed the controller-side check of R193 or R185 -/
  checked : Bool
  phase : Phase
  st : Status
  /-- R210: registered by this RDC -/
  reg : Bool
  /-- its set is locked in the directory cache until the lookup (R243) -/
  lock : Bool
  /-- issue tick -/
  tick : Nat
  /-- missed its reserved slot (R164) -/
  late : Bool
deriving DecidableEq, Repr

/-- R231, R238: a request from its arrival at a port to its outcome. -/
structure Req where
  /-- admission sequence number, R219 (0 while it waits for its decision) -/
  id : Nat
  kind : ReqKind
  cls : Nat
  part : Nat
  /-- ingress port: link 0 to 95, or 96 for Ethernet -/
  port : Nat
  host : Nat
  srcChip : Nat
  srcPort : Nat
  tag : Nat
  session : Nat
  /-- session record it latched at admission (R345) -/
  addr : List Word
  chan : Nat
  seq : Nat
  th : Nat
  td : Nat
  off : Nat
  len : Nat
  excl : Bool
  chk : Nat
  data : List Byte
  /-- carries a promise (not class B) -/
  promise : Bool
  /-- isolation entries matched at the header tick with their generations, R194 -/
  gens : List (Nat × Nat)
  /-- region and body of R223; `others`: those of every further region the range meets -/
  region : Option Nat
  body : Nat
  others : List (Nat × Nat) := []
  /-- PUBLISH: BASE and NEW; a read: the version of the body it is served from (R223) -/
  base : Nat
  new : Nat
  /-- first failure that reached it: tick and status, R13 -/
  fixed : Option (Nat × Status)
  /-- CHECK of a write's header (R405) -/
  check : Nat
  /-- P3: entry, cluster, service slot, first occupied cell, cells -/
  entry : Nat
  cluster : Nat
  svcSlot : Nat
  occ0 : Nat
  occ : Nat
  /-- P3: handed to its cluster control core (R248); PUBLISH: flipped (R225). `resp`: the response
  bytes the service runtime posted -/
  dispatched : Bool
  resp : Option (List Byte)
  /-- R456, R457: MODEL_HASH of its context at admission; digest of the P3 response -/
  model : List Byte
  dig : List Byte
  /-- nblks block accesses belong to it -/
  nblks : Nat
  /-- its outcome is on its way (R238) -/
  sent : Bool
  /-- R251: its port has been down or fenced since it was accepted -/
  cut : Bool := false
  /-- R345, R359: the AUDIT session of its partition at admission, with its record -/
  audit : Option (Nat × List Word) := none
deriving DecidableEq, Repr

/-- A reserved block slot (R234); `owner` is the request, or none for a directory port-4 access. -/
structure ChRes where
  n : Nat
  slot : Nat
  bank : Nat
  /-- block index it serves -/
  b : Nat
  part : Nat
  owner : Nat
  dir : Bool
  /-- requester as in R172, for throttles -/
  x : Nat
deriving DecidableEq, Repr

/-- A reserved amount in an egress cell of a port (R234). -/
structure EgRes where
  port : Nat
  cell : Nat
  amt : Nat
  part : Nat
  owner : Nat
deriving DecidableEq, Repr

/-- A reserved service occupancy of a cluster: cells [c0, c0 + n) and a service slot (R234, R247). -/
structure ClRes where
  cluster : Nat
  c0 : Nat
  n : Nat
  slot : Nat
  part : Nat
  owner : Nat
deriving DecidableEq, Repr

/-- A reserved tracker entry with its wide bitmap over a tick interval (R234, R243). -/
structure TrkRes where
  t0 : Nat
  t1 : Nat
  owner : Nat
  /-- a recall has taken it: it holds until t1 -/
  used : Bool
deriving DecidableEq, Repr

/-- A recall or publish window entered for a block, with its end tick (R243). -/
structure WinRes where
  b : Nat
  stop : Nat
  owner : Nat
deriving DecidableEq, Repr

/-- R173, R242: a throttle: requester, controller, end tick. -/
structure Thr where
  x : Nat
  n : Nat
  stop : Nat
deriving DecidableEq, Repr

/-- R246: one access descriptor of a service entry. -/
structure SvcAcc where
  keyOff : Nat
  shift : Nat
  w : Bool
  nblk : Nat
  base : Nat
  stride : Nat
deriving DecidableEq, Repr

/-- R246: a service table entry. -/
structure SvcEnt where
  valid : Bool := false
  part : Nat := 0
  ctx : Nat := 0
  deadline : Nat := 0
  inT : Nat := 0
  outT : Nat := 0
  pre : Nat := 0
  occ : Nat := 0
  respBytes : Nat := 0
  accs : List SvcAcc := []
deriving DecidableEq, Repr

/-- R241: quotas of a partition in units of 1/1,024, and its open-promise limit. -/
structure Quota where
  ch : Nat := 1024
  eg : Nat := 1024
  cl : Nat := 1024
  openMax : Nat := 65536
deriving DecidableEq, Repr

/-- The admission controller (chapter 10). -/
structure Prom where
  /-- headers awaiting a decision, at most one per port (R238) -/
  hdrs : List Req := []
  /-- port taken last, for the round robin of R238 -/
  rr : Nat := 96
  /-- next admission sequence number, R219 -/
  seq : Nat := 1
  reqs : List Req := []
  ch : List ChRes := []
  eg : List EgRes := []
  cl : List ClRes := []
  trk : List TrkRes := []
  win : List WinRes := []
  thr : List Thr := []
  quota : KMap Quota := []
  svc : KMap SvcEnt := []
  /-- R390: ticks at which a unit's fence was lifted: its calendar has room only in cells that had
  not entered the horizon then -/
  lifted : List (UnitId × Nat) := []
deriving DecidableEq, Repr

/-- R172: a hot-row table entry. -/
structure HotRow where
  row : Nat
  count : Nat
  cand : Nat
  vote : Nat
deriving DecidableEq, Repr

/-- R169: a token bucket: level in 1/1,024 token at a slot number. -/
structure Bucket where
  level : Nat
  slot : Nat
deriving DecidableEq, Repr

/-- R169: the last slot in which a throttled requester was served on a port. -/
structure Served where
  x : Nat
  port : Nat
  slot : Nat
deriving DecidableEq, Repr

/-- One channel controller beyond its registers (R162 to R180). -/
structure Mc where
  /-- blocks served in the last slots: slot number and data bank; the last slot taken -/
  hist : List (Nat × Nat) := []
  lastSlot : Option Nat := none
  /-- buckets by partition + 64·port; none: full (R169) -/
  buckets : KMap (Option Bucket) := []
  /-- MC_REG_CFG by partition + 64·port (R182) -/
  regCfg : KMap Word := []
  /-- hot-row tables by bank, entries in table order (R172) -/
  hot : KMap (List HotRow) := []
  /-- neighbour refreshes placed: bank and row (R173) -/
  nbr : List (Nat × Nat) := []
  /-- poison table: block index and DEFECT (R176) -/
  poison : List (Nat × Bool) := []
  /-- blocks marked by ERR_INJECT KIND 3 (R183) -/
  marked : List Nat := []
  /-- armed ERR_INJECT kind: 0, 2 or 3 -/
  inject : Nat := 0
  throttled : List (Nat × Nat) := []
  spaced : List Served := []
  /-- tick of the last command, for power-down (R171) -/
  idleSince : Nat := 0
  /-- tick from which the reset completes (R380) -/
  resetting : Option Nat := none
  /-- R166: tick of the last choice of the refresh rate, and whether the rate before it was the hot one -/
  rateAt : Nat := 0
  wasHot : Bool := true
  /-- last leak tick of the bucket (R174) -/
  leakTick : Nat := 0
  /-- arbiter of R167 -/
  arbCount : Nat := 1
  arbHolder : Option Nat := none
deriving DecidableEq, Repr

/-- R187: an extent's table entry. -/
structure Ext where
  state : Nat := 0
  part : Nat := 0
  bound : Bool := false
  lease : Nat := 0
  defect : Nat := 0
  /-- end of its quarantine, or the tick at which its fill started (R199) -/
  qEnd : Nat := 0
deriving DecidableEq, Repr

/-- R189, R194: an isolation entry in both copies. -/
structure Iso where
  rt : List Word := [0, 0, 0, 0]
  ct : List Word := [0, 0, 0, 0]
  gen : Nat := 0
  /-- previous generation kept by the controller-side copy -/
  prev : Option (List Word) := none
deriving DecidableEq, Repr

/-- R190, R194: what a committed change belongs to: a command that only adds rights and answers at
its commit tick, or a revocation. -/
inductive IsoWhy where
  | add (q : CmdReq)
  | rev (id : Nat)
deriving DecidableEq, Repr

/-- R194: a change in the shadow rows with its commit tick. -/
structure IsoChange where
  idx : Nat
  ws : List Word
  tc : Nat
  why : IsoWhy
deriving DecidableEq, Repr

/-- R196: a lease. States: 0 FREE, 1 ACTIVE, 2 GRACE, 3 RECLAIM. -/
structure Lease where
  state : Nat := 0
  host : Nat := 0
  part : Nat := 0
  len : Nat := 0
  rint : Nat := 0
  x : Nat := 0
deriving DecidableEq, Repr

/-- R200, R201: what a revocation does when it is done. -/
inductive RevKind where
  | isoSet | isoClear | extReturn | leaseClose (i : Nat) | lapse (i : Nat) | unbind (l : Nat)
deriving DecidableEq, Repr

/-- R200, R201: a revocation from its commit tick to its answer. -/
structure Rev where
  id : Nat
  q : Option CmdReq
  kind : RevKind
  tc : Nat
  committed : Bool
  /-- sending partition -/
  part : Nat
  /-- extents it moves to RETURNING -/
  exts : List Nat
  /-- isolation entries it changes -/
  idxs : List Nat
  /-- recalls it waits for -/
  rcls : List Nat
  /-- accepted requests it waits for -/
  olds : List Nat
  /-- copy blocks it waits for -/
  copies : List BlkSrc
deriving DecidableEq, Repr

/-- A change that waits for a commit tick and is no isolation entry: link bindings, lease closes,
region creation, extent returns (R194, R197, R205, R222). -/
inductive Commit where
  | bind (q : CmdReq) (link : Nat) (valid : Bool) (host : Nat)
  | close (rev lease : Nat)
  | ret (rev : Nat)
  | pub (q : CmdReq) (r : Nat)
  /-- FENCED set in both copies (R193, R195, R215) -/
  | fence (idx : Nat) (host : Option Nat)
deriving DecidableEq, Repr

/-- Extents, isolation and leases (chapter 08). -/
structure Rights where
  exts : KMap Ext := []
  iso : KMap Iso := []
  shadow : List IsoChange := []
  commits : List (Nat × Commit) := []
  /-- changes that wait for an earlier change to their entry (R194) -/
  isoWait : List IsoChange := []
  /-- R202: revocations of EXT_RETURNs that wait for changes to overlapping entries -/
  retWait : List Nat := []
  /-- R199: blocks written of the fill of extent x on controller n, by 256·x + n -/
  fillPos : KMap Nat := []
  leases : KMap Lease := []
  revs : List Rev := []
  revSeq : Nat := 0
  /-- entry the comparator looks at next (R195) -/
  cmpPos : Nat := 0
  cmpTick : Nat := 0
  /-- RT_LINK_HOST by link: VALID and host (R205) -/
  linkHost : KMap (Option Nat) := []
deriving DecidableEq, Repr

/-- R207: a directory entry. States: 0 INVALID, 1 SHARED, 2 OWNED, 3 PENDING. -/
structure DirEnt where
  tag : Nat := 0
  state : Nat := 0
  wide : Bool := false
  owner : Nat := 0
  ptrs : List Nat := []
  rseq : Nat := 0
  groups : Nat := 0
deriving DecidableEq, Repr

/-- R212: what becomes of an entry when its recall completes. -/
inductive After where
  /-- the entry goes INVALID -/
  | invalid
  /-- OWNED by the host -/
  | owned (h : Nat)
  /-- the evicted entry leaves the tracker -/
  | evicted
  | range
  | lostSet (s : Nat)
  /-- the entry stays PENDING until the flip of region r (R225) -/
  | flip (r : Nat)
deriving DecidableEq, Repr

/-- R213: one entry of the recall tracker. -/
structure Trk where
  rseq : Nat
  /-- 0 BLOCK, 1 RANGE, 2 SET -/
  kind : Nat
  /-- block index, first extent, or set -/
  what : Nat
  /-- extents of a RANGE recall -/
  count : Nat
  /-- holders that have not acknowledged -/
  holders : List Nat
  issue : Nat
  wide : Bool
  after : After
  /-- R218: the evicted entry -/
  victim : Option DirEnt
  /-- uses an entry no promise reserved -/
  unreserved : Bool
  /-- R216: holders whose RECALL waits for the last flit of their RESP -/
  late : List Nat := []
deriving DecidableEq, Repr

/-- R510: a RANGE or SET recall that waits for its tracker entry and bitmap. -/
structure RclWait where
  kind : Nat
  what : Nat
  count : Nat
  host : Nat
  rev : Option Nat
deriving DecidableEq, Repr

/-- R208: a set in the directory cache. -/
structure CSet where
  set : Nat
  dirty : Bool
deriving DecidableEq, Repr

/-- R511: the running DIR_SEL lookup: its block, whether it waits for the read of the set, and whether that
read brought nothing. -/
structure DirLook where
  b : Nat
  wait : Bool := false
  bad : Bool := false
deriving DecidableEq, Repr

/-- The directory (chapter 09). -/
structure Dir where
  /-- entries by 128·s + index -/
  ents : KMap DirEnt := []
  /-- ways of each cache set, most recently used first (R208) -/
  cache : KMap (List CSet) := []
  /-- R208: sets read for a lookup while every way of their cache set was locked -/
  got : List Nat := []
  /-- R221: controllers whose sets have become DISABLED since bring-up -/
  offCtl : List Nat := []
  /-- set-map words rewritten to all ones after an uncorrectable word (R208): set numbers ÷ 32 -/
  mapOnes : List Nat := []
  disabled : List Nat := []
  /-- sets rewritten whole since their block was last found bad (R221 step 3) -/
  clean : List Nat := []
  /-- sets being handled under R221 -/
  lost : List Nat := []
  nextRseq : Nat := 0
  trk : List Trk := []
  waits : List RclWait := []
  /-- R215: host and block between the timeout and the commit of its fence -/
  fencing : List Nat := []
  look : Option DirLook := none
deriving DecidableEq, Repr

/-- R225: a publish in its region's queue. -/
structure Pub where
  req : Nat
  base : Nat
  new : Nat
  /-- first payload block within the region, and blocks -/
  k0 : Nat
  n : Nat
  /-- R243: sets its admission holds locked in the directory cache until its start -/
  locks : List Nat := []
deriving DecidableEq, Repr

/-- R222 to R228: a published region. States: 0 READY, 1 PUBLISHING, 2 DRAINING, 3 RESYNC. -/
structure Region where
  valid : Bool := false
  base : Nat := 0
  shadow : Nat := 0
  count : Nat := 0
  part : Nat := 0
  cur : Nat := 0
  state : Nat := 0
  version : Nat := 0
  flip : Nat := 0
  queue : List Pub := []
  /-- command answered when the shadow copy is done (R222), or the region deleted -/
  creating : Option CmdReq := none
  created : Bool := false
  deleting : Option CmdReq := none
  /-- R222: it is deleted once it is READY; and the copy of body 1 to body 0 for a deletion runs -/
  delWanted : Bool := false
  delCopy : Bool := false
  /-- blocks of the running publish that are PENDING, with the host that owns each afterwards -/
  pendBlks : List (Nat × Option Nat) := []
  /-- payload range of the running publish or resync: first block, blocks -/
  run0 : Nat := 0
  runN : Nat := 0
  /-- reads of the old body that have no outcome yet (R225) -/
  drain : List Nat := []
  /-- copy step: blocks copied (R222, R225) -/
  copyPos : Nat := 0
  /-- commit tick of its creation -/
  tc : Nat := 0
deriving DecidableEq, Repr

end Sys2Proof.Machine
end

