-- ==== Sys2Proof/Machine/TypesPair.lean ====
section
/-! DEFINITION. State of the redundant pair and of the voter (chapter 17). -/

namespace Sys2Proof.Machine

/-- R413, R415: a token or a note the standby holds: ORD, TICK, ARG0, ARG1, and for a note what it
decides. -/
structure PairTok where
  ord : Nat
  tick : Nat
  arg0 : Nat
  arg1 : Nat
  what : Option NoteKind
deriving DecidableEq, Repr

/-- R415: an input body: its identity (ARG0 of its token), the tick of receipt, and the input. -/
structure PairIn where
  arg0 : Nat
  tick : Nat
  body : PairInput
deriving DecidableEq, Repr

/-- R422: an output: the ORD of its cause, its index, C, and its due epoch once known. -/
structure PairOut where
  ord : Nat
  idx : Nat
  crc : Nat
  due : Option Nat
deriving DecidableEq, Repr

/-- The pair logic beyond the registers of its page. -/
structure Pair where
  /-- R413: ORD of the input now carried out, the cause of what leaves -/
  cause : Option Nat := none
  /-- R415: tokens and notes held in wait for their turn; tokens of requests carried out whose
  admission has not decided yet -/
  tokens : List PairTok := []
  live : List PairTok := []
  /-- R413: TICK of the token or note carried out last -/
  tick : Nat := 0
  /-- R416, R420: the ORD of each input by its identity, the latest last -/
  ids : List (Nat × Nat) := []
  /-- R415: the standby's input buffer; the holder's order log; open RELAYs by ORD -/
  inbuf : List PairIn := []
  log : List PairIn := []
  relays : List Nat := []
  /-- R416: ORDs acknowledged with HAVE = 1; notes that fix a status: their ORD and their cause -/
  acked : List Nat := []
  notes : List (Nat × Nat) := []
  /-- R418: t_a, the send tick of the last RENEW; SENT_ORD of the last RENEW received, of a holder its
  own -/
  ta : Nat := 0
  renewAt : Nat := 0
  sentOrd : Nat := 0
  /-- R419, R421: this holder has no standby, whose acknowledgement it would wait for -/
  alone : Bool := true
  /-- R419: the first formation has taken place -/
  formed : Bool := false
  frozenAt : Option Nat := none
  /-- R421: begin of the latest alert seen; since when the input is asserted; whether it was seen
  deasserted since it was latched; since when the output is asserted -/
  alertAt : Option Nat := none
  inAt : Option Nat := none
  seenLow : Bool := false
  outAt : Option Nat := none
  /-- R426: T_b of a planned handover -/
  boundary : Option Nat := none
  /-- R420: outputs a standby holds ready, by cause -/
  ready : List (Nat × Out) := []
  /-- R422, R423: own outputs; digests received by epoch; the last epoch handled; the first
  compared -/
  outs : List PairOut := []
  /-- due epochs the holder named of outputs not ready yet: ORD, index, epoch -/
  dues : List (Nat × Nat × Nat) := []
  digests : List (Nat × Nat) := []
  epoch : Option Nat := none
  cmpFrom : Nat := 0
  /-- R424: ORD_J; on a holder whose peer joins, the next block to copy -/
  ordJ : Option Nat := none
  copyAt : Option Nat := none
deriving DecidableEq, Repr

/-- R429, R430: a copy of a triplicated register that differs: the register's address, the copy, its
value. -/
structure TmrBad where
  addr : Nat
  copy : Nat
  value : Word
deriving DecidableEq, Repr

/-- R412, R424: the replicated state a SNAPSHOT carries. -/
structure Snap where
  rights : Rights
  dir : Dir
  regions : KMap Region
  prom : Prom
  ctxs : KMap Ctx
  owner : KMap (Option Nat)
  sess : KMap (List Word)
  cmdWin : KMap SeqWin
  dataWin : KMap SeqWin
  regs : KMap Word
deriving DecidableEq, Repr

end Sys2Proof.Machine
end

