-- ==== Sys2Proof/Syntax.lean ====
section
/-! DEFINITION. The commands of the block: one constructor per row of the spec's opcode table. -/

namespace Sys2Proof

/-- The commands. Every constructor is a row of the table; its docstring is the row's summary with
the rule that gives its effect. -/
inductive Instr where
  /-- FG_POST (R59): A write of a descriptor offset to FG_POST copies the 64 B descriptor into a free frog queue entry, or discards the post. -/
  | fgPost (c : ClusterNo) (ag : Agent) (v : Word)
  /-- TILE (R60): The frog starts the TILE descriptor at the queue head and runs its check, prepass, main, drain and completion phases. -/
  | tile (c : ClusterNo)
  /-- LOAD (R58): The frog starts a LOAD descriptor and reads a partial into its slot, replacing or combining under R42. -/
  | load (c : ClusterNo)
  /-- SCAN (R71): The frog starts a SCAN descriptor and runs a prefix-sum or recurrence pass over its lanes. -/
  | scan (c : ClusterNo)
  /-- FG_TRAP_ACT_RESUME (R67): RESUME written to FG_TRAP_ACT drops the trapped descriptor and continues with the next one. -/
  | fgTrapActResume (c : ClusterNo)
  /-- FG_TRAP_ACT_FLUSH (R67): FLUSH written to FG_TRAP_ACT drops the trapped and every queued descriptor and counts them in FG_FLUSHED. -/
  | fgTrapActFlush (c : ClusterNo)
  /-- CARRY_POST (R80): A carry or relay post arriving at a frog is entered in its carry table or carry-in buffer, or discarded. -/
  | carryPost (c : ClusterNo) (i : Nat)
  /-- ABORT_POST (R81): An abort post received for a running or waiting scan ends its descriptor with the carried status and forwards the abort. -/
  | abortPost (c : ClusterNo) (i : Nat)
  /-- CARRY_TMO (R81): A carry wait that exceeds FG_CARRY_TMO ends the scan descriptor with FENCED and sends abort posts. -/
  | carryTmo (c : ClusterNo)
  /-- NEWT_ALU_OP (R86): A newt issues an RV32I, M, C, Zba or Zbb arithmetic, logic, branch or jump instruction with its fixed timing. -/
  | newtAluOp (c : ClusterNo) (m : CoreNo)
  /-- NEWT_LOAD (R88): A newt load reads its own SRAM, the cluster store through its data cache, or an allowed register. -/
  | newtLoad (c : ClusterNo) (m : CoreNo)
  /-- NEWT_STORE (R88): A newt store writes its data SRAM, the cluster store through its data cache, or FG_POST. -/
  | newtStore (c : ClusterNo) (m : CoreNo)
  /-- CSR_ACCESS (R92): A newt reads or writes one of its implemented CSRs. -/
  | csrAccess (c : ClusterNo) (m : CoreNo)
  /-- FENCE_INSN (R85): FENCE executes as kv.fence.st followed by a wait for every earlier load. -/
  | fenceInsn (c : ClusterNo) (m : CoreNo)
  /-- ECALL (R97): ECALL stops the newt with cause 8 to ask the cluster control core for a service. -/
  | ecall (c : ClusterNo) (m : CoreNo)
  /-- EBREAK (R97): EBREAK stops the newt with cause 3. -/
  | ebreak (c : ClusterNo) (m : CoreNo)
  /-- KV_QMUL (R95): kv.qmul multiplies, rounds by kvqsh and kvrm and clamps to s32. -/
  | kvQmul (c : ClusterNo) (m : CoreNo)
  /-- KV_SADD (R95): kv.sadd adds with saturation to s32. -/
  | kvSadd (c : ClusterNo) (m : CoreNo)
  /-- KV_SSUB (R95): kv.ssub subtracts with saturation to s32. -/
  | kvSsub (c : ClusterNo) (m : CoreNo)
  /-- KV_CLAMP (R95): kv.clamp bounds rs1 between rs2 and rs3 and sets SAT when clamped. -/
  | kvClamp (c : ClusterNo) (m : CoreNo)
  /-- KV_BEXP (R95): kv.bexp returns the maximum of rs2 and the exponent that fits rs1 in W bits. -/
  | kvBexp (c : ClusterNo) (m : CoreNo)
  /-- KV_DOT4 (R95): kv.dot4 adds four s8 products into a 64-bit register pair. -/
  | kvDot4 (c : ClusterNo) (m : CoreNo)
  /-- KV_CRC (R95): kv.crc advances a CRC state over one, two or four bytes. -/
  | kvCrc (c : ClusterNo) (m : CoreNo)
  /-- KV_CPY (R95): kv.cpy posts a copy program to a copy engine queue, or rejects it. -/
  | kvCpy (c : ClusterNo) (m : CoreNo)
  /-- KV_WAITT (R101): kv.waitt puts the newt in WAIT_TICK until the cluster tick copy reaches a target, or returns at once. -/
  | kvWaitt (c : ClusterNo) (m : CoreNo)
  /-- KV_EVT (R95): kv.evt queues an event with a vector and payload for the context's partition, or rejects it. -/
  | kvEvt (c : ClusterNo) (m : CoreNo)
  /-- KV_FENCE_ST (R96): kv.fence.st writes back every dirty cluster-store line of the newt before later posts issue. -/
  | kvFenceSt (c : ClusterNo) (m : CoreNo)
  /-- WAIT_TICK_REACHED (R101): The cluster tick copy reaches a waiting newt's target and kv.waitt returns 0. -/
  | waitTickReached (c : ClusterNo) (m : CoreNo)
  /-- NW_KICK (R101): A write of NW_KICK ends the kv.waitt of one newt, or of every waiting newt, with rd = 1. -/
  | nwKick (c : ClusterNo) (v : Word)
  /-- HALT (R99): NW_CTL HALT stops a running or waiting newt and sets NW_PC. -/
  | halt (c : ClusterNo) (m : NewtNo)
  /-- RESUME (R99): NW_CTL RESUME starts a halted or trapped newt at NW_PC and clears its trap bit. -/
  | resume (c : ClusterNo) (m : NewtNo)
  /-- NEWT_RESET (R100): NW_CTL newt reset clears the pipeline and starts writing back the newt's dirty lines. -/
  | newtReset (c : ClusterNo) (m : NewtNo)
  /-- NEWT_RESET_DONE (R100): After its write-backs the newt enters OFF with reset registers, or is fenced on a bad dirty line. -/
  | newtResetDone (c : ClusterNo) (m : NewtNo)
  /-- NW_START (R106): A write of NW_START starts every masked newt in HALTED at the given PC in one cycle. -/
  | nwStart (c : ClusterNo) (v : Word)
  /-- BROADCAST (R106): Setting NW_BC_CTL.GO checks and starts loading one image into every masked newt. -/
  | broadcast (c : ClusterNo) (v : Word)
  /-- BROADCAST_DONE (R106): The broadcast finishes, BUSY clears and every loaded newt is HALTED. -/
  | broadcastDone (c : ClusterNo)
  /-- NW_XDATA_WRITE (R109): A write of NW_XDATA sets the selected register of a stopped newt. -/
  | nwXdataWrite (c : ClusterNo) (v : Word)
  /-- MBOX_IN_SET (R107): The triad sets NW_MBOX_DB.IN, raising MBOX at the cluster control core. -/
  | mboxInSet (c : ClusterNo)
  /-- MBOX_IN_CLEAR (R107): The cluster control core clears NW_MBOX_DB.IN after reading the words. -/
  | mboxInClear (c : ClusterNo)
  /-- MBOX_OUT_SET (R107): The cluster control core sets NW_MBOX_DB.OUT, signalling the triad through GLB_MBOX_PEND. -/
  | mboxOutSet (c : ClusterNo)
  /-- MBOX_OUT_CLEAR (R107): The triad clears NW_MBOX_DB.OUT. -/
  | mboxOutClear (c : ClusterNo)
  /-- FROG_DONE_ACK (R108): A write of NW_CCC_ACK.FROG_DONE clears the pending frog-completion interrupt. -/
  | frogDoneAck (c : ClusterNo)
  /-- CCC_INTERRUPT (R93): The cluster control core takes an enabled pending interrupt or exception in machine mode. -/
  | cccInterrupt (c : ClusterNo)
  /-- SNOOP_RD (R117): The order point admits a load-miss RD transaction and the line is supplied to the requesting cache. -/
  | snoopRd (c : ClusterNo) (m : CoreNo)
  /-- SNOOP_RDX (R117): The order point admits a store-miss RDX transaction; other holders go to I. -/
  | snoopRdx (c : ClusterNo) (m : CoreNo)
  /-- SNOOP_UPG (R117): The order point admits an UPG for a store to an S line; other holders go to I. -/
  | snoopUpg (c : ClusterNo) (m : CoreNo)
  /-- SNOOP_WB (R117): The order point admits a write-back of an M line to the cluster store. -/
  | snoopWb (c : ClusterNo) (m : CoreNo)
  /-- SNOOP_INV (R119): Before an agent write, INV moves every newt copy of the touched lines to I, writing back M copies. -/
  | snoopInv (c : ClusterNo) (start : AgentAt) (len : Nat)
  /-- CL_SCRUB (R114): Every CL_SCRUB.INTERVAL cycles the scrubber reads and corrects one cluster-store granule. -/
  | clScrub (c : ClusterNo)
  /-- ARB_GRANT (R317): An arbiter decides which requester transfers next, by priority or longest wait every Nth grant, with preemption and parking. -/
  | arbGrant (id : ArbId) (cycles : Nat) (reqs : List ArbReq) (withdrawn : List Nat)
  /-- CP_POST (R122): A write of CP_POST queues a copy program on an engine, or is discarded. -/
  | cpPost (c : ClusterNo) (e : EngNo) (ag : Agent) (v : Word)
  /-- COPY_RD (R121): A copy engine starts an RD descriptor that reads pool blocks into its own store. -/
  | copyRd (c : ClusterNo) (e : EngNo)
  /-- COPY_WR (R121): A copy engine starts a WR descriptor that writes store blocks to the pool. -/
  | copyWr (c : ClusterNo) (e : EngNo)
  /-- COPY_XC (R128): A copy engine starts an XC descriptor that copies blocks to another cluster's store. -/
  | copyXc (c : ClusterNo) (e : EngNo)
  /-- COPY_WAITT (R125): A copy engine reaches a WAITT descriptor and waits for its tick, or continues late. -/
  | copyWaitt (c : ClusterNo) (e : EngNo)
  /-- WAITT_REACHED (R125): The cluster tick copy reaches a WAITT's TICK and the next descriptor starts. -/
  | waittReached (c : ClusterNo) (e : EngNo)
  /-- CP_KICK (R125): A write of CP_KICK ends a WAITT wait early and sets LATE. -/
  | cpKick (c : ClusterNo) (e : EngNo) (ag : Agent) (v : Word)
  /-- BLOCK_ISSUE (R126): A copy engine issues its next block request when room and spacing allow. -/
  | blockIssue (c : ClusterNo) (e : EngNo)
  /-- BLOCK_SETTLE (R127): A copy block settles in its destination or the pool, or fails, and completes its descriptor when it is the last. -/
  | blockSettle (c : ClusterNo) (e : EngNo) (i : Nat)
  /-- XC_BLOCK_ARRIVE (R128): An XC block arrives at the target cluster's mesh ingress and is written under INV, or dropped. -/
  | xcBlockArrive (c : ClusterNo) (i : Nat)
  /-- CTX_ASSIGN (R135): CTX_ASSIGN gives a FREE slot its clusters, root and L1 count, making it READY. -/
  | ctxAssign (q : CmdReq) (slot root l1n : Nat) (clusters : List Nat)
  /-- CTX_START (R135): CTX_START tells the cluster control cores through the mailbox and makes the slot RUNNING. -/
  | ctxStart (q : CmdReq) (slot : Nat)
  /-- CTX_KILL (R135): CTX_KILL with DRAIN = 0 kills the context under R146. -/
  | ctxKill (q : CmdReq) (slot : Nat)
  /-- CTX_KILL_DRAIN (R135): CTX_KILL with DRAIN = 1 makes a RUNNING context DRAINING and refuses new requests. -/
  | ctxKillDrain (q : CmdReq) (slot : Nat)
  /-- DRAIN_COMPLETE (R147): When every accepted promise of a DRAINING context has its outcome, the context is killed. -/
  | drainComplete (p : PartNo) (slot : SlotNo)
  /-- CTX_RELEASE (R136): CTX_RELEASE moves a READY or KILLED slot to RELEASING and starts clearing its clusters. -/
  | ctxRelease (q : CmdReq) (slot : Nat)
  /-- CTX_RELEASE_DONE (R136): The clusters are cleared, the slot becomes FREE and CTX_RELEASE answers OK. -/
  | ctxReleaseDone (p : PartNo) (slot : SlotNo)
  /-- INV_RANGE (R149): INV_RANGE drops TLB entries overlapping a range and abandons translations in progress there. -/
  | invRange (q : CmdReq) (slot : Nat) (allSlots allVa : Bool) (va len : Nat)
  /-- INV_RANGE_ANSWER (R149): Once every descriptor that used a dropped entry has settled, INV_RANGE answers OK. -/
  | invRangeAnswer (p : PartNo)
  /-- TABLE_WRITE (R140): TABLE_WRITE writes translation table entries in the partition's area, or answers NO_ACCESS. -/
  | tableWrite (q : CmdReq) (off : Nat) (data : List Byte)
  /-- WALK_READ_DONE (R142): A table walk read returns and the walk continues, installs a TLB entry or faults. -/
  | walkReadDone (c : ClusterNo) (e : Nat)
  /-- TLB_PRELOAD (R143): Setting CL_TLB_PRE_HI.GO starts a preload walk of one 2 MiB page, optionally pinned. -/
  | tlbPreload (c : ClusterNo) (v : Word)
  /-- KILL_MESSAGE (R146): The kill message reaches a cluster, which stops its newts, frog, copy engines and scans. -/
  | killMessage (c : ClusterNo)
  /-- BLOCK_SLOT (R164): A channel controller serves one code block in a block slot: decode or encode, ordering and checks. -/
  | blockSlot (n : McNo)
  /-- THROTTLE (R242): A throttle for a requester on a controller reaches the admission controller and enters a throttle entry. -/
  | throttle
  /-- THROTTLE_END (R173): A throttle lapses 64 µs after its latest trigger. -/
  | throttleEnd (i : Nat)
  /-- HOT_ROW_CLEAR (R172): Every 32 ms all hot-row tables are cleared. -/
  | hotRowClear
  /-- CE_LEAK (R174): Every MC_CE_BKT.LEAK µs the leaky bucket level drops by one. -/
  | ceLeak (n : McNo)
  /-- REFRESH_WINDOW (R166): A bank's refresh window starts; the controller refreshes it at the chosen rate. -/
  | refreshWindow (n : McNo) (b : Fin 16)
  /-- RETRAINING (R165): A controller's retraining window starts and the channel is retrained. -/
  | retraining (n : McNo) (ok : Bool)
  /-- PATROL_SCRUB (R165): A patrol-scrub window reads one block and rewrites it when enough symbols were corrected. -/
  | patrolScrub (n : McNo)
  /-- POWER_DOWN (R171): A channel idle for MC_PD.IDLE cycles enters power-down. -/
  | powerDown (n : McNo)
  /-- POWER_DOWN_EXIT (R171): The controller leaves power-down before a reserved slot, a refresh window or an unreserved request. -/
  | powerDownExit (n : McNo)
  /-- CHANNEL_CONTROLLER_RESET (R380): SOFT_RESET of a controller page finishes started slots, clears its queues and ends unserved blocks RESET. -/
  | channelControllerReset (n : McNo)
  /-- CHANNEL_CONTROLLER_RESET_DONE (R380): The controller reset completes within 2 µs. -/
  | channelControllerResetDone (n : McNo)
  /-- EXT_GRANT (R188): EXT_GRANT makes FREE extents OWNED by a partition. -/
  | extGrant (q : CmdReq) (part base count : Nat)
  /-- EXT_BIND (R188): EXT_BIND binds owned extents to a lease. -/
  | extBind (q : CmdReq) (base count lease : Nat)
  /-- EXT_RETURN (R188): EXT_RETURN removes overlapping isolation entries and makes extents RETURNING. -/
  | extReturn (q : CmdReq) (force : Bool) (part base count : Nat)
  /-- EXT_HOLD (R188): EXT_HOLD makes quarantined extents HELD by partition 0. -/
  | extHold (q : CmdReq) (base count : Nat)
  /-- EXT_RELEASE (R188): EXT_RELEASE moves HELD extents to ZEROING. -/
  | extRelease (q : CmdReq) (base count : Nat)
  /-- ISO_SET (R190): ISO_SET writes an isolation entry into the shadow rows for a commit tick. -/
  | isoSet (q : CmdReq) (idx : Nat) (w0 w1 w2 w3 : Word)
  /-- ISO_CLEAR (R190): ISO_CLEAR removes an isolation entry at a commit tick. -/
  | isoClear (q : CmdReq) (idx : Nat)
  /-- COMMIT_TICK (R194): At the commit tick both isolation copies make the shadow row current with a new generation. -/
  | commitTick
  /-- ISO_COMPARE (R195): Every EXT_ISO_CMP.INT cycles the comparator compares one entry in both copies. -/
  | isoCompare
  /-- REVOCATION_DONE (R201): When every old request, copy block and recall has its outcome, the revocation answers OK and extents enter QUARANTINE. -/
  | revocationDone (i : Nat)
  /-- LEASE_OPEN (R196): LEASE_OPEN opens the lowest FREE lease for a host and sets its expiry. -/
  | leaseOpen (q : CmdReq) (host len rint : Nat)
  /-- LEASE_CLOSE (R197): LEASE_CLOSE moves a lease to RECLAIM at a commit tick. -/
  | leaseClose (q : CmdReq) (lease : Nat)
  /-- LEASE_RENEW (R198): LEASE_RENEW extends an ACTIVE or GRACE lease of its host, or answers NO_ACCESS. -/
  | leaseRenew (src : RenewSrc)
  /-- LEASE_EXPIRY (R197): Tick X reached moves an ACTIVE lease to GRACE and raises LEASE_EXPIRED. -/
  | leaseExpiry (i : Nat)
  /-- LEASE_GRACE_END (R197): Tick G reached moves a GRACE lease to RECLAIM. -/
  | leaseGraceEnd (i : Nat)
  /-- RECLAIM_DONE (R198): When the drain and the purge complete the lease becomes FREE. -/
  | reclaimDone (i : Nat)
  /-- QUARANTINE_END (R199): An extent's quarantine time elapses and it enters ZEROING. -/
  | quarantineEnd (x : Nat)
  /-- ZEROING_DONE (R199): The last block of a zeroing extent is written and the extent becomes FREE. -/
  | zeroingDone (x : Nat)
  /-- LINK_BIND (R205): LINK_BIND sets or removes the host ID bound to a HOST link at a commit tick. -/
  | linkBind (q : CmdReq) (link : Nat) (valid : Bool) (host : Nat)
  /-- RD (R243): An RD request packet arrives at its pool chip and goes to admission. -/
  | rd (port : Nat) (pkt : Packet)
  /-- WR (R243): A WR request packet with its data arrives at its pool chip and goes to admission. -/
  | wr (port : Nat) (pkt : Packet)
  /-- RDC (R210): An RDC request reads a block and may register the host as a holder. -/
  | rdc (port : Nat) (pkt : Packet)
  /-- DIR_LOOKUP_DONE (R209): A directory lookup ends and the directory event for the block proceeds. -/
  | dirLookupDone (src : BlkSrc)
  /-- RECALL_ACK (R214): A RECALL_ACK is accepted for an open recall or discarded; the last one completes the recall. -/
  | recallAck (port : Nat) (pkt : Packet)
  /-- RECALL_TIMEOUT (R215): At issue + DIR_RCL_TMO unacknowledged holders are fenced or reclaimed and the waiting write proceeds. -/
  | recallTimeout (i : Nat)
  /-- RECALL_RESOURCES_OBTAINED (R510): A waiting RANGE or SET recall obtains its tracker entry and bitmap and issues. -/
  | recallResourcesObtained (i : Nat)
  /-- DIR_SEL (R511): A write of DIR_SEL starts a read-only lookup of a block's directory entry. -/
  | dirSel (v : Word)
  /-- DIR_SEL_DONE (R511): The DIR_SEL lookup ends, shows the entry and clears BUSY. -/
  | dirSelDone
  /-- PUB_CREATE (R222): PUB_CREATE creates a published region at a commit tick and starts copying body 0 to the shadow. -/
  | pubCreate (q : CmdReq) (base shadow count version : Nat)
  /-- PUB_CREATE_READY (R222): The shadow copy finishes, the region is READY and PUB_CREATE answers OK. -/
  | pubCreateReady (r : Nat)
  /-- PUB_DELETE (R222): PUB_DELETE frees a READY region with an empty queue after restoring body 0. -/
  | pubDelete (q : CmdReq) (region : Nat)
  /-- PUBLISH (R224): A PUBLISH request arrives with BASE, NEW and payload blocks for a region. -/
  | publish (port : Nat) (pkt : Packet)
  /-- PUBLISH_START (R225): The head publish of a READY region checks its version and writes the non-current body with recalls. -/
  | publishStart (r : Nat)
  /-- PUBLISH_FLIP (R225): When payload and recalls finish, CUR inverts and VERSION takes NEW at one tick. -/
  | publishFlip (r : Nat)
  /-- PUBLISH_DRAIN_END (R225): Every old-body read has its outcome and the region enters RESYNC. -/
  | publishDrainEnd (r : Nat)
  /-- PUBLISH_RESYNC_END (R225): The payload blocks are copied into the old body and the region is READY. -/
  | publishResyncEnd (r : Nat)
  /-- ADMIT (R239): The admission controller takes a waiting header and accepts it with reservations or refuses it with a hint. -/
  | admitNext
  /-- SVC_DISPATCH (R248): The admission controller hands an accepted P3 request to its cluster control core. -/
  | svcDispatch (i : Nat)
  /-- PROMISE_MISS (R249): At the last reserved egress cell with no outcome, the promise ends FENCED and the holding unit is fenced. -/
  | promiseMiss (i : Nat)
  /-- RESPONSE_SEND (R231): A response or failure status leaves its port in its reserved egress cells. -/
  | responseSend (i : Nat)
  /-- CODEWORD (R255): A link receiver decodes one FEC codeword and delivers or discards its five flits. -/
  | codeword (l : LinkNo) (cw : Codeword)
  /-- SEQUENCED_FLIT (R262): A receiver accepts or discards a sequenced flit by its SEQ and buffer space. -/
  | sequencedFlit (l : LinkNo) (f : Flit)
  /-- LCTL_CREDIT (R268): An accepted LCTL CREDIT returns credits for up to eight VCs. -/
  | lctlCredit (l : LinkNo) (f : Flit)
  /-- LCTL_XSTATE (R269): An accepted LCTL XSTATE turns VCs off or on. -/
  | lctlXstate (l : LinkNo) (f : Flit)
  /-- NULL_FLIT (R263): A received NULL flit supplies its ACK and carries nothing else. -/
  | nullFlit (l : LinkNo) (f : Flit)
  /-- TIME_EXCHANGE (R301): A received time-exchange record updates the partner offset and steers fabric time. -/
  | timeExchange (l : LinkNo) (t : TimeRec)
  /-- INIT_FLIT (R278): A received INIT flit is compared with local settings and may complete INIT. -/
  | initFlit (l : LinkNo) (i : InitInfo)
  /-- HOLD_FLIT (R280): A received HOLD flit is treated as a NULL and counted. -/
  | holdFlit (l : LinkNo) (f : Flit)
  /-- FLIT_TIME (R272): At each flit time the transmitter sends the first due flit: INIT, HOLD, replay, LCTL, first transmission or NULL. -/
  | flitTime (l : LinkNo)
  /-- REPLAY_TIMER (R264): The replay timer expires and the sender retransmits from U. -/
  | replayTimer (l : LinkNo)
  /-- REPLAY_STALL (R265): U not advancing for 4,608 ns, or MAX expiries, takes the link down with cause REPLAY. -/
  | replayStall (l : LinkNo)
  /-- CREDIT_AGE (R268): A credit owed for LK_FC.AGE × 8 ns makes the receiver send an LCTL CREDIT. -/
  | creditAge (l : LinkNo)
  /-- TRAINING_DONE (R277): Quick or full training ends and the link enters LOCK, or FAILED after TRIES failures. -/
  | trainingDone (l : LinkNo) (full ok : Bool) (flight : Nat)
  /-- LOCK_TIMEOUT (R273): No codeword lock within 1 ms returns the link to TRAIN. -/
  | lockTimeout (l : LinkNo)
  /-- INIT_TIMEOUT (R273): INIT not done within 2 µs takes the link down with cause INIT_TMO. -/
  | initTimeout (l : LinkNo)
  /-- HOLD_TIMEOUT (R280): A hold of 2,048 ns ends by itself and sets HOLD_LONG. -/
  | holdTimeout (l : LinkNo)
  /-- RETRAIN (R276): A write of LK_CTRL.RETRAIN requests retraining with cause CMD. -/
  | retrain (l : LinkNo)
  /-- LINK_RESET (R281): SOFT_RESET of a link page sends RESET, forces full training and ends its requests RESET. -/
  | linkReset (l : LinkNo)
  /-- FORWARD (R290): The router takes a packet and sends it to its sink or, by dimension order and PICK, to a bundle link. -/
  | forward (port vc : Nat) (pkt : Packet)
  /-- RT_ROLE (R288): A write of RT_ROLE changes a link's role or direction, retraining or resetting it, or is refused. -/
  | rtRole (v : Word)
  /-- FT_PERIOD_EXPIRY (R301): Every FT_PERIOD ticks a link end requests a NULL carrying a time-exchange record. -/
  | ftPeriodExpiry (l : LinkNo)
  /-- TIME (R304): A fabric TIME request is answered with fabric time and the 1588 correspondence. -/
  | time (port : Nat) (pkt : Packet)
  /-- PLAN_LOAD (R308): A PLAN LOAD writes records into the pending bank. -/
  | planLoad (port : Nat) (pkt : Packet)
  /-- PLAN_COMMIT (R309): A PLAN COMMIT checks the pending plan and fixes its TAKE tick. -/
  | planCommit (port : Nat) (pkt : Packet)
  /-- PLAN_ABORT (R308): A PLAN ABORT empties the pending bank and cancels a pending commit. -/
  | planAbort (port : Nat) (pkt : Packet)
  /-- PLAN_TAKE (R309): At TAKE the plan banks swap and the new plan's origin is set. -/
  | planTake
  /-- WHEEL_SLOT (R325): At each 8-tick wheel slot, shaper tokens accrue and entered head packets are examined for release. -/
  | wheelSlot (port : Nat)
  /-- SHP_CFG (R326): A write of SHP_CFG applies the staged shaper settings and resets TOK, or enables or disables the shaper. -/
  | shpCfg (eth : Bool) (v : Word)
  /-- GATE_COMMIT (R330): GATE_CTRL.COMMIT fixes the take-over of the administrative list, or is refused. -/
  | gateCommit (eth : Bool)
  /-- GATE_ABORT (R330): GATE_CTRL.ABORT cancels the pending gate commit. -/
  | gateAbort (eth : Bool)
  /-- GATE_TAKEOVER (R330): At GATE_TAKE the administrative list becomes operational from entry 0. -/
  | gateTakeover (eth : Bool) (list : Nat)
  /-- GATE_ENTRY_CHANGE (R328): An entry's interval expires and the gate list moves to its next entry. -/
  | gateEntryChange (eth : Bool) (list : Nat)
  /-- FRAME_RECEIVE (R338): The Ethernet port receives a frame and discards it or passes its XHT datagram on. -/
  | frameReceive (f : EthFrame)
  /-- BRD (R355): A BRD reads a pool range for an XHT host without registering. -/
  | brd (q : CmdReq) (cls off len deadline : Nat)
  /-- BWR (R356): A BWR piece is staged, and a complete BWR is decided as one request. -/
  | bwr (d : Datagram)
  /-- EN_STAGE_TMO (R356): A staged BWR still incomplete after EN_STAGE_TMO is discarded. -/
  | enStageTmo (session seq : Nat)
  /-- SVC_REQ (R358): An SVC_REQ for a service entry is checked and placed as a P3 request. -/
  | svcReq (q : CmdReq) (entry : Nat) (data : List Byte)
  /-- DIGEST_READY (R457): The audit hasher finishes a digest once the response bytes are posted. -/
  | digestReady (i : Nat) (resp : List Byte) (vers : List Nat)
  /-- XHT_TIME (R361): An XHT TIME request is answered with fabric time and a 26 B payload. -/
  | xhtTime (q : CmdReq)
  /-- MGMT_READ (R360): A MGMT read carried out by the triad returns COUNT consecutive registers. -/
  | mgmtRead (src : MgmtSrc) (addr count : Nat)
  /-- MGMT_WRITE (R360): A MGMT write carried out by the triad writes COUNT consecutive registers. -/
  | mgmtWrite (src : MgmtSrc) (addr : Nat) (data : List Word)
  /-- NOP (R351): CMD NOP is answered OK with RESULT 0. -/
  | nop (q : CmdReq)
  /-- SESS_SET (R345): SESS_SET writes a session record, resetting windows when its binding changes. -/
  | sessSet (q : CmdReq) (i : Nat) (ws : List Word)
  /-- SESS_CLEAR (R345): SESS_CLEAR removes a session and resets its windows. -/
  | sessClear (q : CmdReq) (i : Nat)
  /-- SVC_SET (R246): SVC_SET writes or clears a service table entry of the sender's partition. -/
  | svcSet (q : CmdReq) (ws : List Word)
  /-- EVENT_ACK (R349): A host acknowledgement on channel 17 frees EVENT messages up to its SEQ. -/
  | eventAck (session seq : Nat)
  /-- AUDIT_ACK (R349): A host acknowledgement on channel 18 frees AUDIT messages up to its SEQ. -/
  | auditAck (session seq : Nat)
  /-- EN_RTO_EXPIRY (R349): An EVENT or AUDIT message unacknowledged for EN_RTO is sent again with RETX = 1. -/
  | enRtoExpiry (session chan seq : Nat)
  /-- DISCOVER (R343): A DISCOVER frame is answered by firmware with one ADVERTISE. -/
  | discover (f : EthFrame)
  /-- FIRMWARE_FRAME (R337): An ARP, neighbour solicitation, ICMP echo or PTP message is passed to firmware, which answers it. -/
  | firmwareFrame (f : EthFrame) (sync : Option (Nat × Nat × Nat))
  /-- PFC_FRAME (R336): A received PFC frame pauses the frames of its priorities. -/
  | pfcFrame (f : EthFrame)
  /-- PORT_DOWN (R334): A mode change, loss of PCS lock, MODE write or soft reset takes the port out of UP to retrain. -/
  | portDown (cause : Nat)
  /-- PORT_UP (R334): The port returns to UP and ends overdue-pending requests FENCED. -/
  | portUp (reduced : Bool)
  /-- VECTOR_SEAL_TIMEOUT (R371): PT_VEC.TIME µs after FIRST the pending record is sealed. -/
  | vectorSealTimeout (p : PartNo) (v : Nat)
  /-- EVENT_DELIVER (R372): Sealed records leave in one XHT EVENT or fabric EVENT message per destination. -/
  | eventDeliver
  /-- PT_VEC_DISABLE (R371): Clearing PT_VEC.ENABLE seals the pending record and discards later events. -/
  | ptVecDisable (p : PartNo) (v : Nat)
  /-- CLUSTER_RESET (R376): SOFT_RESET of a cluster page resets its cores, stops its frog and engines and ends its promises RESET. -/
  | clusterReset (c : ClusterNo)
  /-- CLUSTER_RESET_DONE (R376): Every newt is OFF, copy blocks have settled and the core restarted; RST_DONE is raised. -/
  | clusterResetDone (c : ClusterNo)
  /-- PARTITION_RESET (R378): SOFT_RESET of a partition page kills its contexts, ends its promises RESET and returns extents if SCRUB. -/
  | partitionReset (p : PartNo)
  /-- PARTITION_RESET_DONE (R378): Channels and slots are cleared, the partition is RUN and PART_RESET_DONE is raised. -/
  | partitionResetDone (p : PartNo)
  /-- CHIP_RESET (R381): A chip reset stops every unit, idles every lane and restarts bring-up. -/
  | chipReset
  /-- GLB_RESET (R506): A write of GLB_RESET with KEY 0xE1 starts a chip reset. -/
  | glbReset (v : Word)
  /-- FENCE (R387): A unit is fenced: its cells leave admission, its promises end FENCED and its work is discarded. -/
  | fence (u : UnitId) (cause : Cause)
  /-- FENCE_CONTAINED (R387): When a fenced unit's effects have all taken place, FSTATE becomes FENCED. -/
  | fenceContained (u : UnitId)
  /-- SUP_UNFENCE (R390): A write of SUP_UNFENCE lifts the fence of a contained unit whose cause allows it, or is refused. -/
  | supUnfence (v : Word)
  /-- RECONCILE (R394): Every 100 µs the triad compares unit-state copies with BLK_STAT and rewrites those that differ. -/
  | reconcile
  /-- SUP_FQ_POP (R400): A write of SUP_FQ_POP frees the oldest fault record. -/
  | supFqPop
  /-- ERR_INJECT_REPORT (R398): ERR_INJECT KIND 1 reports the event of BIT as if detected. -/
  | errInjectReport (page : Nat) (bit : Fin 32)
  /-- ERR_INJECT_FLIP_ONE (R398): ERR_INJECT KIND 2 flips one bit of the next protected word the page writes. -/
  | errInjectFlipOne (page : Nat) (bit : Fin 32)
  /-- ERR_INJECT_FLIP_TWO (R398): ERR_INJECT KIND 3 flips two bits of the next protected word the page writes. -/
  | errInjectFlipTwo (page : Nat) (bit : Fin 32)
  /-- FREEZE (R321): Setting or clearing BLK_CTRL.FREEZE halts or resumes the arbitrated share of a block. -/
  | freeze (page : Nat) (on : Bool)
  /-- CV_POST (R403): A write of CV_POST enqueues the staged check-value stream, or is discarded on a full queue. -/
  | cvPost (u : CvNo)
  /-- CV_STREAM_START (R403): A check-value unit starts its next queued stream while enabled. -/
  | cvStreamStart (u : CvNo)
  /-- CV_STREAM_END (R404): A stream ends with its status, result and optional compare. -/
  | cvStreamEnd (u : CvNo)
  /-- CV_RESET (R390): SOFT_RESET of a check-value unit page resets the unit. -/
  | cvReset (u : CvNo)
  /-- ORDER (R415): The standby receives an ORDER token and carries out the input in ORD order. -/
  | order (m : PairMsg)
  /-- ORDER_ACK (R416): The holder receives an ORDER_ACK and may release outputs. -/
  | orderAck (m : PairMsg)
  /-- NOTE (R413): The standby applies a holder's tick-dependent decision. -/
  | note (m : PairMsg) (k : NoteKind)
  /-- RENEW (R418): The standby receives RENEW, keeps its E and answers RENEW_ACK. -/
  | renew (m : PairMsg)
  /-- RENEW_ACK (R418): The holder receives RENEW_ACK and advances t_a, or resumes from FROZEN. -/
  | renewAck (m : PairMsg)
  /-- RENEW_PERIOD (R418): Every 250 ticks the holder sends RENEW on every UP MIRROR link. -/
  | renewPeriod
  /-- OUT (R422): The standby receives an OUT message with an unreserved output's due epoch. -/
  | out (m : PairMsg)
  /-- DIGEST (R423): The standby receives the holder's DIGEST for an epoch. -/
  | digest (m : PairMsg)
  /-- RELAY (R415): A RELAY asks for or delivers an input body. -/
  | relay (m : PairMsg) (body : Option PairInput)
  /-- REPAIR (R417): A REPAIR asks for or delivers a block to rewrite a faulty copy. -/
  | repair (m : PairMsg)
  /-- HANDOVER (R426): The receiving chip takes HANDOVER and becomes HOLDER. -/
  | handover (m : PairMsg)
  /-- RESYNC (R424): A joining chip receives RESYNC block data or snapshot state. -/
  | resync (m : PairMsg) (snap : Option Machine.Snap)
  /-- HOLDER_FREEZE (R418): With no acknowledgement by t_a + 900 the holder freezes its outputs. -/
  | holderFreeze
  /-- CROWN_CLAIM (R420): At E + 100 with no newer RENEW, an eligible standby claims the crown. -/
  | crownClaim
  /-- SOLO_WAIT_EXPIRY (R419): A FROZEN chip goes OUT after PAIR_SOLO.WAIT. -/
  | soloWaitExpiry
  /-- ORPHAN_TIMEOUT (R415): An input body named by no token after PAIR_IN.WAIT is discarded. -/
  | orphanTimeout (i : Nat)
  /-- EPOCH_COMPARE (R423): At each epoch end the standby compares digests and goes OUT on a divergence. -/
  | epochCompare
  /-- PAIR_ALERT (R421): A filtered PAIR_ALERT_IN assertion is counted or resumes a FROZEN holder. -/
  | pairAlert
  /-- ALERT_STUCK (R492): An alert input asserted for over 100 µs is latched as stuck and ignored. -/
  | alertStuck (chain : Bool)
  /-- PAIR_REARM (R421): A write of PAIR_CTRL.REARM re-arms the pair alert input. -/
  | pairRearm
  /-- PAIR_CMD_RESYNC (R424): PAIR_CMD RESYNC starts a join of a chip in OUT, or is refused. -/
  | pairCmdResync (same units : Bool)
  /-- PAIR_CMD_SWITCH (R426): PAIR_CMD SWITCH starts a planned handover at a boundary tick. -/
  | pairCmdSwitch
  /-- PAIR_CMD_FORCE (R428): PAIR_CMD FORCE with KEY 0xC3 makes a chip HOLDER and ends its open promises FENCED. -/
  | pairCmdForce (key : Nat)
  /-- HANDOVER_BOUNDARY (R426): At T_b the holder stops ordering, sends HANDOVER and becomes STANDBY. -/
  | handoverBoundary
  /-- RESYNC_COPY_DONE (R424): The COPY phase ends and the holder fixes ORD_J and sends the snapshot. -/
  | resyncCopyDone
  /-- JOINED (R424): Every earlier request has its outcome and the first full digest matches; the chip becomes STANDBY. -/
  | joined (n : Nat)
  /-- VOTE (R429): The voter issues the majority of the triad's writes and resets an outvoted or late core. -/
  | vote (a b c : Option CoreWrite)
  /-- CORE_REJOIN (R429): A resynchronised triad core rejoins at a voter checkpoint. -/
  | coreRejoin
  /-- TMR_SWEEP (R430): Every 10 µs the triplicated registers are compared and minority copies rewritten. -/
  | tmrSweep
  /-- POWER_GOOD (R434): Power-good or a release of reset starts bring-up at stage S0. -/
  | powerGood
  /-- STAGE_S0 (R434): Stage S0 locks PLLs, reads the PUF array, latches straps and releases the triad. -/
  | stageS0 (plls straps : Nat)
  /-- STAGE_S1 (R446): Stage S1 verifies manifests, selects an image copy, parses CFG and starts supervisor firmware. -/
  | stageS1
  /-- STAGE_S2 (R434): Stage S2 self-tests every unit and writes the floor plan. -/
  | stageS2 (units : List (Nat × List Nat)) (links lanes : Nat) (blocks : Bool)
  /-- STAGE_S3 (R434): Stage S3 applies its CFG records, trains the controllers and sets MC_CODE.LOCK. -/
  | stageS3 (trained : List Nat)
  /-- STAGE_S4 (R178): Stage S4 tests and fills every channel in four passes; without `all` the fourth is left
  to a further STAGE_S4. -/
  | stageS4 (test : FillTest)
  /-- STAGE_S5 (R448): Stage S5 places the CLU and NWT sections and loads every present cluster. -/
  | stageS5
  /-- STAGE_S6 (R434): Stage S6 applies its CFG records, trains links and brings fabric time to LOCKED. -/
  | stageS6
  /-- STAGE_S7 (R434): Stage S7 loads addresses and session 0 and starts port training. -/
  | stageS7
  /-- STAGE_S8 (R452): Stage S8 seals MBOOT, derives identity, reserves LMS indices and reaches READY. -/
  | stageS8
  /-- STAGE_BOUND_EXCEEDED (R435): A stage exceeding its bound ends bring-up in FAIL with RESULT TIMEOUT. -/
  | stageBoundExceeded
  /-- QUOTE (R455): Setting ATT_CTRL.GO snapshots the measurements and starts a signed quote. -/
  | quote
  /-- QUOTE_DONE (R455): The quote is ready, BUSY clears and ATT_LEN is set. -/
  | quoteDone
  /-- MODEL_HASH (R454): The service runtime hands MODEL_HASH to the triad, which stores and logs it. -/
  | modelHash (p : PartNo) (slot : SlotNo) (h : List Byte)
  /-- ENUM (R467): An ENUM frame assigns the unit its chip address and is forwarded with advanced POS. -/
  | enum (f : ChainFrame)
  /-- CHAIN_FRAME_FORWARD (R463): A chain unit forwards a frame it does not act on, editing and recomputing the CRC where required. -/
  | chainFrameForward (f : ChainFrame)
  /-- CONTINUE (R471): CTL CONTINUE ends HOLD and starts stage S6. -/
  | continueHold (f : ChainFrame)
  /-- CHAIN_RESET (R471): CTL RESET with KEY 0xA7 starts a chip reset after the RESP. -/
  | chainReset (f : ChainFrame)
  /-- RETIRE (R472): CTL RETIRE moves the chip to RETIRING and refuses new grants. -/
  | retire (f : ChainFrame)
  /-- RETIRE_DRAIN (R472): When leases and extents are free, or ARG ms pass, the chip closes leases, kills contexts and returns extents. -/
  | retireDrain
  /-- RETIRED (R472): After the reclaims and zero fills the chip enters RETIRED. -/
  | retired
  /-- ALERT_ACK (R471): CTL ALERT_ACK clears the named pending alert conditions. -/
  | alertAck (f : ChainFrame)
  /-- FLASH_READ (R473): A FLASH read returns N bytes of flash. -/
  | flashRead (f : ChainFrame)
  /-- FLASH_ERASE (R473): A FLASH erase clears one 4 KiB flash sector in recovery. -/
  | flashErase (f : ChainFrame)
  /-- FLASH_PROGRAM (R473): A FLASH program writes and reads back up to 256 B in recovery. -/
  | flashProgram (f : ChainFrame)
  /-- POLL (R475): A POLL frame collects the positions of units with pending alerts. -/
  | poll (f : ChainFrame)
  /-- ALERT_REPEAT (R475): Every 10 ms an unacknowledged alert condition pulls CHAIN_ALERT_N low again. -/
  | alertRepeat
  /-- CH_REARM (R475): A write of CH_CTRL.REARM resumes driving the chain alert line. -/
  | chRearm
  /-- CHAIN_ALERT_SAMPLE (R475): A filtered low on CHAIN_ALERT_N is counted in CH_ALERT_SEEN. -/
  | chainAlertSample
  /-- RESET_N (R491): RESET_N held low for 10 µs starts a chip reset; a shorter filtered low counts a glitch. -/
  | resetN (lowUs : Nat)
  /-- PWRGOOD_FALL (R491): A fall of PWRGOOD acts as RESET_N low with no filter. -/
  | pwrgoodFall
  /-- LOSS_OF_LOCK (R485): A PLL losing lock is UE-CHIP for core clocks or takes a group's links down. -/
  | lossOfLock (clk : Nat)
  /-- RAIL_FAULT (R486): A rail out of range for 1 µs is a UE-CHIP error recorded in PWR_RAIL_FAULT. -/
  | railFault (rail : Nat)
  /-- TWARN (R489): A die reading at or above PWR_TWARN sets ERR_STAT.TWARN. -/
  | twarn (temp : Nat)
  /-- THERMAL_TRIP (R489): A die reading of 115 °C drives THERM_TRIP_N low and holds the chip in reset. -/
  | thermalTrip
  /-- UE_CHIP (R395): A UE-CHIP error is reported on the chain and starts a chip reset. -/
  | ueChip (page : Nat) (bit : Nat)
  /-- REGISTER_WRITE (R502): A write to a register with no row of its own stores the value under the access rules. -/
  | registerWrite (ag : Agent) (addr : Nat) (v : Word)
  /-- LANE_PLL_RELOCK (R485): A REFCLK_SD lane PLL group regains lock, and its links retrain under R277 (for group 5 the Ethernet port retrains too). -/
  | lanePllRelock (g : Nat)
  /-- STACK_HOT (R183): A stack's temperature sensor reaches MC_REF.HOT_C and the controller sets its ERR_STAT.HOT notice. -/
  | stackHot (n : Nat) (temp : Nat)
  /-- ALERT_INPUT_DEASSERT (R490): A filtered PAIR_ALERT_IN or CHAIN_ALERT_N level returns to deasserted, updating PWR_IN_STAT and allowing a later REARM. -/
  | alertInputDeassert (chain : Bool)
  /-- ALERT_PULSE_END (R421): The 10 µs assertion of PAIR_ALERT_OUT, or a chip's 10 µs pull of CHAIN_ALERT_N, ends and the line is released. -/
  | alertPulseEnd (chain : Bool)
  /-- PAIR_FORMATION (R419): At first formation, with the mirror UP and the peer reporting OUT, the HOME chip becomes HOLDER and the other starts RESYNC by itself when AUTO_RESYNC = 1. -/
  | pairFormation (same : Bool) (peer : PeerReport)
deriving DecidableEq, Repr

end Sys2Proof
end

