-- ==== Sys2Proof/Decode.lean ====
section
/-! DEFINITION. Commands from the bits of the table: spec/opcode_table.json gives no row any bits. -/

namespace Sys2Proof

/-- The command a word spells by the table's bits: no row has bits, so no word spells one (log entry
7). -/
def decodeTableWord (_nbits _w : Nat) : Option Instr := none

end Sys2Proof
end

