-- ==== Sys2Proof/Config.lean ====
section
/-! DEFINITION. The free values of the model: what the spec leaves open and every implementation or
run may fill in its own way. None has a body, so no proof can see a value (log entry 1). -/

namespace Sys2Proof

/-- The k-th free number of a run: the state counts how many it has read (log entry 1). -/
opaque Config.freeNat : Nat → Nat

/-- R81: element t of the unspecified contents of a range, of the k-th free value of a run (log entry
83). -/
opaque Config.freeByte : Nat → Nat → Nat

/-- R20: the mesh row beside which the station of a channel controller stands (log entry 87). -/
opaque Config.channelRow : Nat → Nat

/-- R255, R256, R276: ticks from the arrival of a codeword's last bit at link l until its LSTATE is known,
which the spec bounds and does not give (log entry 96). -/
opaque Config.lstateDelay : Nat → Nat

/-- R301: the payload bytes of a time-exchange record, whose layout the spec does not give (log entry
97). -/
opaque Config.timeBytes : TimeRec → List Byte

/-- R157: what a received word with more than t symbol errors decodes to: `none` for UE, or the
bytes of a wrong codeword. Its argument counts the decodes (log entry 2). -/
opaque Config.overT : Nat → Option (List Byte)

/-- R445: verification of an ECDSA P-384 signature over a digest (log entry 3). -/
opaque Config.ecdsaVerify : (key digest sig : List Byte) → Bool

/-- R445: verification of an HSS signature over a message (log entry 3). -/
opaque Config.hssVerify : (key msg sig : List Byte) → Bool

/-- R455: an ECDSA signature, r and s, by a derived key; its first argument tells signatures apart
(log entry 3). -/
opaque Config.ecdsaSign : Nat → (key digest : List Byte) → List Byte

/-- R452, R455: an HSS signature with the one-time key of an index (log entry 3). -/
opaque Config.hssSign : Nat → (key msg : List Byte) → List Byte

/-- R450: HKDF-SHA-384 of a secret under a label, to a length (log entry 3). -/
opaque Config.hkdf : (secret label : List Byte) → Nat → List Byte

/-- R450: the secret reconstructed from the SRAM PUF array of this chip and the helper data; none where
it cannot be (log entry 3). -/
opaque Config.pufSecret : (helper : List Byte) → Option (List Byte)

/-- R450: the ECDSA public key of a private key, uncompressed, 97 B (log entry 3). -/
opaque Config.ecdsaPublic : Nat → List Byte

/-- R450: the HSS public key of the keys derived from a secret, 60 B (log entry 3). -/
opaque Config.hssPublic : (secret : List Byte) → List Byte

/-- R445: the SHA-384 values of the ECDSA and the HSS key in a key slot of the mask ROM (log entry
3). -/
opaque Config.romKeys : Nat → List Byte × List Byte

/-- R453: SHA-384 of the mask ROM (log entry 3). -/
opaque Config.romHash : List Byte

end Sys2Proof
end

