-- ==== Sys2Proof/Machine/RegTable.lean ====
section
/-! DEFINITION. The register tables of the spec: for every page type the registers it lays out, with
their access masks and reset values (R10, R496 to R506). -/

namespace Sys2Proof.Machine

/-- One register of a page's table, or a run of n like registers: offset, number, masks of its RO,
RW, W1C, W1S and WO bits (R10), whether a read clears it (RC), whether it is the low word of a
64-bit value (R504), and its reset value. -/
structure RegRow where
  off : Nat
  n : Nat
  ro : Nat
  rw : Nat
  w1c : Nat
  w1s : Nat
  wo : Nat
  rc : Bool
  pair : Bool
  reset : Nat
deriving DecidableEq, Repr

/-- R506: chip identity page page. -/
def rows01 : List RegRow :=
  [⟨0x40, 1, 0xffffffff, 0, 0, 0, 0, false, false, 0x7720⟩,
   ⟨0x44, 1, 0, 0, 0, 0, 0xff000001, false, false, 0⟩,
   ⟨0x48, 7, 0xffffffff, 0, 0, 0, 0, false, false, 0⟩,
   ⟨0x64, 4, 0, 0x80003fff, 0, 0, 0, false, false, 0⟩,
   ⟨0x74, 3, 0xffffffff, 0, 0, 0, 0, true, false, 0⟩,
   ⟨0x80, 4, 0, 0xffffffff, 0, 0, 0, false, false, 0⟩]

/-- R458: floor plan page. -/
def rows02 : List RegRow :=
  [⟨0x40, 14, 0xffffffff, 0, 0, 0, 0, false, false, 0⟩,
   ⟨0x78, 1, 0, 0xff, 0, 0, 0, false, false, 0⟩,
   ⟨0x7c, 1, 0xff00ff, 0, 0, 0, 0, false, false, 0⟩,
   ⟨0x80, 15, 0xffffffff, 0, 0, 0, 0, false, false, 0⟩,
   ⟨0xbc, 1, 0x1ff, 0, 0, 0, 0, false, false, 0⟩,
   ⟨0xc0, 1, 0xffff, 0, 0, 0, 0, false, false, 0⟩,
   ⟨0xc4, 1, 0x7fff, 0, 0, 0, 0, false, false, 0⟩,
   ⟨0xc8, 1, 0, 0xffff0f, 0, 0, 0, false, false, 0⟩,
   ⟨0xcc, 1, 0xffffffff, 0, 0, 0, 0, false, true, 0⟩,
   ⟨0xd0, 1, 0xffffffff, 0, 0, 0, 0, false, false, 0⟩]

/-- R459: stage reports page. -/
def rows03 : List RegRow :=
  [⟨0x40, 1, 0x3f, 0, 0, 0, 0, false, false, 0⟩,
   ⟨0x44, 1, 0xffffffff, 0, 0, 0, 0, false, false, 0⟩,
   ⟨0x48, 1, 0, 0xf, 0, 0, 0, false, false, 0⟩,
   ⟨0x4c, 8, 0xffffffff, 0, 0, 0, 0, false, false, 0⟩,
   ⟨0x6c, 1, 7, 0, 0, 0, 0, false, false, 0⟩]

/-- R460: attestation page. -/
def rows04 : List RegRow :=
  [⟨0x40, 12, 0, 0xffffffff, 0, 0, 0, false, false, 0⟩,
   ⟨0x70, 1, 0, 0, 0, 1, 0, false, false, 0⟩,
   ⟨0x74, 1, 0x77, 0, 0, 0, 0, false, false, 0⟩,
   ⟨0x78, 1, 0x3fff, 0, 0, 0, 0, false, false, 0⟩,
   ⟨0x7c, 4, 0xffffffff, 0, 0, 0, 0, false, false, 0⟩,
   ⟨0x8c, 1, 0xffffffff, 0, 0, 0, 0, false, true, 0⟩,
   ⟨0x90, 1, 0xffffffff, 0, 0, 0, 0, false, false, 0⟩,
   ⟨0x94, 1, 0xffffffff, 0, 0, 0, 0, false, true, 0⟩,
   ⟨0x98, 1, 0xffffffff, 0, 0, 0, 0, false, false, 0⟩,
   ⟨0x9c, 1, 0x80001fff, 0, 0, 0, 0, false, false, 0⟩,
   ⟨0xa0, 1, 0, 0xfff, 0, 0, 0, false, false, 0⟩,
   ⟨0xa4, 40, 0xffffffff, 0, 0, 0, 0, false, false, 0⟩,
   ⟨0x144, 1, 0, 0x1f3f, 0, 0, 0, false, false, 0⟩,
   ⟨0x148, 12, 0xffffffff, 0, 0, 0, 0, false, false, 0⟩]

/-- R181: memory-global page. -/
def rows05 : List RegRow :=
  [⟨0x40, 1, 0, 3, 0, 0x80000000, 0, false, false, 1⟩,
   ⟨0x44, 1, 0xfff, 0xffff000, 0, 0, 0, false, false, 0x101001⟩,
   ⟨0x48, 1, 0xfff, 0xffff000, 0, 0, 0, false, false, 0x202002⟩,
   ⟨0x4c, 1, 0xfff, 0xffff000, 0, 0, 0, false, false, 0x404004⟩,
   ⟨0x50, 1, 0xfff, 0xffff000, 0, 0, 0, false, false, 0x808008⟩,
   ⟨0x54, 1, 0xfff, 0xffff000, 0, 0, 0, false, false, 0x1010010⟩,
   ⟨0x58, 1, 0xfff, 0xffff000, 0, 0, 0, false, false, 0x2020020⟩,
   ⟨0x5c, 1, 0xfff, 0xffff000, 0, 0, 0, false, false, 0x4040040⟩,
   ⟨0x60, 1, 0xfff, 0xffff000, 0, 0, 0, false, false, 0x8080080⟩,
   ⟨0x64, 1, 0xfff, 0xffff000, 0, 0, 0, false, false, 0x1010100⟩,
   ⟨0x68, 1, 0xfff, 0xffff000, 0, 0, 0, false, false, 0x2020200⟩,
   ⟨0x6c, 1, 0xfff, 0xffff000, 0, 0, 0, false, false, 0x4040400⟩,
   ⟨0x70, 1, 0xfff, 0xffff000, 0, 0, 0, false, false, 0x8080800⟩,
   ⟨0x74, 1, 0xffffffff, 0, 0, 0, 0, false, true, 0⟩,
   ⟨0x78, 1, 0xff, 0, 0, 0, 0, false, false, 0⟩,
   ⟨0x7c, 1, 0xffffffff, 0, 0, 0, 0, false, true, 0⟩,
   ⟨0x80, 1, 0xff, 0, 0, 0, 0, false, false, 0⟩,
   ⟨0x84, 1, 0xfffffff, 0, 0, 0, 0, false, false, 0⟩,
   ⟨0x88, 8, 0xffffffff, 0, 0, 0, 0, false, false, 0⟩,
   ⟨0xa8, 1, 0xfffffff, 0, 0, 0, 0, false, false, 0⟩,
   ⟨0xac, 1, 0x80000003, 0, 0, 0, 0, false, false, 0⟩]

/-- R433: supervisor triad page. -/
def rows10 : List RegRow :=
  [⟨0x40, 1, 7, 0, 0, 0, 0, false, false, 0⟩,
   ⟨0x44, 2, 0xffffffff, 0, 0, 0, 0, true, false, 0⟩]

/-- R406: fault queue page. -/
def rows11 : List RegRow :=
  [⟨0x40, 1, 0x800007ff, 0, 0, 0, 0, false, false, 0⟩,
   ⟨0x44, 8, 0xffffffff, 0, 0, 0, 0, false, false, 0⟩,
   ⟨0x64, 1, 0, 0, 0, 0, 1, false, false, 0⟩,
   ⟨0x68, 1, 0xffffffff, 0, 0, 0, 0, true, false, 0⟩,
   ⟨0x6c, 1, 0xffffffff, 0, 0, 0, 0, false, false, 0⟩,
   ⟨0x70, 1, 0, 0, 0, 0, 0xffff0f, false, false, 0⟩,
   ⟨0x74, 1, 3, 0, 0, 0, 0, false, false, 0⟩,
   ⟨0x78, 1, 0xffffffff, 0, 0, 0, 0, true, false, 0⟩]

/-- R384: cluster page. -/
def rows20 : List RegRow :=
  [⟨0x40, 1, 1, 0, 0, 0, 0, false, false, 0⟩,
   ⟨0x44, 2, 0xffffffff, 0, 0, 0, 0, true, false, 0⟩]

/-- R130: copy engine page. -/
def rows21 : List RegRow :=
  [⟨0x40, 1, 0, 0, 0, 0, 0x1fffff, false, false, 0⟩,
   ⟨0x44, 1, 0x7ff7, 0, 0, 0, 0, false, false, 0x100⟩,
   ⟨0x48, 1, 0xffffffff, 0, 0, 0, 0, false, false, 0⟩,
   ⟨0x4c, 1, 0xffffffff, 0, 0, 0, 0, true, false, 0⟩,
   ⟨0x50, 1, 0x1fffff, 0, 0, 0, 0, false, false, 0⟩,
   ⟨0x54, 1, 0, 0, 3, 0, 0, false, false, 0⟩,
   ⟨0x58, 1, 0, 0, 0, 0, 1, false, false, 0⟩,
   ⟨0x5c, 1, 0xffffffff, 0, 0, 0, 0, false, false, 0⟩,
   ⟨0x60, 1, 0xffffffff, 0, 0, 0, 0, true, false, 0⟩]

/-- R84: frog page. -/
def rows22 : List RegRow :=
  [⟨0x40, 1, 0, 1, 0, 0, 0, false, false, 0⟩,
   ⟨0x44, 1, 0x303f7, 0, 0, 0, 0, false, false, 0x200⟩,
   ⟨0x48, 1, 0, 0, 0, 0, 0x1fffff, false, false, 0⟩,
   ⟨0x4c, 1, 0xffff00ff, 0, 0, 0, 0, false, false, 0⟩,
   ⟨0x50, 1, 0, 0, 0, 0, 3, false, false, 0⟩,
   ⟨0x54, 1, 0, 0x1fffff, 0, 0, 0, false, false, 0⟩,
   ⟨0x58, 1, 0, 0x1fffff, 0, 0, 0, false, false, 0x1fffff⟩,
   ⟨0x5c, 1, 0, 0xffffffff, 0, 0, 0, false, false, 0xf4240⟩,
   ⟨0x60, 1, 0xffffffff, 0, 0, 0, 0, true, false, 0⟩,
   ⟨0x64, 1, 0x8001ffff, 0, 0, 0, 0, false, false, 0⟩,
   ⟨0x68, 1, 0xffffffff, 0, 0, 0, 0, false, false, 0⟩,
   ⟨0x6c, 1, 0xffffffff, 0, 0, 0, 0, true, false, 0⟩]

/-- R131: cluster store page. -/
def rows23 : List RegRow :=
  [⟨0x40, 1, 0x1fffff, 0, 0, 0, 0, false, false, 0⟩,
   ⟨0x44, 1, 0, 0x7777777, 0, 0, 0, false, false, 0x1222334⟩,
   ⟨0x48, 1, 0, 0xff, 0, 0, 0, false, false, 8⟩,
   ⟨0x4c, 1, 0xffffffff, 0, 0, 0, 0, true, false, 0⟩,
   ⟨0x50, 1, 0, 0xffffff, 0, 0, 0, false, false, 0⟩]

/-- R152: TLB page. -/
def rows24 : List RegRow :=
  [⟨0x40, 1, 0xff01ff, 0, 0, 0, 0, false, false, 0⟩,
   ⟨0x44, 3, 0xffffffff, 0, 0, 0, 0, true, false, 0⟩,
   ⟨0x50, 1, 0, 0xffe00000, 0, 0, 0, false, true, 0⟩,
   ⟨0x54, 1, 0, 0x1ffff, 0, 0x80000000, 0, false, false, 0⟩,
   ⟨0x58, 1, 0xf, 0, 0, 0, 0, false, false, 0⟩]

/-- R109: newt control page. -/
def rows25 : List RegRow :=
  [⟨0x40, 1, 0, 3, 0, 0, 0, false, false, 0⟩,
   ⟨0x44, 4, 0xffffffff, 0, 0, 0, 0, false, false, 0⟩,
   ⟨0x54, 4, 0, 0, 0xffffffff, 0, 0, false, false, 0⟩,
   ⟨0x64, 4, 0, 0xffffffff, 0, 0, 0, false, false, 0⟩,
   ⟨0x74, 1, 0, 0, 0, 0, 0x1fff, false, false, 0⟩,
   ⟨0x78, 1, 0, 0, 0, 0, 0x8000007f, false, false, 0⟩,
   ⟨0x7c, 4, 0, 0x1fffff, 0, 0, 0, false, false, 0⟩,
   ⟨0x8c, 1, 4, 2, 8, 1, 0, false, false, 0⟩,
   ⟨0x90, 1, 0, 0x7f1f, 0, 0, 0, false, false, 0⟩,
   ⟨0x94, 1, 0, 0xffffffff, 0, 0, 0, false, false, 0⟩,
   ⟨0x98, 1, 0, 0, 1, 0, 0, false, false, 0⟩,
   ⟨0xc0, 16, 0, 0xffffffff, 0, 0, 0, false, false, 0⟩,
   ⟨0x100, 1, 0, 0, 0, 3, 0, false, false, 0⟩]

/-- R110: newt record, one record page. -/
def rows26 : List RegRow :=
  [⟨0x0, 1, 0xff07, 0, 0, 0, 0, false, false, 0⟩,
   ⟨0x4, 2, 0xffffffff, 0, 0, 0, 0, false, false, 0⟩,
   ⟨0xc, 1, 0, 0xffffffff, 0, 0, 0, false, false, 0⟩,
   ⟨0x10, 1, 0, 0, 0, 0, 3, false, false, 0⟩,
   ⟨0x14, 1, 0xffffffff, 0, 0, 0, 0, true, false, 0⟩]

/-- R182: channel controller page. -/
def rows30 : List RegRow :=
  [⟨0x40, 1, 0xff1f, 0, 0, 0, 0, false, false, 0x10⟩,
   ⟨0x44, 1, 0, 0xffffffff, 0, 0, 0, false, false, 0x20351818⟩,
   ⟨0x48, 1, 0, 0xffffffff, 0, 0, 0, false, false, 0x201a420c⟩,
   ⟨0x4c, 1, 0, 0xffffffff, 0, 0, 0, false, false, 0x80c0604⟩,
   ⟨0x50, 1, 0, 0xff01, 0, 0, 0, false, false, 0x5500⟩,
   ⟨0x54, 1, 0, 0xffffff, 0, 0, 0, false, false, 0x10040⟩,
   ⟨0x58, 1, 0xfffff, 0, 0, 0, 0, false, false, 0⟩,
   ⟨0x5c, 1, 0, 0xffff, 0, 0, 0, false, false, 0x100⟩,
   ⟨0x60, 1, 0, 0xffff, 0, 0, 0, false, false, 0x1000⟩,
   ⟨0x64, 1, 0xfffff, 0, 0, 0, 0, false, false, 0⟩,
   ⟨0x68, 1, 0xffff, 0, 0, 0, 0, false, false, 0⟩,
   ⟨0x6c, 1, 0xffffffff, 0, 0, 0, 0, true, false, 0⟩,
   ⟨0x70, 1, 0, 0xffffffff, 0, 0, 0, false, false, 0x3e80400⟩,
   ⟨0x74, 1, 0xffff, 0, 0, 0, 0, false, false, 0⟩,
   ⟨0x78, 2, 0xffffffff, 0, 0, 0, 0, true, false, 0⟩,
   ⟨0x80, 1, 0xfffffff, 0, 0, 0, 0, false, false, 0⟩,
   ⟨0x84, 1, 0xffffffff, 0, 0, 0, 0, false, true, 0⟩,
   ⟨0x88, 1, 0xffffffff, 0, 0, 0, 0, false, false, 0⟩,
   ⟨0x8c, 1, 7, 0, 0, 0, 0, false, false, 0⟩,
   ⟨0x90, 1, 0x1ff, 0, 0, 0, 0, false, false, 0⟩,
   ⟨0x94, 1, 0xffffffff, 0, 0, 0, 0, true, false, 0⟩,
   ⟨0x98, 1, 0x7f, 0, 0, 0, 0, false, false, 0⟩,
   ⟨0x9c, 1, 0, 0x33f, 0, 0, 0, false, false, 0⟩,
   ⟨0xa0, 1, 0, 0xff07ff, 0, 0, 0, false, false, 0x200400⟩,
   ⟨0xa4, 1, 0, 0x77777, 0, 0, 0, false, false, 0x30212⟩,
   ⟨0xa8, 1, 0, 0xff, 0, 0, 0, false, false, 8⟩,
   ⟨0xac, 1, 0xffffffff, 0, 0, 0, 0, true, false, 0⟩]

/-- R283: link page. -/
def rows40 : List RegRow :=
  [⟨0x40, 1, 0, 0xff06, 0, 1, 0, false, false, 0xff04⟩,
   ⟨0x44, 1, 0xf3f, 0, 0, 0, 0, false, false, 0⟩,
   ⟨0x48, 1, 0x8007ffff, 0, 0, 0, 0, false, false, 0⟩,
   ⟨0x4c, 1, 0xffffff, 0, 0, 0, 0, false, false, 0⟩,
   ⟨0x50, 1, 0xffff0fff, 0, 0, 0, 0, false, false, 0⟩,
   ⟨0x54, 1, 0, 0xfffff, 0, 0, 0, false, false, 0x40400⟩,
   ⟨0x58, 2, 0xffffffff, 0, 0, 0, 0, true, false, 0⟩,
   ⟨0x60, 1, 0, 0xffffffff, 0, 0, 0, false, false, 0x271040⟩,
   ⟨0x64, 8, 0xffffffff, 0, 0, 0, 0, true, false, 0⟩,
   ⟨0x84, 1, 0, 0xffffff3f, 0, 0, 0, false, false, 0x20100820⟩,
   ⟨0x88, 8, 0x3ff0000, 0x3ff, 0, 0, 0, false, false, 0x40⟩,
   ⟨0xa8, 1, 0xff, 0, 0, 0, 0, false, false, 0⟩,
   ⟨0xac, 1, 0xffffffff, 0, 0, 0, 0, true, false, 0⟩,
   ⟨0xb0, 1, 0xf, 0, 0, 0, 0, false, false, 0⟩,
   ⟨0xb4, 1, 0xffffffff, 0, 0, 0, 0, false, true, 0⟩,
   ⟨0xb8, 1, 0xffffffff, 0, 0, 0, 0, false, false, 0⟩,
   ⟨0xbc, 1, 0, 0xf, 0, 0, 0, false, false, 3⟩,
   ⟨0xc0, 2, 0xffffffff, 0, 0, 0, 0, true, false, 0⟩]

/-- R364: Ethernet port page. -/
def rows50 : List RegRow :=
  [⟨0x40, 1, 0, 0xffff, 0, 0, 0, false, false, 0xec⟩,
   ⟨0x44, 1, 0xf, 0, 0, 0, 0, false, false, 0⟩,
   ⟨0x48, 1, 0, 0xffffffff, 0, 0, 0, false, true, 0⟩,
   ⟨0x4c, 1, 0, 0xffff, 0, 0, 0, false, false, 0⟩,
   ⟨0x50, 10, 0, 0xffffffff, 0, 0, 0, false, false, 0⟩,
   ⟨0x78, 1, 0, 0xffff, 0, 0, 0, false, false, 0xca08⟩,
   ⟨0x7c, 1, 0, 0xffffff, 0, 0, 0, false, false, 0⟩,
   ⟨0x80, 1, 0, 0xffff, 0, 0, 0, false, false, 0x64⟩,
   ⟨0x84, 1, 0, 0xffff, 0, 0, 0, false, false, 0xc8⟩,
   ⟨0x88, 15, 0xffffffff, 0, 0, 0, 0, true, false, 0⟩,
   ⟨0xc4, 2, 0xffffffff, 0, 0, 0, 0, false, false, 0⟩]

/-- R366: XHT sessions page. -/
def rows51 : List RegRow :=
  [⟨0x40, 1, 0, 0xff, 0, 0, 0, false, false, 0⟩,
   ⟨0x44, 11, 0xffffffff, 0, 0, 0, 0, false, false, 0⟩,
   ⟨0x70, 1, 0x1fff, 0, 0, 0, 0, false, false, 0⟩,
   ⟨0x74, 1, 0, 0xf3f, 0, 0, 0, false, false, 0⟩,
   ⟨0x78, 1, 0x800000ff, 0, 0, 0, 0, false, false, 0⟩]

/-- R331: Ethernet shaping page. -/
def rows52 : List RegRow :=
  [⟨0x40, 1, 0, 0x3f, 0, 0, 0, false, false, 0⟩,
   ⟨0x44, 1, 0, 0xff03, 0, 0, 0, false, false, 0x1402⟩,
   ⟨0x48, 1, 0, 0x3fffff, 0, 0, 0, false, false, 0⟩,
   ⟨0x4c, 1, 0, 0xffffff, 0, 0, 0, false, false, 0x2414⟩,
   ⟨0x50, 1, 0xffffffff, 0, 0, 0, 0, false, false, 0⟩,
   ⟨0x54, 1, 0xffffffff, 0, 0, 0, 0, true, false, 0⟩]

/-- R332: Ethernet gate page. -/
def rows53 : List RegRow :=
  [⟨0x40, 1, 0, 0xff00, 0, 0, 0, false, false, 0⟩,
   ⟨0x44, 1, 0, 0xffffffff, 0, 0, 0, false, false, 0xff⟩,
   ⟨0x48, 1, 0, 0x1ff, 0, 0, 0, false, false, 1⟩,
   ⟨0x4c, 1, 0, 0xffffffff, 0, 0, 0, false, false, 0⟩,
   ⟨0x50, 1, 0, 0xffffffff, 0, 0, 0, false, true, 0⟩,
   ⟨0x54, 1, 0, 0xffffffff, 0, 0, 0, false, false, 0⟩,
   ⟨0x58, 1, 0, 4, 0, 3, 0, false, false, 0⟩,
   ⟨0x5c, 1, 0x73ff, 0, 0, 0, 0, false, false, 0⟩,
   ⟨0x60, 1, 0xffffffff, 0, 0, 0, 0, true, false, 0⟩]

/-- R312: router page. -/
def rows60 : List RegRow :=
  [⟨0x40, 1, 0x80000fff, 0xfff000, 0, 0, 0, false, false, 0⟩,
   ⟨0x44, 2, 0, 0xfff, 0, 0, 0, false, false, 0⟩,
   ⟨0x4c, 1, 0, 0x80000fff, 0, 0, 0, false, false, 0⟩,
   ⟨0x50, 1, 0, 0x7f, 0, 0, 0, false, false, 0⟩,
   ⟨0x54, 1, 0, 0x73, 0, 0, 0, false, false, 0⟩,
   ⟨0x58, 1, 0, 0x3fff, 0, 0, 0, false, false, 0⟩,
   ⟨0x5c, 1, 0, 0x8007ffff, 0, 0, 0, false, false, 0⟩,
   ⟨0x60, 4, 0, 0x80003fff, 0, 0, 0, false, false, 0⟩,
   ⟨0x70, 5, 0xffffffff, 0, 0, 0, 0, true, false, 0⟩,
   ⟨0x84, 1, 0x77f, 0, 0, 0, 0, false, false, 0⟩,
   ⟨0x88, 1, 0xffffffff, 0, 0, 0, 0, false, false, 0⟩]

/-- R205: router-side isolation page. -/
def rows61 : List RegRow :=
  [⟨0x40, 1, 0, 0xfff, 0, 0, 0, false, false, 0⟩,
   ⟨0x44, 4, 0xffffffff, 0, 0, 0, 0, false, false, 0⟩,
   ⟨0x54, 1, 0xffff, 0, 0, 0, 0, false, false, 0⟩,
   ⟨0x58, 1, 0, 0x7f, 0, 0, 0, false, false, 0⟩,
   ⟨0x5c, 1, 0x80003fff, 0, 0, 0, 0, false, false, 0⟩,
   ⟨0x60, 2, 0xffffffff, 0, 0, 0, 0, true, false, 0⟩]

/-- R313: fabric time page. -/
def rows62 : List RegRow :=
  [⟨0x40, 1, 0, 1, 0, 0, 0, false, false, 0⟩,
   ⟨0x44, 1, 0, 0xffffffff, 0, 0, 0, false, false, 0⟩,
   ⟨0x48, 1, 0x3fff, 0, 0, 0, 0, false, false, 0⟩,
   ⟨0x4c, 1, 0xffffffff, 0, 0, 0, 0, false, true, 0⟩,
   ⟨0x50, 1, 0xffffffff, 0, 0, 0, 0, false, false, 0⟩,
   ⟨0x54, 1, 0xffff, 0, 0, 0, 0, false, false, 0⟩,
   ⟨0x58, 1, 0, 0x7f, 0, 0, 0, false, false, 0⟩,
   ⟨0x5c, 1, 0xffff, 0, 0, 0, 0, false, false, 0⟩,
   ⟨0x60, 1, 0xffffffff, 0, 0, 0, 0, true, false, 0⟩,
   ⟨0x64, 1, 0, 0xffffffff, 0, 0, 0, false, true, 0⟩,
   ⟨0x68, 1, 0, 0xffffffff, 0, 0, 0, false, false, 0⟩,
   ⟨0x6c, 1, 0, 0xffff, 0, 0, 0, false, false, 0x400⟩]

/-- R314: traffic plan page. -/
def rows63 : List RegRow :=
  [⟨0x40, 1, 7, 0, 0, 0, 0, false, false, 0⟩,
   ⟨0x44, 2, 0xffffffff, 0, 0, 0, 0, false, false, 0⟩,
   ⟨0x4c, 1, 0x1fffff, 0, 0, 0, 0, false, false, 0⟩,
   ⟨0x50, 1, 0xffffffff, 0, 0, 0, 0, false, true, 0⟩,
   ⟨0x54, 1, 0xffffffff, 0, 0, 0, 0, false, false, 0⟩,
   ⟨0x58, 1, 0xffffffff, 0, 0, 0, 0, false, true, 0⟩,
   ⟨0x5c, 1, 0xffffffff, 0, 0, 0, 0, false, false, 0⟩,
   ⟨0x60, 1, 0xf, 0, 0, 0, 0, false, false, 0⟩,
   ⟨0x64, 1, 0x7fff7fff, 0, 0, 0, 0, false, false, 0⟩]

/-- R331: fabric shaping page. -/
def rows64 : List RegRow :=
  [⟨0x40, 1, 0, 0x7f3f, 0, 0, 0, false, false, 0⟩,
   ⟨0x44, 1, 0, 0xff03, 0, 0, 0, false, false, 2⟩,
   ⟨0x48, 1, 0, 0x3fffff, 0, 0, 0, false, false, 0⟩,
   ⟨0x4c, 1, 0, 0xffffff, 0, 0, 0, false, false, 0x880⟩,
   ⟨0x50, 1, 0xffffffff, 0, 0, 0, 0, false, false, 0⟩,
   ⟨0x54, 1, 0xffffffff, 0, 0, 0, 0, true, false, 0⟩,
   ⟨0x58, 1, 0, 0xff7777, 0, 0, 0, false, false, 0x83322⟩,
   ⟨0x5c, 2, 0xffffffff, 0, 0, 0, 0, true, false, 0⟩]

/-- R332: fabric gate page. -/
def rows65 : List RegRow :=
  [⟨0x40, 1, 0, 0xff03, 0, 0, 0, false, false, 0⟩,
   ⟨0x44, 1, 0, 0xffffffff, 0, 0, 0, false, false, 0xff⟩,
   ⟨0x48, 1, 0, 0x1ff, 0, 0, 0, false, false, 1⟩,
   ⟨0x4c, 1, 0, 0xffffffff, 0, 0, 0, false, false, 0⟩,
   ⟨0x50, 1, 0, 0xffffffff, 0, 0, 0, false, true, 0⟩,
   ⟨0x54, 1, 0, 0xffffffff, 0, 0, 0, false, false, 0⟩,
   ⟨0x58, 1, 0, 4, 0, 3, 0, false, false, 0⟩,
   ⟨0x5c, 1, 0x73ff, 0, 0, 0, 0, false, false, 0⟩,
   ⟨0x60, 1, 0xffffffff, 0, 0, 0, 0, true, false, 0⟩,
   ⟨0x64, 1, 0, 0x7f, 0, 0, 0, false, false, 0⟩,
   ⟨0x68, 1, 0, 7, 0, 0, 0, false, false, 0⟩]

/-- R227: directory page. -/
def rows70 : List RegRow :=
  [⟨0x40, 1, 0, 0, 0, 1, 0, false, false, 0⟩,
   ⟨0x44, 1, 0, 0xffff, 0, 0, 0, false, false, 0x4b0⟩,
   ⟨0x48, 1, 0x3ffffff, 0, 0, 0, 0, false, false, 0⟩,
   ⟨0x4c, 1, 0x1f07ff, 0, 0, 0, 0, false, false, 0⟩,
   ⟨0x50, 5, 0xffffffff, 0, 0, 0, 0, true, false, 0⟩,
   ⟨0x64, 1, 0x8003ffff, 0, 0, 0, 0, false, false, 0⟩,
   ⟨0x68, 1, 0x7ffff, 0, 0, 0, 0, false, false, 0⟩,
   ⟨0x6c, 1, 0xffffffff, 0, 0, 0, 0, true, false, 0⟩,
   ⟨0x70, 1, 0, 0xfffffff, 0, 0, 0, false, false, 0⟩,
   ⟨0x74, 4, 0xffffffff, 0, 0, 0, 0, false, false, 0⟩,
   ⟨0x84, 1, 3, 0, 0, 0, 0, false, false, 0⟩,
   ⟨0x88, 1, 0xffff, 0, 0, 0, 0, false, false, 0⟩]

/-- R228: publication page. -/
def rows71 : List RegRow :=
  [⟨0x40, 1, 0, 0x3ff, 0, 0, 0, false, false, 0⟩,
   ⟨0x44, 1, 0xffffffff, 0, 0, 0, 0, false, false, 0⟩,
   ⟨0x48, 1, 0x1ffffff, 0, 0, 0, 0, false, false, 0⟩,
   ⟨0x4c, 1, 0xfffffff, 0, 0, 0, 0, false, false, 0⟩,
   ⟨0x50, 1, 0xffffffff, 0, 0, 0, 0, false, true, 0⟩,
   ⟨0x54, 1, 0xffffffff, 0, 0, 0, 0, false, false, 0⟩,
   ⟨0x58, 1, 0xffffffff, 0, 0, 0, 0, false, true, 0⟩,
   ⟨0x5c, 1, 0xffffffff, 0, 0, 0, 0, false, false, 0⟩,
   ⟨0x60, 1, 0x7ff, 0, 0, 0, 0, false, false, 0⟩,
   ⟨0x64, 3, 0xffffffff, 0, 0, 0, 0, true, false, 0⟩]

/-- R253: promises page. -/
def rows72 : List RegRow :=
  [⟨0x40, 1, 0x1ffff, 0, 0, 0, 0, false, false, 0⟩,
   ⟨0x44, 6, 0xffffffff, 0, 0, 0, 0, true, false, 0⟩,
   ⟨0x5c, 1, 0x7f, 0, 0, 0, 0, false, false, 0⟩,
   ⟨0x60, 1, 0xffffffff, 0, 0, 0, 0, true, false, 0⟩,
   ⟨0x64, 1, 0, 0x3f, 0, 0, 0, false, false, 0⟩,
   ⟨0x68, 1, 0, 0x7ff07ff, 0, 0, 0, false, false, 0x4000400⟩,
   ⟨0x6c, 1, 0, 0x7ff, 0, 0, 0, false, false, 0x400⟩,
   ⟨0x70, 1, 0, 0x1ffff, 0, 0, 0, false, false, 0x10000⟩,
   ⟨0x74, 1, 0x1ffff, 0, 0, 0, 0, false, false, 0⟩,
   ⟨0x78, 1, 0, 0xfff, 0, 0, 0, false, false, 0⟩,
   ⟨0x7c, 1, 0x8000ffff, 0, 0, 0, 0, false, false, 0⟩,
   ⟨0x80, 1, 0x7fffffff, 0, 0, 0, 0, false, false, 0⟩,
   ⟨0x84, 1, 0xffffffff, 0, 0, 0, 0, false, false, 0⟩,
   ⟨0x88, 1, 0xffffff, 0, 0, 0, 0, false, false, 0⟩,
   ⟨0x8c, 1, 0x3fff, 0, 0, 0, 0, false, false, 0⟩,
   ⟨0x90, 1, 0x7fffff, 0, 0, 0, 0, false, false, 0⟩,
   ⟨0x94, 1, 0xfffffff, 0, 0, 0, 0, false, false, 0⟩,
   ⟨0x98, 1, 0xffff, 0, 0, 0, 0, false, false, 0⟩]

/-- R203: extents and controller-side isolation page. -/
def rows73 : List RegRow :=
  [⟨0x40, 1, 0, 0x1fff, 0, 0, 0, false, false, 0⟩,
   ⟨0x44, 1, 0x3fffff, 0, 0, 0, 0, false, false, 0⟩,
   ⟨0x48, 1, 0xff, 0, 0, 0, 0, false, false, 0⟩,
   ⟨0x4c, 1, 0, 0xffffffff, 0, 0, 0, false, false, 0x3e8⟩,
   ⟨0x50, 1, 0x1fff, 0, 0, 0, 0, false, false, 0⟩,
   ⟨0x54, 1, 0x3fff3fff, 0, 0, 0, 0, false, false, 0⟩,
   ⟨0x58, 1, 0, 0xfff, 0, 0, 0, false, false, 0⟩,
   ⟨0x5c, 4, 0xffffffff, 0, 0, 0, 0, false, false, 0⟩,
   ⟨0x6c, 1, 0x1ffff, 0, 0, 0, 0, false, false, 0⟩,
   ⟨0x70, 1, 0xffffffff, 0, 0, 0, 0, true, false, 0⟩,
   ⟨0x74, 1, 0, 0xffff, 0, 0, 0, false, false, 0x10⟩,
   ⟨0x78, 1, 0, 0xffff, 0, 0, 0, false, false, 0x12c⟩,
   ⟨0x7c, 1, 0xffffffff, 0, 0, 0, 0, true, false, 0⟩]

/-- R204: leases page. -/
def rows74 : List RegRow :=
  [⟨0x40, 1, 0, 0xfff, 0, 0, 0, false, false, 0⟩,
   ⟨0x44, 1, 0x3f073fff, 0, 0, 0, 0, false, false, 0⟩,
   ⟨0x48, 2, 0x3ffffff, 0, 0, 0, 0, false, false, 0⟩,
   ⟨0x50, 1, 0xffffffff, 0, 0, 0, 0, false, true, 0⟩,
   ⟨0x54, 1, 0xffffffff, 0, 0, 0, 0, false, false, 0⟩,
   ⟨0x58, 1, 0x1fff, 0, 0, 0, 0, false, false, 0⟩,
   ⟨0x5c, 1, 0xffffffff, 0, 0, 0, 0, true, false, 0⟩,
   ⟨0x60, 1, 0, 0x3fff, 0, 0, 0, false, false, 0⟩,
   ⟨0x64, 1, 0x80000fff, 0, 0, 0, 0, false, false, 0⟩,
   ⟨0x68, 1, 0, 0xff, 0, 0, 0, false, false, 0⟩,
   ⟨0x6c, 1, 0xffffffff, 0, 0, 0, 0, true, false, 0⟩]

/-- R383: partition page. -/
def rows80 : List RegRow :=
  [⟨0x40, 1, 0, 1, 0, 0, 0, false, false, 0⟩,
   ⟨0x44, 1, 1, 0, 0, 0, 0, false, false, 0⟩,
   ⟨0x48, 1, 0xffffffff, 0, 0, 0, 0, true, false, 0⟩,
   ⟨0x4c, 1, 0xffffffff, 0, 0, 0, 0, false, true, 0⟩,
   ⟨0x50, 2, 0xffffffff, 0, 0, 0, 0, false, false, 0⟩,
   ⟨0x58, 1, 0xffffffff, 0, 0, 0, 0, true, false, 0⟩,
   ⟨0x5c, 1, 0xff, 0, 0, 0, 0, false, false, 0⟩]

/-- R407: check-value unit page. -/
def rows90 : List RegRow :=
  [⟨0x40, 1, 0, 0xffffffff, 0, 0, 0, false, true, 0⟩,
   ⟨0x44, 1, 0, 0xff, 0, 0, 0, false, false, 0⟩,
   ⟨0x48, 1, 0, 0xffffffff, 0, 0, 0, false, false, 0⟩,
   ⟨0x4c, 1, 0, 0xffff3f0f, 0, 0, 0, false, false, 2⟩,
   ⟨0x50, 1, 0, 0xffffffff, 0, 0, 0, false, true, 0⟩,
   ⟨0x54, 1, 0, 0xffffffff, 0, 0, 0, false, false, 0⟩,
   ⟨0x58, 1, 0, 0, 0, 0, 1, false, false, 0⟩,
   ⟨0x5c, 1, 0xf3f, 0, 0, 0, 0, false, false, 0⟩,
   ⟨0x60, 1, 0xffffffff, 0, 0, 0, 0, false, true, 0⟩,
   ⟨0x64, 2, 0xffffffff, 0, 0, 0, 0, false, false, 0⟩,
   ⟨0x6c, 1, 0xffffffff, 0, 0, 0, 0, true, false, 0⟩]

/-- R408: check-value global page. -/
def rows91 : List RegRow :=
  [⟨0x40, 1, 0xffffffff, 0, 0, 0, 0, true, false, 0⟩,
   ⟨0x44, 1, 0x3fff007f, 0, 0, 0, 0, false, false, 0⟩,
   ⟨0x48, 1, 0xffff, 0, 0, 0, 0, false, false, 0⟩,
   ⟨0x4c, 1, 0xffffffff, 0, 0, 0, 0, true, false, 0⟩]

/-- R431: pair and crown page. -/
def rowsA0 : List RegRow :=
  [⟨0x40, 1, 0, 0xf, 0, 0, 0, false, false, 0⟩,
   ⟨0x44, 1, 0, 0x80000fff, 0, 0, 0, false, false, 0⟩,
   ⟨0x48, 1, 0x7f0f, 0, 0, 0, 0, false, false, 0⟩,
   ⟨0x4c, 1, 0, 0, 0, 0, 0xff00000f, false, false, 0⟩,
   ⟨0x50, 1, 0, 0, 0, 1, 0, false, false, 0⟩,
   ⟨0x54, 1, 0xffffffff, 0, 0, 0, 0, false, true, 0⟩,
   ⟨0x58, 3, 0xffffffff, 0, 0, 0, 0, false, false, 0⟩,
   ⟨0x64, 1, 0xffffffff, 0, 0, 0, 0, false, true, 0⟩,
   ⟨0x68, 1, 0xffffffff, 0, 0, 0, 0, false, false, 0⟩,
   ⟨0x6c, 1, 0, 0xffffffff, 0, 0, 0, false, false, 0x140032⟩,
   ⟨0x70, 1, 0, 0x3ff, 0, 0, 0, false, false, 0x40⟩,
   ⟨0x74, 1, 0x3fffffff, 0, 0, 0, 0, false, false, 0⟩,
   ⟨0x78, 6, 0xffffffff, 0, 0, 0, 0, true, false, 0⟩]

/-- R476: Kilvy chain page. -/
def rowsB0 : List RegRow :=
  [⟨0x40, 1, 0x80000fff, 0, 0, 0, 0, false, false, 0⟩,
   ⟨0x44, 1, 0x31f, 0, 0, 0, 0, false, false, 0⟩,
   ⟨0x48, 1, 0x1f, 0, 0, 0, 0, false, false, 0⟩,
   ⟨0x4c, 1, 0, 0x1f, 0, 0, 0, false, false, 0x1f⟩,
   ⟨0x50, 1, 0, 0, 0, 1, 0, false, false, 0⟩,
   ⟨0x54, 3, 0xffffffff, 0, 0, 0, 0, true, false, 0⟩]

/-- R494: clocks page. -/
def rowsB1 : List RegRow :=
  [⟨0x40, 1, 0xfff007f, 0, 0, 0, 0, false, false, 0⟩,
   ⟨0x44, 1, 0xffffffff, 0, 0, 0, 0, true, false, 0⟩,
   ⟨0x48, 1, 0, 0, 0xfff007f, 0, 0, false, false, 0⟩,
   ⟨0x4c, 1, 0xffffffff, 0, 0, 0, 0, false, false, 0⟩]

/-- R495: power and sensors page. -/
def rowsB2 : List RegRow :=
  [⟨0x40, 1, 0, 7, 0, 0, 0, false, false, 0⟩,
   ⟨0x44, 1, 0xffffffff, 0, 0, 0, 0, false, false, 0⟩,
   ⟨0x48, 1, 0x7f, 0, 0, 0, 0, false, false, 0⟩,
   ⟨0x4c, 1, 0, 0x1f, 0, 0, 0, false, false, 0⟩,
   ⟨0x50, 2, 0xff, 0, 0, 0, 0, false, false, 0⟩,
   ⟨0x58, 1, 0, 0xff, 0, 0, 0, false, false, 0x64⟩,
   ⟨0x5c, 1, 0xffffffff, 0, 0, 0, 0, true, false, 0⟩,
   ⟨0x60, 1, 0x607, 0, 0, 0, 0, false, false, 0⟩]

/-- R383: the four words of a vector's PT_VEC. -/
def rowsVec : List RegRow :=
  [⟨0x0, 1, 0, 0x3fff0003, 0, 0, 0, false, false, 0⟩,
   ⟨0x4, 1, 0, 0xffffffff, 0, 0, 0, false, false, 1⟩,
   ⟨0x8, 1, 0xffff, 0, 0, 0, 0, false, false, 0⟩,
   ⟨0xc, 1, 0xffffffff, 0, 0, 0, 0, true, false, 0⟩]

/-- R151: a context record. -/
def rowsCtx : List RegRow :=
  [⟨0x0, 1, 0xff07, 0, 0, 0, 0, false, false, 0⟩,
   ⟨0x4, 1, 0xfffff000, 0, 0, 0, 0, false, true, 0⟩,
   ⟨0x8, 1, 0xff, 0, 0, 0, 0, false, false, 0⟩,
   ⟨0xc, 1, 0x7ffff, 0, 0, 0, 0, false, false, 0⟩,
   ⟨0x10, 6, 0xffffffff, 0, 0, 0, 0, false, false, 0⟩,
   ⟨0x28, 1, 0xffff, 0, 0, 0, 0, false, false, 0⟩,
   ⟨0x2c, 1, 0x1fff, 0, 0, 0, 0, false, false, 0⟩,
   ⟨0x30, 1, 0xffffffff, 0, 0, 0, 0, false, true, 0⟩,
   ⟨0x34, 1, 0xffff, 0, 0, 0, 0, false, false, 0⟩,
   ⟨0x38, 1, 0x1fffff, 0, 0, 0, 0, false, false, 0⟩,
   ⟨0x3c, 1, 0xffffffff, 0, 0, 0, 0, false, true, 0⟩,
   ⟨0x40, 1, 0xffffffff, 0, 0, 0, 0, false, false, 0⟩,
   ⟨0x44, 1, 0xffffffff, 0, 0, 0, 0, true, false, 0⟩,
   ⟨0x48, 1, 0x1, 0, 0, 0, 0, false, false, 0⟩]

/-- R499: the table of a page type. -/
def regRows (ty : Nat) : List RegRow :=
  match ty with
  | 0x1 => rows01
  | 0x2 => rows02
  | 0x3 => rows03
  | 0x4 => rows04
  | 0x5 => rows05
  | 0x10 => rows10
  | 0x11 => rows11
  | 0x20 => rows20
  | 0x21 => rows21
  | 0x22 => rows22
  | 0x23 => rows23
  | 0x24 => rows24
  | 0x25 => rows25
  | 0x26 => rows26
  | 0x30 => rows30
  | 0x40 => rows40
  | 0x50 => rows50
  | 0x51 => rows51
  | 0x52 => rows52
  | 0x53 => rows53
  | 0x60 => rows60
  | 0x61 => rows61
  | 0x62 => rows62
  | 0x63 => rows63
  | 0x64 => rows64
  | 0x65 => rows65
  | 0x70 => rows70
  | 0x71 => rows71
  | 0x72 => rows72
  | 0x73 => rows73
  | 0x74 => rows74
  | 0x80 => rows80
  | 0x90 => rows90
  | 0x91 => rows91
  | 0xa0 => rowsA0
  | 0xb0 => rowsB0
  | 0xb1 => rowsB1
  | 0xb2 => rowsB2
  | _ => []

end Sys2Proof.Machine
end

