-- ==== Sys2Proof/Machine/TypesCluster.lean ====
section
/-! DEFINITION. State of a cluster: cores and their data caches, the frog, the copy engines, the TLB
(chapters 03 to 06). -/

namespace Sys2Proof.Machine

/-! ## Cores (chapter 04) and caches (R116) -/

/-- R116: a valid line of a data cache: its store offset, its state (1 S, 2 E, 3 M), its 64 bytes,
the words it holds poisoned (R113), and the number of its last use. -/
structure Line where
  off : Nat
  st : Nat
  data : List Byte
  bad : List Nat
  used : Nat
deriving DecidableEq, Repr

/-- R116, R117: the miss transaction of a core: 0 RD, 1 RDX, 2 UPG; what the load or store it serves
does: store offset, funct3, destination or value, length of the instruction. -/
structure Miss where
  kind : Nat
  addr : Nat
  f3 : Nat
  rd : Nat
  val : Nat
  len : Nat
deriving DecidableEq, Repr

/-- R98: states of a core: 0 OFF, 1 HALTED, 2 RUN, 3 WAIT_TICK, 4 TRAPPED, 5 FENCED. -/
structure Core where
  st : Nat := 0
  /-- marked 0 in the newt map (R98) -/
  absent : Bool := false
  /-- x1 to x31 -/
  x : KMap Word := []
  pc : Nat := 0
  /-- target, rd and length of the kv.waitt it is stalled in -/
  target : Nat := 0
  wrd : Nat := 0
  wlen : Nat := 0
  kvrm : Nat := 0
  kvqsh : Nat := 0
  kvflags : Nat := 0
  kvcrc : Nat := 0
  kvbw : Nat := 8
  /-- local reference at which it last left OFF -/
  left : Nat := 0
  instret : Nat := 0
  /-- high words latched by reads of cycle, time and instret (R92) -/
  hiC : Nat := 0
  hiT : Nat := 0
  hiI : Nat := 0
  /-- valid cache lines by 4·set + way -/
  lines : KMap (Option Line) := []
  uses : Nat := 0
  miss : Option Miss := none
  /-- dirty lines are being written back: 0 no, 2 for a reset, 3 for a fence (R100, R388) -/
  flush : Nat := 0
  /-- the reset met a dirty line with an uncorrectable word (R100) -/
  badDirty : Bool := false
  /-- HALT waits for the instruction to retire (R99) -/
  haltReq : Bool := false
  /-- R93: machine mode of the cluster control core -/
  mie : Bool := false
  mpie : Bool := false
  mtvec : Word := 0
  mepc : Word := 0
  mcause : Word := 0
  mtval : Word := 0
  mscratch : Word := 0
  mieReg : Word := 0
deriving DecidableEq, Repr

/-! ## The frog (chapter 03) -/

/-- R54: the state of an accumulator slot. Classes: 0 TERN, 1 4-bit, 2 8-bit, 3 16-bit (R52). -/
structure FSlot where
  valid : Bool := false
  cls : Nat := 0
  rows : Nat := 0
  cols : Nat := 0
  lo : Int := 0
  hi : Int := 0
  exact : Bool := false
  kcount : Nat := 0
deriving DecidableEq, Repr

/-- R77 to R81: kinds of posts between frogs. -/
inductive PostKind where
  | total | carry | relay
  | abort (st : Status)
deriving DecidableEq, Repr

/-- R77 to R81: a carry, relay or abort post on its way: source and target cluster, context of the
sender, scan ID, chunk, values with their SAT bits. -/
structure Post where
  kind : PostKind
  src : Nat
  dst : Nat
  ctx : Option Nat
  scan : Nat
  chunk : Nat
  vals : List (Int × Bool)
deriving DecidableEq, Repr

/-- R80: a filled entry of the carry table: the total and the cluster it came from. -/
structure Total where
  val : Int
  sat : Bool
  src : Nat
deriving DecidableEq, Repr

/-- R77, R78: a scan descriptor in WAIT_CARRY: its elements of b by lane, lane totals and chunk
total after pass T, the head's h0, states that met R38 so far, the ACLK cycle since when it waits
(R81). -/
structure ScanWait where
  serial : Nat
  desc : List Word
  els : List (List Int)
  lanes : List (Int × Bool)
  total : Int × Bool
  h0 : Int
  count : Nat
  since : Nat
  /-- the head has posted the chunk carries -/
  sent : Bool
deriving DecidableEq, Repr

/-- The frog of a cluster. Accumulators and SAT bits by 65536·slot + 256·row + column (R53); a 4-bit
or TERN tile lies under slot 0. -/
structure Frog where
  queue : List (Nat × List Word) := []
  serial : Nat := 0
  /-- TRAPPED; the trapped descriptor, none for code 0x40 (R67, R68) -/
  trapped : Bool := false
  trapDesc : Option (Nat × List Word) := none
  s0 : FSlot := {}
  s1 : FSlot := {}
  acc : KMap (Int × Bool) := []
  wait : Option ScanWait := none
  /-- R80: the carry table: serial number and SCAN_ID of the descriptor it is armed for -/
  armed : Option (Nat × Nat) := none
  table : KMap (Option Total) := []
  /-- R72: serial numbers of head gather descriptors accepted while the table was armed -/
  clash : List Nat := []
  /-- queue entry an injection struck, with its flipped bits (R398) -/
  struck : Option (Nat × Nat) := none
  /-- carry-in buffer (R80) -/
  buf : Option Post := none
deriving DecidableEq, Repr

/-! ## Copy engines (chapter 05) -/

/-- R144: a checked translation: the 2 MiB page of the range, its pool offset, the number of the TLB entry
it came from. -/
structure Trans where
  page : Nat
  pa : Nat
  ent : Nat
deriving DecidableEq, Repr

/-- R121 to R128: a started copy descriptor. -/
structure Desc where
  serial : Nat
  off : Nat
  ws : List Word
  /-- context ID of its cluster when it started -/
  ctx : Option Nat
  /-- 2 MiB pages of its range not yet checked, ascending; translations checked (R144) -/
  need : List Nat
  tr : List Trans
  /-- the lookup of its next page has missed (R152) -/
  missed : Bool := false
  /-- next block to issue; no block is issued any more -/
  next : Nat
  stop : Bool
  /-- blocks in flight, and blocks written -/
  fly : List Nat
  ok : Nat
  /-- failed blocks -/
  fails : List (Nat × Status)
  /-- WAITT: it waits for its tick; it ended late -/
  waiting : Bool
  late : Bool
  /-- stopped by a fence, a reset or a kill (R129) -/
  forced : Option Status
deriving DecidableEq, Repr

/-- R121 to R129: a copy engine. -/
structure Eng where
  queue : List Nat := []
  /-- offset of the next descriptor of the running program -/
  cur : Option Nat := none
  /-- started descriptors in program order -/
  descs : List Desc := []
  serial : Nat := 0
  /-- ACLK cycle of the last block request -/
  lastIssue : Option Nat := none
  /-- programs whose heads a fence has still to answer (R129) -/
  heads : List Nat := []
  /-- queue entry an injection struck, counted from the head, with its flipped bits (R398) -/
  struck : Option (Nat × Nat) := none
deriving DecidableEq, Repr

/-- R126, R128: an XC block on its way to another cluster: the engine that copies it, its number
2048·serial + k, target cluster and offset, its bytes. -/
structure XcBlk where
  c : Nat
  e : Nat
  i : Nat
  dst : Nat
  off : Nat
  data : List Byte
deriving DecidableEq, Repr

/-- R141: a TLB entry: context ID, VA and size in 2 MiB pages, pool offset, rights, pinned, whether a
SECDED injection struck it: 1 or 2 flipped bits, and the number of its installation. -/
structure TlbEnt where
  ctx : Nat
  page : Nat
  size : Nat
  pa : Nat
  r : Bool
  w : Bool
  pin : Bool
  flips : Nat
  ent : Nat := 0
deriving DecidableEq, Repr

/-- R142, R143: a table walk in flight, of engine 0 or 1 or of the preload (2): context ID, page in
2 MiB pages, level of the entry it reads. -/
structure Walk where
  e : Nat
  ctx : Nat
  page : Nat
  level : Nat
deriving DecidableEq, Repr

/-- One cluster beyond its memories and registers. -/
structure Cl where
  cores : KMap Core := []
  frog : Frog := {}
  eng0 : Eng := {}
  eng1 : Eng := {}
  /-- TLB entries by index 0 to 255, and the round-robin pointer (R141) -/
  tlb : KMap (Option TlbEnt) := []
  tlbPtr : Nat := 0
  /-- installations so far -/
  tlbSeq : Nat := 0
  walks : List Walk := []
  /-- R143: the preload in progress: its 2 MiB page, and whether it pins -/
  pre : Option (Nat × Bool) := none
  /-- cluster event queue (R95): core, vector, payload; tick of the last event taken from it -/
  evq : List (Nat × Nat × Nat) := []
  evLast : Option Nat := none
  /-- transactions the order point has admitted while the store gives no grants, in the order of their
  admission, and retry credits in the order of their RETRYs: line and requester (R117, R118) -/
  opens : List (Nat × Nat) := []
  credits : List (Nat × Nat) := []
  /-- masked newts of the broadcast in progress (R106) -/
  bcast : List Nat := []
  /-- completion words a fence has ordered and that are not yet written: offset and bytes (R65) -/
  words : List (Nat × List Byte) := []
  /-- granule the scrubber reads next, and the ACLK cycle of its last read (R114) -/
  scrub : Nat := 0
  scrubAt : Nat := 0
deriving DecidableEq, Repr

end Sys2Proof.Machine
end

