-- ==== Sys2Proof/Machine/TypesLink.lean ====
section
/-! DEFINITION. State of the links, fabric time, time gates and grant arbiters (chapters 11 to 13). -/

namespace Sys2Proof.Machine

/-- R260, R311: a packet being received on a VC: flits it takes and has, and whether a plan violation
moved it to unscheduled traffic. -/
structure OpenPkt where
  need : Nat
  got : Nat
  moved : Bool
deriving DecidableEq, Repr

/-- R234, R251: a response that holds a reservation: its partition, source host, tag and deadline,
whether its status replaced a response that could not be sent, and whether its status stands whatever
strikes: it failed first (R13), or is that of a publish that flipped (R226). -/
structure RespTag where
  part : Nat
  host : Nat
  tag : Nat
  td : Nat
  replaced : Bool
  firm : Bool
deriving DecidableEq, Repr

/-- A packet of the chip's own for the router: whether VALUE is the tick at which its first flit takes
its number (R304), its reservation, the ORD of its cause on a paired chip, and whether it is chip-local
there, the answer to a TIME or MGMT request (R422). -/
structure OwnPkt where
  pkt : Packet
  stamp : Bool
  resv : Option RespTag
  cause : Option Nat
  lone : Bool
deriving DecidableEq, Repr

/-- R272: a flit that waits for its first transmission: VC, type, payload, flits of its packet, whether
VALUE of its header is the tick at which it takes its number (R304), and the reservation of its
packet; for a response, the host and the TAG it answers. -/
structure TxFlit where
  vc : Nat
  typ : Nat
  flits : Nat
  stamp : Bool
  resv : Option RespTag
  payload : List Byte
  resp : Option (Nat × Nat) := none
deriving DecidableEq, Repr

/-- R276: a retraining request: RESET or RETRAIN, codewords whose LSTATE is still to be sent, whether this
end asks of its own accord or answers the partner, and the tick since when. -/
structure Ask where
  reset : Bool
  left : Nat
  own : Bool
  start : Nat
deriving DecidableEq, Repr

/-- R318, R319: a request the arbiter knows: requester, priority, beats, beats transferred, the cycle
since when it waits, whether its grant was by step 1 of R317. -/
structure ArbEnt where
  who : Nat
  prio : Nat
  beats : Nat
  done : Nat
  since : Nat
  step1 : Bool
deriving DecidableEq, Repr

/-- R316 to R319: an arbiter: its cycle, its next grant number, the holder, the parked requests. -/
structure Arb where
  cycle : Nat := 0
  g : Nat := 1
  holder : Option ArbEnt := none
  parked : List ArbEnt := []
deriving DecidableEq, Repr

/-- One link beyond its registers. -/
structure Lnk where
  /-- R261, R264: unacknowledged flits from U on, how many of them a replay has resent, and how many, the
  last of them, took their number during a replay and wait for their first transmission -/
  replay : List Flit := []
  replayPos : Option Nat := none
  firsts : Nat := 0
  /-- R266: responses with a reservation whose last flit is unacknowledged, by its number -/
  unackResp : List (Nat × RespTag) := []
  /-- R264, R265: ticks of the last restart of the timer and of the last advance of U; expiries -/
  timerAt : Nat := 0
  uAt : Nat := 0
  expiries : Nat := 0
  /-- R280: tick since which the link is in HOLD -/
  holdAt : Option Nat := none
  /-- flits whose CRC passed and that wait for their handling, oldest first -/
  rx : List Flit := []
  /-- R268: flits in the receive buffer -/
  buf : List Flit := []
  /-- R260: open packets by VC -/
  openRx : KMap (Option OpenPkt) := []
  /-- R311: scheduled packets received and not yet routed, oldest first: VC, and whether it was moved
  to unscheduled traffic -/
  heads : List (Nat × Bool) := []
  /-- R260: flits that left the receive buffer and whose packet has not left it whole, by VC -/
  gather : KMap (List Flit) := []
  /-- R268: credits owed by VC: the tick since which each is owed, oldest first -/
  owed : KMap (List Nat) := []
  /-- R272: an LCTL CREDIT, an LCTL XSTATE, a requested NULL is due -/
  creditDue : Bool := false
  xstateDue : Bool := false
  timeDue : Bool := false
  /-- R269: the receiver's off vector, the one last sent, and the one received -/
  offNow : Nat := 0
  offSent : Nat := 0
  off : Nat := 0
  /-- R272: first transmissions waiting by VC, oldest first; VCs with a packet part of which is sent -/
  txq : KMap (List TxFlit) := []
  txOpen : List Nat := []
  /-- flit time last used -/
  flitNo : Option Nat := none
  /-- R276 -/
  ask : Option Ask := none
  peerAsks : Nat := 0
  /-- R276: an INIT has completed since the link's reset -/
  met : Bool := false
  /-- R277: only a full training will do -/
  mustFull : Bool := true
  /-- R278: RESUME; the partner's INIT was received, and the INIT itself; INITs still to be sent -/
  resume : Bool := false
  peer : Option InitInfo := none
  inits : Nat := 0
  /-- R278: session last stored for the partner; R268: its SIZE values, which INIT does not carry
  (log entry 1) -/
  peerSession : Nat := 0
  peerSize : List Nat := []
  /-- R267: VC_EN, FC_MODE and SIZE in force since the last INIT -/
  vcEn : Nat := 0
  onOff : Bool := false
  sizes : List Nat := []
  /-- R275: ticks of the CRC errors within the window, newest first -/
  errs : List Nat := []
  /-- R255: codewords in a row that are good, that are bad; CWN expected -/
  good : Nat := 0
  bad : Nat := 0
  cwn : Nat := 0
  /-- R273: ticks at which LOCK and INIT were entered -/
  lockAt : Nat := 0
  initAt : Nat := 0
  /-- R374, R379: in a link reset until UP -/
  resetting : Bool := false
  /-- R485: its lane PLL group has lost lock -/
  noPll : Bool := false
  /-- R301: offset in 1/16 tick, lock state and depth of the partner; the partner's t1 and its
  arrival, for the next record; tick of the last requested record -/
  ofs : Int := 0
  nbrLocked : Bool := false
  nbrDepth : Nat := 0
  nbrT1 : Nat := 0
  nbrT4 : Nat := 0
  askedAt : Nat := 0
  /-- R331: RT_VARB, void grants and preemptions -/
  varb : Word := 0x00083322
  voids : Nat := 0
  preempts : Nat := 0
  /-- R315: its VC arbiter, and the flit time since when each VC is offered -/
  arb : Arb := {}
  since : KMap (Option Nat) := []
deriving DecidableEq, Repr

/-- R300, R302: the time logic: correction still to be slewed in 1/16 tick, tick of the last slewed
tick, exchanges in a row within ±2 ticks, whether a parent was gained since chip reset. -/
structure Ft where
  debt : Int := 0
  slewAt : Nat := 0
  run : Nat := 0
  had : Bool := false
  /-- R101: the value the clusters' tick copies stay at until fabric time reaches it -/
  hold : Nat := 0
deriving DecidableEq, Repr

/-- R328: a gate list in force: entries, cycle, base time. -/
structure GateOper where
  entries : List Word
  cycle : Nat
  base : Nat
deriving DecidableEq, Repr

/-- R328, R330, R332: a gate list: the administrative registers, the list in force with its current
entry, the list taken by a pending commit and its tick. -/
structure Gate where
  admin : KMap Word := []
  nent : Nat := 1
  cycle : Nat := 0
  take : Nat := 0
  disable : Bool := false
  err : Nat := 0
  oper : Option GateOper := none
  cur : Nat := 0
  pend : Option (GateOper × Nat) := none
deriving DecidableEq, Repr

end Sys2Proof.Machine
end

