-- ==== Sys2Proof/Machine/TypesChip.lean ====
section
/-! DEFINITION. The memories of the chip and everything else it holds, as plain data. -/

namespace Sys2Proof.Machine

/-- R398, R112, R91: what a SECDED word holds beside its data: one flipped bit, two flipped bits, or
the poison codeword of R113; `told` is a word with two flipped bits that has been reported and stays as it
was (R112). A word not listed is good. -/
inductive Mark where
  | good | one | two | told | poison
deriving DecidableEq, Repr

/-- The memories: cluster stores (key 2^21·cluster + offset, R111), newt SRAMs (key as
`sramKey`, R88), pool data (key pool offset, R160), flash (R442); each byte not listed reads 0
(log entry 5). Marks are kept per 32-bit word, pool symbol errors per code block as pairs of symbol
index and flipped bits (R156, R157). -/
structure Mem where
  store : KMap Byte := []
  storeMark : KMap Mark := []
  sram : KMap Byte := []
  sramMark : KMap Mark := []
  pool : KMap Byte := []
  poolErr : KMap (List (Nat × Nat)) := []
  flash : KMap Byte := []
deriving DecidableEq, Repr

/-- Everything the chip holds beside its memories and the queue of waiting commands. -/
structure Chip where
  /-- fabric time, in ticks of 1 ns (R8, R300) -/
  now : Nat := 0
  /-- ticks of the local reference since power-good -/
  ref : Nat := 0
  /-- free values read so far (log entry 1) -/
  free : Nat := 0
  /-- what has left the chip, oldest first (log entry 4) -/
  out : List Out := []
  /-- registers by byte address; one not listed holds its reset value (R496) -/
  regs : KMap Word := []
  /-- R504: by 8·(address of the low word) + path: the latch of a path that reads, and the low word a
  path has written and that waits for its high word -/
  latches : KMap Word := []
  holds : KMap (Option Word) := []
  /-- clusters by number -/
  cls : KMap Cl := []
  /-- posts between frogs, and XC blocks, on their way (R79, R128) -/
  posts : List Post := []
  xcs : List XcBlk := []
  accs : List Acc := []
  prom : Prom := {}
  mcs : KMap Mc := []
  /-- throttles on their way to the admission controller (R173, R242) -/
  thrMsgs : List Thr := []
  rights : Rights := {}
  dir : Dir := {}
  regions : KMap Region := []
  /-- RT_ROLE by link: role and direction; none: as R287 (R288) -/
  roles : KMap (Option (Nat × Nat)) := []
  /-- RT_HLOC by host ID (R296) -/
  hloc : KMap Word := []
  /-- RT_COORD by chip address (R285) -/
  coord : KMap Word := []
  links : KMap Lnk := []
  ft : Ft := {}
  /-- packets of the chip's own that wait for the router -/
  own : List OwnPkt := []
  /-- gate lists: 0 to 3 of the fabric, 4 of Ethernet (R328); GATE_LINK by link -/
  gates : KMap Gate := []
  gateLink : KMap Nat := []
  /-- arbiters of store banks and mesh routers, and the holder and parked requests of the others, by
  `arbKey` (R315) -/
  arbs : KMap Arb := []
  eth : Eth := {}
  parts : Parts := {}
  errs : Errs := {}
  att : Att := {}
  chain : Chain := {}
  duo : Pair := {}
  /-- R430: copies of triplicated registers that differ -/
  tmr : List TmrBad := []
  boot : Boot := {}
  plan : Plan := {}
  /-- shapers by 64·port + partition (R323) -/
  shapers : KMap Shaper := []
  /-- R326: SHP_CFG, SHP_RATE and SHP_BURST as staged, by partition, + 64 on the Ethernet page -/
  shpStage : KMap (List Word) := []
  /-- packets waiting on their shapers, or on a gate or pause of the Ethernet port, oldest first -/
  held : List Held := []
deriving DecidableEq, Repr

/-- The memories and the rest together: what a command acts on. -/
structure Sys where
  mem : Mem := {}
  chip : Chip := {}
deriving DecidableEq, Repr

end Sys2Proof.Machine
end

