-- ==== Sys2Proof/Machine/State.lean ====
section
/-! DEFINITION. The state of the block: the queue of waiting commands, the memories, and everything
else the spec gives the chip; and the state after reset. -/

namespace Sys2Proof.Machine

/-- The block: the commands that wait, first in, first out, and the chip. -/
structure State where
  pending : List Instr
  sys : Sys
deriving DecidableEq, Repr

/-- Why the machine stops with a fault. -/
inductive Fault where
  /-- Raised by a register access of the triad (REGISTER_WRITE) to an address that is no multiple
  of 4 or that no mapped page holds (R496, R499). Safe: the machine stops, where the spec names no
  effect of such an access. -/
  | noSuchRegister
deriving DecidableEq, Repr

/-- Why a command has no meaning in the model. -/
inductive Refusal where
  /-- Raised by an arm of `exec` whose command has no meaning yet. Safe: nothing is claimed. -/
  | notModelled (mnemonic : String)
deriving DecidableEq, Repr

/-- The block right after reset: no command waits, every register holds its reset value, every
memory lists nothing (R10, R434). -/
def State.reset : State := ⟨[], {}⟩

end Sys2Proof.Machine
end

