-- ==== Sys2Proof/Machine/Ops.lean ====
section
/-! DEFINITION. The shared operations: sparse maps, how a meaning becomes an outcome, the register
space and its registers, free values, and what leaves the chip. -/

namespace Sys2Proof

/-- The value listed at a key, if one is. -/
def KMap.at? {α : Type} : KMap α → Nat → Option α
  | [], _ => none
  | (k, v) :: m, i => if k = i then some v else KMap.at? m i

/-- The value at a key, the default d where none is listed. -/
def KMap.at {α : Type} (m : KMap α) (d : α) (i : Nat) : α := (KMap.at? m i).getD d

/-- The map without a key. -/
def KMap.del {α : Type} : KMap α → Nat → KMap α
  | [], _ => []
  | (k, v) :: m, i => if k = i then KMap.del m i else (k, v) :: KMap.del m i

/-- The map with a key set, kept in rising key order. -/
def KMap.ins {α : Type} : KMap α → Nat → α → KMap α
  | [], i, x => [(i, x)]
  | (k, v) :: m, i, x =>
    if i < k then (i, x) :: (k, v) :: m
    else if k = i then (i, x) :: m
    else (k, v) :: KMap.ins m i x

/-- The map with a key set, an entry equal to the default removed: the canonical form stays. -/
def KMap.put {α : Type} [DecidableEq α] (m : KMap α) (d : α) (i : Nat) (x : α) : KMap α :=
  if x = d then KMap.del m i else KMap.ins m i x

/-- The canonical form: keys strictly rising, no entry equal to the default. -/
def KMap.wf {α : Type} [DecidableEq α] (d : α) : KMap α → Bool
  | [] => true
  | [(_, v)] => decide (v ≠ d)
  | (k, v) :: (k', v') :: m => decide (v ≠ d) && decide (k < k') && KMap.wf d ((k', v') :: m)

/-- n consecutive bytes of a byte map from address a, an unlisted byte reading 0. -/
def KMap.bytes (m : KMap Byte) (a : Nat) : Nat → List Byte
  | 0 => []
  | n + 1 => KMap.at m 0 a :: KMap.bytes m (a + 1) n

/-- The byte map with bytes stored from address a. -/
def KMap.store (m : KMap Byte) (a : Nat) : List Byte → KMap Byte
  | [] => m
  | b :: bs => KMap.store (KMap.put m 0 a b) (a + 1) bs

/-- The byte map with every listed byte in [a, a + n) removed: the range reads 0. -/
def KMap.zero {α : Type} (m : KMap α) (a n : Nat) : KMap α :=
  m.filter (fun e => decide (e.1 < a ∨ a + n ≤ e.1))

namespace Machine

/-- A meaning that acts on the chip alone and always answers a next state. -/
def liftC (f : Chip → Chip) (s : State) : Host.Outcome State Fault Refusal :=
  .next { s with sys := { s.sys with chip := f s.sys.chip } }

/-- A meaning that reads the memories, acts on the chip alone, and always answers a next state. -/
def liftR (f : Mem → Chip → Chip) (s : State) : Host.Outcome State Fault Refusal :=
  .next { s with sys := { s.sys with chip := f s.sys.mem s.sys.chip } }

/-- A meaning that acts on the memories and the chip and always answers a next state. -/
def liftS (f : Sys → Sys) (s : State) : Host.Outcome State Fault Refusal :=
  .next { s with sys := f s.sys }

/-- A chip operation as an operation on the whole. -/
def onChip (f : Chip → Chip) (y : Sys) : Sys := { y with chip := f y.chip }

/-- A memory operation as an operation on the whole. -/
def onMem (f : Mem → Mem) (y : Sys) : Sys := { y with mem := f y.mem }

/-! ## The register space (R496 to R500) -/

/-- R499: what holds an address: block type, instance, address of the block's first page, offset
from that page. -/
structure PageRef where
  ty : Nat
  inst : Nat
  base : Nat
  off : Nat
deriving DecidableEq, Repr

/-- R499: the kind of page p of a cluster's 64 KiB and its instance. -/
def clusterPage (n p : Nat) : Option (Nat × Nat) :=
  match p with
  | 0 => some (0x20, n)
  | 1 => some (0x21, 2 * n)
  | 2 => some (0x21, 2 * n + 1)
  | 3 => some (0x22, n)
  | 5 => some (0x23, n)
  | 6 => some (0x24, n)
  | 8 => some (0x25, n)
  | 9 => some (0x26, 4 * n)
  | 10 => some (0x26, 4 * n + 1)
  | 11 => some (0x26, 4 * n + 2)
  | 12 => some (0x26, 4 * n + 3)
  | _ => none

/-- R499: the pages that stand alone. -/
def singlePages : List (Nat × Nat) :=
  [(0x0, 0x01), (0x1, 0x02), (0x2, 0x03), (0x3, 0x04), (0xC, 0x05), (0x10, 0x10), (0x14, 0x11),
   (0xF60, 0x50), (0xF61, 0x51), (0xF64, 0x52), (0xF65, 0x53), (0xF80, 0x60), (0xF81, 0x61),
   (0xF82, 0x62), (0xF83, 0x63), (0xF84, 0x64), (0xF85, 0x65), (0x1000, 0x70), (0x1001, 0x71),
   (0x1002, 0x72), (0x1010, 0x73), (0x1011, 0x74), (0x1220, 0x91), (0x1300, 0xA0), (0x1400, 0xB0),
   (0x1401, 0xB1), (0x1402, 0xB2)]

/-- R499: the page that holds an address; none where no mapped page does. -/
def pageRef (a : Nat) : Option PageRef :=
  let p := a / 0x1000
  let o := a % 0x1000
  if 0x100 ≤ p ∧ p < 0x100 + 208 * 16 then
    let n := (p - 0x100) / 16
    (clusterPage n ((p - 0x100) % 16)).map fun (ty, i) => ⟨ty, i, p * 0x1000, o⟩
  else if 0xE00 ≤ p ∧ p < 0xF00 then some ⟨0x30, p - 0xE00, p * 0x1000, o⟩
  else if 0xF00 ≤ p ∧ p < 0xF60 then some ⟨0x40, p - 0xF00, p * 0x1000, o⟩
  else if 0x1100 ≤ p ∧ p < 0x1200 then
    let k := (p - 0x1100) / 4
    some ⟨0x80, k, 0x1100000 + k * 0x4000, o + 0x1000 * ((p - 0x1100) % 4)⟩
  else if 0x1200 ≤ p ∧ p < 0x1220 then some ⟨0x90, p - 0x1200, p * 0x1000, o⟩
  else if 8 ≤ p ∧ p < 0xC then some ⟨0x04, 0, 0x3000, o + 0x1000 * (p - 3)⟩
  else (singlePages.lookup p).map fun ty => ⟨ty, 0, p * 0x1000, o⟩

/-- The row of a table that covers an offset. -/
def findRow (rows : List RegRow) (o : Nat) : Option RegRow :=
  rows.find? fun r => decide (r.off ≤ o ∧ o < r.off + 4 * r.n ∧ o % 4 = 0)

/-- R110, R151, R383: the table and offset a page reference resolves to. -/
def pageRows (r : PageRef) : List RegRow × Nat :=
  if r.ty = 0x26 ∧ 0x100 ≤ r.off ∧ r.off < 0x500 then (rows26, (r.off - 0x100) % 0x20)
  else if r.ty = 0x26 then ([], r.off)
  else if r.ty = 0x80 ∧ 0x1000 ≤ r.off ∧ r.off < 0x2000 then (rowsVec, (r.off - 0x1000) % 0x10)
  else if r.ty = 0x80 ∧ 0x2000 ≤ r.off ∧ r.off < 0x3000 then (rowsCtx, (r.off - 0x2000) % 0x80)
  else (regRows r.ty, r.off)

/-- R500, R501: the pages on which BLK_CTRL.FREEZE acts. -/
def freezeActs (ty : Nat) : Bool := [0x23, 0x30, 0x40, 0x22, 0x21].contains ty

/-- R501: the pages on which BLK_CTRL.FENCE acts. -/
def fenceActs (r : PageRef) : Bool :=
  [0x20, 0x22, 0x21, 0x30, 0x40, 0x50, 0x90, 0x26, 0x25].contains r.ty ||
  (r.ty == 0x80 && r.inst != 0)

/-- R501: the pages on which BLK_CTRL.SOFT_RESET acts. -/
def softResetActs (r : PageRef) : Bool :=
  [0x20, 0x30, 0x40, 0x50, 0x90].contains r.ty || (r.ty == 0x80 && r.inst != 0)

/-- R500: the row of the common header at an offset below 0x40. -/
def headerRow (r : PageRef) : RegRow :=
  match r.off with
  | 0x000 => ⟨0, 1, 0xffffffff, 0, 0, 0, 0, false, false, r.ty + 0x10000 * r.inst⟩
  | 0x004 => ⟨4, 1, 0xffffffff, 0, 0, 0, 0, false, false, 0xc1⟩
  | 0x008 => ⟨8, 1, 0, (if r.ty = 0x90 then 1 else 0) + (if freezeActs r.ty then 2 else 0), 0,
      (if fenceActs r then 4 else 0) + (if softResetActs r then 8 else 0), 0, false, false,
      if r.ty = 0x90 then 1 else 0⟩
  | 0x00C => ⟨0xC, 1, 0xffffffff, 0, 0, 0, 0, false, false, 0⟩
  | 0x010 => ⟨0x10, 1, 0, 0, 0xffffffff, 0, 0, false, false, 0⟩
  | 0x014 => ⟨0x14, 1, 0, 0xffffffff, 0, 0, 0, false, false, 0⟩
  | 0x018 => ⟨0x18, 1, 0xffffffff, 0, 0, 0, 0, false, false, 0⟩
  | 0x01C => ⟨0x1C, 1, 0, 0, 0, 0, 0xffffffff, false, false, 0⟩
  | 0x020 => ⟨0x20, 1, 0xffffffff, 0, 0, 0, 0, true, false, 0⟩
  | 0x024 => ⟨0x24, 1, 0, 0x8000ff3f, 0, 0, 0, false, false, 0⟩
  | _ => ⟨r.off, 1, 0, 0, 0, 0, 0, false, false, 0⟩

/-- R499: the pages that carry the common header: every block's first page, and no later page. -/
def hasHeader (r : PageRef) : Bool := decide (r.off < 0x40)

/-- R502: the row that lays out the register at an address of a mapped page; a reserved offset
reads 0 and ignores writes. -/
def rowOf (r : PageRef) : RegRow :=
  if hasHeader r then headerRow r
  else match pageRows r with
    | (rows, o) => (findRow rows o).getD ⟨o, 1, 0, 0, 0, 0, 0, false, false, 0⟩

/-- The reset value of the register at an address. -/
def resetWord (a : Nat) : Word :=
  match pageRef a with
  | none => 0
  | some r => BitVec.ofNat 32 (rowOf r).reset

/-- What the register file holds at an address. -/
def Chip.reg (s : Chip) (a : Nat) : Word := (KMap.at? s.regs a).getD (resetWord a)

/-- The chip with a register set; a register at its reset value is not listed. -/
def Chip.setReg (s : Chip) (a : Nat) (w : Word) : Chip :=
  { s with regs := KMap.put s.regs (resetWord a) a w }

/-- Bits [hi:lo] of a register. -/
def Chip.fld (s : Chip) (a hi lo : Nat) : Nat := Word.bits (s.reg a) hi lo

/-- The chip with bits [hi:lo] of a register set. -/
def Chip.setFld (s : Chip) (a hi lo v : Nat) : Chip := s.setReg a (Word.setBits (s.reg a) hi lo v)

/-- Bit n of a register. -/
def Chip.flag (s : Chip) (a n : Nat) : Bool := Word.bit (s.reg a) n

/-- The chip with bit n of a register set to b. -/
def Chip.setFlag (s : Chip) (a n : Nat) (b : Bool) : Chip :=
  s.setFld a n n (if b then 1 else 0)

/-- A counter that stops at 0xFFFF_FFFF advanced by k (R502 and the register tables). -/
def Chip.bumpBy (s : Chip) (a k : Nat) : Chip :=
  s.setReg a (BitVec.ofNat 32 (min ((s.reg a).toNat + k) 0xffffffff))

/-- A counter that stops at 0xFFFF_FFFF advanced by one. -/
def Chip.bump (s : Chip) (a : Nat) : Chip := s.bumpBy a 1

/-- A counter that wraps at 2^32 advanced by k. -/
def Chip.wrapBy (s : Chip) (a k : Nat) : Chip := s.setReg a (BitVec.ofNat 32 ((s.reg a).toNat + k))

/-- A 64-bit register pair, low word at a (R504). -/
def Chip.pair (s : Chip) (a : Nat) : Nat := (s.reg a).toNat + 2 ^ 32 * (s.reg (a + 4)).toNat

/-- The chip with a 64-bit register pair set. -/
def Chip.setPair (s : Chip) (a v : Nat) : Chip :=
  (s.setReg a (BitVec.ofNat 32 v)).setReg (a + 4) (BitVec.ofNat 32 (v / 2 ^ 32))

/-! ## The pages by name (R499) -/

def glbPg : Nat := 0x0000000
def floorPg : Nat := 0x0001000
def stagePg : Nat := 0x0002000
def attPg : Nat := 0x0003000
def memPg : Nat := 0x000C000
def supPg : Nat := 0x0010000
def fqPg : Nat := 0x0014000
def clPg (n : Nat) : Nat := 0x0100000 + n * 0x10000
def cpPg (n e : Nat) : Nat := clPg n + 0x1000 + e * 0x1000
def fgPg (n : Nat) : Nat := clPg n + 0x3000
def stPg (n : Nat) : Nat := clPg n + 0x5000
def tlbPg (n : Nat) : Nat := clPg n + 0x6000
def nwPg (n : Nat) : Nat := clPg n + 0x8000
def nwRecPg (n m : Nat) : Nat := clPg n + 0x9000 + 0x1000 * (m / 32)
def mcPg (n : Nat) : Nat := 0x0E00000 + n * 0x1000
def lkPg (l : Nat) : Nat := 0x0F00000 + l * 0x1000
def enPg : Nat := 0x0F60000
def xhPg : Nat := 0x0F61000
def shpPg (eth : Bool) : Nat := if eth then 0x0F64000 else 0x0F84000
def gatePg (eth : Bool) : Nat := if eth then 0x0F65000 else 0x0F85000
def rtPg : Nat := 0x0F80000
def risoPg : Nat := 0x0F81000
def ftPg : Nat := 0x0F82000
def planPg : Nat := 0x0F83000
def dirPg : Nat := 0x1000000
def pubPg : Nat := 0x1001000
def prPg : Nat := 0x1002000
def extPg : Nat := 0x1010000
def lsPg : Nat := 0x1011000
def ptPg (p : Nat) : Nat := 0x1100000 + p * 0x4000
def cvPg (u : Nat) : Nat := 0x1200000 + u * 0x1000
def cvgPg : Nat := 0x1220000
def pairPg : Nat := 0x1300000
def chPg : Nat := 0x1400000
def clkPg : Nat := 0x1401000
def pwrPg : Nat := 0x1402000

/-- R500: ERR_STAT, BLK_CTRL and BLK_STAT of a page. -/
def errStat (pg : Nat) : Nat := pg + 0x10
def blkCtrl (pg : Nat) : Nat := pg + 0x08
def blkStat (pg : Nat) : Nat := pg + 0x0C

/-- R499: BLK_ID of a page. -/
def blkId (pg : Nat) : Nat := (resetWord pg).toNat

/-! ## Free values and outputs -/

/-- The next free number of the run (log entry 1). -/
def Chip.fresh (s : Chip) : Nat × Chip := (Config.freeNat s.free, { s with free := s.free + 1 })

/-- The chip with something sent; a packet of its own waits for the router. -/
def Chip.emit (s : Chip) (o : Out) : Chip :=
  { s with
    out := s.out ++ [o]
    own := match o with
      | .packet p => s.own ++ [⟨p, false, none, s.duo.cause, false⟩]
      | _ => s.own }

/-- R11: the code of a status. -/
def stCode : Status → Nat
  | .ok => 0 | .refused => 1 | .ue => 2 | .noAccess => 3 | .contextKilled => 4
  | .reset => 5 | .fenced => 6 | .versionConflict => 7 | .planViolation => 8

/-- R13: the order among causes that strike in one tick; the lowest applies. -/
def stRank : Status → Nat
  | .reset => 0 | .contextKilled => 1 | .fenced => 2 | .ue => 3 | .noAccess => 4
  | .versionConflict => 5 | .planViolation => 6 | .refused => 7 | .ok => 8

/-- R13: the status fixed at a tick once a cause strikes at tick t: the earlier cause, and in one
tick the first of the order. -/
def fixStatus (old : Option (Nat × Status)) (t : Nat) (st : Status) : Option (Nat × Status) :=
  match old with
  | none => some (t, st)
  | some (t0, st0) => if t0 = t ∧ stRank st < stRank st0 then some (t, st) else some (t0, st0)

/-- Applies a chip operation for every element of a list, in order. -/
def forEach {α : Type} (l : List α) (f : α → Chip → Chip) (s : Chip) : Chip :=
  l.foldl (fun s a => f a s) s

/-- Applies an operation on the whole for every element of a list, in order. -/
def forEachS {α : Type} (l : List α) (f : α → Sys → Sys) (y : Sys) : Sys :=
  l.foldl (fun y a => f a y) y

/-- The list with every element that satisfies p changed by f. -/
def updWhere {α : Type} (l : List α) (p : α → Bool) (f : α → α) : List α :=
  l.map fun a => if p a then f a else a

end Machine
end Sys2Proof
end

