-- ==== Sys2Proof/Machine/Checks.lean ====
section
/-! DEFINITION. Check values: the four fixed algorithms, user mode and fabric data mode, and the
CHECK field of a packet (R401, R402, R405). -/

namespace Sys2Proof.Machine

/-- R401: width, polynomial (reversed for a reflected algorithm), INIT, reflection, final XOR. -/
structure CrcAlg where
  w : Nat
  poly : Nat
  start : Nat
  refl : Bool
  fin : Nat
deriving DecidableEq, Repr

/-- R401: the algorithm of a POLY code. -/
def crcAlg : Nat → CrcAlg
  | 0 => ⟨16, 0x1021, 0xFFFF, false, 0⟩
  | 1 => ⟨32, 0xEDB88320, 0xFFFFFFFF, true, 0xFFFFFFFF⟩
  | 2 => ⟨32, 0x82F63B78, 0xFFFFFFFF, true, 0xFFFFFFFF⟩
  | _ => ⟨64, 0x42F0E1EBA9EA3693, 0, false, 0⟩

/-- R401: n bit steps of the register, shifting right for a reflected algorithm, else left. -/
def crcBits (g : CrcAlg) : Nat → Nat → Nat
  | 0, r => r
  | n + 1, r =>
    if g.refl then crcBits g n (if r % 2 = 1 then (r / 2) ^^^ g.poly else r / 2)
    else
      let d := 2 * r % 2 ^ g.w
      crcBits g n (if r / 2 ^ (g.w - 1) % 2 = 1 then d ^^^ g.poly else d)

/-- R401: the register takes one byte. -/
def crcByte (g : CrcAlg) (r : Nat) (b : Byte) : Nat :=
  crcBits g 8 (r ^^^ (if g.refl then b.toNat else b.toNat * 2 ^ (g.w - 8)))

/-- R401: the register over a byte string. -/
def crcRun (g : CrcAlg) (r : Nat) (d : List Byte) : Nat := d.foldl (crcByte g) r

/-- R402: F_w(V) for V of 56 bits: the XOR of its w-bit pieces. -/
def crcFold (w v : Nat) : Nat :=
  (List.range ((55 + w) / w)).foldl (fun r i => r ^^^ (v / 2 ^ (w * i) % 2 ^ w)) 0

/-- R402: the register's start: INIT, in fabric data mode with F_w(V) XORed in. -/
def crcStart (g : CrcAlg) (fabric : Bool) (off tag : Nat) : Nat :=
  if fabric then g.start ^^^ crcFold g.w ((off % 2 ^ 40) * 65536 + tag % 65536) else g.start

/-- R401, R402: the check value of a byte string. -/
def crcOf (poly : Nat) (fabric : Bool) (off tag : Nat) (d : List Byte) : Nat :=
  let g := crcAlg poly
  crcRun g (crcStart g fabric off tag) d ^^^ g.fin

/-- R405: CHECK of a packet's data under its CHK; 0 for none. -/
def checkOf (chk off tag : Nat) (d : List Byte) : Nat :=
  match chk with
  | 1 => crcOf 2 true off tag d
  | 2 => crcOf 3 true off tag d
  | _ => 0

end Sys2Proof.Machine
end

