-- ==== Sys2Proof/Machine/Flags.lean ====
section
/-! DEFINITION. The flag computations of the block: error and notice bits, first errors and counts
(R396, R397, R508), events and their records (R369 to R373), fault records (R399, R400). -/

namespace Sys2Proof.Machine

/-! ## Events -/

/-- R371: word k of PT_VEC of vector v of partition p. -/
def vecReg (p v k : Nat) : Nat := ptPg p + 0x1000 + 16 * v + 4 * k

/-- R371: the pending record of a vector. -/
def Chip.evPend (s : Chip) (p v : Nat) : Option EvRec := KMap.at s.parts.pend none (256 * p + v)

/-- The chip with the pending record of a vector set. -/
def Chip.setPend (s : Chip) (p v : Nat) (r : Option EvRec) : Chip :=
  { s with parts.pend := KMap.put s.parts.pend none (256 * p + v) r }

/-- R371: the pending record of a vector is sealed: it waits for delivery, its vector is recorded in
PT_EVT_LAST and counted in PT_VEC word 3. -/
def Chip.sealVec (s : Chip) (p v : Nat) : Chip :=
  match s.evPend p v with
  | none => s
  | some r =>
    let s := s.setPend p v none
    let s := { s with parts.sealed := s.parts.sealed ++ [(s.now, r)] }
    (s.setReg (ptPg p + 0x5C) (BitVec.ofNat 32 v)).bump (vecReg p v 3)

/-- R371: the pending record is sealed when its COUNT has reached CNT, where 0 acts as 1, or when
TIME is 0. -/
def Chip.sealIfDue (s : Chip) (p v : Nat) : Chip :=
  match s.evPend p v with
  | none => s
  | some r => if r.time = 0 ∨ max r.cnt 1 ≤ r.count then s.sealVec p v else s

/-- R371: the pending record is sealed when TIME µs have passed since FIRST; an event that reaches the
vector in that cycle opens the next record. -/
def Chip.sealElapsed (s : Chip) (p v : Nat) : Chip :=
  match s.evPend p v with
  | none => s
  | some r => if r.first + 1000 * r.time ≤ s.now then s.sealVec p v else s

/-- R371: an event raised on vector v of partition p from the block named by type and instance, with
its status code and data. On a vector with ENABLE = 0 it is discarded and counted. -/
def Chip.raise (s : Chip) (p v btype inst code d0 d1 : Nat) : Chip :=
  if s.flag (vecReg p v 0) 0 = false then s.bump (ptPg p + 0x58)
  else
    let s := s.sealElapsed p v
    let r : EvRec := match s.evPend p v with
      | some r => { r with last := s.now, count := min (r.count + 1) 65535, btype := btype,
                           inst := inst, code := code, d0 := d0, d1 := d1 }
      | none => { last := s.now, first := s.now, btype := btype, inst := inst, vec := v,
                  code := code, count := 1, d0 := d0, d1 := d1, part := p,
                  path := s.fld (vecReg p v 0) 1 1, host := s.fld (vecReg p v 0) 29 16,
                  cnt := s.fld (vecReg p v 1) 15 0, time := s.fld (vecReg p v 1) 31 16 }
    (s.setPend p v (some r)).sealIfDue p v

/-- R132: the context that owns a cluster, as 32·partition + slot. -/
def Chip.ownerOf (s : Chip) (c : Nat) : Option Nat := KMap.at s.parts.owner none c

/-- R369: the partition a page's events go to: EVT_ROUTE's, but for a cluster's pages the partition
of the owning context (0 while unowned), and for a partition page its own. -/
def Chip.evPart (s : Chip) (pg : Nat) : Nat :=
  match pageRef pg with
  | none => 0
  | some r =>
    if 0x20 ≤ r.ty ∧ r.ty ≤ 0x26 then ((s.ownerOf ((pg - 0x100000) / 0x10000)).getD 0) / 32
    else if r.ty = 0x80 then r.inst
    else s.fld (pg + 0x24) 5 0

/-- R369: a page raises an event, with the given code and data: nothing while EVT_ROUTE.ENABLE is
0. -/
def Chip.pageEventD (s : Chip) (pg code d0 d1 : Nat) : Chip :=
  if s.flag (pg + 0x24) 31 then
    s.raise (s.evPart pg) (s.fld (pg + 0x24) 15 8) (Word.bits (resetWord pg) 15 0)
      (Word.bits (resetWord pg) 31 16) code d0 d1
  else s

/-- R146, R147: the event a page has raised in this tick with one value of DATA0 carries another. -/
def Chip.amendEvent (s : Chip) (pg d0 new : Nat) : Chip :=
  let fix := fun r : EvRec =>
    if r.part = s.evPart pg ∧ r.vec = s.fld (pg + 0x24) 15 8 ∧ r.inst = Word.bits (resetWord pg) 31 16 ∧
        r.btype = Word.bits (resetWord pg) 15 0 ∧ r.last = s.now ∧ r.d0 = d0
    then { r with d0 := new } else r
  { s with
    parts.pend := s.parts.pend.map fun e => (e.1, e.2.map fix)
    parts.sealed := s.parts.sealed.map fun e => (e.1, fix e.2) }

/-- R369, R370: a page raises an event whose DATA0 is its ERR_STAT. -/
def Chip.pageEvent (s : Chip) (pg : Nat) : Chip := s.pageEventD pg 0 (s.reg (errStat pg)).toNat 0

/-! ## Fault records -/

/-- R387, R399: the code of a fence cause. -/
def causeCode : Cause → Nat
  | .none => 0 | .data => 1 | .logic => 2 | .order => 3 | .miss => 4 | .widen => 5 | .link => 6

/-- R399: KIND and UNIT of a unit. -/
def unitKind : UnitId → Nat × Nat
  | .newt c m => (1, 256 * c + m)
  | .frog c => (2, c)
  | .copy c e => (3, 2 * c + e)
  | .cluster c => (4, c)
  | .mc n => (5, n)
  | .link l => (6, l)
  | .eth => (7, 0)
  | .cv u => (8, u)
  | .part p => (9, p)

/-- R399: the unit named by KIND and UNIT, as SUP_UNFENCE and GLB_FP_USEL name it. -/
def unitOfKind (kind idx : Nat) : Option UnitId :=
  match kind with
  | 1 => if idx / 256 < 208 ∧ idx % 256 < 128 then some (.newt (idx / 256) (idx % 256)) else none
  | 2 => if idx < 208 then some (.frog idx) else none
  | 3 => if idx < 416 then some (.copy (idx / 2) (idx % 2)) else none
  | 4 => if idx < 208 then some (.cluster idx) else none
  | 5 => if idx < 256 then some (.mc idx) else none
  | 6 => if idx < 96 then some (.link idx) else none
  | 7 => some .eth
  | 8 => if idx < 32 then some (.cv idx) else none
  | 9 => if idx < 64 then some (.part idx) else none
  | _ => none

/-- R387, R499: the page of a unit. A newt's is its record page. -/
def unitPg : UnitId → Nat
  | .newt c m => nwRecPg c m
  | .frog c => fgPg c
  | .copy c e => cpPg c e
  | .cluster c => clPg c
  | .mc n => mcPg n
  | .link l => lkPg l
  | .eth => enPg
  | .cv u => cvPg u
  | .part p => ptPg p

/-- R388: the enclosing scope of a unit; a cluster's is the partition of its context, unless
unowned or in partition 0. -/
def Chip.scopeOf (s : Chip) : UnitId → Option UnitId
  | .newt c _ => some (.cluster c)
  | .frog c => some (.cluster c)
  | .copy c _ => some (.cluster c)
  | .cluster c => match s.ownerOf c with
    | some x => if x / 32 = 0 then none else some (.part (x / 32))
    | none => none
  | _ => none

/-- R399, R400: a fault record is queued, or dropped and counted when the queue holds 1,024; either
way it takes a number. Each record queued raises the event of the fault-queue page. -/
def Chip.fault (s : Chip) (r : FaultRec) : Chip :=
  let r := { r with tick := s.now, seq := s.errs.nextSeq }
  let s := { s with errs.nextSeq := (s.errs.nextSeq + 1) % 2 ^ 32 }
  if s.errs.fq.length < 1024 then
    Chip.pageEvent { s with errs.fq := s.errs.fq ++ [r] } fqPg
  else
    let s := s.bump (fqPg + 0x68)
    let was := s.flag (errStat fqPg) 0
    let s := s.setFlag (errStat fqPg) 0 true
    let s := if s.flag (fqPg + 0x18) 31 then s else s.setReg (fqPg + 0x18) 0x80000000
    if was ∨ s.flag (fqPg + 0x14) 0 then s else s.pageEvent fqPg

/-- A blank fault record from a page. -/
def faultOf (pg cls bit : Nat) : FaultRec :=
  { tick := 0, seq := 0, src := blkId pg, cls := cls, inj := false, widen := false, second := false,
    cause := 0, kind := 0, bit := bit, part := 0, unit := 0, info := 0 }

/-- R399: a fault record as its 32 bytes. -/
def faultBytes (r : FaultRec) : List Byte :=
  leBytes 8 r.tick ++ leBytes 4 r.seq ++ leBytes 4 r.src ++
  leBytes 1 (r.cls + (if r.inj then 4 else 0) + (if r.widen then 8 else 0) +
    (if r.second then 16 else 0) + 32 * r.cause) ++
  leBytes 1 r.kind ++ leBytes 1 r.bit ++ leBytes 1 r.part ++ leBytes 4 r.unit ++ leBytes 8 r.info

/-- R370: an event record as its 32 bytes. -/
def evBytes (r : EvRec) : List Byte :=
  leBytes 8 r.last ++ leBytes 8 r.first ++ leBytes 2 r.btype ++ leBytes 2 r.inst ++
  leBytes 1 r.vec ++ leBytes 1 r.code ++ leBytes 2 r.count ++ leBytes 4 r.d0 ++ leBytes 4 r.d1

/-! ## Error bits -/

/-- R397: the first event of a page is latched while VALID is 0. -/
def Chip.latchFirst (s : Chip) (pg bit cls info : Nat) (inj : Bool) : Chip :=
  if s.flag (pg + 0x18) 31 then s
  else s.setReg (pg + 0x18) (BitVec.ofNat 32
    (bit + 32 * cls + (if inj then 128 else 0) + 256 * (info % 2 ^ 20) + 2 ^ 31))

/-- R396: a bit of ERR_STAT is set; the page raises its event when the bit was 0 and its mask bit is
0 (R369). -/
def Chip.setErr (s : Chip) (pg bit : Nat) : Chip :=
  let was := s.flag (errStat pg) bit
  let s := s.setFlag (errStat pg) bit true
  if was ∨ s.flag (pg + 0x14) bit then s else s.pageEvent pg

/-- R508: a notice: the bit, ERR_FIRST with CLASS 0, and the page's event; no count. -/
def Chip.notice (s : Chip) (pg bit : Nat) : Chip := (s.latchFirst pg bit 0 0 false).setErr pg bit

/-- R282, R369: a notice whose event is a named one of the page: raised each time. -/
def Chip.named (s : Chip) (pg bit : Nat) : Chip :=
  ((s.latchFirst pg bit 0 0 false).setFlag (errStat pg) bit true).pageEvent pg

/-- R508: a notice injected by ERR_INJECT KIND 1. -/
def Chip.noticeInj (s : Chip) (pg bit : Nat) : Chip := (s.latchFirst pg bit 0 0 true).setErr pg bit

/-- R396, R508: a corrected error: the bit, the first latch, the count. -/
def Chip.corrected (s : Chip) (pg bit info : Nat) : Chip :=
  ((s.latchFirst pg bit 0 info false).setErr pg bit).bump (pg + 0x20)

/-- R396, R508: an error of a class (1 contained, 2 partition, 3 chip) counted only. -/
def Chip.countErr (s : Chip) (pg bit cls info : Nat) (inj : Bool) : Chip :=
  ((s.latchFirst pg bit cls info inj).setErr pg bit).bump (pg + 0x20)

/-- R387: whether a unit is fenced itself. -/
def Chip.fenced1 (s : Chip) (u : UnitId) : Bool := s.errs.fences.any fun f => f.unit == u

/-- R387, R388: whether a unit is fenced, itself or through an enclosing scope. -/
def Chip.isFenced (s : Chip) (u : UnitId) : Bool :=
  s.fenced1 u ||
  match s.scopeOf u with
  | none => false
  | some w => s.fenced1 w || match s.scopeOf w with
    | none => false
    | some v => s.fenced1 v

/-- R394: the admission controller and the router find their copy unlike BLK_STAT. -/
def Chip.stale (s : Chip) (u : UnitId) : Bool := s.errs.stale.contains u

/-- R394: what admission and routing take a unit to be: fenced where a copy disagrees. -/
def Chip.shut (s : Chip) (u : UnitId) : Bool := s.isFenced u || s.stale u

/-- R396: FSTATE of a unit's own page: 0 SERVICE, 1 HANDLING, 2 FENCED. -/
def Chip.fstate (s : Chip) (u : UnitId) : Nat := s.fld (blkStat (unitPg u)) 1 0

/-- R387: whether a unit is fenced itself and contained. -/
def Chip.contained1 (s : Chip) (u : UnitId) : Bool :=
  s.errs.fences.any fun f => f.unit == u && f.contained

/-- R387, R392: whether a unit, or a scope around it, is fenced and contained. -/
def Chip.isContained (s : Chip) (u : UnitId) : Bool :=
  s.contained1 u ||
  match s.scopeOf u with
  | none => false
  | some w => s.contained1 w || match s.scopeOf w with
    | none => false
    | some v => s.contained1 v

/-- R405: records a failed end-to-end check is reported with and other items of R386 that fence
nothing: an uncorrected error of class 1 with its fault record. -/
def Chip.itemErr (s : Chip) (pg bit info : Nat) (r : FaultRec) : Chip :=
  (s.countErr pg bit 1 info r.inj).fault r

/-! ## Injections (R398) -/

/-- R398: the armed injection of a page takes the next word it writes. -/
def Chip.takeArmed (s : Chip) (pg : Nat) : Option Mark × Chip :=
  match s.errs.armed.find? fun a => a.page == pg with
  | none => (none, s)
  | some a => (some (if a.kind = 2 then .one else .two), { s with errs.armed := s.errs.armed.erase a })

/-- R398: an armed injection of a page strikes the next protected word its unit writes: the flipped
bits, 0 for none. -/
def Chip.strike (s : Chip) (pg : Nat) : Nat × Chip :=
  match s.takeArmed pg with
  | (none, s) => (0, s)
  | (some .one, s) => (1, s)
  | (some _, s) => (2, s)

/-! ## STATE frames and alerts on the chain (R464, R474, R475) -/

/-- R464, R401: the CRC of a chain frame over its first bytes and its payload. -/
def chainCrc (f : ChainFrame) : Nat :=
  crcOf 0 false 0 0 (leBytes 1 (f.typ + 16 * f.typHi) ++ leBytes 1 (f.dst + 64 * (if f.bcast then 1 else 0)) ++
    leBytes 1 (f.src + 64 * (if f.head then 1 else 0)) ++ leBytes 1 f.seq ++ leBytes 2 f.len ++ f.payload)

/-- R464, R465: a frame of the chip's own. DST, and the SEQ of a REPORT or STATE, are nowhere stated:
free values. -/
def Chip.chainSend (s : Chip) (typ : Nat) (seq : Option Nat) (d : List Byte) : ChainFrame × Chip :=
  let (k, s) := s.fresh
  let f : ChainFrame :=
    { typ := typ, typHi := 0, dst := k % 64, bcast := false, src := s.fld (chPg + 0x40) 5 0
      head := false, seq := seq.getD (k / 64 % 256), payload := d, len := d.length, crc := 0
      aborted := false }
  let f := { f with crc := chainCrc f }
  (f, s.emit (.chain f))

/-- R475: CHAIN_ALERT_N is pulled low, unless the line is latched as stuck. -/
def Chip.chainPull (s : Chip) : Chip :=
  if s.flag (chPg + 0x44) 9 then s
  else
    let s := (s.setFlag (chPg + 0x44) 8 true).emit (.pin "CHAIN_ALERT_N" true)
    { s with chain.alertAt := some s.ref }

/-- R475: alert conditions enabled in CH_ALERT_EN; FAIL is never masked. -/
def Chip.alertsOn (s : Chip) : Nat :=
  s.fld (chPg + 0x48) 4 0 &&& (s.fld (chPg + 0x4C) 4 0 ||| 1)

/-- R475: an alert condition becomes pending. -/
def Chip.chainCond (s : Chip) (bit : Nat) : Chip :=
  if s.flag (chPg + 0x48) bit then s
  else
    let s := s.setFlag (chPg + 0x48) bit true
    if s.alertsOn / 2 ^ bit % 2 = 1 then s.chainPull else s

/-- R474: a STATE frame with a record, at most one in 100 µs but for codes 3 and 5. -/
def Chip.sendState (s : Chip) (code : Nat) (d : List Byte) : Chip :=
  let soon : Bool := match s.chain.stateAt with | some t => decide (s.ref < t + 100000) | none => false
  if soon = true ∧ code ≠ 3 ∧ code ≠ 5 then (s.bump (chPg + 0x58)).notice chPg 3
  else
    let (_, s) := s.chainSend 8 none (leBytes 8 code ++ (d ++ List.replicate 32 0).take 32)
    let s := { s with chain.stateAt := some s.ref }
    if code = 1 ∨ code = 3 ∨ code = 4 then s.chainCond 2 else s

end Sys2Proof.Machine
end

