-- ==== Sys2Proof/Machine/Gates.lean ====
section
/-! DEFINITION. Time gates as schedules: what a gate list in force lets start at a tick (R328,
R329). -/

namespace Sys2Proof.Machine

/-- R328: a list over one cycle as pieces of a state and a length: cut at the cycle's end, or with its
last state held until then. -/
def gatePieces : List Word → Nat → List (Nat × Nat)
  | [], _ => []
  | [e], n => [(Word.bits e 7 0, n)]
  | e :: es, n =>
    let k := Word.bits e 31 8
    if n ≤ k then [(Word.bits e 7 0, n)] else (Word.bits e 7 0, k) :: gatePieces es (n - k)

/-- The index of the piece an offset into the cycle lies in. -/
def pieceAt : List (Nat × Nat) → Nat → Nat
  | [], _ => 0
  | (_, k) :: l, o => if o < k then 0 else pieceAt l (o - k) + 1

/-- The pieces from an offset on. -/
def piecesFrom : List (Nat × Nat) → Nat → List (Nat × Nat)
  | [], _ => []
  | (w, k) :: l, o => if o < k then (w, k - o) :: l else piecesFrom l (o - k)

/-- Bit q of a gate state: 1 is open. -/
def gateBit (w q : Nat) : Bool := w / 2 ^ q % 2 == 1

/-- Ticks for which gate q stays open from the front of the pieces. -/
def openRun (q : Nat) : List (Nat × Nat) → Nat
  | [] => 0
  | (w, k) :: l => if gateBit w q then k + openRun q l else 0

/-- The longest open time of gate q that starts at the front of a piece. -/
def openMax (q : Nat) : List (Nat × Nat) → Nat
  | [] => 0
  | x :: l => max (openRun q (x :: l)) (openMax q l)

/-- R328: the offset of a tick into the cycle. -/
def gateOffset (g : GateOper) (t : Nat) : Nat := (t - g.base) % max g.cycle 1

/-- R328: gate q is open at an offset. -/
def gateOpenAt (g : GateOper) (q o : Nat) : Bool :=
  openRun q ((piecesFrom (gatePieces g.entries g.cycle) o).take 1) != 0

/-- R329: whether a packet of n ticks may start at tick t through gate q, and whether it overruns: it
is longer than every open time and starts at the first tick of one. A transmitter that looks every w
ticks finds that start within w ticks. -/
def gateMay (g : GateOper) (q t n w : Nat) : Bool × Bool :=
  let ps := gatePieces g.entries g.cycle
  let o := gateOffset g t
  if ps.all fun x => gateBit x.1 q then (true, false)
  else
    let run := openRun q (piecesFrom (ps ++ ps) o)
    if n ≤ run ∧ run ≠ 0 then (true, false)
    else if n ≤ openMax q (ps ++ ps) then (false, false)
    else
      let fresh := (List.range w).any fun d => !gateOpenAt g q ((o + g.cycle - 1 - d) % max g.cycle 1)
      (run != 0 && fresh, run != 0 && fresh)

/-- A gate list: 0 to 3 of the fabric, 4 of the Ethernet port. -/
def Chip.gate (s : Chip) (i : Nat) : Gate := KMap.at s.gates {} i

def Chip.setGate (s : Chip) (i : Nat) (g : Gate) : Chip := { s with gates := KMap.put s.gates {} i g }

/-- R328: whether a packet of n ticks may start on gate q of list i; with no list in force every gate
is open. -/
def Chip.gateTest (s : Chip) (i q n w : Nat) : Bool × Bool :=
  match (s.gate i).oper with
  | none => (true, false)
  | some g => gateMay g q s.now n w

/-- R332: the list link l follows, if one. -/
def Chip.listOf (s : Chip) (l : Nat) : Option Nat :=
  let v := KMap.at s.gateLink 0 l
  if 1 ≤ v ∧ v ≤ 4 then some (v - 1) else none

/-! ## Roles of the pair (R409, R419) -/

/-- R419: PAIR_STAT.ROLE: 0 SINGLE, 1 HOLDER, 2 STANDBY, 3 FROZEN, 4 JOINING, 5 OUT. -/
def Chip.pairRole (s : Chip) : Nat := s.fld (pairPg + 0x48) 2 0

/-- R409: PAIR_CFG.EN. -/
def Chip.paired (s : Chip) : Bool := s.flag (pairPg + 0x40) 0

/-- R419: a standby, a joining chip or one that is OUT lets no pair output leave. -/
def Chip.mutes (s : Chip) : Bool := s.pairRole == 2 || s.pairRole == 4 || s.pairRole == 5

/-- R422: outputs of the pair: RESP, REFUSED and RECALL packets; XHT RESP, SVC_RESP and AUDIT in their
first transmission. -/
def pairOutput : Out → Bool
  | .packet p => [4, 8, 9].contains p.hdr.typ
  | .xht _ d => [2, 7, 0xB].contains d.hdr.typ && !d.hdr.retx
  | _ => false

/-! ## The queues of the Ethernet port (R336, R339) -/

/-- R339, R344: egress queue and tagged priority of what leaves the Ethernet port; firmware's frames
use EN_CTRL.MGMTQ. -/
def Chip.ethQueue (s : Chip) (o : Out) : Nat × Option Nat :=
  match o with
  | .xht r _ | .time r _ =>
    let w := r.getD 0 0
    (Word.bits w 30 28, if Word.bit w 24 then some (Word.bits w 27 25) else none)
  | _ => (s.fld (enPg + 0x40) 7 5, none)

/-- R336: priority q is paused. -/
def Chip.pausedNow (s : Chip) (q : Nat) : Bool := s.eth.paused.any fun e => e.1 == q && decide (s.now < e.2)

/-- R329: transmission time of a frame in ticks, rounded up: 1.6 Tb/s, or 0.8 Tb/s in reduced mode. -/
def Chip.frameTicks (s : Chip) (n : Nat) : Nat := ceilDiv (8 * n) (if s.flag (enPg + 0x44) 2 then 800 else 1600)

/-- R234: bytes a 128-tick cell of the Ethernet port carries. -/
def Chip.ethCap (s : Chip) : Nat := if s.flag (enPg + 0x44) 2 then 12800 else 25600

/-- R233, R339: the cell under way has room for a frame of n bytes, with its 20 B of overhead, beside what
is reserved in it and the frames without a reservation it has carried. -/
def Chip.ethRoom (s : Chip) (n : Nat) : Bool :=
  let c := s.now / 128
  let resv := ((s.prom.eg.filter fun e => e.port == 96 && e.cell == c).map (·.amt)).sum
  decide (n + 20 + resv + (if s.eth.cell = c then s.eth.cellUsed else 0) ≤ s.ethCap)

/-- R233, R339: a frame of n bytes without a reservation takes its room. -/
def Chip.useEthRoom (s : Chip) (n : Nat) : Chip :=
  let c := s.now / 128
  { s with eth.cell := c, eth.cellUsed := (if s.eth.cell = c then s.eth.cellUsed else 0) + n + 20 }

/-- R339: a frame of a partition that is through its shaper, or needs none: whether it may leave now,
and whether it overruns its gate. One that holds a reservation passes no gate. -/
def Chip.ethMay (s : Chip) (part len : Nat) (o : Out) (td : Option Nat) : Bool × Bool :=
  let (q, pcp) := s.ethQueue o
  let held : Bool := match pcp with | some p => s.pausedNow p | none => false
  if held = true ∨ s.pairRole = 3 ∨ s.fld (enPg + 0x44) 1 0 ≠ 2 then (false, false)
  else if td.isSome then (true, false)
  else s.gateTest 4 q (s.frameTicks (len + (KMap.at s.shapers {} (6144 + part)).ovh)) 1

end Sys2Proof.Machine
end

