-- ==== Sys2Proof/Machine/PairBase.lean ====
section
/-! DEFINITION. The shared operations of the redundant pair: messages, order numbers, ordered notes,
leaving the pair, the digest of outputs (R412 to R423). -/

namespace Sys2Proof.Machine

/-- R284: the chip's own address. -/
def Chip.selfChip (s : Chip) : Nat := s.fld (rtPg + 0x40) 11 0

/-- R284: the chip has an address; until then the router forwards nothing and answers no request. -/
def Chip.addressed (s : Chip) : Bool := s.flag (rtPg + 0x40) 31

/-! ## Messages and order (R413, R414) -/

/-- R414: a pair message leaves on the mirror. -/
def Chip.duoSend (s : Chip) (kind ord tick arg0 arg1 : Nat) (body : List Byte) : Chip :=
  s.emit (.pair ⟨kind, s.selfChip, ord % 2 ^ 32, tick, arg0, arg1, body, 0⟩)

/-- R419: the chip computes the pair's outputs without sending them: STANDBY or JOINING. -/
def Chip.standsBy (s : Chip) : Bool := s.pairRole == 2 || s.pairRole == 4

/-- R416: the chip holds the crown beside a standby whose acknowledgements it waits for. -/
def Chip.leads (s : Chip) : Bool := s.pairRole == 1 && !s.duo.alone

/-- R413: the tick of what the chip carries out: a standby takes it from the token or the note. -/
def Chip.clock (s : Chip) : Nat := if s.standsBy then s.duo.tick else s.now

/-- R413: the tick at which the chip looks at lease transitions: a standby takes none by itself. -/
def Chip.leaseNow (s : Chip) : Nat := if s.standsBy then 0 else s.now

/-- R413: an input or a note takes the next ORD, shown in PAIR_ORD. -/
def Chip.takeOrd (s : Chip) : Nat × Chip :=
  (s.prom.seq, Chip.setReg { s with prom.seq := s.prom.seq + 1 } (pairPg + 0x5C) (BitVec.ofNat 32 s.prom.seq))

/-- R414: ARG0 of a NOTE: the note's kind in [7:0], its object above (log entry 40). -/
def noteArg : NoteKind → Nat
  | .leaseExpiry i => 0 + 256 * i
  | .leaseGraceEnd i => 1 + 256 * i
  | .recallTimeout n => 2 + 256 * n
  | .quarantineEnd e => 3 + 256 * e
  | .isoFence i => 4 + 256 * i
  | .commit t => 5 + 256 * t
  | .status id _ => 6 + 256 * id
  | .setLost d => 7 + 256 * d
  | .fence u => 8 + 256 * ((unitKind u).1 + 16 * (unitKind u).2)

/-- R414: ARG1 of a NOTE: the status, where the note ends a request. -/
def noteStatus : NoteKind → Nat
  | .status _ st => stCode st
  | _ => 0

/-- R413: an ordered note is sent. -/
def Chip.sendNote (s : Chip) (n : Nat) (k : NoteKind) : Chip :=
  (s.emit (.note n k)).duoSend 3 n s.now (noteArg k) (noteStatus k) []

/-- R413: a note takes its ORD and is sent, where there is a standby to hear it. -/
def Chip.announce (s : Chip) (k : NoteKind) : Chip :=
  if s.leads then
    let (n, s) := s.takeOrd
    s.sendNote n k
  else s

/-- R413: a decision that depends on the tick at which it is taken: the standby never takes it by
itself; the crown holder takes it and carries it as an ordered note. -/
def Chip.decides (s : Chip) (k : NoteKind) (f : Chip → Chip) : Chip :=
  if s.standsBy then s
  else if s.leads then
    let t := f s
    if t = s then s
    else
      let (n, u) := s.takeOrd
      let t := f { u with duo.cause := some n }
      Chip.sendNote { t with duo.cause := none } n k
  else f s

/-! ## Leaving the pair (R419, R421) -/

/-- R421: PAIR_ALERT_OUT is asserted, for 10 µs. -/
def Chip.alertOut (s : Chip) : Chip :=
  let s := (s.setFlag (pairPg + 0x48) 14 true).emit (.pin "PAIR_ALERT_OUT" true)
  { s with duo.outAt := some s.ref }

def Chip.setRole (s : Chip) (r : Nat) : Chip := s.setFld (pairPg + 0x48) 2 0 r

/-- R419: PAIR_STAT.LAG. -/
def Chip.lag (s : Chip) : Bool := s.flag (pairPg + 0x48) 3
def Chip.setLag (s : Chip) (b : Bool) : Chip := s.setFlag (pairPg + 0x48) 3 b

/-- R419, R421: the chip enters OUT and asserts its alert; it keeps neither tokens nor outputs. -/
def Chip.goOut (s : Chip) : Chip :=
  let s := { s with
    duo.tokens := [], duo.live := [], duo.inbuf := [], duo.relays := [], duo.ready := []
    duo.outs := [], duo.dues := [], duo.digests := [], duo.frozenAt := none, duo.boundary := none
    duo.ordJ := none, duo.copyAt := none, duo.alone := true }
  ((s.setRole 5).setLag false).alertOut

/-- R417: a fence of a unit whose work the pair compares: a standby goes OUT, a holder says so. -/
def Chip.pairFence (s : Chip) (u : UnitId) : Chip :=
  match u with
  | .newt .. | .frog .. | .copy .. | .cluster .. | .mc .. =>
    if s.standsBy then s.goOut else s.announce (.fence u)
  | _ => s

/-- R417: a block that decodes UE or is poisoned is asked for at the peer. -/
def Chip.askRepair (s : Chip) (b : Nat) : Chip :=
  if s.leads || s.standsBy then s.duoSend 9 0 0 b 0 [] else s

/-! ## Identities (R414) -/

/-- R414: the identity of an input of a host: SRC_HOST, TAG and TYPE (log entry 40). -/
def flesonId (host tag typ : Nat) : Nat := host % 2 ^ 16 + 2 ^ 16 * (tag % 2 ^ 16) + 2 ^ 32 * (typ % 16)

/-- R414: the identity of a datagram: SESSION, CHAN and SEQ (log entry 40). -/
def xhtId (session chan seq : Nat) : Nat :=
  session % 256 + 2 ^ 8 * (chan % 32) + 2 ^ 16 * (seq % 2 ^ 32) + 2 ^ 63

/-- R414: the identity of an input. -/
def inputId : PairInput → Nat
  | .fleson _ _ _ p => flesonId p.hdr.srcHost p.hdr.tag p.hdr.typ
  | .xht _ d => xhtId d.hdr.session d.hdr.chan d.hdr.seq

/-- The ORD of an input by its identity. -/
def Chip.ordOf (s : Chip) (p : Nat → Bool) : Option Nat := (s.duo.ids.reverse.find? fun e => p e.1).map (·.2)

/-- R416, R422: the ORD of an output's cause: that of what is carried out now, else of the input whose
identity the output answers. -/
def Chip.causeOf (s : Chip) (o : Out) : Option Nat :=
  match s.duo.cause with
  | some n => some n
  | none => match o with
    | .packet p =>
      if p.hdr.typ = 4 then none
      else s.ordOf fun i => decide (i < 2 ^ 63) && i % 2 ^ 32 == flesonId p.hdr.srcHost p.hdr.tag 0
    | .xht _ d => s.ordOf fun i => i == xhtId d.hdr.session d.hdr.chan d.hdr.seq
    | _ => none

/-- R416: an output of the pair waits for the acknowledgement of its cause's token. -/
def Chip.unacked (s : Chip) (o : Out) (cause : Option Nat) : Bool :=
  s.leads && pairOutput o && match cause with
    | some n => !s.duo.acked.contains n
    | none => false

/-! ## The digest (R422) -/

/-- R297: the header as 32 bytes. -/
def hdrBytes (h : PktHdr) : List Byte :=
  let b := fun c : Bool => if c then 1 else 0
  leBytes 4 (h.typ % 16 + 2 ^ 4 * (h.cls % 8) + 2 ^ 8 * (h.dstChip % 4096) + 2 ^ 20 * (h.dstPort % 128) +
    2 ^ 27 * b h.excl + 2 ^ 28 * b h.reg + 2 ^ 29 * b h.ver + 2 ^ 30 * (h.chk % 4)) ++
  leBytes 4 (h.srcHost % 2 ^ 14 + 2 ^ 16 * (h.tag % 2 ^ 16)) ++
  leBytes 4 (h.srcChip % 4096 + 2 ^ 12 * (h.srcPort % 128) + 2 ^ 19 * (h.status % 16)) ++
  (if h.ver then leBytes 8 h.value
   else leBytes 5 h.offset ++ leBytes 3 (if h.typ = 4 ∨ h.typ = 5 then h.rseq % 2 ^ 16 + 2 ^ 16 * (h.kind % 4)
     else h.deadline)) ++
  leBytes 4 (h.len % 2 ^ 21) ++ leBytes 8 h.check

/-- R340: the header of a datagram as 32 bytes. -/
def xhtBytes (h : XhtHdr) : List Byte :=
  let b := fun c : Bool => if c then 1 else 0
  leBytes 4 (h.typ % 16 + 2 ^ 4 * (h.ver % 16) + 2 ^ 8 * b h.dup + 2 ^ 9 * b h.last + 2 ^ 10 * b h.retx +
    2 ^ 11 * b h.hasValue + 2 ^ 16 * (h.session % 256) + 2 ^ 24 * (h.chan % 32)) ++
  leBytes 4 h.seq ++ leBytes 4 (h.tag % 2 ^ 16 + 2 ^ 16 * (h.cls % 8) + 2 ^ 19 * (h.status % 16)) ++
  leBytes 4 h.word3 ++ leBytes 4 h.word4 ++ leBytes 4 (h.len % 2 ^ 21) ++ leBytes 4 (h.foff % 2 ^ 21) ++
  leBytes 4 0

/-- R422: the digest bytes of an output: the chips of a packet, RETX of a datagram and bytes 16 to 23
of an AUDIT record read as 0. -/
def digestBytes : Out → List Byte
  | .packet p => hdrBytes { p.hdr with dstChip := 0, srcChip := 0 } ++ p.payload
  | .xht _ d => xhtBytes { d.hdr with retx := false } ++
      if d.hdr.typ = 0xB then d.payload.take 16 ++ List.replicate 8 0 ++ d.payload.drop 24 else d.payload
  | _ => []

/-- R422: C of an output with cause ORD and index i. -/
def outCrc (o : Out) (ord i : Nat) : Nat :=
  crcOf 3 false 0 0 (digestBytes o ++ leBytes 4 ord ++ leBytes 2 i)

/-- R9: the epoch of a tick. -/
def epochOf (t : Nat) : Nat := t / 1000

/-- R422: an output of the pair is entered with its due epoch: that of its reservation, else on the
holder the present one, which goes out in an OUT message, and on the standby the one the holder
names. -/
def Chip.enterOut (s : Chip) (o : Out) (cause due : Option Nat) : Chip :=
  match (if pairOutput o && (s.pairRole == 1 || s.standsBy) then cause else none) with
  | none => s
  | some n =>
    let i := (s.duo.outs.filter fun x => x.ord == n).length
    let named := (s.duo.dues.find? fun d => d.1 == n && d.2.1 == i).map (·.2.2)
    let e := match due with
      | some e => some e
      | none => if s.standsBy then named else some (epochOf s.now)
    let s := { s with
      duo.outs := s.duo.outs ++ [PairOut.mk n i (outCrc o n i) e]
      duo.dues := s.duo.dues.filter fun d => !(d.1 == n && d.2.1 == i) }
    if due.isNone && s.leads then s.duoSend 6 n s.now i (epochOf s.now) [] else s

/-- R419, R420: an output a standby computes is not sent; it keeps it while the holder may not have
sent it. One that holds a reservation was entered when it was formed. -/
def Chip.keep (s : Chip) (o : Out) (cause : Option Nat) (resv : Bool) : Chip :=
  let s := if resv then s else s.enterOut o cause none
  match (if s.standsBy then cause else none) with
  | some n => { s with duo.ready := s.duo.ready ++ [(n, o)] }
  | none => s

/-! ## Turns (R413, R415) -/

/-- R413, R415: the crown holder gives an input an ORD and sends its token; on a standby the input's
token is carried out. -/
def Chip.orderIn (s : Chip) (id tick arg1 : Nat) : Chip :=
  if s.pairRole = 1 then
    let (n, s) := s.takeOrd
    let s := { s with duo.ids := (s.duo.ids.filter fun (e : Nat × Nat) => !(e.1 == id)) ++ [(id, n)] }
    s.duoSend 1 n tick id arg1 []
  else { s with duo.live := s.duo.live.filter fun t => !(t.arg0 == id) }

/-- R415: on a standby an input acts when its token's turn has come, with the token's tick. -/
def Chip.turnOf (s : Chip) (id : Nat) (f : Chip → Chip) : Chip :=
  if s.standsBy then
    match s.duo.live.find? fun t => t.arg0 == id with
    | none => s
    | some t =>
      let s := f { s with duo.live := s.duo.live.erase t, duo.tick := t.tick, duo.cause := some t.ord }
      { s with duo.cause := none }
  else f s

/-- R415: as `Chip.turnOf`, for an input that acts on memory. -/
def Sys.turnOf (y : Sys) (id : Nat) (f : Sys → Sys) : Sys :=
  if y.chip.standsBy then
    match y.chip.duo.live.find? fun t => t.arg0 == id with
    | none => y
    | some t =>
      let y := f (onChip (fun s =>
        { s with duo.live := s.duo.live.erase t, duo.tick := t.tick, duo.cause := some t.ord }) y)
      onChip (fun s => { s with duo.cause := none }) y
  else f y

/-- R413, R415: an input reaches the chip: the holder keeps its body and orders it, one with a class at
its admission; a standby, and a holder that is frozen, hold it; a chip that is OUT takes none. -/
def Chip.takeInput (s : Chip) (i : PairInput) (classed : Bool) (go : Chip → Chip) : Chip :=
  let b : PairIn := ⟨inputId i, s.now, i⟩
  match s.pairRole with
  | 0 => go s
  | 1 =>
    let s := { s with duo.log := s.duo.log ++ [b] }
    go (if classed then s else s.orderIn (inputId i) s.now 0)
  | 2 | 3 | 4 => { s with duo.inbuf := s.duo.inbuf ++ [b] }
  | _ => s

end Sys2Proof.Machine
end

