-- ==== Sys2Proof/Machine/Pool.lean ====
section
/-! DEFINITION. Pool memory without its traffic: the code strength and the layout it fixes, the
address mapping, the page code, block slots and their windows (R153 to R166). -/

namespace Sys2Proof.Machine

/-- R158: t of the code strength in MC_CODE.T. -/
def Chip.codeT (s : Chip) : Nat := 4 * 2 ^ s.fld (memPg + 0x40) 1 0

/-- R155: check bytes per code block. -/
def Chip.codeC (s : Chip) : Nat := 4 * s.codeT

/-- R155: data rows per bank. -/
def Chip.rowsD (s : Chip) : Nat := 65536 - 32 * s.codeC

/-- R158: data blocks of the chip. -/
def Chip.dataBlocks (s : Chip) : Nat := 4096 * s.rowsD

/-- R158: the first pool offset of the reserved region. -/
def Chip.rsv (s : Chip) : Nat := s.dataBlocks * 2048 - 0x60000000

/-- R158: the directory base. -/
def Chip.dirBase (s : Chip) : Nat := s.rsv + 0x40000000

/-- R186: usable extents. -/
def Chip.usable (s : Chip) : Nat := s.rsv / 0x4000000

/-- Parity of the low n bits of a number. -/
def parity : Nat → Nat → Nat
  | 0, _ => 0
  | n + 1, v => (v % 2 + parity n (v / 2)) % 2

/-- R161: one hashed bit: the XOR of the bits of B its mask register selects. -/
def Chip.hashBit (s : Chip) (a b : Nat) : Nat := parity 28 ((s.reg a).toNat &&& b)

/-- R160, R161: the controller of block index B. -/
def Chip.ctrlOf (s : Chip) (b : Nat) : Nat :=
  (List.range 8).foldl (fun n i => n + 2 ^ i * s.hashBit (memPg + 0x44 + 4 * i) b) 0

/-- R160, R161: the bank of block index B. -/
def Chip.bankOf (s : Chip) (b : Nat) : Nat :=
  (List.range 4).foldl (fun n j => n + 2 ^ j * s.hashBit (memPg + 0x64 + 4 * j) b) 0

/-- R160: the data row of block index B. -/
def rowOfBlk (b : Nat) : Nat := b / 4096 % 65536

/-- R155: the companion bank that holds the check symbols. -/
def checkBank (k : Nat) : Nat := k ^^^ 4

/-- R155: the check row of data row r. -/
def Chip.checkRow (s : Chip) (r : Nat) : Nat := s.rowsD + r / (2048 / s.codeC)

/-- R155: first byte of the check slot of data row r in each pseudo-channel's check row. -/
def Chip.checkSlot (s : Chip) (r : Nat) : Nat := r % (2048 / s.codeC) * s.codeC / 2

/-- R206: the code block that holds directory set d. -/
def Chip.setBlock (s : Chip) (d : Nat) : Nat := s.dirBase / 2048 + d

/-! ## The page code (R156, R157) -/

/-- R156: a product in GF(2^16) built on x^16 + x^12 + x^3 + x + 1, over n bits of the second
factor. -/
def gfMulN : Nat → Nat → Nat → Nat
  | 0, _, _ => 0
  | n + 1, a, b =>
    let a' := if a < 0x8000 then 2 * a else (2 * a) ^^^ 0x1100B
    (if b % 2 = 1 then a else 0) ^^^ gfMulN n a' (b / 2)

/-- R156: a product in GF(2^16). -/
def gfMul (a b : Nat) : Nat := gfMulN 16 a b

/-- R156: α^n for α = x. -/
def gfPow : Nat → Nat
  | 0 => 1
  | n + 1 => gfMul (gfPow n) 2

/-- A polynomial over GF(2^16), highest coefficient first, times (x − r). -/
def polyTimes (p : List Nat) (r : Nat) : List Nat :=
  List.zipWith (· ^^^ ·) (p ++ [0]) (0 :: p.map (gfMul · r))

/-- R156: the generator g(x) for n = 2t check symbols, highest coefficient first. -/
def rsGen : Nat → List Nat
  | 0 => [1]
  | n + 1 => polyTimes (rsGen n) (gfPow n)

/-- R156: one step of the division by g: the register of 2t symbols takes a data symbol. -/
def rsStep (g reg : List Nat) (d : Nat) : List Nat :=
  let f := d ^^^ reg.headD 0
  List.zipWith (fun a b => a ^^^ gfMul f b) (reg.drop 1 ++ [0]) (g.drop 1)

/-- R156: the data symbols of a block: bytes 2j (low) and 2j + 1 (high). -/
def rsSymbols : List Byte → List Nat
  | a :: b :: l => (a.toNat + 256 * b.toNat) :: rsSymbols l
  | [a] => [a.toNat]
  | [] => []

/-- R156: the check symbols p_0 to p_(2t−1) of a block's data. -/
def rsCheck (t : Nat) (data : List Byte) : List Nat :=
  (rsSymbols data).foldl (rsStep (rsGen (2 * t))) (List.replicate (2 * t) 0)

/-- R156: the syndrome of a received word at α^i: zero for every i < 2t exactly in a codeword. -/
def rsSyndrome (t : Nat) (data : List Byte) (chk : List Nat) (i : Nat) : Nat :=
  (rsSymbols data ++ chk.take (2 * t)).foldl (fun a d => gfMul a (gfPow i) ^^^ d) 0

/-- R158, R160: the data bytes of block index B. -/
def Mem.blk (m : Mem) (b : Nat) : List Byte := KMap.bytes m.pool (2048 * b) 2048

/-- R157: what decoding a stored block answers: data and corrected symbols, or UE, or the bytes of a
wrong codeword, a free value where more than t symbols are in error. -/
inductive Decoded where
  | good (corrected : Nat)
  | ue
  | wrong (data : List Byte)
deriving DecidableEq, Repr

/-- R157: decodes block B, whose error pattern the memory holds; k names the decode. -/
def Mem.decode (m : Mem) (t b k : Nat) : Decoded :=
  let e := (KMap.at m.poolErr [] b).length
  if e ≤ t then .good e
  else match Config.overT k with
    | none => .ue
    | some d => .wrong (d.take 2048)

/-- R156: a write stores data and check symbols of a codeword over bytes [lo, lo + len) of block B:
no symbol of it is in error afterwards. -/
def Mem.putBlk (m : Mem) (b lo : Nat) (d : List Byte) : Mem :=
  { m with pool := KMap.store m.pool (2048 * b + lo) d, poolErr := KMap.put m.poolErr [] b [] }

/-- R183: ERR_INJECT KIND 2 flips bit 0 of data symbol d_0 of the stored word. -/
def Mem.flipD0 (m : Mem) (b : Nat) : Mem :=
  { m with poolErr := KMap.put m.poolErr [] b [(0, 1)] }

/-! ## Block slots (R162, R165) -/

/-- R162: slot length in 1/16 tick: 41.25 ns at t ≤ 16, 42.5 ns at t = 32. -/
def Chip.slotLen (s : Chip) : Nat := if s.codeT ≤ 16 then 660 else 680

/-- R162: the slot in progress at a tick. -/
def Chip.slotAt (s : Chip) (t : Nat) : Nat := 16 * t / s.slotLen

/-- R162: nominal start of slot j in 1/16 tick. -/
def Chip.slotStart (s : Chip) (j : Nat) : Nat := j * s.slotLen

/-- First slot that starts at or after a tick. -/
def Chip.slotFrom (s : Chip) (t : Nat) : Nat := ceilDiv (16 * t) s.slotLen

/-- The tick, rounded up, at which slot j starts. -/
def Chip.slotTick (s : Chip) (j : Nat) : Nat := ceilDiv (s.slotStart j) 16

/-- The start of the window that slot j overlaps: the latest of the given length that starts at a tick
congruent to `phase` modulo `period` and not after the slot's end. -/
def Chip.windowAt (s : Chip) (j period phase len : Nat) : Option Nat :=
  let a := s.slotStart j
  let e := ceilDiv (a + s.slotLen) 16 - 1
  let back := (e + period - phase % period) % period
  if e < back ∨ 16 * (e - back + len) ≤ a then none else some (e - back)

/-- Whether slot j overlaps such a window. -/
def Chip.slotMeets (s : Chip) (j period phase len : Nat) : Bool := (s.windowAt j period phase len).isSome

/-- R165: slot j of controller n overlaps a refresh window of bank b. -/
def Chip.inRefresh (s : Chip) (n b j : Nat) : Bool :=
  s.slotMeets j 1950 ((121 * b + 1950 * 64 - 61 * n) % 1950) 240

/-- R165: slot j of controller n overlaps its retraining window. -/
def Chip.inTraining (s : Chip) (n j : Nat) : Bool := s.slotMeets j 100000000 (390625 * n) 2000

/-- R165: SCRUB_INT of controller n in ticks; 0 when the scrub is stopped. -/
def Chip.scrubInt (s : Chip) (n : Nat) : Nat := 1024 * s.fld (mcPg n + 0x54) 15 0

/-- R165: slot j is the first of a patrol-scrub window of controller n: the first to start at or
after a scrub tick. -/
def Chip.scrubFirst (s : Chip) (n j : Nat) : Bool :=
  let i := s.scrubInt n
  if i = 0 then false
  else
    let a := s.slotStart j
    let ts := a / 16
    if ts < 16 * n then false
    else
      let t0 := ts - (ts - 16 * n) % i
      decide (j = 0 ∨ a < 16 * t0 + s.slotLen)

/-- R165: slot j of controller n belongs to a patrol-scrub window. -/
def Chip.inScrub (s : Chip) (n j : Nat) : Bool :=
  s.scrubFirst n j || (j != 0 && s.scrubFirst n (j - 1))

/-- R165: the block a patrol-scrub window that starts at slot j visits, as bank × D + row: the
position register counts one block a window from the next one on. -/
def Chip.scrubPosAt (s : Chip) (n j : Nat) : Nat :=
  let i := s.scrubInt n
  let w := (s.slotStart j / 16 - 16 * n) / (max i 1)
  let wn := ceilDiv (s.now - 16 * n) (max i 1)
  (s.fld (mcPg n + 0x58) 19 0 + (w - wn)) % (16 * s.rowsD)

/-- R160, R161: the block index in bank k and row r of controller n: the low twelve bits of B are
those for which the hashed bits come out as n and k. -/
def Chip.blockAt (s : Chip) (n k r : Nat) : Nat :=
  let hi := 4096 * r
  hi + (n ^^^ s.ctrlOf hi) + 256 * (k ^^^ s.bankOf hi)

/-- R163: the banks a block touches. -/
def touches (k : Nat) : List Nat := [k, checkBank k]

/-- R163: two blocks in slots d apart, in banks k and k', obey half alternation and bank
recovery. -/
def slotsAgree (d k k' : Nat) : Bool :=
  (d != 1 || k / 8 != k' / 8) && (decide (3 ≤ d) || (touches k).all fun b => !(touches k').contains b)

/-- R163: the fixed windows allow a block of bank k of controller n in slot j: no refresh of a bank
it touches, no training, no scrub slot, and agreement with a scrubbed block next to it. -/
def Chip.windowsAllow (s : Chip) (n k j : Nat) : Bool :=
  (touches k).all (fun b => !s.inRefresh n b j) && !s.inTraining n j && !s.inScrub n j &&
  ([1, 2].all fun d => !s.scrubFirst n (j + d) || slotsAgree d k (s.scrubPosAt n (j + d) / s.rowsD)) &&
  ([1, 2].all fun d => j < d + 1 || !s.scrubFirst n (j - d - 1) ||
    slotsAgree d k (s.scrubPosAt n (j - d - 1) / s.rowsD))

end Sys2Proof.Machine
end

