-- ==== Sys2Proof/Machine/Recall.lean ====
section
/-! DEFINITION. The directory's entries and recalls: holders, the recall tracker, acknowledgement
and completion, lost sets, packets to hosts (R206 to R221, R296, R299, R510). -/

namespace Sys2Proof.Machine

/-! ## Packets the chip originates -/

/-- A header with every field 0. -/
def hdr0 : PktHdr :=
  { typ := 0, cls := 4, dstChip := 0, dstPort := 0, excl := false, reg := false, ver := false,
    chk := 0, srcHost := 0, tag := 0, srcChip := 0, srcPort := 0, status := 0, offset := 0,
    value := 0, deadline := 0, rseq := 0, kind := 0, len := 0, check := 0 }

/-- R296, R299: a packet originated toward a host goes where the host location table says; with no
valid entry it is discarded and counted in RT_UNROUTE. -/
def Chip.toHost (s : Chip) (h : Nat) (hd : PktHdr) (payload : List Byte) : Chip :=
  let w := KMap.at s.hloc 0 h
  if Word.bit w 31 then
    let hd := { hd with dstChip := Word.bits w 11 0, dstPort := Word.bits w 18 12 }
    s.emit (.packet ⟨{ hd with srcHost := h, srcChip := s.selfChip }, payload⟩)
  else (s.bump (rtPg + 0x70)).notice rtPg 0

/-! ## Isolation entries (R189) -/

def isoW (ws : List Word) (k : Nat) : Word := ws.getD k 0
def isoHost (ws : List Word) : Nat := Word.bits (isoW ws 0) 13 0
def isoMode (ws : List Word) : Bool := Word.bit (isoW ws 0) 14
def isoValid (ws : List Word) : Bool := Word.bit (isoW ws 0) 15
def isoRights (ws : List Word) : Nat := Word.bits (isoW ws 0) 17 16
def isoFenced (ws : List Word) : Bool := Word.bit (isoW ws 0) 18
def isoPart (ws : List Word) : Nat := Word.bits (isoW ws 0) 29 24
def isoBase (ws : List Word) : Nat := Word.bits (isoW ws 1) 12 0
def isoCount (ws : List Word) : Nat := Word.bits (isoW ws 1) 27 14
def isoLease (ws : List Word) : Nat := Word.bits (isoW ws 2) 11 0
def isoGroups (ws : List Word) : Nat := (isoW ws 2).toNat + 2 ^ 32 * (isoW ws 3).toNat

/-- R193: the entry with FENCED set. -/
def isoFence (ws : List Word) : List Word :=
  match ws with
  | w :: l => Word.setBit w 18 true :: l
  | [] => []

/-- R189: the entry covers extent e. -/
def isoCovers (ws : List Word) (e : Nat) : Bool :=
  isoValid ws && decide (isoBase ws ≤ e ∧ e < isoBase ws + isoCount ws)

/-! ## Leases and sets -/

/-- R196: the lease of a host that is not FREE: its index and content. -/
def Chip.hostLease (s : Chip) (h : Nat) : Option (Nat × Lease) :=
  s.rights.leases.find? fun e => e.2.state != 0 && e.2.host == h

/-- R197: the state of a lease at a tick: a transition named for a tick takes effect at that tick,
even though the state register follows later. LEN and RINT are in µs. -/
def leaseEff (now : Nat) (l : Lease) : Nat :=
  if l.state = 1 ∨ l.state = 2 then
    if now < l.x ∧ l.state = 1 then 1 else if now < l.x + 2000 * l.rint then 2 else 3
  else l.state

/-- R191, R213: the host's lease is ACTIVE or GRACE. -/
def Chip.leaseLive (s : Chip) (h : Nat) : Bool :=
  match s.hostLease h with
  | some (_, l) => leaseEff s.leaseNow l == 1 || leaseEff s.leaseNow l == 2
  | none => false

/-- R213: every host whose lease is ACTIVE or GRACE. -/
def Chip.liveHosts (s : Chip) : List Nat :=
  (s.rights.leases.filter fun e => leaseEff s.leaseNow e.2 == 1 || leaseEff s.leaseNow e.2 == 2).map
    fun e => e.2.host

/-- R206: the set of block index B. -/
def setOf (b : Nat) : Nat := b % 2 ^ 18

/-- R212: the key and entry of block B that is not INVALID. -/
def Chip.entOf (s : Chip) (b : Nat) : Option (Nat × DirEnt) :=
  s.dir.ents.find? fun e => e.1 / 128 == setOf b && e.2.state != 0 && e.2.tag == b

/-- The directory with the entry at a key set. -/
def Chip.setEnt (s : Chip) (k : Nat) (e : DirEnt) : Chip :=
  { s with dir.ents := KMap.put s.dir.ents {} k e }

/-- R208: set d holds an entry that is not INVALID. -/
def Chip.setUsed (s : Chip) (d : Nat) : Bool :=
  s.dir.ents.any fun e => e.1 / 128 == d && e.2.state != 0

/-- R221: set d is DISABLED: recorded so, or it lies on a controller fenced since bring-up and is not
being handled. A lift of the fence does not bring it back. -/
def Chip.setDisabled (s : Chip) (d : Nat) : Bool :=
  s.dir.disabled.contains d ||
  (s.dir.offCtl.contains (s.ctrlOf (s.setBlock d)) && !s.dir.lost.contains d)

/-- R208: set-map bit d. -/
def Chip.mapBit (s : Chip) (d : Nat) : Bool :=
  !s.setDisabled d &&
  (s.setUsed d || s.dir.mapOnes.contains (d / 32) ||
   s.dir.trk.any fun t => match t.victim with
    | some v => setOf v.tag == d
    | none => false)

/-- R213: the holders an entry's recall is sent to. -/
def Chip.holdersOf (s : Chip) (e : DirEnt) : List Nat :=
  if e.wide then s.liveHosts.filter fun h => e.groups / 2 ^ (h / 256) % 2 == 1
  else (if e.state = 2 then [e.owner] else e.ptrs).filter s.leaseLive

/-! ## Sets in memory and in the cache (R206 to R208) -/

/-- R207: an entry as its four words. -/
def entWords (e : DirEnt) : List Nat :=
  let p := fun i => e.ptrs.getD i 0
  [e.tag + 2 ^ 28 * e.state + (if e.wide then 2 ^ 30 else 0),
   e.owner + (if e.wide then 0 else 2 ^ 14 * e.ptrs.length) + 65536 * e.rseq,
   if e.wide then e.groups % 2 ^ 32 else p 0 + 65536 * p 1,
   if e.wide then e.groups / 2 ^ 32 else p 2]

/-- R207: the entry four words hold. -/
def entOfWords (w0 w1 w2 w3 : Nat) : DirEnt :=
  let state := w0 / 2 ^ 28 % 4
  let wide := w0 / 2 ^ 30 % 2 == 1
  if state = 0 then {}
  else
    { tag := w0 % 2 ^ 28, state := state, wide := wide, owner := w1 % 2 ^ 14
      ptrs := if wide then [] else [w2 % 2 ^ 14, w2 / 65536 % 2 ^ 14, w3 % 2 ^ 14].take (w1 / 2 ^ 14 % 4)
      rseq := w1 / 65536 % 65536
      groups := if wide then w2 % 2 ^ 32 + 2 ^ 32 * w3 else 0 }

/-- R206, R207: the code block of set d. -/
def Chip.packSet (s : Chip) (d : Nat) : List Byte :=
  (List.range 128).flatMap fun i => (entWords (KMap.at s.dir.ents {} (128 * d + i))).flatMap (leBytes 4)

/-- R157, R206: set d as a block that decoded to a wrong codeword gives it. -/
def Chip.takeSet (s : Chip) (d : Nat) (bs : List Byte) : Chip :=
  let w := fun i k => leNat ((bs.drop (16 * i + 4 * k)).take 4)
  forEach (List.range 128) (fun i s => s.setEnt (128 * d + i) (entOfWords (w i 0) (w i 1) (w i 2) (w i 3))) s

/-- R208: set d is in the directory cache. -/
def Chip.setCached (s : Chip) (d : Nat) : Bool :=
  (KMap.at s.dir.cache [] (d % 256)).any fun c => c.set == d

/-- R243: an admission holds set d locked in the cache, until the lookup. -/
def Chip.setLocked (s : Chip) (d : Nat) : Bool :=
  (s.accs.any fun a => a.lock && a.phase == .waitDir && setOf a.b == d) ||
  s.regions.any fun g => g.2.queue.any fun p => p.locks.contains d

/-- R167, R208: an access to set d through port 4, in a reserved slot if there is one. -/
def Chip.setAccess (s : Chip) (d : Nat) (op : SetOp) (slot : Option Nat) : Acc :=
  let b := s.setBlock d
  { src := .set d op, port := 4, b := b, pb := b, lo := 0, len := 2048, write := op == .store || op == .clear
    rdc := false, excl := false, part := 64, x := 0, data := [], slot := slot, slot2 := none, checked := true
    phase := .ready, st := .ok, reg := false, lock := false, tick := s.now, late := false }

/-- R208: set d is written back whole through port 4, with what it holds then; a write-back that waits
takes the change along. -/
def Chip.writeBack (s : Chip) (d : Nat) : Chip :=
  if s.accs.any fun a => a.src == .set d .store then s
  else { s with accs := s.accs ++ [s.setAccess d .store none] }

/-- R208: the least recently used way that no admission holds locked, of ways most recent first. -/
def Chip.victimWay (s : Chip) (l : List CSet) : Option CSet :=
  l.reverse.find? fun c => !s.setLocked c.set

/-- R208: set d is used: most recently used if cached, else brought in, in place of a victim; when
every way is locked it is used without being cached, and written back if it was modified. -/
def Chip.useSet (s : Chip) (d : Nat) (dirty : Bool) : Chip :=
  let k := d % 256
  let l := KMap.at s.dir.cache [] k
  let put := fun (s : Chip) (l : List CSet) => { s with dir.cache := KMap.put s.dir.cache [] k l }
  match l.find? fun c => c.set == d with
  | some c => put s (⟨d, c.dirty || dirty⟩ :: l.filter fun c => !(c.set == d))
  | none =>
    if l.length < 8 then put s (⟨d, dirty⟩ :: l)
    else match s.victimWay l with
      | some v =>
        let s := put s (⟨d, dirty⟩ :: l.filter fun c => !(c.set == v.set))
        if v.dirty then s.writeBack v.set else s
      | none => if dirty then s.writeBack d else s

/-- R208: an entry changes where its set need not be in the cache: the end of a recall, a purge, a fill.
The set is brought in, and counted as missed, without the read being waited for (log entry 89). -/
def Chip.changeEnt (s : Chip) (k : Nat) (e : DirEnt) : Chip :=
  let d := k / 128
  let s := if s.mapBit d && !s.setCached d then s.bump (dirPg + 0x6C) else s
  (s.setEnt k e).useSet d true

/-- R210: an RDC of host h may register. -/
def Chip.mayRegister (s : Chip) (h b : Nat) : Bool :=
  (s.rights.iso.any fun x => isoCovers x.2.ct (b / 32768) && !isoMode x.2.ct && isoHost x.2.ct == h) &&
  (match s.hostLease h with | some (_, l) => leaseEff s.leaseNow l == 1 | none => false) &&
  !s.dir.fencing.contains h && !s.setDisabled (setOf b)

/-! ## Recalls -/

/-- R213: the next sequence number no open recall uses. -/
def nextFree (used : List Nat) : Nat → Nat → Nat
  | 0, n => n
  | k + 1, n => if used.contains n then nextFree used k ((n + 1) % 65536) else n

/-- R216: an access of an RDC of block b by host h, registered, whose response has not left whole. -/
def Chip.openRdc (s : Chip) (b h : Nat) (a : Acc) : Bool :=
  a.rdc && a.reg && a.b == b &&
  match a.src with
  | .req id _ => s.prom.reqs.any fun r => r.id == id && r.host == h
  | _ => false

/-- R213: DIR_RCL_TMO; values below 200 act as 200. -/
def Chip.rclTmo (s : Chip) : Nat := max (s.fld (dirPg + 0x44) 15 0) 200

/-- R213, R243: intervals in which tracker entries are taken, with whether a wide bitmap is: those
promises have reserved and not used, and those of open recalls. -/
def Chip.trkUses (s : Chip) : List (Nat × Nat × Bool) :=
  ((s.prom.trk.filter fun r => !r.used).map fun r => (r.t0, r.t1, true)) ++
  (s.dir.trk.map fun t => (t.issue, max (t.issue + s.rclTmo) (s.now + 1), t.wide || !t.unreserved))

/-- R243, R510: entries, and wide bitmaps, in use at tick t. -/
def usesAt (us : List (Nat × Nat × Bool)) (t : Nat) : Nat × Nat :=
  let on := us.filter fun u => decide (u.1 ≤ t ∧ t < u.2.1)
  (on.length, (on.filter fun u => u.2.2).length)

/-- R213, R218, R510: the ticks at which what a recall of no promise takes now meets what promises have
reserved: now, and the starts of reservations within the recall's life. -/
def Chip.trkTicks (s : Chip) (us : List (Nat × Nat × Bool)) : List Nat :=
  s.now :: (us.map (·.1)).filter fun t => decide (s.now < t ∧ t < s.now + s.rclTmo)

/-- R213, R218, R510: tracker entries, and wide bitmaps, that neither an open recall holds nor a promise
has reserved at any time a recall that starts now may last. -/
def Chip.trkFree (s : Chip) : Nat :=
  let us := s.trkUses
  (s.trkTicks us).foldl (fun n t => min n (1024 - (usesAt us t).1)) 1024

def Chip.wideFree (s : Chip) : Nat :=
  let us := s.trkUses
  (s.trkTicks us).foldl (fun n t => min n (16 - (usesAt us t).2)) 16

/-- R213, R243: the first unused reservation of a request is taken by its recall; whether none was
left. -/
def Chip.takeTrk (s : Chip) (id : Nat) : Bool × Chip :=
  match s.prom.trk.find? fun r => r.owner == id && !r.used with
  | some r => (false, { s with prom.trk := { r with used := true } :: s.prom.trk.erase r })
  | none => (true, s)

/-- R213: sends one RECALL to a holder. -/
def Chip.sendRecall (s : Chip) (h rseq kind off len : Nat) : Chip :=
  s.toHost h { hdr0 with typ := 4, srcPort := 0x7F, rseq := rseq, kind := kind, offset := off,
                         len := len } []

/-- R213, R217: the offset and length a RECALL carries. -/
def recallName (kind what count : Nat) : Nat × Nat :=
  match kind with
  | 0 => (2048 * what, 0)
  | 1 => (what * 0x4000000, count)
  | _ => (2048 * what, 0)

/-- The chip with the revocations that satisfy p changed. -/
def Chip.updRevs (s : Chip) (p : Rev → Bool) (f : Rev → Rev) : Chip :=
  { s with rights.revs := updWhere s.rights.revs p f }

/-- The chip with the tracker entries that satisfy p changed. -/
def Chip.updTrk (s : Chip) (p : Trk → Bool) (f : Trk → Trk) : Chip :=
  { s with dir.trk := updWhere s.dir.trk p f }

/-- The chip with the block accesses that satisfy p changed. -/
def Chip.updAccs (s : Chip) (p : Acc → Bool) (f : Acc → Acc) : Chip :=
  { s with accs := updWhere s.accs p f }

/-- The chip with the requests that satisfy p changed. -/
def Chip.updReqs (s : Chip) (p : Req → Bool) (f : Req → Req) : Chip :=
  { s with prom.reqs := updWhere s.prom.reqs p f }

/-- R216: whether a packet is the response to a request. -/
def isRespTo (r : Req) (h : PktHdr) : Bool := h.typ == 8 && h.srcHost == r.host && h.tag == r.tag

/-- R216, R238: whether an output is the response, or a piece of it. -/
def Out.respTo (r : Req) : Out → Bool
  | .packet p => r.port != 96 && isRespTo r p.hdr
  | .xht _ d => r.port == 96 && (d.hdr.typ == 2 || d.hdr.typ == 7) && d.hdr.session == r.session &&
      d.hdr.chan == r.chan && d.hdr.seq == r.seq
  | _ => false

/-- R216, R238: the flits of the response that a link has still to send, and that satisfy p. -/
def Chip.respFlit (s : Chip) (r : Req) (p : TxFlit → Bool) : Bool :=
  r.port != 96 && s.links.any fun l => l.2.txq.any fun q => q.2.any fun f => f.resp == some (r.host, r.tag) && p f

/-- The response of a request that has an outcome waits in the chip, whole. -/
def Chip.respWaits (s : Chip) (r : Req) : Bool :=
  (r.port != 96 && s.own.any fun o => isRespTo r o.pkt.hdr) || s.held.any fun h => h.what.respTo r

/-- R216: no flit of the response to a request has taken its number. -/
def Chip.respWhole (s : Chip) (r : Req) : Bool :=
  !r.sent || s.respWaits r || s.respFlit r fun f => f.typ == 1 || f.typ == 4

/-- R238: part of the response to a request has not left the port. -/
def Chip.respLeft (s : Chip) (r : Req) : Bool := s.respWaits r || s.respFlit r fun _ => true

/-- R297: the first bytes of a packet with REG = 0. -/
def noReg (p : List Byte) : List Byte :=
  p.take 3 ++ [BitVec.ofNat 8 ((p.getD 3 0).toNat / 32 * 32 + (p.getD 3 0).toNat % 16)] ++ p.drop 4

/-- R216: the response to a request, wherever it waits, is sent with REG = 0. -/
def Chip.unregResp (s : Chip) (r : Req) : Chip :=
  let fix := fun f : TxFlit => if f.resp = some (r.host, r.tag) ∧ (f.typ = 1 ∨ f.typ = 4)
    then { f with payload := noReg f.payload } else f
  { s with
    own := s.own.map fun o =>
      if isRespTo r o.pkt.hdr then { o with pkt := { o.pkt with hdr := { o.pkt.hdr with reg := false } } } else o
    held := s.held.map fun h => match h.what with
      | .packet p => if isRespTo r p.hdr then { h with what := .packet { p with hdr := { p.hdr with reg := false } } }
        else h
      | _ => h
    links := s.links.map fun l => (l.1, { l.2 with txq := l.2.txq.map fun q => (q.1, q.2.map fix) }) }

/-- R217: block b is one a recall names. -/
def nameHas (kind what count b : Nat) : Bool :=
  match kind with
  | 0 => b == what
  | 1 => decide (what ≤ b / 32768 ∧ b / 32768 < what + count)
  | _ => setOf b == what

/-- R216: the RDCs of host h that have registered a block a recall names and whose response has not
left. -/
def Chip.openRdcs (s : Chip) (kind what count h : Nat) : List Req :=
  s.prom.reqs.filter fun r => r.host == h && s.accs.any fun a => nameHas kind what count a.b &&
    s.openRdc a.b h a && match a.src with | .req id _ => id == r.id | _ => false

/-- R216: the holders of a block that count as acknowledged in its recall from the start: their RDC's
response has no number yet and is sent with REG = 0. -/
def Chip.earlyOf (s : Chip) (b : Nat) (hs : List Nat) : List Nat :=
  hs.filter fun h => let l := s.openRdcs 0 b 0 h; !l.isEmpty && l.all s.respWhole

/-- R216: their RDCs go on with REG = 0. -/
def Chip.unregister (s : Chip) (b : Nat) (hs : List Nat) : Chip :=
  let rs := hs.flatMap (s.openRdcs 0 b 0)
  let hit : Acc → Bool := fun a => a.b == b && hs.any fun h => s.openRdc b h a
  let n := (s.accs.filter hit).length
  let s := forEach rs (fun r s => s.unregResp r) (s.bumpBy (dirPg + 0x54) n)
  s.updAccs hit fun a => { a with reg := false }

/-- R212, R216: the entry as it stands in recall n: PENDING, without the hosts that counted as
acknowledged from the start. -/
def pendEnt (e : DirEnt) (n : Nat) (early : List Nat) : DirEnt :=
  { e with
    state := 3, rseq := n, ptrs := e.ptrs.filter fun h => !early.contains h
    owner := if early.contains e.owner then 0 else e.owner }

/-- R213, R216: a recall starts: it takes the next sequence number and a tracker entry; for a block
recall a holder whose RDC response has no number yet is served with REG = 0 and counts as acknowledged;
every other holder is sent a RECALL, those whose response is on its way once its last flit has its
number. -/
def Chip.startRecall (s : Chip) (kind what count : Nat) (hs : List Nat) (wide : Bool)
    (after : After) (victim : Option DirEnt) (unres : Bool) : Nat × Chip :=
  let n := nextFree (s.dir.trk.map (·.rseq)) 1025 s.dir.nextRseq
  let early := if kind = 0 then s.earlyOf what hs else []
  let hs := hs.filter fun h => !early.contains h
  let late := hs.filter fun h => !(s.openRdcs kind what count h).isEmpty
  let t : Trk := { rseq := n, kind := kind, what := what, count := count, holders := hs,
                   issue := s.now, wide := wide, after := after, victim := victim,
                   unreserved := unres, late := late }
  let s := if kind = 0 then s.unregister what early else s
  let s := { s with dir.nextRseq := (n + 1) % 65536, dir.trk := s.dir.trk ++ [t] }
  let s := s.setReg (dirPg + 0x88) (BitVec.ofNat 32 n)
  let (off, len) := recallName kind what count
  (n, forEach (hs.filter fun h => !late.contains h) (fun h s => s.sendRecall h n kind off len) s)

/-- R216: the RECALLs that waited for a response go out where it has left. -/
def Chip.sendLate (s : Chip) : Chip :=
  forEach s.dir.trk (fun t s =>
    let go := t.late.filter fun h => (s.openRdcs t.kind t.what t.count h).isEmpty
    let (off, len) := recallName t.kind t.what t.count
    let s := s.updTrk (fun x => x.rseq == t.rseq) fun x => { x with late := x.late.filter fun h => !go.contains h }
    forEach (go.filter t.holders.contains) (fun h s => s.sendRecall h t.rseq t.kind off len) s) s

/-- R221 steps 3 to 5: set d holds no entry; `bad`, where its controller is fenced or its rewrite ended
UE, it becomes DISABLED; its number is recorded and a fault record queued. -/
def Chip.finishLost (s : Chip) (d : Nat) (bad : Bool) : Chip :=
  let s := { s with
    dir.ents := s.dir.ents.filter fun e => !(e.1 / 128 == d),
    dir.lost := s.dir.lost.filter fun x => !(x == d),
    dir.clean := if bad then s.dir.clean else d :: s.dir.clean.filter fun x => !(x == d),
    dir.disabled := if bad then d :: s.dir.disabled.filter (fun x => !(x == d)) else s.dir.disabled,
    dir.cache := KMap.put s.dir.cache [] (d % 256)
      ((KMap.at s.dir.cache [] (d % 256)).filter fun c => !(c.set == d)) }
  let s := s.setReg (dirPg + 0x64) (BitVec.ofNat 32 (d + 2 ^ 31))
  s.fault { faultOf dirPg 1 4 with kind := 13, unit := d, info := d }

/-- R221 step 3: the SET recall of set d is complete: the set is rewritten through port 4, unless its
controller is fenced. -/
def Chip.clearSet (s : Chip) (d : Nat) : Chip :=
  if s.isFenced (.mc (s.ctrlOf (s.setBlock d))) then s.finishLost d true
  else { s with accs := s.accs ++ [s.setAccess d .clear none] }

/-- R201: a recall ends for every revocation that waits for it. -/
def Chip.recallGone (s : Chip) (n : Nat) : Chip :=
  s.updRevs (fun r => r.rcls.contains n) fun r => { r with rcls := r.rcls.filter fun x => !(x == n) }

/-- R210, R212: the recall n of block b ends: its entry, PENDING in it, goes to host h, or INVALID with
none. -/
def Chip.leavePending (s : Chip) (n b : Nat) (h : Option Nat) : Chip :=
  match s.entOf b with
  | some (k, e) =>
    if e.state = 3 ∧ e.rseq = n then s.changeEnt k (match h with
      | some h => { tag := e.tag, state := 2, owner := h }
      | none => {})
    else s
  | none => s

/-- R210, R212: whom the entry of block b belongs to after its recall n: host h if it may still hold the
block, an RDC being looked at anew. -/
def Chip.ownerAfter (s : Chip) (n b h : Nat) : Option Nat :=
  let rdc := s.accs.any fun a => a.phase == .recalling n && a.rdc
  let here := match s.entOf b with | some (_, e) => e.state == 3 && e.rseq == n | none => false
  if here && (if rdc then s.mayRegister h b else s.leaseLive h) then some h else none

/-- R213: a recall is complete: its tracker entry is freed, the entry leaves PENDING, and what waits
on the recall goes on: an access takes its place at its controller, an RDC registered if its host may
be. -/
def Chip.completeRecall (s : Chip) (n : Nat) : Chip :=
  match s.dir.trk.find? fun t => t.rseq == n with
  | none => s
  | some t =>
    let own := match t.after with | .owned h => s.ownerAfter n t.what h | _ => none
    let s := { s with dir.trk := s.dir.trk.filter fun x => !(x.rseq == n) }
    let s := s.recallGone n
    let s := match t.after with
      | .invalid | .owned _ => s.leavePending n t.what own
      | .evicted | .range | .flip _ => s
      | .lostSet d => s.clearSet d
    let mine : Acc → Bool := fun a => a.phase == .recalling n
    let s := if own.isNone then s.bumpBy (dirPg + 0x54) (s.accs.filter fun a => mine a && a.rdc).length else s
    { s with accs := (s.accs.filter fun a => !mine a) ++
        (s.accs.filter mine).map fun a => { a with phase := .ready, reg := a.rdc && own.isSome } }

/-- R213: completes every recall that has no holder left. -/
def Chip.settleRecalls (s : Chip) : Chip :=
  forEach ((s.dir.trk.filter fun t => t.holders.isEmpty).map (·.rseq)) (fun n s => s.completeRecall n) s

/-- R213, R214: a holder of a recall has acknowledged. -/
def Chip.ackHolder (s : Chip) (n h : Nat) : Chip :=
  (s.updTrk (fun t => t.rseq == n)
    fun t => { t with holders := t.holders.filter fun x => !(x == h) }).settleRecalls

/-- R198 step 3: the host is purged: acknowledged in every open recall, removed from every OWNER and
pointer; WIDE entries stay. -/
def purgeEnt (h : Nat) (e : DirEnt) : DirEnt :=
  if e.wide ∨ e.state = 0 ∨ e.state = 3 then e
  else if e.state = 2 then (if e.owner = h then {} else e)
  else
    let ps := e.ptrs.filter fun x => !(x == h)
    if ps.isEmpty then {} else { e with ptrs := ps }

def Chip.purgeHost (s : Chip) (h : Nat) : Chip :=
  let s := forEach (s.dir.ents.filter fun x => !(purgeEnt h x.2 == x.2)) (fun x s => s.changeEnt x.1 (purgeEnt h x.2)) s
  Chip.settleRecalls { s with
    dir.trk := s.dir.trk.map fun t => { t with holders := t.holders.filter fun x => !(x == h) } }

/-- R510: a waiting RANGE or SET recall whose entry and bitmap are free is issued now. -/
def Chip.issueWait (s : Chip) (w : RclWait) : Chip :=
  let hs := if w.kind = 1 then [w.host].filter s.leaseLive else s.liveHosts
  let after := if w.kind = 1 then After.range else After.lostSet w.what
  let (n, s) := s.startRecall w.kind w.what w.count hs (w.kind = 2) after none true
  let s := match w.rev with
    | none => s
    | some r => s.updRevs (fun x => x.id == r) fun x => { x with rcls := x.rcls ++ [n] }
  s.settleRecalls

/-- R510: whether what a waiting recall needs is free. -/
def Chip.waitReady (s : Chip) (w : RclWait) : Bool :=
  decide (0 < s.trkFree) && (w.kind == 1 || decide (0 < s.wideFree))

/-- R217, R221, R510: a RANGE or SET recall starts, or waits for its tracker entry and bitmap. -/
def Chip.askRecall (s : Chip) (w : RclWait) : Chip :=
  if s.waitReady w then s.issueWait w else { s with dir.waits := s.dir.waits ++ [w] }

/-- R221: the state of set d cannot be trusted: its events wait and a SET recall goes out. -/
def Chip.loseSet (s : Chip) (d : Nat) : Chip :=
  if s.dir.lost.contains d ∨ s.dir.disabled.contains d then s
  else
    let s := { s with dir.lost := s.dir.lost ++ [d] }
    let s := s.countErr dirPg 4 1 d false
    s.askRecall ⟨2, d, 0, 0, none⟩

end Sys2Proof.Machine
end

