-- ==== Sys2Proof/Machine/Cluster.lean ====
section
/-! DEFINITION. Access to the parts of a cluster, descriptors as words, and the completion words of
the frog and the copy engines (R56, R62, R121, R127). -/

namespace Sys2Proof.Machine

/-! ## Parts -/

def Chip.cl (s : Chip) (c : Nat) : Cl := KMap.at s.cls {} c

def Chip.setCl (s : Chip) (c : Nat) (x : Cl) : Chip := { s with cls := KMap.put s.cls {} c x }

def Chip.core (s : Chip) (c m : Nat) : Core := KMap.at (s.cl c).cores {} m

def Chip.setCore (s : Chip) (c m : Nat) (x : Core) : Chip :=
  s.setCl c { s.cl c with cores := KMap.put (s.cl c).cores {} m x }

def Chip.frog (s : Chip) (c : Nat) : Frog := (s.cl c).frog

def Chip.setFrog (s : Chip) (c : Nat) (f : Frog) : Chip := s.setCl c { s.cl c with frog := f }

def Chip.eng (s : Chip) (c e : Nat) : Eng := if e = 0 then (s.cl c).eng0 else (s.cl c).eng1

def Chip.setEng (s : Chip) (c e : Nat) (x : Eng) : Chip :=
  s.setCl c (if e = 0 then { s.cl c with eng0 := x } else { s.cl c with eng1 := x })

/-- R500, R501: BLK_CTRL.FREEZE of a page is set. -/
def Chip.frozen (s : Chip) (pg : Nat) : Bool := s.flag (blkCtrl pg) 1

/-! ## Descriptors -/

/-- Bits [hi:lo] of word i of a descriptor. -/
def dw (d : List Word) (i hi lo : Nat) : Nat := Word.bits (d.getD i 0) hi lo

/-- Bit n of word i of a descriptor. -/
def db (d : List Word) (i n : Nat) : Bool := Word.bit (d.getD i 0) n

/-- A byte string as 32-bit words (R6). -/
def wordsOf : List Byte → List Word
  | a :: b :: c :: d :: l => BitVec.ofNat 32 (leNat [a, b, c, d]) :: wordsOf l
  | _ => []

/-- The low bits of a Bool. -/
def b01 (b : Bool) : Nat := if b then 1 else 0

/-! ## Frog completion words -/

/-- R53: the class of a slot occupies both slots. -/
def wideCls (k : Nat) : Bool := decide (k < 2)

def Frog.slot (f : Frog) (i : Nat) : FSlot := if i = 0 then f.s0 else f.s1

/-- R53, R54: the frog with slot i set; both for a class that occupies both. A tile that occupied both
is invalidated where one of a narrower class takes its place. -/
def Frog.setSlot (f : Frog) (i : Nat) (x : FSlot) : Frog :=
  let cut := fun o : FSlot => if wideCls o.cls then { o with valid := false } else o
  if wideCls x.cls then { f with s0 := x, s1 := x }
  else if i = 0 then { f with s0 := x, s1 := cut f.s1 } else { f with s0 := cut f.s0, s1 := x }

/-- R62: accumulators of slot i with SAT set. -/
def Frog.satCount (f : Frog) (i : Nat) : Nat :=
  (f.acc.filter fun e => e.1 / 65536 == i && e.2.2).length

/-- R62: the 16 bytes of a completion word. -/
def cmplBytes (st : Status) (exact badcode badscale : Bool) (opc tag : Nat) (lo hi : Int)
    (sat kcount : Nat) : List Byte :=
  leBytes 16 (stCode st + 16 * b01 exact + 32 * b01 badcode + 64 * b01 badscale + 128 + 256 * opc +
    2 ^ 16 * tag + 2 ^ 32 * unsigned 10 lo + 2 ^ 42 * unsigned 10 hi + 2 ^ 64 * (sat % 65536) +
    2 ^ 96 * (kcount % 2 ^ 32))

/-- R62, R65: the completion word of a descriptor that did not run to its end: OPC, TAG and the slot's
fields, or N for a SCAN in which n states met R38; BADCODE and BADSCALE for what it had read (R26,
R30). -/
def Frog.failBytes (f : Frog) (d : List Word) (st : Status) (n : Nat) (badcode badscale : Bool := false) :
    List Byte :=
  let opc := dw d 0 3 0
  let tag := dw d 1 15 0
  if opc = 2 then cmplBytes st (n == 0 && !db d 0 4) false false opc tag 0 0 n (dw d 2 23 0 + 1)
  else
    let i := dw d 0 5 5
    let x := f.slot i
    cmplBytes st x.exact badcode badscale opc tag x.lo x.hi
      (if dw d 0 7 6 = 2 then 0 else f.satCount i) x.kcount

/-- R66: n bytes from offset a lie within the window FG_WIN_BASE to FG_WIN_LIMIT and the store. -/
def Chip.inWin (s : Chip) (c a n : Nat) : Bool :=
  decide (s.fld (fgPg c + 0x54) 20 0 ≤ a ∧ a + n ≤ s.fld (fgPg c + 0x58) 20 0 + 1 ∧ a + n ≤ 0x200000)

/-- R62, R108: a completion word is posted: counted, and with IRQ = 1 the interrupt pending. -/
def Chip.frogDone (s : Chip) (c : Nat) (d : List Word) : Chip :=
  let s := s.wrapBy (fgPg c + 0x68) 1
  if db d 0 22 then s.setFlag (nwPg c + 0x98) 0 true else s

/-! ## Scans over several clusters (R77 to R81) -/

/-- CHUNKS of a SCAN descriptor. -/
def scanChunks (d : List Word) : Nat := dw d 11 15 8 + 1

/-- R77: a PREFIX scan under SPLIT with more than one chunk uses the gather protocol. -/
def isGather (d : List Word) : Bool :=
  dw d 0 3 0 == 2 && !db d 0 4 && db d 0 5 && decide (1 < scanChunks d)

/-- R77: the head's descriptor: its PEER names its own cluster. -/
def isHead (c : Nat) (d : List Word) : Bool := isGather d && dw d 11 23 16 == c

/-- R81: an abort post to a cluster. -/
def Chip.postAbort (s : Chip) (c dst scan : Nat) (st : Status) : Chip :=
  { s with posts := s.posts ++ [⟨.abort st, c, dst, s.ownerOf c, scan, 0, []⟩] }

/-- R80, R81: the armed carry table is released; aborts go to every cluster that has posted a total
to it. -/
def Chip.releaseTable (s : Chip) (c : Nat) (st : Status) : Chip :=
  let f := s.frog c
  match f.armed with
  | none => s
  | some (_, id) =>
    let srcs := (f.table.filterMap fun e => e.2.map (·.src)).filter fun x => !(x == c)
    let s := forEach srcs (fun d s => s.postAbort c d id st) s
    s.setFrog c { s.frog c with armed := none, table := [] }

/-- R81: the frog leaves a multi-chunk scan descriptor: an abort to PEER, unless PEER is the frog itself,
and a head's aborts. -/
def Chip.leaveScan (s : Chip) (c serial : Nat) (d : List Word) (st : Status) : Chip :=
  if scanChunks d ≤ 1 then s
  else
    let peer := dw d 11 23 16
    let s := if peer = c then s else s.postAbort c peer (dw d 11 31 24) st
    if (s.frog c).armed = some (serial, dw d 11 31 24) then s.releaseTable c st else s

/-! ## Copy completion words (R127) -/

/-- R127: the 8 bytes of a copy completion word. -/
def copyWord (st : Status) (late : Bool) (opc tag blks : Nat) : List Byte :=
  leBytes 8 (stCode st + 16 * b01 late + 128 + 256 * opc + 2 ^ 16 * tag + 2 ^ 32 * blks)

/-! ## Cores -/

/-- R110: the first register of newt m's record. -/
def nwRec (c m : Nat) : Nat := nwRecPg c m + 0x100 + 0x20 * (m % 32)

/-- R109: NW_TRAP_PEND of newt m is set or cleared. -/
def Chip.trapPend (s : Chip) (c m : Nat) (b : Bool) : Chip :=
  s.setFlag (nwPg c + 0x54 + 4 * (m / 32)) (m % 32) b

/-- R110: NW_STATE.STOP of a newt; the cluster control core has no record. -/
def Chip.setStop (s : Chip) (c m v : Nat) : Chip :=
  if m < 128 then s.setFld (nwRec c m) 15 13 v else s

/-- A core holds a dirty line. -/
def Core.dirty (x : Core) : Bool := x.lines.any fun e => match e.2 with
  | some l => l.st == 3
  | none => false

end Sys2Proof.Machine
end

