-- ==== Sys2Proof/Machine/Stop.lean ====
section
/-! DEFINITION. How the units of a cluster stop under a fence, a kill or a reset (R65, R99, R100,
R129). -/

namespace Sys2Proof.Machine

/-- R65: a fenced descriptor posts FENCED, unless its CMPL_PTR fails its range check. -/
def Chip.frogFenced (s : Chip) (c : Nat) (d : List Word) (n : Nat) : Chip :=
  let a := dw d 12 20 0
  if s.inWin c a 16 then
    let s := s.setCl c { s.cl c with
      words := (s.cl c).words ++ [(a, (s.frog c).failBytes d .fenced n)] }
    s.frogDone c d
  else s

/-- R65, R80, R81: the frog stops under a fence, a cluster reset or a context kill: slots invalid, the
queue emptied, scans left with aborts; under a fence each descriptor is answered FENCED. FG_TRAP.TAG
is cleared with the trap's code (log entry 80); the carry-in buffer keeps its post (log entry 81). -/
def Chip.frogStop (s : Chip) (c : Nat) (st : Status) : Chip :=
  let f := s.frog c
  let s := s.setFrog c { f with
    s0 := { f.s0 with valid := false }
    s1 := { f.s1 with valid := false }
    queue := []
    trapped := false
    trapDesc := none
    wait := none
    clash := [] }
  let s := s.setReg (fgPg c + 0x4C) 0
  let s := match f.wait with
    | some w => s.leaveScan c w.serial w.desc st
    | none => s
  let s := s.releaseTable c st
  if st = .fenced then
    let s := match f.wait with
      | some w => s.frogFenced c w.desc w.count
      | none => s
    forEach (f.trapDesc.toList ++ f.queue) (fun q s => s.frogFenced c q.2 0) s
  else s

/-- R129: a copy engine stops: nothing further is issued or read; blocks in flight finish. Under a
fence started descriptors and queued programs are answered when the engine is contained. -/
def Chip.copyStop (s : Chip) (c e : Nat) (st : Status) : Chip :=
  let x := s.eng c e
  let ds := x.descs.map fun d =>
    { d with stop := true, waiting := false, forced := some (d.forced.getD st) }
  let s := { s with accs := s.accs.filter fun a => !(a.src == BlkSrc.walk c e) }
  let s := s.setCl c { s.cl c with walks := (s.cl c).walks.filter fun w => !(w.e == e) }
  if st = .fenced then s.setEng c e { x with
    queue := []
    cur := none
    struck := none
    descs := ds
    heads := x.queue }
  else s.setEng c e { x with
    queue := []
    struck := none
    cur := none
    heads := []
    descs := ds.filter fun d => d.forced == some Status.fenced || !d.fly.isEmpty }

/-- R99, R100, R137: a core stops: 4 fence, 3 kill, 5 reset. A fenced or reset core starts writing
back its dirty lines; the cluster control core is not killed. A kill gives up a miss (log entry 34). -/
def Chip.newtStop (s : Chip) (c m stop : Nat) : Chip :=
  let x := s.core c m
  if x.absent then s
  else match stop with
    | 4 =>
      let s := s.setCore c m { x with
        st := 5
        flush := if x.dirty ∨ x.miss.isSome ∨ x.flush = 2 then 3 else 0
        haltReq := false }
      (if m < 128 then s.trapPend c m true else s).setStop c m 4
    | 3 =>
      if m = 128 ∨ x.flush ≠ 0 ∨ x.st < 2 ∨ 4 < x.st then s
      else
        let s := s.setCl c { s.cl c with
          credits := (s.cl c).credits.filter fun k => !(k.2 == m)
          opens := (s.cl c).opens.filter fun k => !(k.2 == m) }
        let s := s.setCore c m { x with st := 1, haltReq := false, miss := none }
        (if x.st = 4 then s.trapPend c m false else s).setStop c m 3
    | _ =>
      if x.st = 0 ∨ x.flush = 2 then s
      else
        let s := s.setCl c { s.cl c with credits := (s.cl c).credits.filter fun k => !(k.2 == m) }
        (s.setCore c m { x with flush := 2, badDirty := false, haltReq := false }).setStop c m 5

end Sys2Proof.Machine
end

