-- ==== Sys2Proof/Machine/Stage.lean ====
section
/-! DEFINITION. The stages of bring-up and their reports, the floor plan, and how bring-up fails
(R434 to R438, R449). -/

namespace Sys2Proof.Machine

/-! ## The floor plan (R391, R449, R458) -/

/-- R391, R449: cluster c is present; it works. -/
def Chip.clPresent (s : Chip) (c : Nat) : Bool := s.flag (floorPg + 0x40 + 4 * (c / 32)) (c % 32)

def Chip.clWorks (s : Chip) (c : Nat) : Bool := s.clPresent c && !s.fenced1 (.cluster c)

/-- S2 has written the floor plan. -/
def Chip.floorKnown (s : Chip) : Bool := s.reg (floorPg + 0x90) != 0

/-- R98, R449: newt m of cluster c is present. -/
def Chip.newtPresent (s : Chip) (c m : Nat) : Bool := s.floorKnown && !(s.core c m).absent

def Chip.newtCount (s : Chip) (c : Nat) : Nat := ((List.range 128).filter (s.newtPresent c)).length

/-- Present newts of the clusters a test holds for. -/
def Chip.newtSum (s : Chip) (f : Nat → Bool) : Nat :=
  (List.range 208).foldl (fun n c => if f c then n + s.newtCount c else n) 0

/-- The number of clusters a test holds for. -/
def clusterSum (f : Nat → Bool) : Nat := ((List.range 208).filter f).length

/-- R458: GLB_FP_CUNIT.LOAD of cluster c: loaded in S5. -/
def Chip.clLoaded (s : Chip) (c : Nat) : Bool := KMap.at s.boot.units 0 c / 128 % 2 == 1

/-- R179: defect blocks of controller n. -/
def Chip.defects (s : Chip) (n : Nat) : Nat := ((KMap.at s.mcs {} n).poison.filter fun e => e.2).length

/-! ## Stages (R434 to R438) -/

/-- R459: GLB_STAGE.STAGE, and STATE: 0 RUN, 1 READY, 2 FAIL, 3 HOLD. -/
def Chip.stageNo (s : Chip) : Nat := s.fld (stagePg + 0x40) 3 0
def Chip.stageState (s : Chip) : Nat := s.fld (stagePg + 0x40) 5 4

/-- R434: bound of a stage in µs. -/
def stageBound (k : Nat) : Nat := [20000, 350000, 250000, 300000, 400000, 150000, 500000, 100000].getD k 400000

/-- R434: GLB_BOOT_US, in µs of the reference since the start of bring-up. -/
def Chip.bootUs (s : Chip) : Nat := if s.boot.on then (s.ref - s.boot.start) / 1000 else 0

/-- R436: a stage report as its 32 bytes. -/
def reportBytes (k : Nat) (r : Report) : List Byte :=
  leBytes 1 k ++ leBytes 1 r.result ++ leBytes 2 r.detail ++ leBytes 4 r.stop ++ leBytes 4 r.dur ++
  (r.data ++ List.replicate 20 0).take 20

/-- R437: STAGE_DATA of stage k as the state stands. Training of the channel controllers leaves no
state of its own: stage S3 states its counts itself. -/
def Chip.stageData (s : Chip) (k : Nat) : List Byte :=
  let one := fun v : Nat => leBytes 1 v
  match k with
  | 0 => one (s.fld (stagePg + 0x6C) 2 0) ++ one (s.fld (clkPg + 0x40) 6 0)
  | 1 => one (b01 s.boot.copyB) ++ one (b01 s.boot.fallback + 2 * b01 s.boot.manA + 4 * b01 s.boot.manB) ++
      one s.boot.keyslot ++ one 0 ++ leBytes 4 s.boot.svn ++ leBytes 2 (s.fld (rtPg + 0x40) 11 0)
  | 2 =>
    let links := ((List.range 96).filter fun l => s.flag (floorPg + 0xB0 + 4 * (l / 32)) (l % 32)).length
    let lanes := ((List.range 8).filter fun e => s.flag (floorPg + 0xBC) e).length
    one (clusterSum s.clPresent) ++ one 0 ++ leBytes 2 (s.newtSum s.clPresent) ++ one links ++ one lanes
  | 3 => one (s.fld (memPg + 0x40) 1 0)
  | 4 =>
    let most := (List.range 256).foldl (fun b n => if s.defects b < s.defects n then n else b) 0
    leBytes 4 ((List.range 256).map s.defects).sum ++ leBytes 2 most ++ one (s.defects most)
  | 5 => one (clusterSum s.clLoaded) ++ one 0 ++ leBytes 2 (s.newtSum s.clLoaded)
  | 6 =>
    let up := ((List.range 96).filter fun l => s.fld (lkPg l + 0x44) 2 0 == 4).length
    one up ++ one (s.fld (ftPg + 0x48) 1 0) ++ one (s.fld (ftPg + 0x48) 13 9)
  | 7 => one (s.fld (enPg + 0x44) 1 0) ++ one (s.fld (enPg + 0x44) 2 2)
  | _ => one (s.fld (attPg + 0x74) 2 1) ++ one 0 ++ leBytes 2 0 ++ s.att.mboot.take 8

/-- R436, R474: the current stage ends: its report is written and sent on the chain. -/
def Chip.endStage (s : Chip) (result detail : Nat) (data : List Byte) : Chip :=
  let k := s.stageNo
  let r : Report := { result := result, detail := detail, stop := s.bootUs
                      dur := (s.ref - s.boot.stageStart) / 1000, data := data }
  (Chip.chainSend { s with boot.reports := KMap.put s.boot.reports {} k r } 7 none (reportBytes k r)).2

/-- R435, R475: the current stage fails: bring-up ends in FAIL, every lane in electrical idle. -/
def Chip.failStage (s : Chip) (result detail : Nat) (data : List Byte) : Chip :=
  let s := (s.endStage result detail data).setFld (stagePg + 0x40) 5 4 2
  let s := forEach (List.range 96) (fun l s => s.setFld (lkPg l + 0x44) 2 0 0) s
  (s.setFld (enPg + 0x44) 1 0 0).chainCond 0

end Sys2Proof.Machine
end

