-- ==== Sys2Proof/Machine/Contain.lean ====
section
/-! DEFINITION. Containment: how accepted requests end with a failure status, fences with their
effects and records, errors that meet, and lifting a fence (R385 to R395, R13). -/

namespace Sys2Proof.Machine

/-! ## Requests that end by a cause -/

/-- R226: a publish that has reached T_f. -/
def flipped (r : Req) : Bool := r.kind == .publish && r.dispatched

/-- R13, R226, R250: every accepted request without an outcome that satisfies p gets the status of a
cause that strikes now, but for a publish that has flipped; its blocks that have not been served are neither read nor written. -/
def Chip.endReqs (s : Chip) (p : Req → Bool) (st : Status) : Chip :=
  let hit := fun r : Req => !r.sent && !flipped r && p r
  let ids := (s.prom.reqs.filter hit).map (·.id)
  let s := s.updReqs hit fun r => { r with fixed := fixStatus r.fixed s.now st }
  { s with accs := s.accs.filter fun a => match a.src with
      | .req id _ => !(ids.contains id && a.phase != .served)
      | _ => true }

/-- R13, R226, R251: the accepted requests that satisfy p find their port down or fenced: those without an
earlier failure end with a status, FENCED, or RESET for a reset of the port. -/
def Chip.cutReqs (s : Chip) (p : Req → Bool) (st : Status) : Chip :=
  (s.endReqs p st).updReqs (fun r => p r && !r.sent) fun r => { r with cut := true }

/-! ## Responses that wait for a link (R266) -/

def byteAt (p : List Byte) (k : Nat) : Nat := (p.getD k 0).toNat

/-- What becomes of a packet none of whose flits has a number. -/
inductive Fate where
  | stays
  /-- one flit takes its place -/
  | becomes (f : TxFlit)
  | goes
deriving DecidableEq, Repr

/-- R266: a VC's queue after every packet in it met its fate, by its first flit; flits of a packet already
started come first and stay. -/
def cutQueue (g : TxFlit → Fate) : (stays : Bool) → List TxFlit → List TxFlit
  | _, [] => []
  | stays, f :: q =>
    if f.typ = 1 ∨ f.typ = 4 then
      match g f with
      | .stays => f :: cutQueue g true q
      | .becomes h => h :: cutQueue g false q
      | .goes => cutQueue g false q
    else if stays then f :: cutQueue g true q
    else cutQueue g false q

/-- R251, R266, R298: a response with another status and no data. -/
def statusFlit (st : Status) (f : TxFlit) : TxFlit :=
  let p := f.payload
  let hd := p.take 3 ++ [BitVec.ofNat 8 (byteAt p 3 % 16)] ++ (p.drop 4).take 6 ++
    [BitVec.ofNat 8 (byteAt p 10 % 8 + 8 * stCode st), 0] ++ List.replicate 20 0
  { f with typ := 4, flits := 1, payload := hd }

/-- R13, R226, R251, R266: a response that holds a reservation ends with a status, unless it failed before
or is that of a flipped publish; it is to leave by its T_d. -/
def cutFate (st : Status) (f : TxFlit) : Fate :=
  match f.resv with
  | none => .stays
  | some t => .becomes { (if t.firm then f else statusFlit st f) with resv := some { t with replaced := true } }

/-- R266: the responses that wait for link l end with a status. -/
def Chip.cutLink (s : Chip) (l : Nat) (st : Status) : Chip :=
  let x := KMap.at s.links {} l
  { s with links := KMap.put s.links {} l { x with
      txq := x.txq.map fun e => (e.1, cutQueue (cutFate st) true e.2) } }

/-- R234: the request holds a reserved slot on controller n. -/
def Chip.needsMc (s : Chip) (n : Nat) (r : Req) : Bool :=
  r.promise && s.prom.ch.any fun c => c.owner == r.id && c.n == n

/-- R234: the request holds cluster c. -/
def Chip.needsCl (s : Chip) (c : Nat) (r : Req) : Bool :=
  r.promise && s.prom.cl.any fun x => x.owner == r.id && x.cluster == c

/-- R404: a check-value unit's streams end with a status: the running one and every queued one. -/
def Chip.cvEnd (s : Chip) (u : Nat) (st : Status) : Chip :=
  let cv := KMap.at s.errs.cvs {} u
  let n := cv.queue.length + (if cv.run.isSome then 1 else 0)
  if n = 0 then s
  else
    let s := { s with errs.cvs := KMap.put s.errs.cvs {} u {}
                      accs := s.accs.filter fun a => match a.src with
                        | .cv v _ => !(v == u)
                        | _ => true }
    (s.setReg (cvPg u + 0x5C) (BitVec.ofNat 32 (stCode st))).wrapBy (cvPg u + 0x68) n

/-- R177: every block in progress on controller n answers FENCED; copies of a region or for a joining chip,
check-value streams and the directory's own accesses learn it in the next slot. -/
def Chip.failAccs (s : Chip) (n : Nat) (st : Status) : Chip :=
  let hit := fun a : Acc =>
    (match a.phase with | .ready | .rmw _ => true | _ => false) && s.ctrlOf a.pb == n &&
    (match a.src with | .region _ _ | .cv _ _ | .set _ _ | .join _ => false | _ => true)
  let ids := (s.accs.filter hit).filterMap fun a => match a.src with
    | .req id _ => some id
    | _ => none
  (s.endReqs (fun r => ids.contains r.id) st).updAccs hit fun a => { a with phase := .served, st := st }

/-- R208, R221: the sets whose map bit may be 1: those that hold an entry, those of an entry that recalls
from the tracker, those of a word rewritten to ones. -/
def Chip.markedSets (s : Chip) : List Nat :=
  let used := s.dir.ents.map fun e => e.1 / 128
  let old := s.dir.trk.filterMap fun t => t.victim.map fun v => setOf v.tag
  let ones := s.dir.mapOnes.flatMap fun w => (List.range 32).map (32 * w + ·)
  (used ++ old ++ ones).eraseDups

/-- R221: at the fence tick of controller n every set whose block lies on it and whose map bit is 1 is
lost; the others become DISABLED, until the next bring-up. -/
def Chip.loseSetsOf (s : Chip) (n : Nat) : Chip :=
  let ds := s.markedSets.filter fun d => s.ctrlOf (s.setBlock d) == n && s.mapBit d
  let s := forEach ds (fun d s => s.loseSet d) s
  { s with dir.offCtl := n :: s.dir.offCtl.filter fun x => !(x == n) }

/-! ## Fences -/

/-- R137, R388: a cluster's cores, frog and engines stop. -/
def Chip.clusterStop (s : Chip) (c : Nat) (st : Status) (stop : Nat) : Chip :=
  let s := forEach (List.range 129) (fun m s => s.newtStop c m stop) s
  let s := s.frogStop c st
  (s.copyStop c 0 st).copyStop c 1 st

/-- R387, R388, R391: the fence of one unit: FSTATE, the cause, its effects and its failure tick. The
partition's clusters are not followed here. -/
def Chip.fenceUnit (s : Chip) (u : UnitId) (cause : Cause) : Chip :=
  if s.fenced1 u then s
  else
    let s := s.pairFence u
    let s := { s with errs.fences := s.errs.fences ++ [FenceRec.mk u cause s.now false false] }
    let s := match u with
      | .newt _ _ => s
      | .part _ | .cv _ => s.setFld (blkStat (unitPg u)) 4 0 (1 + 4 * causeCode cause)
      | _ =>
        let s := s.setFld (blkStat (unitPg u)) 4 0 (1 + 4 * causeCode cause)
        { s with errs.failTick := (u, s.now) :: s.errs.failTick.filter fun x => !(x.1 == u) }
    match u with
    | .newt c m => s.newtStop c m 4
    | .frog c => s.frogStop c .fenced
    | .copy c e => s.copyStop c e .fenced
    | .cluster c => (s.endReqs (s.needsCl c) .fenced).clusterStop c .fenced 4
    | .mc n =>
      let s := s.endReqs (s.needsMc n) .fenced
      let s := s.failAccs n .fenced
      let s := s.setFlag (memPg + 0x88 + 4 * (n / 32)) (n % 32) true
      let s := s.setFld (mcPg n + 0x40) 2 0 3
      s.loseSetsOf n
    | .link l => (s.cutReqs (fun r => r.port == l) .fenced).cutLink l .fenced
    | .eth => (s.cutReqs (fun r => r.port == 96) .fenced).setFld (enPg + 0x44) 1 0 0
    | .cv n => s.cvEnd n .fenced
    | .part p => s.endReqs (fun r => r.promise && r.part == p) .fenced

/-- R388: the clusters of a partition's contexts. -/
def Chip.clustersOf (s : Chip) (p : Nat) : List Nat :=
  (s.parts.owner.filter fun e => match e.2 with
    | some x => x / 32 == p
    | none => false).map (·.1)

/-- R394: every unit-state copy unlike BLK_STAT is rewritten and counted. -/
def Chip.reconcile (s : Chip) : Chip :=
  let n := s.errs.stale.length
  let s := { s with errs.stale := [] }
  forEach (List.range n) (fun _ s => (s.countErr fqPg 1 0 0 true).bump (fqPg + 0x78)) s

/-- R394, R398: the triad rewrites the copies of a unit's state at its fence and at its lift, after
comparing them; a word an injection strikes with two flipped bits disagrees. -/
def Chip.writeCopies (s : Chip) (u : UnitId) : Chip :=
  let (n, s) := s.reconcile.strike fqPg
  if n = 2 then { s with errs.stale := s.errs.stale ++ [u] } else s

/-- R387, R388: the fence of a unit; a partition's fence fences every cluster of its contexts. -/
def Chip.fenceAll (s : Chip) (u : UnitId) (cause : Cause) : Chip :=
  let s := (s.fenceUnit u cause).writeCopies u
  match u with
  | .part p => forEach (s.clustersOf p) (fun c s => s.fenceUnit (.cluster c) .widen) s
  | _ => s

/-- R399: the partition charged with a unit's record: that of the context that owns its cluster, or
the partition itself. -/
def Chip.chargedPart (s : Chip) : UnitId → Nat
  | .newt c _ => ((s.ownerOf c).getD 0) / 32
  | .frog c => ((s.ownerOf c).getD 0) / 32
  | .copy c _ => ((s.ownerOf c).getD 0) / 32
  | .cluster c => ((s.ownerOf c).getD 0) / 32
  | .part p => p
  | _ => 0

/-- R386: the class of a fence: UE-PARTITION for a partition, unless it was ordered. -/
def fenceClass (u : UnitId) (cause : Cause) : Nat :=
  match u with
  | .part _ => if cause = .order then 1 else 2
  | _ => 1

/-- R399: a fault record about a unit. -/
def Chip.unitRecord (s : Chip) (u : UnitId) (cause : Cause) (pg bit info : Nat)
    (inj widen second : Bool) : Chip :=
  s.fault { faultOf pg (fenceClass u cause) bit with
    inj := inj, widen := widen, second := second, cause := causeCode cause,
    kind := (unitKind u).1, unit := (unitKind u).2, part := s.chargedPart u, info := info }

/-- R399, R474: the fault record of a fence, and its STATE frame. -/
def Chip.fenceRecord (s : Chip) (u : UnitId) (cause : Cause) (pg bit info : Nat)
    (inj widen second : Bool) : Chip :=
  let n := s.errs.nextSeq
  let s := s.unitRecord u cause pg bit info inj widen second
  s.sendState 1 (faultBytes { faultOf pg (fenceClass u cause) bit with
    tick := s.now, seq := n, inj := inj, widen := widen, second := second, cause := causeCode cause,
    kind := (unitKind u).1, unit := (unitKind u).2, part := s.chargedPart u, info := info })

/-- R387: a unit is fenced and its record queued. -/
def Chip.fence (s : Chip) (u : UnitId) (cause : Cause) (pg bit : Nat) (inj : Bool) : Chip :=
  (s.fenceAll u cause).fenceRecord u cause pg bit 0 inj false false

/-- R393: the scopes a unit lies in, itself first. -/
def Chip.chainOf (s : Chip) (u : UnitId) : List UnitId :=
  match s.scopeOf u with
  | none => [u]
  | some w => match s.scopeOf w with
    | none => [u, w]
    | some v => [u, w, v]

/-- R393: the fence in HANDLING that an error in a unit strikes: the unit's, or that of the widest scope
around it. -/
def Chip.handling (s : Chip) (u : UnitId) : Option FenceRec :=
  (s.chainOf u).reverse.findSome? fun w => s.errs.fences.find? fun f => f.unit == w && !f.contained

/-- R386, R392, R393: an uncorrected error of class 1 in a unit, detected by page pg as bit: in a
contained scope it is counted only, and so in the tick of its own fence; in a unit in HANDLING it
widens the fence one scope, or where there is none is recorded as a second error; else it fences the
unit. -/
def Chip.unitError (s : Chip) (u : UnitId) (cause : Cause) (pg bit info : Nat) (inj : Bool) : Chip :=
  let s := s.countErr pg bit 1 info inj
  if s.isContained u then s
  else match s.handling u with
    | none => s.fence u cause pg bit inj
    | some f =>
      if f.tx = s.now then s
      else match s.scopeOf f.unit with
        | some w => (s.fenceAll w .widen).fenceRecord w .widen pg bit 0 inj true true
        | none => s.unitRecord f.unit f.cause pg bit 0 inj false true

/-- R387: the fence of BLK_CTRL.FENCE, with cause ORDER. A unit already fenced stays as it is. -/
def Chip.orderFence (s : Chip) (u : UnitId) : Chip :=
  if s.fenced1 u then s else s.fence u .order (unitPg u) 0 false

/-- R387, R388: the unit is contained: FSTATE reads FENCED. -/
def Chip.markContained (s : Chip) (u : UnitId) : Chip :=
  let s := { s with errs.fences := updWhere s.errs.fences (fun f => f.unit == u)
                                     (fun f => { f with contained := true }) }
  match u with
  | .newt _ _ => s
  | _ => s.setFld (blkStat (unitPg u)) 1 0 2

/-- R390: a reset of a unit's own scope has completed: recorded for every fence of the units it
covers that is older. -/
def Chip.resetDoneFor (s : Chip) (p : UnitId → Bool) : Chip :=
  { s with errs.fences := updWhere s.errs.fences (fun f => p f.unit)
                            (fun f => { f with resetDone := true }) }

/-- R390: the fence of a unit is lifted: FSTATE returns to SERVICE and the unit to admission, with
room from the next cell that has not entered the horizon. -/
def Chip.liftFence (s : Chip) (u : UnitId) : Chip :=
  let s := { s with errs.fences := s.errs.fences.filter fun f => !(f.unit == u)
                    prom.lifted := (u, s.now) :: s.prom.lifted.filter fun x => !(x.1 == u) }
  let s := match u with
    | .newt _ _ => s
    | _ => s.setFld (blkStat (unitPg u)) 4 0 0
  let s := s.sendState 2 (faultBytes { faultOf 0 0 0 with
    tick := s.now, src := 0, kind := (unitKind u).1, unit := (unitKind u).2 })
  let s := s.writeCopies u
  match u with
  | .mc n => (s.setFlag (memPg + 0x88 + 4 * (n / 32)) (n % 32) false).setFld (mcPg n + 0x40) 2 0 2
  | .eth => s.setFld (enPg + 0x44) 1 0 1
  | _ => s

/-- R395, R421, R435: a UE-CHIP error: counted, recorded and reported; the chip reset follows, or,
before READY, the current stage of bring-up fails. -/
def Chip.chipError (s : Chip) (pg bit : Nat) (inj : Bool) : Chip :=
  let s := s.countErr pg bit 3 0 inj
  let n := s.errs.nextSeq
  let s := s.fault { faultOf pg 3 bit with inj := inj }
  let s := s.sendState 3 (faultBytes { faultOf pg 3 bit with inj := inj, tick := s.now, seq := n })
  let s := if s.paired then s.alertOut else s
  if s.stageState = 1 then
    if s.errs.chipUe.isSome then s else { s with errs.chipUe := some s.now }
  else if s.boot.on ∧ s.stageState ≠ 2 then s.failStage 2 0 (s.stageData s.stageNo)
  else s

end Sys2Proof.Machine
end

