-- ==== Sys2Proof/Machine/Answer.lean ====
section
/-! DEFINITION. How the chip answers: shaped egress (R323), XHT sessions, channel windows and
datagrams (R340 to R352), and the guard every command passes. -/

namespace Sys2Proof.Machine

/-- R361: a TIME response as it leaves: VALUE holds the time. -/
def timeNow (t : Nat) : Out → Out
  | .time r d => .xht r { d with hdr := { d.hdr with word3 := t % 2 ^ 32, word4 := t / 2 ^ 32 % 2 ^ 32 } }
  | o => o

/-- R359: an AUDIT record of the request that an SVC_RESP answers, with the tick at which that left. -/
def auditAt (h : XhtHdr) (t : Nat) (b : List Byte) : List Byte :=
  if b.take 4 = leBytes 4 h.seq ∧ (b.drop 40).take 1 = leBytes 1 h.session
  then b.take 16 ++ leBytes 8 t ++ b.drop 24 else b

/-- R359: the AUDIT record that waits for the port takes the tick at which its SVC_RESP leaves. -/
def Chip.auditTick (s : Chip) : Out → Chip
  | .xht _ ⟨h, _⟩ =>
    if h.typ = 7 ∧ h.dup = false ∧ s.held ≠ [] then
      let held := fun x : Held => match x.what with
        | .xht r a => if a.hdr.typ = 11 ∧ a.hdr.retx = false
          then { x with what := .xht r { a with payload := auditAt h s.now a.payload } } else x
        | _ => x
      let waits := fun b : List Byte => s.held.any fun x => match x.what with
        | .xht _ a => a.hdr.typ == 11 && !a.hdr.retx && a.payload == b
        | _ => false
      let kept := fun m : MsgQ =>
        let fix := fun x : Msg => if waits x.body then { x with body := auditAt h s.now x.body } else x
        { m with unacked := m.unacked.map fix }
      { s with held := s.held.map held, eth.au := s.eth.au.map fun e => (e.1, kept e.2) }
    else s
  | _ => s

/-- R336, R364, R422: a frame leaves the Ethernet port; a response that a pause held past its T_d is
counted; an output of the pair without a reservation is entered now. -/
def Chip.ethLeave (s : Chip) (o : Out) (td : Option Nat) : Chip :=
  let o := timeNow s.now o
  let s := ((s.auditTick o).wrapBy (enPg + 0xC8) 1).emit o
  match td with
  | some t => if t < s.now then (s.bump (enPg + 0xAC)).notice enPg 4 else s
  | none => s.enterOut o (s.causeOf o) none

/-- R339, R416: a frame may leave now, and whether it overruns its gate. -/
def Chip.ethNow (s : Chip) (part len : Nat) (o : Out) (td : Option Nat) : Bool × Bool :=
  if td.isNone && s.unacked o (s.causeOf o) then (false, false) else s.ethMay part len o td

/-- R329: a packet that overruns its gate is counted. -/
def Chip.overrun (s : Chip) (eth : Bool) : Chip := (s.bump (gatePg eth + 0x60)).notice (gatePg eth) 1

/-- R419, R422: what a chip that does not act lets leave: nothing of the pair's outputs. -/
def Chip.silent (s : Chip) (o : Out) : Bool := s.mutes && pairOutput o

/-- R339: the frames without a reservation that wait for the port, by strict priority, queue 7 highest. -/
def Chip.ethWaits (s : Chip) : List Held :=
  [7, 6, 5, 4, 3, 2, 1, 0].flatMap fun q => s.held.filter fun h =>
    h.free && h.port == 96 && h.td.isNone && (s.ethQueue h.what).1 == q

/-- R339: a frame without a reservation finds no room in the cell, or one of no lower priority waits for
room. -/
def Chip.ethFull (s : Chip) (len : Nat) (o : Out) : Bool :=
  !s.ethRoom len || s.ethWaits.any fun h => decide ((s.ethQueue o).1 ≤ (s.ethQueue h.what).1) &&
    (s.ethNow h.part h.len h.what none).1

/-- R233, R329, R339: a frame leaves; without a reservation it takes room of the cell. -/
def Chip.ethGo (s : Chip) (len : Nat) (o : Out) (td : Option Nat) (ovr : Bool) : Chip :=
  let s := if td.isSome then s else s.useEthRoom len
  (if ovr then s.overrun true else s).ethLeave o td

/-- R327, R339: a frame that is through its shaper, or needs none, leaves once its priority is not
paused, its gate lets it start and the cell has room for it; td is the T_d of a response that holds a
reservation. -/
def Chip.ethOut (s : Chip) (part len : Nat) (o : Out) (td : Option Nat) : Chip :=
  let wait : Chip := { s with held := s.held ++ [⟨96, part, len, o, true, td⟩] }
  match s.ethNow part len o td with
  | (true, ovr) => if td.isNone && s.ethFull len o then wait else s.ethGo len o td ovr
  | (false, _) => wait

/-- R419: a frame of the pair's outputs leaves only a chip that acts. -/
def Chip.ethSend (s : Chip) (part len : Nat) (o : Out) (td : Option Nat) : Chip :=
  if s.silent o then s.keep o (s.causeOf o) td.isSome else s.ethOut part len o td

/-- R339: the frames of a list that wait for the port are tried again, in order, until one without a
reservation finds no room in the cell. -/
def Chip.ethRetry (s : Chip) : List Held → Chip
  | [] => s
  | h :: l => match s.ethNow h.part h.len h.what h.td with
    | (true, ovr) =>
      if h.td.isNone && !s.ethRoom h.len then s
      else (Chip.ethGo { s with held := s.held.erase h } h.len h.what h.td ovr).ethRetry l
    | (false, _) => s.ethRetry l

/-- R339: the frames that wait for the port are tried again, reserved ones first. -/
def Chip.flushEth (s : Chip) : Chip :=
  (s.ethRetry (s.held.filter fun h => h.free && h.port == 96 && h.td.isSome)).ethRetry s.ethWaits

/-- R422: the answer of a MGMT or TIME message is chip-local: its cause is no input of the pair. -/
def Chip.forgetId (s : Chip) (q : CmdReq) : Chip :=
  { s with duo.ids := s.duo.ids.filter fun e => !(e.1 == xhtId q.session q.chan q.seq) }

/-- R323: something the chip sends for a partition without a reservation: while its shaper is on it
waits there, else it goes on. -/
def Chip.egress (s : Chip) (port part len : Nat) (o : Out) : Chip :=
  let sh := KMap.at s.shapers {} (64 * port + part)
  if sh.en then
    let s := { s with held := s.held ++ [⟨port, part, len, o, false, none⟩] }
    match sh.entry with
    | some _ => s
    | none =>
      let sh := { sh with
        entry := some (s.now / 8 + 1)
        count := min (sh.count + 1) 0xFFFFFFFF }
      { s with shapers := KMap.put s.shapers {} (64 * port + part) sh }
  else if port = 96 then s.ethSend part len o none
  else s.emit o

/-! ## Sessions (R344) -/

def Chip.sessRec (s : Chip) (i : Nat) : List Word := KMap.at s.eth.sess (List.replicate 8 0) i

/-- Word k of session record i. -/
def Chip.sessW (s : Chip) (i k : Nat) : Word := (s.sessRec i).getD k 0

/-- R344, R365: session i is VALID; a record with an uncorrectable word is handled as not VALID. -/
def Chip.sessValid (s : Chip) (i : Nat) : Bool :=
  Word.bit (s.sessW i 0) 0 && !s.eth.sessBad.contains i

def Chip.sessPart (s : Chip) (i : Nat) : Nat := Word.bits (s.sessW i 0) 9 4
def Chip.sessHost (s : Chip) (i : Nat) : Nat := Word.bits (s.sessW i 0) 23 10

/-- The VALID sessions. -/
def Chip.sessions (s : Chip) : List Nat :=
  (s.eth.sess.map (·.1)).filter s.sessValid

/-- R344: the session that owns command channel c of partition p. -/
def Chip.chanOwner (s : Chip) (p c : Nat) : Option Nat :=
  s.sessions.find? fun i => s.sessPart i == p && Word.bit (s.sessW i 3) (16 + c)

/-- R344: the audit session of partition p. -/
def Chip.auditSess (s : Chip) (p : Nat) : Option Nat :=
  s.sessions.find? fun i => s.sessPart i == p && Word.bit (s.sessW i 0) 3

/-- R362: the session bound to a host. -/
def Chip.hostSess (s : Chip) (h : Nat) : Option Nat := s.sessions.find? fun i => s.sessHost i == h

/-! ## Windows (R346, R347) -/

/-- The window of a channel of a session: the data channel's, or the command channel's of its
partition. -/
def Chip.winOf (s : Chip) (i chan : Nat) : SeqWin :=
  if chan < 16 then KMap.at s.eth.cmdWin {} (16 * s.sessPart i + chan)
  else KMap.at s.eth.dataWin {} i

def Chip.setWin (s : Chip) (i chan : Nat) (w : SeqWin) : Chip :=
  if chan < 16 then { s with eth.cmdWin := KMap.put s.eth.cmdWin {} (16 * s.sessPart i + chan) w }
  else { s with eth.dataWin := KMap.put s.eth.dataWin {} i w }

/-- R347: the entry a window records for a SEQ. -/
def winEnt (w : SeqWin) (seq : Nat) : Option WinEnt := w.ents.find? fun e => e.seq == seq

/-- R347: an entry is recorded, replacing what the window held for its SEQ. -/
def winRecord (w : SeqWin) (e : WinEnt) : SeqWin :=
  { w with ents := (w.ents.filter fun x => !(x.seq == e.seq)) ++ [e] }

/-- R347: a request of a session's channel is recorded, pending or with its outcome. -/
def Chip.record (s : Chip) (i chan seq : Nat) (sent : Bool) (st : Status) (res : Nat) : Chip :=
  s.setWin i chan (winRecord (s.winOf i chan) ⟨seq, sent, st, res⟩)

/-! ## Datagrams the chip sends -/

/-- A datagram header with every field 0 but VER and LAST (R340). -/
def xhdr0 : XhtHdr :=
  { typ := 0, ver := 1, dup := false, last := true, retx := false, hasValue := false, session := 0,
    chan := 0, seq := 0, tag := 0, cls := 0, status := 0, word3 := 0, word4 := 0, len := 0,
    foff := 0, rsvdZero := true }

/-- R335, R344: length of the frame that carries n payload bytes to the address of a session record, from
the destination address to the FCS: Ethernet 14, tag 4, IPv4 20 or IPv6 40, UDP 8, XHT 32, FCS 4. -/
def frameTo (ws : List Word) (n : Nat) : Nat :=
  14 + (if Word.bit (ws.getD 0 0) 24 then 4 else 0) + (if Word.bit (ws.getD 0 0) 1 then 40 else 20) +
  8 + 32 + n + 4

def Chip.frameLen (s : Chip) (i n : Nat) : Nat := frameTo (s.sessRec i) n

/-- R345: HOST, PART, RIP or RPORT differ. -/
def sessMoved (a b : List Word) : Bool :=
  let w := fun (l : List Word) k => l.getD k 0
  Word.bits (w a 0) 23 4 != Word.bits (w b 0) 23 4 || a.drop 4 != b.drop 4 ||
  Word.bits (w a 1) 31 16 != Word.bits (w b 1) 31 16

/-- R323: a datagram to session i that holds no reservation. -/
def Chip.xhtSend (s : Chip) (i : Nat) (h : XhtHdr) (payload : List Byte) : Chip :=
  s.egress 96 (s.sessPart i) (s.frameLen i payload.length)
    (.xht (s.sessRec i) ⟨{ h with session := i, len := payload.length }, payload⟩)

/-- R352: the RESP of a command or another message without a promise. -/
def respHdr (q : CmdReq) (st : Status) (res : Nat) : XhtHdr :=
  { xhdr0 with typ := 2, chan := q.chan, seq := q.seq, tag := q.tag, status := stCode st, word3 := res }

/-- R347, R352: a command has been carried out: its entry records the outcome and its RESP leaves. -/
def Chip.cmdAnswer (s : Chip) (q : CmdReq) (st : Status) (res : Nat) : Chip :=
  (s.record q.session q.chan q.seq true st res).xhtSend q.session (respHdr q st res) []

/-- R375, R388: an answer given before the command is carried out leaves its entry unseen. -/
def Chip.cmdTurnAway (s : Chip) (q : CmdReq) (st : Status) : Chip :=
  s.xhtSend q.session (respHdr q st 0) []

/-- R347: a command is recorded while its outcome is pending. -/
def Chip.cmdPending (s : Chip) (q : CmdReq) : Chip :=
  s.record q.session q.chan q.seq false .ok 0

/-- R354, R336: a datagram of a channel leaves the ingress buffer toward its handling. -/
def Chip.leaveIngress (s : Chip) (q : CmdReq) : Chip :=
  { s with eth.ingress := s.eth.ingress.eraseP fun e =>
      e.session == q.session && e.chan == q.chan && e.seq == q.seq }

/-- R347: the DUP answer to a recorded request whose outcome was sent: RESP, or SVC_RESP; type of the
answer, entry. -/
def Chip.dupAnswer (s : Chip) (q : CmdReq) (typ : Nat) (e : WinEnt) : Chip :=
  (s.bump (enPg + 0xC0)).xhtSend q.session
    { respHdr q e.st e.result with typ := typ, dup := true } []

/-- R347: a request whose entry is recorded: answered with DUP when its outcome was sent, else
discarded. -/
def Chip.recorded (s : Chip) (q : CmdReq) (typ : Nat) : Option Chip :=
  (winEnt (s.winOf q.session q.chan) q.seq).map fun e => if e.sent then s.dupAnswer q typ e else s

/-- R378: partition p is being reset. -/
def Chip.partResetting (s : Chip) (p : Nat) : Bool := (KMap.at s.parts.resetting none p).isSome

/-- R347, R351, R352, R375, R388: what a command on a command channel meets before it is carried out. A
session that is not VALID has no credentials; the commands of a fenced partition answer FENCED, those
of one in reset RESET; a command marked "0 only" answers NO_ACCESS on a session of another partition,
and so does a command on a channel its session does not own or on the data channel. -/
def Chip.turnedAway (s : Chip) (q : CmdReq) (only0 : Bool) : Option Chip :=
  let p := s.sessPart q.session
  if s.sessValid q.session = false then some s
  else if (s.recorded q 2).isSome then s.recorded q 2
  else if s.isFenced (.part p) then some (s.cmdTurnAway q .fenced)
  else if s.partResetting p then some (s.cmdTurnAway q .reset)
  else if 16 ≤ q.chan ∨ s.chanOwner p q.chan ≠ some q.session ∨ (only0 ∧ p ≠ 0)
  then some (s.cmdAnswer q .noAccess 0)
  else none

/-- R350: a datagram of the command's channel arrived before it and is not handled yet. -/
def Chip.behind (s : Chip) (q : CmdReq) : Bool :=
  let mine := fun e : InFrame => e.session == q.session && e.chan == q.chan
  (s.eth.ingress.takeWhile fun e => !(mine e && e.seq == q.seq)).any mine

/-- R350, R378: a command waits in its channel: an earlier one of the channel is not answered yet. -/
def Chip.mustWait (s : Chip) (q : CmdReq) : Bool :=
  let w := s.winOf q.session q.chan
  s.sessValid q.session && decide (q.chan < 16) && (winEnt w q.seq).isNone &&
  ((w.ents.any fun e => !e.sent) || s.behind q)

/-- R350, R351, R415: a command is carried out by f with the credentials of its session's partition,
unless it is turned away; while an earlier command of its channel is carried out it stays where it
is. -/
def Chip.command (s : Chip) (q : CmdReq) (only0 : Bool) (f : Nat → Chip → Chip) : Chip :=
  if s.mustWait q then s
  else s.turnOf (xhtId q.session q.chan q.seq) fun s =>
    let s := s.leaveIngress q
    match s.turnedAway q only0 with
    | some s => s
    | none => f (s.sessPart q.session) s

/-- R470, R472: the chip is RETIRING or RETIRED. -/
def Chip.retiring (s : Chip) : Bool := decide (s.fld (chPg + 0x44) 1 0 ≠ 0)

/-- R472: a command that a chip out of SERVICE answers NO_ACCESS. -/
def Chip.grantCommand (s : Chip) (q : CmdReq) (only0 : Bool) (f : Nat → Chip → Chip) : Chip :=
  s.command q only0 fun p s => if s.retiring then s.cmdAnswer q .noAccess 0 else f p s

end Sys2Proof.Machine
end

