-- ==== Sys2Proof/Machine/Rights.lean ====
section
/-! DEFINITION. Rights in the pool: extents, the isolation range table in its two copies, leases,
commit ticks and revocations (R184 to R205). -/

namespace Sys2Proof.Machine

/-! ## Responses to fabric requests -/

/-- R299: the header of the response to a request. -/
def Chip.respHd (s : Chip) (r : PktHdr) (st : Status) : PktHdr :=
  { hdr0 with typ := 8, dstChip := r.srcChip, dstPort := r.srcPort, srcHost := r.srcHost
              tag := r.tag, srcChip := r.srcChip, srcPort := r.srcPort, status := stCode st }

/-- R298: a request is answered with a status and no data; such a RESP is not shaped (R323). -/
def Chip.respond (s : Chip) (r : PktHdr) (st : Status) : Chip := s.emit (.packet ⟨s.respHd r st, []⟩)

/-! ## Links and hosts -/

/-- R287: the role and direction of a link at reset. -/
def role0 (l : Nat) : Nat × Nat :=
  if l < 48 then (1, 0) else if l < 84 then (2, (l - 48) / 6) else if l < 92 then (3, 0) else (0, 0)

/-- R286 to R288: role (0 OFF, 1 HOST, 2 FABRIC, 3 MIRROR) and direction of a link. -/
def Chip.linkRole (s : Chip) (l : Nat) : Nat × Nat := (KMap.at s.roles none l).getD (role0 l)

/-- R184: the source host ID breaks its port's binding. R410: a MIRROR link has no binding that a host
request could keep; such a request is turned away as one that breaks it (log entry 90). -/
def Chip.spoofed (s : Chip) (port host : Nat) : Bool :=
  ((s.linkRole port).1 == 1 && decide (KMap.at s.rights.linkHost none port ≠ some host)) ||
  (s.linkRole port).1 == 3

/-- R184, R205: a spoofed request is counted, as one answered NO_ACCESS at ingress too. -/
def Chip.spoofCount (s : Chip) : Chip := (s.bump (risoPg + 0x60)).bump (risoPg + 0x64)

/-! ## Extents (R186, R187) -/

def Chip.ext (s : Chip) (e : Nat) : Ext := KMap.at s.rights.exts {} e

def Chip.setExt (s : Chip) (e : Nat) (x : Ext) : Chip :=
  { s with rights.exts := KMap.put s.rights.exts {} e x }

/-- R186, R187: the state of extent e. -/
def Chip.extState (s : Chip) (e : Nat) : Nat :=
  if e < s.usable then (s.ext e).state else if e < s.usable + 24 then 6 else 7

/-- R187: extent e is OWNED by partition p. -/
def Chip.ownedBy (s : Chip) (p e : Nat) : Bool := s.extState e == 1 && (s.ext e).part == p

/-- R368: the partition that owns the extent holding a pool offset; 64 for none. -/
def Chip.partOfOff (s : Chip) (off : Nat) : Nat :=
  if s.extState (off / 0x4000000) = 1 then (s.ext (off / 0x4000000)).part else 64

/-- Extents base to base + count − 1. -/
def extRange (base count : Nat) : List Nat := (List.range count).map (base + ·)

/-- R188: the range names at least one extent and none beyond 8,191. -/
def extRangeOk (base count : Nat) : Bool := decide (0 < count ∧ base + count ≤ 8192)

/-- Every named extent changed. -/
def Chip.mapExts (s : Chip) (es : List Nat) (f : Ext → Ext) : Chip :=
  forEach es (fun e s => s.setExt e (f (s.ext e))) s

/-- R188: the shared form of an extent command: one check on every named extent, one change to
each. -/
def Chip.extCmd (s : Chip) (q : CmdReq) (base count : Nat) (ok : Nat → Bool) (f : Ext → Ext) : Chip :=
  if extRangeOk base count ∧ (extRange base count).all ok
  then (s.mapExts (extRange base count) f).cmdAnswer q .ok 0
  else s.cmdAnswer q .noAccess 0

/-- EXT_GRANT (R188). -/
def execExtGrant (q : CmdReq) (part base count : Nat) : State → Host.Outcome State Fault Refusal :=
  liftC fun s => s.grantCommand q true fun _ s =>
    s.extCmd q base count (fun e => s.extState e == 0 && decide (part < 64))
      fun x => { x with state := 1, part := part, bound := false, lease := 0 }

/-- R190, R196: the lease is ACTIVE or GRACE and of partition p. -/
def Chip.leaseOfPart (s : Chip) (i p : Nat) : Bool :=
  let l := KMap.at s.rights.leases {} i
  (leaseEff s.leaseNow l == 1 || leaseEff s.leaseNow l == 2) && l.part == p

/-- EXT_BIND (R188). -/
def execExtBind (q : CmdReq) (base count lease : Nat) : State → Host.Outcome State Fault Refusal :=
  liftC fun s => s.command q false fun p s =>
    if s.leaseOfPart lease p = false then s.cmdAnswer q .noAccess 0
    else s.extCmd q base count (s.ownedBy p) fun x => { x with bound := true, lease := lease }

/-- EXT_HOLD (R188). -/
def execExtHold (q : CmdReq) (base count : Nat) : State → Host.Outcome State Fault Refusal :=
  liftC fun s => s.command q true fun _ s =>
    s.extCmd q base count (fun e => s.extState e == 3) fun x => { x with state := 5, part := 0 }

/-- R199: an extent enters ZEROING: its fill starts with no block written and no DEFECT counted. -/
def Chip.startFill (s : Chip) (e : Nat) : Chip :=
  let s := s.setExt e { state := 4, qEnd := s.now }
  { s with rights.fillPos := s.rights.fillPos.filter fun x => !(x.1 / 256 == e) }

/-- EXT_RELEASE (R188). -/
def execExtRelease (q : CmdReq) (base count : Nat) : State → Host.Outcome State Fault Refusal :=
  liftC fun s => s.command q true fun _ s =>
    if extRangeOk base count ∧ (extRange base count).all (fun e => s.extState e == 5)
    then (forEach (extRange base count) (fun e s => s.startFill e) s).cmdAnswer q .ok 0
    else s.cmdAnswer q .noAccess 0

/-! ## Isolation entries (R189, R191) -/

/-- R191: the entry matches host h with lease index li. -/
def isoMatches (ws : List Word) (h li : Nat) : Bool :=
  if isoMode ws then isoGroups ws / 2 ^ (h / 256) % 2 == 1
  else isoHost ws == h && isoLease ws == li

/-- R191: the entry grants RO (rw = false) or RW. -/
def isoGrants (ws : List Word) (rw : Bool) : Bool :=
  if rw then isoRights ws == 3 else isoRights ws == 1 || isoRights ws == 3

/-- R191: whether a list of entries that match the host and cover extent e, with extent e as it
stands, gives the right. -/
def Chip.grantedBy (s : Chip) (ms : List (List Word)) (e : Nat) (rw : Bool) : Bool :=
  !ms.isEmpty && ms.all (fun w => isoRights w != 0 && !isoFenced w) &&
  ms.any (isoGrants · rw) && ms.all fun w => s.ownedBy (isoPart w) e

/-- R191, R193: the entries, in the copy `sel` picks, that cover extent e and match the host. -/
def Chip.isoHits (s : Chip) (sel : Iso → List Word) (h li e : Nat) : List (Nat × Iso) :=
  s.rights.iso.filter fun x => isoCovers (sel x.2) e && isoMatches (sel x.2) h li

/-- R191: host h holds the right on extent e now, by the copy `sel` picks. -/
def Chip.holdsRight (s : Chip) (sel : Iso → List Word) (h : Nat) (rw : Bool) (e : Nat) : Bool :=
  match s.hostLease h with
  | none => false
  | some (li, l) =>
    (leaseEff s.leaseNow l == 1 || leaseEff s.leaseNow l == 2) &&
    s.grantedBy ((s.isoHits sel h li e).map fun x => sel x.2) e rw

/-- The extents a pool range touches; an empty range touches that of its first byte. -/
def extentsOf (off len : Nat) : List Nat :=
  let a := off / 0x4000000
  let z := (off + max len 1 - 1) / 0x4000000
  extRange a (z + 1 - a)

/-- R193 step 1: the router-side check of a request of host h. -/
def Chip.routerCheck (s : Chip) (h : Nat) (rw : Bool) (off len : Nat) : Bool :=
  (extentsOf off len).all (s.holdsRight (·.rt) h rw)

/-- R194: the entries a request matched at its header tick, with their generations. -/
def Chip.matched (s : Chip) (h off len : Nat) : List (Nat × Nat) :=
  match s.hostLease h with
  | none => []
  | some (li, _) =>
    (s.rights.iso.filter fun x => (extentsOf off len).any fun e =>
      isoCovers x.2.rt e && isoMatches x.2.rt h li).map fun x => (x.1, x.2.gen)

/-! ## Commit ticks (R194) -/

/-- R194: a commit tick: the first tick at least EXT_ISO_LEAD ticks, and at least 300, away. -/
def Chip.commitAt (s : Chip) : Nat := s.clock + max (s.fld (extPg + 0x78) 15 0) 300

def Chip.isoAt (s : Chip) (i : Nat) : Iso := KMap.at s.rights.iso {} i

def Chip.setIso (s : Chip) (i : Nat) (e : Iso) : Chip :=
  { s with rights.iso := KMap.put s.rights.iso {} i e }

/-- R194: an earlier change to the entry has not completed. -/
def Chip.isoBusy (s : Chip) (i : Nat) : Bool :=
  (s.isoAt i).prev.isSome || s.rights.shadow.any fun c => c.idx == i

/-- R194: a change is written into the shadow rows for its commit tick. -/
def Chip.toShadow (s : Chip) (c : IsoChange) : Chip := { s with rights.shadow := s.rights.shadow ++ [c] }

/-- R194: a change is written into the shadow rows, or waits for the earlier changes to its entry. -/
def Chip.stage (s : Chip) (c : IsoChange) : Chip :=
  if s.isoBusy c.idx then { s with rights.isoWait := s.rights.isoWait ++ [c] } else s.toShadow c

/-- A change of another kind waits for a tick. -/
def Chip.commitLater (s : Chip) (t : Nat) (c : Commit) : Chip :=
  { s with rights.commits := s.rights.commits ++ [(t, c)] }

/-- R193, R195, R215: FENCED is set in both copies at the next commit tick, in every generation they
keep. -/
def Chip.fenceEntry (s : Chip) (i : Nat) (host : Option Nat) : Chip :=
  s.commitLater s.commitAt (.fence i host)

/-- R190: the checks of an ISO_SET by partition p; partition 0 acts for the entry's PART. DEDUCED (log
35): the bits of HOST, which the layout of R189 keeps 0 with MODE = 1, count as reserved bits there. -/
def Chip.isoSetOk (s : Chip) (p i : Nat) (ws : List Word) : Bool :=
  let own := if p = 0 then isoPart ws else p
  let old := (s.isoAt i).ct
  decide (i < 4096) &&
  (p == 0 || !isoValid old || isoPart old == p) &&
  isoPart ws == own &&
  Word.bits (isoW ws 0) 23 19 == 0 && Word.bits (isoW ws 0) 31 30 == 0 &&
  !Word.bit (isoW ws 1) 13 && Word.bits (isoW ws 1) 31 28 == 0 &&
  isoRights ws != 2 &&
  (if isoMode ws then isoHost ws == 0 else Word.bits (isoW ws 2) 31 12 == 0 && isoW ws 3 == 0) &&
  extRangeOk (isoBase ws) (isoCount ws) &&
  (extRange (isoBase ws) (isoCount ws)).all (s.ownedBy own) &&
  (isoMode ws || (s.leaseOfPart (isoLease ws) own &&
    (KMap.at s.rights.leases {} (isoLease ws)).host == isoHost ws))

/-- R190: the entry an ISO_SET stores: FENCED is taken as 0. -/
def isoStored (ws : List Word) : List Word :=
  match ws with
  | w :: l => Word.setBit w 18 false :: l
  | [] => []

/-- R190: `new` grants at least what `old` grants, to at least the same hosts over at least the same
extents. -/
def isoKeeps (old new : List Word) : Bool :=
  isoValid new && isoMode new == isoMode old && isoPart new == isoPart old &&
  (if isoMode old then isoGroups old &&& isoGroups new == isoGroups old
   else isoHost new == isoHost old && isoLease new == isoLease old) &&
  decide (isoBase new ≤ isoBase old ∧ isoBase old + isoCount old ≤ isoBase new + isoCount new) &&
  (isoRights new == isoRights old || isoRights new == 3)

/-- R472: replacing `old` by `new` adds a right of some host. -/
def isoAdds (old new : List Word) : Bool :=
  isoValid new && isoRights new != 0 && !(isoKeeps new old)

/-- R190: replacing `old` by `new` lowers a right of some host: `old` granted rights and `new` does
not grant at least as much to at least the same hosts over at least the same extents, or `new`
withholds rights. -/
def isoLowers (old new : List Word) : Bool :=
  (isoValid old && isoRights old != 0 && !isoKeeps old new) || (isoValid new && isoRights new == 0)

/-- R200: a revocation is opened; it has no commit yet. -/
def Chip.openRev (s : Chip) (q : Option CmdReq) (kind : RevKind) (p tc : Nat) (exts idxs : List Nat) :
    Nat × Chip :=
  let id := s.rights.revSeq
  (id, { s with rights.revSeq := id + 1
                rights.revs := s.rights.revs ++ [⟨id, q, kind, tc, false, p, exts, idxs, [], [], []⟩] })

/-- R190: a change to an entry with no earlier one in progress gets its commit tick. Compared with the
entry then in force, one that only adds rights answers at its commit tick; a revocation completes under
R200. -/
def Chip.isoStart (s : Chip) (q : CmdReq) (p i : Nat) (ws : List Word) (kind : RevKind) : Chip :=
  if isoLowers (s.isoAt i).ct ws then
    let (id, s) := s.openRev (some q) kind p s.commitAt [] [i]
    s.toShadow ⟨i, ws, s.commitAt, .rev id⟩
  else s.toShadow ⟨i, ws, s.commitAt, .add q⟩

/-- R190, R194: an ISO_SET or ISO_CLEAR that passed its checks starts, or waits in its command channel
for the earlier changes to its entry. -/
def Chip.isoChange (s : Chip) (q : CmdReq) (p i : Nat) (ws : List Word) (kind : RevKind) : Chip :=
  let s := s.cmdPending q
  if s.isoBusy i then { s with rights.isoWait := s.rights.isoWait ++ [⟨i, ws, 0, .add q⟩] }
  else s.isoStart q p i ws kind

/-- R190, R472: an ISO_SET by partition p may be carried out. -/
def Chip.isoSetMay (s : Chip) (p i : Nat) (ws : List Word) : Bool :=
  s.isoSetOk p i ws && (!s.retiring || !isoAdds (s.isoAt i).ct ws)

/-- R190: an ISO_CLEAR by partition p may be carried out. -/
def Chip.isoClearMay (s : Chip) (p i : Nat) : Bool :=
  decide (i < 4096) && (p == 0 || !isoValid (s.isoAt i).ct || isoPart (s.isoAt i).ct == p)

/-- ISO_SET (R190, R194). -/
def execIsoSet (q : CmdReq) (idx : Nat) (w0 w1 w2 w3 : Word) :
    State → Host.Outcome State Fault Refusal :=
  liftC fun s => s.command q false fun p s =>
    if s.isoSetMay p idx [w0, w1, w2, w3]
    then s.isoChange q p idx (isoStored [w0, w1, w2, w3]) .isoSet
    else s.cmdAnswer q .noAccess 0

/-- ISO_CLEAR (R190, R194). -/
def execIsoClear (q : CmdReq) (idx : Nat) : State → Host.Outcome State Fault Refusal :=
  liftC fun s => s.command q false fun p s =>
    if s.isoClearMay p idx then s.isoChange q p idx [0, 0, 0, 0] .isoClear
    else s.cmdAnswer q .noAccess 0

/-- The entries that overlap a list of extents. -/
def Chip.overlapping (s : Chip) (es : List Nat) : List Nat :=
  (s.rights.iso.filter fun x => es.any (isoCovers x.2.ct)).map (·.1)

/-- R194, R202: a change that has not completed concerns an entry that overlaps one of the extents, or
will. -/
def Chip.overlapBusy (s : Chip) (es : List Nat) : Bool :=
  let hit := fun ws : List Word => es.any (isoCovers ws)
  (s.rights.shadow ++ s.rights.isoWait).any (fun c => hit c.ws || hit (s.isoAt c.idx).ct) ||
  s.rights.iso.any fun x => match x.2.prev with
    | some w => hit w || hit x.2.ct
    | none => false

/-- R188, R202: the EXT_RETURN of revocation id gets its commit tick, at which the overlapping entries
are removed whole and the extents enter RETURNING; it fails where one has left its owner by then. -/
def Chip.startReturn (s : Chip) (id : Nat) : Chip :=
  match s.rights.revs.find? fun r => r.id == id with
  | none => s
  | some r =>
    if r.exts.all (fun e => s.extState e == 1) then
      let idxs := s.overlapping r.exts
      let tc := s.commitAt
      let s := s.updRevs (fun x => x.id == id) fun x => { x with tc := tc, idxs := idxs }
      let s := forEach idxs (fun i s => s.toShadow ⟨i, [0, 0, 0, 0], tc, .rev id⟩) s
      s.commitLater tc (.ret id)
    else
      let s := { s with rights.revs := s.rights.revs.filter fun x => !(x.id == id) }
      match r.q with
      | some q => s.cmdAnswer q .noAccess 0
      | none => s

/-- EXT_RETURN (R188, R200, R202): it starts once every change to an overlapping entry has completed. -/
def Chip.extReturnAt (s : Chip) (q : Option CmdReq) (p : Nat) (es : List Nat) : Chip :=
  let (id, s) := s.openRev q .extReturn p 0 es []
  if s.overlapBusy es then { s with rights.retWait := s.rights.retWait ++ [id] } else s.startReturn id

def execExtReturn (q : CmdReq) (force : Bool) (part base count : Nat) :
    State → Host.Outcome State Fault Refusal :=
  liftC fun s => s.command q false fun p s =>
    let es := extRange base count
    if (p = 0 ∨ p = part) ∧ extRangeOk base count ∧ es.all (s.ownedBy part) ∧
        (force = true ∨ (s.overlapping es).isEmpty)
    then (s.cmdPending q).extReturnAt (some q) p es
    else s.cmdAnswer q .noAccess 0

/-! ## What a commit does -/

/-- R217: host h holds a registered copy in extent e. -/
def Chip.holdsCopy (s : Chip) (h e : Nat) : Bool :=
  s.dir.ents.any fun x => x.2.tag / 32768 == e && x.2.state != 0 &&
    (if x.2.wide then x.2.groups / 2 ^ (h / 256) % 2 == 1
     else x.2.owner == h && (x.2.state == 2 || x.2.state == 3) || x.2.ptrs.contains h)

/-- R217: revocation id already has a RANGE recall of extent e to host h. -/
def Chip.rangeAsked (s : Chip) (id h e : Nat) : Bool :=
  (s.dir.waits.any fun w => w.rev == some id && w.kind == 1 && w.host == h &&
    decide (w.what ≤ e ∧ e < w.what + w.count)) ||
  (s.rights.revs.any fun r => r.id == id && s.dir.trk.any fun t => r.rcls.contains t.rseq &&
    t.kind == 1 && t.holders.contains h && decide (t.what ≤ e ∧ e < t.what + t.count))

/-- R200, R217: the extents among es in which host h holds a copy and no longer has RO. -/
def Chip.lostBy (s : Chip) (id h : Nat) (es : List Nat) : List Nat :=
  es.filter fun e => s.holdsCopy h e && !s.holdsRight (·.rt) h false e && !s.rangeAsked id h e

/-- The maximal runs of consecutive numbers in a list, each as its first number and its length. -/
def runsOf (es : List Nat) : List (Nat × Nat) :=
  (es.filter fun e => e == 0 || !es.contains (e - 1)).map fun e =>
    (e, ((List.range es.length).takeWhile fun k => es.contains (e + k)).length)

/-- R200, R217: a RANGE recall of every run of extents a host with a lease has lost RO on and holds
copies in. -/
def Chip.recallLosers (s : Chip) (id : Nat) (es : List Nat) : Chip :=
  forEach s.liveHosts (fun h s =>
    forEach (runsOf (s.lostBy id h es)) (fun r s => s.askRecall ⟨1, r.1, r.2, h, some id⟩) s) s

/-- R198, R200, R201, R205: a host request is one a revocation concerns: it matched an entry the
revocation changes, touches its extents, or came from its host or over its link. -/
def Chip.revHits (s : Chip) (r : Rev) (x : Req) : Bool :=
  x.kind != .svc && !x.sent &&
  (x.gens.any (fun g => r.idxs.contains g.1) || (extentsOf x.off x.len).any r.exts.contains ||
   match r.kind with
   | .unbind l => x.port == l
   | .leaseClose i | .lapse i => x.host == (KMap.at s.rights.leases {} i).host
   | _ => false)

/-- R200, R201: what a revocation waits for, taken at its commit: the accepted requests it concerns, the
copy blocks into its extents. -/
def Chip.revOlds (s : Chip) (r : Rev) : List Nat := (s.prom.reqs.filter (s.revHits r)).map (·.id)

/-- R200: every block of a request has passed the controller-side check. -/
def Chip.pastCheck (s : Chip) (x : Req) : Bool :=
  let l := s.accs.filter fun a => match a.src with | .req id _ => id == x.id | _ => false
  !l.isEmpty && l.all (·.checked)

/-- R200: at its commit tick a revocation ends the class B requests it concerns that have not passed the
controller-side check; one that waits at its port is answered at its decision. -/
def Chip.endClassB (s : Chip) (r : Rev) : Chip :=
  let s := s.endReqs (fun x => !x.promise && s.revHits r x && !s.pastCheck x) .noAccess
  { s with prom.hdrs := updWhere s.prom.hdrs (fun x => !x.promise && s.revHits r x)
             fun x => { x with fixed := fixStatus x.fixed s.now .noAccess } }

def Chip.revCopies (s : Chip) (r : Rev) : List BlkSrc :=
  (s.accs.filter fun a => a.port == 1 && r.exts.contains (a.b / 32768) && a.phase != .served).map (·.src)

/-- R200: a revocation takes effect. -/
def Chip.revCommit (s : Chip) (id : Nat) : Chip :=
  match s.rights.revs.find? fun r => r.id == id with
  | none => s
  | some r =>
    let olds := s.revOlds r
    let copies := s.revCopies r
    let s := s.updRevs (fun x => x.id == id) fun x =>
      { x with committed := true, olds := (x.olds ++ olds).eraseDups, copies := copies }
    let s := s.endClassB r
    let range := fun w : List Word => if isoValid w then extRange (isoBase w) (isoCount w) else []
    let es := r.exts ++ (r.idxs.flatMap fun i => match (s.isoAt i).prev with
      | some w => range w ++ range (s.isoAt i).ct
      | none => [])
    s.recallLosers id es.eraseDups

/-- R193, R195, R398: entry i is written in both copies; where an injection strikes a copy with two
flipped bits, FENCED is set in both. -/
def Chip.isoWords (s : Chip) (i : Nat) : Chip :=
  let hit := fun (n pg ce ue : Nat) (s : Chip) =>
    if n = 0 then s
    else if n = 1 then s.countErr pg ce 0 i true
    else Chip.commitLater (s.itemErr pg ue i { faultOf pg 1 ue with
      inj := true, kind := 10, part := isoPart (s.isoAt i).ct, unit := i })
      s.commitAt (.fence i none)
  let (a, s) := s.strike extPg
  let (b, s) := s.strike risoPg
  hit b risoPg 0 1 (hit a extPg 1 2 s)

/-- R190: the words an ISO_CLEAR, or a removal by the device, leaves. -/
def isoNone : List Word := [0, 0, 0, 0]

/-- R194, R202: the changes that wait for entry i go on, in order: a command is checked again and
starts, or fails and the next one follows; a removal by the device gets its commit tick. n bounds the
changes looked at. -/
def Chip.nextChange (s : Chip) (i : Nat) : Nat → Chip
  | 0 => s
  | n + 1 => match s.rights.isoWait.find? fun c => c.idx == i with
    | none => s
    | some c =>
      let s := { s with rights.isoWait := s.rights.isoWait.erase c }
      match c.why with
      | .rev _ => s.toShadow { c with tc := max c.tc s.commitAt }
      | .add q =>
        let p := s.sessPart q.session
        if c.ws = isoNone ∧ s.isoClearMay p i then s.isoStart q p i c.ws .isoClear
        else if c.ws ≠ isoNone ∧ s.isoSetMay p i c.ws then s.isoStart q p i c.ws .isoSet
        else (s.cmdAnswer q .noAccess 0).nextChange i n

/-- R194, R202: a change to entry i has completed: what waits for it goes on. -/
def Chip.changeDone (s : Chip) (i : Nat) : Chip :=
  let s := s.nextChange i s.rights.isoWait.length
  forEach s.rights.retWait (fun id s => match s.rights.revs.find? fun r => r.id == id with
    | none => { s with rights.retWait := s.rights.retWait.erase id }
    | some r =>
      if s.overlapBusy r.exts then s
      else Chip.startReturn { s with rights.retWait := s.rights.retWait.erase id } id) s

/-- R202: the extents of an ISO_SET are still those of its entry's partition at its commit tick. -/
def Chip.isoFits (s : Chip) (ws : List Word) : Bool :=
  ws == isoNone || (extRange (isoBase ws) (isoCount ws)).all (s.ownedBy (isoPart ws))

/-- R202: a change whose extents have left their owner fails. -/
def Chip.isoFails (s : Chip) (c : IsoChange) : Chip :=
  let s := match c.why with
    | .add q => s.cmdAnswer q .noAccess 0
    | .rev id =>
      let u := { s with rights.revs := s.rights.revs.filter fun x => !(x.id == id) }
      match (s.rights.revs.find? fun r : Rev => r.id == id).bind (·.q) with
      | some q => u.cmdAnswer q .noAccess 0
      | none => u
  s.changeDone c.idx

/-- R194: at its commit tick a change becomes current with the next generation; the controller-side
copy keeps the previous one until a revocation is complete. -/
def Chip.applyIso (s : Chip) (c : IsoChange) : Chip :=
  if s.isoFits c.ws = false then s.isoFails c
  else
    let s := s.isoWords c.idx
    let e := s.isoAt c.idx
    let gen := (e.gen + 1) % 65536
    match c.why with
    | .add q =>
      ((s.setIso c.idx { e with rt := c.ws, ct := c.ws, gen := gen }).cmdAnswer q .ok 0).changeDone c.idx
    | .rev id => (s.setIso c.idx { rt := c.ws, ct := c.ws, gen := gen, prev := some e.ct }).revCommit id

/-- R198 steps 3 to 5 and R197: the reclaim of lease i from its commit tick. -/
def Chip.reclaim (s : Chip) (id i : Nat) : Chip :=
  let l := KMap.at s.rights.leases {} i
  let s := { s with rights.leases := KMap.put s.rights.leases {} i { l with state := 3 } }
  let es := (s.rights.exts.filter fun x => x.2.state == 1 && x.2.bound && x.2.lease == i).map (·.1)
  let idxs := ((s.rights.iso.filter fun x => isoValid x.2.ct && !isoMode x.2.ct && isoLease x.2.ct == i).map
    (·.1) ++ s.overlapping es).eraseDups
  let s := s.updRevs (fun r => r.id == id) fun r => { r with exts := es, idxs := idxs }
  let s := s.mapExts es fun x => { x with state := 2, bound := false, lease := 0 }
  let s := forEach idxs (fun k s => s.stage ⟨k, [0, 0, 0, 0], s.now, .rev id⟩) s
  let s := (s.revCommit id).purgeHost l.host
  s.raise l.part (s.fld (lsPg + 0x68) 7 0) 0x74 0 0 i 0

/-- R193, R194, R197, R205, R222: what a change of another kind does at its tick. -/
def Chip.applyCommit (s : Chip) (c : Commit) : Chip :=
  match c with
  | .bind q l v h =>
    let s := { s with rights.linkHost := KMap.put s.rights.linkHost none l (if v then some h else none) }
    if s.rights.revs.any fun r => r.q == some q then
      forEach ((s.rights.revs.filter fun r => r.q == some q).map (·.id)) (fun id s => s.revCommit id) s
    else s.cmdAnswer q .ok 0
  | .close id i =>
    let st := (KMap.at s.rights.leases {} i).state
    if (s.rights.revs.any fun r => r.id == id) ∧ (st = 1 ∨ st = 2) then s.reclaim id i else s
  | .ret id =>
    match s.rights.revs.find? fun r => r.id == id with
    | none => s
    | some r =>
      let s := s.mapExts (r.exts.filter fun e => s.extState e == 1) fun x => { x with state := 2 }
      let new := (s.overlapping r.exts).filter fun i => !r.idxs.contains i
      let s := s.updRevs (fun x => x.id == id) fun x => { x with idxs := x.idxs ++ new }
      let s := forEach new (fun i s => s.stage ⟨i, isoNone, s.clock, .rev id⟩) s
      s.revCommit id
  | .pub _ r =>
    let g := KMap.at s.regions {} r
    { s with regions := KMap.put s.regions {} r { g with created := true, copyPos := 0, tc := s.now } }
  | .fence i h =>
    let e := s.isoAt i
    let s := s.setIso i { e with rt := isoFence e.rt, ct := isoFence e.ct, prev := e.prev.map isoFence }
    match h with
    | none => s
    | some h => { s with dir.fencing := s.dir.fencing.erase h }

/-- R194: every change whose commit tick has come takes effect, extents that leave their owner first. -/
def Chip.commitDue (s : Chip) : Chip :=
  let t := s.clock
  let rets := fun c : Nat × Commit => match c.2 with | .ret _ => true | _ => false
  let oth := s.rights.commits.filter fun c => decide (c.1 ≤ t)
  let s := { s with rights.commits := s.rights.commits.filter fun c => !decide (c.1 ≤ t) }
  let s := forEach (oth.filter rets) (fun c s => s.applyCommit c.2) s
  let due := s.rights.shadow.filter fun c => decide (c.tc ≤ t)
  let s := { s with rights.shadow := s.rights.shadow.filter fun c => !decide (c.tc ≤ t) }
  forEach (oth.filter fun c => !rets c) (fun c s => s.applyCommit c.2) (forEach due (fun c s => s.applyIso c) s)

/-- COMMIT_TICK (R194, R413). -/
def execCommitTick : State → Host.Outcome State Fault Refusal :=
  liftC fun s => s.decides (.commit s.now) fun s => s.commitDue

/-- R199: an extent enters QUARANTINE. -/
def Chip.toQuarantine (s : Chip) (e : Nat) : Chip :=
  if s.extState e = 2 then
    s.setExt e { s.ext e with state := 3, part := 0, bound := false, lease := 0
                              qEnd := s.now + 1000 * (s.reg (extPg + 0x4C)).toNat }
  else s

/-- R201: every request, copy block and recall a revocation waits for has its outcome, a request that
waited at its port at the commit tick too. -/
def Chip.revReady (s : Chip) (r : Rev) : Bool :=
  r.committed &&
  r.olds.all (fun id => !s.prom.reqs.any fun x => x.id == id && !x.sent) &&
  !(s.prom.hdrs ++ s.prom.reqs).any (fun x => decide (x.th < r.tc) && s.revHits r x) &&
  r.copies.all (fun c => !s.accs.any fun a => a.src == c && a.phase != .served) &&
  r.rcls.isEmpty && !s.dir.waits.any (fun w => w.rev == some r.id) &&
  !(s.rights.shadow ++ s.rights.isoWait).any fun c => c.why == .rev r.id

/-- R222, R226, R228: the entry of region i is freed: the publishes in its queue end NO_ACCESS, what was
reserved for it goes, and the PUB_DELETE that asked for it answers OK. -/
def Chip.removeRegion (s : Chip) (i : Nat) : Chip :=
  let g := KMap.at s.regions {} i
  let s := s.endReqs (fun r => g.queue.any fun p => p.req == r.id) .noAccess
  let s := s.bumpBy (pubPg + 0x6C) g.queue.length
  let s := { s with
    regions := KMap.del s.regions i
    prom.ch := s.prom.ch.filter fun c => !(c.owner == 2 ^ 32 + i)
    prom.win := s.prom.win.filter fun w => !(w.b == 2 ^ 28 + i)
    accs := s.accs.filter fun a => match a.src with
      | .region r _ => !(r == i)
      | _ => true }
  match g.deleting with | some q => s.cmdAnswer q .ok 0 | none => s

/-- R222: region i, which is READY, is deleted; with CUR = 1 the current body is first copied to
body 0. -/
def Chip.deleteRegion (s : Chip) (i : Nat) : Chip :=
  let g := KMap.at s.regions {} i
  if g.cur = 1 then { s with regions := KMap.put s.regions {} i { g with delCopy := true, state := 3, copyPos := 0 } }
  else s.removeRegion i

/-- R222: region i goes with an extent that leaves its owner: a creation that waits is answered
NO_ACCESS; else it is deleted as by PUB_DELETE, once it is READY. -/
def Chip.dropRegion (s : Chip) (i : Nat) : Chip :=
  let g := KMap.at s.regions {} i
  match g.creating with
  | some q => (s.removeRegion i).cmdAnswer q .noAccess 0
  | none =>
    if g.delCopy then s
    else if g.state = 0 then s.deleteRegion i
    else { s with regions := KMap.put s.regions {} i { g with delWanted := true } }

/-- R201, R222: a revocation is done: the previous generations are dropped, the extents enter
QUARANTINE, regions on them are deleted, waiting changes go on, and the command answers OK. -/
def Chip.revDone (s : Chip) (r : Rev) : Chip :=
  let s := { s with rights.revs := s.rights.revs.filter fun x => !(x.id == r.id) }
  let gone := s.regions.filter fun g =>
    r.exts.contains (g.2.base / 32768) || r.exts.contains (g.2.shadow / 32768)
  let s := forEach (gone.map (·.1)) (fun i s => s.dropRegion i) s
  let s := forEach r.idxs (fun i s => s.setIso i { s.isoAt i with prev := none }) s
  let s := forEach r.exts (fun e s => s.toQuarantine e) s
  let s := forEach r.idxs (fun i s => s.changeDone i) s
  match r.q with
  | some q => s.cmdAnswer q .ok 0
  | none => s

/-- REVOCATION_DONE (R201): the revocation with number i. A lease's reclaim ends by RECLAIM_DONE. -/
def execRevocationDone (i : Nat) : State → Host.Outcome State Fault Refusal :=
  liftC fun s => match s.rights.revs.find? fun r => r.id == i with
    | none => s
    | some r => match r.kind with
      | .leaseClose _ | .lapse _ => s
      | _ => if s.revReady r then s.revDone r else s

/-! ## The comparator (R195) -/

/-- R195: every interval the comparator compares the current generation of one entry in both copies;
a difference is a mismatch: the entry is fenced, counted and reported. -/
def execIsoCompare : State → Host.Outcome State Fault Refusal :=
  liftC fun s =>
    let int := s.fld (extPg + 0x74) 15 0
    if int = 0 then s
    else
      let i := s.rights.cmpPos
      let e := s.isoAt i
      let s := { s with rights.cmpPos := (i + 1) % 4096 }
      if e.rt = e.ct then s
      else
        let s := s.bump (extPg + 0x70)
        let s := s.itemErr extPg 0 i
          { faultOf extPg 1 0 with kind := 10, part := isoPart e.ct, unit := i }
        s.decides (.isoFence i) fun s => s.fenceEntry i none

/-! ## Leases (R196 to R198) -/

/-- R198: a lease event of the lease's partition. -/
def Chip.leaseEvent (s : Chip) (i : Nat) : Chip :=
  s.raise (KMap.at s.rights.leases {} i).part (s.fld (lsPg + 0x68) 7 0) 0x74 0 0 i 0

def Chip.setLease (s : Chip) (i : Nat) (l : Lease) : Chip :=
  { s with rights.leases := KMap.put s.rights.leases {} i l }

/-- R196: the lowest FREE lease index. -/
def Chip.freeLease (s : Chip) : Option Nat :=
  (List.range 4096).find? fun i => (KMap.at s.rights.leases {} i).state == 0

/-- LEASE_OPEN (R196): LEN and RINT in µs. -/
def execLeaseOpen (q : CmdReq) (host len rint : Nat) : State → Host.Outcome State Fault Refusal :=
  liftC fun s => s.grantCommand q false fun p s =>
    match s.hostLease host, s.freeLease with
    | none, some i =>
      if 100 ≤ len ∧ len ≤ 60000000 ∧ 50 ≤ rint ∧ 2 * rint ≤ len ∧ host < 16384
      then (s.setLease i ⟨1, host, p, len, rint, s.clock + 1000 * len⟩).cmdAnswer q .ok i
      else s.cmdAnswer q .noAccess 0
    | _, _ => s.cmdAnswer q .noAccess 0

/-- LEASE_CLOSE (R197): the lease moves to RECLAIM at a commit tick. -/
def execLeaseClose (q : CmdReq) (lease : Nat) : State → Host.Outcome State Fault Refusal :=
  liftC fun s => s.command q false fun p s =>
    if lease < 4096 ∧ s.leaseOfPart lease p then
      let tc := s.commitAt
      let (id, s) := (s.cmdPending q).openRev (some q) (.leaseClose lease) p tc [] []
      s.commitLater tc (.close id lease)
    else s.cmdAnswer q .noAccess 0

/-- R197, R198: a renewal by host h at its header tick; whether it is answered OK. -/
def Chip.renewLease (s : Chip) (h : Nat) : Bool × Chip :=
  match s.hostLease h with
  | none => (false, s.bump (lsPg + 0x6C))
  | some (i, l) =>
    if leaseEff s.leaseNow l = 1 ∨ leaseEff s.leaseNow l = 2 then
      let back := leaseEff s.leaseNow l = 2
      let s := s.setLease i { l with state := 1, x := s.clock + 1000 * l.len }
      (true, if back then s.leaseEvent i else s)
    else (false, s.bump (lsPg + 0x6C))

/-- LEASE_RENEW (R198, R230): never refused; OK or NO_ACCESS. A packet whose source breaks its
port's binding answers NO_ACCESS at ingress (R184). -/
def execLeaseRenew (src : RenewSrc) : State → Host.Outcome State Fault Refusal :=
  liftC fun s => match src with
    | .fabric port pkt => s.turnOf (flesonId pkt.hdr.srcHost pkt.hdr.tag 7) fun s =>
      if s.addressed = false then s
      else if s.spoofed port pkt.hdr.srcHost then (s.bump (lsPg + 0x6C)).spoofCount.respond pkt.hdr .noAccess
      else if pkt.hdr.cls ≠ 4 then (s.bump (lsPg + 0x6C)).respond pkt.hdr .noAccess
      else
        let (ok, s) := s.renewLease pkt.hdr.srcHost
        s.respond pkt.hdr (if ok then .ok else .noAccess)
    | .xht q => s.turnOf (xhtId q.session q.chan q.seq) fun s =>
      let s := s.leaveIngress q
      if s.sessValid q.session = false then s
      else if (s.recorded q 2).isSome then (s.recorded q 2).getD s
      else if q.chan ≠ 16 then (s.bump (lsPg + 0x6C)).cmdAnswer q .noAccess 0
      else
        let (ok, s) := s.renewLease (s.sessHost q.session)
        s.cmdAnswer q (if ok then .ok else .noAccess) 0

/-- R197: an ACTIVE lease moves to GRACE. -/
def Chip.leaseLapse (s : Chip) (i : Nat) : Chip :=
  let l := KMap.at s.rights.leases {} i
  if l.state = 1 then (s.setLease i { l with state := 2 }).leaseEvent i else s

/-- LEASE_EXPIRY (R197, R413): tick X reached. -/
def execLeaseExpiry (i : Nat) : State → Host.Outcome State Fault Refusal :=
  liftC fun s =>
    if (KMap.at s.rights.leases {} i).x ≤ s.now then s.decides (.leaseExpiry i) fun s => s.leaseLapse i
    else s

/-- R197: the grace of a lease ends; the reclaim starts with T_c = G. -/
def Chip.graceOver (s : Chip) (i : Nat) : Chip :=
  let l := KMap.at s.rights.leases {} i
  if l.state = 1 ∨ l.state = 2 then
    let (id, s) := s.openRev none (.lapse i) l.part (l.x + 2000 * l.rint) [] []
    (s.reclaim id i).commitDue
  else s

/-- LEASE_GRACE_END (R197, R413): tick G reached. -/
def execLeaseGraceEnd (i : Nat) : State → Host.Outcome State Fault Refusal :=
  liftC fun s =>
    let l := KMap.at s.rights.leases {} i
    if l.x + 2000 * l.rint ≤ s.now then s.decides (.leaseGraceEnd i) fun s => s.graceOver i else s

/-- RECLAIM_DONE (R197, R198): the drain and the purge of lease i are complete: it becomes FREE, and
every LEASE_CLOSE that names it answers OK, one overtaken by a lapse too. -/
def execReclaimDone (i : Nat) : State → Host.Outcome State Fault Refusal :=
  liftC fun s =>
    let rs := s.rights.revs.filter fun r => r.kind == .leaseClose i || r.kind == .lapse i
    let go := rs.filter (·.committed)
    if go.isEmpty = false ∧ go.all s.revReady then
      forEach rs (fun r s => s.revDone r) ((s.setLease i {}).bump (lsPg + 0x5C))
    else s

/-! ## Quarantine and fill (R199) -/

/-- R199: the quarantine of extent x ends. -/
def Chip.quarantineOver (s : Chip) (x : Nat) : Chip := if s.extState x = 3 then s.startFill x else s

/-- QUARANTINE_END (R199, R413). -/
def execQuarantineEnd (x : Nat) : State → Host.Outcome State Fault Refusal :=
  liftC fun s =>
    if (s.ext x).qEnd ≤ s.now then s.decides (.quarantineEnd x) fun s => s.quarantineOver x else s

/-- R161, R199: the k-th block, in ascending index, of extent x on controller n. -/
def Chip.fillBlock (s : Chip) (x n k : Nat) : Nat :=
  let hi := x * 32768 + k / 16 * 4096
  hi + (n ^^^ s.ctrlOf hi) + 256 * (k % 16)

/-- R177, R199: the fill of extent x is complete on every controller that is not fenced. -/
def Chip.fillDone (s : Chip) (x : Nat) : Bool :=
  (List.range 256).all fun n =>
    decide (128 ≤ KMap.at s.rights.fillPos 0 (256 * x + n)) || s.isFenced (.mc n)

/-- ZEROING_DONE (R199): the extent becomes FREE; its DEFECT count stays readable. -/
def execZeroingDone (x : Nat) : State → Host.Outcome State Fault Refusal :=
  liftC fun s =>
    if s.extState x = 4 ∧ s.fillDone x then
      let s := s.setExt x { defect := (s.ext x).defect }
      { s with rights.fillPos := s.rights.fillPos.filter fun e => !(e.1 / 256 == x) }
    else s

/-- LINK_BIND (R205): a new binding takes effect at a commit tick; one that replaces or removes a
valid binding ends that link's traffic under R200. -/
def execLinkBind (q : CmdReq) (link : Nat) (valid : Bool) (host : Nat) :
    State → Host.Outcome State Fault Refusal :=
  liftC fun s => s.command q true fun p s =>
    if link < 96 ∧ host < 16384 then
      let tc := s.commitAt
      let s := s.cmdPending q
      let s := match KMap.at s.rights.linkHost none link with
        | none => s
        | some h => if valid ∧ h = host then s else (s.openRev (some q) (.unbind link) p tc [] []).2
      s.commitLater tc (.bind q link valid host)
    else s.cmdAnswer q .noAccess 0

end Sys2Proof.Machine
end

