-- ==== Sys2Proof/Machine/Plan.lean ====
section
/-! DEFINITION. Traffic plans: records, validity, what they reserve, and LOAD, COMMIT, ABORT and the
take-over (R235, R305 to R309). -/

namespace Sys2Proof.Machine

/-- Bits [hi:lo] of a plan record. -/
def recBits (r hi lo : Nat) : Nat := r / 2 ^ lo % 2 ^ (hi + 1 - lo)

def recType (r : Nat) : Nat := recBits r 3 0
def recLink (r : Nat) : Nat := recBits r 10 4
def recIngress (r : Nat) : Bool := recBits r 11 11 == 1
def recSlot (r : Nat) : Nat := recBits r 24 12
def recCount (r : Nat) : Nat := recBits r 37 25 + 1
def recVc (r : Nat) : Nat := recBits r 39 38
def recFlits (r : Nat) : Nat := recBits r 44 40
def recResv (r : Nat) : Nat := recBits r 19 4
def recCtrl (r : Nat) : Nat := recBits r 27 20
def recOffset (r : Nat) : Nat := recBits r 47 28
def recNslot (r : Nat) : Nat := recBits r 53 48 + 1
def recStep (r : Nat) : Nat := recBits r 57 54 + 1

/-- R306: the records of a bank up to its end record; none where no end record stands within
16,384. -/
def planList (m : KMap Nat) : Nat → Nat → Option (List Nat)
  | 0, _ => none
  | n + 1, i =>
    let r := KMap.at m 0 i
    if recType r = 0xF then some [] else (planList m n (i + 1)).map (r :: ·)

/-- R307: two LINK records give one slot of one link direction. -/
def recClash (a b : Nat) : Bool :=
  recType a == 1 && recType b == 1 && recLink a == recLink b && recIngress a == recIngress b &&
  decide (recSlot a < recSlot b + recCount b ∧ recSlot b < recSlot a + recCount a)

/-- No record of the list clashes with a later one. -/
def noClash : List Nat → Bool
  | [] => true
  | a :: l => l.all (fun b => !recClash a b) && noClash l

/-- R306, R307: one record is valid for a frame of FRAME ticks. -/
def Chip.recOk (s : Chip) (frame r : Nat) : Bool :=
  if recType r = 1 then
    decide (recLink r < 96 ∧ 1 ≤ recFlits r ∧ recFlits r ≤ 23 ∧ recSlot r + recCount r ≤ frame / 128)
      && recBits r 63 45 == 0
  else if recType r = 2 then
    decide (1 ≤ recResv r ∧ recResv r ≤ 0xFFFD) && recBits r 63 58 == 0 &&
    decide (16 * recOffset r + (recNslot r - 1) * recStep r * s.slotLen + 2 * s.slotLen ≤ 16 * frame)
  else false

/-- R307: the plan is valid. -/
def Chip.planOk (s : Chip) (frame : Nat) (l : List Nat) : Bool := l.all (s.recOk frame) && noClash l

def Chip.planActive (s : Chip) : Bool := s.flag (planPg + 0x40) 0
def Chip.planPending (s : Chip) : Bool := s.flag (planPg + 0x40) 1

/-- R235, R309: the plan in force at a tick: its records, origin and frame. A pending commit rules
from its TAKE on. -/
def Chip.planAt (s : Chip) (t : Nat) : Option (List Nat × Nat × Nat) :=
  let take := s.pair (planPg + 0x58)
  if s.planPending ∧ take ≤ t then
    (planList s.plan.pend 16384 0).map fun l => (l, take, s.plan.frame)
  else if s.planActive then
    some (s.plan.cur, s.pair (planPg + 0x50), s.fld (planPg + 0x4C) 20 0)
  else none

/-- R305: the slot of the frame a tick lies in. -/
def frameSlot (t org frame : Nat) : Nat := (t - org) % (max frame 1) / 128

/-- R305, R306: the egress records of link l that give flits in the 128-tick cell that starts at t. -/
def cellRecs (rs : List Nat) (org frame l t : Nat) : List Nat :=
  let k := frameSlot t org frame
  rs.filter fun r => recType r == 1 && recLink r == l && !recIngress r &&
    decide (recSlot r ≤ k ∧ k < recSlot r + recCount r)

/-- R305, R234: flits the plan assigns to scheduled VCs of link l, egress, in the 128-tick cell that
starts at t, but for those of entries a promise kept out (R235). -/
def Chip.planFlits (s : Chip) (l t : Nat) : Nat :=
  match s.planAt t with
  | none => 0
  | some (rs, org, frame) =>
    let out := (s.plan.outCells.filter fun o => o.1 == org && o.2.1 == l && o.2.2.1 == t / 128).map (·.2.2.2)
    ((cellRecs rs org frame l t).map recFlits).sum - out.sum

/-- R306: the record of a plan whose reservation takes block slot j of controller n. -/
def Chip.blockRec (s : Chip) (rs : List Nat) (org frame n j : Nat) : Option Nat :=
  let t := s.slotTick j
  let fs := org + (t - org) / (max frame 1) * frame
  rs.find? fun r =>
    let j0 := s.slotFrom (fs + recOffset r)
    recType r == 2 && recCtrl r == n && decide (j0 ≤ j ∧ (j - j0) % recStep r = 0 ∧
      (j - j0) / recStep r < recNslot r)

/-- R235, R306: the record whose reservation takes block slot j of controller n, unless a promise kept
its entry out. -/
def Chip.planBlock (s : Chip) (n j : Nat) : Option Nat :=
  match s.planAt (s.slotTick j) with
  | none => none
  | some (rs, org, frame) =>
    if s.plan.outBlocks.contains (org, n, j) then none else s.blockRec rs org frame n j

/-! ## LOAD, COMMIT, ABORT -/

/-- R505: the host is an entry of GLB_MGMT_AUTH0 to 3. -/
def Chip.mgmtAuth (s : Chip) (h : Nat) : Bool :=
  [0x64, 0x68, 0x6C, 0x70].any fun o => s.flag (glbPg + o) 31 && s.fld (glbPg + o) 13 0 == h

/-- R308, R505: the host may send plans: RT_PLAN_AUTH lists it, or it has the MGMT access of partition 0. -/
def Chip.planAuth (s : Chip) (h : Nat) : Bool :=
  s.mgmtAuth h ||
  [0, 1, 2, 3].any fun k => s.flag (rtPg + 0x60 + 4 * k) 31 && s.fld (rtPg + 0x60 + 4 * k) 13 0 == h

/-- R308: a PLAN is refused with a code. -/
def Chip.planRefuse (s : Chip) (hd : PktHdr) (code : Nat) : Chip :=
  ((s.setFld (planPg + 0x60) 3 0 code).notice planPg 0).respond hd .noAccess

/-- The checks every packet to port 0x7E meets first: its port's binding (R184), its class (R512). -/
def Chip.toTriad (s : Chip) (port : Nat) (pkt : Packet) (f : Chip → Chip) : Chip :=
  let go := fun s : Chip =>
    if s.addressed = false then s
    else if s.spoofed port pkt.hdr.srcHost then s.spoofCount.respond pkt.hdr .noAccess
    else if pkt.hdr.cls ≠ 4 then s.respond pkt.hdr .noAccess
    else f s
  if pkt.hdr.typ = 0xC then s.turnOf (flesonId pkt.hdr.srcHost pkt.hdr.tag 0xC) go else go s

/-- The n-th little-endian number of k bytes from byte a of a payload. -/
def payNat (p : List Byte) (a k : Nat) : Nat := leNat ((p.drop a).take k)

/-- PLAN LOAD (R308). -/
def execPlanLoad (port : Nat) (pkt : Packet) : State → Host.Outcome State Fault Refusal :=
  liftC fun s => s.toTriad port pkt fun s =>
    let first := payNat pkt.payload 8 2
    let n := payNat pkt.payload 10 2
    let pid := payNat pkt.payload 4 4
    if s.planAuth pkt.hdr.srcHost = false then s.planRefuse pkt.hdr 1
    else if s.planPending then s.planRefuse pkt.hdr 7
    else if 16384 < first + n ∨ n = 0 ∨ 1024 < n then s.planRefuse pkt.hdr 2
    else if s.plan.named ∧ (s.reg (planPg + 0x48)).toNat ≠ pid then s.planRefuse pkt.hdr 6
    else
      let m := (List.range n).foldl (fun m i =>
        KMap.put m 0 (first + i) (payNat pkt.payload (16 + 8 * i) 8)) s.plan.pend
      let s := { s with plan.pend := m, plan.named := true }
      let s := s.setReg (planPg + 0x48) (BitVec.ofNat 32 pid)
      let s := s.setFld (planPg + 0x64) 30 16 (max (s.fld (planPg + 0x64) 30 16) (first + n))
      s.respond pkt.hdr .ok

/-- R235: the entries of a cell that do not fit beside `used` flits of promises, taken in the order of
the list: their number and their flits (log entry 91). -/
def cellOut : Nat → List Nat → Nat × Nat
  | _, [] => (0, 0)
  | used, f :: l =>
    if used + f ≤ 23 then cellOut (used + f) l
    else let (n, k) := cellOut used l; (n + 1, k + f)

/-- R235: a plan that is entered from tick `take` on: the entries that would displace an accepted promise
are not entered; each is counted in PR_PLAN_CONFLICT and raises the event. -/
def Chip.enterPlan (s : Chip) (take : Nat) : Chip :=
  match s.planAt take with
  | none => s
  | some (rs, org, frame) =>
    let bs := ((s.prom.ch.filter fun c => decide (take ≤ s.slotTick c.slot) &&
      (s.blockRec rs org frame c.n c.slot).isSome).map fun c => (org, c.n, c.slot)).eraseDups
    let cells := ((s.prom.eg.filter fun e => decide (take ≤ 128 * e.cell) && e.port != 96).map
      fun e => (e.port, e.cell)).eraseDups
    let outs := cells.map fun c =>
      let used := ((s.prom.eg.filter fun x => x.port == c.1 && x.cell == c.2).map (·.amt)).sum
      (c, cellOut used ((cellRecs rs org frame c.1 (128 * c.2)).map recFlits))
    let outs := outs.filter fun o => o.2.1 != 0
    let k := bs.length + (outs.map (·.2.1)).sum
    let s := { s with plan.outBlocks := s.plan.outBlocks ++ bs
                      plan.outCells := s.plan.outCells ++ outs.map fun o => (org, o.1.1, o.1.2, o.2.2) }
    if k = 0 then s else forEach (List.range k) (fun _ s => s.notice prPg 2) (s.bumpBy (prPg + 0x54) k)

/-- R235: what promises kept out of the plans whose origin is not to be kept is forgotten. -/
def Chip.forgetOuts (s : Chip) (keep : Nat → Bool) : Chip :=
  { s with plan.outBlocks := s.plan.outBlocks.filter fun o => keep o.1
           plan.outCells := s.plan.outCells.filter fun o => keep o.1 }

/-- PLAN COMMIT (R308, R309). -/
def execPlanCommit (port : Nat) (pkt : Packet) : State → Host.Outcome State Fault Refusal :=
  liftC fun s => s.toTriad port pkt fun s =>
    let pid := payNat pkt.payload 4 4
    let frame := payNat pkt.payload 8 2 + 65536 * (payNat pkt.payload 10 2 % 32)
    let take := payNat pkt.payload 16 8
    let org := s.pair (planPg + 0x50)
    let cur := s.fld (planPg + 0x4C) 20 0
    if s.planAuth pkt.hdr.srcHost = false then s.planRefuse pkt.hdr 1
    else if s.planPending then s.planRefuse pkt.hdr 7
    else if s.plan.named = false ∨ (s.reg (planPg + 0x48)).toNat ≠ pid then s.planRefuse pkt.hdr 6
    else if frame % 128 ≠ 0 ∨ frame < 4096 ∨ 1048576 < frame then s.planRefuse pkt.hdr 3
    else if take < s.now + 100000 ∨
        (if s.planActive then take < org ∨ (take - org) % (max cur 1) ≠ 0 else take % 128 ≠ 0)
    then s.planRefuse pkt.hdr 4
    else match planList s.plan.pend 16384 0 with
      | none => s.planRefuse pkt.hdr 5
      | some l =>
        if s.planOk frame l = false then s.planRefuse pkt.hdr 5
        else
          let s := { s with plan.frame := frame }
          let s := s.setPair (planPg + 0x58) take
          let s := s.setFlag (planPg + 0x40) 1 true
          (s.enterPlan take).respond pkt.hdr .ok

/-- PLAN ABORT (R308): the pending bank empties and a pending commit is cancelled. -/
def execPlanAbort (port : Nat) (pkt : Packet) : State → Host.Outcome State Fault Refusal :=
  liftC fun s => s.toTriad port pkt fun s =>
    if s.planAuth pkt.hdr.srcHost = false then s.planRefuse pkt.hdr 1
    else
      let s := if s.planPending then
          let take := s.pair (planPg + 0x58)
          s.forgetOuts fun o => o != take
        else s
      let s := { s with plan.pend := [], plan.named := false, plan.frame := 0 }
      let s := s.setFlag (planPg + 0x40) 1 false
      let s := (s.setReg (planPg + 0x48) 0).setFld (planPg + 0x64) 30 16 0
      s.respond pkt.hdr .ok

/-- PLAN_TAKE (R309): at TAKE the banks swap, the origin becomes TAKE and the old bank empties. -/
def execPlanTake : State → Host.Outcome State Fault Refusal :=
  liftC fun s =>
    let take := s.pair (planPg + 0x58)
    if s.planPending ∧ take ≤ s.now then
      let l := (planList s.plan.pend 16384 0).getD []
      let frame := s.plan.frame
      let s := s.forgetOuts fun o => o == take
      let s := { s with plan := { s.plan with cur := l, pend := [], named := false, frame := 0 } }
      let s := s.setReg (planPg + 0x44) (s.reg (planPg + 0x48))
      let s := (s.setReg (planPg + 0x48) 0).setFld (planPg + 0x4C) 20 0 frame
      let s := s.setPair (planPg + 0x50) take
      let s := s.setReg (planPg + 0x64) (BitVec.ofNat 32 (s.fld (planPg + 0x64) 30 16))
      let s := s.setFld (planPg + 0x40) 2 0 (1 + 4 * (1 - s.fld (planPg + 0x40) 2 2))
      s.notice planPg 1
    else s

end Sys2Proof.Machine
end

