-- ==== Sys2Proof/Machine/Calendar.lean ====
section
/-! DEFINITION. The calendars of the admission controller and EARLIEST_FIT on each of them: channel
slots, tracker entries, egress cells, cluster occupancy (R234 to R242). -/

namespace Sys2Proof.Machine

/-- The first number from j on, among n, that satisfies p. -/
def firstFrom (p : Nat → Bool) : Nat → Nat → Option Nat
  | 0, _ => none
  | n + 1, j => if p j then some j else firstFrom p n (j + 1)

/-- R234: horizons: block slots, and 128-tick cells. -/
def chHorizon : Nat := 262144
def cellHorizon : Nat := 98304

/-- R390: the tick at which a unit's fence was lifted, if it was. -/
def Chip.liftedAt (s : Chip) (u : UnitId) : Option Nat := s.prom.lifted.lookup u

/-- R390: the first 128-tick cell of a unit that may be reserved. -/
def Chip.cellOpen (s : Chip) (u : UnitId) : Nat :=
  match s.liftedAt u with
  | some t => t / 128 + cellHorizon
  | none => 0

/-- R390: the first block slot of controller n that may be reserved. -/
def Chip.slotOpen (s : Chip) (n : Nat) : Nat :=
  match s.liftedAt (.mc n) with
  | some t => s.slotAt t + chHorizon
  | none => 0

/-! ## Quotas and throttles (R241, R242) -/

def Chip.quotaOf (s : Chip) (p : Nat) : Quota := KMap.at s.prom.quota {} p

/-- R9, R241: a further amount in an epoch keeps within QUOTA/1,024 of the instance's capacity. -/
def quotaOk (q used more cap : Nat) : Bool := 1024 ≤ q || decide ((used + more) * 1024 ≤ q * cap)

/-- R9: the epoch in which slot j nominally starts. -/
def Chip.slotEpoch (s : Chip) (j : Nat) : Nat := s.slotStart j / 16 / 1000

/-- Slots of an epoch. -/
def Chip.epochSlots (s : Chip) (e : Nat) : Nat := s.slotFrom (1000 * (e + 1)) - s.slotFrom (1000 * e)

/-- R241: the CH quota of partition p has room in slot j of controller n. -/
def Chip.chQuotaOk (s : Chip) (p n j : Nat) : Bool :=
  let e := s.slotEpoch j
  quotaOk (s.quotaOf p).ch
    (s.prom.ch.filter fun c => c.part == p && c.n == n && s.slotEpoch c.slot == e).length 1
    (s.epochSlots e)

/-- R242: requester x may take slot j of controller n. -/
def Chip.throttleOk (s : Chip) (x n j : Nat) : Bool :=
  !(s.prom.thr.any fun t => t.x == x && t.n == n && decide (s.now < t.stop)) ||
  s.prom.ch.all fun c => !(c.n == n && c.x == x) || decide (c.slot + 16 ≤ j ∨ j + 16 ≤ c.slot)

/-- The slot an access holds in its phase. -/
def heldSlot (a : Acc) : Option Nat :=
  match a.phase with
  | .rmw _ => a.slot2
  | _ => a.slot

/-- R163: a block of bank k in slot j and one of bank k' in slot i obey one block a slot, half alternation
and bank recovery. -/
def slotsFit (j k i k' : Nat) : Bool :=
  i != j && (decide (i + 3 ≤ j ∨ j + 3 ≤ i) || slotsAgree (if j < i then i - j else j - i) k k')

/-- R163: a block of bank k may have slot j of controller n beside the windows, the slots of promises and
those that accesses under way hold. -/
def Chip.slotRules (s : Chip) (n k j : Nat) : Bool :=
  s.windowsAllow n k j && (s.prom.ch.all fun c => c.n != n || slotsFit j k c.slot c.bank) &&
  s.accs.all fun a => match heldSlot a with
    | some i => s.ctrlOf a.pb != n || slotsFit j k i (s.bankOf a.pb)
    | none => true

/-- R163, R234, R235, R237, R241, R242: slot j of controller n is free for a block of bank k of partition
p and requester x. -/
def Chip.slotFree (s : Chip) (n k p x j : Nat) : Bool :=
  !s.isFenced (.mc n) && s.slotRules n k j && (s.planBlock n j).isNone && s.throttleOk x n j &&
  s.chQuotaOk p n j

/-- R239: the earliest free slot at or after tick t and slot j0 for block b of a request; reserved
for it. -/
def Chip.fitSlot (s : Chip) (owner b p x t j0 : Nat) (dir : Bool) : Option (Nat × Chip) :=
  let n := s.ctrlOf b
  let k := s.bankOf b
  let j := max (max (s.slotFrom t) j0) (s.slotOpen n)
  let stop := s.slotAt s.now + chHorizon
  (firstFrom (s.slotFree n k p x) (stop - j) j).map fun j =>
    (j, { s with prom.ch := s.prom.ch ++ [ChRes.mk n j k b p owner dir x] })

/-! ## Tracker entries (R213, R243, R510) -/

/-- R234: at tick t a further entry with a bitmap is free. -/
def trkFreeAt (us : List (Nat × Nat × Bool)) (t : Nat) : Bool :=
  decide ((usesAt us t).1 < 1024 ∧ (usesAt us t).2 < 16)

/-- R234: an entry with a bitmap is free throughout [t, t + n). -/
def trkRoom (us : List (Nat × Nat × Bool)) (t n : Nat) : Bool :=
  trkFreeAt us t && us.all fun u => !decide (t < u.1 ∧ u.1 < t + n) || trkFreeAt us u.1

/-- R239, R243, R510: the earliest interval of a recall from t on; reserved. While a RANGE or SET
recall waits for what it needs, no reservation starts within the bound of its wait. -/
def Chip.fitTrk (s : Chip) (owner t : Nat) : Option (Nat × Chip) :=
  let n := s.rclTmo + 40
  let t := if s.dir.waits.isEmpty then t else max t (s.now + n)
  let us := s.trkUses
  let cands := (t :: (us.map fun u => u.2.1).filter (fun x => decide (t < x))).filter
    fun x => decide (x < s.now + 128 * cellHorizon) && trkRoom us x n
  match cands with
  | [] => none
  | c :: cs =>
    let t0 := cs.foldl min c
    some (t0 + n, { s with prom.trk := s.prom.trk ++ [⟨t0, t0 + n, owner, false⟩] })

/-! ## Egress cells (R234, R243) -/

/-- R234, R235: capacity of a cell of an egress port: flits, or bytes of the Ethernet port. -/
def Chip.egCap (s : Chip) (port cell : Nat) : Nat :=
  if port = 96 then s.ethCap
  else 23 - s.planFlits port (128 * cell)

/-- R241: capacity of an egress instance over an epoch. -/
def Chip.egEpochCap (s : Chip) (port e : Nat) : Nat :=
  let c0 := ceilDiv (1000 * e) 128
  ((List.range 8).map fun i =>
    if (128 * (c0 + i)) / 1000 = e then s.egCap port (c0 + i) else 0).sum

/-- R234, R241: what partition p may still take of a cell of an egress port. -/
def Chip.egRoom (s : Chip) (port p cell : Nat) : Nat :=
  let used := ((s.prom.eg.filter fun e => e.port == port && e.cell == cell).map (·.amt)).sum
  let room := s.egCap port cell - used
  let q := (s.quotaOf p).eg
  if 1024 ≤ q then room
  else
    let ep := 128 * cell / 1000
    let mine := ((s.prom.eg.filter fun e =>
      e.port == port && e.part == p && 128 * e.cell / 1000 == ep).map (·.amt)).sum
    min room (q * s.egEpochCap port ep / 1024 - mine)

/-- R239: egress cells for `need` units from a cell on, over n cells; the tick at which they end. -/
def Chip.fitEg (s : Chip) (owner port p : Nat) : Nat → Nat → Nat → Option (Nat × Chip)
  | 0, _, _ => none
  | n + 1, cell, need =>
    let k := min need (s.egRoom port p cell)
    let s' := if k = 0 then s
      else { s with prom.eg := s.prom.eg ++ [EgRes.mk port cell k p owner] }
    if need ≤ k then some (128 * (cell + 1), s')
    else Chip.fitEg s' owner port p n (cell + 1) (need - k)

/-- R244: the units that still fit in the cell under way at tick t: flit times of 5.12 ticks, or bytes. -/
def Chip.egLeft (s : Chip) (port t : Nat) : Nat :=
  let left := 128 * (t / 128 + 1) - t
  if port = 96 then left * (s.ethCap / 128) else 100 * left / 512

/-- R239, R243, R244: egress of a response of `need` units that is ready at t: what is left of the cell
under way then, and the cells after it (log entry 15). -/
def Chip.fitEgress (s : Chip) (owner port p t need : Nat) : Option (Nat × Chip) :=
  let open0 := s.cellOpen (if port = 96 then UnitId.eth else UnitId.link port)
  let n := s.now / 128 + cellHorizon - t / 128
  let k := min (min need (s.egRoom port p (t / 128))) (s.egLeft port t)
  if t % 128 = 0 ∨ k = 0 ∨ t / 128 < open0 ∨ n = 0 then
    let cell := max (ceilDiv t 128) open0
    s.fitEg owner port p (s.now / 128 + cellHorizon - cell) cell need
  else
    let s := { s with prom.eg := s.prom.eg ++ [EgRes.mk port (t / 128) k p owner] }
    if need ≤ k then some (128 * (t / 128 + 1), s)
    else s.fitEg owner port p (n - 1) (t / 128 + 1) (need - k)

/-- R297, R261: flits of a packet of n payload bytes: a 32 B header and the payload in 120 B each. -/
def flitsOf (n : Nat) : Nat := ceilDiv (32 + n) 120

/-- R341: largest piece of a RESP or BWR. -/
def Chip.pieceMax (s : Chip) : Nat := if s.flag (enPg + 0x40) 2 then 8192 else 1024

/-- R234, R354: Ethernet units of a RESP of n bytes to session i: each piece a frame, with its full
length and 20 B of overhead. -/
def Chip.respUnits (s : Chip) (i n : Nat) : Nat :=
  let p := s.pieceMax
  let full := n / p
  let rest := n % p
  full * (s.frameLen i p + 20) + (if rest = 0 ∧ 0 < full then 0 else s.frameLen i rest + 20)

/-! ## Cluster occupancy (R234, R247) -/

/-- R234: the service occupancies of cluster c that overlap cells [c0, c0 + n). -/
def Chip.clBusy (s : Chip) (c c0 n : Nat) : Bool :=
  s.prom.cl.any fun r => r.cluster == c && decide (r.c0 < c0 + n ∧ c0 < r.c0 + r.n)

/-- R247: the free service slot of a cluster, which is held from admission to the outcome. -/
def Chip.freeSvcSlot (s : Chip) (c : Nat) : Option Nat :=
  [0, 1].find? fun k => !(s.prom.cl.any fun r => r.cluster == c && r.slot == k)

/-- R241: cells of cluster c partition p takes in an epoch, of the cells that start in it. -/
def Chip.clQuotaOk (s : Chip) (p c c0 n : Nat) : Bool :=
  let q := (s.quotaOf p).cl
  1024 ≤ q ||
  (List.range (n * 128 / 1000 + 2)).all fun i =>
    let e := 128 * c0 / 1000 + i
    let lo := ceilDiv (1000 * e) 128
    let hi := ceilDiv (1000 * (e + 1)) 128
    let cut := fun a m => min hi (a + m) - max lo a
    let mine := ((s.prom.cl.filter fun r => r.cluster == c && r.part == p).map fun r => cut r.c0 r.n).sum
    let more := cut c0 n
    more = 0 || quotaOk q mine more (hi - lo)

/-- R247 step 2: some unfenced cluster of the list can take n cells from cell c0, the lowest of
them. -/
def Chip.clFit (s : Chip) (cls : List Nat) (p n c0 : Nat) : Option Nat :=
  cls.find? fun c => !s.clBusy c c0 n && (s.freeSvcSlot c).isSome && s.clQuotaOk p c c0 n &&
    decide (s.cellOpen (.cluster c) ≤ c0)

/-- R247 step 2: earliest occupancy from tick t on; reserved: cell, cluster, service slot. -/
def Chip.fitCl (s : Chip) (owner : Nat) (cls : List Nat) (p t n : Nat) :
    Option (Nat × Nat × Nat × Chip) :=
  let c0 := ceilDiv t 128
  match firstFrom (fun c0 => (s.clFit cls p n c0).isSome) (s.now / 128 + cellHorizon - c0) c0 with
  | none => none
  | some c0 => match s.clFit cls p n c0 with
    | none => none
    | some c =>
      let k := (s.freeSvcSlot c).getD 0
      some (c0, c, k, { s with prom.cl := s.prom.cl ++ [ClRes.mk c c0 n k p owner] })

end Sys2Proof.Machine
end

