-- ==== Sys2Proof/Machine/Admit.lean ====
section
/-! DEFINITION. Requests: their arrival at a port, what is answered before admission, ADMIT with its
placement step by step, and refusals (R193, R223, R224, R229 to R247, R354 to R358, R512). -/

namespace Sys2Proof.Machine

/-! ## Answers -/

/-- R299: the fabric header a request's response is built from. -/
def reqHd (r : Req) : PktHdr :=
  { hdr0 with srcHost := r.host, tag := r.tag, srcChip := r.srcChip, srcPort := r.srcPort }

/-- R340: the header of a datagram that answers a request. -/
def reqXhdr (r : Req) (st : Status) : XhtHdr :=
  { xhdr0 with
    typ := if r.kind = .svc then 7 else 2
    session := r.session, chan := r.chan, seq := r.seq, tag := r.tag, cls := r.cls
    status := stCode st }

/-- A datagram to the address a request latched (R345), unshaped; td is its T_d where it holds a
reservation. -/
def Chip.toReq (s : Chip) (r : Req) (h : XhtHdr) (p : List Byte) (td : Option Nat) : Chip :=
  s.ethSend r.part (frameTo r.addr p.length) (.xht r.addr ⟨{ h with len := p.length }, p⟩) td

/-- R224: the version of a request's region, for VALUE. -/
def Chip.verOf (s : Chip) (r : Req) : Option Nat :=
  match r.region with
  | none => none
  | some g => if r.kind = .publish then some (KMap.at s.regions {} g).version else some r.base

/-- R414: the code of a request's type in a packet. -/
def kindCode : ReqKind → Nat
  | .rd => 1 | .wr => 2 | .rdc => 3 | .publish => 6 | .brd => 4 | .bwr => 5 | .svc => 6

/-- R414: the identity of a request. -/
def reqId (r : Req) : Nat :=
  if r.port = 96 then xhtId r.session r.chan r.seq else flesonId r.host r.tag (kindCode r.kind)

/-- R193, R298, R352: an answer before admission: a status and no data. -/
def Chip.answer (s : Chip) (r : Req) (st : Status) : Chip :=
  if r.port = 96 then s.toReq r (reqXhdr r st) [] none
  else
    let h := s.respHd (reqHd r) st
    match (if r.kind = .publish then s.verOf r else none) with
    | none => s.emit (.packet ⟨h, []⟩)
    | some v => s.emit (.packet ⟨{ h with ver := true, value := v }, []⟩)

/-- R237, R413: a request answered at its port takes its order there. -/
def Chip.answerNow (s : Chip) (r : Req) (st : Status) : Chip := (s.orderIn (reqId r) r.th 0).answer r st

/-- R347, R413: a repeated request that is answered from its entry takes its order there. -/
def Chip.repeatNow (s : Chip) (q : CmdReq) (typ : Nat) : Chip :=
  let s := (s.leaveIngress q).orderIn (xhtId q.session q.chan q.seq) s.now 0
  (s.recorded q typ).getD s

/-- R240, R297, R298, R357: REFUSED with its hint; STATUS is 0 in a packet other than RESP. -/
def Chip.refuse (s : Chip) (r : Req) (hint : Nat) : Chip :=
  let s := s.bump (prPg + 0x48)
  if r.port = 96 then
    s.toReq r { reqXhdr r .refused with hasValue := true, word3 := hint % 2 ^ 32,
                                        word4 := hint / 2 ^ 32 } [] none
  else
    s.emit (.packet ⟨{ s.respHd (reqHd r) .ok with typ := 9, ver := true, value := hint }, []⟩)

/-! ## Blocks and regions -/

/-- R160: the blocks a range touches: index, first byte in the block, bytes. -/
def blocksOf (off len : Nat) : List (Nat × Nat × Nat) :=
  (List.range ((off + len - 1) / 2048 + 1 - off / 2048)).map fun i =>
    let b := off / 2048 + i
    let lo := if i = 0 then off % 2048 else 0
    (b, lo, min 2048 (off + len - 2048 * b) - lo)

/-- R222: the regions in force. -/
def Chip.regionsOn (s : Chip) : List (Nat × Region) :=
  s.regions.filter fun g => g.2.valid && g.2.created

/-- Whether block ranges [a, a + n) and [b, b + m) meet. -/
def meets (a n b m : Nat) : Bool := decide (a < b + m ∧ b < a + n)

/-- R223: the region whose own offsets a block range meets. -/
def Chip.regionAt (s : Chip) (b n : Nat) : Option (Nat × Region) :=
  s.regionsOn.find? fun g => meets b n g.2.base g.2.count

/-- R223: a block range names a shadow. -/
def Chip.inShadow (s : Chip) (b n : Nat) : Bool :=
  s.regionsOn.any fun g => meets b n g.2.shadow g.2.count

/-- R223: the block served for block b by the body of a region. -/
def bodyBlk (g : Region) (body b : Nat) : Nat :=
  if g.base ≤ b ∧ b < g.base + g.count ∧ body = 1 then g.shadow + (b - g.base) else b

/-- R223: the block of memory a request's block b is served from: by each region the range meets in the
body of its own that the request reads. -/
def Chip.bodyOf (s : Chip) (r : Req) (b : Nat) : Nat :=
  let bs := (match r.region with | some g => [(g, r.body)] | none => []) ++ r.others
  bs.foldl (fun b' x => if b' = b then bodyBlk (KMap.at s.regions {} x.1) x.2 b else b') b

/-- R223: the block that block b is served from now. -/
def Chip.bodyNow (s : Chip) (b : Nat) : Nat :=
  match s.regionAt b 1 with
  | some (_, g) => bodyBlk g g.cur b
  | none => b

/-- First block and number of blocks of a pool range. -/
def blkSpan (off len : Nat) : Nat × Nat := (off / 2048, (off + len - 1) / 2048 + 1 - off / 2048)

/-! ## P3 blocks (R246) -/

/-- R246: the key of an access descriptor in a payload. -/
def svcKey (d : List Byte) (a : SvcAcc) : Nat := leNat ((d.drop a.keyOff).take 4)

/-- R246: the blocks of a service request with their W bit, computed exactly. -/
def svcBlocks (e : SvcEnt) (d : List Byte) : List (Nat × Bool) :=
  e.accs.flatMap fun a => (List.range a.nblk).map fun j =>
    (a.base + svcKey d a / 2 ^ a.shift * a.stride + j, a.w)

/-- R225, R237: the blocks a request needs at channel controllers: those it is served from, both bodies
of a publish, or those of its service. -/
def Chip.needBlocks (s : Chip) (r : Req) : List Nat :=
  match r.kind, r.region with
  | .svc, _ => (svcBlocks (KMap.at s.prom.svc {} r.entry) r.data).map fun x => s.bodyNow x.1
  | .publish, some g => (blocksOf r.off r.len).flatMap fun x =>
      [bodyBlk (KMap.at s.regions {} g) 0 x.1, bodyBlk (KMap.at s.regions {} g) 1 x.1]
  | _, _ => (blocksOf r.off r.len).map fun x => s.bodyOf r x.1

/-! ## Arrival -/

/-- R229: class deadline in ticks. -/
def classD (c : Nat) : Nat := if c = 0 then 4000 else if c = 1 then 12000 else 120000

/-- R229, R512: the class is one R229 lists for the kind. -/
def classOk (k : ReqKind) (c : Nat) : Bool :=
  match k with
  | .publish => c == 1 || c == 2 || c == 4
  | .svc => c == 3
  | _ => c == 0 || c == 1 || c == 2 || c == 4

/-- A request with what its header names; the rest is filled in at its decision. -/
def Chip.mkReq (s : Chip) (kind : ReqKind) (cls port host tag off len deadline : Nat)
    (data : List Byte) : Req :=
  { id := 0, kind := kind, cls := cls, part := s.partOfOff off, port := port, host := host,
    srcChip := 0, srcPort := 0, tag := tag, session := 0, addr := [], chan := 0, seq := 0,
    th := s.now
    td := s.now + (if deadline = 0 then classD cls else min deadline (classD cls))
    off := off, len := len, excl := false, chk := 0, data := data, promise := cls != 4, gens := [],
    region := none, body := 0, base := 0, new := 0, fixed := none, check := 0, entry := 0,
    cluster := 0, svcSlot := 0, occ0 := 0, occ := 0, dispatched := false, resp := none, model := [], dig := [],
    nblks := 0, sent := false }

/-- R405: kinds whose data CHECK covers: WR and PUBLISH. -/
def isWrite (k : ReqKind) : Bool :=
  match k with
  | .wr | .bwr | .publish => true
  | _ => false

/-- R223, R224: a range that keeps the rules of published regions, with the region it reads. -/
def Chip.regionStop (s : Chip) (r : Req) : Bool :=
  let (b, n) := blkSpan r.off r.len
  if s.inShadow b n then true
  else if r.kind = .publish then
    match s.regionAt b n with
    | none => true
    | some (_, g) =>
      decide (r.new ≤ r.base ∨ r.off % 2048 ≠ 0 ∨ r.len % 2048 ≠ 0 ∨ r.len = 0 ∨
        b < g.base ∨ g.base + g.count < b + n)
  else isWrite r.kind && (s.regionAt b n).isSome

/-- R192: a BRD from a partition-0 session of a range that lies wholly in HELD extents. -/
def Chip.heldRead (s : Chip) (r : Req) : Bool :=
  r.kind == .brd && s.sessPart r.session == 0 &&
  (extentsOf r.off r.len).all fun e => s.extState e == 5

/-- R193 step 1, R223, R224: a request whose port, class and length are in order meets the
router-side check and the rules of regions; it then waits for its decision with the region body and
the entries of its header tick. -/
def Chip.arrive (s : Chip) (r : Req) : Chip :=
  let (b, n) := blkSpan r.off r.len
  let r := if s.heldRead r then { r with part := 0 } else r
  let r := match s.regionsOn.filter fun g => meets b n g.2.base g.2.count with
    | [] => r
    | (i, g) :: l => { r with region := some i, body := g.cur
                              others := l.map fun x => (x.1, x.2.cur)
                              base := if r.kind = .publish then r.base else g.version }
  if s.routerCheck r.host (isWrite r.kind) r.off r.len = false ∧ s.heldRead r = false then
    (s.bump (risoPg + 0x64)).answerNow r .noAccess
  else if s.regionStop r then s.answerNow r .noAccess
  else { s with prom.hdrs := s.prom.hdrs ++ [{ r with gens := s.matched r.host r.off r.len }] }

/-- R238: the port holds a header that awaits its decision. -/
def Chip.portBusy (s : Chip) (port : Nat) : Bool := s.prom.hdrs.any fun r => r.port == port

/-- R184, R405, R512: what a fabric request meets at its port. -/
def Chip.fabricReq (s : Chip) (kind : ReqKind) (port : Nat) (pkt : Packet) : Chip :=
  let h := pkt.hdr
  let pub := kind = .publish
  let r := s.mkReq kind h.cls port h.srcHost h.tag h.offset (if pub then h.len - 16 else h.len)
    h.deadline (if pub then pkt.payload.drop 16 else pkt.payload)
  let r := { r with
    srcChip := h.srcChip, srcPort := h.srcPort, excl := h.excl, chk := h.chk, check := h.check
    base := if pub then payNat pkt.payload 0 8 else 0
    new := if pub then payNat pkt.payload 8 8 else 0
    region := if pub then (s.regionAt (blkSpan r.off r.len).1 (blkSpan r.off r.len).2).map (·.1) else none }
  if s.addressed = false ∨ s.portBusy port then s
  else if s.spoofed port h.srcHost then s.spoofCount.answerNow r .noAccess
  else if classOk kind h.cls = false ∨ (h.len = 0 ∧ kind ≠ .publish) then s.answerNow r .noAccess
  else if h.chk = 3 then (s.bump (cvgPg + 0x4C)).answerNow r .noAccess
  else s.arrive r

/-- RD (R298, R238). -/
def execRd (port : Nat) (pkt : Packet) : State → Host.Outcome State Fault Refusal :=
  liftC fun s => s.fabricReq .rd port pkt

/-- WR (R298, R238). -/
def execWr (port : Nat) (pkt : Packet) : State → Host.Outcome State Fault Refusal :=
  liftC fun s => s.fabricReq .wr port pkt

/-- RDC (R210, R298). One over the Ethernet port is not defined: it has no message. -/
def execRdc (port : Nat) (pkt : Packet) : State → Host.Outcome State Fault Refusal :=
  liftC fun s => s.fabricReq .rdc port pkt

/-- PUBLISH (R224). -/
def execPublish (port : Nat) (pkt : Packet) : State → Host.Outcome State Fault Refusal :=
  liftC fun s => s.fabricReq .publish port pkt

/-! ## XHT requests -/

/-- R347: the request's entry is recorded and answers it; a BRD whose outcome was sent is decided
afresh. -/
def Chip.repeated (s : Chip) (q : CmdReq) (kind : ReqKind) : Bool :=
  match winEnt (s.winOf q.session q.chan) q.seq with
  | some e => !(e.sent && kind == .brd)
  | none => false

/-- R355: what a BRD or BWR meets at the port: its class, its length, and the checks of every
request with the session's HOST. -/
def Chip.xhtReq (s : Chip) (kind : ReqKind) (q : CmdReq) (cls off len deadline : Nat)
    (data : List Byte) : Chip :=
  let r := s.mkReq kind cls 96 (s.sessHost q.session) q.tag off len deadline data
  let r := { r with session := q.session, addr := s.sessRec q.session, chan := q.chan, seq := q.seq }
  if s.sessValid q.session = false ∨ s.portBusy 96 then s
  else if s.repeated q kind then s.repeatNow q 2
  else if q.chan ≠ 16 ∨ classOk kind cls = false ∨ len = 0 then (s.leaveIngress q).answerNow r .noAccess
  else (s.leaveIngress q).arrive r

/-- BRD (R355). -/
def execBrd (q : CmdReq) (cls off len deadline : Nat) : State → Host.Outcome State Fault Refusal :=
  liftC fun s => s.xhtReq .brd q cls off len deadline []

/-- R340: the pool offset and the requested deadline of a datagram. -/
def xOffset (h : XhtHdr) : Nat := h.word3 + 2 ^ 32 * (h.word4 % 256)
def xDeadline (h : XhtHdr) : Nat := h.word4 / 256

/-- R356: bytes of the staging buffer in use. -/
def Chip.staged (s : Chip) : Nat := (s.eth.stages.map (·.len)).sum

/-- R356: a staged BWR is discarded, counted in the register given. -/
def Chip.stageDrop (s : Chip) (i seq reg : Nat) : Chip :=
  Chip.notice ({ s with eth.stages := s.eth.stages.filter fun g => !(g.session == i && g.seq == seq) }.bump reg)
    enPg 3

/-- R356: the pieces of a staged message in order are its bytes, if none is missing. -/
def joinPieces (ps : List (Nat × List Byte)) : Nat → Nat → Option (List Byte)
  | 0, _ => none
  | n + 1, pos => match ps.find? fun p => p.1 == pos && !p.2.isEmpty with
    | none => some []
    | some p => (joinPieces ps n (pos + p.2.length)).map (p.2 ++ ·)

/-- BWR (R341, R355, R356): a single piece is decided at once; else the piece is staged, and the message
is decided as one request once it is whole. A piece larger than a datagram may carry is discarded. -/
def Chip.bwrPiece (s : Chip) (d : Datagram) : Chip :=
  let h := d.hdr
  let q : CmdReq := ⟨h.session, h.chan, h.seq, h.tag⟩
  if s.sessValid h.session = false then s
  else if s.repeated q .bwr then s.repeatNow q 2
  else if s.pieceMax < d.payload.length then (s.leaveIngress q).bump (enPg + 0x98)
  else if h.foff = 0 ∧ d.payload.length = h.len then
    s.xhtReq .bwr q h.cls (xOffset h) h.len (xDeadline h) d.payload
  else
   let s := s.leaveIngress q
   match s.eth.stages.find? fun g => g.session == h.session && g.seq == h.seq with
    | none =>
      if 4194304 < s.staged + h.len then s.stageDrop h.session h.seq (enPg + 0xA4)
      else if h.len < h.foff + d.payload.length then s.stageDrop h.session h.seq (enPg + 0x98)
      else { s with eth.stages := s.eth.stages ++ [Stage.mk h.session h.seq h.tag h.cls (xOffset h)
              h.len (xDeadline h) s.now [(h.foff, d.payload)]] }
    | some g =>
      if g.len ≠ h.len ∨ g.tag ≠ h.tag ∨ g.cls ≠ h.cls ∨ g.off ≠ xOffset h ∨
          h.len < h.foff + d.payload.length ∨
          (g.pieces.any fun p => meets p.1 p.2.length h.foff d.payload.length)
      then s.stageDrop h.session h.seq (enPg + 0x98)
      else
        let ps := g.pieces ++ [(h.foff, d.payload)]
        match joinPieces ps (ps.length + 1) 0 with
        | none => s
        | some all =>
          if all.length = g.len then
            Chip.xhtReq { s with eth.stages := s.eth.stages.filter fun x =>
                            !(x.session == h.session && x.seq == h.seq) }
              .bwr q h.cls (xOffset h) h.len g.deadline all
          else { s with eth.stages := updWhere s.eth.stages
                          (fun x => x.session == h.session && x.seq == h.seq)
                          (fun x => { x with pieces := ps }) }

def execBwr (d : Datagram) : State → Host.Outcome State Fault Refusal :=
  liftC fun s => if s.portBusy 96 then s else s.bwrPiece d

/-- EN_STAGE_TMO (R356): the message is still incomplete EN_STAGE_TMO µs after its first piece. -/
def execEnStageTmo (session seq : Nat) : State → Host.Outcome State Fault Refusal :=
  liftC fun s => match s.eth.stages.find? fun g => g.session == session && g.seq == seq with
    | none => s
    | some g =>
      if g.first + 1000 * max (s.fld (enPg + 0x80) 15 0) 1 ≤ s.now
      then s.stageDrop session seq (enPg + 0xA8) else s

/-- R246, R358: every block of every access lies below MC_DATA_BLOCKS in an extent OWNED by the
entry's partition. -/
def Chip.svcOk (s : Chip) (e : SvcEnt) (d : List Byte) : Bool :=
  e.accs.all (fun a => decide (a.keyOff + 4 ≤ d.length)) &&
  (svcBlocks e d).all fun x => decide (x.1 < s.dataBlocks) && s.ownedBy e.part (x.1 / 32768)

/-- R246: a service request with what the service table holds for it when it is decided. -/
def Chip.withEntry (s : Chip) (r : Req) : Req :=
  let e := KMap.at s.prom.svc {} r.entry
  { r with part := e.part, td := r.th + 1000 * e.deadline }

/-- R246, R358: a service request names another partition's entry, or a block it may not reach. -/
def Chip.svcBad (s : Chip) (r : Req) : Bool :=
  let e := KMap.at s.prom.svc {} r.entry
  r.kind == .svc && e.valid && (e.part != s.sessPart r.session || !s.svcOk e r.data)

/-- SVC_REQ (R358): what answers it at its port; the service table is read at its decision (R246). -/
def execSvcReq (q : CmdReq) (entry : Nat) (data : List Byte) :
    State → Host.Outcome State Fault Refusal :=
  liftC fun s =>
    let r := s.mkReq .svc 3 96 (s.sessHost q.session) q.tag 0 data.length 0 data
    let r := s.withEntry { r with
      session := q.session, addr := s.sessRec q.session, chan := q.chan, seq := q.seq, entry := entry }
    let u := s.leaveIngress q
    if s.sessValid q.session = false ∨ s.portBusy 96 then s
    else if s.repeated q .svc then s.repeatNow q 7
    else if q.chan ≠ 16 ∨ data.length < 4 ∨ 8192 < data.length then u.answerNow r .noAccess
    else { u with prom.hdrs := s.prom.hdrs ++ [r] }

/-! ## Placement (R239, R243, R247) -/

/-- R239: a step that covers several blocks places each from t and ends at the latest of them. -/
def placeAll {α : Type} (l : List α) (f : Chip → α → Option (Nat × Chip)) (s : Chip) (t : Nat) :
    Option (Nat × Chip) :=
  l.foldl (fun o a => match o with
    | none => none
    | some (t', s) => (f s a).map fun (e, s) => (max t' e, s)) (some (t, s))

/-- The window of a region's publish queue (R245), kept beside the blocks'. -/
def regionWin (r : Nat) : Nat := 2 ^ 28 + r

/-- R243, R245: end of the latest recall window entered for block b, or publish window of its region. -/
def Chip.windowEnd (s : Chip) (t b : Nat) : Nat :=
  let reg := (s.regionAt b 1).map fun g => regionWin g.1
  (s.prom.win.filter fun w => w.b == b || some w.b == reg).foldl (fun t w => max t w.stop) t

/-- R243, payload step: flits of the whole request, 5.12 ticks each. -/
def payloadEnd (r : Req) : Nat :=
  let n := flitsOf (r.len + (if r.kind = .publish then 16 else 0))
  r.th + ceilDiv (512 * n) 100 + (if r.chk = 0 then 0 else 16)

/-- R209, R243, directory lookup of block b. A set that is lost, or whose controller is fenced, is not
read; its events wait for its handling (R221). -/
def Chip.fitLookup (s : Chip) (r : Req) (t b : Nat) : Option (Nat × Chip) :=
  if s.setCached (setOf b) then some (t + 16, s)
  else if s.dir.lost.contains (setOf b) ∨ s.isFenced (.mc (s.ctrlOf (s.setBlock (setOf b))))
  then some (t + 480, s)
  else (s.fitSlot r.id (s.setBlock (setOf b)) r.part 0 t 0 true).map fun (j, s) =>
    (max (t + 480) (s.slotTick j + 140), s)

/-- R243, recall term of block b. -/
def Chip.fitRecall (s : Chip) (r : Req) (t b : Nat) : Option (Nat × Chip) :=
  (s.fitTrk r.id t).map fun (e, s) => (e, { s with prom.win := s.prom.win ++ [⟨b, e, r.id⟩] })

/-- R170, R243: the slot or slots of a block, and the allowance of R164. -/
def Chip.fitBlock (s : Chip) (r : Req) (x t : Nat) (blk : Nat × Nat × Nat) : Option (Nat × Chip) :=
  let b := s.bodyOf r blk.1
  match s.fitSlot r.id b r.part x t 0 false with
  | none => none
  | some (j, s) =>
    if isWrite r.kind ∧ blk.2.2 < 2048 then
      (s.fitSlot r.id b r.part x t (j + 3) false).map fun (j, s) => (s.slotTick j + 165, s)
    else some (s.slotTick j + 165, s)

/-- R172: the requester X of a host or a context. -/
def hostX (h : Nat) : Nat := 0x4000 + h
def ctxX (c : Nat) : Nat := 0x8000 + c

/-- Units of a request's response at its egress port: flits, or Ethernet bytes. -/
def Chip.egNeed (s : Chip) (r : Req) : Nat :=
  let n := if isWrite r.kind then 0 else r.len
  if r.port = 96 then s.respUnits r.session n else flitsOf n

/-- R225: the body a queued publish will write, as the queue ahead of it decides it: VERSION and CUR
after every publish ahead whose BASE then fits. -/
def nextBody (g : Region) : Nat :=
  let (_, c) := g.queue.foldl (fun (v, c) p => if p.base = v then (p.new, 1 - c) else (v, c))
    (g.version, g.cur)
  1 - c

/-- R416: the mirror round trip admission adds on a paired chip. -/
def Chip.pairTerm (s : Chip) : Nat := if s.paired then 320 else 0

/-- R243: a P0 to P2 request is placed step by step. -/
def Chip.place (s : Chip) (r : Req) : Option (Nat × Chip) :=
  let blks := blocksOf r.off r.len
  let marked := (blks.map (·.1)).filter fun b => s.mapBit (setOf b)
  let t := r.th + 150
  let t := if isWrite r.kind ∧ r.port ≠ 96 then max t (payloadEnd r) else t
  let t := t + 96
  match placeAll marked (fun s b => s.fitLookup r t b) s t with
  | none => none
  | some (t, s) =>
    let t := (blks.map (·.1)).foldl s.windowEnd t
    let rcl := if isWrite r.kind ∨ (r.kind = .rdc ∧ r.excl) then marked else []
    match placeAll rcl (fun s b => s.fitRecall r t b) s t with
    | none => none
    | some (t, s) => match placeAll blks (fun s b => s.fitBlock r (hostX r.host) t b) s t with
      | none => none
      | some (t, s) => s.fitEgress r.id r.port r.part (t + 140 + s.pairTerm + 96) (s.egNeed r)

/-- R245: the slots of a publish's resync, a read of the new body and a write of the old for each
payload block, after the reads of the old body that are open; and the window of the region's queue
and of its payload blocks. The slots belong to the region. -/
def Chip.placeResync (s : Chip) (r : Req) (gi t : Nat) : Option (Nat × Chip) :=
  let g := KMap.at s.regions {} gi
  let t := (s.prom.reqs.filter fun x => x.region == some gi && x.kind != .publish && x.promise && !x.sent).foldl
    (fun t x => max t x.td) t
  let f := fun (s : Chip) (b : Nat × Nat × Nat) =>
    match s.fitSlot (2 ^ 32 + gi) (bodyBlk g r.body b.1) r.part 0 t 0 false with
    | none => none
    | some (j, s) => (s.fitSlot (2 ^ 32 + gi) (bodyBlk g (1 - r.body) b.1) r.part 0 t (j + 4) false).map
        fun (j, s) => (s.slotTick j + 165 + 140, s)
  (placeAll (blocksOf r.off r.len) f s t).map fun (e, s) =>
    (e, { s with prom.win := s.prom.win ++ [⟨regionWin gi, e, r.id⟩] })

/-- R247: a P3 request is placed step by step; the request with its cluster, slot and cells. -/
def Chip.placeSvc (s : Chip) (r : Req) (e : SvcEnt) (cls : List Nat) : Option (Nat × Req × Chip) :=
  let x := ctxX (32 * e.part + e.ctx)
  let blks := svcBlocks e r.data
  let t0 := r.th + 150 + e.inT
  let rd := fun (s : Chip) (b : Nat × Bool) =>
    (s.fitSlot r.id (s.bodyNow b.1) r.part x (s.windowEnd t0 b.1) 0 false).map fun (j, s) =>
      (s.slotTick j + 140 + 96 + 64, s)
  match placeAll blks rd s t0 with
  | none => none
  | some (rEnd, s) => match s.fitCl r.id cls r.part (rEnd + e.pre) e.occ with
    | none => none
    | some (c0, c, k, s) =>
      let t := 128 * (c0 + e.occ)
      let top := t + e.outT - 236
      let wr := fun (s : Chip) (b : Nat × Bool) =>
        match (if s.mapBit (setOf b.1) then s.fitRecall r t b.1 else some (t, s)) with
        | none => none
        | some (t, s) => match s.fitSlot r.id (s.bodyNow b.1) r.part x t 0 false with
          | none => none
          | some (j, s) => if s.slotTick j ≤ top then some (s.slotTick j, s) else none
      match placeAll (blks.filter (·.2)) wr s t with
      | none => none
      | some (_, s) =>
        (s.fitEgress r.id 96 r.part (t + e.outT + s.pairTerm) (e.respBytes + 40)).map fun (t, s) =>
          (t, { r with cluster := c, svcSlot := k, occ0 := c0, occ := e.occ }, s)

/-! ## The decision -/

/-- Open promises, of a partition or of the chip. -/
def Chip.opens (s : Chip) (p : Option Nat) : List Req :=
  s.prom.reqs.filter fun r => r.promise && (match p with | none => true | some p => r.part == p)

/-- R240: the earliest T_d among open promises. -/
def earliest (l : List Req) : Nat :=
  match l with
  | [] => 0
  | r :: l => l.foldl (fun t r => min t r.td) r.td

/-- R375, R380: controller n is being reset. -/
def Chip.mcResetting (s : Chip) (n : Nat) : Bool := (KMap.at s.mcs {} n).resetting.isSome

/-- R376: cluster c is being reset. -/
def Chip.clResetting (s : Chip) (c : Nat) : Bool := (KMap.at s.parts.clReset none c).isSome

def Chip.ctxAt (s : Chip) (x : Nat) : Ctx := KMap.at s.parts.ctxs {} x

/-- R132: the clusters a context owns, lowest first. -/
def Chip.ctxClusters (s : Chip) (x : Nat) : List Nat :=
  (s.parts.owner.filter fun e => e.2 == some x).map (·.1)

/-- R200, R237, R375, R388, R389, R470: what answers a header without admission: a revocation that ended
it, a fenced or resetting partition, port, controller, or, for P3, every cluster of its context. -/
def Chip.blockedBy (s : Chip) (r : Req) : Option Status :=
  let ns := (s.needBlocks r).map s.ctrlOf
  let x := 32 * r.part + (KMap.at s.prom.svc {} r.entry).ctx
  let cls := if r.kind = .svc then s.ctxClusters x else []
  if r.fixed.isSome then r.fixed.map (·.2)
  else if s.fld (chPg + 0x44) 1 0 = 2 then some .fenced
  else if s.partResetting r.part ∨ (r.port < 96 ∧ (KMap.at s.links {} r.port).resetting) then some .reset
  else if s.shut (.part r.part) then some .fenced
  else if r.port ≠ 96 ∧ s.shut (.link r.port) then some .fenced
  else if r.port = 96 ∧ s.shut .eth then some .fenced
  else if ns.any s.mcResetting then some .reset
  else if ns.any (fun n => s.shut (.mc n)) then some .fenced
  else if !cls.isEmpty ∧ cls.all s.clResetting then some .reset
  else if !cls.isEmpty ∧ cls.all (fun c => s.shut (.cluster c) || s.clResetting c) then some .fenced
  else none

/-- R229: the class's largest transfer in bytes. -/
def classMax (c : Nat) : Nat := if c = 1 then 65536 else 1048576

/-- R225, R229, R240: the rows of hint 0 that need no placement. -/
def Chip.forbidden (s : Chip) (r : Req) : Bool :=
  match r.kind with
  | .svc =>
    let e := KMap.at s.prom.svc {} r.entry
    !e.valid || (s.ctxAt (32 * e.part + e.ctx)).state != 2
  | k =>
    (if r.cls = 0 then (blkSpan r.off r.len).2 != 1 else decide (classMax r.cls < r.len)) ||
    (k == .publish && match r.region with
      | some g => decide (4 ≤ (KMap.at s.regions {} g).queue.length)
      | none => false)

/-- R219, R243: the block accesses of an accepted request, each with its reserved slots. -/
def Chip.accsOf (s : Chip) (r : Req) : List Acc :=
  (blocksOf r.off r.len).mapIdx fun k (b, lo, len) =>
    let pb := s.bodyOf r b
    let rs := (s.prom.ch.filter fun c => c.owner == r.id && c.b == pb && !c.dir).map (·.slot)
    { src := .req r.id k, port := if r.port = 96 then 2 else 0, b := b, pb := pb, lo := lo,
      len := len, write := isWrite r.kind, rdc := r.kind == .rdc, excl := r.excl, part := r.part,
      x := hostX r.host
      data := if isWrite r.kind then (r.data.drop (2048 * b + lo - r.off)).take len else []
      slot := rs.head?, slot2 := rs[1]?, checked := false, phase := .waitDir, st := .ok, reg := false
      lock := r.promise && s.mapBit (setOf b) && s.setCached (setOf b)
      tick := s.now, late := false }

/-- R405: the CHECK of a WR or PUBLISH does not match its payload. -/
def e2eBad (r : Req) : Bool :=
  (r.kind == .wr || r.kind == .publish) && r.chk != 0 &&
  decide (r.check ≠ checkOf r.chk r.off r.tag
    ((if r.kind = .publish then leBytes 8 r.base ++ leBytes 8 r.new else []) ++ r.data))

/-- R405: a failed end-to-end check ends the request UE; no block is written. -/
def Chip.e2eFail (s : Chip) (r : Req) : Chip :=
  let s := s.endReqs (fun x => x.id == r.id) .ue
  let s := s.bump (cvgPg + 0x40)
  let s := s.setReg (cvgPg + 0x44) (BitVec.ofNat 32 (r.port + 65536 * r.host))
  let s := s.setReg (cvgPg + 0x48) (BitVec.ofNat 32 r.tag)
  s.itemErr cvgPg 0 0 { faultOf cvgPg 1 0 with part := r.part, unit := r.port,
                                               info := r.host + 65536 * r.tag }

/-- R208, R209: a lookup has to read set d first: its map bit is 1, it is not cached and not just read. -/
def Chip.needsSet (s : Chip) (d : Nat) : Bool := s.mapBit d && !s.setCached d && !s.dir.got.contains d

/-- R208, R209: set d is read through port 4 and counted in DIR_CMISS; in the slot that request `id`
has reserved for it, if it has. A read that waits already takes such a slot over. -/
def Chip.wantSet (s : Chip) (d : Nat) (id : Option Nat) : Chip :=
  let slot := (s.prom.ch.find? fun c => some c.owner == id && c.dir && c.b == s.setBlock d).map (·.slot)
  if s.accs.any fun a => a.src == .set d .lookup then
    if slot.isSome then s.updAccs (fun a => a.src == .set d .lookup && a.slot.isNone) fun a => { a with slot := slot }
    else s
  else Chip.bump { s with accs := s.accs ++ [s.setAccess d .lookup slot] } (dirPg + 0x6C)

/-- R209: the lookups of an accepted request start: the sets they need are read. -/
def Chip.wantSets (s : Chip) (r : Req) : Chip :=
  if r.kind = .svc then s
  else forEach ((blocksOf r.off r.len).map fun x => setOf x.1) (fun d s =>
    if s.needsSet d then s.wantSet d (some r.id) else s) s

/-- R225, R243: an accepted publish enters its region's queue; the cached sets of its blocks are locked
until its start. -/
def Chip.enqueuePub (s : Chip) (r : Req) : Chip :=
  match r.kind, r.region with
  | .publish, some gi =>
    let g := KMap.at s.regions {} gi
    let (b, n) := blkSpan r.off r.len
    let locks := (((List.range n).map fun i => setOf (b + i)).filter fun d =>
      r.promise && s.mapBit d && s.setCached d).eraseDups
    { s with regions := KMap.put s.regions {} gi
               { g with queue := g.queue ++ [Pub.mk r.id r.base r.new (b - g.base) n locks] } }
  | _, _ => s

/-- R249, R386, R398: the entry of an accepted promise is written; one that an injection strikes with
two flipped bits ends FENCED, one flipped bit is corrected. -/
def Chip.promiseWord (s : Chip) (r : Req) : Chip :=
  match s.strike prPg with
  | (0, s) => s
  | (1, s) => s.countErr prPg 4 0 0 true
  | (_, s) => (s.endReqs (fun x => x.id == r.id) .fenced).itemErr prPg 5 0
      { faultOf prPg 1 5 with inj := true, kind := 14, part := r.part, unit := r.part, info := r.id }

/-- R238, R347: a request is accepted: it takes its admission sequence number, its XHT entry is
recorded, its block accesses start toward the directory. -/
def Chip.accept (s : Chip) (r : Req) : Chip :=
  let ctx := 32 * r.part + (KMap.at s.prom.svc {} r.entry).ctx
  let r := if r.kind = .svc then
      { r with model := KMap.at s.att.models (List.replicate 48 0) ctx
               audit := (s.auditSess r.part).map fun i => (i, s.sessRec i) }
    else r
  let s := { s with prom.reqs := s.prom.reqs ++ [r]
                    prom.seq := (if r.id = s.prom.seq then r.id + 1 else s.prom.seq) % 2 ^ 32 }
  let s := if r.promise then s.bump (prPg + 0x44) else s
  let s := if r.port = 96 ∧ (winEnt (s.winOf r.session r.chan) r.seq).isNone
    then s.record r.session r.chan r.seq false .ok 0 else s
  let as := if r.kind = .publish ∨ r.kind = .svc then [] else s.accsOf r
  let s := { s with accs := s.accs ++ as }
  let s := s.updReqs (fun x => x.id == r.id) fun x => { x with nblks := as.length }
  let s := (s.enqueuePub r).wantSets r
  let s := if e2eBad r then s.e2eFail r else s
  if r.promise then s.promiseWord r else s

/-- R239, R240: what a decision comes to: an answer before admission, REFUSED with its hint, or the
request accepted, with what its placement entered. -/
inductive Verdict where
  | answer (st : Status)
  | refuse (hint : Nat)
  | accept (r : Req) (s : Chip)

/-- R239: the decision on a request with its admission sequence number. -/
def Chip.verdict (s : Chip) (r : Req) : Verdict :=
  let qt := min (s.quotaOf r.part).openMax 65536
  match (if s.svcBad r then some .noAccess else s.blockedBy r) with
  | some st => .answer st
  | none =>
    if s.forbidden r then .refuse 0
    else if r.promise = false then .accept r s
    else if 65536 ≤ (s.opens none).length then .refuse (earliest (s.opens none))
    else if qt ≤ (s.opens (some r.part)).length then .refuse (earliest (s.opens (some r.part)))
    else
      let e := KMap.at s.prom.svc {} r.entry
      let cls := (s.ctxClusters (32 * e.part + e.ctx)).filter fun c =>
        !(s.shut (.cluster c) || s.clResetting c)
      let pl := if r.kind = .svc then s.placeSvc r e cls
        else (s.place r).map fun (t, s) => (t, r, s)
      match pl with
      | none => .refuse 0
      | some (t, r, u) =>
        if r.td < t + 1500 then .refuse (r.th + 128 * ceilDiv (t + 1500 - r.td) 128)
        else match r.kind, r.region with
          | .publish, some g => match u.placeResync r g t with
            | none => .refuse 0
            | some (_, u) => .accept r u
          | _, _ => .accept r u

/-- R414: ARG1 of the token of a decision. -/
def verdictArg : Verdict → Nat
  | .answer _ => 0
  | .refuse h => 2 + 4 * (h / 4)
  | .accept _ _ => 1

/-- R413: the request's order, given with its decision. -/
def Chip.carryOut (s : Chip) (r : Req) (v : Verdict) : Chip :=
  let ord := fun s : Chip => s.orderIn (reqId r) r.th (verdictArg v)
  match v with
  | .answer st => (ord s).answer r st
  | .refuse h => (ord s).refuse r h
  | .accept r u => (ord u).accept r

/-- R238: a header leaves its port for its decision; n is its admission sequence number. -/
def Chip.takeHdr (s : Chip) (r : Req) (n : Nat) : Req × Chip :=
  let s := { s with prom.hdrs := s.prom.hdrs.filter fun x => !(x.port == r.port)
                    prom.rr := r.port }
  let r := { r with id := n }
  match r.kind, r.region with
  | .svc, _ => (s.withEntry r, s)
  | .publish, some g => ({ r with body := nextBody (KMap.at s.regions {} g) }, s)
  | _, _ => (r, s)

/-- R239: ADMIT of one header. -/
def Chip.decideReq (s : Chip) (r : Req) : Chip :=
  let (r, s) := s.takeHdr r s.prom.seq
  s.carryOut r (s.verdict r)

/-- R423: the standby has diverged: epoch n is recorded and it goes OUT. -/
def Chip.diverge (s : Chip) (n : Nat) : Chip := ((s.setPair (pairPg + 0x64) n).notice pairPg 0).goOut

/-- R415, R423: the standby decides the request of token t with its T_h; another decision than the
holder's is a divergence. -/
def Chip.decideToken (s : Chip) (t : PairTok) (r : Req) : Chip :=
  let r := { r with th := t.tick, td := r.td - r.th + t.tick }
  let (r, s) := s.takeHdr r t.ord
  let s := { s with prom.seq := max s.prom.seq (t.ord + 1) % 2 ^ 32 }
  let v := s.verdict r
  let u := s.carryOut r v
  if verdictArg v % 4 = t.arg1 % 4 then u else u.diverge (epochOf s.now)

/-- R438: the chip has reported READY. -/
def Chip.isReady (s : Chip) : Bool := s.fld (stagePg + 0x40) 5 4 == 1

/-- R238: the next waiting header in round-robin order. -/
def Chip.nextHdr (s : Chip) : Option Req :=
  let ports := (List.range 97).map fun i => (s.prom.rr + 1 + i) % 97
  ports.findSome? fun p => s.prom.hdrs.find? fun r => r.port == p

/-- R415: the next token of the standby whose request waits at its port, with that request. -/
def Chip.nextToken (s : Chip) : Option (PairTok × Req) :=
  s.duo.live.findSome? fun t => (s.prom.hdrs.find? fun r => reqId r == t.arg0).map fun r => (t, r)

/-- ADMIT (R238, R239, R415): the next waiting header in round-robin order is decided; on a standby
the next in ORD order. Nothing is admitted before READY (R162), nor by a chip of a pair that is
frozen or OUT. -/
def execAdmit : State → Host.Outcome State Fault Refusal :=
  liftC fun s =>
    if s.isReady = false ∨ s.pairRole = 3 ∨ s.pairRole = 5 then s
    else if s.standsBy then
      match s.nextToken with
      | none => s
      | some (t, r) => s.decideToken t r
    else match s.nextHdr with
      | none => s
      | some r => s.decideReq r

end Sys2Proof.Machine
end

