-- ==== Sys2Proof/Machine/Arbiter.lean ====
section
/-! DEFINITION. The grant arbiter's choice (R315 to R317). -/

namespace Sys2Proof.Machine

/-- R317: one requester is better than another under step 1 (the longest wait) or step 2 (priority,
then wait); on a full tie the earlier in the list stays. -/
def arbBetter (step1 : Bool) (a b : ArbReq) : Bool :=
  if step1 then decide (b.since < a.since)
  else decide (a.prio < b.prio ∨ (a.prio = b.prio ∧ b.since < a.since))

/-- R317: the requester that grant number g goes to, among requests in the order of the placement's
requester table. -/
def arbPick (g n : Nat) (l : List ArbReq) : Option ArbReq :=
  match l with
  | [] => none
  | r :: l => some (l.foldl (fun a b => if arbBetter (g % n == 0) a b then b else a) r)

end Sys2Proof.Machine
end

