-- ==== Sys2Proof/Machine/Store.lean ====
section
/-! DEFINITION. The cluster store: words and their check bits, reads and writes, poison, the data
caches of the cores and the snoop ring's admission (R111 to R120). -/

namespace Sys2Proof.Machine

/-! ## Placement (R111) -/

/-- R111: bank of store offset a. -/
def bankOfOff (a : Nat) : Nat := (a / 8 % 32) ^^^ (a / 256 % 32) ^^^ (a / 8192 % 32)

/-- R111: row of store offset a within its bank. -/
def rowOfOff (a : Nat) : Nat := a / 256 % 8192

/-- The key of offset off of cluster c's store in `Mem.store`. -/
def stKey (c off : Nat) : Nat := 2097152 * c + off

/-- R500: the store page's FREEZE stops grants. -/
def Chip.stFrozen (s : Chip) (c : Nat) : Bool := s.frozen (stPg c)

/-! ## Errors of a word (R112, R113, R386) -/

/-- R112: a corrected word: counted, its check bits rewritten. -/
def Chip.wordCe (s : Chip) (c off : Nat) : Chip := s.countErr (stPg c) 0 0 (off / 4) true

/-- R112, R386, R392, R393: an uncorrectable word of the store of cluster c met for the first time. -/
def Chip.wordUe (s : Chip) (c off : Nat) : Chip :=
  let pg := stPg c
  let s := if s.flag (errStat pg) 1 then s else s.setReg (pg + 0x40) (BitVec.ofNat 32 off)
  let s := s.countErr pg 1 1 (off / 4) true
  if s.isContained (.cluster c) then s
  else match s.handling (.cluster c) with
    | none => s.fault { faultOf pg 1 1 with inj := true, kind := 12, unit := c, info := off
                                            part := s.chargedPart (.cluster c) }
    | some f =>
      if f.tx = s.now then s
      else match s.scopeOf f.unit with
        | some w => (s.fenceAll w .widen).fenceRecord w .widen pg 1 0 true true true
        | none => s.unitRecord f.unit f.cause pg 1 0 true false true

/-- R113, R131: a read of a poisoned word. -/
def Chip.wordPoison (s : Chip) (c : Nat) : Chip := s.setErr (stPg c) 2

/-! ## Reads -/

/-- The marked words among n words from word key k on. -/
def Mem.stMarks (m : Mem) (k n : Nat) : List (Nat × Mark) :=
  m.storeMark.filter fun e => decide (k ≤ e.1 ∧ e.1 < k + n)

/-- R112, R113: what the reader of a marked word brings about. -/
def Sys.stMeet (y : Sys) (c : Nat) (e : Nat × Mark) : Sys :=
  let off := 4 * e.1 - stKey c 0
  let put := fun (v : Mark) => { y.mem with storeMark := KMap.put y.mem.storeMark .good e.1 v }
  match e.2 with
  | .good | .told => y
  | .one => { mem := put .good, chip := y.chip.wordCe c off }
  | .two => { mem := put .told, chip := y.chip.wordUe c off }
  | .poison => { y with chip := y.chip.wordPoison c }

/-- R112, R113: a mark its reader cannot correct. -/
def Mark.dead : Mark → Bool
  | .two | .told | .poison => true
  | .good | .one => false

/-- R112: n bytes are read from offset off: the bytes, the words among them that are uncorrectable
(counted from the word of off), and what the errors bring about. -/
def Sys.stRead (y : Sys) (c off n : Nat) : List Byte × List Nat × Sys :=
  let k := stKey c off / 4
  let ms := y.mem.stMarks k ((off % 4 + n + 3) / 4)
  (KMap.bytes y.mem.store (stKey c off) n,
   (ms.filter fun e => e.2.dead).map fun e => e.1 - k,
   forEachS ms (fun e y => y.stMeet c e) y)

/-- Whether n bytes from offset off hold an uncorrectable word. -/
def Mem.stBad (m : Mem) (c off n : Nat) : Bool :=
  (m.stMarks (stKey c off / 4) ((off % 4 + n + 3) / 4)).any fun e => e.2.dead

/-! ## Writes -/

/-- R112, R398: whole words are written from offset off: valid codewords, but for an armed
injection. -/
def Sys.stPut (y : Sys) (c off : Nat) (d : List Byte) : Sys :=
  if d.isEmpty then y
  else
    let k := stKey c off / 4
    let n := d.length / 4
    let marks := y.mem.storeMark.filter fun e => decide (e.1 < k ∨ k + n ≤ e.1)
    let (inj, s) := y.chip.takeArmed (stPg c)
    { chip := s
      mem := { y.mem with
        store := KMap.store y.mem.store (stKey c off) d
        storeMark := match inj with
          | some v => KMap.put marks .good k v
          | none => marks } }

/-- R112: bytes of one word from offset off are merged into it: a corrected word is counted, an
uncorrectable one stays as it was. -/
def Sys.stMerge (y : Sys) (c off : Nat) (d : List Byte) : Sys :=
  let w := off - off % 4
  let (old, bad, y) := y.stRead c w 4
  if bad.isEmpty then y.stPut c w (old.take (off % 4) ++ d ++ old.drop (off % 4 + d.length)) else y

/-- R112: bytes are written from offset off: partial words at either end are merged, the words between
them written whole. No snoop. -/
def Sys.stRaw (y : Sys) (c off : Nat) (d : List Byte) : Sys :=
  let h := min ((4 - off % 4) % 4) d.length
  let body := (d.length - h) / 4 * 4
  let y := if h = 0 then y else y.stMerge c off (d.take h)
  let y := y.stPut c (off + h) ((d.drop h).take body)
  if h + body < d.length then y.stMerge c (off + h + body) (d.drop (h + body)) else y

/-- R112: a write of n bytes from offset off merges into a word that is uncorrectable: a merge writes
nothing there. -/
def Mem.stStuck (m : Mem) (c off n : Nat) : Bool :=
  n != 0 && ((off % 4 != 0 && m.stBad c (off / 4 * 4) 4) ||
    ((off + n) % 4 != 0 && m.stBad c ((off + n) / 4 * 4) 4))

/-! ## Caches (R116) -/

/-- R116: the set of a line. -/
def setOfLine (off : Nat) : Nat := off / 64 % 8

/-- The valid line of offset off (a multiple of 64) in a cache, with its key. -/
def Core.line (x : Core) (off : Nat) : Option (Nat × Line) :=
  (List.range 4).findSome? fun w => match KMap.at x.lines none (4 * setOfLine off + w) with
    | some l => if l.off = off then some (4 * setOfLine off + w, l) else none
    | none => none

def Core.setLine (x : Core) (k : Nat) (l : Option Line) : Core :=
  { x with lines := KMap.put x.lines none k l }

/-- R116: the way a new line of a set takes: the lowest-numbered invalid one, else the least recently
used; with the line it holds. -/
def Core.allocWay (x : Core) (off : Nat) : Nat × Option Line :=
  let ws := (List.range 4).map fun w =>
    (4 * setOfLine off + w, KMap.at x.lines none (4 * setOfLine off + w))
  match ws.find? fun w => w.2.isNone with
  | some w => w
  | none =>
    ws.foldl (fun b w => if (w.2.map (·.used)).getD 0 < (b.2.map (·.used)).getD 0 then w else b)
      (ws.headD (0, none))

/-- R113, R117: a line's 64 bytes are written into the store, poisoned words as the poison
codeword. -/
def Sys.writeLine (y : Sys) (c : Nat) (l : Line) : Sys :=
  let y := y.stPut c l.off l.data
  { y with mem := { y.mem with
      storeMark := l.bad.foldl (fun m i => KMap.put m .good (stKey c l.off / 4 + i) .poison)
        y.mem.storeMark } }

/-- R119: core m's copies of the lines that [off, off + n) touches go to I; M copies are written back
first. -/
def Sys.invCore (y : Sys) (c off n m : Nat) : Sys :=
  let hit := fun l : Line => decide (l.off < off + n ∧ off < l.off + 64)
  forEachS (y.chip.core c m).lines (fun e y => match e.2 with
    | none => y
    | some l =>
      if hit l then
        let y := if l.st = 3 then y.writeLine c l else y
        onChip (fun s => s.setCore c m ((s.core c m).setLine e.1 none)) y
      else y) y

/-- R119: INV: every copy of the lines that [off, off + n) touches goes to I. -/
def Sys.invLines (y : Sys) (c off n : Nat) : Sys :=
  if n = 0 then y
  else forEachS (y.chip.cl c).cores (fun e y => y.invCore c off n e.1) y

/-- R119: an agent's write: INV of the lines it touches, then its bytes. -/
def Sys.stWrite (y : Sys) (c off : Nat) (d : List Byte) : Sys := (y.invLines c off d.length).stRaw c off d

/-! ## The order point (R117, R118) -/

/-- R118: a requester's number: newts 0 to 127, the cluster control core 128; the frog write port 129,
copy engines 130 and 131, the mesh ingress 132, in the order of R115's table. -/
def agentWho (a : Nat) : Nat := 129 + a

/-- R117, R118: the order point admits requester w's transaction on a line, or answers RETRY, which is
counted and leaves w with its credit: while another transaction on the line is open. A requester holds
one transaction or credit; another of its transactions waits. While the store gives no grants an
admitted transaction stays open; once it gives grants every open and every credited transaction has
been carried out (`Sys.ringDrain`), so that one that asks then is admitted and completes at once.
Whether it completes now. -/
def Chip.ringAdmit (s : Chip) (c line w : Nat) : Bool × Chip :=
  let x := s.cl c
  if s.stFrozen c = false then (true, s)
  else if (x.opens ++ x.credits).any (·.2 == w) then (false, s)
  else if (x.opens ++ x.credits).any (·.1 == line) then
    (false, (s.setCl c { x with credits := x.credits ++ [(line, w)] }).bump (stPg c + 0x4C))
  else (false, s.setCl c { x with opens := x.opens ++ [(line, w)] })

/-- R117: the other cores' copies of a line. -/
def Chip.holders (s : Chip) (c line m : Nat) : List (Nat × Nat × Line) :=
  (s.cl c).cores.filterMap fun e => if e.1 = m then none
    else (e.2.line line).map fun l => (e.1, l.1, l.2)

/-- The 64 bytes of a line read from the store, with its uncorrectable words. -/
def Sys.fillLine (y : Sys) (c line : Nat) : Line × Sys :=
  let (d, bad, y) := y.stRead c line 64
  (⟨line, 2, d, bad, 0⟩, y)

/-- R117: RD: an M holder writes the line back and goes to S, an E holder to S; the line as the
requester receives it. -/
def Sys.ringRd (y : Sys) (c line m : Nat) : Line × Sys :=
  let hs := y.chip.holders c line m
  let y := forEachS hs (fun h y =>
    let y := if h.2.2.st = 3 then y.writeLine c h.2.2 else y
    onChip (fun s => s.setCore c h.1 ((s.core c h.1).setLine h.2.1 (some { h.2.2 with st := 1 }))) y) y
  match hs.find? fun h => h.2.2.st == 3 with
  | some h => ({ h.2.2 with st := 1 }, y)
  | none =>
    let (l, y) := y.fillLine c line
    ({ l with st := if hs.isEmpty then 2 else 1 }, y)

/-- R117: RDX: every holder goes to I, an M holder supplies the line first. -/
def Sys.ringRdx (y : Sys) (c line m : Nat) : Line × Sys :=
  let hs := y.chip.holders c line m
  let y := onChip (forEach hs fun h s => s.setCore c h.1 ((s.core c h.1).setLine h.2.1 none)) y
  match hs.find? fun h => h.2.2.st == 3 with
  | some h => (h.2.2, y)
  | none =>
    let (l, y) := y.fillLine c line
    ({ l with st := 3 }, y)

/-- R117: UPG: every other holder goes to I. -/
def Chip.ringUpg (s : Chip) (c line m : Nat) : Chip :=
  forEach (s.holders c line m)
    (fun h s => s.setCore c h.1 ((s.core c h.1).setLine h.2.1 none)) s

/-- SNOOP_INV (R117 to R119): agent a's INV of the lines that [off, off + len) touches: 0 the frog write
port, 1 and 2 the copy engines, 3 the mesh ingress. A line with an open transaction receives RETRY. -/
def execSnoopInv (c : ClusterNo) (start : AgentAt) (len : Nat) : State → Host.Outcome State Fault Refusal :=
  liftS fun y =>
    let off := start.off
    if 0x200000 < off + len ∨ len = 0 then y
    else
      let lines := (List.range ((off % 64 + len + 63) / 64)).map fun i => off / 64 * 64 + 64 * i
      forEachS lines (fun l y => match y.chip.ringAdmit c l (agentWho start.agent) with
        | (false, s) => { y with chip := s }
        | (true, s) => Sys.invLines { y with chip := s } c l 64) y

/-- R112, R114: the scrubber writes the poison codeword over a word it cannot correct. -/
def Mem.stPoison (m : Mem) (c off n : Nat) : Mem :=
  let bad := (m.stMarks (stKey c off / 4) (n / 4)).filter fun e => e.2.dead
  { m with storeMark := bad.foldl (fun l e => KMap.put l .good e.1 .poison) m.storeMark }

/-- CL_SCRUB (R112, R114, R321): the scrubber reads one granule and corrects it; an uncorrectable word
becomes the poison codeword. FREEZE does not stop it. -/
def execClScrub (c : ClusterNo) : State → Host.Outcome State Fault Refusal :=
  liftS fun y =>
    let s := y.chip
    let n := s.fld (stPg c + 0x50) 23 0
    if n = 0 ∨ s.ref < (s.cl c).scrubAt + n then y
    else
      let off := 8 * (s.cl c).scrub
      let (_, _, y) := y.stRead c off 8
      let y := onMem (fun m => m.stPoison c off 8) y
      onChip (fun s => s.setCl c { s.cl c with scrub := ((s.cl c).scrub + 1) % 262144
                                               scrubAt := s.ref }) y

end Sys2Proof.Machine
end

