-- ==== Sys2Proof/Machine/Operands.lean ====
section
/-! DEFINITION. Operand forms: number formats, element layout, scale records, exact accumulation and
the requantizer (chapter 02). -/

namespace Sys2Proof.Machine

/-! ## Formats (R25, R32) -/

/-- R25: element bits of a format code; 0 for the reserved code 0xF. -/
def fmtBits : Nat → Nat
  | 0x0 => 2
  | 0x1 | 0x2 | 0xA => 4
  | 0x3 | 0x4 | 0xB | 0xD | 0xE => 8
  | 0x5 | 0x6 | 0xC => 16
  | 0x7 | 0x8 => 32
  | 0x9 => 64
  | _ => 0

/-- R25: signed formats. -/
def fmtSigned (f : Nat) : Bool := !([0x2, 0x4, 0x6, 0x8, 0xE].contains f)

/-- R25: BS4, BS8, BS16. -/
def fmtBS (f : Nat) : Bool := decide (0xA ≤ f ∧ f ≤ 0xC)

/-- R25: RS8, AU8. -/
def fmtRec (f : Nat) : Bool := f == 0xD || f == 0xE

/-- R31: block length b of a BS format. -/
def fmtBlk (f : Nat) : Nat := if f = 0xC then 16 else 32

/-- R32: frog operands. -/
def fmtOperand (f : Nat) : Bool := decide (f ≤ 6 ∨ (0xA ≤ f ∧ f ≤ 0xE))

/-- R32: requantizer targets. -/
def fmtTarget (f : Nat) : Bool := decide (f ≤ 8 ∨ f = 0xD ∨ f = 0xE)

/-- R25, R48: the range of q. -/
def fmtLo (f : Nat) : Int :=
  if f = 0 then -1 else if fmtSigned f then -(2 ^ (fmtBits f - 1) : Nat) else 0

def fmtHi (f : Nat) : Int :=
  if f = 0 then 1
  else if fmtSigned f then (2 ^ (fmtBits f - 1) : Nat) - 1 else (2 ^ fmtBits f : Nat) - 1

/-- R52: the shape class an operand sets: 0 TERN, 1 4-bit, 2 8-bit, 3 16-bit. -/
def fmtCls (f : Nat) : Nat :=
  match fmtBits f with
  | 2 => 0
  | 4 => 1
  | 8 => 2
  | _ => 3

/-! ## Element layout (R27) -/

/-- Little-endian numbers of n bytes each, as many as fuel allows. -/
def chunks (n : Nat) : Nat → List Byte → List Nat
  | 0, _ => []
  | k + 1, d => leNat (d.take n) :: chunks n k (d.drop n)

/-- R27: the patterns of a run of elements of width w. -/
def unpack (w : Nat) (d : List Byte) : List Nat :=
  match w with
  | 2 => d.flatMap fun b => (List.range 4).map fun i => b.toNat / 4 ^ i % 4
  | 4 => d.flatMap fun b => [b.toNat % 16, b.toNat / 16]
  | _ => chunks (w / 8) (d.length / (w / 8)) d

/-- Groups of n patterns of width w as one number each, the first lowest. -/
def grouped (w n : Nat) : Nat → List Nat → List Nat
  | 0, _ => []
  | k + 1, l =>
    ((l.take n).mapIdx fun i v => v * 2 ^ (w * i)).sum :: grouped w n k (l.drop n)

/-- R27: patterns of width w packed with no padding. -/
def pack (w : Nat) (l : List Nat) : List Byte :=
  if w < 8 then (grouped w (8 / w) (l.length * w / 8) l).map (BitVec.ofNat 8 ·)
  else l.flatMap (leBytes (w / 8) ·)

/-- R26: a TERN pattern that is reserved. -/
def badTern (f v : Nat) : Bool := f == 0 && v == 2

/-- R25, R26: the element q of a pattern; the reserved TERN pattern is used as 0. -/
def element (f v : Nat) : Int :=
  if badTern f v then 0
  else if fmtSigned f then signed (fmtBits f) v else (v : Int)

/-! ## Scale records (R28 to R31, R48) -/

/-- R29: a scale or output record: M, s, Z, and whether R30 applied. -/
structure ScaleRec where
  m : Int
  s : Nat
  z : Nat
  bad : Bool
deriving DecidableEq, Repr

/-- The record of a vector without one (R45). -/
def unitRec : ScaleRec := ⟨1, 0, 0, false⟩

/-- R29, R30, R48: a record read from its word; z tells whether a zero point may be used. -/
def recOf (w : Nat) (z : Bool) : ScaleRec :=
  let zv := w / 2 ^ 24 % 256
  ⟨signed 16 w, w / 2 ^ 16 % 64, if z then zv else 0,
   decide (w / 2 ^ 22 % 4 ≠ 0) || (!z && decide (zv ≠ 0))⟩

/-! ## Exact accumulation (R34 to R38) -/

def s64Hi : Int := 2 ^ 63 - 1
def s64Lo : Int := -2 ^ 63

/-- R38: an exact result as an accumulator. -/
def clamp64 (v : Int) : Int × Bool :=
  if s64Hi < v then (s64Hi, true) else if v < s64Lo then (s64Lo, true) else (v, false)

/-- R37: the bound on the side of a value's sign. -/
def satToward (v : Int) : Int × Bool := (if 0 < v then s64Hi else s64Lo, true)

/-- R36 to R38: a contribution v that needs a left shift of n bits is added to an accumulator. -/
def accAdd (a : Int × Bool) (v : Int) (n : Nat) : Int × Bool :=
  if a.2 ∨ v = 0 then a
  else if 24 < n then satToward v
  else clamp64 (a.1 + v * 2 ^ n)

/-- R36 to R38: an accumulator is shifted left by n bits. -/
def accShift (a : Int × Bool) (n : Nat) : Int × Bool :=
  if a.2 ∨ a.1 = 0 then a
  else if 24 < n then satToward a.1
  else clamp64 (a.1 * 2 ^ n)

/-- R38, R42: two values with SAT bits are added. The first is the one that takes the contribution: once
its SAT is set it ignores the second; the second's SAT is kept (log entry 77). -/
def satAdd (a b : Int × Bool) : Int × Bool :=
  if a.2 then a
  else
    let y := clamp64 (a.1 + b.1)
    (y.1, y.2 || b.2)

/-! ## The requantizer (R46, R47) -/

/-- R47: RQ_ROUND; modes of R46: 0 RNE, 1 RHAZ, 2 RTMI. -/
def rqRound (p : Int) (s mode : Nat) : Int :=
  if s = 0 then p
  else
    let q := p / (2 ^ s : Nat)
    let r := p - q * (2 ^ s : Nat)
    let h : Int := (2 ^ (s - 1) : Nat)
    if mode = 0 ∧ (h < r ∨ (r = h ∧ q % 2 = 1)) then q + 1
    else if mode = 1 ∧ (h < r ∨ (r = h ∧ 0 ≤ q)) then q + 1
    else q

/-- R47: REQUANTIZE: the stored element and whether it saturated. -/
def requantize (acc : Int × Bool) (e : Int) (a b q : ScaleRec) (mode : Nat) (lo hi : Int) :
    Int × Bool :=
  let p := acc.1 * (a.m * b.m * q.m)
  let s : Int := a.s + b.s + q.s - e
  let v := if 0 ≤ s then rqRound p (min s.toNat 110) mode else p * 2 ^ min (-s).toNat 63
  let y := v + q.z
  if hi < y then (hi, true) else if y < lo then (lo, true) else (y, acc.2)

/-- R75: RECUR_STEP: the next state and whether it was clamped. -/
def recurStep (h a b : Int) (s mode : Nat) (lo hi : Int) : Int × Bool :=
  let y := rqRound (a * h) s mode + b
  if hi < y then (hi, true) else if y < lo then (lo, true) else (y, false)

end Sys2Proof.Machine
end

