-- ==== Sys2Proof/Machine/NewtIsa.lean ====
section
/-! DEFINITION. The instruction set of newts and of the cluster control core: RV32I, M, C, Zba, Zbb and
Zicsr in their standard encodings (log entry 31), and Xkv (R85, R94); what arithmetic computes
(R86, R95). -/

namespace Sys2Proof.Machine

/-- Register to register operations of RV32I, M, Zba and Zbb. -/
inductive Alu where
  | add | sub | sll | slt | sltu | xor | srl | sra | or | and
  | mul | mulh | mulhsu | mulhu | div | divu | rem | remu
  | sh1add | sh2add | sh3add | andn | orn | xnor | max | maxu | min | minu | rol | ror
  | clz | ctz | cpop | sextb | sexth | zexth | orcb | rev8
deriving DecidableEq, Repr

/-- R94: the Xkv instructions. -/
inductive Kv where
  | qmul | sadd | ssub | bexp | dot4 | crc | cpy | clamp | waitt | evt | fencest
deriving DecidableEq, Repr

/-- A decoded instruction. -/
inductive Rv where
  | alu (f : Alu) (rd rs1 rs2 : Nat)
  | alui (f : Alu) (rd rs1 imm : Nat)
  | lui (rd imm : Nat)
  | auipc (rd imm : Nat)
  | jal (rd imm : Nat)
  | jalr (rd rs1 imm : Nat)
  | branch (f3 rs1 rs2 imm : Nat)
  | load (f3 rd rs1 imm : Nat)
  | store (f3 rs1 rs2 imm : Nat)
  | csr (f3 rd rs1 num : Nat)
  | fence
  | ecall
  | ebreak
  | mret
  | kv (k : Kv) (rd rs1 rs2 rs3 : Nat)
  | illegal
deriving DecidableEq, Repr

/-- Bits [hi:lo] of a number. -/
def nb (w hi lo : Nat) : Nat := w / 2 ^ lo % 2 ^ (hi + 1 - lo)

/-- An n-bit pattern sign-extended to 32 bits, as a number. -/
def sx (n v : Nat) : Nat := unsigned 32 (signed n v)

/-! ## 32-bit encodings -/

/-- OP: funct7 and funct3. -/
def aluOf (f7 f3 rs2 : Nat) : Option Alu :=
  match f7, f3 with
  | 0x00, 0 => some .add | 0x20, 0 => some .sub | 0x00, 1 => some .sll | 0x00, 2 => some .slt
  | 0x00, 3 => some .sltu | 0x00, 4 => some .xor | 0x00, 5 => some .srl | 0x20, 5 => some .sra
  | 0x00, 6 => some .or | 0x00, 7 => some .and
  | 0x01, 0 => some .mul | 0x01, 1 => some .mulh | 0x01, 2 => some .mulhsu | 0x01, 3 => some .mulhu
  | 0x01, 4 => some .div | 0x01, 5 => some .divu | 0x01, 6 => some .rem | 0x01, 7 => some .remu
  | 0x10, 2 => some .sh1add | 0x10, 4 => some .sh2add | 0x10, 6 => some .sh3add
  | 0x20, 7 => some .andn | 0x20, 6 => some .orn | 0x20, 4 => some .xnor
  | 0x05, 6 => some .max | 0x05, 7 => some .maxu | 0x05, 4 => some .min | 0x05, 5 => some .minu
  | 0x30, 1 => some .rol | 0x30, 5 => some .ror
  | 0x04, 4 => if rs2 = 0 then some .zexth else none
  | _, _ => none

/-- OP-IMM with funct3 001 and 101: shifts and the unary operations, by imm[11:0]. -/
def shiftOf (f3 imm : Nat) : Option (Alu × Nat) :=
  let f7 := imm / 32
  let sh := imm % 32
  match f3, f7 with
  | 1, 0x00 => some (.sll, sh)
  | 5, 0x00 => some (.srl, sh)
  | 5, 0x20 => some (.sra, sh)
  | 5, 0x30 => some (.ror, sh)
  | 1, 0x30 => match sh with
    | 0 => some (.clz, 0) | 1 => some (.ctz, 0) | 2 => some (.cpop, 0)
    | 4 => some (.sextb, 0) | 5 => some (.sexth, 0) | _ => none
  | 5, _ => if imm = 0x287 then some (.orcb, 0) else if imm = 0x698 then some (.rev8, 0) else none
  | _, _ => none

/-- OP-IMM with another funct3. -/
def immOf : Nat → Option Alu
  | 0 => some .add | 2 => some .slt | 3 => some .sltu | 4 => some .xor | 6 => some .or
  | 7 => some .and | _ => none

/-- R94: custom-0 by funct3. -/
def kv0Of : Nat → Option Kv
  | 0 => some .qmul | 1 => some .sadd | 2 => some .ssub | 3 => some .bexp | 4 => some .dot4
  | 5 => some .crc | 6 => some .cpy | _ => none

/-- R94: custom-1. -/
def kv1Of (w : Nat) : Rv :=
  let (rd, rs1, rs2) := (nb w 11 7, nb w 19 15, nb w 24 20)
  match nb w 14 12 with
  | 0 => if nb w 26 25 = 0 then .kv .clamp rd rs1 rs2 (nb w 31 27) else .illegal
  | 1 => if nb w 31 25 = 0 then .kv .waitt rd rs1 rs2 0 else .illegal
  | 2 => if nb w 31 25 = 0 then .kv .evt rd rs1 rs2 0 else .illegal
  | 3 => if nb w 31 25 = 0 ∧ rd = 0 ∧ rs1 = 0 ∧ rs2 = 0 then .kv .fencest 0 0 0 0 else .illegal
  | _ => .illegal

/-- SYSTEM: ECALL, EBREAK, the CSR instructions, and MRET, which only the cluster control core has
(R93). -/
def systemOf (w : Nat) (ccc : Bool) : Rv :=
  match nb w 14 12 with
  | 0 =>
    if w = 0x00000073 then .ecall else if w = 0x00100073 then .ebreak
    else if w = 0x30200073 ∧ ccc then .mret else .illegal
  | 4 => .illegal
  | f3 => .csr f3 (nb w 11 7) (nb w 19 15) (nb w 31 20)

/-- R85: a 32-bit encoding. -/
def decode32 (w : Nat) (ccc : Bool) : Rv :=
  let (rd, f3, rs1, rs2, f7) := (nb w 11 7, nb w 14 12, nb w 19 15, nb w 24 20, nb w 31 25)
  match nb w 6 0 with
  | 0x37 => .lui rd (nb w 31 12 * 4096)
  | 0x17 => .auipc rd (nb w 31 12 * 4096)
  | 0x6F => .jal rd (sx 21 (nb w 31 31 * 2 ^ 20 + nb w 19 12 * 2 ^ 12 + nb w 20 20 * 2 ^ 11 +
      nb w 30 21 * 2))
  | 0x67 => if f3 = 0 then .jalr rd rs1 (sx 12 (nb w 31 20)) else .illegal
  | 0x63 => if f3 = 2 ∨ f3 = 3 then .illegal
      else .branch f3 rs1 rs2 (sx 13 (nb w 31 31 * 2 ^ 12 + nb w 7 7 * 2 ^ 11 + nb w 30 25 * 2 ^ 5 +
        nb w 11 8 * 2))
  | 0x03 => if [0, 1, 2, 4, 5].contains f3 then .load f3 rd rs1 (sx 12 (nb w 31 20)) else .illegal
  | 0x23 => if f3 < 3 then .store f3 rs1 rs2 (sx 12 (f7 * 32 + rd)) else .illegal
  | 0x13 => match immOf f3 with
    | some f => .alui f rd rs1 (sx 12 (nb w 31 20))
    | none => match shiftOf f3 (nb w 31 20) with
      | some (f, sh) => .alui f rd rs1 sh
      | none => .illegal
  | 0x33 => match aluOf f7 f3 rs2 with
    | some f => .alu f rd rs1 rs2
    | none => .illegal
  | 0x0F => if f3 = 0 then .fence else .illegal
  | 0x73 => systemOf w ccc
  | 0x0B => match kv0Of f3 with
    | some k => if f7 = 0 then .kv k rd rs1 rs2 0 else .illegal
    | none => .illegal
  | 0x2B => kv1Of w
  | _ => .illegal

/-! ## 16-bit encodings -/

/-- Quadrant 0. -/
def c0Of (w : Nat) : Rv :=
  let rd := 8 + nb w 4 2
  let rs := 8 + nb w 9 7
  let off := nb w 5 5 * 64 + nb w 12 10 * 8 + nb w 6 6 * 4
  match nb w 15 13 with
  | 0 =>
    let imm := nb w 10 7 * 64 + nb w 12 11 * 16 + nb w 5 5 * 8 + nb w 6 6 * 4
    if imm = 0 then .illegal else .alui .add rd 2 imm
  | 2 => .load 2 rd rs off
  | 6 => .store 2 rs rd off
  | _ => .illegal

/-- The offset of C.J and C.JAL. -/
def cjImm (w : Nat) : Nat :=
  sx 12 (nb w 12 12 * 2 ^ 11 + nb w 8 8 * 2 ^ 10 + nb w 10 9 * 2 ^ 8 + nb w 6 6 * 2 ^ 7 +
    nb w 7 7 * 2 ^ 6 + nb w 2 2 * 2 ^ 5 + nb w 11 11 * 2 ^ 4 + nb w 5 3 * 2)

/-- The offset of C.BEQZ and C.BNEZ. -/
def cbImm (w : Nat) : Nat :=
  sx 9 (nb w 12 12 * 2 ^ 8 + nb w 6 5 * 2 ^ 6 + nb w 2 2 * 2 ^ 5 + nb w 11 10 * 2 ^ 3 + nb w 4 3 * 2)

/-- Quadrant 1, funct3 100. -/
def c1AluOf (w : Nat) : Rv :=
  let rd := 8 + nb w 9 7
  let sh := nb w 12 12 * 32 + nb w 6 2
  match nb w 11 10 with
  | 0 => if sh < 32 then .alui .srl rd rd sh else .illegal
  | 1 => if sh < 32 then .alui .sra rd rd sh else .illegal
  | 2 => .alui .and rd rd (sx 6 sh)
  | _ =>
    if nb w 12 12 = 1 then .illegal
    else .alu (match nb w 6 5 with | 0 => .sub | 1 => .xor | 2 => .or | _ => .and) rd rd (8 + nb w 4 2)

/-- Quadrant 1. -/
def c1Of (w : Nat) : Rv :=
  let rd := nb w 11 7
  let imm := nb w 12 12 * 32 + nb w 6 2
  match nb w 15 13 with
  | 0 => .alui .add rd rd (sx 6 imm)
  | 1 => .jal 1 (cjImm w)
  | 2 => .alui .add rd 0 (sx 6 imm)
  | 3 =>
    if rd = 2 then
      let v := nb w 12 12 * 512 + nb w 4 3 * 128 + nb w 5 5 * 64 + nb w 2 2 * 32 + nb w 6 6 * 16
      if v = 0 then .illegal else .alui .add 2 2 (sx 10 v)
    else if imm = 0 then .illegal else .lui rd (sx 18 (imm * 4096))
  | 4 => c1AluOf w
  | 5 => .jal 0 (cjImm w)
  | 6 => .branch 0 (8 + nb w 9 7) 0 (cbImm w)
  | _ => .branch 1 (8 + nb w 9 7) 0 (cbImm w)

/-- Quadrant 2. -/
def c2Of (w : Nat) : Rv :=
  let rd := nb w 11 7
  let rs2 := nb w 6 2
  match nb w 15 13 with
  | 0 => if nb w 12 12 = 1 then .illegal else .alui .sll rd rd rs2
  | 2 =>
    if rd = 0 then .illegal
    else .load 2 rd 2 (nb w 3 2 * 64 + nb w 12 12 * 32 + nb w 6 4 * 4)
  | 4 =>
    if nb w 12 12 = 0 then
      if rs2 = 0 then (if rd = 0 then .illegal else .jalr 0 rd 0) else .alu .add rd 0 rs2
    else if rs2 = 0 then (if rd = 0 then .ebreak else .jalr 1 rd 0)
    else .alu .add rd rd rs2
  | 6 => .store 2 2 rs2 (nb w 8 7 * 64 + nb w 12 9 * 4)
  | _ => .illegal

/-- R85: a 16-bit encoding. -/
def decode16 (w : Nat) : Rv :=
  match w % 4 with
  | 0 => c0Of w
  | 1 => c1Of w
  | _ => c2Of w

/-! ## Arithmetic -/

/-- Leading zeros of the low n bits of a number. -/
def clzN : Nat → Nat → Nat
  | 0, _ => 0
  | n + 1, v => if v / 2 ^ n % 2 = 1 then 0 else 1 + clzN n v

/-- Trailing zeros of the low n bits of a number. -/
def ctzN : Nat → Nat → Nat
  | 0, _ => 0
  | n + 1, v => if v % 2 = 1 then 0 else 1 + ctzN n (v / 2)

/-- Ones among the low n bits of a number. -/
def popN : Nat → Nat → Nat
  | 0, _ => 0
  | n + 1, v => v % 2 + popN n (v / 2)

/-- The value of a word read as s32. -/
def s32 (w : Word) : Int := w.toInt

/-- A number as a word. -/
def wOf (i : Int) : Word := BitVec.ofInt 32 i

/-- The result of an arithmetic operation: RV32M division as the standard fixes it. -/
def aluRun (f : Alu) (a b : Word) : Word :=
  let n := b.toNat % 32
  match f with
  | .add => a + b
  | .sub => a - b
  | .sll => a <<< n
  | .slt => if s32 a < s32 b then 1 else 0
  | .sltu => if a.toNat < b.toNat then 1 else 0
  | .xor => a ^^^ b
  | .srl => a >>> n
  | .sra => a.sshiftRight n
  | .or => a ||| b
  | .and => a &&& b
  | .mul => a * b
  | .mulh => wOf (s32 a * s32 b / 2 ^ 32)
  | .mulhsu => wOf (s32 a * b.toNat / 2 ^ 32)
  | .mulhu => BitVec.ofNat 32 (a.toNat * b.toNat / 2 ^ 32)
  | .div => if b = 0 then -1 else wOf (Int.tdiv (s32 a) (s32 b))
  | .divu => if b = 0 then -1 else BitVec.ofNat 32 (a.toNat / b.toNat)
  | .rem => if b = 0 then a else wOf (Int.tmod (s32 a) (s32 b))
  | .remu => if b = 0 then a else BitVec.ofNat 32 (a.toNat % b.toNat)
  | .sh1add => (a <<< 1) + b
  | .sh2add => (a <<< 2) + b
  | .sh3add => (a <<< 3) + b
  | .andn => a &&& ~~~b
  | .orn => a ||| ~~~b
  | .xnor => ~~~(a ^^^ b)
  | .max => if s32 a < s32 b then b else a
  | .maxu => if a.toNat < b.toNat then b else a
  | .min => if s32 b < s32 a then b else a
  | .minu => if b.toNat < a.toNat then b else a
  | .rol => a.rotateLeft n
  | .ror => a.rotateRight n
  | .clz => BitVec.ofNat 32 (clzN 32 a.toNat)
  | .ctz => BitVec.ofNat 32 (ctzN 32 a.toNat)
  | .cpop => BitVec.ofNat 32 (popN 32 a.toNat)
  | .sextb => BitVec.ofNat 32 (sx 8 a.toNat)
  | .sexth => BitVec.ofNat 32 (sx 16 a.toNat)
  | .zexth => BitVec.ofNat 32 (a.toNat % 65536)
  | .orcb => BitVec.ofNat 32 (((List.range 4).map fun i =>
      if a.toNat / 256 ^ i % 256 = 0 then 0 else 255 * 256 ^ i).sum)
  | .rev8 => BitVec.ofNat 32 (((List.range 4).map fun i =>
      a.toNat / 256 ^ i % 256 * 256 ^ (3 - i)).sum)

/-- Whether a branch is taken. -/
def taken (f3 : Nat) (a b : Word) : Bool :=
  match f3 with
  | 0 => a == b
  | 1 => a != b
  | 4 => decide (s32 a < s32 b)
  | 5 => decide (s32 b ≤ s32 a)
  | 6 => decide (a.toNat < b.toNat)
  | _ => decide (b.toNat ≤ a.toNat)

/-- R95: a value clamped to s32, and whether it was. -/
def clamp32 (v : Int) : Word × Bool :=
  if 2 ^ 31 - 1 < v then (wOf (2 ^ 31 - 1), true)
  else if v < -2 ^ 31 then (wOf (-2 ^ 31), true) else (wOf v, false)

/-- R95: the least e ≥ 0, among n, for which v >> e fits in w bits. -/
def needBits (v : Int) (w : Nat) : Nat → Nat
  | 0 => 0
  | n + 1 => if -(2 ^ (w - 1) : Nat) ≤ v ∧ v ≤ (2 ^ (w - 1) : Nat) - 1 then 0
    else 1 + needBits (v / 2) w n

/-- R95: kv.dot4 on a 64-bit accumulator: the sum, and whether R38 clamped it. After a clamp the later
elements are still added (log entry 86). -/
def dot4 (acc : Int) (a b : Word) : Int × Bool :=
  (List.range 4).foldl (fun (acc, sat) k =>
    let y := clamp64 (acc + signed 8 (a.toNat / 256 ^ k) * signed 8 (b.toNat / 256 ^ k))
    (y.1, sat || y.2)) (acc, false)

/-- R92, R95: the algorithm of kv.crc by POLY and REFL. -/
def kvAlg (poly : Nat) (refl : Bool) : CrcAlg :=
  match poly, refl with
  | 0, false => ⟨16, 0x1021, 0, false, 0⟩
  | 0, true => ⟨16, 0x8408, 0, true, 0⟩
  | 1, false => ⟨32, 0x04C11DB7, 0, false, 0⟩
  | 1, true => ⟨32, 0xEDB88320, 0, true, 0⟩
  | _, false => ⟨32, 0x1EDC6F41, 0, false, 0⟩
  | _, true => ⟨32, 0x82F63B78, 0, true, 0⟩

/-- R95: kv.crc: the state of rs1 over the bytes of rs2 that kvcrc names. -/
def kvCrcRun (cfg : Nat) (a b : Word) : Word :=
  let g := kvAlg (cfg % 4) (cfg / 4 % 2 == 1)
  let n := 2 ^ (cfg / 8 % 4)
  BitVec.ofNat 32 (crcRun g (a.toNat % 2 ^ g.w) (leBytes n b.toNat))

end Sys2Proof.Machine
end

