-- ==== Sys2Proof/Machine/Newt.lean ====
section
/-! DEFINITION. Cores at work: local SRAMs, fetch, traps, retirement, CSRs, and the instructions that
touch neither the cluster store nor a register page (R85 to R101). -/

namespace Sys2Proof.Machine

/-! ## Local SRAMs (R88, R91) -/

/-- Key of byte a of core m's SRAMs in `Mem.sram`: instruction SRAM at 0, data SRAM at 8 KiB. -/
def sramKey (c m a : Nat) : Nat := (129 * c + m) * 16384 + a

/-- R91: an uncorrectable SRAM word: the newt is fenced; for the cluster control core, the cluster. -/
def Chip.sramUe (s : Chip) (c m a : Nat) : Chip :=
  if m < 128 then s.unitError (.newt c m) .data (nwRecPg c m) 1 (a / 4) true
  else s.unitError (.cluster c) .data (nwPg c) 1 (a / 4) true

/-- R91: a corrected SRAM word is counted. -/
def Chip.sramCe (s : Chip) (c m a : Nat) : Chip :=
  if m < 128 then (s.bump (nwRec c m + 0x14)).countErr (nwRecPg c m) 0 0 (a / 4) true
  else s.countErr (nwPg c) 0 0 (a / 4) true

/-- R91: the word of SRAM at a is read: its bytes, or none when it is uncorrectable. -/
def Sys.sramWord (y : Sys) (c m a : Nat) : Option (List Byte) × Sys :=
  let k := sramKey c m (a / 4 * 4)
  match KMap.at y.mem.sramMark .good (k / 4) with
  | .good => (some (KMap.bytes y.mem.sram k 4), y)
  | .one => (some (KMap.bytes y.mem.sram k 4),
      { mem := { y.mem with sramMark := KMap.put y.mem.sramMark .good (k / 4) .good }
        chip := y.chip.sramCe c m a })
  | _ => (none, y)

/-- R91, R398: a whole SRAM word is written. -/
def Sys.sramPut (y : Sys) (c m a : Nat) (d : List Byte) : Sys :=
  let k := sramKey c m (a / 4 * 4)
  let (inj, s) := y.chip.takeArmed (if m < 128 then nwRecPg c m else nwPg c)
  { chip := s
    mem := { y.mem with
      sram := KMap.store y.mem.sram k d
      sramMark := KMap.put y.mem.sramMark .good (k / 4) (inj.getD .good) } }

/-- R88: where an address of a core leads. -/
inductive Place where
  | isram (a : Nat)
  | dsram (a : Nat)
  | store (off : Nat)
  | reg (off : Nat)
  | none
deriving DecidableEq, Repr

def placeOf (a : Nat) : Place :=
  if a < 0x2000 then .isram a
  else if 0x10000 ≤ a ∧ a < 0x12000 then .dsram (a - 0x10000)
  else if 0x10000000 ≤ a ∧ a < 0x10200000 then .store (a - 0x10000000)
  else if 0x20000000 ≤ a ∧ a < 0x20010000 then .reg (a - 0x20000000)
  else .none

/-! ## Registers -/

/-- Register xn of a core. -/
def Core.get (x : Core) (n : Nat) : Word := if n = 0 then 0 else KMap.at x.x 0 n

/-- Register xn is written; x0 discards. -/
def Core.put (x : Core) (n : Nat) (w : Word) : Core :=
  if n = 0 then x else { x with x := KMap.put x.x 0 n w }

/-! ## Traps (R93, R97) -/

/-- R93: the cluster control core takes a trap in machine mode. -/
def Core.machineTrap (x : Core) (cause : Word) (tval : Nat) : Core :=
  { x with
    mepc := BitVec.ofNat 32 x.pc
    mcause := cause
    mtval := BitVec.ofNat 32 tval
    mpie := x.mie
    mie := false
    pc := x.mtvec.toNat / 4 * 4
    haltReq := false }

/-- R97: an exception stops a newt at the instruction, which completes no part; cause 24 fences it.
The cluster control core traps in machine mode, and cause 24 fences its cluster. -/
def Chip.trap (s : Chip) (c m cause tval : Nat) : Chip :=
  let x := s.core c m
  if m < 128 then
    let r := nwRec c m
    let s := s.setFld r 12 8 cause
    let s := s.setReg (r + 4) (BitVec.ofNat 32 x.pc)
    let s := s.setReg (r + 8) (BitVec.ofNat 32 tval)
    if cause = 24 then s.sramUe c m tval
    else
      let s := s.setCore c m { x with st := 4, haltReq := false }
      (s.trapPend c m true).setStop c m 2
  else if cause = 24 then s.sramUe c m tval
  else s.setCore c m (x.machineTrap (BitVec.ofNat 32 cause) tval)

/-! ## Fetch (R88, R90, R91) -/

/-- What a fetch brings: an instruction with its bits and length, or an exception. -/
inductive Fetched where
  | ok (op : Rv) (bits len : Nat)
  | trap (cause tval : Nat)
deriving DecidableEq, Repr

/-- A halfword is fetched: its value, or the cause of an exception. -/
def Sys.fetchHalf (y : Sys) (c m a : Nat) : (Nat ⊕ Nat) × Sys :=
  let cut := fun (d : List Byte) => leNat ((d.drop (a % 4)).take 2)
  match placeOf a with
  | .isram a => match y.sramWord c m a with
    | (some d, y) => (.inl (cut d), y)
    | (none, y) => (.inr 24, y)
  | .store off =>
    if m = 128 then
      let (d, bad, y) := y.stRead c (off / 4 * 4) 4
      if bad.isEmpty then (.inl (cut d), y) else (.inr 25, y)
    else (.inr 1, y)
  | _ => (.inr 1, y)

/-- The instruction at a core's pc. -/
def Sys.fetch (y : Sys) (c m : Nat) : Fetched × Sys :=
  let pc := (y.chip.core c m).pc
  match y.fetchHalf c m pc with
  | (.inr k, y) => (.trap k (if k = 24 then pc / 4 * 4 else pc), y)
  | (.inl lo, y) =>
    if lo % 4 ≠ 3 then (.ok (decode16 lo) lo 2, y)
    else match y.fetchHalf c m ((pc + 2) % 2 ^ 32) with
      | (.inr k, y) => (.trap k (if k = 24 then (pc + 2) % 2 ^ 32 / 4 * 4 else (pc + 2) % 2 ^ 32), y)
      | (.inl hi, y) =>
        (.ok (decode32 (lo + 65536 * hi) (m == 128)) (lo + 65536 * hi) 4, y)

/-! ## Execution -/

/-- R98: a core executes: in RUN, not being reset or fenced, no miss outstanding. -/
def Core.runs (x : Core) : Bool := x.st == 2 && x.flush == 0 && x.miss.isNone && !x.absent

/-- R99: an instruction retires: next pc, and a HALT that waited. -/
def Chip.retire (s : Chip) (c m next : Nat) : Chip :=
  let x := s.core c m
  let x := { x with pc := next % 2 ^ 32, instret := x.instret + 1 }
  if x.haltReq ∧ m < 128 then
    let s := s.setReg (nwRec c m + 12) (BitVec.ofNat 32 next)
    (s.setCore c m { x with st := 1, haltReq := false }).setStop c m 1
  else s.setCore c m x

/-- The core executes its next instruction, if `sel` says that it is of the command's kind; exceptions
of the fetch and illegal encodings are taken where `all` is set. -/
def Sys.coreStep (y : Sys) (c m : Nat) (all : Bool) (sel : Rv → Bool)
    (run : Rv → Nat → Nat → Sys → Sys) : Sys :=
  if (y.chip.core c m).runs = false then y
  else
    let pc := (y.chip.core c m).pc
    match y.fetch c m with
    | (.trap k v, y') => if all then onChip (fun s => s.trap c m k v) y' else y
    | (.ok .illegal bits _, y') => if all then onChip (fun s => s.trap c m 2 bits) y' else y
    | (.ok op bits len, y') => if sel op then run op bits (pc + len) y' else y

/-- A result is written and the instruction retires. -/
def Chip.finish (s : Chip) (c m rd : Nat) (w : Word) (next : Nat) : Chip :=
  (s.setCore c m ((s.core c m).put rd w)).retire c m next

/-- A kind of instruction as a chip operation. -/
def Chip.opRun (f : Rv → Nat → Nat → Chip → Chip) (op : Rv) (bits next : Nat) : Sys → Sys :=
  onChip (f op bits next)

/-- RV32I, M, C, Zba and Zbb arithmetic, branches and jumps, and MRET. -/
def isAlu : Rv → Bool
  | .alu .. | .alui .. | .lui .. | .auipc .. | .jal .. | .jalr .. | .branch .. | .mret => true
  | _ => false

/-- R86: arithmetic, branches and jumps. -/
def Chip.runAlu (s : Chip) (c m : Nat) (op : Rv) (next : Nat) : Chip :=
  let x := s.core c m
  match op with
  | .alu f rd a b => s.finish c m rd (aluRun f (x.get a) (x.get b)) next
  | .alui f rd a imm => s.finish c m rd (aluRun f (x.get a) (BitVec.ofNat 32 imm)) next
  | .lui rd imm => s.finish c m rd (BitVec.ofNat 32 imm) next
  | .auipc rd imm => s.finish c m rd (BitVec.ofNat 32 (x.pc + imm)) next
  | .jal rd imm => s.finish c m rd (BitVec.ofNat 32 next) (x.pc + imm)
  | .jalr rd a imm => s.finish c m rd (BitVec.ofNat 32 next) (((x.get a).toNat + imm) / 2 * 2)
  | .branch f3 a b imm =>
    s.retire c m (if taken f3 (x.get a) (x.get b) then x.pc + imm else next)
  | .mret => (s.setCore c m { x with mie := x.mpie, mpie := true }).retire c m x.mepc.toNat
  | _ => s

/-- NEWT_ALU_OP (R85, R86, R97): the core executes an arithmetic, logic, branch or jump instruction;
an exception of the fetch and an illegal encoding are taken here. -/
def execNewtAluOp (c : ClusterNo) (m : CoreNo) : State → Host.Outcome State Fault Refusal :=
  liftS fun y => y.coreStep c m true isAlu fun op _ next => onChip fun s => s.runAlu c m op next

/-! ## CSRs (R92, R93) -/

/-- R101: the cluster tick copy: fabric time, but that it stays put, where fabric time is corrected
backward, until fabric time reaches it (log entry 32). -/
def Chip.tickCopy (s : Chip) : Nat := max s.now s.ft.hold

/-- R92: ACLK cycles since the core last left OFF. -/
def Chip.cycles (s : Chip) (x : Core) : Nat := if x.st = 0 then 0 else s.ref - x.left

/-- R108: the pending interrupts of cluster c, bits 16 to 21. -/
def Chip.mip (s : Chip) (c : Nat) : Word :=
  let trapAny := (List.range 4).any fun i => s.reg (nwPg c + 0x54 + 4 * i) != 0
  BitVec.ofNat 32 (65536 * (b01 (s.flag (nwPg c + 0x98) 0) + 2 * b01 (s.frog c).trapped +
    4 * b01 trapAny + 8 * b01 (s.reg (cpPg c 0 + 0x54) != 0 || s.reg (cpPg c 1 + 0x54) != 0) +
    16 * b01 (s.flag (nwPg c + 0x100) 0) + 32 * b01 (decide (16 ≤ (s.cl c).evq.length))))

/-- R92: kvid. -/
def Chip.kvid (s : Chip) (c m : Nat) : Nat :=
  let x := (s.ownerOf c).getD 0
  (if m = 128 then 0xFF else m) + 256 * c + 65536 * (x / 32) + 2 ^ 22 * (x % 32)

/-- R92, R93: the value of a CSR; none where the core has none of that number. -/
def Chip.csrGet (s : Chip) (c m num : Nat) : Option Word :=
  let x := s.core c m
  let w := fun n : Nat => some (BitVec.ofNat 32 n)
  match num with
  | 0xC00 => w (s.cycles x)
  | 0xC80 => w x.hiC
  | 0xC01 => w s.tickCopy
  | 0xC81 => w x.hiT
  | 0xC02 => w x.instret
  | 0xC82 => w x.hiI
  | 0x800 => w x.kvrm
  | 0x801 => w x.kvqsh
  | 0x802 => w x.kvflags
  | 0x803 => w x.kvcrc
  | 0x804 => w x.kvbw
  | 0xCC0 => w (s.kvid c m)
  | _ =>
    if m ≠ 128 then none
    else match num with
      | 0x300 => w (8 * b01 x.mie + 128 * b01 x.mpie)
      | 0x301 => w 0x40801104
      | 0xF14 => w (256 * c + 255)
      | 0x305 => some x.mtvec
      | 0x340 => some x.mscratch
      | 0x341 => some x.mepc
      | 0x342 => some x.mcause
      | 0x343 => some x.mtval
      | 0x304 => some x.mieReg
      | 0x344 => some (s.mip c)
      | _ => none

/-- R92: what a read of a CSR latches. -/
def Chip.csrLatch (s : Chip) (num : Nat) (x : Core) : Core :=
  match num with
  | 0xC00 => { x with hiC := s.cycles x / 2 ^ 32 }
  | 0xC01 => { x with hiT := s.tickCopy / 2 ^ 32 }
  | 0xC02 => { x with hiI := x.instret / 2 ^ 32 }
  | _ => x

/-- R92, R93: a CSR is written; reserved fields are ignored. -/
def Core.csrPut (x : Core) (num : Nat) (w : Word) : Core :=
  let v := w.toNat
  match num with
  | 0x800 => if v % 4 = 3 then x else { x with kvrm := v % 4 }
  | 0x801 => { x with kvqsh := v % 64 }
  | 0x802 => { x with kvflags := v % 8 }
  | 0x803 => { x with kvcrc := v % 32 }
  | 0x804 => { x with kvbw := v % 32 }
  | 0x300 => { x with mie := nb v 3 3 == 1, mpie := nb v 7 7 == 1 }
  | 0x305 => { x with mtvec := BitVec.ofNat 32 (v / 4 * 4) }
  | 0x340 => { x with mscratch := w }
  | 0x341 => { x with mepc := BitVec.ofNat 32 (v / 2 * 2) }
  | 0x342 => { x with mcause := w }
  | 0x343 => { x with mtval := w }
  | 0x304 => { x with mieReg := BitVec.ofNat 32 (nb v 21 16 * 65536) }
  | _ => x

/-- The value a CSR instruction writes; none where it writes nothing. -/
def csrNew (f3 : Nat) (src : Word) (rs1 : Nat) (old : Word) : Option Word :=
  match f3 % 4 with
  | 1 => some src
  | 2 => if rs1 = 0 then none else some (old ||| src)
  | _ => if rs1 = 0 then none else some (old &&& ~~~src)

/-- CSR_ACCESS (R92, R93): a CSR instruction. An absent CSR, or a write to a read-only one, is an
illegal instruction. -/
def execCsrAccess (c : ClusterNo) (m : CoreNo) : State → Host.Outcome State Fault Refusal :=
  liftS fun y => y.coreStep c m false (fun op => match op with | .csr .. => true | _ => false)
    fun op bits next => onChip fun s => match op with
      | .csr f3 rd rs1 num =>
        let x := s.core c m
        match s.csrGet c m num with
        | none => s.trap c m 2 bits
        | some old =>
          let src := if 4 ≤ f3 then BitVec.ofNat 32 rs1 else x.get rs1
          match csrNew f3 src rs1 old with
          | some w =>
            if 0xC00 ≤ num ∨ num = 0x301 then s.trap c m 2 bits
            else (s.setCore c m (x.csrPut num w)).finish c m rd old next
          | none => (s.setCore c m (s.csrLatch num x)).finish c m rd old next
      | _ => s

/-- ECALL (R97). -/
def execEcall (c : ClusterNo) (m : CoreNo) : State → Host.Outcome State Fault Refusal :=
  liftS fun y => y.coreStep c m false (· == .ecall) fun _ _ _ => onChip fun s => s.trap c m 8 0

/-- EBREAK (R97). -/
def execEbreak (c : ClusterNo) (m : CoreNo) : State → Host.Outcome State Fault Refusal :=
  liftS fun y => y.coreStep c m false (· == .ebreak) fun _ _ _ => onChip fun s =>
    s.trap c m 3 (s.core c m).pc

/-! ## Xkv (R95) -/

/-- The instruction is the Xkv instruction k. -/
def isKv (k : Kv) : Rv → Bool
  | .kv k' .. => k == k'
  | _ => false

/-- The core executes its next instruction if it is the Xkv instruction k. -/
def Sys.kvStep (y : Sys) (c m : Nat) (k : Kv)
    (run : (rd rs1 rs2 rs3 bits next : Nat) → Chip → Chip) : Sys :=
  y.coreStep c m false (isKv k) fun op bits next => match op with
    | .kv _ rd rs1 rs2 rs3 => onChip (run rd rs1 rs2 rs3 bits next)
    | _ => id

/-- R92, R95: kvflags of a core with flag n set when b. -/
def Core.flagIf (x : Core) (n : Nat) (b : Bool) : Core :=
  if b then { x with kvflags := x.kvflags ||| 2 ^ n } else x

/-- A result with its SAT. -/
def Chip.finishSat (s : Chip) (c m rd : Nat) (r : Word × Bool) (next : Nat) : Chip :=
  (s.setCore c m ((s.core c m).flagIf 0 r.2)).finish c m rd r.1 next

/-- KV_QMUL (R47, R95). -/
def execKvQmul (c : ClusterNo) (m : CoreNo) : State → Host.Outcome State Fault Refusal :=
  liftS fun y => y.kvStep c m .qmul fun rd a b _ _ next s =>
    let x := s.core c m
    s.finishSat c m rd (clamp32 (rqRound (s32 (x.get a) * s32 (x.get b)) x.kvqsh x.kvrm)) next

/-- KV_SADD (R95). -/
def execKvSadd (c : ClusterNo) (m : CoreNo) : State → Host.Outcome State Fault Refusal :=
  liftS fun y => y.kvStep c m .sadd fun rd a b _ _ next s =>
    let x := s.core c m
    s.finishSat c m rd (clamp32 (s32 (x.get a) + s32 (x.get b))) next

/-- KV_SSUB (R95). -/
def execKvSsub (c : ClusterNo) (m : CoreNo) : State → Host.Outcome State Fault Refusal :=
  liftS fun y => y.kvStep c m .ssub fun rd a b _ _ next s =>
    let x := s.core c m
    s.finishSat c m rd (clamp32 (s32 (x.get a) - s32 (x.get b))) next

/-- KV_CLAMP (R95). -/
def execKvClamp (c : ClusterNo) (m : CoreNo) : State → Host.Outcome State Fault Refusal :=
  liftS fun y => y.kvStep c m .clamp fun rd a b d _ next s =>
    let x := s.core c m
    let (v, lo, hi) := (x.get a, x.get b, x.get d)
    s.finishSat c m rd
      (if s32 v < s32 lo then (lo, true) else if s32 hi < s32 v then (hi, true) else (v, false)) next

/-- KV_BEXP (R95): W must be 4, 8 or 16. -/
def execKvBexp (c : ClusterNo) (m : CoreNo) : State → Host.Outcome State Fault Refusal :=
  liftS fun y => y.kvStep c m .bexp fun rd a b _ bits next s =>
    let x := s.core c m
    if [4, 8, 16].contains x.kvbw = false then s.trap c m 2 bits
    else
      let e : Int := needBits (s32 (x.get a)) x.kvbw 32
      s.finish c m rd (wOf (max (s32 (x.get b)) e)) next

/-- KV_DOT4 (R95): rd must be even and not x0. -/
def execKvDot4 (c : ClusterNo) (m : CoreNo) : State → Host.Outcome State Fault Refusal :=
  liftS fun y => y.kvStep c m .dot4 fun rd a b _ bits next s =>
    let x := s.core c m
    if rd = 0 ∨ rd % 2 = 1 then s.trap c m 2 bits
    else
      let acc := signed 64 ((x.get rd).toNat + 2 ^ 32 * (x.get (rd + 1)).toNat)
      let (v, sat) := dot4 acc (x.get a) (x.get b)
      let n := unsigned 64 v
      let s := s.setCore c m ((x.flagIf 0 sat).put (rd + 1) (BitVec.ofNat 32 (n / 2 ^ 32)))
      s.finish c m rd (BitVec.ofNat 32 n) next

/-- KV_CRC (R95): POLY and NB must not be 11. -/
def execKvCrc (c : ClusterNo) (m : CoreNo) : State → Host.Outcome State Fault Refusal :=
  liftS fun y => y.kvStep c m .crc fun rd a b _ bits next s =>
    let x := s.core c m
    if x.kvcrc % 4 = 3 ∨ x.kvcrc / 8 % 4 = 3 then s.trap c m 2 bits
    else s.finish c m rd (kvCrcRun x.kvcrc (x.get a) (x.get b)) next

/-- R122: an engine has a free queue entry. -/
def Eng.room (x : Eng) : Bool := decide (x.queue.length < 16)

/-- R122, R398: a program is queued. -/
def Chip.engPost (s : Chip) (c e a : Nat) : Chip :=
  let (n, s) := s.strike (cpPg c e)
  let x := s.eng c e
  s.setEng c e { x with
    queue := x.queue ++ [a]
    struck := if n = 0 then x.struck else some (x.queue.length, n) }

/-- KV_CPY (R95, R122): a copy program is posted, or rejected. A fenced engine discards it. -/
def execKvCpy (c : ClusterNo) (m : CoreNo) : State → Host.Outcome State Fault Refusal :=
  liftS fun y => y.kvStep c m .cpy fun rd a b _ _ next s =>
    let x := s.core c m
    let off := (x.get a).toNat
    let e := (x.get b).toNat
    if s.flag (nwPg c + 0x40) 0 ∧ e < 2 ∧ off % 32 = 0 ∧ off < 0x200000 ∧ (s.eng c e).room then
      let s := if s.isFenced (.copy c e) then s else s.engPost c e off
      s.finish c m rd 1 next
    else (s.setCore c m (x.flagIf 1 true)).finish c m rd 0 next

/-- KV_WAITT (R101): the core waits for a tick, or goes on at once with 2. -/
def execKvWaitt (c : ClusterNo) (m : CoreNo) : State → Host.Outcome State Fault Refusal :=
  liftS fun y => y.kvStep c m .waitt fun rd a b _ _ next s =>
    let x := s.core c m
    let t := (x.get a).toNat + 2 ^ 32 * (x.get b).toNat
    if t ≤ s.tickCopy then s.finish c m rd 2 next
    else s.setCore c m { x with st := 3, target := t, wrd := rd, wlen := next - x.pc }

/-- R95: the cluster event queue passes its oldest event on, one in each tick (log entry 33). -/
def Chip.evDrain (s : Chip) (c : Nat) : Chip :=
  let x := s.cl c
  match x.evq with
  | [] => s
  | (m, v, d) :: q =>
    if x.evLast = some s.now then s
    else
      let s := s.setCl c { x with evq := q, evLast := some s.now }
      s.raise (((s.ownerOf c).getD 0) / 32) v 0xFFFF (256 * c + m) 0 d 0

/-- KV_EVT (R95, R369, R384): an event is queued, or rejected. -/
def execKvEvt (c : ClusterNo) (m : CoreNo) : State → Host.Outcome State Fault Refusal :=
  liftS fun y => y.kvStep c m .evt fun rd a b _ _ next s =>
    let x := s.core c m
    let v := (x.get a).toNat
    let full := decide (16 ≤ (s.cl c).evq.length)
    let on := s.flag (nwPg c + 0x40) 1
    if on ∧ v < 256 ∧ full = false then
      let s := s.setCl c { s.cl c with
        evq := (s.cl c).evq ++ [(if m.val = 128 then 0xFF else m.val, v, (x.get b).toNat)] }
      (s.evDrain c).finish c m rd 1 next
    else
      let s := if on ∧ full then (s.bump (clPg c + 0x48)).notice (clPg c) 1 else s
      (s.setCore c m (x.flagIf 2 true)).finish c m rd 0 next

/-- R96: every dirty line of a core is written back and stays valid and clean. -/
def Sys.cleanAll (y : Sys) (c m : Nat) : Sys :=
  forEachS (y.chip.core c m).lines (fun e y => match e.2 with
    | some l =>
      if l.st = 3 then
        onChip (fun s => s.setCore c m ((s.core c m).setLine e.1 (some { l with st := 2 })))
          (y.writeLine c l)
      else y
    | none => y) y

/-- R96: kv.fence.st and FENCE: the write-backs, then the next instruction. Without grants the core
stalls; with grants the order point has no transaction open, and admits each write-back (R117). -/
def Sys.fenceSt (y : Sys) (c m : Nat) (sel : Rv → Bool) : Sys :=
  y.coreStep c m false sel fun _ _ next y' =>
    if y'.chip.stFrozen c ∧ (y'.chip.core c m).dirty then y
    else onChip (fun s => s.retire c m next) (y'.cleanAll c m)

/-- KV_FENCE_ST (R96). -/
def execKvFenceSt (c : ClusterNo) (m : CoreNo) : State → Host.Outcome State Fault Refusal :=
  liftS fun y => y.fenceSt c m (isKv .fencest)

/-- FENCE_INSN (R85): as kv.fence.st; no load of this in-order core is outstanding. -/
def execFenceInsn (c : ClusterNo) (m : CoreNo) : State → Host.Outcome State Fault Refusal :=
  liftS fun y => y.fenceSt c m (· == .fence)

/-! ## The end of a wait (R101) -/

/-- A wait of core m ends with rd = w. -/
def Chip.endWaitt (s : Chip) (c m : Nat) (w : Word) : Chip :=
  let x := s.core c m
  if x.st ≠ 3 ∨ x.flush ≠ 0 then s
  else (s.setCore c m { x with st := 2 }).finish c m x.wrd w (x.pc + x.wlen)

/-- WAIT_TICK_REACHED (R101). -/
def execWaitTickReached (c : ClusterNo) (m : CoreNo) : State → Host.Outcome State Fault Refusal :=
  liftC fun s => if (s.core c m).target ≤ s.tickCopy then s.endWaitt c m 0 else s

/-- NW_KICK (R101, R109): a write of NW_KICK. A wait whose target is reached in the same cycle returns
0. -/
def execNwKick (c : ClusterNo) (v : Word) : State → Host.Outcome State Fault Refusal :=
  liftC fun s =>
    forEach (if Word.bit v 31 then List.range 128 else [Word.bits v 6 0])
      (fun m s => s.endWaitt c m (if (s.core c m).target ≤ s.tickCopy then 0 else 1)) s

/-- CCC_INTERRUPT (R93, R108): the cluster control core takes a pending enabled interrupt; which of
several it takes first is a free value. -/
def execCccInterrupt (c : ClusterNo) : State → Host.Outcome State Fault Refusal :=
  liftC fun s =>
    let x := s.core c 128
    let p := (List.range 6).filter fun i => Word.bit (s.mip c &&& x.mieReg) (16 + i)
    if x.runs = false ∨ x.mie = false ∨ p.isEmpty then s
    else
      let (k, s) := if p.length = 1 then (0, s) else s.fresh
      let i := p.getD (k % p.length) 0
      s.setCore c 128 (x.machineTrap (BitVec.ofNat 32 (2 ^ 31 + 16 + i)) 0)

end Sys2Proof.Machine
end

