-- ==== Sys2Proof/Machine/NewtCtl.lean ====
section
/-! DEFINITION. Control of newts by the cluster control core: halt, resume, reset, start, broadcast,
register access, mailbox, and write-backs of dirty lines (R98 to R100, R106 to R110, R117). -/

namespace Sys2Proof.Machine

/-- HALT (R99): a running newt stops after its instruction, a waiting one at its kv.waitt. -/
def execHalt (c : ClusterNo) (m : NewtNo) : State → Host.Outcome State Fault Refusal :=
  liftC fun s =>
    let x := s.core c m
    if x.absent ∨ x.flush ≠ 0 ∨ (x.st ≠ 2 ∧ x.st ≠ 3) then s
    else if x.miss.isSome then s.setCore c m { x with haltReq := true }
    else
      let s := s.setReg (nwRec c m + 12) (BitVec.ofNat 32 x.pc)
      (s.setCore c m { x with st := 1 }).setStop c m 1

/-- RESUME (R99, R110): a halted or trapped newt runs from NW_PC; its trap bit is cleared. -/
def execResume (c : ClusterNo) (m : NewtNo) : State → Host.Outcome State Fault Refusal :=
  liftC fun s =>
    let x := s.core c m
    if x.absent ∨ x.flush ≠ 0 ∨ (x.st ≠ 1 ∧ x.st ≠ 4) then s
    else
      let pc := (s.reg (nwRec c m + 12)).toNat % 8192 / 2 * 2
      (s.setCore c m { x with st := 2, pc := pc, miss := none }).trapPend c m false

/-- NEWT_RESET (R99, R100): any newt but an OFF one starts its reset. -/
def execNewtReset (c : ClusterNo) (m : NewtNo) : State → Host.Outcome State Fault Refusal :=
  liftC fun s => s.newtStop c m 5

/-- R100: a core that has written back its dirty lines is OFF, with reset registers. -/
def Chip.coreOff (s : Chip) (c m : Nat) : Chip :=
  let x := s.core c m
  let s := s.setCore c m { absent := x.absent }
  { s with errs.fences := s.errs.fences.filter fun f => !(f.unit == UnitId.newt c m) }

/-- R100: the core is in a reset and has nothing left to write back. -/
def Chip.resetOver (s : Chip) (c m : Nat) : Bool :=
  let x := s.core c m
  x.flush == 2 && !x.dirty && x.miss.isNone

/-- NEWT_RESET_DONE (R100, R386): OFF; a bad dirty line fences the newt as it reaches OFF. -/
def execNewtResetDone (c : ClusterNo) (m : NewtNo) : State → Host.Outcome State Fault Refusal :=
  liftC fun s =>
    if s.resetOver c m then
      let bad := (s.core c m).badDirty
      let s := s.coreOff c m
      if bad then s.unitError (.newt c m) .data (nwRecPg c m) 1 0 false else s
    else s

/-- R109: newt m is named in NW_START_MASK. -/
def Chip.masked (s : Chip) (c m : Nat) : Bool := s.flag (nwPg c + 0x64 + 4 * (m / 32)) (m % 32)

/-- NW_START (R106, R109): every masked newt in HALTED starts at PC. -/
def execNwStart (c : ClusterNo) (v : Word) : State → Host.Outcome State Fault Refusal :=
  liftC fun s =>
    if Word.bit v 0 then s
    else forEach (List.range 128) (fun m s =>
      let x := s.core c m
      if s.masked c m ∧ x.st = 1 ∧ x.flush = 0 ∧ x.absent = false
      then s.setCore c m { x with st := 2, pc := Word.bits v 12 0, miss := none } else s) s

/-- R106: the fields of a broadcast are valid. -/
def Chip.bcOk (s : Chip) (c : Nat) : Bool :=
  let f := fun o => s.fld (nwPg c + o) 20 0
  [0x7C, 0x80, 0x84, 0x88].all (fun o => f o % 8 == 0) &&
  decide (f 0x80 ≤ 8192 ∧ f 0x88 ≤ 8192 ∧ f 0x7C + f 0x80 ≤ 0x200000 ∧ f 0x84 + f 0x88 ≤ 0x200000)

/-- R106: a broadcast is refused. -/
def Chip.bcRefuse (s : Chip) (c : Nat) : Chip :=
  (s.setFld (nwPg c + 0x8C) 3 3 1).notice (nwPg c) 2

/-- BROADCAST (R106, R109): a write of NW_BC_CTL: ZFILL, ERR cleared by a 1, and GO, which checks and
starts a broadcast unless one is in progress. -/
def execBroadcast (c : ClusterNo) (v : Word) : State → Host.Outcome State Fault Refusal :=
  liftC fun s =>
    let a := nwPg c + 0x8C
    let s := s.setFlag a 1 (Word.bit v 1)
    let s := if Word.bit v 3 then s.setFlag a 3 false else s
    if Word.bit v 0 = false ∨ s.flag a 2 then s
    else
      let ms := (List.range 128).filter fun m => s.masked c m
      let busy := ms.any fun m => decide (2 ≤ (s.core c m).st ∧ (s.core c m).st ≤ 4)
      if busy ∨ s.bcOk c = false then s.bcRefuse c
      else
        let s := s.setCl c { s.cl c with
          bcast := ms.filter fun m => !(s.core c m).absent && (s.core c m).st != 5 }
        (s.setFlag a 0 true).setFlag a 2 true

/-- R106: an image is written into one newt's SRAM from address a; with zero fill the rest of its
8 KiB is 0. -/
def Sys.loadSram (y : Sys) (c m a : Nat) (d : List Byte) (fill : Bool) : Sys :=
  let k := sramKey c m a
  let n := if fill then 8192 else d.length
  { y with mem := { y.mem with
      sram := KMap.store (KMap.zero y.mem.sram k n) k d
      sramMark := KMap.zero y.mem.sramMark (k / 4) (n / 4) } }

/-- R99, R106: a newt that was loaded is HALTED, its registers and CSRs reset, the cycle count among
them. -/
def Chip.loaded (s : Chip) (c m : Nat) : Chip :=
  let x := s.core c m
  if x.st = 0 ∨ x.st = 1 then
    s.setCore c m { absent := x.absent, st := 1, lines := x.lines, uses := x.uses
                    left := s.ref }
  else s

/-- BROADCAST_DONE (R106, R112): the image is in every loaded newt, which is HALTED; an uncorrectable
word of the image refuses the broadcast. -/
def execBroadcastDone (c : ClusterNo) : State → Host.Outcome State Fault Refusal :=
  liftS fun y =>
    let s := y.chip
    let a := nwPg c + 0x8C
    if s.flag a 2 = false ∨ s.stFrozen c then y
    else
      let f := fun o => s.fld (nwPg c + o) 20 0
      let (i, b1, y) := y.stRead c (f 0x7C) (f 0x80)
      let (d, b2, y) := y.stRead c (f 0x84) (f 0x88)
      let fin := onChip fun s =>
        ((s.setFlag a 0 false).setFlag a 2 false).setCl c { s.cl c with bcast := [] }
      if b1.isEmpty = false ∨ b2.isEmpty = false then fin (onChip (fun s => s.bcRefuse c) y)
      else
        let fill := s.flag a 1
        let ms := ((s.cl c).bcast).filter fun m => decide ((y.chip.core c m).st < 2)
        let y := forEachS ms (fun m y => (y.loadSram c m 0 i fill).loadSram c m 8192 d fill) y
        fin (onChip (forEach ms fun m s => s.loaded c m) y)

/-- R98: a newt's registers may be read and written: HALTED, TRAPPED or OFF. -/
def Core.isOpen (x : Core) : Bool := (x.st == 0 || x.st == 1 || x.st == 4) && x.flush == 0

/-- NW_XDATA_WRITE (R109): the selected register of the selected newt. -/
def execNwXdataWrite (c : ClusterNo) (v : Word) : State → Host.Outcome State Fault Refusal :=
  liftC fun s =>
    let m := s.fld (nwPg c + 0x90) 14 8
    let x := s.core c m
    if x.isOpen ∧ x.absent = false then s.setCore c m (x.put (s.fld (nwPg c + 0x90) 4 0) v) else s

/-- NW_MBOX_DB of cluster c. -/
def mboxDb (c : Nat) : Nat := nwPg c + 0x100

/-- MBOX_IN_SET (R107). -/
def execMboxInSet (c : ClusterNo) : State → Host.Outcome State Fault Refusal :=
  liftC fun s => s.setFlag (mboxDb c) 0 true

/-- MBOX_IN_CLEAR (R107). -/
def execMboxInClear (c : ClusterNo) : State → Host.Outcome State Fault Refusal :=
  liftC fun s => s.setFlag (mboxDb c) 0 false

/-- MBOX_OUT_SET (R107). -/
def execMboxOutSet (c : ClusterNo) : State → Host.Outcome State Fault Refusal :=
  liftC fun s => s.setFlag (mboxDb c) 1 true

/-- MBOX_OUT_CLEAR (R107). -/
def execMboxOutClear (c : ClusterNo) : State → Host.Outcome State Fault Refusal :=
  liftC fun s => s.setFlag (mboxDb c) 1 false

/-- FROG_DONE_ACK (R108). -/
def execFrogDoneAck (c : ClusterNo) : State → Host.Outcome State Fault Refusal :=
  liftC fun s => s.setFlag (nwPg c + 0x98) 0 false

/-! ## Write-backs (R100, R113, R116, R117) -/

/-- R100, R386: a reset discards a dirty line that holds an uncorrectable word, and logs it. -/
def Chip.discardLine (s : Chip) (c m k : Nat) (l : Line) : Chip :=
  let x := s.core c m
  let s := s.setCore c m { x.setLine k none with badDirty := true }
  if m < 128 then s.latchFirst (nwRecPg c m) 1 1 (l.off / 4) false
  else s.unitError (.cluster c) .data (nwPg c) 1 (l.off / 4) false

/-- R117: a dirty line is written back and leaves the cache. In a fenced core an uncorrectable word of
it is a second error (R386, R393). -/
def Sys.evictLine (y : Sys) (c m k : Nat) (l : Line) : Sys :=
  let x := y.chip.core c m
  if x.flush = 2 ∧ l.bad.isEmpty = false then onChip (fun s => s.discardLine c m k l) y
  else
    let y := y.writeLine c l
    let y := onChip (fun s => s.setCore c m ((s.core c m).setLine k none)) y
    if x.flush = 3 ∧ l.bad.isEmpty = false then
      onChip (fun s => s.unitError (if m < 128 then .newt c m else .cluster c) .data
        (if m < 128 then nwRecPg c m else nwPg c) 1 (l.off / 4) false) y
    else y

/-- The dirty line core m has to write back next: of a reset or a fence, the lowest; of a miss, the
line whose way it takes. -/
def Core.wbNext (x : Core) : Option (Nat × Line) :=
  if x.flush ≠ 0 then x.lines.findSome? fun e => match e.2 with
    | some l => if l.st = 3 then some (e.1, l) else none
    | none => none
  else match x.miss with
    | some s =>
      let line := s.addr / 64 * 64
      if (x.line line).isSome then none
      else match x.allocWay line with
        | (k, some l) => if l.st = 3 then some (k, l) else none
        | _ => none
    | none => none

/-- SNOOP_WB (R117, R118): the order point admits the write-back core m has to make. -/
def execSnoopWb (c : ClusterNo) (m : CoreNo) : State → Host.Outcome State Fault Refusal :=
  liftS fun y => match (y.chip.core c m).wbNext with
    | none => y
    | some (k, l) => match y.chip.ringAdmit c l.off m with
      | (false, s) => { y with chip := s }
      | (true, s) => Sys.evictLine { y with chip := s } c m k l

end Sys2Proof.Machine
end

