-- ==== Sys2Proof/Machine/Sha.lean ====
section
/-! DEFINITION. SHA-384 of FIPS 180-4, which measurements, images and audit digests use (R444, R453,
R456). -/

namespace Sys2Proof.Machine

/-- A prime: FIPS 180-4 takes its constants from the roots of the first ones. -/
def isPrime (n : Nat) : Bool :=
  decide (2 ≤ n) && (List.range 21).all fun d => decide (d < 2 ∨ n < d * d) || n % d != 0

/-- The greatest r below 2^b above a multiple `hi` of it with r^k ≤ v: bit by bit from the top. -/
def rootFrom (k v : Nat) : Nat → Nat → Nat
  | 0, hi => hi
  | b + 1, hi =>
    let r := hi + 2 ^ b
    rootFrom k v b (if r ^ k ≤ v then r else hi)

/-- The first 64 bits of the fractional part of the k-th root of p. -/
def rootBits (k p : Nat) : Nat := rootFrom k (p * 2 ^ (64 * k)) 72 0 % 2 ^ 64

/-- The 80 round constants: cube roots of the primes up to 409. -/
def shaK : List Nat := ((List.range 410).filter isPrime).map (rootBits 3)

/-- The initial hash value of SHA-384: square roots of the ninth to sixteenth primes. -/
def shaIv : List Nat := ((List.range 54).filter fun p => decide (22 < p) && isPrime p).map (rootBits 2)

/-- A 64-bit rotation to the right. -/
def rotr (x n : Nat) : Nat := x / 2 ^ n + x * 2 ^ (64 - n) % 2 ^ 64

/-- Sum modulo 2^64. -/
def add64 (l : List Nat) : Nat := l.sum % 2 ^ 64

/-- What the sums of FIPS 180-4 have in common: x rotated by each of three distances, or by two and shifted
by a third, joined bit by bit. -/
def shaMix (x : Nat) (rots : List Nat) (shift : Option Nat) : Nat :=
  rots.foldl (fun y n => y ^^^ rotr x n) (match shift with | some n => x / 2 ^ n | none => 0)

/-- Ch: a bit of x chooses between that of y and that of z. -/
def shaChoose (x y z : Nat) : Nat := z ^^^ (x &&& (y ^^^ z))

/-- Maj: the bit that two of three have. -/
def shaMost (x y z : Nat) : Nat := (x &&& (y ||| z)) ||| (y &&& z)

/-- One round: the eight working words move down by one; the fifth gains what the last one, the schedule
word and the round constant give, and that with the sums over the first three comes in on top. -/
def shaRound (v : List Nat) (k w : Nat) : List Nat :=
  let x := fun i => v.getD i 0
  let low := add64 [k, w, x 7, shaChoose (x 4) (x 5) (x 6), shaMix (x 4) [14, 18, 41] none]
  let top := add64 [low, shaMost (x 0) (x 1) (x 2), shaMix (x 0) [28, 34, 39] none]
  top :: (v.modify 3 fun d => add64 [d, low]).take 7

/-- The rounds for a list of constants; w is the window of the next sixteen schedule words, and a new one
is made of the first, second, tenth and fifteenth. -/
def shaRounds (ks w v : List Nat) : List Nat :=
  match ks with
  | [] => v
  | k :: ks =>
    let x := fun i => w.getD i 0
    let next := add64 [x 0, shaMix (x 1) [1, 8] (some 7), x 9, shaMix (x 14) [19, 61] (some 6)]
    shaRounds ks (w.drop 1 ++ [next]) (shaRound v k (x 0))

/-- A big-endian byte string as a number. -/
def beNat (l : List Byte) : Nat := l.foldl (fun n b => 256 * n + b.toNat) 0

/-- A number as n big-endian bytes. -/
def beBytes (n v : Nat) : List Byte := (leBytes n v).reverse

/-- What a block adds to the hash value: its rounds, from sixteen words of 8 bytes each. -/
def shaBlock (h : List Nat) (blk : List Byte) : List Nat :=
  let word := fun i => beNat ((blk.drop (8 * i)).take 8)
  (h.zip (shaRounds shaK ((List.range 16).map word) h)).map fun e => add64 [e.1, e.2]

/-- The message in whole blocks: the marker byte, zeros, and the length in bits as the last 16 bytes. -/
def shaPad (m : List Byte) : List Byte :=
  let used := m.length + 1 + 16
  m ++ 0x80 :: (List.replicate ((128 - used % 128) % 128) 0 ++ beBytes 16 (8 * m.length))

/-- SHA-384: 48 bytes, the first six words of the hash value after the last block. -/
def sha384 (m : List Byte) : List Byte :=
  let p := shaPad m
  let after := fun (h : List Nat) (i : Nat) => shaBlock h ((p.drop (128 * i)).take 128)
  (((List.range (p.length / 128)).foldl after shaIv).take 6).flatMap (beBytes 8)

end Sys2Proof.Machine
end

