-- ==== Sys2Proof/Machine/Attest.lean ====
section
/-! DEFINITION. Measurement: the registers MBOOT and MRUN and their log (R453). -/

namespace Sys2Proof.Machine

/-- A digest or other byte string shown in n registers from address a (R6). -/
def Chip.setBytes (s : Chip) (a n : Nat) (d : List Byte) : Chip :=
  forEach (List.range n) (fun i s =>
    s.setReg (a + 4 * i) (BitVec.ofNat 32 (leNat ((d.drop (4 * i)).take 4)))) s

/-- R453: an entry extends its register, MRUN for the runtime entries, and is kept in the log while
that has room. -/
def Chip.measure (s : Chip) (typ : Nat) (d : List Byte) : Chip :=
  let run := decide (16 ≤ typ)
  let m := sha384 ((if run then s.att.mrun else s.att.mboot) ++ leBytes 4 typ ++ d)
  let s := if run then (Chip.setBytes { s with att.mrun := m } (attPg + 0x114) 12 m)
    else (Chip.setBytes { s with att.mboot := m } (attPg + 0xE4) 12 m)
  let tick := if s.fld (stagePg + 0x40) 3 0 < 6 then 0 else s.now
  let n := s.att.log.length
  if n < 4096 then
    (Chip.setFld { s with att.log := s.att.log ++ [⟨typ, n, tick, d⟩] } (attPg + 0x9C) 12 0 (n + 1))
  else s.setFlag (attPg + 0x9C) 31 true

end Sys2Proof.Machine
end

