-- ==== Sys2Proof/Machine/Serve.lean ====
section
/-! DEFINITION. Channel controllers at work: block slots, reads and writes with the page code,
poison, row disturbance, refresh, retraining, scrub, power-down, throttles, controller reset
(R162 to R183, R380). -/

namespace Sys2Proof.Machine

def Chip.mc (s : Chip) (n : Nat) : Mc := KMap.at s.mcs {} n

def Chip.setMc (s : Chip) (n : Nat) (m : Mc) : Chip := { s with mcs := KMap.put s.mcs {} n m }

/-! ## Corrected errors, UE and poison (R174 to R176) -/

/-- R174: a decode that corrects k > 0 symbols is counted; the leaky bucket overflows above SIZE. -/
def Chip.correct (s : Chip) (n k : Nat) : Chip :=
  if k = 0 then s
  else
    let pg := mcPg n
    let s := (s.bumpBy (pg + 0x78) k).bump (pg + 0x20)
    let l := min (s.fld (pg + 0x74) 15 0 + k) 65535
    if max (s.fld (pg + 0x70) 15 0) 1 < l then
      let s := (s.setFld (pg + 0x74) 15 0 0).bump (pg + 0x7C)
      (s.notice pg 0).fault { faultOf pg 0 0 with kind := 5, unit := n }
    else s.setFld (pg + 0x74) 15 0 l

/-- R175, R176: a block that decodes UE while it is in no poison table: logged, counted, reported,
and entered in the table unless that is full. -/
def Chip.firstUe (s : Chip) (n b port part : Nat) (inj : Bool) : Chip :=
  let pg := mcPg n
  let s := if s.flag (errStat pg) 1 then s
    else ((s.setReg (pg + 0x80) (BitVec.ofNat 32 b)).setPair (pg + 0x84) s.now).setReg (pg + 0x8C)
      (BitVec.ofNat 32 port)
  let s := s.countErr pg 1 1 b inj
  let s := s.fault { faultOf pg 1 1 with inj := inj, kind := 11, unit := n, info := b
                                         part := if part = 64 then 0 else part }
  let m := s.mc n
  if m.poison.length < 256 then s.setMc n { m with poison := m.poison ++ [(b, false)] }
  else (s.bump (pg + 0x94)).notice pg 5

/-- R175, R176: the read of a block: its bytes, or none for UE. -/
def Sys.readBlk (y : Sys) (n b port part : Nat) : Option (List Byte) × Sys :=
  let s := y.chip
  let m := s.mc n
  if m.poison.any fun p => p.1 == b then
    (none, { y with chip := (s.latchFirst (mcPg n) 2 1 b false).setErr (mcPg n) 2 })
  else if m.marked.contains b then
    let s := s.setMc n { m with marked := m.marked.filter fun x => !(x == b) }
    (none, { y with chip := s.firstUe n b port part true })
  else
    let k := s.free
    let d := y.mem.decode s.codeT b k
    match d with
    | .good c => (some (y.mem.blk b), { y with chip := s.correct n c })
    | .ue => (none, { y with chip := Chip.firstUe { s with free := k + 1 } n b port part false })
    | .wrong d => (some d, { y with chip := { s with free := k + 1 } })

/-- R176: block b of controller n is a DEFECT block. -/
def Chip.isDefect (s : Chip) (n b : Nat) : Bool := (s.mc n).poison.any fun p => p.1 == b && p.2

/-- R156, R176, R183: bytes written into a block, encoded with it; the poison entry goes, and an
armed injection acts on the stored word. A DEFECT block is not written. -/
def Sys.writeBlk (y : Sys) (n b lo : Nat) (d : List Byte) : Sys :=
  if y.chip.isDefect n b then y
  else
    let m := y.chip.mc n
    let mem := y.mem.putBlk b lo d
    let mem := if m.inject = 2 then mem.flipD0 b else mem
    let m := { m with
      poison := m.poison.filter fun p => !(p.1 == b)
      marked := if m.inject = 3 then b :: m.marked.filter (fun x => !(x == b)) else m.marked
      inject := 0 }
    { mem := mem, chip := y.chip.setMc n m }

/-! ## Row disturbance (R172, R173) -/

/-- R172: the entry with the least count, the lowest index on ties, as its index. -/
def leastHot (l : List HotRow) : Nat :=
  (l.mapIdx fun i e => (i, e.count)).foldl (fun (bi, bc) (i, c) => if c < bc then (i, c) else (bi, bc))
    (0, (l.head?.map (·.count)).getD 0) |>.1

/-- R172: the vote of requester x on an entry; nobody never votes. -/
def hotVote (x : Nat) (e : HotRow) : HotRow :=
  if x = 0 then e
  else if e.vote = 0 then { e with cand := x, vote := 1 }
  else if e.cand = x then { e with vote := e.vote + 1 }
  else { e with vote := e.vote - 1 }

/-- R172: a table after an activation of row r for requester x, with the index of its entry. -/
def hotStep (l : List HotRow) (r x : Nat) : Nat × List HotRow :=
  match l.findIdx? fun e => e.row == r with
  | some i => (i, l.modify i fun e => hotVote x { e with count := e.count + 1 })
  | none =>
    if l.length < 64 then (l.length, l ++ [hotVote x ⟨r, 1, x, 0⟩])
    else
      let i := leastHot l
      (i, l.modify i fun e => hotVote x ⟨r, e.count + 1, x, 0⟩)

/-- R173: an activation of row r of bank k of controller n; at the threshold the neighbour refresh,
the record, the notice and the throttle. -/
def Chip.activate (s : Chip) (n k r x : Nat) : Chip :=
  let pg := mcPg n
  let m := s.mc n
  let (i, l) := hotStep (KMap.at m.hot [] k) r x
  let e := l.getD i ⟨r, 0, 0, 0⟩
  let th := max (s.fld (pg + 0x60) 15 0) 256
  if e.count < th then s.setMc n { m with hot := KMap.put m.hot [] k l }
  else
    let l := l.modify i fun e => { e with count := 0 }
    let lo := r - 2
    let nb := ((List.range 5).map fun d => r + d - 2).filter fun q => decide (lo ≤ q ∧ q ≤ 65535)
    let m := { m with
      hot := KMap.put m.hot [] k l
      nbr := m.nbr ++ (nb.eraseDups.map fun q => (k, q))
      throttled := if e.vote = 0 then m.throttled
        else (e.cand, s.now + 64000) :: m.throttled.filter fun t => !(t.1 == e.cand) }
    let s := s.setMc n m
    let s := s.setReg (pg + 0x64) (BitVec.ofNat 32 (r + 65536 * k))
    let s := s.setReg (pg + 0x68) (BitVec.ofNat 32 (if e.vote = 0 then 0 else e.cand))
    let s := (s.bump (pg + 0x6C)).notice pg 3
    if e.vote = 0 then s
    else { s with thrMsgs := s.thrMsgs ++ [⟨e.cand, n, s.now + 64000⟩] }

/-- R172: the activations of one block: its data row and its check row. -/
def Chip.activateBlk (s : Chip) (n b x : Nat) : Chip :=
  let k := s.bankOf b
  let r := rowOfBlk b
  (s.activate n k r x).activate n (checkBank k) (s.checkRow r) x

/-! ## Which block a slot serves (R163 to R169) -/

/-- R166: the hot rate rules for a refresh window that starts at tick t: the rate chosen last, or the one
before for a window that started earlier. -/
def Chip.hotAt (s : Chip) (n t : Nat) : Bool :=
  if t < (s.mc n).rateAt then (s.mc n).wasHot else s.flag (mcPg n + 0x40) 4

/-- R166: slot j overlaps a refresh window of bank b the controller uses: every one at the hot rate,
those with k even at the cold rate. -/
def Chip.inUsedRefresh (s : Chip) (n b j : Nat) : Bool :=
  match s.windowAt j 1950 ((121 * b + 1950 * 64 - 61 * n) % 1950) 240 with
  | none => false
  | some t => s.hotAt n t || (t + 61 * n - 121 * b) / 1950 % 2 == 0

/-- R163: a block of bank k in slot j of controller n keeps the rules beside the windows in use, the blocks
just served, and the slots that promises and accesses hold ahead. -/
def Chip.slotKeeps (s : Chip) (n k j : Nat) : Bool :=
  (touches k).all (fun b => !s.inUsedRefresh n b j) && !s.inTraining n j &&
  ((s.mc n).hist.all fun h => decide (h.1 + 3 ≤ j) || slotsAgree (j - h.1) k h.2) &&
  (s.prom.ch.all fun c => c.n != n || decide (c.slot ≤ j) || slotsFit j k c.slot c.bank) &&
  s.accs.all fun a => match heldSlot a with
    | some i => s.ctrlOf a.pb != n || decide (i ≤ j) || slotsFit j k i (s.bankOf a.pb)
    | none => true

/-- R163: the controller may serve an unreserved block of bank k in slot j. -/
def Chip.mcAllow (s : Chip) (n k j : Nat) : Bool :=
  s.slotKeeps n k j && !s.inScrub n j &&
  [1, 2].all fun d => !s.scrubFirst n (j + d) || slotsAgree d k (s.scrubPosAt n (j + d) / s.rowsD)

/-- R168: no earlier access to the same block is at the controller. -/
def Chip.firstFor (s : Chip) (a : Acc) : Bool :=
  match s.accs.find? fun x => x.pb == a.pb && x.phase != .served && x.phase != .waitDir &&
      (match x.phase with | .recalling _ => false | _ => true) with
  | some x => x.src == a.src
  | none => true

/-- The access is at its controller and not served. -/
def atMc (a : Acc) : Bool :=
  match a.phase with
  | .ready | .rmw _ => true
  | _ => false

/-- R167: the queue of port p of controller n: the first 64 accesses there that hold no slot; further
ones wait outside it (log entry 92). -/
def Chip.portQueue (s : Chip) (n p : Nat) : List Acc :=
  (s.accs.filter fun a => atMc a && a.port == p && s.ctrlOf a.pb == n && (heldSlot a).isNone).take 64

/-- R167: the access has reached controller n: it holds a slot there or stands in its port's queue. -/
def Chip.reached (s : Chip) (n : Nat) (a : Acc) : Bool :=
  atMc a && s.ctrlOf a.pb == n &&
  ((heldSlot a).isSome || (s.portQueue n a.port).any fun x => x.src == a.src)

/-- R168: what has reached controller n for bank k, in arrival order. -/
def Chip.bankQueue (s : Chip) (n k : Nat) : List Acc :=
  s.accs.filter fun a => s.bankOf a.pb == k && s.reached n a

/-- R168: bank k of controller n runs in arrival order: a queued read names the row of a pending
write. -/
def Chip.hazard (s : Chip) (n k : Nat) : Bool :=
  let q := s.bankQueue n k
  q.any fun a => !a.write && q.any fun w => w.write && rowOfBlk w.pb == rowOfBlk a.pb

/-- R168: in a bank with a hazard only the access that arrived first may be served. -/
def Chip.inOrder (s : Chip) (n : Nat) (a : Acc) : Bool :=
  let k := s.bankOf a.pb
  !s.hazard n k ||
  match (s.bankQueue n k).head? with
  | some x => x.src == a.src
  | none => true

/-- R182: MC_REG_CFG of a bucket, RATE in [10:0] and BURST in [23:16]. -/
def cfgOf (m : Mc) (part port : Nat) : Word := KMap.at m.regCfg 0x200400 (part + 64 * port)
def rateOf (w : Word) : Nat := min (max (Word.bits w 10 0) 1) 1024
def burstOf (w : Word) : Nat := max (Word.bits w 23 16) 1

/-- R169: a bucket's level at slot j, in 1/1,024 token. -/
def bucketLevel (m : Mc) (part port j : Nat) : Nat :=
  let w := cfgOf m part port
  match KMap.at m.buckets none (part + 64 * port) with
  | none => 1024 * burstOf w
  | some b => min (1024 * burstOf w) (b.level + rateOf w * (j - b.slot))

/-- R169: tokens of an unreserved access: a sub-block write takes two. -/
def tokensOf (a : Acc) : Nat := if a.write ∧ a.len < 2048 then 2 else 1

/-- R169: the regulators let an unreserved access be served in slot j: tokens, and the spacing of a
throttled requester. -/
def regAllow (m : Mc) (now j : Nat) (a : Acc) : Bool :=
  2 < a.port || 64 ≤ a.part ||
  (decide (1024 * tokensOf a ≤ bucketLevel m a.part a.port j) &&
   (!(m.throttled.any fun t => t.1 == a.x && decide (now < t.2)) ||
    m.spaced.all fun v => !(v.x == a.x && v.port == a.port) ||
      decide (v.slot + ceilDiv 16384 (rateOf (cfgOf m a.part a.port)) ≤ j)))

/-- R169: an unreserved access served in slot j takes its tokens. -/
def takeTokens (m : Mc) (j : Nat) (a : Acc) : Mc :=
  if 2 < a.port ∨ 64 ≤ a.part then m
  else { m with
    buckets := KMap.put m.buckets none (a.part + 64 * a.port)
      (some ⟨bucketLevel m a.part a.port j - 1024 * tokensOf a, j⟩)
    spaced := ⟨a.x, a.port, j⟩ :: m.spaced.filter fun v => !(v.x == a.x && v.port == a.port) }

/-- R170: the write of a sub-block write comes no earlier than the third slot after its read. -/
def rmwDue (a : Acc) (j : Nat) : Bool :=
  match a.phase with
  | .rmw k => decide (k + 3 ≤ j)
  | _ => true

/-- R417: on a standby an access to a block in the poison table waits for the holder's copy. -/
def Chip.awaitsCopy (s : Chip) (n : Nat) (a : Acc) : Bool :=
  s.standsBy && (s.mc n).poison.any fun p => p.1 == a.pb

/-- R164, R168: an access reserved for slot j of controller n that has reached it. -/
def Chip.reservedFor (s : Chip) (n j : Nat) : Option Acc :=
  s.accs.find? fun a => atMc a && heldSlot a == some j && s.ctrlOf a.pb == n && rmwDue a j &&
    s.firstFor a && s.inOrder n a && !s.awaitsCopy n a

/-- R163, R168: an access that holds no slot from j on may be served in slot j. -/
def Chip.mayServe (s : Chip) (n j : Nat) (a : Acc) : Bool :=
  s.reached n a && !s.awaitsCopy n a && rmwDue a j && s.firstFor a && s.inOrder n a &&
  (match heldSlot a with | none => true | some k => decide (k < j)) && s.mcAllow n (s.bankOf a.pb) j

/-- R164: whether the access lost its reserved slot. -/
def isLate (a : Acc) : Bool := (heldSlot a).isSome

/-- R199: the next block of a fill on controller n: extent, block, and the tick since when it
waits. -/
def Chip.fillNext (s : Chip) (n : Nat) : Option (Nat × Nat × Nat) :=
  match s.rights.exts.find? fun x => s.extState x.1 == 4 &&
      decide (KMap.at s.rights.fillPos 0 (256 * x.1 + n) < 128) with
  | none => none
  | some (x, e) => some (x, s.fillBlock x n (KMap.at s.rights.fillPos 0 (256 * x + n)), e.qEnd)

/-! ## Serving -/

/-- The chip with an access changed, found by its source. -/
def Chip.setAcc (s : Chip) (src : BlkSrc) (f : Acc → Acc) : Chip := s.updAccs (fun a => a.src == src) f

/-- R222, R225: a block of a region's copy step: a read turns into the write of the other body; after
the last write of a deletion the entry is freed. A read that ends UE copies nothing. -/
def Chip.regionStep (s : Chip) (r k : Nat) (a : Acc) : Chip :=
  let g := KMap.at s.regions {} r
  let dest := if a.pb = g.base + k then g.shadow + k else g.base + k
  if a.write = false ∧ a.st = .ok then
    { s with accs := (s.accs.filter fun x => !(x.src == a.src)) ++
        [{ a with pb := dest, write := true, phase := .ready, slot := a.slot2, slot2 := none }] }
  else
    let s := { s with accs := s.accs.filter fun x => !(x.src == a.src)
                      regions := KMap.put s.regions {} r { g with copyPos := g.copyPos + 1 } }
    let s := if a.st = .ok then s
      else s.countErr pubPg (if g.creating.isSome then 0 else 1) 1 a.pb false
    if g.delCopy ∧ g.count ≤ g.copyPos + 1 then s.removeRegion r else s

/-- R222: writes of a new region's blocks with a tick before its commit are not complete. -/
def Chip.regionOld (s : Chip) (g : Region) : Bool :=
  let inside := fun b : Nat => decide (g.base ≤ b ∧ b < g.base + g.count)
  (s.prom.hdrs.any fun r => isWrite r.kind && r.kind != .publish && decide (r.th < g.tc) &&
    (blocksOf r.off r.len).any fun x => inside x.1) ||
  s.accs.any fun a => a.write && a.phase != .served && inside a.b && match a.src with
    | .req id _ => s.prom.reqs.any fun r => r.id == id && decide (r.th < g.tc)
    | .copy .. => decide (a.tick < g.tc)
    | _ => false

/-- R222: the next block of a creation (body 0 into the shadow) or of a deletion (body 1 into body 0)
is read through port 3. -/
def Chip.regionKick (s : Chip) (r : Nat) (g : Region) : Chip :=
  let k := g.copyPos
  let busy := s.accs.any fun a => match a.src with | .region x _ => x == r | _ => false
  if (g.creating.isSome ∨ g.delCopy = true) ∧ g.created ∧ k < g.count ∧ busy = false ∧
      s.regionOld g = false then
    { s with accs := s.accs ++ [
        { src := .region r k, port := 3, b := g.base + k
          pb := if g.delCopy then g.shadow + k else g.base + k
          lo := 0, len := 2048, write := false, rdc := false, excl := false, part := g.part, x := 0
          data := [], slot := none, slot2 := none, checked := true, phase := .ready, st := .ok
          reg := false, lock := false, tick := s.now, late := false }] }
  else s

/-- R222: every creation or deletion goes on. -/
def Chip.regionKicks (s : Chip) : Chip := forEach s.regions (fun g s => s.regionKick g.1 g.2) s

/-- R403, R404: the next block of a running check-value stream is read through port 3, unless the
stream's partition has no right on it or its controller is fenced. -/
def Chip.cvNext (s : Chip) (u : Nat) : Chip :=
  let v := KMap.at s.errs.cvs {} u
  match v.run with
  | none => s
  | some r =>
    let a := r.off + v.pos
    let b := a / 2048
    let x := a / 0x4000000
    let stop := fun st => { s with errs.cvs := KMap.put s.errs.cvs {} u { v with ended := some st } }
    if r.len ≤ v.pos ∨ v.ended.isSome then s
    else if s.dataBlocks ≤ b ∨ (s.ownedBy r.part x = false ∧ (r.part ≠ 0 ∨ a < s.rsv))
    then stop .noAccess
    else if s.isFenced (.mc (s.ctrlOf b)) then stop .fenced
    else { s with accs := s.accs ++ [
      { src := .cv u (v.pos / 2048), port := 3, b := b, pb := b, lo := a % 2048
        len := min (2048 - a % 2048) (r.len - v.pos), write := false, rdc := false, excl := false
        part := r.part, x := 0, data := [], slot := none, slot2 := none, checked := true
        phase := .ready, st := .ok, reg := false, lock := false, tick := s.now, late := false }] }

/-- R401, R403: a block of a check-value stream has been read: the register takes its bytes. -/
def Chip.cvTake (s : Chip) (u : Nat) (a : Acc) : Chip :=
  let v := KMap.at s.errs.cvs {} u
  let s := { s with accs := s.accs.filter fun x => !(x.src == a.src) }
  match v.run with
  | none => s
  | some r =>
    let v := if a.st = .ok then { v with
        pos := v.pos + a.len
        crc := crcRun (crcAlg r.poly) v.crc a.data }
      else { v with ended := some a.st }
    Chip.cvNext { s with errs.cvs := KMap.put s.errs.cvs {} u v } u

/-- R424: the next block is read for the chip that joins, through port 3; there is one past the last while
COPY is over. -/
def Chip.joinNext (s : Chip) : Chip :=
  match s.duo.copyAt with
  | none => s
  | some b =>
    if s.dataBlocks ≤ b ∨ (s.accs.any fun a => a.src == .join b) = true then s
    else { s with accs := s.accs ++ [
      { src := .join b, port := 3, b := b, pb := b, lo := 0, len := 2048, write := false, rdc := false
        excl := false, part := 64, x := 0, data := [], slot := none, slot2 := none, checked := true
        phase := .ready, st := .ok, reg := false, lock := false, tick := s.now, late := false }] }

/-- R414, R424: a block goes to the chip that joins. -/
def Chip.sendBlock (s : Chip) (b : Nat) (d : List Byte) : Chip := s.duoSend 0xB 0 s.now (4 * b) 0 d

/-- R412, R424: a block copied for the chip that joins has been read; one the holder cannot read itself is
not sent. -/
def Chip.joinTake (s : Chip) (b : Nat) (a : Acc) : Chip :=
  let s := { s with accs := s.accs.filter fun x => !(x.src == a.src) }
  if s.duo.copyAt = some b then
    let s := if a.st = .ok then s.sendBlock b a.data else s
    Chip.joinNext { s with duo.copyAt := some (b + 1) }
  else s

/-- R424: a write of block b goes to the chip that joins: its copy read was accepted before, and after ORD_J
it is that of a request ordered before. -/
def Chip.forwards (s : Chip) (b : Nat) (src : BlkSrc) : Bool :=
  match s.duo.copyAt with
  | none => false
  | some c => (decide (b < c) || s.accs.any fun a => a.src == .join b) &&
    match s.duo.ordJ, src with
    | none, _ => true
    | some j, .req id _ => decide (id < j)
    | some _, _ => false

/-- R424: a block is written, and forwarded to a chip that joins. -/
def Sys.writeFwd (y : Sys) (n b : Nat) (d : List Byte) (src : BlkSrc) : Sys :=
  let fwd := y.chip.forwards b src && !y.chip.isDefect n b
  let y := y.writeBlk n b 0 d
  if fwd then onChip (fun s => s.sendBlock b d) y else y

/-- R221, R417: set d is lost, or a standby waits for the holder's note of it. -/
def Chip.setLost (s : Chip) (d : Nat) : Chip := s.decides (.setLost d) fun s => s.loseSet d

/-- R208, R221, R511: an access to set d through port 4 has ended: a set that was read is brought into the
cache, or held for the lookup while every way is locked; a read that ends UE, or a write-back that ends UE
or FENCED, loses the set; after the rewrite the set's handling ends. -/
def Chip.setEnded (s : Chip) (d : Nat) (op : SetOp) (a : Acc) : Chip :=
  let s := { s with accs := s.accs.filter fun x => !(x.src == a.src) }
  let s := if a.data.isEmpty then s else s.takeSet d a.data
  match op, a.st with
  | .lookup, .ok =>
    let s := s.useSet d false
    if s.setCached d then s else { s with dir.got := d :: s.dir.got }
  | .lookup, .ue => s.setLost d
  | .lookup, _ => s
  | .sel, st =>
    let s := { s with dir.look := s.dir.look.map fun l => { l with wait := false, bad := st != .ok } }
    if st = .ue then s.setLost d else s
  | .store, .ok => s
  | .store, _ => s.setLost d
  | .clear, st => s.finishLost d (st != .ok)

/-- R13, R226: what the end of an access brings: a failure fixes its request's status. -/
def Chip.accEnded (s : Chip) (a : Acc) : Chip :=
  match a.src with
  | .req id _ => if a.st = .ok then s else s.endReqs (fun r => r.id == id) a.st
  | .region r k => s.regionStep r k a
  | .cv u _ => s.cvTake u a
  | .join b => s.joinTake b a
  | .set d op => s.setEnded d op a
  | _ => s

/-- R208, R221: what a write to a directory set stores: the set as it stands, or every entry INVALID; a
read hands on only what differs from the stored block, the bytes of a wrong codeword. -/
def Sys.setForm (y : Sys) (a : Acc) : Acc :=
  match a.src with
  | .set d .store => { a with data := y.chip.packSet d }
  | .set _ .clear => { a with data := List.replicate 2048 0 }
  | _ => a

/-- What a served read of block b gives its access. -/
def Sys.readForm (y : Sys) (a : Acc) (d : List Byte) : List Byte :=
  match a.src with
  | .set _ _ => if d = y.mem.blk a.pb then [] else d
  | _ => (d.drop a.lo).take a.len

/-- R164, R168, R170, R175, R176: an access is served in slot j: a read, a whole-block write, or one
of the two slots of a sub-block write. -/
def Sys.serve (y : Sys) (n j : Nat) (a : Acc) : Sys :=
  let y := onChip (fun s => s.activateBlk n a.pb (if a.port ≤ 2 then a.x else 0)) y
  let a := y.setForm a
  let ue := fun (y : Sys) =>
    let y := onChip (fun s => s.askRepair a.pb) y
    if y.chip.standsBy then onChip (fun s => s.setAcc a.src fun a => { a with phase := .ready }) y
    else onChip (fun s => (s.setAcc a.src fun a => { a with phase := .served, st := .ue, data := [] }).accEnded
      { a with phase := .served, st := .ue, data := [] }) y
  let fin := fun (y : Sys) (st : Status) (d : List Byte) =>
    onChip (fun s => (s.setAcc a.src fun a => { a with phase := .served, st := st, data := d }).accEnded
      { a with phase := .served, st := st, data := d }) y
  if a.write = false then
    match y.readBlk n a.pb a.port a.part with
    | (none, y) => ue y
    | (some d, y) => fin y .ok (y.readForm a d)
  else match a.phase with
    | .rmw _ => fin (y.writeFwd n a.pb a.data a.src) .ok []
    | _ =>
      if a.len < 2048 then
        match y.readBlk n a.pb a.port a.part with
        | (none, y) => ue y
        | (some d, y) => onChip (fun s => s.setAcc a.src fun x =>
            { x with phase := .rmw j, data := d.take a.lo ++ a.data ++ d.drop (a.lo + a.len) }) y
      else if y.chip.isDefect n a.pb then fin y .ue []
      else fin (y.writeFwd n a.pb a.data a.src) .ok []

/-- R199: a block of a fill is written with zeros; its directory entry goes. A DEFECT block is
counted and stays. -/
def Sys.fillOne (y : Sys) (n x b : Nat) : Sys :=
  let y := onChip (fun s => s.activateBlk n b 0) y
  let def' := y.chip.isDefect n b
  let y := if def' then y else y.writeFwd n b (List.replicate 2048 0) (.fill x b)
  onChip (fun s =>
    let s := if def' then
        (s.setExt x { s.ext x with defect := (s.ext x).defect + 1 }).itemErr extPg 3 b
          { faultOf extPg 1 3 with kind := 11, unit := n, info := b }
      else s
    let s := match s.entOf b with
      | some (k, e) => if e.state = 3 then s else s.changeEnt k {}
      | none => s
    { s with rights.fillPos := KMap.put s.rights.fillPos 0 (256 * x + n)
               (KMap.at s.rights.fillPos 0 (256 * x + n) + 1) }) y

/-- The slot is taken: what it served, for R163, and the end of power-down and idleness (R171). -/
def Chip.tookSlot (s : Chip) (n j k : Nat) : Chip :=
  let m := s.mc n
  (s.setMc n { m with lastSlot := some j, idleSince := s.now
                      hist := (j, k) :: m.hist.filter fun h => decide (j < h.1 + 3) }).setFlag
    (mcPg n + 0x40) 3 false

/-- R167: the heads of the ports' queues an unreserved slot can serve, as requests of the arbiter:
for ports 0 to 4 in order, the first access the rules allow; on port 3 a fill too. -/
def Chip.mcHeads (s : Chip) (n j : Nat) : List (ArbReq × Option Acc) :=
  (List.range 5).flatMap fun p =>
    let pr := s.fld (mcPg n + 0xA4) (4 * p + 2) (4 * p)
    match (s.portQueue n p).find? fun a => s.mayServe n j a &&
        (regAllow (s.mc n) s.now j a || (match a.phase with | .rmw _ => true | _ => false)) with
    | some a => [(⟨p, pr, 1, a.tick⟩, some a)]
    | none =>
      if p = 3 then match s.fillNext n with
        | some (_, b, t) => if s.mcAllow n (s.bankOf b) j then [(⟨p, pr, 1, t⟩, none)] else []
        | none => []
      else []

/-- R164, R167: the unreserved part of a slot: first what lost its reserved slot, then the choice of
the port arbiter, which a FREEZE stops. -/
def Sys.serveFree (y : Sys) (n j : Nat) : Sys :=
  let s := y.chip
  match s.accs.find? fun a => isLate a && s.mayServe n j a with
  | some a => onChip (fun s => s.tookSlot n j (s.bankOf a.pb)) (y.serve n j a)
  | none =>
    if s.flag (blkCtrl (mcPg n)) 1 then y
    else
      let hs := s.mcHeads n j
      let m := s.mc n
      match arbPick m.arbCount (max (s.fld (mcPg n + 0xA8) 7 0) 2) (hs.map (·.1)) with
      | none => y
      | some r =>
        let y := onChip (fun s => s.setMc n { s.mc n with arbCount := m.arbCount + 1 }) y
        match (hs.find? fun h => h.1.who == r.who).bind (·.2) with
        | some a =>
          let y := onChip (fun s => s.setMc n
            (match a.phase with | .rmw _ => s.mc n | _ => takeTokens (s.mc n) j a)) y
          onChip (fun s => s.tookSlot n j (s.bankOf a.pb)) (y.serve n j a)
        | none => match s.fillNext n with
          | some (x, b, _) => onChip (fun s => s.tookSlot n j (s.bankOf b)) (y.fillOne n x b)
          | none => y

/-- R164: accesses whose reserved slot has passed are late, each counted once. -/
def Chip.markLate (s : Chip) (n j : Nat) : Chip :=
  let p := fun a : Acc => atMc a && !a.late && s.ctrlOf a.pb == n &&
    match heldSlot a with | some k => decide (k < j) | none => false
  (s.updAccs p fun a => { a with late := true }).bumpBy (mcPg n + 0xAC) (s.accs.filter p).length

/-- R380: the chip's own accesses that wait for the end of a controller's reset: copies of a region,
check-value streams, directory sets, blocks for a joining chip. -/
def waitsReset (a : Acc) : Bool := match a.src with | .region _ _ | .cv _ _ | .set _ _ | .join _ => true | _ => false

/-- R177, R375, R380, R389: a block that waits at a controller out of service is turned away. -/
def Chip.turnBlocks (s : Chip) (n : Nat) : Chip :=
  let fen := s.isFenced (.mc n)
  let st := if fen then Status.fenced else Status.reset
  let hit := fun a : Acc => atMc a && s.ctrlOf a.pb == n && (fen || !waitsReset a)
  if fen ∨ s.mcResetting n then
    forEach (s.accs.filter hit) (fun a s =>
      (s.setAcc a.src fun a => { a with phase := .served, st := st }).accEnded
        { a with phase := .served, st := st }) s
  else s

/-- BLOCK_SLOT (R162 to R170): the slot in progress of controller n serves at most one block. -/
def execBlockSlot (n : McNo) : State → Host.Outcome State Fault Refusal :=
  liftS fun y =>
    let j := y.chip.slotAt y.chip.now
    let taken : Bool := match (y.chip.mc n).lastSlot with | some k => decide (j ≤ k) | none => false
    if y.chip.fld (mcPg n + 0x40) 2 0 ≠ 2 then onChip (fun s => s.turnBlocks n) y
    else if taken = true ∨ y.chip.inScrub n j then y
    else
      let y := onChip (fun s => s.regionKicks.markLate n j) y
      match y.chip.reservedFor n j with
      | some a => onChip (fun s => s.tookSlot n j (s.bankOf a.pb)) (y.serve n j a)
      | none =>
        if (y.chip.prom.ch.any fun c => c.n == n.val && c.slot == j) ∨ (y.chip.planBlock n j).isSome ∨
            y.chip.flag (mcPg n + 0x40) 3 then y
        else y.serveFree n j

/-! ## Throttles (R173, R242) -/

/-- R242: a throttle entered in the 64 entries of the admission controller. -/
def Chip.addThrottle (s : Chip) (t : Thr) : Chip :=
  let same := fun e : Thr => e.x == t.x && e.n == t.n
  if s.prom.thr.any same then
    { s with prom.thr := updWhere s.prom.thr same fun e => { e with stop := t.stop } }
  else if s.prom.thr.length < 64 then { s with prom.thr := s.prom.thr ++ [t] }
  else
    let first := s.prom.thr.foldl (fun m e => min m e.stop) t.stop
    let s := (s.bump (prPg + 0x60)).notice prPg 3
    match s.prom.thr.find? fun e => e.stop == first with
    | some e => { s with prom.thr := s.prom.thr.erase e ++ [t] }
    | none => s

/-- THROTTLE: the throttles on their way reach the admission controller. -/
def execThrottle : State → Host.Outcome State Fault Refusal :=
  liftC fun s =>
    let l := s.thrMsgs
    forEach l (fun t s => s.addThrottle t) { s with thrMsgs := [] }

/-- THROTTLE_END (R173): entry i lapses at its end tick. -/
def execThrottleEnd (i : Nat) : State → Host.Outcome State Fault Refusal :=
  liftC fun s => match s.prom.thr[i]? with
    | none => s
    | some t => if t.stop ≤ s.now then { s with prom.thr := s.prom.thr.eraseIdx i } else s

/-- HOT_ROW_CLEAR (R172): at multiples of 32,000,000 ticks. -/
def execHotRowClear : State → Host.Outcome State Fault Refusal :=
  liftC fun s =>
    if s.now % 32000000 = 0 then
      forEach (s.mcs.map (·.1)) (fun n s => s.setMc n { s.mc n with hot := [] }) s
    else s

/-- CE_LEAK (R174). -/
def execCeLeak (n : McNo) : State → Host.Outcome State Fault Refusal :=
  liftC fun s =>
    let m := s.mc n
    if m.leakTick + 1000 * max (s.fld (mcPg n + 0x70) 31 16) 1 ≤ s.now then
      let s := s.setMc n { m with leakTick := s.now }
      s.setFld (mcPg n + 0x74) 15 0 (s.fld (mcPg n + 0x74) 15 0 - 1)
    else s

/-! ## Windows (R165, R166) -/

/-- REFRESH_WINDOW (R166): bank 0's window chooses the rate; a window in use carries the placed
neighbour refreshes of its bank. -/
def execRefreshWindow (n : McNo) (b : Fin 16) : State → Host.Outcome State Fault Refusal :=
  liftC fun s =>
    let pg := mcPg n
    let t := s.now + 61 * n
    if t < 121 * b ∨ (t - 121 * b) % 1950 ≠ 0 then s
    else
      let s := if b.val = 0 then
          (s.setMc n { s.mc n with rateAt := s.now, wasHot := s.flag (pg + 0x40) 4 }).setFlag (pg + 0x40) 4
            (s.flag (pg + 0x50) 0 || decide (s.fld (pg + 0x50) 15 8 ≤ s.fld (pg + 0x40) 15 8))
        else s
      if s.flag (pg + 0x40) 4 ∨ (t - 121 * b) / 1950 % 2 = 0 then
        let m := s.mc n
        (s.setMc n { m with nbr := m.nbr.filter (fun x => !(x.1 == b.val)), idleSince := s.now }).setFlag
          (pg + 0x40) 3 false
      else s

/-- RETRAINING (R165, R177): one that cannot meet its timing fields fences the controller. -/
def execRetraining (n : McNo) (ok : Bool) : State → Host.Outcome State Fault Refusal :=
  liftC fun s =>
    if s.now % 100000000 ≠ 390625 * n.val then s
    else if ok then s
    else s.unitError (.mc n) .logic (mcPg n) 4 0 false

/-- PATROL_SCRUB (R163, R165, R175): the block at MC_SCRUB_POS is read in the first slot of the window,
and rewritten in the second when enough symbols were corrected. Where R163 does not allow the block, the
window carries nothing and the position stays (log entry 88). -/
def execPatrolScrub (n : McNo) : State → Host.Outcome State Fault Refusal :=
  liftS fun y =>
    let s := y.chip
    let pg := mcPg n
    let j := s.slotAt s.now
    let taken : Bool := match (s.mc n).lastSlot with | some k => decide (j ≤ k) | none => false
    if s.scrubFirst n j = false ∨ s.fld (pg + 0x40) 2 0 ≠ 2 ∨ taken = true then y
    else
      let pos := s.fld (pg + 0x58) 19 0
      let k := pos / s.rowsD
      let b := s.blockAt n k (pos % s.rowsD)
      if s.slotKeeps n k j = false ∨ s.slotKeeps n k (j + 1) = false then y else
      let e := (KMap.at y.mem.poolErr [] b).length
      let y := onChip (fun s => s.activateBlk n b 0) y
      let y := match y.readBlk n b 3 64 with
        | (none, y) => y
        | (some d, y) =>
          if e ≤ s.codeT ∧ max (s.fld (pg + 0x54) 23 16) 1 ≤ e then y.writeBlk n b 0 d else y
      onChip (fun s => (s.tookSlot n (j + 1) k).setFld (pg + 0x58) 19 0 ((pos + 1) % (16 * s.rowsD))) y

/-- POWER_DOWN (R171): no command for MC_PD.IDLE MCLK cycles. -/
def execPowerDown (n : McNo) : State → Host.Outcome State Fault Refusal :=
  liftC fun s =>
    let idle := s.fld (mcPg n + 0x5C) 15 0
    if idle ≠ 0 ∧ 16 * (s.mc n).idleSince + 10 * idle ≤ 16 * s.now
    then s.setFlag (mcPg n + 0x40) 3 true else s

/-- POWER_DOWN_EXIT (R171). -/
def execPowerDownExit (n : McNo) : State → Host.Outcome State Fault Refusal :=
  liftC fun s =>
    if s.flag (mcPg n + 0x40) 3
    then (s.setMc n { s.mc n with idleSince := s.now }).setFlag (mcPg n + 0x40) 3 false else s

/-! ## Controller reset (R180, R380) -/

/-- R380: the blocks of controller n that no slot has served end RESET; the chip's own accesses wait. -/
def Chip.resetAccs (s : Chip) (n : Nat) : Chip :=
  let hit := fun a : Acc => a.phase != .served && s.ctrlOf a.pb == n
  let ids := (s.accs.filter hit).filterMap fun a => match a.src with
    | .req id _ => some id
    | _ => none
  let s := s.endReqs (fun r => ids.contains r.id) .reset
  let s := s.endReqs (fun r => r.kind == .svc && s.needsMc n r) .reset
  s.updAccs (fun a => hit a && !waitsReset a)
    fun a => { a with phase := .served, st := .reset }

/-- R180, R380: a channel-controller reset starts. -/
def Chip.mcReset (s : Chip) (n : Nat) : Chip :=
  if s.mcResetting n then s
  else
    let m := s.mc n
    let s := s.setMc n { m with hot := [], buckets := [], resetting := some s.now }
    let s := (s.setFld (mcPg n + 0x74) 15 0 0).setFld (mcPg n + 0x40) 2 0 4
    s.resetAccs n

/-- CHANNEL_CONTROLLER_RESET (R380). -/
def execChannelControllerReset (n : McNo) : State → Host.Outcome State Fault Refusal :=
  liftC fun s => s.mcReset n

/-- CHANNEL_CONTROLLER_RESET_DONE (R380): the controller runs again; a fence stays (R390). -/
def execChannelControllerResetDone (n : McNo) : State → Host.Outcome State Fault Refusal :=
  liftC fun s =>
    if s.mcResetting n then
      let s := s.setMc n { s.mc n with resetting := none }
      let s := s.setFld (mcPg n + 0x40) 2 0 (if s.fenced1 (.mc n) then 3 else 2)
      s.resetDoneFor fun u => u == .mc n
    else s

end Sys2Proof.Machine
end

