-- ==== Sys2Proof/Machine/Directory.lean ====
section
/-! DEFINITION. The directory at work: lookups and the events they carry, the controller-side check,
eviction, acknowledgements and timeouts of recalls, and the DIR_SEL lookup (R193, R206 to R221, R510,
R511). -/

namespace Sys2Proof.Machine

/-! ## The controller-side check (R159, R185, R193) -/

/-- R194: the controller-side words of entry i in generation g. -/
def isoGen (e : Iso) (g : Nat) : List Word :=
  match e.prev with
  | some w => if (g + 1) % 65536 = e.gen then w else e.ct
  | none => e.ct

/-- R193 step 2: the entries the router matched, in their generations, grant the block. A read of a
HELD extent by partition 0 (R192) matched none. -/
def Chip.ctrlGrants (s : Chip) (r : Req) (b : Nat) : Bool :=
  r.gens.isEmpty ||
  let e := b / 32768
  let x := s.ext e
  let ms := (r.gens.map fun g => isoGen (s.isoAt g.1) g.2).filter fun w =>
    isoCovers w e && isoMatches w r.host (isoLease w)
  !ms.isEmpty && ms.all (fun w => isoRights w != 0 && !isoFenced w) &&
  ms.any (isoGrants · (isWrite r.kind)) &&
  ms.all fun w => isoPart w == x.part && (x.state == 1 || x.state == 2)

/-- R193: whether an entry the request matched is FENCED by now. -/
def Chip.gensFenced (s : Chip) (r : Req) : Bool :=
  r.gens.any fun g => isoFenced (isoGen (s.isoAt g.1) g.2)

/-- R193: a mismatch of a request on extent e: it is counted, the event raised, the record queued, and
the entries the router matched there are fenced. -/
def Chip.isoMismatch (s : Chip) (r : Req) (e : Nat) : Chip :=
  let is := (r.gens.filter fun g => isoCovers (isoGen (s.isoAt g.1) g.2) e).map (·.1)
  let i := is.headD 0
  let s := s.bump (extPg + 0x70)
  let s := s.itemErr extPg 0 i { faultOf extPg 1 0 with kind := 10, unit := i, part := r.part }
  forEach is (fun i s => s.decides (.isoFence i) fun s => s.fenceEntry i none) s

/-- R159, R185, R193: the check a block meets at its controller: whether it passes, and what a
failure brings. -/
def Chip.ctrlCheck (s : Chip) (a : Acc) : Bool × Chip :=
  match a.src with
  | .req id _ => match s.prom.reqs.find? fun r => r.id == id with
    | none => (false, s)
    | some r =>
      if s.dataBlocks ≤ a.pb then (false, s.bump (extPg + 0x7C))
      else if s.ctrlGrants r a.b then (true, s)
      else
        let s := s.bump (extPg + 0x7C)
        if s.gensFenced r then (false, s) else (s.standsBy, s.isoMismatch r (a.b / 32768))
  | .copy .. =>
    let e := a.b / 32768
    let ok := decide (a.pb < s.dataBlocks) && (s.ext e).part == a.part && decide (e < s.usable) &&
      ((s.ext e).state == 1 ||
       ((s.ext e).state == 2 && s.rights.revs.any fun r => r.copies.contains a.src))
    (ok, if ok then s else s.bump (extPg + 0x7C))
  | _ => (true, s)

/-! ## Events (R210, R212, R218) -/

/-- The accepted request an access belongs to; none for a cluster. -/
def Chip.reqOf (s : Chip) (a : Acc) : Option Req :=
  match a.src with
  | .req id _ => s.prom.reqs.find? fun r => r.id == id
  | _ => none

/-- The host of a request's access; none for a cluster. -/
def Chip.accHost (s : Chip) (a : Acc) : Option Nat := (s.reqOf a).map (·.host)

/-- The access is at its controller: it takes its place behind those that reached it before. -/
def Chip.toMc (s : Chip) (src : BlkSrc) (f : Acc → Acc) : Chip :=
  match s.accs.find? fun a => a.src == src with
  | none => s
  | some a => { s with accs := (s.accs.filter fun x => !(x.src == src)) ++
                  [f { a with phase := .ready, checked := true, lock := false }] }

/-- R236, R247: the request whose reservations an access uses: its own, or the service request a copy
block belongs to. -/
def Chip.ownerOfAcc (s : Chip) (a : Acc) : Option Nat :=
  match a.src with
  | .req id _ => some id
  | .copy c e i => ((s.eng c e).descs.find? fun d => d.serial == i / 2048).bind fun d =>
      let v := Word.bits (d.ws.getD 1 0) 31 16
      if Word.bit (d.ws.getD 0 0) 7 ∧ 0xFFFE ≤ v then
        (s.prom.reqs.find? fun r => r.kind == .svc && !r.sent && r.cluster == c && r.svcSlot == v - 0xFFFE).map (·.id)
      else none
  | _ => none

/-- R213, R243: a recall for an access may start: a tracker entry reserved for it, or a free one. -/
def Chip.recallRoom (s : Chip) (a : Acc) (wide : Bool) : Bool :=
  (match s.ownerOfAcc a with
   | some id => s.prom.trk.any fun r => r.owner == id && !r.used
   | none => false) ||
  (decide (0 < s.trkFree) && (!wide || decide (0 < s.wideFree)))

/-- R213, R243: the tracker entry reserved for an access is used. -/
def Chip.useTrk (s : Chip) (a : Acc) : Bool × Chip :=
  match s.ownerOfAcc a with
  | some id => s.takeTrk id
  | none => (true, s)

/-- R212, R213: the entry of a block goes PENDING and its holders are recalled; the access waits. -/
def Chip.recallFor (s : Chip) (a : Acc) (k : Nat) (e : DirEnt) (hs : List Nat) (after : After) :
    Chip :=
  if s.recallRoom a e.wide = false then s
  else
    let (un, s) := s.useTrk a
    let s := s.useSet (setOf a.b) true
    let early := s.earlyOf a.b hs
    let (n, s) := s.startRecall 0 a.b 0 hs e.wide after none un
    let s := s.setEnt k (pendEnt e n early)
    let s := s.setAcc a.src fun a => { a with phase := .recalling n, checked := true, lock := false }
    s.settleRecalls

/-- R212: a write meets the directory. -/
def Chip.dirWrite (s : Chip) (a : Acc) : Chip :=
  match s.entOf a.b with
  | none => s.toMc a.src id
  | some (k, e) =>
    let h := s.accHost a
    if e.state = 2 ∧ h = some e.owner then (s.useSet (setOf a.b) false).toMc a.src id
    else match (if e.state = 1 ∧ e.wide = false then h.filter e.ptrs.contains else none) with
      | some h =>
        let others := (s.holdersOf e).filter fun x => !(x == h)
        if others.isEmpty then
          ((s.useSet (setOf a.b) true).setEnt k { tag := e.tag, state := 2, owner := h }).toMc a.src id
        else s.recallFor a k e others (.owned h)
      | none => s.recallFor a k e (s.holdersOf e) .invalid

/-- R218: holders of an entry, a WIDE one counting 256 for each marked group. -/
def holderCount (e : DirEnt) : Nat :=
  if e.wide then 256 * ((List.range 64).filter fun g => e.groups / 2 ^ g % 2 == 1).length
  else if e.state = 2 then 1 else e.ptrs.length

/-- R218: the victim of set d: the entry that is not PENDING with the fewest holders, the lowest
index on ties. -/
def Chip.victim (s : Chip) (d : Nat) : Option (Nat × DirEnt) :=
  (s.dir.ents.filter fun x => x.1 / 128 == d && x.2.state != 0 && x.2.state != 3).foldl
    (fun o x => match o with
      | none => some x
      | some v => if holderCount x.2 < holderCount v.2 then some x else some v) none

/-- The first INVALID entry of set d, as its key. -/
def Chip.freeEnt (s : Chip) (d : Nat) : Option Nat :=
  ((List.range 128).map (128 * d + ·)).find? fun k => (KMap.at s.dir.ents {} k).state == 0

/-- R210: an RDC goes on without registering. -/
def Chip.serveNoReg (s : Chip) (a : Acc) : Chip :=
  (s.bump (dirPg + 0x54)).toMc a.src fun a => { a with reg := false }

/-- R212: an RDC goes on registered, its entry set. -/
def Chip.serveReg (s : Chip) (a : Acc) (k : Nat) (e : DirEnt) : Chip :=
  ((s.useSet (setOf a.b) true).setEnt k e).toMc a.src fun a => { a with reg := true }

/-- R212: the entry a first RDC makes. -/
def newEnt (b h : Nat) (excl : Bool) : DirEnt :=
  if excl then { tag := b, state := 2, owner := h } else { tag := b, state := 1, ptrs := [h] }

/-- R218: an RDC that needs a new entry in a full set evicts a victim, which recalls from the
tracker. -/
def Chip.evictFor (s : Chip) (a : Acc) (h : Nat) : Chip :=
  match s.victim (setOf a.b) with
  | none => s.serveNoReg a
  | some (k, v) =>
    if 0 < s.trkFree ∧ (v.wide = false ∨ 0 < s.wideFree) then
      let s := s.bump (dirPg + 0x50)
      let hs := s.holdersOf v
      let early := s.earlyOf v.tag hs
      let (n, s) := s.startRecall 0 v.tag 0 hs v.wide .evicted (some v) true
      let s := s.updTrk (fun t => t.rseq == n) fun t => { t with victim := some (pendEnt v n early) }
      (s.serveReg a k (newEnt a.b h a.excl)).settleRecalls
    else s.serveNoReg a

/-- R212: the groups of hosts as a bit set. -/
def groupsOf (hs : List Nat) : Nat := hs.foldl (fun g h => g ||| 2 ^ (h / 256)) 0

/-- R220, R223: an access belongs to a read that is served from a body a flip has replaced. -/
def Chip.oldBody (s : Chip) (a : Acc) : Bool :=
  match s.reqOf a with
  | some r => match r.region with
    | some g => (KMap.at s.regions {} g).valid && r.body != (KMap.at s.regions {} g).cur
    | none => false
  | none => false

/-- R210, R212: an RDC of host h meets the directory. One that is served in part from a body a flip has
replaced does not register (log entry 93). -/
def Chip.dirRdc (s : Chip) (a : Acc) (h : Nat) : Chip :=
  if s.mayRegister h a.b = false ∨ s.oldBody a = true then s.serveNoReg a
  else match s.entOf a.b with
    | none => match s.freeEnt (setOf a.b) with
      | some k => s.serveReg a k (newEnt a.b h a.excl)
      | none => s.evictFor a h
    | some (k, e) =>
      let others := (s.holdersOf e).filter fun x => !(x == h)
      if a.excl then
        if others.isEmpty then s.serveReg a k { tag := e.tag, state := 2, owner := h }
        else s.recallFor a k e others (.owned h)
      else if e.state = 2 then
        if e.owner = h then s.serveReg a k e
        else s.serveReg a k { tag := e.tag, state := 1, ptrs := [e.owner, h] }
      else if e.wide then s.serveReg a k { e with groups := e.groups ||| groupsOf [h] }
      else if e.ptrs.length < 3 then
        s.serveReg a k (if e.ptrs.contains h then e else { e with ptrs := e.ptrs ++ [h] })
      else s.serveReg a k { tag := e.tag, state := 1, wide := true, groups := groupsOf (h :: e.ptrs) }

/-! ## Lookups (R209, R219) -/

/-- R219: an earlier access to the block is still at the directory. -/
def Chip.dirEarlier (s : Chip) (a : Acc) : Bool :=
  match s.accs.find? fun x => x.b == a.b && (match x.src with
      | .req .. | .copy .. => true
      | _ => false) && (match x.phase with
      | .waitDir | .recalling _ => true
      | _ => false) with
  | some x => x.src != a.src
  | none => false

/-- R219, R220, R221, R225: the block's events wait: its set is lost, its entry is PENDING, it is under
eviction, or a running publish writes it. -/
def Chip.dirBusy (s : Chip) (b : Nat) : Bool :=
  s.dir.lost.contains (setOf b) ||
  (s.regions.any fun g => g.2.state == 1 &&
    decide (g.2.base + g.2.run0 ≤ b ∧ b < g.2.base + g.2.run0 + g.2.runN)) ||
  (match s.entOf b with | some (_, e) => e.state == 3 | none => false) ||
  s.dir.trk.any fun t => match t.victim with | some v => v.tag == b | none => false

/-- R422: on a paired chip the RECALLs an access brings have its request as their cause. -/
def Chip.causedBy (s : Chip) (src : BlkSrc) : Chip :=
  match src with
  | .req id _ => if s.pairRole = 0 then s else { s with duo.cause := some id }
  | _ => s

/-- R208, R209: a lookup has found its set: it is most recently used, and no longer held for it. -/
def Chip.foundSet (s : Chip) (d : Nat) : Chip :=
  let s := if s.mapBit d then s.useSet d false else s
  { s with dir.got := s.dir.got.erase d }

/-- R212: the event an access carries meets the directory; a read that does not register has none. -/
def Chip.dirEvent (s : Chip) (a : Acc) : Chip :=
  if a.write then s.dirWrite a
  else match (if a.rdc then s.accHost a else none) with
    | some h => s.dirRdc a h
    | none => s.toMc a.src id

/-- DIR_LOOKUP_DONE (R193, R209, R212, R219): the lookup of an access ends: its turn, its set, its check
at the controller, then the event it carries. An access whose turn has not come, or whose set has still to
be read through port 4, waits on. -/
def execDirLookupDone (src : BlkSrc) : State → Host.Outcome State Fault Refusal :=
  liftC fun s => match s.accs.find? fun a => a.src == src && a.phase == .waitDir with
    | none => s
    | some a =>
      if s.dirEarlier a ∨ s.dirBusy a.b then s
      else if s.needsSet (setOf a.b) then s.wantSet (setOf a.b) (s.ownerOfAcc a)
      else match (s.foundSet (setOf a.b)).ctrlCheck a with
        | (false, s) =>
          let a := { a with phase := .served, st := .noAccess, lock := false }
          (s.setAcc a.src fun _ => a).accEnded a
        | (true, s) =>
          let s := (s.causedBy a.src).dirEvent a
          { s with duo.cause := none }

/-! ## Recalls: acknowledgement, timeout, resources (R213 to R217, R510) -/

/-- RECALL_ACK (R213, R214, R512): counts for an open recall of which the source is a holder that has
not acknowledged, up to the tick of the timeout; else it is stale. -/
def execRecallAck (port : Nat) (pkt : Packet) : State → Host.Outcome State Fault Refusal :=
  liftC fun s => s.turnOf (flesonId pkt.hdr.srcHost pkt.hdr.tag 5) fun s =>
    let h := pkt.hdr
    if s.addressed = false then s
    else if s.spoofed port h.srcHost then s.spoofCount
    else if h.cls ≠ 4 then s
    else match s.dir.trk.find? fun t => t.rseq == h.rseq && t.holders.contains h.srcHost with
      | some t =>
        if s.now ≤ t.issue + s.rclTmo ∨ s.standsBy = true then s.ackHolder t.rseq h.srcHost
        else (s.bump (dirPg + 0x58)).notice dirPg 3
      | none => (s.bump (dirPg + 0x58)).notice dirPg 3

/-- R215: the VALID MODE = 0 entries that name host h, over extent e, or over any for a SET recall. -/
def Chip.namedBy (s : Chip) (h : Nat) (e : Option Nat) : List Nat :=
  (s.rights.iso.filter fun x => isoValid x.2.ct && !isoMode x.2.ct && isoHost x.2.ct == h &&
    match e with | some e => isoCovers x.2.ct e | none => true).map (·.1)

/-- R215: the entries of an ACTIVE host that timed out are fenced at a commit tick; one fault record
names the first of them (log entry 94). -/
def Chip.fenceHost (s : Chip) (h : Nat) (e : Option Nat) : Chip :=
  match s.namedBy h e with
  | [] => s.notice dirPg 2
  | i :: is =>
    let s := s.countErr dirPg 2 1 h false
    let s := s.fault { faultOf dirPg 1 2 with
      kind := 10, part := isoPart (s.isoAt i).ct, unit := i, info := h }
    forEach (i :: is) (fun i s =>
      Chip.fenceEntry { (s.bump (dirPg + 0x60)) with dir.fencing := h :: s.dir.fencing } i (some h)) s

/-- R215: the lease of a GRACE host moves to RECLAIM at once. -/
def Chip.reclaimNow (s : Chip) (h : Nat) : Chip :=
  match s.hostLease h with
  | none => s
  | some (i, l) =>
    let (id, s) := s.openRev none (.lapse i) l.part s.now [] []
    (s.reclaim id i).commitDue

/-- R215, R217: a holder of a recall has timed out. -/
def Chip.timeOutHolder (s : Chip) (t : Trk) (h : Nat) : Chip :=
  if t.kind = 1 then s.notice dirPg 2
  else
    let e := if t.kind = 0 then some (t.what / 32768) else none
    match s.hostLease h with
    | none => s
    | some (_, l) => match leaseEff s.leaseNow l with
      | 1 => (s.bump (dirPg + 0x5C)).fenceHost h e
      | 2 => ((s.bump (dirPg + 0x5C)).notice dirPg 2).reclaimNow h
      | _ => s

/-- R213, R215: the recall with number i times out; then it is complete. -/
def Chip.recallOver (s : Chip) (i : Nat) : Chip :=
  match s.dir.trk.find? fun t => t.rseq == i with
  | none => s
  | some t =>
    let s := forEach t.holders (fun h s => s.timeOutHolder t h) s
    (s.updTrk (fun x => x.rseq == i) fun x => { x with holders := [] }).settleRecalls

/-- RECALL_TIMEOUT (R213, R215, R413). -/
def execRecallTimeout (i : Nat) : State → Host.Outcome State Fault Refusal :=
  liftC fun s => match s.dir.trk.find? fun t => t.rseq == i with
    | none => s
    | some t =>
      if t.issue + s.rclTmo ≤ s.now then s.decides (.recallTimeout i) fun s => s.recallOver i else s

/-- RECALL_RESOURCES_OBTAINED (R510): waiting recall i obtains what it needs and is issued. -/
def execRecallResourcesObtained (i : Nat) : State → Host.Outcome State Fault Refusal :=
  liftC fun s => match s.dir.waits[i]? with
    | none => s
    | some w =>
      if s.waitReady w then Chip.issueWait { s with dir.waits := s.dir.waits.eraseIdx i } w else s

/-! ## DIR_SEL (R207, R511) -/

/-- R511: the entry of block b that is under eviction in the tracker. -/
def Chip.evictedEnt (s : Chip) (b : Nat) : Option DirEnt :=
  s.dir.trk.findSome? fun t => t.victim.filter fun v => v.tag == b

/-- R511: the entry of block b: in its set, or under eviction in the tracker. -/
def Chip.findEnt (s : Chip) (b : Nat) : Option DirEnt :=
  match s.entOf b with
  | some (_, e) => some e
  | none => s.evictedEnt b

/-- DIR_SEL (R511): a write starts a lookup; ignored while one runs. A set that is neither cached nor
free of entries is read through port 4, in no reserved slot. -/
def execDirSel (v : Word) : State → Host.Outcome State Fault Refusal :=
  liftC fun s =>
    if s.flag (dirPg + 0x84) 0 then s
    else
      let b := Word.bits v 27 0
      let d := setOf b
      let read := s.mapBit d && !s.setCached d
      let s := { s with dir.look := some ⟨b, read, false⟩
                        accs := if read then s.accs ++ [s.setAccess d .sel none] else s.accs }
      (s.setReg (dirPg + 0x70) (BitVec.ofNat 32 b)).setReg (dirPg + 0x84) 1

/-- DIR_SEL_DONE (R511): once a set that had to be read has come; where its read brought nothing only the
tracker is searched. -/
def execDirSelDone : State → Host.Outcome State Fault Refusal :=
  liftC fun s => match s.dir.look with
    | none => s
    | some l =>
      if l.wait then s
      else
      let s := { s with dir.look := none }
      let e := if l.bad then s.evictedEnt l.b else s.findEnt l.b
      let ws := match e with | some e => entWords e | none => [0, 0, 0, 0]
      let s := forEach (List.range 4) (fun i s =>
        s.setReg (dirPg + 0x74 + 4 * i) (BitVec.ofNat 32 (ws.getD i 0))) s
      s.setReg (dirPg + 0x84) (if e.isSome then 2 else 0)

end Sys2Proof.Machine
end

