-- ==== Sys2Proof/Machine/Publication.lean ====
section
/-! DEFINITION. Published regions: creation, deletion, and a publish from its start to the end of its
resync (R222 to R226, R228). -/

namespace Sys2Proof.Machine

def Chip.region (s : Chip) (r : Nat) : Region := KMap.at s.regions {} r

def Chip.setRegion (s : Chip) (r : Nat) (g : Region) : Chip :=
  { s with regions := KMap.put s.regions {} r g }

/-- R222: the checks of PUB_CREATE by partition p, on block numbers. -/
def Chip.pubOk (s : Chip) (p base shadow count : Nat) : Bool :=
  let b := base / 2048
  let d := shadow / 2048
  let inOne := fun b : Nat => b / 32768 == (b + count - 1) / 32768 && s.ownedBy p (b / 32768)
  base % 2048 == 0 && shadow % 2048 == 0 && decide (0 < count ∧ count ≤ 32768) &&
  inOne b && inOne d && !meets b count d count &&
  s.regions.all fun g => !g.2.valid || !(meets b count g.2.base g.2.count ||
    meets b count g.2.shadow g.2.count || meets d count g.2.base g.2.count ||
    meets d count g.2.shadow g.2.count)

/-- R222: the lowest free region index of 1,024. -/
def Chip.freeRegion (s : Chip) : Option Nat :=
  (List.range 1024).find? fun i => (s.region i).valid == false

/-- PUB_CREATE (R222): it takes effect at a commit tick; the copy of body 0 follows. -/
def execPubCreate (q : CmdReq) (base shadow count version : Nat) :
    State → Host.Outcome State Fault Refusal :=
  liftC fun s => s.grantCommand q false fun p s =>
    match s.pubOk p base shadow count, s.freeRegion with
    | true, some i =>
      let s := s.setRegion i { valid := true, base := base / 2048, shadow := shadow / 2048
                               count := count, part := p, version := version, state := 3
                               creating := some q }
      (s.cmdPending q).commitLater s.commitAt (.pub q i)
    | _, _ => s.cmdAnswer q .noAccess 0

/-- PUB_CREATE_READY (R222): the shadow copy is done: the region is READY and the command answers OK
with its index. -/
def execPubCreateReady (r : Nat) : State → Host.Outcome State Fault Refusal :=
  liftC fun s =>
    let g := s.region r
    match g.creating with
    | some q =>
      if g.created ∧ g.count ≤ g.copyPos
      then (s.setRegion r { g with state := 0, creating := none, copyPos := 0 }).cmdAnswer q .ok r else s
    | none => s

/-- PUB_DELETE (R222): with CUR = 1 the current body is first copied to body 0. -/
def execPubDelete (q : CmdReq) (region : Nat) : State → Host.Outcome State Fault Refusal :=
  liftC fun s => s.command q false fun p s =>
    let g := s.region region
    if g.valid ∧ g.created ∧ g.part = p ∧ g.state = 0 ∧ g.queue.isEmpty then
      ((s.setRegion region { g with deleting := some q }).cmdPending q).deleteRegion region
    else s.cmdAnswer q .noAccess 0

/-- R212, R225: what the publish of host h makes of a block with an entry: the holders to recall, and
the host that owns the block afterwards. -/
def Chip.pubEvent (s : Chip) (h : Nat) (e : DirEnt) : List Nat × Option Nat :=
  if (e.state = 2 ∧ e.owner = h) ∨ (e.state = 1 ∧ e.wide = false ∧ h ∈ e.ptrs)
  then ((s.holdersOf e).filter fun x => !(x == h), some h)
  else (s.holdersOf e, none)

/-- R225 step 2: block b of the payload range goes PENDING until the flip. -/
def Chip.pubPend (s : Chip) (r : Nat) (q : Req) (b : Nat) : Chip :=
  match s.entOf b with
  | none => s
  | some (k, e) =>
    let (hs, o) := s.pubEvent q.host e
    let (un, s) := s.takeTrk q.id
    let s := s.useSet (setOf b) true
    let early := s.earlyOf b hs
    let (n, s) := s.startRecall 0 b 0 hs e.wide (.flip r) none un
    let s := s.setEnt k (pendEnt e n early)
    let g := s.region r
    (s.setRegion r { g with pendBlks := g.pendBlks ++ [(b, o)] }).settleRecalls

/-- R225: what a publish needs at the directory is there: no event of its blocks is in progress, and
recalls find tracker entries. -/
def Chip.pubReady (s : Chip) (q : Req) (bs : List Nat) : Bool :=
  let ents := bs.filterMap fun b => (s.entOf b).map (·.2)
  bs.all (fun b => !s.dirBusy b && !s.accs.any fun a => a.b == b && match a.src, a.phase with
    | .req .., .waitDir | .copy .., .waitDir | .req .., .recalling _ | .copy .., .recalling _ => true
    | _, _ => false) &&
  (decide (ents.length ≤ (s.prom.trk.filter fun t => t.owner == q.id && !t.used).length) ||
   decide (ents.length ≤ s.trkFree ∧ (ents.filter (·.wide)).length ≤ s.wideFree))

/-- The publish at the head of a region's queue leaves it. -/
def popPub (g : Region) : Region := { g with queue := g.queue.drop 1 }

/-- R243: the publish at the head of a region's queue starts: the sets it held locked are free. -/
def unlockPub (g : Region) : Region :=
  { g with queue := match g.queue with | p :: l => { p with locks := [] } :: l | [] => [] }

/-- R208, R209: the sets of the payload blocks that have still to be read for a publish. -/
def Chip.pubSets (s : Chip) (bs : List Nat) : List Nat := (bs.map setOf).eraseDups.filter s.needsSet

/-- R225 step 2: the payload writes of a publish into the body that is not current. -/
def Chip.pubAccs (s : Chip) (q : Req) : List Acc :=
  (s.accsOf q).map fun a => { a with phase := .ready, checked := true, lock := false }

/-- R225 step 2: publish p of request q starts in region r: its payload goes into the other body, and the
blocks that have an entry go PENDING and are recalled. -/
def Chip.runPub (s : Chip) (r : Nat) (g : Region) (p : Pub) (q : Req) (bs : List Nat) : Chip :=
  let q := { q with body := 1 - g.cur, nblks := p.n }
  let s := s.updReqs (fun x => x.id == p.req) fun _ => q
  let s := s.setRegion r { unlockPub g with state := 1, run0 := p.k0, runN := p.n, pendBlks := [] }
  let s := { s with accs := s.accs ++ s.pubAccs q }
  let s := forEach (bs.map setOf).eraseDups (fun d s => s.foundSet d) s
  let s := forEach bs (fun b s => s.pubPend r q b) (s.causedBy (.req p.req 0))
  { s with duo.cause := none }

/-- R228: the publish at the head of region r's queue has failed before its flip. -/
def Chip.failPub (s : Chip) (r : Nat) : Chip := (s.setRegion r (popPub (s.region r))).bump (pubPg + 0x6C)

/-- PUBLISH_START (R225 steps 1 and 2): the publish at the head of a READY region's queue. -/
def execPublishStart (r : Nat) : State → Host.Outcome State Fault Refusal :=
  liftC fun s =>
    let g := s.region r
    match g.queue with
    | [] => s
    | p :: _ =>
      if g.created = false ∨ g.state ≠ 0 then s
      else match s.prom.reqs.find? fun x => x.id == p.req with
        | none => s.failPub r
        | some q =>
          if q.fixed.isSome ∨ q.sent then s.failPub r
          else if g.version ≠ p.base then
            ((s.setRegion r (popPub g)).bump (pubPg + 0x64)).endReqs (fun x => x.id == p.req)
              .versionConflict
          else
            let bs := (List.range p.n).map (g.base + p.k0 + ·)
            if s.pubReady q bs = false then s
            else if (s.pubSets bs).isEmpty = false then
              forEach (s.pubSets bs) (fun d s => s.wantSet d (some q.id)) s
            else if bs.all (s.ctrlGrants q) = false ∧ (s.gensFenced q = true ∨ s.standsBy = false) then
              let s := (s.setRegion r (popPub g)).bump (extPg + 0x7C)
              (if s.gensFenced q then s else s.isoMismatch q (g.base / 32768)).endReqs
                (fun x => x.id == p.req) .noAccess
            else s.runPub r g p q bs

/-- R226: after a failed publish or a flip the entries of its blocks leave PENDING: owned by the
publisher if it was registered and the flip took place, else INVALID; those whose recall is still
open when the recall completes. -/
def Chip.releasePend (s : Chip) (r : Nat) (flip : Bool) : Chip :=
  let g := s.region r
  let s := s.updTrk (fun t => t.after == .flip r) fun t => { t with after := .invalid }
  let s := forEach g.pendBlks (fun x s => match s.entOf x.1 with
    | none => s
    | some (k, e) =>
      if s.dir.trk.any fun t => t.rseq == e.rseq && t.kind == 0 && t.what == x.1 then s
      else match x.2, flip with
        | some h, true => s.changeEnt k { tag := e.tag, state := 2, owner := h }
        | _, _ => s.changeEnt k {}) s
  s.setRegion r { s.region r with pendBlks := [] }

/-- R223: the body of region r that a read is served from; none where it meets the region nowhere. -/
def readBody (r : Nat) (x : Req) : Option Nat :=
  if isWrite x.kind then none
  else if x.region = some r then some x.body
  else x.others.lookup r

/-- R225: a read with the body of region r, and its version, as they are after a flip. -/
def newBody (r : Nat) (g : Region) (x : Req) : Req :=
  { x with
    body := if x.region = some r then g.cur else x.body
    base := if x.region = some r then g.version else x.base
    others := x.others.map fun o => if o.1 = r then (r, g.cur) else o }

/-- R225: no block of a read has passed the controller-side check, or left the directory. -/
def Chip.unstarted (s : Chip) (x : Req) : Bool :=
  s.accs.all fun a => match a.src with
    | .req id _ => id != x.id || a.phase == .waitDir
    | _ => true

/-- R220, R225: at T_f the reads that read the new body though their header tick lies before it: those of
class B that have not passed the controller-side check, and RDCs, which register with the image they
bring. -/
def Chip.repoint (s : Chip) (r : Nat) (g : Region) : Chip :=
  let may := fun x : Req => (readBody r x).isSome && !x.sent && (!x.promise || x.kind == .rdc) && s.unstarted x
  let ids := (s.prom.reqs.filter may).map (·.id)
  let s := { s with prom.hdrs := updWhere s.prom.hdrs may (newBody r g) }
  let s := s.updReqs (fun x => ids.contains x.id) (newBody r g)
  s.updAccs (fun a => match a.src with | .req id _ => ids.contains id | _ => false)
    fun a => { a with pb := ((s.reqOf a).map fun x => s.bodyOf x a.b).getD a.pb }

/-- R225: a read of region r is served from the body that is no longer current and has no outcome. -/
def readsOld (r : Nat) (g : Region) (x : Req) : Bool :=
  !x.sent && match readBody r x with | some b => b != g.cur | none => false

def Chip.oldReads (s : Chip) (r : Nat) (g : Region) : List Nat :=
  (s.prom.reqs.filter (readsOld r g)).map (·.id)

/-- R225 step 5: the copies of a resync: from the current body into the other, over the payload
range, in the slots reserved for them. -/
def Chip.startResync (s : Chip) (r : Nat) : Chip :=
  let g := s.region r
  let slotOf := fun b : Nat => ((s.prom.ch.filter fun c => c.owner == 2 ^ 32 + r && c.b == b).map
    (·.slot)).head?
  let as := (List.range g.runN).map fun i =>
    let k := g.run0 + i
    { src := BlkSrc.region r k, port := 3, b := g.base + k, pb := bodyBlk g g.cur (g.base + k)
      lo := 0, len := 2048, write := false, rdc := false, excl := false, part := g.part, x := 0
      data := [], slot := slotOf (bodyBlk g g.cur (g.base + k))
      slot2 := slotOf (bodyBlk g (1 - g.cur) (g.base + k)), checked := true, phase := Phase.ready
      st := Status.ok, reg := false, lock := false, tick := s.now, late := false : Acc }
  { s.setRegion r { g with state := 3, copyPos := 0 } with accs := s.accs ++ as }

/-- PUBLISH_FLIP (R225 steps 2 to 4, R226): once every payload block is written and every recall has
ended, the flip takes effect; a publish that failed before never flips, and the region passes
through RESYNC. -/
def execPublishFlip (r : Nat) : State → Host.Outcome State Fault Refusal :=
  liftC fun s =>
    let g := s.region r
    match g.queue with
    | [] => s
    | p :: _ =>
      if g.state ≠ 1 then s
      else
        let live := match s.prom.reqs.find? fun x => x.id == p.req with
          | some q => q.fixed.isNone && !q.sent
          | none => false
        if live = false then
          ((s.failPub r).releasePend r false).startResync r
        else if (s.accs.any fun a => match a.src with
            | .req id _ => id == p.req && a.phase != .served
            | _ => false) ∨ (s.dir.trk.any fun t => t.after == .flip r) then s
        else
          let s := s.updReqs (fun x => x.id == p.req) fun x => { x with dispatched := true }
          let g' := { popPub g with cur := 1 - g.cur, version := p.new, flip := s.now, state := 2 }
          let s := (s.setRegion r g').bump (pubPg + 0x68)
          let s := (s.releasePend r true).repoint r g'
          s.setRegion r { s.region r with drain := s.oldReads r g' }

/-- PUBLISH_DRAIN_END (R225 steps 4 and 5): every read of the old body has its outcome, one that still
waited at its port at T_f too. -/
def execPublishDrainEnd (r : Nat) : State → Host.Outcome State Fault Refusal :=
  liftC fun s =>
    let g := s.region r
    let old := fun b : Nat => if g.cur = 1 then decide (g.base ≤ b ∧ b < g.base + g.count)
      else decide (g.shadow ≤ b ∧ b < g.shadow + g.count)
    if g.state = 2 ∧ (g.drain.all fun id => !s.prom.reqs.any fun x => x.id == id && !x.sent) ∧
        (s.prom.hdrs ++ s.prom.reqs).any (readsOld r g) = false ∧
        (s.accs.all fun a => match a.src with
          | .copy .. => !(old a.pb && a.phase != .served)
          | _ => true)
    then s.startResync r else s

/-- PUBLISH_RESYNC_END (R222, R225 step 5): the region is READY; the slots of its resync are free. A
deletion that waited for it starts. -/
def execPublishResyncEnd (r : Nat) : State → Host.Outcome State Fault Refusal :=
  liftC fun s =>
    let g := s.region r
    if g.state = 3 ∧ g.created ∧ g.creating = none ∧ g.delCopy = false ∧ g.runN ≤ g.copyPos then
      let s := s.setRegion r { g with state := 0, runN := 0, copyPos := 0, drain := [], delWanted := false }
      let s := { s with
        prom.ch := s.prom.ch.filter fun c => !(c.owner == 2 ^ 32 + r &&
          (g.queue.isEmpty || decide (c.slot ≤ s.slotAt s.now)))
        prom.win := s.prom.win.filter fun w => !(w.b == regionWin r && decide (w.stop ≤ s.now)) }
      if g.delWanted then s.deleteRegion r else s
    else s

end Sys2Proof.Machine
end

