-- ==== Sys2Proof/Machine/Promise.lean ====
section
/-! DEFINITION. Promises after acceptance: how an outcome leaves, missed deadlines, lost responses,
service dispatch and digest, service entries (R231, R246, R248 to R251, R346 to R359, R456). -/

namespace Sys2Proof.Machine

/-! ## Numbered messages of channels 17 and 18 (R349) -/

/-- R349: a message takes the next number of the session's channel 17 or 18; beyond 4,096
unacknowledged messages the oldest is displaced and counted. -/
def Chip.pushMsg (s : Chip) (i : Nat) (audit : Bool) (body : List Byte) : Nat × Chip :=
  let q := if audit then KMap.at s.eth.au {} i else KMap.at s.eth.ev {} i
  let full := decide (4096 ≤ q.unacked.length)
  let q' : MsgQ := { next := (q.next + 1) % 2 ^ 32
                     unacked := (if full then q.unacked.drop 1 else q.unacked) ++ [⟨q.next, body, s.now⟩] }
  let s := if audit then { s with eth.au := KMap.put s.eth.au {} i q' }
    else { s with eth.ev := KMap.put s.eth.ev {} i q' }
  let s := if full then (s.bump (enPg + (if audit then 0xB8 else 0xB4))).notice enPg (if audit then 2 else 1)
    else s
  (q.next, s)

/-- R341, R342: the header of an EVENT or AUDIT message. -/
def msgHdr (i : Nat) (audit retx : Bool) (seq : Nat) : XhtHdr :=
  { xhdr0 with typ := if audit then 11 else 3, session := i, chan := if audit then 18 else 17
               seq := seq, retx := retx }

/-! ## The end of a request -/

/-- R234: a request needs its block slots, tracker entries and windows no more; slots that have passed
count in their epoch (R241). -/
def Chip.freeSlots (s : Chip) (id : Nat) : Chip :=
  { s with
    prom.ch := s.prom.ch.filter fun r => !(r.owner == id) || decide (r.slot ≤ s.slotAt s.now)
    prom.trk := s.prom.trk.filter fun r => !(r.owner == id)
    prom.win := s.prom.win.filter fun r => !(r.owner == id && decide (r.b < 2 ^ 28)) }

/-- R241: of the reservations of requests that have left, what they took in an earlier epoch counts no
more; owners from 2^32 on are regions. -/
def Chip.pruneResv (s : Chip) : Chip :=
  let live := fun o : Nat => decide (2 ^ 32 ≤ o) || s.prom.reqs.any fun r => r.id == o
  let e := s.now / 1000
  { s with
    prom.ch := s.prom.ch.filter fun r => live r.owner || decide (e ≤ s.slotEpoch r.slot)
    prom.eg := s.prom.eg.filter fun r => live r.owner || decide (e ≤ 128 * r.cell / 1000)
    prom.cl := s.prom.cl.filter fun r => live r.owner || decide (1000 * e < 128 * (r.c0 + r.n)) }

/-- R238, R241, R247: an outcome has left: the request, its block accesses, its service slot and every
reservation go, but for what it took up to now of the present epoch, which counts against its quota. -/
def Chip.dropReq (s : Chip) (id : Nat) : Chip :=
  let c := s.now / 128
  let s := s.freeSlots id
  Chip.pruneResv { s with
    prom.reqs := s.prom.reqs.filter fun r => !(r.id == id)
    prom.eg := s.prom.eg.filter fun r => !(r.owner == id) || decide (r.cell ≤ c)
    prom.cl := s.prom.cl.filterMap fun r =>
      if r.owner = id then if r.c0 ≤ c then some { r with n := min r.n (c + 1 - r.c0), slot := 2 } else none
      else some r
    accs := s.accs.filter fun a => match a.src with
      | .req i _ => !(i == id)
      | _ => true }

/-- R216, R238: requests whose response has left the port end; RECALLs that waited for one go out. -/
def Chip.reapReqs (s : Chip) : Chip :=
  match s.prom.reqs.filter fun r => r.sent && !s.respLeft r with
  | [] => s
  | rs => (forEach rs (fun r s => s.dropReq r.id) s).sendLate

/-- R238, R339: frames that wait for the Ethernet port are tried again; requests whose response has left
end. -/
def Chip.tryEth (s : Chip) : Chip := s.flushEth.reapReqs

/-- R251, R292, R334: the port of a response is up. -/
def Chip.portUp (s : Chip) (port : Nat) : Bool :=
  if port = 96 then s.fld (enPg + 0x44) 1 0 == 2 && !s.isFenced .eth
  else s.fld (lkPg port + 0x44) 2 0 == 4 && !s.isFenced (.link port)

/-- R347: the outcome is recorded in the window that recorded the request; an entry whose outcome was
sent does not change. -/
def Chip.recordOutcome (s : Chip) (r : Req) (st : Status) : Chip :=
  match winEnt (s.winOf r.session r.chan) r.seq with
  | some e => if r.port = 96 ∧ e.sent = false then s.record r.session r.chan r.seq true st 0 else s
  | none => s

/-- The block accesses of a request, in block order. -/
def Chip.reqAccs (s : Chip) (id : Nat) : List Acc :=
  (List.range ((s.accs.filter fun a => match a.src with | .req i _ => i == id | _ => false).length)).filterMap
    fun k => s.accs.find? fun a => a.src == .req id k

/-- R225, R231, R248: a request's outcome is known: a failure, a flip, a digest, or every block
served. -/
def Chip.outcome (s : Chip) (r : Req) : Option Status :=
  match r.fixed with
  | some (_, st) => some st
  | none => match r.kind with
    | .publish => if r.dispatched then some .ok else none
    | .svc => if r.resp.isSome then some .ok else none
    | _ =>
      let l := s.reqAccs r.id
      if l.length = r.nblks ∧ l.all (fun a => a.phase == .served) then some .ok else none

/-- R234: first and last egress cell reserved for a request. -/
def Chip.egCells (s : Chip) (id : Nat) : List Nat := (s.prom.eg.filter fun e => e.owner == id).map (·.cell)

/-- R234, R266: the packet just handed to the router holds the reservation of a request. -/
def Chip.reserved (s : Chip) (r : Req) (st : Status) : Chip :=
  let t : RespTag := ⟨r.part, r.host, r.tag, r.td, false, st != .ok || flipped r⟩
  { s with own := s.own.mapIdx fun i x => if i + 1 = s.own.length then { x with resv := some t } else x }

/-- R422: an output that holds a reservation is due in the epoch of its last reserved cell. -/
def Chip.enterResv (s : Chip) (r : Req) (o : Out) : Chip :=
  s.enterOut o (some r.id) (some (epochOf (128 * (s.egCells r.id).foldl max 0)))

/-- R233: what leaves: in the reserved cells, or for class B through the shaper. -/
def Chip.sendFor (s : Chip) (r : Req) (st : Status) (len : Nat) (o : Out) : Chip :=
  if r.promise = false then s.egress r.port r.part len o
  else if r.port = 96 then (s.enterResv r o).ethSend r.part len o (some r.td)
  else ((s.enterResv r o).emit o).reserved r st

/-- R210, R223, R298, R405: the RESP of a fabric request. -/
def Chip.sendFabric (s : Chip) (r : Req) (st : Status) : Chip :=
  let l := s.reqAccs r.id
  let d := if st = .ok ∧ isWrite r.kind = false then l.flatMap (·.data) else []
  let h := s.respHd (reqHd r) st
  let chk := if isWrite r.kind ∨ st ≠ .ok then 0 else r.chk
  let h := { h with
    reg := st == .ok && r.kind == .rdc && l.all (·.reg)
    chk := chk, check := checkOf chk r.off r.tag d, len := d.length }
  let h := match s.verOf r with
    | some v => { h with ver := true, value := v }
    | none => h
  s.sendFor r st d.length (.packet ⟨h, d⟩)

/-- R357: the datagrams of a successful BRD, in FOFF order. -/
def brdPieces (h : XhtHdr) (p : Nat) (d : List Byte) : List Datagram :=
  let n := ceilDiv d.length p
  (List.range n).map fun i =>
    let pc := (d.drop (i * p)).take p
    ⟨{ h with len := d.length, foff := i * p, last := decide (i + 1 = n) }, pc⟩

/-- R357: the RESP or RESPs of a BRD or BWR; R223: a region's version. -/
def Chip.sendXht (s : Chip) (r : Req) (st : Status) : Chip :=
  let d := if st = .ok ∧ r.kind = .brd then (s.reqAccs r.id).flatMap (·.data) else []
  let h := reqXhdr r st
  let h := match s.verOf r with
    | some v => { h with hasValue := true, word3 := v % 2 ^ 32, word4 := v / 2 ^ 32 }
    | none => h
  let l := if d.isEmpty then [Datagram.mk h []] else brdPieces h s.pieceMax d
  forEach l (fun g s => s.sendFor r st (frameTo r.addr g.payload.length) (.xht r.addr g)) s

/-- R359: the AUDIT record of a service request. -/
def auditBytes (r : Req) (st : Status) (now : Nat) : List Byte :=
  let resp := if st = .ok then r.resp.getD [] else []
  leBytes 4 r.seq ++ leBytes 2 r.tag ++ leBytes 1 r.entry ++ leBytes 1 (stCode st) ++
  leBytes 8 r.th ++ leBytes 8 now ++ (if st = .ok then r.dig else List.replicate 16 0) ++
  leBytes 1 r.session ++ leBytes 1 0 ++ leBytes 2 resp.length ++ leBytes 4 0 ++ resp

/-- R345, R349: an AUDIT record takes the next number of its session's channel 18; of a session that has
been rewritten since the request was admitted the number is not stated: a free value. -/
def Chip.auditNo (s : Chip) (i : Nat) (rec : List Word) (body : List Byte) : Nat × Chip :=
  if sessMoved rec (s.sessRec i) then let (k, s) := s.fresh; (k % 2 ^ 32, s) else s.pushMsg i true body

/-- R345, R359: SVC_RESP and AUDIT, both in the reserved cells and to the addresses latched at admission; a
partition without an AUDIT session has the record counted as dropped. -/
def Chip.sendSvc (s : Chip) (r : Req) (st : Status) : Chip :=
  let d := if st = .ok then r.dig ++ r.resp.getD [] else []
  let o : Out := .xht r.addr ⟨{ reqXhdr r st with len := d.length }, d⟩
  let s := (s.enterResv r o).ethSend r.part (frameTo r.addr d.length) o (some r.td)
  match r.audit with
  | none => (s.bump (enPg + 0xB8)).notice enPg 2
  | some (i, rec) =>
    let body := auditBytes r st s.now
    let (n, s) := s.auditNo i rec body
    let o : Out := .xht rec ⟨{ msgHdr i true false n with len := body.length }, body⟩
    (s.enterResv r o).ethSend r.part (frameTo rec body.length) o (some r.td)

/-- R231, R238: an outcome leaves on its port; the request stays until the response has left. -/
def Chip.sendOutcome (s : Chip) (r : Req) (st : Status) : Chip :=
  let s := { s with duo.cause := if s.pairRole = 0 then none else some r.id }
  let s := s.recordOutcome r st
  let s := if r.kind = .svc then s.sendSvc r st
    else if r.port = 96 then s.sendXht r st else s.sendFabric r st
  let s := Chip.freeSlots { s with duo.cause := none } r.id
  let done := fun a : Acc => match a.src with
    | .req i _ => !(i == r.id && a.phase != .served)
    | _ => true
  let s := { s with accs := s.accs.filter done }
  (s.updReqs (fun x => x.id == r.id) fun x => { x with sent := true }).reapReqs

/-- R251, R369: a response that could not be sent is counted, and PROMISE_LOST raised by the page of its
partition. -/
def Chip.promiseLost (s : Chip) (part host tag : Nat) : Chip :=
  ((s.bump (prPg + 0x50)).notice prPg 1).pageEventD (ptPg part) 0 host tag

/-- R251: a response that could not be sent up to T_d is dropped and reported; its status stays what it
is. -/
def Chip.loseResp (s : Chip) (r : Req) : Chip :=
  ((s.promiseLost r.part r.host r.tag).recordOutcome r ((s.outcome r).getD .fenced)).dropReq r.id

/-- R231: the tick of the first and of the last reserved cell of a request; 0 with none. -/
def Chip.firstCell (s : Chip) (id : Nat) : Nat := 128 * ((s.egCells id).min?.getD 0)
def Chip.lastCell (s : Chip) (id : Nat) : Nat := 128 * (s.egCells id).foldl max 0

/-- R416: the standby has not acknowledged the token of a request, or a note that fixes its status. -/
def Chip.awaitsAck (s : Chip) (id : Nat) : Bool :=
  s.leads && (!s.duo.acked.contains id ||
    s.duo.notes.any fun n => n.2 == id && !s.duo.acked.contains n.1)

/-- R417: the UE of a request's own block is a status the holder notes before it is sent. -/
def Chip.noteDue (s : Chip) (r : Req) (st : Status) : Bool :=
  s.leads && st == .ue && !e2eBad r && !s.duo.notes.any fun n => n.2 == r.id

/-- R417: the status of a request is noted. -/
def Chip.noteStatus (s : Chip) (r : Req) (st : Status) : Chip :=
  let (n, s) := s.takeOrd
  Chip.sendNote { s with duo.notes := s.duo.notes ++ [(n, r.id)] } n (.status r.id st)

/-- R231, R416: the outcome of a request leaves: a success not before its first reserved cell, and on
the holder of a pair not before the acknowledgements, unless its last reserved cell starts. -/
def Chip.sendWhenDue (s : Chip) (r : Req) (st : Status) : Chip :=
  if st = .ok ∧ r.promise ∧ s.now < s.firstCell r.id then s
  else if s.awaitsAck r.id = false then s.sendOutcome r st
  else if r.promise ∧ s.lastCell r.id ≤ s.now then (s.setLag true).sendOutcome r st
  else s

/-- RESPONSE_SEND (R231, R249 to R251, R416, R419): the outcome of request i leaves. Once its port has
been down, the request's status is sent if the port is up by T_d, else dropped. A frozen holder sends
nothing, a chip that is OUT drops it. -/
def execResponseSend (i : Nat) : State → Host.Outcome State Fault Refusal :=
  liftC fun s => match s.prom.reqs.find? fun r => r.id == i && !r.sent with
    | none => s
    | some r => match s.outcome r with
      | none => s
      | some st =>
        if s.pairRole = 3 then s
        else if s.pairRole = 5 then s.dropReq i
        else if s.noteDue r st then s.noteStatus r st
        else if r.promise ∧ r.cut ∧ r.td < s.now then s.loseResp r
        else if s.portUp r.port then s.sendWhenDue r st
        else s.cutReqs (fun x => x.id == i) .fenced

/-! ## Missed deadlines (R249) -/

/-- R249: the unit that holds a request: its cluster, or the controller of its first block that has
not been served. -/
def Chip.holderOf (s : Chip) (r : Req) : UnitId :=
  if r.kind = .svc then .cluster r.cluster
  else match s.accs.find? fun a => match a.src with
      | .req id _ => id == r.id && a.phase != .served
      | _ => false with
    | some a => .mc (s.ctrlOf a.pb)
    | none => .mc (s.ctrlOf (s.bodyOf r (r.off / 2048)))

/-- PROMISE_MISS (R249): at its last reserved egress cell request i has no outcome: it ends FENCED,
sent in that cell, and the unit that held it is fenced. -/
def execPromiseMiss (i : Nat) : State → Host.Outcome State Fault Refusal :=
  liftC fun s => match s.prom.reqs.find? fun r => r.id == i && r.promise && !r.sent with
    | none => s
    | some r =>
      let e := (s.egCells i).foldl max 0
      if s.now < 128 * e ∨ (s.outcome r).isSome ∨ (s.egCells i).isEmpty then s
      else
        let u := s.holderOf r
        let s := s.endReqs (fun x => x.id == i) .fenced
        let s := (s.bump (prPg + 0x4C)).unitError u .miss prPg 0 i false
        match s.prom.reqs.find? fun r => r.id == i with
        | none => s
        | some r => if s.portUp r.port then s.sendOutcome r .fenced else s

/-! ## Service requests (R246, R248, R456) -/

/-- SVC_DISPATCH (R248): accepted service request i is handed to its cluster control core. -/
def execSvcDispatch (i : Nat) : State → Host.Outcome State Fault Refusal :=
  liftC fun s => match s.prom.reqs.find? fun r => r.id == i && r.kind == .svc && !r.dispatched && !r.sent with
    | none => s
    | some r => (s.updReqs (fun x => x.id == i) fun x => { x with dispatched := true }).emit
        (.dispatch r.cluster i)

/-- R456: the message of the audit digest. -/
def auditMsg (r : Req) (vers : List Nat) (resp : List Byte) : List Byte :=
  [0x4B, 0x56, 0x41, 0x55, 0x44, 0x49, 0x54, 0x31] ++ r.model ++ leBytes 2 vers.length ++
  vers.flatMap (leBytes 8) ++ leBytes 4 r.data.length ++ r.data ++ leBytes 2 resp.length ++ resp

/-- DIGEST_READY (R457): the runtime has posted the versions and the response bytes of request i; its
digest is ready and its response may leave. -/
def execDigestReady (i : Nat) (resp : List Byte) (vers : List Nat) :
    State → Host.Outcome State Fault Refusal :=
  liftC fun s => match s.prom.reqs.find? fun r =>
      r.id == i && r.kind == .svc && r.dispatched && r.resp.isNone && r.fixed.isNone && !r.sent with
    | none => s
    | some r => s.updReqs (fun x => x.id == i) fun x =>
        { x with resp := some resp, dig := (sha384 (auditMsg r vers resp)).take 16 }

/-- R246, R351: the access descriptors in the words of an SVC_SET from word 8 on. -/
def svcAccs : Nat → List Word → List SvcAcc
  | n + 1, a :: b :: c :: l =>
    ⟨Word.bits a 9 0, Word.bits a 14 10, Word.bit a 15, Word.bits a 22 16, Word.bits b 27 0,
     Word.bits c 15 0⟩ :: svcAccs n l
  | _, _ => []

/-- R246: the ranges of an entry's fields. -/
def svcFieldsOk (e : SvcEnt) : Bool :=
  decide (20 ≤ e.deadline ∧ e.deadline ≤ 10000 ∧ 300 ≤ e.inT ∧ 236 ≤ e.outT ∧ 1 ≤ e.occ ∧
    e.occ ≤ 78125 ∧ 1 ≤ e.respBytes ∧ e.respBytes ≤ 9216) &&
  e.accs.all (fun a => decide (a.keyOff % 4 = 0 ∧ a.keyOff ≤ 764 ∧ 1 ≤ a.nblk ∧ a.nblk ≤ 64)) &&
  decide ((e.accs.map fun a => if a.w then 2 * a.nblk else a.nblk).sum ≤ 64)

/-- R352: the reserved bits of an SVC_SET's words are 0. -/
def svcRsvdOk (ws : List Word) : Bool :=
  let z := fun k hi lo => Word.bits (ws.getD k 0) hi lo == 0
  z 0 31 9 && z 1 31 9 && z 2 31 14 && z 4 31 24 && z 5 31 17 && z 6 31 14 &&
  (List.range (ws.length - 7)).all fun i =>
    if i % 3 = 0 then z (7 + i) 31 23 else if i % 3 = 1 then z (7 + i) 31 28 else z (7 + i) 31 16

/-- SVC_SET (R246, R351, R453): ws are argument words 1 onward. An entry of another partition is not
the sender's to write. -/
def execSvcSet (q : CmdReq) (ws : List Word) : State → Host.Outcome State Fault Refusal :=
  liftC fun s => s.grantCommand q false fun p s =>
    let w := fun k => ws.getD k 0
    let n := Word.bits (w 1) 8 5 + 1
    let i := Word.bits (w 0) 7 0
    let e : SvcEnt := { valid := Word.bit (w 0) 8, part := p, ctx := Word.bits (w 1) 4 0
                        deadline := Word.bits (w 2) 13 0, inT := Word.bits (w 3) 15 0
                        outT := Word.bits (w 3) 31 16, pre := Word.bits (w 4) 23 0
                        occ := Word.bits (w 5) 16 0, respBytes := Word.bits (w 6) 13 0
                        accs := svcAccs n (ws.drop 7) }
    let old := KMap.at s.prom.svc {} i
    if ws.length ≠ 7 + 3 * n ∨ svcRsvdOk ws = false ∨ (e.valid ∧ svcFieldsOk e = false) ∨
        (old.valid ∧ old.part ≠ p)
    then s.cmdAnswer q .noAccess 0
    else
      let s := { s with prom.svc := KMap.put s.prom.svc {} i (if e.valid then e else {}) }
      (s.measure 0x11 (sha384 (ws.flatMap fun w => leBytes 4 w.toNat))).cmdAnswer q .ok 0

end Sys2Proof.Machine
end

