-- ==== Sys2Proof/Machine/Ctx.lean ====
section
/-! DEFINITION. Contexts: their slots, the TLB and table walks, the kill, assignment, start, release,
TABLE_WRITE and preloads (R132 to R148, R353). -/

namespace Sys2Proof.Machine

/-! ## Slots -/

/-- R151: the record of context x. -/
def ctxRec (x : Nat) : Nat := ptPg (x / 32) + 0x2000 + 0x80 * (x % 32)

def Chip.setCtx (s : Chip) (x : Nat) (k : Ctx) : Chip :=
  { s with parts.ctxs := KMap.put s.parts.ctxs {} x k }

/-- R134: copies of the context translate: RUNNING or DRAINING. -/
def Ctx.translates (k : Ctx) : Bool := k.state == 2 || k.state == 3

/-- R147: a fault that changes nothing else. -/
def Chip.moreFaults (s : Chip) (x : Nat) : Chip := s.bump (ctxRec x + 0x44)

/-- R145, R146: what a kill records. -/
structure KillWhy where
  kind : Nat
  c : Nat
  e : Nat
  va : Nat
  desc : Nat
deriving DecidableEq, Repr

/-- R145: a kill that is no fault of a copy. -/
def killOf (kind : Nat) : KillWhy := ⟨kind, 0, 0, 0, 0⟩

/-- The record of a kill at tick t. -/
def Ctx.killed (k : Ctx) (w : KillWhy) (t : Nat) : Ctx :=
  { k with state := 4, fltKind := w.kind, fltEng := w.e, fltCl := w.c, fltVa := w.va
           fltDesc := w.desc, fltTick := t }

/-- R147: a fault that meets the kill of its own tick takes the record: a lower cluster, and in one
cluster engine 0, among faults; a partition reset over a fault. -/
def Ctx.outranks (k : Ctx) (w : KillWhy) (t : Nat) : Bool :=
  k.state == 4 && k.fltTick == t && decide (1 ≤ k.fltKind ∧ k.fltKind ≤ 5) &&
  (w.kind == 9 || (decide (w.kind ≤ 5) && decide (2 * w.c + w.e < 2 * k.fltCl + k.fltEng)))

/-- R146, R147: a context is killed: its record, the slot KILLED, its promises CONTEXT_KILLED, the kill
message on its way, the event. A start that has no answer yet is answered CONTEXT_KILLED. A cause of the
same tick that takes the record over is the one the event names. -/
def Chip.killCtx (s : Chip) (x : Nat) (w : KillWhy) : Chip :=
  let k := s.ctxAt x
  if 1 ≤ k.state ∧ k.state ≤ 3 then
    let cls := s.ctxClusters x
    let s := s.setCtx x { k.killed w s.now with killing := cls, starting := none }
    let s := s.endReqs (fun r => cls.any fun c => s.needsCl c r) .contextKilled
    let s := match k.starting with
      | some q => s.cmdAnswer q .contextKilled 0
      | none => s
    s.pageEventD (ptPg (x / 32)) 0 (x % 32 + 256 * w.kind) 0
  else
    let s := if k.outranks w s.now then
        (s.setCtx x { k.killed w s.now with state := k.state }).amendEvent (ptPg (x / 32))
          (x % 32 + 256 * k.fltKind) (x % 32 + 256 * w.kind)
      else s
    if w.kind ≤ 5 then s.moreFaults x else s

/-! ## The TLB (R141) -/

/-- The TLB entry at an index of cluster c. -/
def Chip.tlbAt (s : Chip) (c i : Nat) : Option TlbEnt := KMap.at (s.cl c).tlb none i

def Chip.setTlb (s : Chip) (c i : Nat) (t : Option TlbEnt) : Chip :=
  s.setCl c { s.cl c with tlb := KMap.put (s.cl c).tlb none i t }

/-- An entry translates a page of a context. -/
def TlbEnt.hits (t : TlbEnt) (x pg : Nat) : Bool :=
  t.ctx == x && decide (t.page ≤ pg ∧ pg < t.page + t.size)

/-- The index and entry that translate a page. -/
def Chip.tlbFind (s : Chip) (c x pg : Nat) : Option (Nat × TlbEnt) :=
  (s.cl c).tlb.findSome? fun e => match e.2 with
    | some t => if t.hits x pg then some (e.1, t) else none
    | none => none

/-- R141: a lookup: a corrected entry is counted, one with an uncorrectable error is dropped and the
lookup is a miss. -/
def Chip.tlbLookup (s : Chip) (c x pg : Nat) : Option TlbEnt × Chip :=
  match s.tlbFind c x pg with
  | none => (none, s.bump (tlbPg c + 0x44))
  | some (i, t) =>
    if t.flips = 0 then (some t, s)
    else if t.flips = 1 then
      (some t, (s.setTlb c i (some { t with flips := 0 })).countErr (tlbPg c) 0 0 i true)
    else
      let s := ((s.setTlb c i none).bump (tlbPg c + 0x4C)).countErr (tlbPg c) 1 0 i true
      (none, s.bump (tlbPg c + 0x44))

/-- R141: entry i may be replaced. -/
def Chip.tlbUnpinned (s : Chip) (c i : Nat) : Bool :=
  match s.tlbAt c i with
  | some t => !t.pin
  | none => true

/-- R141: the first unpinned index from i on, round the 256 entries. -/
def Chip.tlbNext (s : Chip) (c i : Nat) : Nat :=
  (((List.range 256).map fun k => (i + k) % 256).find? fun k => s.tlbUnpinned c k).getD (i % 256)

/-- R141, R143, R398: an entry is installed: in place of one for the same page, which stays pinned if it
was, else in the lowest empty one, else where the round-robin pointer stands. -/
def Chip.tlbInstall (s : Chip) (c : Nat) (t : TlbEnt) : Chip :=
  let (inj, s) := s.strike (tlbPg c)
  let t := { t with flips := inj, ent := (s.cl c).tlbSeq }
  let s := s.setCl c { s.cl c with tlbSeq := (s.cl c).tlbSeq + 1 }
  match s.tlbFind c t.ctx t.page with
  | some (i, o) => s.setTlb c i (some { t with pin := t.pin || o.pin })
  | none =>
    match (List.range 256).find? fun i => (s.tlbAt c i).isNone with
    | some i => s.setTlb c i (some t)
    | none =>
      let i := s.tlbNext c (s.cl c).tlbPtr
      let s := s.setTlb c i (some t)
      s.setCl c { s.cl c with tlbPtr := s.tlbNext c (i + 1) }

/-- R135, R136, R149: every entry that satisfies p is dropped, pinned or not. -/
def Chip.tlbDrop (s : Chip) (c : Nat) (p : TlbEnt → Bool) : Chip :=
  s.setCl c { s.cl c with tlb := (s.cl c).tlb.filter fun e => match e.2 with
    | some t => !p t
    | none => false }

/-- R143, R152: pinned entries. -/
def Chip.tlbPinned (s : Chip) (c : Nat) : Nat :=
  ((s.cl c).tlb.filter fun e => match e.2 with
    | some t => t.pin
    | none => false).length

/-! ## Walks (R138, R139, R142, R149) -/

/-- R138: the first pool offset of partition p's translation area. -/
def Chip.area (s : Chip) (p : Nat) : Nat := s.rsv + p * 0x1000000

/-- R138: n bytes from a pool offset lie wholly inside partition p's area. -/
def Chip.inArea (s : Chip) (p a n : Nat) : Bool :=
  decide (s.area p ≤ a ∧ a + n ≤ s.area p + 0x1000000)

/-- R149: an INV_RANGE in progress stops translations of a page of context x that lies in its range. -/
def Chip.invHolds (s : Chip) (x pg : Nat) : Bool :=
  match (KMap.at s.parts.invs [] (x / 32)).head? with
  | none => false
  | some j => j.slots.contains (x % 32) && decide (j.lo ≤ pg ∧ pg < j.hi)

/-- The block access of a walk read of cluster c: 8 bytes at pool offset a. -/
def walkAcc (s : Chip) (c e x a : Nat) : Acc :=
  { src := .walk c e, port := 1, b := a / 2048, pb := a / 2048, lo := a % 2048, len := 8
    write := false, rdc := false, excl := false, part := x / 32, x := ctxX x, data := []
    slot := none, slot2 := none, checked := true, phase := .ready, st := .ok, reg := false
    lock := false, tick := s.now, late := false }

/-- R177, R375, R389: what a block meets at a fenced or resetting controller. -/
def Chip.mcTurnsAway (s : Chip) (n : Nat) : Option Status :=
  if s.isFenced (.mc n) then some .fenced else if s.mcResetting n then some .reset else none

/-- R142: a walk reads an entry, ahead of the cluster's copy blocks. -/
def Chip.walkRead (s : Chip) (c : Nat) (w : Walk) (a : Nat) : Chip :=
  let acc := walkAcc s c w.e w.ctx a
  let acc := match s.mcTurnsAway (s.ctrlOf acc.pb) with
    | some st => { acc with phase := .served, st := st }
    | none => acc
  let mine := fun x : Acc => match x.src with
    | .copy d _ _ => d == c
    | _ => false
  let i := (s.accs.findIdx? mine).getD s.accs.length
  let s := { s with accs := s.accs.take i ++ [acc] ++ s.accs.drop i }
  (s.setCl c { s.cl c with walks := (s.cl c).walks ++ [w] }).bump (tlbPg c + 0x48)

/-- R139: an entry is malformed at a level: 1 or 2. -/
def Chip.entryBad (s : Chip) (p level v : Nat) : Bool :=
  let leaf := v / 2 % 2 == 1
  let a := v / 4096 % 2 ^ 28 * 4096
  let size := if level = 1 then 2 ^ 30 else 2 ^ 21
  v / 16 % 256 != 0 || v / 2 ^ 40 != 0 ||
  (if leaf then a % size != 0 || decide (2 ^ 39 < a + size) else level == 2 || !s.inArea p a 4096)

/-- R139, R142, R145: what an entry read by a walk says. -/
inductive WalkStep where
  | fault (kind : Nat)
  | leaf (t : TlbEnt)
  | next (a : Nat)
deriving DecidableEq, Repr

/-- R139, R142: the entry v that a walk of partition p read. -/
def Chip.walkStep (s : Chip) (w : Walk) (v : Nat) : WalkStep :=
  let a := v / 4096 % 2 ^ 28 * 4096
  let size := if w.level = 1 then 512 else 1
  if v % 2 = 0 then .fault (if w.level = 1 then 2 else 3)
  else if s.entryBad (w.ctx / 32) w.level v then .fault 4
  else if v / 2 % 2 = 1 then
    .leaf { ctx := w.ctx, page := w.page / size * size, size := size, pa := a, r := v / 4 % 2 == 1
            w := v / 8 % 2 == 1, pin := false, flips := 0 }
  else .next (a + 8 * (w.page % 512))

/-- R144: pool offset of a 2 MiB page within an entry. -/
def TlbEnt.paOf (t : TlbEnt) (pg : Nat) : Nat := t.pa + (pg - t.page) * 0x200000

/-- R142, R145: a walk for a page of context x starts; a page beyond L1_COUNT answers RANGE. -/
def Chip.walkStart (s : Chip) (c e x pg : Nat) : Bool × Chip :=
  let k := s.ctxAt x
  if k.l1n ≤ pg / 512 then (false, s)
  else (true, s.walkRead c ⟨e, x, pg, 1⟩ (k.root + 8 * (pg / 512)))

/-! ## Whole-range checks (R144) -/

/-- The descriptor of an engine whose check is in progress: the last one started. -/
def Eng.checking (x : Eng) : Option Desc :=
  match x.descs.getLast? with
  | some d => if d.need.isEmpty ∨ d.stop then none else some d
  | none => none

/-- An engine with its descriptor of a serial number changed. -/
def Eng.upd (x : Eng) (n : Nat) (f : Desc → Desc) : Eng :=
  { x with descs := updWhere x.descs (fun d => d.serial == n) f }

/-- R127, R142: a check ends the descriptor with a status and no block, and the program after it. -/
def Chip.checkEnds (s : Chip) (c e : Nat) (d : Desc) (st : Status) : Chip :=
  s.setEng c e { (s.eng c e).upd d.serial (fun d =>
    { d with need := [], stop := true, fails := [(0, st)] }) with cur := none }

/-- R144, R146: a failed check: no block, no completion word, the context killed. -/
def Chip.checkFaults (s : Chip) (c e : Nat) (d : Desc) (x pg kind : Nat) : Chip :=
  let z := s.eng c e
  let s := s.setEng c e { z with descs := z.descs.filter fun y => !(y.serial == d.serial), cur := none }
  s.killCtx x ⟨kind, c, e, pg * 0x200000, d.off⟩

/-- R121: the OPC of a descriptor. -/
def Desc.opc (d : Desc) : Nat := dw d.ws 0 3 0

/-- R144, R145: a translated page of a check: rights, then the next page. -/
def Chip.pagePasses (s : Chip) (c e : Nat) (d : Desc) (x pg : Nat) (t : TlbEnt) : Chip :=
  if (d.opc = 1 ∧ t.r = false) ∨ (d.opc = 2 ∧ t.w = false) then s.checkFaults c e d x pg 5
  else s.setEng c e ((s.eng c e).upd d.serial fun d =>
    { d with need := d.need.drop 1, missed := false, tr := d.tr ++ [⟨pg, t.paOf pg, t.ent⟩] })

/-- R152: the miss of the lookup for a descriptor's next page has been counted. -/
def Chip.markMissed (s : Chip) (c e : Nat) (d : Desc) : Chip :=
  s.setEng c e ((s.eng c e).upd d.serial fun d => { d with missed := true })

/-- R142, R144, R152: an engine's check goes on: pages that hit pass; a miss is counted and waits for its
walk, which the other engine's walk for the same page serves too. n bounds the pages. -/
def Chip.checkGo (s : Chip) (c e : Nat) : Nat → Chip
  | 0 => s
  | n + 1 => match (s.eng c e).checking with
    | none => s
    | some d => match d.need, d.ctx with
      | pg :: _, some x =>
        let walked := (s.cl c).walks.any fun w => decide (w.e < 2) && w.ctx == x && w.page == pg
        if s.invHolds x pg = true ∨ (d.missed = true ∧ walked = true) then s
        else match s.tlbLookup c x pg with
          | (some t, s) => (s.pagePasses c e d x pg t).checkGo c e n
          | (none, s) =>
            let s := s.markMissed c e d
            if walked then s
            else match s.walkStart c e x pg with
              | (true, s) => s
              | (false, s) => s.checkFaults c e d x pg 1
      | _, _ => s

/-! ## Preloads (R143) -/

/-- R143, R152: the preload ends with a result. -/
def Chip.preEnds (s : Chip) (c r : Nat) : Chip :=
  let s := s.setCl c { s.cl c with pre := none }
  (s.setFlag (tlbPg c + 0x54) 31 false).setReg (tlbPg c + 0x58) (BitVec.ofNat 32 r)

/-- R143: the page that CL_TLB_PRE_LO and CL_TLB_PRE_HI name. -/
def Chip.prePage (s : Chip) (c : Nat) : Nat :=
  s.fld (tlbPg c + 0x50) 31 21 + 2048 * s.fld (tlbPg c + 0x54) 15 0

/-- R143: a preload in progress whose walk has not started starts it. A cluster that no context owns
has no table: RANGE. -/
def Chip.preGo (s : Chip) (c : Nat) : Chip :=
  match (s.cl c).pre with
  | none => s
  | some (pg, _) =>
    if (s.cl c).walks.any fun w => w.e == 2 then s
    else match s.ownerOf c with
      | none => s.preEnds c 1
      | some x =>
        if s.invHolds x pg then s
        else match s.walkStart c 2 x pg with
          | (true, s) => s
          | (false, s) => s.preEnds c 1

/-- R143: the leaf of a preload. -/
def Chip.preLeaf (s : Chip) (c : Nat) (w : Walk) (t : TlbEnt) : Chip :=
  let pin := ((s.cl c).pre.map (·.2)).getD false
  let had : Bool := match s.tlbFind c w.ctx w.page with
    | some (_, t) => t.pin
    | none => false
  if pin ∧ had = false ∧ 192 ≤ s.tlbPinned c then s.preEnds c 0xA
  else (s.tlbInstall c { t with pin := pin }).preEnds c 0

/-- TLB_PRELOAD (R143, R152): a write of CL_TLB_PRE_HI: VA and PIN are stored; GO starts a preload of
the page they name, unless one is in progress. -/
def execTlbPreload (c : ClusterNo) (v : Word) : State → Host.Outcome State Fault Refusal :=
  liftC fun s =>
    let a := tlbPg c + 0x54
    let busy := s.flag a 31
    let s := s.setReg a ((v &&& 0x1ffff) ||| if busy || Word.bit v 31 then 0x80000000 else 0)
    if busy = false ∧ Word.bit v 31 = true then
      (s.setCl c { s.cl c with pre := some (s.prePage c, Word.bit v 16) }).preGo c
    else s

/-- The engines of cluster c whose check waits for a page of a context. -/
def Chip.walkers (s : Chip) (c : Nat) (w : Walk) : List (Nat × Desc) :=
  [0, 1].filterMap fun e => match (s.eng c e).checking with
    | some d => if w.e < 2 ∧ d.ctx = some w.ctx ∧ d.need.head? = some w.page then some (e, d) else none
    | none => none

/-- R142 to R145: what a walk found, for everything that waits for it. -/
def Chip.walkEnds (s : Chip) (c : Nat) (w : Walk) (r : WalkStep) : Chip :=
  match r with
  | .next a => s.walkRead c { w with level := 2 } a
  | .fault k =>
    if w.e = 2 then s.preEnds c k
    else forEach (s.walkers c w) (fun d s => s.checkFaults c d.1 d.2 w.ctx w.page k) s
  | .leaf t =>
    if w.e = 2 then s.preLeaf c w t
    else
      let t := { t with ent := (s.cl c).tlbSeq }
      let s := s.tlbInstall c t
      forEach (s.walkers c w) (fun d s => (s.pagePasses c d.1 d.2 w.ctx w.page t).checkGo c d.1 4) s

/-- R142, R143: a walk read that was answered with a status. -/
def Chip.walkFails (s : Chip) (c : Nat) (w : Walk) (st : Status) : Chip :=
  if w.e = 2 then s.preEnds c (if st = .fenced then 0xC else 0xB)
  else forEach (s.walkers c w) (fun d s => s.checkEnds c d.1 d.2 st) s

/-! ## Commands (R135) -/

/-- R135, R351: a context command on slot `slot` of the session's partition, allowed in the states
listed. -/
def Chip.ctxCmd (s : Chip) (q : CmdReq) (slot : Nat) (states : List Nat) (f : Nat → Ctx → Chip → Chip) :
    Chip :=
  s.command q false fun p s =>
    let x := 32 * p + slot
    if slot < 32 ∧ states.contains (s.ctxAt x).state then f x (s.ctxAt x) s
    else s.cmdAnswer q .noAccess 0

/-- R133, R389, R391: cluster c is reported present and working, and is not fenced. -/
def Chip.clusterWorks (s : Chip) (c : Nat) : Bool :=
  s.flag (floorPg + 0x40 + 4 * (c / 32)) (c % 32) && !s.isFenced (.cluster c)

/-- CTX_ASSIGN (R132, R133, R135, R138, R472). -/
def execCtxAssign (q : CmdReq) (slot root l1n : Nat) (clusters : List Nat) :
    State → Host.Outcome State Fault Refusal :=
  liftC fun s => s.ctxCmd q slot [0] fun x _ s =>
    let cls := clusters.eraseDups
    if s.retiring ∨ (cls.any fun c => decide (208 ≤ c) || (s.ownerOf c).isSome)
    then s.cmdAnswer q .noAccess 0
    else if cls.any fun c => !s.clusterWorks c then s.cmdAnswer q .fenced 0
    else if root % 4096 ≠ 0 ∨ l1n = 0 ∨ 262144 < l1n ∨ s.inArea (x / 32) root (8 * l1n) = false
    then s.cmdAnswer q .noAccess 0
    else
      let s := forEach cls (fun c s => Chip.tlbDrop
        { s with parts.owner := KMap.put s.parts.owner none c (some x) } c fun t => t.ctx == x) s
      (s.setCtx x { state := 1, root := root, l1n := l1n }).cmdAnswer q .ok 0

/-- R107, R135: a cluster control core is told: the words of the mailbox are the service runtime's,
free values here. -/
def Chip.mboxTell (s : Chip) (c : Nat) : Chip :=
  let s := forEach (List.range 8) (fun i s =>
    let (k, s) := s.fresh
    s.setReg (nwPg c + 0xC0 + 4 * i) (BitVec.ofNat 32 k)) s
  s.setFlag (mboxDb c) 0 true

/-- CTX_START (R107, R135, R454): RUNNING; the command answers OK once MODEL_HASH is there. -/
def execCtxStart (q : CmdReq) (slot : Nat) : State → Host.Outcome State Fault Refusal :=
  liftC fun s => s.ctxCmd q slot [1] fun x k s =>
    let s := forEach (s.ctxClusters x) (fun c s => s.mboxTell c) s
    (s.setCtx x { k with state := 2, starting := some q }).cmdPending q

/-- CTX_KILL with DRAIN = 0 (R135, R146). -/
def execCtxKill (q : CmdReq) (slot : Nat) : State → Host.Outcome State Fault Refusal :=
  liftC fun s => s.ctxCmd q slot [1, 2, 3, 4] fun x _ s =>
    (if (s.ctxAt x).state = 4 then s else s.killCtx x (killOf 8)).cmdAnswer q .ok 0

/-- CTX_KILL with DRAIN = 1 (R135). -/
def execCtxKillDrain (q : CmdReq) (slot : Nat) : State → Host.Outcome State Fault Refusal :=
  liftC fun s => s.ctxCmd q slot [2, 4] fun x k s =>
    (if k.state = 4 then s else s.setCtx x { k with state := 3 }).cmdAnswer q .ok 0

/-- DRAIN_COMPLETE (R135, R147): no accepted promise of a DRAINING context waits for its outcome. -/
def execDrainComplete (p : PartNo) (slot : SlotNo) : State → Host.Outcome State Fault Refusal :=
  liftC fun s =>
    let x := 32 * p.val + slot.val
    let cls := s.ctxClusters x
    if (s.ctxAt x).state = 3 ∧ (s.prom.reqs.all fun r => r.sent || !cls.any fun c => s.needsCl c r)
    then s.killCtx x (killOf 8) else s

/-- KILL_MESSAGE (R137, R146): the kill reaches a cluster: newts, frog, scans and engines stop. -/
def execKillMessage (c : ClusterNo) : State → Host.Outcome State Fault Refusal :=
  liftC fun s => match s.ownerOf c with
    | none => s
    | some x =>
      let k := s.ctxAt x
      if k.killing.contains c.val then
        let s := s.setCtx x { k with killing := k.killing.filter fun d => !(d == c.val) }
        s.clusterStop c .contextKilled 3
      else s

/-- R136: the slot starts being released. -/
def Chip.releaseCtx (s : Chip) (x : Nat) (q : Option CmdReq) : Chip :=
  s.setCtx x { s.ctxAt x with state := 5, releasing := q }

/-- CTX_RELEASE (R135, R136). -/
def execCtxRelease (q : CmdReq) (slot : Nat) : State → Host.Outcome State Fault Refusal :=
  liftC fun s => s.ctxCmd q slot [1, 4] fun x _ s => (s.releaseCtx x (some q)).cmdPending q

/-- R104, R136: a newt's SRAM is cleared by the broadcast and the newt HALTED, unless it is fenced or
absent. -/
def Sys.clearNewt (y : Sys) (c m : Nat) : Sys :=
  let x := y.chip.core c m
  if x.absent ∨ x.st = 5 then y
  else
    let y := onChip (fun s => s.newtStop c m 3) y
    let y := (y.loadSram c m 0 [] true).loadSram c m 8192 [] true
    onChip (fun s => s.loaded c m) y

/-- R136, R376: a store is written with zeros and valid check bits. -/
def Sys.clearStore (y : Sys) (c : Nat) : Sys :=
  let y := y.invLines c 0 0x200000
  onMem (fun m => { m with store := KMap.zero m.store (stKey c 0) 0x200000
                           storeMark := KMap.zero m.storeMark (stKey c 0 / 4) 0x80000 }) y

/-- R136, R143: a cluster of a released context is cleared; a fenced one only leaves the context. A
preload in progress ends: no context owns the cluster. -/
def Sys.releaseCluster (y : Sys) (c x : Nat) : Sys :=
  let y := if y.chip.isFenced (.cluster c) then y
    else
      let y := (forEachS (List.range 128) (fun m y => y.clearNewt c m) y).clearStore c
      onChip (fun s =>
        let f := s.frog c
        s.setFrog c { f with s0 := { f.s0 with valid := false }, s1 := { f.s1 with valid := false } }) y
  onChip (fun s =>
    let s := s.tlbDrop c fun t => t.ctx == x
    let s := { s with accs := s.accs.filter fun a => match a.src with
      | .walk d _ => !(d == c)
      | _ => true }
    let s := s.setCl c { s.cl c with walks := [] }
    Chip.preGo { s with parts.owner := KMap.put s.parts.owner none c none } c) y

/-- R136, R377: every kill message has arrived, no cluster of the slot is in reset, and its copies
have come to an end. -/
def Chip.releaseReady (s : Chip) (x : Nat) : Bool :=
  let k := s.ctxAt x
  k.state == 5 && k.killing.isEmpty &&
  (s.ctxClusters x).all fun c => !s.clResetting c &&
    [0, 1].all fun e => (s.eng c e).descs.all fun d => d.fly.isEmpty

/-- CTX_RELEASE_DONE (R136, R377, R454): the clusters are cleared and unowned, the slot FREE. -/
def execCtxReleaseDone (p : PartNo) (slot : SlotNo) : State → Host.Outcome State Fault Refusal :=
  liftS fun y =>
    let x := 32 * p.val + slot.val
    if y.chip.releaseReady x then
      let q := (y.chip.ctxAt x).releasing
      let y := forEachS (y.chip.ctxClusters x) (fun c y => y.releaseCluster c x) y
      onChip (fun s =>
        let s := Chip.setCtx { s with att.models := KMap.put s.att.models [] x [] } x {}
        match q with
        | some q => s.cmdAnswer q .ok 0
        | none => s) y
    else y

/-! ## TABLE_WRITE (R140, R353, R447) -/

/-- R140, R447: a TABLE_WRITE of n bytes from a pool offset is partition p's to make: wholly in its
area, and not in the image half of partition 0's. -/
def Chip.tableOk (s : Chip) (p off n : Nat) : Bool :=
  s.inArea p off n && (p != 0 || decide (off + n ≤ s.rsv + 0x800000))

/-- R140: the parts of a TABLE_WRITE, one per code block: block, first byte, bytes. -/
def tableParts (off : Nat) (d : List Byte) : List (Nat × Nat × List Byte) :=
  (blocksOf off d.length).map fun b => (b.1, b.2.1, (d.drop (2048 * b.1 + b.2.1 - off)).take b.2.2)

/-- R140, R172, R175, R353: one part is written, its rows activated for requester x; a controller out of
service, a block that decodes UE or a DEFECT block answers instead. -/
def Sys.tablePart (y : Sys) (x : Nat) (b : Nat × Nat × List Byte) : Status × Sys :=
  let n := y.chip.ctrlOf b.1
  match y.chip.mcTurnsAway n with
  | some st => (st, y)
  | none =>
    let y := onChip (fun s => s.activateBlk n b.1 x) y
    if y.chip.isDefect n b.1 then (.ue, y)
    else if b.2.2.length = 2048 then (.ok, y.writeFwd n b.1 b.2.2 (.triad b.1))
    else match y.readBlk n b.1 3 64 with
      | (none, y) => (.ue, y)
      | (some d, y) =>
        (.ok, y.writeFwd n b.1 (d.take b.2.1 ++ b.2.2 ++ d.drop (b.2.1 + b.2.2.length)) (.triad b.1))

/-- The parts in ascending order, up to the first that fails. -/
def Sys.tableAll (y : Sys) (x : Nat) : List (Nat × Nat × List Byte) → Status × Sys
  | [] => (.ok, y)
  | b :: l => match y.tablePart x b with
    | (.ok, y) => y.tableAll x l
    | r => r

/-- TABLE_WRITE (R140, R353, R415, R447): entries of a translation table, written whole before the
answer. -/
def execTableWrite (q : CmdReq) (off : Nat) (data : List Byte) :
    State → Host.Outcome State Fault Refusal :=
  liftS fun y => if y.chip.mustWait q then y else y.turnOf (xhtId q.session q.chan q.seq) fun y =>
    let y := onChip (fun s => s.leaveIngress q) y
    let s := y.chip
    let n := data.length
    match s.turnedAway q false with
    | some s => { y with chip := s }
    | none =>
      if off % 8 = 0 ∧ n % 8 = 0 ∧ 8 ≤ n ∧ n ≤ 8192 ∧ s.tableOk (s.sessPart q.session) off n then
        let (st, y) := y.tableAll (hostX (s.sessHost q.session)) (tableParts off data)
        onChip (fun s => s.cmdAnswer q st 0) y
      else { y with chip := s.cmdAnswer q .noAccess 0 }

end Sys2Proof.Machine
end

