-- ==== Sys2Proof/Machine/Copy.lean ====
section
/-! DEFINITION. Copy engines at work: posts, descriptors, block requests, settling and completion, XC
blocks, and INV_RANGE (R121 to R130, R149, R150, R236). -/

namespace Sys2Proof.Machine

/-! ## Descriptors (R121, R123) -/

def Desc.nblk (d : Desc) : Nat := dw d.ws 5 10 0
def Desc.csOff (d : Desc) : Nat := dw d.ws 4 20 0
def Desc.cmplPtr (d : Desc) : Nat := dw d.ws 7 20 0

/-- Words 2 and 3 as one number: VA or TICK. -/
def wideOf (ws : List Word) : Nat := (ws.getD 2 0).toNat + 2 ^ 32 * (ws.getD 3 0).toNat

/-- R144: the 2 MiB pages that meet the range of an RD or WR descriptor. -/
def pagesOf (ws : List Word) : List Nat :=
  let va := wideOf ws
  let p := va / 0x200000
  (List.range ((va + 2048 * dw ws 5 10 0 - 1) / 0x200000 + 1 - p)).map (p + ·)

/-- R121: a reserved bit, or a field that does not apply to the OPC, is non-zero. -/
def descRsvd (ws : List Word) : Bool :=
  let z := fun i hi lo => dw ws i hi lo == 0
  let common := z 0 31 10 && z 4 31 21 && z 5 31 11 && z 6 31 29 && z 7 31 21 &&
    (db ws 0 7 || z 1 31 16)
  let own := match dw ws 0 3 0 with
    | 1 | 2 => z 3 31 16 && z 6 31 0 && !db ws 0 9
    | 3 => z 2 31 0 && z 3 31 0 && z 1 31 16 && !db ws 0 7
    | _ => z 4 31 0 && z 5 31 0 && z 6 31 0 && z 1 31 16 && !db ws 0 7 && !db ws 0 9
  !(common && own)

/-- R123: the checks of a descriptor at store offset off of cluster c. -/
def copyBad (c off : Nat) (ws : List Word) : Bool :=
  let opc := dw ws 0 3 0
  let n := dw ws 5 10 0
  decide (0x200000 < off + 32) || opc == 0 || decide (4 < opc) || descRsvd ws ||
  ((opc == 1 || opc == 2) && dw ws 2 10 0 != 0) ||
  dw ws 4 20 0 % 64 != 0 || dw ws 6 20 0 % 64 != 0 || dw ws 7 20 0 % 8 != 0 ||
  (opc != 4 && decide (n = 0 ∨ 1024 < n ∨ 0x200000 < dw ws 4 20 0 + 2048 * n)) ||
  (opc == 3 && decide (0x200000 < dw ws 6 20 0 + 2048 * n ∨ 207 < dw ws 6 28 21 ∨ dw ws 6 28 21 = c)) ||
  decide (0x200000 < dw ws 7 20 0 + 8) ||
  (db ws 0 7 && dw ws 1 31 16 == 0)

/-! ## Completion (R124, R127) -/

/-- R124: the descriptor has issued its last block request, or issues none. -/
def Desc.issued (d : Desc) : Bool :=
  d.need.isEmpty && !d.waiting && (d.stop || decide (d.nblk ≤ d.next))

/-- R127: every block of the descriptor is settled. -/
def Desc.settled (d : Desc) : Bool := d.issued && d.fly.isEmpty

/-- R127: the first failure in block order, or OK. -/
def Desc.status (d : Desc) : Status :=
  match d.fails with
  | [] => .ok
  | f :: l => (l.foldl (fun b x => if x.1 < b.1 then x else b) f).2

/-- R127, R128: the completion word goes to the descriptor's own store, or to the target's. -/
def Sys.copyWordAt (y : Sys) (c : Nat) (d : Desc) (w : List Byte) : Sys :=
  if db d.ws 0 6 = false then y
  else if db d.ws 0 9 then
    let t := dw d.ws 6 28 21
    if y.chip.isFenced (.cluster t) ∨ y.chip.clResetting t then y else y.stWrite t d.cmplPtr w
  else y.stWrite c d.cmplPtr w

/-- R500: the completion word of a descriptor waits for a store that gives no grants. -/
def Chip.wordHeld (s : Chip) (c : Nat) (d : Desc) : Bool :=
  db d.ws 0 6 &&
  if db d.ws 0 9 then
    let t := dw d.ws 6 28 21
    s.stFrozen t && !s.isFenced (.cluster t) && !s.clResetting t
  else s.stFrozen c

/-- R127, R130: a descriptor completes: its word, its interrupt, the counts. -/
def Sys.completeDesc (y : Sys) (c e : Nat) (d : Desc) : Sys :=
  let st := d.status
  let pg := cpPg c e
  let y := y.copyWordAt c d (copyWord st d.late d.opc (dw d.ws 1 15 0) d.ok)
  onChip (fun s =>
    let x := s.eng c e
    let s := s.setEng c e { x with descs := x.descs.filter fun z => !(z.serial == d.serial) }
    let s := s.wrapBy (pg + 0x48) 1
    let s := if st = .ok then s else s.bump (pg + 0x60)
    let s := match st with
      | .ue => s.countErr pg 1 1 0 false
      | .noAccess => s.notice pg 2
      | _ => s
    if db d.ws 0 5 then s.setFlag (pg + 0x54) 0 true else s) y

/-- R124, R129: descriptors complete in program order, as many as have settled; one ended by a kill or
a reset leaves without a word, one ended by a fence is answered at containment. -/
def Sys.copyDone (y : Sys) (c e : Nat) : Nat → Sys
  | 0 => y
  | n + 1 =>
    let x := y.chip.eng c e
    match x.descs with
    | [] => y
    | d :: l =>
      match d.forced with
      | some .fenced => y
      | some _ =>
        if d.fly.isEmpty then
          Sys.copyDone (onChip (fun s => s.setEng c e { s.eng c e with descs := l }) y) c e n
        else y
      | none => if d.settled ∧ y.chip.wordHeld c d = false then (y.completeDesc c e d).copyDone c e n else y

/-- As many completions as there are descriptors. -/
def Sys.copySettle (y : Sys) (c e : Nat) : Sys := y.copyDone c e (y.chip.eng c e).descs.length

/-- WALK_READ_DONE (R127, R139, R141 to R145): the read of a walk has returned; a descriptor it ends
completes. -/
def execWalkReadDone (c : ClusterNo) (e : Nat) : State → Host.Outcome State Fault Refusal :=
  liftS fun y =>
    let s := y.chip
    let src := BlkSrc.walk c e
    match (s.cl c).walks.find? fun w => w.e == e,
        s.accs.find? fun a => a.src == src && a.phase == .served with
    | some w, some a =>
      let s := { s with accs := s.accs.filter fun x => !(x.src == src) }
      let s := s.setCl c { s.cl c with walks := (s.cl c).walks.filter fun w => !(w.e == e) }
      let s := if a.st = .ok then s.walkEnds c w (s.walkStep w (leNat a.data)) else s.walkFails c w a.st
      (Sys.copySettle { y with chip := s } c 0).copySettle c 1
    | _, _ => y

/-! ## Starting descriptors (R122 to R125, R128) -/

/-- CP_POST (R122, R496, R502): only the cluster control core posts by register. -/
def execCpPost (c : ClusterNo) (e : EngNo) (ag : Agent) (v : Word) :
    State → Host.Outcome State Fault Refusal :=
  liftC fun s => match ag with
    | .ccc =>
      let a := Word.bits v 20 0
      if s.isFenced (.copy c e) then s
      else if a % 32 ≠ 0 ∨ (s.eng c e).room = false then s.notice (cpPg c e) 0
      else s.engPost c e a
    | .newt _ => s
    | _ => s.bump (glbPg + 0x7C)

/-- R122: the offset of the descriptor an engine reaches next: of its program, or of the next queued
program once the last is complete. -/
def Eng.reach (x : Eng) : Option Nat :=
  match x.cur with
  | some a => some a
  | none => if x.descs.isEmpty then x.queue.head? else none

/-- The engine with its next program taken from the queue. -/
def Eng.take (x : Eng) : Eng :=
  match x.cur with
  | some _ => x
  | none => { x with
      queue := x.queue.drop 1
      struck := match x.struck with | some (k + 1, n) => some (k, n) | _ => none }

/-- R124: a descriptor may start: the previous one has completed, or, with OVL, issued its last block
request. -/
def Eng.mayStart (x : Eng) (ovl : Bool) : Bool :=
  match x.descs.getLast? with
  | none => true
  | some d => ovl && d.issued && d.fails.isEmpty

/-- R123: a descriptor is refused with the rest of its program. -/
def Chip.refuseDesc (s : Chip) (c e off : Nat) : Chip :=
  let pg := cpPg c e
  let s := s.setEng c e { (s.eng c e).take with cur := none }
  let s := (s.setReg (pg + 0x50) (BitVec.ofNat 32 (off % 0x200000))).setFlag (pg + 0x54) 1 true
  s.notice pg 3

/-- A descriptor as it starts. -/
def descOf (s : Chip) (c : Nat) (serial off : Nat) (ws : List Word) : Desc :=
  { serial := serial, off := off, ws := ws, ctx := s.ownerOf c, need := [], tr := [], next := 0
    stop := false, fly := [], ok := 0, fails := [], waiting := false, late := false, forced := none }

/-- R121 to R124: the engine starts a descriptor, changed by f. -/
def Chip.startDesc (s : Chip) (c e off : Nat) (ws : List Word) (f : Desc → Desc) : Chip :=
  let x := (s.eng c e).take
  s.setEng c e { x with
    cur := if db ws 0 4 then some (off + 32) else none
    serial := x.serial + 1
    descs := x.descs ++ [f (descOf s c x.serial off ws)] }

/-- R398: an injection that struck the queue entry the engine takes now: flipped bits. -/
def Eng.hit (x : Eng) : Nat :=
  match x.cur, x.struck with
  | none, some (0, n) => n
  | _, _ => 0

/-- R122 to R124, R129: the engine reaches a descriptor of one of the OPCs `want` picks, which run
starts; a bad one is refused. -/
def Sys.reachDesc (y : Sys) (c e : Nat) (want : Nat → Bool) (ready : Chip → Bool)
    (run : Nat → List Word → Chip → Chip) : Sys :=
  let y₀ := y
  let s := y.chip
  let x := s.eng c e
  match x.reach with
  | none => y
  | some off =>
    if s.frozen (cpPg c e) ∨ s.stFrozen c then y
    else
      let (d, bad, y') := y.stRead c off 32
      let ws := if 0x200000 < off + 32 then [] else wordsOf d
      if want (dw ws 0 3 0) = false ∨ x.mayStart (db ws 0 8) = false then y
      else if x.hit = 2 then
        onChip (fun s => (s.setEng c e (s.eng c e).take).unitError (.copy c e) .data (cpPg c e) 1 0 true) y
      else
        let y := onChip (fun s =>
          if x.hit = 1 then (s.setEng c e { s.eng c e with struck := none }).countErr (cpPg c e) 1 0 0 true
          else s) y'
        if copyBad c off ws ∨ bad.isEmpty = false then onChip (fun s => s.refuseDesc c e off) y
        else if ready y.chip = false then y₀
        else (onChip (run off ws) y).copySettle c e

/-- R134: the copies of cluster c's context translate. -/
def Chip.copiesRun (s : Chip) (c : Nat) : Bool :=
  match s.ownerOf c with
  | some x => (s.ctxAt x).translates
  | none => false

/-- R144: an RD or WR descriptor starts with its whole-range check. -/
def Chip.startPool (s : Chip) (c e off : Nat) (ws : List Word) : Chip :=
  (s.startDesc c e off ws fun d => { d with need := pagesOf ws }).checkGo c e 4

/-- COPY_RD (R121 to R124, R144): a reserved OPC is refused here too. A check held up goes on. -/
def execCopyRd (c : ClusterNo) (e : EngNo) : State → Host.Outcome State Fault Refusal :=
  liftS fun y =>
    let y := onChip (fun s => s.checkGo c e 4) y
    y.reachDesc c e (fun o => o != 2 && o != 3 && o != 4) (fun s => s.copiesRun c)
      fun off ws s => s.startPool c e off ws

/-- COPY_WR (R121 to R124, R144). -/
def execCopyWr (c : ClusterNo) (e : EngNo) : State → Host.Outcome State Fault Refusal :=
  liftS fun y =>
    let y := onChip (fun s => s.checkGo c e 4) y
    y.reachDesc c e (fun o => o == 2) (fun s => s.copiesRun c) fun off ws s => s.startPool c e off ws

/-- R128, R389: what stops an XC into cluster t of another context, in a fence or in a reset. -/
def Chip.xcStop (s : Chip) (c t : Nat) : Option Status :=
  if s.ownerOf t ≠ s.ownerOf c ∨ s.ownerOf c = none then some .noAccess
  else if s.isFenced (.cluster t) then some .fenced
  else if s.clResetting t then some .reset
  else none

/-- COPY_XC (R121 to R124, R128). -/
def execCopyXc (c : ClusterNo) (e : EngNo) : State → Host.Outcome State Fault Refusal :=
  liftS fun y => y.reachDesc c e (fun o => o == 3) (fun _ => true) fun off ws s =>
    match s.xcStop c (dw ws 6 28 21) with
    | some st =>
      let s := s.startDesc c e off ws fun d => { d with stop := true, fails := [(0, st)] }
      s.setEng c e { s.eng c e with cur := none }
    | none => s.startDesc c e off ws id

/-- R125, R130: a WAITT ends late. -/
def Chip.waittLate (s : Chip) (c e : Nat) : Chip := (s.bump (cpPg c e + 0x4C)).notice (cpPg c e) 4

/-- COPY_WAITT (R125): the engine waits for the tick, or goes on at once, late. -/
def execCopyWaitt (c : ClusterNo) (e : EngNo) : State → Host.Outcome State Fault Refusal :=
  liftS fun y => y.reachDesc c e (fun o => o == 4) (fun _ => true) fun off ws s =>
    if wideOf ws ≤ s.tickCopy then
      (s.startDesc c e off ws fun d => { d with late := true }).waittLate c e
    else s.startDesc c e off ws fun d => { d with waiting := true }

/-- The engine's waiting WAITT. -/
def Eng.waitt (x : Eng) : Option Desc := x.descs.find? (·.waiting)

/-- WAITT_REACHED (R125). -/
def execWaittReached (c : ClusterNo) (e : EngNo) : State → Host.Outcome State Fault Refusal :=
  liftS fun y => match (y.chip.eng c e).waitt with
    | none => y
    | some d =>
      if wideOf d.ws ≤ y.chip.tickCopy then
        Sys.copySettle (onChip (fun s => s.setEng c e ((s.eng c e).upd d.serial fun d =>
          { d with waiting := false })) y) c e
      else y

/-- CP_KICK (R125, R496, R502): ends the wait early, late; one whose tick is reached ends on time. -/
def execCpKick (c : ClusterNo) (e : EngNo) (ag : Agent) (v : Word) :
    State → Host.Outcome State Fault Refusal :=
  liftS fun y => match ag with
    | .ccc => match (y.chip.eng c e).waitt with
      | none => y
      | some d =>
        if Word.bit v 0 then
          let late := decide (y.chip.tickCopy < wideOf d.ws)
          Sys.copySettle (onChip (fun s =>
            let s := s.setEng c e ((s.eng c e).upd d.serial fun d =>
              { d with waiting := false, late := late })
            if late then s.waittLate c e else s) y) c e
        else y
    | .newt _ => y
    | _ => onChip (fun s => s.bump (glbPg + 0x7C)) y

/-! ## Blocks (R126, R127, R223, R236) -/

/-- R126: the number of block k of a descriptor. -/
def blkNo (serial k : Nat) : Nat := 2048 * serial + k

/-- R127: block k of a descriptor failed: no later block is issued, and the program ends after the
descriptor. -/
def Chip.blockFails (s : Chip) (c e serial k : Nat) (st : Status) : Chip :=
  let x := s.eng c e
  s.setEng c e { x.upd serial (fun d => { d with
      fly := d.fly.filter (fun i => !(i == k)), fails := d.fails ++ [(k, st)], stop := true }) with
    cur := none }

/-- R127, R130: block k of a descriptor is written. -/
def Chip.blockOk (s : Chip) (c e serial k : Nat) : Chip :=
  (s.setEng c e ((s.eng c e).upd serial fun d =>
    { d with fly := d.fly.filter (fun i => !(i == k)), ok := d.ok + 1 })).wrapBy (cpPg c e + 0x5C) 1

/-- R126: blocks in flight of an engine. -/
def Eng.inflight (x : Eng) : Nat := (x.descs.map (·.fly.length)).sum

/-- The descriptor whose blocks the engine issues. -/
def Eng.issuing (x : Eng) : Option Desc := x.descs.find? fun d => !d.issued && d.need.isEmpty && !d.waiting

/-- Slot j of controller n is taken by a block. -/
def Chip.slotTaken (s : Chip) (n j : Nat) : Bool :=
  s.accs.any fun a => heldSlot a == some j && s.ctrlOf a.pb == n

/-- R163, R165, R236: the next slot of the plan's reservation v on controller n that no other block has
used, in the current frame; one in which the windows or another access shut a block of bank k out is no
slot for it. -/
def Chip.planSlot (s : Chip) (n k v : Nat) : Option Nat :=
  match s.planAt s.now with
  | none => none
  | some (_, org, frame) =>
    let j := s.slotFrom s.now
    let stop := s.slotFrom (org + ((s.now - org) / max frame 1 + 1) * frame)
    (firstFrom (fun j => ((s.planBlock n j).map recResv) == some v && !s.slotTaken n j) (stop - j) j).filter
      (s.slotRules n k)

/-- R236, R248: the slot reserved for served block b by the request in service slot v of cluster c. -/
def Chip.svcSlotOf (s : Chip) (c v b n : Nat) : Option Nat :=
  match s.prom.reqs.find? fun r => r.kind == .svc && !r.sent && r.cluster == c && r.svcSlot == v with
  | none => none
  | some r => (s.prom.ch.find? fun h => h.owner == r.id && h.b == b && h.n == n && !h.dir &&
      decide (s.slotAt s.now ≤ h.slot) && !s.slotTaken n h.slot).map (·.slot)

/-- R236: the slot of a block under a descriptor's reservation; a SCHED block without one is served
unreserved and counted. -/
def Chip.copySlot (s : Chip) (c : Nat) (ws : List Word) (pb : Nat) : Option Nat × Chip :=
  if db ws 0 7 = false then (none, s)
  else
    let v := dw ws 1 31 16
    let n := s.ctrlOf pb
    let j := if v < 0xFFFE then s.planSlot n (s.bankOf pb) v else s.svcSlotOf c (v - 0xFFFE) pb n
    (j, if j.isNone then s.bump (prPg + 0x58) else s)

/-- The pool offset of block k of a descriptor under the translations it checked. -/
def Desc.poolOff (d : Desc) (k : Nat) : Nat :=
  let va := wideOf d.ws + 2048 * k
  match d.tr.find? fun t => t.page == va / 0x200000 with
  | some t => t.pa + va % 0x200000
  | none => 0

/-- R126, R223: the block access of block k; one that names a shadow, or writes a region, ends
NO_ACCESS. -/
def Chip.copyAcc (s : Chip) (c e : Nat) (d : Desc) (k : Nat) (write : Bool) (data : List Byte) :
    Acc × Chip :=
  let b := d.poolOff k / 2048
  let pb := s.bodyNow b
  let x := d.ctx.getD 0
  let (j, s) := s.copySlot c d.ws pb
  let a : Acc :=
    { src := .copy c e (blkNo d.serial k), port := 1, b := b, pb := pb, lo := 0, len := 2048
      write := write, rdc := false, excl := false, part := x / 32, x := ctxX x, data := data
      slot := j, slot2 := none, checked := false, phase := .waitDir, st := .ok, reg := false
      lock := false, tick := s.now, late := false }
  if s.inShadow b 1 ∨ (write ∧ (s.regionAt b 1).isSome) then
    ({ a with phase := .served, st := .noAccess, slot := none }, s)
  else match s.mcTurnsAway (s.ctrlOf pb) with
    | some st => ({ a with phase := .served, st := st, slot := none }, s)
    | none => (a, s)

/-- R127, R128: the XC descriptors of an engine that run into cluster t, which enters reset, end RESET:
their first block that is not settled fails. -/
def Chip.xcReset (s : Chip) (t c e : Nat) : Chip :=
  let x := s.eng c e
  let hit := fun d : Desc =>
    d.opc == 3 && dw d.ws 6 28 21 == t && d.forced.isNone && d.fails.isEmpty && !d.settled
  if (x.descs.any hit) = false then s
  else s.setEng c e { x with
    cur := none
    descs := x.descs.map fun d =>
      if hit d then { d with stop := true, fails := [(d.fly.foldl min d.next, .reset)] } else d }

/-- BLOCK_ISSUE (R126, R128): the next block request; a WR or XC block whose source holds an
uncorrectable word fails at once. -/
def execBlockIssue (c : ClusterNo) (e : EngNo) : State → Host.Outcome State Fault Refusal :=
  liftS fun y =>
    let s := y.chip
    let x := s.eng c e
    let early : Bool := match x.lastIssue with | some t => decide (s.ref < t + 4) | none => false
    match x.issuing with
    | none => y
    | some d =>
      if early = true ∨ 32 ≤ x.inflight ∨ (d.opc ≠ 1 ∧ s.stFrozen c) then y
      else
        let k := d.next
        let go := onChip (fun s => s.setEng c e { (s.eng c e).upd d.serial (fun d =>
          { d with next := k + 1, fly := d.fly ++ [k] }) with lastIssue := some s.ref })
        let fail := fun st => fun y => Sys.copySettle (onChip (fun s => s.blockFails c e d.serial k st) y) c e
        if d.opc = 1 then
          let (a, s) := s.copyAcc c e d k false []
          go { y with chip := { s with accs := s.accs ++ [a] } }
        else
          let (b, bad, y) := y.stRead c (d.csOff + 2048 * k) 2048
          if bad.isEmpty = false then fail .ue y
          else if d.opc = 2 then
            let (a, s) := y.chip.copyAcc c e d k true b
            go { y with chip := { s with accs := s.accs ++ [a] } }
          else
            let t := dw d.ws 6 28 21
            match y.chip.xcStop c t with
            | some st => fail st y
            | none => go (onChip (fun s => { s with
                xcs := s.xcs ++ [⟨c, e, blkNo d.serial k, t, dw d.ws 6 20 0 + 2048 * k, b⟩] }) y)

/-- BLOCK_SETTLE (R119, R126, R127): block i of an engine has come back: an RD block is written into
the store under INV; a failure writes nothing. -/
def execBlockSettle (c : ClusterNo) (e : EngNo) (i : Nat) : State → Host.Outcome State Fault Refusal :=
  liftS fun y =>
    let src := BlkSrc.copy c e i
    let n := i / 2048
    let k := i % 2048
    match y.chip.accs.find? fun a => a.src == src && a.phase == .served,
        (y.chip.eng c e).descs.find? fun d => d.serial == n with
    | some a, some d =>
      if d.opc = 1 ∧ a.st = .ok ∧ y.chip.stFrozen c then y
      else
        let y := onChip (fun s => { s with accs := s.accs.filter fun x => !(x.src == src) }) y
        if a.st = .ok then
          let y := if d.opc = 1 then y.stWrite c (d.csOff + 2048 * k) a.data else y
          Sys.copySettle (onChip (fun s => s.blockOk c e n k) y) c e
        else Sys.copySettle (onChip (fun s => s.blockFails c e n k a.st) y) c e
    | _, _ => y

/-- XC_BLOCK_ARRIVE (R119, R128, R129): the i-th XC block on its way to cluster c is written through
its mesh ingress, or dropped by a fence or a reset; its source learns which. -/
def execXcBlockArrive (c : ClusterNo) (i : Nat) : State → Host.Outcome State Fault Refusal :=
  liftS fun y =>
    let s := y.chip
    match (s.xcs.filter fun x => x.dst == c.val)[i]? with
    | none => y
    | some x =>
      let n := x.i / 2048
      let k := x.i % 2048
      let gone := onChip fun s => { s with xcs := s.xcs.erase x }
      let fails := fun st => onChip fun s => s.blockFails x.c x.e n k st
      if s.isFenced (.cluster c) then (fails .fenced (gone y)).copySettle x.c x.e
      else if s.clResetting c then (fails .reset (gone y)).copySettle x.c x.e
      else if s.stFrozen c then y
      else
        let y := (gone y).stWrite c x.off x.data
        Sys.copySettle (onChip (fun s => s.blockOk x.c x.e n k) y) x.c x.e

/-! ## INV_RANGE (R149, R150) -/

/-- Whether pages [a, a + n) meet the range of an INV_RANGE. -/
def InvJob.meets (j : InvJob) (a n : Nat) : Bool := decide (a < j.hi ∧ j.lo < a + n)

/-- The clusters of the contexts an INV_RANGE of partition p names. -/
def Chip.invClusters (s : Chip) (p : Nat) (j : InvJob) : List (Nat × Nat) :=
  s.parts.owner.filterMap fun e => match e.2 with
    | some x => if x / 32 = p ∧ j.slots.contains (x % 32) then some (e.1, x) else none
    | none => none

/-- R149: a check in progress touches the range. -/
def InvJob.stops (j : InvJob) (d : Desc) : Bool := !d.need.isEmpty && (pagesOf d.ws).any fun p => j.meets p 1

/-- R149: the descriptors of an engine, of context x, whose check used an entry that is dropped now and
that have not settled; a check that touches the range starts anew and is none of them. -/
def Chip.invWaits (s : Chip) (j : InvJob) (c x e : Nat) : List (Nat × Nat × Nat) :=
  let gone := (s.cl c).tlb.filterMap fun t => t.2.bind fun t =>
    if t.ctx = x ∧ j.meets t.page t.size then some t.ent else none
  ((s.eng c e).descs.filter fun d =>
    !j.stops d && !d.settled && d.tr.any fun t => gone.contains t.ent).map fun d => (c, e, d.serial)

/-- R149: a check that touches the range and has not passed starts anew later. -/
def Chip.invCheck (s : Chip) (j : InvJob) (c e : Nat) : Chip :=
  match (s.eng c e).checking with
  | none => s
  | some d =>
    if j.stops d then
      s.setEng c e ((s.eng c e).upd d.serial fun d =>
        { d with need := pagesOf d.ws, tr := [], missed := false })
    else s

/-- R149: walks for pages of the range are abandoned. -/
def Chip.invWalks (s : Chip) (j : InvJob) (c x : Nat) : Chip :=
  let hit := fun w : Walk => w.ctx == x && j.meets w.page 1
  let es := ((s.cl c).walks.filter hit).map (·.e)
  let s := { s with accs := s.accs.filter fun a => match a.src with
    | .walk d e => !(d == c && es.contains e)
    | _ => true }
  s.setCl c { s.cl c with walks := (s.cl c).walks.filter fun w => !hit w }

/-- R149 step 1, R150: the INV_RANGE at the head of partition p's takes effect. -/
def Chip.invStart (s : Chip) (p : Nat) : Chip :=
  match KMap.at s.parts.invs [] p with
  | [] => s
  | j :: l =>
    let cs := s.invClusters p j
    let ws := cs.flatMap fun (c, x) => if (s.ctxAt x).translates
      then s.invWaits j c x 0 ++ s.invWaits j c x 1 else []
    let s := forEach cs (fun cx s =>
      let s := s.tlbDrop cx.1 fun t => t.ctx == cx.2 && j.meets t.page t.size
      ((s.invCheck j cx.1 0).invCheck j cx.1 1).invWalks j cx.1 cx.2) s
    { s with parts.invs := KMap.put s.parts.invs [] p ({ j with waits := ws } :: l) }

/-- INV_RANGE (R149, R150, R351): step 1 at once, unless one of the partition is in progress. -/
def execInvRange (q : CmdReq) (slot : Nat) (allSlots allVa : Bool) (va len : Nat) :
    State → Host.Outcome State Fault Refusal :=
  liftC fun s => s.command q false fun p s =>
    let j : InvJob :=
      { q := q, slots := if allSlots then List.range 32 else [slot], lo := if allVa then 0 else va / 0x200000
        hi := if allVa then 2 ^ 27 else va / 0x200000 + len, waits := [] }
    if (allSlots = false ∧ 32 ≤ slot) ∨ (allVa = false ∧
        (va % 0x200000 ≠ 0 ∨ len = 0 ∨ 2 ^ 27 < len ∨ 2 ^ 27 < j.hi))
    then s.cmdAnswer q .noAccess 0
    else
      let s := s.cmdPending q
      let js := KMap.at s.parts.invs [] p
      let s := { s with parts.invs := KMap.put s.parts.invs [] p (js ++ [j]) }
      if js.isEmpty then s.invStart p else s

/-- R149, R150: a descriptor waited for has settled. -/
def Chip.invSettled (s : Chip) (w : Nat × Nat × Nat) : Bool :=
  match (s.eng w.1 w.2.1).descs.find? fun d => d.serial == w.2.2 with
  | some d => d.settled
  | none => true

/-- INV_RANGE_ANSWER (R149): step 3; the next INV_RANGE of the partition starts, and the checks, walks
and preloads that were held up go on. -/
def execInvRangeAnswer (p : PartNo) : State → Host.Outcome State Fault Refusal :=
  liftC fun s => match KMap.at s.parts.invs [] p with
    | [] => s
    | j :: l =>
      if j.waits.all s.invSettled then
        let cs := s.invClusters p j
        let s := { s with parts.invs := KMap.put s.parts.invs [] p l }
        let s := (s.cmdAnswer j.q .ok 0).invStart p
        forEach cs (fun cx s => ((s.checkGo cx.1 0 4).checkGo cx.1 1 4).preGo cx.1) s
      else s

end Sys2Proof.Machine
end

