-- ==== Sys2Proof/Machine/Ring.lean ====
section
/-! DEFINITION. The snoop ring: the misses of the cores as the order point carries them out, and what a
store that gives grants again completes (R100, R112, R113, R116 to R120). -/

namespace Sys2Proof.Machine

/-! ## Bytes of an access -/

/-- The size of an access by its funct3. -/
def accSize (f3 : Nat) : Nat := 2 ^ (f3 % 4)

/-- The value of a load of funct3 f3 from its bytes. -/
def loadValue (f3 : Nat) (d : List Byte) : Word :=
  let v := leNat d
  BitVec.ofNat 32 (if f3 = 0 then sx 8 v else if f3 = 1 then sx 16 v else v)

/-- The bytes that a store of funct3 f3 writes. -/
def storeBytes (f3 : Nat) (w : Word) : List Byte := leBytes (accSize f3) w.toNat

/-- The bytes d in place of those from index k of l. -/
def splice (l : List Byte) (k : Nat) (d : List Byte) : List Byte := l.take k ++ d ++ l.drop (k + d.length)

/-! ## Lines of the cache (R113, R116) -/

/-- R116: an access counts as a use of its line. -/
def Core.useLine (x : Core) (k : Nat) (l : Line) : Core :=
  { x.setLine k (some { l with used := x.uses + 1 }) with uses := x.uses + 1 }

/-- R112: a load at store offset a meets a bad word of a line. -/
def Line.badAt (l : Line) (a : Nat) : Bool := l.bad.contains (a % 64 / 4)

/-- R112, R113: a store at store offset a: a store of a whole word makes it good. -/
def Line.stored (l : Line) (a : Nat) (d : List Byte) : Line :=
  { l with
    st := 3
    data := splice l.data (a % 64) d
    bad := if d.length = 4 then l.bad.filter fun i => !(i == a % 64 / 4) else l.bad }

/-- The value a load at store offset a takes from a line. -/
def Line.load (l : Line) (a f3 : Nat) : Word := loadValue f3 ((l.data.drop (a % 64)).take (accSize f3))

/-- R112: a load from a line it holds completes: its value, or cause 25. -/
def Chip.loadLine (s : Chip) (c m k : Nat) (l : Line) (a f3 rd next : Nat) : Chip :=
  let s := s.setCore c m ((s.core c m).useLine k l)
  if l.badAt a then s.trap c m 25 (0x10000000 + a) else s.finish c m rd (l.load a f3) next

/-! ## Misses on the ring (R100, R117, R118) -/

/-- The core still executes the instruction its miss serves. -/
def Core.waits (x : Core) : Bool := x.st == 2 && x.flush == 0

/-- R116: the line of a miss finds a way: one that is not dirty, since a dirty one is written back
first. -/
def Core.missWay (x : Core) (line : Nat) : Option Nat :=
  match x.line line with
  | some (k, _) => some k
  | none => match x.allocWay line with
    | (k, some l) => if l.st = 3 then none else some k
    | (k, none) => some k

/-- The core has a miss of a kind whose line finds a way; the order point admits it. -/
def Sys.missTurn (y : Sys) (c m kind : Nat) (f : Miss → Nat → Sys → Sys) : Sys :=
  match (y.chip.core c m).miss with
  | none => y
  | some ms =>
    let line := ms.addr / 64 * 64
    if ms.kind ≠ kind then y
    else match (y.chip.core c m).missWay line with
      | none => y
      | some k => match y.chip.ringAdmit c line m with
        | (false, s) => { y with chip := s }
        | (true, s) => f ms k { y with chip := s }

/-- The miss is over. -/
def Chip.missOver (s : Chip) (c m : Nat) : Chip := s.setCore c m { s.core c m with miss := none }

/-- R117: an RD's line arrives; R100: a core that no longer waits discards the data. -/
def Chip.loadArrives (s : Chip) (c m : Nat) (ms : Miss) (k : Nat) (l : Line) : Chip :=
  let s := s.missOver c m
  if (s.core c m).waits = false then s
  else s.loadLine c m k l ms.addr ms.f3 ms.rd ((s.core c m).pc + ms.len)

/-- R117: the line of an RDX or UPG is the core's: the store completes, R100: also in a core that no
longer waits. -/
def Chip.storeArrives (s : Chip) (c m : Nat) (ms : Miss) (k : Nat) (l : Line) : Chip :=
  let s := s.missOver c m
  let x := s.core c m
  let s := s.setCore c m (x.useLine k (l.stored ms.addr (storeBytes ms.f3 (BitVec.ofNat 32 ms.val))))
  if x.waits then s.retire c m (x.pc + ms.len) else s

/-- R117: a load miss is carried out: RD, and the load. -/
def Sys.missRd (y : Sys) (c m : Nat) (ms : Miss) (k : Nat) : Sys :=
  let (l, y) := y.ringRd c (ms.addr / 64 * 64) m
  onChip (fun s => s.loadArrives c m ms k l) y

/-- R117: a store miss is carried out: RDX, and the store. -/
def Sys.missRdx (y : Sys) (c m : Nat) (ms : Miss) (k : Nat) : Sys :=
  let (l, y) := y.ringRdx c (ms.addr / 64 * 64) m
  onChip (fun s => s.storeArrives c m ms k l) y

/-- SNOOP_RD (R117, R118). -/
def execSnoopRd (c : ClusterNo) (m : CoreNo) : State → Host.Outcome State Fault Refusal :=
  liftS fun y => y.missTurn c m 0 fun ms k y => y.missRd c m ms k

/-- SNOOP_RDX (R117, R118). -/
def execSnoopRdx (c : ClusterNo) (m : CoreNo) : State → Host.Outcome State Fault Refusal :=
  liftS fun y => y.missTurn c m 1 fun ms k y => y.missRdx c m ms k

/-- SNOOP_UPG (R117, R118): a line lost meanwhile makes it an RDX. -/
def execSnoopUpg (c : ClusterNo) (m : CoreNo) : State → Host.Outcome State Fault Refusal :=
  liftS fun y => y.missTurn c m 2 fun ms k y =>
    let line := ms.addr / 64 * 64
    match (y.chip.core c m).line line with
    | some (_, l) => onChip (fun s => (s.ringUpg c line m).storeArrives c m ms k l) y
    | none => onChip (fun s => s.setCore c m { s.core c m with miss := some { ms with kind := 1 } }) y

/-! ## A store that gives grants again (R118, R120, R500) -/

/-- R117: core m's transaction on a line is carried out: its miss, or the write-back it has to make. An
UPG whose line was lost meanwhile is an RDX. -/
def Sys.coreTurn (y : Sys) (c line m : Nat) : Sys :=
  let x := y.chip.core c m
  match x.miss.filter (fun ms => ms.addr / 64 * 64 == line), x.missWay line with
  | some ms, some k => match ms.kind, x.line line with
    | 0, _ => y.missRd c m ms k
    | 2, some (_, l) => onChip (fun s => (s.ringUpg c line m).storeArrives c m ms k l) y
    | _, _ => y.missRdx c m ms k
  | _, _ => match x.wbNext with
    | some (k, l) => if l.off = line then y.evictLine c m k l else y
    | none => y

/-- R117, R119: requester w's transaction on a line is carried out. -/
def Sys.ringTurn (y : Sys) (c : Nat) (t : Nat × Nat) : Sys :=
  if t.2 < 129 then y.coreTurn c t.1 t.2 else y.invLines c t.1 64

/-- R118, R120: the order point's transactions complete, the open ones first, then the credited ones in
the order of their RETRYs; nothing that asks later comes before them. -/
def Sys.ringDrain (y : Sys) (c : Nat) : Sys :=
  let ts := (y.chip.cl c).opens ++ (y.chip.cl c).credits
  forEachS ts (fun t y => y.ringTurn c t)
    (onChip (fun s => s.setCl c { s.cl c with opens := [], credits := [] }) y)

end Sys2Proof.Machine
end

