-- ==== Sys2Proof/Machine/Fence.lean ====
section
/-! DEFINITION. Errors that rows report, containment, the lifting of fences, reconciliation, the fault
queue, injected errors, FREEZE, and the check-value units (R385 to R408). -/

namespace Sys2Proof.Machine

/-! ## Fences (R386 to R391) -/

/-- R386, R394: the causes with which an error fences a unit. A BLK_STAT word that is uncorrectable
fences any unit with LOGIC. -/
def causeFits (u : UnitId) (c : Cause) : Bool :=
  match c, u with
  | .none, _ => false
  | .widen, _ => false
  | .order, .part p => p != 0
  | .order, _ => true
  | .logic, _ => true
  | .data, .mc _ => false
  | .data, .link _ => false
  | .data, .eth => false
  | .data, _ => true
  | .miss, .cluster _ => true
  | .miss, .mc _ => true
  | .miss, _ => false
  | .link, .link _ => true
  | .link, _ => false

/-- R386: the page and the ERR_STAT bit with which an error of a unit is reported. -/
def errorAt : UnitId → Nat × Nat
  | .newt c m => (nwRecPg c m, 1)
  | .frog c => (fgPg c, 1)
  | .copy c e => (cpPg c e, 1)
  | .cluster c => (nwPg c, 1)
  | .mc n => (mcPg n, 4)
  | .link l => (lkPg l, 3)
  | .eth => (enPg, 6)
  | .cv u => (cvPg u, 2)
  | .part p => (ptPg p, 0)

/-- R386, R392, R393: an uncorrected error of the state of partition p: it fences the partition, or,
in partition 0, is UE-CHIP. A partition page has no ERR_STAT bit. -/
def Chip.partError (s : Chip) (p : Nat) (cause : Cause) : Chip :=
  if p = 0 then s.chipError (ptPg 0) 0 false
  else
    let s := s.bump (ptPg p + 0x20)
    let u := UnitId.part p
    if s.contained1 u then s
    else match s.handling u with
      | none => s.fence u cause (ptPg p) 0 false
      | some f => if f.tx = s.now then s else s.unitRecord u f.cause (ptPg p) 0 0 false false true

/-- FENCE (R386 to R388, R391 to R393, R399): an error is detected in a unit, or its page's
BLK_CTRL.FENCE is written. -/
def execFence (u : UnitId) (cause : Cause) : State → Host.Outcome State Fault Refusal :=
  liftC fun s =>
    if unitOfKind (unitKind u).1 (unitKind u).2 ≠ some u ∨ causeFits u cause = false then s
    else match cause, u with
      | .order, .newt c m => if (s.core c m).absent then s else s.orderFence u
      | .order, _ => s.orderFence u
      | _, .part p => s.partError p cause
      | _, _ => s.unitError u cause (errorAt u).1 (errorAt u).2 0 false

/-- R388: a stopped core has nothing left to do: its dirty lines are written back and its transactions
are over. -/
def Chip.coreQuiet (s : Chip) (c m : Nat) : Bool :=
  let x := s.core c m
  x.absent || x.st == 0 || (x.flush != 2 && !x.dirty && x.miss.isNone)

/-- R388: the core is at rest. -/
def Chip.coreRests (s : Chip) (c m : Nat) : Chip :=
  let x := s.core c m
  if x.flush = 3 then s.setCore c m { x with flush := 0 } else s

/-- R388: the words the frog still has to post can be written. -/
def Chip.frogQuiet (s : Chip) (c : Nat) : Bool := (s.cl c).words.isEmpty || !s.stFrozen c

/-- R65: the frog's words are written. -/
def Sys.frogRests (y : Sys) (c : Nat) : Sys :=
  let ws := (y.chip.cl c).words
  forEachS ws (fun w y => y.stWrite c w.1 w.2)
    (onChip (fun s => s.setCl c { s.cl c with words := [] }) y)

/-- R129, R388: no block of the engine is in flight, and its words can be written. -/
def Chip.copyQuiet (s : Chip) (c e : Nat) : Bool :=
  let x := s.eng c e
  (x.descs.all fun d => d.fly.isEmpty && !s.wordHeld c d) && (x.heads.isEmpty || !s.stFrozen c)

/-- R123, R129: the head of a program that a fence discards: with CMPL = 1 it posts FENCED with no block;
one that fails its checks posts nothing. -/
def Sys.headFenced (y : Sys) (c off : Nat) : Sys :=
  let (b, bad, y) := y.stRead c off 32
  let ws := wordsOf b
  if copyBad c off ws ∨ bad.isEmpty = false then y
  else y.copyWordAt c (descOf y.chip c 0 off ws) (copyWord .fenced false (dw ws 0 3 0) (dw ws 1 15 0) 0)

/-- R129: the engine answers its started descriptors and its queued programs. -/
def Sys.copyRests (y : Sys) (c e : Nat) : Sys :=
  let x := y.chip.eng c e
  let ds := x.descs.filter fun d => d.forced == some Status.fenced
  let y := forEachS ds (fun d y => y.completeDesc c e { d with fails := [(0, .fenced)] }) y
  let y := forEachS x.heads (fun a y => y.headFenced c a) y
  onChip (fun s => s.setEng c e { s.eng c e with descs := [], heads := [] }) y

/-- R388: everything in a cluster is at rest. -/
def Chip.clusterQuiet (s : Chip) (c : Nat) : Bool :=
  ((List.range 129).all fun m => s.coreQuiet c m) && s.frogQuiet c && s.copyQuiet c 0 && s.copyQuiet c 1

/-- R387, R388: every effect of the fence of a unit has taken place. -/
def Chip.unitQuiet (s : Chip) : UnitId → Bool
  | .newt c m => s.coreQuiet c m
  | .frog c => s.frogQuiet c
  | .copy c e => s.copyQuiet c e
  | .cluster c => s.clusterQuiet c
  | .part p => (s.clustersOf p).all fun c => s.contained1 (.cluster c)
  | _ => true

/-- R65, R129: what a unit still posts before it is contained. -/
def Sys.unitRests (y : Sys) : UnitId → Sys
  | .newt c m => onChip (fun s => s.coreRests c m) y
  | .frog c => y.frogRests c
  | .copy c e => y.copyRests c e
  | .cluster c =>
    let y := onChip (forEach (List.range 129) fun m s => s.coreRests c m) y
    ((y.frogRests c).copyRests c 0).copyRests c 1
  | _ => y

/-- FENCE_CONTAINED (R387, R388). -/
def execFenceContained (u : UnitId) : State → Host.Outcome State Fault Refusal :=
  liftS fun y =>
    if y.chip.fenced1 u ∧ y.chip.contained1 u = false ∧ y.chip.unitQuiet u then
      onChip (fun s => s.markContained u) (y.unitRests u)
    else y

/-- R390: the conditions of a fence's cause for lifting it. -/
def Chip.mayLift (s : Chip) (f : FenceRec) : Bool :=
  f.contained && match f.cause with
    | .order => true
    | .data | .miss | .widen => f.resetDone
    | .link => f.resetDone && match f.unit with
      | .link l => s.fld (lkPg l + 0x44) 2 0 == 4
      | _ => true
    | .none | .logic => false

/-- SUP_UNFENCE (R390, R391, R394, R406): lifts the fence, or refuses. -/
def execSupUnfence (v : Word) : State → Host.Outcome State Fault Refusal :=
  liftC fun s =>
    let lift := (unitOfKind (Word.bits v 3 0) (Word.bits v 23 8)).bind fun u =>
      match s.errs.fences.find? fun f => f.unit == u with
      | some f =>
        if s.mayLift f ∧ ((s.chainOf u).drop 1).all fun w => !s.fenced1 w then some u else none
      | none => none
    match lift with
    | some u => (s.liftFence u).setFld (fqPg + 0x74) 1 0 1
    | none => (s.setFld (fqPg + 0x74) 1 0 2).notice fqPg 2

/-- RECONCILE (R394). -/
def execReconcile : State → Host.Outcome State Fault Refusal := liftC Chip.reconcile

/-- SUP_FQ_POP (R400): the oldest record is freed. -/
def execSupFqPop : State → Host.Outcome State Fault Refusal :=
  liftC fun s => { s with errs.fq := s.errs.fq.drop 1 }

/-! ## Injected errors (R398, R508) -/

/-- R386, R508: what an ERR_STAT bit stands for: a notice, a corrected error, an error that fences a
unit, one whose item the code of R399 names and that fences nothing, one of a partition, UE-CHIP. -/
inductive Rep where
  | note
  | ce
  | fence (u : UnitId) (cause : Cause)
  | item (kind unit : Nat)
deriving DecidableEq, Repr

/-- R508: the kind of bit b of a page: block type and instance. None: the page has no such bit. -/
def repOf (ty n b : Nat) : Option Rep :=
  let notes := fun k => if b < k then some Rep.note else none
  match ty, b with
  | 0x10, 0 | 0x10, 1 | 0x11, 1 => some .ce
  | 0x22, 1 => some (.fence (.frog n) .data)
  | 0x21, 1 => some (.fence (.copy (n / 2) (n % 2)) .data)
  | 0x23, 0 | 0x24, 0 | 0x24, 1 | 0x25, 0 | 0x26, 0 => some .ce
  | 0x23, 1 => some (.item 12 n)
  | 0x25, 1 => some (.fence (.cluster n) .data)
  | 0x26, 1 => some (.fence (.newt (n / 4) (32 * (n % 4))) .data)
  | 0x26, 2 => none
  | 0x30, 1 => some (.item 11 n)
  | 0x30, 4 => some (.fence (.mc n) .logic)
  | 0x40, 0 | 0x40, 1 => some .ce
  | 0x40, 3 => some (.fence (.link n) .link)
  | 0x50, 5 | 0x60, 3 | 0x61, 0 | 0x70, 0 | 0x72, 4 | 0x73, 1 => some .ce
  | 0x50, 6 => some (.item 15 0)
  | 0x60, 4 => some (.item 0 0)
  | 0x61, 1 | 0x73, 0 | 0x73, 2 | 0x70, 2 => some (.item 10 0)
  | 0x70, 1 | 0x70, 4 => some (.item 13 0)
  | 0x71, 0 | 0x71, 1 | 0x73, 3 => some (.item 11 0)
  | 0x72, 0 | 0x72, 5 => some (.item 14 0)
  | 0x90, 2 => some (.fence (.cv n) .data)
  | 0x91, 0 => some (.item 0 0)
  | 0xA0, 0 => some .ce
  | 0x01, _ => notes 1
  | 0x11, _ => notes 3
  | 0x20, _ => notes 2
  | 0x21, _ => notes 5
  | 0x22, _ => notes 4
  | 0x23, _ => notes 3
  | 0x25, _ => notes 3
  | 0x30, _ => notes 7
  | 0x40, _ => notes 10
  | 0x50, _ => notes 7
  | 0x53, _ => notes 3
  | 0x60, _ => notes 5
  | 0x62, _ => notes 3
  | 0x63, _ => notes 2
  | 0x65, _ => notes 3
  | 0x70, _ => notes 5
  | 0x72, _ => notes 6
  | 0x90, _ => notes 4
  | 0xA0, _ => notes 7
  | 0xB0, _ => notes 4
  | 0xB1, _ => notes 1
  | 0xB2, _ => notes 3
  | _, _ => none

/-- R398: the event of a bit is reported as if detected. -/
def Chip.report (s : Chip) (pg b : Nat) : Rep → Chip
  | .note => s.noticeInj pg b
  | .ce => s.countErr pg b 0 0 true
  | .fence u c => s.unitError u c pg b 0 true
  | .item k u => s.itemErr pg b 0 { faultOf pg 1 b with inj := true, kind := k, unit := u }

/-- The block type and instance of a page, where the address is that of a block's first page. -/
def headPage (pg : Nat) : Option PageRef :=
  match pageRef pg with
  | some r => if r.off = 0 then some r else none
  | none => none

/-- ERR_INJECT_REPORT (R398, R508). -/
def execErrInjectReport (page : Nat) (bit : Fin 32) : State → Host.Outcome State Fault Refusal :=
  liftC fun s => match (headPage page).bind fun r => repOf r.ty r.inst bit with
    | some k => s.report page bit k
    | none => s

/-- R183, R398: an injection of kind 2 or 3 is armed: for the next code block a controller writes, or
the next protected word the page's unit writes. -/
def Chip.arm (s : Chip) (page bit kind : Nat) : Chip :=
  match headPage page with
  | none => s
  | some r =>
    if r.ty = 0x30 then
      { s with mcs := KMap.put s.mcs {} r.inst { KMap.at s.mcs {} r.inst with inject := kind } }
    else { s with errs.armed := (s.errs.armed.filter fun a => !(a.page == page)) ++ [⟨page, bit, kind⟩] }

/-- ERR_INJECT_FLIP_ONE (R183, R398). -/
def execErrInjectFlipOne (page : Nat) (bit : Fin 32) : State → Host.Outcome State Fault Refusal :=
  liftC fun s => s.arm page bit 2

/-- ERR_INJECT_FLIP_TWO (R183, R398). -/
def execErrInjectFlipTwo (page : Nat) (bit : Fin 32) : State → Host.Outcome State Fault Refusal :=
  liftC fun s => s.arm page bit 3

/-- R118, R500: a store page without FREEZE gives grants: the order point's transactions complete, and
completion words that waited for the store are written. -/
def Sys.thaw (y : Sys) (r : PageRef) : Sys :=
  if r.ty ≠ 0x23 ∨ y.chip.stFrozen r.inst = true then y
  else forEachS (y.chip.cls.map (·.1)) (fun c y => (y.copySettle c 0).copySettle c 1) (y.ringDrain r.inst)

/-- FREEZE (R321, R500, R501): BLK_CTRL.FREEZE of a page on which it acts. -/
def execFreeze (page : Nat) (on : Bool) : State → Host.Outcome State Fault Refusal :=
  liftS fun y => match headPage page with
    | some r =>
      if freezeActs r.ty then (onChip (fun s => s.setFlag (blkCtrl page) 1 on) y).thaw r else y
    | none => y

/-! ## Check-value units (R402 to R407) -/

def Chip.cv (s : Chip) (u : Nat) : Cv := KMap.at s.errs.cvs {} u

def Chip.setCv (s : Chip) (u : Nat) (v : Cv) : Chip :=
  { s with errs.cvs := KMap.put s.errs.cvs {} u v }

/-- R407: the stream staged in the page of unit u. -/
def Chip.cvStaged (s : Chip) (u : Nat) : CvStream :=
  let pg := cvPg u
  { off := (s.reg (pg + 0x40)).toNat + 2 ^ 32 * s.fld (pg + 0x44) 7 0
    len := max (s.reg (pg + 0x48)).toNat 1
    poly := s.fld (pg + 0x4C) 1 0
    fabric := s.flag (pg + 0x4C) 2
    cmp := s.flag (pg + 0x4C) 3
    part := s.fld (pg + 0x4C) 13 8
    tag := s.fld (pg + 0x4C) 31 16
    exp := s.pair (pg + 0x50) }

/-- CV_POST (R387, R403, R407): a post to a fenced unit is discarded. -/
def execCvPost (u : CvNo) : State → Host.Outcome State Fault Refusal :=
  liftC fun s =>
    let v := s.cv u
    if s.isFenced (.cv u) then s
    else if 8 ≤ v.queue.length then s.notice (cvPg u) 1
    else s.setCv u { v with queue := v.queue ++ [s.cvStaged u] }

/-- CV_STREAM_START (R402, R403, R501): the next queued stream, while the unit is enabled. -/
def execCvStreamStart (u : CvNo) : State → Host.Outcome State Fault Refusal :=
  liftC fun s =>
    let v := s.cv u
    match v.run, v.queue with
    | none, r :: l =>
      if s.flag (blkCtrl (cvPg u)) 0 then
        (s.setCv u { queue := l, run := some r, pos := 0, ended := none
                     crc := crcStart (crcAlg r.poly) r.fabric r.off r.tag }).cvNext u
      else s
    | _, _ => s

/-- R404, R407: the running stream ends. -/
def Chip.cvFinish (s : Chip) (u : Nat) (v : Cv) (r : CvStream) (st : Status) : Chip :=
  let pg := cvPg u
  let s := s.setCv u { queue := v.queue }
  let s := (s.setFld (pg + 0x5C) 3 0 (stCode st)).wrapBy (pg + 0x68) 1
  match st with
  | .ok =>
    let res := v.crc ^^^ (crcAlg r.poly).fin
    let exp := r.exp % 2 ^ (crcAlg r.poly).w
    let s := s.setPair (pg + 0x60) res
    if r.cmp = false then s
    else if res = exp then s.setFlag (pg + 0x5C) 4 true
    else ((s.setFlag (pg + 0x5C) 4 false).notice pg 0).bump (pg + 0x6C)
  | .ue => s.notice pg 2
  | .noAccess => s.notice pg 3
  | _ => s

/-- CV_STREAM_END (R404): every block is read, or one has failed. -/
def execCvStreamEnd (u : CvNo) : State → Host.Outcome State Fault Refusal :=
  liftC fun s =>
    let v := s.cv u
    match v.run, v.ended with
    | some r, some st => s.cvFinish u v r st
    | some r, none => if r.len ≤ v.pos then s.cvFinish u v r .ok else s
    | none, _ => s

/-- CV_RESET (R390, R501): BLK_CTRL.SOFT_RESET of the page: the unit's streams are dropped. -/
def execCvReset (u : CvNo) : State → Host.Outcome State Fault Refusal :=
  liftC fun s =>
    let s := { s with accs := s.accs.filter fun a => match a.src with
      | .cv v _ => !(v == u.val)
      | _ => true }
    (s.setCv u {}).resetDoneFor fun x => x == .cv u

end Sys2Proof.Machine
end

