-- ==== Sys2Proof/Machine/Resets.lean ====
section
/-! DEFINITION. Delivery of event records, and the resets of clusters and partitions (R369 to R378,
R382). -/

namespace Sys2Proof.Machine

/-! ## Events (R371, R372) -/

/-- VECTOR_SEAL_TIMEOUT (R371): TIME µs after FIRST the pending record is sealed. -/
def execVectorSealTimeout (p : PartNo) (v : Nat) : State → Host.Outcome State Fault Refusal :=
  liftC fun s => match s.evPend p v with
    | some r => if r.time ≠ 0 ∧ r.first + 1000 * r.time ≤ s.now then s.sealVec p v else s
    | none => s

/-- PT_VEC_DISABLE (R371, R373): ENABLE is cleared; the pending record is sealed at once. -/
def execPtVecDisable (p : PartNo) (v : Nat) : State → Host.Outcome State Fault Refusal :=
  liftC fun s => if 256 ≤ v then s else (s.setFlag (vecReg p v 0) 0 false).sealVec p v

/-- R372: the record goes where another goes: by one path, to one host. -/
def EvRec.sameDest (a b : EvRec) : Bool := a.path == b.path && a.host == b.host

/-- Records in ascending vector order. -/
def insertRec (r : Nat × EvRec) : List (Nat × EvRec) → List (Nat × EvRec)
  | [] => [r]
  | x :: l => if r.2.vec < x.2.vec then r :: x :: l else x :: insertRec r l

/-- R370: the header of a fabric EVENT of n records. -/
def eventHdr (n : Nat) : PktHdr := { hdr0 with typ := 0xA, srcPort := 0x7E, len := 32 * n }

/-- R372: records of one destination leave in one message; each event is counted as sent. -/
def Chip.sendEvents (s : Chip) (rs : List EvRec) : Chip :=
  let body := rs.flatMap evBytes
  let sent := forEach rs fun r s => s.wrapBy (ptPg r.part + 0x54) r.count
  match rs with
  | [] => s
  | r :: _ =>
    if r.path = 1 then
      let ok := Word.bit (KMap.at s.hloc 0 r.host) 31
      let s := s.toHost r.host (eventHdr rs.length) body
      if ok then sent s else s
    else match s.hostSess r.host with
      | none => s.bumpBy (enPg + 0xBC) rs.length
      | some i =>
        let (n, s) := s.pushMsg i false body
        sent (s.xhtSend i (msgHdr i false false n) body)

/-- EVENT_DELIVER (R372): the records sealed in the oldest 128-tick cell for the destination of its
first record leave in one message, once the cell is over. -/
def execEventDeliver : State → Host.Outcome State Fault Refusal :=
  liftC fun s => match s.parts.sealed with
    | [] => s
    | (t, r) :: _ =>
      if s.now / 128 ≤ t / 128 then s
      else
        let hit := fun x : Nat × EvRec => x.1 / 128 == t / 128 && x.2.sameDest r
        let rs := ((s.parts.sealed.filter hit).foldr insertRec []).take 256
        Chip.sendEvents { s with parts.sealed := s.parts.sealed.filter fun x => !rs.contains x } (rs.map (·.2))

/-! ## Cluster reset (R375 to R377, R382) -/

/-- R376: the cluster event queue and the mailbox are cleared; a broadcast in progress ends. -/
def Chip.clearQueues (s : Chip) (c : Nat) : Chip :=
  let n := (s.cl c).evq.length
  let s := s.setCl c { s.cl c with evq := [], bcast := [] }
  let s := s.bumpBy (ptPg (((s.ownerOf c).getD 0) / 32) + 0x58) n
  let s := s.bumpBy (clPg c + 0x48) n
  let s := (s.setFlag (nwPg c + 0x8C) 0 false).setFlag (nwPg c + 0x8C) 2 false
  forEach (List.range 17) (fun i s => s.setReg (nwPg c + 0xC0 + 4 * i) 0) s

/-- R376: the TLB is emptied; walks in flight go, a preload ends RESET. -/
def Chip.clearTlb (s : Chip) (c : Nat) : Chip :=
  let s := s.tlbDrop c fun _ => true
  let s := s.setCl c { s.cl c with walks := [] }
  let s := { s with accs := s.accs.filter fun a => match a.src with
    | .walk d _ => !(d == c)
    | _ => true }
  if s.flag (tlbPg c + 0x54) 31 then s.preEnds c 0xB else s

/-- CLUSTER_RESET (R375, R376, R382): none where the cluster, or the partition of its context, is in a
reset. -/
def execClusterReset (c : ClusterNo) : State → Host.Outcome State Fault Refusal :=
  liftS fun y =>
    let s := y.chip
    let inPart : Bool := match s.ownerOf c with
      | some x => s.partResetting (x / 32)
      | none => false
    if s.clResetting c ∨ inPart = true then y
    else
      let s := { s with parts.clReset := KMap.put s.parts.clReset none c (some s.now) }
      let s := s.setFlag (clPg c + 0x40) 0 true
      let s := s.endReqs (s.needsCl c) .reset
      let s := ((s.clusterStop c .reset 5).clearTlb c).clearQueues c
      xcEnds c { y with chip := s }
where
  /-- R128: the XC descriptors that run into the cluster end RESET. -/
  xcEnds (c : Nat) (y : Sys) : Sys :=
    forEachS (y.chip.cls.map (·.1)) (fun d y =>
      let y := onChip (fun s => (s.xcReset c d 0).xcReset c d 1) y
      (y.copySettle d 0).copySettle d 1) y

/-- R376: a newt has come to rest in OFF, or, on a bad dirty line, fenced as it reached OFF. -/
def Chip.newtOff (s : Chip) (c m : Nat) : Bool :=
  let x := s.core c m
  x.absent || (x.flush != 2 && (x.st == 0 || (x.st == 5 && s.fenced1 (.newt c m))))

/-- R100, R376: every newt has come to rest, and the cluster control core has nothing left to write
back. -/
def Chip.coresOff (s : Chip) (c : Nat) : Bool :=
  ((List.range 128).all fun m => s.newtOff c m) && (s.resetOver c 128 || s.newtOff c 128)

/-- R127, R376: no copy block of the cluster is in flight. -/
def Chip.copiesRest (s : Chip) (c : Nat) : Bool :=
  [0, 1].all fun e => (s.eng c e).descs.all fun d => d.fly.isEmpty

/-- R100, R102, R376: the cluster control core is OFF, its registers reset, and starts at 0x0000_0000 of
its instruction SRAM. -/
def Chip.startCcc (s : Chip) (c : Nat) : Chip :=
  let s := s.coreOff c 128
  s.setCore c 128 { s.core c 128 with st := 2, pc := 0, left := s.ref }

/-- CLUSTER_RESET_DONE (R376, R390): the cluster control core has restarted. -/
def execClusterResetDone (c : ClusterNo) : State → Host.Outcome State Fault Refusal :=
  liftC fun s =>
    if s.clResetting c && s.coresOff c && s.copiesRest c then
      let s := s.startCcc c
      let s := { s with parts.clReset := KMap.put s.parts.clReset none c none }
      let s := ((s.setFlag (clPg c + 0x40) 0 false).bump (clPg c + 0x44)).notice (clPg c) 0
      s.resetDoneFor fun u => u == .cluster c || u == .frog c || u == .copy c 0 || u == .copy c 1
    else s

/-! ## Partition reset (R378, R382) -/

/-- R378 step 1: every pending vector record of partition p is sealed. -/
def Chip.sealAll (s : Chip) (p : Nat) : Chip :=
  forEach (s.parts.pend.filter fun e => e.1 / 256 == p) (fun e s => s.sealVec p (e.1 % 256)) s

/-- R378 steps 2 and 4: a context of a partition in reset is killed and released. -/
def Chip.resetCtx (s : Chip) (x : Nat) : Chip :=
  let s := s.killCtx x (killOf 9)
  if (s.ctxAt x).state = 4 then s.releaseCtx x none else s

/-- R378 step 5: the extents partition p owns. -/
def Chip.ownedExts (s : Chip) (p : Nat) : List Nat :=
  (s.rights.exts.filter fun e => s.ownedBy p e.1).map (·.1)

/-- R378 step 3: no command channel of partition p has a command that is being carried out, or one that is
queued. -/
def Chip.channelsDone (s : Chip) (p : Nat) : Bool :=
  (s.eth.cmdWin.all fun e => e.1 / 16 != p || e.2.ents.all (·.sent)) &&
  !s.eth.ingress.any fun e => decide (e.chan < 16) && s.sessPart e.session == p

/-- R375, R378: steps 1 and 2, and 5 with SCRUB. Commands that reach a channel from then on answer RESET
once the one it carries out has its answer (step 3). -/
def Chip.partReset (s : Chip) (p : Nat) : Chip :=
  if p = 0 || s.partResetting p then s
  else
    let s := { s with parts.resetting := KMap.put s.parts.resetting none p (some s.now) }
    let s := (s.setFlag (ptPg p + 0x44) 0 true).sealAll p
    let s := s.endReqs (fun r => r.part == p) .reset
    let s := forEach (List.range 32) (fun k s => s.resetCtx (32 * p + k)) s
    if s.flag (ptPg p + 0x40) 0 && !(s.ownedExts p).isEmpty
    then s.extReturnAt none p (s.ownedExts p) else s

/-- PARTITION_RESET (R375, R378, R382). -/
def execPartitionReset (p : PartNo) : State → Host.Outcome State Fault Refusal :=
  liftC fun s => s.partReset p

/-- PARTITION_RESET_DONE (R345, R378, R390): every slot is FREE and every channel has finished its command:
the windows of its command channels are reset, the partition runs, its event is raised. -/
def execPartitionResetDone (p : PartNo) : State → Host.Outcome State Fault Refusal :=
  liftC fun s => match KMap.at s.parts.resetting none p with
    | none => s
    | some t =>
      if ((List.range 32).all fun k => (s.ctxAt (32 * p + k)).state == 0) ∧ s.channelsDone p = true then
        let s := { s with eth.cmdWin := s.eth.cmdWin.filter fun e => !(e.1 / 16 == p) }
        let s := { s with parts.resetting := KMap.put s.parts.resetting none p none }
        let s := ((s.setFlag (ptPg p + 0x44) 0 false).bump (ptPg p + 0x48)).setPair (ptPg p + 0x4C) t
        (s.pageEventD (ptPg p) 0 (s.reg (ptPg p + 0x48)).toNat 0).resetDoneFor fun u => u == .part p
      else s

end Sys2Proof.Machine
end

