-- ==== Sys2Proof/Machine/Shape.lean ====
section
/-! DEFINITION. Shapers with their timing wheels, and the gate lists (R323 to R332). -/

namespace Sys2Proof.Machine

/-! ## Shapers (R324 to R326) -/

def Chip.shaper (s : Chip) (port p : Nat) : Shaper := KMap.at s.shapers {} (64 * port + p)

def Chip.setShaper (s : Chip) (port p : Nat) (x : Shaper) : Chip :=
  { s with shapers := KMap.put s.shapers {} (64 * port + p) x }

/-- R331: SHP_CFG, SHP_RATE and SHP_BURST as staged for partition p. -/
def Chip.shpWords (s : Chip) (eth : Bool) (p : Nat) : List Word :=
  KMap.at s.shpStage (if eth then [0x1402, 0, 9236] else [0x0002, 0, 2176]) (p + if eth then 64 else 0)

def Chip.setShpWords (s : Chip) (eth : Bool) (p : Nat) (l : List Word) : Chip :=
  { s with shpStage := KMap.put s.shpStage (if eth then [0x1402, 0, 9236] else [0x0002, 0, 2176])
                         (p + if eth then 64 else 0) l }

/-- R324: TOK at slot k. -/
def tokAt (x : Shaper) (k : Nat) : Int := min (1000 * x.burst) (x.tok + x.rate * ((k - x.slot : Nat) : Int))

/-- R324: LEN of a packet: a frame's length, or 128 for each flit. -/
def shapedLen (h : Held) : Nat := if h.port = 96 then h.len else 128 * flitsOf h.len

/-- R327: a released packet joins its queue. -/
def Chip.joinQueue (s : Chip) (h : Held) : Chip :=
  if h.port = 96 then s.ethSend h.part h.len h.what none else s.emit h.what

/-- The packets of partition p that wait on its shaper at a port, oldest first. -/
def Chip.waiting (s : Chip) (port p : Nat) : List Held :=
  s.held.filter fun h => !h.free && h.port == port && h.part == p

/-- R324, R325: the partition's packets are examined at slot k, each released one making the next the
head; a head that may not leave is entered on the wheel. -/
def Chip.examine (port p k : Nat) : List Held → Chip → Chip
  | [], s => s.setShaper port p { s.shaper port p with entry := none }
  | h :: l, s =>
    let x := s.shaper port p
    let t := tokAt x k
    if 0 ≤ t then
      let s := s.setShaper port p { x with tok := t - 1000 * ((shapedLen h + x.ovh : Nat) : Int), slot := k }
      Chip.examine port p k l (Chip.joinQueue { s with held := s.held.erase h } h)
    else
      let w := ceilDiv (-t).toNat (max x.rate 1)
      s.setShaper port p { x with
        tok := t, slot := k, entry := some (k + min w 4095), count := min (x.count + 1) 0xFFFFFFFF }

/-- R326: a configuration write takes effect at slot k: SHP_CFG, SHP_RATE, SHP_BURST. An entry keeps
its slot; with EN clear every waiting packet is released. -/
def Chip.applyShp (s : Chip) (port p k : Nat) (cfg rate burst : Word) : Chip :=
  let x := s.shaper port p
  let b := max (Word.bits burst 23 0) 1
  let s := s.setShaper port p { x with
    en := Word.bit cfg 0
    rate := max (Word.bits rate 21 0) 1
    burst := b
    ovh := Word.bits cfg 15 8
    tok := if Word.bit cfg 1 then 1000 * b else 0
    slot := k
    entry := if Word.bit cfg 0 then x.entry else none
    cfgDue := none }
  if Word.bit cfg 0 then s
  else forEach (s.waiting port p) (fun h s => Chip.joinQueue { s with held := s.held.erase h } h) s

/-- R325, R326: partition p's part of slot k: its release, then a configuration write. -/
def Chip.wheelPart (s : Chip) (port p k : Nat) : Chip :=
  let x := s.shaper port p
  let s := match x.entry with
    | some e => if e ≤ k then Chip.examine port p k (s.waiting port p) s else s
    | none => s
  match x.cfgDue with
  | some (d, c, r, b) => if d ≤ k then s.applyShp port p k c r b else s
  | none => s

/-- WHEEL_SLOT (R324 to R326): port 0 to 95 a link, 96 the Ethernet port: the entries of the wheel slot
the tick lies in, and any before it, in ascending partition order. -/
def execWheelSlot (port : Nat) : State → Host.Outcome State Fault Refusal :=
  liftC fun s => forEach (List.range 64) (fun p s => s.wheelPart port p (s.now / 8)) s |>.reapReqs

/-- R326: the ports a shaping page's partition configuration rules. -/
def shpPorts (eth : Bool) : List Nat := if eth then [96] else List.range 96

/-- SHP_CFG (R326, R331): the staged configuration of the selected partition is to be applied at the
next wheel slot of each port. -/
def execShpCfg (eth : Bool) (v : Word) : State → Host.Outcome State Fault Refusal :=
  liftC fun s =>
    let p := s.fld (shpPg eth + 0x40) 5 0
    let l := s.shpWords eth p
    let s := s.setShpWords eth p (v :: l.drop 1)
    forEach (shpPorts eth) (fun port s => s.setShaper port p
      { s.shaper port p with cfgDue := some (s.now / 8 + 1, v, l.getD 1 0, l.getD 2 0) }) s

/-! ## Gate lists (R328 to R330) -/

/-- R332: the list a gate page selects. -/
def Chip.gateSel (s : Chip) (eth : Bool) : Nat := if eth then 4 else s.fld (gatePg false + 0x40) 1 0

/-- R328: entry k of an administrative list; STATE is 0xFF at reset. -/
def adminEntry (g : Gate) (k : Nat) : Word := KMap.at g.admin 0xFF k

/-- R330: the cause a commit is refused for; 0 none. -/
def commitErr (g : Gate) (now : Nat) : Nat :=
  if g.take < now + 10000 then 1
  else if g.nent = 0 ∨ 256 < g.nent then 2
  else if g.cycle < 128 ∨ 1000000000 < g.cycle then 3
  else if (List.range g.nent).any fun k => decide (Word.bits (adminEntry g k) 31 8 < 8) then 4
  else if g.pend.isSome then 5
  else 0

/-- R330: the list a commit fixes; DISABLE commits one in which every gate is open. -/
def committed (g : Gate) : GateOper :=
  if g.disable then ⟨[0xFFFFFFFF], 1000000000, g.take⟩
  else ⟨(List.range g.nent).map (adminEntry g), g.cycle, g.take⟩

/-- GATE_COMMIT (R330). -/
def execGateCommit (eth : Bool) : State → Host.Outcome State Fault Refusal :=
  liftC fun s =>
    let i := s.gateSel eth
    let g := s.gate i
    let e := commitErr g s.now
    if e = 0 then s.setGate i { g with pend := some (committed g, g.take) }
    else (s.setGate i { g with err := e }).notice (gatePg eth) 0

/-- GATE_ABORT (R330). -/
def execGateAbort (eth : Bool) : State → Host.Outcome State Fault Refusal :=
  liftC fun s => s.setGate (s.gateSel eth) { s.gate (s.gateSel eth) with pend := none }

/-- The number of a list of a page: 4 for the Ethernet port's. -/
def listNo (eth : Bool) (list : Nat) : Option Nat :=
  if eth then (if list = 0 then some 4 else none) else if list < 4 then some list else none

/-- GATE_TAKEOVER (R330): at GATE_TAKE the committed list is in force from its entry 0. -/
def execGateTakeover (eth : Bool) (list : Nat) : State → Host.Outcome State Fault Refusal :=
  liftC fun s => match listNo eth list with
    | none => s
    | some i => match (s.gate i).pend with
      | none => s
      | some (o, t) =>
        if t ≤ s.now then
          let s := s.setGate i { s.gate i with oper := some o, cur := 0, pend := none }
          (s.notice (gatePg eth) 2).tryEth
        else s

/-- GATE_ENTRY_CHANGE (R328, R329): the entry the tick lies in is the current one; gates it opens let
waiting frames leave. -/
def execGateEntryChange (eth : Bool) (list : Nat) : State → Host.Outcome State Fault Refusal :=
  liftC fun s => match listNo eth list with
    | none => s
    | some i => match (s.gate i).oper with
      | none => s
      | some o =>
        let k := pieceAt (gatePieces o.entries o.cycle) (gateOffset o s.now)
        (s.setGate i { s.gate i with cur := k }).tryEth

end Sys2Proof.Machine
end

