-- ==== Sys2Proof/Machine/FabricTime.lean ====
section
/-! DEFINITION. Fabric time: the parent, its offset, stepping, locking and holdover, the exchange of
time records, and TIME (R300 to R304). -/

namespace Sys2Proof.Machine

def Chip.lk (s : Chip) (l : Nat) : Lnk := KMap.at s.links {} l

def Chip.setLk (s : Chip) (l : Nat) (x : Lnk) : Chip := { s with links := KMap.put s.links {} l x }

/-- R273: LK_STAT.STATE: 0 OFF, 1 TRAIN, 2 LOCK, 3 INIT, 4 UP, 5 FAILED. -/
def Chip.lkState (s : Chip) (l : Nat) : Nat := s.fld (lkPg l + 0x44) 2 0

def Chip.setLkState (s : Chip) (l v : Nat) : Chip := s.setFld (lkPg l + 0x44) 2 0 v

/-- R301: links that exchange time: FABRIC and MIRROR links that are UP. -/
def Chip.timeLink (s : Chip) (l : Nat) : Bool := s.lkState l == 4 && decide (2 ≤ (s.linkRole l).1)

/-- R302: this chip is the master. -/
def Chip.isMaster (s : Chip) : Bool := s.flag (ftPg + 0x40) 0

/-- R302: FT_STAT.STATE: 0 FREE, 1 ACQUIRE, 2 LOCKED, 3 HOLDOVER. -/
def Chip.ftState (s : Chip) : Nat := s.fld (ftPg + 0x48) 1 0

def Chip.setFtState (s : Chip) (v : Nat) : Chip := s.setFld (ftPg + 0x48) 1 0 v

/-- R302, R313: the first listed parent link that is UP and whose partner reports LOCKED. -/
def Chip.ftParent (s : Chip) : Option Nat :=
  (([0, 1, 2, 3].filter fun k => s.flag (ftPg + 0x44) (8 * k + 7)).map fun k =>
    s.fld (ftPg + 0x44) (8 * k + 6) (8 * k)).find? fun l => s.timeLink l && (s.lk l).nbrLocked

/-- R302, R313: the parent link in use and the depth. -/
def Chip.setParent (s : Chip) (l : Nat) : Chip :=
  (s.setFld (ftPg + 0x48) 8 2 l).setFld (ftPg + 0x48) 13 9 (min ((s.lk l).nbrDepth + 1) 31)

/-- A tick or slot number moved by d. -/
def moved (d : Int) (t : Nat) : Nat := ((t : Int) + d).toNat

/-- R162, R302: at a step of fabric time a controller moves to the common origin: slot numbers move by k,
ticks by d. -/
def Mc.moved (m : Mc) (d k : Int) : Mc :=
  { m with
    hist := m.hist.map fun h => (Machine.moved k h.1, h.2)
    lastSlot := m.lastSlot.map (Machine.moved k)
    buckets := m.buckets.map fun b => (b.1, b.2.map fun x => { x with slot := Machine.moved k x.slot })
    spaced := m.spaced.map fun v => { v with slot := Machine.moved k v.slot }
    throttled := m.throttled.map fun t => (t.1, Machine.moved d t.2)
    idleSince := Machine.moved d m.idleSince
    rateAt := Machine.moved d m.rateAt
    leakTick := Machine.moved d m.leakTick }

/-- R302: a step of fabric time is no time that passes for what a link measures. -/
def Lnk.moved (x : Lnk) (d : Int) : Lnk :=
  { x with
    timerAt := Machine.moved d x.timerAt
    uAt := Machine.moved d x.uAt
    holdAt := x.holdAt.map (Machine.moved d)
    owed := x.owed.map fun e => (e.1, e.2.map (Machine.moved d))
    ask := x.ask.map fun a => { a with start := Machine.moved d a.start }
    errs := x.errs.map (Machine.moved d)
    lockAt := Machine.moved d x.lockAt
    initAt := Machine.moved d x.initAt
    askedAt := Machine.moved d x.askedAt }

/-- R302: fabric time is stepped to n. R101: a step back leaves the clusters' tick copies where they are
until fabric time reaches them. -/
def Chip.stepTime (s : Chip) (n : Nat) : Chip :=
  let d : Int := (n : Int) - s.now
  let k : Int := (s.slotAt n : Int) - s.slotAt s.now
  { s with
    now := n
    ft.hold := if n < s.now then max s.now s.ft.hold else s.ft.hold
    mcs := s.mcs.map fun e => (e.1, e.2.moved d k)
    links := s.links.map fun e => (e.1, e.2.moved d) }

/-- R302: a parent is gained: the first one since chip reset steps fabric time once; the chip enters
ACQUIRE. -/
def Chip.gainParent (s : Chip) (l : Nat) : Chip :=
  let d := ((s.lk l).ofs + 8) / 16
  let s := if s.ft.had then s
    else Chip.stepTime { s with ft.had := true, ft.debt := (s.lk l).ofs - 16 * d }
      ((s.now : Int) + d).toNat
  ({ s with ft.run := 0 }.setFtState 1).setParent l

/-- R302: no usable parent: HOLDOVER. -/
def Chip.loseParent (s : Chip) : Chip :=
  let was := s.ftState
  let s := ({ s with ft.run := 0, ft.debt := 0 }.setFtState 3).notice ftPg 1
  if was = 2 then s.notice ftPg 2 else s

/-- R302: the parent is chosen anew. -/
def Chip.ftEval (s : Chip) : Chip :=
  if s.isMaster then s
  else match s.ftParent with
    | none => if s.ftState = 1 ∨ s.ftState = 2 then s.loseParent else s
    | some l =>
      if s.ftState = 0 ∨ s.ftState = 3 then s.gainParent l
      else if s.fld (ftPg + 0x48) 8 2 = l then s.setParent l
      else { s with ft.run := 0 }.setParent l

/-- R302: FT_CTRL.MASTER is written. The master's time is its own and needs no parent; one that ceases
to be master follows a parent, or holds over. -/
def Chip.setMaster (s : Chip) (b : Bool) : Chip :=
  if b = s.isMaster then s
  else
    let s := s.setFlag (ftPg + 0x40) 0 b
    if b then ({ s with ft.debt := 0 }.setFtState 2).setFld (ftPg + 0x48) 13 2 0
    else match s.ftParent with
      | some l => s.gainParent l
      | none => (s.setFtState 3).notice ftPg 1

/-- R302, R303: an exchange with the parent steers fabric time: LOCKED after 16 exchanges within ±2
ticks, ACQUIRE again on one outside. -/
def Chip.steer (s : Chip) (ofs : Int) : Chip :=
  let s := { s with ft.debt := ofs }.setFld (ftPg + 0x54) 15 0 (unsigned 16 ofs)
  if ofs.natAbs ≤ 32 then
    let s := { s with ft.run := s.ft.run + 1 }
    if 16 ≤ s.ft.run ∧ s.ftState = 1 then s.setFtState 2 else s
  else
    let s := { s with ft.run := 0 }
    if s.ftState = 2 then (s.setFtState 1).notice ftPg 2 else s

/-- TIME_EXCHANGE (R301 to R303): a record received on link l. -/
def execTimeExchange (l : LinkNo) (t : TimeRec) : State → Host.Outcome State Fault Refusal :=
  liftC fun s =>
    if s.timeLink l = false then s
    else
      let ofs : Int := (((t.t2 : Int) - t.t1) - ((t.t4 : Int) - t.t3)) / 2
      let s := s.setLk l { s.lk l with
        ofs := ofs, nbrLocked := t.locked, nbrDepth := t.depth, nbrT1 := t.t1, nbrT4 := t.t4 }
      let s := if 64 < ofs.natAbs then (s.bump (ftPg + 0x60)).notice ftPg 0 else s
      let had : Bool := s.ftState == 1 || s.ftState == 2
      let s := s.ftEval
      if !s.isMaster && had && s.ftParent == some l.val then s.steer ofs else s

/-- FT_PERIOD_EXPIRY (R301): a record is due on link l: a NULL is requested. -/
def execFtPeriodExpiry (l : LinkNo) : State → Host.Outcome State Fault Refusal :=
  liftC fun s =>
    let x := s.lk l
    if s.timeLink l && decide (x.askedAt + max (s.fld (ftPg + 0x6C) 15 0) 256 ≤ s.now)
    then s.setLk l { x with timeDue := true, askedAt := s.now } else s

/-- R300: the correction the next tick makes: a slew adds or omits at most one tick in 256. -/
def Chip.slew (s : Chip) : Int :=
  if s.ft.debt.natAbs < 16 ∨ s.now < s.ft.slewAt + 256 then 0
  else if 0 < s.ft.debt then 1 else -1

/-- R300: one tick of the local reference moves fabric time by one tick, or by none where the slew
omits one; a tick the slew adds comes between two of the reference, so that no value of fabric time is
skipped (R101). -/
def Chip.tickTime (s : Chip) : Chip :=
  let d := s.slew
  let n := if d < 0 then s.now else s.now + 1
  { s with
    now := n
    ref := if 0 < d then s.ref else s.ref + 1
    ft.debt := s.ft.debt - 16 * d
    ft.slewAt := if d = 0 then s.ft.slewAt else n }

/-- R304, R361: the latest correspondence between fabric time and 1588 time, zeros without one. -/
def Chip.corrBytes (s : Chip) : List Byte :=
  match s.eth.corr with
  | some c => leBytes 8 c.tick ++ leBytes 6 c.sec ++ leBytes 4 c.ns
  | none => List.replicate 18 0

/-- TIME (R304): VALUE is set when the response's first flit takes its number. -/
def execTime (port : Nat) (pkt : Packet) : State → Host.Outcome State Fault Refusal :=
  liftC fun s => s.toTriad port pkt fun s =>
    let d := s.corrBytes
    let p : Packet := ⟨{ s.respHd pkt.hdr .ok with ver := true, value := s.now, len := d.length }, d⟩
    { s with own := s.own ++ [⟨p, true, none, none, true⟩], out := s.out ++ [.packet p] }

end Sys2Proof.Machine
end

