-- ==== Sys2Proof/Machine/Link.lean ====
section
/-! DEFINITION. The receiving side of the links, their states, training, INIT, resume and resets
(R254 to R281, R310, R311, R379). -/

namespace Sys2Proof.Machine

/-! ## Flits (R257 to R259) -/

/-- R257: the link header as a number. -/
def flitHdr (f : Flit) : Nat :=
  f.seq % 4096 + 2 ^ 12 * (f.ack % 4096) + 2 ^ 24 * (f.vc % 8) + 2 ^ 27 * (f.typ % 8) + 2 ^ 30 * (f.fc % 4)

/-- R6, R257: the payload as 120 bytes. -/
def flitPay (p : List Byte) : List Byte := (p ++ List.replicate 120 0).take 120

/-- R259: the CRC of a flit. -/
def flitCrc (f : Flit) : Nat := crcOf 2 false 0 0 (leBytes 4 (flitHdr f) ++ flitPay f.payload)

/-- R278: the bytes of an INIT payload. -/
def initBytes (i : InitInfo) : List Byte :=
  leBytes 2 (i.chip % 4096) ++ leBytes 1 (i.link % 128) ++ leBytes 1 i.vcEn ++
  leBytes 1 (b01 i.fcMode + 2 * b01 i.resume + 4 * b01 i.seen) ++ leBytes 2 (i.rxNext % 4096) ++
  leBytes 2 i.session ++ leBytes 2 i.peerSession ++ i.free.flatMap (leBytes 2)

/-- R278: the INIT payload a flit carries. -/
def initOf (p : List Byte) : InitInfo :=
  { chip := payNat p 0 2 % 4096, link := byteAt p 2 % 128, vcEn := byteAt p 3
    fcMode := byteAt p 4 % 2 == 1, resume := byteAt p 4 / 2 % 2 == 1, seen := byteAt p 4 / 4 % 2 == 1
    rxNext := payNat p 5 2 % 4096, session := payNat p 7 2, peerSession := payNat p 9 2
    free := (List.range 8).map fun v => payNat p (11 + 2 * v) 2 }

/-- R260, R298: the flits the packet takes whose header these bytes hold; none for a reserved TYPE. -/
def flitsNeeded (p : List Byte) : Option Nat :=
  let t := byteAt p 0 % 16
  let n := payNat p 20 4 % 2 ^ 21
  if t = 0 ∨ 0xE ≤ t then none
  else if [1, 3, 4, 5, 7, 9, 0xB].contains t then some 1 else some (flitsOf n)

/-! ## Sequence numbers, credits, counts -/

def Chip.txNext (s : Chip) (l : Nat) : Nat := s.fld (lkPg l + 0x4C) 11 0
def Chip.unack (s : Chip) (l : Nat) : Nat := s.fld (lkPg l + 0x4C) 23 12
def Chip.rxNext (s : Chip) (l : Nat) : Nat := s.fld (lkPg l + 0x50) 11 0
def Chip.lkSession (s : Chip) (l : Nat) : Nat := s.fld (lkPg l + 0x50) 31 16
def Chip.inHold (s : Chip) (l : Nat) : Bool := s.flag (lkPg l + 0x44) 3

/-- R261, R263: a number modulo 4,096 counted on from another. -/
def seqDist (a b : Nat) : Nat := (a % 4096 + 4096 - b % 4096) % 4096

/-- R282: a protocol count of R262, R263, R268 or R271. -/
def Chip.protoErr (s : Chip) (l : Nat) : Chip := (s.bump (lkPg l + 0x78)).notice (lkPg l) 4

/-- R267, R283: credits held for VC v. -/
def Chip.creditOf (s : Chip) (l v : Nat) : Nat := s.fld (lkPg l + 0x88 + 4 * v) 25 16

def Chip.setCredit (s : Chip) (l v n : Nat) : Chip := s.setFld (lkPg l + 0x88 + 4 * v) 25 16 n

/-- R268: k credits come back for VC v, clamped at the partner's SIZE; in on/off mode none are kept. -/
def Chip.creditBack (s : Chip) (l v k : Nat) : Chip :=
  if (s.lk l).onOff ∨ k = 0 then s
  else
    let cap := (s.lk l).peerSize.getD v 0
    let n := s.creditOf l v + k
    if cap < n then (s.setCredit l v cap).protoErr l else s.setCredit l v n

/-- R268: flits in the buffer of VC v. -/
def bufCount (x : Lnk) (v : Nat) : Nat := (x.buf.filter fun f => f.vc == v).length

/-- R267: SIZE of VC v in force. -/
def sizeOf (x : Lnk) (v : Nat) : Nat := x.sizes.getD v 0

/-- R269: the off vector the free space calls for: a VC that is off stays so up to XON. -/
def Chip.offVector (s : Chip) (l : Nat) : Nat :=
  let x := s.lk l
  let xoff := s.fld (lkPg l + 0x84) 23 16
  let xon := max (s.fld (lkPg l + 0x84) 31 24) xoff
  (List.range 8).foldl (fun w v =>
    let free := sizeOf x v - bufCount x v
    let was := gateBit x.offNow v
    let off : Bool := if was then decide (free < xon) else decide (free < xoff)
    w + (if off && gateBit x.vcEn v then 2 ^ v else 0)) 0

/-- R268: credits owed for VC v. -/
def owedOf (x : Lnk) (v : Nat) : Nat := (KMap.at x.owed [] v).length

/-- R268, R269: what the receive buffer's state makes due: an LCTL XSTATE in on/off mode at a change of the
off vector, an LCTL CREDIT at BATCH. -/
def Chip.dueLctl (s : Chip) (l : Nat) : Chip :=
  let x := s.lk l
  if x.onOff then
    let w := s.offVector l
    s.setLk l { x with offNow := w, xstateDue := x.xstateDue || w != x.offNow }
  else
    let batch := max (s.fld (lkPg l + 0x84) 5 0) 1
    s.setLk l { x with creditDue := x.creditDue || x.owed.any fun e => decide (batch ≤ e.2.length) }

/-- R268: k flits of VC v have left the receive buffer: a credit is owed for each from now on. -/
def Chip.owe (s : Chip) (l v k : Nat) : Chip :=
  if k = 0 then s
  else
    let x := s.lk l
    (s.setLk l { x with
      owed := KMap.put x.owed [] v (KMap.at x.owed [] v ++ List.replicate k s.now) }).dueLctl l

/-! ## Leaving UP (R274, R276, R266) -/

/-- R292: the state of a bundle member changed. -/
def Chip.rehash (s : Chip) (l : Nat) : Chip :=
  if (s.linkRole l).1 = 2 then s.bump (rtPg + 0x7C) else s

/-- R276: the leader between two ends that ask at once: the lower chip address × 128 + link index. -/
def Chip.leadsAtOnce (s : Chip) (l : Nat) : Bool :=
  decide (s.selfChip * 128 + l < s.fld (lkPg l + 0x48) 11 0 * 128 + s.fld (lkPg l + 0x48) 18 12)

/-- R276, R277: the kind of a retraining and its leader are settled. Quick is for RETRAIN, with a leader
that allows it; a follower takes what its leader chooses. -/
def Chip.settleAsk (s : Chip) (l : Nat) (reset lead : Bool) : Chip :=
  let x := s.lk l
  let lead : Bool := lead && x.met
  let full : Bool := reset || !x.met || (lead && !s.flag (lkPg l + 0x40) 2)
  (s.setFlag (lkPg l + 0x44) 5 lead).setLk l { x with
    ask := x.ask.map fun a => { a with reset := reset }, mustFull := full, resume := x.resume && !reset }

/-- R276: the link sends its request, or its answer to the partner's, and is in TRAIN. -/
def Chip.startAsk (s : Chip) (l : Nat) (reset own lead : Bool) : Chip :=
  Chip.settleAsk ((s.setLkState l 1).setLk l { s.lk l with
    ask := some ⟨reset, 16, own, s.now⟩
    peerAsks := 0
    rx := []
    inits := 0
    nbrLocked := false
    holdAt := none }) l reset lead

/-- R288: a link that is OFF sends nothing more. -/
def Chip.goIdle (s : Chip) (l : Nat) : Chip :=
  (s.setLkState l 0).setLk l { s.lk l with ask := none, resetting := false }

/-- R251, R266, R379: the status that a link which is down gives its responses: RESET in a reset of the
link. -/
def cutStatus (cause : Nat) : Status := if cause = 8 then .reset else .fenced

/-- R251, R266, R274, R417: the link goes down for a cause; a standby that loses a HOST link lags. -/
def Chip.linkDown (s : Chip) (l cause : Nat) (reset lead : Bool) : Chip :=
  let was := s.lkState l
  let s := s.setFld (lkPg l + 0xB0) 3 0 cause
  let s := (s.setPair (lkPg l + 0xB4) s.now).bump (lkPg l + 0xAC)
  let s := s.setFlag (lkPg l + 0x44) 3 false
  let s := (s.cutReqs (fun r => r.port == l) (cutStatus cause)).cutLink l (cutStatus cause)
  let s := (s.startAsk l reset (cause != 5) lead).named (lkPg l) 2
  let s := if s.standsBy && (s.linkRole l).1 == 1 then s.setLag true else s
  (if was = 4 then s.rehash l else s).ftEval

/-! ## Acknowledgement (R263) -/

/-- R263: an ACK frees flits, or, beyond what is unacknowledged, brings a link that is UP down with PROTO;
before UP such an ACK frees nothing (log entry 98). -/
def Chip.ackReceive (s : Chip) (l a : Nat) : Chip :=
  let u := s.unack l
  let d := seqDist (a + 1) u
  let x := s.lk l
  if d = 0 then s
  else if d ≤ seqDist (s.txNext l) u then
    let s := s.setFld (lkPg l + 0x4C) 23 12 ((u + d) % 4096)
    s.setLk l { x with
      replay := x.replay.drop d
      firsts := min x.firsts (x.replay.length - d)
      unackResp := x.unackResp.filter fun e => decide (d ≤ seqDist e.1 u)
      replayPos := match x.replayPos with
        | some k => if x.replay.length ≤ d then none else some (k - d)
        | none => none
      timerAt := s.now
      uAt := s.now
      expiries := 0 }
  else if s.lkState l = 4 then (s.protoErr l).linkDown l 4 false true
  else s

/-! ## Framing and conformity (R260, R310, R311) -/

/-- R260: the open packet of VC v is discarded, its flits leaving the buffer, those that have left it too. -/
def Chip.dropOpen (s : Chip) (l v : Nat) : Chip :=
  let x := s.lk l
  let mine := x.buf.filter fun f => f.vc == v
  match KMap.at x.openRx none v with
  | none => s
  | some o =>
    let keep := mine.length - o.got
    let others := x.buf.filter fun f => f.vc != v
    let heads := (x.heads.reverse.eraseP fun e => e.1 == v).reverse
    let out := KMap.at x.gather [] v
    (s.setLk l { x with
      buf := others ++ mine.take keep
      gather := KMap.put x.gather [] v (out.take (out.length - (o.got - mine.length)))
      openRx := KMap.put x.openRx none v none
      heads := if v < 4 then heads else x.heads }).owe l v (mine.length - keep)

/-- R260: a framing error: counted, the offending flit dropped and its credit owed. -/
def Chip.frameErr (s : Chip) (l : Nat) : Chip := (s.bump (lkPg l + 0x7C)).notice (lkPg l) 5

/-- R310: a flit launched at tick t on scheduled VC v conforms to an ingress slot of the plan. -/
def Chip.conforms (s : Chip) (l v t : Nat) : Bool :=
  match s.planAt t with
  | none => false
  | some (rs, org, frame) =>
    [0, 1, 2].any fun d =>
      let c := (t - org) / 128 + d - 1
      let k := 128 * c % max frame 1 / 128
      rs.any fun r => recType r == 1 && recLink r == l && recIngress r && recVc r == v &&
        decide (recSlot r ≤ k ∧ k < recSlot r + recCount r ∧ org + 128 * c ≤ t + 8 ∧
          100 * t ≤ 100 * (org + 128 * c) + 512 * (recFlits r - 1) + 800)

/-- R311: a plan violation on VC v of link l is counted and reported. -/
def Chip.planViolation (s : Chip) (l v : Nat) : Chip :=
  let s := (s.bump (rtPg + 0x80)).setReg (rtPg + 0x84) (BitVec.ofNat 32 (l + 256 * v))
  let s := (s.latchFirst rtPg 1 0 0 false).setFlag (errStat rtPg) 1 true
  s.pageEventD rtPg (stCode .planViolation) (s.reg (errStat rtPg)).toNat 0

/-- R310, R311: an accepted flit of a scheduled VC is judged; whether it conforms. -/
def Chip.judge (s : Chip) (l v : Nat) : Bool × Chip :=
  if 4 ≤ v then (true, s)
  else if s.conforms l v (s.now - s.fld (lkPg l + 0xA8) 7 0) then (true, s)
  else (false, s.planViolation l v)

/-- R262: the flit takes its place in the receive buffer. -/
def Chip.intoBuf (s : Chip) (l : Nat) (f : Flit) : Chip :=
  let x := s.lk l
  (s.setLk l { x with buf := x.buf ++ [f] }).dueLctl l

/-- R260: the first flit of a packet on its VC: it opens one, or is the whole of it. -/
def Chip.headFlit (s : Chip) (l : Nat) (f : Flit) (ok : Bool) : Chip :=
  let v := f.vc
  let s := if (KMap.at (s.lk l).openRx none v).isSome then (s.frameErr l).dropOpen l v else s
  match flitsNeeded f.payload with
  | none => (s.frameErr l).owe l v 1
  | some n =>
    if f.typ = 4 ∧ n ≠ 1 then (s.frameErr l).owe l v 1
    else
      let x := s.lk l
      let s := s.setLk l { x with
        heads := if v < 4 then x.heads ++ [(v, !ok)] else x.heads
        openRx := if f.typ = 4 then x.openRx else KMap.put x.openRx none v (some ⟨n, 1, !ok⟩) }
      s.intoBuf l f

/-- R260: a later flit of a packet. -/
def Chip.laterFlit (s : Chip) (l : Nat) (f : Flit) : Chip :=
  let v := f.vc
  match KMap.at (s.lk l).openRx none v with
  | none => (s.frameErr l).owe l v 1
  | some o =>
    let x := s.lk l
    if f.typ = 2 then
      (s.setLk l { x with openRx := KMap.put x.openRx none v (some { o with got := o.got + 1 }) }).intoBuf l f
    else if o.got + 1 = o.need then
      (s.setLk l { x with openRx := KMap.put x.openRx none v none }).intoBuf l f
    else ((s.frameErr l).dropOpen l v).owe l v 1

/-! ## Received flits (R262, R268, R269, R271) -/

/-- R262: what an accepted LCTL does, by its SUBTYPE. -/
def Chip.lctl (s : Chip) (l : Nat) (f : Flit) : Chip :=
  match byteAt f.payload 0 with
  | 1 => forEach (List.range 8) (fun v s => s.creditBack l v (byteAt f.payload (1 + v))) s
  | 2 => s.setLk l { s.lk l with off := byteAt f.payload 1 }
  | _ => s.protoErr l

/-- R262: RX_NEXT advances over an accepted flit. -/
def Chip.rxAdvance (s : Chip) (l : Nat) : Chip :=
  s.setFld (lkPg l + 0x50) 11 0 ((s.rxNext l + 1) % 4096)

/-- R262, R260, R311: a sequenced flit that passed its CRC. -/
def Chip.seqFlit (s : Chip) (l : Nat) (f : Flit) : Chip :=
  let x := s.lk l
  let d := seqDist (s.rxNext l) f.seq
  if d = 0 then
    if gateBit x.vcEn f.vc = false then (s.rxAdvance l).protoErr l
    else if f.typ = 5 then ((s.rxAdvance l).creditBack l f.vc f.fc).lctl l f
    else if bufCount x f.vc < sizeOf x f.vc then
      let s := (s.rxAdvance l).creditBack l f.vc f.fc
      let (ok, s) := s.judge l f.vc
      if f.typ = 1 ∨ f.typ = 4 then s.headFlit l f ok else s.laterFlit l f
    else (s.bump (lkPg l + 0x80)).notice (lkPg l) 6
  else if d ≤ 2048 then s.bump (lkPg l + 0x70)
  else s.bump (lkPg l + 0x74)

/-- The flit at the head of link l's received flits is handled by f, once its ACK is. -/
def Chip.takeFlit (s : Chip) (l : Nat) (f : Flit) (p : Flit → Bool) (g : Chip → Chip) : Chip :=
  let x := s.lk l
  match x.rx with
  | [] => s
  | h :: q =>
    if h == f && p f && s.lkState l == 4 then
      let s := (s.setLk l { x with rx := q }).ackReceive l f.ack
      if s.lkState l = 4 then g s else s
    else s

/-- SEQUENCED_FLIT (R262, R260, R311): a HEAD, BODY, TAIL or SINGLE, or an LCTL of reserved
SUBTYPE. -/
def execSequencedFlit (l : LinkNo) (f : Flit) : State → Host.Outcome State Fault Refusal :=
  liftC fun s => s.takeFlit l f (fun f => decide (1 ≤ f.typ ∧ f.typ ≤ 4) ||
    (f.typ == 5 && byteAt f.payload 0 != 1 && byteAt f.payload 0 != 2)) fun s => s.seqFlit l f

/-- LCTL_CREDIT (R262, R268, R271). -/
def execLctlCredit (l : LinkNo) (f : Flit) : State → Host.Outcome State Fault Refusal :=
  liftC fun s => s.takeFlit l f (fun f => f.typ == 5 && byteAt f.payload 0 == 1) fun s => s.seqFlit l f

/-- LCTL_XSTATE (R262, R269, R271). -/
def execLctlXstate (l : LinkNo) (f : Flit) : State → Host.Outcome State Fault Refusal :=
  liftC fun s => s.takeFlit l f (fun f => f.typ == 5 && byteAt f.payload 0 == 2) fun s => s.seqFlit l f

/-- NULL_FLIT (R258, R263). -/
def execNullFlit (l : LinkNo) (f : Flit) : State → Host.Outcome State Fault Refusal :=
  liftC fun s => s.takeFlit l f (fun f => f.typ == 0) fun s => s

/-- HOLD_FLIT (R263, R280). -/
def execHoldFlit (l : LinkNo) (f : Flit) : State → Host.Outcome State Fault Refusal :=
  liftC fun s => s.takeFlit l f (fun f => f.typ == 7) fun s => s.bump (lkPg l + 0xC0)

/-! ## Timers (R264, R265, R268, R280) -/

/-- R264, R265: the replay timer runs: the link is UP, not in HOLD, and has unacknowledged flits. -/
def Chip.timerOn (s : Chip) (l : Nat) : Bool :=
  s.lkState l == 4 && !s.inHold l && s.unack l != s.txNext l

/-- REPLAY_TIMER (R264). -/
def execReplayTimer (l : LinkNo) : State → Host.Outcome State Fault Refusal :=
  liftC fun s =>
    let x := s.lk l
    if s.timerOn l && decide (x.timerAt + max (s.fld (lkPg l + 0x54) 15 0) 512 ≤ s.now) then
      (s.bump (lkPg l + 0x58)).setLk l
        { x with replayPos := some 0, timerAt := s.now, expiries := x.expiries + 1 }
    else s

/-- REPLAY_STALL (R265). -/
def execReplayStall (l : LinkNo) : State → Host.Outcome State Fault Refusal :=
  liftC fun s =>
    let x := s.lk l
    let most := max (s.fld (lkPg l + 0x54) 19 16) 1
    if s.timerOn l && (decide (most ≤ x.expiries) || decide (x.uAt + 4608 ≤ s.now))
    then s.linkDown l 3 false true else s

/-- CREDIT_AGE (R268): some credit has been owed for AGE × 8 ns. -/
def execCreditAge (l : LinkNo) : State → Host.Outcome State Fault Refusal :=
  liftC fun s =>
    let x := s.lk l
    let age := 8 * max (s.fld (lkPg l + 0x84) 15 8) 1
    if !x.onOff && x.owed.any (fun e => e.2.any fun t => decide (t + age ≤ s.now))
    then s.setLk l { x with creditDue := true } else s

/-- R280: the hold of a link begins: the measures of R264 and R265 pause. -/
def Chip.holdStart (s : Chip) (l : Nat) : Chip :=
  if s.lkState l = 4 ∧ s.inHold l = false then
    (s.setFlag (lkPg l + 0x44) 3 true).setLk l { s.lk l with holdAt := some s.now }
  else s

/-- R280: a measure that started at tick a and pauses from tick t on goes on at tick n. -/
def resumeAt (a t n : Nat) : Nat := if a ≤ t then a + (n - t) else n

/-- R280: the hold of a link ends: the paused measures go on; one that an ACK restarted in the hold starts
now. -/
def Chip.holdEnd (s : Chip) (l : Nat) : Chip :=
  let x := s.lk l
  match x.holdAt with
  | none => s
  | some t => (s.setFlag (lkPg l + 0x44) 3 false).setLk l
      { x with holdAt := none, timerAt := resumeAt x.timerAt t s.now, uAt := resumeAt x.uAt t s.now }

/-- HOLD_TIMEOUT (R280). -/
def execHoldTimeout (l : LinkNo) : State → Host.Outcome State Fault Refusal :=
  liftC fun s => match (s.lk l).holdAt with
    | some t => if t + 2048 ≤ s.now then (s.holdEnd l).notice (lkPg l) 8 else s
    | none => s

/-! ## INIT (R267, R278, R279, R289) -/

/-- R267, R289: two to eight VCs, VCs 4 to 7 among them, and sizes that fit the buffer. -/
def lnkCfgOk (x : Lnk) : Bool :=
  decide (x.vcEn / 16 = 15) &&
  decide (((List.range 8).map fun v => if gateBit x.vcEn v then sizeOf x v else 0).sum ≤ 512)

/-- R267, R273, R278: INIT is entered: VC_EN, FC_MODE and the sizes are taken over; a link whose own do not
fit stays there with ERR_STAT.CFG. -/
def Chip.enterInit (s : Chip) (l : Nat) : Chip :=
  let s := (s.setLkState l 3).setLk l { s.lk l with
    initAt := s.now
    peer := none
    vcEn := s.fld (lkPg l + 0x40) 15 8
    onOff := s.flag (lkPg l + 0x40) 1
    sizes := (List.range 8).map fun v => s.fld (lkPg l + 0x88 + 4 * v) 9 0 }
  if lnkCfgOk (s.lk l) then s else s.notice (lkPg l) 7

/-- R267: the partner's INIT agrees. -/
def lnkAgrees (x : Lnk) (i : InitInfo) : Bool := i.vcEn == x.vcEn && i.fcMode == x.onOff

/-- R278: the INIT this end sends. -/
def Chip.initInfo (s : Chip) (l : Nat) : InitInfo :=
  let x := s.lk l
  { chip := s.selfChip, link := l, vcEn := x.vcEn, fcMode := x.onOff, resume := x.resume
    seen := x.peer.isSome, rxNext := s.rxNext l, session := s.lkSession l, peerSession := x.peerSession
    free := (List.range 8).map fun v => sizeOf x v - bufCount x v }

/-- R279: the link resumes. -/
def Chip.resumes (s : Chip) (l : Nat) (i : InitInfo) : Bool :=
  let x := s.lk l
  x.resume && i.resume && i.peerSession == s.lkSession l && x.peerSession == i.session &&
  s.flag (lkPg l + 0x48) 31 && s.fld (lkPg l + 0x48) 11 0 == i.chip &&
  s.fld (lkPg l + 0x48) 18 12 == i.link &&
  decide (seqDist i.rxNext (s.unack l) ≤ seqDist (s.txNext l) (s.unack l))

/-- R279: what resuming does. -/
def Chip.resumeLink (s : Chip) (l : Nat) (i : InitInfo) : Chip :=
  let x := s.lk l
  let d := seqDist i.rxNext (s.unack l)
  let rest := x.replay.drop d
  let kept := x.unackResp.filter fun e => decide (d ≤ seqDist e.1 (s.unack l))
  let s := (s.setFld (lkPg l + 0x4C) 23 12 i.rxNext).setFlag (lkPg l + 0x44) 4 true
  s.setLk l { x with
    replay := rest
    replayPos := if rest.isEmpty then none else some 0
    firsts := min x.firsts rest.length
    unackResp := kept
    timerAt := s.now
    uAt := s.now
    expiries := 0 }

/-- R251, R266: a response that is lost on its way, or late, is counted and reported. -/
def Chip.lostResp (s : Chip) (t : RespTag) : Chip :=
  s.promiseLost t.part t.host t.tag

/-- R266, R273, R279: flits of packets already started are discarded; responses among them are lost. -/
def Chip.dropStarted (s : Chip) (l : Nat) : Chip :=
  let x := s.lk l
  let lost := x.txOpen.filterMap fun v => ((KMap.at x.txq [] v).head?).bind fun f => f.resv
  let q := x.txOpen.foldl (fun q v => KMap.put q [] v
    ((KMap.at q [] v).dropWhile fun f => f.typ != 1 && f.typ != 4)) x.txq
  forEach lost (fun t s => s.lostResp t) (s.setLk l { x with txq := q, txOpen := [] })

/-- R273, R279: flits of the replay buffer and of open receive packets. -/
def Chip.linkFlits (s : Chip) (l : Nat) : Nat :=
  (s.lk l).replay.length + (((s.lk l).openRx.filterMap fun e => e.2).map (·.got)).sum

/-- R266, R273, R279: the replay buffer and the open receive packets are discarded; responses among them
are lost. -/
def Chip.discardLink (s : Chip) (l : Nat) : Chip :=
  let x := s.lk l
  let s := forEach (x.openRx.map (·.1)) (fun v s => s.dropOpen l v) s
  let s := forEach x.unackResp (fun e s => s.lostResp e.2) (s.dropStarted l)
  Chip.reapReqs (s.setLk l { s.lk l with replay := [], replayPos := none, firsts := 0, unackResp := [] })

/-- R279, R282: the flits a fresh start discards are counted. -/
def Chip.countDiscard (s : Chip) (l n : Nat) : Chip :=
  if n = 0 then s else (s.bumpBy (lkPg l + 0xC4) n).notice (lkPg l) 9

/-- R268: the partner's SIZE of each VC, at least its FREE and at most the buffer (log entry 1). -/
def Chip.drawSizes (s : Chip) (free : List Nat) : List Nat × Chip :=
  free.foldl (fun (l, s) f =>
    let (k, s) := Chip.fresh s
    (l ++ [f + k % (513 - min f 512)], s)) ([], s)

/-- R279: a fresh start. -/
def Chip.freshLink (s : Chip) (l : Nat) (i : InitInfo) : Chip :=
  let s := ((s.discardLink l).countDiscard l (s.linkFlits l)).setReg (lkPg l + 0x4C) 0
  let s := s.setReg (lkPg l + 0x50) (BitVec.ofNat 32 (65536 * ((s.lkSession l + 1) % 65536)))
  let s := s.setReg (lkPg l + 0x48) (BitVec.ofNat 32 (i.chip + 4096 * i.link + 2 ^ 31))
  let s := s.setFlag (lkPg l + 0x44) 4 false
  let (sz, s) := s.drawSizes i.free
  let s := forEach (List.range 8) (fun v s => s.setCredit l v (i.free.getD v 0)) s
  s.setLk l { s.lk l with
    owed := []
    creditDue := false
    xstateDue := false
    offNow := 0
    offSent := 0
    off := 0
    expiries := 0
    peerSession := (i.session + 1) % 65536
    peerSize := sz }

/-- R278, R279, R374, R379: the link enters UP. -/
def Chip.enterUp (s : Chip) (l : Nat) (i : InitInfo) : Chip :=
  let s := if s.resumes l i then s.resumeLink l i else s.freshLink l i
  let x := s.lk l
  let s := (s.setLkState l 4).setLk l { x with
    inits := 2, met := true, resume := true, mustFull := false, resetting := false }
  let s := if x.resetting then s.resetDoneFor fun u => u == .link l else s
  (((s.dueLctl l).pageEvent (lkPg l)).rehash l).ftEval

/-- INIT_FLIT (R278, R279, R267): an INIT received. Its ACK counts like any flit's. -/
def execInitFlit (l : LinkNo) (i : InitInfo) : State → Host.Outcome State Fault Refusal :=
  liftC fun s =>
    let x := s.lk l
    match x.rx with
    | [] => s
    | h :: q =>
      if h.typ = 6 ∧ initOf h.payload = i then
        let s := (s.setLk l { x with rx := q }).ackReceive l h.ack
        if s.lkState l ≠ 3 then s
        else
          let s := s.setLk l { s.lk l with peer := some i }
          if lnkCfgOk x = false ∨ lnkAgrees x i = false then s.notice (lkPg l) 7
          else if i.seen then s.enterUp l i else s
      else s

/-- INIT_TIMEOUT (R273): 2 µs in INIT. A link that R267 keeps in INIT stays there. -/
def execInitTimeout (l : LinkNo) : State → Host.Outcome State Fault Refusal :=
  liftC fun s =>
    let x := s.lk l
    let stays : Bool := !lnkCfgOk x || match x.peer with | some i => !lnkAgrees x i | none => false
    if s.lkState l == 3 && !stays && decide (x.initAt + 2000 ≤ s.now) then s.linkDown l 7 false true else s

/-! ## Codewords (R255, R275, R276) -/

/-- R275: a CRC error; the one that overfills the window takes the link down. -/
def Chip.crcError (s : Chip) (l : Nat) : Chip :=
  let s := (s.bump (lkPg l + 0x64)).corrected (lkPg l) 0 0
  let x := s.lk l
  let cnt := min (max (s.fld (lkPg l + 0x60) 7 0) 1) 254
  let win := 1000 * max (s.fld (lkPg l + 0x60) 31 8) 1
  let es := (s.now :: x.errs.filter fun t => decide (s.now < t + win)).take 255
  let s := s.setLk l { x with errs := es }
  if cnt < es.length ∧ s.lkState l = 4 then s.linkDown l 1 false true else s

/-- R255, R259, R263, R275: the flits of a codeword: those whose CRC passes wait for their handling; in INIT
the INIT flits alone do, and of others the ACK alone counts. -/
def Chip.takeFlits (s : Chip) (l : Nat) (fs : List Flit) : Chip :=
  forEach fs (fun f s =>
    if f.crc ≠ flitCrc f then s.crcError l
    else if s.lkState l = 4 ∨ (s.lkState l = 3 ∧ f.typ = 6) then
      s.setLk l { s.lk l with rx := (s.lk l).rx ++ [f] }
    else if s.lkState l = 3 then s.ackReceive l f.ack
    else s) s

/-- R276: a request of the partner that comes while this end sends its own was sent before the partner had
two codewords of that; a later one answers it (log entry 96). -/
def Chip.askAtOnce (s : Chip) (l : Nat) (a : Ask) : Bool :=
  decide (s.now < a.start + 102 + 2 * (s.fld (lkPg l + 0xA8) 7 0 + Config.lstateDelay l))

/-- R276: the partner's LSTATE, in two codewords in a row. -/
def Chip.peerAsks (s : Chip) (l lstate : Nat) : Chip :=
  let x := s.lk l
  if lstate = 0 ∨ lstate = 3 then s.setLk l { x with peerAsks := 0 }
  else
    let s := s.setLk l { x with peerAsks := x.peerAsks + 1 }
    if x.peerAsks ≠ 1 then s
    else
      let reset : Bool := lstate == 2
      match x.ask with
      | some a =>
        if a.own && s.askAtOnce l a then s.settleAsk l (a.reset || reset) (s.leadsAtOnce l) else s
      | none =>
        if s.lkState l = 4 ∨ s.lkState l = 3 then s.linkDown l 5 reset false
        else if s.lkState l = 2 then s.startAsk l reset false false
        else s

/-- R255: codeword lock: eight good codewords in a row gain it, four bad ones lose it. -/
def Chip.lockStep (s : Chip) (l : Nat) (bad : Bool) (cwn : Nat) : Chip :=
  let x := s.lk l
  let next : Bool := x.good == 0 || cwn == (x.cwn + 1) % 5
  if bad then
    let s := s.setLk l { x with good := 0, bad := x.bad + 1 }
    if 4 ≤ x.bad + 1 ∧ (s.lkState l = 4 ∨ s.lkState l = 3) then s.linkDown l 2 false true else s
  else
    let good := if next then x.good + 1 else 1
    let s := s.setLk l { x with good := good, bad := 0, cwn := cwn }
    if s.lkState l = 2 ∧ 8 ≤ good then s.enterInit l else s

/-- CODEWORD (R255, R275, R276): one decoded codeword of link l. -/
def execCodeword (l : LinkNo) (cw : Codeword) : State → Host.Outcome State Fault Refusal :=
  liftC fun s =>
    let st := s.lkState l
    let asks := (s.lk l).ask.isSome
    if (s.lk l).noPll ∨ st = 0 ∨ st = 5 ∨ (st = 1 ∧ asks = false) then s
    else if cw.uncorrectable then
      let s := (s.bump (lkPg l + 0x6C)).corrected (lkPg l) 1 0
      let s := s.lockStep l true 0
      let s := s.setLk l { s.lk l with peerAsks := 0 }
      forEach (List.range 5) (fun _ s => s.crcError l) s
    else
      let s := s.bumpBy (lkPg l + 0x68) cw.corrected
      let s := s.lockStep l (cw.mark != 0x2D3) cw.cwn
      let s := s.peerAsks l (if cw.mark = 0x2D3 then cw.lstate else 0)
      if s.lkState l = st then s.takeFlits l cw.flits else s

/-- LOCK_TIMEOUT (R273): no lock within 1 ms. -/
def execLockTimeout (l : LinkNo) : State → Host.Outcome State Fault Refusal :=
  liftC fun s =>
    let x := s.lk l
    if s.lkState l = 2 ∧ x.lockAt + 1000000 ≤ s.now
    then (s.setLkState l 1).setLk l { x with mustFull := true } else s

/-! ## Training and resets (R277, R281, R379) -/

/-- R273, R277, R282, R386: the attempts are exhausted: FAILED; the link is fenced, its replay buffer and
open receive packets go; the event is raised also where ERR_STAT.FAILED was set. -/
def Chip.linkFailed (s : Chip) (l : Nat) : Chip :=
  let quiet : Bool := s.flag (errStat (lkPg l)) 3 || s.flag (lkPg l + 0x14) 3
  let s := ((s.setLkState l 5).discardLink l).unitError (.link l) .link (lkPg l) 3 0 false
  if quiet then s.pageEvent (lkPg l) else s

/-- R379: what waits to cross a link that is reset is lost, but for the responses to the accepted requests
of the port: each that has not failed, and is not that of a flipped publish, becomes a RESET status. -/
def Chip.resetFate (s : Chip) (l : Nat) (f : TxFlit) : Fate :=
  match s.prom.reqs.find? fun r => r.sent && r.port == l && f.resp == some (r.host, r.tag) with
  | none => .goes
  | some r =>
    if f.resv.isSome then cutFate .reset f
    else if flipped r ∨ byteAt f.payload 10 / 8 ≠ 0 then .stays
    else .becomes (statusFlit .reset f)

/-- R379: the queues of link l are cut. -/
def Chip.resetQueue (s : Chip) (l : Nat) : Chip :=
  let x := s.lk l
  Chip.reapReqs (s.setLk l { x with
    txq := x.txq.map fun e => (e.1, cutQueue (s.resetFate l) true e.2) })

/-- TRAINING_DONE (R277): a training of link l ends: full or quick, with or without success, and the
flight time it measured, in ns (R256). -/
def execTrainingDone (l : LinkNo) (full ok : Bool) (flight : Nat) :
    State → Host.Outcome State Fault Refusal :=
  liftC fun s =>
    let x := s.lk l
    if s.lkState l ≠ 1 ∨ x.ask.isSome ∨ x.noPll ∨ (x.mustFull ∧ full = false) then s
    else if ok then
      let s := (s.setFld (lkPg l + 0xA8) 7 0 flight).setFld (lkPg l + 0x44) 11 8 0
      (s.setLkState l 2).setLk l { x with lockAt := s.now, good := 0, bad := 0, mustFull := false }
    else if full = false then s.setLk l { x with mustFull := true }
    else
      let n := s.fld (lkPg l + 0x44) 11 8 + 1
      let s := s.setFld (lkPg l + 0x44) 11 8 (min n 15)
      if max (s.fld (lkPg l + 0xBC) 3 0) 1 ≤ n then s.linkFailed l
      else s.setLk l { x with mustFull := true }

/-- RETRAIN (R274, R276, R283): LK_CTRL.RETRAIN is written. -/
def execRetrain (l : LinkNo) : State → Host.Outcome State Fault Refusal :=
  liftC fun s => if s.lkState l = 4 then s.linkDown l 6 false true else s

/-- R281, R374, R375, R379: a reset of link l starts. A link whose role is OFF has none. -/
def Chip.resetLink (s : Chip) (l : Nat) : Chip :=
  if (s.linkRole l).1 = 0 ∨ (s.lk l).resetting then s
  else
    let s := (s.cutReqs (fun r => r.port == l) .reset).resetQueue l
    let s := s.setLk l { s.lk l with resume := false, mustFull := true, resetting := true }
    let st := s.lkState l
    if st = 4 ∨ st = 3 then s.linkDown l 8 true true
    else
      let s := s.setFld (lkPg l + 0x44) 11 8 0
      if st = 2 ∨ (st = 1 ∧ (s.lk l).ask.isSome) then s.startAsk l true true true
      else s.setLkState l 1

/-- LINK_RESET (R281, R379): BLK_CTRL.SOFT_RESET of the link page. -/
def execLinkReset (l : LinkNo) : State → Host.Outcome State Fault Refusal :=
  liftC fun s => s.resetLink l

end Sys2Proof.Machine
end

