-- ==== Sys2Proof/Machine/Fabric.lean ====
section
/-! DEFINITION. What the links transmit, the router, and link roles (R261 to R263, R268, R272, R284 to
R299, R305, R317, R318). -/

namespace Sys2Proof.Machine

/-! ## What a link sends (R272) -/

/-- R263: the ACK every flit carries. -/
def Chip.ackOf (s : Chip) (l : Nat) : Nat := (s.rxNext l + 4095) % 4096

/-- A flit with its CRC. -/
def withCrc (f : Flit) : Flit := { f with crc := flitCrc f }

/-- R257, R263: an unsequenced flit with a payload: SEQ is TX_NEXT. -/
def Chip.plainFlit (s : Chip) (l typ : Nat) (p : List Byte) : Flit :=
  withCrc { seq := s.txNext l, ack := s.ackOf l, vc := 0, typ := typ, fc := 0, payload := flitPay p, crc := 0 }

/-- An unsequenced flit leaves. -/
def Chip.sendPlain (s : Chip) (l typ : Nat) (p : List Byte) : Chip := s.emit (.flit l (s.plainFlit l typ p))

/-- R261, R264: a flit takes its number and leaves for the first time; during a replay it waits behind
it. -/
def Chip.seqSend (s : Chip) (l v typ fc : Nat) (p : List Byte) : Chip :=
  let x := s.lk l
  let f := withCrc { seq := s.txNext l, ack := s.ackOf l, vc := v, typ := typ, fc := fc
                     payload := flitPay p, crc := 0 }
  let idle : Bool := s.unack l == s.txNext l
  let behind := x.replayPos.isSome
  let s := s.setFld (lkPg l + 0x4C) 11 0 ((s.txNext l + 1) % 4096)
  let s := s.setLk l { x with
    replay := x.replay ++ [f]
    firsts := if behind then x.firsts + 1 else x.firsts
    timerAt := if idle then s.now else x.timerAt
    uAt := if idle then s.now else x.uAt }
  if behind then s else s.emit (.flit l f)

/-- R268: the k credits longest owed for VC v are on their way. -/
def Chip.owedSent (s : Chip) (l v k : Nat) : Chip :=
  let x := s.lk l
  let owed := KMap.put x.owed [] v ((KMap.at x.owed [] v).drop k)
  s.setLk l { x with owed := owed, creditDue := x.creditDue && !owed.isEmpty }

/-- R268: credits a sequenced flit of VC v carries in FC. -/
def Chip.fcFor (s : Chip) (l v : Nat) : Nat := if (s.lk l).onOff then 0 else min (owedOf (s.lk l) v) 3

/-- R271: an LCTL that is due: XSTATE, else CREDIT. It goes on VC 4, which every link enables. -/
def Chip.sendLctl (s : Chip) (l : Nat) : Chip :=
  let x := s.lk l
  if x.xstateDue then
    let s := s.seqSend l 4 5 0 [2, BitVec.ofNat 8 x.offNow]
    s.setLk l { s.lk l with xstateDue := false, offSent := x.offNow }
  else
    let cr := (List.range 8).map fun v => min (owedOf x v) 255
    let s := (List.range 8).foldl (fun s v => Chip.owedSent s l v (cr.getD v 0)) s
    let fc := s.fcFor l 4
    let s := (s.owedSent l 4 fc).seqSend l 4 5 fc (1 :: cr.map (BitVec.ofNat 8))
    Chip.dueLctl (s.setLk l { s.lk l with creditDue := false }) l

/-- R301: a requested NULL with its time record. -/
def Chip.sendTime (s : Chip) (l : Nat) : Chip :=
  let x := s.lk l
  let r : TimeRec := { t1 := 16 * s.now, t2 := x.nbrT4, t3 := x.nbrT1, t4 := 0
                       locked := s.ftState == 2, depth := s.fld (ftPg + 0x48) 13 9 }
  ((s.setLk l { x with timeDue := false }).sendPlain l 0 (Config.timeBytes r)).emit (.timeRec l r)

/-- R272: an LCTL is due and may take a number. -/
def Chip.lctlDue (s : Chip) (l : Nat) : Bool :=
  let x := s.lk l
  (x.xstateDue || x.creditDue) && decide (x.replay.length < 1024)

/-- R272: something other than packets is due: an LCTL, or a requested NULL. -/
def Chip.ctlDue (s : Chip) (l : Nat) : Bool := s.lctlDue l || (s.lk l).timeDue

/-- R272: it is sent. -/
def Chip.sendCtl (s : Chip) (l : Nat) : Chip := if s.lctlDue l then s.sendLctl l else s.sendTime l

/-- R251, R388: the head of a VC's queue is a status that waits for a fenced link. -/
def Chip.headCut (s : Chip) (l v : Nat) : Bool :=
  s.isFenced (.link l) && match (KMap.at (s.lk l).txq [] v).head?.bind (·.resv) with
    | some t => t.replaced
    | none => false

/-- R268, R269, R272: the VC's first waiting flit may be offered: enabled, with credit, not off. -/
def Chip.canSend (s : Chip) (l v : Nat) : Bool :=
  let x := s.lk l
  !(KMap.at x.txq [] v).isEmpty && gateBit x.vcEn v && (x.onOff || decide (0 < s.creditOf l v)) &&
  !gateBit x.off v && !s.headCut l v

/-- R304: a header's VALUE is the tick at which its flit takes its number. -/
def stampPay (p : List Byte) (t : Nat) : List Byte := p.take 12 ++ leBytes 8 t ++ p.drop 20

/-- R266: the last flit of a response that holds a reservation has taken number n: after its T_d the
response is late, else it is lost if the link starts fresh before the partner has it. -/
def Chip.respNumbered (s : Chip) (l n : Nat) (t : RespTag) : Chip :=
  if t.td < s.now then s.lostResp t
  else s.setLk l { s.lk l with unackResp := (s.lk l).unackResp ++ [(n, t)] }

/-- R261, R266, R268: the first waiting flit of VC v takes its number. -/
def Chip.sendVc (s : Chip) (l v : Nat) : Chip :=
  let x := s.lk l
  match KMap.at x.txq [] v with
  | [] => s
  | f :: q =>
    let s := s.setLk l { x with
      txq := KMap.put x.txq [] v q
      txOpen := if f.typ = 1 then v :: x.txOpen else if f.typ = 3 then x.txOpen.erase v else x.txOpen }
    let fc := s.fcFor l v
    let n := s.txNext l
    let s := (s.owedSent l v fc).seqSend l v f.typ fc (if f.stamp then stampPay f.payload s.now else f.payload)
    let s := if x.onOff then s else s.setCredit l v (s.creditOf l v - 1)
    match f.resv with
    | some t => if f.typ = 3 ∨ f.typ = 4 then s.respNumbered l n t else s
    | none => s

/-- R251, R266: statuses that waited for a link past their T_d are dropped. -/
def dropExpired (now : Nat) : List TxFlit → List RespTag × List TxFlit
  | [] => ([], [])
  | f :: q =>
    let (l, r) := dropExpired now q
    match f.resv with
    | some t => if t.replaced && decide (t.td < now) then (t :: l, r) else (l, f :: r)
    | none => (l, f :: r)

/-- R251, R266: and counted. -/
def Chip.dropLate (s : Chip) (l : Nat) : Chip :=
  let x := s.lk l
  let lost := x.txq.flatMap fun e => (dropExpired s.now e.2).1
  if lost.isEmpty then s
  else
    let q := x.txq.foldl (fun q e => KMap.put q [] e.1 (dropExpired s.now e.2).2) x.txq
    forEach lost (fun t s => s.lostResp t) (s.setLk l { x with txq := q })

/-! ### Scheduled, reserved, arbitrated (R272, R305, R317) -/

/-- R235, R305: the scheduled VC to which the plan in force gives flit time k of the present cell, unless a
promise kept its entry out. -/
def Chip.planVc (s : Chip) (l k : Nat) : Option Nat :=
  match s.planAt s.now with
  | none => none
  | some (rs, org, frame) =>
    let c := frameSlot s.now org frame
    (rs.find? fun r => recType r == 1 && recLink r == l && !recIngress r &&
      decide (recSlot r ≤ c ∧ c < recSlot r + recCount r ∧ k < min (recFlits r) (s.planFlits l s.now))).map recVc

/-- The head of a VC's queue belongs to a response that holds a reservation. -/
def headResv (x : Lnk) (v : Nat) : Bool :=
  match KMap.at x.txq [] v with
  | f :: _ => f.resv.isSome
  | [] => false

/-- R327, R329: the gate lets the head packet of VC v start, or the packet has started; whether it
overruns. -/
def Chip.gateFor (s : Chip) (l v : Nat) : Bool × Bool :=
  let x := s.lk l
  match KMap.at x.txq [] v, s.listOf l with
  | f :: _, some i =>
    if x.txOpen.contains v then (true, false) else s.gateTest i (v - 4) (ceilDiv (512 * f.flits) 100) 6
  | _, _ => (true, false)

/-- R315, R327: VCs 4 to 7 whose unreserved packets are offered to the arbiter. -/
def Chip.vcOffers (s : Chip) (l : Nat) : List Nat :=
  [4, 5, 6, 7].filter fun v => s.canSend l v && !headResv (s.lk l) v && (s.gateFor l v).1

/-- R331: priority of an unscheduled VC, and N. -/
def vcPrio (w : Word) (v : Nat) : Nat := Word.bits w (4 * (v - 4) + 2) (4 * (v - 4))
def vcN (w : Word) : Nat := max (Word.bits w 23 16) 2

/-- R317, R319: the requests of the offered VCs, with the flit time since when each waits. -/
def vcReqs (x : Lnk) (offers : List Nat) (n : Nat) : List ArbReq :=
  offers.map fun v => ⟨v, vcPrio x.varb v,
    (((KMap.at x.txq [] v).head?).map (·.flits)).getD 1, (KMap.at x.since none v).getD n⟩

/-- R317, R318: a grant by number g of the arbiter. -/
def grantTo (a : Arb) (n : Nat) (r : ArbReq) : Arb :=
  { a with
    g := a.g + 1
    holder := some ⟨r.who, r.prio, r.beats, 0, r.since, a.g % n == 0⟩ }

/-- R317, R318, R321: the VC that sends in flit time n: the holder, one that preempts it, or a new
one; none while FREEZE stops decisions and no packet is in transfer. Answers the VC, whether it
preempted, and the arbiter. -/
def vcChoice (x : Lnk) (offers : List Nat) (frozen : Bool) (n : Nat) : Option Nat × Bool × Arb :=
  let a := x.arb
  let rs := vcReqs x offers n
  let held := a.holder.filter fun e => offers.contains e.who
  match held with
  | some e =>
    let prio := vcPrio x.varb e.who
    match arbPick a.g (vcN x.varb) (rs.filter fun r => r.who != e.who) with
    | some r =>
      if !frozen && !e.step1 && decide (prio < r.prio) then (some r.who, true, grantTo a (vcN x.varb) r)
      else (some e.who, false, a)
    | none => (some e.who, false, a)
  | none =>
    if frozen then (none, false, a)
    else match arbPick a.g (vcN x.varb) rs with
      | some r => (some r.who, false, grantTo a (vcN x.varb) r)
      | none => (none, false, { a with holder := none })

/-- R317: since when the offered VCs wait; a preempted one from now. -/
def sinceAfter (x : Lnk) (offers : List Nat) (n : Nat) (lost : Option Nat) : KMap (Option Nat) :=
  [4, 5, 6, 7].foldl (fun m v =>
    if !offers.contains v then KMap.put m none v none
    else if lost = some v then KMap.put m none v (some n)
    else match KMap.at m none v with
      | some _ => m
      | none => KMap.put m none v (some n)) x.since

/-- R272 step 4: an unreserved packet of VCs 4 to 7, chosen by the arbiter; none: nothing is sent. -/
def Chip.sendArb (s : Chip) (l n : Nat) : Option Chip :=
  let x := s.lk l
  let offers := s.vcOffers l
  let (w, pre, a) := vcChoice x offers (s.flag (blkCtrl (lkPg l)) 1) n
  let lost := if pre then x.arb.holder.map (·.who) else none
  let s := s.setLk l { x with
    arb := a, since := sinceAfter x offers n lost, preempts := x.preempts + if pre then 1 else 0 }
  match w with
  | none => none
  | some v =>
    let ovr := !x.txOpen.contains v && (s.gateFor l v).2
    let s := (if ovr then s.overrun false else s).sendVc l v
    let x := s.lk l
    if x.txOpen.contains v then
      some (s.setLk l { x with arb := { x.arb with
        holder := x.arb.holder.map fun e => { e with done := e.done + 1 } } })
    else some (s.setLk l { x with
      arb := { x.arb with holder := none }, since := KMap.put x.since none v none })

/-- R272 step 4: a first transmission of a packet flit in flit time k of the cell, flit time n overall:
scheduled VCs by the plan, then responses in their reserved cells, then the arbiter's choice. -/
def Chip.sendFirst (s : Chip) (l k n : Nat) : Option Chip :=
  if 1024 ≤ (s.lk l).replay.length then none
  else
    let sched := (s.planVc l k).filter fun v => s.canSend l v
    match sched with
    | some v => some (s.sendVc l v)
    | none =>
      match [4, 5, 6, 7].find? fun v => decide (k < 23) && headResv (s.lk l) v && s.canSend l v with
      | some v => some (s.sendVc l v)
      | none => s.sendArb l n

/-- R261, R264: flit k of the replay buffer, in a replay; one that leaves for the first time is no
retransmission. -/
def Chip.sendReplay (s : Chip) (l k : Nat) : Chip :=
  let x := s.lk l
  match x.replay[k]? with
  | none => s.setLk l { x with replayPos := none }
  | some f =>
    let first : Bool := decide (x.replay.length ≤ k + x.firsts)
    let s := (if first then s else s.bump (lkPg l + 0x5C)).emit (.flit l (withCrc { f with ack := s.ackOf l }))
    s.setLk l { x with
      replayPos := if k + 1 < x.replay.length then some (k + 1) else none
      firsts := if first then x.firsts - 1 else x.firsts }

/-- R317: since when the offered VCs wait, where none of them sends. -/
def Chip.noteWait (s : Chip) (l n : Nat) : Chip :=
  let x := s.lk l
  s.setLk l { x with since := sinceAfter x (s.vcOffers l) n none }

/-- R261, R272: in a flit time of a replay the next sequenced flit takes its number and waits behind it. -/
def Chip.numberNext (s : Chip) (l k n : Nat) : Chip :=
  if 23 ≤ k ∧ s.lctlDue l = true then s.sendLctl l
  else match s.sendFirst l k n with
    | some s => s
    | none =>
      let s := s.noteWait l n
      if s.lctlDue l then s.sendLctl l else s

/-- R278: an INIT flit leaves. -/
def Chip.sendInit (s : Chip) (l : Nat) : Chip := s.sendPlain l 6 (initBytes (s.initInfo l))

/-- R272: what a link that is UP sends in flit time n. -/
def Chip.upFlit (s : Chip) (l n : Nat) : Chip :=
  let x := s.lk l
  let k := n % 25
  if 0 < x.inits then (s.setLk l { x with inits := x.inits - 1 }).sendInit l
  else if s.inHold l then s.sendPlain l 7 []
  else match x.replayPos with
    | some p => (s.numberNext l k n).sendReplay l p
    | none =>
      if 23 ≤ k ∧ s.ctlDue l = true then s.sendCtl l
      else match s.sendFirst l k n with
        | some s => s
        | none =>
          let s := s.noteWait l n
          if s.ctlDue l then s.sendCtl l else s.sendPlain l 0 []

/-- R260, R268, R295: the oldest flit of the receive buffer leaves toward the router, which has a packet once
the last of its flits has come. -/
def Chip.drainBuf (s : Chip) (l : Nat) : Chip :=
  let x := s.lk l
  match x.buf with
  | [] => s
  | f :: q =>
    let fs := KMap.at x.gather [] f.vc ++ [f]
    let whole : Bool := f.typ == 3 || f.typ == 4
    let s := s.setLk l { x with buf := q, gather := KMap.put x.gather [] f.vc (if whole then [] else fs) }
    let s := (s.owe l f.vc 1).dueLctl l
    if whole then forEach fs (fun f s => s.emit (.deliver l f)) s else s

/-- R255, R276: the header of a codeword: MARK, CWN, LSTATE. -/
def cwHeader (cwn lstate : Nat) : Nat := 0x2D3 + 2 ^ 10 * cwn + 2 ^ 14 * lstate

/-- R255, R276: a codeword starts on a link that sends codewords; the last of a retraining request has left
when the next would start. -/
def Chip.startCodeword (s : Chip) (l cwn : Nat) : Chip :=
  let x := s.lk l
  match s.lkState l, x.ask with
  | 1, some a =>
    if a.left = 0 then if (s.linkRole l).1 = 0 then s.goIdle l else s.setLk l { x with ask := none }
    else (s.setLk l { x with ask := some { a with left := a.left - 1 } }).emit
      (.cwHead l (cwHeader cwn (if a.reset then 2 else 1)))
  | 2, _ | 3, _ | 4, _ => s.emit (.cwHead l (cwHeader cwn 0))
  | _, _ => s

/-- R255, R272, R273: what link l sends in flit time n. -/
def Chip.sendFlit (s : Chip) (l n : Nat) : Chip :=
  match s.lkState l with
  | 1 => if (s.lk l).ask.isSome then s.sendPlain l 0 [] else s
  | 2 => s.sendPlain l 0 []
  | 3 => s.sendInit l
  | 4 => s.upFlit l n
  | _ => s

/-- FLIT_TIME (R251, R255, R261, R263, R272): flit time n = 25·(tick ÷ 128) + … of link l, once. -/
def execFlitTime (l : LinkNo) : State → Host.Outcome State Fault Refusal :=
  liftC fun s =>
    let n := s.now * 25 / 128
    let x := s.lk l
    if x.flitNo = some n then s
    else if x.noPll then (s.dropLate l).reapReqs
    else
      let starts : Bool := match x.flitNo with | some m => m / 5 != n / 5 | none => true
      let s := ((s.setLk l { x with flitNo := some n }).drainBuf l).dropLate l
      let s := if starts then s.startCodeword l (n / 5 % 5) else s
      (s.sendFlit l n).reapReqs

/-! ## The router (R286, R290 to R299) -/

/-- R260: the payloads of a packet's flits. -/
def cut120 : Nat → List Byte → List (List Byte)
  | 0, _ => []
  | n + 1, d => flitPay (d.take 120) :: cut120 n (d.drop 120)

/-- R216, R298: the host and the TAG a response answers. -/
def respKey (h : PktHdr) : Option (Nat × Nat) := if h.typ = 8 then some (h.srcHost, h.tag) else none

/-- R260: the flits of a packet on a VC. -/
def packetFlits (o : OwnPkt) (v : Nat) : List TxFlit :=
  let d := hdrBytes o.pkt.hdr ++ o.pkt.payload
  let n := ceilDiv d.length 120
  (cut120 n d).mapIdx fun i p =>
    { vc := v, typ := if n = 1 then 4 else if i = 0 then 1 else if i + 1 = n then 3 else 2
      flits := n, stamp := o.stamp && i == 0, resv := o.resv, payload := p, resp := respKey o.pkt.hdr }

/-- R234: a VC's queue with a packet joined: one that holds a reservation goes before those that hold
none, behind the packet already started. -/
def joinVc (started : Bool) (q fs : List TxFlit) : List TxFlit :=
  if ((fs.head?).bind (·.resv)).isNone then q ++ fs
  else
    let a := if started then q.takeWhile fun f => f.typ != 1 && f.typ != 4 else []
    let b := q.drop a.length
    let r := b.takeWhile fun f => f.resv.isSome
    a ++ r ++ fs ++ b.drop r.length

/-- R295, R251, R379: a packet joins a link's queue on a VC; on a link that is down or fenced a response that
holds a reservation becomes a status: FENCED, or RESET in a reset of the link. -/
def Chip.toLink (s : Chip) (l v : Nat) (o : OwnPkt) : Chip :=
  let x := s.lk l
  let fs := packetFlits o v
  let fs := if s.portUp l then fs
    else cutQueue (cutFate (if x.resetting then .reset else .fenced)) false fs
  let s := s.setLk l { x with txq := KMap.put x.txq [] v (joinVc (x.txOpen.contains v) (KMap.at x.txq [] v) fs) }
  s.emit (.forward l v o.pkt)

/-- R312: a packet from a port joins a link's queue; one that came by a link is counted as forwarded. -/
def Chip.sendOn (s : Chip) (port l v : Nat) (o : OwnPkt) : Chip :=
  (if port < 96 then s.wrapBy (rtPg + 0x88) 1 else s).toLink l v o

/-- R298: response-class types. -/
def respClass (h : PktHdr) : Bool := h.typ == 5 || h.typ == 8 || h.typ == 9

/-- R291: the lower VC of a packet's class. -/
def lowVc (h : PktHdr) : Nat := if respClass h then 6 else 4

/-- R285, R290: coordinate d (0 X, 1 Y, 2 Z) of a table entry, of the chip, and the torus size. -/
def coordAt (w : Word) (d : Nat) : Nat := Word.bits w (4 * d + 3) (4 * d)
def Chip.selfAt (s : Chip) (d : Nat) : Nat := s.fld (rtPg + 0x40) (4 * d + 15) (4 * d + 12)
def Chip.torus (s : Chip) (d : Nat) : Nat := s.fld (rtPg + 0x44) (4 * d + 3) (4 * d) + 1

/-- R290: the dimension a packet to coordinates w travels next, and whether in the − direction. -/
def Chip.nextHop (s : Chip) (w : Word) : Option (Nat × Bool) :=
  ([0, 1, 2].find? fun d => coordAt w d != s.selfAt d).map fun d =>
    let n := s.torus d
    let k := (coordAt w d + n - s.selfAt d % n) % n
    (d, decide (n < 2 * k))

/-- R287: the links of a direction's bundle, in ascending order. -/
def Chip.bundle (s : Chip) (dir : Nat) : List Nat :=
  (List.range 96).filter fun l => (s.linkRole l).1 == 2 && (s.linkRole l).2 == dir

/-- R292: the member index PICK gives. -/
def pick (host dst m : Nat) : Nat :=
  let h := (host % 2 ^ 14) ^^^ (dst % 4096 * 16)
  ((h / 256 % 256) ^^^ (h % 256)) % max m 1

/-- R292, R388: a link routing takes as UP. -/
def Chip.memberUp (s : Chip) (l : Nat) : Bool := s.lkState l == 4 && !s.shut (.link l)

/-- R292: the link of a bundle a packet takes, and whether it is PICK's own choice. -/
def Chip.pickLink (s : Chip) (ls : List Nat) (host dst : Nat) : Option (Nat × Bool) :=
  let i := pick host dst ls.length
  ((ls.drop i ++ ls.take i).find? s.memberUp).map fun l => (l, ls.getD i 96 == l)

/-- R291: this hop is the wrap link of its dimension. -/
def wrapHop (own n : Nat) (minus : Bool) : Bool := if minus then own == 0 else own + 1 == n

/-- R294: a packet that cannot be routed is counted, and answered if it is a request with an answer. The
answer to one that came by a FABRIC link leaves by that link: DEDUCED (log 36), "over the reverse
route". -/
def Chip.unroute (s : Chip) (port : Nat) (h : PktHdr) (st : Status) : Chip :=
  let s := (s.bump (rtPg + 0x70)).notice rtPg 0
  let (role, dir) := s.linkRole port
  if respClass h ∨ h.typ = 4 ∨ h.typ = 0xA then s
  else if port < 96 ∧ role = 2 ∧ s.memberUp port = true then
    let wraps := wrapHop (s.selfAt (dir / 2)) (s.torus (dir / 2)) (dir % 2 == 1)
    s.toLink port (6 + b01 wraps) ⟨⟨s.respHd h st, []⟩, false, none, none, false⟩
  else s.respond h st

/-- R291: the rest of the route in the dimension still takes the wrap link. -/
def wrapAhead (own dst : Nat) (minus : Bool) : Bool := if minus then decide (own < dst) else decide (dst < own)

/-- R291: the VC of an unscheduled packet: upper on the wrap link and, within its dimension, after
it. -/
def hopVc (h : PktHdr) (sameDim : Bool) (vc : Nat) (wraps : Bool) : Nat :=
  lowVc h + (if wraps || (sameDim && vc % 2 == 1) then 1 else 0)

/-- R291: the VC of a packet moved from a scheduled VC. -/
def movedVc (h : PktHdr) (ahead : Bool) : Nat := lowVc h + (if ahead then 0 else 1)

/-- R293: the plan in force gives VC v of link l, egress, some slot of its frame. -/
def Chip.hasSlot (s : Chip) (l v : Nat) : Bool :=
  match s.planAt s.now with
  | none => false
  | some (rs, _, _) => rs.any fun r => recType r == 1 && recLink r == l && !recIngress r && recVc r == v

/-- R290 to R293: a packet leaves toward another chip. -/
def Chip.route (s : Chip) (port vc : Nat) (moved : Bool) (o : OwnPkt) : Chip :=
  let h := o.pkt.hdr
  let w := KMap.at s.coord 0 h.dstChip
  match (if Word.bit w 31 then s.nextHop w else none) with
  | none => s.unroute port h .noAccess
  | some (d, minus) =>
    let own := s.selfAt d
    match s.pickLink (s.bundle (2 * d + if minus then 1 else 0)) h.srcHost h.dstChip with
    | none => s.unroute port h .fenced
    | some (l, first) =>
      let ahead := wrapAhead own (coordAt w d) minus
      if 4 ≤ vc then
        let sameDim := (s.linkRole port).1 == 2 && (s.linkRole port).2 / 2 == d && decide (port < 96)
        s.sendOn port l (hopVc h sameDim vc (wrapHop own (s.torus d) minus)) o
      else if moved then s.sendOn port l (movedVc h ahead) o
      else if first = false then (s.bump (rtPg + 0x74)).sendOn port l (movedVc h ahead) o
      else if s.hasSlot l vc = false then (s.bump (rtPg + 0x78)).sendOn port l (movedVc h ahead) o
      else s.sendOn port l vc o

/-- R286: a packet for this chip: to a host on one of its links, or to a sink of its own, where the
packet's own command acts. -/
def Chip.deliver (s : Chip) (port vc : Nat) (moved : Bool) (o : OwnPkt) : Chip :=
  let h := o.pkt.hdr
  if 0x7E ≤ h.dstPort then s
  else if 96 ≤ h.dstPort ∨ (s.linkRole h.dstPort).1 ≠ 1 then s.unroute port h .noAccess
  else if 4 ≤ vc ∨ moved then s.sendOn port h.dstPort (lowVc h) o
  else if s.hasSlot h.dstPort vc then s.sendOn port h.dstPort vc o
  else (s.bump (rtPg + 0x78)).sendOn port h.dstPort (lowVc h) o

/-- R290: to its sink, or on its way. -/
def Chip.routeTo (s : Chip) (port vc : Nat) (moved : Bool) (o : OwnPkt) : Chip :=
  if o.pkt.hdr.dstChip = s.selfChip then s.deliver port vc moved o else s.route port vc moved o

/-- R360, R412, R413: a MGMT payload that writes only replicated registers. -/
def mgmtReplicated (d : List Byte) : Bool :=
  let op := payNat d 0 1 % 4
  let n := payNat d 1 1
  let a := payNat d 4 4 % 2 ^ 25
  op == 2 && decide (0x1000000 ≤ a ∧ a + 4 * n ≤ 0x1100000)

/-- R413: a packet from a HOST link is an input, but for what the chip serves alone: TIME, and MGMT
other than a write of replicated state. -/
def flesonInput (p : Packet) : Bool :=
  p.hdr.typ != 0xB && (p.hdr.typ != 0xD || mgmtReplicated p.payload)

/-- R413: the types of requests that carry a class. -/
def flesonClassed (t : Nat) : Bool := [1, 2, 3, 6].contains t

/-- R286, R294, R299: a packet from a HOST link names 0x7E or 0x7F, and takes the chip and the link as
its source. A packet for this chip meets R184 at its sink. -/
def Chip.fromHost (s : Chip) (port vc : Nat) (moved : Bool) (p : Packet) : Chip :=
  let h := { p.hdr with srcChip := s.selfChip, srcPort := port }
  if h.dstPort ≠ 0x7E ∧ h.dstPort ≠ 0x7F then s.unroute port h .noAccess
  else if h.dstChip ≠ s.selfChip ∧ s.spoofed port h.srcHost then
    if respClass h then s.spoofCount else s.spoofCount.respond h .noAccess
  else
    let q : Packet := ⟨h, p.payload⟩
    let go := fun s : Chip => s.routeTo port vc moved ⟨q, false, none, none, false⟩
    if h.dstChip = s.selfChip ∧ flesonInput q then
      s.takeInput (.fleson port vc moved q) (flesonClassed h.typ) go
    else go s

/-- R311: whether the oldest packet of scheduled VC v of a link that waits for the router was moved. -/
def movedHead (x : Lnk) (v : Nat) : Bool :=
  match x.heads.find? fun e => e.1 == v with
  | some e => e.2
  | none => false

/-- R416, R419, R422: the oldest of the chip's own packets goes on; on a paired chip an output of the
pair waits for its acknowledgement, is held by a frozen holder, and is kept back by a chip that does
not act. -/
def Chip.sendOwn (s : Chip) (o : OwnPkt) (q : List OwnPkt) : Chip :=
  let out := Out.packet o.pkt
  let go := fun s : Chip => Chip.routeTo { s with own := q } 127 4 false o
  if o.lone ∨ pairOutput out = false ∨ s.pairRole = 0 then go s
  else
    let cause := match o.cause with | some n => some n | none => s.causeOf out
    if s.pairRole = 3 then s
    else if s.mutes then Chip.keep { s with own := q } out cause o.resv.isSome
    else if o.resv.isSome then go s
    else if s.unacked out cause then s
    else go (s.enterOut out cause none)

/-- FORWARD (R284, R286, R290 to R299): the router takes a packet from VC vc of link port, or, with port
127, the oldest of the chip's own. -/
def execForward (port vc : Nat) (pkt : Packet) : State → Host.Outcome State Fault Refusal :=
  liftC fun s =>
    if s.addressed = false then s
    else if port = 127 then match s.own with
      | [] => s
      | o :: q => if o.pkt = pkt then (s.sendOwn o q).reapReqs else s
    else if 96 ≤ port ∨ 8 ≤ vc then s
    else
      let x := s.lk port
      let moved := movedHead x vc
      let s' := s.setLk port { x with heads := x.heads.eraseP fun e => e.1 == vc }
      match (s.linkRole port).1 with
      | 1 => s'.fromHost port vc moved pkt
      | 2 => s'.routeTo port vc moved ⟨pkt, false, none, none, false⟩
      | _ => s

/-! ## Roles (R287, R288) -/

/-- R288, R409: the causes for which a role write is refused. -/
def Chip.roleRefused (s : Chip) (l role dir : Nat) : Bool :=
  role == 2 && (decide (5 < dir) || s.flag (pairPg + 0x40) 0 ||
    decide (8 ≤ ((s.bundle dir).filter fun k => k != l).length))

/-- R288: a role or direction changes. A link that enters OFF is idle once its reset request is sent. -/
def Chip.changeRole (s : Chip) (l role dir : Nat) : Chip :=
  let (r0, _) := s.linkRole l
  let s := s.resetLink l
  let s := { s with roles := KMap.put s.roles none l (if (role, dir) = role0 l then none else some (role, dir)) }
  let s := if r0 = 1 ∨ role = 1 then { s with rights.linkHost := KMap.put s.rights.linkHost none l none } else s
  let s := if role = 0 then if (s.lk l).ask.isSome && !(s.lk l).noPll then s else s.goIdle l
    else if r0 = 0 then
      ((s.setLkState l 1).setFld (lkPg l + 0x44) 11 8 0).setLk l { s.lk l with ask := none, mustFull := true }
    else s
  s.ftEval

/-- RT_ROLE (R287, R288, R509): a write of RT_ROLE for the selected link; beyond the last link it is
ignored and counted. -/
def execRtRole (v : Word) : State → Host.Outcome State Fault Refusal :=
  liftC fun s =>
    let l := s.fld (rtPg + 0x50) 6 0
    let role := Word.bits v 1 0
    let dir := Word.bits v 6 4
    if 96 ≤ l then s.bump (glbPg + 0x7C)
    else if s.roleRefused l role dir then s.notice rtPg 2
    else if s.linkRole l = (role, dir) then s
    else if (s.linkRole l).1 = role ∧ role ≠ 2 then
      { s with roles := KMap.put s.roles none l (if (role, dir) = role0 l then none else some (role, dir)) }
    else s.changeRole l role dir

end Sys2Proof.Machine
end

