-- ==== Sys2Proof/Machine/Mesh.lean ====
section
/-! DEFINITION. The on-chip mesh: where each block stands, its routers and their ports, and the path of
a packet (R16, R17, R20). -/

namespace Sys2Proof.Machine

/-! ## Places (R16, R17) -/

/-- R17: mesh row and column of cluster n; row 0 is the north row, column 0 the west column. -/
def meshRow (n : Nat) : Nat := n / 16
def meshCol (n : Nat) : Nat := n % 16

/-- R16, R20: what is attached to the mesh: a cluster's router, a memory station of an edge beside a row,
and a station of the north edge. -/
inductive Station where
  | cluster (row col : Nat)
  | west (row : Nat)
  | east (row : Nat)
  | north (block : Nat)
deriving DecidableEq, Repr

/-- R16: the blocks that the mesh joins: a cluster, a channel controller (stack n div 32), and a block of
the north edge: 0 the directory, 1 the controller-side tables, 2 the admission controller, 3 the Fleson
router, 4 the Ethernet MAC and XHT engine, 5 the check-value units, 6 the pair and crown logic, 7 the
supervisor triad, 8 the Kilvy chain port. -/
inductive MeshBlock where
  | cluster (n : Nat)
  | mc (n : Nat)
  | north (k : Nat)
deriving DecidableEq, Repr

/-- R16, R17, R20: the station of a block: stacks 0 to 3 on the west edge, 4 to 7 on the east edge. The row
of a controller's station is not stated (log entry 87). -/
def stationOf : MeshBlock → Station
  | .cluster n => .cluster (meshRow n) (meshCol n)
  | .mc n => if n / 32 < 4 then .west (Config.channelRow n % 13) else .east (Config.channelRow n % 13)
  | .north k => .north k

/-! ## Routers and ports (R20, R315) -/

/-- R20: routers by number: those of clusters 0 to 207, then the stations of the west edge and of the east
edge by row (log entry 87). -/
def routerAt : Station → Option Nat
  | .cluster r c => some (16 * r + c)
  | .west r => some (208 + r)
  | .east r => some (221 + r)
  | .north _ => none

/-- Ports: 0 the block of the router itself, 1 west, 2 east, 3 north, 4 south (log entry 87). R16, R20: the
north port of the north row leads to the stations of the north edge; the edges have nothing beyond. -/
def meshPort (r p : Nat) : Bool :=
  if r < 208 then decide (p < 5) && !(p == 4 && meshRow r == 12)
  else if r < 221 then p == 0 || p == 2 || (p == 3 && decide (208 < r)) || (p == 4 && decide (r < 220))
  else if r < 234 then p == 0 || p == 1 || (p == 3 && decide (221 < r)) || (p == 4 && decide (r < 233))
  else false

/-- R20: a packet that came in by one port may leave by another: along its row first, then along its
column, so that it turns at most once. -/
def meshTurn (i o : Nat) : Bool :=
  match i, o with
  | 0, 0 => false
  | _, 0 => true
  | 0, _ => true
  | 2, 1 => true
  | 1, 2 => true
  | 4, 3 | 1, 3 | 2, 3 => true
  | 3, 4 | 1, 4 | 2, 4 => true
  | _, _ => false

/-! ## Paths (R20) -/

/-- A number and those on the way to another, both included. -/
def walkTo (a b : Nat) : List Nat :=
  if a ≤ b then (List.range (b - a + 1)).map (a + ·) else (List.range (a - b + 1)).map (a - ·)

/-- R20: the path of a packet from one cluster to another: along the row, then along the column. -/
def meshPath (n m : Nat) : List Station :=
  (walkTo (meshCol n) (meshCol m)).map (.cluster (meshRow n) ·) ++
  ((walkTo (meshRow n) (meshRow m)).drop 1).map (.cluster · (meshCol m))

/-- R20: the path of a packet from a cluster to a stack: along the cluster's own row to the edge station on
the stack's side, then along the edge column to the station of the channel. -/
def poolPath (n ctrl : Nat) : List Station :=
  let west := decide (ctrl / 32 < 4)
  let edge := fun r : Nat => if west then Station.west r else Station.east r
  (walkTo (meshCol n) (if west then 0 else 15)).map (.cluster (meshRow n) ·) ++
  (walkTo (meshRow n) (Config.channelRow ctrl % 13)).map edge

end Sys2Proof.Machine
end

