-- ==== Sys2Proof/Machine/Grant.lean ====
section
/-! DEFINITION. One decision of a grant arbiter at any of its placements (R115, R167, R315 to
R321). -/

namespace Sys2Proof.Machine

/-- R315: the key of an arbiter; none where there is no such arbiter. -/
def arbKey : ArbId → Option Nat
  | .bank c b => if c < 208 ∧ b < 32 then some (32 * c + b) else none
  | .mc n => if n < 256 then some (2 ^ 20 + n) else none
  | .vc l => if l < 96 then some (2 ^ 21 + l) else none
  | .mesh r o => if meshPort r o then some (2 ^ 22 + 16 * r + o) else none

/-- R20, R115, R167, R315: requester w exists at the placement; at a mesh port it is an input port whose
packets may leave there. -/
def arbHas : ArbId → Nat → Bool
  | .bank _ _, w => decide (w < 7)
  | .mc _, w => decide (w < 5)
  | .vc _, w => decide (4 ≤ w ∧ w < 8)
  | .mesh r o, w => meshPort r w && meshTurn w o

/-- R315, R320: the priority of a request: from the placement's register, or, on a mesh port, 1 for
promise-bound traffic and 0 for other, as presented. -/
def Chip.arbPrio (s : Chip) (id : ArbId) (w asked : Nat) : Nat :=
  match id with
  | .bank c _ => s.fld (stPg c + 0x44) (4 * w + 2) (4 * w)
  | .mc n => s.fld (mcPg n + 0xA4) (4 * w + 2) (4 * w)
  | .vc l => vcPrio (s.lk l).varb w
  | .mesh _ _ => min asked 1

/-- R315: N of a placement. -/
def Chip.arbN (s : Chip) (id : ArbId) : Nat :=
  match id with
  | .bank c _ => max (s.fld (stPg c + 0x48) 7 0) 2
  | .mc n => max (s.fld (mcPg n + 0xA8) 7 0) 2
  | .vc l => vcN (s.lk l).varb
  | .mesh _ _ => 8

/-- R315, R321: FREEZE of the placement's page. -/
def Chip.arbFrozen (s : Chip) (id : ArbId) : Bool :=
  match id with
  | .bank c _ => s.flag (blkCtrl (stPg c)) 1
  | .mc n => s.flag (blkCtrl (mcPg n)) 1
  | .vc l => s.flag (blkCtrl (lkPg l)) 1
  | .mesh _ _ => false

/-- R315: transfers that may be preempted. -/
def arbPreempts : ArbId → Bool
  | .bank _ _ | .vc _ => true
  | _ => false

/-- R316: c cycles pass: the holder transfers one beat in each; a finished transfer ends. -/
def arbAdvance (a : Arb) (c : Nat) : Arb :=
  { a with
    cycle := a.cycle + c
    holder := match a.holder with
      | some e => if e.done + c < e.beats then some { e with done := e.done + c } else none
      | none => none }

/-- R318, R319: entries in the order of the placement's requester table. -/
def insertEnt (e : ArbEnt) : List ArbEnt → List ArbEnt
  | [] => [e]
  | x :: l => if e.who < x.who then e :: x :: l else x :: insertEnt e l

/-- R319: new requests are parked; a requester holds at most one entry. -/
def parkNew (a : Arb) (l : List ArbEnt) : Arb :=
  l.foldl (fun a e =>
    let known : Bool := (a.parked.any fun x => x.who == e.who) ||
      (match a.holder with | some h => h.who == e.who | none => false)
    if known then a else { a with parked := insertEnt e a.parked }) a

/-- R316, R319: withdrawn requests lose their entries. -/
def withdraw (a : Arb) (ws : List Nat) : Arb :=
  { a with
    parked := a.parked.filter fun e => !ws.contains e.who
    holder := a.holder.filter fun e => !ws.contains e.who }

/-- R317, R318: the next grant goes to the parked entry of requester w; a preempted holder is parked
with its progress. -/
def giveTo (a : Arb) (n w : Nat) : Arb :=
  match a.parked.find? fun e => e.who == w with
  | none => a
  | some e =>
    let rest := a.parked.filter fun x => x.who != w
    { a with
      g := a.g + 1
      holder := some { e with step1 := a.g % n == 0 }
      parked := match a.holder with
        | some h => insertEnt { h with since := a.cycle } rest
        | none => rest }

/-- The outcome of a decision: nothing granted, a void grant, a grant, a preemption. -/
inductive ArbRes where
  | idle | void | grant | preempt
deriving DecidableEq, Repr

/-- R316 to R319: one decision: prio gives the priorities in force, ws the requests withdrawn in this
cycle. -/
def arbDecide (a : Arb) (n : Nat) (pre : Bool) (prio : ArbEnt → Nat) (ws : List Nat) : ArbRes × Arb :=
  match arbPick a.g n (a.parked.map fun e => ArbReq.mk e.who (prio e) e.beats e.since) with
  | none => (.idle, withdraw a ws)
  | some r =>
    match a.holder with
    | some h =>
      if pre && !h.step1 && decide (prio h < r.prio) && !ws.contains h.who then
        if ws.contains r.who then (.void, withdraw a ws) else (.preempt, withdraw (giveTo a n r.who) ws)
      else (.idle, withdraw a ws)
    | none =>
      if ws.contains r.who then (.void, withdraw a ws) else (.grant, withdraw (giveTo a n r.who) ws)

/-- The arbiter's state; a controller's grant number is that of its block slots (R167), a link's
arbiter that of its flit times. -/
def Chip.arb (s : Chip) (id : ArbId) (k : Nat) : Arb :=
  match id with
  | .vc l => (s.lk l).arb
  | .mc n => { KMap.at s.arbs {} k with g := (s.mc n).arbCount }
  | _ => KMap.at s.arbs {} k

/-- The arbiter's state is set; R331: void grants and preemptions of a link are counted. -/
def Chip.setArb (s : Chip) (id : ArbId) (k : Nat) (r : ArbRes) (a : Arb) : Chip :=
  match id with
  | .vc l =>
    let x := s.lk l
    s.setLk l { x with
      arb := a
      voids := min (x.voids + if r == .void then 1 else 0) 0xffffffff
      preempts := min (x.preempts + if r == .preempt then 1 else 0) 0xffffffff }
  | .mc n =>
    let s := s.setMc n { s.mc n with arbCount := a.g }
    { s with arbs := KMap.put s.arbs {} k { a with g := 1 } }
  | _ => { s with arbs := KMap.put s.arbs {} k a }

/-- ARB_GRANT (R315 to R321): `cycles` cycles after its last decision the arbiter decides among the
requests it has parked and the new ones, of which those listed are withdrawn in the same cycle. While
FREEZE is set it decides nothing. -/
def execArbGrant (id : ArbId) (cycles : Nat) (reqs : List ArbReq) (withdrawn : List Nat) :
    State → Host.Outcome State Fault Refusal :=
  liftC fun s => match arbKey id with
    | none => s
    | some k =>
      let a := arbAdvance (s.arb id k) cycles
      let new := (reqs.filter fun r => arbHas id r.who).map fun r =>
        ArbEnt.mk r.who r.prio (max r.beats 1) 0 a.cycle false
      let a := parkNew a new
      if s.arbFrozen id then s.setArb id k .idle (withdraw a withdrawn)
      else
        let (r, a) := arbDecide a (s.arbN id) (arbPreempts id) (fun e => s.arbPrio id e.who e.prio) withdrawn
        s.setArb id k r a

end Sys2Proof.Machine
end

