-- ==== Sys2Proof/Machine/Eth.lean ====
section
/-! DEFINITION. The Ethernet port and the XHT transport: received frames, sessions, windows,
acknowledgements, retransmission, discovery, pause, the port's state (R333 to R349, R360 to R362). -/

namespace Sys2Proof.Machine

/-- The port is UP and not fenced. -/
def Chip.ethUp (s : Chip) : Bool := s.fld (enPg + 0x44) 1 0 == 2 && !s.isFenced .eth

/-! ## Received frames (R335 to R338) -/

/-- R337: an address of the port's own. -/
def Chip.ownIp (s : Chip) (af6 : Bool) (ip : Nat) : Bool :=
  if af6 then [0x58, 0x68].any fun a => s.pair (enPg + a) + 2 ^ 64 * s.pair (enPg + a + 8) == ip
  else [0x50, 0x54].any fun a => (s.reg (enPg + a)).toNat == ip

/-- R335: excluded by the MAC: an 802.1ad outer tag, two tags, Clause 31 PAUSE. -/
def macExcluded (f : EthFrame) : Bool :=
  f.tpids.head? == some 0x88A8 || decide (2 ≤ f.tpids.length) || f.kind == .pause

/-- R337: an IP frame that is not for the port. -/
def Chip.notOurs (s : Chip) (f : EthFrame) : Bool :=
  f.kind == .other || (f.kind == .udp && (!f.ipPlain || !s.ownIp f.af6 f.dstIp))

/-- R337: the IP header or UDP checksum is wrong; an IPv4 datagram with checksum 0 is not checked. -/
def sumBad (f : EthFrame) : Bool :=
  f.kind == .udp && (!f.ipChecksumOk || (!(f.udpChecksum == 0 && !f.af6) && !f.udpChecksumOk))

/-- R338: the counter of the first row of the table that applies to a frame as such. -/
def Chip.frameBad (s : Chip) (f : EthFrame) : Option Nat :=
  if f.fcsOk = false ∨ f.len < 64 then some 0x88
  else if (if s.flag (enPg + 0x40) 2 then 9216 else 1522) < f.len then some 0x8C
  else if macExcluded f ∨ s.notOurs f = true then some 0x90
  else if sumBad f then some 0x88
  else none

/-- R340: the datagram of a UDP payload; none where it is shorter than its header. -/
def datagramOf (p : List Byte) : Option Datagram :=
  if p.length < 32 then none
  else
    let w := fun k : Nat => BitVec.ofNat 32 (payNat p (4 * k) 4)
    let b := Word.bits
    some ⟨{ typ := b (w 0) 3 0, ver := b (w 0) 7 4, dup := Word.bit (w 0) 8, last := Word.bit (w 0) 9
            retx := Word.bit (w 0) 10, hasValue := Word.bit (w 0) 11, session := b (w 0) 23 16
            chan := b (w 0) 28 24, seq := (w 1).toNat, tag := b (w 2) 15 0, cls := b (w 2) 18 16
            status := b (w 2) 22 19, word3 := (w 3).toNat, word4 := (w 4).toNat, len := b (w 5) 20 0
            foff := b (w 6) 20 0
            rsvdZero := b (w 0) 15 12 == 0 }, p.drop 32⟩

/-- R338, R340, R341, R342: a header the port counts as bad: VER, a reserved TYPE, CHAN, CLASS or FLAGS
bit. -/
def xhtBad (h : XhtHdr) : Bool :=
  h.ver != 1 || h.typ == 0 || decide (0xC ≤ h.typ ∨ 19 ≤ h.chan ∨ 5 ≤ h.cls) || !h.rsvdZero

/-- R344: remote IP address of a session. -/
def Chip.sessIp (s : Chip) (i : Nat) : Nat :=
  (List.range 4).foldl (fun n k => n + 2 ^ (32 * k) * (s.sessW i (4 + k)).toNat) 0

/-- R338: the session is VALID and its remote address, port and VLAN are the frame's. -/
def Chip.sessMatches (s : Chip) (i : Nat) (f : EthFrame) : Bool :=
  s.sessValid i && Word.bit (s.sessW i 0) 1 == f.af6 && s.sessIp i == f.srcIp &&
  Word.bits (s.sessW i 1) 31 16 == f.srcPort && Word.bit (s.sessW i 0) 24 == !f.tpids.isEmpty &&
  (f.tpids.isEmpty || Word.bits (s.sessW i 1) 11 0 == f.vid)

/-- R342: the host may send the type on the channel. -/
def typeOnChan (typ chan : Nat) : Bool :=
  if chan < 16 then typ == 1 || typ == 8
  else if chan = 16 then [1, 4, 5, 6, 9, 0xA].contains typ
  else if chan = 17 then typ == 3
  else typ == 0xB

/-- R338, R342, R344: the type is not allowed on the channel, or the session does not own it. -/
def Chip.chanBad (s : Chip) (h : XhtHdr) : Bool :=
  !typeOnChan h.typ h.chan ||
  (decide (h.chan < 16) && s.chanOwner (s.sessPart h.session) h.chan != some h.session)

/-- R346: where a SEQ lies: new, in the window, older. -/
inductive SeqPlace where
  | new | inside | old
deriving DecidableEq, Repr

def seqPlace (w : SeqWin) (seq : Nat) : SeqPlace :=
  match w.h with
  | none => .new
  | some h =>
    let d := (seq + 2 ^ 32 - h % 2 ^ 32) % 2 ^ 32
    if 1 ≤ d ∧ d ≤ 2 ^ 31 - 1 then .new
    else if (h + 2 ^ 32 - seq % 2 ^ 32) % 2 ^ 32 ≤ 4095 then .inside
    else .old

/-- R346: H moves to a new SEQ; entries that leave the window go. -/
def advanceWin (w : SeqWin) (seq : Nat) : SeqWin :=
  { h := some seq, ents := w.ents.filter fun e => decide ((seq + 2 ^ 32 - e.seq % 2 ^ 32) % 2 ^ 32 ≤ 4095) }

/-! ### Malformed commands (R351, R352) -/

/-- R351: words of a CMD payload and the bits of its argument words that must be 0, by OPC. SVC_SET's
are checked by the command. -/
def cmdForm (opc : Nat) : Option (Nat × List (Nat × Nat)) :=
  match opc with
  | 0x01 | 0x02 => some (1, [])
  | 0x10 => some (10, [(1, 0xFFFFFF00)])
  | 0x11 => some (2, [(1, 0xFFFFFF00)])
  | 0x20 => some (12, [(1, 0xFFFFFFE0), (8, 0xFFFF0000), (9, 0xFFF), (10, 0xFFFFFF00), (11, 0xFFF80000)])
  | 0x21 | 0x23 => some (2, [(1, 0xFFFFFFE0)])
  | 0x22 => some (2, [(1, 0xFFFFFEE0)])
  | 0x24 => some (5, [(1, 0xFFFFFCE0), (2, 0x1FFFFF), (3, 0xFFFF0000), (4, 0xF0000000)])
  | 0x30 => some (4, [(1, 0xFFFFFFC0), (2, 0xFFFFE000), (3, 0xFFFFC000)])
  | 0x31 => some (5, [(1, 0xFFFFFFFF), (2, 0xFFFFE000), (3, 0xFFFFC000), (4, 0xFFFFF000)])
  | 0x32 => some (4, [(1, 0xFFFFC0FE), (2, 0xFFFFE000), (3, 0xFFFFC000)])
  | 0x33 | 0x34 => some (4, [(1, 0xFFFFFFFF), (2, 0xFFFFE000), (3, 0xFFFFC000)])
  | 0x38 => some (6, [(1, 0xFFFFF000)])
  | 0x39 | 0x3B => some (2, [(1, 0xFFFFF000)])
  | 0x3A => some (4, [(1, 0xFFFFC000), (2, 0xFC000000), (3, 0xFC000000)])
  | 0x3C => some (3, [(1, 0x7FFFFF80), (2, 0xFFFFC000)])
  | 0x40 => some (8, [(2, 0xFFFFFF00), (3, 0xFFFF0000), (5, 0xFFFFFF00)])
  | 0x41 => some (2, [(1, 0xFFFFFC00)])
  | _ => none

/-- R352: a CMD payload a command can be read from: OPC, length and reserved bits. -/
def cmdWellFormed (len : Nat) (p : List Byte) : Bool :=
  let w := fun k : Nat => payNat p (4 * k) 4
  let opc := w 0 % 65536
  len == p.length && w 0 < 65536 &&
  if opc = 0x50 then decide (len = 4 * (8 + 3 * (w 2 / 32 % 16 + 1)))
  else match cmdForm opc with
    | none => false
    | some (n, ms) => len == 4 * n && ms.all fun m => w m.1 &&& m.2 == 0

/-- R352: the command may come on its channel: NOP and LEASE_RENEW on the data channel, every other
on a command channel. -/
def cmdOnChan (opc chan : Nat) : Bool := if chan = 16 then opc == 1 || opc == 2 else !(opc == 1 || opc == 2)

/-! ### A frame is received -/

/-- R336: bytes of the ingress buffer in use, and those of priority q. -/
def Chip.inBytes (s : Chip) : Nat := (s.eth.ingress.map (·.len)).sum
def Chip.inShare (s : Chip) (q : Nat) : Nat := ((s.eth.ingress.filter fun e => e.pcp == q).map (·.len)).sum

/-- R336: priority q uses flow control. -/
def Chip.pfcOn (s : Chip) (q : Nat) : Bool := s.flag (enPg + 0x40) 4 && gateBit (s.fld (enPg + 0x40) 15 8) q

/-- R336, R354: a datagram enters the ingress buffer and goes to the XHT engine; one that finds the
buffer full is discarded. A priority whose share passes 3/4 of 1/8 of the buffer is paused. -/
def Chip.passOn (s : Chip) (f : EthFrame) (d : Datagram) : Chip :=
  if 1048576 < s.inBytes + f.len then s.bump (enPg + 0x94)
  else
    let h := d.hdr
    let s := { s with eth.ingress := s.eth.ingress ++ [InFrame.mk h.session h.chan h.seq f.pcp f.len s.now] }
    let s := s.emit (.pass d)
    if s.pfcOn f.pcp && decide (98304 < s.inShare f.pcp) then s.emit (.pfc f.pcp) else s

/-- R347, R352: a request in the window: recorded entries answer it; a malformed command answers
NO_ACCESS; else it goes on. -/
def Chip.takeDatagram (s : Chip) (f : EthFrame) (d : Datagram) : Chip :=
  let h := d.hdr
  let q : CmdReq := ⟨h.session, h.chan, h.seq, h.tag⟩
  let again : Bool := match winEnt (s.winOf h.session h.chan) h.seq with
    | some e => !(e.sent && (h.typ == 4 || h.typ == 0xA))
    | none => false
  if again then (s.recorded q (if h.typ = 6 then 7 else 2)).getD s
  else if h.typ = 1 ∧ (cmdWellFormed h.len d.payload = false ∨
      cmdOnChan (payNat d.payload 0 2) h.chan = false) then
    if s.isFenced (.part (s.sessPart h.session)) then s.cmdTurnAway q .fenced
    else if s.partResetting (s.sessPart h.session) then s.cmdTurnAway q .reset
    else s.cmdAnswer q .noAccess 0
  else s.passOn f d

/-- R338, R346: an XHT datagram at a session. Acknowledgements carry no SEQ of a window. -/
def Chip.atSession (s : Chip) (f : EthFrame) (d : Datagram) : Chip :=
  let h := d.hdr
  if s.sessMatches h.session f = false ∨ s.chanBad h = true then s.bump (enPg + 0x9C)
  else if 17 ≤ h.chan then s.passOn f d
  else
    let w := s.winOf h.session h.chan
    match seqPlace w h.seq with
    | .old => s.bump (enPg + 0xA0)
    | .inside => s.takeDatagram f d
    | .new => (s.setWin h.session h.chan (advanceWin w h.seq)).takeDatagram f d

/-- R413: a datagram is an input, but for TIME, and MGMT other than a write of replicated state. -/
def xhtInput (d : Datagram) : Bool :=
  d.hdr.typ != 0xA && (d.hdr.typ != 9 || mgmtReplicated d.payload)

/-- R413: the types of requests that carry a class. -/
def xhtClassed (t : Nat) : Bool := [4, 5, 6].contains t

/-- FRAME_RECEIVE (R335 to R338, R346, R347, R413): a frame that carries UDP, PAUSE or anything the port has
no use for; frames for firmware, discovery and flow control have commands of their own. -/
def execFrameReceive (f : EthFrame) : State → Host.Outcome State Fault Refusal :=
  liftC fun s =>
    if s.ethUp = false ∨ f.kind = .toFirmware ∨ f.kind = .discovery ∨ f.kind = .pfc then s
    else
      let s := s.wrapBy (enPg + 0xC4) 1
      let s := if f.kind = .pause then s.bump (enPg + 0xB0) else s
      match s.frameBad f with
      | some r => s.bump (enPg + r)
      | none =>
        if f.dstPort = 319 ∨ f.dstPort = 320 then s.emit (.firmware f)
        else if f.dstPort ≠ s.fld (enPg + 0x78) 15 0 then s.bump (enPg + 0x90)
        else match datagramOf f.udpPayload with
          | none => s.bump (enPg + 0x98)
          | some d =>
            if xhtBad d.hdr then s.bump (enPg + 0x98)
            else if xhtInput d then
              s.takeInput (.xht f d) (xhtClassed d.hdr.typ) fun s => s.atSession f d
            else s.atSession f d

/-- R343: MAC address of the port. -/
def Chip.macAddr (s : Chip) : Nat := (s.reg (enPg + 0x48)).toNat + 2 ^ 32 * s.fld (enPg + 0x4C) 15 0

/-- FIRMWARE_FRAME (R337, R361): ARP, neighbour solicitations, echo requests and IEEE 1588 messages go
to firmware; after a Sync firmware may form a correspondence: fabric tick, seconds, nanoseconds. -/
def execFirmwareFrame (f : EthFrame) (sync : Option (Nat × Nat × Nat)) :
    State → Host.Outcome State Fault Refusal :=
  liftC fun s =>
    let ptp : Bool := f.kind == .udp && (f.dstPort == 319 || f.dstPort == 320)
    if s.ethUp = false ∨ !(f.kind == .toFirmware || ptp) then s
    else
      let s := s.wrapBy (enPg + 0xC4) 1
      match s.frameBad f with
      | some r => s.bump (enPg + r)
      | none =>
        let s := s.emit (.firmware f)
        match (if ptp then sync else none) with
        | some (t, sec, ns) => { s with eth.corr := some ⟨t, sec, ns⟩ }.setFlag (enPg + 0x44) 3 true
        | none => s

/-- R343: the payload of an ADVERTISE. -/
def Chip.advertiseBody (s : Chip) : List Byte :=
  [0x4B, 0x56, 0x02, 0] ++ leBytes 2 s.selfChip ++ leBytes 6 s.macAddr ++
  (List.range 10).flatMap (fun k => leBytes 4 (s.reg (enPg + 0x50 + 4 * k)).toNat) ++
  leBytes 2 (s.fld (enPg + 0x78) 15 0) ++ leBytes 4 (s.reg (glbPg + 4)).toNat ++
  leBytes 1 (s.fld (enPg + 0x44) 2 2)

/-- DISCOVER (R343): answered by one ADVERTISE, at most one in 1 ms. -/
def execDiscover (f : EthFrame) : State → Host.Outcome State Fault Refusal :=
  liftC fun s =>
    if s.ethUp = false ∨ f.kind ≠ .discovery then s
    else
      let s := s.wrapBy (enPg + 0xC4) 1
      match s.frameBad f with
      | some r => s.bump (enPg + r)
      | none =>
        let soon : Bool := match s.eth.lastAdv with | some t => decide (s.now < t + 1000000) | none => false
        if s.flag (enPg + 0x40) 3 && f.udpPayload.take 3 == [0x4B, 0x56, 0x01] && !soon &&
            (f.dstMac == s.macAddr || f.dstMac == 2 ^ 48 - 1) then
          Chip.ethSend { s with eth.lastAdv := some s.now } 0 (14 + (if f.tpids.isEmpty then 0 else 4) + 59 + 4)
            (.advertise f.srcMac f.vid s.advertiseBody) none
        else s

/-- R336: the pause a flow control frame asks of priority q: enabled by its vector, in quanta of 512
bit times. -/
def pfcTime (p : List Byte) (q : Nat) : Option Nat :=
  if gateBit (beNat ((p.drop 2).take 2)) q then some (beNat ((p.drop (4 + 2 * q)).take 2)) else none

/-- PFC_FRAME (R336): the payload of an IEEE 802.1Qbb frame follows its EtherType. -/
def execPfcFrame (f : EthFrame) : State → Host.Outcome State Fault Refusal :=
  liftC fun s =>
    if s.ethUp = false ∨ f.kind ≠ .pfc then s
    else
      let s := s.wrapBy (enPg + 0xC4) 1
      match s.frameBad f with
      | some r => s.bump (enPg + r)
      | none =>
        let s := s.bump (enPg + 0xB0)
        let s := forEach (List.range 8) (fun q s =>
          match (if s.pfcOn q then pfcTime f.udpPayload q else none) with
          | none => s
          | some n =>
            let rest := s.eth.paused.filter fun e => e.1 != q
            let t := s.now + ceilDiv (512 * n) (if s.flag (enPg + 0x44) 2 then 800 else 1600)
            { s with eth.paused := if n = 0 then rest else rest ++ [(q, t)] }) s
        s.tryEth

/-! ## The port's state (R334) -/

/-- R334: the port leaves UP and retrains. -/
def Chip.portDown (s : Chip) : Chip :=
  if s.fld (enPg + 0x44) 1 0 = 2 then (s.setFld (enPg + 0x44) 1 0 1).notice enPg 0 else s

/-- PORT_DOWN (R334): a change of mode, a loss of PCS lock, a write of EN_CTRL.MODE or SOFT_RESET;
cause names which, and nothing depends on it. -/
def execPortDown (_cause : Nat) : State → Host.Outcome State Fault Refusal := liftC fun s => s.portDown

/-- R251, R334: a response without a failure that waits for the port as it returns to UP: past its T_d it is
lost, else one frame with status FENCED takes the place of what is left of it (log entry 95). -/
def Chip.heldBack (s : Chip) (r : Req) : Chip :=
  match s.held.filter fun h => h.what.respTo r with
  | ⟨_, part, _, .xht a d, free, td⟩ :: _ =>
    if d.hdr.status ≠ 0 then s
    else
      let s := { s with held := s.held.filter fun h => !h.what.respTo r }
      if r.td < s.now then (s.promiseLost r.part r.host r.tag).dropReq r.id
      else
        let h : Held := ⟨96, part, frameTo a 0, .xht a ⟨reqXhdr r .fenced, []⟩, free, td⟩
        Chip.record { s with held := s.held ++ [h] } r.session r.chan r.seq true .fenced 0
  | _ => s

/-- PORT_UP (R334, R251, R485): training ended, with lane PLL group 5 in lock, in reduced mode or not as
auto-negotiation found it. Requests whose response was due end FENCED, those past their T_d are
lost. -/
def execPortUp (reduced : Bool) : State → Host.Outcome State Fault Refusal :=
  liftC fun s =>
    if s.fld (enPg + 0x44) 1 0 ≠ 1 ∨ s.isFenced .eth ∨ (s.lk 40).noPll then s
    else
      let m := s.fld (enPg + 0x40) 1 0
      let red : Bool := m == 2 || (reduced && m != 1)
      let s := (s.setFld (enPg + 0x44) 1 0 2).setFlag (enPg + 0x44) 2 red
      let due := s.prom.reqs.filter fun r => r.port == 96 && r.promise
      let s := forEach (due.filter (·.sent)) (fun r s => s.heldBack r) s
      let s := forEach (due.filter fun r => !r.sent && decide (r.td < s.now)) (fun r s => s.loseResp r) s
      (s.endReqs (fun r => r.port == 96) .fenced).tryEth

/-! ## TIME and NOP (R361, R352) -/

/-- XHT_TIME (R361, R347): fabric time, the correspondence, and the arrival of the request. -/
def execXhtTime (q : CmdReq) : State → Host.Outcome State Fault Refusal :=
  liftC fun s =>
    let at0 := match s.eth.ingress.find? fun e =>
        e.session == q.session && e.chan == q.chan && e.seq == q.seq with
      | some e => e.tick
      | none => s.now
    let s := s.leaveIngress q
    match winEnt (s.winOf q.session q.chan) q.seq with
    | some ⟨_, false, _, _⟩ => s
    | e =>
      if s.sessValid q.session = false then s
      else if q.chan ≠ 16 then s.cmdTurnAway q .noAccess
      else
        let d := s.corrBytes ++ leBytes 8 at0
        let h := { respHdr q .ok 0 with hasValue := true, session := q.session, len := d.length }
        let s := if e.isNone then s.record q.session q.chan q.seq true .ok 0 else s
        s.ethOut (s.sessPart q.session) (s.frameLen q.session d.length) (.time (s.sessRec q.session) ⟨h, d⟩) none

/-- NOP (R350 to R352): OK on the data channel, NO_ACCESS, in its turn, on a command channel. -/
def execNop (q : CmdReq) : State → Host.Outcome State Fault Refusal :=
  liftC fun s => if s.mustWait q then s else s.turnOf (xhtId q.session q.chan q.seq) fun s =>
    let p := s.sessPart q.session
    let s := s.leaveIngress q
    if s.sessValid q.session = false then s
    else if (s.recorded q 2).isSome then (s.recorded q 2).getD s
    else if s.isFenced (.part p) then s.cmdTurnAway q .fenced
    else if s.partResetting p then s.cmdTurnAway q .reset
    else s.cmdAnswer q (if q.chan = 16 then .ok else .noAccess) 0

/-! ## Sessions (R344, R345) -/

/-- R344: a record's fields: reserved bits 0, VID 0 without a tag, an IPv4 address alone. -/
def sessFormOk (ws : List Word) : Bool :=
  let w := fun k => ws.getD k 0
  ws.length == 8 && !Word.bit (w 0) 31 && Word.bits (w 1) 15 12 == 0 &&
  (Word.bit (w 0) 24 || Word.bits (w 1) 11 0 == 0) &&
  (Word.bit (w 0) 1 || (w 5 == 0 && w 6 == 0 && w 7 == 0))

/-- R344: the limits across the table hold with record ws at i. -/
def Chip.sessLimits (s : Chip) (i : Nat) (ws : List Word) : Bool :=
  let w0 := ws.getD 0 0
  !Word.bit w0 0 || (s.sessions.filter fun j => j != i).all fun j =>
    s.sessHost j != Word.bits w0 23 10 &&
    (s.sessPart j != Word.bits w0 9 4 ||
      (!(Word.bit w0 3 && Word.bit (s.sessW j 0) 3) &&
       Word.bits (s.sessW j 3) 31 16 &&& Word.bits (ws.getD 3 0) 31 16 == 0))

/-- R345: owners of the 16 command channels of a partition. -/
def Chip.owners (s : Chip) (p : Nat) : List (Option Nat) := (List.range 16).map (s.chanOwner p)

/-- R345: windows of command channels whose owner changed are reset. -/
def Chip.resetCmdWins (s old : Chip) (p : Nat) : Chip :=
  forEach (List.range 16) (fun c s =>
    if s.chanOwner p c = old.chanOwner p c then s
    else { s with eth.cmdWin := KMap.put s.eth.cmdWin {} (16 * p + c) {} }) s

/-- R345: the windows of channels 16 to 18 of session i are reset, their buffers discarded. -/
def Chip.resetDataWins (s : Chip) (i : Nat) : Chip :=
  { s with
    eth.dataWin := KMap.put s.eth.dataWin {} i {}
    eth.ev := KMap.put s.eth.ev {} i {}
    eth.au := KMap.put s.eth.au {} i {} }

/-- R345, R365, R398: record ws is written at i, taking an armed injection of the port's page. -/
def Chip.writeSess (s : Chip) (i : Nat) (ws : List Word) : Chip :=
  let old := s
  let oldWs := s.sessRec i
  let (n, s) := s.strike enPg
  let s := { s with
    eth.sess := KMap.put s.eth.sess (List.replicate 8 0) i ws
    eth.sessBad := s.eth.sessBad.filter fun j => j != i }
  let s := if sessMoved oldWs ws then s.resetDataWins i else s
  let s := (s.resetCmdWins old (Word.bits (oldWs.getD 0 0) 9 4)).resetCmdWins old (Word.bits (ws.getD 0 0) 9 4)
  if n = 1 then s.corrected enPg 5 i
  else if n = 2 then
    Chip.itemErr { s with eth.sessBad := s.eth.sessBad ++ [i] } enPg 6 i
      { faultOf enPg 1 6 with inj := true, kind := 15, unit := i }
  else s

/-- SESS_SET (R344, R345, R351): session 0 is firmware's alone. The RESP goes by the old binding. -/
def execSessSet (q : CmdReq) (i : Nat) (ws : List Word) : State → Host.Outcome State Fault Refusal :=
  liftC fun s => s.command q true fun _ s =>
    if i = 0 ∨ 256 ≤ i ∨ sessFormOk ws = false ∨ s.sessLimits i ws = false then s.cmdAnswer q .noAccess 0
    else (s.cmdAnswer q .ok 0).writeSess i ws

/-- SESS_CLEAR (R344, R345, R351). -/
def execSessClear (q : CmdReq) (i : Nat) : State → Host.Outcome State Fault Refusal :=
  liftC fun s => s.command q true fun _ s =>
    if i = 0 ∨ 256 ≤ i then s.cmdAnswer q .noAccess 0
    else ((s.cmdAnswer q .ok 0).writeSess i (List.replicate 8 0)).resetDataWins i

/-! ## Acknowledgement and retransmission (R349) -/

/-- R349: messages up to the acknowledged one go; an acknowledgement outside the range is ignored. -/
def ackMsgs (m : MsgQ) (seq : Nat) : MsgQ :=
  if m.unacked.any fun x => x.seq == seq then
    { m with unacked := (m.unacked.dropWhile fun x => x.seq != seq).drop 1 }
  else m

/-- EVENT_ACK (R349). -/
def execEventAck (session seq : Nat) : State → Host.Outcome State Fault Refusal :=
  liftC fun s => s.turnOf (xhtId session 17 seq) fun s =>
    let s := s.leaveIngress ⟨session, 17, seq, 0⟩
    if s.sessValid session = false then s
    else { s with eth.ev := KMap.put s.eth.ev {} session (ackMsgs (KMap.at s.eth.ev {} session) seq) }

/-- AUDIT_ACK (R349). -/
def execAuditAck (session seq : Nat) : State → Host.Outcome State Fault Refusal :=
  liftC fun s => s.turnOf (xhtId session 18 seq) fun s =>
    let s := s.leaveIngress ⟨session, 18, seq, 0⟩
    if s.sessValid session = false then s
    else { s with eth.au := KMap.put s.eth.au {} session (ackMsgs (KMap.at s.eth.au {} session) seq) }

/-- EN_RTO_EXPIRY (R349): a message unacknowledged EN_RTO µs after it was last sent is sent again. -/
def execEnRtoExpiry (session chan seq : Nat) : State → Host.Outcome State Fault Refusal :=
  liftC fun s =>
    let au : Bool := chan == 18
    let m := if au then KMap.at s.eth.au {} session else KMap.at s.eth.ev {} session
    match m.unacked.find? fun x => x.seq == seq with
    | none => s
    | some x =>
      if (chan ≠ 17 ∧ chan ≠ 18) ∨ s.sessValid session = false ∨
          s.now < x.last + 1000 * max (s.fld (enPg + 0x84) 15 0) 10
      then s
      else
        let m := { m with unacked := updWhere m.unacked (fun y => y.seq == seq) fun y => { y with last := s.now } }
        let s := if au then { s with eth.au := KMap.put s.eth.au {} session m }
          else { s with eth.ev := KMap.put s.eth.ev {} session m }
        s.xhtSend session (msgHdr session au true seq) x.body

end Sys2Proof.Machine
end

