-- ==== Sys2Proof/Machine/Pair.lean ====
section
/-! DEFINITION. The redundant pair: tokens and notes, the crown, digests, joining, handover (R409 to
R428). -/

namespace Sys2Proof.Machine

/-! ## Mirror and messages (R409, R410, R414) -/

/-- R409: the MIRROR links that are UP. -/
def Chip.mirrors (s : Chip) : List Nat :=
  (List.range 96).filter fun l => (s.linkRole l).1 == 3 && s.lkState l == 4

/-- R410: the partner of a MIRROR link is the chip that PAIR_PEER names. -/
def Chip.isPeer (s : Chip) (l : Nat) : Bool :=
  s.paired && s.flag (pairPg + 0x44) 31 && s.fld (lkPg l + 0x48) 11 0 == s.fld (pairPg + 0x44) 11 0

/-- R410, R414: what a pair message that does not act leaves: one from another partner is counted, and so is
one of a KIND not in use. A link that is no MIRROR link carries none. -/
def Chip.strayMsg (s : Chip) (m : PairMsg) : Chip :=
  if (s.linkRole m.link).1 ≠ 3 then s
  else if s.isPeer m.link = false then s.bump (risoPg + 0x60)
  else if 1 ≤ m.kind ∧ m.kind ≤ 0xB then s
  else s.bump (lkPg m.link + 0x78)

/-- R410, R414: a message of a kind from the peer acts. -/
def Chip.peerSays (s : Chip) (m : PairMsg) (kind : Nat) : Bool :=
  (s.linkRole m.link).1 == 3 && s.isPeer m.link && m.kind == kind

def Chip.fromPeer (s : Chip) (m : PairMsg) (kind : Nat) (f : Chip → Chip) : Chip :=
  if s.peerSays m kind then f s else s.strayMsg m

/-! ## Carrying out in order (R413, R415) -/

/-- R415: the bodies held of an input: of a BWR every piece, else the oldest. -/
def Chip.bodiesOf (s : Chip) (id : Nat) : List PairIn :=
  let l := s.duo.inbuf.filter fun b => b.arg0 == id
  let pieces := l.any fun b => match b.body with | .xht _ d => d.hdr.typ == 5 | _ => false
  if pieces then l else l.take 1

/-- R415: an input's body is handed to its port's handling. -/
def Chip.handIn (s : Chip) (b : PairIn) : Chip :=
  match b.body with
  | .fleson port vc moved p => s.routeTo port vc moved ⟨p, false, none, none, false⟩
  | .xht f d => s.atSession f d

/-- R415: what an input still waits for at its port: its command, or its admission. -/
def Chip.portWork (s : Chip) : Nat × Nat × Nat := (s.eth.ingress.length, s.prom.hdrs.length, s.staged)

/-- The chip has carried out what has an ORD. -/
def Chip.pastOrd (s : Chip) (n : Nat) : Chip :=
  Chip.setReg { s with prom.seq := max s.prom.seq (n + 1) } (pairPg + 0x5C) (BitVec.ofNat 32 n)

/-- R415: the input of a token is carried out: its body goes to its port, and what acts on it then
finds its token; a datagram that ends at the port is done. -/
def Chip.applyInput (s : Chip) (t : PairTok) : Chip :=
  let bs := s.bodiesOf t.arg0
  let s := { s with
    duo.inbuf := s.duo.inbuf.filter fun b => !bs.contains b
    duo.live := [t], duo.tick := t.tick, duo.cause := some t.ord
    duo.ids := (s.duo.ids.filter fun (e : Nat × Nat) => !(e.1 == t.arg0)) ++ [(t.arg0, t.ord)] }
  let w := s.portWork
  let xht := bs.any fun b => match b.body with | .xht .. => true | _ => false
  let s := forEach bs (fun b s => s.handIn b) (s.pastOrd t.ord)
  let s := { s with duo.cause := none }.emit (.apply t.ord)
  if xht && decide (s.portWork = w) then { s with duo.live := [] } else s

/-- R413, R417: the decision of a note takes effect. -/
def Chip.applyKind (s : Chip) (k : NoteKind) : Chip :=
  match k with
  | .leaseExpiry i => s.leaseLapse i
  | .leaseGraceEnd i => s.graceOver i
  | .recallTimeout n => s.recallOver n
  | .quarantineEnd e => s.quarantineOver e
  | .isoFence i => s.fenceEntry i none
  | .commit _ => s.commitDue
  | .status id st => s.updReqs (fun r => r.id == id) fun r => { r with fixed := some (s.now, st) }
  | .setLost d => s.loseSet d
  | .fence _ => s.goOut

/-- R413: a note is carried out at its place in the order, with its tick. -/
def Chip.applyNote (s : Chip) (t : PairTok) (k : NoteKind) : Chip :=
  let s := { s with duo.tick := t.tick, duo.cause := some t.ord }
  let s := (s.pastOrd t.ord).applyKind k
  { s with duo.cause := none }

/-- R415: tokens and notes are carried out strictly in ORD order, each once the one before is done and
its body is held; a bound on their number. -/
def Chip.applyTokens : Nat → Chip → Chip
  | 0, s => s
  | n + 1, s => match s.duo.tokens.find? fun t => t.ord == s.prom.seq with
    | none => s
    | some t =>
      if s.standsBy = false ∨ s.duo.live.isEmpty = false then s
      else
        let u := { s with duo.tokens := s.duo.tokens.erase t }
        match t.what with
        | some k => Chip.applyTokens n (u.applyNote t k)
        | none => if (s.bodiesOf t.arg0).isEmpty then s else Chip.applyTokens n (u.applyInput t)

def Chip.catchUp (s : Chip) : Chip := Chip.applyTokens s.duo.tokens.length s

/-- R415: a token or a note is acknowledged. -/
def Chip.ackTok (s : Chip) (ord : Nat) (hasBody : Bool) : Chip :=
  s.duoSend 2 ord 0 ord (if hasBody then 1 else 0) []

/-- R415: the standby asks for a body it lacks; while it does it is LAGGING. -/
def Chip.askBody (s : Chip) (ord : Nat) : Chip :=
  let s := { s with duo.relays := s.duo.relays ++ [ord] }
  ((s.bump (pairPg + 0x7C)).setLag true).duoSend 8 ord 0 0 0 []

/-- ORDER (R413 to R415, R423): a token reaches the standby. -/
def execOrder (m : PairMsg) : State → Host.Outcome State Fault Refusal :=
  liftC fun s => s.fromPeer m 1 fun s =>
    if s.standsBy = false then s
    else
      let hasBody := !(s.bodiesOf m.arg0).isEmpty
      let s := { s with duo.tokens := s.duo.tokens ++ [PairTok.mk m.ord m.tick m.arg0 m.arg1 none] }
      let s := s.ackTok m.ord hasBody
      (if hasBody then s else s.askBody m.ord).catchUp

/-- ORDER_ACK (R415, R416): outputs that waited for it may leave; the body leaves the order log. -/
def execOrderAck (m : PairMsg) : State → Host.Outcome State Fault Refusal :=
  liftC fun s => s.fromPeer m 2 fun s =>
    if s.pairRole ≠ 1 ∧ s.pairRole ≠ 3 then s
    else if m.arg1 % 2 = 0 then s
    else
      let ids := (s.duo.ids.filter fun e => e.2 == m.ord).map (·.1)
      let s := { s with
        duo.acked := s.duo.acked ++ [m.ord]
        duo.log := s.duo.log.filter fun b => !ids.contains b.arg0 }
      (s.setLag false).tryEth

/-- NOTE (R413, R417): a decision of the holder reaches the standby; k is what ARG0 and ARG1 name. -/
def execNote (m : PairMsg) (k : NoteKind) : State → Host.Outcome State Fault Refusal :=
  liftC fun s => s.fromPeer m 3 fun s =>
    if s.standsBy = false then s
    else
      let s := { s with duo.tokens := s.duo.tokens ++ [PairTok.mk m.ord m.tick m.arg0 m.arg1 (some k)] }
      (s.ackTok m.ord true).catchUp

/-- The bytes of an input: header and payload. -/
def inputBytes : PairInput → List Byte
  | .fleson _ _ _ p => hdrBytes p.hdr ++ p.payload
  | .xht _ d => xhtBytes d.hdr ++ d.payload

/-- RELAY (R415): without a body it asks for that of an ORD; with one it brings it. -/
def execRelay (m : PairMsg) (body : Option PairInput) : State → Host.Outcome State Fault Refusal :=
  liftC fun s => s.fromPeer m 8 fun s => match body with
    | none =>
      let ids := (s.duo.ids.filter fun e => e.2 == m.ord).map (·.1)
      match s.duo.log.find? fun b => ids.contains b.arg0 with
      | none => s
      | some b => s.duoSend 8 m.ord b.tick b.arg0 0 (inputBytes b.body)
    | some i =>
      if s.standsBy = false ∨ s.duo.relays.contains m.ord = false then s
      else
        let rest := s.duo.relays.filter fun n => n != m.ord
        let id := (s.duo.tokens.find? fun t => t.ord == m.ord).elim (inputId i) (·.arg0)
        let s := { s with
          duo.relays := rest
          duo.inbuf := s.duo.inbuf ++ [PairIn.mk id s.now i] }
        ((s.setLag (!rest.isEmpty)).ackTok m.ord true).catchUp

/-- ORPHAN_TIMEOUT (R415): body i was named by no token for PAIR_IN.WAIT µs, where 0 acts as 1. -/
def execOrphanTimeout (i : Nat) : State → Host.Outcome State Fault Refusal :=
  liftC fun s => match s.duo.inbuf[i]? with
    | none => s
    | some b =>
      if s.standsBy = false ∨ (s.duo.tokens.any fun t => t.what.isNone && t.arg0 == b.arg0) ∨
          s.now < b.tick + 1000 * max (s.fld (pairPg + 0x6C) 31 16) 1
      then s
      else Chip.bump { s with duo.inbuf := s.duo.inbuf.eraseIdx i } (pairPg + 0x84)

/-- REPAIR (R172, R417): without a block it asks for the block named by ARG0; with one it brings it. A chip
that cannot read it itself does not answer. Its block is accessed on nobody's behalf (log entry 99). -/
def execRepair (m : PairMsg) : State → Host.Outcome State Fault Refusal :=
  liftS fun y =>
    let b := m.arg0
    let n := y.chip.ctrlOf b
    if y.chip.peerSays m 9 = false then onChip (fun s => s.strayMsg m) y
    else if y.chip.dataBlocks ≤ b then y
    else if m.body.isEmpty then
      match (onChip (fun s => s.activateBlk n b 0) y).readBlk n b 3 64 with
      | (none, y) => y
      | (some d, y) => onChip (fun s => s.duoSend 9 0 0 b 0 d) y
    else if m.body.length = 2048 ∧ (y.chip.leads ∨ y.chip.standsBy) then
      onChip (fun s => (s.activateBlk n b 0).bump (pairPg + 0x80)) (y.writeBlk n b 0 m.body)
    else y

/-! ## The crown (R418 to R420) -/

/-- R420: SENT_ORD, the highest ORD for which every output of it and of all lower ORDs has been
sent. -/
def Chip.sentOrd (s : Chip) : Nat :=
  let waits := s.eth.ingress.map fun e => xhtId e.session e.chan e.seq
  let open1 := s.duo.ids.filter fun e => waits.contains e.1 ||
    (decide (2 ^ 63 ≤ e.1) &&
      match winEnt (s.winOf (e.1 % 256) (e.1 / 256 % 32)) (e.1 / 65536 % 2 ^ 32) with
      | some w => !w.sent
      | none => false)
  let l := s.prom.reqs.map (·.id) ++ open1.map (·.2) ++ s.own.filterMap (·.cause) ++
    s.held.filterMap fun h => s.causeOf h.what
  match l.min? with
  | some n => n - 1
  | none => s.prom.seq - 1

/-- RENEW_PERIOD (R418, R420): every 250 ticks RENEW leaves on every MIRROR link that is UP. -/
def execRenewPeriod : State → Host.Outcome State Fault Refusal :=
  liftC fun s =>
    if (s.pairRole ≠ 1 ∧ s.pairRole ≠ 3) ∨ s.now < s.duo.renewAt + 250 then s
    else
      let sent := s.sentOrd
      let s := { s with
        duo.renewAt := s.now, duo.sentOrd := sent
        duo.ids := s.duo.ids.filter fun e => decide (sent < e.2)
        duo.acked := s.duo.acked.filter fun n => decide (sent < n) }
      let s := s.setPair (pairPg + 0x54) (s.now + 1000)
      forEach s.mirrors (fun _ s => s.duoSend 4 0 s.now (s.now + 1000) sent []) s

/-- R420: the outputs the new holder sends at once: those it holds ready above SENT_ORD. -/
def Chip.sendReady (s : Chip) (sent : Nat) : Chip :=
  let l := s.duo.ready.filter fun e => decide (sent < e.1)
  forEach l (fun e s => match e.2 with
    | .packet p => { s with out := s.out ++ [.packet p], own := s.own ++ [⟨p, false, none, some e.1, true⟩] }
    | o => (s.wrapBy (enPg + 0xC8) 1).emit o) { s with duo.ready := [] }

/-- R420: the inputs no token named are ordered. -/
def Chip.orderHeld (s : Chip) : Chip :=
  forEach s.duo.inbuf (fun b s =>
    let classed := match b.body with
      | .fleson _ _ _ p => flesonClassed p.hdr.typ
      | .xht _ d => xhtClassed d.hdr.typ
    s.takeInput b.body classed fun s => s.handIn b) { s with duo.inbuf := [] }

/-- R419, R420: a standby becomes HOLDER: it finishes what has tokens, sends what is ready above
SENT_ORD and orders what no token named. -/
def Chip.takeCrown (s : Chip) (sent : Nat) (alone : Bool) : Chip :=
  let s := s.catchUp
  let last := s.duo.tokens.foldl (fun n t => max n (t.ord + 1)) s.prom.seq
  let s := match s.nextToken with
    | some (t, r) => s.decideToken t r
    | none => s
  if s.pairRole = 5 then s
  else
    let s := { s with
      prom.seq := max s.prom.seq last, duo.alone := alone, duo.ta := s.now, duo.tokens := []
      duo.live := [], duo.acked := [], duo.log := [], duo.relays := [], duo.notes := [] }
    (((s.setRole 1).bump (pairPg + 0x78)).notice pairPg 5).sendReady sent |>.orderHeld

/-- R418, R420: the HOST links of a chip that freezes hold, and go on when it resumes. -/
def Chip.hostLinks (s : Chip) : List Nat := (List.range 96).filter fun l => (s.linkRole l).1 == 1
def Chip.holdOuts (s : Chip) : Chip := forEach s.hostLinks (fun l s => s.holdStart l) s
def Chip.freeOuts (s : Chip) : Chip := forEach s.hostLinks (fun l s => s.holdEnd l) s

/-- R419: a FROZEN chip is HOLDER again. -/
def Chip.resume (s : Chip) (alone : Bool) : Chip :=
  let s := Chip.setRole { s with duo.frozenAt := none, duo.alone := alone } 1
  s.freeOuts.tryEth.orderHeld

/-- RENEW (R418, R419): the standby keeps the latest E and answers; a FROZEN chip hears another
holder and goes OUT. -/
def execRenew (m : PairMsg) : State → Host.Outcome State Fault Refusal :=
  liftC fun s => s.fromPeer m 4 fun s =>
    if s.pairRole = 3 then s.freeOuts.goOut
    else if s.standsBy = false then s
    else
      let s := if s.pair (pairPg + 0x54) < m.arg0 then
          Chip.setPair { s with
            duo.sentOrd := m.arg1
            duo.ready := s.duo.ready.filter fun e => decide (m.arg1 < e.1) } (pairPg + 0x54) m.arg0
        else s
      if s.pairRole = 2 then s.duoSend 5 0 m.tick 0 0 [] else s

/-- R424, R426: the first plan-frame boundary at or after tick t, with no plan in force the first
multiple of 4,096. -/
def Chip.boundaryFrom (s : Chip) (t : Nat) : Nat :=
  if s.planActive then
    let o := s.pair (planPg + 0x50)
    let f := max (s.fld (planPg + 0x4C) 20 0) 1
    if t ≤ o then o else o + ceilDiv (t - o) f * f
  else 4096 * ceilDiv t 4096

/-- R426: T_b of a planned handover is the first boundary 10 µs ahead. -/
def Chip.planSwitch (s : Chip) : Chip :=
  if s.leads && s.duo.boundary.isNone then
    { s with duo.boundary := some (s.boundaryFrom (s.now + 10000)) }
  else s

/-- R426: the crown is to go to the HOME chip, the eligible STANDBY at the other end (log entry 103). -/
def Chip.goesHome (s : Chip) : Bool :=
  s.flag (pairPg + 0x40) 2 && !s.flag (pairPg + 0x40) 1 && !s.lag

/-- RENEW_ACK (R418, R419, R426): t_a advances; a FROZEN holder whose peer still stands by resumes. -/
def execRenewAck (m : PairMsg) : State → Host.Outcome State Fault Refusal :=
  liftC fun s => s.fromPeer m 5 fun s =>
    if s.pairRole ≠ 1 ∧ s.pairRole ≠ 3 then s
    else
      let s := { s with duo.ta := max s.duo.ta m.tick, duo.alone := false, duo.ordJ := none, duo.copyAt := none }
      let s := if s.pairRole = 3 then s.resume false else s
      if s.goesHome then s.planSwitch else s

/-- HOLDER_FREEZE (R418 to R421): no acknowledgement by t_a + 900: the mirror counts as lost and the
holder freezes, unless an alert that began after t_a lets it go on. -/
def execHolderFreeze : State → Host.Outcome State Fault Refusal :=
  liftC fun s =>
    if s.leads = false ∨ s.now < s.duo.ta + 900 then s
    else
      let s := s.notice pairPg 1
      let alert : Bool := match s.duo.alertAt with | some t => decide (s.duo.ta < t) | none => false
      let s := Chip.bump { s with duo.frozenAt := some s.now } (pairPg + 0x8C)
      let s := (s.setRole 3).holdOuts
      if alert then s.resume true else s

/-- CROWN_CLAIM (R418 to R420, R427): the fabric time reaches E + 100 with no newer RENEW. -/
def execCrownClaim : State → Host.Outcome State Fault Refusal :=
  liftC fun s =>
    if s.now < s.pair (pairPg + 0x54) + 100 then s
    else if s.pairRole = 4 then s.goOut
    else if s.pairRole ≠ 2 then s
    else if !s.lag && s.catchUp.duo.tokens.isEmpty && s.duo.relays.isEmpty then
      s.takeCrown s.duo.sentOrd true
    else ((s.notice pairPg 2).sendState 4 []).goOut

/-- SOLO_WAIT_EXPIRY (R419): PAIR_SOLO.WAIT µs after the freeze, where 0 acts as 1. -/
def execSoloWaitExpiry : State → Host.Outcome State Fault Refusal :=
  liftC fun s => match (if s.pairRole = 3 then s.duo.frozenAt else none) with
    | some t => if t + 1000 * max (s.fld (pairPg + 0x6C) 15 0) 1 ≤ s.now then s.freeOuts.goOut else s
    | none => s

/-- PAIR_ALERT (R421): the filtered input is asserted, for 1 µs by now. A latched line is ignored. -/
def execPairAlert : State → Host.Outcome State Fault Refusal :=
  liftC fun s =>
    if s.flag (pairPg + 0x48) 13 ∨ s.duo.inAt.isSome then s
    else
      let t := s.now - 1000
      let s := (s.setFlag (pairPg + 0x48) 12 true).bump (pairPg + 0x88)
      let s := { s with duo.inAt := some (s.ref - 1000), duo.alertAt := some t }
      if s.pairRole = 3 ∧ s.duo.ta < t then s.resume true else s

/-! ## Digests (R422, R423) -/

/-- R422: D_n over own outputs; with a join in progress causes below ORD_J stay out (R424). -/
def Chip.digestOf (s : Chip) (n : Nat) : Nat :=
  let low := s.duo.ordJ.getD 0
  (s.duo.outs.filter fun o => o.due == some n && decide (low ≤ o.ord)).foldl (fun d o => d ^^^ o.crc) 0

/-- OUT (R422): the due epoch of an unreserved output. -/
def execOut (m : PairMsg) : State → Host.Outcome State Fault Refusal :=
  liftC fun s => s.fromPeer m 6 fun s =>
    let hit := fun o : PairOut => o.ord == m.ord && o.idx == m.arg0
    if s.standsBy = false then s
    else if s.duo.outs.any hit then
      { s with duo.outs := updWhere s.duo.outs hit fun o => { o with due := some m.arg1 } }
    else { s with duo.dues := s.duo.dues ++ [(m.ord, m.arg0, m.arg1)] }

/-- DIGEST (R423): the holder's D_n. -/
def execDigest (m : PairMsg) : State → Host.Outcome State Fault Refusal :=
  liftC fun s => s.fromPeer m 7 fun s =>
    if s.standsBy then
      { s with duo.digests := (s.duo.digests.filter fun e => e.1 != m.arg0) ++ [(m.arg0, m.arg1)] }
    else s

/-- R423: an output due in epoch n is not ready. -/
def Chip.outMissing (s : Chip) (n : Nat) : Bool :=
  (s.prom.reqs.any fun r => r.promise && !r.sent && epochOf (s.lastCell r.id) == n && !(s.egCells r.id).isEmpty) ||
  s.duo.dues.any fun d => d.2.2 == n

/-- R422: outputs due up to epoch n are done with. -/
def Chip.dropOuts (s : Chip) (n : Nat) : Chip :=
  { s with
    duo.outs := s.duo.outs.filter fun o => match o.due with | some e => decide (n < e) | none => true
    duo.digests := s.duo.digests.filter fun e => decide (n < e.1) }

/-- R423: the digest of epoch n has come and matches, and every output due then is ready. -/
def Chip.epochAgrees (s : Chip) (n : Nat) : Bool :=
  match s.duo.digests.find? fun e => e.1 == n with
  | some e => e.2 == s.digestOf n && !s.outMissing n
  | none => false

/-- R423: the standby compares epoch n. -/
def Chip.compareEpoch (s : Chip) (n : Nat) : Chip :=
  if s.epochAgrees n then (s.setReg (pairPg + 0x60) (BitVec.ofNat 32 n)).dropOuts n else s.diverge n

/-- EPOCH_COMPARE (R422, R423): an epoch has ended: the holder sends its digest; the standby compares
that of PAIR_CMP.LAG epochs ago, where values below 2 act as 2. -/
def execEpochCompare : State → Host.Outcome State Fault Refusal :=
  liftC fun s =>
    let m := epochOf s.now - 1
    let k := max (s.fld (pairPg + 0x70) 9 0) 2
    let seen : Bool := match s.duo.epoch with | some e => decide (m ≤ e) | none => false
    if epochOf s.now = 0 ∨ seen = true then s
    else
      let s := { s with duo.epoch := some m }
      match s.pairRole with
      | 1 => (s.duoSend 7 0 0 m (s.digestOf m) []).dropOuts m
      | 2 => if m < k ∨ m - k < s.duo.cmpFrom then s else s.compareEpoch (m - k)
      | _ => s

/-! ## Formation, joining, handover (R409, R419, R424 to R428) -/

/-- R424: a chip that is OUT starts to join, or its RESYNC is refused: `same` as R409 asks, and every
cluster and channel controller that works on the holder works here. It tells the holder (log entry
102). -/
def Chip.startJoin (s : Chip) (ok : Bool) : Chip :=
  if ok = true ∧ s.mirrors.isEmpty = false then
    ((s.setRole 4).setReg (pairPg + 0x74) 0).duoSend 0xB 0 s.now 0 0 []
  else s.notice pairPg 4

/-- PAIR_FORMATION (R409, R419): the first formation, with what the peer reports over the mirror:
whether all R409 names is the same, whether it is OUT, and whether every unit that works there works
here. -/
def execPairFormation (same : Bool) (peer : PeerReport) : State → Host.Outcome State Fault Refusal :=
  liftC fun s =>
    if s.paired = false ∨ s.pairRole ≠ 5 ∨ s.duo.formed = true ∨ s.mirrors.isEmpty = true ∨
        s.flag (pairPg + 0x44) 31 = false
    then s
    else if same = false then s.notice pairPg 6
    else if s.flag (pairPg + 0x40) 1 then
      if peer.out then
        Chip.setRole { s with duo.formed := true, duo.alone := true } 1 |>.notice pairPg 5
      else s
    else
      let s := { s with duo.formed := true }
      if s.flag (pairPg + 0x40) 3 then s.startJoin peer.units else s

/-- PAIR_CMD_RESYNC (R424). -/
def execPairCmdResync (same units : Bool) : State → Host.Outcome State Fault Refusal :=
  liftC fun s => if s.paired = false ∨ s.pairRole ≠ 5 then s else s.startJoin (same && units)

/-- R424: every block has been read for the chip that joins. -/
def Chip.copyOver (s : Chip) : Bool :=
  match s.duo.copyAt with
  | some b => decide (s.dataBlocks ≤ b)
  | none => false

/-- RESYNC_COPY_DONE (R424): at the first boundary after COPY the holder fixes ORD_J and sends the
replicated state. -/
def execResyncCopyDone : State → Host.Outcome State Fault Refusal :=
  liftC fun s =>
    if s.pairRole ≠ 1 ∨ s.duo.alone = false ∨ s.copyOver = false ∨ s.boundaryFrom s.now ≠ s.now then s
    else Chip.duoSend { s with duo.ordJ := some s.prom.seq } 0xB s.prom.seq s.now 1 0 []

/-- R412: an address of replicated registers. -/
def replicatedReg (a : Nat) : Bool := decide (0x1000000 ≤ a ∧ a < 0x1100000)

/-- R412, R424: the snapshot replaces the replicated on-die state; every RUNNING context starts from
its record (R107). -/
def Chip.install (s : Chip) (ordJ : Nat) (x : Snap) : Chip :=
  let regs := s.regs.filter (fun e => !replicatedReg e.1) ++ x.regs.filter fun e => replicatedReg e.1
  let s := { s with
    rights := x.rights, dir := x.dir, regions := x.regions
    prom := { x.prom with hdrs := s.prom.hdrs, seq := ordJ }
    parts.ctxs := x.ctxs, parts.owner := x.owner
    eth.sess := x.sess, eth.cmdWin := x.cmdWin, eth.dataWin := x.dataWin
    regs := regs.foldl (fun m e => KMap.put m (resetWord e.1) e.1 e.2) []
    accs := [], duo.ordJ := some ordJ
    duo.tokens := s.duo.tokens.filter fun t => decide (ordJ ≤ t.ord) }
  let run := x.ctxs.filter fun c => c.2.state == 2
  forEach run (fun c s => forEach (s.ctxClusters c.1) (fun n s => s.mboxTell n) s) s

/-- R424: PAIR_RESYNC as phase and cursor stand. -/
def Chip.showJoin (s : Chip) (phase cursor : Nat) : Chip :=
  s.setReg (pairPg + 0x74) (BitVec.ofNat 32 (phase % 4 + 4 * (cursor % 2 ^ 28)))

/-- R424: a holder whose peer joins copies every block in ascending order. -/
def Chip.startCopy (s : Chip) : Chip :=
  if s.pairRole = 1 ∧ s.duo.alone = true then Chip.joinNext { s with
    duo.copyAt := some 0, duo.ordJ := none
    accs := s.accs.filter fun a => match a.src with | .join _ => false | _ => true }
  else s

/-- RESYNC (R424): data of the phase ARG0 names in [1:0], with the cursor above it: a block of COPY or
of a forwarded write, or the snapshot, after which the chip is in CATCHUP. To a holder it says that its
peer joins (log entry 102). -/
def execResync (m : PairMsg) (snap : Option Snap) : State → Host.Outcome State Fault Refusal :=
  liftS fun y =>
    let b := m.arg0 / 4 % 2 ^ 28
    if y.chip.peerSays m 0xB = false then onChip (fun s => s.strayMsg m) y
    else if y.chip.pairRole ≠ 4 then onChip Chip.startCopy y
    else
      let y := if m.body.length = 2048 ∧ b < y.chip.dataBlocks + 2 ^ 18
        then y.writeBlk (y.chip.ctrlOf b) b 0 m.body else y
      match (if m.arg0 % 4 = 1 then snap else none) with
      | some x => onChip (fun s => ((s.install m.ord x).showJoin 2 b).catchUp) y
      | none => onChip (fun s => if m.arg0 % 4 = 0 then s.showJoin 0 b else s) y

/-- JOINED (R424): the first full DIGEST, of epoch n, matches: the chip is STANDBY. -/
def execJoined (n : Nat) : State → Host.Outcome State Fault Refusal :=
  liftC fun s =>
    if s.pairRole ≠ 4 ∨ s.fld (pairPg + 0x74) 1 0 ≠ 2 then s
    else match s.duo.digests.find? fun e => e.1 == n with
      | none => s
      | some e =>
        if e.2 ≠ s.digestOf n then s
        else
          let s := (s.showJoin 3 (s.fld (pairPg + 0x74) 29 2)).setRole 2
          Chip.dropOuts { s with duo.cmpFrom := n + 1, duo.ordJ := none } n

/-- PAIR_CMD_SWITCH (R426). -/
def execPairCmdSwitch : State → Host.Outcome State Fault Refusal := liftC Chip.planSwitch

/-- R426: outputs that wait at the port when the holder hands the crown over are kept as ready. -/
def Chip.keepHeld (s : Chip) : Chip :=
  let l := s.held.filter fun h => pairOutput h.what
  let r := l.filterMap fun h => (s.causeOf h.what).map fun n => (n, h.what)
  { s with held := s.held.filter (fun h => !pairOutput h.what), duo.ready := s.duo.ready ++ r }

/-- HANDOVER_BOUNDARY (R426): at T_b the holder stops ordering, sends HANDOVER and stands by. -/
def execHandoverBoundary : State → Host.Outcome State Fault Refusal :=
  liftC fun s => match (if s.leads then s.duo.boundary else none) with
    | none => s
    | some t =>
      if s.now < t then s
      else
        let sent := s.sentOrd
        let s := s.duoSend 0xA (s.prom.seq - 1) t (s.prom.seq - 1) sent []
        let s := { s with
          duo.boundary := none, duo.sentOrd := sent, duo.tick := s.now, duo.alone := true
          duo.log := [], duo.cmpFrom := epochOf s.now + 1 }
        (((s.setRole 2).keepHeld).bump (pairPg + 0x78)).notice pairPg 5

/-- HANDOVER (R426): the receiving standby is HOLDER on receipt; a joining chip goes OUT (R424). -/
def execHandover (m : PairMsg) : State → Host.Outcome State Fault Refusal :=
  liftC fun s => s.fromPeer m 0xA fun s =>
    if s.pairRole = 2 then s.takeCrown m.arg1 false
    else if s.pairRole = 4 then s.goOut
    else s

/-- PAIR_CMD_FORCE (R428): with KEY 0xC3 a chip that is OUT or FROZEN is HOLDER at once; its open
promises end FENCED, those past T_d unsent. -/
def execPairCmdForce (key : Nat) : State → Host.Outcome State Fault Refusal :=
  liftC fun s =>
    if key ≠ 0xC3 ∨ s.paired = false ∨ (s.pairRole ≠ 5 ∧ s.pairRole ≠ 3) then s
    else
      let s := if s.pairRole = 3 then s.freeOuts else s
      let s := Chip.setRole { s with duo.frozenAt := none, duo.alone := true } 1
      let s := (s.bump (pairPg + 0x78)).notice pairPg 5
      let late := s.prom.reqs.filter fun r => r.promise && !r.sent && decide (r.td < s.now)
      let s := forEach late (fun r s => s.loseResp r) s
      ((s.endReqs (fun r => r.promise) .fenced).tryEth).orderHeld

/-- PAIR_REARM (R421): effective once the line has been seen deasserted. -/
def execPairRearm : State → Host.Outcome State Fault Refusal :=
  liftC fun s =>
    if s.flag (pairPg + 0x48) 13 && s.duo.seenLow then
      Chip.setFlag { s with duo.seenLow := false } (pairPg + 0x48) 13 false
    else s

end Sys2Proof.Machine
end

