-- ==== Sys2Proof/Machine/Quote.lean ====
section
/-! DEFINITION. The flash, one-time key indices, quotes and the measurement of models (R442, R450 to
R455). -/

namespace Sys2Proof.Machine

/-! ## Flash (R442, R452, R473) -/

def Sys.flashRead (y : Sys) (a n : Nat) : List Byte := KMap.bytes y.mem.flash a n

def Sys.flashPut (y : Sys) (a : Nat) (d : List Byte) : Sys :=
  onMem (fun m => { m with flash := KMap.store m.flash a d }) y

/-- A 4 KiB sector is erased: every bit 1, as in NOR flash (log entry 50). -/
def Sys.flashErase (y : Sys) (a : Nat) : Sys := y.flashPut a (List.replicate 4096 0xFF)

/-- Bytes are programmed, which clears bits only (log entry 50), and read back: whether they read as
written. The flash is a part of the board: it may fail, and then holds what it will. -/
def Sys.flashProgram (y : Sys) (a : Nat) (d : List Byte) : Bool × Sys :=
  let (k, s) := y.chip.fresh
  let good := List.zipWith (· &&& ·) (y.flashRead a d.length) d
  let got := if k % 2 = 0 then good else leBytes d.length (k / 2)
  (got == d, Sys.flashPut { y with chip := s } a got)

/-! ## One-time key indices (R452) -/

def asciiBytes (t : String) : List Byte := t.toList.map fun c => BitVec.ofNat 8 c.toNat

def lmsSlot (k : Nat) : Nat := 0x10000 + 0x1000 * k

/-- R452: the record of an LMS state slot as its 16 bytes. -/
def lmsRecord (next : Nat) : List Byte :=
  let b := asciiBytes "KVLS" ++ leBytes 8 next
  b ++ leBytes 4 (crcOf 2 false 0 0 b)

/-- R452: NEXT of a slot whose record is valid. -/
def Sys.lmsNext (y : Sys) (k : Nat) : Option Nat :=
  let d := y.flashRead (lmsSlot k) 16
  let n := leNat ((d.drop 4).take 8)
  if d = lmsRecord n ∧ n % 65536 = 0 then some n else none

/-- R452 step 2: the slot to be written. -/
def lmsTarget (a b : Option Nat) : Nat :=
  match a, b with
  | some m, some n => if n < m then 1 else 0
  | some _, none => 1
  | none, _ => 0

/-- R452: how a reservation ends; `fails` once three attempts of the boot have failed. -/
inductive LmsEnd where
  | done | fails | exhausted
deriving DecidableEq, Repr

/-- R452: a reservation, with at most so many attempts left in this boot. -/
def Sys.lmsReserve : Nat → Sys → LmsEnd × Sys
  | 0, y => (.fails, onChip (fun s => s.setFlag (attPg + 0x74) 2 false) y)
  | k + 1, y =>
    let a := y.lmsNext 0
    let b := y.lmsNext 1
    let n := max (a.getD 0) (b.getD 0)
    if 2 ^ 40 < n + 65536 then (.exhausted, y)
    else
      let t := lmsSlot (lmsTarget a b)
      let (ok, y) := (y.flashErase t).flashProgram t (lmsRecord (n + 65536))
      if ok then
        (.done, onChip (fun s =>
          let s := (s.setPair (attPg + 0x8C) n).setPair (attPg + 0x94) (n + 65536)
          s.setFlag (attPg + 0x74) 2 true) y)
      else Sys.lmsReserve k (onChip (fun s => { s with boot.tries := s.boot.tries + 1 }) y)

/-- R452: a reservation within the attempts this boot has left. -/
def Sys.lmsTry (y : Sys) : LmsEnd × Sys := y.lmsReserve (3 - y.chip.boot.tries)

/-! ## Quotes (R455) -/

/-- R450: the ECDSA private key. -/
def deviceKey (secret : List Byte) : Nat :=
  let n := 0xFFFFFFFFFFFFFFFFFFFFFFFFFFFFFFFFFFFFFFFFFFFFFFFFC7634D81F4372DDF581A0DB248B0A77AECEC196ACCC52973
  beNat (Config.hkdf secret (asciiBytes "KV7720 ECDSA") 48) % (n - 1) + 1

/-- R455: bytes 0 to 191 of a quote. -/
def Chip.quoteBody (s : Chip) : List Byte :=
  let b := fun c : Bool => if c then 1 else 0
  let words := fun a n : Nat => (List.range n).flatMap fun k => leBytes 4 (s.reg (a + 4 * k)).toNat
  asciiBytes "KVQUOTE1" ++ words (attPg + 0x7C) 4 ++ leBytes 2 (s.fld (rtPg + 0x40) 11 0) ++
  leBytes 1 (b s.boot.copyB + 2 * b s.boot.fallback + 4 * b (s.flag (attPg + 0x9C) 31) +
    8 * b (s.flag (pairPg + 0x40) 0)) ++
  leBytes 1 s.boot.keyslot ++ leBytes 4 s.boot.svn ++ words (attPg + 0x40) 12 ++
  s.att.mboot ++ s.att.mrun ++ leBytes 4 s.att.log.length ++ leBytes 8 s.now ++
  leBytes 1 (s.fld (stagePg + 0x6C) 2 0) ++ List.replicate 3 0

/-- R455: a quote that cannot be made: ATT_LEN 0 and the RESULT. -/
def Chip.quoteFails (s : Chip) (res : Nat) : Chip :=
  (s.setFld (attPg + 0x78) 13 0 0).setFld (attPg + 0x74) 6 4 res

/-- R455: the quote is being made, with the next index. -/
def Chip.quoteStart (s : Chip) : Chip :=
  let i := s.pair (attPg + 0x8C)
  let s := { s with att.making := some (s.quoteBody, i), att.quote := [] }
  ((s.setPair (attPg + 0x8C) (i + 1)).setFld (attPg + 0x78) 13 0 0).setFld (attPg + 0x74) 6 4 0

/-- QUOTE (R452, R455): ATT_CTRL.GO; none while a quote is being made. A block that is used up is
followed by another. -/
def execQuote : State → Host.Outcome State Fault Refusal :=
  liftS fun y =>
    let s := y.chip
    let drop := onChip fun s : Chip => { s with att.quote := [] }
    if s.att.making.isSome then y
    else if s.flag (attPg + 0x74) 1 = false then onChip (fun s => s.quoteFails 2) (drop y)
    else if s.pair (attPg + 0x8C) < s.pair (attPg + 0x94) then onChip Chip.quoteStart y
    else match y.lmsTry with
      | (.done, y) => onChip Chip.quoteStart y
      | (.fails, y) => onChip (fun s => s.quoteFails 3) (drop y)
      | (.exhausted, y) => onChip (fun s => s.quoteFails 4) (drop y)

/-- n bytes, cut or filled with zeros. -/
def fit (n : Nat) (d : List Byte) : List Byte := (d ++ List.replicate n 0).take n

/-- QUOTE_DONE (R455): both signatures are there. -/
def execQuoteDone : State → Host.Outcome State Fault Refusal :=
  liftC fun s => match s.att.making with
    | none => s
    | some (b, i) =>
      let key := beBytes 48 (deviceKey s.boot.kdev)
      let q := b ++ fit 96 (Config.ecdsaSign i key (sha384 b)) ++ fit 10204 (Config.hssSign i s.boot.kdev b)
      let s := { s with att.making := none, att.quote := q }
      (s.setFld (attPg + 0x78) 13 0 10492).setFld (attPg + 0x74) 6 4 1

/-- MODEL_HASH (R454): the 48 bytes of the hash of a starting context: stored, logged, and the
CTX_START answered. -/
def execModelHash (p : PartNo) (slot : SlotNo) (h : List Byte) : State → Host.Outcome State Fault Refusal :=
  liftC fun s =>
    let x := 32 * p.val + slot.val
    let k := s.ctxAt x
    match k.starting with
    | none => s
    | some q =>
      if h.length ≠ 48 then s
      else
        let s := { s with att.models := KMap.put s.att.models [] x h }
        ((s.measure 0x10 h).setCtx x { k with starting := none }).cmdAnswer q .ok 0

end Sys2Proof.Machine
end

