-- ==== Sys2Proof/Machine/Pins.lean ====
section
/-! DEFINITION. Chip resets, pins, clocks, rails and temperatures (R374, R381, R395, R421, R475, R481 to
R495). -/

namespace Sys2Proof.Machine

/-! ## Chip reset (R381, R395, R434, R489, R491) -/

/-- R381, R442: a chip reset: nothing on the die survives it, and the board's flash does. A chip of a
pair asserts its alert (R421). A thermal trip lasts (R489). -/
def Sys.chipReset (y : Sys) : Sys :=
  let s := y.chip
  let c : Chip := { ref := s.ref, free := s.free, out := s.out, boot := { tripped := s.boot.tripped } }
  { mem := { flash := y.mem.flash }, chip := if s.paired then c.alertOut else c }

/-- R434: bring-up starts at S0. -/
def Chip.startBoot (s : Chip) : Chip :=
  { s with boot.on := true, boot.low := false, boot.start := s.ref, boot.stageStart := s.ref }

/-- CHIP_RESET (R374, R381, R395, R434, R471, R489, R506): the chip reset that an error or a command
ordered. It restarts bring-up, unless a thermal trip holds the chip in reset. -/
def execChipReset : State → Host.Outcome State Fault Refusal :=
  liftS fun y =>
    let s := y.chip
    if s.errs.chipUe.isNone ∧ s.boot.resetDue = false ∧ (s.boot.tripped && s.boot.on) = false then y
    else
      let y := y.chipReset
      if y.chip.boot.tripped then y else onChip Chip.startBoot y

/-- POWER_GOOD (R434, R491): PWRGOOD is high and RESET_N released: bring-up starts. -/
def execPowerGood : State → Host.Outcome State Fault Refusal :=
  liftC fun s => if s.boot.on ∨ s.boot.tripped then s else s.startBoot

/-- R491, R493: held in reset, with the pair alert asserted. -/
def Sys.heldReset (y : Sys) : Sys :=
  onChip (fun s =>
    let s := { s with boot.low := true }
    if s.flag (pairPg + 0x48) 14 then s else s.alertOut) y.chipReset

/-- RESET_N (R490, R491): the pin was or is held low for so many µs: below 1 nothing, below 10 a
glitch, from 10 on a chip reset that lasts until the release. -/
def execResetN (lowUs : Nat) : State → Host.Outcome State Fault Refusal :=
  liftS fun y =>
    if lowUs < 1 ∨ y.chip.boot.low then y
    else if lowUs < 10 then onChip (fun s => (s.bump (pwrPg + 0x5C)).notice pwrPg 2) y
    else y.heldReset

/-- PWRGOOD_FALL (R489, R491): as RESET_N low; a thermal trip ends as the rails go. -/
def execPwrgoodFall : State → Host.Outcome State Fault Refusal :=
  liftS fun y => onChip (fun s => { s with boot.tripped := false }) y.heldReset

/-- UE_CHIP (R386, R395, R435): an error of class UE-CHIP is detected by a page. -/
def execUeChip (page : Nat) (bit : Nat) : State → Host.Outcome State Fault Refusal :=
  liftC fun s => if (headPage page).isSome ∧ bit < 32 then s.chipError page bit false else s

/-! ## Clocks (R483, R485, R494) -/

/-- R485: PLLs are monitored from the end of S0. -/
def Chip.pastS0 (s : Chip) : Bool := s.boot.on && decide (1 ≤ s.stageNo)

/-- R485, R494: a loss of lock is counted and shown. -/
def Chip.lolMark (s : Chip) (bit : Nat) : Chip :=
  (((s.setFlag (clkPg + 0x40) bit false).bump (clkPg + 0x44)).setFlag (clkPg + 0x48) bit true)

/-- R273, R274, R485: a link whose lane PLL group lost lock. -/
def Chip.linkNoPll (s : Chip) (l : Nat) : Chip :=
  let st := s.lkState l
  let s := if st = 3 ∨ st = 4 then s.linkDown l 2 false true else if st = 2 then s.setLkState l 1 else s
  s.setLk l { s.lk l with noPll := true, good := 0 }

/-- LOSS_OF_LOCK (R485, R494): clk is the bit of CLK_LOL_LAST: a clock, or 16 + the group. The lane
PLLs are those of the groups. -/
def execLossOfLock (clk : Nat) : State → Host.Outcome State Fault Refusal :=
  liftC fun s =>
    if s.pastS0 = false then s
    else if [0, 1, 2, 5, 6].contains clk then (s.lolMark clk).chipError clkPg 0 false
    else if 16 ≤ clk ∧ clk < 28 then
      let g := clk - 16
      let s := (s.lolMark clk).setFlag (clkPg + 0x40) 3 false
      let s := forEach (List.range 8) (fun k s => s.linkNoPll (8 * g + k)) (s.notice clkPg 0)
      if g = 5 then (s.setFlag (clkPg + 0x40) 4 false).portDown else s
    else s

/-- LANE_PLL_RELOCK (R277, R485): group g has lock again; its links retrain, and with group 5 the
Ethernet port. -/
def execLanePllRelock (g : Nat) : State → Host.Outcome State Fault Refusal :=
  liftC fun s =>
    if 12 ≤ g ∨ s.pastS0 = false then s
    else
      let s := s.setFlag (clkPg + 0x40) (16 + g) true
      let s := s.setFlag (clkPg + 0x40) 3 (s.fld (clkPg + 0x40) 27 16 == 0xFFF)
      let s := if g = 5 then s.setFlag (clkPg + 0x40) 4 true else s
      forEach (List.range 8) (fun k s => s.setLk (8 * g + k) { s.lk (8 * g + k) with noPll := false }) s

/-! ## Rails and temperatures (R486, R488, R489, R495) -/

/-- RAIL_FAULT (R486): a rail out of range for 1 µs, after S0. -/
def execRailFault (rail : Nat) : State → Host.Outcome State Fault Refusal :=
  liftC fun s =>
    if 7 ≤ rail ∨ s.pastS0 = false then s
    else (s.setFlag (pwrPg + 0x48) rail true).chipError pwrPg 1 false

/-- R489, R495: PWR_TWARN in °C, at most 110. -/
def Chip.twarnAt (s : Chip) : Int := min (signed 8 (s.fld (pwrPg + 0x58) 7 0)) 110

/-- TWARN (R489): a die reading of so many °C. -/
def execTwarn (temp : Nat) : State → Host.Outcome State Fault Refusal :=
  liftC fun s => if s.twarnAt ≤ temp then s.notice pwrPg 0 else s

/-- THERMAL_TRIP (R489): a die reading of 115 °C: UE-CHIP, and the chip is held in reset from then on,
as the chip reset finds it. -/
def execThermalTrip : State → Host.Outcome State Fault Refusal :=
  liftC fun s =>
    if s.boot.tripped then s
    else
      let s := s.chipError pwrPg 0 false
      { s with boot.tripped := true }.emit (.pin "THERM_TRIP_N" true)

/-- STACK_HOT (R182, R183, R488): the sensor of stack n shows so many °C; each of its controllers whose
MC_REF.HOT_C it reaches says so. -/
def execStackHot (n : Nat) (temp : Nat) : State → Host.Outcome State Fault Refusal :=
  liftC fun s =>
    if 8 ≤ n then s
    else forEach (List.range 32) (fun k s =>
      let pg := mcPg (32 * n + k)
      let s := s.setFld (pg + 0x40) 15 8 temp
      if s.fld (pg + 0x50) 15 8 ≤ temp then s.notice pg 6 else s) s

/-! ## Alert lines (R421, R475, R490, R492) -/

/-- R475: the chip lets go of CHAIN_ALERT_N. -/
def Chip.chainRelease (s : Chip) : Chip :=
  if s.flag (chPg + 0x44) 8 then (s.setFlag (chPg + 0x44) 8 false).emit (.pin "CHAIN_ALERT_N" false) else s

/-- ALERT_STUCK (R421, R475, R492): an alert input, of the chain or of the pair, stays asserted 100 µs
from its raw assertion: latched. -/
def execAlertStuck (chain : Bool) : State → Host.Outcome State Fault Refusal :=
  liftC fun s =>
    let since := if chain then s.chain.inAt else s.duo.inAt
    let held : Bool := match since with
      | some t => decide (t + 100000 ≤ s.ref)
      | none => false
    if held = false then s
    else if chain then
      if s.flag (chPg + 0x44) 9 then s
      else ((s.setFlag (chPg + 0x44) 9 true).chainRelease).notice chPg 2
    else if s.flag (pairPg + 0x48) 13 then s
    else ({ s with duo.seenLow := false }.setFlag (pairPg + 0x48) 13 true).notice pairPg 3

/-- CH_REARM (R475, R476): CH_CTRL.REARM: the chip drives the line again. -/
def execChRearm : State → Host.Outcome State Fault Refusal := liftC fun s => s.setFlag (chPg + 0x44) 9 false

/-- CHAIN_ALERT_SAMPLE (R475, R490): the filtered line is low, for 1 µs by now; a latched line is
ignored. -/
def execChainAlertSample : State → Host.Outcome State Fault Refusal :=
  liftC fun s =>
    if s.flag (chPg + 0x44) 9 ∨ s.chain.inAt.isSome then s
    else Chip.bump { s with chain.inAt := some (s.ref - 1000) } (chPg + 0x5C)

/-- ALERT_INPUT_DEASSERT (R490, R492): the filtered level of the chain's or the pair's alert input
returns. -/
def execAlertInputDeassert (chain : Bool) : State → Host.Outcome State Fault Refusal :=
  liftC fun s =>
    if chain then { s with chain.inAt := none }
    else if s.duo.inAt.isNone then s
    else { s with duo.inAt := none, duo.seenLow := true }.setFlag (pairPg + 0x48) 12 false

/-- ALERT_PULSE_END (R421, R475, R493): 10 µs after its begin the chip's own pulse on a line ends. -/
def execAlertPulseEnd (chain : Bool) : State → Host.Outcome State Fault Refusal :=
  liftC fun s =>
    let since := if chain then s.chain.alertAt else s.duo.outAt
    let ended : Bool := match since with
      | some t => decide (t + 10000 ≤ s.ref)
      | none => false
    if ended = false then s
    else if chain then s.chainRelease
    else if s.boot.low then s
    else ({ s with duo.outAt := none }.setFlag (pairPg + 0x48) 14 false).emit (.pin "PAIR_ALERT_OUT" false)

/-- ALERT_REPEAT (R475): while an enabled condition is pending the line is pulled again every 10 ms. -/
def execAlertRepeat : State → Host.Outcome State Fault Refusal :=
  liftC fun s =>
    let due : Bool := match s.chain.alertAt with
      | some t => decide (t + 10000000 ≤ s.ref)
      | none => true
    if s.alertsOn = 0 ∨ due = false then s else s.chainPull

/-! ## Status pins (R493) -/

/-- STAT_READY is high. -/
def Chip.statReady (s : Chip) : Bool := s.stageState == 1

/-- STAT_HOLDER is high; a frozen chip was HOLDER. -/
def Chip.statHolder (s : Chip) : Bool := s.pairRole == 0 || s.pairRole == 1 || s.pairRole == 3

/-- STAT_FAULT_N is low. -/
def Chip.statFault (s : Chip) : Bool := s.stageState == 2 || s.boot.tripped || s.boot.low

end Sys2Proof.Machine
end

