-- ==== Sys2Proof/Machine/FrogCheck.lean ====
section
/-! DEFINITION. The frog's descriptor checks (R52, R56 to R58, R66, R71, R72). -/

namespace Sys2Proof.Machine

/-! ## TILE and LOAD fields -/

def tK (d : List Word) : Nat := dw d 2 15 0 + 1
def tRows (d : List Word) : Nat := dw d 2 22 16 + 1
def tCols (d : List Word) : Nat := dw d 2 30 23 + 1
def tFmtA (d : List Word) : Nat := dw d 0 11 8
def tFmtB (d : List Word) : Nat := dw d 0 15 12
def tFmtOut (d : List Word) : Nat := dw d 0 19 16
def tOut (d : List Word) : Nat := dw d 0 7 6
def tMode (d : List Word) : Nat := dw d 0 21 20
def tAcc (d : List Word) : Bool := db d 0 4
def tSlot (d : List Word) : Nat := dw d 0 5 5

/-- Words 3 to 12: pointers and strides. -/
def ptr (d : List Word) (i : Nat) : Nat := dw d i 20 0

/-- R52: the shape class. A LOAD names it by FMT_A. -/
def tCls (d : List Word) : Nat :=
  if dw d 0 3 0 = 3 then fmtCls (tFmtA d) else max (fmtCls (tFmtA d)) (fmtCls (tFmtB d))

/-- R52: the largest COLS of a class. -/
def maxCols (k : Nat) : Nat := match k with | 0 => 256 | 1 => 128 | _ => 64

/-- R27: bytes of a run of n elements of format f. -/
def runBytes (f n : Nat) : Nat := n * fmtBits f / 8

/-- Bytes from the start of the first of n runs of len bytes, stride apart, to the end of the last. -/
def span (n stride len : Nat) : Nat := (n - 1) * stride + len

/-! ## Checks -/

/-- R66, 0x02: reserved bits of words 0 to 15 of a TILE or LOAD. -/
def tReserved (d : List Word) : Bool :=
  dw d 0 31 23 != 0 || dw d 1 31 16 != 0 || dw d 2 31 31 != 0 || dw d 14 31 0 != 0 ||
  dw d 15 31 0 != 0 || (List.range 10).any fun i => dw d (3 + i) 31 21 != 0

/-- R56, R57: fields that must be 0 in a TILE. That OUT_PTR and SO_PTR are pointers that do not apply
where OUT is 00 is the model's reading (log entry 75). -/
def tileZero (d : List Word) : Bool :=
  let scaled := fun f => fmtBS f || fmtRec f
  (tOut d != 2 && tMode d != 0) || (!scaled (tFmtA d) && ptr d 7 != 0) ||
  (!scaled (tFmtB d) && ptr d 8 != 0) || (tOut d == 0 && (ptr d 9 != 0 || ptr d 11 != 0))

/-- R56, R57: fields that must be 0 in a LOAD; OUT_PTR and SO_PTR among them is the model's reading (log
entry 75). -/
def loadZero (d : List Word) : Bool :=
  tOut d != 0 || tFmtB d != 0 || tMode d != 0 || dw d 2 15 0 != 0 || ptr d 5 != 0 ||
  ptr d 6 != 0 || ptr d 9 != 0 || ptr d 11 != 0

/-- R66, 0x06: K is no multiple of what an operand of format f asks for. -/
def badK (d : List Word) (f : Nat) : Bool :=
  (fmtBits f == 2 && tK d % 4 != 0) || (fmtBits f == 4 && tK d % 2 != 0) ||
  (fmtBS f && tK d % fmtBlk f != 0)

/-- R66, 0x08: the slot cannot be continued: not VALID, or another class or shape. -/
def slotUnlike (x : FSlot) (d : List Word) : Bool :=
  !x.valid || x.cls != tCls d || x.rows != tRows d || x.cols != tCols d

def contBad (f : Frog) (d : List Word) : Bool :=
  tAcc d && (slotUnlike (f.slot (tSlot d)) d || (wideCls (tCls d) && slotUnlike f.s1 d))

/-- R66, 0x0A: bytes of the exponents of an operand of n vectors. -/
def expBytes (d : List Word) (f n : Nat) : Nat := if fmtBS f then n * (tK d / fmtBlk f) else 0

/-- R66, 0x0B. -/
def tileAlign (d : List Word) : Bool :=
  [3, 4, 5, 6, 9, 10].any (fun i => ptr d i % 8 != 0) ||
  (fmtRec (tFmtA d) && ptr d 7 % 4 != 0) || (fmtRec (tFmtB d) && ptr d 8 % 4 != 0) ||
  (tOut d == 2 && ptr d 11 % 4 != 0) || (tOut d == 1 && ptr d 11 % 32 != 0) || ptr d 12 % 16 != 0

def loadAlign (d : List Word) : Bool :=
  ptr d 3 % 8 != 0 || ptr d 4 % 8 != 0 || ptr d 7 % 32 != 0 || ptr d 8 % 16 != 0 ||
  ptr d 12 % 16 != 0

/-- R57: bytes of an output row. -/
def outRow (d : List Word) : Nat :=
  match tOut d with
  | 1 => 8 * tCols d
  | 2 => runBytes (tFmtOut d) (tCols d)
  | _ => 0

/-- R66, 0x0C. -/
def tileStride (d : List Word) : Bool :=
  decide (ptr d 4 < runBytes (tFmtA d) (tK d) ∨ ptr d 6 < runBytes (tFmtB d) (tK d) ∨
    ptr d 10 < outRow d) ||
  (fmtBS (tFmtA d) && decide (dw d 13 15 0 < tK d / fmtBlk (tFmtA d))) ||
  (fmtBS (tFmtB d) && decide (dw d 13 31 16 < tK d / fmtBlk (tFmtB d)))

/-- R57: bytes that the scale plane of an operand of n vectors spans. -/
def planeSpan (d : List Word) (f n stride : Nat) : Nat :=
  if fmtBS f then span n stride (tK d / fmtBlk f) else if fmtRec f then 4 * n else 0

/-- A range fault; an empty range has none. -/
def Chip.outWin (s : Chip) (c a n : Nat) : Bool := n != 0 && !s.inWin c a n

/-- R66: the checks of a TILE in ascending code order, each with whether it fails. -/
def Chip.tileChecks (s : Chip) (c : Nat) (d : List Word) : List (Nat × Bool) :=
  let f := s.frog c
  let (fa, fb, fo) := (tFmtA d, tFmtB d, tFmtOut d)
  let old := if tAcc d then (f.slot (tSlot d)).kcount else 0
  [(0x02, tReserved d || tileZero d),
   (0x03, !fmtOperand fa || !fmtOperand fb || (if tOut d = 2 then !fmtTarget fo else fo != 0)),
   (0x04, tMode d == 3 || tOut d == 3),
   (0x05, decide (maxCols (tCls d) < tCols d) || (tOut d == 2 &&
     ((fmtBits fo == 2 && tCols d % 4 != 0) || (fmtBits fo == 4 && tCols d % 2 != 0)))),
   (0x06, badK d fa || badK d fb),
   (0x07, tSlot d == 1 && wideCls (tCls d)),
   (0x08, contBad f d),
   (0x09, tCls d == 0 && decide (2 ^ 31 - 1 < old + tK d)),
   (0x0A, decide (32768 < expBytes d fa (tRows d) + expBytes d fb (tCols d))),
   (0x0B, tileAlign d),
   (0x0C, tileStride d),
   (0x20, s.outWin c (ptr d 3) (span (tRows d) (ptr d 4) (runBytes fa (tK d)))),
   (0x21, s.outWin c (ptr d 5) (span (tCols d) (ptr d 6) (runBytes fb (tK d)))),
   (0x22, s.outWin c (ptr d 7) (planeSpan d fa (tRows d) (dw d 13 15 0)) ||
     s.outWin c (ptr d 8) (planeSpan d fb (tCols d) (dw d 13 31 16))),
   (0x23, tOut d != 0 && (s.outWin c (ptr d 9) (span (tRows d) (ptr d 10) (outRow d)) ||
     s.outWin c (ptr d 11) ((if tOut d = 1 then 32 else 4) * tRows d))),
   (0x24, s.outWin c (ptr d 12) 16)]

/-- R58, R62: the header of a partial, when it can be read: 128 bits. -/
def Mem.loadHdr (m : Mem) (c : Nat) (d : List Word) : Option Nat :=
  if ptr d 8 + 16 ≤ 0x200000 ∧ m.stBad c (ptr d 8) 16 = false
  then some (leNat (KMap.bytes m.store (stKey c (ptr d 8)) 16)) else none

/-- R66: the checks of a LOAD. -/
def Chip.loadChecks (m : Mem) (s : Chip) (c : Nat) (d : List Word) : List (Nat × Bool) :=
  let f := s.frog c
  let h := m.loadHdr c d
  let old := if tAcc d then (f.slot (tSlot d)).kcount else 0
  [(0x02, tReserved d || loadZero d),
   (0x03, !fmtOperand (tFmtA d) || tFmtOut d != 0),
   (0x05, decide (maxCols (tCls d) < tCols d)),
   (0x07, tSlot d == 1 && wideCls (tCls d)),
   (0x08, contBad f d),
   (0x09, tCls d == 0 && match h with
     | some v => decide (2 ^ 31 - 1 < old + v / 2 ^ 96)
     | none => false),
   (0x0B, loadAlign d),
   (0x0C, decide (ptr d 4 < 8 * tCols d)),
   (0x0D, match h with
     | some v => v / 128 % 2 == 0 || v % 16 != 0
     | none => false),
   (0x20, s.outWin c (ptr d 3) (span (tRows d) (ptr d 4) (8 * tCols d))),
   (0x21, s.outWin c (ptr d 8) 16),
   (0x22, s.outWin c (ptr d 7) (32 * tRows d)),
   (0x24, s.outWin c (ptr d 12) 16)]

/-! ## SCAN fields (R71) -/

def sRecur (d : List Word) : Bool := db d 0 4
def sSplit (d : List Word) : Bool := db d 0 5
def sAll (d : List Word) : Bool := db d 0 6
def sFmtB (d : List Word) : Nat := dw d 0 15 12
def sFmtH (d : List Word) : Nat := dw d 0 19 16
def sShift (d : List Word) : Nat := dw d 0 28 23
def sLanes (d : List Word) : Nat := dw d 1 20 16 + 1
def sN (d : List Word) : Nat := dw d 2 23 0 + 1
def sChunk (d : List Word) : Nat := dw d 11 7 0
def sPeer (d : List Word) : Nat := dw d 11 23 16
def sId (d : List Word) : Nat := dw d 11 31 24

/-- R73: bytes of an element of b, and of h. -/
def sWb (d : List Word) : Nat := fmtBits (sFmtB d) / 8
def sWh (d : List Word) : Nat := fmtBits (sFmtH d) / 8

/-- Start states and final states: one under SPLIT, one a lane under MULTI. -/
def sStates (d : List Word) : Nat := if sSplit d then 1 else sLanes d

/-- R77, R78: the descriptor reads H0: with one chunk, at the head of a gather, at chunk 0 of a
relay. -/
def sReadsH0 (c : Nat) (d : List Word) : Bool :=
  scanChunks d == 1 || (if isGather d then isHead c d else sChunk d == 0)

/-- R73: bytes a scan's runs of w-byte elements span from their pointer. -/
def sSpan (d : List Word) (stride w : Nat) : Nat :=
  if sSplit d then sN d * w else span (sLanes d) stride (sN d * w)

/-- R71: reserved bits and fields that must be 0. -/
def scanReserved (d : List Word) : Bool :=
  db d 0 7 || dw d 0 31 29 != 0 || dw d 1 31 21 != 0 || dw d 2 31 24 != 0 ||
  ([3, 4, 5, 6, 7, 8, 9, 10, 12].any fun i => dw d i 31 21 != 0) ||
  ([13, 14, 15].any fun i => dw d i 31 0 != 0) ||
  (!sRecur d && (dw d 0 11 8 != 0 || tMode d != 0 || sShift d != 0 || ptr d 5 != 0)) ||
  (sSplit d && ptr d 4 != 0) || (!sAll d && ptr d 8 != 0) ||
  (scanChunks d == 1 && sPeer d != 0)

/-- R72: what check 0x0E fails on; armed tells whether the carry table is armed for another scan. -/
def scanInvalid (d : List Word) (armed : Bool) : Bool :=
  (sSplit d && sRecur d) || decide (scanChunks d ≤ sChunk d) ||
  (scanChunks d != 1 && decide (207 < sPeer d)) ||
  (!sSplit d && (decide (ptr d 4 < sN d * sWb d) || (sRecur d && decide (ptr d 6 < 2 * sN d)) ||
    (sAll d && decide (ptr d 9 < sN d * sWh d)))) || armed

/-- R66, R72: the checks of a SCAN, the descriptor with serial number n. A head gather descriptor finds
the carry table armed for another scan where it is accepted, or where it is checked (log entry 76). -/
def Chip.scanChecks (s : Chip) (c n : Nat) (d : List Word) : List (Nat × Bool) :=
  let other : Bool := (s.frog c).clash.contains n || match (s.frog c).armed with
    | some (k, _) => isHead c d && k != n
    | none => false
  [(0x02, scanReserved d),
   (0x03, (sFmtB d != 5 && sFmtB d != 7) || (sFmtH d != 7 && sFmtH d != 9) ||
     (sRecur d && dw d 0 11 8 != 5)),
   (0x04, tMode d == 3),
   (0x0B, ([3, 4, 5, 6, 7, 8, 9, 10].any fun i => ptr d i % 8 != 0) || ptr d 12 % 16 != 0),
   (0x0E, scanInvalid d other),
   (0x24, s.outWin c (ptr d 12) 16),
   (0x25, s.outWin c (ptr d 3) (sSpan d (ptr d 4) (sWb d)) ||
     (sRecur d && s.outWin c (ptr d 5) (sSpan d (ptr d 6) 2)) ||
     (sReadsH0 c d && s.outWin c (ptr d 7) (8 * sStates d))),
   (0x26, (sAll d && s.outWin c (ptr d 8) (sSpan d (ptr d 9) (sWh d))) ||
     s.outWin c (ptr d 10) (8 * sStates d))]

/-- R66: the code of the first check of a descriptor that fails. -/
def Chip.frogCheck (m : Mem) (s : Chip) (c n : Nat) (d : List Word) : Option Nat :=
  let l := match dw d 0 3 0 with
    | 1 => s.tileChecks c d
    | 2 => s.scanChecks c n d
    | 3 => Chip.loadChecks m s c d
    | _ => [(0x01, true)]
  (l.find? (·.2)).map (·.1)

end Sys2Proof.Machine
end

