-- ==== Sys2Proof/Machine/Frog.lean ====
section
/-! DEFINITION. The frog at work: posts, tiles, loads, traps, scans and their posts
(R52 to R84, R33 to R50). -/

namespace Sys2Proof.Machine

/-! ## Posting (R59) -/

/-- R508: the frog page's UE bit: the word itself is reported by the store page. -/
def Chip.frogUe (s : Chip) (c : Nat) : Chip := s.countErr (fgPg c) 1 1 0 false

/-- R72, R80: a head gather descriptor that is accepted arms the carry table; where it is armed, check
0x0E fails when the descriptor is reached. -/
def Chip.armTable (s : Chip) (c n : Nat) (d : List Word) : Chip :=
  let f := s.frog c
  if isHead c d = false then s
  else match f.armed with
    | none => s.setFrog c { f with armed := some (n, sId d), table := [] }
    | some a => if a.1 = n then s else s.setFrog c { f with clash := f.clash ++ [n] }

/-- Queue entries taken: those waiting and the trapped one (R67). A descriptor that has started holds none
(log entry 78). -/
def Frog.taken (f : Frog) : Nat := f.queue.length + b01 f.trapDesc.isSome

/-- R59: a post of a descriptor offset. -/
def Sys.frogEnqueue (y : Sys) (c a : Nat) : Sys :=
  let s := y.chip
  let f := s.frog c
  if s.isFenced (.frog c) then y
  else if a % 64 ≠ 0 ∨ 32 ≤ f.taken then onChip (fun s => s.notice (fgPg c) 0) y
  else
    let (d, bad, y) := y.stRead c a 64
    if bad.isEmpty = false then onChip (fun s => s.frogUe c) y
    else onChip (fun s =>
      let (n, s) := s.strike (fgPg c)
      let f := s.frog c
      let s := s.setFrog c { f with
        queue := f.queue ++ [(f.serial, wordsOf d)]
        serial := f.serial + 1
        struck := if n = 0 then f.struck else some (f.serial, n)
        clash := f.clash.filter fun k => (f.trapDesc.toList ++ f.queue).any (·.1 == k) }
      s.armTable c f.serial (wordsOf d)) y

/-- R59: who may post: a newt only while FG_CTRL.NEWT_POST = 1. -/
def Chip.mayPost (s : Chip) (c : Nat) : Agent → Bool
  | .newt _ => s.flag (fgPg c + 0x40) 0
  | _ => true

/-- FG_POST (R59): a write of FG_POST. -/
def execFgPost (c : ClusterNo) (ag : Agent) (v : Word) : State → Host.Outcome State Fault Refusal :=
  liftS fun y => if y.chip.mayPost c ag then y.frogEnqueue c (Word.bits v 20 0) else y

/-! ## Completion and traps -/

/-- R62, R63: a completion word is written after every output. -/
def Sys.frogPost (y : Sys) (c : Nat) (d : List Word) (w : List Byte) : Sys :=
  onChip (fun s => s.frogDone c d) (y.stWrite c (ptr d 12) w)

/-- R67: the frog traps with a code; none is the descriptor of code 0x40. -/
def Chip.frogTrap (s : Chip) (c code tag : Nat) (q : Option (Nat × List Word)) : Chip :=
  let s := s.setFrog c { s.frog c with trapped := true, trapDesc := q }
  s.setReg (fgPg c + 0x4C) (BitVec.ofNat 32 (code + 65536 * tag))

/-- R60, R65, R67: the frog may start its next descriptor. -/
def Chip.frogReady (s : Chip) (c : Nat) : Bool :=
  let f := s.frog c
  !f.trapped && f.wait.isNone && !s.isFenced (.frog c) && !s.frozen (fgPg c) && !s.stFrozen c &&
  (KMap.at s.parts.clReset none c).isNone

/-- R60, R66, R386: the descriptor at the queue head starts, if its OPC is one of ops: its queue entry is
free (log entry 78), an injected error of the entry strikes, its checks are evaluated, and it runs. -/
def Sys.frogStart (y : Sys) (c : Nat) (ops : List Nat) (run : Nat → List Word → Sys → Sys) : Sys :=
  match (y.chip.frog c).queue with
  | [] => y
  | (n, d) :: rest =>
    if y.chip.frogReady c = false ∨ ops.contains (dw d 0 3 0) = false then y
    else
      let f := y.chip.frog c
      let hit := match f.struck with | some (k, b) => if k = n then b else 0 | none => 0
      let y := onChip (fun s => s.setFrog c { s.frog c with queue := rest }) y
      if hit = 2 then onChip (fun s => s.unitError (.frog c) .data (fgPg c) 1 0 true) y
      else
        let y := if hit = 1 then onChip (fun s => s.bump (fgPg c + 0x20)) y else y
        match Chip.frogCheck y.mem y.chip c n d with
        | some code => onChip (fun s => s.frogTrap c code (dw d 1 15 0) (some (n, d))) y
        | none => run n d y

/-! ## Runs of bytes -/

/-- n runs of len bytes, stride apart, from a base: the runs, whether any held an uncorrectable
word. -/
def Sys.readRuns (y : Sys) (c base stride len : Nat) : Nat → List (List Byte) × Bool × Sys
  | 0 => ([], false, y)
  | n + 1 =>
    let (d, bad, y) := y.stRead c base len
    let (ds, b, y) := Sys.readRuns y c (base + stride) stride len n
    (d :: ds, !bad.isEmpty || b, y)

/-- R112: some run of len bytes, of n runs stride apart, merges into an uncorrectable word once the lines
it touches have left the caches. -/
def Sys.runsStuck (y : Sys) (c base stride len n : Nat) : Bool :=
  (List.range n).any fun i =>
    (y.invLines c (base + i * stride) len).mem.stStuck c (base + i * stride) len

/-- R112: the words at either end of runs that merge are read, and what is wrong with them comes
about. -/
def Sys.meetEnds (y : Sys) (c base stride len n : Nat) : Sys :=
  forEachS (List.range n) (fun i y =>
    let a := base + i * stride
    let y := y.invLines c a len
    let y := if a % 4 ≠ 0 then (y.stRead c (a / 4 * 4) 4).2.2 else y
    if (a + len) % 4 ≠ 0 then (y.stRead c ((a + len) / 4 * 4) 4).2.2 else y) y

/-- Runs written from a base, stride apart. -/
def Sys.writeRuns (y : Sys) (c base stride : Nat) (l : List (List Byte)) : Sys :=
  (l.foldl (fun (a, y) d => (a + stride, Sys.stWrite y c a d)) (base, y)).2

/-! ## TILE (R33 to R40, R57, R60) -/

/-- The scale plane of an operand: BS exponents by vector, or RS8 and AU8 records. -/
structure Plane where
  exps : List (List Int)
  recs : List ScaleRec
deriving DecidableEq, Repr

/-- R29, R30: records from the bytes read, of which the words listed in bad are uncorrectable: a flag is
that of a word that was read. -/
def recsOf (d : List Byte) (bad : List Nat) (z : Bool) : List ScaleRec :=
  (wordsOf d).mapIdx fun i w =>
    let r := recOf w.toNat z
    if bad.contains i then { r with bad := false } else r

/-- R50, R57: the scale plane of an operand of n vectors is read. -/
def Sys.readPlane (y : Sys) (c f p stride k n : Nat) : Plane × Bool × Sys :=
  if fmtBS f then
    let (ds, bad, y) := y.readRuns c p stride (k / fmtBlk f) n
    (⟨ds.map fun d => d.map fun b => signed 8 b.toNat, []⟩, bad, y)
  else if fmtRec f then
    let (d, bad, y) := y.stRead c p (4 * n)
    (⟨[], recsOf d bad (f == 0xE)⟩, !bad.isEmpty, y)
  else (⟨[], []⟩, false, y)

/-- R30, R48: some record that a TILE has read has offending bits. -/
def scalesBad (pa pb : Plane) (out : List ScaleRec) : Bool :=
  pa.recs.any (·.bad) || pb.recs.any (·.bad) || out.any (·.bad)

/-- R36: the least and greatest block exponent of an operand. -/
def Plane.span (p : Plane) : Int × Int :=
  match p.exps.flatten with
  | [] => (0, 0)
  | e :: es => es.foldl (fun (lo, hi) x => (min lo x, max hi x)) (e, e)

/-- R33, R36: a vector as widened elements with their exponents. -/
def decodeVec (f k : Nat) (p : Plane) (i : Nat) (d : List Byte) : List (Int × Int) :=
  let z := if f = 0xE then ((p.recs.getD i unitRec).z : Int) else 0
  let qs := ((unpack (fmtBits f) d).take k).map fun v => element f v - z
  let es := if fmtBS f then (p.exps.getD i []).flatMap (List.replicate (fmtBlk f) ·)
    else List.replicate k 0
  qs.zip es

/-- The bytes of a run read from offset a, zeros in place of uncorrectable words. -/
def Mem.live (m : Mem) (c a : Nat) (d : List Byte) : List Byte :=
  d.mapIdx fun i b => if (KMap.at m.storeMark .good ((stKey c a + i) / 4)).dead then 0 else b

/-- R26: an operand's runs hold the reserved TERN pattern. -/
def hasBadCode (f k : Nat) (ds : List (List Byte)) : Bool :=
  f == 0 && ds.any fun d => ((unpack 2 d).take k).any (badTern 0 ·)

/-- R36, R37: the products of a row and a column added to an accumulator aligned to lo. -/
def dotAdd (lo : Int) (a b : List (Int × Int)) (acc : Int × Bool) : Int × Bool :=
  (a.zip b).foldl (fun acc x => accAdd acc (x.1.1 * x.2.1) (x.1.2 + x.2.2 - lo).toNat) acc

/-- Key of accumulator (i, j) of a slot. -/
def accKey (slot i j : Nat) : Nat := 65536 * slot + 256 * i + j

/-- The accumulator file with the tile of a slot replaced by rows; a class that occupies both slots
replaces both. -/
def Frog.putTile (f : Frog) (slot : Nat) (wide : Bool) (rows : List (List (Int × Bool))) : Frog :=
  let new := ((rows.mapIdx fun i r => r.mapIdx fun j v => (accKey slot i j, v)).flatten).filter
    fun e => e.2 != (0, false)
  let lo := f.acc.filter fun e => decide (e.1 < 65536 * slot)
  let hi := f.acc.filter fun e => decide (65536 * (slot + 1) ≤ e.1) && !wide
  { f with acc := lo ++ new ++ hi }

/-- The rows of the tile of a slot. -/
def Frog.tile (f : Frog) (slot rows cols : Nat) : List (List (Int × Bool)) :=
  (List.range rows).map fun i => (List.range cols).map fun j =>
    KMap.at f.acc (0, false) (accKey slot i j)

/-- R54, R64: a descriptor that ends UE in its main phase leaves its slot invalid. -/
def Chip.spoilSlot (s : Chip) (c : Nat) (d : List Word) : Chip :=
  let f := s.frog c
  s.setFrog c (f.setSlot (tSlot d) { f.slot (tSlot d) with valid := false, cls := tCls d })

/-- R50, R64: a descriptor ends UE: reported, completion word posted, with the flags of what it had
read. -/
def Sys.frogEndUe (y : Sys) (c : Nat) (d : List Word) (badcode badscale : Bool := false) : Sys :=
  let y := onChip (fun s => s.frogUe c) y
  y.frogPost c d ((y.chip.frog c).failBytes d .ue 0 badcode badscale)

/-- R45, R47 to R49: the requantized elements of a tile with whether each saturated. -/
def requantTile (d : List Word) (e : Int) (pa pb : Plane) (out : List ScaleRec)
    (rows : List (List (Int × Bool))) : List (List (Int × Bool)) :=
  let fo := tFmtOut d
  rows.mapIdx fun i r => r.mapIdx fun j a =>
    requantize a e
      (if fmtRec (tFmtA d) then { pa.recs.getD i unitRec with z := 0 } else unitRec)
      (if fmtRec (tFmtB d) then { pb.recs.getD j unitRec with z := 0 } else unitRec)
      (out.getD i unitRec) (tMode d) (fmtLo fo) (fmtHi fo)

/-- R57: a row of SAT bits as its 32 bytes. -/
def satRow (r : List (Int × Bool)) : List Byte :=
  leBytes 32 ((r.mapIdx fun j a => b01 a.2 * 2 ^ j).sum)

/-- R57, R60: the drain: what the tile's rows are written as. -/
def Sys.drain (y : Sys) (c : Nat) (d : List Word) (rows rq : List (List (Int × Bool))) : Sys :=
  match tOut d with
  | 1 =>
    let y := y.writeRuns c (ptr d 9) (ptr d 10)
      (rows.map fun r => r.flatMap fun a => leBytes 8 (unsigned 64 a.1))
    y.writeRuns c (ptr d 11) 32 (rows.map satRow)
  | 2 =>
    let w := fmtBits (tFmtOut d)
    y.writeRuns c (ptr d 9) (ptr d 10) (rq.map fun r => pack w (r.map fun a => unsigned w a.1))
  | _ => y

/-- R36 to R39, R60, R62: the main phase, drain and completion of a TILE whose prepass has read its
planes and output records. R38 counts as applied, for EXACT, where a SAT bit goes to 1: not where an
accumulator whose SAT was set ignores a contribution (log entry 79). R112: an output that has to merge
into an uncorrectable word ends the tile UE (R64). -/
def Sys.tileMain (y : Sys) (c : Nat) (d : List Word) (pa pb : Plane) (out : List ScaleRec) : Sys :=
  let (fa, fb, k) := (tFmtA d, tFmtB d, tK d)
  let f := y.chip.frog c
  let x := f.slot (tSlot d)
  let (as', badA, y) := y.readRuns c (ptr d 3) (ptr d 4) (runBytes fa k) (tRows d)
  let (bs, badB, y) := y.readRuns c (ptr d 5) (ptr d 6) (runBytes fb k) (tCols d)
  let live := fun (i : Nat) => List.mapIdx fun n r => y.mem.live c (ptr d i + n * ptr d (i + 1)) r
  let bad := hasBadCode fa k (live 3 as') || hasBadCode fb k (live 5 bs)
  let badScale := scalesBad pa pb out
  let w := runBytes (tFmtOut d) (tCols d)
  if badA ∨ badB then (onChip (fun s => s.spoilSlot c d) y).frogEndUe c d bad badScale
  else if tOut d = 2 ∧ y.runsStuck c (ptr d 9) (ptr d 10) w (tRows d) then
    Sys.frogEndUe (onChip (fun s => s.spoilSlot c d) (y.meetEnds c (ptr d 9) (ptr d 10) w (tRows d)))
      c d bad badScale
  else
    let dlo := pa.span.1 + pb.span.1
    let dhi := pa.span.2 + pb.span.2
    let lo := if tAcc d then min x.lo dlo else dlo
    let hi := if tAcc d then max x.hi dhi else dhi
    let va := as'.mapIdx (decodeVec fa k pa)
    let vb := bs.mapIdx (decodeVec fb k pb)
    let old := if tAcc d then f.tile (tSlot d) (tRows d) (tCols d)
      else List.replicate (tRows d) (List.replicate (tCols d) (0, false))
    let rows := List.zipWith (fun a r => List.zipWith (fun b v =>
      dotAdd lo a b (accShift v (x.lo - lo).toNat)) vb r) va old
    let met := (List.zipWith (fun r o => (List.zipWith (fun (a b : Int × Bool) => a.2 && !b.2) r o).any id)
      rows old).any id
    let exact := (!tAcc d || x.exact) && decide (hi - lo ≤ 24) && !met
    let x' : FSlot :=
      { valid := true, cls := tCls d, rows := tRows d, cols := tCols d, lo := lo, hi := hi
        exact := exact, kcount := (if tAcc d then x.kcount else 0) + k }
    let f' := (f.setSlot (tSlot d) x').putTile (tSlot d) (wideCls (tCls d)) rows
    let y := onChip (fun s => s.setFrog c f') y
    let rq := if tOut d = 2 then requantTile d lo pa pb out rows else []
    let y := y.drain c d rows rq
    let n := if tOut d = 2 then ((rq.flatten).filter (·.2)).length
      else ((rows.flatten).filter (·.2)).length
    let y := y.frogPost c d
      (cmplBytes .ok exact bad badScale 1 (dw d 1 15 0) lo hi n x'.kcount)
    if bad then onChip (fun s => s.frogTrap c 0x40 (dw d 1 15 0) none) y else y

/-- R50, R60: the prepass of a TILE: planes and output records, then the main phase. -/
def Sys.tileRun (y : Sys) (c : Nat) (d : List Word) : Sys :=
  let (pa, b1, y) := y.readPlane c (tFmtA d) (ptr d 7) (dw d 13 15 0) (tK d) (tRows d)
  let (pb, b2, y) := y.readPlane c (tFmtB d) (ptr d 8) (dw d 13 31 16) (tK d) (tCols d)
  let (o, b3, y) := if tOut d = 2 then y.stRead c (ptr d 11) (4 * tRows d) else ([], [], y)
  let out := recsOf o b3 (!(fmtSigned (tFmtOut d)))
  if b1 ∨ b2 ∨ b3.isEmpty = false then y.frogEndUe c d false (scalesBad pa pb out)
  else y.tileMain c d pa pb out

/-- TILE (R60): the frog starts the TILE at the queue head; a head of a reserved OPC traps here. -/
def execTile (c : ClusterNo) : State → Host.Outcome State Fault Refusal :=
  liftS fun y => y.frogStart c (1 :: 0 :: (List.range 12).map (· + 4)) fun _ d y => y.tileRun c d

/-! ## LOAD (R42, R58) -/

/-- R58: the SAT bit of column j of a bitmap row. -/
def satBit (d : List Byte) (j : Nat) : Bool := ((d.getD (j / 8) 0).toNat / 2 ^ (j % 8)) % 2 == 1

/-- R42, R58: the main phase of a LOAD with header h. -/
def Sys.loadMain (y : Sys) (c : Nat) (d : List Word) (h : Nat) : Sys :=
  let f := y.chip.frog c
  let x := f.slot (tSlot d)
  let (as', b1, y) := y.readRuns c (ptr d 3) (ptr d 4) (8 * tCols d) (tRows d)
  let (ss, b2, y) := y.readRuns c (ptr d 7) 32 32 (tRows d)
  let part := List.zipWith (fun a sb =>
    (chunks 8 (tCols d) a).mapIdx fun j v => (signed 64 v, satBit sb j)) as' ss
  let far := tCls d == 0 && part.any fun r => r.any fun a => decide (a.1 < -2 ^ 31 + 1 ∨ 2 ^ 31 - 1 < a.1)
  if b1 ∨ b2 ∨ far then (onChip (fun s => s.spoilSlot c d) y).frogEndUe c d
  else
    let plo := signed 10 (h / 2 ^ 32)
    let phi := signed 10 (h / 2 ^ 42)
    let pex := h / 16 % 2 == 1
    let pk := h / 2 ^ 96
    let lo := if tAcc d then min x.lo plo else plo
    let hi := if tAcc d then max x.hi phi else phi
    let old := f.tile (tSlot d) (tRows d) (tCols d)
    let one := fun (a b : Int × Bool) =>
      let a' := accShift a (x.lo - lo).toNat
      let b' := accShift b (plo - lo).toNat
      (satAdd a' b', (a'.2 && !a.2) || (b'.2 && !b.2) || (!a'.2 && (clamp64 (a'.1 + b'.1)).2))
    let res := if tAcc d then List.zipWith (List.zipWith one) old part
      else part.map fun r => r.map fun a => (a, false)
    let rows := res.map fun r => r.map (·.1)
    let met := res.any fun r => r.any (·.2)
    let exact := if tAcc d then x.exact && pex && decide (hi - lo ≤ 24) && !met else pex
    let x' : FSlot :=
      { valid := true, cls := tCls d, rows := tRows d, cols := tCols d, lo := lo, hi := hi
        exact := exact, kcount := (if tAcc d then x.kcount else 0) + pk }
    let f' := (f.setSlot (tSlot d) x').putTile (tSlot d) (wideCls (tCls d)) rows
    let y := onChip (fun s => s.setFrog c f') y
    y.frogPost c d (cmplBytes .ok exact false false 3 (dw d 1 15 0) lo hi
      ((rows.flatten).filter (·.2)).length x'.kcount)

/-- LOAD (R58): the frog starts the LOAD at the queue head. -/
def execLoad (c : ClusterNo) : State → Host.Outcome State Fault Refusal :=
  liftS fun y => y.frogStart c [3] fun _ d y =>
    let (h, bad, y) := y.stRead c (ptr d 8) 16
    if bad.isEmpty = false then y.frogEndUe c d else y.loadMain c d (leNat h)

/-- FG_TRAP_ACT_RESUME (R67, R68, R80): the trapped descriptor is dropped. TAG is cleared with the code
(log entry 80). -/
def execFgTrapActResume (c : ClusterNo) : State → Host.Outcome State Fault Refusal :=
  liftC fun s =>
    let f := s.frog c
    if f.trapped = false then s
    else
      let mine : Bool := match f.trapDesc, f.armed with
        | some q, some a => q.1 == a.1
        | _, _ => false
      let s := if mine then s.releaseTable c .fenced else s
      let s := s.setFrog c { s.frog c with trapped := false, trapDesc := none }
      s.setReg (fgPg c + 0x4C) 0

/-- FG_TRAP_ACT_FLUSH (R67, R68, R80): the trapped and every queued descriptor are dropped. TAG is cleared
with the code (log entry 80). -/
def execFgTrapActFlush (c : ClusterNo) : State → Host.Outcome State Fault Refusal :=
  liftC fun s =>
    let f := s.frog c
    if f.trapped = false then s
    else
      let mine : Bool := match f.armed with
        | some a => (f.trapDesc.toList ++ f.queue).any fun q => q.1 == a.1
        | none => false
      let s := if mine then s.releaseTable c .fenced else s
      let s := s.setFrog c { s.frog c with trapped := false, trapDesc := none, queue := [] }
      (s.setReg (fgPg c + 0x4C) 0).bumpBy (fgPg c + 0x6C) f.taken

end Sys2Proof.Machine
end

