-- ==== Sys2Proof/Machine/Scan.lean ====
section
/-! DEFINITION. Scan mode: prefix sums and recurrences, the gather and relay protocols, posts between
frogs and their end (R71 to R82). -/

namespace Sys2Proof.Machine

/-! ## Lanes (R73) -/

/-- R73: where lane l's run of w-byte elements starts from a pointer, and its number of steps. -/
def laneAt (d : List Word) (base stride w l : Nat) : Nat × Nat :=
  if sSplit d then
    let m := ceilDiv (sN d) (sLanes d)
    let lo := min (sN d) (l * m)
    (base + lo * w, min (sN d) ((l + 1) * m) - lo)
  else (base + l * stride, sN d)

/-- R73: the runs of all lanes of w-byte signed elements; whether any word was uncorrectable. -/
def Sys.readLanes (y : Sys) (c : Nat) (d : List Word) (base stride w : Nat) :
    List (List Int) × Bool × Sys :=
  (List.range (sLanes d)).foldl (fun (ls, bad, y) l =>
    let (a, n) := laneAt d base stride w l
    let (bs, b, y) := Sys.stRead y c a (n * w)
    (ls ++ [(chunks w n bs).map (signed (8 * w))], bad || !b.isEmpty, y)) ([], false, y)

/-- Start states: n S64 words. -/
def Sys.readH0 (y : Sys) (c : Nat) (d : List Word) : List Int × Bool × Sys :=
  let (bs, b, y) := y.stRead c (ptr d 7) (8 * sStates d)
  ((chunks 8 (sStates d) bs).map (signed 64), !b.isEmpty, y)

/-! ## Passes (R74, R75) -/

/-- R38, R74: the states of a PREFIX lane from its start, with their SAT bits. -/
def prefixRun (h : Int × Bool) : List Int → List (Int × Bool)
  | [] => []
  | b :: bs =>
    let h' := satAdd h (b, false)
    h' :: prefixRun h' bs

/-- R74: states of a lane that met R38: those at which a SAT bit goes to 1. -/
def metCount (h : Int × Bool) (hs : List (Int × Bool)) : Nat :=
  if h.2 then 0 else b01 (hs.any (·.2))

/-- R74, R75: a value clamped to FMT_H, and whether it was. -/
def clampH (d : List Word) (v : Int) : Int × Bool :=
  if fmtHi (sFmtH d) < v then (fmtHi (sFmtH d), true)
  else if v < fmtLo (sFmtH d) then (fmtLo (sFmtH d), true) else (v, false)

/-- R75: the states of a RECUR lane from its start, with whether each was clamped. -/
def recurRun (d : List Word) (h : Int) : List (Int × Int) → List (Int × Bool)
  | [] => []
  | (a, b) :: l =>
    let h' := recurStep h a b (sShift d) (tMode d) (fmtLo (sFmtH d)) (fmtHi (sFmtH d))
    h' :: recurRun d h'.1 l

/-- The last state of a lane, its start if it has no step. -/
def lastState (h : Int × Bool) (hs : List (Int × Bool)) : Int × Bool := hs.getLastD h

/-! ## The end of a scan -/

/-- R73: the outputs of every lane. -/
def Sys.writeLanes (y : Sys) (c : Nat) (d : List Word) (ls : List (List Int)) : Sys :=
  (ls.foldl (fun (l, y) vs =>
    let a := (laneAt d (ptr d 8) (ptr d 9) (sWh d) l).1
    (l + 1, Sys.stWrite y c a (vs.flatMap fun v => leBytes (sWh d) (unsigned (8 * sWh d) v))))
    (0, y)).2

/-- R112: some lane's output merges into an uncorrectable word. -/
def Sys.lanesStuck (y : Sys) (c : Nat) (d : List Word) : Bool :=
  (List.range (sLanes d)).any fun l =>
    let (a, n) := laneAt d (ptr d 8) (ptr d 9) (sWh d) l
    y.runsStuck c a 0 (n * sWh d) 1

/-- R112: what is wrong with the words that the outputs merge into comes about. -/
def Sys.meetLanes (y : Sys) (c : Nat) (d : List Word) : Sys :=
  forEachS (List.range (sLanes d)) (fun l y =>
    let (a, n) := laneAt d (ptr d 8) (ptr d 9) (sWh d) l
    y.meetEnds c a 0 (n * sWh d) 1) y

/-- R62, R74, R80: a scan ends OK: final states, completion word, the carry table released. A count
that the field does not hold is a free value. -/
def Sys.scanDone (y : Sys) (c n : Nat) (d : List Word) (finals : List Int) (exact : Bool)
    (count : Nat) : Sys :=
  let y := y.stWrite c (ptr d 10) (finals.flatMap fun v => leBytes 8 (unsigned 64 v))
  let (k, s) := if count < 65536 then (count, y.chip) else y.chip.fresh
  let s := match (s.frog c).armed with
    | some a => if a.1 = n then s.setFrog c { s.frog c with armed := none, table := [] } else s
    | none => s
  let s := s.setFrog c { s.frog c with wait := none }
  Sys.frogPost { y with chip := s } c d (cmplBytes .ok exact false false 2 (dw d 1 15 0) 0 0 k (sN d))

/-- R64: a scan that read an uncorrectable word ends UE. -/
def Sys.scanUe (y : Sys) (c n : Nat) (d : List Word) : Sys :=
  let s := y.chip
  let s := match (s.frog c).armed with
    | some a => if a.1 = n then s.setFrog c { s.frog c with armed := none, table := [] } else s
    | none => s
  let s := s.setFrog c { s.frog c with wait := none }
  Sys.frogEndUe { y with chip := s } c d

/-- R64, R112: a scan whose outputs would merge into an uncorrectable word ends UE; another goes on. -/
def Sys.scanOut (y : Sys) (c n : Nat) (d : List Word) (go : Sys → Sys) : Sys :=
  if sAll d = true ∧ y.lanesStuck c d = true then (y.meetLanes c d).scanUe c n d else go y

/-- R74: PREFIX lanes from their starts: outputs and final states clamped to FMT_H, and their count, the
clamped final states among it (log entry 82). `carry` tells that a carry met R38. -/
def Sys.prefixEnd (y : Sys) (c n : Nat) (d : List Word) (starts : List (Int × Bool))
    (els : List (List Int)) (finals : List (Int × Bool)) (carry : Bool) : Sys :=
  let runs := List.zipWith (fun h bs => (h, prefixRun h bs)) starts els
  let outs := runs.map fun r => r.2.map fun v => clampH d v.1
  let fins := finals.map fun v => clampH d v.1
  let met := (runs.map fun r => metCount r.1 r.2).sum
  let clamped := (if sAll d then ((outs.flatten).filter (·.2)).length else 0) +
    (fins.filter (·.2)).length
  y.scanOut c n d fun y =>
  let y := if sAll d then y.writeLanes c d (outs.map fun o => o.map (·.1)) else y
  let exact := met == 0 && !carry && (finals.all fun v => !v.2)
  y.scanDone c n d (fins.map (·.1)) exact (met + clamped)

/-! ## Carries (R77, R78) -/

/-- A post of a frog to a cluster. -/
def Chip.postVals (s : Chip) (kind : PostKind) (c dst : Nat) (d : List Word) (chunk : Nat)
    (vals : List (Int × Bool)) : Chip :=
  { s with posts := s.posts ++ [⟨kind, c, dst, s.ownerOf c, sId d, chunk, vals⟩] }

/-- R77 steps 5 and 6: a chunk of a gather has its carry C. -/
def Sys.gatherEnd (y : Sys) (c : Nat) (w : ScanWait) (carry : Int × Bool) : Sys :=
  let starts := (w.lanes.foldl (fun (l, h) t => (l ++ [h], satAdd h t)) ([], carry)).1
  y.prefixEnd c w.serial w.desc (if sAll w.desc then starts else w.lanes.map fun _ => (0, false))
    w.els [satAdd carry w.total] (carry.2 || w.total.2 || starts.any (·.2))

/-- R78: a chunk of a relay runs its full pass from its start states and posts its final states. -/
def Sys.relayRun (y : Sys) (c n : Nat) (d : List Word) (starts : List (Int × Bool)) : Sys :=
  let (bs, b1, y) := y.readLanes c d (ptr d 3) (ptr d 4) (sWb d)
  let (as', b2, y) := if sRecur d then y.readLanes c d (ptr d 5) (ptr d 6) 2 else ([], false, y)
  if b1 ∨ b2 then y.scanUe c n d
  else
    let next := fun (vals : List (Int × Bool)) (y : Sys) =>
      if scanChunks d = 1 ∨ sChunk d + 1 = scanChunks d then y
      else onChip (fun s => s.postVals .relay c (sPeer d) d (sChunk d + 1) vals) y
    if sRecur d then
      let h0 := starts.map fun h => clampH d h.1
      let runs := List.zipWith (fun h ab => recurRun d h.1 ab) h0 (List.zipWith List.zip as' bs)
      let finals := List.zipWith (fun h r => (lastState h r).1) h0 runs
      let count := (h0.filter (·.2)).length + ((runs.flatten).filter (·.2)).length
      y.scanOut c n d fun y =>
      let y := if sAll d then y.writeLanes c d (runs.map fun r => r.map (·.1)) else y
      (next (finals.map fun v => (v, false)) y).scanDone c n d finals false count
    else
      let runs := List.zipWith prefixRun starts bs
      let finals := List.zipWith lastState starts runs
      (next finals y).prefixEnd c n d starts bs finals (starts.any (·.2))

/-- R77 steps 3 and 4: the head, once every entry of its table is filled, forms the carries and posts
each to its chunk. -/
def Chip.tryGather (s : Chip) (c : Nat) : Chip :=
  let f := s.frog c
  match f.wait, f.armed with
  | some w, some a =>
    let ts := (List.range (scanChunks w.desc)).map fun k => KMap.at f.table none k
    if a.1 ≠ w.serial ∨ w.sent ∨ ts.any (·.isNone) then s
    else
      let s := s.setFrog c { f with wait := some { w with sent := true } }
      (ts.foldl (fun (k, h, s) t => match t with
        | some t => (k + 1, satAdd h (t.val, t.sat),
            Chip.postVals s .carry c (if k = sChunk w.desc then c else t.src) w.desc k [h])
        | none => (k + 1, h, s)) (0, (w.h0, false), s)).2.2
  | _, _ => s

/-- R80: a post is discarded, counted and noted. -/
def Chip.postDrop (s : Chip) (c : Nat) : Chip := (s.bump (fgPg c + 0x60)).notice (fgPg c) 3

/-- R80: a post answers what a waiting descriptor waits for. -/
def postFits (w : ScanWait) (p : Post) : Bool :=
  p.scan == sId w.desc && p.chunk == sChunk w.desc &&
  p.kind == (if isGather w.desc then .carry else .relay)

/-- The waiting descriptor takes a post. -/
def Sys.takePost (y : Sys) (c : Nat) (w : ScanWait) (p : Post) : Sys :=
  if isGather w.desc then y.gatherEnd c w (p.vals.headD (0, false))
  else y.relayRun c w.serial w.desc p.vals

/-- R80: a descriptor enters WAIT_CARRY: a buffered post that matches is taken, another discarded. -/
def Sys.enterWait (y : Sys) (c : Nat) (w : ScanWait) : Sys :=
  let f := y.chip.frog c
  let s := y.chip.setFrog c { f with wait := some w, buf := none }
  match f.buf with
  | none => { y with chip := s.tryGather c }
  | some p =>
    if postFits w p then Sys.takePost { y with chip := s } c w p
    else { y with chip := (s.postDrop c).tryGather c }

/-- R77 steps 1 to 3: a gather chunk: pass T, then its total to the head. -/
def Sys.gatherRun (y : Sys) (c n : Nat) (d : List Word) : Sys :=
  let (bs, b1, y) := y.readLanes c d (ptr d 3) (ptr d 4) (sWb d)
  let (h0, b2, y) := if sReadsH0 c d then y.readH0 c d else ([], false, y)
  if b1 ∨ b2 then y.scanUe c n d
  else
    let lanes := bs.map fun l => lastState (0, false) (prefixRun (0, false) l)
    let total := lanes.foldl satAdd (0, false)
    let met := (bs.map fun l => metCount (0, false) (prefixRun (0, false) l)).sum
    let w : ScanWait :=
      { serial := n, desc := d, els := bs, lanes := lanes, total := total, h0 := h0.headD 0
        count := met, since := y.chip.ref, sent := false }
    if scanChunks d = 1 then y.gatherEnd c w (w.h0, false)
    else
      let y := onChip (fun s =>
        if isHead c d then
          let s := s.armTable c n d
          let f := s.frog c
          if (KMap.at f.table none (sChunk d)).isSome then s.postDrop c
          else
            let t : Total := ⟨total.1, total.2, c⟩
            s.setFrog c { f with table := KMap.put f.table none (sChunk d) (some t) }
        else s.postVals .total c (sPeer d) d (sChunk d) [total]) y
      y.enterWait c w

/-- SCAN (R71): the frog starts the SCAN at the queue head: a SPLIT pass, or the full pass of a MULTI
scan, for which chunk c > 0 of a relay waits. -/
def execScan (c : ClusterNo) : State → Host.Outcome State Fault Refusal :=
  liftS fun y => y.frogStart c [2] fun n d y =>
    if sSplit d then y.gatherRun c n d
    else if scanChunks d = 1 ∨ sChunk d = 0 then
      let (h0, bad, y) := y.readH0 c d
      if bad then y.scanUe c n d else y.relayRun c n d (h0.map fun h => (h, false))
    else y.enterWait c
      { serial := n, desc := d, els := [], lanes := [], total := (0, false), h0 := 0, count := 0
        since := y.chip.ref, sent := false }

/-! ## Posts that arrive (R79 to R81) -/

/-- The i-th post on its way to cluster c that satisfies p. -/
def Chip.postAt (s : Chip) (c i : Nat) (p : Post → Bool) : Option Post :=
  (s.posts.filter fun x => x.dst == c && p x)[i]?

def isAbort (p : Post) : Bool := match p.kind with | .abort _ => true | _ => false

/-- R79: a post from outside the context of its target's cluster is discarded there. -/
def Chip.postForeign (s : Chip) (c : Nat) (p : Post) : Bool :=
  p.src != c && (p.ctx.isNone || p.ctx != s.ownerOf c)

/-- CARRY_POST (R77, R78, R80): the i-th carry, relay or total on its way to the frog arrives. One that
reaches a fenced frog is discarded uncounted (log entry 84). -/
def execCarryPost (c : ClusterNo) (i : Nat) : State → Host.Outcome State Fault Refusal :=
  liftS fun y => if y.chip.stFrozen c then y else match y.chip.postAt c i (fun p => !isAbort p) with
    | none => y
    | some p =>
      let s := { y.chip with posts := y.chip.posts.erase p }
      let y := { y with chip := s }
      let f := s.frog c
      if s.postForeign c p ∨ s.isFenced (.frog c) then y
      else if p.kind = .total then
        onChip (fun s => match f.armed with
          | some a =>
            if a.2 = p.scan ∧ (KMap.at f.table none p.chunk).isNone then
              let v := p.vals.headD (0, false)
              let t : Total := ⟨v.1, v.2, p.src⟩
              (s.setFrog c { f with table := KMap.put f.table none p.chunk (some t) }).tryGather c
            else s.postDrop c
          | none => s.postDrop c) y
      else if f.buf.isSome then onChip (fun s => s.postDrop c) y
      else match f.wait with
        | some w => if postFits w p then y.takePost c w p
          else onChip (fun s => s.setFrog c { f with buf := some p }) y
        | none => onChip (fun s => s.setFrog c { f with buf := some p }) y

/-- R81: the output range of a chunk that an abort ends: unspecified values (log entry 83). -/
def Sys.spoilLanes (y : Sys) (c : Nat) (d : List Word) : Sys :=
  if sAll d = false then y
  else
    let (k, s) := y.chip.fresh
    let n := (List.range (sLanes d)).map fun l => (laneAt d (ptr d 8) (ptr d 9) (sWh d) l).2
    Sys.writeLanes { y with chip := s } c d (n.mapIdx fun l m => (List.range m).map fun t =>
      (Config.freeByte k (2 ^ 24 * l + t) : Int))

/-- R65, R81: a waiting scan ends with a status: its completion word, and the aborts of a frog that
leaves it. -/
def Sys.endWait (y : Sys) (c : Nat) (w : ScanWait) (st : Status) : Sys :=
  let f := y.chip.frog c
  let bytes := f.failBytes w.desc st w.count
  let y := onChip (fun s => (s.setFrog c { f with wait := none }).leaveScan c w.serial w.desc st) y
  y.frogPost c w.desc bytes

/-- ABORT_POST (R81): the i-th abort on its way to the frog arrives. -/
def execAbortPost (c : ClusterNo) (i : Nat) : State → Host.Outcome State Fault Refusal :=
  liftS fun y => if y.chip.stFrozen c then y else match y.chip.postAt c i isAbort with
    | none => y
    | some p =>
      let s := { y.chip with posts := y.chip.posts.erase p }
      let y := { y with chip := s }
      match p.kind, (s.frog c).wait with
      | .abort st, some w =>
        if s.postForeign c p ∨ p.scan ≠ sId w.desc ∨ scanChunks w.desc = 1 then y
        else (y.spoilLanes c w.desc).endWait c w st
      | _, _ => y

/-- CARRY_TMO (R81, R83): a carry wait longer than FG_CARRY_TMO, of at least 1,000 ACLK cycles; the
completion word waits for a store that gives no grants. -/
def execCarryTmo (c : ClusterNo) : State → Host.Outcome State Fault Refusal :=
  liftS fun y =>
    let t := (y.chip.reg (fgPg c + 0x5C)).toNat
    match (y.chip.frog c).wait with
    | none => y
    | some w =>
      if y.chip.stFrozen c then y
      else if w.since + max t 1000 < y.chip.ref then
        Sys.endWait (onChip (fun s => s.notice (fgPg c) 2) y) c w .fenced
      else y

end Sys2Proof.Machine
end

