-- ==== Sys2Proof/Machine/RegView.lean ====
section
/-! DEFINITION. What a register reads: the registers that show the rest of the state, and the windows
that select registers open on tables (R500 to R509 and the register tables of the blocks). -/

namespace Sys2Proof.Machine

/-- The number whose bit k is f k, for k below n. -/
def maskOf (n : Nat) (f : Nat → Bool) : Nat :=
  (List.range n).foldl (fun w k => if f k then w + 2 ^ k else w) 0

/-- Word k of a map with a bit for each of n units. -/
def mapWord (n k : Nat) (f : Nat → Bool) : Nat :=
  maskOf 32 fun i => decide (32 * k + i < n) && f (32 * k + i)

/-- Word k of a little-endian byte string (R6). -/
def byteWord (d : List Byte) (k : Nat) : Nat := leNat ((d.drop (4 * k)).take 4)

/-- The low or the high word of a 64-bit value. -/
def half (v : Nat) (high : Bool) : Nat := if high then v / 2 ^ 32 % 2 ^ 32 else v % 2 ^ 32

/-! ## The common header (R321, R500, R501) -/

/-- R321: no bank of a store has a transfer in progress. -/
def Chip.bankIdle (s : Chip) (c : Nat) : Bool :=
  (List.range 32).all fun b => ((KMap.at s.arbs {} (32 * c + b)).holder).isNone

/-- R321: nothing that FREEZE halts is in progress on the page. -/
def Chip.drained (s : Chip) (r : PageRef) : Bool :=
  match r.ty with
  | 0x21 => ((s.eng (r.inst / 2) (r.inst % 2)).descs).isEmpty
  | 0x22 => ((s.frog r.inst).wait).isNone
  | 0x23 => s.bankIdle r.inst
  | 0x30 => ((s.mc r.inst).arbHolder).isNone
  | _ => ((s.lk r.inst).arb.holder).isNone

/-- R382: the block of the page is being reset. -/
def Chip.pageResetting (s : Chip) (r : PageRef) : Bool :=
  match r.ty with
  | 0x20 => s.clResetting r.inst
  | 0x30 => s.mcResetting r.inst
  | 0x40 => (s.lk r.inst).resetting
  | 0x80 => s.partResetting r.inst
  | _ => false

/-- R387: the fenceable unit whose page it is. -/
def unitOfPage (r : PageRef) : Option UnitId :=
  match r.ty with
  | 0x20 => some (.cluster r.inst)
  | 0x21 => some (.copy (r.inst / 2) (r.inst % 2))
  | 0x22 => some (.frog r.inst)
  | _ => none

/-- R387: FSTATE and CAUSE of a unit inside a fenced scope: the scope's. -/
def Chip.scopeState (s : Chip) (r : PageRef) : Nat :=
  match (unitOfPage r).bind fun u => (s.chainOf u).findSome? fun w => s.errs.fences.find? fun f => f.unit == w with
  | some f => (if f.contained then 2 else 1) + 4 * causeCode f.cause
  | none => 0

/-- R387, R396: BLK_STAT [4:0]: the unit's own fence, else that of a scope around it. -/
def Chip.fenceState (s : Chip) (r : PageRef) : Nat :=
  let own := s.fld (r.base + 0xC) 4 0
  if own % 4 = 0 then s.scopeState r else own

/-- R500: BLK_CTRL and BLK_STAT as they read; ENABLE, FREEZE, FSTATE and CAUSE are stored. -/
def Chip.headView (s : Chip) (r : PageRef) : Option Nat :=
  let frozen := s.flag (r.base + 8) 1
  match r.off with
  | 0x008 =>
    let fenced := fenceActs r && s.fenceState r % 4 != 0
    let reset := softResetActs r && s.pageResetting r
    some ((s.reg (r.base + 8)).toNat % 4 + 4 * b01 fenced + 8 * b01 reset)
  | 0x00C =>
    let idle := freezeActs r.ty && frozen && s.drained r
    some ((s.reg (r.base + 0xC)).toNat % 2 ^ 31 / 32 * 32 + s.fenceState r + 2 ^ 31 * b01 idle)
  | 0x024 => if r.ty = 0x80 then some ((s.reg (r.base + 0x24)).toNat / 64 * 64 + r.inst) else none
  | _ => none

/-! ## Chip pages (R458 to R460, R506) -/

/-- R391, R458: the unit word of cluster c: bits of the frog and the copy engines go with their
fences. -/
def Chip.unitWord (s : Chip) (c : Nat) : Nat :=
  let u := KMap.at s.boot.units 0 c
  let off := fun (k : Nat) (x : UnitId) => if s.fenced1 x then u / 2 ^ k % 2 * 2 ^ k else 0
  u - off 0 (.frog c) - off 1 (.copy c 0) - off 2 (.copy c 1)

/-- R458: the floor-plan page. -/
def Chip.floorView (s : Chip) (o : Nat) : Option Nat :=
  let sel := s.fld (floorPg + 0x78) 7 0
  let usel := unitOfKind (s.fld (floorPg + 0xC8) 3 0) (s.fld (floorPg + 0xC8) 23 8)
  let fail := (usel.bind fun u => s.errs.failTick.lookup u).getD 0
  if 0x5C ≤ o ∧ o < 0x78 then some (mapWord 208 ((o - 0x5C) / 4) s.clWorks)
  else if o = 0x7C then
    some (if sel < 208 then s.unitWord sel + 65536 * s.newtCount sel else 0)
  else if 0x80 ≤ o ∧ o < 0x90 then
    some (if sel < 208 then mapWord 128 ((o - 0x80) / 4) (s.newtPresent sel) else 0)
  else if 0x90 ≤ o ∧ o < 0xB0 then
    let k := (o - 0x90) / 4
    some (mapWord 256 k fun n => s.flag (floorPg + o) (n % 32) && !s.fenced1 (.mc n))
  else if 0xB0 ≤ o ∧ o < 0xBC then
    let k := (o - 0xB0) / 4
    some (mapWord 96 k fun l => s.flag (floorPg + o) (l % 32) && !s.fenced1 (.link l))
  else match o with
    | 0xBC =>
      let port := s.flag (floorPg + 0xBC) 8 && !s.fenced1 .eth
      some (s.fld (floorPg + 0xBC) 7 0 + 256 * b01 port)
    | 0xC0 => some (clusterSum s.clPresent + 256 * clusterSum s.clWorks)
    | 0xC4 => some (s.newtSum s.clPresent)
    | 0xCC => some (half fail false)
    | 0xD0 => some (half fail true)
    | _ => none

/-- R459: the stage page. -/
def Chip.stageView (s : Chip) (o : Nat) : Option Nat :=
  let k := s.fld (stagePg + 0x48) 3 0
  if o = 0x44 then some (s.bootUs % 2 ^ 32)
  else if 0x4C ≤ o ∧ o < 0x6C then
    some (if k ≤ 8 then byteWord (reportBytes k (KMap.at s.boot.reports {} k)) ((o - 0x4C) / 4) else 0)
  else none

/-- R453: a log entry as its 64 bytes. -/
def logBytes (e : LogEnt) : List Byte := leBytes 4 e.typ ++ leBytes 4 e.num ++ leBytes 8 e.tick ++ e.dig

/-- R455: a quote is being made. -/
def Chip.quoteBusy (s : Chip) : Bool := s.att.making.isSome

/-- R454, R460: the attestation page and the quote window. -/
def Chip.attView (s : Chip) (o : Nat) : Option Nat :=
  let sel := 32 * s.fld (attPg + 0x144) 5 0 + s.fld (attPg + 0x144) 12 8
  if o = 0x70 then some (b01 s.quoteBusy)
  else if o = 0x74 then some ((s.reg (attPg + 0x74)).toNat / 2 * 2 + b01 s.quoteBusy)
  else if 0xA4 ≤ o ∧ o < 0xE4 then
    match s.att.log[s.fld (attPg + 0xA0) 11 0]? with
    | some e => some (byteWord (logBytes e) ((o - 0xA4) / 4))
    | none => some 0
  else if 0x148 ≤ o ∧ o < 0x178 then
    some (byteWord (KMap.at s.att.models (List.replicate 48 0) sel) ((o - 0x148) / 4))
  else if 0x5000 ≤ o then some (if s.quoteBusy then 0 else byteWord s.att.quote ((o - 0x5000) / 4))
  else none

/-- R506: the chip identity page. -/
def Chip.glbView (s : Chip) (o : Nat) : Option Nat :=
  if 0x48 ≤ o ∧ o < 0x64 then some (mapWord 208 ((o - 0x48) / 4) fun c => s.flag (mboxDb c) 1) else none

/-! ## Memory (R158, R181, R182) -/

/-- R181: the memory-global page. -/
def Chip.memView (s : Chip) (o : Nat) : Option Nat :=
  let up := ((List.range 256).filter fun n => !s.fenced1 (.mc n)).length
  match o with
  | 0x74 => some (half s.rsv false)
  | 0x78 => some (half s.rsv true)
  | 0x7C => some (half s.dirBase false)
  | 0x80 => some (half s.dirBase true)
  | 0x84 => some s.dataBlocks
  | 0xA8 => some (s.dataBlocks / 256 * up)
  | _ => none

/-- R182: a channel controller page. -/
def Chip.mcView (s : Chip) (n o : Nat) : Option Nat :=
  let m := s.mc n
  let port := s.fld (mcPg n + 0x9C) 9 8
  match o with
  | 0x90 => some m.poison.length
  | 0x98 => some (m.poison.filter fun e => e.2).length
  | 0xA0 => some (if port < 3 then (cfgOf m (s.fld (mcPg n + 0x9C) 5 0) port).toNat else 0)
  | _ => none

/-! ## Supervisor pages (R406) -/

/-- R406: the fault queue page. -/
def Chip.fqView (s : Chip) (o : Nat) : Option Nat :=
  if o = 0x40 then
    let n := s.errs.fq.length
    some (n + 2 ^ 31 * b01 (1024 ≤ n))
  else if 0x44 ≤ o ∧ o < 0x64 then
    match s.errs.fq with
    | r :: _ => some (byteWord (faultBytes r) ((o - 0x44) / 4))
    | [] => some 0
  else if o = 0x6C then some s.errs.nextSeq
  else none

/-! ## Cluster pages (R84, R109, R110, R130, R152) -/

/-- R130: the state of an engine: IDLE, RUN, WAIT_TICK, FROZEN once idle. -/
def Chip.engState (s : Chip) (c e : Nat) : Nat :=
  let x := s.eng c e
  if x.waitt.isSome then 2
  else if s.flag (blkCtrl (cpPg c e)) 1 && x.descs.isEmpty then 3
  else if x.descs.isEmpty && x.cur.isNone then 0
  else 1

/-- R130: a copy engine page. -/
def Chip.engView (s : Chip) (c e o : Nat) : Option Nat :=
  let x := s.eng c e
  if o = 0x44 then some (s.engState c e + 16 * (16 - x.queue.length) + 512 * x.inflight) else none

/-- R65, R84: the state of a frog. A descriptor runs within one command, so RUN is not seen between
commands. -/
def Chip.frogState (s : Chip) (c : Nat) : Nat :=
  let f := s.frog c
  if f.trapped then 3
  else if f.wait.isSome then 2
  else if s.flag (blkCtrl (fgPg c)) 1 then 4
  else 0

/-- R84: a frog page. -/
def Chip.frogView (s : Chip) (c o : Nat) : Option Nat :=
  let f := s.frog c
  match o with
  | 0x44 => some (s.frogState c + 16 * (32 - f.taken) + 65536 * b01 f.s0.valid + 131072 * b01 f.s1.valid)
  | 0x64 => match f.armed with
    | some (_, id) => some (id + 256 * (f.table.filter fun e => e.2.isSome).length + 2 ^ 31)
    | none => some 0
  | _ => none

/-- R152: a TLB page. -/
def Chip.tlbView (s : Chip) (c o : Nat) : Option Nat :=
  if o = 0x40 then some (((s.cl c).tlb.filter fun e => e.2.isSome).length + 65536 * s.tlbPinned c) else none

/-- R109: a newt control page. -/
def Chip.nwView (s : Chip) (c o : Nat) : Option Nat :=
  if 0x44 ≤ o ∧ o < 0x54 then
    some (mapWord 128 ((o - 0x44) / 4) fun m => (s.core c m).st == 2 || (s.core c m).st == 3)
  else if o = 0x94 then
    let x := s.core c (s.fld (nwPg c + 0x90) 14 8)
    some (if x.isOpen && !x.absent then (x.get (s.fld (nwPg c + 0x90) 4 0)).toNat else 0)
  else none

/-- R98, R110: a newt record: STATE of the newt. -/
def Chip.recView (s : Chip) (r : PageRef) : Option Nat :=
  let m := 32 * (r.inst % 4) + (r.off - 0x100) / 0x20
  let x := s.core (r.inst / 4) m
  if 0x100 ≤ r.off ∧ r.off < 0x500 ∧ (r.off - 0x100) % 0x20 = 0 then
    some ((s.reg (r.base + r.off)).toNat / 8 * 8 + (if x.absent then 5 else x.st))
  else none

/-! ## Fabric and Ethernet pages (R205, R312, R313, R331, R332, R366) -/

/-- R366: the XHT session page. -/
def Chip.xhView (s : Chip) (o : Nat) : Option Nat :=
  let i := s.fld (xhPg + 0x40) 7 0
  let own := s.chanOwner (s.fld (xhPg + 0x74) 5 0) (s.fld (xhPg + 0x74) 11 8)
  if 0x44 ≤ o ∧ o < 0x64 then some (s.sessW i ((o - 0x44) / 4)).toNat
  else match o with
    | 0x64 => some ((KMap.at s.eth.dataWin {} i).h.getD 0)
    | 0x68 => some (KMap.at s.eth.ev {} i).next
    | 0x6C => some (KMap.at s.eth.au {} i).next
    | 0x70 => some (KMap.at s.eth.au {} i).unacked.length
    | 0x78 => match own with
      | some k => some (k + 2 ^ 31)
      | none => some 0
    | _ => none

/-- R331: the link a shaping page selects, 96 for the Ethernet port; none: beyond the last (R509). -/
def Chip.shpPort (s : Chip) (eth : Bool) : Option Nat :=
  if eth then some 96
  else
    let l := s.fld (shpPg false + 0x40) 14 8
    if l < 96 then some l else none

/-- R324, R326, R331: a shaping page. -/
def Chip.shpView (s : Chip) (eth : Bool) (o : Nat) : Option Nat :=
  let p := s.fld (shpPg eth + 0x40) 5 0
  let w := s.shpWords eth p
  let at1 := fun (f : Nat → Nat) => match s.shpPort eth with
    | some l => some (f l)
    | none => some 0
  match o with
  | 0x44 => some (w.getD 0 0).toNat
  | 0x48 => some (w.getD 1 0).toNat
  | 0x4C => some (w.getD 2 0).toNat
  | 0x50 => at1 fun l => unsigned 32 (tokAt (s.shaper l p) (s.now / 8) / 1000)
  | 0x54 => at1 fun l => (s.shaper l p).count
  | 0x58 => if eth then none else at1 fun l => (s.lk l).varb.toNat
  | 0x5C => if eth then none else at1 fun l => (s.lk l).voids
  | 0x60 => if eth then none else at1 fun l => (s.lk l).preempts
  | _ => none

/-- R332: a gate page. -/
def Chip.gateView (s : Chip) (eth : Bool) (o : Nat) : Option Nat :=
  let g := s.gate (s.gateSel eth)
  let l := s.fld (gatePg eth + 0x64) 6 0
  match o with
  | 0x44 => some (adminEntry g (s.fld (gatePg eth + 0x40) 15 8)).toNat
  | 0x48 => some g.nent
  | 0x4C => some g.cycle
  | 0x50 => some (half g.take false)
  | 0x54 => some (half g.take true)
  | 0x58 => some (b01 g.pend.isSome + 4 * b01 g.disable)
  | 0x5C => some (b01 g.oper.isSome + 2 * b01 g.pend.isSome + 4 * g.cur + 4096 * g.err)
  | 0x68 => if eth then none else some (if l < 96 then KMap.at s.gateLink 0 l else 0)
  | _ => none

/-- R285, R287, R296, R312: the router page. -/
def Chip.rtView (s : Chip) (o : Nat) : Option Nat :=
  let l := s.fld (rtPg + 0x50) 6 0
  match o with
  | 0x4C => some (KMap.at s.coord 0 (s.fld (rtPg + 0x48) 11 0)).toNat
  | 0x54 => some (if l < 96 then (s.linkRole l).1 + 16 * (s.linkRole l).2 else 0)
  | 0x5C => some (KMap.at s.hloc 0 (s.fld (rtPg + 0x58) 13 0)).toNat
  | _ => none

/-- R205: the router-side isolation page. -/
def Chip.risoView (s : Chip) (o : Nat) : Option Nat :=
  let e := s.isoAt (s.fld (risoPg + 0x40) 11 0)
  let l := s.fld (risoPg + 0x58) 6 0
  if 0x44 ≤ o ∧ o < 0x54 then some (isoW e.rt ((o - 0x44) / 4)).toNat
  else match o with
    | 0x54 => some (e.gen % 65536)
    | 0x5C => match KMap.at s.rights.linkHost none l with
      | some h => some (h + 2 ^ 31)
      | none => some 0
    | _ => none

/-- R301, R313: the fabric time page. -/
def Chip.ftView (s : Chip) (o : Nat) : Option Nat :=
  let l := s.fld (ftPg + 0x58) 6 0
  match o with
  | 0x4C => some (half s.now false)
  | 0x50 => some (half s.now true)
  | 0x5C => some (if l < 96 then unsigned 16 (s.lk l).ofs else 0)
  | _ => none

/-! ## Pool management pages (R203, R204, R227, R228, R253) -/

/-- R227: the directory page. -/
def Chip.dirView (s : Chip) (o : Nat) : Option Nat :=
  match o with
  | 0x48 => some (s.dir.ents.filter fun e => e.2.state != 0).length
  | 0x4C => some (s.dir.trk.length + 65536 * (s.dir.trk.filter fun t => t.wide).length)
  | 0x68 => some ((List.range 262144).filter fun d => s.setDisabled d).length
  | _ => none

/-- R228: the publication page. -/
def Chip.pubView (s : Chip) (o : Nat) : Option Nat :=
  let g := s.region (s.fld (pubPg + 0x40) 9 0)
  match o with
  | 0x44 => some (g.base + 2 ^ 28 * b01 g.valid + 2 ^ 29 * g.cur + 2 ^ 30 * g.state)
  | 0x48 => some (g.count + 65536 * g.part + 2 ^ 22 * g.queue.length)
  | 0x4C => some g.shadow
  | 0x50 => some (half g.version false)
  | 0x54 => some (half g.version true)
  | 0x58 => some (half g.flip false)
  | 0x5C => some (half g.flip true)
  | 0x60 => some (s.regions.filter fun g => g.2.valid).length
  | _ => none

/-- R246, R253: the promise page. -/
def Chip.prView (s : Chip) (o : Nat) : Option Nat :=
  let p := s.fld (prPg + 0x64) 5 0
  let q := s.quotaOf p
  let e : SvcEnt := KMap.at s.prom.svc {} (s.fld (prPg + 0x78) 7 0)
  let a : SvcAcc := e.accs.getD (s.fld (prPg + 0x78) 11 8) ⟨0, 0, false, 0, 0, 0⟩
  match o with
  | 0x40 => some (s.opens none).length
  | 0x5C => some s.prom.thr.length
  | 0x68 => some (q.ch + 65536 * q.eg)
  | 0x6C => some q.cl
  | 0x70 => some q.openMax
  | 0x74 => some (s.opens (some p)).length
  | 0x7C => some (e.part + 64 * e.ctx + 2048 * (e.accs.length - 1) + 2 ^ 31 * b01 e.valid)
  | 0x80 => some (e.deadline + 2 ^ 14 * e.occ)
  | 0x84 => some (e.inT + 65536 * e.outT)
  | 0x88 => some e.pre
  | 0x8C => some e.respBytes
  | 0x90 => some (a.keyOff + 1024 * a.shift + 2 ^ 15 * b01 a.w + 65536 * a.nblk)
  | 0x94 => some a.base
  | 0x98 => some a.stride
  | _ => none

/-- R187, R203: extents in some of the states 1 to 5, among the usable ones. -/
def Chip.extsIn (s : Chip) (sts : List Nat) : Nat :=
  (s.rights.exts.filter fun e => decide (e.1 < s.usable) && sts.contains e.2.state).length

/-- R203: the extent page. -/
def Chip.extView (s : Chip) (o : Nat) : Option Nat :=
  let i := s.fld (extPg + 0x40) 12 0
  let e := s.ext i
  let x := s.isoAt (s.fld (extPg + 0x58) 11 0)
  if 0x5C ≤ o ∧ o < 0x6C then some (isoW x.ct ((o - 0x5C) / 4)).toNat
  else match o with
    | 0x44 => some (s.extState i + 8 * e.part + 512 * b01 e.bound + 1024 * e.lease)
    | 0x48 => some e.defect
    | 0x50 => some s.usable
    | 0x54 => some (s.usable - s.extsIn [1, 2, 3, 4, 5] + 65536 * s.extsIn [2, 3, 4])
    | 0x6C => some (x.gen % 65536 + 65536 * b01 x.prev.isSome)
    | _ => none

/-- R204: the lease page. -/
def Chip.lsView (s : Chip) (o : Nat) : Option Nat :=
  let l : Lease := KMap.at s.rights.leases {} (s.fld (lsPg + 0x40) 11 0)
  match o with
  | 0x44 => some (l.host + 65536 * l.state + 2 ^ 24 * l.part)
  | 0x48 => some l.len
  | 0x4C => some l.rint
  | 0x50 => some (half l.x false)
  | 0x54 => some (half l.x true)
  | 0x58 => some (s.rights.leases.filter fun e => e.2.state == 1 || e.2.state == 2).length
  | 0x64 => match s.hostLease (s.fld (lsPg + 0x60) 13 0) with
    | some (i, _) => some (i + 2 ^ 31)
    | none => some 0
  | _ => none

/-! ## Partition pages (R151, R371, R383) -/

/-- R151: word o of the record of context x. -/
def Chip.ctxView (s : Chip) (x o : Nat) : Option Nat :=
  let k := s.ctxAt x
  let cs := s.ctxClusters x
  if 0x10 ≤ o ∧ o < 0x2C then some (mapWord 208 ((o - 0x10) / 4) cs.contains)
  else match o with
    | 0x00 => some (k.state + 256 * cs.length)
    | 0x04 => some (half k.root false / 4096 * 4096)
    | 0x08 => some (half k.root true % 256)
    | 0x0C => some k.l1n
    | 0x2C => some (k.fltKind + 16 * k.fltEng + 32 * k.fltCl)
    | 0x30 => some (half k.fltVa false)
    | 0x34 => some (half k.fltVa true % 65536)
    | 0x38 => some k.fltDesc
    | 0x3C => some (half k.fltTick false)
    | 0x40 => some (half k.fltTick true)
    | 0x48 => some (b01 ((KMap.at s.parts.invs [] (x / 32)).head?.any fun j => j.slots.contains (x % 32)))
    | _ => none

/-- R383: a partition's pages. -/
def Chip.ptView (s : Chip) (p o : Nat) : Option Nat :=
  if 0x1000 ≤ o ∧ o < 0x2000 ∧ o % 16 = 8 then
    some (match s.evPend p ((o - 0x1000) / 16) with | some r => r.count | none => 0)
  else if 0x2000 ≤ o ∧ o < 0x3000 then s.ctxView (32 * p + (o - 0x2000) / 0x80) ((o - 0x2000) % 0x80)
  else none

/-! ## The pages together -/

/-- R407, R431, R495: check-value units, the pair page, and the page of power and sensors. -/
def Chip.otherView (s : Chip) (r : PageRef) : Option Nat :=
  match r.ty, r.off with
  | 0x90, 0x5C =>
    let v := s.cv r.inst
    some (s.fld (cvPg r.inst + 0x5C) 4 0 + 32 * b01 v.run.isSome + 256 * v.queue.length)
  | 0xA0, 0x48 => some ((s.reg (pairPg + 0x48)).toNat % 16 + 256 * s.mirrors.length +
      (s.reg (pairPg + 0x48)).toNat / 4096 * 4096)
  | 0xB2, 0x60 => some (b01 s.boot.low + 2 * b01 (s.flag (pairPg + 0x48) 12) + 4 * b01 s.chain.inAt.isSome +
      512 * b01 (s.flag (pairPg + 0x48) 13) + 1024 * b01 (s.flag (chPg + 0x44) 9))
  | 0xB2, 0x50 =>
    let k := s.fld (pwrPg + 0x4C) 4 0
    some (if 16 ≤ k ∧ k < 24 then s.fld (mcPg (32 * (k - 16)) + 0x40) 15 8 else 0)
  | _, _ => none

/-- The registers of a page that show state held elsewhere. -/
def Chip.view (s : Chip) (r : PageRef) : Option Nat :=
  if hasHeader r then s.headView r
  else match r.ty with
    | 0x01 => s.glbView r.off
    | 0x02 => s.floorView r.off
    | 0x03 => s.stageView r.off
    | 0x04 => s.attView r.off
    | 0x05 => s.memView r.off
    | 0x11 => s.fqView r.off
    | 0x21 => s.engView (r.inst / 2) (r.inst % 2) r.off
    | 0x22 => s.frogView r.inst r.off
    | 0x24 => s.tlbView r.inst r.off
    | 0x25 => s.nwView r.inst r.off
    | 0x26 => s.recView r
    | 0x30 => s.mcView r.inst r.off
    | 0x51 => s.xhView r.off
    | 0x52 => s.shpView true r.off
    | 0x53 => s.gateView true r.off
    | 0x60 => s.rtView r.off
    | 0x61 => s.risoView r.off
    | 0x62 => s.ftView r.off
    | 0x64 => s.shpView false r.off
    | 0x65 => s.gateView false r.off
    | 0x70 => s.dirView r.off
    | 0x71 => s.pubView r.off
    | 0x72 => s.prView r.off
    | 0x73 => s.extView r.off
    | 0x74 => s.lsView r.off
    | 0x80 => s.ptView r.inst r.off
    | _ => s.otherView r

/-- What a register holds, as a read shows it before any latch: 0 where no page is mapped, for WO and
reserved bits, and at a reserved offset (R10, R502). -/
def Chip.peek (s : Chip) (a : Nat) : Word :=
  match pageRef a with
  | none => 0
  | some r =>
    let row := rowOf r
    let live := row.ro ||| row.rw ||| row.w1c ||| row.w1s
    match s.view r with
    | some v => BitVec.ofNat 32 v
    | none => s.reg a &&& BitVec.ofNat 32 live

end Sys2Proof.Machine
end

