-- ==== Sys2Proof/Machine/RegRead.lean ====
section
/-! DEFINITION. Reading a register through a path: latches of 64-bit values, counters a read clears,
triplicated registers (R430, R502 to R504). -/

namespace Sys2Proof.Machine

/-- R504: the number of an access path in the latches. -/
def pathNo : Agent → Nat
  | .triad => 0 | .xht => 1 | .fabric => 2 | .chain => 3 | .newt _ => 4 | .ccc => 5

/-- R504: the row of an address is the low word of a 64-bit value. -/
def isLow (a : Nat) : Bool :=
  match pageRef a with
  | some r => !hasHeader r && (rowOf r).pair
  | none => false

/-- R504: the address is that of the high word of a 64-bit value. -/
def isHigh (a : Nat) : Bool := decide (4 ≤ a) && isLow (a - 4)

/-- R504: the key of a path's latch for the pair whose low word lies at a. -/
def latchKey (a : Nat) (ag : Agent) : Nat := 8 * a + pathNo ag

/-! ## Triplicated registers (R430) -/

/-- R430: the registers kept as three copies behind a voter. -/
def triplicated (a : Nat) : Bool :=
  match pageRef a with
  | none => false
  | some r => match r.ty, r.off with
    | 0xA0, 0x40 | 0xA0, 0x48 | 0xA0, 0x54 | 0xA0, 0x58 => true
    | 0x80, 0x40 | 0x80, 0x44 => true
    | 0x72, 0x68 | 0x72, 0x6C | 0x72, 0x70 => true
    | 0x73, 0x6C | 0x61, 0x5C => true
    | _, _ => false

/-- R430: the copies of a register that differ from what was written to all three. -/
def Chip.badCopies (s : Chip) (a : Nat) : List TmrBad := s.tmr.filter fun b => b.addr == a

/-- R430: the copies of a register are compared: a minority is rewritten and counted; with all three
different the error is UE-CHIP. -/
def Chip.tmrCheck (s : Chip) (a : Nat) : Chip :=
  match s.badCopies a with
  | [] => s
  | [_] => ({ s with tmr := s.tmr.filter fun b => !(b.addr == a) }.bump (supPg + 0x48)).corrected supPg 1 0
  | _ => s.chipError supPg 1 false

/-! ## Reads -/

/-- R495, R494: what the sensors, rails and the reference show: readings the spec gives no value of
(log entry 1), with their mask. -/
def Chip.sensed (s : Chip) (a : Nat) : Option Nat :=
  if a = pwrPg + 0x44 then some 32
  else if a = pwrPg + 0x50 then (if s.fld (pwrPg + 0x4C) 4 0 < 16 then some 8 else none)
  else if a = pwrPg + 0x54 then some 8
  else if a = clkPg + 0x4C then some 32
  else none

/-- R502: a counter is cleared by the read of it. -/
def Chip.clearRead (s : Chip) (a : Nat) : Chip :=
  match pageRef a with
  | none => s
  | some r =>
    let eth : Bool := r.ty == 0x52
    let p := s.fld (shpPg eth + 0x40) 5 0
    if (r.ty == 0x52 || r.ty == 0x64) && r.off == 0x54 then
      match s.shpPort eth with
      | some l => s.setShaper l p { s.shaper l p with count := 0 }
      | none => s
    else if r.ty == 0x64 && (r.off == 0x5C || r.off == 0x60) then
      match s.shpPort false with
      | some l =>
        if r.off = 0x5C then s.setLk l { s.lk l with voids := 0 } else s.setLk l { s.lk l with preempts := 0 }
      | none => s
    else s.setReg a 0

/-- R502: the register at an address is cleared by a read. -/
def clearsOnRead (a : Nat) : Bool :=
  match pageRef a with
  | some r => (rowOf r).rc
  | none => false

/-- R502 to R504: one register is read through a path: the value, and the chip after the read. -/
def Chip.readReg (s : Chip) (ag : Agent) (a : Nat) : Word × Chip :=
  let s := if triplicated a then s.tmrCheck a else s
  match s.sensed a with
  | some w => let (k, s) := s.fresh; (BitVec.ofNat 32 (k % 2 ^ w), s)
  | none =>
    if isHigh a then (KMap.at s.latches 0 (latchKey (a - 4) ag), s)
    else if isLow a then
      (s.peek a, { s with latches := KMap.put s.latches 0 (latchKey a ag) (s.peek (a + 4)) })
    else if clearsOnRead a then (s.peek a, s.clearRead a)
    else (s.peek a, s)

/-- R497: the registers of one message are read in ascending address order. -/
def Chip.readRun (s : Chip) (ag : Agent) (a : Nat) : Nat → List Word × Chip
  | 0 => ([], s)
  | n + 1 =>
    let (w, s) := s.readReg ag a
    let (ws, s) := s.readRun ag (a + 4) n
    (w :: ws, s)

end Sys2Proof.Machine
end

