-- ==== Sys2Proof/Machine/RegWrite.lean ====
section
/-! DEFINITION. Writing a register through a path: who may write what, locks, the effects of a write,
64-bit values (R430, R496 to R506, R509). -/

namespace Sys2Proof.Machine

/-- GLB_RESET (R381, R506): with KEY 0xE1, CHIP orders a chip reset. -/
def execGlbReset (v : Word) : State → Host.Outcome State Fault Refusal :=
  liftC fun s =>
    if Word.bits v 31 24 = 0xE1 ∧ Word.bit v 0 = true then { s with boot.resetDue := true } else s

/-- The effect of a command on everything but the queue. -/
def viaRow (f : State → Host.Outcome State Fault Refusal) (y : Sys) : Sys :=
  match f ⟨[], y⟩ with
  | .next t => t.sys
  | _ => y

/-- The effect of a command that names a unit by a number below n. -/
def viaFin {n : Nat} (k : Nat) (f : Fin n → State → Host.Outcome State Fault Refusal) (y : Sys) : Sys :=
  if h : k < n then viaRow (f ⟨k, h⟩) y else y

/-! ## Who may write what (R90, R500 to R502) -/

/-- R496: the paths the triad carries out. -/
def isDev : Agent → Bool
  | .triad | .xht | .fabric | .chain => true
  | _ => false

/-- R59, R84, R90, R107, R131, R152, R384, R501: a path may write a register at all. -/
def mayWrite (ag : Agent) (r : PageRef) : Bool :=
  match ag with
  | .newt _ => r.ty == 0x22 && r.off == 0x48
  | _ =>
    let dev := isDev ag
    if r.off = 8 then dev
    else match r.ty with
      | 0x21 | 0x23 | 0x24 => !dev
      | 0x22 => !((r.off == 0x54 || r.off == 0x58) && dev)
      | 0x25 =>
        if 0xC0 ≤ r.off ∧ r.off < 0xE0 then dev
        else !(decide (0xE0 ≤ r.off ∧ r.off < 0x100) && dev)
      | 0x26 => true
      | _ => dev

/-- R502: the windows on tables that only commands change. -/
def commandWindow (r : PageRef) : Bool :=
  let o := r.off
  let at1 := fun (a b : Nat) => decide (a ≤ o ∧ o < b)
  match r.ty with
  | 0x51 => at1 0x44 0x64
  | 0x61 => at1 0x44 0x58 || at1 0x5C 0x60
  | 0x71 => at1 0x44 0x60
  | 0x72 => at1 0x7C 0x9C
  | 0x73 => at1 0x44 0x4C || at1 0x5C 0x70
  | 0x74 => at1 0x44 0x58
  | 0x80 => at1 0x2000 0x3000
  | _ => false

/-- R509: the window's select register holds a value beyond the entries it selects. -/
def Chip.beyond (s : Chip) (r : PageRef) : Bool :=
  match r.ty, r.off with
  | 0x30, 0xA0 => s.fld (r.base + 0x9C) 9 8 == 3
  | 0x60, 0x54 => decide (96 ≤ s.fld (rtPg + 0x50) 6 0)
  | 0x64, 0x58 => decide (96 ≤ s.fld (shpPg false + 0x40) 14 8)
  | 0x65, 0x68 => decide (96 ≤ s.fld (gatePg false + 0x64) 6 0)
  | _, _ => false

/-- R181, R182, R227, R502: the bits of a register that MC_CODE.LOCK or DIR_CTRL.LOCK holds fast. -/
def Chip.lockedBits (s : Chip) (r : PageRef) : Word :=
  let mc := s.flag (memPg + 0x40) 31
  match r.ty with
  | 0x05 =>
    if mc = true ∧ r.off = 0x40 then 3
    else if mc = true ∧ 0x44 ≤ r.off ∧ r.off < 0x74 then 0xFFFFFFFF else 0
  | 0x30 =>
    if mc = true ∧ 0x44 ≤ r.off ∧ r.off < 0x50 then 0xFFFFFFFF
    else if mc = true ∧ r.off = 0x54 then 0xFFFF else 0
  | 0x70 => if s.flag (dirPg + 0x40) 0 = true ∧ r.off = 0x44 then 0xFFFF else 0
  | _ => 0

/-- R502: a write that is ignored is counted in GLB_MGMT_IGN. -/
def Chip.ignoredWrite (s : Chip) : Chip := s.bump (glbPg + 0x7C)

/-! ## What a write stores (R502) -/

/-- R502: RW bits take the value written, W1C bits a 1 clears, every other bit stays; bits a lock holds
stay. -/
def storeWord (row : RegRow) (old v locked : Word) : Word :=
  let rw := BitVec.ofNat 32 row.rw &&& ~~~locked
  let clear := BitVec.ofNat 32 row.w1c &&& v
  (old &&& ~~~(rw ||| clear)) ||| (v &&& rw)

/-- R502: the write of a register in the register file. -/
def Chip.storeReg (s : Chip) (r : PageRef) (v : Word) : Chip :=
  let a := r.base + r.off
  let locked := s.lockedBits r
  let s := if locked = 0 then s else s.ignoredWrite
  s.setReg a (storeWord (rowOf r) (s.reg a) v locked)

/-- R398, R430: an injection armed on the triad page strikes a triplicated register as it is written:
one copy, or two at different bits. -/
def Chip.strikeCopies (s : Chip) (a : Nat) : Chip :=
  if triplicated a = false then s
  else
    let s := { s with tmr := s.tmr.filter fun b => !(b.addr == a) }
    let (k, s) := s.strike supPg
    let bad := fun i : Nat => TmrBad.mk a i (s.peek a ^^^ BitVec.ofNat 32 (2 ^ i))
    { s with tmr := s.tmr ++ (List.range k).map bad }

/-! ## The common header (R397, R398, R500, R501) -/

/-- R501: the units that BLK_CTRL.FENCE of a page fences; of newts those present. -/
def Chip.fenceUnits (s : Chip) (r : PageRef) : List UnitId :=
  match r.ty with
  | 0x20 => [.cluster r.inst]
  | 0x21 => [.copy (r.inst / 2) (r.inst % 2)]
  | 0x22 => [.frog r.inst]
  | 0x25 => ((List.range 128).filter fun m => !(s.core r.inst m).absent).map (.newt r.inst)
  | 0x26 =>
    let c := r.inst / 4
    ((List.range 32).map fun k => 32 * (r.inst % 4) + k).filterMap fun m =>
      if (s.core c m).absent then none else some (.newt c m)
  | 0x30 => [.mc r.inst]
  | 0x40 => [.link r.inst]
  | 0x50 => [.eth]
  | 0x80 => if r.inst = 0 then [] else [.part r.inst]
  | 0x90 => [.cv r.inst]
  | _ => []

/-- R501: BLK_CTRL.SOFT_RESET of a page. -/
def Sys.softReset (y : Sys) (r : PageRef) : Sys :=
  match r.ty with
  | 0x20 => viaFin r.inst execClusterReset y
  | 0x30 => viaFin r.inst execChannelControllerReset y
  | 0x40 => viaFin r.inst execLinkReset y
  | 0x50 => viaRow (execPortDown 0) y
  | 0x80 => if r.inst = 0 then y else viaFin r.inst execPartitionReset y
  | 0x90 => viaFin r.inst execCvReset y
  | _ => y

/-- R398: a write of ERR_INJECT. -/
def Sys.errInject (y : Sys) (r : PageRef) (v : Word) : Sys :=
  if Word.bits v 31 24 ≠ 0x5A then y
  else match Word.bits v 7 5 with
    | 1 => viaFin (Word.bits v 4 0) (execErrInjectReport r.base) y
    | 2 => viaFin (Word.bits v 4 0) (execErrInjectFlipOne r.base) y
    | 3 => viaFin (Word.bits v 4 0) (execErrInjectFlipTwo r.base) y
    | _ => y

/-- R397, R500, R501: a write of a register of the common header. -/
def Sys.headWrite (y : Sys) (r : PageRef) (v : Word) : Sys :=
  match r.off with
  | 0x008 =>
    let y := (onChip (fun s => s.storeReg r v) y).thaw r
    let y := if Word.bit v 2 then onChip (fun s => forEach (s.fenceUnits r) (fun u s => s.orderFence u) s) y else y
    if Word.bit v 3 then y.softReset r else y
  | 0x010 =>
    onChip (fun s =>
      let s := s.storeReg r v
      if s.reg (errStat r.base) = 0 then s.setFlag (r.base + 0x18) 31 false else s) y
  | 0x01C => y.errInject r v
  | _ => onChip (fun s => s.storeReg r v) y

/-! ## Registers whose write has an effect of its own -/

/-- R169, R182: MC_REG_CFG of the selected bucket: its level is kept, capped at the new BURST. -/
def Chip.setBucketCfg (s : Chip) (n : Nat) (v : Word) : Chip :=
  let part := s.fld (mcPg n + 0x9C) 5 0
  let port := s.fld (mcPg n + 0x9C) 9 8
  let m := s.mc n
  let j := s.slotAt s.now
  let level := min (bucketLevel m part port j) (1024 * burstOf v)
  s.setMc n { m with
    regCfg := KMap.put m.regCfg 0x200400 (part + 64 * port) (v &&& 0xff07ff)
    buckets := KMap.put m.buckets none (part + 64 * port)
      (if level = 1024 * burstOf v then none else some ⟨level, j⟩) }

/-- R407, R421, R424, R426, R428: a write of PAIR_CMD. Whether the peer reports the same configuration
and units is known to the peer alone: free values (log entry 1). -/
def Sys.pairCmd (y : Sys) (v : Word) : Sys :=
  match Word.bits v 3 0 with
  | 1 =>
    let (k, s) := y.chip.fresh
    viaRow (execPairCmdResync (k % 2 == 0) (k / 2 % 2 == 0)) { y with chip := s }
  | 2 => viaRow execPairCmdSwitch y
  | 3 => viaRow (execPairCmdForce (Word.bits v 31 24)) y
  | _ => y

/-- R409, R419: PAIR_CFG: pair mode turned on from SINGLE starts in OUT, turned off in SINGLE. -/
def Chip.pairCfg (s : Chip) (r : PageRef) (v : Word) : Chip :=
  let was := s.paired
  let s := s.storeReg r v
  if was = false ∧ s.paired = true then s.goOut
  else if was = true ∧ s.paired = false then (Chip.setRole { s with duo := {} } 0).setLag false
  else s

/-- R99, R110: NW_CTL of a newt. -/
def Sys.nwCtl (y : Sys) (r : PageRef) (v : Word) : Sys :=
  let c := r.inst / 4
  let m := 32 * (r.inst % 4) + (r.off - 0x100) / 0x20
  let go := fun (f : ClusterNo → NewtNo → State → Host.Outcome State Fault Refusal) =>
    viaFin c (fun c => fun t => if h : m < 128 then f c ⟨m, h⟩ t else .next t) y
  match Word.bits v 1 0 with
  | 1 => go execHalt
  | 2 => go execResume
  | 3 => go execNewtReset
  | _ => y

/-- R107: NW_MBOX_DB: the triad sets IN and clears OUT, the cluster control core clears IN and sets
OUT. -/
def Sys.mboxWrite (y : Sys) (ag : Agent) (c : Nat) (v : Word) : Sys :=
  let dev := isDev ag
  let y := if Word.bit v 0 then
      (if dev then viaFin c execMboxInSet y else viaFin c execMboxInClear y) else y
  if Word.bit v 1 then
    (if dev then viaFin c execMboxOutClear y else viaFin c execMboxOutSet y) else y

/-- R330, R332: GATE_CTRL: DISABLE is stored, ABORT acts before COMMIT. -/
def Sys.gateCtrl (y : Sys) (eth : Bool) (v : Word) : Sys :=
  let y := onChip (fun s => s.setGate (s.gateSel eth) { s.gate (s.gateSel eth) with disable := Word.bit v 2 }) y
  let y := if Word.bit v 1 then viaRow (execGateAbort eth) y else y
  if Word.bit v 0 then viaRow (execGateCommit eth) y else y

/-- R330: an administrative register of the selected list, fixed while a commit is pending. -/
def Chip.adminWrite (s : Chip) (eth : Bool) (f : Gate → Gate) : Chip :=
  let i := s.gateSel eth
  if (s.gate i).pend.isSome then s else s.setGate i (f (s.gate i))

/-- R326, R331: SHP_RATE or SHP_BURST is staged. -/
def Chip.stageShp (s : Chip) (eth : Bool) (k : Nat) (v : Word) : Chip :=
  let p := s.fld (shpPg eth + 0x40) 5 0
  s.setShpWords eth p ((s.shpWords eth p).set k v)

/-- R320, R331: RT_VARB of the selected link; 0 or 1 leaves N unchanged. -/
def Chip.setVarb (s : Chip) (v : Word) : Chip :=
  match s.shpPort false with
  | none => s
  | some l =>
    let old := (s.lk l).varb
    let n := if Word.bits v 23 16 < 2 then Word.bits old 23 16 else Word.bits v 23 16
    s.setLk l { s.lk l with varb := Word.setBits (v &&& 0x7777) 23 16 n }

/-- R241, R253: the quotas of the partition selected. -/
def Chip.setQuota (s : Chip) (f : Quota → Quota) : Chip :=
  let p := s.fld (prPg + 0x64) 5 0
  { s with prom.quota := KMap.put s.prom.quota {} p (f (s.quotaOf p)) }

/-- R131, R182: ARB_N: writes of 0 or 1 are ignored. -/
def Chip.setArbN (s : Chip) (r : PageRef) (v : Word) : Chip :=
  if Word.bits v 7 0 < 2 then s else s.storeReg r v

/-- R371, R373: word 0 of a vector; clearing ENABLE seals its pending record. -/
def Sys.vecWrite (y : Sys) (r : PageRef) (v : Word) : Sys :=
  let y := if Word.bit v 0 then y
    else viaFin r.inst (fun p => execPtVecDisable p ((r.off - 0x1000) / 16)) y
  onChip (fun s => s.storeReg r v) y

/-- Pages of the chip, its memory, the supervisor and the clusters. None: the register is stored. -/
def Sys.nearEffect (y : Sys) (ag : Agent) (r : PageRef) (v : Word) : Option Sys :=
  let c := r.inst
  let store := fun (s : Chip) => s.storeReg r v
  match r.ty, r.off with
  | 0x01, 0x44 => some (viaRow (execGlbReset v) y)
  | 0x04, 0x70 => some (if Word.bit v 0 then viaRow execQuote y else y)
  | 0x04, o => if 0x40 ≤ o ∧ o < 0x70 ∧ y.chip.quoteBusy = true then some y else none
  | 0x05, 0x40 => some (onChip (fun s => if Word.bit v 31 then (store s).setFlag (memPg + 0x40) 31 true else store s) y)
  | 0x11, 0x64 => some (if Word.bit v 0 then viaRow execSupFqPop y else y)
  | 0x11, 0x70 => some (viaRow (execSupUnfence v) y)
  | 0x21, 0x40 => some (viaFin (c / 2) (fun c => viaEng r.inst (fun e => execCpPost c e ag v)) y)
  | 0x21, 0x58 => some (viaFin (c / 2) (fun c => viaEng r.inst (fun e => execCpKick c e ag v)) y)
  | 0x22, 0x48 => some (viaFin c (fun c => execFgPost c ag v) y)
  | 0x22, 0x50 => some (match Word.bits v 1 0 with
    | 1 => viaFin c execFgTrapActResume y
    | 2 => viaFin c execFgTrapActFlush y
    | _ => y)
  | 0x23, 0x48 | 0x30, 0xA8 => some (onChip (fun s => s.setArbN r v) y)
  | 0x25, 0x74 => some (viaFin c (fun c => execNwStart c v) y)
  | 0x25, 0x78 => some (viaFin c (fun c => execNwKick c v) y)
  | 0x25, 0x8C => some (viaFin c (fun c => execBroadcast c v) y)
  | 0x25, 0x94 => some (viaFin c (fun c => execNwXdataWrite c v) y)
  | 0x25, 0x98 => some (if Word.bit v 0 then viaFin c execFrogDoneAck y else y)
  | 0x25, 0x100 => some (y.mboxWrite ag c v)
  | 0x26, o => if 0x100 ≤ o ∧ o < 0x500 ∧ (o - 0x100) % 0x20 = 0x10 then some (y.nwCtl r v) else none
  | 0x30, 0xA0 => some (onChip (fun s => s.setBucketCfg c v) y)
  | _, _ => none
where
  viaEng (k : Nat) (f : EngNo → State → Host.Outcome State Fault Refusal) (t : State) :
      Host.Outcome State Fault Refusal :=
    if h : k % 2 < 2 then f ⟨k % 2, h⟩ t else .next t

/-- Pages of the links, the Ethernet port and the fabric. None: the register is stored. -/
def Sys.farEffect (y : Sys) (r : PageRef) (v : Word) : Option Sys :=
  let store := fun (s : Chip) => s.storeReg r v
  match r.ty, r.off with
  | 0x40, 0x40 => some (
      let y := onChip store y
      if Word.bit v 0 then viaFin r.inst execRetrain y else y)
  | 0x50, 0x40 => some (viaRow (execPortDown 0) (onChip store y))
  | 0x52, 0x44 => some (viaRow (execShpCfg true v) y)
  | 0x64, 0x44 => some (viaRow (execShpCfg false v) y)
  | 0x52, 0x48 => some (onChip (fun s => s.stageShp true 1 v) y)
  | 0x64, 0x48 => some (onChip (fun s => s.stageShp false 1 v) y)
  | 0x52, 0x4C => some (onChip (fun s => s.stageShp true 2 v) y)
  | 0x64, 0x4C => some (onChip (fun s => s.stageShp false 2 v) y)
  | 0x64, 0x58 => some (onChip (fun s => s.setVarb v) y)
  | 0x60, 0x54 => some (viaRow (execRtRole v) y)
  | 0x60, 0x4C => some (onChip (fun s =>
      { s with coord := KMap.put s.coord 0 (s.fld (rtPg + 0x48) 11 0) (v &&& 0x80000fff) }) y)
  | 0x60, 0x5C => some (onChip (fun s =>
      { s with hloc := KMap.put s.hloc 0 (s.fld (rtPg + 0x58) 13 0) (v &&& 0x8007ffff) }) y)
  | 0x62, 0x40 => some (onChip (fun s => s.setMaster (Word.bit v 0)) y)
  | 0x62, 0x44 => some (onChip (fun s => (store s).ftEval) y)
  | 0x65, 0x68 => some (onChip (fun s =>
      let l := s.fld (gatePg false + 0x64) 6 0
      { s with gateLink := KMap.put s.gateLink 0 l (Word.bits v 2 0) }) y)
  | t, o =>
    let eth : Bool := t == 0x53
    if t ≠ 0x53 ∧ t ≠ 0x65 then none
    else match o with
      | 0x44 => some (onChip (fun s => s.adminWrite eth fun g =>
          { g with admin := KMap.put g.admin 0xFF (s.fld (gatePg eth + 0x40) 15 8) v }) y)
      | 0x48 => some (onChip (fun s => s.adminWrite eth fun g => { g with nent := Word.bits v 8 0 }) y)
      | 0x4C => some (onChip (fun s => s.adminWrite eth fun g => { g with cycle := v.toNat }) y)
      | 0x58 => some (y.gateCtrl eth v)
      | _ => none

/-- Pages of the pool's management, partitions, check values, the pair and the chain. None: the
register is stored. -/
def Sys.poolEffect (y : Sys) (r : PageRef) (v : Word) : Option Sys :=
  let store := fun (s : Chip) => s.storeReg r v
  match r.ty, r.off with
  | 0x70, 0x40 => some (if Word.bit v 0 then onChip (fun s => s.setFlag (dirPg + 0x40) 0 true) y else y)
  | 0x70, 0x70 => some (viaRow (execDirSel v) y)
  | 0x72, 0x68 => some (onChip (fun s => s.setQuota fun q =>
      { q with ch := Word.bits v 10 0, eg := Word.bits v 26 16 }) y)
  | 0x72, 0x6C => some (onChip (fun s => s.setQuota fun q => { q with cl := Word.bits v 10 0 }) y)
  | 0x72, 0x70 => some (onChip (fun s => s.setQuota fun q => { q with openMax := Word.bits v 16 0 }) y)
  | 0x80, o => if 0x1000 ≤ o ∧ o < 0x2000 ∧ o % 16 = 0 then some (y.vecWrite r v) else none
  | 0x90, 0x58 => some (if Word.bit v 0 then viaFin r.inst execCvPost y else y)
  | 0xA0, 0x40 => some (onChip (fun s => s.pairCfg r v) y)
  | 0xA0, 0x4C => some (y.pairCmd v)
  | 0xA0, 0x50 => some (if Word.bit v 0 then viaRow execPairRearm y else y)
  | 0xB0, 0x4C => some (onChip (fun s => s.setReg (chPg + 0x4C) (v &&& 0x1f ||| 1)) y)
  | 0xB0, 0x50 => some (if Word.bit v 0 then viaRow execChRearm y else y)
  | _, _ => none

/-- A write that a path may make and that is not ignored. -/
def Sys.regEffect (y : Sys) (ag : Agent) (r : PageRef) (v : Word) : Sys :=
  if hasHeader r then y.headWrite r v
  else match (y.nearEffect ag r v).orElse fun _ => (y.farEffect r v).orElse fun _ => y.poolEffect r v with
    | some y => y
    | none => onChip (fun s => s.storeReg r v) y

/-! ## 64-bit values (R504) -/

/-- R504: the two words of a pair are stored together: low at a page offset, then high. -/
def Sys.pairEffect (y : Sys) (r : PageRef) (lo hi : Word) : Sys :=
  let a := r.base + r.off
  match r.ty, r.off with
  | 0x24, 0x50 =>
    viaFin r.inst (fun c => execTlbPreload c hi) (onChip (fun s => s.setReg a (lo &&& 0xffe00000)) y)
  | 0x53, 0x50 | 0x65, 0x50 =>
    onChip (fun s => s.adminWrite (r.ty == 0x53) fun g => { g with take := lo.toNat + 2 ^ 32 * hi.toNat }) y
  | _, _ => onChip (fun s => (s.storeReg r lo).storeReg { r with off := r.off + 4 } hi) y

/-- R504: the low word a write of the high word stores: the one held, else the one in force. -/
def Chip.lowFor (s : Chip) (ag : Agent) (a : Nat) : Word :=
  (KMap.at s.holds none (latchKey a ag)).getD (s.peek a)

/-- R504: the row has bits a path can write. -/
def writable (a : Nat) : Bool :=
  match pageRef a with
  | some r => (rowOf r).rw != 0
  | none => false

/-! ## The write of one register -/

/-- R496, R502, R504, R509: one register is written through a path. -/
def Sys.regWrite (y : Sys) (ag : Agent) (a : Nat) (v : Word) : Sys :=
  match pageRef a with
  | none => y
  | some r =>
    if mayWrite ag r = false ∨ commandWindow r = true ∨ y.chip.beyond r = true then
      onChip Chip.ignoredWrite y
    else if isHigh a then
      if writable (a - 4) then
        let lo := y.chip.lowFor ag (a - 4)
        let y := onChip (fun s => { s with holds := KMap.put s.holds none (latchKey (a - 4) ag) none }) y
        y.pairEffect { r with off := r.off - 4 } lo v
      else y
    else if isLow a then
      if writable a then
        onChip (fun s => { s with holds := KMap.put s.holds none (latchKey a ag) (some v) }) y
      else y
    else onChip (fun s => s.strikeCopies a) (y.regEffect ag r v)

/-- R497: the registers of one message are written in ascending address order. -/
def Sys.writeRun (y : Sys) (ag : Agent) (a : Nat) : List Word → Sys
  | [] => y
  | v :: l => (y.regWrite ag a v).writeRun ag (a + 4) l

/-- REGISTER_WRITE (R90, R496, R502). An access of the triad to an address that is no multiple of 4, or
on no mapped page, has no effect the spec names: it stops. -/
def execRegisterWrite (ag : Agent) (addr : Nat) (v : Word) (s : State) :
    Host.Outcome State Fault Refusal :=
  if addr % 4 ≠ 0 ∨ (pageRef addr).isNone then .fault .noSuchRegister
  else liftS (fun y => y.regWrite ag addr v) s

end Sys2Proof.Machine
end

