-- ==== Sys2Proof/Machine/ChainBase.lean ====
section
/-! DEFINITION. Chain frames at a unit: which are well formed, which it acts on, how it forwards and
answers (R462 to R466, R469). -/

namespace Sys2Proof.Machine

/-- R462: the chain port forwards frames: the chip is powered, and RESET_N is not low. -/
def Chip.chainUp (s : Chip) : Bool := (s.boot.on || s.boot.tripped) && !s.boot.low

/-- R465: a frame a target acts on: no CRC error, not aborted, LEN as its length, no reserved TYPE. -/
def chainGood (f : ChainFrame) : Bool :=
  !f.aborted && f.crc == chainCrc f && f.len == f.payload.length && decide (f.len ≤ 272) &&
  f.typHi == 0 && decide (1 ≤ f.typ ∧ f.typ ≤ 8)

/-- R467: the unit has an address. -/
def Chip.chainValid (s : Chip) : Bool := s.flag (chPg + 0x40) 31

/-- R467: the unit's position. -/
def Chip.chainPos (s : Chip) : Nat := s.fld (chPg + 0x40) 5 0

/-- R469: the frame names this unit. -/
def Chip.chainTarget (s : Chip) (f : ChainFrame) : Bool := s.chainValid && (f.bcast || f.dst == s.chainPos)

/-- R464: a frame with another payload, its CRC recomputed. -/
def chainEdit (f : ChainFrame) (p : List Byte) : ChainFrame :=
  let f := { f with payload := p }
  { f with crc := chainCrc f }

/-- R465: a frame its target does not act on is counted. -/
def Chip.chainBad (s : Chip) : Chip := (s.bump (chPg + 0x54)).notice chPg 0

/-- R465: the payload of a RESP. -/
def respPay (st : Status) (typ : Nat) (d : List Byte) : List Byte :=
  leBytes 1 (stCode st) ++ leBytes 1 typ ++ [0, 0] ++ d

/-- R466: a request is carried out; one to this unit alone is answered with one RESP, which the unit
keeps, a broadcast is not answered. -/
def Sys.chainDo (y : Sys) (f : ChainFrame) (act : Sys → (Status × List Byte) × Sys) : Sys :=
  let ((st, d), y) := act y
  if f.bcast then y
  else
    let (r, s) := y.chip.chainSend 3 (some f.seq) (respPay st f.typ d)
    { y with chip := { s with chain.kept := some (f.seq, r) } }

/-- R466: a request that names this unit; a repeated one is answered with the kept RESP. -/
def Sys.chainAct (y : Sys) (f : ChainFrame) (act : Sys → (Status × List Byte) × Sys) : Sys :=
  match y.chip.chain.kept with
  | some (n, r) =>
    if n = f.seq ∧ f.bcast = false then onChip (fun s => s.emit (.chain r)) y else y.chainDo f act
  | none => y.chainDo f act

/-- R471, R473: a CTL or FLASH request with an OP the tables do not name. -/
def unknownOp (f : ChainFrame) : Bool :=
  (f.typ == 4 && !([1, 2, 3, 4].contains (payNat f.payload 0 1))) ||
  (f.typ == 5 && !([1, 2, 3].contains (payNat f.payload 0 1)))

/-- R463, R465, R471: a frame the unit passes on: one it does not act on, a bad one counted by its
target, a request with an unknown OP answered NO_ACCESS. -/
def Sys.chainPass (y : Sys) (f : ChainFrame) : Sys :=
  if y.chip.chainUp = false then y
  else
    let y := onChip (fun s => s.emit (.chain f)) y
    if y.chip.chainTarget f = false then y
    else if chainGood f = false then onChip Chip.chainBad y
    else if unknownOp f then y.chainAct f fun y => ((.noAccess, []), y)
    else y

/-- R463, R466: a request of a kind: forwarded, and carried out when it names this unit. -/
def Sys.chainReq (y : Sys) (f : ChainFrame) (kind : Bool) (act : Sys → (Status × List Byte) × Sys) : Sys :=
  if y.chip.chainUp && y.chip.chainTarget f && chainGood f && kind then
    (onChip (fun s => s.emit (.chain f)) y).chainAct f act
  else y.chainPass f

end Sys2Proof.Machine
end

