-- ==== Sys2Proof/Machine/Mgmt.lean ====
section
/-! DEFINITION. MGMT messages of the three paths, and the voter of the supervisor triad (R360, R429,
R430, R466, R496 to R498, R505). -/

namespace Sys2Proof.Machine

/-! ## Messages (R497, R498) -/

/-- R498: the whole run of a message lies in mapped pages. -/
def runOk (a n : Nat) : Bool :=
  decide (1 ≤ n ∧ n ≤ 64) && a % 4 == 0 && decide (a + 4 * n ≤ 2 ^ 25) &&
  (List.range n).all fun k => (pageRef (a + 4 * k)).isSome

/-- R506: a message answered NO_ACCESS. -/
def Chip.mgmtRefused (s : Chip) : Chip := (s.bump (glbPg + 0x78)).notice glbPg 0

/-- R506: a message carried out. -/
def Chip.mgmtDone (s : Chip) : Chip := s.bump (glbPg + 0x74)

/-- Words as bytes (R6). -/
def wordBytes (ws : List Word) : List Byte := ws.flatMap fun w => leBytes 4 w.toNat

/-- R360: the payload of a message is that of a read or write of these registers. -/
def payloadIs (p : List Byte) (op a n : Nat) (d : List Word) : Bool :=
  payNat p 0 1 % 4 == op && payNat p 1 1 == n && payNat p 4 4 % 2 ^ 25 == a && p.drop 8 == wordBytes d

/-- R360, R412, R413: a write of replicated registers is an input of the pair. -/
def replicatedRun (a n : Nat) : Bool := decide (0x1000000 ≤ a ∧ a + 4 * n ≤ 0x1100000)

/-- R413, R415: a message is carried out; a write of replicated registers on a standby when its token's
turn has come. -/
def Sys.mgmtTurn (y : Sys) (input : Bool) (id : Nat) (f : Sys → Sys) : Sys :=
  if input then y.turnOf id f else f y

/-! ## XHT (R347, R360) -/

/-- R360, R422: the answer of a message; but for a write of replicated registers it is chip-local. -/
def Chip.mgmtReply (s : Chip) (q : CmdReq) (input : Bool) (d : List Byte) : Chip :=
  let s := s.record q.session q.chan q.seq true .ok 0
  if input then s.xhtSend q.session (respHdr q .ok 0) d
  else
    let h := { respHdr q .ok 0 with session := q.session, len := d.length }
    (s.forgetId q).ethOut (s.sessPart q.session) (s.frameLen q.session d.length)
      (.xht (s.sessRec q.session) ⟨h, d⟩) none

/-- XHT MGMT (R347, R360, R498): accepted on the data channel of a partition-0 session. -/
def Sys.xhtMgmt (y : Sys) (q : CmdReq) (input : Bool) (ok : Bool) (act : Sys → List Byte × Sys) : Sys :=
  y.mgmtTurn input (xhtId q.session q.chan q.seq) fun y =>
    let y := onChip (fun s => s.leaveIngress q) y
    let s := y.chip
    if s.sessValid q.session = false then y
    else match s.recorded q 2 with
      | some s => { y with chip := s }
      | none =>
        if s.sessPart q.session ≠ 0 ∨ q.chan ≠ 16 ∨ ok = false then
          { y with chip := s.mgmtRefused.cmdTurnAway q .noAccess }
        else
          let (d, y) := act y
          onChip (fun s => s.mgmtDone.mgmtReply q input d) y

/-! ## Fabric (R184, R505, R512) -/

/-- R286, R299: the port a packet came from, where it is a link of this chip. -/
def Chip.portOf (s : Chip) (h : PktHdr) : Nat := if h.srcChip = s.selfChip then h.srcPort else 127

/-- R422, R505: the RESP of a fabric message; but for a write of replicated registers it is
chip-local. -/
def Chip.fabricReply (s : Chip) (h : PktHdr) (input : Bool) (d : List Byte) : Chip :=
  let p : Packet := ⟨{ s.respHd h .ok with len := d.length }, d⟩
  if input then s.emit (.packet p)
  else { s with own := s.own ++ [OwnPkt.mk p false none none true], out := s.out ++ [Out.packet p] }

/-- Fabric MGMT (R184, R505, R512). -/
def Sys.fabricMgmt (y : Sys) (pkt : Packet) (input : Bool) (len : Nat) (ok : Bool) (act : Sys → List Byte × Sys) : Sys :=
  let h := pkt.hdr
  y.mgmtTurn input (flesonId h.srcHost h.tag 0xD) fun y =>
    let s := y.chip
    if s.addressed = false then y
    else if s.spoofed (s.portOf h) h.srcHost then { y with chip := (s.spoofCount.mgmtRefused).respond h .noAccess }
    else if h.cls ≠ 4 ∨ s.mgmtAuth h.srcHost = false ∨ h.len ≠ len ∨ pkt.payload.length ≠ len ∨ ok = false then
      { y with chip := s.mgmtRefused.respond h .noAccess }
    else
      let (d, y) := act y
      onChip (fun s => s.mgmtDone.fabricReply h input d) y

/-! ## Chain (R466) -/

/-- Chain MGMT (R466): answered RESET until the supervisor firmware runs. -/
def Sys.chainMgmt (y : Sys) (f : ChainFrame) (ok : Bool) (act : Sys → List Byte × Sys) : Sys :=
  y.chainReq f (f.typ == 2) fun y =>
    if y.chip.boot.manifest = [] then ((.reset, []), y)
    else if ok = false then ((.noAccess, []), onChip Chip.mgmtRefused y)
    else
      let (d, y) := act y
      ((.ok, d), onChip Chip.mgmtDone y)

/-! ## The commands -/

/-- MGMT_READ (R360, R466, R496 to R498, R505). -/
def execMgmtRead (src : MgmtSrc) (addr count : Nat) : State → Host.Outcome State Fault Refusal :=
  liftS fun y =>
    let act := fun (ag : Agent) (y : Sys) =>
      let (ws, s) := y.chip.readRun ag addr count
      (wordBytes ws, { y with chip := s })
    let ok := runOk addr count
    let same := fun (p : List Byte) => ok && payloadIs p 1 addr count []
    match src with
    | .xht q => y.xhtMgmt q false ok (act .xht)
    | .fabric p => y.fabricMgmt p false 8 (same p.payload) (act .fabric)
    | .chain f => y.chainMgmt f (same f.payload) (act .chain)

/-- MGMT_WRITE (R360, R412, R413, R466, R496 to R498, R505). -/
def execMgmtWrite (src : MgmtSrc) (addr : Nat) (data : List Word) :
    State → Host.Outcome State Fault Refusal :=
  liftS fun y =>
    let act := fun (ag : Agent) (y : Sys) => (([] : List Byte), y.writeRun ag addr data)
    let n := data.length
    let ok := runOk addr n
    let input := replicatedRun addr n
    let same := fun (p : List Byte) => ok && payloadIs p 2 addr n data
    match src with
    | .xht q => y.xhtMgmt q input ok (act .xht)
    | .fabric p => y.fabricMgmt p input (8 + 4 * n) (same p.payload) (act .fabric)
    | .chain f => y.chainMgmt f (same f.payload) (act .chain)

/-! ## The voter (R429) -/

/-- R429: the core that is being resynchronised, 1 to 3; 0 none. -/
def Chip.coreOut (s : Chip) : Nat := s.fld (supPg + 0x40) 1 0

/-- R429: a core is reset and resynchronised from the other two, which run in duplex. -/
def Chip.dropCore (s : Chip) (k : Nat) : Chip := s.setReg (supPg + 0x40) (BitVec.ofNat 32 (k + 4))

/-- R429: a core is outvoted. -/
def Chip.outvote (s : Chip) (k : Nat) : Chip := ((s.dropCore k).bump (supPg + 0x44)).corrected supPg 0 0

/-- R429: what the voter finds: the write issued, and the core outvoted or late. -/
inductive Ballot where
  | wait
  | issue (w : CoreWrite) (outvoted : Option Nat) (late : Option Nat)
  | none
deriving DecidableEq, Repr

/-- R429: the votes of the running cores, as core and write. -/
def ballot (l : List (Nat × Option CoreWrite)) : Ballot :=
  match l with
  | [(i, a), (j, b), (k, c)] =>
    match a, b, c with
    | some x, some y, some z =>
      if x = y then .issue x (if z = x then Option.none else some k) Option.none
      else if x = z then .issue x (some j) Option.none
      else if y = z then .issue y (some i) Option.none
      else .none
    | some x, some y, Option.none => if x = y then .issue x Option.none (some k) else .none
    | some x, Option.none, some z => if x = z then .issue x Option.none (some j) else .none
    | Option.none, some y, some z => if y = z then .issue y Option.none (some i) else .none
    | _, _, _ => .wait
  | [(_, some x), (_, some y)] => if x = y then .issue x Option.none Option.none else .none
  | _ => .wait

/-- VOTE (R429, R386): the majority of the register writes of the running cores is issued. -/
def execVote (a b c : Option CoreWrite) : State → Host.Outcome State Fault Refusal :=
  liftS fun y =>
    let run := [(1, a), (2, b), (3, c)].filter fun e => e.1 != y.chip.coreOut
    match ballot run with
    | .wait => y
    | .none => onChip (fun s => s.chipError supPg 0 false) y
    | .issue w lost late =>
      let y := match lost, late with
        | some k, _ => onChip (fun s => s.outvote k) y
        | Option.none, some k => onChip (fun s => s.dropCore k) y
        | _, _ => y
      y.regWrite .triad w.addr w.data

/-- CORE_REJOIN (R429): the resynchronised core rejoins at a voter checkpoint. -/
def execCoreRejoin : State → Host.Outcome State Fault Refusal :=
  liftC fun s => s.setReg (supPg + 0x40) 0

/-- TMR_SWEEP (R430): every triplicated register is compared. -/
def execTmrSweep : State → Host.Outcome State Fault Refusal :=
  liftC fun s => forEach ((s.tmr.map (·.addr)).eraseDups) (fun a s => s.tmrCheck a) s

end Sys2Proof.Machine
end

