-- ==== Sys2Proof/Machine/Boot.lean ====
section
/-! DEFINITION. Bring-up: images and their manifests, the stages S0 to S8, identity, READY (R434 to
R452). -/

namespace Sys2Proof.Machine

/-! ## Images (R443 to R447) -/

/-- R443: an entry of the section table. -/
structure Sec where
  typ : Nat
  off : Nat
  len : Nat
  dig : List Byte
deriving DecidableEq, Repr

/-- R442: flash offset of an image copy. -/
def copyBase (b : Bool) : Nat := if b then 0x900000 else 0x100000

/-- R443: the used entries of the section table of a manifest. -/
def secsOf (m : List Byte) : List (List Byte) :=
  ((List.range 8).map fun k => (m.drop (40 + 64 * k)).take 64).filter fun e => e.any fun b => b != 0

/-- R443: the entry of 64 B. -/
def secOf (e : List Byte) : Sec := ⟨payNat e 0 4, payNat e 4 4, payNat e 8 4, (e.drop 16).take 48⟩

/-- R443, R444: a section entry is well formed: its type, its alignment, its length within the copy and
as its type has it. -/
def secOk (e : List Byte) : Bool :=
  let s := secOf e
  s.off % 4096 == 0 && payNat e 12 4 == 0 && decide (s.off + s.len ≤ 0x800000) &&
  match s.typ with
  | 1 => decide (s.len ≤ 0x200000)
  | 2 => s.len == 16384
  | 3 => decide (8 ≤ s.len ∧ s.len ≤ 16384) && s.len % 8 == 0
  | 4 => decide (s.len ≤ 0x40000) && s.len % 16 == 0
  | _ => false

/-- R444: the section of a type. -/
def secFor (m : List Byte) (typ : Nat) : Option Sec := ((secsOf m).map secOf).find? fun s => s.typ == typ

/-- R443 to R445: a manifest of 4,096 B is valid. -/
def manifestOk (m : List Byte) : Bool :=
  let l := secsOf m
  let body := m.take 1024
  let ek := (m.drop 1024).take 97
  let hk := (m.drop 1121).take 60
  let rom := Config.romKeys (payNat m 12 4 % 4)
  m.take 4 == asciiBytes "KVIM" && payNat m 4 4 == 1 && payNat m 36 4 == 4 &&
  l.length == 4 && l.all secOk && [1, 2, 3, 4].all (fun t => (secFor m t).isSome) &&
  sha384 ek == rom.1 && sha384 hk == rom.2 &&
  Config.ecdsaVerify ek (sha384 body) ((m.drop 1184).take 96) &&
  Config.hssVerify hk body ((m.drop 1280).take 2672)

/-- The manifest of a copy. -/
def Sys.manifestAt (y : Sys) (b : Bool) : List Byte := y.flashRead (copyBase b) 4096

/-- R446, R447: a section of a copy, where its hash is that of the manifest. -/
def Sys.section (y : Sys) (b : Bool) (m : List Byte) (typ : Nat) : Option (List Byte) :=
  match secFor m typ with
  | none => none
  | some s =>
    let d := y.flashRead (copyBase b + s.off) s.len
    if sha384 d = s.dig then some d else none

/-- R446: the candidate copies under STRAP_BOOT, in order; true is copy B. -/
def candidates (boot : Nat) (okA okB : Bool) (svnA svnB : Nat) : List Bool :=
  let a := if okA && boot != 2 then [false] else []
  let b := if okB && boot != 1 then [true] else []
  if svnA < svnB then b ++ a else a ++ b

/-! ## The configuration section (R440) -/

/-- R440: the CFG section is parsed in full; none where it is malformed. -/
def parseCfg : Nat → List Byte → Option (List CfgEnt)
  | 0, _ => none
  | n + 1, d =>
    if d.length < 16 then none
    else
      let stage := payNat d 0 1 % 16
      let kind := payNat d 0 1 / 16
      let rest := parseCfg n
      if kind = 15 then some []
      else if payNat d 1 3 ≠ 0 ∨ stage < 2 ∨ 8 < stage then none
      else if kind = 0 then
        let a := payNat d 4 4
        if 2 ^ 25 ≤ a ∨ a % 4 ≠ 0 ∨ payNat d 12 4 ≠ 0 then none
        else (rest (d.drop 16)).map fun l => .reg stage a (BitVec.ofNat 32 (payNat d 8 4)) :: l
      else if kind = 1 then
        if d.length < 48 ∨ payNat d 4 12 ≠ 0 then none
        else (rest (d.drop 48)).map fun l => .sess stage (wordsOf ((d.drop 16).take 32)) :: l
      else none

/-- R440: the stage of an entry. -/
def CfgEnt.stage : CfgEnt → Nat
  | .reg k _ _ => k
  | .sess k _ => k

/-- R440, R434: an entry can take effect: a mapped register, a session 0 record of the form of R344
within its limits. -/
def Chip.cfgOk (s : Chip) : CfgEnt → Bool
  | .reg _ a _ => (pageRef a).isSome
  | .sess _ ws => sessFormOk ws && s.sessLimits 0 ws

/-- R440: an entry takes effect. -/
def Sys.applyCfg (y : Sys) (e : CfgEnt) : Sys :=
  if y.chip.cfgOk e = false then y
  else match e with
    | .reg _ a v => y.regWrite .triad a v
    | .sess _ ws => onChip (fun s => s.writeSess 0 ws) y

/-! ## The course of the stages (R434, R435) -/

/-- R434: stage k runs. -/
def Chip.inStage (s : Chip) (k : Nat) : Bool := s.boot.on && s.stageState == 0 && s.stageNo == k

/-- R439: the straps; recovery. -/
def Chip.straps (s : Chip) : Nat := s.fld (stagePg + 0x6C) 2 0
def Chip.recovery (s : Chip) : Bool := s.boot.on && decide (1 ≤ s.stageNo) && s.straps % 4 == 3

/-- R434: the stage has exceeded its bound. S1 in recovery has none. -/
def Chip.pastBound (s : Chip) : Bool :=
  decide (1000 * stageBound s.stageNo < s.ref - s.boot.stageStart) && !(s.recovery && s.stageNo == 1)

/-- R277, R434: links that are not OFF start their training. -/
def Chip.trainLinks (s : Chip) : Chip :=
  forEach (List.range 96) (fun l s =>
    if (s.linkRole l).1 = 0 ∨ s.lkState l ≠ 0 then s
    else ((s.setLkState l 1).setFld (lkPg l + 0x44) 11 8 0).setLk l { s.lk l with ask := none, mustFull := true }) s

/-- R434, R440: stage k starts: its configuration entries, then what the stage starts with. -/
def Sys.beginStage (y : Sys) (k : Nat) : Sys :=
  let y := onChip (fun s => Chip.setFld { s with boot.stageStart := s.ref } (stagePg + 0x40) 3 0 k) y
  let y := forEachS (y.chip.boot.cfg.filter fun e => e.stage == k) (fun e y => y.applyCfg e) y
  match k with
  | 4 => onChip (fun s => forEach (List.range 256) (fun n s => s.setFld (mcPg n + 0x40) 2 0 1)
      (s.setFld (memPg + 0xAC) 1 0 1)) y
  | 6 => onChip (fun s =>
      let s := s.trainLinks
      if s.isMaster then s.stepTime (s.pair (ftPg + 0x64)) else s) y
  | 7 => onChip (fun s => s.setFld (enPg + 0x44) 1 0 1) y
  | _ => y

/-- R434, R441: the current stage passes and the next starts; with STRAP_HOLD S6 waits for CONTINUE. -/
def Sys.passStage (y : Sys) (data : List Byte) : Sys :=
  let k := y.chip.stageNo
  let y := onChip (fun s => s.endStage 0 0 data) y
  if k = 5 ∧ y.chip.straps / 4 % 2 = 1 then
    onChip (fun s => ((s.setReg (stagePg + 0x40) 0x36).sendState 6 []).chainCond 1) y
  else y.beginStage (k + 1)

/-- R435: stage k fails for a cause. -/
def Chip.stageFails (s : Chip) (detail : Nat) : Chip := s.failStage 2 detail (s.stageData s.stageNo)

/-! ## S0 and S1 -/

/-- STAGE_S0 (R434, R439, R483): clocks that locked, laid out as CLK_STAT, and the straps. -/
def Sys.runS0 (y : Sys) (plls straps : Nat) : Sys :=
  let y := onChip (fun s => (s.setReg (clkPg + 0x40) (BitVec.ofNat 32 plls &&& 0xfff007f)).setFld (stagePg + 0x6C) 2 0 straps) y
  if plls % 128 = 127 then y.passStage (y.chip.stageData 0) else onChip (fun s => s.stageFails 1) y

/-- R446: the first candidate whose SUP and CFG sections match the manifest, with its CFG section, and
whether an earlier one did not. -/
def Sys.pickCopy (y : Sys) : List Bool → Bool → Bool × Option (Bool × List Byte)
  | [], fell => (fell, none)
  | b :: l, fell =>
    let m := y.manifestAt b
    match y.section b m 1, y.section b m 4 with
    | some _, some c => (fell, some (b, c))
    | _, _ => y.pickCopy l true

/-- R453: the boot entries known once S1 has chosen its image. -/
def Chip.measureBoot (s : Chip) (m : List Byte) : Chip :=
  let dig := fun t => match secFor m t with | some x => x.dig | none => List.replicate 48 0
  let s := (s.measure 1 Config.romHash).measure 2 (sha384 m)
  let s := (((s.measure 3 (dig 1)).measure 4 (dig 2)).measure 5 (dig 3)).measure 6 (dig 4)
  s.measure 7 (sha384 (leBytes 1 s.straps))

/-- R439, R446: S1 chooses a copy and parses its configuration; in recovery it loads none and holds. -/
def Sys.choose (y : Sys) : Sys :=
  if y.chip.recovery then
    onChip (fun s => { s with boot.reports := KMap.put s.boot.reports {} 1 { detail := 4 } }) y
  else
    let a := y.manifestAt false
    let b := y.manifestAt true
    let okA := manifestOk a
    let okB := manifestOk b
    let y := onChip (fun s => { s with boot.manA := okA, boot.manB := okB }) y
    let (fell, r) := y.pickCopy (candidates (y.chip.straps % 4) okA okB (payNat a 8 4) (payNat b 8 4)) false
    let y := onChip (fun s => { s with boot.fallback := fell }) y
    match r with
    | none => onChip (fun s => s.stageFails 1) y
    | some (c, cfg) =>
      let m := if c then b else a
      let y := onChip (fun s => { s with
        boot.copyB := c, boot.keyslot := payNat m 12 4 % 4, boot.svn := payNat m 8 4 }) y
      match parseCfg (cfg.length + 1) cfg with
      | none => onChip (fun s => s.stageFails 2) y
      | some l => onChip (fun s => Chip.measureBoot { s with boot.manifest := m, boot.cfg := l } m) y

/-- STAGE_S1 (R434, R439, R440, R446, R453): the image is chosen and supervisor firmware runs; the stage
ends once ENUM has given the chip its address. -/
def Sys.runS1 (y : Sys) : Sys :=
  let y := if y.chip.boot.manifest = [] then y.choose else y
  if y.chip.inStage 1 ∧ y.chip.boot.manifest ≠ [] ∧ y.chip.chainValid = true
  then y.passStage (y.chip.stageData 1) else y

/-! ## S2 -/

/-- R389, R449: a cluster that is not present counts as fenced with cause LOGIC. -/
def Chip.absentCluster (s : Chip) (c : Nat) : Chip :=
  let s := s.setFlag (floorPg + 0x40 + 4 * (c / 32)) (c % 32) false
  let s := { s with errs.fences := (s.errs.fences.filter fun (f : FenceRec) => !(f.unit == UnitId.cluster c)) ++
                                     [FenceRec.mk (.cluster c) .logic s.now false true] }
  s.setFld (blkStat (clPg c)) 4 0 (2 + 4 * causeCode .logic)

/-- R449, R458: what S2 finds of cluster c: the bits of GLB_FP_CUNIT, and the words of its newt map. -/
def Chip.selfTest (s : Chip) (c : Nat) (u : Nat × List Nat) : Chip :=
  let unit := u.1 % 128
  let s := { s with boot.units := KMap.put s.boot.units 0 c unit }
  let here := unit == 127
  let s := forEach (List.range 128) (fun m s =>
    if here && u.2.getD (m / 32) 0 / 2 ^ (m % 32) % 2 == 1 then s
    else s.setCore c m { s.core c m with absent := true }) s
  if here then s.setFlag (floorPg + 0x40 + 4 * (c / 32)) (c % 32) true else s.absentCluster c

/-- STAGE_S2 (R434, R437, R449, R458): results of the self-test by cluster, masks of the links and
Ethernet lanes that pass, and whether every other block does. -/
def Sys.runS2 (y : Sys) (units : List (Nat × List Nat)) (links lanes : Nat) (blocks : Bool) : Sys :=
  onChip (fun s =>
    let s := forEach (List.range 208) (fun c s => s.selfTest c (units.getD c (0, []))) s
    let s := forEach (List.range 8) (fun k s => s.setReg (floorPg + 0x90 + 4 * k) 0xFFFFFFFF) s
    let s := forEach (List.range 3) (fun k s =>
      s.setReg (floorPg + 0xB0 + 4 * k) (BitVec.ofNat 32 (links / 2 ^ (32 * k)))) s
    s.setReg (floorPg + 0xBC) (BitVec.ofNat 32 (lanes % 256 + 256))) y |> fun y =>
  let s := y.chip
  let bad :=
    if clusterSum s.clPresent < 200 then 1
    else if s.newtSum s.clPresent < 25600 then 2
    else if links % 2 ^ 96 ≠ 2 ^ 96 - 1 then 3
    else if lanes % 256 ≠ 255 then 4
    else if blocks = false then 5
    else 0
  if bad = 0 then y.passStage (s.stageData 2) else onChip (fun s => s.stageFails bad) y

/-! ## S3 and S4 -/

/-- STAGE_S3 (R181, R434, R437): the controllers that trained. -/
def Sys.runS3 (y : Sys) (trained : List Nat) : Sys :=
  let failed := (List.range 256).filter fun n => !trained.contains n
  let data := leBytes 1 (y.chip.fld (memPg + 0x40) 1 0) ++ leBytes 1 0 ++ leBytes 2 (256 - failed.length) ++
    leBytes 2 (failed.headD 0)
  if failed = [] then Sys.passStage (onChip (fun s => s.setFlag (memPg + 0x40) 31 true) y) data
  else onChip (fun s => s.failStage 2 1 data) y

/-- R179: block b of controller n is a DEFECT block. -/
def Chip.addDefect (s : Chip) (n b : Nat) : Chip :=
  let m := s.mc n
  s.setMc n { m with poison := (m.poison.filter fun p => !(p.1 == b)) ++ [(b, true)] }

/-- R178, R179: passes 1 to 3: every channel is tested and filled with zeros. `fails` names blocks, with the
symbols of each that failed in passes 2 and 3 and those in error after the fill; blocks with more than t ÷ 2
failing symbols are defects, and a channel with more than 64 of them fails the stage. Row activations of the
fill are not counted (log entry 100). -/
def Sys.fillPasses (y : Sys) (fails : List (Nat × Nat × Nat)) : Sys :=
  let fs := fails.filter fun f => decide (f.1 < y.chip.dataBlocks)
  let bad := ((fs.filter fun f => decide (y.chip.codeT < 2 * f.2.1)).map (·.1)).eraseDups
  let y := onChip (fun s => forEach bad (fun b s => s.addDefect (s.ctrlOf b) b) s) y
  if (List.range 256).any fun n => decide (64 < y.chip.defects n) then
    onChip (fun s => (s.setFlag (memPg + 0xAC) 31 true).stageFails 1) y
  else
    let errs := fs.foldl (fun m f => KMap.put m [] f.1 ((List.range f.2.2).map fun i => (i, 1))) []
    onChip (fun s => s.setFld (memPg + 0xAC) 1 0 2) (onMem (fun m => { m with pool := [], poolErr := errs }) y)

/-- R174, R175, R178: pass 4: every data block is read and decoded, in ascending order; one without a symbol
in error that is no DEFECT block answers nothing. -/
def Sys.decodePass (y : Sys) : Sys :=
  let bad := (List.range 256).flatMap fun n => ((y.chip.mc n).poison.filter (·.2)).map (·.1)
  let y := forEachS ((bad ++ y.mem.poolErr.map (·.1)).eraseDups.mergeSort)
    (fun b y => (y.readBlk (y.chip.ctrlOf b) b 3 64).2) y
  let y := onChip (fun s => forEach (List.range 256) (fun n s => s.setFld (mcPg n + 0x40) 2 0 2)
    (s.setFld (memPg + 0xAC) 1 0 3)) y
  y.passStage (y.chip.stageData 4)

/-- STAGE_S4 (R178, R179, R434): the passes of the fill, the last of them only where `all` says so; it then
comes with a further STAGE_S4. -/
def Sys.runS4 (y : Sys) (fails : List (Nat × Nat × Nat)) (all : Bool) : Sys :=
  if y.chip.fld (memPg + 0xAC) 1 0 = 2 then y.decodePass
  else
    let y := y.fillPasses fails
    if all ∧ y.chip.stageState = 0 then y.decodePass else y

/-! ## S5 -/

/-- R172, R448: n code blocks from block b, read for a boot fetch; none where one decodes UE. -/
def Sys.fetchBlocks (y : Sys) (b : Nat) : Nat → Option (List Byte) × Sys
  | 0 => (some [], y)
  | n + 1 =>
    match y.chip.mcTurnsAway (y.chip.ctrlOf b) with
    | some _ => (none, y)
    | none =>
      let y := onChip (fun s => s.activateBlk (s.ctrlOf b) b 0) y
      match y.readBlk (y.chip.ctrlOf b) b 3 64 with
      | (none, y) => (none, y)
      | (some d, y) =>
        match y.fetchBlocks (b + 1) n with
        | (none, y) => (none, y)
        | (some e, y) => (some (d ++ e), y)

/-- R102, R448: the boot fetcher loads the cluster control core of cluster c and releases it. -/
def Sys.startCcc (y : Sys) (c : Nat) : Sys :=
  match y.fetchBlocks ((y.chip.rsv + 0x800000) / 2048) 8 with
  | (none, y) => y
  | (some d, y) =>
    let y := y.stWrite c 0 d
    let y := (y.loadSram c 128 0 (d.take 8192) true).loadSram c 128 8192 (d.drop 8192) true
    onChip (fun s => s.setCore c 128 { s.core c 128 with st := 2, pc := 0, left := s.ref }) y

/-- R447, R448: the sections CLU and NWT are placed in the reserved region and the cores started. -/
def Sys.placeImages (y : Sys) (clu nwt : List Byte) : Sys :=
  let a := y.chip.rsv + 0x800000
  let (_, y) := y.tableAll 0 (tableParts a clu)
  let (_, y) := y.tableAll 0 (tableParts (a + 0x4000) nwt)
  let y := onChip (fun s => { s with boot.placed := true }) y
  forEachS ((List.range 208).filter y.chip.clPresent) (fun c y => y.startCcc c) y

/-- R107, R448: the cluster control core of cluster c has reported. -/
def Chip.reported (s : Chip) (c : Nat) : Bool := s.clPresent c && s.flag (mboxDb c) 1

/-- R453: D of the FLOORPLAN entry. -/
def Chip.floorDigest (s : Chip) : List Byte :=
  let word := fun a => leBytes 4 (s.reg a).toNat
  let maps := (List.range 208).flatMap fun c => (List.range 4).flatMap fun k =>
    leBytes 4 (mapWord 128 k (s.newtPresent c))
  sha384 (((List.range 7).flatMap fun k => word (floorPg + 0x40 + 4 * k)) ++ maps ++
    ((List.range 8).flatMap fun k => leBytes 4 (s.peek (floorPg + 0x90 + 4 * k)).toNat) ++
    ((List.range 3).flatMap fun k => leBytes 4 (s.peek (floorPg + 0xB0 + 4 * k)).toNat))

/-- R448, R449, R453: S5 ends: the clusters that have reported are loaded, the others are not
present. -/
def Sys.endS5 (y : Sys) : Sys :=
  let s := y.chip
  let s := forEach (List.range 208) (fun c s =>
    if s.reported c then { s with boot.units := KMap.put s.boot.units 0 c (KMap.at s.boot.units 0 c % 128 + 128) }
    else if s.clPresent c then s.absentCluster c else s) s
  let bad :=
    if clusterSum s.clLoaded < 200 then 2
    else if s.newtSum s.clLoaded < 25600 then 3
    else 0
  if bad = 0 then Sys.passStage { y with chip := s.measure 8 s.floorDigest } (s.stageData 5)
  else { y with chip := s.stageFails bad }

/-- STAGE_S5 (R434, R447, R448): first the images are placed; the stage ends once every present cluster
has reported. -/
def Sys.runS5 (y : Sys) : Sys :=
  let s := y.chip
  if s.boot.placed then
    (if (List.range 208).all fun c => !s.clPresent c || s.reported c then y.endS5 else y)
  else match y.section s.boot.copyB s.boot.manifest 2, y.section s.boot.copyB s.boot.manifest 3 with
    | some clu, some nwt => y.placeImages clu nwt
    | _, _ => onChip (fun s => s.stageFails 1) y

/-! ## S6 to S8 -/

/-- STAGE_S6 (R302, R434): the stage ends with the chip LOCKED or master. -/
def Sys.runS6 (y : Sys) : Sys :=
  if y.chip.ftState = 2 ∨ y.chip.isMaster = true then y.passStage (y.chip.stageData 6) else y

/-- STAGE_S7 (R434): fails where a stage-7 record fails. -/
def Sys.runS7 (y : Sys) : Sys :=
  if (y.chip.boot.cfg.filter fun e => e.stage == 7).all y.chip.cfgOk
  then y.passStage (y.chip.stageData 7)
  else onChip (fun s => s.stageFails 0) y

/-- R450, R451: the identity: the device ID, and whether the certificate is that of the derived keys. -/
def Sys.identity (y : Sys) : Sys :=
  match Config.pufSecret (y.flashRead 0x20000 4096) with
  | none => y
  | some k =>
    let e := fit 97 (Config.ecdsaPublic (deviceKey k))
    let h := fit 60 (Config.hssPublic k)
    let id := (sha384 e).take 16
    let cert := y.flashRead 0x21000 177
    let ok : Bool := cert == asciiBytes "KVDC" ++ id ++ e ++ h
    onChip (fun s => (Chip.setBytes { s with boot.kdev := k } (attPg + 0x7C) 4 id).setFlag (attPg + 0x74) 1 ok) y

/-- R438, R474: the chip is READY. -/
def Chip.goReady (s : Chip) (result detail : Nat) : Chip :=
  let s := s.endStage result detail (s.stageData 8)
  let r := KMap.at s.boot.reports {} 8
  (s.setFld (stagePg + 0x40) 5 4 1).sendState 5 (reportBytes 8 r)

/-- STAGE_S8 (R434, R450 to R452): identity, the reservation of indices, READY. The floor of R18 is that
of stages S2, S3 and S5: what is fenced after them is not counted again here (log entry 85). -/
def Sys.runS8 (y : Sys) : Sys :=
  let y := y.identity
  let (e, y) := y.lmsTry
  onChip (fun s =>
    if s.flag (attPg + 0x74) 1 = false then s.goReady 1 1
    else match e with
      | .done => s.goReady 0 0
      | .fails => s.goReady 1 2
      | .exhausted => s.goReady 1 3) y

/-! ## The commands -/

/-- R435, R448, R467: the current stage has exceeded its bound: S1 without an address has failed for
want of ENUM, S5 ends with the clusters loaded by then. -/
def Sys.boundOver (y : Sys) : Sys :=
  let s := y.chip
  if s.stageNo = 1 ∧ s.boot.manifest ≠ [] ∧ s.chainValid = false then onChip (fun s => s.stageFails 3) y
  else if s.stageNo = 5 ∧ s.boot.placed = true then y.endS5
  else onChip (fun s => s.failStage 3 (if s.stageNo = 6 then 1 else 0) (s.stageData s.stageNo)) y

/-- R434, R435: a stage does its part while it runs and is within its bound. -/
def Sys.stageRun (y : Sys) (k : Nat) (f : Sys → Sys) : Sys :=
  if y.chip.inStage k = false then y
  else if y.chip.pastBound then y.boundOver
  else f y

def execStageS0 (plls straps : Nat) : State → Host.Outcome State Fault Refusal :=
  liftS fun y => y.stageRun 0 fun y => y.runS0 plls straps

def execStageS1 : State → Host.Outcome State Fault Refusal := liftS fun y => y.stageRun 1 Sys.runS1

def execStageS2 (units : List (Nat × List Nat)) (links lanes : Nat) (blocks : Bool) :
    State → Host.Outcome State Fault Refusal :=
  liftS fun y => y.stageRun 2 fun y => y.runS2 units links lanes blocks

def execStageS3 (trained : List Nat) : State → Host.Outcome State Fault Refusal :=
  liftS fun y => y.stageRun 3 fun y => y.runS3 trained

def execStageS4 (test : FillTest) : State → Host.Outcome State Fault Refusal :=
  liftS fun y => y.stageRun 4 fun y => y.runS4 test.fails test.all

def execStageS5 : State → Host.Outcome State Fault Refusal := liftS fun y => y.stageRun 5 Sys.runS5

def execStageS6 : State → Host.Outcome State Fault Refusal := liftS fun y => y.stageRun 6 Sys.runS6

def execStageS7 : State → Host.Outcome State Fault Refusal := liftS fun y => y.stageRun 7 Sys.runS7

def execStageS8 : State → Host.Outcome State Fault Refusal := liftS fun y => y.stageRun 8 Sys.runS8

/-- STAGE_BOUND_EXCEEDED (R435). -/
def execStageBoundExceeded : State → Host.Outcome State Fault Refusal :=
  liftS fun y =>
    let s := y.chip
    if s.boot.on && s.stageState == 0 && s.pastBound then y.boundOver else y

end Sys2Proof.Machine
end

