-- ==== Sys2Proof/Machine/Chain.lean ====
section
/-! DEFINITION. The Kilvy chain: enumeration, the CTL and FLASH requests, POLL, and taking the chip out
of service (R461 to R476). -/

namespace Sys2Proof.Machine

/-! ## Forwarding, ENUM and POLL -/

/-- CHAIN_FRAME_FORWARD (R463, R465): a frame no other row acts on. -/
def execChainFrameForward (f : ChainFrame) : State → Host.Outcome State Fault Refusal :=
  liftS fun y => y.chainPass f

/-- R467: the POS a unit forwards: the first position above pos that SKIP leaves; 64 for none. -/
def nextPos (pos skip : Nat) : Nat :=
  ((List.range 64).find? fun k => decide (pos < k) && skip / 2 ^ k % 2 == 0).getD 64

/-- R467: a unit finds that its address is not the one that ENUM names. -/
def Chip.enumDiff (s : Chip) (pos : Nat) : Chip :=
  let own := leBytes 2 (s.fld (rtPg + 0x40) 11 0)
  ((s.notice chPg 1).sendState 8 (own ++ leBytes 1 pos)).chainCond 4

/-- R467: a unit takes an address. -/
def Chip.takeAddress (s : Chip) (id pos : Nat) : Chip :=
  let s := (s.setFld (rtPg + 0x40) 11 0 (64 * id + pos)).setFlag (rtPg + 0x40) 31 true
  (s.setFld (chPg + 0x40) 11 0 (64 * id + pos)).setFlag (chPg + 0x40) 31 true

/-- R467: steps 1 to 3 and the case of POS 64. -/
def Chip.enumerate (s : Chip) (f : ChainFrame) : Chip :=
  let id := payNat f.payload 0 1 % 64
  let pos := payNat f.payload 1 1 % 128
  let skip := payNat f.payload 4 8
  if 64 ≤ pos then
    let s := s.emit (.chain f)
    if s.chainValid then s.enumDiff pos else s
  else
    let p := (f.payload.set 1 (BitVec.ofNat 8 (nextPos pos skip))).set 2
      (BitVec.ofNat 8 (payNat f.payload 2 1 + 1))
    let s := s.emit (.chain (chainEdit f p))
    if s.chainValid = false then s.takeAddress id pos
    else if s.fld (rtPg + 0x40) 11 0 = 64 * id + pos then s
    else s.enumDiff pos

/-- ENUM (R467 to R469). DEDUCED: every unit acts on it, whatever its DST. -/
def execEnum (f : ChainFrame) : State → Host.Outcome State Fault Refusal :=
  liftS fun y =>
    if y.chip.chainUp && chainGood f && f.typ == 1 && f.payload.length == 16
    then onChip (fun s => s.enumerate f) y
    else y.chainPass f

/-- POLL (R475): a unit with a condition pending sets the bit of its position. DEDUCED: every unit,
whatever DST. -/
def execPoll (f : ChainFrame) : State → Host.Outcome State Fault Refusal :=
  liftS fun y =>
    let s := y.chip
    if s.chainUp && chainGood f && f.typ == 6 && f.payload.length == 8 && s.chainValid &&
        s.fld (chPg + 0x48) 4 0 != 0 then
      let m := payNat f.payload 0 8 ||| 2 ^ s.chainPos
      { y with chip := s.emit (.chain (chainEdit f (leBytes 8 m))) }
    else y.chainPass f

/-! ## CTL (R471) -/

/-- R471: a CTL request of an operation. -/
def isCtl (f : ChainFrame) (op : Nat) : Bool := f.typ == 4 && payNat f.payload 0 1 == op

def ctlArg (f : ChainFrame) : Nat := payNat f.payload 4 4

/-- R471: the KEY, which stands in byte 8, matches. -/
def ctlKey (f : ChainFrame) (key : Nat) : Bool := decide (9 ≤ f.payload.length) && payNat f.payload 8 1 == key

/-- R471: a CTL request is carried out where its KEY matches and its condition holds. -/
def Sys.ctl (y : Sys) (f : ChainFrame) (op key : Nat) (ok : Chip → Bool) (act : Sys → Sys) : Sys :=
  y.chainReq f (isCtl f op) fun y =>
    if ctlKey f key && ok y.chip then ((.ok, []), act y) else ((.noAccess, []), y)

/-- CONTINUE (R441, R471): the hold ends and S6 starts. -/
def execContinueHold (f : ChainFrame) : State → Host.Outcome State Fault Refusal :=
  liftS fun y => y.ctl f 1 0 (fun s => s.boot.on && s.stageState == 3) fun y =>
    (onChip (fun s => s.setFld (stagePg + 0x40) 5 4 0) y).beginStage 6

/-- CHAIN_RESET (R381, R471): a chip reset follows the RESP. -/
def execChainReset (f : ChainFrame) : State → Host.Outcome State Fault Refusal :=
  liftS fun y => y.ctl f 2 0xA7 (fun _ => true) (onChip fun s => { s with boot.resetDue := true })

/-- ALERT_ACK (R471, R475): the conditions of ARG are no longer pending. -/
def execAlertAck (f : ChainFrame) : State → Host.Outcome State Fault Refusal :=
  liftS fun y => y.ctl f 4 0 (fun _ => true) (onChip fun s =>
    s.setReg (chPg + 0x48) (s.reg (chPg + 0x48) &&& ~~~ (BitVec.ofNat 32 (ctlArg f))))

/-! ## Out of service (R470, R472) -/

/-- R470: CH_STAT.SVC, and R472: the last RETIRE step that finished. -/
def Chip.svc (s : Chip) : Nat := s.fld (chPg + 0x44) 1 0
def Chip.retireStep (s : Chip) : Nat := s.fld (chPg + 0x44) 4 2

/-- R472, R474: a RETIRE step is reported. -/
def Chip.tellStep (s : Chip) (n : Nat) : Chip :=
  s.sendState 7 (leBytes 8 n ++ leBytes 8 s.now)

/-- R472: a RETIRE step has finished. -/
def Chip.stepDone (s : Chip) (n : Nat) : Chip := (s.setFld (chPg + 0x44) 4 2 n).tellStep n

/-- RETIRE (R471, R472 step 1): RETIRING from the RESP; step 1 is reported after it. -/
def execRetire (f : ChainFrame) : State → Host.Outcome State Fault Refusal :=
  liftS fun y =>
    let ok := fun (s : Chip) =>
      s.svc == 0 && s.isReady && decide (1 ≤ ctlArg f ∧ ctlArg f ≤ 600000)
    let z := y.ctl f 3 0x96 ok (onChip fun s =>
      let s := (s.setFld (chPg + 0x44) 1 0 1).setFld (chPg + 0x44) 4 2 1
      { s with chain.retireBy := s.now + 1000000 * ctlArg f })
    if y.chip.svc = 0 ∧ z.chip.svc = 1 then onChip (fun s => s.tellStep 1) z else z

/-- R472: every lease and every usable extent is FREE. -/
def Chip.allFree (s : Chip) : Bool :=
  (s.rights.leases.all fun e => e.2.state == 0) &&
  s.rights.exts.all fun e => !decide (e.1 < s.usable) || e.2.state == 0

/-- R197, R472: lease i is closed as LEASE_CLOSE does, unless it closes already. -/
def Chip.closeLease (s : Chip) (i : Nat) : Chip :=
  let l := KMap.at s.rights.leases {} i
  let live := leaseEff s.leaseNow l
  if (live ≠ 1 ∧ live ≠ 2) ∨ (s.rights.revs.any fun r => r.kind == .leaseClose i) = true then s
  else
    let tc := s.commitAt
    let (id, s) := s.openRev none (.leaseClose i) l.part tc [] []
    s.commitLater tc (.close id i)

/-- R472 step 2: leases close, contexts are killed, OWNED extents are returned. -/
def Chip.drain (s : Chip) : Chip :=
  let s := forEach (s.rights.leases.map (·.1)) (fun i s => s.closeLease i) s
  let s := forEach (s.parts.ctxs.map (·.1)) (fun x s =>
    if 1 ≤ (s.ctxAt x).state ∧ (s.ctxAt x).state ≤ 3 then s.killCtx x (killOf 8) else s) s
  let owned := (s.rights.exts.map (·.1)).filter fun e => s.extState e == 1
  forEach (List.range 64) (fun p s =>
    let es := owned.filter fun e => (s.ext e).part == p
    if es.isEmpty then s else s.extReturnAt none p es) s

/-- R472 step 3: a STANDBY enters OUT; a HOLDER hands the crown over first. -/
def Chip.retirePair (s : Chip) : Chip :=
  if s.retireStep ≠ 2 then s
  else if s.paired = false then s.stepDone 3
  else if s.leads then
    (if s.duo.boundary.isNone then { s with duo.boundary := some (s.boundaryFrom (s.now + 10000)) } else s)
  else if s.pairRole = 1 ∨ s.pairRole = 2 then s.goOut.stepDone 3
  else s.stepDone 3

/-- RETIRE_DRAIN (R472 steps 2 and 3). -/
def execRetireDrain : State → Host.Outcome State Fault Refusal :=
  liftC fun s =>
    if s.svc = 1 ∧ s.retireStep = 1 ∧ (s.allFree = true ∨ s.chain.retireBy ≤ s.now)
    then (s.drain.stepDone 2).retirePair
    else s

/-- R472 step 4: the reclaims of step 2 are complete and the extents filled. -/
def Chip.reclaimed (s : Chip) : Bool :=
  s.rights.revs.isEmpty && (s.rights.leases.all fun e => e.2.state == 0) &&
  s.rights.exts.all fun e => !decide (e.1 < s.usable) || !decide (1 ≤ e.2.state ∧ e.2.state ≤ 4)

/-- RETIRED (R472 steps 3 and 4). -/
def execRetired : State → Host.Outcome State Fault Refusal :=
  liftC fun s =>
    if s.svc ≠ 1 then s
    else
      let s := s.retirePair
      if s.retireStep = 3 ∧ s.reclaimed = true then (s.setFld (chPg + 0x44) 1 0 2).stepDone 4 else s

/-! ## FLASH (R473) -/

/-- R473: a FLASH request of an operation. -/
def isFlash (f : ChainFrame) (op : Nat) : Bool := f.typ == 5 && payNat f.payload 0 1 == op

def flashOff (f : ChainFrame) : Nat := payNat f.payload 4 4
def flashCount (f : ChainFrame) : Nat := payNat f.payload 8 2

/-- R473: a FLASH request is carried out where its conditions hold. -/
def Sys.flashReq (y : Sys) (f : ChainFrame) (op : Nat) (ok : Chip → Bool)
    (act : Sys → (Status × List Byte) × Sys) : Sys :=
  y.chainReq f (isFlash f op) fun y => if ok y.chip then act y else ((.noAccess, []), y)

/-- FLASH_READ (R473): in recovery or in FAIL. -/
def execFlashRead (f : ChainFrame) : State → Host.Outcome State Fault Refusal :=
  liftS fun y => y.flashReq f 1
    (fun s => (s.straps % 4 == 3 || s.stageState == 2) && decide (1 ≤ flashCount f ∧ flashCount f ≤ 256))
    fun y => ((.ok, y.flashRead (flashOff f) (flashCount f)), y)

/-- FLASH_ERASE (R442, R473): one sector, in recovery. -/
def execFlashErase (f : ChainFrame) : State → Host.Outcome State Fault Refusal :=
  liftS fun y => y.flashReq f 2 (fun s => s.straps % 4 == 3 && flashOff f % 4096 == 0)
    fun y => ((.ok, []), y.flashErase (flashOff f))

/-- FLASH_PROGRAM (R442, R473): within a page, in recovery; UE where the read-back differs. -/
def execFlashProgram (f : ChainFrame) : State → Host.Outcome State Fault Refusal :=
  liftS fun y => y.flashReq f 3
    (fun s => s.straps % 4 == 3 && decide (1 ≤ flashCount f ∧ flashOff f % 256 + flashCount f ≤ 256) &&
      f.payload.length == 16 + flashCount f)
    fun y =>
      let (good, y) := y.flashProgram (flashOff f) (f.payload.drop 16)
      ((if good then .ok else .ue, []), y)

end Sys2Proof.Machine
end

