-- ==== Sys2Proof/Machine/NewtMem.lean ====
section
/-! DEFINITION. Loads and stores of newts and of the cluster control core: SRAMs, the cluster store
through the data cache, and register pages (R87 to R91, R97, R112, R113, R116, R117). -/

namespace Sys2Proof.Machine

/-! ## Register pages (R89, R90) -/

/-- R89: what newt m may read of its cluster's page; the cluster control core, every mapped page. -/
def regReadable (c m off : Nat) : Bool :=
  let a := clPg c + off
  if m = 128 then (pageRef a).isSome
  else off / 0x1000 == 3 || off / 0x1000 == 8 || decide (nwRec c m ≤ a ∧ a < nwRec c m + 32)

/-- R89: a newt may write FG_POST while FG_CTRL.NEWT_POST = 1; the cluster control core writes every
mapped page, as REGISTER_WRITE has it. -/
def Chip.regWritable (s : Chip) (c m off : Nat) : Bool :=
  if m = 128 then (pageRef (clPg c + off)).isSome
  else off == 0x3048 && s.mayPost c (.newt m)

/-- The agent a core is in register accesses. -/
def coreAgent (m : Nat) : Agent := if m = 128 then .ccc else .newt m

/-! ## Loads (R87, R88, R91) -/

/-- A load from core m's own SRAM, whose byte 0 of the word is at SRAM index a. -/
def Sys.loadSramAt (y : Sys) (c m a addr f3 rd next : Nat) : Sys :=
  match y.sramWord c m a with
  | (none, y) => onChip (fun s => s.trap c m 24 (addr / 4 * 4)) y
  | (some d, y) => onChip (fun s => s.finish c m rd (loadValue f3 ((d.drop (a % 4)).take (accSize f3))) next) y

/-- R116, R117: a load from the cluster store; without the line it is an RD. -/
def Chip.loadStore (s : Chip) (c m a f3 rd next : Nat) : Chip :=
  let x := s.core c m
  match x.line (a / 64 * 64) with
  | some (k, l) => s.loadLine c m k l a f3 rd next
  | none => s.setCore c m { x with miss := some ⟨0, a, f3, rd, 0, next - x.pc⟩ }

/-- A load. -/
def Sys.runLoad (y : Sys) (c m f3 rd addr next : Nat) : Sys :=
  let trap := fun (k : Nat) => onChip (fun s => s.trap c m k addr) y
  if addr % accSize f3 ≠ 0 then trap 4
  else match placeOf addr with
    | .isram a => y.loadSramAt c m a addr f3 rd next
    | .dsram a => y.loadSramAt c m (8192 + a) addr f3 rd next
    | .store a => onChip (fun s => s.loadStore c m a f3 rd next) y
    | .reg off =>
      if f3 ≠ 2 ∨ regReadable c m off = false then trap 5
      else
        let (w, s) := y.chip.readReg (coreAgent m) (clPg c + off)
        { y with chip := s.finish c m rd w next }
    | .none => trap 5

/-- NEWT_LOAD (R87 to R91, R97). -/
def execNewtLoad (c : ClusterNo) (m : CoreNo) : State → Host.Outcome State Fault Refusal :=
  liftS fun y => y.coreStep c m false (fun op => match op with | .load .. => true | _ => false)
    fun op _ next y => match op with
      | .load f3 rd rs1 imm =>
        y.runLoad c m f3 rd ((((y.chip.core c m).get rs1).toNat + imm) % 2 ^ 32) next
      | _ => y

/-! ## Stores -/

/-- R91: a store to core m's data SRAM; a partial one merges, unless the word is uncorrectable. -/
def Sys.storeSramAt (y : Sys) (c m a addr : Nat) (d : List Byte) (next : Nat) : Sys :=
  if d.length = 4 then onChip (fun s => s.retire c m next) (y.sramPut c m (8192 + a) d)
  else match y.sramWord c m (8192 + a) with
    | (none, y) => onChip (fun s => s.trap c m 24 (addr / 4 * 4)) y
    | (some w, y) => onChip (fun s => s.retire c m next) (y.sramPut c m (8192 + a) (splice w (a % 4) d))

/-- R116, R117: a store to the cluster store: at once on an E or M line, else UPG or RDX. -/
def Chip.storeStore (s : Chip) (c m a f3 : Nat) (w : Word) (next : Nat) : Chip :=
  let x := s.core c m
  let wait := fun (kind : Nat) => s.setCore c m { x with miss := some ⟨kind, a, f3, 0, w.toNat, next - x.pc⟩ }
  match x.line (a / 64 * 64) with
  | some (k, l) =>
    if l.st = 1 then wait 2
    else (s.setCore c m (x.useLine k (l.stored a (storeBytes f3 w)))).retire c m next
  | none => wait 1

/-- A store. -/
def Sys.runStore (y : Sys) (c m f3 : Nat) (w : Word) (addr next : Nat) : Sys :=
  let trap := fun (k : Nat) => onChip (fun s => s.trap c m k addr) y
  if addr % accSize f3 ≠ 0 then trap 6
  else match placeOf addr with
    | .dsram a => y.storeSramAt c m a addr (storeBytes f3 w) next
    | .store a => onChip (fun s => s.storeStore c m a f3 w next) y
    | .reg off =>
      if f3 ≠ 2 ∨ y.chip.regWritable c m off = false then trap 7
      else onChip (fun s => s.retire c m next) (y.regWrite (coreAgent m) (clPg c + off) w)
    | .isram _ | .none => trap 7

/-- NEWT_STORE (R87 to R91, R97, R113). -/
def execNewtStore (c : ClusterNo) (m : CoreNo) : State → Host.Outcome State Fault Refusal :=
  liftS fun y => y.coreStep c m false (fun op => match op with | .store .. => true | _ => false)
    fun op _ next y => match op with
      | .store f3 rs1 rs2 imm =>
        let x := y.chip.core c m
        y.runStore c m f3 (x.get rs2) (((x.get rs1).toNat + imm) % 2 ^ 32) next
      | _ => y

end Sys2Proof.Machine
end

