-- ==== Sys2Proof/Machine/Dispatch.lean ====
section
/-! DEFINITION. From each command to its meaning: one arm per constructor, each a direct call. -/

namespace Sys2Proof.Machine

/-- What a command does to everything but the queue. -/
def exec (i : Instr) (s : State) : Host.Outcome State Fault Refusal :=
  match i with
  | .fgPost c ag v => Sys2Proof.Machine.execFgPost c ag v s
  | .tile c => Sys2Proof.Machine.execTile c s
  | .load c => Sys2Proof.Machine.execLoad c s
  | .scan c => Sys2Proof.Machine.execScan c s
  | .fgTrapActResume c => Sys2Proof.Machine.execFgTrapActResume c s
  | .fgTrapActFlush c => Sys2Proof.Machine.execFgTrapActFlush c s
  | .carryPost c ix => Sys2Proof.Machine.execCarryPost c ix s
  | .abortPost c ix => Sys2Proof.Machine.execAbortPost c ix s
  | .carryTmo c => Sys2Proof.Machine.execCarryTmo c s
  | .newtAluOp c m => Sys2Proof.Machine.execNewtAluOp c m s
  | .newtLoad c m => Sys2Proof.Machine.execNewtLoad c m s
  | .newtStore c m => Sys2Proof.Machine.execNewtStore c m s
  | .csrAccess c m => Sys2Proof.Machine.execCsrAccess c m s
  | .fenceInsn c m => Sys2Proof.Machine.execFenceInsn c m s
  | .ecall c m => Sys2Proof.Machine.execEcall c m s
  | .ebreak c m => Sys2Proof.Machine.execEbreak c m s
  | .kvQmul c m => Sys2Proof.Machine.execKvQmul c m s
  | .kvSadd c m => Sys2Proof.Machine.execKvSadd c m s
  | .kvSsub c m => Sys2Proof.Machine.execKvSsub c m s
  | .kvClamp c m => Sys2Proof.Machine.execKvClamp c m s
  | .kvBexp c m => Sys2Proof.Machine.execKvBexp c m s
  | .kvDot4 c m => Sys2Proof.Machine.execKvDot4 c m s
  | .kvCrc c m => Sys2Proof.Machine.execKvCrc c m s
  | .kvCpy c m => Sys2Proof.Machine.execKvCpy c m s
  | .kvWaitt c m => Sys2Proof.Machine.execKvWaitt c m s
  | .kvEvt c m => Sys2Proof.Machine.execKvEvt c m s
  | .kvFenceSt c m => Sys2Proof.Machine.execKvFenceSt c m s
  | .waitTickReached c m => Sys2Proof.Machine.execWaitTickReached c m s
  | .nwKick c v => Sys2Proof.Machine.execNwKick c v s
  | .halt c m => Sys2Proof.Machine.execHalt c m s
  | .resume c m => Sys2Proof.Machine.execResume c m s
  | .newtReset c m => Sys2Proof.Machine.execNewtReset c m s
  | .newtResetDone c m => Sys2Proof.Machine.execNewtResetDone c m s
  | .nwStart c v => Sys2Proof.Machine.execNwStart c v s
  | .broadcast c v => Sys2Proof.Machine.execBroadcast c v s
  | .broadcastDone c => Sys2Proof.Machine.execBroadcastDone c s
  | .nwXdataWrite c v => Sys2Proof.Machine.execNwXdataWrite c v s
  | .mboxInSet c => Sys2Proof.Machine.execMboxInSet c s
  | .mboxInClear c => Sys2Proof.Machine.execMboxInClear c s
  | .mboxOutSet c => Sys2Proof.Machine.execMboxOutSet c s
  | .mboxOutClear c => Sys2Proof.Machine.execMboxOutClear c s
  | .frogDoneAck c => Sys2Proof.Machine.execFrogDoneAck c s
  | .cccInterrupt c => Sys2Proof.Machine.execCccInterrupt c s
  | .snoopRd c m => Sys2Proof.Machine.execSnoopRd c m s
  | .snoopRdx c m => Sys2Proof.Machine.execSnoopRdx c m s
  | .snoopUpg c m => Sys2Proof.Machine.execSnoopUpg c m s
  | .snoopWb c m => Sys2Proof.Machine.execSnoopWb c m s
  | .snoopInv c start len => Sys2Proof.Machine.execSnoopInv c start len s
  | .clScrub c => Sys2Proof.Machine.execClScrub c s
  | .arbGrant id cycles reqs withdrawn => Sys2Proof.Machine.execArbGrant id cycles reqs withdrawn s
  | .cpPost c e ag v => Sys2Proof.Machine.execCpPost c e ag v s
  | .copyRd c e => Sys2Proof.Machine.execCopyRd c e s
  | .copyWr c e => Sys2Proof.Machine.execCopyWr c e s
  | .copyXc c e => Sys2Proof.Machine.execCopyXc c e s
  | .copyWaitt c e => Sys2Proof.Machine.execCopyWaitt c e s
  | .waittReached c e => Sys2Proof.Machine.execWaittReached c e s
  | .cpKick c e ag v => Sys2Proof.Machine.execCpKick c e ag v s
  | .blockIssue c e => Sys2Proof.Machine.execBlockIssue c e s
  | .blockSettle c e ix => Sys2Proof.Machine.execBlockSettle c e ix s
  | .xcBlockArrive c ix => Sys2Proof.Machine.execXcBlockArrive c ix s
  | .ctxAssign q slot root l1n clusters => Sys2Proof.Machine.execCtxAssign q slot root l1n clusters s
  | .ctxStart q slot => Sys2Proof.Machine.execCtxStart q slot s
  | .ctxKill q slot => Sys2Proof.Machine.execCtxKill q slot s
  | .ctxKillDrain q slot => Sys2Proof.Machine.execCtxKillDrain q slot s
  | .drainComplete p slot => Sys2Proof.Machine.execDrainComplete p slot s
  | .ctxRelease q slot => Sys2Proof.Machine.execCtxRelease q slot s
  | .ctxReleaseDone p slot => Sys2Proof.Machine.execCtxReleaseDone p slot s
  | .invRange q slot allSlots allVa va len => Sys2Proof.Machine.execInvRange q slot allSlots allVa va len s
  | .invRangeAnswer p => Sys2Proof.Machine.execInvRangeAnswer p s
  | .tableWrite q off data => Sys2Proof.Machine.execTableWrite q off data s
  | .walkReadDone c e => Sys2Proof.Machine.execWalkReadDone c e s
  | .tlbPreload c v => Sys2Proof.Machine.execTlbPreload c v s
  | .killMessage c => Sys2Proof.Machine.execKillMessage c s
  | .blockSlot n => Sys2Proof.Machine.execBlockSlot n s
  | .throttle => Sys2Proof.Machine.execThrottle s
  | .throttleEnd ix => Sys2Proof.Machine.execThrottleEnd ix s
  | .hotRowClear => Sys2Proof.Machine.execHotRowClear s
  | .ceLeak n => Sys2Proof.Machine.execCeLeak n s
  | .refreshWindow n b => Sys2Proof.Machine.execRefreshWindow n b s
  | .retraining n ok => Sys2Proof.Machine.execRetraining n ok s
  | .patrolScrub n => Sys2Proof.Machine.execPatrolScrub n s
  | .powerDown n => Sys2Proof.Machine.execPowerDown n s
  | .powerDownExit n => Sys2Proof.Machine.execPowerDownExit n s
  | .channelControllerReset n => Sys2Proof.Machine.execChannelControllerReset n s
  | .channelControllerResetDone n => Sys2Proof.Machine.execChannelControllerResetDone n s
  | .extGrant q part base count => Sys2Proof.Machine.execExtGrant q part base count s
  | .extBind q base count lease => Sys2Proof.Machine.execExtBind q base count lease s
  | .extReturn q force part base count => Sys2Proof.Machine.execExtReturn q force part base count s
  | .extHold q base count => Sys2Proof.Machine.execExtHold q base count s
  | .extRelease q base count => Sys2Proof.Machine.execExtRelease q base count s
  | .isoSet q idx w0 w1 w2 w3 => Sys2Proof.Machine.execIsoSet q idx w0 w1 w2 w3 s
  | .isoClear q idx => Sys2Proof.Machine.execIsoClear q idx s
  | .commitTick => Sys2Proof.Machine.execCommitTick s
  | .isoCompare => Sys2Proof.Machine.execIsoCompare s
  | .revocationDone ix => Sys2Proof.Machine.execRevocationDone ix s
  | .leaseOpen q host len rint => Sys2Proof.Machine.execLeaseOpen q host len rint s
  | .leaseClose q lease => Sys2Proof.Machine.execLeaseClose q lease s
  | .leaseRenew src => Sys2Proof.Machine.execLeaseRenew src s
  | .leaseExpiry ix => Sys2Proof.Machine.execLeaseExpiry ix s
  | .leaseGraceEnd ix => Sys2Proof.Machine.execLeaseGraceEnd ix s
  | .reclaimDone ix => Sys2Proof.Machine.execReclaimDone ix s
  | .quarantineEnd x => Sys2Proof.Machine.execQuarantineEnd x s
  | .zeroingDone x => Sys2Proof.Machine.execZeroingDone x s
  | .linkBind q link valid host => Sys2Proof.Machine.execLinkBind q link valid host s
  | .rd port pkt => Sys2Proof.Machine.execRd port pkt s
  | .wr port pkt => Sys2Proof.Machine.execWr port pkt s
  | .rdc port pkt => Sys2Proof.Machine.execRdc port pkt s
  | .dirLookupDone src => Sys2Proof.Machine.execDirLookupDone src s
  | .recallAck port pkt => Sys2Proof.Machine.execRecallAck port pkt s
  | .recallTimeout ix => Sys2Proof.Machine.execRecallTimeout ix s
  | .recallResourcesObtained ix => Sys2Proof.Machine.execRecallResourcesObtained ix s
  | .dirSel v => Sys2Proof.Machine.execDirSel v s
  | .dirSelDone => Sys2Proof.Machine.execDirSelDone s
  | .pubCreate q base shadow count version => Sys2Proof.Machine.execPubCreate q base shadow count version s
  | .pubCreateReady r => Sys2Proof.Machine.execPubCreateReady r s
  | .pubDelete q region => Sys2Proof.Machine.execPubDelete q region s
  | .publish port pkt => Sys2Proof.Machine.execPublish port pkt s
  | .publishStart r => Sys2Proof.Machine.execPublishStart r s
  | .publishFlip r => Sys2Proof.Machine.execPublishFlip r s
  | .publishDrainEnd r => Sys2Proof.Machine.execPublishDrainEnd r s
  | .publishResyncEnd r => Sys2Proof.Machine.execPublishResyncEnd r s
  | .admitNext => Sys2Proof.Machine.execAdmit s
  | .svcDispatch ix => Sys2Proof.Machine.execSvcDispatch ix s
  | .promiseMiss ix => Sys2Proof.Machine.execPromiseMiss ix s
  | .responseSend ix => Sys2Proof.Machine.execResponseSend ix s
  | .codeword l cw => Sys2Proof.Machine.execCodeword l cw s
  | .sequencedFlit l f => Sys2Proof.Machine.execSequencedFlit l f s
  | .lctlCredit l f => Sys2Proof.Machine.execLctlCredit l f s
  | .lctlXstate l f => Sys2Proof.Machine.execLctlXstate l f s
  | .nullFlit l f => Sys2Proof.Machine.execNullFlit l f s
  | .timeExchange l t => Sys2Proof.Machine.execTimeExchange l t s
  | .initFlit l ix => Sys2Proof.Machine.execInitFlit l ix s
  | .holdFlit l f => Sys2Proof.Machine.execHoldFlit l f s
  | .flitTime l => Sys2Proof.Machine.execFlitTime l s
  | .replayTimer l => Sys2Proof.Machine.execReplayTimer l s
  | .replayStall l => Sys2Proof.Machine.execReplayStall l s
  | .creditAge l => Sys2Proof.Machine.execCreditAge l s
  | .trainingDone l full ok flight => Sys2Proof.Machine.execTrainingDone l full ok flight s
  | .lockTimeout l => Sys2Proof.Machine.execLockTimeout l s
  | .initTimeout l => Sys2Proof.Machine.execInitTimeout l s
  | .holdTimeout l => Sys2Proof.Machine.execHoldTimeout l s
  | .retrain l => Sys2Proof.Machine.execRetrain l s
  | .linkReset l => Sys2Proof.Machine.execLinkReset l s
  | .forward port vc pkt => Sys2Proof.Machine.execForward port vc pkt s
  | .rtRole v => Sys2Proof.Machine.execRtRole v s
  | .ftPeriodExpiry l => Sys2Proof.Machine.execFtPeriodExpiry l s
  | .time port pkt => Sys2Proof.Machine.execTime port pkt s
  | .planLoad port pkt => Sys2Proof.Machine.execPlanLoad port pkt s
  | .planCommit port pkt => Sys2Proof.Machine.execPlanCommit port pkt s
  | .planAbort port pkt => Sys2Proof.Machine.execPlanAbort port pkt s
  | .planTake => Sys2Proof.Machine.execPlanTake s
  | .wheelSlot port => Sys2Proof.Machine.execWheelSlot port s
  | .shpCfg eth v => Sys2Proof.Machine.execShpCfg eth v s
  | .gateCommit eth => Sys2Proof.Machine.execGateCommit eth s
  | .gateAbort eth => Sys2Proof.Machine.execGateAbort eth s
  | .gateTakeover eth list => Sys2Proof.Machine.execGateTakeover eth list s
  | .gateEntryChange eth list => Sys2Proof.Machine.execGateEntryChange eth list s
  | .frameReceive f => Sys2Proof.Machine.execFrameReceive f s
  | .brd q cls off len deadline => Sys2Proof.Machine.execBrd q cls off len deadline s
  | .bwr d => Sys2Proof.Machine.execBwr d s
  | .enStageTmo session seq => Sys2Proof.Machine.execEnStageTmo session seq s
  | .svcReq q entry data => Sys2Proof.Machine.execSvcReq q entry data s
  | .digestReady ix resp vers => Sys2Proof.Machine.execDigestReady ix resp vers s
  | .xhtTime q => Sys2Proof.Machine.execXhtTime q s
  | .mgmtRead src addr count => Sys2Proof.Machine.execMgmtRead src addr count s
  | .mgmtWrite src addr data => Sys2Proof.Machine.execMgmtWrite src addr data s
  | .nop q => Sys2Proof.Machine.execNop q s
  | .sessSet q ix ws => Sys2Proof.Machine.execSessSet q ix ws s
  | .sessClear q ix => Sys2Proof.Machine.execSessClear q ix s
  | .svcSet q ws => Sys2Proof.Machine.execSvcSet q ws s
  | .eventAck session seq => Sys2Proof.Machine.execEventAck session seq s
  | .auditAck session seq => Sys2Proof.Machine.execAuditAck session seq s
  | .enRtoExpiry session chan seq => Sys2Proof.Machine.execEnRtoExpiry session chan seq s
  | .discover f => Sys2Proof.Machine.execDiscover f s
  | .firmwareFrame f sync => Sys2Proof.Machine.execFirmwareFrame f sync s
  | .pfcFrame f => Sys2Proof.Machine.execPfcFrame f s
  | .portDown cause => Sys2Proof.Machine.execPortDown cause s
  | .portUp reduced => Sys2Proof.Machine.execPortUp reduced s
  | .vectorSealTimeout p v => Sys2Proof.Machine.execVectorSealTimeout p v s
  | .eventDeliver => Sys2Proof.Machine.execEventDeliver s
  | .ptVecDisable p v => Sys2Proof.Machine.execPtVecDisable p v s
  | .clusterReset c => Sys2Proof.Machine.execClusterReset c s
  | .clusterResetDone c => Sys2Proof.Machine.execClusterResetDone c s
  | .partitionReset p => Sys2Proof.Machine.execPartitionReset p s
  | .partitionResetDone p => Sys2Proof.Machine.execPartitionResetDone p s
  | .chipReset => Sys2Proof.Machine.execChipReset s
  | .glbReset v => Sys2Proof.Machine.execGlbReset v s
  | .fence u cause => Sys2Proof.Machine.execFence u cause s
  | .fenceContained u => Sys2Proof.Machine.execFenceContained u s
  | .supUnfence v => Sys2Proof.Machine.execSupUnfence v s
  | .reconcile => Sys2Proof.Machine.execReconcile s
  | .supFqPop => Sys2Proof.Machine.execSupFqPop s
  | .errInjectReport page bit => Sys2Proof.Machine.execErrInjectReport page bit s
  | .errInjectFlipOne page bit => Sys2Proof.Machine.execErrInjectFlipOne page bit s
  | .errInjectFlipTwo page bit => Sys2Proof.Machine.execErrInjectFlipTwo page bit s
  | .freeze page on => Sys2Proof.Machine.execFreeze page on s
  | .cvPost u => Sys2Proof.Machine.execCvPost u s
  | .cvStreamStart u => Sys2Proof.Machine.execCvStreamStart u s
  | .cvStreamEnd u => Sys2Proof.Machine.execCvStreamEnd u s
  | .cvReset u => Sys2Proof.Machine.execCvReset u s
  | .order m => Sys2Proof.Machine.execOrder m s
  | .orderAck m => Sys2Proof.Machine.execOrderAck m s
  | .note m k => Sys2Proof.Machine.execNote m k s
  | .renew m => Sys2Proof.Machine.execRenew m s
  | .renewAck m => Sys2Proof.Machine.execRenewAck m s
  | .renewPeriod => Sys2Proof.Machine.execRenewPeriod s
  | .out m => Sys2Proof.Machine.execOut m s
  | .digest m => Sys2Proof.Machine.execDigest m s
  | .relay m body => Sys2Proof.Machine.execRelay m body s
  | .repair m => Sys2Proof.Machine.execRepair m s
  | .handover m => Sys2Proof.Machine.execHandover m s
  | .resync m snap => Sys2Proof.Machine.execResync m snap s
  | .holderFreeze => Sys2Proof.Machine.execHolderFreeze s
  | .crownClaim => Sys2Proof.Machine.execCrownClaim s
  | .soloWaitExpiry => Sys2Proof.Machine.execSoloWaitExpiry s
  | .orphanTimeout ix => Sys2Proof.Machine.execOrphanTimeout ix s
  | .epochCompare => Sys2Proof.Machine.execEpochCompare s
  | .pairAlert => Sys2Proof.Machine.execPairAlert s
  | .alertStuck chain => Sys2Proof.Machine.execAlertStuck chain s
  | .pairRearm => Sys2Proof.Machine.execPairRearm s
  | .pairCmdResync same units => Sys2Proof.Machine.execPairCmdResync same units s
  | .pairCmdSwitch => Sys2Proof.Machine.execPairCmdSwitch s
  | .pairCmdForce key => Sys2Proof.Machine.execPairCmdForce key s
  | .handoverBoundary => Sys2Proof.Machine.execHandoverBoundary s
  | .resyncCopyDone => Sys2Proof.Machine.execResyncCopyDone s
  | .joined n => Sys2Proof.Machine.execJoined n s
  | .vote a b c => Sys2Proof.Machine.execVote a b c s
  | .coreRejoin => Sys2Proof.Machine.execCoreRejoin s
  | .tmrSweep => Sys2Proof.Machine.execTmrSweep s
  | .powerGood => Sys2Proof.Machine.execPowerGood s
  | .stageS0 plls straps => Sys2Proof.Machine.execStageS0 plls straps s
  | .stageS1 => Sys2Proof.Machine.execStageS1 s
  | .stageS2 units links lanes blocks => Sys2Proof.Machine.execStageS2 units links lanes blocks s
  | .stageS3 trained => Sys2Proof.Machine.execStageS3 trained s
  | .stageS4 test => Sys2Proof.Machine.execStageS4 test s
  | .stageS5 => Sys2Proof.Machine.execStageS5 s
  | .stageS6 => Sys2Proof.Machine.execStageS6 s
  | .stageS7 => Sys2Proof.Machine.execStageS7 s
  | .stageS8 => Sys2Proof.Machine.execStageS8 s
  | .stageBoundExceeded => Sys2Proof.Machine.execStageBoundExceeded s
  | .quote => Sys2Proof.Machine.execQuote s
  | .quoteDone => Sys2Proof.Machine.execQuoteDone s
  | .modelHash p slot h => Sys2Proof.Machine.execModelHash p slot h s
  | .enum f => Sys2Proof.Machine.execEnum f s
  | .chainFrameForward f => Sys2Proof.Machine.execChainFrameForward f s
  | .continueHold f => Sys2Proof.Machine.execContinueHold f s
  | .chainReset f => Sys2Proof.Machine.execChainReset f s
  | .retire f => Sys2Proof.Machine.execRetire f s
  | .retireDrain => Sys2Proof.Machine.execRetireDrain s
  | .retired => Sys2Proof.Machine.execRetired s
  | .alertAck f => Sys2Proof.Machine.execAlertAck f s
  | .flashRead f => Sys2Proof.Machine.execFlashRead f s
  | .flashErase f => Sys2Proof.Machine.execFlashErase f s
  | .flashProgram f => Sys2Proof.Machine.execFlashProgram f s
  | .poll f => Sys2Proof.Machine.execPoll f s
  | .alertRepeat => Sys2Proof.Machine.execAlertRepeat s
  | .chRearm => Sys2Proof.Machine.execChRearm s
  | .chainAlertSample => Sys2Proof.Machine.execChainAlertSample s
  | .resetN lowUs => Sys2Proof.Machine.execResetN lowUs s
  | .pwrgoodFall => Sys2Proof.Machine.execPwrgoodFall s
  | .lossOfLock clk => Sys2Proof.Machine.execLossOfLock clk s
  | .railFault rail => Sys2Proof.Machine.execRailFault rail s
  | .twarn temp => Sys2Proof.Machine.execTwarn temp s
  | .thermalTrip => Sys2Proof.Machine.execThermalTrip s
  | .ueChip page bit => Sys2Proof.Machine.execUeChip page bit s
  | .registerWrite ag addr v => Sys2Proof.Machine.execRegisterWrite ag addr v s
  | .lanePllRelock g => Sys2Proof.Machine.execLanePllRelock g s
  | .stackHot n temp => Sys2Proof.Machine.execStackHot n temp s
  | .alertInputDeassert chain => Sys2Proof.Machine.execAlertInputDeassert chain s
  | .alertPulseEnd chain => Sys2Proof.Machine.execAlertPulseEnd chain s
  | .pairFormation same peer => Sys2Proof.Machine.execPairFormation same peer s

end Sys2Proof.Machine
end

