-- ==== Sys2Proof/Machine/Tick.lean ====
section
/-! DEFINITION. One tick of time, which the block takes when no command waits (log entry 6). -/

namespace Sys2Proof.Machine

/-- R95: in each tick a cluster's event queue passes one event on. -/
def Chip.evDrains (s : Chip) : Chip := forEach (s.cls.map (·.1)) (fun c s => s.evDrain c) s

/-- R300, R95, R339, R415: a tick of the local reference: time moves on by it and by its slew, event
queues pass an event on, frames whose queue has opened leave, a standby hands on what is due. -/
def Chip.tick (s : Chip) : Chip :=
  let s := s.tickTime.evDrains.tryEth
  if s.duo.tokens.isEmpty then s else s.catchUp

end Sys2Proof.Machine
end

