-- ==== Sys2Proof/Machine/Step.lean ====
section
/-! DEFINITION. One step of the block: the command at the front of the queue, or one tick of time when
none waits. -/

namespace Sys2Proof.Machine

/-- One step: the front command runs with the rest of the queue; with none, time passes (log entry
6). -/
def step (s : State) : Host.Outcome State Fault Refusal :=
  match s.pending with
  | [] => .next { s with sys := onChip Chip.tick s.sys }
  | c :: l => exec c { s with pending := l }

/-- The command a word spells, put at the front of the queue; none is spelt by bits (log entry 7). -/
def State.withFetchWord (s : State) (nbits w : Nat) : State :=
  match decodeTableWord nbits w with
  | some c => { s with pending := c :: s.pending }
  | none => s

end Sys2Proof.Machine
end

