-- ==== Sys2Proof/Safety.lean ====
section
/-! DEFINITION. What claims speak of: the canonical form of the memories, a run that never stops, the
frames of commands, and the conditions under which work is ready to run. -/

namespace Sys2Proof.Machine

/-- The memories are in canonical form: every map lists its keys rising and nothing that reads as an
unlisted key reads. -/
def Mem.wf (m : Mem) : Bool :=
  KMap.wf 0 m.store && KMap.wf .good m.storeMark && KMap.wf 0 m.sram && KMap.wf .good m.sramMark &&
  KMap.wf 0 m.pool && KMap.wf [] m.poolErr && KMap.wf 0 m.flash

/-- The block's memories are in canonical form. -/
def State.Inv (s : State) : Prop := s.sys.mem.wf = true

/-- A run of n steps from s that meets neither a fault nor a refusal. -/
def safeRun : Nat → State → Bool
  | 0, _ => true
  | n + 1, s => match step s with
    | .next t => safeRun n t
    | _ => false

/-! ## Frames -/

/-- z is y but for registers: of those only the ones listed may differ. -/
structure Sys.onlyRegs (y z : Sys) (l : List Nat) : Prop where
  rest : z = { y with chip := { y.chip with regs := z.chip.regs } }
  regs : ∀ a, a ∉ l → z.chip.reg a = y.chip.reg a

/-- z is y but for core m of cluster c. -/
structure Sys.onlyCore (y z : Sys) (c m : Nat) : Prop where
  rest : z = { y with chip := { y.chip with cls := z.chip.cls } }
  clusters : ∀ d, d ≠ c → z.chip.cl d = y.chip.cl d
  cluster : z.chip.cl c = { y.chip.cl c with cores := (z.chip.cl c).cores }
  cores : ∀ n, n ≠ m → z.chip.core c n = y.chip.core c n

/-- z is y but for core m of cluster c and the registers listed. -/
structure Sys.onlyCoreRegs (y z : Sys) (c m : Nat) (l : List Nat) : Prop where
  rest : z = { y with chip := { y.chip with cls := z.chip.cls, regs := z.chip.regs } }
  clusters : ∀ d, d ≠ c → z.chip.cl d = y.chip.cl d
  cluster : z.chip.cl c = { y.chip.cl c with cores := (z.chip.cl c).cores }
  cores : ∀ n, n ≠ m → z.chip.core c n = y.chip.core c n
  regs : ∀ a, a ∉ l → z.chip.reg a = y.chip.reg a

/-- z is y but for core m of cluster c, what the stores hold, and the injections that are armed. -/
structure Sys.onlyStore (y z : Sys) (c m : Nat) : Prop where
  rest : z = {
    mem := { y.mem with store := z.mem.store, storeMark := z.mem.storeMark }
    chip := { y.chip with cls := z.chip.cls, errs := { y.chip.errs with armed := z.chip.errs.armed } } }
  clusters : ∀ d, d ≠ c → z.chip.cl d = y.chip.cl d
  cluster : z.chip.cl c = { y.chip.cl c with cores := (z.chip.cl c).cores }
  cores : ∀ n, n ≠ m → z.chip.core c n = y.chip.core c n

/-- t is s but for link l and the registers listed. -/
structure Chip.onlyLink (s t : Chip) (l : Nat) (regs : List Nat) : Prop where
  rest : t = { s with links := t.links, regs := t.regs }
  others : ∀ k, k ≠ l → t.lk k = s.lk k
  regs : ∀ a, a ∉ regs → t.reg a = s.reg a

/-- Registers that neither an answer nor an event writes: the Ethernet pages are left out, and the
offsets at which a partition page counts or seals. -/
def quiet (a : Nat) : Prop :=
  (a < 0x1100000 ∨ (a % 16 ≠ 12 ∧ a % 0x4000 ≠ 0x58)) ∧ (a < 0xF60000 ∨ 0xF66000 ≤ a)

/-- t is s but for what an answer writes: what leaves or waits to leave, the windows, the ingress and the
egress cell under way of the Ethernet port, event records, and registers that are not quiet. -/
structure Chip.Told (s t : Chip) : Prop where
  rest : t = { s with
    out := t.out
    regs := t.regs
    own := t.own
    held := t.held
    shapers := t.shapers
    duo := t.duo
    eth := { s.eth with
      cmdWin := t.eth.cmdWin
      dataWin := t.eth.dataWin
      ingress := t.eth.ingress
      cell := t.eth.cell
      cellUsed := t.eth.cellUsed }
    parts := { s.parts with pend := t.parts.pend, sealed := t.parts.sealed } }
  regs : ∀ a, quiet a → t.reg a = s.reg a

/-- R347, R352: the command has been carried out: its entry records the outcome that its RESP tells. -/
def Chip.answeredIs (s : Chip) (q : CmdReq) (st : Status) (res : Nat) : Prop :=
  winEnt (s.winOf q.session q.chan) q.seq = some ⟨q.seq, true, st, res⟩

/-- R347: the command is recorded and its outcome pending. -/
def Chip.pendingIs (s : Chip) (q : CmdReq) : Prop :=
  winEnt (s.winOf q.session q.chan) q.seq = some ⟨q.seq, false, .ok, 0⟩

/-- R350, R351: a command is carried out: the chip acts by itself, no earlier command of the channel is
under way, the session is VALID, owns the channel, and no entry, fence or reset turns the command away;
only0 asks for a session of partition 0. -/
def Chip.takesCmd (s : Chip) (q : CmdReq) (only0 : Bool) : Prop :=
  s.mustWait q = false ∧ s.standsBy = false ∧ (s.turnedAway q only0).isNone = true

/-- R413: the chip takes the decisions that depend on a tick by itself and tells no standby. -/
def Chip.decidesAlone (s : Chip) : Prop := s.standsBy = false ∧ s.leads = false

/-- A command is carried out and answered with a status and a result: the chip is e but for what the
answer writes, and the memories are as before. -/
def Answers (i : Instr) (s : State) (e : Chip) (q : CmdReq) (st : Status) (res : Nat) : Prop :=
  ∃ z, exec i s = .next { s with sys := z } ∧ z.mem = s.sys.mem ∧ e.Told z.chip ∧ z.chip.answeredIs q st res

/-- A command takes effect and its answer is pending: the chip is e but for the record of the command. -/
def Pends (i : Instr) (s : State) (e : Chip) (q : CmdReq) : Prop :=
  ∃ z, exec i s = .next { s with sys := z } ∧ z.mem = s.sys.mem ∧ e.Told z.chip ∧ z.chip.pendingIs q

/-! ## Conditions -/

/-- Nothing stands between an agent and cluster c's store: no word of a store is in error, no injection
is armed, no core of the cluster holds a line. -/
structure Sys.Calm (y : Sys) (c : Nat) : Prop where
  marks : y.mem.storeMark = []
  armed : y.chip.errs.armed = []
  lines : ∀ m, (y.chip.core c m).lines = []

/-! ## A core at its next instruction -/

/-- The core executes (R98) and its next instruction is op, of the given bits and length; y' is the
block after the fetch, which may have corrected a word it read (R91). -/
def Sys.nextIs (y : Sys) (c m : Nat) (op : Rv) (bits len : Nat) (y' : Sys) : Prop :=
  (y.chip.core c m).runs = true ∧ y.fetch c m = (.ok op bits len, y')

/-- The core one instruction further, at pc `next`. -/
def Core.retired (x : Core) (next : Nat) : Core :=
  { x with pc := next % 2 ^ 32, instret := x.instret + 1 }

end Sys2Proof.Machine
end

