-- ==== Sys2Proof/Certificates/Slice0/Obligations.lean ====
section
/-! DEFINITION. The statements for the provers. -/

open Sys2Proof Sys2Proof.Machine

/-! ## Newts (chapter 04) -/

/-- R86: an arithmetic instruction writes its result to rd, a jump its return address, a branch
nothing; pc moves on to the next instruction, the target or the jump's sum with bit 0 cleared; nothing
but this core changes. MRET restores MIE from MPIE (R93). -/
def Obligations.NewtArithmetic : Prop :=
  ∀ (s : State) (c : ClusterNo) (m : CoreNo) (op : Rv) (bits len : Nat) (y : Sys),
    s.sys.nextIs c m op bits len y → (y.chip.core c m).haltReq = false →
    let x := y.chip.core c m
    let next := (s.sys.chip.core c m).pc + len
    let ends := fun (x' : Core) => ∃ z, exec (.newtAluOp c m) s = .next { s with sys := z } ∧
      y.onlyCore z c m ∧ z.chip.core c m = x'
    (∀ f rd a b, op = .alu f rd a b →
      ends ((x.put rd (aluRun f (x.get a) (x.get b))).retired next)) ∧
    (∀ f rd a imm, op = .alui f rd a imm →
      ends ((x.put rd (aluRun f (x.get a) (BitVec.ofNat 32 imm))).retired next)) ∧
    (∀ rd imm, op = .lui rd imm → ends ((x.put rd (BitVec.ofNat 32 imm)).retired next)) ∧
    (∀ rd imm, op = .auipc rd imm →
      ends ((x.put rd (BitVec.ofNat 32 (x.pc + imm))).retired next)) ∧
    (∀ rd imm, op = .jal rd imm →
      ends ((x.put rd (BitVec.ofNat 32 next)).retired (x.pc + imm))) ∧
    (∀ rd a imm, op = .jalr rd a imm →
      ends ((x.put rd (BitVec.ofNat 32 next)).retired (((x.get a).toNat + imm) / 2 * 2))) ∧
    (∀ f3 a b imm, op = .branch f3 a b imm →
      ends (x.retired (if taken f3 (x.get a) (x.get b) then x.pc + imm else next))) ∧
    (op = .mret → ends ({ x with mie := x.mpie, mpie := true }.retired x.mepc.toNat))

/-- R99: where a HALT waits for the instruction of a newt to retire, the newt is HALTED after it, with
the next pc in NW_PC and STOP = 1.

R99, R100: HALT stops a running newt that waits for no data with its pc in NW_PC; RESUME starts a
halted or trapped one at NW_PC[12:1] and clears its trap bit; newt reset starts from any state but OFF
and, when no dirty line is left, ends in OFF with every register at its reset value, in which it clears
the newt's fence. -/
def Obligations.NewtControl : Prop :=
  (
  ∀ (s : State) (c : ClusterNo) (m : CoreNo) (f : Alu) (rd a b bits len : Nat) (y : Sys),
    s.sys.nextIs c m (.alu f rd a b) bits len y → m.val < 128 → (y.chip.core c m).haltReq = true →
    ∃ z, exec (.newtAluOp c m) s = .next { s with sys := z } ∧
      y.onlyCoreRegs z c m [nwRec c m + 12, nwRec c m] ∧
      (z.chip.core c m).st = 1 ∧ (z.chip.core c m).haltReq = false ∧
      z.chip.reg (nwRec c m + 12) = BitVec.ofNat 32 ((s.sys.chip.core c m).pc + len) ∧
      z.chip.fld (nwRec c m) 15 13 = 1) ∧
  (
  ∀ (s : State) (c : ClusterNo) (m : NewtNo),
    let y := s.sys
    let x := y.chip.core c m
    x.absent = false →
    (x.flush = 0 → (x.st = 2 ∨ x.st = 3) → x.miss = none →
      ∃ z, exec (.halt c m) s = .next { s with sys := z } ∧
        y.onlyCoreRegs z c m [nwRec c m + 12, nwRec c m] ∧
        z.chip.core c m = { x with st := 1 } ∧
        z.chip.reg (nwRec c m + 12) = BitVec.ofNat 32 x.pc ∧ z.chip.fld (nwRec c m) 15 13 = 1) ∧
    (x.flush = 0 → (x.st = 1 ∨ x.st = 4) →
      ∃ z, exec (.resume c m) s = .next { s with sys := z } ∧
        y.onlyCoreRegs z c m [nwPg c + 0x54 + 4 * (m / 32)] ∧
        z.chip.core c m = { x with
          st := 2
          pc := (y.chip.reg (nwRec c m + 12)).toNat % 8192 / 2 * 2
          miss := none } ∧
        z.chip.flag (nwPg c + 0x54 + 4 * (m / 32)) (m % 32) = false) ∧
    (x.st ≠ 0 → x.flush ≠ 2 →
      ∃ z, exec (.newtReset c m) s = .next { s with sys := z } ∧ z.mem = y.mem ∧
        z.chip.core c m = { x with flush := 2, badDirty := false, haltReq := false } ∧
        z.chip.fld (nwRec c m) 15 13 = 5) ∧
    (x.flush = 2 → x.dirty = false → x.miss = none → x.badDirty = false →
      ∃ z, exec (.newtResetDone c m) s = .next { s with sys := z } ∧ z.mem = y.mem ∧
        z.chip.core c m = {} ∧ z.chip.fenced1 (.newt c m) = false ∧ z.chip.regs = y.chip.regs))

/-- R92: a CSR instruction returns the old value in rd and writes the new one, masked to the fields
the CSR has; an absent CSR, or a write of a read-only one, stops a newt as TRAPPED with cause 2 and its
instruction bits in NW_TVAL. -/
def Obligations.CsrAccess : Prop :=
  ∀ (s : State) (c : ClusterNo) (m : CoreNo) (f3 rd rs1 num bits len : Nat) (y : Sys),
    s.sys.nextIs c m (.csr f3 rd rs1 num) bits len y → (y.chip.core c m).haltReq = false →
    let x := y.chip.core c m
    let next := (s.sys.chip.core c m).pc + len
    let src := if 4 ≤ f3 then BitVec.ofNat 32 rs1 else x.get rs1
    (∀ old, y.chip.csrGet c m num = some old → csrNew f3 src rs1 old = none →
      ∃ z, exec (.csrAccess c m) s = .next { s with sys := z } ∧ y.onlyCore z c m ∧
        z.chip.core c m = ((y.chip.csrLatch num x).put rd old).retired next) ∧
    (∀ old w, y.chip.csrGet c m num = some old → csrNew f3 src rs1 old = some w → num < 0xC00 → num ≠ 0x301 →
      ∃ z, exec (.csrAccess c m) s = .next { s with sys := z } ∧ y.onlyCore z c m ∧
        z.chip.core c m = ((x.csrPut num w).put rd old).retired next) ∧
    (m.val < 128 → (y.chip.csrGet c m num = none ∨
        ∃ old w, y.chip.csrGet c m num = some old ∧ csrNew f3 src rs1 old = some w ∧ (0xC00 ≤ num ∨ num = 0x301)) →
      ∃ z, exec (.csrAccess c m) s = .next { s with sys := z } ∧
        y.onlyCoreRegs z c m [nwRec c m, nwRec c m + 4, nwRec c m + 8, nwPg c + 0x54 + 4 * (m / 32)] ∧
        z.chip.core c m = { x with st := 4, haltReq := false } ∧
        z.chip.fld (nwRec c m) 12 8 = 2 ∧ z.chip.reg (nwRec c m + 8) = BitVec.ofNat 32 bits)

/-- R97: ECALL stops a newt as TRAPPED with cause 8 and NW_TVAL 0, EBREAK with cause 3 and the pc in
NW_TVAL; NW_TPC holds the pc, the newt's bit in NW_TRAP_PEND is set, STOP = 2. The cluster control
core takes the exception in machine mode instead (R93). -/
def Obligations.CallAndBreak : Prop :=
  ∀ (s : State) (c : ClusterNo) (m : CoreNo) (bits len : Nat) (y : Sys),
    (∀ (op : Rv) (i : Instr) (cause : Nat) (tval : Nat),
      (op, i, cause, tval) = (.ecall, .ecall c m, 8, 0) ∨
      (op, i, cause, tval) = (.ebreak, .ebreak c m, 3, (y.chip.core c m).pc) →
      s.sys.nextIs c m op bits len y →
      (m.val < 128 →
        ∃ z, exec i s = .next { s with sys := z } ∧
          y.onlyCoreRegs z c m
            [nwRec c m, nwRec c m + 4, nwRec c m + 8, nwPg c + 0x54 + 4 * (m / 32)] ∧
          z.chip.core c m = { y.chip.core c m with st := 4, haltReq := false } ∧
          z.chip.fld (nwRec c m) 12 8 = cause ∧
          z.chip.reg (nwRec c m + 4) = BitVec.ofNat 32 (y.chip.core c m).pc ∧
          z.chip.reg (nwRec c m + 8) = BitVec.ofNat 32 tval ∧
          z.chip.fld (nwRec c m) 15 13 = 2 ∧
          z.chip.flag (nwPg c + 0x54 + 4 * (m / 32)) (m % 32) = true) ∧
      (m.val = 128 →
        ∃ z, exec i s = .next { s with sys := z } ∧ y.onlyCore z c m ∧
          z.chip.core c m = { y.chip.core c m with
            mepc := BitVec.ofNat 32 (y.chip.core c m).pc
            mcause := BitVec.ofNat 32 cause
            mtval := BitVec.ofNat 32 tval
            mpie := (y.chip.core c m).mie
            mie := false
            pc := (y.chip.core c m).mtvec.toNat / 4 * 4
            haltReq := false }))

/-- R95: kv.qmul, kv.sadd, kv.ssub and kv.clamp: the exact result, rounded for kv.qmul, clamped to s32
or to the two bounds; the SAT flag is set when the clamp struck and otherwise kept; nothing else of the
block changes.

R95: kv.bexp: the greater of rs2 and the least e for which rs1 >> e fits in W bits, W being 4, 8
or 16; kv.dot4: four s8 products added to the pair rd, rd + 1, rd even and not x0; kv.crc: the CRC of
kvcrc run on from rs1 over the bytes of rs2. Elsewhere each is an illegal instruction (R97, cause 2). -/
def Obligations.KvArithmetic : Prop :=
  (
  ∀ (s : State) (c : ClusterNo) (m : CoreNo) (rd a b d bits len : Nat) (y : Sys),
    (y.chip.core c m).haltReq = false →
    let x := y.chip.core c m
    let next := (s.sys.chip.core c m).pc + len
    let ends := fun (i : Instr) (r : Word × Bool) => ∃ z, exec i s = .next { s with sys := z } ∧
      y.onlyCore z c m ∧ z.chip.core c m = ((x.flagIf 0 r.2).put rd r.1).retired next
    let clip := fun (v : Int) => (if 2 ^ 31 ≤ v then (0x7FFFFFFF, true)
      else if v < -2 ^ 31 then (0x80000000, true) else (BitVec.ofInt 32 v, false) : Word × Bool)
    (s.sys.nextIs c m (.kv .qmul rd a b d) bits len y → ends (.kvQmul c m)
      (clip (rqRound ((x.get a).toInt * (x.get b).toInt) x.kvqsh x.kvrm))) ∧
    (s.sys.nextIs c m (.kv .sadd rd a b d) bits len y → ends (.kvSadd c m)
      (clip ((x.get a).toInt + (x.get b).toInt))) ∧
    (s.sys.nextIs c m (.kv .ssub rd a b d) bits len y → ends (.kvSsub c m)
      (clip ((x.get a).toInt - (x.get b).toInt))) ∧
    (s.sys.nextIs c m (.kv .clamp rd a b d) bits len y → ends (.kvClamp c m)
      (if (x.get a).toInt < (x.get b).toInt then (x.get b, true)
       else if (x.get d).toInt < (x.get a).toInt then (x.get d, true) else (x.get a, false)))) ∧
  (
  ∀ (s : State) (c : ClusterNo) (m : CoreNo) (rd a b d bits len : Nat) (y : Sys),
    (y.chip.core c m).haltReq = false →
    let x := y.chip.core c m
    let next := (s.sys.chip.core c m).pc + len
    let ends := fun (i : Instr) (x' : Core) => ∃ z, exec i s = .next { s with sys := z } ∧
      y.onlyCore z c m ∧ z.chip.core c m = x'
    let traps := fun (i : Instr) => m.val < 128 → ∃ z, exec i s = .next { s with sys := z } ∧
      z.chip.core c m = { x with st := 4, haltReq := false } ∧ z.chip.fld (nwRec c m) 12 8 = 2
    (s.sys.nextIs c m (.kv .bexp rd a b d) bits len y →
      ((x.kvbw = 4 ∨ x.kvbw = 8 ∨ x.kvbw = 16) → ends (.kvBexp c m)
        ((x.put rd (wOf (max (x.get b).toInt (needBits (x.get a).toInt x.kvbw 32)))).retired next)) ∧
      (¬(x.kvbw = 4 ∨ x.kvbw = 8 ∨ x.kvbw = 16) → traps (.kvBexp c m))) ∧
    (s.sys.nextIs c m (.kv .dot4 rd a b d) bits len y →
      (rd % 2 = 0 → rd ≠ 0 →
        let r := dot4 (signed 64 ((x.get rd).toNat + 2 ^ 32 * (x.get (rd + 1)).toNat)) (x.get a) (x.get b)
        ends (.kvDot4 c m)
          ((((x.flagIf 0 r.2).put (rd + 1) (BitVec.ofNat 32 (unsigned 64 r.1 / 2 ^ 32))).put rd
            (BitVec.ofNat 32 (unsigned 64 r.1))).retired next)) ∧
      ((rd = 0 ∨ rd % 2 = 1) → traps (.kvDot4 c m))) ∧
    (s.sys.nextIs c m (.kv .crc rd a b d) bits len y →
      (x.kvcrc % 4 ≠ 3 → x.kvcrc / 8 % 4 ≠ 3 → ends (.kvCrc c m)
        ((x.put rd (kvCrcRun x.kvcrc (x.get a) (x.get b))).retired next)) ∧
      (x.kvcrc % 4 = 3 ∨ x.kvcrc / 8 % 4 = 3 → traps (.kvCrc c m))))

/-- R95: kv.cpy is rejected with rd = 0 and its flag unless posting is enabled, the offset is a multiple
of 32 within the store and the engine has room; R101: kv.waitt with a tick that the cluster tick copy has passed returns 2 at
once, otherwise the newt waits; R95: kv.evt to a disabled or impossible vector returns 0 with its
flag. -/
def Obligations.KvPostAndWait : Prop :=
  ∀ (s : State) (c : ClusterNo) (m : CoreNo) (rd a b d bits len : Nat) (y : Sys),
    (y.chip.core c m).haltReq = false →
    let x := y.chip.core c m
    let next := (s.sys.chip.core c m).pc + len
    let off := (x.get a).toNat
    let e := (x.get b).toNat
    let t := (x.get a).toNat + 2 ^ 32 * (x.get b).toNat
    let can := y.chip.flag (nwPg c + 0x40) 0 = true ∧ e < 2 ∧ off % 32 = 0 ∧ off < 0x200000 ∧
      (y.chip.eng c e).queue.length < 16
    (s.sys.nextIs c m (.kv .cpy rd a b d) bits len y →
      (can → y.chip.isFenced (.copy c e) = false →
        ∃ z, exec (.kvCpy c m) s = .next { s with sys := z } ∧ z.mem = y.mem ∧
          (z.chip.eng c e).queue = (y.chip.eng c e).queue ++ [off] ∧
          z.chip.core c m = (x.put rd 1).retired next) ∧
      (¬can → ∃ z, exec (.kvCpy c m) s = .next { s with sys := z } ∧ y.onlyCore z c m ∧
        z.chip.core c m = ((x.flagIf 1 true).put rd 0).retired next)) ∧
    (s.sys.nextIs c m (.kv .waitt rd a b d) bits len y →
      (t ≤ y.chip.tickCopy → ∃ z, exec (.kvWaitt c m) s = .next { s with sys := z } ∧ y.onlyCore z c m ∧
        z.chip.core c m = (x.put rd 2).retired next) ∧
      (y.chip.tickCopy < t → ∃ z, exec (.kvWaitt c m) s = .next { s with sys := z } ∧ y.onlyCore z c m ∧
        z.chip.core c m = { x with st := 3, target := t, wrd := rd, wlen := next - x.pc })) ∧
    (s.sys.nextIs c m (.kv .evt rd a b d) bits len y →
      (y.chip.flag (nwPg c + 0x40) 1 = true → off < 256 → (y.chip.cl c).evq.length < 16 →
        ∃ z, exec (.kvEvt c m) s = .next { s with sys := z } ∧ z.mem = y.mem ∧
          z.chip.core c m = (x.put rd 1).retired next) ∧
      (y.chip.flag (nwPg c + 0x40) 1 = false ∨ (256 ≤ off ∧ (y.chip.cl c).evq.length < 16) →
        ∃ z, exec (.kvEvt c m) s = .next { s with sys := z } ∧ y.onlyCore z c m ∧
          z.chip.core c m = ((x.flagIf 2 true).put rd 0).retired next))

/-- R96: kv.fence.st, and FENCE as well (R85), writes every dirty line of the core back into the store,
where the line stays valid and clean, and then goes on to the next instruction; every other byte of the
store, the core's registers, the other cores and the block's registers stay as they are. The lines are
those a cache can hold: whole, and one for an offset.

R101: a newt in WAIT_TICK whose target the cluster tick copy has reached goes on with rd = 0; NW_KICK
ends the wait of the newt it names, or of every newt with ALL, with rd = 1 where its target is still
ahead, and with rd = 0 where the copy has reached it; a newt that does not wait stays as it is. -/
def Obligations.FenceAndWaits : Prop :=
  (
  ∀ (s : State) (c : ClusterNo) (m : CoreNo) (op : Rv) (i : Instr) (bits len : Nat) (y : Sys),
    (op, i) = (.fence, .fenceInsn c m) ∨
      (∃ rd a b d, (op, i) = (.kv .fencest rd a b d, .kvFenceSt c m)) →
    s.sys.nextIs c m op bits len y → (y.chip.core c m).haltReq = false →
    let x := y.chip.core c m
    KMap.wf none x.lines = true → y.chip.stFrozen c = false →
    (∀ k l, (k, some l) ∈ x.lines → l.off % 64 = 0 ∧ l.data.length = 64) →
    (∀ k l k' l', (k, some l) ∈ x.lines → (k', some l') ∈ x.lines → l.off = l'.off → k = k') →
    ∃ z, exec i s = .next { s with sys := z } ∧ y.onlyStore z c m ∧
      (∀ k l, (k, some l) ∈ x.lines → l.st = 3 →
        KMap.bytes z.mem.store (stKey c l.off) 64 = l.data ∧
        KMap.at (z.chip.core c m).lines none k = some { l with st := 2 }) ∧
      (∀ a, (∀ k l, (k, some l) ∈ x.lines → l.st = 3 → a < stKey c l.off ∨ stKey c l.off + 64 ≤ a) →
        KMap.at z.mem.store 0 a = KMap.at y.mem.store 0 a) ∧
      z.chip.core c m = { x.retired ((s.sys.chip.core c m).pc + len) with lines := (z.chip.core c m).lines } ∧
      (z.chip.core c m).dirty = false) ∧
  (
  ∀ (s : State) (c : ClusterNo),
    let y := s.sys
    (∀ m : CoreNo, (y.chip.core c m).st = 3 → (y.chip.core c m).flush = 0 →
      (y.chip.core c m).haltReq = false → (y.chip.core c m).target ≤ y.chip.tickCopy →
      let x := y.chip.core c m
      ∃ z, exec (.waitTickReached c m) s = .next { s with sys := z } ∧ y.onlyCore z c m ∧
        z.chip.core c m = (({ x with st := 2 } : Core).put x.wrd 0).retired (x.pc + x.wlen)) ∧
    (∀ (v : Word) (m : NewtNo), Word.bit v 31 = false → Word.bits v 6 0 = m.val →
      (y.chip.core c m).st = 3 → (y.chip.core c m).flush = 0 →
      (y.chip.core c m).haltReq = false →
      let x := y.chip.core c m
      let w : Word := if x.target ≤ y.chip.tickCopy then 0 else 1
      ∃ z, exec (.nwKick c v) s = .next { s with sys := z } ∧ y.onlyCore z c m ∧
        z.chip.core c m = (({ x with st := 2 } : Core).put x.wrd w).retired (x.pc + x.wlen)) ∧
    (∀ v : Word, Word.bit v 31 = true →
      ∃ z, exec (.nwKick c v) s = .next { s with sys := z } ∧ z.mem = y.mem ∧
        (∀ d, d ≠ c → z.chip.cl d = y.chip.cl d) ∧ z.chip.core c 128 = y.chip.core c 128 ∧
        ∀ m : NewtNo,
          let x := y.chip.core c m
          let w : Word := if x.target ≤ y.chip.tickCopy then 0 else 1
          (x.st = 3 → x.flush = 0 → x.haltReq = false →
            z.chip.core c m = (({ x with st := 2 } : Core).put x.wrd w).retired (x.pc + x.wlen)) ∧
          (x.st ≠ 3 ∨ x.flush ≠ 0 → z.chip.core c m = x)))

/-- R106: NW_START with bit 0 clear starts every masked newt in HALTED at the PC given and no other; a
broadcast whose fields and newts allow it sets GO and BUSY for its present masked newts, and when it is
done clears BUSY with every loaded newt HALTED; R109: NW_XDATA sets the register selected of a stopped
newt. -/
def Obligations.NewtStart : Prop :=
  ∀ (s : State) (c : ClusterNo),
    let y := s.sys
    (∀ v : Word, Word.bit v 0 = false →
      ∃ z, exec (.nwStart c v) s = .next { s with sys := z } ∧
        z = { y with chip := { y.chip with cls := z.chip.cls } } ∧
        ∀ m : NewtNo, z.chip.core c m =
          let x := y.chip.core c m
          if y.chip.masked c m = true ∧ x.st = 1 ∧ x.flush = 0 ∧ x.absent = false
          then { x with st := 2, pc := Word.bits v 12 0, miss := none } else x) ∧
    (∀ v : Word, Word.bit v 0 = true → Word.bit v 3 = false → y.chip.flag (nwPg c + 0x8C) 2 = false →
      y.chip.bcOk c = true →
      (∀ m : NewtNo, y.chip.masked c m = true →
        (y.chip.core c m).st < 2 ∨ 4 < (y.chip.core c m).st) →
      ∃ z, exec (.broadcast c v) s = .next { s with sys := z } ∧ z.mem = y.mem ∧
        z.chip.flag (nwPg c + 0x8C) 0 = true ∧ z.chip.flag (nwPg c + 0x8C) 2 = true ∧
        z.chip.flag (nwPg c + 0x8C) 1 = Word.bit v 1 ∧
        ∀ m : NewtNo, m.val ∈ (z.chip.cl c).bcast ↔ y.chip.masked c m = true ∧
          (y.chip.core c m).absent = false ∧ (y.chip.core c m).st ≠ 5) ∧
    (y.chip.flag (nwPg c + 0x8C) 2 = true → y.chip.stFrozen c = false → y.mem.storeMark = [] →
      ∃ z, exec (.broadcastDone c) s = .next { s with sys := z } ∧
        z.chip.flag (nwPg c + 0x8C) 2 = false ∧ (z.chip.cl c).bcast = [] ∧
        z.mem.store = y.mem.store ∧
        ∀ m, m ∈ (y.chip.cl c).bcast → m < 128 → (y.chip.core c m).st < 2 →
          (z.chip.core c m).st = 1 ∧ (z.chip.core c m).x = []) ∧
    (∀ (v : Word) (m n : Nat), y.chip.fld (nwPg c + 0x90) 14 8 = m →
      y.chip.fld (nwPg c + 0x90) 4 0 = n →
      (y.chip.core c m).isOpen = true → (y.chip.core c m).absent = false →
      ∃ z, exec (.nwXdataWrite c v) s = .next { s with sys := z } ∧ y.onlyCore z c m ∧
        z.chip.core c m = (y.chip.core c m).put n v)

/-- R107, R108: the mailbox and completion flags are set and cleared, one bit each, and nothing else
changes.

R93, R108: the cluster control core, executing with MIE set and with one interrupt pending and
enabled, takes it: mepc holds the pc, mcause the interrupt's number with bit 31, MPIE keeps MIE, MIE is
cleared, the pc is mtvec. -/
def Obligations.ControlCore : Prop :=
  (
  ∀ (s : State) (c : ClusterNo) (i : Instr) (a n : Nat) (b : Bool),
    (i, a, n, b) ∈ [(.mboxInSet c, nwPg c + 0x100, 0, true), (.mboxInClear c, nwPg c + 0x100, 0, false),
      (.mboxOutSet c, nwPg c + 0x100, 1, true), (.mboxOutClear c, nwPg c + 0x100, 1, false),
      (.frogDoneAck c, nwPg c + 0x98, 0, false)] →
    ∃ z, exec i s = .next { s with sys := z } ∧ s.sys.onlyRegs z [a] ∧ z.chip.flag a n = b ∧
      ∀ k, k < 32 → k ≠ n → z.chip.flag a k = s.sys.chip.flag a k) ∧
  (
  ∀ (s : State) (c : ClusterNo) (k : Nat),
    let y := s.sys
    let x := y.chip.core c 128
    x.runs = true → x.mie = true →
    (List.range 6).filter (fun i => Word.bit (y.chip.mip c &&& x.mieReg) (16 + i)) = [k] →
    ∃ z, exec (.cccInterrupt c) s = .next { s with sys := z } ∧ y.onlyCore z c 128 ∧
      z.chip.core c 128 = { x with
        mepc := BitVec.ofNat 32 x.pc
        mcause := BitVec.ofNat 32 (2 ^ 31 + 16 + k)
        mtval := 0
        mpie := true
        mie := false
        pc := x.mtvec.toNat / 4 * 4
        haltReq := false })

/-! ## Cluster store and arbiters (chapters 04, 05, 13) -/

/-- R88, R116: a load writes its sign- or zero-extended bytes to rd: from a good word of the SRAMs, or
from a line its cache holds; without the line it becomes an RD; a misaligned address is cause 4 with the
address in NW_TVAL (R97). -/
def Obligations.NewtLoad : Prop :=
  ∀ (s : State) (c : ClusterNo) (m : CoreNo) (f3 rd rs1 imm bits len : Nat) (y : Sys),
    s.sys.nextIs c m (.load f3 rd rs1 imm) bits len y → (y.chip.core c m).haltReq = false →
    let x := y.chip.core c m
    let next := (s.sys.chip.core c m).pc + len
    let addr := ((x.get rs1).toNat + imm) % 2 ^ 32
    let n := accSize f3
    (∀ a, addr % n = 0 → (placeOf addr = .isram a ∨ placeOf addr = .dsram (a - 8192) ∧ 8192 ≤ a) →
      KMap.at y.mem.sramMark .good (sramKey c m (a / 4 * 4) / 4) = .good → a % 4 + n ≤ 4 →
      ∃ z, exec (.newtLoad c m) s = .next { s with sys := z } ∧ y.onlyCore z c m ∧
        z.chip.core c m = (x.put rd (loadValue f3
          (((KMap.bytes y.mem.sram (sramKey c m (a / 4 * 4)) 4).drop (a % 4)).take n))).retired next) ∧
    (∀ a k l, addr % n = 0 → placeOf addr = .store a → x.line (a / 64 * 64) = some (k, l) →
      l.badAt a = false →
      ∃ z, exec (.newtLoad c m) s = .next { s with sys := z } ∧ y.onlyCore z c m ∧
        z.chip.core c m = ((x.useLine k l).put rd (loadValue f3 ((l.data.drop (a % 64)).take n))).retired next) ∧
    (∀ a, addr % n = 0 → placeOf addr = .store a → x.line (a / 64 * 64) = none →
      ∃ z, exec (.newtLoad c m) s = .next { s with sys := z } ∧ y.onlyCore z c m ∧
        z.chip.core c m = { x with miss := some ⟨0, a, f3, rd, 0, next - x.pc⟩ }) ∧
    (m.val < 128 → addr % n ≠ 0 →
      ∃ z, exec (.newtLoad c m) s = .next { s with sys := z } ∧
        z.chip.core c m = { x with st := 4, haltReq := false } ∧
        z.chip.fld (nwRec c m) 12 8 = 4 ∧ z.chip.reg (nwRec c m + 8) = BitVec.ofNat 32 addr)

/-- R88, R116: a store writes its bytes: into the data SRAM, with no other byte of it changed;
into an E or M line, which is M then; on an S line it becomes an UPG, without the line an RDX; a
misaligned address is cause 6 (R97). -/
def Obligations.NewtStore : Prop :=
  ∀ (s : State) (c : ClusterNo) (m : CoreNo) (f3 rs1 rs2 imm bits len : Nat) (y : Sys),
    s.sys.nextIs c m (.store f3 rs1 rs2 imm) bits len y → (y.chip.core c m).haltReq = false →
    let x := y.chip.core c m
    let next := (s.sys.chip.core c m).pc + len
    let addr := ((x.get rs1).toNat + imm) % 2 ^ 32
    let w := x.get rs2
    let n := accSize f3
    (∀ a, addr % n = 0 → placeOf addr = .dsram a → a % 4 + n ≤ 4 →
      let k := sramKey c m ((8192 + a) / 4 * 4)
      n = 4 ∨ KMap.at y.mem.sramMark .good (k / 4) = .good →
      ∃ z, exec (.newtStore c m) s = .next { s with sys := z } ∧
        z.chip.core c m = x.retired next ∧ z.mem.store = y.mem.store ∧
        KMap.bytes z.mem.sram k 4 = splice (KMap.bytes y.mem.sram k 4) (a % 4) (leBytes n w.toNat) ∧
        ∀ i, i < k ∨ k + 4 ≤ i → KMap.at z.mem.sram 0 i = KMap.at y.mem.sram 0 i) ∧
    (∀ a k l, addr % n = 0 → placeOf addr = .store a → x.line (a / 64 * 64) = some (k, l) →
      ((l.st ≠ 1 →
        ∃ z, exec (.newtStore c m) s = .next { s with sys := z } ∧ y.onlyCore z c m ∧
          z.chip.core c m = (x.useLine k (l.stored a (leBytes n w.toNat))).retired next ∧
          (l.stored a (leBytes n w.toNat)).st = 3) ∧
       (l.st = 1 →
        ∃ z, exec (.newtStore c m) s = .next { s with sys := z } ∧ y.onlyCore z c m ∧
          z.chip.core c m = { x with miss := some ⟨2, a, f3, 0, w.toNat, next - x.pc⟩ }))) ∧
    (∀ a, addr % n = 0 → placeOf addr = .store a → x.line (a / 64 * 64) = none →
      ∃ z, exec (.newtStore c m) s = .next { s with sys := z } ∧ y.onlyCore z c m ∧
        z.chip.core c m = { x with miss := some ⟨1, a, f3, 0, w.toNat, next - x.pc⟩ }) ∧
    (m.val < 128 → addr % n ≠ 0 →
      ∃ z, exec (.newtStore c m) s = .next { s with sys := z } ∧
        z.chip.core c m = { x with st := 4, haltReq := false } ∧
        z.chip.fld (nwRec c m) 12 8 = 6 ∧ z.chip.reg (nwRec c m + 8) = BitVec.ofNat 32 addr)

/-- R117: an RD that no other core's line meets brings the line in state E, with the store's bytes, and
the load goes on; an RDX or an UPG leaves no other core's copy valid and its store completes in a line of
state M; a write-back puts a good line's 64 bytes into the store and its line out of the cache. -/
def Obligations.SnoopTransactions : Prop :=
  ∀ (s : State) (c : ClusterNo) (m : CoreNo),
    let y := s.sys
    let x := y.chip.core c m
    y.chip.stFrozen c = false → y.mem.storeMark = [] →
    (∀ ms k, x.waits = true → x.haltReq = false → x.miss = some ms → x.missWay (ms.addr / 64 * 64) = some k →
      let line := ms.addr / 64 * 64
      (ms.kind = 0 → y.chip.holders c line m = [] →
        ∃ z, exec (.snoopRd c m) s = .next { s with sys := z } ∧ z.mem = y.mem ∧
          (z.chip.core c m).miss = none ∧ (z.chip.core c m).pc = (x.pc + ms.len) % 2 ^ 32 ∧
          ∃ l, KMap.at (z.chip.core c m).lines none k = some l ∧ l.off = line ∧ l.st = 2 ∧
            l.data = KMap.bytes y.mem.store (stKey c line) 64) ∧
      (ms.kind = 1 →
        ∃ z, exec (.snoopRdx c m) s = .next { s with sys := z } ∧ z.mem = y.mem ∧
          (z.chip.core c m).miss = none ∧
          (∀ h, h ∈ y.chip.holders c line m → KMap.at (z.chip.core c h.1).lines none h.2.1 = none) ∧
          ∃ l, KMap.at (z.chip.core c m).lines none k = some l ∧ l.st = 3) ∧
      (ms.kind = 2 → (x.line line).isSome = true →
        ∃ z, exec (.snoopUpg c m) s = .next { s with sys := z } ∧ z.mem = y.mem ∧
          (z.chip.core c m).miss = none ∧
          (∀ h, h ∈ y.chip.holders c line m → KMap.at (z.chip.core c h.1).lines none h.2.1 = none) ∧
          ∃ l, KMap.at (z.chip.core c m).lines none k = some l ∧ l.st = 3)) ∧
    (∀ k l, x.wbNext = some (k, l) → l.bad = [] → l.data.length = 64 →
      ∃ z, exec (.snoopWb c m) s = .next { s with sys := z } ∧
        KMap.at (z.chip.core c m).lines none k = none ∧
        KMap.bytes z.mem.store (stKey c l.off) 64 = l.data ∧
        ∀ i, i < stKey c l.off ∨ stKey c l.off + 64 ≤ i → KMap.at z.mem.store 0 i = KMap.at y.mem.store 0 i)

/-- R119: after an INV of an agent, any of the four, no core of the cluster holds a line that the range touches.

R114: a due scrub of a granule without errors only moves on to the next, of 262,144; of one with a
single flipped bit it corrects the word; a word it cannot correct becomes the poison codeword (R112).
FREEZE does not stop it (R321). -/
def Obligations.StoreUpkeep : Prop :=
  (
  ∀ (s : State) (c : ClusterNo) (ag : Fin 4) (off len : Nat),
    off + len ≤ 0x200000 → len ≠ 0 → s.sys.chip.stFrozen c = false →
    ∃ z, exec (.snoopInv c ⟨ag, off⟩ len) s = .next { s with sys := z } ∧
      ∀ m k l, (k, some l) ∈ (s.sys.chip.core c m).lines →
        l.off < off + len → off < l.off + 64 → KMap.at (z.chip.core c m).lines none k = none) ∧
  (
  ∀ (s : State) (c : ClusterNo),
    let y := s.sys
    let n := y.chip.fld (stPg c + 0x50) 23 0
    let p := (y.chip.cl c).scrub
    n ≠ 0 → (y.chip.cl c).scrubAt + n ≤ y.chip.ref →
    (y.mem.stMarks (stKey c (8 * p) / 4) 2 = [] →
      ∃ z, exec (.clScrub c) s = .next { s with sys := z } ∧ z.mem = y.mem ∧
        (z.chip.cl c).scrub = (p + 1) % 262144 ∧ (z.chip.cl c).scrubAt = y.chip.ref ∧
        ∀ a, z.chip.reg a = y.chip.reg a) ∧
    (∀ k, y.mem.stMarks (stKey c (8 * p) / 4) 2 = [(k, .one)] →
      ∃ z, exec (.clScrub c) s = .next { s with sys := z } ∧ z.mem.store = y.mem.store ∧
        KMap.at z.mem.storeMark .good k = .good ∧ (z.chip.cl c).scrub = (p + 1) % 262144) ∧
    (∀ k v, y.mem.stMarks (stKey c (8 * p) / 4) 2 = [(k, v)] → v.dead = true →
      ∃ z, exec (.clScrub c) s = .next { s with sys := z } ∧ z.mem.store = y.mem.store ∧
        KMap.at z.mem.storeMark .good k = .poison ∧ (z.chip.cl c).scrub = (p + 1) % 262144))

/-- R317: an idle arbiter grants the only request it is given, at any of its placements, unless it is
frozen; grant number g then is g + 1 and the others' requests stay parked. R322's example decides by
priority, and every Nth grant by the longest wait. -/
def Obligations.ArbiterGrants : Prop :=
  (∀ (s : State) (id : ArbId) (cycles k : Nat) (r : ArbReq),
    arbKey id = some k → s.sys.chip.arbFrozen id = false → arbHas id r.who = true →
    (s.sys.chip.arb id k).holder = none → (s.sys.chip.arb id k).parked = [] →
    ∃ z, exec (.arbGrant id cycles [r] []) s = .next { s with sys := z } ∧ z.mem = s.sys.mem ∧
      (∀ e, (z.chip.arb id k).holder = some e → e.who = r.who) ∧
      (z.chip.arb id k).holder.isSome = true ∧
      (z.chip.arb id k).g = (s.sys.chip.arb id k).g + 1 ∧ (z.chip.arb id k).parked = []) ∧
  (∀ (g n : Nat) (l : List ArbReq) (r : ArbReq), arbPick g n l = some r →
    r ∈ l ∧ (g % n ≠ 0 → ∀ q, q ∈ l → q.prio ≤ r.prio) ∧
    (g % n = 0 → ∀ q, q ∈ l → r.since ≤ q.since))

/-! ## The frog (chapter 03) -/

/-- R59: a post by an agent that may post puts the descriptor's words at the end of the frog's queue;
one to a misaligned offset or a full queue, or by a newt without NEWT_POST, queues nothing.

R79 to R83: a total fills the empty entry of the carry table armed for its scan; a carry or relay
that no scan waits for is kept in the empty carry-in buffer; an abort for the scan that waits ends it with
the abort's status, and a wait of more than FG_CARRY_TMO and 1,000 cycles ends it FENCED, each with a
completion word. -/
def Obligations.FrogQueue : Prop :=
  (
  ∀ (s : State) (c : ClusterNo) (ag : Agent) (v : Word),
    let y := s.sys
    let f := y.chip.frog c
    let a := Word.bits v 20 0
    let may := ∀ m, ag = .newt m → y.chip.flag (fgPg c + 0x40) 0 = true
    (may → y.chip.isFenced (.frog c) = false → a % 64 = 0 → f.taken < 32 → y.mem.storeMark = [] →
      ∃ z, exec (.fgPost c ag v) s = .next { s with sys := z } ∧ z.mem = y.mem ∧
        (z.chip.frog c).queue = f.queue ++ [(f.serial, wordsOf (KMap.bytes y.mem.store (stKey c a) 64))] ∧
        (∀ m, z.chip.core c m = y.chip.core c m) ∧ z.chip.regs = y.chip.regs) ∧
    (may → y.chip.isFenced (.frog c) = false → a % 64 ≠ 0 ∨ 32 ≤ f.taken →
      ∃ z, exec (.fgPost c ag v) s = .next { s with sys := z } ∧ z.mem = y.mem ∧
        z.chip.cls = y.chip.cls ∧ z.chip.flag (errStat (fgPg c)) 0 = true) ∧
    (¬may → exec (.fgPost c ag v) s = .next s)) ∧
  (
  ∀ (s : State) (c : ClusterNo),
    let y := s.sys
    let f := y.chip.frog c
    y.chip.stFrozen c = false →
    (∀ i p, y.chip.postAt c i (fun p => !isAbort p) = some p → y.chip.postForeign c p = false →
      y.chip.isFenced (.frog c) = false →
      (∀ n, p.kind = .total → f.armed = some (n, p.scan) → KMap.at f.table none p.chunk = none →
        ∃ z, exec (.carryPost c i) s = .next { s with sys := z } ∧ z.mem = y.mem ∧
          KMap.at (z.chip.frog c).table none p.chunk =
            some ⟨(p.vals.headD (0, false)).1, (p.vals.headD (0, false)).2, p.src⟩) ∧
      (p.kind ≠ .total → f.buf = none → f.wait = none →
        ∃ z, exec (.carryPost c i) s = .next { s with sys := z } ∧ z.mem = y.mem ∧
          (z.chip.frog c).buf = some p ∧ z.chip.posts = y.chip.posts.erase p ∧
          z.chip.regs = y.chip.regs)) ∧
    (∀ i p st w, y.chip.postAt c i isAbort = some p → p.kind = .abort st → f.wait = some w →
      y.chip.postForeign c p = false → p.scan = sId w.desc → scanChunks w.desc ≠ 1 → y.Calm c →
      ptr w.desc 12 % 4 = 0 →
      ∃ z, exec (.abortPost c i) s = .next { s with sys := z } ∧ (z.chip.frog c).wait = none ∧
        KMap.bytes z.mem.store (stKey c (ptr w.desc 12)) 16 = f.failBytes w.desc st w.count) ∧
    (∀ w, f.wait = some w → w.since + max (y.chip.reg (fgPg c + 0x5C)).toNat 1000 < y.chip.ref →
      y.Calm c → ptr w.desc 12 % 4 = 0 →
      ∃ z, exec (.carryTmo c) s = .next { s with sys := z } ∧ (z.chip.frog c).wait = none ∧
        KMap.bytes z.mem.store (stKey c (ptr w.desc 12)) 16 = f.failBytes w.desc .fenced w.count))

/-- R60, R66, R67: TILE, LOAD and SCAN each start a descriptor of their OPC at the queue head; where a
check fails the frog traps with the code of the first one that fails and the descriptor's TAG in FG_TRAP,
and nothing of the descriptor has run.

R67: RESUME drops the trapped descriptor and clears FG_TRAP; FLUSH drops every queued one as well
and adds them to FG_FLUSHED; on a frog that is not trapped neither does anything. -/
def Obligations.FrogTraps : Prop :=
  (
  ∀ (s : State) (c : ClusterNo) (n : Nat) (d : List Word) (rest : List (Nat × List Word)) (code : Nat)
    (i : Instr) (opc : Nat),
    (i, opc) ∈ [(.tile c, 1), (.load c, 3), (.scan c, 2)] → dw d 0 3 0 = opc →
    (s.sys.chip.frog c).queue = (n, d) :: rest → s.sys.chip.frogReady c = true →
    (s.sys.chip.frog c).struck = none →
    Chip.frogCheck s.sys.mem (s.sys.chip.setFrog c { s.sys.chip.frog c with queue := rest }) c n d = some code →
    ∃ z, exec i s = .next { s with sys := z } ∧ z.mem = s.sys.mem ∧
      (z.chip.frog c).queue = rest ∧ (z.chip.frog c).trapped = true ∧
      (z.chip.frog c).trapDesc = some (n, d) ∧
      z.chip.reg (fgPg c + 0x4C) = BitVec.ofNat 32 (code + 65536 * dw d 1 15 0) ∧
      ∀ a, a ≠ fgPg c + 0x4C → z.chip.reg a = s.sys.chip.reg a) ∧
  (
  ∀ (s : State) (c : ClusterNo),
    let f := s.sys.chip.frog c
    (f.trapped = true →
      (∃ z, exec (.fgTrapActResume c) s = .next { s with sys := z } ∧ z.mem = s.sys.mem ∧
        (z.chip.frog c).trapped = false ∧ (z.chip.frog c).trapDesc = none ∧
        (z.chip.frog c).queue = f.queue ∧ z.chip.reg (fgPg c + 0x4C) = 0 ∧
        ∀ a, a ≠ fgPg c + 0x4C → z.chip.reg a = s.sys.chip.reg a) ∧
      (∃ z, exec (.fgTrapActFlush c) s = .next { s with sys := z } ∧ z.mem = s.sys.mem ∧
        (z.chip.frog c).trapped = false ∧ (z.chip.frog c).queue = [] ∧
        z.chip.reg (fgPg c + 0x4C) = 0 ∧
        (z.chip.reg (fgPg c + 0x6C)).toNat =
          min ((s.sys.chip.reg (fgPg c + 0x6C)).toNat + f.taken) 0xffffffff)) ∧
    (f.trapped = false → exec (.fgTrapActResume c) s = .next s ∧ exec (.fgTrapActFlush c) s = .next s))

/-- R60, R62: a TILE that passes its checks leaves its slot valid, with its rows, columns and the sum
of the K it has accumulated, and posts a completion word with status OK, OPC, TAG and that sum; a LOAD
does the same with the KCOUNT of the partial it reads, as long as a TERN partial fits its 32-bit
accumulators (R58); a SCAN over one chunk posts its own with N. FG_COUNT advances by one. -/
def Obligations.FrogCompletes : Prop :=
  ∀ (s : State) (c : ClusterNo) (n : Nat) (d : List Word) (rest : List (Nat × List Word)),
    let y := s.sys
    let f := y.chip.frog c
    let word := fun (z : Sys) (opc : Nat) (kc : Nat) => ∃ ex bc bs lo hi k,
      KMap.bytes z.mem.store (stKey c (ptr d 12)) 16 =
        cmplBytes .ok ex bc bs opc (dw d 1 15 0) lo hi k kc
    f.queue = (n, d) :: rest → y.chip.frogReady c = true → f.struck = none → y.Calm c →
    Chip.frogCheck y.mem (y.chip.setFrog c { f with queue := rest }) c n d = none →
    let old := if tAcc d then (f.slot (tSlot d)).kcount else 0
    (dw d 0 3 0 = 1 →
      ∃ z, exec (.tile c) s = .next { s with sys := z } ∧ (z.chip.frog c).queue = rest ∧
        ((z.chip.frog c).slot (tSlot d)).valid = true ∧
        ((z.chip.frog c).slot (tSlot d)).rows = tRows d ∧
        ((z.chip.frog c).slot (tSlot d)).cols = tCols d ∧
        ((z.chip.frog c).slot (tSlot d)).kcount = old + tK d ∧
        word z 1 (old + tK d) ∧
        z.chip.reg (fgPg c + 0x68) = BitVec.ofNat 32 ((y.chip.reg (fgPg c + 0x68)).toNat + 1)) ∧
    (dw d 0 3 0 = 3 →
      (tCls d = 0 → ∀ i < tRows d, ∀ v ∈ chunks 8 (tCols d)
        (KMap.bytes y.mem.store (stKey c (ptr d 3 + i * ptr d 4)) (8 * tCols d)),
        -2 ^ 31 + 1 ≤ signed 64 v ∧ signed 64 v ≤ 2 ^ 31 - 1) →
      ∃ z, exec (.load c) s = .next { s with sys := z } ∧ (z.chip.frog c).queue = rest ∧
        ((z.chip.frog c).slot (tSlot d)).valid = true ∧
        ((z.chip.frog c).slot (tSlot d)).kcount =
          old + leNat (KMap.bytes y.mem.store (stKey c (ptr d 8)) 16) / 2 ^ 96 ∧
        word z 3 (old + leNat (KMap.bytes y.mem.store (stKey c (ptr d 8)) 16) / 2 ^ 96) ∧
        z.chip.reg (fgPg c + 0x68) = BitVec.ofNat 32 ((y.chip.reg (fgPg c + 0x68)).toNat + 1)) ∧
    (dw d 0 3 0 = 2 → scanChunks d = 1 →
      ∃ z, exec (.scan c) s = .next { s with sys := z } ∧ (z.chip.frog c).queue = rest ∧
        (z.chip.frog c).wait = none ∧ word z 2 (sN d) ∧
        z.chip.reg (fgPg c + 0x68) = BitVec.ofNat 32 ((y.chip.reg (fgPg c + 0x68)).toNat + 1))

/-! ## Contexts and translation (chapter 06) -/

/-- R135: what each context command asks of the slot's state and what it leaves: CTX_ASSIGN takes a FREE
slot and gives it the clusters, CTX_START and CTX_RELEASE wait for their end, CTX_KILL kills, with DRAIN
it drains; on any other state each answers NO_ACCESS and changes nothing.

R135: a DRAINING context none of whose accepted promises waits for an outcome is killed; R137: the
kill message empties the frog and the engines of its cluster and counts as arrived; R136: a released
context whose kill is over leaves its slot FREE and its clusters unowned, and the command answers OK. -/
def Obligations.ContextCommands : Prop :=
  (
  ∀ (s : State) (q : CmdReq) (slot : Nat),
    s.sys.chip.takesCmd q false → slot < 32 →
    let y := s.sys.chip
    let x := 32 * y.sessPart q.session + slot
    let k := y.ctxAt x
    (∀ root l1n cls, k.state = 0 → y.retiring = false → cls.Nodup →
      (∀ c ∈ cls, c < 208 ∧ y.ownerOf c = none ∧ y.clusterWorks c = true) →
      root % 4096 = 0 → l1n ≠ 0 → l1n ≤ 262144 → y.inArea (x / 32) root (8 * l1n) = true →
      ∃ z, exec (.ctxAssign q slot root l1n cls) s = .next { s with sys := z } ∧ z.mem = s.sys.mem ∧
        z.chip.ctxAt x = { state := 1, root := root, l1n := l1n } ∧
        (∀ c, z.chip.ownerOf c = if c ∈ cls then some x else y.ownerOf c) ∧
        z.chip.answeredIs q .ok 0) ∧
    (k.state = 1 →
      ∃ z, exec (.ctxStart q slot) s = .next { s with sys := z } ∧ z.mem = s.sys.mem ∧
        z.chip.ctxAt x = { k with state := 2, starting := some q } ∧ z.chip.pendingIs q) ∧
    ((1 ≤ k.state ∧ k.state ≤ 3) →
      ∃ z, exec (.ctxKill q slot) s = .next { s with sys := z } ∧ z.mem = s.sys.mem ∧
        (z.chip.ctxAt x).state = 4 ∧ (z.chip.ctxAt x).fltKind = 8 ∧
        (z.chip.ctxAt x).killing = y.ctxClusters x ∧ z.chip.answeredIs q .ok 0) ∧
    (k.state = 4 → Answers (.ctxKill q slot) s y q .ok 0 ∧ Answers (.ctxKillDrain q slot) s y q .ok 0) ∧
    (k.state = 2 → Answers (.ctxKillDrain q slot) s (y.setCtx x { k with state := 3 }) q .ok 0) ∧
    ((k.state = 1 ∨ k.state = 4) →
      Pends (.ctxRelease q slot) s (y.setCtx x { k with state := 5, releasing := some q }) q) ∧
    (∀ root l1n cls, k.state ≠ 0 → Answers (.ctxAssign q slot root l1n cls) s y q .noAccess 0) ∧
    (k.state ≠ 1 → Answers (.ctxStart q slot) s y q .noAccess 0) ∧
    (k.state = 0 ∨ 4 < k.state → Answers (.ctxKill q slot) s y q .noAccess 0) ∧
    (k.state ≠ 2 → k.state ≠ 4 → Answers (.ctxKillDrain q slot) s y q .noAccess 0) ∧
    (k.state ≠ 1 → k.state ≠ 4 → Answers (.ctxRelease q slot) s y q .noAccess 0)) ∧
  (
  ∀ (s : State),
    let y := s.sys.chip
    (∀ (p : PartNo) (slot : SlotNo), let x := 32 * p.val + slot.val
      (y.ctxAt x).state = 3 →
      (∀ r ∈ y.prom.reqs, r.sent = false → ∀ c ∈ y.ctxClusters x, y.needsCl c r = false) →
      ∃ z, exec (.drainComplete p slot) s = .next { s with sys := z } ∧ z.mem = s.sys.mem ∧
        (z.chip.ctxAt x).state = 4 ∧ (z.chip.ctxAt x).fltKind = 8 ∧
        (z.chip.ctxAt x).killing = y.ctxClusters x) ∧
    (∀ (c : ClusterNo) x, y.ownerOf c = some x → c.val ∈ (y.ctxAt x).killing →
      ∃ z, exec (.killMessage c) s = .next { s with sys := z } ∧ z.mem = s.sys.mem ∧
        c.val ∉ (z.chip.ctxAt x).killing ∧ (z.chip.frog c).queue = [] ∧ (z.chip.frog c).wait = none ∧
        (z.chip.eng c 0).queue = [] ∧ (z.chip.eng c 1).queue = []) ∧
    (∀ (p : PartNo) (slot : SlotNo), let x := 32 * p.val + slot.val
      y.releaseReady x = true →
      ∃ z, exec (.ctxReleaseDone p slot) s = .next { s with sys := z } ∧
        z.chip.ctxAt x = {} ∧ (∀ c ∈ y.ctxClusters x, z.chip.ownerOf c = none) ∧
        ∀ q, (y.ctxAt x).releasing = some q → z.chip.answeredIs q .ok 0))

/-- R140, R353: a TABLE_WRITE of one whole block in the partition's area is in the pool before its OK;
one that is misaligned, too long or outside the area answers NO_ACCESS. R143: a preload starts its walk,
and an unowned cluster answers RANGE. R142: a walk whose level-1 entry names a table goes on to level
2; a preload's leaf enters the TLB. -/
def Obligations.Translation : Prop :=
  ∀ (s : State),
    let y := s.sys.chip
    (∀ q off data, y.takesCmd q false →
      (off % 2048 = 0 → data.length = 2048 → y.tableOk (y.sessPart q.session) off 2048 = true →
        let n := y.ctrlOf (off / 2048)
        y.mcTurnsAway n = none → y.isDefect n (off / 2048) = false →
        ∃ z, exec (.tableWrite q off data) s = .next { s with sys := z } ∧
          KMap.bytes z.mem.pool off 2048 = data ∧ z.mem.store = s.sys.mem.store ∧
          (∀ a, a < off ∨ off + 2048 ≤ a → KMap.at z.mem.pool 0 a = KMap.at s.sys.mem.pool 0 a) ∧
          z.chip.answeredIs q .ok 0) ∧
      ((off % 8 ≠ 0 ∨ data.length % 8 ≠ 0 ∨ data.length = 0 ∨ 8192 < data.length ∨
          y.tableOk (y.sessPart q.session) off data.length = false) →
        Answers (.tableWrite q off data) s y q .noAccess 0)) ∧
    (∀ (c : ClusterNo) v, y.flag (tlbPg c + 0x54) 31 = false → (y.cl c).walks = [] → Word.bit v 31 = true →
      (y.ownerOf c = none →
        ∃ z, exec (.tlbPreload c v) s = .next { s with sys := z } ∧ z.mem = s.sys.mem ∧
          z.chip.reg (tlbPg c + 0x58) = 1 ∧ z.chip.flag (tlbPg c + 0x54) 31 = false) ∧
      (∀ x, let pg := y.fld (tlbPg c + 0x50) 31 21 + 2048 * Word.bits v 15 0
        y.ownerOf c = some x → y.invHolds x pg = false → pg / 512 < (y.ctxAt x).l1n →
        ∃ z, exec (.tlbPreload c v) s = .next { s with sys := z } ∧ z.mem = s.sys.mem ∧
          (z.chip.cl c).walks = [⟨2, x, pg, 1⟩] ∧ z.chip.flag (tlbPg c + 0x54) 31 = true)) ∧
    (∀ (c : ClusterNo) e w a, (y.cl c).walks = [w] → w.e = e →
      (∀ (g : EngNo) d, d ∈ (y.eng c g).descs → d.settled = false) →
      y.accs.find? (fun a => a.src == BlkSrc.walk c e && a.phase == .served) = some a → a.st = .ok →
      (∀ p, y.walkStep w (leNat a.data) = .next p →
        ∃ z, exec (.walkReadDone c e) s = .next { s with sys := z } ∧ z.mem = s.sys.mem ∧
          (z.chip.cl c).walks = [{ w with level := 2 }]) ∧
      (∀ t, y.walkStep w (leNat a.data) = .leaf t → e = 2 → (∀ g, (y.cl c).pre = some g → g.2 = false) →
        ∃ z, exec (.walkReadDone c e) s = .next { s with sys := z } ∧ z.mem = s.sys.mem ∧
          (z.chip.cl c).walks = [] ∧ z.chip.reg (tlbPg c + 0x58) = 0 ∧
          ∃ i t', z.chip.tlbAt c i = some t' ∧ t'.ctx = t.ctx ∧ t'.page = t.page ∧ t'.pa = t.pa))

/-! ## Copy engines (chapter 05) -/

/-- R122: the cluster control core's post of an aligned offset goes to the end of the engine's queue of at
most 16; a misaligned one or one to a full queue only sets QOVF. R123: a descriptor that fails a check
is latched in CP_BAD and its program dropped. R124, R128: an XC within its context starts, one into another context
ends NO_ACCESS with BLKS = 0. R125: a WAITT whose tick lies ahead waits, one whose tick has come ends
at once, late. -/
def Obligations.CopyPrograms : Prop :=
  ∀ (s : State) (c : ClusterNo) (e : EngNo),
    let y := s.sys
    let x := y.chip.eng c e
    let pg := cpPg c e
    (∀ v, y.chip.isFenced (.copy c e) = false →
      (Word.bits v 20 0 % 32 = 0 → x.room = true →
        ∃ z, exec (.cpPost c e .ccc v) s = .next { s with sys := z } ∧ z.mem = y.mem ∧
          (z.chip.eng c e).queue = x.queue ++ [Word.bits v 20 0] ∧ (z.chip.eng c e).descs = x.descs ∧
          z.chip.regs = y.chip.regs) ∧
      (Word.bits v 20 0 % 32 ≠ 0 ∨ x.room = false →
        ∃ z, exec (.cpPost c e .ccc v) s = .next { s with sys := z } ∧ z.mem = y.mem ∧
          z.chip.eng c e = x ∧ z.chip.flag (errStat pg) 0 = true)) ∧
    (∀ off rest, x.queue = off :: rest → x.cur = none → x.descs = [] → x.struck = none →
      y.chip.frozen pg = false → y.chip.stFrozen c = false → y.mem.storeMark = [] → off + 32 ≤ 0x200000 →
      let ws := wordsOf (KMap.bytes y.mem.store (stKey c off) 32)
      let d := descOf y.chip c x.serial off ws
      let next := if db ws 0 4 then some (off + 32) else none
      (copyBad c off ws = true →
        ∀ (i : Instr) (opcs : List Nat), (i, opcs) ∈ [(.copyRd c e, 1 :: 0 :: (List.range 11).map (· + 5)),
          (.copyWr c e, [2]), (.copyXc c e, [3]), (.copyWaitt c e, [4])] → dw ws 0 3 0 ∈ opcs →
        ∃ z, exec i s = .next { s with sys := z } ∧ z.mem = y.mem ∧
          (z.chip.eng c e).queue = rest ∧ (z.chip.eng c e).descs = [] ∧ (z.chip.eng c e).cur = none ∧
          z.chip.reg (pg + 0x50) = BitVec.ofNat 32 (off % 0x200000) ∧ z.chip.flag (pg + 0x54) 1 = true) ∧
      (copyBad c off ws = false → dw ws 0 3 0 = 3 →
        (y.chip.xcStop c (dw ws 6 28 21) = none →
          ∃ z, exec (.copyXc c e) s = .next { s with sys := z } ∧ z.mem = y.mem ∧
            (z.chip.eng c e).queue = rest ∧ (z.chip.eng c e).descs = [d] ∧ (z.chip.eng c e).cur = next) ∧
        (y.chip.xcStop c (dw ws 6 28 21) = some .noAccess → db ws 0 6 = true → db ws 0 9 = false → y.Calm c →
          ∃ z, exec (.copyXc c e) s = .next { s with sys := z } ∧ (z.chip.eng c e).descs = [] ∧
            (z.chip.eng c e).cur = none ∧
            KMap.bytes z.mem.store (stKey c (dw ws 7 20 0)) 8 =
              copyWord .noAccess false 3 (dw ws 1 15 0) 0)) ∧
      (copyBad c off ws = false → dw ws 0 3 0 = 4 →
        (y.chip.tickCopy < wideOf ws →
          ∃ z, exec (.copyWaitt c e) s = .next { s with sys := z } ∧ z.mem = y.mem ∧
            (z.chip.eng c e).queue = rest ∧ (z.chip.eng c e).descs = [{ d with waiting := true }] ∧
            z.chip.regs = y.chip.regs) ∧
        (wideOf ws ≤ y.chip.tickCopy → db ws 0 6 = true → y.Calm c →
          ∃ z, exec (.copyWaitt c e) s = .next { s with sys := z } ∧ (z.chip.eng c e).descs = [] ∧
            (z.chip.eng c e).cur = next ∧
            KMap.bytes z.mem.store (stKey c (dw ws 7 20 0)) 8 =
              copyWord .ok true 4 (dw ws 1 15 0) 0)))

/-- R144: an RD or WR whose range lies in one page that the TLB translates with the right it asks for
starts with that translation; R125: a WAITT ends when its tick has come, and by CP_KICK, late where its
tick still lies ahead, in both cases with its completion word. -/
def Obligations.CopyStarts : Prop :=
  ∀ (s : State) (c : ClusterNo) (e : EngNo),
    let y := s.sys
    let x := y.chip.eng c e
    (∀ off rest k i t pg, x.queue = off :: rest → x.cur = none → x.descs = [] → x.struck = none →
      y.chip.frozen (cpPg c e) = false → y.chip.stFrozen c = false → y.mem.storeMark = [] →
      off + 32 ≤ 0x200000 → y.chip.ownerOf c = some k → (y.chip.ctxAt k).translates = true →
      let ws := wordsOf (KMap.bytes y.mem.store (stKey c off) 32)
      copyBad c off ws = false → pagesOf ws = [pg] → y.chip.invHolds k pg = false → (y.chip.cl c).walks = [] →
      y.chip.tlbFind c k pg = some (i, t) → t.flips = 0 →
      ∀ (ins : Instr) (opc : Nat) (right : Bool),
        (ins, opc, right) ∈ [(.copyRd c e, 1, t.r), (.copyWr c e, 2, t.w)] → dw ws 0 3 0 = opc →
        right = true →
        ∃ z, exec ins s = .next { s with sys := z } ∧ z.mem = y.mem ∧ (z.chip.eng c e).queue = rest ∧
          (z.chip.eng c e).descs = [{ descOf y.chip c x.serial off ws with tr := [⟨pg, t.paOf pg, t.ent⟩] }] ∧
          (z.chip.eng c e).cur = (if db ws 0 4 then some (off + 32) else none)) ∧
    (∀ d, x.descs = [d] → d.waiting = true → d.forced = none → d.fails = [] → d.fly = [] → d.need = [] →
      d.nblk = 0 → db d.ws 0 6 = true → db d.ws 0 9 = false → d.cmplPtr % 4 = 0 → y.Calm c →
      y.chip.stFrozen c = false →
      (wideOf d.ws ≤ y.chip.tickCopy →
        ∃ z, exec (.waittReached c e) s = .next { s with sys := z } ∧ (z.chip.eng c e).descs = [] ∧
          KMap.bytes z.mem.store (stKey c d.cmplPtr) 8 = copyWord .ok d.late d.opc (dw d.ws 1 15 0) d.ok) ∧
      (∀ v, Word.bit v 0 = true →
        ∃ z, exec (.cpKick c e .ccc v) s = .next { s with sys := z } ∧ (z.chip.eng c e).descs = [] ∧
          KMap.bytes z.mem.store (stKey c d.cmplPtr) 8 = copyWord .ok (decide (y.chip.tickCopy < wideOf d.ws))
            d.opc (dw d.ws 1 15 0) d.ok) ∧
      (y.chip.tickCopy < wideOf d.ws → exec (.waittReached c e) s = .next s) ∧
      ∀ m v, exec (.cpKick c e (.newt m) v) s = .next s)

/-- R126, R127: the next block of an RD asks the pool, that of a WR carries its bytes there, that of an XC
goes to the target cluster; a returned RD block is written at its place in the store, and a block that
comes back counts as written. -/
def Obligations.CopyBlocks : Prop :=
  ∀ (s : State) (c : ClusterNo) (e : EngNo),
    let y := s.sys
    let x := y.chip.eng c e
    (∀ d, x.descs = [d] → d.issued = false → d.need = [] → d.waiting = false → d.fly.length < 32 →
      (∀ t, x.lastIssue = some t → t + 4 ≤ y.chip.ref) → y.chip.stFrozen c = false → y.mem.storeMark = [] →
      let ends := fun (z : Sys) => z.mem = y.mem ∧
        (z.chip.eng c e).descs = [{ d with next := d.next + 1, fly := d.fly ++ [d.next] }] ∧
        (z.chip.eng c e).lastIssue = some y.chip.ref
      let bytes := KMap.bytes y.mem.store (stKey c (d.csOff + 2048 * d.next)) 2048
      (d.opc = 1 → ∃ z a, exec (.blockIssue c e) s = .next { s with sys := z } ∧ ends z ∧
        z.chip.accs = y.chip.accs ++ [a] ∧ a.src = .copy c e (blkNo d.serial d.next) ∧
        a.b = d.poolOff d.next / 2048 ∧ a.write = false ∧ z.chip.xcs = y.chip.xcs) ∧
      (d.opc = 2 → ∃ z a, exec (.blockIssue c e) s = .next { s with sys := z } ∧ ends z ∧
        z.chip.accs = y.chip.accs ++ [a] ∧ a.src = .copy c e (blkNo d.serial d.next) ∧
        a.b = d.poolOff d.next / 2048 ∧ a.write = true ∧ a.data = bytes ∧ z.chip.xcs = y.chip.xcs) ∧
      (d.opc = 3 → y.chip.xcStop c (dw d.ws 6 28 21) = none →
        ∃ z, exec (.blockIssue c e) s = .next { s with sys := z } ∧ ends z ∧ z.chip.accs = y.chip.accs ∧
          z.chip.xcs = y.chip.xcs ++ [⟨c, e, blkNo d.serial d.next, dw d.ws 6 28 21,
            dw d.ws 6 20 0 + 2048 * d.next, bytes⟩])) ∧
    (∀ d k a, k < 2048 → x.descs = [d] → d.forced = none → d.fly = [k] → d.stop = false → d.next < d.nblk →
      (y.chip.accs.find? (fun a => a.src == BlkSrc.copy c e (blkNo d.serial k) && a.phase == .served) = some a →
        a.st = .ok →
        (d.opc = 1 → d.csOff % 4 = 0 → a.data.length = 2048 → y.Calm c → y.chip.stFrozen c = false →
          ∃ z, exec (.blockSettle c e (blkNo d.serial k)) s = .next { s with sys := z } ∧
            KMap.bytes z.mem.store (stKey c (d.csOff + 2048 * k)) 2048 = a.data ∧
            (∀ i, i < stKey c (d.csOff + 2048 * k) ∨ stKey c (d.csOff + 2048 * k) + 2048 ≤ i →
              KMap.at z.mem.store 0 i = KMap.at y.mem.store 0 i) ∧
            (z.chip.eng c e).descs = [{ d with fly := [], ok := d.ok + 1 }]) ∧
        (d.opc = 2 →
          ∃ z, exec (.blockSettle c e (blkNo d.serial k)) s = .next { s with sys := z } ∧ z.mem = y.mem ∧
            (z.chip.eng c e).descs = [{ d with fly := [], ok := d.ok + 1 }])) ∧
      (∀ (t : ClusterNo) i off data,
        (y.chip.xcs.filter fun x => x.dst == t.val)[i]? = some ⟨c, e, blkNo d.serial k, t, off, data⟩ →
        y.chip.isFenced (.cluster t) = false → y.chip.clResetting t = false → y.chip.stFrozen t = false →
        off % 4 = 0 → data.length = 2048 → y.Calm t →
        ∃ z, exec (.xcBlockArrive t i) s = .next { s with sys := z } ∧
          KMap.bytes z.mem.store (stKey t off) 2048 = data ∧
          (z.chip.eng c e).descs = [{ d with fly := [], ok := d.ok + 1 }]))

/-- R149: an INV_RANGE behind another waits its turn; the first of its partition drops every TLB entry of
the named contexts' clusters that meets the range; one whose range leaves the VA answers NO_ACCESS. Once
every descriptor waited for has settled it answers OK. -/
def Obligations.InvRange : Prop :=
  ∀ (s : State) (q : CmdReq) (slot va len : Nat) (allS allV : Bool),
    let y := s.sys.chip
    let p := y.sessPart q.session
    let js := KMap.at y.parts.invs [] p
    let lo := if allV then 0 else va / 0x200000
    let hi := if allV then 2 ^ 27 else va / 0x200000 + len
    let slots := if allS then List.range 32 else [slot]
    let bad := (allS = false ∧ 32 ≤ slot) ∨
      (allV = false ∧ (va % 0x200000 ≠ 0 ∨ len = 0 ∨ 2 ^ 27 < len ∨ 2 ^ 27 < hi))
    y.takesCmd q false →
    (bad → Answers (.invRange q slot allS allV va len) s y q .noAccess 0) ∧
    (¬bad → js ≠ [] → Pends (.invRange q slot allS allV va len) s
      { y with parts.invs := KMap.put y.parts.invs [] p (js ++ [⟨q, slots, lo, hi, []⟩]) } q) ∧
    (¬bad → js = [] →
      ∃ z, exec (.invRange q slot allS allV va len) s = .next { s with sys := z } ∧ z.mem = s.sys.mem ∧
        z.chip.pendingIs q ∧
        (∃ w, KMap.at z.chip.parts.invs [] p = [⟨q, slots, lo, hi, w⟩]) ∧
        ∀ c x, (c, some x) ∈ y.parts.owner → x / 32 = p → x % 32 ∈ slots →
          ∀ i t, (i, some t) ∈ (z.chip.cl c).tlb → t.ctx = x → ¬(t.page < hi ∧ lo < t.page + t.size)) ∧
    (∀ (n : PartNo) j, KMap.at y.parts.invs [] n = [j] → j.waits.all y.invSettled = true →
      y.invClusters n j = [] →
      Answers (.invRangeAnswer n) s { y with parts.invs := KMap.put y.parts.invs [] n [] } j.q .ok 0)

/-! ## Channel controllers (chapter 07) -/

/-- R164, R168, R170, R176: in a slot a block is reserved for, the controller serves it: a whole-block write and the
second half of a sub-block write store the bytes and leave every other byte of the pool as it was; a
read brings the bytes, corrected where at most t symbols are in error; the first half of a sub-block
write reads and keeps the merged block; a block in the poison table answers UE. The slot is then
taken. -/
def Obligations.BlockSlot : Prop :=
  ∀ (s : State) (n : McNo) (a : Acc) (id k : Nat),
    let y := s.sys
    let j := y.chip.slotAt y.chip.now
    y.chip.regions = [] → y.chip.fld (mcPg n + 0x40) 2 0 = 2 → (∀ k, (y.chip.mc n).lastSlot = some k → k < j) →
    y.chip.inScrub n j = false → (y.chip.markLate n j).reservedFor n j = some a → a.src = .req id k →
    (y.chip.mc n).marked = [] → (y.chip.mc n).inject = 0 →
    let ends := fun (z : Sys) (st : Status) (data : List Byte) =>
      (z.chip.mc n).lastSlot = some j ∧
      ∃ b ∈ z.chip.accs, b.src = a.src ∧ b.phase = .served ∧ b.st = st ∧ b.data = data
    ((y.chip.mc n).poison.any (fun p => p.1 == a.pb) = false →
      (a.write = true → (a.phase = .ready ∧ a.len = 2048) ∨ (∃ i, a.phase = .rmw i) → a.data.length = 2048 →
        ∃ z, exec (.blockSlot n) s = .next { s with sys := z } ∧ ends z .ok [] ∧
          KMap.bytes z.mem.pool (2048 * a.pb) 2048 = a.data ∧ KMap.at z.mem.poolErr [] a.pb = [] ∧
          (∀ i, i < 2048 * a.pb ∨ 2048 * a.pb + 2048 ≤ i → KMap.at z.mem.pool 0 i = KMap.at y.mem.pool 0 i) ∧
          z.mem.store = y.mem.store ∧ z.mem.sram = y.mem.sram) ∧
      ((KMap.at y.mem.poolErr [] a.pb).length ≤ y.chip.codeT →
        (a.write = false →
          ∃ z, exec (.blockSlot n) s = .next { s with sys := z } ∧ z.mem = y.mem ∧
            ends z .ok (((y.mem.blk a.pb).drop a.lo).take a.len)) ∧
        (a.write = true → a.phase = .ready → a.len < 2048 →
          ∃ z, exec (.blockSlot n) s = .next { s with sys := z } ∧ z.mem = y.mem ∧
            (z.chip.mc n).lastSlot = some j ∧ ∃ b ∈ z.chip.accs, b.src = a.src ∧ b.phase = .rmw j ∧
              b.data = (y.mem.blk a.pb).take a.lo ++ a.data ++ (y.mem.blk a.pb).drop (a.lo + a.len)))) ∧
    ((y.chip.mc n).poison.any (fun p => p.1 == a.pb) = true → a.write = false → y.chip.standsBy = false →
      ∃ z, exec (.blockSlot n) s = .next { s with sys := z } ∧ z.mem = y.mem ∧ ends z .ue [])

/-- R165, R166, R171 to R174, R180, R242, R380: what the commands of a controller's own time do: a throttle reaches
its table and lapses at its end, the hot-row tables empty, the bucket leaks by one, bank 0's refresh
window picks the rate, a retraining bars its first slot, the scrub visits its block and moves on, idleness powers
down, a reset empties the tables and ends. -/
def Obligations.ControllerTime : Prop :=
  ∀ (s : State) (n : McNo),
    let y := s.sys.chip
    let pg := mcPg n
    let m := y.mc n
    let next := fun (i : Instr) (t : Chip) => exec i s = .next { s with sys := { s.sys with chip := t } }
    (∀ t, y.thrMsgs = [t] → (∀ e ∈ y.prom.thr, ¬(e.x = t.x ∧ e.n = t.n)) → y.prom.thr.length < 64 →
      next .throttle { y with thrMsgs := [], prom.thr := y.prom.thr ++ [t] }) ∧
    (∀ i t, y.prom.thr[i]? = some t →
      (t.stop ≤ y.now → next (.throttleEnd i) { y with prom.thr := y.prom.thr.eraseIdx i }) ∧
      (y.now < t.stop → next (.throttleEnd i) y)) ∧
    (y.now % 32000000 = 0 →
      ∃ z, next .hotRowClear z ∧ z.regs = y.regs ∧ z.accs = y.accs ∧ ∀ k, (z.mc k).hot = []) ∧
    (y.now % 32000000 ≠ 0 → next .hotRowClear y) ∧
    (m.leakTick + 1000 * max (y.fld (pg + 0x70) 31 16) 1 ≤ y.now →
      ∃ z, next (.ceLeak n) z ∧ z.fld (pg + 0x74) 15 0 = y.fld (pg + 0x74) 15 0 - 1 ∧
        (z.mc n).leakTick = y.now ∧ ∀ a, a ≠ pg + 0x74 → z.reg a = y.reg a) ∧
    ((y.now + 61 * n) % 1950 = 0 →
      let hot := y.flag (pg + 0x50) 0 || decide (y.fld (pg + 0x50) 15 8 ≤ y.fld (pg + 0x40) 15 8)
      ∃ z, next (.refreshWindow n 0) z ∧ z.flag (pg + 0x40) 4 = hot ∧
        (hot = true → (z.mc n).nbr = m.nbr.filter (fun x => !(x.1 == 0)) ∧ z.flag (pg + 0x40) 3 = false) ∧
        ∀ a, a ≠ pg + 0x40 → z.reg a = y.reg a) ∧
    (y.now % 100000000 = 390625 * n →
      next (.retraining n true) y ∧ y.inTraining n (y.slotAt y.now) = true) ∧
    (let j := y.slotAt y.now
      let pos := y.fld (pg + 0x58) 19 0
      let b := y.blockAt n (pos / y.rowsD) (pos % y.rowsD)
      let e := (KMap.at s.sys.mem.poolErr [] b).length
      y.scrubFirst n j = true → y.fld (pg + 0x40) 2 0 = 2 → (∀ k, m.lastSlot = some k → k < j) →
      y.slotKeeps n (pos / y.rowsD) j = true → y.slotKeeps n (pos / y.rowsD) (j + 1) = true →
      m.poison = [] → m.marked = [] → m.inject = 0 → e ≤ y.codeT →
      ∃ z, exec (.patrolScrub n) s = .next { s with sys := z } ∧
        (∀ a, KMap.at z.mem.pool 0 a = KMap.at s.sys.mem.pool 0 a) ∧
        z.chip.fld (pg + 0x58) 19 0 = (pos + 1) % (16 * y.rowsD) ∧ (z.chip.mc n).lastSlot = some (j + 1) ∧
        (max (y.fld (pg + 0x54) 23 16) 1 ≤ e → KMap.at z.mem.poolErr [] b = [])) ∧
    (let idle := y.fld (pg + 0x5C) 15 0;
      (idle ≠ 0 → 16 * m.idleSince + 10 * idle ≤ 16 * y.now →
        next (.powerDown n) (y.setFlag (pg + 0x40) 3 true)) ∧
      (idle = 0 ∨ 16 * y.now < 16 * m.idleSince + 10 * idle → next (.powerDown n) y)) ∧
    (y.flag (pg + 0x40) 3 = true →
      next (.powerDownExit n) ((y.setMc n { m with idleSince := y.now }).setFlag (pg + 0x40) 3 false)) ∧
    (m.resetting = none →
      ∃ z, next (.channelControllerReset n) z ∧ (z.mc n).resetting = some y.now ∧ (z.mc n).hot = [] ∧
        (z.mc n).buckets = [] ∧ z.fld (pg + 0x40) 2 0 = 4 ∧ z.fld (pg + 0x74) 15 0 = 0 ∧
        (z.mc n).poison = m.poison) ∧
    (m.resetting ≠ none →
      next (.channelControllerReset n) y ∧
      ∃ z, next (.channelControllerResetDone n) z ∧ (z.mc n).resetting = none ∧
        z.fld (pg + 0x40) 2 0 = (if y.fenced1 (.mc n) then 3 else 2) ∧
        ∀ f ∈ z.errs.fences, f.unit = .mc n → f.resetDone = true)

/-! ## Rights in the pool (chapter 08) -/

/-- R188: an extent command changes every extent it names, or, where one does not pass, answers
NO_ACCESS and changes none. R199: a released extent starts its fill. R188, R200, R202: a return opens a
revocation that removes the overlapping entries and takes effect at a commit tick, at once or, while a
change to an overlapping entry is in progress, after that.

R199 to R201: a revocation whose waits are over is gone and its extents that are RETURNING enter
QUARANTINE; one that still waits stays. The end of a quarantine starts the fill, a complete fill makes
the extent FREE with its DEFECT count kept. -/
def Obligations.Extents : Prop :=
  (
  ∀ (s : State) (q : CmdReq) (part base count lease : Nat) (force : Bool),
    let y := s.sys.chip
    let p := y.sessPart q.session
    let es := extRange base count
    let gives := fun (i : Instr) (f : Ext → Ext) =>
      ∃ z, exec i s = .next { s with sys := z } ∧ z.mem = s.sys.mem ∧ z.chip.answeredIs q .ok 0 ∧
        (∀ e, z.chip.ext e = if e ∈ es then f (y.ext e) else y.ext e) ∧ z.chip.rights.iso = y.rights.iso ∧
        z.chip.rights.leases = y.rights.leases
    (y.takesCmd q true →
      (extRangeOk base count = true →
        (y.retiring = false → part < 64 → (∀ e ∈ es, y.extState e = 0) →
          gives (.extGrant q part base count) fun x => { x with
            state := 1
            part := part
            bound := false
            lease := 0 }) ∧
        ((∀ e ∈ es, y.extState e = 3) →
          gives (.extHold q base count) fun x => { x with
            state := 5
            part := 0 }) ∧
        ((∀ e ∈ es, y.extState e = 5) →
          gives (.extRelease q base count) fun _ => { state := 4, qEnd := y.now })) ∧
      (extRangeOk base count = false ∨ (∃ e ∈ es, y.extState e ≠ 0) →
        Answers (.extGrant q part base count) s y q .noAccess 0) ∧
      (extRangeOk base count = false ∨ (∃ e ∈ es, y.extState e ≠ 3) →
        Answers (.extHold q base count) s y q .noAccess 0) ∧
      (extRangeOk base count = false ∨ (∃ e ∈ es, y.extState e ≠ 5) →
        Answers (.extRelease q base count) s y q .noAccess 0)) ∧
    (y.takesCmd q false →
      (extRangeOk base count = true → y.leaseOfPart lease p = true → (∀ e ∈ es, y.ownedBy p e = true) →
        gives (.extBind q base count lease) fun x => { x with
          bound := true
          lease := lease }) ∧
      (y.leaseOfPart lease p = false ∨ extRangeOk base count = false ∨ (∃ e ∈ es, y.ownedBy p e = false) →
        Answers (.extBind q base count lease) s y q .noAccess 0) ∧
      (p = 0 ∨ p = part → extRangeOk base count = true → (∀ e ∈ es, y.ownedBy part e = true) →
        force = true ∨ y.overlapping es = [] → (∀ r ∈ y.rights.revs, r.id < y.rights.revSeq) →
        (y.overlapBusy es = false →
          Pends (.extReturn q force part base count) s { y with
            rights.revSeq := y.rights.revSeq + 1
            rights.revs := y.rights.revs ++ [⟨y.rights.revSeq, some q, .extReturn, y.commitAt, false, p,
              es, y.overlapping es, [], [], []⟩]
            rights.shadow := y.rights.shadow ++
              (y.overlapping es).map fun i => ⟨i, isoNone, y.commitAt, .rev y.rights.revSeq⟩
            rights.commits := y.rights.commits ++ [(y.commitAt, .ret y.rights.revSeq)] } q) ∧
        (y.overlapBusy es = true →
          Pends (.extReturn q force part base count) s { y with
            rights.revSeq := y.rights.revSeq + 1
            rights.revs := y.rights.revs ++ [⟨y.rights.revSeq, some q, .extReturn, 0, false, p, es, [], [], [], []⟩]
            rights.retWait := y.rights.retWait ++ [y.rights.revSeq] } q)) ∧
      ((p ≠ 0 ∧ p ≠ part) ∨ extRangeOk base count = false ∨ (∃ e ∈ es, y.ownedBy part e = false) ∨
          (force = false ∧ y.overlapping es ≠ []) →
        Answers (.extReturn q force part base count) s y q .noAccess 0))) ∧
  (
  ∀ (s : State) (n : Nat),
    let y := s.sys.chip
    (∀ r, y.rights.revs.find? (fun r => r.id == n) = some r → (∀ i, r.kind ≠ .leaseClose i ∧ r.kind ≠ .lapse i) →
      n < y.rights.revSeq →
      (y.revReady r = true →
        ∃ z, exec (.revocationDone n) s = .next { s with sys := z } ∧ z.mem = s.sys.mem ∧
          (∀ x ∈ z.chip.rights.revs, x.id ≠ n) ∧
          (∀ e ∈ r.exts, y.extState e = 2 → z.chip.extState e = 3 ∧
            (z.chip.ext e).qEnd = y.now + 1000 * (y.reg (extPg + 0x4C)).toNat) ∧
          (∀ e, e ∉ r.exts → z.chip.ext e = y.ext e) ∧
          ∀ q, r.q = some q → z.chip.answeredIs q .ok 0) ∧
      (y.revReady r = false → exec (.revocationDone n) s = .next s)) ∧
    (y.decidesAlone → y.extState n = 3 → (y.ext n).qEnd ≤ y.now →
      ∃ z, exec (.quarantineEnd n) s = .next { s with sys := z } ∧ z.mem = s.sys.mem ∧
        (∀ e, z.chip.ext e = if e = n then { state := 4, qEnd := y.now } else y.ext e) ∧
        (∀ c, KMap.at z.chip.rights.fillPos 0 (256 * n + c % 256) = 0) ∧ z.chip.regs = y.regs) ∧
    (y.now < (y.ext n).qEnd → exec (.quarantineEnd n) s = .next s) ∧
    (y.extState n = 4 → y.fillDone n = true →
      ∃ z, exec (.zeroingDone n) s = .next { s with sys := z } ∧ z.mem = s.sys.mem ∧
        (∀ e, z.chip.ext e = if e = n then { defect := (y.ext n).defect } else y.ext e) ∧
        z.chip.regs = y.regs) ∧
    (y.fillDone n = false → exec (.zeroingDone n) s = .next s))

/-- R190, R193 to R195, R202, R205: a change of an entry waits in the shadow for its commit tick, or for
the change to its entry that is in progress; at the tick an added right is answered, and both copies take
the new words and the next generation; it fails where its extents have left their owner. A new binding of
a link waits for a commit tick; one that replaces a binding opens a revocation of the link's traffic. The
comparator walks the table, and fences an entry whose copies differ. -/
def Obligations.IsoTable : Prop :=
  ∀ (s : State) (q : CmdReq) (idx : Nat) (w0 w1 w2 w3 : Word),
    let y := s.sys.chip
    let p := y.sessPart q.session
    let ws := [w0, w1, w2, w3]
    let old := (y.isoAt idx).ct
    let waits := fun (i : Instr) (new : List Word) (kind : RevKind) =>
      (isoLowers old new = false → y.isoBusy idx = false →
        Pends i s { y with rights.shadow := y.rights.shadow ++ [⟨idx, new, y.commitAt, .add q⟩] } q) ∧
      (y.isoBusy idx = true →
        Pends i s { y with rights.isoWait := y.rights.isoWait ++ [⟨idx, new, 0, .add q⟩] } q) ∧
      (isoLowers old new = true → y.isoBusy idx = false →
        Pends i s { y with
          rights.revSeq := y.rights.revSeq + 1
          rights.revs := y.rights.revs ++
            [⟨y.rights.revSeq, some q, kind, y.commitAt, false, p, [], [idx], [], [], []⟩]
          rights.shadow := y.rights.shadow ++ [⟨idx, new, y.commitAt, .rev y.rights.revSeq⟩] } q)
    (y.takesCmd q false →
      (y.isoSetOk p idx ws = true → y.retiring = false ∨ isoAdds old ws = false →
        waits (.isoSet q idx w0 w1 w2 w3) (isoStored ws) .isoSet) ∧
      (y.isoSetOk p idx ws = false ∨ (y.retiring = true ∧ isoAdds old ws = true) →
        Answers (.isoSet q idx w0 w1 w2 w3) s y q .noAccess 0) ∧
      (idx < 4096 → p = 0 ∨ isoValid old = false ∨ isoPart old = p →
        waits (.isoClear q idx) [0, 0, 0, 0] .isoClear) ∧
      (4096 ≤ idx ∨ (p ≠ 0 ∧ isoValid old = true ∧ isoPart old ≠ p) →
        Answers (.isoClear q idx) s y q .noAccess 0)) ∧
    (y.takesCmd q true → ∀ link valid host,
      (link < 96 → host < 16384 → KMap.at y.rights.linkHost none link = none →
        Pends (.linkBind q link valid host) s { y with
          rights.commits := y.rights.commits ++ [(y.commitAt, .bind q link valid host)] } q) ∧
      (∀ h, link < 96 → host < 16384 → KMap.at y.rights.linkHost none link = some h →
        Pends (.linkBind q link valid host) s (if valid = true ∧ h = host
          then { y with rights.commits := y.rights.commits ++ [(y.commitAt, .bind q link valid host)] }
          else { y with
            rights.revSeq := y.rights.revSeq + 1
            rights.revs := y.rights.revs ++
              [⟨y.rights.revSeq, some q, .unbind link, y.commitAt, false, p, [], [], [], [], []⟩]
            rights.commits := y.rights.commits ++ [(y.commitAt, .bind q link valid host)] }) q) ∧
      (96 ≤ link ∨ 16384 ≤ host → Answers (.linkBind q link valid host) s y q .noAccess 0)) ∧
    (y.decidesAlone → ∀ c, y.rights.shadow = [c] → y.rights.commits = [] → y.errs.armed = [] →
        y.rights.isoWait = [] → y.rights.retWait = [] →
      (c.tc ≤ y.now → c.why = .add q → y.isoFits c.ws = true →
        ∃ z, exec .commitTick s = .next { s with sys := z } ∧ z.mem = s.sys.mem ∧
          z.chip.rights.shadow = [] ∧ z.chip.answeredIs q .ok 0 ∧
          (∀ i, z.chip.isoAt i = if i = c.idx
            then { y.isoAt i with rt := c.ws, ct := c.ws, gen := ((y.isoAt i).gen + 1) % 65536 }
            else y.isoAt i)) ∧
      (c.tc ≤ y.now → c.why = .add q → y.isoFits c.ws = false →
        Answers .commitTick s { y with rights.shadow := [] } q .noAccess 0) ∧
      (y.now < c.tc → exec .commitTick s = .next s)) ∧
    (let k := y.rights.cmpPos
      let e := y.isoAt k
      let int := y.fld (extPg + 0x74) 15 0
      (int = 0 → exec .isoCompare s = .next s) ∧
      (int ≠ 0 → e.rt = e.ct →
        exec .isoCompare s = .next { s with
          sys := { s.sys with chip := { y with rights.cmpPos := (k + 1) % 4096 } } }) ∧
      (int ≠ 0 → e.rt ≠ e.ct → y.decidesAlone → y.fld (extPg + 0x78) 15 0 ≤ 300 →
        ∃ z, exec .isoCompare s = .next { s with sys := z } ∧ z.mem = s.sys.mem ∧
          z.chip.rights = { y.rights with
            cmpPos := (k + 1) % 4096
            commits := y.rights.commits ++ [(y.now + 300, .fence k none)] } ∧
          z.chip.flag (errStat extPg) 0 = true))

/-- R196 to R198: a lease opens at the lowest free index, is closed or lapses at its ticks, is renewed
to the header tick plus its length, and after its drain is FREE again. At the end of its grace every
extent bound to it is RETURNING. -/
def Obligations.Leases : Prop :=
  ∀ (s : State) (q : CmdReq) (i host len rint : Nat),
    let y := s.sys.chip
    let p := y.sessPart q.session
    let l := KMap.at y.rights.leases {} i
    (y.takesCmd q false →
      (y.retiring = false → y.hostLease host = none → y.freeLease = some i → 100 ≤ len → len ≤ 60000000 →
        50 ≤ rint → 2 * rint ≤ len → host < 16384 →
        Answers (.leaseOpen q host len rint) s
          (y.setLease i ⟨1, host, p, len, rint, y.clock + 1000 * len⟩) q .ok i) ∧
      (y.hostLease host ≠ none ∨ y.freeLease = none ∨ len < 100 ∨ 60000000 < len ∨ rint < 50 ∨
          len < 2 * rint ∨ 16384 ≤ host →
        Answers (.leaseOpen q host len rint) s y q .noAccess 0) ∧
      (i < 4096 → y.leaseOfPart i p = true →
        Pends (.leaseClose q i) s { y with
          rights.revSeq := y.rights.revSeq + 1
          rights.revs := y.rights.revs ++
            [⟨y.rights.revSeq, some q, .leaseClose i, y.commitAt, false, p, [], [], [], [], []⟩]
          rights.commits := y.rights.commits ++ [(y.commitAt, .close y.rights.revSeq i)] } q) ∧
      (4096 ≤ i ∨ y.leaseOfPart i p = false → Answers (.leaseClose q i) s y q .noAccess 0)) ∧
    (y.standsBy = false →
      (∀ port pkt, y.addressed = true →
        let gives := fun (c : Chip) (st : Status) =>
          exec (.leaseRenew (.fabric port pkt)) s =
            .next { s with sys := { s.sys with chip := c.respond pkt.hdr st } }
        let late := y.bump (lsPg + 0x6C)
        (y.spoofed port pkt.hdr.srcHost = true → gives late.spoofCount .noAccess) ∧
        (y.spoofed port pkt.hdr.srcHost = false →
          (pkt.hdr.cls ≠ 4 → gives late .noAccess) ∧
          (y.hostLease pkt.hdr.srcHost = none → gives late .noAccess) ∧
          (pkt.hdr.cls = 4 → y.hostLease pkt.hdr.srcHost = some (i, l) →
            let u := y.setLease i { l with
              state := 1
              x := y.now + 1000 * l.len }
            (leaseEff y.now l = 1 → gives u .ok) ∧
            (leaseEff y.now l = 2 → gives (u.leaseEvent i) .ok) ∧
            (leaseEff y.now l ≠ 1 → leaseEff y.now l ≠ 2 → gives late .noAccess)))) ∧
      (y.sessValid q.session = true → (y.recorded q 2).isSome = false → q.chan = 16 →
        y.hostLease (y.sessHost q.session) = some (i, l) → leaseEff y.now l = 1 →
        Answers (.leaseRenew (.xht q)) s (y.setLease i { l with
          state := 1
          x := y.now + 1000 * l.len }) q .ok 0)) ∧
    (y.decidesAlone →
      (l.x ≤ y.now → l.state = 1 →
        ∃ z, exec (.leaseExpiry i) s = .next { s with sys := z } ∧ z.mem = s.sys.mem ∧
          z.chip.rights = (y.setLease i { l with state := 2 }).rights) ∧
      (l.x + 2000 * l.rint ≤ y.now → l.state = 1 ∨ l.state = 2 → y.rights.shadow = [] → y.rights.commits = [] →
        ∃ z, exec (.leaseGraceEnd i) s = .next { s with sys := z } ∧ z.mem = s.sys.mem ∧
          z.chip.rights.leases = KMap.put y.rights.leases {} i { l with state := 3 } ∧
          ∀ e, z.chip.ext e =
            if e ∈ (y.rights.exts.filter fun x => x.2.state == 1 && x.2.bound && x.2.lease == i).map (·.1)
            then { y.ext e with state := 2, bound := false, lease := 0 } else y.ext e)) ∧
    (y.now < l.x → exec (.leaseExpiry i) s = .next s) ∧
    (let rs := y.rights.revs.filter fun r => r.kind == .leaseClose i || r.kind == .lapse i
      let done := (rs.filter (·.committed)).isEmpty = false ∧ ∀ r ∈ rs, r.committed = true → y.revReady r = true
      (done →
        ∃ z, exec (.reclaimDone i) s = .next { s with sys := z } ∧ z.mem = s.sys.mem ∧
          z.chip.rights.leases = KMap.put y.rights.leases {} i {} ∧
          (∀ x ∈ z.chip.rights.revs, x.kind ≠ .leaseClose i ∧ x.kind ≠ .lapse i) ∧
          ∀ r, rs = [r] → r.q = some q → z.chip.answeredIs q .ok 0) ∧
      (¬ done → exec (.reclaimDone i) s = .next s))

/-! ## Requests and promises (chapters 08 to 10) -/

/-- R193, R229, R238: a fabric request that its port, its class, the router-side check and the rules of
regions pass waits at its port with T_h, T_d and the entries of its header tick; one whose host has no
right is answered NO_ACCESS and counted, and nothing waits. -/
def Obligations.FabricRequests : Prop :=
  ∀ (s : State) (port : Nat) (pkt : Packet),
    let y := s.sys.chip
    let h := pkt.hdr
    let passed := fun (cls : List Nat) =>
      port < 96 ∧ y.addressed = true ∧ y.portBusy port = false ∧ y.spoofed port h.srcHost = false ∧ h.cls ∈ cls ∧ h.chk ≠ 3
    let enters := fun (i : Instr) (r : Req) (k : ReqKind) (len : Nat) (data : List Byte) =>
      exec i s = .next { s with sys := { s.sys with chip := { y with prom.hdrs := y.prom.hdrs ++ [r] } } } ∧
      r.kind = k ∧ r.cls = h.cls ∧ r.port = port ∧ r.host = h.srcHost ∧ r.tag = h.tag ∧ r.off = h.offset ∧
      r.len = len ∧ r.data = data ∧ r.th = y.now ∧ r.promise = (h.cls != 4) ∧
      r.td = y.now + (if h.deadline = 0 then classD h.cls else min h.deadline (classD h.cls)) ∧
      r.gens = y.matched h.srcHost h.offset len ∧ r.part = y.partOfOff h.offset
    let waits := fun (i : Instr) (k : ReqKind) =>
      passed [0, 1, 2, 4] → h.len ≠ 0 →
      let b := blkSpan h.offset h.len
      y.inShadow b.1 b.2 = false → y.regionAt b.1 b.2 = none →
      (y.routerCheck h.srcHost (isWrite k) h.offset h.len = true → ∃ r, enters i r k h.len pkt.payload) ∧
      (y.routerCheck h.srcHost (isWrite k) h.offset h.len = false → y.pairRole = 0 →
        ∃ z p, exec i s = .next { s with sys := z } ∧ z.mem = s.sys.mem ∧ z.chip.prom = y.prom ∧
          z.chip.reg (risoPg + 0x64) = (y.bump (risoPg + 0x64)).reg (risoPg + 0x64) ∧
          z.chip.out = y.out ++ [.packet p] ∧ p.hdr.typ = 8 ∧ p.hdr.status = stCode .noAccess ∧
          p.hdr.tag = h.tag ∧ p.hdr.dstChip = h.srcChip ∧ p.hdr.dstPort = h.srcPort ∧ p.payload = [])
    waits (.rd port pkt) .rd ∧ waits (.wr port pkt) .wr ∧ waits (.rdc port pkt) .rdc ∧
    (∀ gi g, passed [1, 2, 4] → 16 < h.len →
      let n := h.len - 16
      let b := blkSpan h.offset n
      y.inShadow b.1 b.2 = false → y.regionAt b.1 b.2 = some (gi, g) → h.offset % 2048 = 0 → n % 2048 = 0 →
      g.base ≤ b.1 → b.1 + b.2 ≤ g.base + g.count → payNat pkt.payload 0 8 < payNat pkt.payload 8 8 →
      y.routerCheck h.srcHost true h.offset n = true →
      ∃ r, enters (.publish port pkt) r .publish n (pkt.payload.drop 16) ∧ r.region = some gi ∧
        r.base = payNat pkt.payload 0 8 ∧ r.new = payNat pkt.payload 8 8) ∧
    (y.addressed = false ∨ y.portBusy port = true →
      exec (.rd port pkt) s = .next s ∧ exec (.wr port pkt) s = .next s ∧ exec (.rdc port pkt) s = .next s ∧
      exec (.publish port pkt) s = .next s)

/-- R246, R355, R356, R358: a BRD, a BWR in one piece and an SVC_REQ of a VALID session wait at the
Ethernet port; a BWR in pieces is staged, and dropped and counted when it stays incomplete. -/
def Obligations.EthernetRequests : Prop :=
  ∀ (s : State) (q : CmdReq) (cls off len deadline entry session seq : Nat) (data : List Byte) (d : Datagram),
    let y := s.sys.chip
    let e := KMap.at y.prom.svc {} entry
    let fresh := fun (q : CmdReq) (k : ReqKind) =>
      y.sessValid q.session = true ∧ y.portBusy 96 = false ∧ y.repeated q k = false ∧ q.chan = 16
    let enters := fun (i : Instr) (q : CmdReq) (r : Req) (k : ReqKind) (cls td : Nat) (data : List Byte) =>
      exec i s = .next { s with
        sys := { s.sys with chip := { y.leaveIngress q with prom.hdrs := y.prom.hdrs ++ [r] } } } ∧
      r.kind = k ∧ r.cls = cls ∧ r.port = 96 ∧ r.host = y.sessHost q.session ∧ r.tag = q.tag ∧
      r.session = q.session ∧ r.addr = y.sessRec q.session ∧ r.chan = q.chan ∧ r.seq = q.seq ∧
      r.data = data ∧ r.th = y.now ∧ r.td = td
    let due := fun (cls deadline : Nat) =>
      y.now + (if deadline = 0 then classD cls else min deadline (classD cls))
    let free := fun (off len : Nat) =>
      y.inShadow (blkSpan off len).1 (blkSpan off len).2 = false ∧
      y.regionAt (blkSpan off len).1 (blkSpan off len).2 = none
    let h := d.hdr
    let c : CmdReq := ⟨h.session, h.chan, h.seq, h.tag⟩
    (fresh q .brd → cls ∈ [0, 1, 2, 4] → len ≠ 0 → y.sessPart q.session ≠ 0 → free off len →
      y.routerCheck (y.sessHost q.session) false off len = true →
      ∃ r, enters (.brd q cls off len deadline) q r .brd cls (due cls deadline) [] ∧ r.off = off ∧
        r.len = len) ∧
    (fresh c .bwr → h.cls ∈ [0, 1, 2, 4] → h.len ≠ 0 → h.foff = 0 → d.payload.length = h.len →
      h.len ≤ y.pieceMax → free (xOffset h) h.len →
      y.routerCheck (y.sessHost h.session) true (xOffset h) h.len = true →
      ∃ r, enters (.bwr d) c r .bwr h.cls (due h.cls (xDeadline h)) d.payload ∧ r.off = xOffset h ∧
        r.len = h.len) ∧
    (fresh c .bwr → d.payload.length ≤ y.pieceMax → h.foff ≠ 0 ∨ d.payload.length ≠ h.len → (y.eth.stages.find? fun g => g.session == h.session && g.seq == h.seq) = none →
      y.staged + h.len ≤ 4194304 → h.foff + d.payload.length ≤ h.len →
      exec (.bwr d) s = .next { s with sys := { s.sys with chip := { y.leaveIngress c with
        eth.stages := y.eth.stages ++ [Stage.mk h.session h.seq h.tag h.cls (xOffset h) h.len (xDeadline h) y.now
          [(h.foff, d.payload)]] } } }) ∧
    (fresh q .svc → 4 ≤ data.length → data.length ≤ 8192 →
      ∃ r, enters (.svcReq q entry data) q r .svc 3 (y.now + 1000 * e.deadline) data ∧ r.entry = entry ∧
        r.part = e.part) ∧
    (∀ g, (y.eth.stages.find? fun g => g.session == session && g.seq == seq) = some g →
      (g.first + 1000 * max (y.fld (enPg + 0x80) 15 0) 1 ≤ y.now →
        ∃ z, exec (.enStageTmo session seq) s = .next { s with sys := z } ∧ z.mem = s.sys.mem ∧
          z.chip.eth.stages = y.eth.stages.filter (fun g => !(g.session == session && g.seq == seq)) ∧
          z.chip.reg (enPg + 0xA8) = (y.bump (enPg + 0xA8)).reg (enPg + 0xA8)) ∧
      (y.now < g.first + 1000 * max (y.fld (enPg + 0x80) 15 0) 1 →
        exec (.enStageTmo session seq) s = .next s))

/-- R237 to R240: ADMIT decides the next header of a chip that is READY: one that is answered or
REFUSED enters nothing, one that is accepted becomes a request with the next admission number. A
promise is accepted only where its placement ends 1,500 ticks before its T_d.

R246, R352, R453: an SVC_SET whose words are in order writes or clears its entry and is measured;
another answers NO_ACCESS and changes nothing. -/
def Obligations.Admission : Prop :=
  (
  ∀ (s : State),
    let y := s.sys.chip
    (y.isReady = false → exec .admitNext s = .next s) ∧
    (y.isReady = true → y.pairRole = 0 →
      (y.nextHdr = none → exec .admitNext s = .next s) ∧
      ∀ r, y.nextHdr = some r →
        let t := y.takeHdr r y.prom.seq
        (∀ st, t.2.verdict t.1 = .answer st → r.port ≠ 96 → r.kind ≠ .publish →
          ∃ z, exec .admitNext s = .next { s with sys := z } ∧ z.mem = s.sys.mem ∧
            z.chip.prom.reqs = y.prom.reqs ∧ z.chip.prom.ch = y.prom.ch ∧
            z.chip.prom.hdrs = y.prom.hdrs.filter (fun x => !(x.port == r.port)) ∧
            z.chip.out = y.out ++ [.packet ⟨y.respHd (reqHd t.1) st, []⟩]) ∧
        (∀ h, t.2.verdict t.1 = .refuse h → r.port ≠ 96 →
          ∃ z p, exec .admitNext s = .next { s with sys := z } ∧ z.mem = s.sys.mem ∧
            z.chip.prom.reqs = y.prom.reqs ∧ z.chip.prom.ch = y.prom.ch ∧
            z.chip.prom.hdrs = y.prom.hdrs.filter (fun x => !(x.port == r.port)) ∧
            z.chip.reg (prPg + 0x48) = (y.bump (prPg + 0x48)).reg (prPg + 0x48) ∧
            z.chip.out = y.out ++ [.packet p] ∧ p.hdr.typ = 9 ∧ p.hdr.value = h) ∧
        (∀ x u, t.2.verdict t.1 = .accept x u →
          ∃ z, exec .admitNext s = .next { s with sys := z } ∧ z.mem = s.sys.mem ∧
            ∃ x' ∈ z.chip.prom.reqs, x'.id = y.prom.seq ∧ x'.off = r.off ∧ x'.len = r.len ∧
              x'.td = t.1.td ∧ x'.kind = r.kind ∧ x'.promise = r.promise)) ∧
    (∀ r x u, y.verdict r = .accept x u → r.promise = true →
      (y.opens none).length < 65536 ∧
      (r.kind ≠ .svc → ∃ t v, y.place r = some (t, v) ∧ t + 1500 ≤ r.td) ∧
      (r.kind = .svc → ∃ cls t r' v,
        y.placeSvc r (KMap.at y.prom.svc {} r.entry) cls = some (t, r', v) ∧ t + 1500 ≤ r'.td))) ∧
  (
  ∀ (s : State) (q : CmdReq) (ws : List Word),
    let y := s.sys.chip
    let p := y.sessPart q.session
    let w := fun k => ws.getD k 0
    let n := Word.bits (w 1) 8 5 + 1
    let i := Word.bits (w 0) 7 0
    let old := KMap.at y.prom.svc {} i
    y.takesCmd q false →
    (∀ e : SvcEnt, e.valid = Word.bit (w 0) 8 → e.part = p → e.ctx = Word.bits (w 1) 4 0 →
      e.deadline = Word.bits (w 2) 13 0 → e.inT = Word.bits (w 3) 15 0 → e.outT = Word.bits (w 3) 31 16 →
      e.pre = Word.bits (w 4) 23 0 → e.occ = Word.bits (w 5) 16 0 → e.respBytes = Word.bits (w 6) 13 0 →
      e.accs = svcAccs n (ws.drop 7) →
      y.retiring = false → ws.length = 7 + 3 * n → svcRsvdOk ws = true → e.valid = false ∨ svcFieldsOk e = true →
      old.valid = false ∨ old.part = p →
      ∃ z, exec (.svcSet q ws) s = .next { s with sys := z } ∧ z.mem = s.sys.mem ∧ z.chip.answeredIs q .ok 0 ∧
        (∀ j, KMap.at z.chip.prom.svc {} j =
          if j = i then (if e.valid then e else {}) else KMap.at y.prom.svc {} j) ∧
        z.chip.att.mrun = sha384 (y.att.mrun ++ leBytes 4 0x11 ++ sha384 (ws.flatMap fun w => leBytes 4 w.toNat)) ∧
        z.chip.rights = y.rights) ∧
    (ws.length ≠ 7 + 3 * n ∨ svcRsvdOk ws = false ∨ (old.valid = true ∧ old.part ≠ p) →
      Answers (.svcSet q ws) s y q .noAccess 0))

/-- R231, R241, R246 to R251: a service request goes to its cluster, its digest is ready with its
response. An outcome leaves from its first reserved cell on, and what it reserved beyond now goes with it;
at a port that is down it ends FENCED, and one whose port has been down is lost after T_d. A promise with
no outcome at its last cell ends with a status and its holder is fenced. -/
def Obligations.PromiseLife : Prop :=
  ∀ (s : State) (i : Nat) (resp : List Byte) (vers : List Nat),
    let y := s.sys.chip
    let freed := fun (z : Sys) =>
      (∀ c ∈ z.chip.prom.ch, c.owner = i → c.slot ≤ y.slotAt y.now) ∧ (∀ c ∈ z.chip.prom.trk, c.owner ≠ i)
    (∀ r, (y.prom.reqs.find? fun r => r.id == i && r.kind == .svc && !r.dispatched && !r.sent) = some r →
      exec (.svcDispatch i) s = .next { s with sys := { s.sys with chip := { y with
        out := y.out ++ [.dispatch r.cluster i]
        prom.reqs := updWhere y.prom.reqs (fun x => x.id == i) fun x => { x with dispatched := true } } } }) ∧
    (∀ r, (y.prom.reqs.find? fun r =>
        r.id == i && r.kind == .svc && r.dispatched && r.resp.isNone && r.fixed.isNone && !r.sent) = some r →
      exec (.digestReady i resp vers) s = .next { s with sys := { s.sys with chip := { y with
        prom.reqs := updWhere y.prom.reqs (fun x => x.id == i) fun x => { x with
          resp := some resp
          dig := (sha384 (auditMsg r vers resp)).take 16 } } } }) ∧
    (y.pairRole = 0 → ∀ r st, (y.prom.reqs.find? fun r => r.id == i && !r.sent) = some r → y.outcome r = some st →
      let inTime := r.promise = false ∨ r.cut = false ∨ y.now ≤ r.td
      (inTime → y.portUp r.port = true → st ≠ .ok ∨ r.promise = false ∨ y.firstCell i ≤ y.now →
        ∃ z, exec (.responseSend i) s = .next { s with sys := z } ∧ z.mem = s.sys.mem ∧ freed z ∧
          (∀ x ∈ z.chip.prom.reqs, x.id = i → x.sent = true) ∧
          (r.port ≠ 96 → r.kind ≠ .svc → r.promise = true → ∃ p l, z.chip.out = y.out ++ .packet p :: l ∧
            p.hdr.typ = 8 ∧ p.hdr.status = stCode st ∧ p.hdr.tag = r.tag ∧ p.hdr.srcHost = r.host ∧
            p.hdr.dstChip = r.srcChip ∧ p.hdr.dstPort = r.srcPort ∧ (st ≠ .ok → p.payload = []))) ∧
      (inTime → y.portUp r.port = true → st = .ok → r.promise = true → y.now < y.firstCell i →
        exec (.responseSend i) s = .next s) ∧
      (inTime → y.portUp r.port = false →
        ∃ z, exec (.responseSend i) s = .next { s with sys := z } ∧ z.mem = s.sys.mem ∧
          z.chip.prom.reqs = y.prom.reqs.map fun x => if x.id = i ∧ x.sent = false
            then { x with
              cut := true
              fixed := if flipped x then x.fixed else fixStatus x.fixed y.now .fenced }
            else x) ∧
      (¬ inTime →
        ∃ z, exec (.responseSend i) s = .next { s with sys := z } ∧ z.mem = s.sys.mem ∧ freed z ∧
          (∀ x ∈ z.chip.prom.reqs, x.id ≠ i) ∧ (∀ c ∈ z.chip.prom.eg, c.owner = i → c.cell ≤ y.now / 128) ∧
          (∀ c ∈ z.chip.prom.cl, c.owner = i → c.c0 ≤ y.now / 128 ∧ c.c0 + c.n ≤ y.now / 128 + 1) ∧
          z.chip.reg (prPg + 0x50) = (y.bump (prPg + 0x50)).reg (prPg + 0x50))) ∧
    (∀ r, (y.prom.reqs.find? fun r => r.id == i && r.promise && !r.sent) = some r → y.egCells i ≠ [] →
      (y.outcome r = none → 128 * (y.egCells i).foldl max 0 ≤ y.now → y.isContained (y.holderOf r) = false →
        y.handling (y.holderOf r) = none → y.fenced1 (y.holderOf r) = false →
        ∃ z, exec (.promiseMiss i) s = .next { s with sys := z } ∧
          (∃ f ∈ z.chip.errs.fences, f.unit = y.holderOf r ∧ f.cause = .miss ∧ f.tx = y.now) ∧
          ∀ x, (z.chip.prom.reqs.find? fun r => r.id == i && r.promise && !r.sent) = some x → x.fixed.isSome = true) ∧
      (y.outcome r ≠ none ∨ y.now < 128 * (y.egCells i).foldl max 0 →
        exec (.promiseMiss i) s = .next s))

/-! ## Directory and published regions (chapter 09) -/

/-- R208, R209, R212 to R215, R219, R510: a lookup whose turn has come and whose set is there, or is read
first, lets a plain read whose check passes go on to its controller, a write of a block without an entry
too, and registers a first RDC; an earlier access to the block holds it. An acknowledgement takes its holder from the recall; a timeout
fences the entries that name an ACTIVE holder at a commit tick and completes the recall.

R511: DIR_SEL starts a lookup and shows it running, with a read of the block's set where that is
neither cached nor empty; once the set is there, its end shows the block's entry in DIR_E0 to DIR_E3 and
whether it was found; where the read brought nothing, only an entry under eviction is found. A write while
one runs is ignored. -/
def Obligations.DirectoryWork : Prop :=
  (
  ∀ (s : State) (src : BlkSrc) (a : Acc) (port i : Nat) (pkt : Packet),
    let y := s.sys.chip
    let h := pkt.hdr
    let u := y.foundSet (setOf a.b)
    let ready := fun (v : Chip) (f : Acc → Acc) => { v with
      accs := (v.accs.filter fun x => !(x.src == src)) ++ [f { a with
        phase := .ready
        checked := true
        lock := false }]
      duo.cause := none }
    let gives := fun (c : Chip) =>
      exec (.dirLookupDone src) s = .next { s with sys := { s.sys with chip := c } }
    let looked := (y.accs.find? fun a => a.src == src && a.phase == .waitDir) = some a ∧
      (y.accs.find? fun a => a.src == src) = some a
    (looked → (y.dirEarlier a = true ∨ y.dirBusy a.b = true) → exec (.dirLookupDone src) s = .next s) ∧
    (looked → y.dirEarlier a = false → y.dirBusy a.b = false → y.needsSet (setOf a.b) = true →
      gives (y.wantSet (setOf a.b) (y.ownerOfAcc a)) ∧
      ∃ x ∈ (y.wantSet (setOf a.b) (y.ownerOfAcc a)).accs, x.src = .set (setOf a.b) .lookup) ∧
    (looked → y.dirEarlier a = false → y.dirBusy a.b = false → y.needsSet (setOf a.b) = false →
        u.ctrlCheck a = (true, u) →
      (a.write = false → a.rdc = false → gives (ready u id)) ∧
      (a.write = true → y.entOf a.b = none → gives (ready u id)) ∧
      (∀ h k, a.write = false → a.rdc = true → y.accHost a = some h → y.mayRegister h a.b = true →
        y.oldBody a = false → y.entOf a.b = none → y.freeEnt (setOf a.b) = some k →
        gives (ready ((u.useSet (setOf a.b) true).setEnt k (newEnt a.b h a.excl)) fun a => { a with reg := true }))) ∧
    (y.standsBy = false → y.addressed = true → y.spoofed port h.srcHost = false → h.cls = 4 →
      (∀ t, (y.dir.trk.find? fun t => t.rseq == h.rseq && t.holders.contains h.srcHost) = some t →
        y.now ≤ t.issue + y.rclTmo →
        ∃ z, exec (.recallAck port pkt) s = .next { s with sys := z } ∧ z.mem = s.sys.mem ∧
          ∀ x ∈ z.chip.dir.trk, x.rseq = t.rseq → h.srcHost ∉ x.holders ∧ x.holders ≠ []) ∧
      ((y.dir.trk.find? fun t => t.rseq == h.rseq && t.holders.contains h.srcHost) = none →
        ∃ z, exec (.recallAck port pkt) s = .next { s with sys := z } ∧ z.mem = s.sys.mem ∧
          z.chip.dir = y.dir ∧ z.chip.reg (dirPg + 0x58) = (y.bump (dirPg + 0x58)).reg (dirPg + 0x58))) ∧
    (y.decidesAlone → ∀ t, (y.dir.trk.find? fun t => t.rseq == i) = some t →
      (t.issue + y.rclTmo ≤ y.now → t.kind = 0 → ∀ h l k x, t.holders = [h] → y.hostLease h = some (l, x) →
        leaseEff y.now x = 1 → y.namedBy h (some (t.what / 32768)) = [k] → y.fld (extPg + 0x78) 15 0 ≤ 300 →
        ∃ z, exec (.recallTimeout i) s = .next { s with sys := z } ∧ z.mem = s.sys.mem ∧
          (∀ x ∈ z.chip.dir.trk, x.rseq ≠ i) ∧
          z.chip.rights.commits = y.rights.commits ++ [(y.now + 300, .fence k (some h))]) ∧
      (y.now < t.issue + y.rclTmo → exec (.recallTimeout i) s = .next s)) ∧
    (∀ w, y.dir.waits[i]? = some w →
      (y.waitReady w = true → w.kind = 1 → y.leaseLive w.host = true → w.rev = none →
        (∀ t ∈ y.dir.trk, t.holders ≠ []) →
        ∃ z n, exec (.recallResourcesObtained i) s = .next { s with sys := z } ∧ z.mem = s.sys.mem ∧
          z.chip.dir.waits = y.dir.waits.eraseIdx i ∧
          ∃ t, z.chip.dir.trk = y.dir.trk ++ [t] ∧ t.rseq = n ∧ t.kind = 1 ∧ t.what = w.what ∧
            t.count = w.count ∧ t.holders = [w.host] ∧ t.issue = y.now) ∧
      (y.waitReady w = false → exec (.recallResourcesObtained i) s = .next s))) ∧
  (
  ∀ (s : State) (v : Word),
    let y := s.sys.chip
    let b := Word.bits v 27 0
    let read := y.mapBit (setOf b) && !y.setCached (setOf b)
    (y.flag (dirPg + 0x84) 0 = false →
      ∃ z, exec (.dirSel v) s = .next { s with sys := z } ∧
        Sys.onlyRegs { s.sys with chip := { y with
          dir.look := some ⟨b, read, false⟩
          accs := if read then y.accs ++ [y.setAccess (setOf b) .sel none] else y.accs } } z
          [dirPg + 0x70, dirPg + 0x84] ∧
        z.chip.reg (dirPg + 0x70) = BitVec.ofNat 32 b ∧ z.chip.reg (dirPg + 0x84) = 1) ∧
    (y.flag (dirPg + 0x84) 0 = true → exec (.dirSel v) s = .next s) ∧
    (∀ l, y.dir.look = some l → l.wait = true → exec .dirSelDone s = .next s) ∧
    (∀ l, y.dir.look = some l → l.wait = false →
      let found := if l.bad then y.evictedEnt l.b else y.findEnt l.b
      ∃ z, exec .dirSelDone s = .next { s with sys := z } ∧
        Sys.onlyRegs { s.sys with chip := { y with dir.look := none } } z
          [dirPg + 0x74, dirPg + 0x78, dirPg + 0x7C, dirPg + 0x80, dirPg + 0x84] ∧
        (∀ e, found = some e → z.chip.reg (dirPg + 0x84) = 2 ∧
          ∀ k < 4, z.chip.reg (dirPg + 0x74 + 4 * k) = BitVec.ofNat 32 ((entWords e).getD k 0)) ∧
        (found = none → z.chip.reg (dirPg + 0x84) = 0 ∧
          ∀ k < 4, z.chip.reg (dirPg + 0x74 + 4 * k) = 0)) ∧
    (y.dir.look = none → exec .dirSelDone s = .next s))

/-- R222, R225, R226: a region is created at a commit tick and READY when its shadow is copied; a
publish starts with its payload blocks going to the body that is not current, flips VERSION and CUR
at once, waits for the reads of the old body, and resyncs; one whose BASE is not VERSION ends
VERSION_CONFLICT and changes no body. -/
def Obligations.PublishedRegions : Prop :=
  ∀ (s : State) (q : CmdReq) (r base shadow count version : Nat),
    let y := s.sys.chip
    let p := y.sessPart q.session
    let g := y.region r
    let only := fun (z : Sys) (g : Region) =>
      z.mem = s.sys.mem ∧ ∀ i, z.chip.region i = if i = r then g else y.region i
    (y.takesCmd q false →
      (y.retiring = false → y.pubOk p base shadow count = true → y.freeRegion = some r →
        Pends (.pubCreate q base shadow count version) s { y with
          regions := KMap.put y.regions {} r { valid := true, base := base / 2048, shadow := shadow / 2048
                                               count := count, part := p, version := version, state := 3
                                               creating := some q }
          rights.commits := y.rights.commits ++ [(y.commitAt, .pub q r)] } q) ∧
      (y.pubOk p base shadow count = false ∨ y.freeRegion = none →
        Answers (.pubCreate q base shadow count version) s y q .noAccess 0) ∧
      (g.valid = true → g.created = true → g.part = p → g.state = 0 → g.queue = [] → g.deleting = none →
        (g.cur = 0 → Answers (.pubDelete q r) s { y with
          regions := KMap.del y.regions r
          prom.ch := y.prom.ch.filter fun c => !(c.owner == 2 ^ 32 + r)
          prom.win := y.prom.win.filter fun w => !(w.b == regionWin r)
          accs := y.accs.filter fun a => match a.src with
            | .region i _ => !(i == r)
            | _ => true } q .ok 0) ∧
        (g.cur = 1 → Pends (.pubDelete q r) s { y with regions := KMap.put y.regions {} r { g with
          deleting := some q
          delCopy := true
          state := 3
          copyPos := 0 } } q)) ∧
      (g.valid = false ∨ g.created = false ∨ g.part ≠ p ∨ g.state ≠ 0 ∨ g.queue ≠ [] →
        Answers (.pubDelete q r) s y q .noAccess 0)) ∧
    (g.creating = some q →
      (g.created = true → g.count ≤ g.copyPos → Answers (.pubCreateReady r) s { y with
        regions := KMap.put y.regions {} r { g with
          state := 0
          creating := none
          copyPos := 0 } } q .ok r) ∧
      (g.created = false ∨ g.copyPos < g.count → exec (.pubCreateReady r) s = .next s)) ∧
    (∀ u l x, g.queue = u :: l → (y.prom.reqs.find? fun x => x.id == u.req) = some x →
      x.fixed = none → x.sent = false →
      (g.created = true → g.state = 0 → g.version ≠ u.base →
        ∃ z, exec (.publishStart r) s = .next { s with sys := z } ∧ only z { g with queue := l } ∧
          (flipped x = false → (z.chip.prom.reqs.find? fun x => x.id == u.req) =
            some { x with fixed := some (y.now, .versionConflict) })) ∧
      (∀ bs, bs = (List.range u.n).map (g.base + u.k0 + ·) → g.created = true → g.state = 0 →
        g.version = u.base → y.pubReady x bs = true →
        y.pubSets bs = [] → bs.all (y.ctrlGrants x) = true → (∀ b ∈ bs, y.entOf b = none) → y.pairRole = 0 →
        ∃ z, exec (.publishStart r) s = .next { s with sys := z } ∧
          only z { unlockPub g with
            state := 1
            run0 := u.k0
            runN := u.n
            pendBlks := [] } ∧
          (∃ k, z.chip.accs = y.accs ++ y.pubAccs { x with body := 1 - g.cur, nblks := u.n } ++ k) ∧
          z.chip.dir.ents = y.dir.ents ∧ z.chip.dir.trk = y.dir.trk) ∧
      (g.state = 1 → (∀ a ∈ y.accs, ∀ k, a.src = .req u.req k → a.phase = .served) →
        (∀ t ∈ y.dir.trk, t.after ≠ .flip r) → g.pendBlks = [] →
        ∃ z d, exec (.publishFlip r) s = .next { s with sys := z } ∧
          only z { g with
            queue := l
            cur := 1 - g.cur
            version := u.new
            flip := y.now
            state := 2
            drain := d })) ∧
    (g.state = 2 → (y.prom.hdrs ++ y.prom.reqs).any (readsOld r g) = false → (∀ id ∈ g.drain, ∀ x ∈ y.prom.reqs, x.id = id → x.sent = true) →
      (∀ a ∈ y.accs, ∀ c e k, a.src = .copy c e k → a.phase = .served) →
      ∃ z, exec (.publishDrainEnd r) s = .next { s with sys := z } ∧
        only z { g with
          state := 3
          copyPos := 0 } ∧
        z.chip.accs.length = y.accs.length + g.runN) ∧
    (g.state = 3 → g.created = true → g.creating = none → g.delCopy = false →
      (g.runN ≤ g.copyPos → g.delWanted = false →
        ∃ z, exec (.publishResyncEnd r) s = .next { s with sys := z } ∧
          only z { g with
            state := 0
            runN := 0
            copyPos := 0
            drain := [] } ∧
          z.chip.rights = y.rights ∧ z.chip.dir = y.dir) ∧
      (g.runN ≤ g.copyPos → g.delWanted = true →
        ∃ z, exec (.publishResyncEnd r) s = .next { s with sys := z } ∧ z.mem = s.sys.mem ∧
          z.chip.region r = if g.cur = 1
            then { g with
              state := 3
              runN := 0
              copyPos := 0
              drain := []
              delWanted := false
              delCopy := true }
            else {}) ∧
      (g.copyPos < g.runN → exec (.publishResyncEnd r) s = .next s))

/-! ## Links (chapter 11) -/

/-- R257, R260 to R263, R268, R269, R271: the oldest received flit of a link that is UP: its ACK frees
what it acknowledges, or brings the link down with PROTO; in order it takes its place, a credit or an
off vector takes effect, and RX_NEXT advances; out of order it is counted and nothing else; beyond the
buffer it is counted and not accepted. -/
def Obligations.LinkFlits : Prop :=
  ∀ (s : State) (l : LinkNo) (f : Flit) (q : List Flit),
    let y := s.sys.chip
    let x := y.lk l
    let pg := lkPg l
    let u := y.unack l
    let n := seqDist (f.ack + 1) u
    let b := (y.setLk l { x with rx := q }).ackReceive l f.ack
    let d := seqDist (y.rxNext l) f.seq
    let v := f.vc
    let k := byteAt f.payload 0
    let gives := fun (i : Instr) (t : Chip) => exec i s = .next { s with sys := { s.sys with chip := t } }
    let counts := fun (i : Instr) (a : Nat) => ∃ t, gives i t ∧ b.onlyLink t l [a] ∧ t.lk l = b.lk l ∧
      (t.reg a).toNat = min ((b.reg a).toNat + 1) 0xffffffff
    let accepts := fun (i : Instr) (regs : List Nat) (p : Chip → Lnk → Prop) => ∃ t, gives i t ∧
      b.onlyLink t l ((pg + 0x50) :: regs) ∧ t.rxNext l = (y.rxNext l + 1) % 4096 ∧ p t (t.lk l)
    x.rx = f :: q → y.lkState l = 4 →
    (n = 0 → b = y.setLk l { x with rx := q }) ∧
    (0 < n → n ≤ seqDist (y.txNext l) u → y.onlyLink b l [pg + 0x4C] ∧ b.unack l = (u + n) % 4096 ∧
      (b.lk l).replay = x.replay.drop n ∧ (b.lk l).expiries = 0 ∧ (b.lk l).timerAt = y.now) ∧
    (seqDist (y.txNext l) u < n → f.typ = 0 → ∃ t, gives (.nullFlit l f) t ∧ t.lkState l = 1 ∧
      t.fld (pg + 0xB0) 3 0 = 4 ∧ ∃ a, (t.lk l).ask = some a ∧ a.reset = false ∧ a.left = 16 ∧ a.own = true) ∧
    (n ≤ seqDist (y.txNext l) u →
      (f.typ = 0 → gives (.nullFlit l f) b) ∧
      (f.typ = 7 → counts (.holdFlit l f) (pg + 0xC0)) ∧
      (0 < d → ∀ i, ((1 ≤ f.typ ∧ f.typ ≤ 4) ∧ i = .sequencedFlit l f) ∨ (f.typ = 5 ∧ k = 1 ∧ i = .lctlCredit l f) ∨
          (f.typ = 5 ∧ k = 2 ∧ i = .lctlXstate l f) →
        (d ≤ 2048 → counts i (pg + 0x70)) ∧ (2048 < d → counts i (pg + 0x74))) ∧
      (d = 0 → gateBit x.vcEn v = true → x.onOff = true ∨ f.fc = 0 →
        (f.typ = 5 → k = 2 → accepts (.lctlXstate l f) [] fun _ z => z = { b.lk l with off := byteAt f.payload 1 }) ∧
        (1 ≤ f.typ → f.typ ≤ 4 → 4 ≤ v → bufCount x v < sizeOf x v →
          (f.typ = 1 ∨ f.typ = 4 → KMap.at x.openRx none v = none → ∀ m, flitsNeeded f.payload = some m →
            (f.typ = 4 → m = 1) →
            accepts (.sequencedFlit l f) [] fun _ z => z.buf = x.buf ++ [f] ∧ z.heads = x.heads ∧
              KMap.at z.openRx none v = if f.typ = 4 then none else some ⟨m, 1, false⟩) ∧
          (∀ o, KMap.at x.openRx none v = some o →
            (f.typ = 2 → accepts (.sequencedFlit l f) [] fun _ z => z.buf = x.buf ++ [f] ∧
              KMap.at z.openRx none v = some { o with got := o.got + 1 }) ∧
            (f.typ = 3 → o.got + 1 = o.need → accepts (.sequencedFlit l f) [] fun _ z =>
              z.buf = x.buf ++ [f] ∧ KMap.at z.openRx none v = none))) ∧
        (1 ≤ f.typ → f.typ ≤ 4 → sizeOf x v ≤ bufCount x v → ∃ t, gives (.sequencedFlit l f) t ∧
          t.links = b.links ∧ t.rxNext l = y.rxNext l ∧
          (t.reg (pg + 0x80)).toNat = min ((b.reg (pg + 0x80)).toNat + 1) 0xffffffff)) ∧
      (d = 0 → gateBit x.vcEn v = true → f.typ = 5 → k = 1 → x.onOff = false →
        let back := fun w => byteAt f.payload (1 + w) + if w = v then f.fc else 0
        v < 8 → (∀ w < 8, y.creditOf l w + back w ≤ min (x.peerSize.getD w 0) 1023) →
        accepts (.lctlCredit l f) ((List.range 8).map (pg + 0x88 + 4 * ·)) fun t z =>
          z = b.lk l ∧ ∀ w < 8, t.creditOf l w = y.creditOf l w + back w))

/-- R264, R265, R268, R273, R274, R276, R280, R281, R301, R379: the timers of a link, and what brings it
down: the state is TRAIN, LAST_DOWN names the cause and its tick, the retraining request is sent in 16
codewords, the flits not yet handled are gone, what is unacknowledged is kept; no other link is concerned
while fabric time is not stepped to a first parent. Each timer acts from its tick on and does nothing
before it. -/
def Obligations.LinkTimers : Prop :=
  ∀ (s : State) (l : LinkNo),
    let y := s.sys.chip
    let x := y.lk l
    let pg := lkPg l
    let gives := fun (i : Instr) (t : Chip) => exec i s = .next { s with sys := { s.sys with chip := t } }
    let same := fun (i : Instr) => exec i s = .next s
    let falls := fun (i : Instr) (cause : Nat) (reset : Bool) (p : Lnk → Prop) => ∃ t, gives i t ∧
      t.lkState l = 1 ∧ t.fld (pg + 0xB0) 3 0 = cause ∧ t.pair (pg + 0xB4) = y.now % 2 ^ 64 ∧
      (∃ a, (t.lk l).ask = some a ∧ a.reset = reset ∧ a.left = 16 ∧ a.own = true) ∧ (t.lk l).rx = [] ∧
      (t.lk l).holdAt = none ∧ (t.lk l).replay = x.replay ∧ p (t.lk l) ∧
      (y.isMaster = true ∨ y.ft.had = true ∨ y.ftParent = none → ∀ k : Nat, k ≠ l.val → t.lk k = y.lk k)
    let stalled := max (y.fld (pg + 0x54) 19 16) 1 ≤ x.expiries ∨ x.uAt + 4608 ≤ y.now
    (if y.lkState l = 4 then falls (.retrain l) 6 false fun _ => True else same (.retrain l)) ∧
    (if y.timerOn l = true ∧ stalled then falls (.replayStall l) 3 false fun _ => True
     else same (.replayStall l)) ∧
    (if y.timerOn l = true ∧ x.timerAt + max (y.fld (pg + 0x54) 15 0) 512 ≤ y.now then
       ∃ t, gives (.replayTimer l) t ∧ y.onlyLink t l [pg + 0x58] ∧
         t.lk l = { x with
           replayPos := some 0
           timerAt := y.now
           expiries := x.expiries + 1 } ∧
         (t.reg (pg + 0x58)).toNat = min ((y.reg (pg + 0x58)).toNat + 1) 0xffffffff
     else same (.replayTimer l)) ∧
    (if x.onOff = false ∧ ∃ e ∈ x.owed, ∃ t ∈ e.2, t + 8 * max (y.fld (pg + 0x84) 15 8) 1 ≤ y.now then
       gives (.creditAge l) (y.setLk l { x with creditDue := true })
     else same (.creditAge l)) ∧
    (∀ a, x.holdAt = some a →
      (a + 2048 ≤ y.now → ∃ t, gives (.holdTimeout l) t ∧ t.inHold l = false ∧ t.lkState l = y.lkState l ∧
        t.lk l = { x with
          holdAt := none
          timerAt := resumeAt x.timerAt a y.now
          uAt := resumeAt x.uAt a y.now }) ∧
      (y.now < a + 2048 → same (.holdTimeout l))) ∧
    (x.holdAt = none → same (.holdTimeout l)) ∧
    (y.lkState l = 3 → lnkCfgOk x = true → x.peer = none ∨ (∃ i, x.peer = some i ∧ lnkAgrees x i = true) →
      if x.initAt + 2000 ≤ y.now then falls (.initTimeout l) 7 false fun _ => True else same (.initTimeout l)) ∧
    (if y.lkState l = 2 ∧ x.lockAt + 1000000 ≤ y.now then ∃ t, gives (.lockTimeout l) t ∧
       y.onlyLink t l [pg + 0x44] ∧ t.lkState l = 1 ∧ t.lk l = { x with mustFull := true }
     else same (.lockTimeout l)) ∧
    ((y.linkRole l).1 ≠ 0 → x.resetting = false → y.lkState l = 3 ∨ y.lkState l = 4 →
      falls (.linkReset l) 8 true fun z => z.resetting = true ∧ z.resume = false ∧ z.mustFull = true) ∧
    ((y.linkRole l).1 ≠ 0 → x.resetting = false → y.lkState l ≠ 3 → y.lkState l ≠ 4 →
      ∃ t, gives (.linkReset l) t ∧ t.lkState l = 1 ∧ (t.lk l).resetting = true ∧ (t.lk l).resume = false ∧
        (t.lk l).mustFull = true ∧ (∀ k : Nat, k ≠ l.val → t.lk k = y.lk k) ∧
        if y.lkState l = 2 ∨ (y.lkState l = 1 ∧ x.ask.isSome = true)
        then (t.lk l).ask = some ⟨true, 16, true, y.now⟩ else (t.lk l).ask = x.ask) ∧
    ((y.linkRole l).1 = 0 ∨ x.resetting = true → same (.linkReset l)) ∧
    (if y.timeLink l = true ∧ x.askedAt + max (y.fld (ftPg + 0x6C) 15 0) 256 ≤ y.now then
       gives (.ftPeriodExpiry l) (y.setLk l { x with
         timeDue := true
         askedAt := y.now })
     else same (.ftPeriodExpiry l))

/-- R255, R259, R267, R273, R276 to R279, R386: a training that succeeds leads to LOCK, one that fails is
repeated, full, and the last attempt fences the link; eight good codewords in a row lead from LOCK to
INIT, which takes over VC_EN, FC_MODE and the sizes; in UP the flits of a good codeword wait for their
handling; an uncorrectable one counts five CRC errors; an INIT whose configuration does not agree sets
CFG; an INIT that agrees and was seen leads to UP, resumed with the partner's RXNEXT, or afresh with
the partner's free space as credits and the next session. -/
def Obligations.LinkTraining : Prop :=
  ∀ (s : State) (l : LinkNo) (flight : Nat) (cw : Codeword) (i : InitInfo) (h : Flit) (q : List Flit),
    let y := s.sys.chip
    let x := y.lk l
    let pg := lkPg l
    let gives := fun (c : Instr) (t : Chip) => exec c s = .next { s with sys := { s.sys with chip := t } }
    let tries := y.fld (pg + 0x44) 11 8 + 1
    let most := max (y.fld (pg + 0xBC) 3 0) 1
    let good := if x.good = 0 ∨ cw.cwn = (x.cwn + 1) % 5 then x.good + 1 else 1
    (y.lkState l = 1 → x.ask = none → x.noPll = false →
      (∀ full, (x.mustFull = true → full = true) →
        ∃ t, gives (.trainingDone l full true flight) t ∧ y.onlyLink t l [pg + 0x44, pg + 0xA8] ∧
          t.lkState l = 2 ∧ t.fld (pg + 0x44) 11 8 = 0 ∧ t.fld (pg + 0xA8) 7 0 = flight % 256 ∧
          t.lk l = { x with
            lockAt := y.now
            good := 0
            bad := 0
            mustFull := false }) ∧
      (x.mustFull = false →
        gives (.trainingDone l false false flight) (y.setLk l { x with mustFull := true })) ∧
      (tries < most → ∃ t, gives (.trainingDone l true false flight) t ∧ y.onlyLink t l [pg + 0x44] ∧
        t.lkState l = 1 ∧ t.fld (pg + 0x44) 11 8 = min tries 15 ∧ t.lk l = { x with mustFull := true }) ∧
      (most ≤ tries → y.isContained (.link l) = false → y.handling (.link l) = none →
        y.fenced1 (.link l) = false → ∃ t, gives (.trainingDone l true false flight) t ∧
          ∃ f ∈ t.errs.fences, f.unit = .link l ∧ f.cause = .link ∧ f.tx = y.now)) ∧
    (y.lkState l ≠ 1 ∨ x.ask.isSome = true ∨ x.noPll = true → ∀ full ok, exec (.trainingDone l full ok flight) s = .next s) ∧
    (y.lkState l = 0 ∨ y.lkState l = 5 ∨ (y.lkState l = 1 ∧ x.ask = none) ∨ x.noPll = true → exec (.codeword l cw) s = .next s) ∧
    (x.noPll = false → cw.uncorrectable = false → cw.mark = 0x2D3 → cw.lstate = 0 →
        (∀ f ∈ cw.flits, f.crc = flitCrc f) →
      (y.lkState l = 2 → ∃ t, gives (.codeword l cw) t ∧ (∀ k : Nat, k ≠ l.val → t.lk k = y.lk k) ∧
        (t.reg (pg + 0x68)).toNat = min ((y.reg (pg + 0x68)).toNat + cw.corrected) 0xffffffff ∧
        (good < 8 → y.onlyLink t l [pg + 0x68] ∧ t.lk l = { x with
          good := good
          bad := 0
          cwn := cw.cwn
          peerAsks := 0 }) ∧
        (8 ≤ good → t.lkState l = 3 ∧ (t.lk l).initAt = y.now ∧ (t.lk l).peer = none ∧
          (t.lk l).vcEn = y.fld (pg + 0x40) 15 8 ∧ (t.lk l).onOff = y.flag (pg + 0x40) 1 ∧
          (t.lk l).sizes = (List.range 8).map fun v => y.fld (pg + 0x88 + 4 * v) 9 0)) ∧
      (y.lkState l = 4 → ∃ t, gives (.codeword l cw) t ∧
        y.onlyLink t l [pg + 0x68] ∧ t.lk l = { x with
          rx := x.rx ++ cw.flits
          good := good
          bad := 0
          cwn := cw.cwn
          peerAsks := 0 })) ∧
    (x.noPll = false → cw.uncorrectable = true → y.lkState l = 2 → ∃ t, gives (.codeword l cw) t ∧
      t.lkState l = 2 ∧ (∀ k : Nat, k ≠ l.val → t.lk k = y.lk k) ∧
      (t.reg (pg + 0x6C)).toNat = min ((y.reg (pg + 0x6C)).toNat + 1) 0xffffffff ∧
      (t.reg (pg + 0x64)).toNat = min ((y.reg (pg + 0x64)).toNat + 5) 0xffffffff ∧
      ∃ e, t.lk l = { x with
        good := 0
        bad := x.bad + 1
        peerAsks := 0
        errs := e }) ∧
    (let b := (y.setLk l { x with rx := q }).ackReceive l h.ack
     x.rx = h :: q → h.typ = 6 → initOf h.payload = i → y.lkState l = 3 →
      (lnkCfgOk x = false ∨ lnkAgrees x i = false → ∃ t, gives (.initFlit l i) t ∧ t.lkState l = 3 ∧
        t.lk l = { b.lk l with peer := some i } ∧ t.flag (errStat pg) 7 = true) ∧
      (lnkCfgOk x = true → lnkAgrees x i = true →
        (i.seen = false → gives (.initFlit l i) (b.setLk l { b.lk l with peer := some i })) ∧
        (i.seen = true → b.resumes l i = true → ∃ t, gives (.initFlit l i) t ∧ t.lkState l = 4 ∧
          t.unack l = i.rxNext % 4096 ∧ t.txNext l = y.txNext l ∧ t.rxNext l = y.rxNext l ∧
          (y.isMaster = true ∨ y.ft.had = true ∨ (y.ftParent = none ∧ x.nbrLocked = false) →
            ∀ k : Nat, k ≠ l.val → t.lk k = y.lk k) ∧
          (t.lk l).replay = (b.lk l).replay.drop (seqDist i.rxNext (b.unack l)) ∧ (t.lk l).expiries = 0 ∧
          (t.lk l).buf = x.buf ∧ (t.lk l).txq = x.txq) ∧
        (i.seen = true → b.resumes l i = false → ∃ t, gives (.initFlit l i) t ∧ t.lkState l = 4 ∧
          t.txNext l = 0 ∧ t.unack l = 0 ∧ t.rxNext l = 0 ∧ t.lkSession l = (y.lkSession l + 1) % 65536 ∧
          (∀ v < 8, t.creditOf l v = i.free.getD v 0 % 1024) ∧ (t.lk l).replay = [] ∧
          (t.lk l).met = true ∧ (t.lk l).peerSession = (i.session + 1) % 65536)))

/-! ## Transmission, routing, roles, time, plans, shaping and gates (chapters 11 to 13) -/

/-- R255, R261, R263, R264, R268, R271 to R273, R276, R278, R280, R301: a flit time of a link, once. A
codeword that starts sends its header. A link in TRAIN sends NULLs under its request for 16 codewords and
is then silent, or OFF where it has no role; in LOCK it sends NULLs, in INIT its INIT; in UP the INITs still
to be sent, in HOLD a HOLD, in a replay the next flit with the present ACK, a due LCTL or time record in
the last two flit times of a cell, a flit of a response that holds a reservation under the next number
and for a credit, and with nothing to send a NULL. A whole packet leaves the receive buffer with its last
flit, and a credit is owed for each flit. -/
def Obligations.FlitTime : Prop :=
  ∀ (s : State) (l : LinkNo),
    let y := s.sys.chip
    let x := y.lk l
    let n := y.now * 25 / 128
    let c := n / 5 % 5
    let starts : Bool := match x.flitNo with
      | some m => m / 5 != n / 5
      | none => true
    let used := { x with flitNo := some n }
    let head := if starts then [Out.cwHead l (cwHeader c 0)] else []
    let null := Out.flit l (y.plainFlit l 0 [])
    let gives := fun (t : Chip) => exec (.flitTime l) s = .next { s with sys := { s.sys with chip := t } }
    let sends := fun (z : Lnk) (os : List Out) => ∃ u : Chip, gives u.reapReqs ∧ u = { y with
      links := u.links
      out := y.out ++ os } ∧ u.lk l = z ∧ ∀ k : Nat, k ≠ l.val → u.lk k = y.lk k
    let numbers := fun (g : Flit) (u : Chip) => gives u.reapReqs ∧ u.out = y.out ++ head ++ [.flit l g] ∧
      g.seq = y.txNext l ∧ g.ack = y.ackOf l ∧ g.crc = flitCrc g ∧ u.txNext l = (y.txNext l + 1) % 4096 ∧
      (u.lk l).replay = x.replay ++ [g]
    let inTime := ∀ e ∈ x.txq, ∀ f ∈ e.2, ∀ r, f.resv = some r → r.replaced = false ∨ y.now ≤ r.td
    (x.flitNo = some n → exec (.flitTime l) s = .next s) ∧
    (x.flitNo ≠ some n → x.noPll = true → gives (y.dropLate l).reapReqs) ∧
    (x.flitNo ≠ some n → x.noPll = false → inTime →
      (∀ f q, x.buf = f :: q → y.lkState l = 2 → ∃ u : Chip, gives u.reapReqs ∧ (u.lk l).buf = q ∧
        let fs := KMap.at x.gather [] f.vc ++ [f]
        let whole := f.typ = 3 ∨ f.typ = 4
        u.out = y.out ++ (if whole then fs.map (.deliver l) else []) ++ head ++ [null] ∧
        KMap.at (u.lk l).gather [] f.vc = (if whole then [] else fs) ∧
        KMap.at (u.lk l).owed [] f.vc = KMap.at x.owed [] f.vc ++ [y.now]) ∧
      (x.buf = [] →
        (y.lkState l = 1 → x.ask = none → sends used []) ∧
        (∀ a, y.lkState l = 1 → x.ask = some a →
          (starts = false → sends used [null]) ∧
          (starts = true → 0 < a.left → sends { used with ask := some { a with left := a.left - 1 } }
            [.cwHead l (cwHeader c (if a.reset then 2 else 1)), null]) ∧
          (starts = true → a.left = 0 → (y.linkRole l).1 ≠ 0 → sends { used with ask := none } []) ∧
          (starts = true → a.left = 0 → (y.linkRole l).1 = 0 → ∃ u : Chip, gives u.reapReqs ∧ u.lkState l = 0 ∧
            u.out = y.out ∧ (u.lk l).ask = none)) ∧
        (y.lkState l = 2 → sends used (head ++ [null])) ∧
        (y.lkState l = 3 → sends used (head ++ [.flit l (y.plainFlit l 6 (initBytes (y.initInfo l)))])) ∧
        (y.lkState l = 4 → 0 < x.inits → sends { used with inits := x.inits - 1 }
          (head ++ [.flit l (y.plainFlit l 6 (initBytes (y.initInfo l)))])) ∧
        (y.lkState l = 4 → x.inits = 0 → y.inHold l = true → sends used (head ++ [.flit l (y.plainFlit l 7 [])])) ∧
        (y.lkState l = 4 → x.inits = 0 → y.inHold l = false →
          (∀ p f, x.replayPos = some p → x.replay[p]? = some f → x.txq = [] → y.lctlDue l = false →
            let first := x.replay.length ≤ p + x.firsts
            ∃ u : Chip, gives u.reapReqs ∧ u.out = y.out ++ head ++ [.flit l (withCrc { f with ack := y.ackOf l })] ∧
              (u.reg (lkPg l + 0x5C)).toNat =
                min ((y.reg (lkPg l + 0x5C)).toNat + if first then 0 else 1) 0xffffffff ∧
              (u.lk l).replay = x.replay ∧ (u.lk l).firsts = (if first then x.firsts - 1 else x.firsts) ∧
              (u.lk l).replayPos = if p + 1 < x.replay.length then some (p + 1) else none) ∧
          (x.replayPos = none →
            (x.txq = [] → y.ctlDue l = false →
              sends { used with since := sinceAfter x [] n none } (head ++ [null])) ∧
            (23 ≤ n % 25 → y.lctlDue l = true → x.xstateDue = true → ∃ u g, numbers g u ∧ g.typ = 5 ∧ g.vc = 4 ∧
              g.payload = flitPay [2, BitVec.ofNat 8 x.offNow] ∧ (u.lk l).offSent = x.offNow ∧
              (u.lk l).xstateDue = false) ∧
            (23 ≤ n % 25 → y.lctlDue l = true → x.xstateDue = false → ∃ u g, numbers g u ∧ g.typ = 5 ∧ g.vc = 4 ∧
              g.payload = flitPay (1 :: (List.range 8).map fun v => BitVec.ofNat 8 (min (owedOf x v) 255))) ∧
            (23 ≤ n % 25 → y.lctlDue l = false → x.timeDue = true → ∃ r : TimeRec, r.t1 = 16 * y.now ∧
              r.t2 = x.nbrT4 ∧ r.t3 = x.nbrT1 ∧ sends { used with timeDue := false }
                (head ++ [.flit l (y.plainFlit l 0 (Config.timeBytes r)), .timeRec l r])) ∧
            (n % 25 < 23 → x.replay.length < 1024 → y.planVc l (n % 25) = none → ∀ v f r q,
              v = 4 ∨ v = 5 ∨ v = 6 ∨ v = 7 → (∀ w, 4 ≤ w → w < v → headResv x w = false) →
              KMap.at x.txq [] v = f :: q → f.resv = some r → y.now ≤ r.td → y.canSend l v = true →
              x.onOff = false → ∃ u g, numbers g u ∧ g.vc = v ∧ g.typ = f.typ ∧
                u.creditOf l v = y.creditOf l v - 1 ∧ KMap.at (u.lk l).txq [] v = q)))))

/-- R286 to R288, R290 to R294, R509: the router: a packet for another chip leaves by a link of the
bundle its dimension order and PICK give, on the VC its class and the wrap link give; one for a host of
this chip by that host's link; one that has no route is counted. RT_ROLE gives a link its role; a link
that loses its role sends its reset request first. -/
def Obligations.Routing : Prop :=
  ∀ (s : State) (port vc : Nat) (pkt : Packet) (v : Word),
    let y := s.sys.chip
    let h := pkt.hdr
    let w := KMap.at y.coord 0 h.dstChip
    let gives := fun (i : Instr) (t : Chip) => exec i s = .next { s with sys := { s.sys with chip := t } }
    let leaves := fun (k u : Nat) => ∃ t, gives (.forward port vc pkt) t ∧
      t.out = y.out ++ [.forward k u pkt] ∧
      (t.reg (rtPg + 0x88)).toNat = ((y.reg (rtPg + 0x88)).toNat + 1) % 2 ^ 32 ∧
      KMap.at (t.lk k).txq [] u =
        KMap.at (y.lk k).txq [] u ++ packetFlits ⟨pkt, false, none, none, false⟩ u ∧
      ∀ j, j ≠ k → j ≠ port → t.lk j = y.lk j
    let sel := y.fld (rtPg + 0x50) 6 0
    let role := Word.bits v 1 0
    let dir := Word.bits v 6 4
    (y.addressed = true → port < 96 → vc < 8 → (y.linkRole port).1 = 2 →
      (h.dstChip ≠ y.selfChip → ∀ d minus k first, Word.bit w 31 = true → y.nextHop w = some (d, minus) →
        y.pickLink (y.bundle (2 * d + if minus then 1 else 0)) h.srcHost h.dstChip = some (k, first) → 4 ≤ vc →
        leaves k (lowVc h + if wrapHop (y.selfAt d) (y.torus d) minus = true ∨
          ((y.linkRole port).2 / 2 = d ∧ vc % 2 = 1) then 1 else 0)) ∧
      (h.dstChip = y.selfChip → h.dstPort < 96 → (y.linkRole h.dstPort).1 = 1 → 4 ≤ vc →
        leaves h.dstPort (lowVc h)) ∧
      (h.dstChip ≠ y.selfChip → Word.bit w 31 = false → respClass h = true → ∃ t,
        gives (.forward port vc pkt) t ∧
        (t.reg (rtPg + 0x70)).toNat = min ((y.reg (rtPg + 0x70)).toNat + 1) 0xffffffff ∧
        ∀ j, j ≠ port → t.lk j = y.lk j)) ∧
    (∀ o q, y.addressed = true → y.own = o :: q → o.pkt = pkt → o.lone = true ∨ y.pairRole = 0 →
      h.dstChip = y.selfChip → h.dstPort < 96 → (y.linkRole h.dstPort).1 = 1 → ∃ u : Chip,
        gives (.forward 127 vc pkt) u.reapReqs ∧ u.own = q ∧
        u.out = y.out ++ [.forward h.dstPort (lowVc h) pkt]) ∧
    (96 ≤ sel → ∃ t, gives (.rtRole v) t ∧ s.sys.onlyRegs { s.sys with chip := t } [glbPg + 0x7C] ∧
      (t.reg (glbPg + 0x7C)).toNat = min ((y.reg (glbPg + 0x7C)).toNat + 1) 0xffffffff) ∧
    (sel < 96 → y.roleRefused sel role dir = true → ∃ t, gives (.rtRole v) t ∧ t.roles = y.roles ∧
      t.links = y.links) ∧
    (sel < 96 → y.roleRefused sel role dir = false → ∃ t, gives (.rtRole v) t ∧ t.linkRole sel = (role, dir) ∧
      (∀ k, k ≠ sel → t.linkRole k = y.linkRole k) ∧
      (y.linkRole sel ≠ (role, dir) → (y.linkRole sel).1 ≠ 0 → role = 0 →
        let x := y.lk sel
        (y.lkState sel ∈ [2, 3, 4] → x.resetting = false → x.noPll = false →
          t.lkState sel = 1 ∧ ∃ a, (t.lk sel).ask = some a ∧ a.reset = true) ∧
        (y.lkState sel ∈ [0, 1, 5] → x.ask = none → t.lkState sel = 0)))

/-- R300 to R304, R308, R309: a time record stores the partner's offset, lock and depth and steers fabric
time where the link is the parent's; TIME is answered with the correspondence and its tick; a plan is
loaded, committed, aborted by the hosts that may, refused with the code of the first check that fails,
and taken over at TAKE. -/
def Obligations.TimeAndPlans : Prop :=
  ∀ (s : State) (l : LinkNo) (r : TimeRec) (port : Nat) (pkt : Packet),
    let y := s.sys.chip
    let x := y.lk l
    let h := pkt.hdr
    let ofs : Int := (((r.t2 : Int) - r.t1) - ((r.t4 : Int) - r.t3)) / 2
    let x' := { x with
      ofs := ofs
      nbrLocked := r.locked
      nbrDepth := r.depth
      nbrT1 := r.t1
      nbrT4 := r.t4 }
    let gives := fun (i : Instr) (t : Chip) => exec i s = .next { s with sys := { s.sys with chip := t } }
    let passed := y.addressed = true ∧ y.spoofed port h.srcHost = false ∧ h.cls = 4
    let first := payNat pkt.payload 8 2
    let n := payNat pkt.payload 10 2
    let pid := payNat pkt.payload 4 4
    let take := payNat pkt.payload 16 8
    let frame := payNat pkt.payload 8 2 + 65536 * (payNat pkt.payload 10 2 % 32)
    let named := y.plan.named = true ∧ (y.reg (planPg + 0x48)).toNat = pid
    let timely := y.now + 100000 ≤ take ∧ if y.planActive = true
      then y.pair (planPg + 0x50) ≤ take ∧ (take - y.pair (planPg + 0x50)) % (max (y.fld (planPg + 0x4C) 20 0) 1) = 0
      else take % 128 = 0
    let said := fun (t : Chip) (st : Status) => t.out.getLast? = some (.packet ⟨y.respHd h st, []⟩)
    let refuses := fun (i : Instr) (code : Nat) => ∃ t, gives i t ∧ t.plan = y.plan ∧ said t .noAccess ∧
      t.fld (planPg + 0x60) 3 0 = code ∧ t.planPending = y.planPending
    (y.timeLink l = false → exec (.timeExchange l r) s = .next s) ∧
    (y.timeLink l = true → y.isMaster = true ∨ y.ft.had = true ∨ (y.setLk l x').ftParent = none ∨
        y.ftState = 1 ∨ y.ftState = 2 → ∃ t, gives (.timeExchange l r) t ∧ t.lk l = x' ∧
      (∀ k : Nat, k ≠ l.val → t.lk k = y.lk k) ∧
      (t.reg (ftPg + 0x60)).toNat = min ((y.reg (ftPg + 0x60)).toNat + if 64 < ofs.natAbs then 1 else 0) 0xffffffff ∧
      (ofs.natAbs ≤ 64 → y.isMaster = false → (y.setLk l x').ftParent = some l.val →
        y.ftState = 1 ∨ y.ftState = 2 → t.ft.debt = ofs ∧
        (ofs.natAbs ≤ 32 → t.ftState = if y.ftState = 1 ∧ t.ft.run < 16 then 1 else 2) ∧
        (32 < ofs.natAbs → t.ft.run = 0 ∧ t.ftState = 1))) ∧
    (h.typ ≠ 0xC → passed → ∃ p, p.hdr.typ = 8 ∧ p.hdr.status = stCode .ok ∧ p.hdr.tag = h.tag ∧
      p.hdr.ver = true ∧ p.payload = y.corrBytes ∧
      gives (.time port pkt) { y with
        own := y.own ++ [⟨p, true, none, none, true⟩]
        out := y.out ++ [.packet p] }) ∧
    (passed → y.standsBy = false →
      (y.planAuth h.srcHost = false → refuses (.planLoad port pkt) 1 ∧ refuses (.planCommit port pkt) 1 ∧
        refuses (.planAbort port pkt) 1) ∧
      (y.planAuth h.srcHost = true →
        (y.planPending = true → refuses (.planLoad port pkt) 7 ∧ refuses (.planCommit port pkt) 7) ∧
        (y.planPending = false → 16384 < first + n ∨ n = 0 ∨ 1024 < n → refuses (.planLoad port pkt) 2) ∧
        (y.planPending = false → first + n ≤ 16384 → 1 ≤ n → n ≤ 1024 → y.plan.named = false ∨ named →
          ∃ t, gives (.planLoad port pkt) t ∧ said t .ok ∧ t.plan.named = true ∧
            (t.reg (planPg + 0x48)).toNat = pid % 2 ^ 32 ∧ t.plan.cur = y.plan.cur ∧
            (∀ k, KMap.at t.plan.pend 0 k = if first ≤ k ∧ k < first + n
              then payNat pkt.payload (16 + 8 * (k - first)) 8 else KMap.at y.plan.pend 0 k)) ∧
        (y.planPending = false → ¬ named → refuses (.planCommit port pkt) 6) ∧
        (y.planPending = false → named →
          (frame % 128 ≠ 0 ∨ frame < 4096 ∨ 1048576 < frame → refuses (.planCommit port pkt) 3) ∧
          (frame % 128 = 0 → 4096 ≤ frame → frame ≤ 1048576 →
            (¬ timely → refuses (.planCommit port pkt) 4) ∧
            (timely → (∀ rs, planList y.plan.pend 16384 0 = some rs → y.planOk frame rs = false) →
              refuses (.planCommit port pkt) 5) ∧
            (timely → ∀ rs, planList y.plan.pend 16384 0 = some rs → y.planOk frame rs = true →
              ∃ t, gives (.planCommit port pkt) t ∧ said t .ok ∧ t.planPending = true ∧
                t.pair (planPg + 0x58) = take % 2 ^ 64 ∧ (∃ bs cs, t.plan = { y.plan with
                  frame := frame
                  outBlocks := y.plan.outBlocks ++ bs
                  outCells := y.plan.outCells ++ cs } ∧
                  (y.prom.ch = [] → bs = []) ∧ (y.prom.eg = [] → cs = []))))) ∧
        (∃ t, gives (.planAbort port pkt) t ∧ said t .ok ∧ t.planPending = false ∧
          let keep : Nat → Bool := fun o => !y.planPending || o != y.pair (planPg + 0x58)
          t.plan = { y.plan with
            pend := []
            named := false
            frame := 0
            outBlocks := y.plan.outBlocks.filter fun o => keep o.1
            outCells := y.plan.outCells.filter fun o => keep o.1 }))) ∧
    (y.planPending = true → y.pair (planPg + 0x58) ≤ y.now → ∃ t, gives .planTake t ∧
      t.plan.cur = (planList y.plan.pend 16384 0).getD [] ∧ t.plan.pend = [] ∧ t.planPending = false ∧
      t.planActive = true ∧ t.pair (planPg + 0x50) = y.pair (planPg + 0x58) ∧
      t.fld (planPg + 0x4C) 20 0 = y.plan.frame % 2 ^ 21) ∧
    (y.planPending = false ∨ y.now < y.pair (planPg + 0x58) → exec .planTake s = .next s)

/-- R324 to R326, R328 to R330: a wheel slot releases the head packet of a partition whose tokens allow
it, at the cost of its length, and enters it again for the slot in which they will; a configuration write
is due at the next wheel slot of each port; a gate list is committed by the checks of R330, withdrawn, and
in force from its tick on. -/
def Obligations.ShapersAndGates : Prop :=
  ∀ (s : State) (port p : Nat) (eth : Bool) (v : Word) (list : Nat),
    let y := s.sys.chip
    let k := y.now / 8
    let sh := y.shaper port p
    let gives := fun (i : Instr) (t : Chip) => exec i s = .next { s with sys := { s.sys with chip := t } }
    let quietPart := fun p => (∀ e, (y.shaper port p).entry = some e → k < e) ∧
      (∀ c, (y.shaper port p).cfgDue = some c → k < c.1)
    let i := y.gateSel eth
    let g := y.gate i
    ((∀ p < 64, quietPart p) → gives (.wheelSlot port) y.reapReqs) ∧
    (p < 64 → port < 96 → (∀ p' < 64, p' ≠ p → quietPart p') → sh.cfgDue = none →
      ∀ e h, sh.entry = some e → e ≤ k → y.waiting port p = [h] →
        (0 ≤ tokAt sh k → ∃ u : Chip, gives (.wheelSlot port) u.reapReqs ∧ u.out = y.out ++ [h.what] ∧
            u.held = y.held.erase h ∧ u.shaper port p = { sh with
              tok := tokAt sh k - 1000 * ((shapedLen h + sh.ovh : Nat) : Int)
              slot := k
              entry := none }) ∧
        (tokAt sh k < 0 → gives (.wheelSlot port) (y.setShaper port p { sh with
          tok := tokAt sh k
          slot := k
          entry := some (k + min (ceilDiv (-(tokAt sh k)).toNat (max sh.rate 1)) 4095)
          count := min (sh.count + 1) 0xFFFFFFFF }).reapReqs)) ∧
    (let sel := y.fld (shpPg eth + 0x40) 5 0
     let ws := y.shpWords eth sel
     ∃ t, gives (.shpCfg eth v) t ∧ (∀ d ∈ shpPorts eth, t.shaper d sel =
       { y.shaper d sel with cfgDue := some (k + 1, v, ws.getD 1 0, ws.getD 2 0) }) ∧
       t.shpWords eth sel = v :: ws.drop 1 ∧ t.regs = y.regs ∧ t.held = y.held ∧ t.out = y.out) ∧
    (commitErr g y.now = 0 → gives (.gateCommit eth) (y.setGate i { g with pend := some (committed g, g.take) })) ∧
    (commitErr g y.now ≠ 0 → ∃ t, gives (.gateCommit eth) t ∧ t.gate i = { g with err := commitErr g y.now } ∧
      ∀ j, j ≠ i → t.gate j = y.gate j) ∧
    gives (.gateAbort eth) (y.setGate i { g with pend := none }) ∧
    (∀ j o a, listNo eth list = some j → (y.gate j).pend = some (o, a) →
      (a ≤ y.now → ∃ t, gives (.gateTakeover eth list) t ∧ t.gate j = { y.gate j with
        oper := some o
        cur := 0
        pend := none }) ∧
      (y.now < a → exec (.gateTakeover eth list) s = .next s)) ∧
    (∀ j o, listNo eth list = some j → (y.gate j).oper = some o → ∃ t, gives (.gateEntryChange eth list) t ∧
      t.gate j = { y.gate j with cur := pieceAt (gatePieces o.entries o.cycle) (gateOffset o y.now) })

/-! ## The Ethernet port, XHT and MGMT (chapters 14, 17, 21) -/

/-- R334 to R338, R343, R346, R349, R352, R361: what a frame does at a port that is UP: one that is bad is
counted in the first row that applies, one for firmware goes there, a datagram of a session's new SEQ
moves the window and enters the ingress buffer, an old SEQ is counted; discovery is answered once in a
millisecond; a flow control frame pauses its priorities; acknowledged messages go, unacknowledged ones
are sent again; the port goes down and up. -/
def Obligations.EthernetPort : Prop :=
  ∀ (s : State) (f : EthFrame) (r : Nat) (d : Datagram) (a : Nat × Nat × Nat) (session seq : Nat) (cause : Nat),
    let y := s.sys.chip
    let h := d.hdr
    let gives := fun (i : Instr) (t : Chip) => exec i s = .next { s with sys := { s.sys with chip := t } }
    let drops := fun (i : Instr) => ∃ t, gives i t ∧ s.sys.onlyRegs { s.sys with chip := t } [enPg + 0xC4, enPg + r] ∧
      (t.reg (enPg + 0xC4)).toNat = ((y.reg (enPg + 0xC4)).toNat + 1) % 2 ^ 32 ∧
      (t.reg (enPg + r)).toNat = min ((y.reg (enPg + r)).toNat + 1) 0xffffffff
    let ptp := f.kind = .udp ∧ (f.dstPort = 319 ∨ f.dstPort = 320)
    let comes := f.kind = .udp ∧ ¬ ptp ∧ f.dstPort = y.fld (enPg + 0x78) 15 0 ∧ datagramOf f.udpPayload = some d ∧
      xhtBad h = false ∧ (xhtInput d = false ∨ y.pairRole = 0) ∧ y.sessMatches h.session f = true ∧
      y.chanBad h = false ∧ h.typ ≠ 1 ∧ y.inBytes + f.len ≤ 1048576
    let entry : InFrame := ⟨h.session, h.chan, h.seq, f.pcp, f.len, y.now⟩
    let acks := fun (i : Instr) (chan : Nat) (c : Chip → Chip) => y.standsBy = false → y.sessValid session = true →
      gives i (c (y.leaveIngress ⟨session, chan, seq, 0⟩))
    (y.ethUp = false → ∀ i, i = .frameReceive f ∨ i = .firmwareFrame f (some a) ∨ i = .discover f ∨ i = .pfcFrame f →
      exec i s = .next s) ∧
    (y.ethUp = true → y.frameBad f = some r →
      (f.kind = .udp ∨ f.kind = .other → drops (.frameReceive f)) ∧
      (f.kind = .toFirmware → drops (.firmwareFrame f none)) ∧
      (f.kind = .discovery → drops (.discover f)) ∧ (f.kind = .pfc → drops (.pfcFrame f))) ∧
    (y.ethUp = true → y.frameBad f = none →
      (comes → y.pfcOn f.pcp = false →
        (17 ≤ h.chan → ∃ t, gives (.frameReceive f) t ∧ t.eth = { y.eth with ingress := y.eth.ingress ++ [entry] } ∧
          t.out = y.out ++ [.pass d]) ∧
        (h.chan < 17 → seqPlace (y.winOf h.session h.chan) h.seq = .new →
          (∀ e ∈ (y.winOf h.session h.chan).ents, e.seq ≠ h.seq) → ∃ t, gives (.frameReceive f) t ∧
          (t.winOf h.session h.chan).h = some h.seq ∧ t.eth.ingress = y.eth.ingress ++ [entry] ∧
          t.out = y.out ++ [.pass d]) ∧
        (h.chan < 17 → seqPlace (y.winOf h.session h.chan) h.seq = .old → ∃ t, gives (.frameReceive f) t ∧
          t.eth = y.eth ∧ t.out = y.out ∧
          (t.reg (enPg + 0xA0)).toNat = min ((y.reg (enPg + 0xA0)).toNat + 1) 0xffffffff)) ∧
      (f.kind = .toFirmware → ∃ t, gives (.firmwareFrame f (some a)) t ∧ t.out = y.out ++ [.firmware f] ∧
        t.eth = y.eth) ∧
      (ptp → ∃ t, gives (.firmwareFrame f (some a)) t ∧ t.out = y.out ++ [.firmware f] ∧
        t.eth.corr = some ⟨a.1, a.2.1, a.2.2⟩ ∧ t.flag (enPg + 0x44) 3 = true) ∧
      (f.kind = .discovery → y.flag (enPg + 0x40) 3 = true → f.udpPayload.take 3 = [0x4B, 0x56, 0x01] →
        f.dstMac = y.macAddr ∨ f.dstMac = 2 ^ 48 - 1 →
        (y.eth.lastAdv = none → ∃ t, gives (.discover f) t ∧ t.eth.lastAdv = some y.now) ∧
        (∀ b, y.eth.lastAdv = some b → y.now < b + 1000000 → ∃ t, gives (.discover f) t ∧
          s.sys.onlyRegs { s.sys with chip := t } [enPg + 0xC4])) ∧
      (f.kind = .pfc → ∃ t, gives (.pfcFrame f) t ∧ ∀ q n, q < 8 → y.pfcOn q = true →
        pfcTime f.udpPayload q = some n → 0 < n → ∃ b, (q, b) ∈ t.eth.paused ∧ y.now ≤ b)) ∧
    (y.fld (enPg + 0x44) 1 0 = 2 → ∃ t, gives (.portDown cause) t ∧ t.fld (enPg + 0x44) 1 0 = 1) ∧
    (y.fld (enPg + 0x44) 1 0 ≠ 2 → exec (.portDown cause) s = .next s) ∧
    (y.fld (enPg + 0x44) 1 0 = 1 → y.isFenced .eth = false → (y.lk 40).noPll = false → y.held = [] →
      (∀ x ∈ y.prom.reqs, x.port = 96 → x.promise = true → y.now ≤ x.td) → ∀ red, ∃ t, gives (.portUp red) t ∧
        t.fld (enPg + 0x44) 1 0 = 2 ∧
        t.flag (enPg + 0x44) 2 = (y.fld (enPg + 0x40) 1 0 == 2 || (red && y.fld (enPg + 0x40) 1 0 != 1))) ∧
    acks (.eventAck session seq) 17 (fun c => { c with
      eth.ev := KMap.put c.eth.ev {} session (ackMsgs (KMap.at c.eth.ev {} session) seq) }) ∧
    acks (.auditAck session seq) 18 (fun c => { c with
      eth.au := KMap.put c.eth.au {} session (ackMsgs (KMap.at c.eth.au {} session) seq) }) ∧
    (∀ m, (KMap.at y.eth.ev {} session).unacked.find? (fun x => x.seq == seq) = some m → y.sessValid session = true →
      (m.last + 1000 * max (y.fld (enPg + 0x84) 15 0) 10 ≤ y.now → ∃ t, gives (.enRtoExpiry session 17 seq) t ∧
        t.eth.ev = KMap.put y.eth.ev {} session { KMap.at y.eth.ev {} session with
          unacked := updWhere (KMap.at y.eth.ev {} session).unacked (fun x => x.seq == seq) fun x =>
            { x with last := y.now } }) ∧
      (y.now < m.last + 1000 * max (y.fld (enPg + 0x84) 15 0) 10 →
        exec (.enRtoExpiry session 17 seq) s = .next s))

/-- R344, R345, R347, R351, R352, R360, R361, R429, R430, R497, R505: TIME and NOP on the data channel;
session records are set and cleared by a session of partition 0; MGMT of an authorised host reads and
writes registers; the voter issues what two cores agree on, and a core outvoted runs again when it
rejoins; the sweep repairs triplicated registers. -/
def Obligations.SessionsAndMgmt : Prop :=
  ∀ (s : State) (q : CmdReq) (k : Nat) (ws : List Word) (p : Packet) (addr n : Nat) (data : List Word)
      (w v : CoreWrite),
    let y := s.sys.chip
    let gives := fun (i : Instr) (t : Chip) => exec i s = .next { s with sys := { s.sys with chip := t } }
    let fresh := winEnt (y.winOf q.session q.chan) q.seq = none ∧ y.sessValid q.session = true
    let sets := fun (i : Instr) (ws : List Word) => ∃ t, gives i t ∧
      t.eth.sess = KMap.put y.eth.sess (List.replicate 8 0) k ws ∧ (y.errs.armed = [] → k ∉ t.eth.sessBad) ∧
      t.rights = y.rights ∧ t.prom = y.prom ∧ t.cls = y.cls
    let good := 0 < k ∧ k < 256
    let lets := p.hdr.cls = 4 ∧ y.addressed = true ∧ y.spoofed (y.portOf p.hdr) p.hdr.srcHost = false ∧
      y.mgmtAuth p.hdr.srcHost = true ∧ p.payload.length = p.hdr.len
    let tells := fun (z : Sys) (out : List Out) (d : List Byte) =>
      z.chip.out = out ++ [.packet ⟨{ y.respHd p.hdr .ok with len := d.length }, d⟩]
    (fresh → q.chan = 16 → ∃ t, gives (.xhtTime q) t ∧ t.answeredIs q .ok 0) ∧
    (fresh → y.mustWait q = false → y.standsBy = false → y.isFenced (.part (y.sessPart q.session)) = false →
      y.partResetting (y.sessPart q.session) = false →
      Answers (.nop q) s y q (if q.chan = 16 then .ok else .noAccess) 0) ∧
    (y.takesCmd q true →
      (good → sessFormOk ws = true → y.sessLimits k ws = true → sets (.sessSet q k ws) ws) ∧
      (good → sets (.sessClear q k) (List.replicate 8 0)) ∧
      (¬ good ∨ sessFormOk ws = false ∨ y.sessLimits k ws = false → Answers (.sessSet q k ws) s y q .noAccess 0) ∧
      (¬ good → Answers (.sessClear q k) s y q .noAccess 0)) ∧
    (lets →
      (p.hdr.len = 8 → runOk addr n = true → payloadIs p.payload 1 addr n [] = true →
        ∃ z, exec (.mgmtRead (.fabric p) addr n) s = .next { s with sys := z } ∧ z.mem = s.sys.mem ∧
          tells z (y.readRun .fabric addr n).2.out (wordBytes (y.readRun .fabric addr n).1)) ∧
      (p.hdr.len = 8 + 4 * data.length → runOk addr data.length = true →
        payloadIs p.payload 2 addr data.length data = true → y.standsBy = false →
        ∃ z, exec (.mgmtWrite (.fabric p) addr data) s = .next { s with sys := z } ∧
          z.mem = (s.sys.writeRun .fabric addr data).mem ∧
          tells z (s.sys.writeRun .fabric addr data).chip.out [])) ∧
    (y.addressed = true → y.spoofed (y.portOf p.hdr) p.hdr.srcHost = false → y.mgmtAuth p.hdr.srcHost = false →
      ∃ t, gives (.mgmtRead (.fabric p) addr n) t ∧ t.out.getLast? = some (.packet ⟨y.respHd p.hdr .noAccess, []⟩) ∧
        (t.reg (glbPg + 0x78)).toNat = min ((y.reg (glbPg + 0x78)).toNat + 1) 0xffffffff) ∧
    (y.coreOut = 0 →
      exec (.vote (some w) (some w) (some w)) s = .next { s with sys := s.sys.regWrite .triad w.addr w.data } ∧
      (v ≠ w → exec (.vote (some w) (some w) (some v)) s =
        .next { s with sys := (onChip (fun c => c.outvote 3) s.sys).regWrite .triad w.addr w.data } ∧
        (y.outvote 3).coreOut = 3)) ∧
    (∃ t, gives .coreRejoin t ∧ s.sys.onlyRegs { s.sys with chip := t } [supPg + 0x40] ∧ t.coreOut = 0) ∧
    (∀ e b, y.tmr = [e] → y.badCopies e.addr = [b] → ∃ t, gives .tmrSweep t ∧ t.tmr = [] ∧
      (t.reg (supPg + 0x48)).toNat = min ((y.reg (supPg + 0x48)).toNat + 1) 0xffffffff)

/-! ## Events, resets and pins (chapters 15, 20) -/

/-- R369 to R378, R381, R382, R390: a pending record is sealed in time or when its vector is disabled and
leaves once its cell is over; the resets of a cluster, a partition and the chip: what they stop, when they
are done, what they count; bring-up starts with the power. -/
def Obligations.EventsAndResets : Prop :=
  ∀ (s : State) (p : PartNo) (c : ClusterNo) (v us : Nat),
    let y := s.sys.chip
    let gives := fun (i : Instr) (t : Chip) => exec i s = .next { s with sys := { s.sys with chip := t } }
    let seals := fun (i : Instr) (r : EvRec) => ∃ t, gives i t ∧ t.evPend p v = none ∧
      t.parts.sealed = y.parts.sealed ++ [(y.now, r)]
    (∀ r, y.evPend p v = some r →
      (r.time ≠ 0 → r.first + 1000 * r.time ≤ y.now → seals (.vectorSealTimeout p v) r) ∧
      (y.now < r.first + 1000 * r.time → exec (.vectorSealTimeout p v) s = .next s) ∧
      (v < 256 → seals (.ptVecDisable p v) r)) ∧
    (∀ r, y.parts.sealed = [(y.now, r)] → exec .eventDeliver s = .next s) ∧
    (∀ t r, y.parts.sealed = [(t, r)] → t / 128 < y.now / 128 → r.path = 1 → Word.bit (KMap.at y.hloc 0 r.host) 31 = true →
      ∃ z, gives .eventDeliver z ∧ z.parts.sealed = []) ∧
    (y.clResetting c = false → (∀ x, y.ownerOf c = some x → y.partResetting (x / 32) = false) →
      ∃ z, exec (.clusterReset c) s = .next { s with sys := z } ∧ z.chip.clResetting c = true ∧
        ((∀ d, ∀ e < 2, (y.eng d e).descs = []) → z.mem = s.sys.mem ∧ (z.chip.cl c).evq = [] ∧
          (z.chip.cl c).bcast = [] ∧ (z.chip.cl c).walks = [])) ∧
    (y.clResetting c = true → exec (.clusterReset c) s = .next s) ∧
    (y.clResetting c = true → y.coresOff c = true → y.copiesRest c = true →
      ∃ t, gives (.clusterResetDone c) t ∧ t.clResetting c = false ∧ (t.core c 128).st = 2 ∧ (t.core c 128).pc = 0 ∧
        (∀ f ∈ t.errs.fences, f.unit = .cluster c → f.resetDone = true)) ∧
    (y.clResetting c = false ∨ y.coresOff c = false ∨ y.copiesRest c = false → exec (.clusterResetDone c) s = .next s) ∧
    (p.val ≠ 0 → y.partResetting p = false → ∃ t, gives (.partitionReset p) t ∧ t.partResetting p = true) ∧
    (p.val = 0 ∨ y.partResetting p = true → exec (.partitionReset p) s = .next s) ∧
    (∀ a, KMap.at y.parts.resetting none p = some a → (∀ k < 32, (y.ctxAt (32 * p + k)).state = 0) → y.channelsDone p = true →
      ∃ t, gives (.partitionResetDone p) t ∧ t.partResetting p = false ∧
        ∀ f ∈ t.errs.fences, f.unit = .part p → f.resetDone = true) ∧
    (y.errs.chipUe.isSome = true ∨ y.boot.resetDue = true → y.boot.tripped = false →
      ∃ z, exec .chipReset s = .next { s with sys := z } ∧ z.mem = { flash := s.sys.mem.flash } ∧
        z.chip.boot.on = true ∧ z.chip.cls = [] ∧ z.chip.rights = {} ∧ z.chip.ref = y.ref) ∧
    (y.errs.chipUe = none → y.boot.resetDue = false → y.boot.tripped = false → exec .chipReset s = .next s) ∧
    (y.boot.on = false → y.boot.tripped = false → gives .powerGood { y with
      boot.on := true
      boot.low := false
      boot.start := y.ref
      boot.stageStart := y.ref }) ∧
    (y.boot.low = false →
      (us < 1 → exec (.resetN us) s = .next s) ∧
      (1 ≤ us → us < 10 → ∃ t, gives (.resetN us) t ∧ t.boot = y.boot ∧
        (t.reg (pwrPg + 0x5C)).toNat = min ((y.reg (pwrPg + 0x5C)).toNat + 1) 0xffffffff) ∧
      (10 ≤ us → ∃ z, exec (.resetN us) s = .next { s with sys := z } ∧ z.mem = { flash := s.sys.mem.flash } ∧
        z.chip.boot.low = true ∧ z.chip.boot.on = false ∧ z.chip.flag (pairPg + 0x48) 14 = true)) ∧
    (∃ z, exec .pwrgoodFall s = .next { s with sys := z } ∧ z.mem = { flash := s.sys.mem.flash } ∧
      z.chip.boot.low = true ∧ z.chip.boot.on = false ∧ z.chip.boot.tripped = false)

/-- R386, R395, R475, R485, R486, R488, R489, R490, R492: errors of the chip, losses of lock, rails,
temperatures and alert lines: what each records, shows or lets go. -/
def Obligations.PinsAndClocks : Prop :=
  ∀ (s : State) (page bit clk g rail temp n : Nat) (chain : Bool),
    let y := s.sys.chip
    let gives := fun (i : Instr) (t : Chip) => exec i s = .next { s with sys := { s.sys with chip := t } }
    let kills := fun (i : Instr) => y.stageState = 1 → y.errs.chipUe = none →
      ∃ t, gives i t ∧ t.errs.chipUe = some y.now
    let same := fun (i : Instr) => exec i s = .next s
    ((headPage page).isSome = true → bit < 32 → kills (.ueChip page bit)) ∧
    (y.pastS0 = true → clk ∈ [0, 1, 2, 5, 6] → kills (.lossOfLock clk)) ∧
    (y.pastS0 = true → 16 ≤ clk → clk < 28 → ∃ t, gives (.lossOfLock clk) t ∧
      ∀ k < 8, (t.lk (8 * (clk - 16) + k)).noPll = true) ∧
    (y.pastS0 = false → same (.lossOfLock clk) ∧ same (.lanePllRelock g) ∧ same (.railFault rail)) ∧
    (y.pastS0 = true → g < 12 → ∃ t, gives (.lanePllRelock g) t ∧ t.flag (clkPg + 0x40) (16 + g) = true ∧
      ∀ k < 8, (t.lk (8 * g + k)).noPll = false) ∧
    (y.pastS0 = true → rail < 7 → kills (.railFault rail)) ∧
    (y.twarnAt ≤ temp → ∃ t, gives (.twarn temp) t ∧ t.flag (errStat pwrPg) 0 = true) ∧
    ((temp : Int) < y.twarnAt → same (.twarn temp)) ∧
    (y.boot.tripped = false → ∃ t, gives .thermalTrip t ∧ t.boot.tripped = true ∧
      t.out.getLast? = some (.pin "THERM_TRIP_N" true)) ∧
    (y.boot.tripped = true → same .thermalTrip) ∧
    (n < 8 → ∃ t, gives (.stackHot n temp) t ∧ ∀ k < 32, t.fld (mcPg (32 * n + k) + 0x40) 15 8 = temp % 256 ∧
      (y.fld (mcPg (32 * n + k) + 0x50) 15 8 ≤ temp → t.flag (errStat (mcPg (32 * n + k))) 6 = true)) ∧
    (8 ≤ n → same (.stackHot n temp)) ∧
    (∀ a, y.chain.inAt = some a → a + 100000 ≤ y.ref → y.flag (chPg + 0x44) 9 = false →
      ∃ t, gives (.alertStuck true) t ∧ t.flag (chPg + 0x44) 9 = true) ∧
    (∀ a, y.duo.inAt = some a → a + 100000 ≤ y.ref → y.flag (pairPg + 0x48) 13 = false →
      ∃ t, gives (.alertStuck false) t ∧ t.flag (pairPg + 0x48) 13 = true) ∧
    ((if chain then y.chain.inAt else y.duo.inAt) = none → same (.alertStuck chain)) ∧
    (∃ t, gives .chRearm t ∧ s.sys.onlyRegs { s.sys with chip := t } [chPg + 0x44] ∧ t.flag (chPg + 0x44) 9 = false) ∧
    (y.flag (chPg + 0x44) 9 = false → y.chain.inAt = none → ∃ t, gives .chainAlertSample t ∧
      t.chain.inAt = some (y.ref - 1000) ∧
      (t.reg (chPg + 0x5C)).toNat = min ((y.reg (chPg + 0x5C)).toNat + 1) 0xffffffff) ∧
    gives (.alertInputDeassert true) { y with chain.inAt := none } ∧
    (y.duo.inAt ≠ none → ∃ t, gives (.alertInputDeassert false) t ∧ t.duo.inAt = none ∧
      t.flag (pairPg + 0x48) 12 = false) ∧
    (∀ a, y.chain.alertAt = some a → a + 10000 ≤ y.ref → ∃ t, gives (.alertPulseEnd true) t ∧
      t.flag (chPg + 0x44) 8 = false) ∧
    (∀ a, y.duo.outAt = some a → a + 10000 ≤ y.ref → y.boot.low = false → ∃ t, gives (.alertPulseEnd false) t ∧
      t.flag (pairPg + 0x48) 14 = false ∧ t.duo.outAt = none) ∧
    (y.alertsOn ≠ 0 → (∀ a, y.chain.alertAt = some a → a + 10000000 ≤ y.ref) → y.flag (chPg + 0x44) 9 = false →
      ∃ t, gives .alertRepeat t ∧ t.flag (chPg + 0x44) 8 = true ∧ t.chain.alertAt = some y.ref) ∧
    (y.alertsOn = 0 → same .alertRepeat)

/-! ## Registers, fences, injected errors and check values (chapters 16, 21) -/

/-- R381, R496, R502, R506: a write of a register: a plain register of the global page takes the bits that
can be written, one that cannot be written is ignored and counted; an address with no register stops the
triad; GLB_RESET with its key orders a chip reset. -/
def Obligations.RegisterWrites : Prop :=
  ∀ (s : State) (ag : Agent) (addr : Nat) (v : Word),
    let y := s.sys.chip
    let gives := fun (i : Instr) (t : Chip) => exec i s = .next { s with sys := { s.sys with chip := t } }
    (addr % 4 ≠ 0 ∨ pageRef addr = none → exec (.registerWrite ag addr v) s = .fault .noSuchRegister) ∧
    (∀ r, addr % 4 = 0 → pageRef addr = some r →
      (mayWrite ag r = false ∨ commandWindow r = true ∨ y.beyond r = true →
        gives (.registerWrite ag addr v) y.ignoredWrite) ∧
      (mayWrite ag r = true → commandWindow r = false → y.beyond r = false → isHigh addr = false → isLow addr = true →
        writable addr = true → gives (.registerWrite ag addr v) { y with
          holds := KMap.put y.holds none (latchKey addr ag) (some v) })) ∧
    (∀ k < 4, y.errs.armed = [] → y.tmr = [] → ∃ t, gives (.registerWrite .triad (glbPg + 0x80 + 4 * k) v) t ∧
      t.reg (glbPg + 0x80 + 4 * k) = v ∧ s.sys.onlyRegs { s.sys with chip := t } [glbPg + 0x80 + 4 * k]) ∧
    (Word.bits v 31 24 = 0xE1 → Word.bit v 0 = true → gives (.glbReset v) { y with boot.resetDue := true }) ∧
    (Word.bits v 31 24 ≠ 0xE1 ∨ Word.bit v 0 = false → exec (.glbReset v) s = .next s)

/-- R386 to R395, R398, R400, R406, R508: an error fences its unit, records its cause and tick; the fence
is contained when the unit is at rest, lifted on the conditions of its cause; a record is popped; an
injected error is reported or armed.

R387, R402 to R404, R407: a check-value unit queues what its page stages, up to eight streams; it
takes the next while enabled, ends with the value of every block, and compares it where asked; its reset
drops its streams. -/
def Obligations.FencesAndChecks : Prop :=
  (
  ∀ (s : State) (u : UnitId) (cause : Cause) (v : Word) (n page : Nat) (bit : Fin 32) (on : Bool),
    let y := s.sys.chip
    let gives := fun (i : Instr) (t : Chip) => exec i s = .next { s with sys := { s.sys with chip := t } }
    let known := unitOfKind (unitKind u).1 (unitKind u).2 = some u
    let part := match u with | .part _ => true | _ => false
    let arms := fun (i : Instr) (k : Nat) => (∀ r, headPage page = some r →
      (r.ty ≠ 0x30 → gives i { y with errs.armed := (y.errs.armed.filter fun a => !(a.page == page)) ++ [⟨page, bit, k⟩] }) ∧
      (r.ty = 0x30 → ∃ t, gives i t ∧ (KMap.at t.mcs {} r.inst).inject = k))
    (known → causeFits u cause = true → cause ≠ .order → part = false → y.isContained u = false →
      y.handling u = none → y.fenced1 u = false → ∃ t, gives (.fence u cause) t ∧
        FenceRec.mk u cause y.now false false ∈ t.errs.fences) ∧
    (known → u ≠ .part 0 → y.fenced1 u = false → (∀ c m, u ≠ .newt c m) → ∃ t, gives (.fence u .order) t ∧
      FenceRec.mk u .order y.now false false ∈ t.errs.fences) ∧
    (causeFits u cause = false → exec (.fence u cause) s = .next s) ∧
    (y.fenced1 (.link n) = true → y.contained1 (.link n) = false → ∃ t, gives (.fenceContained (.link n)) t ∧
      t.errs.fences = updWhere y.errs.fences (fun f => f.unit == .link n) (fun f => { f with contained := true }) ∧
      t.fld (blkStat (lkPg n)) 1 0 = 2) ∧
    (y.fenced1 u = false ∨ y.contained1 u = true → exec (.fenceContained u) s = .next s) ∧
    (∀ f, unitOfKind (Word.bits v 3 0) (Word.bits v 23 8) = some u → (y.errs.fences.find? fun f => f.unit == u) = some f →
      y.mayLift f = true → (∀ w ∈ (y.chainOf u).drop 1, y.fenced1 w = false) → ∃ t, gives (.supUnfence v) t ∧
        t.errs.fences = y.errs.fences.filter (fun f => !(f.unit == u)) ∧ t.fld (fqPg + 0x74) 1 0 = 1) ∧
    ((∀ u, unitOfKind (Word.bits v 3 0) (Word.bits v 23 8) = some u → y.fenced1 u = false) →
      ∃ t, gives (.supUnfence v) t ∧ t.errs.fences = y.errs.fences ∧ t.fld (fqPg + 0x74) 1 0 = 2) ∧
    (∃ t, gives .reconcile t ∧ t.errs.stale = [] ∧ t.errs.fences = y.errs.fences) ∧
    gives .supFqPop { y with errs.fq := y.errs.fq.drop 1 } ∧
    (∀ r, headPage page = some r → repOf r.ty r.inst bit = some .note → page < ptPg 0 →
      ∃ t, gives (.errInjectReport page bit) t ∧ t.flag (errStat page) bit = true ∧ t.errs.fences = y.errs.fences) ∧
    arms (.errInjectFlipOne page bit) 2 ∧ arms (.errInjectFlipTwo page bit) 3 ∧
    (∀ r, headPage page = some r →
      (freezeActs r.ty = true → r.ty ≠ 0x23 ∨ on = true → ∃ t, gives (.freeze page on) t ∧
        s.sys.onlyRegs { s.sys with chip := t } [blkCtrl page] ∧ t.flag (blkCtrl page) 1 = on) ∧
      (freezeActs r.ty = true → ∃ z, exec (.freeze page on) s = .next { s with sys := z } ∧
        z.chip.flag (blkCtrl page) 1 = on) ∧
      (freezeActs r.ty = false → exec (.freeze page on) s = .next s))) ∧
  (
  ∀ (s : State) (u : CvNo),
    let y := s.sys.chip
    let x := y.cv u
    let pg := cvPg u
    let gives := fun (i : Instr) (t : Chip) => exec i s = .next { s with sys := { s.sys with chip := t } }
    (y.isFenced (.cv u) = true → exec (.cvPost u) s = .next s) ∧
    (y.isFenced (.cv u) = false →
      (x.queue.length < 8 → gives (.cvPost u) (y.setCv u { x with queue := x.queue ++ [y.cvStaged u] })) ∧
      (8 ≤ x.queue.length → ∃ t, gives (.cvPost u) t ∧ t.errs.cvs = y.errs.cvs)) ∧
    (∀ r l, x.run = none → x.queue = r :: l → y.flag (blkCtrl pg) 0 = true → ∃ t, gives (.cvStreamStart u) t ∧
      (t.cv u).queue = l ∧ (t.cv u).run = some r ∧ (t.cv u).pos = 0) ∧
    (x.run ≠ none ∨ x.queue = [] → exec (.cvStreamStart u) s = .next s) ∧
    (∀ r, x.run = some r → x.ended = none → r.len ≤ x.pos →
      let res := x.crc ^^^ (crcAlg r.poly).fin
      ∃ t, gives (.cvStreamEnd u) t ∧ (t.cv u).run = none ∧ (t.cv u).queue = x.queue ∧
        t.fld (pg + 0x5C) 3 0 = stCode .ok ∧ t.pair (pg + 0x60) = res % 2 ^ 64 ∧
        (t.reg (pg + 0x68)).toNat = ((y.reg (pg + 0x68)).toNat + 1) % 2 ^ 32 ∧
        (r.cmp = true → t.flag (pg + 0x5C) 4 = (res == r.exp % 2 ^ (crcAlg r.poly).w))) ∧
    (∀ r st, x.run = some r → x.ended = some st → st ≠ .ok → ∃ t, gives (.cvStreamEnd u) t ∧ (t.cv u).run = none ∧
      t.fld (pg + 0x5C) 3 0 = stCode st % 16) ∧
    (x.run = none → exec (.cvStreamEnd u) s = .next s) ∧
    (∃ t, gives (.cvReset u) t ∧ t.cv u = {} ∧ (∀ f ∈ t.errs.fences, f.unit = .cv u → f.resetDone = true) ∧
      ∀ w : Nat, w ≠ u.val → t.cv w = y.cv w))

/-! ## The redundant pair (chapter 17) -/

/-- R410, R413 to R417, R422, R423: messages of the pair: one from a chip that is not the peer is counted, and
so is a KIND not in use; a link that is no MIRROR link carries none; a token or a note of the peer is
acknowledged and kept for its turn, at which it is carried out, a missing body asked for and brought; an
acknowledgement frees the body; an orphan is dropped in time; a block is repaired; due epochs and digests
are kept, and an epoch that has ended is compared, or its digest sent. -/
def Obligations.PairMessages : Prop :=
  ∀ (s : State) (m : PairMsg) (k : NoteKind) (body : PairInput) (n : Nat),
    let y := s.sys.chip
    let gives := fun (i : Instr) (t : Chip) => exec i s = .next { s with sys := { s.sys with chip := t } }
    let mir := (y.linkRole m.link).1 = 3
    let peer := mir ∧ y.paired = true ∧ y.flag (pairPg + 0x44) 31 = true ∧
      y.fld (lkPg m.link + 0x48) 11 0 = y.fld (pairPg + 0x44) 11 0
    let tells := fun (t : Chip) (l : List PairMsg) => t.out = y.out ++ l.map .pair
    let msg := fun (kind ord arg0 arg1 : Nat) => PairMsg.mk kind y.selfChip (ord % 2 ^ 32) 0 arg0 arg1 [] 0
    let tok := fun (w : Option NoteKind) => PairTok.mk m.ord m.tick m.arg0 m.arg1 w
    let waits := (∀ t ∈ y.duo.tokens, t.ord ≠ y.prom.seq) ∧ m.ord ≠ y.prom.seq
    let msgs := [(1, Instr.order m), (2, .orderAck m), (3, .note m k), (8, .relay m none), (8, .relay m (some body)),
      (9, .repair m), (6, .out m), (7, .digest m)]
    (∀ i ∈ msgs, (¬ mir → exec i.2 s = .next s) ∧ (mir → ¬ peer → gives i.2 (y.bump (risoPg + 0x60))) ∧
      (peer → m.kind ≠ i.1 → if 1 ≤ m.kind ∧ m.kind ≤ 0xB then exec i.2 s = .next s
        else gives i.2 (y.bump (lkPg m.link + 0x78)))) ∧
    (peer → m.kind = 1 → (y.standsBy = false → exec (.order m) s = .next s) ∧ (y.standsBy = true → waits →
      (y.bodiesOf m.arg0 ≠ [] → ∃ t, gives (.order m) t ∧ tells t [msg 2 m.ord m.ord 1] ∧
        t.duo = { y.duo with tokens := y.duo.tokens ++ [tok none] }) ∧
      (y.bodiesOf m.arg0 = [] → ∃ t, gives (.order m) t ∧ tells t [msg 2 m.ord m.ord 0, msg 8 m.ord 0 0] ∧
        t.lag = true ∧ (t.reg (pairPg + 0x7C)).toNat = min ((y.reg (pairPg + 0x7C)).toNat + 1) 0xffffffff ∧
        t.duo = { y.duo with
          tokens := y.duo.tokens ++ [tok none]
          relays := y.duo.relays ++ [m.ord] }))) ∧
    (peer → m.kind = 1 → y.standsBy = true → m.ord = y.prom.seq → y.duo.tokens = [] → y.duo.live = [] →
      y.bodiesOf m.arg0 ≠ [] → ∃ t, gives (.order m) t ∧ Out.apply m.ord ∈ t.out ∧ t.duo.cause = none) ∧
    (peer → m.kind = 3 → (y.standsBy = false → exec (.note m k) s = .next s) ∧ (y.standsBy = true →
      (waits → ∃ t, gives (.note m k) t ∧ tells t [msg 2 m.ord m.ord 1] ∧
        t.duo = { y.duo with tokens := y.duo.tokens ++ [tok (some k)] }) ∧
      (m.ord = y.prom.seq → y.duo.tokens = [] → y.duo.live = [] →
        (∀ id st, ∃ t, gives (.note m (.status id st)) t ∧ tells t [msg 2 m.ord m.ord 1] ∧
          t.prom.seq = m.ord + 1 ∧ t.prom.reqs = updWhere y.prom.reqs (fun r => r.id == id)
            (fun r => { r with fixed := some (y.now, st) })) ∧
        (∀ u, ∃ t, gives (.note m (.fence u)) t ∧ t.pairRole = 5)))) ∧
    (peer → m.kind = 2 →
      ((y.pairRole = 1 ∨ y.pairRole = 3) → m.arg1 % 2 = 1 → y.held = [] →
        (∀ r ∈ y.prom.reqs, r.sent = true → y.respLeft r = true) → ∃ t, gives (.orderAck m) t ∧
        t.duo.acked = y.duo.acked ++ [m.ord] ∧ t.lag = false ∧
        ∀ b ∈ y.duo.log, b ∈ t.duo.log ↔ (b.arg0, m.ord) ∉ y.duo.ids) ∧
      ((y.pairRole ≠ 1 ∧ y.pairRole ≠ 3) ∨ m.arg1 % 2 = 0 → exec (.orderAck m) s = .next s)) ∧
    (peer → m.kind = 8 →
      (∀ b, (y.duo.log.find? fun b => ((y.duo.ids.filter fun e => e.2 == m.ord).map (·.1)).contains b.arg0) = some b →
        gives (.relay m none) (y.emit (.pair ⟨8, y.selfChip, m.ord % 2 ^ 32, b.tick, b.arg0, 0, inputBytes b.body, 0⟩))) ∧
      (y.standsBy = true → m.ord ∈ y.duo.relays → (∀ t ∈ y.duo.tokens, t.ord ≠ y.prom.seq) →
        ∃ t, gives (.relay m (some body)) t ∧ tells t [msg 2 m.ord m.ord 1] ∧ m.ord ∉ t.duo.relays ∧
          ∃ id, t.duo.inbuf = y.duo.inbuf ++ [⟨id, y.now, body⟩] ∧
            ((∀ x ∈ y.duo.tokens, x.ord ≠ m.ord) → id = inputId body) ∧
            (∀ x, y.duo.tokens.find? (fun t => t.ord == m.ord) = some x → id = x.arg0)) ∧
      (y.standsBy = false ∨ m.ord ∉ y.duo.relays → exec (.relay m (some body)) s = .next s)) ∧
    (∀ b, y.duo.inbuf[n]? = some b → y.standsBy = true →
      (y.duo.tokens.any fun t => t.what.isNone && t.arg0 == b.arg0) = false →
      (b.tick + 1000 * max (y.fld (pairPg + 0x6C) 31 16) 1 ≤ y.now → ∃ t, gives (.orphanTimeout n) t ∧
        t.duo = { y.duo with inbuf := y.duo.inbuf.eraseIdx n } ∧
        (t.reg (pairPg + 0x84)).toNat = min ((y.reg (pairPg + 0x84)).toNat + 1) 0xffffffff) ∧
      (y.now < b.tick + 1000 * max (y.fld (pairPg + 0x6C) 31 16) 1 → exec (.orphanTimeout n) s = .next s)) ∧
    (peer → m.kind = 9 → m.arg0 < y.dataBlocks →
      (∀ d z, m.body = [] → (onChip (fun c => c.activateBlk (y.ctrlOf m.arg0) m.arg0 0) s.sys).readBlk
        (y.ctrlOf m.arg0) m.arg0 3 64 = (some d, z) → exec (.repair m) s =
        .next { s with sys := onChip (fun c => c.duoSend 9 0 0 m.arg0 0 d) z }) ∧
      (m.body.length = 2048 → y.leads = true ∨ y.standsBy = true → y.isDefect (y.ctrlOf m.arg0) m.arg0 = false →
        (y.mc (y.ctrlOf m.arg0)).inject = 0 → ∃ z, exec (.repair m) s = .next { s with sys := z } ∧
          KMap.bytes z.mem.pool (2048 * m.arg0) 2048 = m.body ∧
          (z.chip.reg (pairPg + 0x80)).toNat = min ((y.reg (pairPg + 0x80)).toNat + 1) 0xffffffff)) ∧
    (peer → m.kind = 6 → y.standsBy = true →
      let hit := fun o : PairOut => o.ord == m.ord && o.idx == m.arg0
      (y.duo.outs.any hit = true → gives (.out m) { y with
        duo.outs := updWhere y.duo.outs hit fun o => { o with due := some m.arg1 } }) ∧
      (y.duo.outs.any hit = false → gives (.out m) { y with
        duo.dues := y.duo.dues ++ [(m.ord, m.arg0, m.arg1)] })) ∧
    (peer → m.kind = 7 → y.standsBy = true → gives (.digest m) { y with
      duo.digests := (y.duo.digests.filter fun e => e.1 != m.arg0) ++ [(m.arg0, m.arg1)] }) ∧
    (let e := epochOf y.now - 1
     let q := max (y.fld (pairPg + 0x70) 9 0) 2
     (∀ l, y.duo.epoch = some l → e ≤ l → exec .epochCompare s = .next s) ∧
     (0 < epochOf y.now → (∀ l, y.duo.epoch = some l → l < e) →
      (y.pairRole = 1 → ∃ t, gives .epochCompare t ∧ tells t [msg 7 0 e (y.digestOf e)] ∧ t.duo.epoch = some e) ∧
      (y.pairRole = 2 → q ≤ e → y.duo.cmpFrom ≤ e - q →
        (y.epochAgrees (e - q) = true → ∃ t, gives .epochCompare t ∧ t.pairRole = 2 ∧
          t.reg (pairPg + 0x60) = BitVec.ofNat 32 (e - q)) ∧
        (y.epochAgrees (e - q) = false → ∃ t, gives .epochCompare t ∧ t.pairRole = 5 ∧
          t.pair (pairPg + 0x64) = (e - q) % 2 ^ 64))))

/-- R409, R418 to R421, R424 to R428: the crown: RENEW every 250 ticks and its acknowledgement, after which a
HOLDER that is not HOME hands over where it is told to (log entry 103); a holder without one freezes, goes on
after an alert, or goes OUT in time; a standby without RENEW claims the crown or goes OUT; formation, RESYNC
and joining (log entry 102 for the message that tells the holder); the planned handover; FORCE and
rearming. -/
def Obligations.PairCrown : Prop :=
  ∀ (s : State) (m : PairMsg) (n : Nat) (b c u : Bool) (snap : Option Snap),
    let y := s.sys.chip
    let role := y.pairRole
    let gives := fun (i : Instr) (t : Chip) => exec i s = .next { s with sys := { s.sys with chip := t } }
    let same := fun (i : Instr) => exec i s = .next s
    let turns := fun (i : Instr) (r : Nat) (p : Chip → Prop) => ∃ t, gives i t ∧ t.pairRole = r ∧ p t
    let counts := fun (t : Chip) (a : Nat) => (t.reg a).toNat = min ((y.reg a).toNat + 1) 0xffffffff
    let mir := (y.linkRole m.link).1 = 3
    let peer := mir ∧ y.paired = true ∧ y.flag (pairPg + 0x44) 31 = true ∧
      y.fld (lkPg m.link + 0x48) 11 0 = y.fld (pairPg + 0x44) 11 0
    let idle := y.held = [] ∧ (∀ r ∈ y.prom.reqs, r.sent = true → y.respLeft r = true) ∧ y.duo.inbuf = [] ∧ y.duo.tokens = [] ∧ y.duo.live = [] ∧ y.duo.ready = []
    let e := y.pair (pairPg + 0x54)
    let holds := role = 1 ∨ role = 3
    let home := y.flag (pairPg + 0x40) 2 = true ∧ y.flag (pairPg + 0x40) 1 = false ∧ y.lag = false
    let joins := fun (t : Chip) => t.reg (pairPg + 0x74) = 0 ∧
      t.out = y.out ++ [.pair ⟨0xB, y.selfChip, 0, y.now, 0, 0, [], 0⟩]
    (∀ i ∈ [(4, Instr.renew m), (5, .renewAck m), (0xA, .handover m), (0xB, .resync m snap)],
      (¬ mir → same i.2) ∧ (mir → ¬ peer → gives i.2 (y.bump (risoPg + 0x60))) ∧
      (peer → m.kind ≠ i.1 → if 1 ≤ m.kind ∧ m.kind ≤ 0xB then same i.2
        else gives i.2 (y.bump (lkPg m.link + 0x78)))) ∧
    (if holds ∧ y.duo.renewAt + 250 ≤ y.now then ∃ t, gives .renewPeriod t ∧ t.duo.renewAt = y.now ∧
        t.duo.sentOrd = y.sentOrd ∧ t.pair (pairPg + 0x54) = (y.now + 1000) % 2 ^ 64 ∧
        t.out = y.out ++ List.replicate y.mirrors.length (.pair ⟨4, y.selfChip, 0, y.now, y.now + 1000, y.sentOrd, [], 0⟩)
     else same .renewPeriod) ∧
    (peer → m.kind = 4 →
      (role = 3 → turns (.renew m) 5 fun _ => True) ∧
      (role = 2 → turns (.renew m) 2 fun t => t.out = y.out ++ [.pair ⟨5, y.selfChip, 0, m.tick, 0, 0, [], 0⟩] ∧
        if e < m.arg0 then t.pair (pairPg + 0x54) = m.arg0 % 2 ^ 64 ∧ t.duo.sentOrd = m.arg1
        else t.pair (pairPg + 0x54) = e ∧ t.duo = y.duo) ∧
      (role ≠ 3 → y.standsBy = false → same (.renew m))) ∧
    (peer → m.kind = 5 →
      (role = 1 → gives (.renewAck m) { y with
        duo.ta := max y.duo.ta m.tick
        duo.alone := false
        duo.ordJ := none
        duo.copyAt := none
        duo.boundary := if home ∧ y.duo.boundary = none then some (y.boundaryFrom (y.now + 10000))
          else y.duo.boundary }) ∧
      (role = 3 → idle → turns (.renewAck m) 1 fun t => t.duo.frozenAt = none ∧ t.duo.alone = false ∧
        t.duo.ta = max y.duo.ta m.tick) ∧
      (¬ holds → same (.renewAck m))) ∧
    (y.leads = false ∨ y.now < y.duo.ta + 900 → same .holderFreeze) ∧
    (y.leads = true → y.duo.ta + 900 ≤ y.now →
      ((∀ a, y.duo.alertAt = some a → a ≤ y.duo.ta) → turns .holderFreeze 3 fun t =>
        t.duo.frozenAt = some y.now ∧ counts t (pairPg + 0x8C)) ∧
      (∀ a, y.duo.alertAt = some a → y.duo.ta < a → idle → turns .holderFreeze 1 fun t => t.duo.alone = true)) ∧
    (y.now < e + 100 → same .crownClaim) ∧
    (e + 100 ≤ y.now →
      (role = 4 → turns .crownClaim 5 fun _ => True) ∧
      (role = 2 → y.lag = true → turns .crownClaim 5 fun _ => True) ∧
      (role = 2 → y.lag = false → idle → y.duo.relays = [] → turns .crownClaim 1 fun t =>
        t.duo.alone = true ∧ t.duo.ta = y.now ∧ t.prom.seq = y.prom.seq ∧ counts t (pairPg + 0x78)) ∧
      (role ≠ 2 → role ≠ 4 → same .crownClaim)) ∧
    (∀ a, role = 3 → y.duo.frozenAt = some a →
      if a + 1000 * max (y.fld (pairPg + 0x6C) 15 0) 1 ≤ y.now then turns .soloWaitExpiry 5 fun _ => True
      else same .soloWaitExpiry) ∧
    (y.flag (pairPg + 0x48) 13 = true ∨ y.duo.inAt.isSome = true → same .pairAlert) ∧
    (y.flag (pairPg + 0x48) 13 = false → y.duo.inAt = none → role ≠ 3 ∨ idle →
      turns .pairAlert (if role = 3 ∧ y.duo.ta < y.now - 1000 then 1 else role) fun t =>
        t.flag (pairPg + 0x48) 12 = true ∧ t.duo.alertAt = some (y.now - 1000) ∧ counts t (pairPg + 0x88)) ∧
    (y.paired = true → role = 5 → y.duo.formed = false → y.mirrors ≠ [] → y.flag (pairPg + 0x44) 31 = true →
      turns (.pairFormation false ⟨b, u⟩) 5 (fun t => t.duo = y.duo) ∧
      (y.flag (pairPg + 0x40) 1 = true → turns (.pairFormation true ⟨true, u⟩) 1 (fun t =>
          t.duo.formed = true ∧ t.duo.alone = true) ∧ same (.pairFormation true ⟨false, u⟩)) ∧
      (y.flag (pairPg + 0x40) 1 = false →
        (y.flag (pairPg + 0x40) 3 = true → turns (.pairFormation true ⟨b, true⟩) 4 fun t =>
          t.duo.formed = true ∧ joins t) ∧
        (y.flag (pairPg + 0x40) 3 = true → turns (.pairFormation true ⟨b, false⟩) 5 fun t => t.duo.formed = true) ∧
        (y.flag (pairPg + 0x40) 3 = false → gives (.pairFormation true ⟨b, u⟩) { y with duo.formed := true }))) ∧
    (role ≠ 5 ∨ y.duo.formed = true ∨ y.mirrors = [] ∨ y.flag (pairPg + 0x44) 31 = false →
      same (.pairFormation b ⟨c, u⟩)) ∧
    (y.paired = true → role = 5 →
      (y.mirrors ≠ [] → turns (.pairCmdResync true true) 4 joins) ∧
      (b = false ∨ c = false ∨ y.mirrors = [] → turns (.pairCmdResync b c) 5 fun t => t.duo = y.duo)) ∧
    (y.paired = false ∨ role ≠ 5 → same (.pairCmdResync b c) ∧ same (.pairFormation b ⟨c, u⟩)) ∧
    (if role = 1 ∧ y.duo.alone = true ∧ (∃ a, y.duo.copyAt = some a ∧ y.dataBlocks ≤ a) ∧
        y.boundaryFrom y.now = y.now then
       gives .resyncCopyDone { y with
         duo.ordJ := some y.prom.seq
         out := y.out ++ [.pair ⟨0xB, y.selfChip, y.prom.seq % 2 ^ 32, y.now, 1, 0, [], 0⟩] }
     else same .resyncCopyDone) ∧
    (peer → m.kind = 0xB →
      (role = 1 → y.duo.alone = true → ∃ t, gives (.resync m snap) t ∧
        t.duo = { y.duo with copyAt := some 0, ordJ := none } ∧ (0 < y.dataBlocks →
          ∃ a, t.accs = (y.accs.filter fun a => match a.src with | .join _ => false | _ => true) ++ [a] ∧
            a.src = .join 0 ∧ a.b = 0 ∧ a.write = false)) ∧
      (role ≠ 4 → (role ≠ 1 ∨ y.duo.alone = false) → same (.resync m snap)) ∧
      (role = 4 →
        let blk := m.arg0 / 4 % 2 ^ 28
        (m.arg0 % 4 = 0 → m.body.length = 2048 → blk < y.dataBlocks + 2 ^ 18 →
          y.isDefect (y.ctrlOf blk) blk = false → (y.mc (y.ctrlOf blk)).inject = 0 →
          ∃ z, exec (.resync m snap) s = .next { s with sys := z } ∧ KMap.bytes z.mem.pool (2048 * blk) 2048 = m.body ∧
            z.chip.fld (pairPg + 0x74) 29 2 = blk ∧ z.chip.fld (pairPg + 0x74) 1 0 = 0) ∧
        (∀ x, m.arg0 % 4 = 1 → m.body = [] → x.ctxs = [] → (∀ k ∈ y.duo.tokens, k.ord ≠ m.ord) → ∃ t, gives (.resync m (some x)) t ∧
          t.rights = x.rights ∧ t.dir = x.dir ∧ t.regions = x.regions ∧ t.prom.seq = m.ord ∧
          t.prom.reqs = x.prom.reqs ∧ t.parts.ctxs = [] ∧ t.eth.sess = x.sess ∧ t.duo.ordJ = some m.ord ∧
          t.duo.tokens = (y.duo.tokens.filter fun k => decide (m.ord ≤ k.ord)) ∧
          t.fld (pairPg + 0x74) 1 0 = 2))) ∧
    (∀ d, role = 4 → y.fld (pairPg + 0x74) 1 0 = 2 → (y.duo.digests.find? fun e => e.1 == n) = some (n, d) →
      if d = y.digestOf n then turns (.joined n) 2 fun t => t.fld (pairPg + 0x74) 1 0 = 3 ∧
        t.duo.cmpFrom = n + 1 ∧ t.duo.ordJ = none
      else same (.joined n)) ∧
    (role ≠ 4 → same (.joined n)) ∧
    (if y.leads = true ∧ y.duo.boundary = none then gives .pairCmdSwitch { y with
       duo.boundary := some (y.boundaryFrom (y.now + 10000)) }
     else same .pairCmdSwitch) ∧
    (∀ a, y.leads = true → y.duo.boundary = some a →
      if a ≤ y.now then turns .handoverBoundary 2 fun t => t.duo.boundary = none ∧ t.duo.sentOrd = y.sentOrd ∧
        Out.pair ⟨0xA, y.selfChip, (y.prom.seq - 1) % 2 ^ 32, a, y.prom.seq - 1, y.sentOrd, [], 0⟩ ∈ t.out ∧
        counts t (pairPg + 0x78)
      else same .handoverBoundary) ∧
    (y.leads = false ∨ y.duo.boundary = none → same .handoverBoundary) ∧
    (peer → m.kind = 0xA →
      (role = 2 → idle → turns (.handover m) 1 fun t => t.duo.alone = false ∧ t.prom.seq = y.prom.seq) ∧
      (role = 4 → turns (.handover m) 5 fun _ => True) ∧
      (role ≠ 2 → role ≠ 4 → same (.handover m))) ∧
    (n ≠ 0xC3 ∨ y.paired = false ∨ (role ≠ 5 ∧ role ≠ 3) → same (.pairCmdForce n)) ∧
    (y.paired = true → role = 5 ∨ role = 3 → idle → (∀ r ∈ y.prom.reqs, r.promise = true → r.sent = false → y.now ≤ r.td) →
      turns (.pairCmdForce 0xC3) 1 fun t => t.duo.alone = true ∧ t.duo.frozenAt = none ∧
        t.prom.reqs = updWhere y.prom.reqs (fun r => !r.sent && !flipped r && r.promise)
          (fun r => { r with fixed := fixStatus r.fixed y.now .fenced }) ∧ counts t (pairPg + 0x78)) ∧
    (if y.flag (pairPg + 0x48) 13 = true ∧ y.duo.seenLow = true then ∃ t, gives .pairRearm t ∧
       t.flag (pairPg + 0x48) 13 = false ∧ t.duo = { y.duo with seenLow := false }
     else same .pairRearm)

/-! ## Bring-up, attestation, the Kilvy chain (chapters 18, 19) -/

/-- R434, R435, R437, R438, R441, R446 to R448: a stage that does not run does nothing; one past its bound
ends bring-up in FAIL with TIMEOUT, every link in electrical idle; S4 fills the pool and marks its defects,
then decodes every block; each passes or fails on what the table
says, and the next one starts; with STRAP_HOLD the chip holds after S5; S8 leads to READY. -/
def Obligations.BringUp : Prop :=
  ∀ (s : State) (plls straps : Nat) (units : List (Nat × List Nat)) (links lanes : Nat) (blocks : Bool)
      (trained : List Nat) (syms : List (Nat × Nat × Nat)) (all : Bool),
    let y := s.sys.chip
    let rows : List (Nat × Instr) := [(0, .stageS0 plls straps), (1, .stageS1), (2, .stageS2 units links lanes blocks),
      (3, .stageS3 trained), (4, .stageS4 ⟨syms, all⟩), (5, .stageS5), (6, .stageS6), (7, .stageS7), (8, .stageS8)]
    let live := fun (k : Nat) => y.inStage k = true ∧ y.pastBound = false
    let late := y.boot.on = true ∧ y.stageState = 0 ∧ y.pastBound = true
    let same := fun (i : Instr) => exec i s = .next s
    let fails := fun (i : Instr) (k result : Nat) (p : Nat → Prop) => ∃ z, exec i s = .next { s with sys := z } ∧
      z.chip.stageNo = k ∧ z.chip.stageState = 2 ∧ (KMap.at z.chip.boot.reports {} k).result = result ∧
      p (KMap.at z.chip.boot.reports {} k).detail ∧ ∀ l < 96, z.chip.lkState l = 0
    let passes := fun (i : Instr) (k : Nat) (p : Sys → Prop) => (∀ e ∈ y.boot.cfg, e.stage ≠ k + 1) →
      ∃ z, exec i s = .next { s with sys := z } ∧ z.chip.stageNo = k + 1 ∧ z.chip.stageState = 0 ∧
        (KMap.at z.chip.boot.reports {} k).result = 0 ∧ z.chip.boot.stageStart = y.ref ∧ p z
    let hold := y.straps / 4 % 2 = 1
    let allIn := (∀ c < 208, y.clPresent c = true → y.reported c = true) ∧ (∀ c, y.clLoaded c = false)
    (∀ r ∈ rows, y.inStage r.1 = false → same r.2) ∧
    (¬ late → same .stageBoundExceeded) ∧
    (∀ r ∈ (y.stageNo, .stageBoundExceeded) :: rows, late → r.1 = y.stageNo → y.stageNo ≠ 1 → y.stageNo ≠ 5 →
      y.stageNo < 9 → fails r.2 r.1 3 fun d => d = if r.1 = 6 then 1 else 0) ∧
    (late → y.stageNo = 1 → y.boot.manifest ≠ [] → y.chainValid = false →
      fails .stageBoundExceeded 1 2 (· = 3) ∧ fails .stageS1 1 2 (· = 3)) ∧
    (live 0 → (plls % 128 = 127 → passes (.stageS0 plls straps) 0 fun z => z.chip.straps = straps % 8) ∧
      (plls % 128 ≠ 127 → fails (.stageS0 plls straps) 0 2 (· = 1))) ∧
    (live 1 →
      (y.boot.manifest ≠ [] → y.chainValid = true → passes .stageS1 1 fun _ => True) ∧
      (y.boot.manifest ≠ [] → y.chainValid = false → same .stageS1) ∧
      (y.boot.manifest = [] → y.recovery = false → manifestOk (s.sys.manifestAt false) = false →
        manifestOk (s.sys.manifestAt true) = false → fails .stageS1 1 2 (· = 1))) ∧
    (live 2 →
      (links % 2 ^ 96 = 2 ^ 96 - 1 → lanes % 256 = 255 → blocks = true → (∀ c m, (y.core c m).absent = false) →
        (∀ c < 208, units.getD c (0, []) = (127, List.replicate 4 (2 ^ 32 - 1))) →
        passes (.stageS2 units links lanes blocks) 2 fun z => ∀ c < 208, z.chip.clPresent c = true) ∧
      (links % 2 ^ 96 ≠ 2 ^ 96 - 1 ∨ lanes % 256 ≠ 255 ∨ blocks = false →
        fails (.stageS2 units links lanes blocks) 2 2 fun d => 1 ≤ d ∧ d ≤ 5)) ∧
    (live 3 →
      ((∀ n < 256, n ∈ trained) → passes (.stageS3 trained) 3 fun z => z.chip.flag (memPg + 0x40) 31 = true) ∧
      (∀ n < 256, n ∉ trained → fails (.stageS3 trained) 3 2 (· = 1))) ∧
    (live 4 →
      let phase := fun (c : Chip) => c.fld (memPg + 0xAC) 1 0
      let filled := fun (z : Sys) => (∃ e, z.mem = { s.sys.mem with pool := [], poolErr := e }) ∧
        ((∀ f ∈ syms, f.2.2 = 0) → z.mem.poolErr = []) ∧
        ∀ f ∈ syms, f.1 < y.dataBlocks → y.codeT < 2 * f.2.1 → z.chip.isDefect (y.ctrlOf f.1) f.1 = true
      (phase y ≠ 2 → (∀ n < 256, y.defects n + syms.length ≤ 64) →
        passes (.stageS4 ⟨syms, true⟩) 4 (fun z => filled z ∧ phase z.chip = 3) ∧
        ∃ z, exec (.stageS4 ⟨syms, false⟩) s = .next { s with sys := z } ∧ filled z ∧ phase z.chip = 2 ∧
          z.chip.stageNo = 4 ∧ z.chip.stageState = 0) ∧
      (phase y ≠ 2 → ∀ n < 256, 64 < y.defects n → fails (.stageS4 ⟨syms, all⟩) 4 2 (· = 1)) ∧
      (phase y = 2 → passes (.stageS4 ⟨syms, all⟩) 4 fun z => z.mem = s.sys.mem ∧ phase z.chip = 3)) ∧
    (live 5 →
      (y.boot.placed = false → s.sys.section y.boot.copyB y.boot.manifest 2 = none ∨
        s.sys.section y.boot.copyB y.boot.manifest 3 = none → fails .stageS5 5 2 (· = 1)) ∧
      (∀ c d, y.boot.placed = false → s.sys.section y.boot.copyB y.boot.manifest 2 = some c →
        s.sys.section y.boot.copyB y.boot.manifest 3 = some d →
        ∃ z, exec .stageS5 s = .next { s with sys := z } ∧ z.chip.boot.placed = true) ∧
      (y.boot.placed = true → allIn → 200 ≤ clusterSum y.clPresent → 25600 ≤ y.newtSum y.clPresent →
        (¬ hold → passes .stageS5 5 fun z => ∀ c < 208, z.chip.clLoaded c = y.clPresent c) ∧
        (hold → ∃ z, exec .stageS5 s = .next { s with sys := z } ∧ z.chip.stageNo = 6 ∧ z.chip.stageState = 3))) ∧
    (live 6 → if y.ftState = 2 ∨ y.isMaster = true then passes .stageS6 6 fun _ => True else same .stageS6) ∧
    (live 7 →
      if (y.boot.cfg.filter fun e => e.stage == 7).all y.cfgOk = true then passes .stageS7 7 fun _ => True
      else fails .stageS7 7 2 (· = 0)) ∧
    (live 8 → ∃ z, exec .stageS8 s = .next { s with sys := z } ∧ z.chip.stageNo = 8 ∧ z.chip.isReady = true ∧
      (KMap.at z.chip.boot.reports {} 8).result ≤ 1 ∧
      (z.chip.flag (attPg + 0x74) 1 = false → (KMap.at z.chip.boot.reports {} 8).result = 1))

/-- R452, R454, R455: GO makes a quote with the next index, or shows why it cannot; GO has no effect while
one is made; the quote is ready with its length; MODEL_HASH is stored for its slot, extends MRUN, is
logged, and the CTX_START is answered. -/
def Obligations.Attestation : Prop :=
  ∀ (s : State) (p : PartNo) (slot : SlotNo) (h : List Byte),
    let y := s.sys.chip
    let gives := fun (i : Instr) (t : Chip) => exec i s = .next { s with sys := { s.sys with chip := t } }
    let fails := fun (r : Nat) => ∃ z, exec .quote s = .next { s with sys := z } ∧
      z.chip.fld (attPg + 0x74) 6 4 = r ∧ z.chip.fld (attPg + 0x78) 13 0 = 0 ∧ z.chip.att.making = none ∧
      z.chip.att.quote = []
    let next := y.pair (attPg + 0x8C)
    let slots := max ((s.sys.lmsNext 0).getD 0) ((s.sys.lmsNext 1).getD 0)
    (y.att.making.isSome = true → exec .quote s = .next s) ∧
    (y.att.making = none →
      (y.flag (attPg + 0x74) 1 = false → fails 2) ∧
      (y.flag (attPg + 0x74) 1 = true →
        (next < y.pair (attPg + 0x94) → ∃ t, gives .quote t ∧ t.att.making = some (y.quoteBody, next) ∧
          t.pair (attPg + 0x8C) = next + 1 ∧ t.fld (attPg + 0x74) 6 4 = 0 ∧ t.att.log = y.att.log) ∧
        (y.pair (attPg + 0x94) ≤ next →
          (3 ≤ y.boot.tries → fails 3) ∧ (y.boot.tries < 3 → 2 ^ 40 < slots + 65536 → fails 4)))) ∧
    (y.att.making = none → exec .quoteDone s = .next s) ∧
    (∀ b i, y.att.making = some (b, i) → ∃ t, gives .quoteDone t ∧ t.att.making = none ∧
      t.fld (attPg + 0x74) 6 4 = 1 ∧ t.fld (attPg + 0x78) 13 0 = 10492 ∧ t.att.quote.length = b.length + 10300 ∧
      t.att.quote.take b.length = b) ∧
    (let x := 32 * p.val + slot.val
     ((y.ctxAt x).starting = none ∨ h.length ≠ 48 → exec (.modelHash p slot h) s = .next s) ∧
     (∀ q, (y.ctxAt x).starting = some q → h.length = 48 → ∃ t, gives (.modelHash p slot h) t ∧
      t.ctxAt x = { y.ctxAt x with starting := none } ∧ KMap.at t.att.models [] x = h ∧
      t.att.mrun = sha384 (y.att.mrun ++ leBytes 4 0x10 ++ h) ∧ t.att.mboot = y.att.mboot ∧
      (y.att.log.length < 4096 → t.att.log = y.att.log ++
        [⟨0x10, y.att.log.length, if y.stageNo < 6 then 0 else y.now, h⟩]) ∧
      t.answeredIs q .ok 0))

/-- R462 to R473, R475: every frame goes on along the chain; a unit counts a bad frame that names it,
answers a repeated request with the RESP it kept, and a request whose key or condition fails NO_ACCESS;
ENUM gives an address, POLL collects conditions; CONTINUE, RESET, ALERT_ACK and RETIRE, the flash
requests, and the steps out of service. -/
def Obligations.ManagementChain : Prop :=
  ∀ (s : State) (f : ChainFrame),
    let y := s.sys.chip
    let mem := s.sys.mem
    let same := fun (i : Instr) => exec i s = .next s
    let gives := fun (i : Instr) (t : Chip) => exec i s = .next { s with sys := { s.sys with chip := t } }
    let tells := fun (i : Instr) (st : Status) (d : List Byte) (p : Sys → Prop) =>
      ∃ z r, exec i s = .next { s with sys := z } ∧ z.chip.out = y.out ++ [.chain f, .chain r] ∧
        r.typ = 3 ∧ r.seq = f.seq ∧ r.payload = respPay st f.typ d ∧ r.crc = chainCrc r ∧
        z.chip.chain.kept = some (f.seq, r) ∧ p z
    let refuses := fun (i : Instr) => tells i .noAccess [] fun z => z.mem = mem ∧ z.chip.regs = y.regs
    let on := y.chainUp = true ∧ chainGood f = true
    let named := on ∧ y.chainTarget f = true
    let asks := named ∧ f.bcast = false ∧ ∀ r, y.chain.kept = some r → r.1 ≠ f.seq
    let ctl := fun (op : Nat) => f.typ = 4 ∧ payNat f.payload 0 1 = op
    let flash := fun (op : Nat) => f.typ = 5 ∧ payNat f.payload 0 1 = op
    let key := fun (k : Nat) => 9 ≤ f.payload.length ∧ payNat f.payload 8 1 = k
    let arg := payNat f.payload 4 4
    let n := payNat f.payload 8 2
    let rows : List (Instr × Prop) := [(.continueHold f, ctl 1), (.chainReset f, ctl 2), (.retire f, ctl 3),
      (.alertAck f, ctl 4), (.flashRead f, flash 1), (.flashErase f, flash 2), (.flashProgram f, flash 3)]
    let fwd := Instr.chainFrameForward f
    let own := y.fld (rtPg + 0x40) 11 0
    let id := payNat f.payload 0 1 % 64
    let pos := payNat f.payload 1 1 % 128
    let recov := y.straps % 4 = 3
    (y.chainUp = false → same fwd ∧ same (.enum f) ∧ same (.poll f) ∧ ∀ r ∈ rows, same r.1) ∧
    (y.chainUp = true → y.chainTarget f = false → gives fwd (y.emit (.chain f)) ∧
      ∀ r ∈ rows, gives r.1 (y.emit (.chain f))) ∧
    (y.chainUp = true → y.chainTarget f = true → chainGood f = false → ∃ t, gives fwd t ∧
      (∃ l, t.out = y.out ++ .chain f :: l) ∧
      (t.reg (chPg + 0x54)).toNat = min ((y.reg (chPg + 0x54)).toNat + 1) 0xffffffff) ∧
    (named → unknownOp f = false → gives fwd (y.emit (.chain f))) ∧
    (asks → unknownOp f = true → refuses fwd) ∧
    (∀ a r, named → f.bcast = false → y.chain.kept = some (f.seq, r) → a ∈ rows → a.2 →
      gives a.1 { y with out := y.out ++ [.chain f, .chain r] }) ∧
    (on → f.typ = 1 → f.payload.length = 16 →
      (pos < 64 → y.chainValid = false → ∃ t g, gives (.enum f) t ∧ t.chainValid = true ∧ t.chainPos = pos ∧
        t.fld (rtPg + 0x40) 11 0 = 64 * id + pos ∧ t.addressed = true ∧ t.out = y.out ++ [.chain g] ∧
        byteAt g.payload 1 = nextPos pos (payNat f.payload 4 8) ∧
        byteAt g.payload 2 = (byteAt f.payload 2 + 1) % 256 ∧ g.crc = chainCrc g) ∧
      (pos < 64 → y.chainValid = true → own = 64 * id + pos → ∃ t, gives (.enum f) t ∧ t.regs = y.regs) ∧
      (64 ≤ pos → y.chainValid = false → gives (.enum f) (y.emit (.chain f))) ∧
      (y.chainValid = true → 64 ≤ pos ∨ own ≠ 64 * id + pos → ∃ t, gives (.enum f) t ∧
        t.flag (errStat chPg) 1 = true ∧ t.fld (rtPg + 0x40) 11 0 = own)) ∧
    (on → f.typ = 6 → f.payload.length = 8 → y.chainValid = true →
      gives (.poll f) (y.emit (.chain (if y.fld (chPg + 0x48) 4 0 = 0 then f
        else chainEdit f (leBytes 8 (payNat f.payload 0 8 ||| 2 ^ y.chainPos)))))) ∧
    (asks → ctl 1 →
      (key 0 → y.boot.on = true → y.stageState = 3 → (∀ e ∈ y.boot.cfg, e.stage ≠ 6) →
        ∃ z, exec (.continueHold f) s = .next { s with sys := z } ∧ z.chip.stageNo = 6 ∧ z.chip.stageState = 0 ∧
          z.chip.boot.stageStart = y.ref ∧ ∃ r, z.chip.chain.kept = some (f.seq, r)) ∧
      (¬ key 0 ∨ y.stageState ≠ 3 → refuses (.continueHold f))) ∧
    (asks → ctl 2 → (key 0xA7 → tells (.chainReset f) .ok [] fun z => z.mem = mem ∧ z.chip.boot.resetDue = true) ∧
      (¬ key 0xA7 → refuses (.chainReset f))) ∧
    (asks → ctl 4 → (key 0 → tells (.alertAck f) .ok [] fun z => z.mem = mem ∧
        z.chip.reg (chPg + 0x48) = y.reg (chPg + 0x48) &&& ~~~ (BitVec.ofNat 32 arg)) ∧
      (¬ key 0 → refuses (.alertAck f))) ∧
    (asks → ctl 3 →
      let may := key 0x96 ∧ y.svc = 0 ∧ y.isReady = true ∧ 1 ≤ arg ∧ arg ≤ 600000
      (may → ∃ t, gives (.retire f) t ∧ t.svc = 1 ∧ t.retireStep = 1 ∧ t.chain.retireBy = y.now + 1000000 * arg ∧
        ∃ r, t.chain.kept = some (f.seq, r)) ∧
      (¬ may → refuses (.retire f))) ∧
    (asks → flash 1 →
      ((recov ∨ y.stageState = 2) ∧ 1 ≤ n ∧ n ≤ 256 → tells (.flashRead f) .ok (KMap.bytes mem.flash arg n) fun z =>
        z.mem = mem ∧ z.chip.regs = y.regs) ∧
      (¬ ((recov ∨ y.stageState = 2) ∧ 1 ≤ n ∧ n ≤ 256) → refuses (.flashRead f))) ∧
    (asks → flash 2 →
      (recov ∧ arg % 4096 = 0 → tells (.flashErase f) .ok [] fun z => z.mem = { mem with flash := z.mem.flash } ∧
        KMap.bytes z.mem.flash arg 4096 = List.replicate 4096 0xFF ∧
        ∀ a, a < arg ∨ arg + 4096 ≤ a → KMap.at z.mem.flash 0 a = KMap.at mem.flash 0 a) ∧
      (¬ (recov ∧ arg % 4096 = 0) → refuses (.flashErase f))) ∧
    (asks → flash 3 →
      let may := recov ∧ 1 ≤ n ∧ arg % 256 + n ≤ 256 ∧ f.payload.length = 16 + n
      (may → ∃ st, tells (.flashProgram f) st [] fun z => z.mem = { mem with flash := z.mem.flash } ∧
        (st = .ok ∨ st = .ue) ∧ (st = .ok ↔ KMap.bytes z.mem.flash arg n = f.payload.drop 16) ∧
        ∀ a, a < arg ∨ arg + n ≤ a → KMap.at z.mem.flash 0 a = KMap.at mem.flash 0 a) ∧
      (¬ may → refuses (.flashProgram f))) ∧
    (y.svc = 1 → y.retireStep = 1 → y.paired = false → y.rights.leases = [] → y.rights.exts = [] →
      y.parts.ctxs = [] → ∃ t, gives .retireDrain t ∧ t.svc = 1 ∧ t.retireStep = 3) ∧
    (y.svc ≠ 1 ∨ y.retireStep ≠ 1 ∨ (y.allFree = false ∧ y.now < y.chain.retireBy) → same .retireDrain) ∧
    (y.svc ≠ 1 → same .retired) ∧
    (y.svc = 1 → y.retireStep = 3 → if y.reclaimed = true then ∃ t, gives .retired t ∧ t.svc = 2 ∧
      t.retireStep = 4 else same .retired)

/-! ## The block as a whole -/

/-- A step takes the command at the front of the queue and runs it with the rest of the queue. -/
def Obligations.StepRunsFront : Prop :=
  ∀ (s : State) (c : Instr) (l : List Instr),
    step { s with pending := c :: l } = exec c { s with pending := l }

/-- With an empty queue a step is a tick (the model's choice, log entry 6): it answers a next state whose
queue is empty and whose memories are as before; a chip that neither slews nor stands by gains one tick
and its reference one; a tick the slew adds is a step of its own in which the reference does not move, and
a tick it omits leaves fabric time in place. -/
def Obligations.IdleTick : Prop :=
  ∀ (y : Sys), ∃ z, step ⟨[], y⟩ = .next ⟨[], z⟩ ∧ z.mem = y.mem ∧
    (y.chip.ft.debt.natAbs < 16 → y.chip.duo.tokens = [] →
      z.chip.now = y.chip.now + 1 ∧ z.chip.ref = y.chip.ref + 1 ∧ z.chip.ft.debt = y.chip.ft.debt) ∧
    (16 ≤ y.chip.ft.debt.natAbs → y.chip.ft.slewAt + 256 ≤ y.chip.now → y.chip.duo.tokens = [] →
      (0 < y.chip.ft.debt → z.chip.now = y.chip.now + 1 ∧ z.chip.ref = y.chip.ref ∧
        z.chip.ft.debt = y.chip.ft.debt - 16) ∧
      (y.chip.ft.debt < 0 → z.chip.now = y.chip.now ∧ z.chip.ref = y.chip.ref + 1 ∧
        z.chip.ft.debt = y.chip.ft.debt + 16))

/-- Every command completes or meets the one fault of the block, a register write of the triad to an
address that holds no register; none is refused, and none changes the queue behind it. -/
def Obligations.NeverRefused : Prop :=
  ∀ (c : Instr) (s : State), (∃ z, exec c s = .next { s with sys := z }) ∨
    (exec c s = .fault .noSuchRegister ∧ ∃ p a v, c = .registerWrite p a v)

/-- The memories are in canonical form at reset. -/
def Obligations.ResetInv : Prop := State.reset.Inv

/-- Every step keeps the canonical form of the stores, the SRAMs, the pool, its error marks and the
flash: addresses rise and nothing is listed that reads as an unlisted address does. -/
def Obligations.InvKept : Prop :=
  ∀ (s t : State), s.Inv → step s = .next t → t.Inv

/-! ## Rules stated whole -/

/-- R37, R38: a contribution or a left shift of at most 24 bits is exact where its result lies in s64, and
leaves the bound on its side and the SAT bit where it does not; beyond 24 bits a value that is not 0
leaves the bound of its own sign and the SAT bit, and a 0 changes nothing; with its SAT bit set an
accumulator keeps what it holds. -/
def Obligations.AccumulatorBounds : Prop :=
  ∀ (a v : Int) (n : Nat) (b : Bool),
    let hi : Int := 2 ^ 63 - 1
    let lo : Int := -2 ^ 63
    let exact := fun (r : Int) (q : Int × Bool) =>
      (lo ≤ r → r ≤ hi → q = (r, false)) ∧ (hi < r → q = (hi, true)) ∧ (r < lo → q = (lo, true))
    accAdd (a, true) v n = (a, true) ∧ accShift (a, true) n = (a, true) ∧ satAdd (a, true) (v, b) = (a, true) ∧
    (lo ≤ a → a ≤ hi →
      accAdd (a, false) 0 n = (a, false) ∧ accShift (0, false) n = (0, false) ∧
      (n ≤ 24 → exact (a + v * 2 ^ n) (accAdd (a, false) v n) ∧ exact (a * 2 ^ n) (accShift (a, false) n)) ∧
      (24 < n → 0 < v → accAdd (a, false) v n = (hi, true)) ∧
      (24 < n → v < 0 → accAdd (a, false) v n = (lo, true)) ∧
      (24 < n → 0 < a → accShift (a, false) n = (hi, true)) ∧
      (24 < n → a < 0 → accShift (a, false) n = (lo, true)) ∧
      exact (a + v) (satAdd (a, false) (v, false)))

/-- R46: mode 0 rounds to the nearest, ties to even; mode 1 to the nearest, ties away from zero; mode 2
toward minus infinity; a TILE or a SCAN that names mode 3 traps, with a code of its checks and its TAG in
FG_TRAP, and nothing of it has run. -/
def Obligations.RoundingModes : Prop :=
  (∀ (p : Int) (n : Nat),
    let u : Int := 2 ^ n
    let near := fun (q : Int) => 2 * (p - q * u) ≤ u ∧ 2 * (q * u - p) ≤ u
    let tie := fun (q : Int) => 2 * (p - q * u) = u ∨ 2 * (q * u - p) = u
    (near (rqRound p n 0) ∧ (tie (rqRound p n 0) → rqRound p n 0 % 2 = 0)) ∧
    (near (rqRound p n 1) ∧ (tie (rqRound p n 1) → p.natAbs < (rqRound p n 1 * u).natAbs)) ∧
    (rqRound p n 2 * u ≤ p ∧ p < (rqRound p n 2 + 1) * u)) ∧
  (∀ (s : State) (c : ClusterNo) (n : Nat) (d : List Word) (rest : List (Nat × List Word)) (i : Instr) (opc : Nat),
    (i, opc) ∈ [(.tile c, 1), (.scan c, 2)] → dw d 0 3 0 = opc → tMode d = 3 →
    (s.sys.chip.frog c).queue = (n, d) :: rest → s.sys.chip.frogReady c = true →
    (s.sys.chip.frog c).struck = none →
    ∃ z code, exec i s = .next { s with sys := z } ∧ z.mem = s.sys.mem ∧ 0 < code ∧ code ≤ 4 ∧
      (z.chip.frog c).queue = rest ∧ (z.chip.frog c).trapped = true ∧
      z.chip.reg (fgPg c + 0x4C) = BitVec.ofNat 32 (code + 65536 * dw d 1 15 0))

/-- R87: a load or store whose address is no multiple of its size raises the misaligned fault of R97,
cause 4 or 6, and accesses nothing: a newt is TRAPPED with the address in NW_TVAL, the cluster control
core takes the exception. -/
def Obligations.MisalignedAccess : Prop :=
  ∀ (s : State) (c : ClusterNo) (m : CoreNo) (f3 ra rb imm bits len : Nat) (y : Sys) (op : Rv) (i : Instr)
      (cause base : Nat),
    (op, i, cause, base) = (.load f3 ra rb imm, .newtLoad c m, 4, rb) ∨
    (op, i, cause, base) = (.store f3 ra rb imm, .newtStore c m, 6, ra) →
    s.sys.nextIs c m op bits len y →
    let x := y.chip.core c m
    let addr := ((x.get base).toNat + imm) % 2 ^ 32
    addr % accSize f3 ≠ 0 →
    ∃ z, exec i s = .next { s with sys := z } ∧ z.mem = y.mem ∧
      (m.val < 128 → z.chip.core c m = { x with st := 4, haltReq := false } ∧
        z.chip.fld (nwRec c m) 12 8 = cause ∧ z.chip.reg (nwRec c m + 8) = BitVec.ofNat 32 addr) ∧
      (m.val = 128 → y.onlyCore z c m ∧ z.chip.core c m = { x with
        mepc := BitVec.ofNat 32 x.pc
        mcause := BitVec.ofNat 32 cause
        mtval := BitVec.ofNat 32 addr
        mpie := x.mie
        mie := false
        pc := x.mtvec.toNat / 4 * 4
        haltReq := false })
end

