-- ==== Sys2Proof/Laws/KMap.lean ====
section
/-! SUPPORT. Sparse maps: what is read after a write, and that every operation keeps the canonical
form. -/

namespace Sys2Proof.Laws

variable {α : Type}

theorem at?_ins_self (m : KMap α) (i : Nat) (x : α) : (KMap.ins m i x).at? i = some x := by
  induction m with
  | nil => simp [KMap.ins, KMap.at?]
  | cons e m ih =>
    obtain ⟨k, v⟩ := e
    simp only [KMap.ins]
    split
    · simp [KMap.at?]
    · split
      · simp [KMap.at?]
      · rename_i h; simp [KMap.at?, h, ih]

theorem at?_ins_ne (m : KMap α) {i j : Nat} (x : α) (h : i ≠ j) :
    (KMap.ins m i x).at? j = m.at? j := by
  induction m with
  | nil => simp [KMap.ins, KMap.at?, h]
  | cons e m ih =>
    obtain ⟨k, v⟩ := e
    simp only [KMap.ins]
    split
    · simp [KMap.at?, h]
    · split
      · rename_i hk; subst hk; simp [KMap.at?, h]
      · simp only [KMap.at?, ih]

/-- Every key of the map is at least n: the rising order of a canonical map in a form an induction
can use. -/
def above (n : Nat) : KMap α → Prop
  | [] => True
  | (k, _) :: m => n ≤ k ∧ above (k + 1) m

theorem above_mono {m : KMap α} {n n' : Nat} (h : n' ≤ n) (hm : above n m) : above n' m := by
  cases m with
  | nil => trivial
  | cons e m => exact ⟨le_trans h hm.1, hm.2⟩

theorem at?_none_of_above {m : KMap α} {n i : Nat} (hm : above n m) (h : i < n) :
    m.at? i = none := by
  induction m generalizing n with
  | nil => rfl
  | cons e m ih =>
    obtain ⟨k, v⟩ := e
    have hk : k ≠ i := by have := hm.1; omega
    simp only [KMap.at?, hk, if_false]
    exact ih hm.2 (by have := hm.1; omega)

theorem at?_del_self (m : KMap α) (i : Nat) : (KMap.del m i).at? i = none := by
  induction m with
  | nil => rfl
  | cons e m ih =>
    obtain ⟨k, v⟩ := e
    simp only [KMap.del]
    split
    · exact ih
    · rename_i h; simp [KMap.at?, h, ih]

theorem at?_del_ne (m : KMap α) {i j : Nat} (h : i ≠ j) : (KMap.del m i).at? j = m.at? j := by
  induction m with
  | nil => rfl
  | cons e m ih =>
    obtain ⟨k, v⟩ := e
    simp only [KMap.del]
    split
    · rename_i hk; subst hk; simp [KMap.at?, h, ih]
    · simp only [KMap.at?, ih]

theorem above_ins {m : KMap α} {n i : Nat} (x : α) (hm : above n m) (h : n ≤ i) :
    above n (KMap.ins m i x) := by
  induction m generalizing n with
  | nil => exact ⟨h, trivial⟩
  | cons e m ih =>
    obtain ⟨k, v⟩ := e
    simp only [KMap.ins]
    split
    · rename_i hk; exact ⟨h, hk, hm.2⟩
    · split
      · rename_i hk; subst hk; exact ⟨hm.1, hm.2⟩
      · exact ⟨hm.1, ih hm.2 (by omega)⟩

theorem above_del {m : KMap α} {n : Nat} (i : Nat) (hm : above n m) : above n (KMap.del m i) := by
  induction m generalizing n with
  | nil => trivial
  | cons e m ih =>
    obtain ⟨k, v⟩ := e
    simp only [KMap.del]
    split
    · exact ih (above_mono (by have := hm.1; omega) hm.2)
    · exact ⟨hm.1, ih hm.2⟩

theorem mem_ins {m : KMap α} {i : Nat} {x : α} {e : Nat × α} (h : e ∈ KMap.ins m i x) :
    e = (i, x) ∨ e ∈ m := by
  induction m with
  | nil => simpa [KMap.ins] using h
  | cons f m ih =>
    obtain ⟨k, v⟩ := f
    simp only [KMap.ins] at h
    split at h
    · simpa using h
    · split at h
      · rcases List.mem_cons.mp h with h | h
        · exact .inl h
        · exact .inr (List.mem_cons_of_mem _ h)
      · rcases List.mem_cons.mp h with h | h
        · exact .inr (by simp [h])
        · rcases ih h with h | h
          · exact .inl h
          · exact .inr (List.mem_cons_of_mem _ h)

theorem mem_del {m : KMap α} {i : Nat} {e : Nat × α} (h : e ∈ KMap.del m i) : e ∈ m := by
  induction m with
  | nil => simp [KMap.del] at h
  | cons f m ih =>
    obtain ⟨k, v⟩ := f
    simp only [KMap.del] at h
    split at h
    · exact List.mem_cons_of_mem _ (ih h)
    · rcases List.mem_cons.mp h with h | h
      · simp [h]
      · exact List.mem_cons_of_mem _ (ih h)

theorem above_filter {m : KMap α} {n : Nat} (p : Nat × α → Bool) (hm : above n m) :
    above n (m.filter p) := by
  induction m generalizing n with
  | nil => trivial
  | cons e m ih =>
    obtain ⟨k, v⟩ := e
    simp only [List.filter]
    split
    · exact ⟨hm.1, ih hm.2⟩
    · exact ih (above_mono (by have := hm.1; omega) hm.2)

section Canonical

variable [DecidableEq α]

/-- No listed value is the default. -/
def proper (d : α) (m : KMap α) : Prop := ∀ e ∈ m, e.2 ≠ d

theorem wf_iff (d : α) (m : KMap α) : m.wf d = true ↔ above 0 m ∧ proper d m := by
  have key : ∀ (m : KMap α) (n : Nat), (∀ e, m.head? = some e → n ≤ e.1) →
      (m.wf d = true ↔ above n m ∧ proper d m) := by
    intro m
    induction m with
    | nil => intro n _; simp [KMap.wf, above, proper]
    | cons e m ih =>
      intro n hn
      obtain ⟨k, v⟩ := e
      have hk : n ≤ k := hn (k, v) rfl
      cases m with
      | nil => simp [KMap.wf, above, proper, hk]
      | cons e' m' =>
        obtain ⟨k', v'⟩ := e'
        simp only [KMap.wf, Bool.and_eq_true, decide_eq_true_eq]
        constructor
        · rintro ⟨⟨hv, hlt⟩, hm⟩
          have := (ih (k + 1) (by intro e he; cases he; exact hlt)).mp hm
          refine ⟨⟨hk, this.1⟩, ?_⟩
          intro e he
          rcases List.mem_cons.mp he with rfl | he
          · exact hv
          · exact this.2 e he
        · rintro ⟨⟨_, ha⟩, hp⟩
          refine ⟨⟨hp (k, v) (by simp), ha.1⟩, ?_⟩
          exact (ih (k + 1) (by intro e he; cases he; exact ha.1)).mpr
            ⟨ha, fun e he => hp e (List.mem_cons_of_mem _ he)⟩
  exact key m 0 (by simp)

/-- A write keeps the canonical form. -/
theorem wf_put {d : α} {m : KMap α} (i : Nat) (x : α) (h : m.wf d = true) :
    (m.put d i x).wf d = true := by
  rw [wf_iff] at h ⊢
  simp only [KMap.put]
  split
  · exact ⟨above_del i h.1, fun e he => h.2 e (mem_del he)⟩
  · rename_i hx
    refine ⟨above_ins x h.1 (Nat.zero_le _), fun e he => ?_⟩
    rcases mem_ins he with rfl | he
    · exact hx
    · exact h.2 e he

/-- A read of the key just written gives the value written. -/
@[simp] theorem at_put_self (d : α) (m : KMap α) (i : Nat) (x : α) : (m.put d i x).at d i = x := by
  simp only [KMap.put, KMap.at]
  split
  · rename_i hx; rw [at?_del_self]; simp [hx]
  · simp [at?_ins_self]

/-- A write leaves every other key alone. -/
theorem at_put_ne {d d' : α} (m : KMap α) {i j : Nat} (x : α) (h : i ≠ j) :
    (m.put d i x).at d' j = m.at d' j := by
  simp only [KMap.put, KMap.at]
  split
  · rw [at?_del_ne m h]
  · rw [at?_ins_ne m x h]

/-- Clearing a range keeps the canonical form. -/
theorem wf_zero {d : α} {m : KMap α} (a n : Nat) (h : m.wf d = true) :
    (m.zero a n).wf d = true := by
  rw [wf_iff] at h ⊢
  exact ⟨above_filter _ h.1, fun e he => h.2 e (List.mem_of_mem_filter he)⟩

/-- Any number of writes keep the canonical form. -/
theorem wf_foldl_put {β : Type} {d : α} (f : β → Nat) (g : β → α) (l : List β) {m : KMap α}
    (h : m.wf d = true) : (l.foldl (fun m b => m.put d (f b) (g b)) m).wf d = true := by
  induction l generalizing m with
  | nil => exact h
  | cons b l ih => exact ih (wf_put _ _ h)

end Canonical

/-- Storing bytes keeps the canonical form. -/
theorem wf_store {m : KMap Byte} (a : Nat) (bs : List Byte) (h : m.wf 0 = true) :
    (m.store a bs).wf 0 = true := by
  induction bs generalizing m a with
  | nil => exact h
  | cons b bs ih => exact ih (a + 1) (wf_put a b h)

/-- A store leaves every byte outside its range alone. -/
theorem at_store_out (m : KMap Byte) (a : Nat) (bs : List Byte) {i : Nat}
    (h : i < a ∨ a + bs.length ≤ i) : (m.store a bs).at 0 i = m.at 0 i := by
  induction bs generalizing m a with
  | nil => rfl
  | cons b bs ih =>
    simp only [KMap.store]
    rw [ih _ (a + 1) (by simp only [List.length_cons] at h; omega)]
    exact at_put_ne m b (by simp only [List.length_cons] at h; omega)

/-- What a store wrote is read back. -/
theorem bytes_store (m : KMap Byte) (a : Nat) (bs : List Byte) :
    (m.store a bs).bytes a bs.length = bs := by
  have key : ∀ (bs : List Byte) (m : KMap Byte) (a : Nat),
      ∀ k (hk : k < bs.length), (m.store a bs).at 0 (a + k) = bs[k] := by
    intro bs
    induction bs with
    | nil => intro _ _ k hk; exact absurd hk (Nat.not_lt_zero k)
    | cons b bs ih =>
      intro m a k hk
      simp only [KMap.store]
      cases k with
      | zero =>
        rw [at_store_out _ (a + 1) bs (by omega)]
        exact at_put_self 0 m a b
      | succ k =>
        have := ih (m.put 0 a b) (a + 1) k (by simpa using hk)
        rw [show a + (k + 1) = a + 1 + k by omega, this]; rfl
  have gen : ∀ (n : Nat) (M : KMap Byte) (a : Nat) (l : List Byte), l.length = n →
      (∀ k (hk : k < l.length), M.at 0 (a + k) = l[k]) → M.bytes a n = l := by
    intro n
    induction n with
    | zero => intro M a l hl _; simp [KMap.bytes, List.length_eq_zero_iff.mp hl]
    | succ n ih =>
      intro M a l hl hk
      cases l with
      | nil => simp at hl
      | cons b l =>
        simp only [KMap.bytes]
        have h0 := hk 0 (by simp)
        simp only [Nat.add_zero, List.getElem_cons_zero] at h0
        rw [h0, ih M (a + 1) l (by simpa using hl) (fun k hk' => by
          have := hk (k + 1) (by simpa using hk')
          rw [show a + (k + 1) = a + 1 + k by omega] at this
          simpa using this)]
  exact gen _ _ a bs rfl (key bs m a)

end Sys2Proof.Laws
end

