-- ==== Sys2Proof/Laws/State.lean ====
section
/-! SUPPORT. One lemma per field of the chip for each named update: what the update leaves alone. -/

namespace Sys2Proof.Machine

@[simp] theorem Chip.setReg_now (s : Chip) (a : Nat) (w : Word) : (s.setReg a w).now = s.now := (rfl)
@[simp] theorem Chip.setReg_ref (s : Chip) (a : Nat) (w : Word) : (s.setReg a w).ref = s.ref := (rfl)
@[simp] theorem Chip.setReg_free (s : Chip) (a : Nat) (w : Word) : (s.setReg a w).free = s.free := (rfl)
@[simp] theorem Chip.setReg_out (s : Chip) (a : Nat) (w : Word) : (s.setReg a w).out = s.out := (rfl)
@[simp] theorem Chip.setReg_latches (s : Chip) (a : Nat) (w : Word) : (s.setReg a w).latches = s.latches := (rfl)
@[simp] theorem Chip.setReg_holds (s : Chip) (a : Nat) (w : Word) : (s.setReg a w).holds = s.holds := (rfl)
@[simp] theorem Chip.setReg_cls (s : Chip) (a : Nat) (w : Word) : (s.setReg a w).cls = s.cls := (rfl)
@[simp] theorem Chip.setReg_posts (s : Chip) (a : Nat) (w : Word) : (s.setReg a w).posts = s.posts := (rfl)
@[simp] theorem Chip.setReg_xcs (s : Chip) (a : Nat) (w : Word) : (s.setReg a w).xcs = s.xcs := (rfl)
@[simp] theorem Chip.setReg_accs (s : Chip) (a : Nat) (w : Word) : (s.setReg a w).accs = s.accs := (rfl)
@[simp] theorem Chip.setReg_prom (s : Chip) (a : Nat) (w : Word) : (s.setReg a w).prom = s.prom := (rfl)
@[simp] theorem Chip.setReg_mcs (s : Chip) (a : Nat) (w : Word) : (s.setReg a w).mcs = s.mcs := (rfl)
@[simp] theorem Chip.setReg_thrMsgs (s : Chip) (a : Nat) (w : Word) : (s.setReg a w).thrMsgs = s.thrMsgs := (rfl)
@[simp] theorem Chip.setReg_rights (s : Chip) (a : Nat) (w : Word) : (s.setReg a w).rights = s.rights := (rfl)
@[simp] theorem Chip.setReg_dir (s : Chip) (a : Nat) (w : Word) : (s.setReg a w).dir = s.dir := (rfl)
@[simp] theorem Chip.setReg_regions (s : Chip) (a : Nat) (w : Word) : (s.setReg a w).regions = s.regions := (rfl)
@[simp] theorem Chip.setReg_roles (s : Chip) (a : Nat) (w : Word) : (s.setReg a w).roles = s.roles := (rfl)
@[simp] theorem Chip.setReg_hloc (s : Chip) (a : Nat) (w : Word) : (s.setReg a w).hloc = s.hloc := (rfl)
@[simp] theorem Chip.setReg_coord (s : Chip) (a : Nat) (w : Word) : (s.setReg a w).coord = s.coord := (rfl)
@[simp] theorem Chip.setReg_links (s : Chip) (a : Nat) (w : Word) : (s.setReg a w).links = s.links := (rfl)
@[simp] theorem Chip.setReg_ft (s : Chip) (a : Nat) (w : Word) : (s.setReg a w).ft = s.ft := (rfl)
@[simp] theorem Chip.setReg_own (s : Chip) (a : Nat) (w : Word) : (s.setReg a w).own = s.own := (rfl)
@[simp] theorem Chip.setReg_gates (s : Chip) (a : Nat) (w : Word) : (s.setReg a w).gates = s.gates := (rfl)
@[simp] theorem Chip.setReg_gateLink (s : Chip) (a : Nat) (w : Word) : (s.setReg a w).gateLink = s.gateLink := (rfl)
@[simp] theorem Chip.setReg_arbs (s : Chip) (a : Nat) (w : Word) : (s.setReg a w).arbs = s.arbs := (rfl)
@[simp] theorem Chip.setReg_eth (s : Chip) (a : Nat) (w : Word) : (s.setReg a w).eth = s.eth := (rfl)
@[simp] theorem Chip.setReg_parts (s : Chip) (a : Nat) (w : Word) : (s.setReg a w).parts = s.parts := (rfl)
@[simp] theorem Chip.setReg_errs (s : Chip) (a : Nat) (w : Word) : (s.setReg a w).errs = s.errs := (rfl)
@[simp] theorem Chip.setReg_att (s : Chip) (a : Nat) (w : Word) : (s.setReg a w).att = s.att := (rfl)
@[simp] theorem Chip.setReg_chain (s : Chip) (a : Nat) (w : Word) : (s.setReg a w).chain = s.chain := (rfl)
@[simp] theorem Chip.setReg_duo (s : Chip) (a : Nat) (w : Word) : (s.setReg a w).duo = s.duo := (rfl)
@[simp] theorem Chip.setReg_tmr (s : Chip) (a : Nat) (w : Word) : (s.setReg a w).tmr = s.tmr := (rfl)
@[simp] theorem Chip.setReg_boot (s : Chip) (a : Nat) (w : Word) : (s.setReg a w).boot = s.boot := (rfl)
@[simp] theorem Chip.setReg_plan (s : Chip) (a : Nat) (w : Word) : (s.setReg a w).plan = s.plan := (rfl)
@[simp] theorem Chip.setReg_shapers (s : Chip) (a : Nat) (w : Word) : (s.setReg a w).shapers = s.shapers := (rfl)
@[simp] theorem Chip.setReg_shpStage (s : Chip) (a : Nat) (w : Word) : (s.setReg a w).shpStage = s.shpStage := (rfl)
@[simp] theorem Chip.setReg_held (s : Chip) (a : Nat) (w : Word) : (s.setReg a w).held = s.held := (rfl)

@[simp] theorem Chip.setFld_now (s : Chip) (a hi lo v : Nat) : (s.setFld a hi lo v).now = s.now := (rfl)
@[simp] theorem Chip.setFld_ref (s : Chip) (a hi lo v : Nat) : (s.setFld a hi lo v).ref = s.ref := (rfl)
@[simp] theorem Chip.setFld_free (s : Chip) (a hi lo v : Nat) : (s.setFld a hi lo v).free = s.free := (rfl)
@[simp] theorem Chip.setFld_out (s : Chip) (a hi lo v : Nat) : (s.setFld a hi lo v).out = s.out := (rfl)
@[simp] theorem Chip.setFld_latches (s : Chip) (a hi lo v : Nat) : (s.setFld a hi lo v).latches = s.latches := (rfl)
@[simp] theorem Chip.setFld_holds (s : Chip) (a hi lo v : Nat) : (s.setFld a hi lo v).holds = s.holds := (rfl)
@[simp] theorem Chip.setFld_cls (s : Chip) (a hi lo v : Nat) : (s.setFld a hi lo v).cls = s.cls := (rfl)
@[simp] theorem Chip.setFld_posts (s : Chip) (a hi lo v : Nat) : (s.setFld a hi lo v).posts = s.posts := (rfl)
@[simp] theorem Chip.setFld_xcs (s : Chip) (a hi lo v : Nat) : (s.setFld a hi lo v).xcs = s.xcs := (rfl)
@[simp] theorem Chip.setFld_accs (s : Chip) (a hi lo v : Nat) : (s.setFld a hi lo v).accs = s.accs := (rfl)
@[simp] theorem Chip.setFld_prom (s : Chip) (a hi lo v : Nat) : (s.setFld a hi lo v).prom = s.prom := (rfl)
@[simp] theorem Chip.setFld_mcs (s : Chip) (a hi lo v : Nat) : (s.setFld a hi lo v).mcs = s.mcs := (rfl)
@[simp] theorem Chip.setFld_thrMsgs (s : Chip) (a hi lo v : Nat) : (s.setFld a hi lo v).thrMsgs = s.thrMsgs := (rfl)
@[simp] theorem Chip.setFld_rights (s : Chip) (a hi lo v : Nat) : (s.setFld a hi lo v).rights = s.rights := (rfl)
@[simp] theorem Chip.setFld_dir (s : Chip) (a hi lo v : Nat) : (s.setFld a hi lo v).dir = s.dir := (rfl)
@[simp] theorem Chip.setFld_regions (s : Chip) (a hi lo v : Nat) : (s.setFld a hi lo v).regions = s.regions := (rfl)
@[simp] theorem Chip.setFld_roles (s : Chip) (a hi lo v : Nat) : (s.setFld a hi lo v).roles = s.roles := (rfl)
@[simp] theorem Chip.setFld_hloc (s : Chip) (a hi lo v : Nat) : (s.setFld a hi lo v).hloc = s.hloc := (rfl)
@[simp] theorem Chip.setFld_coord (s : Chip) (a hi lo v : Nat) : (s.setFld a hi lo v).coord = s.coord := (rfl)
@[simp] theorem Chip.setFld_links (s : Chip) (a hi lo v : Nat) : (s.setFld a hi lo v).links = s.links := (rfl)
@[simp] theorem Chip.setFld_ft (s : Chip) (a hi lo v : Nat) : (s.setFld a hi lo v).ft = s.ft := (rfl)
@[simp] theorem Chip.setFld_own (s : Chip) (a hi lo v : Nat) : (s.setFld a hi lo v).own = s.own := (rfl)
@[simp] theorem Chip.setFld_gates (s : Chip) (a hi lo v : Nat) : (s.setFld a hi lo v).gates = s.gates := (rfl)
@[simp] theorem Chip.setFld_gateLink (s : Chip) (a hi lo v : Nat) : (s.setFld a hi lo v).gateLink = s.gateLink := (rfl)
@[simp] theorem Chip.setFld_arbs (s : Chip) (a hi lo v : Nat) : (s.setFld a hi lo v).arbs = s.arbs := (rfl)
@[simp] theorem Chip.setFld_eth (s : Chip) (a hi lo v : Nat) : (s.setFld a hi lo v).eth = s.eth := (rfl)
@[simp] theorem Chip.setFld_parts (s : Chip) (a hi lo v : Nat) : (s.setFld a hi lo v).parts = s.parts := (rfl)
@[simp] theorem Chip.setFld_errs (s : Chip) (a hi lo v : Nat) : (s.setFld a hi lo v).errs = s.errs := (rfl)
@[simp] theorem Chip.setFld_att (s : Chip) (a hi lo v : Nat) : (s.setFld a hi lo v).att = s.att := (rfl)
@[simp] theorem Chip.setFld_chain (s : Chip) (a hi lo v : Nat) : (s.setFld a hi lo v).chain = s.chain := (rfl)
@[simp] theorem Chip.setFld_duo (s : Chip) (a hi lo v : Nat) : (s.setFld a hi lo v).duo = s.duo := (rfl)
@[simp] theorem Chip.setFld_tmr (s : Chip) (a hi lo v : Nat) : (s.setFld a hi lo v).tmr = s.tmr := (rfl)
@[simp] theorem Chip.setFld_boot (s : Chip) (a hi lo v : Nat) : (s.setFld a hi lo v).boot = s.boot := (rfl)
@[simp] theorem Chip.setFld_plan (s : Chip) (a hi lo v : Nat) : (s.setFld a hi lo v).plan = s.plan := (rfl)
@[simp] theorem Chip.setFld_shapers (s : Chip) (a hi lo v : Nat) : (s.setFld a hi lo v).shapers = s.shapers := (rfl)
@[simp] theorem Chip.setFld_shpStage (s : Chip) (a hi lo v : Nat) : (s.setFld a hi lo v).shpStage = s.shpStage := (rfl)
@[simp] theorem Chip.setFld_held (s : Chip) (a hi lo v : Nat) : (s.setFld a hi lo v).held = s.held := (rfl)

@[simp] theorem Chip.setFlag_now (s : Chip) (a n : Nat) (b : Bool) : (s.setFlag a n b).now = s.now := (rfl)
@[simp] theorem Chip.setFlag_ref (s : Chip) (a n : Nat) (b : Bool) : (s.setFlag a n b).ref = s.ref := (rfl)
@[simp] theorem Chip.setFlag_free (s : Chip) (a n : Nat) (b : Bool) : (s.setFlag a n b).free = s.free := (rfl)
@[simp] theorem Chip.setFlag_out (s : Chip) (a n : Nat) (b : Bool) : (s.setFlag a n b).out = s.out := (rfl)
@[simp] theorem Chip.setFlag_latches (s : Chip) (a n : Nat) (b : Bool) : (s.setFlag a n b).latches = s.latches := (rfl)
@[simp] theorem Chip.setFlag_holds (s : Chip) (a n : Nat) (b : Bool) : (s.setFlag a n b).holds = s.holds := (rfl)
@[simp] theorem Chip.setFlag_cls (s : Chip) (a n : Nat) (b : Bool) : (s.setFlag a n b).cls = s.cls := (rfl)
@[simp] theorem Chip.setFlag_posts (s : Chip) (a n : Nat) (b : Bool) : (s.setFlag a n b).posts = s.posts := (rfl)
@[simp] theorem Chip.setFlag_xcs (s : Chip) (a n : Nat) (b : Bool) : (s.setFlag a n b).xcs = s.xcs := (rfl)
@[simp] theorem Chip.setFlag_accs (s : Chip) (a n : Nat) (b : Bool) : (s.setFlag a n b).accs = s.accs := (rfl)
@[simp] theorem Chip.setFlag_prom (s : Chip) (a n : Nat) (b : Bool) : (s.setFlag a n b).prom = s.prom := (rfl)
@[simp] theorem Chip.setFlag_mcs (s : Chip) (a n : Nat) (b : Bool) : (s.setFlag a n b).mcs = s.mcs := (rfl)
@[simp] theorem Chip.setFlag_thrMsgs (s : Chip) (a n : Nat) (b : Bool) : (s.setFlag a n b).thrMsgs = s.thrMsgs := (rfl)
@[simp] theorem Chip.setFlag_rights (s : Chip) (a n : Nat) (b : Bool) : (s.setFlag a n b).rights = s.rights := (rfl)
@[simp] theorem Chip.setFlag_dir (s : Chip) (a n : Nat) (b : Bool) : (s.setFlag a n b).dir = s.dir := (rfl)
@[simp] theorem Chip.setFlag_regions (s : Chip) (a n : Nat) (b : Bool) : (s.setFlag a n b).regions = s.regions := (rfl)
@[simp] theorem Chip.setFlag_roles (s : Chip) (a n : Nat) (b : Bool) : (s.setFlag a n b).roles = s.roles := (rfl)
@[simp] theorem Chip.setFlag_hloc (s : Chip) (a n : Nat) (b : Bool) : (s.setFlag a n b).hloc = s.hloc := (rfl)
@[simp] theorem Chip.setFlag_coord (s : Chip) (a n : Nat) (b : Bool) : (s.setFlag a n b).coord = s.coord := (rfl)
@[simp] theorem Chip.setFlag_links (s : Chip) (a n : Nat) (b : Bool) : (s.setFlag a n b).links = s.links := (rfl)
@[simp] theorem Chip.setFlag_ft (s : Chip) (a n : Nat) (b : Bool) : (s.setFlag a n b).ft = s.ft := (rfl)
@[simp] theorem Chip.setFlag_own (s : Chip) (a n : Nat) (b : Bool) : (s.setFlag a n b).own = s.own := (rfl)
@[simp] theorem Chip.setFlag_gates (s : Chip) (a n : Nat) (b : Bool) : (s.setFlag a n b).gates = s.gates := (rfl)
@[simp] theorem Chip.setFlag_gateLink (s : Chip) (a n : Nat) (b : Bool) : (s.setFlag a n b).gateLink = s.gateLink := (rfl)
@[simp] theorem Chip.setFlag_arbs (s : Chip) (a n : Nat) (b : Bool) : (s.setFlag a n b).arbs = s.arbs := (rfl)
@[simp] theorem Chip.setFlag_eth (s : Chip) (a n : Nat) (b : Bool) : (s.setFlag a n b).eth = s.eth := (rfl)
@[simp] theorem Chip.setFlag_parts (s : Chip) (a n : Nat) (b : Bool) : (s.setFlag a n b).parts = s.parts := (rfl)
@[simp] theorem Chip.setFlag_errs (s : Chip) (a n : Nat) (b : Bool) : (s.setFlag a n b).errs = s.errs := (rfl)
@[simp] theorem Chip.setFlag_att (s : Chip) (a n : Nat) (b : Bool) : (s.setFlag a n b).att = s.att := (rfl)
@[simp] theorem Chip.setFlag_chain (s : Chip) (a n : Nat) (b : Bool) : (s.setFlag a n b).chain = s.chain := (rfl)
@[simp] theorem Chip.setFlag_duo (s : Chip) (a n : Nat) (b : Bool) : (s.setFlag a n b).duo = s.duo := (rfl)
@[simp] theorem Chip.setFlag_tmr (s : Chip) (a n : Nat) (b : Bool) : (s.setFlag a n b).tmr = s.tmr := (rfl)
@[simp] theorem Chip.setFlag_boot (s : Chip) (a n : Nat) (b : Bool) : (s.setFlag a n b).boot = s.boot := (rfl)
@[simp] theorem Chip.setFlag_plan (s : Chip) (a n : Nat) (b : Bool) : (s.setFlag a n b).plan = s.plan := (rfl)
@[simp] theorem Chip.setFlag_shapers (s : Chip) (a n : Nat) (b : Bool) : (s.setFlag a n b).shapers = s.shapers := (rfl)
@[simp] theorem Chip.setFlag_shpStage (s : Chip) (a n : Nat) (b : Bool) : (s.setFlag a n b).shpStage = s.shpStage := (rfl)
@[simp] theorem Chip.setFlag_held (s : Chip) (a n : Nat) (b : Bool) : (s.setFlag a n b).held = s.held := (rfl)

@[simp] theorem Chip.bumpBy_now (s : Chip) (a k : Nat) : (s.bumpBy a k).now = s.now := (rfl)
@[simp] theorem Chip.bumpBy_ref (s : Chip) (a k : Nat) : (s.bumpBy a k).ref = s.ref := (rfl)
@[simp] theorem Chip.bumpBy_free (s : Chip) (a k : Nat) : (s.bumpBy a k).free = s.free := (rfl)
@[simp] theorem Chip.bumpBy_out (s : Chip) (a k : Nat) : (s.bumpBy a k).out = s.out := (rfl)
@[simp] theorem Chip.bumpBy_latches (s : Chip) (a k : Nat) : (s.bumpBy a k).latches = s.latches := (rfl)
@[simp] theorem Chip.bumpBy_holds (s : Chip) (a k : Nat) : (s.bumpBy a k).holds = s.holds := (rfl)
@[simp] theorem Chip.bumpBy_cls (s : Chip) (a k : Nat) : (s.bumpBy a k).cls = s.cls := (rfl)
@[simp] theorem Chip.bumpBy_posts (s : Chip) (a k : Nat) : (s.bumpBy a k).posts = s.posts := (rfl)
@[simp] theorem Chip.bumpBy_xcs (s : Chip) (a k : Nat) : (s.bumpBy a k).xcs = s.xcs := (rfl)
@[simp] theorem Chip.bumpBy_accs (s : Chip) (a k : Nat) : (s.bumpBy a k).accs = s.accs := (rfl)
@[simp] theorem Chip.bumpBy_prom (s : Chip) (a k : Nat) : (s.bumpBy a k).prom = s.prom := (rfl)
@[simp] theorem Chip.bumpBy_mcs (s : Chip) (a k : Nat) : (s.bumpBy a k).mcs = s.mcs := (rfl)
@[simp] theorem Chip.bumpBy_thrMsgs (s : Chip) (a k : Nat) : (s.bumpBy a k).thrMsgs = s.thrMsgs := (rfl)
@[simp] theorem Chip.bumpBy_rights (s : Chip) (a k : Nat) : (s.bumpBy a k).rights = s.rights := (rfl)
@[simp] theorem Chip.bumpBy_dir (s : Chip) (a k : Nat) : (s.bumpBy a k).dir = s.dir := (rfl)
@[simp] theorem Chip.bumpBy_regions (s : Chip) (a k : Nat) : (s.bumpBy a k).regions = s.regions := (rfl)
@[simp] theorem Chip.bumpBy_roles (s : Chip) (a k : Nat) : (s.bumpBy a k).roles = s.roles := (rfl)
@[simp] theorem Chip.bumpBy_hloc (s : Chip) (a k : Nat) : (s.bumpBy a k).hloc = s.hloc := (rfl)
@[simp] theorem Chip.bumpBy_coord (s : Chip) (a k : Nat) : (s.bumpBy a k).coord = s.coord := (rfl)
@[simp] theorem Chip.bumpBy_links (s : Chip) (a k : Nat) : (s.bumpBy a k).links = s.links := (rfl)
@[simp] theorem Chip.bumpBy_ft (s : Chip) (a k : Nat) : (s.bumpBy a k).ft = s.ft := (rfl)
@[simp] theorem Chip.bumpBy_own (s : Chip) (a k : Nat) : (s.bumpBy a k).own = s.own := (rfl)
@[simp] theorem Chip.bumpBy_gates (s : Chip) (a k : Nat) : (s.bumpBy a k).gates = s.gates := (rfl)
@[simp] theorem Chip.bumpBy_gateLink (s : Chip) (a k : Nat) : (s.bumpBy a k).gateLink = s.gateLink := (rfl)
@[simp] theorem Chip.bumpBy_arbs (s : Chip) (a k : Nat) : (s.bumpBy a k).arbs = s.arbs := (rfl)
@[simp] theorem Chip.bumpBy_eth (s : Chip) (a k : Nat) : (s.bumpBy a k).eth = s.eth := (rfl)
@[simp] theorem Chip.bumpBy_parts (s : Chip) (a k : Nat) : (s.bumpBy a k).parts = s.parts := (rfl)
@[simp] theorem Chip.bumpBy_errs (s : Chip) (a k : Nat) : (s.bumpBy a k).errs = s.errs := (rfl)
@[simp] theorem Chip.bumpBy_att (s : Chip) (a k : Nat) : (s.bumpBy a k).att = s.att := (rfl)
@[simp] theorem Chip.bumpBy_chain (s : Chip) (a k : Nat) : (s.bumpBy a k).chain = s.chain := (rfl)
@[simp] theorem Chip.bumpBy_duo (s : Chip) (a k : Nat) : (s.bumpBy a k).duo = s.duo := (rfl)
@[simp] theorem Chip.bumpBy_tmr (s : Chip) (a k : Nat) : (s.bumpBy a k).tmr = s.tmr := (rfl)
@[simp] theorem Chip.bumpBy_boot (s : Chip) (a k : Nat) : (s.bumpBy a k).boot = s.boot := (rfl)
@[simp] theorem Chip.bumpBy_plan (s : Chip) (a k : Nat) : (s.bumpBy a k).plan = s.plan := (rfl)
@[simp] theorem Chip.bumpBy_shapers (s : Chip) (a k : Nat) : (s.bumpBy a k).shapers = s.shapers := (rfl)
@[simp] theorem Chip.bumpBy_shpStage (s : Chip) (a k : Nat) : (s.bumpBy a k).shpStage = s.shpStage := (rfl)
@[simp] theorem Chip.bumpBy_held (s : Chip) (a k : Nat) : (s.bumpBy a k).held = s.held := (rfl)

@[simp] theorem Chip.bump_now (s : Chip) (a : Nat) : (s.bump a).now = s.now := (rfl)
@[simp] theorem Chip.bump_ref (s : Chip) (a : Nat) : (s.bump a).ref = s.ref := (rfl)
@[simp] theorem Chip.bump_free (s : Chip) (a : Nat) : (s.bump a).free = s.free := (rfl)
@[simp] theorem Chip.bump_out (s : Chip) (a : Nat) : (s.bump a).out = s.out := (rfl)
@[simp] theorem Chip.bump_latches (s : Chip) (a : Nat) : (s.bump a).latches = s.latches := (rfl)
@[simp] theorem Chip.bump_holds (s : Chip) (a : Nat) : (s.bump a).holds = s.holds := (rfl)
@[simp] theorem Chip.bump_cls (s : Chip) (a : Nat) : (s.bump a).cls = s.cls := (rfl)
@[simp] theorem Chip.bump_posts (s : Chip) (a : Nat) : (s.bump a).posts = s.posts := (rfl)
@[simp] theorem Chip.bump_xcs (s : Chip) (a : Nat) : (s.bump a).xcs = s.xcs := (rfl)
@[simp] theorem Chip.bump_accs (s : Chip) (a : Nat) : (s.bump a).accs = s.accs := (rfl)
@[simp] theorem Chip.bump_prom (s : Chip) (a : Nat) : (s.bump a).prom = s.prom := (rfl)
@[simp] theorem Chip.bump_mcs (s : Chip) (a : Nat) : (s.bump a).mcs = s.mcs := (rfl)
@[simp] theorem Chip.bump_thrMsgs (s : Chip) (a : Nat) : (s.bump a).thrMsgs = s.thrMsgs := (rfl)
@[simp] theorem Chip.bump_rights (s : Chip) (a : Nat) : (s.bump a).rights = s.rights := (rfl)
@[simp] theorem Chip.bump_dir (s : Chip) (a : Nat) : (s.bump a).dir = s.dir := (rfl)
@[simp] theorem Chip.bump_regions (s : Chip) (a : Nat) : (s.bump a).regions = s.regions := (rfl)
@[simp] theorem Chip.bump_roles (s : Chip) (a : Nat) : (s.bump a).roles = s.roles := (rfl)
@[simp] theorem Chip.bump_hloc (s : Chip) (a : Nat) : (s.bump a).hloc = s.hloc := (rfl)
@[simp] theorem Chip.bump_coord (s : Chip) (a : Nat) : (s.bump a).coord = s.coord := (rfl)
@[simp] theorem Chip.bump_links (s : Chip) (a : Nat) : (s.bump a).links = s.links := (rfl)
@[simp] theorem Chip.bump_ft (s : Chip) (a : Nat) : (s.bump a).ft = s.ft := (rfl)
@[simp] theorem Chip.bump_own (s : Chip) (a : Nat) : (s.bump a).own = s.own := (rfl)
@[simp] theorem Chip.bump_gates (s : Chip) (a : Nat) : (s.bump a).gates = s.gates := (rfl)
@[simp] theorem Chip.bump_gateLink (s : Chip) (a : Nat) : (s.bump a).gateLink = s.gateLink := (rfl)
@[simp] theorem Chip.bump_arbs (s : Chip) (a : Nat) : (s.bump a).arbs = s.arbs := (rfl)
@[simp] theorem Chip.bump_eth (s : Chip) (a : Nat) : (s.bump a).eth = s.eth := (rfl)
@[simp] theorem Chip.bump_parts (s : Chip) (a : Nat) : (s.bump a).parts = s.parts := (rfl)
@[simp] theorem Chip.bump_errs (s : Chip) (a : Nat) : (s.bump a).errs = s.errs := (rfl)
@[simp] theorem Chip.bump_att (s : Chip) (a : Nat) : (s.bump a).att = s.att := (rfl)
@[simp] theorem Chip.bump_chain (s : Chip) (a : Nat) : (s.bump a).chain = s.chain := (rfl)
@[simp] theorem Chip.bump_duo (s : Chip) (a : Nat) : (s.bump a).duo = s.duo := (rfl)
@[simp] theorem Chip.bump_tmr (s : Chip) (a : Nat) : (s.bump a).tmr = s.tmr := (rfl)
@[simp] theorem Chip.bump_boot (s : Chip) (a : Nat) : (s.bump a).boot = s.boot := (rfl)
@[simp] theorem Chip.bump_plan (s : Chip) (a : Nat) : (s.bump a).plan = s.plan := (rfl)
@[simp] theorem Chip.bump_shapers (s : Chip) (a : Nat) : (s.bump a).shapers = s.shapers := (rfl)
@[simp] theorem Chip.bump_shpStage (s : Chip) (a : Nat) : (s.bump a).shpStage = s.shpStage := (rfl)
@[simp] theorem Chip.bump_held (s : Chip) (a : Nat) : (s.bump a).held = s.held := (rfl)

@[simp] theorem Chip.wrapBy_now (s : Chip) (a k : Nat) : (s.wrapBy a k).now = s.now := (rfl)
@[simp] theorem Chip.wrapBy_ref (s : Chip) (a k : Nat) : (s.wrapBy a k).ref = s.ref := (rfl)
@[simp] theorem Chip.wrapBy_free (s : Chip) (a k : Nat) : (s.wrapBy a k).free = s.free := (rfl)
@[simp] theorem Chip.wrapBy_out (s : Chip) (a k : Nat) : (s.wrapBy a k).out = s.out := (rfl)
@[simp] theorem Chip.wrapBy_latches (s : Chip) (a k : Nat) : (s.wrapBy a k).latches = s.latches := (rfl)
@[simp] theorem Chip.wrapBy_holds (s : Chip) (a k : Nat) : (s.wrapBy a k).holds = s.holds := (rfl)
@[simp] theorem Chip.wrapBy_cls (s : Chip) (a k : Nat) : (s.wrapBy a k).cls = s.cls := (rfl)
@[simp] theorem Chip.wrapBy_posts (s : Chip) (a k : Nat) : (s.wrapBy a k).posts = s.posts := (rfl)
@[simp] theorem Chip.wrapBy_xcs (s : Chip) (a k : Nat) : (s.wrapBy a k).xcs = s.xcs := (rfl)
@[simp] theorem Chip.wrapBy_accs (s : Chip) (a k : Nat) : (s.wrapBy a k).accs = s.accs := (rfl)
@[simp] theorem Chip.wrapBy_prom (s : Chip) (a k : Nat) : (s.wrapBy a k).prom = s.prom := (rfl)
@[simp] theorem Chip.wrapBy_mcs (s : Chip) (a k : Nat) : (s.wrapBy a k).mcs = s.mcs := (rfl)
@[simp] theorem Chip.wrapBy_thrMsgs (s : Chip) (a k : Nat) : (s.wrapBy a k).thrMsgs = s.thrMsgs := (rfl)
@[simp] theorem Chip.wrapBy_rights (s : Chip) (a k : Nat) : (s.wrapBy a k).rights = s.rights := (rfl)
@[simp] theorem Chip.wrapBy_dir (s : Chip) (a k : Nat) : (s.wrapBy a k).dir = s.dir := (rfl)
@[simp] theorem Chip.wrapBy_regions (s : Chip) (a k : Nat) : (s.wrapBy a k).regions = s.regions := (rfl)
@[simp] theorem Chip.wrapBy_roles (s : Chip) (a k : Nat) : (s.wrapBy a k).roles = s.roles := (rfl)
@[simp] theorem Chip.wrapBy_hloc (s : Chip) (a k : Nat) : (s.wrapBy a k).hloc = s.hloc := (rfl)
@[simp] theorem Chip.wrapBy_coord (s : Chip) (a k : Nat) : (s.wrapBy a k).coord = s.coord := (rfl)
@[simp] theorem Chip.wrapBy_links (s : Chip) (a k : Nat) : (s.wrapBy a k).links = s.links := (rfl)
@[simp] theorem Chip.wrapBy_ft (s : Chip) (a k : Nat) : (s.wrapBy a k).ft = s.ft := (rfl)
@[simp] theorem Chip.wrapBy_own (s : Chip) (a k : Nat) : (s.wrapBy a k).own = s.own := (rfl)
@[simp] theorem Chip.wrapBy_gates (s : Chip) (a k : Nat) : (s.wrapBy a k).gates = s.gates := (rfl)
@[simp] theorem Chip.wrapBy_gateLink (s : Chip) (a k : Nat) : (s.wrapBy a k).gateLink = s.gateLink := (rfl)
@[simp] theorem Chip.wrapBy_arbs (s : Chip) (a k : Nat) : (s.wrapBy a k).arbs = s.arbs := (rfl)
@[simp] theorem Chip.wrapBy_eth (s : Chip) (a k : Nat) : (s.wrapBy a k).eth = s.eth := (rfl)
@[simp] theorem Chip.wrapBy_parts (s : Chip) (a k : Nat) : (s.wrapBy a k).parts = s.parts := (rfl)
@[simp] theorem Chip.wrapBy_errs (s : Chip) (a k : Nat) : (s.wrapBy a k).errs = s.errs := (rfl)
@[simp] theorem Chip.wrapBy_att (s : Chip) (a k : Nat) : (s.wrapBy a k).att = s.att := (rfl)
@[simp] theorem Chip.wrapBy_chain (s : Chip) (a k : Nat) : (s.wrapBy a k).chain = s.chain := (rfl)
@[simp] theorem Chip.wrapBy_duo (s : Chip) (a k : Nat) : (s.wrapBy a k).duo = s.duo := (rfl)
@[simp] theorem Chip.wrapBy_tmr (s : Chip) (a k : Nat) : (s.wrapBy a k).tmr = s.tmr := (rfl)
@[simp] theorem Chip.wrapBy_boot (s : Chip) (a k : Nat) : (s.wrapBy a k).boot = s.boot := (rfl)
@[simp] theorem Chip.wrapBy_plan (s : Chip) (a k : Nat) : (s.wrapBy a k).plan = s.plan := (rfl)
@[simp] theorem Chip.wrapBy_shapers (s : Chip) (a k : Nat) : (s.wrapBy a k).shapers = s.shapers := (rfl)
@[simp] theorem Chip.wrapBy_shpStage (s : Chip) (a k : Nat) : (s.wrapBy a k).shpStage = s.shpStage := (rfl)
@[simp] theorem Chip.wrapBy_held (s : Chip) (a k : Nat) : (s.wrapBy a k).held = s.held := (rfl)

@[simp] theorem Chip.setPair_now (s : Chip) (a v : Nat) : (s.setPair a v).now = s.now := (rfl)
@[simp] theorem Chip.setPair_ref (s : Chip) (a v : Nat) : (s.setPair a v).ref = s.ref := (rfl)
@[simp] theorem Chip.setPair_free (s : Chip) (a v : Nat) : (s.setPair a v).free = s.free := (rfl)
@[simp] theorem Chip.setPair_out (s : Chip) (a v : Nat) : (s.setPair a v).out = s.out := (rfl)
@[simp] theorem Chip.setPair_latches (s : Chip) (a v : Nat) : (s.setPair a v).latches = s.latches := (rfl)
@[simp] theorem Chip.setPair_holds (s : Chip) (a v : Nat) : (s.setPair a v).holds = s.holds := (rfl)
@[simp] theorem Chip.setPair_cls (s : Chip) (a v : Nat) : (s.setPair a v).cls = s.cls := (rfl)
@[simp] theorem Chip.setPair_posts (s : Chip) (a v : Nat) : (s.setPair a v).posts = s.posts := (rfl)
@[simp] theorem Chip.setPair_xcs (s : Chip) (a v : Nat) : (s.setPair a v).xcs = s.xcs := (rfl)
@[simp] theorem Chip.setPair_accs (s : Chip) (a v : Nat) : (s.setPair a v).accs = s.accs := (rfl)
@[simp] theorem Chip.setPair_prom (s : Chip) (a v : Nat) : (s.setPair a v).prom = s.prom := (rfl)
@[simp] theorem Chip.setPair_mcs (s : Chip) (a v : Nat) : (s.setPair a v).mcs = s.mcs := (rfl)
@[simp] theorem Chip.setPair_thrMsgs (s : Chip) (a v : Nat) : (s.setPair a v).thrMsgs = s.thrMsgs := (rfl)
@[simp] theorem Chip.setPair_rights (s : Chip) (a v : Nat) : (s.setPair a v).rights = s.rights := (rfl)
@[simp] theorem Chip.setPair_dir (s : Chip) (a v : Nat) : (s.setPair a v).dir = s.dir := (rfl)
@[simp] theorem Chip.setPair_regions (s : Chip) (a v : Nat) : (s.setPair a v).regions = s.regions := (rfl)
@[simp] theorem Chip.setPair_roles (s : Chip) (a v : Nat) : (s.setPair a v).roles = s.roles := (rfl)
@[simp] theorem Chip.setPair_hloc (s : Chip) (a v : Nat) : (s.setPair a v).hloc = s.hloc := (rfl)
@[simp] theorem Chip.setPair_coord (s : Chip) (a v : Nat) : (s.setPair a v).coord = s.coord := (rfl)
@[simp] theorem Chip.setPair_links (s : Chip) (a v : Nat) : (s.setPair a v).links = s.links := (rfl)
@[simp] theorem Chip.setPair_ft (s : Chip) (a v : Nat) : (s.setPair a v).ft = s.ft := (rfl)
@[simp] theorem Chip.setPair_own (s : Chip) (a v : Nat) : (s.setPair a v).own = s.own := (rfl)
@[simp] theorem Chip.setPair_gates (s : Chip) (a v : Nat) : (s.setPair a v).gates = s.gates := (rfl)
@[simp] theorem Chip.setPair_gateLink (s : Chip) (a v : Nat) : (s.setPair a v).gateLink = s.gateLink := (rfl)
@[simp] theorem Chip.setPair_arbs (s : Chip) (a v : Nat) : (s.setPair a v).arbs = s.arbs := (rfl)
@[simp] theorem Chip.setPair_eth (s : Chip) (a v : Nat) : (s.setPair a v).eth = s.eth := (rfl)
@[simp] theorem Chip.setPair_parts (s : Chip) (a v : Nat) : (s.setPair a v).parts = s.parts := (rfl)
@[simp] theorem Chip.setPair_errs (s : Chip) (a v : Nat) : (s.setPair a v).errs = s.errs := (rfl)
@[simp] theorem Chip.setPair_att (s : Chip) (a v : Nat) : (s.setPair a v).att = s.att := (rfl)
@[simp] theorem Chip.setPair_chain (s : Chip) (a v : Nat) : (s.setPair a v).chain = s.chain := (rfl)
@[simp] theorem Chip.setPair_duo (s : Chip) (a v : Nat) : (s.setPair a v).duo = s.duo := (rfl)
@[simp] theorem Chip.setPair_tmr (s : Chip) (a v : Nat) : (s.setPair a v).tmr = s.tmr := (rfl)
@[simp] theorem Chip.setPair_boot (s : Chip) (a v : Nat) : (s.setPair a v).boot = s.boot := (rfl)
@[simp] theorem Chip.setPair_plan (s : Chip) (a v : Nat) : (s.setPair a v).plan = s.plan := (rfl)
@[simp] theorem Chip.setPair_shapers (s : Chip) (a v : Nat) : (s.setPair a v).shapers = s.shapers := (rfl)
@[simp] theorem Chip.setPair_shpStage (s : Chip) (a v : Nat) : (s.setPair a v).shpStage = s.shpStage := (rfl)
@[simp] theorem Chip.setPair_held (s : Chip) (a v : Nat) : (s.setPair a v).held = s.held := (rfl)

@[simp] theorem Chip.emit_now (s : Chip) (o : Out) : (s.emit o).now = s.now := (rfl)
@[simp] theorem Chip.emit_ref (s : Chip) (o : Out) : (s.emit o).ref = s.ref := (rfl)
@[simp] theorem Chip.emit_free (s : Chip) (o : Out) : (s.emit o).free = s.free := (rfl)
@[simp] theorem Chip.emit_regs (s : Chip) (o : Out) : (s.emit o).regs = s.regs := (rfl)
@[simp] theorem Chip.emit_latches (s : Chip) (o : Out) : (s.emit o).latches = s.latches := (rfl)
@[simp] theorem Chip.emit_holds (s : Chip) (o : Out) : (s.emit o).holds = s.holds := (rfl)
@[simp] theorem Chip.emit_cls (s : Chip) (o : Out) : (s.emit o).cls = s.cls := (rfl)
@[simp] theorem Chip.emit_posts (s : Chip) (o : Out) : (s.emit o).posts = s.posts := (rfl)
@[simp] theorem Chip.emit_xcs (s : Chip) (o : Out) : (s.emit o).xcs = s.xcs := (rfl)
@[simp] theorem Chip.emit_accs (s : Chip) (o : Out) : (s.emit o).accs = s.accs := (rfl)
@[simp] theorem Chip.emit_prom (s : Chip) (o : Out) : (s.emit o).prom = s.prom := (rfl)
@[simp] theorem Chip.emit_mcs (s : Chip) (o : Out) : (s.emit o).mcs = s.mcs := (rfl)
@[simp] theorem Chip.emit_thrMsgs (s : Chip) (o : Out) : (s.emit o).thrMsgs = s.thrMsgs := (rfl)
@[simp] theorem Chip.emit_rights (s : Chip) (o : Out) : (s.emit o).rights = s.rights := (rfl)
@[simp] theorem Chip.emit_dir (s : Chip) (o : Out) : (s.emit o).dir = s.dir := (rfl)
@[simp] theorem Chip.emit_regions (s : Chip) (o : Out) : (s.emit o).regions = s.regions := (rfl)
@[simp] theorem Chip.emit_roles (s : Chip) (o : Out) : (s.emit o).roles = s.roles := (rfl)
@[simp] theorem Chip.emit_hloc (s : Chip) (o : Out) : (s.emit o).hloc = s.hloc := (rfl)
@[simp] theorem Chip.emit_coord (s : Chip) (o : Out) : (s.emit o).coord = s.coord := (rfl)
@[simp] theorem Chip.emit_links (s : Chip) (o : Out) : (s.emit o).links = s.links := (rfl)
@[simp] theorem Chip.emit_ft (s : Chip) (o : Out) : (s.emit o).ft = s.ft := (rfl)
@[simp] theorem Chip.emit_gates (s : Chip) (o : Out) : (s.emit o).gates = s.gates := (rfl)
@[simp] theorem Chip.emit_gateLink (s : Chip) (o : Out) : (s.emit o).gateLink = s.gateLink := (rfl)
@[simp] theorem Chip.emit_arbs (s : Chip) (o : Out) : (s.emit o).arbs = s.arbs := (rfl)
@[simp] theorem Chip.emit_eth (s : Chip) (o : Out) : (s.emit o).eth = s.eth := (rfl)
@[simp] theorem Chip.emit_parts (s : Chip) (o : Out) : (s.emit o).parts = s.parts := (rfl)
@[simp] theorem Chip.emit_errs (s : Chip) (o : Out) : (s.emit o).errs = s.errs := (rfl)
@[simp] theorem Chip.emit_att (s : Chip) (o : Out) : (s.emit o).att = s.att := (rfl)
@[simp] theorem Chip.emit_chain (s : Chip) (o : Out) : (s.emit o).chain = s.chain := (rfl)
@[simp] theorem Chip.emit_duo (s : Chip) (o : Out) : (s.emit o).duo = s.duo := (rfl)
@[simp] theorem Chip.emit_tmr (s : Chip) (o : Out) : (s.emit o).tmr = s.tmr := (rfl)
@[simp] theorem Chip.emit_boot (s : Chip) (o : Out) : (s.emit o).boot = s.boot := (rfl)
@[simp] theorem Chip.emit_plan (s : Chip) (o : Out) : (s.emit o).plan = s.plan := (rfl)
@[simp] theorem Chip.emit_shapers (s : Chip) (o : Out) : (s.emit o).shapers = s.shapers := (rfl)
@[simp] theorem Chip.emit_shpStage (s : Chip) (o : Out) : (s.emit o).shpStage = s.shpStage := (rfl)
@[simp] theorem Chip.emit_held (s : Chip) (o : Out) : (s.emit o).held = s.held := (rfl)

@[simp] theorem Chip.emit_out (s : Chip) (o : Out) : (s.emit o).out = s.out ++ [o] := (rfl)

@[simp] theorem onChip_mem (f : Chip → Chip) (y : Sys) : (onChip f y).mem = y.mem := (rfl)
@[simp] theorem onChip_chip (f : Chip → Chip) (y : Sys) : (onChip f y).chip = f y.chip := (rfl)
@[simp] theorem onMem_mem (f : Mem → Mem) (y : Sys) : (onMem f y).mem = f y.mem := (rfl)
@[simp] theorem onMem_chip (f : Mem → Mem) (y : Sys) : (onMem f y).chip = y.chip := (rfl)

end Sys2Proof.Machine
end

