-- ==== Sys2Proof/Laws/Regs.lean ====
section
/-! SUPPORT. The register file: what a register and a field of it read after a write. -/

namespace Sys2Proof

namespace Laws

theorem getLsbD_setBits (w : Word) (hi lo v i : Nat) (h : i < 32) :
    (Word.setBits w hi lo v).getLsbD i =
      if lo ≤ i ∧ i - lo < hi + 1 - lo then v.testBit (i - lo) else w.getLsbD i := by
  simp only [Word.setBits, BitVec.getLsbD_or, BitVec.getLsbD_and, BitVec.getLsbD_not,
    BitVec.getLsbD_ofNat, h, decide_true, Bool.true_and, Nat.testBit_mul_two_pow,
    Nat.testBit_mod_two_pow, Nat.testBit_two_pow_sub_one]
  by_cases h1 : lo ≤ i <;> by_cases h2 : i - lo < hi + 1 - lo <;> simp [h1, h2]

theorem testBit_bits (w : Word) (hi lo i : Nat) :
    (Word.bits w hi lo).testBit i = (decide (i < hi + 1 - lo) && w.getLsbD (i + lo)) := by
  simp only [Word.bits, Nat.testBit_mod_two_pow, Nat.testBit_div_two_pow, BitVec.testBit_toNat]

/-- A field reads what was written to it, cut to its width. -/
theorem bits_setBits (w : Word) {hi lo : Nat} (v : Nat) (h : hi < 32) :
    Word.bits (Word.setBits w hi lo v) hi lo = v % 2 ^ (hi + 1 - lo) := by
  apply Nat.eq_of_testBit_eq
  intro i
  simp only [testBit_bits, Nat.testBit_mod_two_pow]
  by_cases h1 : i < hi + 1 - lo
  · rw [getLsbD_setBits _ _ _ _ _ (by omega)]
    simp [h1, show i + lo - lo = i by omega]
  · simp [h1]

/-- A field write leaves a field below or above it alone. -/
theorem bits_setBits_ne (w : Word) {hi lo h' l' : Nat} (v : Nat) (hh : h' < 32)
    (h : h' < lo ∨ hi < l') : Word.bits (Word.setBits w hi lo v) h' l' = Word.bits w h' l' := by
  apply Nat.eq_of_testBit_eq
  intro i
  simp only [testBit_bits]
  by_cases h1 : i < h' + 1 - l'
  · rw [getLsbD_setBits _ _ _ _ _ (by omega), if_neg (by omega)]
  · simp [h1]

theorem bit_setBits_self (w : Word) {n : Nat} (b : Bool) (h : n < 32) :
    Word.bit (Word.setBits w n n (if b then 1 else 0)) n = b := by
  rw [Word.bit, getLsbD_setBits _ _ _ _ _ h]
  cases b <;> simp

theorem bit_setBits_ne (w : Word) {hi lo n : Nat} (v : Nat) (hn : n < 32) (h : n < lo ∨ hi < n) :
    Word.bit (Word.setBits w hi lo v) n = Word.bit w n := by
  rw [Word.bit, getLsbD_setBits _ _ _ _ _ hn, if_neg (by omega)]; rfl

end Laws

namespace Machine

/-- A register reads what was just written to it. -/
@[simp] theorem Chip.reg_setReg (s : Chip) (a : Nat) (w : Word) : (s.setReg a w).reg a = w := by
  simp only [Chip.reg, Chip.setReg, KMap.put]
  split
  · rename_i h; rw [Laws.at?_del_self]; simp [h]
  · rw [Laws.at?_ins_self]; rfl

/-- A write leaves every other register alone. -/
theorem Chip.reg_setReg_ne (s : Chip) {a b : Nat} (w : Word) (h : a ≠ b) :
    (s.setReg a w).reg b = s.reg b := by
  simp only [Chip.reg, Chip.setReg, KMap.put]
  split
  · rw [Laws.at?_del_ne _ h]
  · rw [Laws.at?_ins_ne _ _ h]

/-- What a register reads after a write. -/
theorem Chip.reg_setReg_eq (s : Chip) (a b : Nat) (w : Word) :
    (s.setReg a w).reg b = if a = b then w else s.reg b := by
  split
  · rename_i h; subst h; simp
  · rename_i h; exact s.reg_setReg_ne w h

theorem Chip.reg_setFld_ne (s : Chip) {a b : Nat} (hi lo v : Nat) (h : a ≠ b) :
    (s.setFld a hi lo v).reg b = s.reg b := s.reg_setReg_ne _ h

theorem Chip.reg_setFlag_ne (s : Chip) {a b : Nat} (n : Nat) (v : Bool) (h : a ≠ b) :
    (s.setFlag a n v).reg b = s.reg b := s.reg_setReg_ne _ h

theorem Chip.reg_bumpBy_ne (s : Chip) {a b : Nat} (k : Nat) (h : a ≠ b) :
    (s.bumpBy a k).reg b = s.reg b := s.reg_setReg_ne _ h

theorem Chip.reg_bump_ne (s : Chip) {a b : Nat} (h : a ≠ b) : (s.bump a).reg b = s.reg b :=
  s.reg_setReg_ne _ h

/-- R502: a counter advances by k and stops at 0xFFFF_FFFF. -/
theorem Chip.reg_bumpBy (s : Chip) (a k : Nat) :
    ((s.bumpBy a k).reg a).toNat = min ((s.reg a).toNat + k) 0xffffffff := by
  simp only [Chip.bumpBy, Chip.reg_setReg, BitVec.toNat_ofNat]
  omega

@[simp] theorem Chip.reg_emit (s : Chip) (o : Out) (a : Nat) : (s.emit o).reg a = s.reg a := rfl
@[simp] theorem Chip.fld_emit (s : Chip) (o : Out) (a hi lo : Nat) :
    (s.emit o).fld a hi lo = s.fld a hi lo := rfl
@[simp] theorem Chip.flag_emit (s : Chip) (o : Out) (a n : Nat) : (s.emit o).flag a n = s.flag a n := rfl

theorem Chip.fld_setReg_ne (s : Chip) {a b : Nat} (w : Word) (hi lo : Nat) (h : a ≠ b) :
    (s.setReg a w).fld b hi lo = s.fld b hi lo := by simp [Chip.fld, s.reg_setReg_ne w h]

theorem Chip.fld_setFld_ne (s : Chip) {a b : Nat} (hi lo v h' l' : Nat) (h : a ≠ b) :
    (s.setFld a hi lo v).fld b h' l' = s.fld b h' l' := s.fld_setReg_ne _ _ _ h

theorem Chip.flag_setReg_ne (s : Chip) {a b : Nat} (w : Word) (n : Nat) (h : a ≠ b) :
    (s.setReg a w).flag b n = s.flag b n := by simp [Chip.flag, s.reg_setReg_ne w h]

theorem Chip.flag_setFlag_ne (s : Chip) {a b : Nat} (n m : Nat) (v : Bool) (h : a ≠ b) :
    (s.setFlag a n v).flag b m = s.flag b m := s.flag_setReg_ne _ _ h

/-- R502: a field of a register reads what was written to it. -/
theorem Chip.fld_setFld (s : Chip) (a : Nat) {hi lo : Nat} (v : Nat) (h : hi < 32) :
    (s.setFld a hi lo v).fld a hi lo = v % 2 ^ (hi + 1 - lo) := by
  simp [Chip.fld, Chip.setFld, Laws.bits_setBits _ _ h]

theorem Chip.fld_setFld_apart (s : Chip) (a : Nat) {hi lo h' l' : Nat} (v : Nat) (hh : h' < 32)
    (h : h' < lo ∨ hi < l') : (s.setFld a hi lo v).fld a h' l' = s.fld a h' l' := by
  simp [Chip.fld, Chip.setFld, Laws.bits_setBits_ne _ _ hh h]

/-- R502: a bit of a register reads what was written to it. -/
theorem Chip.flag_setFlag (s : Chip) (a : Nat) {n : Nat} (b : Bool) (h : n < 32) :
    (s.setFlag a n b).flag a n = b := by
  simp only [Chip.flag, Chip.setFlag, Chip.setFld, Chip.reg_setReg]
  exact Laws.bit_setBits_self _ _ h

theorem Chip.flag_setFlag_apart (s : Chip) (a : Nat) {n m : Nat} (b : Bool) (hm : m < 32)
    (h : m ≠ n) : (s.setFlag a n b).flag a m = s.flag a m := by
  simp only [Chip.flag, Chip.setFlag, Chip.setFld, Chip.reg_setReg]
  exact Laws.bit_setBits_ne _ _ hm (by omega)

end Machine
end Sys2Proof
end

