-- ==== Sys2Proof/Laws/Cluster.lean ====
section
/-! SUPPORT. Reads after writes of the parts of a cluster: its cores, its frog, its copy engines. -/

namespace Sys2Proof.Machine


@[simp] theorem Chip.cl_setCl (s : Chip) (c : Nat) (x : Cl) : (s.setCl c x).cl c = x :=
  Laws.at_put_self ..

theorem Chip.cl_setCl_ne (s : Chip) {c d : Nat} (x : Cl) (h : c ≠ d) : (s.setCl c x).cl d = s.cl d :=
  Laws.at_put_ne _ _ h

@[simp] theorem Chip.core_setCore (s : Chip) (c m : Nat) (x : Core) : (s.setCore c m x).core c m = x := by
  simp [Chip.core, Chip.setCore]

theorem Chip.core_setCore_ne (s : Chip) {c m d n : Nat} (x : Core) (h : d ≠ c ∨ n ≠ m) :
    (s.setCore c m x).core d n = s.core d n := by
  simp only [Chip.core, Chip.setCore]
  by_cases hc : c = d
  · subst hc
    rw [Chip.cl_setCl]
    exact Laws.at_put_ne _ _ (by rcases h with h | h <;> [exact absurd rfl h; exact Ne.symm h])
  · rw [Chip.cl_setCl_ne _ _ hc]

theorem Chip.cl_setCore_ne (s : Chip) {c m d : Nat} (x : Core) (h : d ≠ c) :
    (s.setCore c m x).cl d = s.cl d := Chip.cl_setCl_ne _ _ (Ne.symm h)

theorem Chip.cl_setCore (s : Chip) (c m : Nat) (x : Core) :
    (s.setCore c m x).cl c = { s.cl c with cores := KMap.put (s.cl c).cores {} m x } :=
  Chip.cl_setCl ..

@[simp] theorem Chip.frog_setCore (s : Chip) (c m d : Nat) (x : Core) :
    (s.setCore c m x).frog d = s.frog d := by
  by_cases h : d = c
  · subst h; simp [Chip.frog, Chip.cl_setCore]
  · simp [Chip.frog, Chip.cl_setCore_ne _ _ h]

@[simp] theorem Chip.frog_setFrog (s : Chip) (c : Nat) (f : Frog) : (s.setFrog c f).frog c = f := by
  simp [Chip.frog, Chip.setFrog]

theorem Chip.frog_setFrog_ne (s : Chip) {c d : Nat} (f : Frog) (h : c ≠ d) :
    (s.setFrog c f).frog d = s.frog d := by
  simp [Chip.frog, Chip.setFrog, Chip.cl_setCl_ne _ _ h]

@[simp] theorem Chip.core_setFrog (s : Chip) (c d m : Nat) (f : Frog) :
    (s.setFrog c f).core d m = s.core d m := by
  by_cases h : c = d
  · subst h; simp [Chip.core, Chip.setFrog]
  · simp [Chip.core, Chip.setFrog, Chip.cl_setCl_ne _ _ h]

@[simp] theorem Chip.eng_setEng (s : Chip) (c e : Nat) (x : Eng) : (s.setEng c e x).eng c e = x := by
  simp only [Chip.eng, Chip.setEng, Chip.cl_setCl]
  split <;> simp_all


@[simp] theorem Chip.reg_setCl (s : Chip) (c : Nat) (x : Cl) (b : Nat) : (s.setCl c x).reg b = s.reg b := (rfl)
@[simp] theorem Chip.reg_setCore (s : Chip) (c m : Nat) (x : Core) (b : Nat) : (s.setCore c m x).reg b = s.reg b := (rfl)
@[simp] theorem Chip.reg_setFrog (s : Chip) (c : Nat) (x : Frog) (b : Nat) : (s.setFrog c x).reg b = s.reg b := (rfl)
@[simp] theorem Chip.reg_setEng (s : Chip) (c e : Nat) (x : Eng) (b : Nat) : (s.setEng c e x).reg b = s.reg b := (rfl)
@[simp] theorem Chip.fld_setCl (s : Chip) (c : Nat) (x : Cl) (b hi lo : Nat) : (s.setCl c x).fld b hi lo = s.fld b hi lo := (rfl)
@[simp] theorem Chip.fld_setCore (s : Chip) (c m : Nat) (x : Core) (b hi lo : Nat) : (s.setCore c m x).fld b hi lo = s.fld b hi lo := (rfl)
@[simp] theorem Chip.fld_setFrog (s : Chip) (c : Nat) (x : Frog) (b hi lo : Nat) : (s.setFrog c x).fld b hi lo = s.fld b hi lo := (rfl)
@[simp] theorem Chip.fld_setEng (s : Chip) (c e : Nat) (x : Eng) (b hi lo : Nat) : (s.setEng c e x).fld b hi lo = s.fld b hi lo := (rfl)
@[simp] theorem Chip.flag_setCl (s : Chip) (c : Nat) (x : Cl) (b n : Nat) : (s.setCl c x).flag b n = s.flag b n := (rfl)
@[simp] theorem Chip.flag_setCore (s : Chip) (c m : Nat) (x : Core) (b n : Nat) : (s.setCore c m x).flag b n = s.flag b n := (rfl)
@[simp] theorem Chip.flag_setFrog (s : Chip) (c : Nat) (x : Frog) (b n : Nat) : (s.setFrog c x).flag b n = s.flag b n := (rfl)
@[simp] theorem Chip.flag_setEng (s : Chip) (c e : Nat) (x : Eng) (b n : Nat) : (s.setEng c e x).flag b n = s.flag b n := (rfl)
@[simp] theorem Chip.pair_setCl (s : Chip) (c : Nat) (x : Cl) (b : Nat) : (s.setCl c x).pair b = s.pair b := (rfl)
@[simp] theorem Chip.pair_setCore (s : Chip) (c m : Nat) (x : Core) (b : Nat) : (s.setCore c m x).pair b = s.pair b := (rfl)
@[simp] theorem Chip.pair_setFrog (s : Chip) (c : Nat) (x : Frog) (b : Nat) : (s.setFrog c x).pair b = s.pair b := (rfl)
@[simp] theorem Chip.pair_setEng (s : Chip) (c e : Nat) (x : Eng) (b : Nat) : (s.setEng c e x).pair b = s.pair b := (rfl)
@[simp] theorem Chip.cl_setReg (s : Chip) (a : Nat) (w : Word) (d : Nat) : (s.setReg a w).cl d = s.cl d := (rfl)
@[simp] theorem Chip.cl_setFld (s : Chip) (a hi lo v : Nat) (d : Nat) : (s.setFld a hi lo v).cl d = s.cl d := (rfl)
@[simp] theorem Chip.cl_setFlag (s : Chip) (a n : Nat) (v : Bool) (d : Nat) : (s.setFlag a n v).cl d = s.cl d := (rfl)
@[simp] theorem Chip.cl_bumpBy (s : Chip) (a k : Nat) (d : Nat) : (s.bumpBy a k).cl d = s.cl d := (rfl)
@[simp] theorem Chip.cl_bump (s : Chip) (a : Nat) (d : Nat) : (s.bump a).cl d = s.cl d := (rfl)
@[simp] theorem Chip.cl_wrapBy (s : Chip) (a k : Nat) (d : Nat) : (s.wrapBy a k).cl d = s.cl d := (rfl)
@[simp] theorem Chip.cl_setPair (s : Chip) (a v : Nat) (d : Nat) : (s.setPair a v).cl d = s.cl d := (rfl)
@[simp] theorem Chip.cl_emit (s : Chip) (o : Out) (d : Nat) : (s.emit o).cl d = s.cl d := (rfl)
@[simp] theorem Chip.core_setReg (s : Chip) (a : Nat) (w : Word) (d k : Nat) : (s.setReg a w).core d k = s.core d k := (rfl)
@[simp] theorem Chip.core_setFld (s : Chip) (a hi lo v : Nat) (d k : Nat) : (s.setFld a hi lo v).core d k = s.core d k := (rfl)
@[simp] theorem Chip.core_setFlag (s : Chip) (a n : Nat) (v : Bool) (d k : Nat) : (s.setFlag a n v).core d k = s.core d k := (rfl)
@[simp] theorem Chip.core_bumpBy (s : Chip) (a k : Nat) (d k : Nat) : (s.bumpBy a k).core d k = s.core d k := (rfl)
@[simp] theorem Chip.core_bump (s : Chip) (a : Nat) (d k : Nat) : (s.bump a).core d k = s.core d k := (rfl)
@[simp] theorem Chip.core_wrapBy (s : Chip) (a k : Nat) (d k : Nat) : (s.wrapBy a k).core d k = s.core d k := (rfl)
@[simp] theorem Chip.core_setPair (s : Chip) (a v : Nat) (d k : Nat) : (s.setPair a v).core d k = s.core d k := (rfl)
@[simp] theorem Chip.core_emit (s : Chip) (o : Out) (d k : Nat) : (s.emit o).core d k = s.core d k := (rfl)
@[simp] theorem Chip.frog_setReg (s : Chip) (a : Nat) (w : Word) (d : Nat) : (s.setReg a w).frog d = s.frog d := (rfl)
@[simp] theorem Chip.frog_setFld (s : Chip) (a hi lo v : Nat) (d : Nat) : (s.setFld a hi lo v).frog d = s.frog d := (rfl)
@[simp] theorem Chip.frog_setFlag (s : Chip) (a n : Nat) (v : Bool) (d : Nat) : (s.setFlag a n v).frog d = s.frog d := (rfl)
@[simp] theorem Chip.frog_bumpBy (s : Chip) (a k : Nat) (d : Nat) : (s.bumpBy a k).frog d = s.frog d := (rfl)
@[simp] theorem Chip.frog_bump (s : Chip) (a : Nat) (d : Nat) : (s.bump a).frog d = s.frog d := (rfl)
@[simp] theorem Chip.frog_wrapBy (s : Chip) (a k : Nat) (d : Nat) : (s.wrapBy a k).frog d = s.frog d := (rfl)
@[simp] theorem Chip.frog_setPair (s : Chip) (a v : Nat) (d : Nat) : (s.setPair a v).frog d = s.frog d := (rfl)
@[simp] theorem Chip.frog_emit (s : Chip) (o : Out) (d : Nat) : (s.emit o).frog d = s.frog d := (rfl)
@[simp] theorem Chip.eng_setReg (s : Chip) (a : Nat) (w : Word) (d e : Nat) : (s.setReg a w).eng d e = s.eng d e := (rfl)
@[simp] theorem Chip.eng_setFld (s : Chip) (a hi lo v : Nat) (d e : Nat) : (s.setFld a hi lo v).eng d e = s.eng d e := (rfl)
@[simp] theorem Chip.eng_setFlag (s : Chip) (a n : Nat) (v : Bool) (d e : Nat) : (s.setFlag a n v).eng d e = s.eng d e := (rfl)
@[simp] theorem Chip.eng_bumpBy (s : Chip) (a k : Nat) (d e : Nat) : (s.bumpBy a k).eng d e = s.eng d e := (rfl)
@[simp] theorem Chip.eng_bump (s : Chip) (a : Nat) (d e : Nat) : (s.bump a).eng d e = s.eng d e := (rfl)
@[simp] theorem Chip.eng_wrapBy (s : Chip) (a k : Nat) (d e : Nat) : (s.wrapBy a k).eng d e = s.eng d e := (rfl)
@[simp] theorem Chip.eng_setPair (s : Chip) (a v : Nat) (d e : Nat) : (s.setPair a v).eng d e = s.eng d e := (rfl)
@[simp] theorem Chip.eng_emit (s : Chip) (o : Out) (d e : Nat) : (s.emit o).eng d e = s.eng d e := (rfl)

end Sys2Proof.Machine
end

