-- ==== Sys2Proof/Laws/Report.lean ====
section
/-! SUPPORT. What reporting leaves alone: errors, notices, events, fault records and chain frames change
registers, event and fault queues, and what has left the chip, and nothing else. -/

namespace Sys2Proof.Machine

/-- t is s but for what reporting writes. -/
structure Chip.Reports (s t : Chip) : Prop where
  rest : t = { s with
    free := t.free
    out := t.out
    regs := t.regs
    own := t.own
    parts := { s.parts with pend := t.parts.pend, sealed := t.parts.sealed }
    errs := { s.errs with fq := t.errs.fq, nextSeq := t.errs.nextSeq, armed := t.errs.armed }
    chain := t.chain }

theorem Chip.Reports.refl (s : Chip) : s.Reports s := ⟨rfl⟩

theorem Chip.Reports.trans {s t u : Chip} (h : s.Reports t) (h' : t.Reports u) : s.Reports u := by
  refine ⟨?_⟩
  rw [h'.rest, h.rest]

theorem Chip.Reports.setReg {s t : Chip} (h : s.Reports t) (a : Nat) (w : Word) : s.Reports (t.setReg a w) :=
  h.trans ⟨rfl⟩

theorem Chip.Reports.ite {s t u : Chip} {p : Prop} [Decidable p] (h : s.Reports t) (h' : s.Reports u) :
    s.Reports (if p then t else u) := by
  split <;> assumption

theorem Chip.reports_setFld (s : Chip) (a hi lo v : Nat) : s.Reports (s.setFld a hi lo v) := ⟨rfl⟩

theorem Chip.reports_setFlag (s : Chip) (a n : Nat) (b : Bool) : s.Reports (s.setFlag a n b) := ⟨rfl⟩

theorem Chip.reports_bump (s : Chip) (a : Nat) : s.Reports (s.bump a) := ⟨rfl⟩

theorem Chip.reports_sealVec (s : Chip) (p v : Nat) : s.Reports (s.sealVec p v) := by
  unfold Chip.sealVec
  split
  · exact .refl s
  · exact ⟨rfl⟩

theorem Chip.reports_sealIfDue (s : Chip) (p v : Nat) : s.Reports (s.sealIfDue p v) := by
  unfold Chip.sealIfDue
  split
  · exact .refl s
  · exact .ite (s.reports_sealVec p v) (.refl s)

theorem Chip.reports_sealElapsed (s : Chip) (p v : Nat) : s.Reports (s.sealElapsed p v) := by
  unfold Chip.sealElapsed
  split
  · exact .refl s
  · exact .ite (s.reports_sealVec p v) (.refl s)

theorem Chip.reports_setPend (s : Chip) (p v : Nat) (r : Option EvRec) : s.Reports (s.setPend p v r) := ⟨rfl⟩

theorem Chip.reports_raise (s : Chip) (p v b i c d e : Nat) : s.Reports (s.raise p v b i c d e) := by
  unfold Chip.raise
  split
  · exact s.reports_bump _
  · exact ((s.reports_sealElapsed p v).trans (Chip.reports_setPend _ _ _ _)).trans (Chip.reports_sealIfDue _ _ _)

theorem Chip.reports_pageEventD (s : Chip) (pg c d e : Nat) : s.Reports (s.pageEventD pg c d e) := by
  unfold Chip.pageEventD
  exact .ite (s.reports_raise _ _ _ _ _ _ _) (.refl s)

theorem Chip.reports_pageEvent (s : Chip) (pg : Nat) : s.Reports (s.pageEvent pg) := s.reports_pageEventD _ _ _ _

theorem Chip.reports_latchFirst (s : Chip) (pg b c i : Nat) (inj : Bool) :
    s.Reports (s.latchFirst pg b c i inj) := by
  unfold Chip.latchFirst
  split
  · exact .refl s
  · exact (Chip.Reports.refl s).setReg _ _

theorem Chip.reports_setErr (s : Chip) (pg b : Nat) : s.Reports (s.setErr pg b) := by
  unfold Chip.setErr
  dsimp only
  split
  · exact s.reports_setFlag _ _ _
  · exact (s.reports_setFlag _ _ _).trans (Chip.reports_pageEvent _ _)

theorem Chip.reports_notice (s : Chip) (pg b : Nat) : s.Reports (s.notice pg b) :=
  (s.reports_latchFirst _ _ _ _ _).trans (Chip.reports_setErr _ _ _)

theorem Chip.reports_noticeInj (s : Chip) (pg b : Nat) : s.Reports (s.noticeInj pg b) :=
  (s.reports_latchFirst _ _ _ _ _).trans (Chip.reports_setErr _ _ _)

theorem Chip.reports_corrected (s : Chip) (pg b i : Nat) : s.Reports (s.corrected pg b i) :=
  ((s.reports_latchFirst _ _ _ _ _).trans (Chip.reports_setErr _ _ _)).trans (Chip.reports_bump _ _)

theorem Chip.reports_countErr (s : Chip) (pg b c i : Nat) (inj : Bool) :
    s.Reports (s.countErr pg b c i inj) :=
  ((s.reports_latchFirst _ _ _ _ _).trans (Chip.reports_setErr _ _ _)).trans (Chip.reports_bump _ _)

theorem Chip.reports_fault (s : Chip) (r : FaultRec) : s.Reports (s.fault r) := by
  unfold Chip.fault
  dsimp only
  have h1 : s.Reports { s with errs.nextSeq := (s.errs.nextSeq + 1) % 2 ^ 32 } := ⟨rfl⟩
  split
  · refine Chip.Reports.trans ?_ (Chip.reports_pageEvent _ _)
    exact ⟨rfl⟩
  · have h2 := (h1.trans (Chip.reports_bump _ (fqPg + 0x68))).trans (Chip.reports_setFlag _ (errStat fqPg) 0 true)
    refine .ite ?_ (Chip.Reports.trans ?_ (Chip.reports_pageEvent _ _)) <;>
    exact h2.trans (.ite (.refl _) ⟨rfl⟩)

theorem Chip.reports_itemErr (s : Chip) (pg b i : Nat) (r : FaultRec) : s.Reports (s.itemErr pg b i r) :=
  (s.reports_countErr _ _ _ _ _).trans (Chip.reports_fault _ _)

theorem Chip.reports_takeArmed (s : Chip) (pg : Nat) : s.Reports (s.takeArmed pg).2 := by
  unfold Chip.takeArmed
  split
  · exact .refl s
  · exact ⟨rfl⟩

theorem Chip.reports_strike (s : Chip) (pg : Nat) : s.Reports (s.strike pg).2 := by
  have := s.reports_takeArmed pg
  unfold Chip.strike
  split <;> rename_i h <;> rw [h] at this <;> exact this

theorem Chip.reports_chainSend (s : Chip) (t : Nat) (q : Option Nat) (d : List Byte) :
    s.Reports (s.chainSend t q d).2 := ⟨rfl⟩

theorem Chip.reports_chainPull (s : Chip) : s.Reports s.chainPull := by
  unfold Chip.chainPull
  exact .ite (.refl s) ⟨rfl⟩

theorem Chip.reports_chainCond (s : Chip) (b : Nat) : s.Reports (s.chainCond b) := by
  unfold Chip.chainCond
  exact .ite (.refl s) (.ite ((s.reports_setFlag _ _ _).trans (Chip.reports_chainPull _)) (s.reports_setFlag _ _ _))

theorem Chip.reports_sendState (s : Chip) (c : Nat) (d : List Byte) : s.Reports (s.sendState c d) := by
  unfold Chip.sendState
  refine .ite ((s.reports_bump _).trans (Chip.reports_notice _ _ _)) ?_
  have h : s.Reports { (s.chainSend 8 none (leBytes 8 c ++ (d ++ List.replicate 32 0).take 32)).2 with
      chain.stateAt := some (s.chainSend 8 none (leBytes 8 c ++ (d ++ List.replicate 32 0).take 32)).2.ref } := ⟨rfl⟩
  exact .ite (h.trans (Chip.reports_chainCond _ _)) h

theorem Chip.Reports.now {s t : Chip} (h : s.Reports t) : t.now = s.now := by rw [h.rest]
theorem Chip.Reports.ref {s t : Chip} (h : s.Reports t) : t.ref = s.ref := by rw [h.rest]
theorem Chip.Reports.latches {s t : Chip} (h : s.Reports t) : t.latches = s.latches := by rw [h.rest]
theorem Chip.Reports.holds {s t : Chip} (h : s.Reports t) : t.holds = s.holds := by rw [h.rest]
theorem Chip.Reports.cls {s t : Chip} (h : s.Reports t) : t.cls = s.cls := by rw [h.rest]
theorem Chip.Reports.posts {s t : Chip} (h : s.Reports t) : t.posts = s.posts := by rw [h.rest]
theorem Chip.Reports.xcs {s t : Chip} (h : s.Reports t) : t.xcs = s.xcs := by rw [h.rest]
theorem Chip.Reports.accs {s t : Chip} (h : s.Reports t) : t.accs = s.accs := by rw [h.rest]
theorem Chip.Reports.prom {s t : Chip} (h : s.Reports t) : t.prom = s.prom := by rw [h.rest]
theorem Chip.Reports.mcs {s t : Chip} (h : s.Reports t) : t.mcs = s.mcs := by rw [h.rest]
theorem Chip.Reports.thrMsgs {s t : Chip} (h : s.Reports t) : t.thrMsgs = s.thrMsgs := by rw [h.rest]
theorem Chip.Reports.rights {s t : Chip} (h : s.Reports t) : t.rights = s.rights := by rw [h.rest]
theorem Chip.Reports.dir {s t : Chip} (h : s.Reports t) : t.dir = s.dir := by rw [h.rest]
theorem Chip.Reports.regions {s t : Chip} (h : s.Reports t) : t.regions = s.regions := by rw [h.rest]
theorem Chip.Reports.roles {s t : Chip} (h : s.Reports t) : t.roles = s.roles := by rw [h.rest]
theorem Chip.Reports.hloc {s t : Chip} (h : s.Reports t) : t.hloc = s.hloc := by rw [h.rest]
theorem Chip.Reports.coord {s t : Chip} (h : s.Reports t) : t.coord = s.coord := by rw [h.rest]
theorem Chip.Reports.links {s t : Chip} (h : s.Reports t) : t.links = s.links := by rw [h.rest]
theorem Chip.Reports.ft {s t : Chip} (h : s.Reports t) : t.ft = s.ft := by rw [h.rest]
theorem Chip.Reports.gates {s t : Chip} (h : s.Reports t) : t.gates = s.gates := by rw [h.rest]
theorem Chip.Reports.gateLink {s t : Chip} (h : s.Reports t) : t.gateLink = s.gateLink := by rw [h.rest]
theorem Chip.Reports.arbs {s t : Chip} (h : s.Reports t) : t.arbs = s.arbs := by rw [h.rest]
theorem Chip.Reports.eth {s t : Chip} (h : s.Reports t) : t.eth = s.eth := by rw [h.rest]
theorem Chip.Reports.att {s t : Chip} (h : s.Reports t) : t.att = s.att := by rw [h.rest]
theorem Chip.Reports.duo {s t : Chip} (h : s.Reports t) : t.duo = s.duo := by rw [h.rest]
theorem Chip.Reports.tmr {s t : Chip} (h : s.Reports t) : t.tmr = s.tmr := by rw [h.rest]
theorem Chip.Reports.boot {s t : Chip} (h : s.Reports t) : t.boot = s.boot := by rw [h.rest]
theorem Chip.Reports.plan {s t : Chip} (h : s.Reports t) : t.plan = s.plan := by rw [h.rest]
theorem Chip.Reports.shapers {s t : Chip} (h : s.Reports t) : t.shapers = s.shapers := by rw [h.rest]
theorem Chip.Reports.shpStage {s t : Chip} (h : s.Reports t) : t.shpStage = s.shpStage := by rw [h.rest]
theorem Chip.Reports.held {s t : Chip} (h : s.Reports t) : t.held = s.held := by rw [h.rest]
theorem Chip.Reports.parts_ctxs {s t : Chip} (h : s.Reports t) : t.parts.ctxs = s.parts.ctxs := by rw [h.rest]
theorem Chip.Reports.parts_owner {s t : Chip} (h : s.Reports t) : t.parts.owner = s.parts.owner := by rw [h.rest]
theorem Chip.Reports.parts_invs {s t : Chip} (h : s.Reports t) : t.parts.invs = s.parts.invs := by rw [h.rest]
theorem Chip.Reports.parts_resetting {s t : Chip} (h : s.Reports t) : t.parts.resetting = s.parts.resetting := by rw [h.rest]
theorem Chip.Reports.parts_clReset {s t : Chip} (h : s.Reports t) : t.parts.clReset = s.parts.clReset := by rw [h.rest]
theorem Chip.Reports.errs_fences {s t : Chip} (h : s.Reports t) : t.errs.fences = s.errs.fences := by rw [h.rest]
theorem Chip.Reports.errs_cvs {s t : Chip} (h : s.Reports t) : t.errs.cvs = s.errs.cvs := by rw [h.rest]
theorem Chip.Reports.errs_stale {s t : Chip} (h : s.Reports t) : t.errs.stale = s.errs.stale := by rw [h.rest]
theorem Chip.Reports.errs_chipUe {s t : Chip} (h : s.Reports t) : t.errs.chipUe = s.errs.chipUe := by rw [h.rest]
theorem Chip.Reports.errs_failTick {s t : Chip} (h : s.Reports t) : t.errs.failTick = s.errs.failTick := by rw [h.rest]
theorem Chip.Reports.cl {s t : Chip} (h : s.Reports t) (c : Nat) : t.cl c = s.cl c := by
  unfold Chip.cl; rw [h.cls]
theorem Chip.Reports.core {s t : Chip} (h : s.Reports t) (c m : Nat) : t.core c m = s.core c m := by
  unfold Chip.core; rw [h.cl]
theorem Chip.Reports.frog {s t : Chip} (h : s.Reports t) (c : Nat) : t.frog c = s.frog c := by
  unfold Chip.frog; rw [h.cl]
theorem Chip.Reports.eng {s t : Chip} (h : s.Reports t) (c e : Nat) : t.eng c e = s.eng c e := by
  unfold Chip.eng; rw [h.cl]


end Sys2Proof.Machine
end

