-- ==== Sys2Proof/Laws/Raise.lean ====
section
/-! SUPPORT. The registers that reporting writes: an event writes registers of partition pages only, a
notice or error those of its page, a fault record those of the fault-queue page. -/

namespace Sys2Proof.Machine

/-- Registers that an event does not write: those below the partition pages, and others at no offset at
which a partition page counts or seals. -/
def belowPt (a : Nat) : Prop := a < 0x1100000 ∨ (a % 16 ≠ 12 ∧ a % 0x4000 ≠ 0x58)

theorem ptPg_ge (p : Nat) : 0x1100000 ≤ ptPg p := by unfold ptPg; omega

theorem Chip.sealVec_reg (s : Chip) (p v : Nat) {a : Nat} (h : belowPt a) : (s.sealVec p v).reg a = s.reg a := by
  have hp := ptPg_ge p
  unfold Chip.sealVec
  split
  · rfl
  · dsimp only
    rw [Chip.reg_bump_ne _ (by unfold vecReg ptPg belowPt at *; omega), Chip.reg_setReg_ne _ _ (by unfold ptPg belowPt at *; omega)]
    rfl

theorem Chip.sealIfDue_reg (s : Chip) (p v : Nat) {a : Nat} (h : belowPt a) : (s.sealIfDue p v).reg a = s.reg a := by
  unfold Chip.sealIfDue
  split
  · rfl
  · split
    · exact Chip.sealVec_reg _ _ _ h
    · rfl

theorem Chip.sealElapsed_reg (s : Chip) (p v : Nat) {a : Nat} (h : belowPt a) :
    (s.sealElapsed p v).reg a = s.reg a := by
  unfold Chip.sealElapsed
  split
  · rfl
  · split
    · exact Chip.sealVec_reg _ _ _ h
    · rfl

theorem Chip.raise_reg (s : Chip) (p v b i c d e : Nat) {a : Nat} (h : belowPt a) :
    (s.raise p v b i c d e).reg a = s.reg a := by
  have hp := ptPg_ge p
  unfold Chip.raise
  split
  · exact Chip.reg_bump_ne _ (by unfold ptPg belowPt at *; omega)
  · exact ((s.sealElapsed p v).setPend p v _).sealIfDue_reg p v h |>.trans (Chip.sealElapsed_reg s p v h)

theorem Chip.pageEventD_reg (s : Chip) (pg c d e : Nat) {a : Nat} (h : belowPt a) :
    (s.pageEventD pg c d e).reg a = s.reg a := by
  unfold Chip.pageEventD
  split
  · exact Chip.raise_reg _ _ _ _ _ _ _ _ h
  · rfl

theorem Chip.pageEvent_reg (s : Chip) (pg : Nat) {a : Nat} (h : belowPt a) : (s.pageEvent pg).reg a = s.reg a :=
  s.pageEventD_reg _ _ _ _ h

theorem Chip.latchFirst_reg (s : Chip) (pg b c i : Nat) (inj : Bool) {a : Nat} (h : a ≠ pg + 0x18) :
    (s.latchFirst pg b c i inj).reg a = s.reg a := by
  unfold Chip.latchFirst
  split
  · rfl
  · exact Chip.reg_setReg_ne _ _ (Ne.symm h)

/-- The page's bit is set. -/
theorem Chip.setErr_flag (s : Chip) (pg : Nat) {b : Nat} (hb : b < 32) (h : belowPt (errStat pg)) :
    (s.setErr pg b).flag (errStat pg) b = true := by
  unfold Chip.setErr
  have e : (s.setFlag (errStat pg) b true).flag (errStat pg) b = true := Chip.flag_setFlag _ _ _ hb
  dsimp only
  split
  · exact e
  · simp only [Chip.flag, Chip.pageEvent_reg _ _ h]; exact e

theorem Chip.setErr_reg (s : Chip) (pg b : Nat) {a : Nat} (h : belowPt a) (h1 : a ≠ errStat pg) :
    (s.setErr pg b).reg a = s.reg a := by
  have e : (s.setFlag (errStat pg) b true).reg a = s.reg a := Chip.reg_setFlag_ne _ _ _ (Ne.symm h1)
  unfold Chip.setErr
  dsimp only
  split
  · exact e
  · rw [Chip.pageEvent_reg _ _ h]; exact e

theorem Chip.notice_flag (s : Chip) (pg : Nat) {b : Nat} (hb : b < 32) (h : belowPt (errStat pg)) :
    (s.notice pg b).flag (errStat pg) b = true := Chip.setErr_flag _ _ hb h

theorem Chip.notice_reg (s : Chip) (pg b : Nat) {a : Nat} (h : belowPt a) (h1 : a ≠ pg + 0x10) (h2 : a ≠ pg + 0x18) :
    (s.notice pg b).reg a = s.reg a :=
  (Chip.setErr_reg _ _ _ h h1).trans (Chip.latchFirst_reg _ _ _ _ _ _ h2)

theorem Chip.countErr_flag (s : Chip) (pg : Nat) {b c i : Nat} {inj : Bool} (hb : b < 32) (h : belowPt (errStat pg)) :
    (s.countErr pg b c i inj).flag (errStat pg) b = true := by
  unfold Chip.countErr
  simp only [Chip.flag]
  rw [Chip.reg_bump_ne _ (by unfold errStat; omega)]
  exact Chip.setErr_flag _ _ hb h

theorem Chip.countErr_reg (s : Chip) (pg b c i : Nat) (inj : Bool) {a : Nat} (h : belowPt a) (h1 : a ≠ pg + 0x10)
    (h2 : a ≠ pg + 0x18) (h3 : a ≠ pg + 0x20) : (s.countErr pg b c i inj).reg a = s.reg a :=
  (Chip.reg_bump_ne _ (Ne.symm h3)).trans ((Chip.setErr_reg _ _ _ h h1).trans (Chip.latchFirst_reg _ _ _ _ _ _ h2))

/-- R396: the count of a page's errors advances by one. -/
theorem Chip.countErr_count (s : Chip) (pg b c i : Nat) (inj : Bool) (h : belowPt (pg + 0x20)) :
    ((s.countErr pg b c i inj).reg (pg + 0x20)).toNat = min ((s.reg (pg + 0x20)).toNat + 1) 0xffffffff := by
  unfold Chip.countErr Chip.bump
  rw [Chip.reg_bumpBy, Chip.setErr_reg _ _ _ h (by unfold errStat; omega), Chip.latchFirst_reg _ _ _ _ _ _ (by omega)]

theorem Chip.fault_reg (s : Chip) (r : FaultRec) {a : Nat} (h : belowPt a)
    (h1 : a < fqPg ∨ fqPg + 0x1000 ≤ a) : (s.fault r).reg a = s.reg a := by
  have e1 : fqPg + 0x68 ≠ a := by omega
  have e2 : errStat fqPg ≠ a := by unfold errStat; omega
  have e3 : fqPg + 0x18 ≠ a := by omega
  unfold Chip.fault
  dsimp only
  split
  · exact Chip.pageEvent_reg _ _ h
  · repeat' split
    all_goals
      try rw [Chip.pageEvent_reg _ _ h]
      try rw [Chip.reg_setReg_ne _ _ e3]
      rw [Chip.reg_setFlag_ne _ _ _ e2, Chip.reg_bump_ne _ e1]
      rfl

theorem Chip.sealVec_errs (s : Chip) (p v : Nat) : (s.sealVec p v).errs = s.errs := by
  unfold Chip.sealVec
  split
  · rfl
  · dsimp only
    rw [Chip.bump_errs, Chip.setReg_errs]
    rfl

theorem Chip.raise_errs (s : Chip) (p v b i c d e : Nat) : (s.raise p v b i c d e).errs = s.errs := by
  have h2 : ∀ s : Chip, (s.sealElapsed p v).errs = s.errs := by
    intro s
    unfold Chip.sealElapsed
    split
    · rfl
    · split
      · exact s.sealVec_errs p v
      · rfl
  have h3 : ∀ s : Chip, (s.sealIfDue p v).errs = s.errs := by
    intro s
    unfold Chip.sealIfDue
    split
    · rfl
    · split
      · exact s.sealVec_errs p v
      · rfl
  unfold Chip.raise
  split
  · rw [Chip.bump_errs]
  · exact (h3 _).trans (h2 s)

theorem Chip.pageEventD_errs (s : Chip) (pg c d e : Nat) : (s.pageEventD pg c d e).errs = s.errs := by
  unfold Chip.pageEventD
  split
  · exact Chip.raise_errs ..
  · rfl

/-- A notice or a counted error queues no fault record and takes no injection. -/
theorem Chip.setErr_errs (s : Chip) (pg b : Nat) : (s.setErr pg b).errs = s.errs := by
  unfold Chip.setErr
  dsimp only
  split
  · rw [Chip.setFlag_errs]
  · rw [Chip.pageEvent, Chip.pageEventD_errs, Chip.setFlag_errs]

theorem Chip.latchFirst_errs (s : Chip) (pg b c i : Nat) (inj : Bool) :
    (s.latchFirst pg b c i inj).errs = s.errs := by
  unfold Chip.latchFirst
  split
  · rfl
  · rw [Chip.setReg_errs]

theorem Chip.notice_errs (s : Chip) (pg b : Nat) : (s.notice pg b).errs = s.errs :=
  (Chip.setErr_errs ..).trans (Chip.latchFirst_errs ..)

theorem Chip.countErr_errs (s : Chip) (pg b c i : Nat) (inj : Bool) : (s.countErr pg b c i inj).errs = s.errs := by
  unfold Chip.countErr
  rw [Chip.bump_errs, Chip.setErr_errs, Chip.latchFirst_errs]

theorem Chip.strike_regs (s : Chip) (pg : Nat) : (s.strike pg).2.regs = s.regs := by
  have : (s.takeArmed pg).2.regs = s.regs := by unfold Chip.takeArmed; split <;> rfl
  unfold Chip.strike
  split <;> rename_i h <;> rw [h] at this <;> exact this

end Sys2Proof.Machine
end

