-- ==== Sys2Proof/Laws/Answer.lean ====
section
/-! SUPPORT. What answering a command changes: the frames of what the chip sends, of the record of a
command, and of the guard that every command passes. -/

namespace Sys2Proof.Machine

theorem Chip.Told.refl (s : Chip) : s.Told s := ⟨rfl, fun _ _ => rfl⟩

theorem Chip.Told.trans {s t u : Chip} (h : s.Told t) (h' : t.Told u) : s.Told u := by
  refine ⟨?_, fun a ha => (h'.regs a ha).trans (h.regs a ha)⟩
  rw [h'.rest, h.rest]

theorem Chip.Told.ite {s t u : Chip} {p : Prop} [Decidable p] (h : s.Told t) (h' : s.Told u) :
    s.Told (if p then t else u) := by
  split <;> assumption

/-- What is sent, an event or a notice leaves the windows and the ingress alone as well. -/
structure Chip.Sent (s t : Chip) : Prop where
  told : s.Told t
  eth : t.eth = { s.eth with cell := t.eth.cell, cellUsed := t.eth.cellUsed }

theorem Chip.Sent.refl (s : Chip) : s.Sent s := ⟨.refl s, rfl⟩

theorem Chip.Sent.trans {s t u : Chip} (h : s.Sent t) (h' : t.Sent u) : s.Sent u :=
  ⟨h.told.trans h'.told, by rw [h'.eth, h.eth]⟩

theorem Chip.Sent.ite {s t u : Chip} {p : Prop} [Decidable p] (h : s.Sent t) (h' : s.Sent u) :
    s.Sent (if p then t else u) := by
  split <;> assumption

theorem quiet.below {a : Nat} (h : quiet a) : belowPt a := h.1

theorem quiet.en {a k : Nat} (h : quiet a) (hk : k < 0x1000) : enPg + k ≠ a := by
  unfold quiet at h; unfold enPg; omega

theorem quiet.gate {a k : Nat} (h : quiet a) (hk : k < 0x1000) : gatePg true + k ≠ a := by
  unfold quiet at h; simp only [gatePg, if_true]; omega

theorem Chip.sent_setReg (s : Chip) {b : Nat} (w : Word) (h : ∀ a, quiet a → b ≠ a) : s.Sent (s.setReg b w) :=
  ⟨⟨rfl, fun a ha => Chip.reg_setReg_ne _ _ (h a ha)⟩, rfl⟩

theorem Chip.sent_emit (s : Chip) (o : Out) : s.Sent (s.emit o) := ⟨⟨rfl, fun _ _ => rfl⟩, rfl⟩

theorem Chip.sent_raise (s : Chip) (p v b i c d e : Nat) : s.Sent (s.raise p v b i c d e) := by
  refine ⟨⟨?_, fun a ha => Chip.raise_reg _ _ _ _ _ _ _ _ ha.below⟩, by
    rw [(Chip.reports_raise s p v b i c d e).eth]⟩
  have h1 := (Chip.reports_raise s p v b i c d e).rest
  have key : ∀ s : Chip, ∀ p v, (s.sealVec p v).free = s.free ∧ (s.sealVec p v).out = s.out ∧
      (s.sealVec p v).own = s.own ∧ (s.sealVec p v).chain = s.chain := by
    intro s p v
    unfold Chip.sealVec
    split
    · exact ⟨rfl, rfl, rfl, rfl⟩
    · dsimp only
      rw [Chip.bump_free, Chip.setReg_free, Chip.bump_out, Chip.setReg_out, Chip.bump_own, Chip.setReg_own,
        Chip.bump_chain, Chip.setReg_chain]
      exact ⟨rfl, rfl, rfl, rfl⟩
  have k2 : ∀ s : Chip, (s.sealElapsed p v).free = s.free ∧ (s.sealElapsed p v).out = s.out ∧
      (s.sealElapsed p v).own = s.own ∧ (s.sealElapsed p v).chain = s.chain := by
    intro s
    unfold Chip.sealElapsed
    split
    · exact ⟨rfl, rfl, rfl, rfl⟩
    · split
      · exact key ..
      · exact ⟨rfl, rfl, rfl, rfl⟩
  have k3 : ∀ s : Chip, (s.sealIfDue p v).free = s.free ∧ (s.sealIfDue p v).out = s.out ∧
      (s.sealIfDue p v).own = s.own ∧ (s.sealIfDue p v).chain = s.chain := by
    intro s
    unfold Chip.sealIfDue
    split
    · exact ⟨rfl, rfl, rfl, rfl⟩
    · split
      · exact key ..
      · exact ⟨rfl, rfl, rfl, rfl⟩
  have k4 : (s.raise p v b i c d e).free = s.free ∧ (s.raise p v b i c d e).chain = s.chain := by
    unfold Chip.raise
    split
    · rw [Chip.bump_free, Chip.bump_chain]; exact ⟨rfl, rfl⟩
    · exact ⟨(k3 _).1.trans (k2 s).1, (k3 _).2.2.2.trans (k2 s).2.2.2⟩
  have h2 := Chip.raise_errs s p v b i c d e
  generalize s.raise p v b i c d e = t at *
  rw [h1]
  rw [h1] at h2
  dsimp only at h2 ⊢
  rw [h2, k4.1, k4.2]

theorem Chip.sent_pageEventD (s : Chip) (pg c d e : Nat) : s.Sent (s.pageEventD pg c d e) := by
  unfold Chip.pageEventD
  exact .ite (s.sent_raise _ _ _ _ _ _ _) (.refl s)

theorem Chip.sent_pageEvent (s : Chip) (pg : Nat) : s.Sent (s.pageEvent pg) := s.sent_pageEventD ..

theorem Chip.sent_latchFirst (s : Chip) (pg b c i : Nat) (inj : Bool) (h : ∀ a, quiet a → pg + 0x18 ≠ a) :
    s.Sent (s.latchFirst pg b c i inj) := by
  unfold Chip.latchFirst
  exact .ite (.refl s) (s.sent_setReg _ h)

theorem Chip.sent_setErr (s : Chip) (pg b : Nat) (h : ∀ a, quiet a → pg + 0x10 ≠ a) : s.Sent (s.setErr pg b) := by
  unfold Chip.setErr
  have e : s.Sent (s.setFlag (errStat pg) b true) := s.sent_setReg _ h
  exact .ite e (e.trans (Chip.sent_pageEvent _ _))

theorem Chip.sent_notice (s : Chip) (pg b : Nat) (h : ∀ a, quiet a → pg + 0x18 ≠ a)
    (h' : ∀ a, quiet a → pg + 0x10 ≠ a) : s.Sent (s.notice pg b) :=
  (s.sent_latchFirst _ _ _ _ _ h).trans (Chip.sent_setErr _ _ _ h')

/-! ## The pair's part of sending -/

theorem Chip.sent_enterOut (s : Chip) (o : Out) (c d : Option Nat) : s.Sent (s.enterOut o c d) := by
  unfold Chip.enterOut
  split
  · exact .refl s
  · dsimp only
    exact .ite ⟨⟨rfl, fun _ _ => rfl⟩, rfl⟩ ⟨⟨rfl, fun _ _ => rfl⟩, rfl⟩

theorem Chip.sent_keep (s : Chip) (o : Out) (c : Option Nat) (b : Bool) : s.Sent (s.keep o c b) := by
  unfold Chip.keep
  have h : s.Sent (if b then s else s.enterOut o c none) := .ite (.refl s) (s.sent_enterOut o c none)
  generalize (if b then s else s.enterOut o c none) = t at *
  dsimp only
  split
  · exact h.trans ⟨⟨rfl, fun _ _ => rfl⟩, rfl⟩
  · exact h

/-! ## Sending -/

/-- R359: an SVC_RESP, whose leaving an AUDIT record tells. -/
def svcOut : Out → Prop
  | .xht _ d => d.hdr.typ = 7
  | _ => False

theorem Chip.auditTick_eq (s : Chip) {o : Out} (h : ¬ svcOut o) : s.auditTick o = s := by
  unfold Chip.auditTick
  split
  · rw [if_neg (fun g => h g.1)]
  · rfl

theorem svcOut_timeNow {o : Out} (n : Nat) (h : ¬ svcOut o) (ht : ∀ r d, o ≠ .time r d) : ¬ svcOut (timeNow n o) := by
  unfold timeNow
  split
  · exact (ht _ _ rfl).elim
  · exact h

theorem Chip.sent_ethLeave (s : Chip) {o : Out} (td : Option Nat) (ho : ¬ svcOut o) (ht : ∀ r d, o ≠ .time r d) :
    s.Sent (s.ethLeave o td) := by
  unfold Chip.ethLeave
  dsimp only
  rw [s.auditTick_eq (svcOut_timeNow s.now ho ht)]
  generalize timeNow s.now o = o
  have h : s.Sent ((s.wrapBy (enPg + 0xC8) 1).emit o) :=
    (s.sent_setReg _ fun a ha => ha.en (by omega)).trans (Chip.sent_emit _ _)
  split
  · refine .ite (h.trans ((Chip.sent_setReg _ _ ?_).trans (Chip.sent_notice _ _ _ ?_ ?_))) h
    · exact fun a ha => ha.en (by omega)
    · exact fun a ha => ha.en (by omega)
    · exact fun a ha => ha.en (by omega)
  · exact h.trans (Chip.sent_enterOut _ _ _ _)

theorem Chip.sent_overrun (s : Chip) : s.Sent (s.overrun true) := by
  unfold Chip.overrun
  refine (s.sent_setReg _ ?_).trans (Chip.sent_notice _ _ _ ?_ ?_)
  · exact fun a ha => ha.gate (by omega)
  · exact fun a ha => ha.gate (by omega)
  · exact fun a ha => ha.gate (by omega)

theorem Chip.sent_ethGo (s : Chip) (n : Nat) {o : Out} (td : Option Nat) (b : Bool) (ho : ¬ svcOut o)
    (ht : ∀ r d, o ≠ .time r d) : s.Sent (s.ethGo n o td b) := by
  have h : s.Sent (if td.isSome then s else s.useEthRoom n) := .ite (.refl s) ⟨⟨rfl, fun _ _ => rfl⟩, rfl⟩
  unfold Chip.ethGo
  dsimp only
  exact (h.trans (.ite (Chip.sent_overrun _) (.refl _))).trans (Chip.sent_ethLeave _ _ ho ht)

theorem Chip.sent_ethOut (s : Chip) (p n : Nat) {o : Out} (td : Option Nat) (ho : ¬ svcOut o)
    (ht : ∀ r d, o ≠ .time r d) : s.Sent (s.ethOut p n o td) := by
  have w : s.Sent { s with held := s.held ++ [⟨96, p, n, o, true, td⟩] } := ⟨⟨rfl, fun _ _ => rfl⟩, rfl⟩
  unfold Chip.ethOut
  dsimp only
  split
  · exact .ite w (s.sent_ethGo _ _ _ ho ht)
  · exact w

theorem Chip.sent_ethSend (s : Chip) (p n : Nat) {o : Out} (td : Option Nat) (ho : ¬ svcOut o)
    (ht : ∀ r d, o ≠ .time r d) : s.Sent (s.ethSend p n o td) := by
  unfold Chip.ethSend
  exact .ite (s.sent_keep _ _ _) (s.sent_ethOut _ _ _ ho ht)

theorem Chip.sent_egress (s : Chip) (port p n : Nat) {o : Out} (ho : ¬ svcOut o) (ht : ∀ r d, o ≠ .time r d) :
    s.Sent (s.egress port p n o) := by
  unfold Chip.egress
  dsimp only
  split
  · split
    · exact ⟨⟨rfl, fun _ _ => rfl⟩, rfl⟩
    · exact ⟨⟨rfl, fun _ _ => rfl⟩, rfl⟩
  · exact .ite (s.sent_ethSend _ _ _ ho ht) (s.sent_emit _)

theorem Chip.sent_xhtSend (s : Chip) (i : Nat) (h : XhtHdr) (d : List Byte) (ho : h.typ ≠ 7) :
    s.Sent (s.xhtSend i h d) :=
  s.sent_egress _ _ _ (o := .xht _ _) ho fun _ _ => Out.noConfusion

/-! ## Answers -/

theorem winEnt_record (w : SeqWin) (e : WinEnt) : winEnt (winRecord w e) e.seq = some e := by
  unfold winEnt winRecord
  dsimp only
  rw [List.find?_append]
  have : ((w.ents.filter fun x => !(x.seq == e.seq)).find? fun x => x.seq == e.seq) = none := by
    rw [List.find?_eq_none]
    intro x hx
    simpa using (List.mem_filter.1 hx).2
  rw [this]
  simp

theorem Chip.told_record (s : Chip) (i c n : Nat) (b : Bool) (st : Status) (r : Nat) :
    s.Told (s.record i c n b st r) := by
  unfold Chip.record Chip.setWin
  split <;> exact ⟨rfl, fun _ _ => rfl⟩

theorem Chip.record_entry (s : Chip) (i c n : Nat) (b : Bool) (st : Status) (r : Nat) :
    winEnt ((s.record i c n b st r).winOf i c) n = some ⟨n, b, st, r⟩ := by
  have h : (s.record i c n b st r).winOf i c = winRecord (s.winOf i c) ⟨n, b, st, r⟩ := by
    unfold Chip.record Chip.setWin
    generalize winRecord (s.winOf i c) ⟨n, b, st, r⟩ = w
    unfold Chip.winOf
    by_cases hc : c < 16
    · simp only [hc, if_true]
      exact Laws.at_put_self ..
    · simp only [hc, if_false]
      exact Laws.at_put_self ..
  rw [h]
  exact winEnt_record (s.winOf i c) ⟨n, b, st, r⟩

theorem Chip.Sent.winOf {s t : Chip} (h : s.Sent t) (i c : Nat) : t.winOf i c = s.winOf i c := by
  unfold Chip.winOf Chip.sessPart Chip.sessW Chip.sessRec
  rw [h.eth]

/-- The answer of a command changes what an answer changes, and records the outcome. -/
theorem Chip.told_cmdAnswer (s : Chip) (q : CmdReq) (st : Status) (r : Nat) : s.Told (s.cmdAnswer q st r) :=
  (s.told_record _ _ _ _ _ _).trans (Chip.sent_xhtSend _ _ _ _ (show (2 : Nat) ≠ 7 by decide)).told

theorem Chip.answeredIs_cmdAnswer (s : Chip) (q : CmdReq) (st : Status) (r : Nat) :
    (s.cmdAnswer q st r).answeredIs q st r := by
  unfold Chip.answeredIs Chip.cmdAnswer
  rw [(Chip.sent_xhtSend _ _ _ _ (show (2 : Nat) ≠ 7 by decide)).winOf]
  exact Chip.record_entry ..

theorem Chip.told_cmdPending (s : Chip) (q : CmdReq) : s.Told (s.cmdPending q) := s.told_record ..

theorem Chip.pendingIs_cmdPending (s : Chip) (q : CmdReq) : (s.cmdPending q).pendingIs q := Chip.record_entry ..

theorem Chip.Told.answeredIs {s t : Chip} (h : s.Sent t) {q : CmdReq} {st : Status} {r : Nat}
    (ha : s.answeredIs q st r) : t.answeredIs q st r := by
  unfold Chip.answeredIs
  rw [h.winOf]
  exact ha

/-! ## The guard of a command -/

theorem Chip.told_leaveIngress (s : Chip) (q : CmdReq) : s.Told (s.leaveIngress q) := ⟨rfl, fun _ _ => rfl⟩

theorem Chip.turnedAway_ingress (s : Chip) (q : CmdReq) (b : Bool) (h : (s.turnedAway q b).isNone = true) :
    (s.leaveIngress q).turnedAway q b = none := by
  have hr : ((s.leaveIngress q).recorded q 2).isSome = (s.recorded q 2).isSome := by
    unfold Chip.recorded
    rw [Option.isSome_map, Option.isSome_map]
    rfl
  unfold Chip.turnedAway at h ⊢
  dsimp only at h ⊢
  have e1 : (s.leaveIngress q).sessValid q.session = s.sessValid q.session := rfl
  have e2 : (s.leaveIngress q).isFenced (.part ((s.leaveIngress q).sessPart q.session)) =
    s.isFenced (.part (s.sessPart q.session)) := rfl
  have e3 : (s.leaveIngress q).partResetting ((s.leaveIngress q).sessPart q.session) =
    s.partResetting (s.sessPart q.session) := rfl
  have e4 : (s.leaveIngress q).chanOwner ((s.leaveIngress q).sessPart q.session) q.chan =
    s.chanOwner (s.sessPart q.session) q.chan := rfl
  have e5 : (s.leaveIngress q).sessPart q.session = s.sessPart q.session := rfl
  rw [hr, e1, e2, e3, e4, e5]
  split
  · rename_i g; rw [if_pos g] at h; simp at h
  · rename_i g1
    rw [if_neg g1] at h
    split
    · rename_i g; rw [if_pos g] at h; rw [Option.isNone_iff_eq_none] at h; rw [h] at g; simp at g
    · rename_i g2
      rw [if_neg g2] at h
      split
      · rename_i g; rw [if_pos g] at h; simp at h
      · rename_i g3
        rw [if_neg g3] at h
        split
        · rename_i g; rw [if_pos g] at h; simp at h
        · rename_i g4
          rw [if_neg g4] at h
          split
          · rename_i g; rw [if_pos g] at h; simp at h
          · rfl

/-- A command that nothing turns away is carried out with its session's partition. -/
theorem Chip.command_eq {s : Chip} {q : CmdReq} {b : Bool} (h : s.takesCmd q b) (f : Nat → Chip → Chip) :
    s.command q b f = f (s.sessPart q.session) (s.leaveIngress q) := by
  unfold Chip.command Chip.turnOf
  rw [if_neg (by simp [h.1]), if_neg (by simp [h.2.1])]
  dsimp only
  rw [s.turnedAway_ingress q b h.2.2]
  rfl

/-! ## What an answer leaves alone -/

theorem Chip.Told.now {s t : Chip} (h : s.Told t) : t.now = s.now := by rw [h.rest]
theorem Chip.Told.ref {s t : Chip} (h : s.Told t) : t.ref = s.ref := by rw [h.rest]
theorem Chip.Told.free {s t : Chip} (h : s.Told t) : t.free = s.free := by rw [h.rest]
theorem Chip.Told.latches {s t : Chip} (h : s.Told t) : t.latches = s.latches := by rw [h.rest]
theorem Chip.Told.holds {s t : Chip} (h : s.Told t) : t.holds = s.holds := by rw [h.rest]
theorem Chip.Told.cls {s t : Chip} (h : s.Told t) : t.cls = s.cls := by rw [h.rest]
theorem Chip.Told.posts {s t : Chip} (h : s.Told t) : t.posts = s.posts := by rw [h.rest]
theorem Chip.Told.xcs {s t : Chip} (h : s.Told t) : t.xcs = s.xcs := by rw [h.rest]
theorem Chip.Told.accs {s t : Chip} (h : s.Told t) : t.accs = s.accs := by rw [h.rest]
theorem Chip.Told.prom {s t : Chip} (h : s.Told t) : t.prom = s.prom := by rw [h.rest]
theorem Chip.Told.mcs {s t : Chip} (h : s.Told t) : t.mcs = s.mcs := by rw [h.rest]
theorem Chip.Told.thrMsgs {s t : Chip} (h : s.Told t) : t.thrMsgs = s.thrMsgs := by rw [h.rest]
theorem Chip.Told.rights {s t : Chip} (h : s.Told t) : t.rights = s.rights := by rw [h.rest]
theorem Chip.Told.dir {s t : Chip} (h : s.Told t) : t.dir = s.dir := by rw [h.rest]
theorem Chip.Told.regions {s t : Chip} (h : s.Told t) : t.regions = s.regions := by rw [h.rest]
theorem Chip.Told.roles {s t : Chip} (h : s.Told t) : t.roles = s.roles := by rw [h.rest]
theorem Chip.Told.hloc {s t : Chip} (h : s.Told t) : t.hloc = s.hloc := by rw [h.rest]
theorem Chip.Told.coord {s t : Chip} (h : s.Told t) : t.coord = s.coord := by rw [h.rest]
theorem Chip.Told.links {s t : Chip} (h : s.Told t) : t.links = s.links := by rw [h.rest]
theorem Chip.Told.ft {s t : Chip} (h : s.Told t) : t.ft = s.ft := by rw [h.rest]
theorem Chip.Told.gates {s t : Chip} (h : s.Told t) : t.gates = s.gates := by rw [h.rest]
theorem Chip.Told.gateLink {s t : Chip} (h : s.Told t) : t.gateLink = s.gateLink := by rw [h.rest]
theorem Chip.Told.arbs {s t : Chip} (h : s.Told t) : t.arbs = s.arbs := by rw [h.rest]
theorem Chip.Told.errs {s t : Chip} (h : s.Told t) : t.errs = s.errs := by rw [h.rest]
theorem Chip.Told.att {s t : Chip} (h : s.Told t) : t.att = s.att := by rw [h.rest]
theorem Chip.Told.chain {s t : Chip} (h : s.Told t) : t.chain = s.chain := by rw [h.rest]
theorem Chip.Told.tmr {s t : Chip} (h : s.Told t) : t.tmr = s.tmr := by rw [h.rest]
theorem Chip.Told.boot {s t : Chip} (h : s.Told t) : t.boot = s.boot := by rw [h.rest]
theorem Chip.Told.plan {s t : Chip} (h : s.Told t) : t.plan = s.plan := by rw [h.rest]
theorem Chip.Told.shpStage {s t : Chip} (h : s.Told t) : t.shpStage = s.shpStage := by rw [h.rest]
theorem Chip.Told.parts_ctxs {s t : Chip} (h : s.Told t) : t.parts.ctxs = s.parts.ctxs := by rw [h.rest]
theorem Chip.Told.parts_owner {s t : Chip} (h : s.Told t) : t.parts.owner = s.parts.owner := by rw [h.rest]
theorem Chip.Told.parts_invs {s t : Chip} (h : s.Told t) : t.parts.invs = s.parts.invs := by rw [h.rest]
theorem Chip.Told.parts_resetting {s t : Chip} (h : s.Told t) : t.parts.resetting = s.parts.resetting := by rw [h.rest]
theorem Chip.Told.parts_clReset {s t : Chip} (h : s.Told t) : t.parts.clReset = s.parts.clReset := by rw [h.rest]
theorem Chip.Told.eth_sess {s t : Chip} (h : s.Told t) : t.eth.sess = s.eth.sess := by rw [h.rest]
theorem Chip.Told.eth_sessBad {s t : Chip} (h : s.Told t) : t.eth.sessBad = s.eth.sessBad := by rw [h.rest]
theorem Chip.Told.eth_ev {s t : Chip} (h : s.Told t) : t.eth.ev = s.eth.ev := by rw [h.rest]
theorem Chip.Told.eth_au {s t : Chip} (h : s.Told t) : t.eth.au = s.eth.au := by rw [h.rest]
theorem Chip.Told.eth_stages {s t : Chip} (h : s.Told t) : t.eth.stages = s.eth.stages := by rw [h.rest]
theorem Chip.Told.eth_paused {s t : Chip} (h : s.Told t) : t.eth.paused = s.eth.paused := by rw [h.rest]
theorem Chip.Told.eth_corr {s t : Chip} (h : s.Told t) : t.eth.corr = s.eth.corr := by rw [h.rest]
theorem Chip.Told.eth_lastAdv {s t : Chip} (h : s.Told t) : t.eth.lastAdv = s.eth.lastAdv := by rw [h.rest]
theorem Chip.Told.cl {s t : Chip} (h : s.Told t) (c : Nat) : t.cl c = s.cl c := by
  unfold Chip.cl; rw [h.cls]
theorem Chip.Told.core {s t : Chip} (h : s.Told t) (c m : Nat) : t.core c m = s.core c m := by
  unfold Chip.core; rw [h.cl]
theorem Chip.Told.frog {s t : Chip} (h : s.Told t) (c : Nat) : t.frog c = s.frog c := by
  unfold Chip.frog; rw [h.cl]
theorem Chip.Told.eng {s t : Chip} (h : s.Told t) (c e : Nat) : t.eng c e = s.eng c e := by
  unfold Chip.eng; rw [h.cl]
theorem Chip.Told.ctxAt {s t : Chip} (h : s.Told t) (x : Nat) : t.ctxAt x = s.ctxAt x := by
  unfold Chip.ctxAt; rw [h.parts_ctxs]
theorem Chip.Told.ownerOf {s t : Chip} (h : s.Told t) (c : Nat) : t.ownerOf c = s.ownerOf c := by
  unfold Chip.ownerOf; rw [h.parts_owner]
theorem Chip.Told.fld {s t : Chip} (h : s.Told t) {a : Nat} (ha : quiet a) (hi lo : Nat) :
    t.fld a hi lo = s.fld a hi lo := by
  unfold Chip.fld; rw [h.regs a ha]
theorem Chip.Told.flag {s t : Chip} (h : s.Told t) {a : Nat} (ha : quiet a) (n : Nat) :
    t.flag a n = s.flag a n := by
  unfold Chip.flag; rw [h.regs a ha]

theorem Chip.Told.pairRole {s t : Chip} (h : s.Told t) : t.pairRole = s.pairRole :=
  h.fld (a := pairPg + 0x48) ⟨.inr ⟨by decide, by decide⟩, .inr (by decide)⟩ 2 0

theorem Chip.Told.standsBy {s t : Chip} (h : s.Told t) : t.standsBy = s.standsBy := by
  unfold Chip.standsBy; rw [h.pairRole]

/-- What an answer does is what it does to a chip that differs in nothing but what it writes. -/
theorem Answers.intro {i : Instr} {s : State} {e t : Chip} {q : CmdReq} {st : Status} {r : Nat}
    (h : exec i s = .next { s with sys := { s.sys with chip := t } }) (ht : e.Told t) (ha : t.answeredIs q st r) :
    Answers i s e q st r := ⟨_, h, rfl, ht, ha⟩

theorem Pends.intro {i : Instr} {s : State} {e t : Chip} {q : CmdReq}
    (h : exec i s = .next { s with sys := { s.sys with chip := t } }) (ht : e.Told t) (ha : t.pendingIs q) :
    Pends i s e q := ⟨_, h, rfl, ht, ha⟩

end Sys2Proof.Machine
end

