-- ==== Sys2Proof/Laws/Memory.lean ====
section
/-! SUPPORT. The memories keep their canonical form under every operation on them. -/

namespace Sys2Proof.Machine

open Sys2Proof.Laws

theorem Mem.wf_iff (m : Mem) : m.wf = true ↔
    KMap.wf 0 m.store = true ∧ KMap.wf .good m.storeMark = true ∧ KMap.wf 0 m.sram = true ∧
    KMap.wf .good m.sramMark = true ∧ KMap.wf 0 m.pool = true ∧ KMap.wf [] m.poolErr = true ∧
    KMap.wf 0 m.flash = true := by
  simp only [Mem.wf, Bool.and_eq_true, and_assoc]

/-- An operation applied for every element of a list keeps the form if each application does. -/
theorem wf_forEachS {α : Type} (l : List α) (f : α → Sys → Sys) {y : Sys}
    (h : ∀ a y, y.mem.wf = true → (f a y).mem.wf = true) (hy : y.mem.wf = true) :
    (forEachS l f y).mem.wf = true := by
  induction l generalizing y with
  | nil => exact hy
  | cons a l ih => exact ih (h a y hy)

theorem wf_filter {α : Type} [DecidableEq α] {d : α} {m : KMap α} (p : Nat × α → Bool)
    (h : m.wf d = true) : KMap.wf d (m.filter p) = true := by
  rw [Laws.wf_iff] at h ⊢
  exact ⟨above_filter p h.1, fun e he => h.2 e (List.mem_of_mem_filter he)⟩

/-! ## The pool -/

theorem Mem.wf_putBlk {m : Mem} (b lo : Nat) (d : List Byte) (h : m.wf = true) :
    (m.putBlk b lo d).wf = true := by
  rw [Mem.wf_iff] at h ⊢
  obtain ⟨h1, h2, h3, h4, h5, h6, h7⟩ := h
  exact ⟨h1, h2, h3, h4, wf_store _ _ h5, wf_put b [] h6, h7⟩

theorem Mem.wf_flipD0 {m : Mem} (b : Nat) (h : m.wf = true) : (m.flipD0 b).wf = true := by
  rw [Mem.wf_iff] at h ⊢
  obtain ⟨h1, h2, h3, h4, h5, h6, h7⟩ := h
  exact ⟨h1, h2, h3, h4, h5, wf_put b [(0, 1)] h6, h7⟩

theorem Sys.readBlk_mem (y : Sys) (n b port part : Nat) : (y.readBlk n b port part).2.mem = y.mem := by
  unfold Sys.readBlk
  dsimp only
  split
  · rfl
  · split
    · rfl
    · split <;> rfl

theorem Sys.wf_writeBlk {y : Sys} (n b lo : Nat) (d : List Byte) (h : y.mem.wf = true) :
    (y.writeBlk n b lo d).mem.wf = true := by
  unfold Sys.writeBlk
  split
  · exact h
  · dsimp only
    split
    · exact Mem.wf_flipD0 b (Mem.wf_putBlk b lo d h)
    · exact Mem.wf_putBlk b lo d h

/-! ## The cluster stores -/

theorem Sys.wf_stMeet {y : Sys} (c : Nat) (e : Nat × Mark) (h : y.mem.wf = true) :
    (y.stMeet c e).mem.wf = true := by
  obtain ⟨k, v⟩ := e
  rw [Mem.wf_iff] at h
  obtain ⟨h1, h2, h3, h4, h5, h6, h7⟩ := h
  have hp : ∀ m : Mark,
      ({ y.mem with storeMark := KMap.put y.mem.storeMark .good k m } : Mem).wf = true := by
    intro m
    rw [Mem.wf_iff]
    exact ⟨h1, wf_put k m h2, h3, h4, h5, h6, h7⟩
  cases v
  · exact (Mem.wf_iff _).2 ⟨h1, h2, h3, h4, h5, h6, h7⟩
  · exact hp .good
  · exact hp .told
  · exact (Mem.wf_iff _).2 ⟨h1, h2, h3, h4, h5, h6, h7⟩
  · exact (Mem.wf_iff _).2 ⟨h1, h2, h3, h4, h5, h6, h7⟩

theorem Sys.wf_stRead {y : Sys} (c off n : Nat) (h : y.mem.wf = true) :
    (y.stRead c off n).2.2.mem.wf = true :=
  wf_forEachS _ _ (fun e _ hy => Sys.wf_stMeet c e hy) h

theorem Sys.wf_stPut {y : Sys} (c off : Nat) (d : List Byte) (h : y.mem.wf = true) :
    (y.stPut c off d).mem.wf = true := by
  unfold Sys.stPut
  split
  · exact h
  · rw [Mem.wf_iff] at h
    obtain ⟨h1, h2, h3, h4, h5, h6, h7⟩ := h
    dsimp only
    rw [Mem.wf_iff]
    refine ⟨wf_store _ _ h1, ?_, h3, h4, h5, h6, h7⟩
    split
    · exact wf_put _ _ (wf_filter _ h2)
    · exact wf_filter _ h2

theorem Sys.wf_stMerge {y : Sys} (c off : Nat) (d : List Byte) (h : y.mem.wf = true) :
    (y.stMerge c off d).mem.wf = true := by
  unfold Sys.stMerge
  dsimp only
  split
  · exact Sys.wf_stPut _ _ _ (Sys.wf_stRead _ _ _ h)
  · exact Sys.wf_stRead _ _ _ h

theorem Sys.wf_stRaw {y : Sys} (c off : Nat) (d : List Byte) (h : y.mem.wf = true) :
    (y.stRaw c off d).mem.wf = true := by
  have h' : (if min ((4 - off % 4) % 4) d.length = 0 then y
      else y.stMerge c off (d.take (min ((4 - off % 4) % 4) d.length))).mem.wf = true := by
    split
    · exact h
    · exact Sys.wf_stMerge _ _ _ h
  unfold Sys.stRaw
  dsimp only
  split
  · exact Sys.wf_stMerge _ _ _ (Sys.wf_stPut _ _ _ h')
  · exact Sys.wf_stPut _ _ _ h'

theorem Sys.wf_writeLine {y : Sys} (c : Nat) (l : Line) (h : y.mem.wf = true) :
    (y.writeLine c l).mem.wf = true := by
  have h' := Sys.wf_stPut c l.off l.data h
  unfold Sys.writeLine
  rw [Mem.wf_iff] at h' ⊢
  obtain ⟨h1, h2, h3, h4, h5, h6, h7⟩ := h'
  exact ⟨h1, wf_foldl_put _ _ _ h2, h3, h4, h5, h6, h7⟩

theorem Sys.wf_invCore {y : Sys} (c off n m : Nat) (h : y.mem.wf = true) :
    (y.invCore c off n m).mem.wf = true := by
  unfold Sys.invCore
  refine wf_forEachS _ _ (fun e y hy => ?_) h
  dsimp only
  split
  · exact hy
  · split
    · simp only [onChip_mem]
      split
      · exact Sys.wf_writeLine _ _ hy
      · exact hy
    · exact hy

/-! ## The SRAMs and the flash -/

theorem Sys.wf_sramWord {y : Sys} (c m a : Nat) (h : y.mem.wf = true) :
    (y.sramWord c m a).2.mem.wf = true := by
  unfold Sys.sramWord
  dsimp only
  split
  · exact h
  · rw [Mem.wf_iff] at h ⊢
    obtain ⟨h1, h2, h3, h4, h5, h6, h7⟩ := h
    exact ⟨h1, h2, h3, wf_put _ .good h4, h5, h6, h7⟩
  · exact h

theorem Sys.wf_sramPut {y : Sys} (c m a : Nat) (d : List Byte) (h : y.mem.wf = true) :
    (y.sramPut c m a d).mem.wf = true := by
  rw [Mem.wf_iff] at h
  obtain ⟨h1, h2, h3, h4, h5, h6, h7⟩ := h
  unfold Sys.sramPut
  rw [Mem.wf_iff]
  exact ⟨h1, h2, wf_store _ _ h3, wf_put _ _ h4, h5, h6, h7⟩

theorem Sys.wf_loadSram {y : Sys} (c m a : Nat) (d : List Byte) (fill : Bool)
    (h : y.mem.wf = true) : (y.loadSram c m a d fill).mem.wf = true := by
  rw [Mem.wf_iff] at h
  obtain ⟨h1, h2, h3, h4, h5, h6, h7⟩ := h
  unfold Sys.loadSram
  rw [Mem.wf_iff]
  exact ⟨h1, h2, wf_store _ _ (wf_zero _ _ h3), wf_zero _ _ h4, h5, h6, h7⟩

theorem Sys.wf_flashPut {y : Sys} (a : Nat) (d : List Byte) (h : y.mem.wf = true) :
    (y.flashPut a d).mem.wf = true := by
  rw [Mem.wf_iff] at h
  obtain ⟨h1, h2, h3, h4, h5, h6, h7⟩ := h
  unfold Sys.flashPut onMem
  rw [Mem.wf_iff]
  exact ⟨h1, h2, h3, h4, h5, h6, wf_store _ _ h7⟩

/-- R381: what a chip reset leaves of the memories is in canonical form. -/
theorem Sys.wf_chipReset {y : Sys} (h : y.mem.wf = true) : y.chipReset.mem.wf = true := by
  rw [Mem.wf_iff] at h
  unfold Sys.chipReset
  rw [Mem.wf_iff]
  exact ⟨rfl, rfl, rfl, rfl, rfl, rfl, h.2.2.2.2.2.2⟩

end Sys2Proof.Machine
end

