-- ==== Sys2Proof/Laws/Calm.lean ====
section
/-! SUPPORT. Reads and writes of a cluster store that nothing stands between: they read bytes and write
bytes, and change nothing else. -/

namespace Sys2Proof.Machine

/-- y with other bytes in the stores. -/
def Sys.withStore (y : Sys) (m : KMap Byte) : Sys := { y with mem := { y.mem with store := m } }

@[simp] theorem Sys.withStore_chip (y : Sys) (m : KMap Byte) : (y.withStore m).chip = y.chip := (rfl)
@[simp] theorem Sys.withStore_store (y : Sys) (m : KMap Byte) : (y.withStore m).mem.store = m := (rfl)
@[simp] theorem Sys.withStore_mark (y : Sys) (m : KMap Byte) : (y.withStore m).mem.storeMark = y.mem.storeMark := (rfl)
@[simp] theorem Sys.withStore_withStore (y : Sys) (m m' : KMap Byte) :
    (y.withStore m).withStore m' = y.withStore m' := rfl

theorem Sys.Calm.withStore {y : Sys} {c : Nat} (h : y.Calm c) (m : KMap Byte) : (y.withStore m).Calm c :=
  ⟨h.marks, h.armed, h.lines⟩

theorem Sys.Calm.chip {y : Sys} {c : Nat} (h : y.Calm c) (s : Chip) (h1 : s.errs.armed = y.chip.errs.armed)
    (h2 : ∀ m, (s.core c m).lines = (y.chip.core c m).lines) : ({ y with chip := s } : Sys).Calm c :=
  ⟨h.marks, h1.trans h.armed, fun m => (h2 m).trans (h.lines m)⟩

/-- A read brings the bytes and nothing else. -/
theorem Sys.stRead_clean (y : Sys) (c o n : Nat) (h : y.mem.storeMark = []) :
    y.stRead c o n = (KMap.bytes y.mem.store (stKey c o) n, [], y) := by
  simp [Sys.stRead, Mem.stMarks, h, forEachS]

theorem Sys.stPut_calm {y : Sys} {c : Nat} (h : y.Calm c) (o : Nat) (d : List Byte) :
    y.stPut c o d = y.withStore (KMap.store y.mem.store (stKey c o) d) := by
  unfold Sys.stPut
  split
  · rename_i he
    have : d = [] := List.isEmpty_iff.1 he
    subst this; rfl
  · have : y.chip.takeArmed (stPg c) = (none, y.chip) := by simp [Chip.takeArmed, h.armed]
    rw [this]
    simp only [h.marks, List.filter_nil]
    unfold Sys.withStore
    conv => rhs; rw [show y.mem = { y.mem with storeMark := [] } by rw [← h.marks]]

theorem Sys.stMerge_calm {y : Sys} {c : Nat} (h : y.Calm c) (o : Nat) (d : List Byte) :
    ∃ m, y.stMerge c o d = y.withStore m := by
  unfold Sys.stMerge
  dsimp only
  rw [Sys.stRead_clean _ _ _ _ h.marks]
  dsimp only
  rw [if_pos (List.isEmpty_nil)]
  exact ⟨_, Sys.stPut_calm h _ _⟩

theorem Sys.stRaw_calm {y : Sys} {c : Nat} (h : y.Calm c) (o : Nat) (d : List Byte) :
    ∃ m, y.stRaw c o d = y.withStore m := by
  unfold Sys.stRaw
  dsimp only
  have h1 : ∃ m, (if min ((4 - o % 4) % 4) d.length = 0 then y
      else y.stMerge c o (d.take (min ((4 - o % 4) % 4) d.length))) = y.withStore m := by
    split
    · exact ⟨y.mem.store, rfl⟩
    · exact Sys.stMerge_calm h _ _
  obtain ⟨m1, e1⟩ := h1
  rw [e1, Sys.stPut_calm (h.withStore m1)]
  split
  · obtain ⟨m2, e2⟩ := Sys.stMerge_calm ((h.withStore m1).withStore _) (c := c)
      (o + min ((4 - o % 4) % 4) d.length + (d.length - min ((4 - o % 4) % 4) d.length) / 4 * 4)
      (d.drop (min ((4 - o % 4) % 4) d.length + (d.length - min ((4 - o % 4) % 4) d.length) / 4 * 4))
    exact ⟨m2, by rw [e2]; rfl⟩
  · exact ⟨_, rfl⟩

theorem Sys.invLines_calm {y : Sys} {c : Nat} (h : y.Calm c) (o n : Nat) : y.invLines c o n = y := by
  unfold Sys.invLines
  split
  · rfl
  · unfold forEachS
    generalize (y.chip.cl c).cores = l
    induction l with
    | nil => rfl
    | cons e l ih =>
      rw [List.foldl_cons]
      beta_reduce at ih ⊢
      have : y.invCore c o n e.1 = y := by simp [Sys.invCore, h.lines, forEachS]
      rw [this]; exact ih

theorem Sys.stWrite_calm {y : Sys} {c : Nat} (h : y.Calm c) (o : Nat) (d : List Byte) :
    ∃ m, y.stWrite c o d = y.withStore m := by
  unfold Sys.stWrite
  rw [Sys.invLines_calm h]
  exact Sys.stRaw_calm h o d

/-- Whole words from a word boundary are written as they are. -/
theorem Sys.stWrite_words {y : Sys} {c : Nat} (h : y.Calm c) {o : Nat} {d : List Byte} (ho : o % 4 = 0)
    (hd : d.length % 4 = 0) : y.stWrite c o d = y.withStore (KMap.store y.mem.store (stKey c o) d) := by
  unfold Sys.stWrite
  rw [Sys.invLines_calm h]
  unfold Sys.stRaw
  dsimp only
  rw [show min ((4 - o % 4) % 4) d.length = 0 by rw [ho]; simp]
  simp only [if_true, Nat.add_zero, Nat.sub_zero, List.drop_zero, Nat.zero_add]
  have e : d.length / 4 * 4 = d.length := by omega
  rw [e, List.take_length, if_neg (by omega)]
  exact Sys.stPut_calm h _ _

end Sys2Proof.Machine
end

