-- ==== Sys2Proof/Laws/Newt.lean ====
section
/-! SUPPORT. What the shared operations of the cores do: the frame of one core, an instruction that
starts, a result that is written, a trap. -/

namespace Sys2Proof.Machine

/-- A write of one core changes that core alone. -/
theorem Sys.onlyCore_setCore (y : Sys) (c m : Nat) (x : Core) :
    y.onlyCore (onChip (fun s => s.setCore c m x) y) c m :=
  ⟨rfl, fun d hd => Chip.cl_setCore_ne _ _ hd, by
    show (y.chip.setCore c m x).cl c = _
    simp only [Chip.cl_setCore, onChip], fun n hn => Chip.core_setCore_ne _ _ (Or.inr hn)⟩

@[simp] theorem Chip.setCl_setCl (s : Chip) (c : Nat) (x x' : Cl) (d n : Nat) :
    ((s.setCl c x).setCl c x').core d n = (s.setCl c x').core d n := by
  by_cases h : c = d
  · subst h; simp [Chip.core]
  · simp [Chip.core, Chip.cl_setCl_ne _ _ h]

/-- Frames of one core compose. -/
theorem Sys.onlyCore_trans {y z w : Sys} {c m : Nat} (h : y.onlyCore z c m) (h' : z.onlyCore w c m) :
    y.onlyCore w c m := by
  obtain ⟨a1, a2, a3, a4⟩ := h
  obtain ⟨b1, b2, b3, b4⟩ := h'
  refine ⟨?_, fun d hd => (b2 d hd).trans (a2 d hd), ?_, fun n hn => (b4 n hn).trans (a4 n hn)⟩
  · rw [b1, a1]
  · rw [b3, a3]

/-- An instruction of the command's kind runs; one of another kind leaves the block as it is. -/
theorem Sys.coreStep_eq {y y' : Sys} {c m : Nat} {op : Rv} {bits len : Nat}
    (h : y.nextIs c m op bits len y') (hop : op ≠ .illegal) (all : Bool) (sel : Rv → Bool)
    (run : Rv → Nat → Nat → Sys → Sys) :
    y.coreStep c m all sel run =
      if sel op then run op bits ((y.chip.core c m).pc + len) y' else y := by
  obtain ⟨h1, h2⟩ := h
  unfold Sys.coreStep
  rw [if_neg (by simp [h1])]
  dsimp only
  rw [h2]
  cases op <;> first | rfl | exact absurd rfl hop

theorem Chip.retire_eq (s : Chip) (c m next : Nat) (h : (s.core c m).haltReq = false) :
    s.retire c m next = s.setCore c m ((s.core c m).retired next) := by
  unfold Chip.retire
  dsimp only
  rw [if_neg (by simp [h])]
  rfl

@[simp] theorem Core.haltReq_put (x : Core) (n : Nat) (w : Word) : (x.put n w).haltReq = x.haltReq := by
  unfold Core.put; split <;> rfl

@[simp] theorem Core.haltReq_flagIf (x : Core) (n : Nat) (b : Bool) :
    (x.flagIf n b).haltReq = x.haltReq := by
  unfold Core.flagIf; split <;> rfl

@[simp] theorem Core.haltReq_csrPut (x : Core) (n : Nat) (w : Word) :
    (x.csrPut n w).haltReq = x.haltReq := by
  unfold Core.csrPut; dsimp only; split <;> first | rfl | (split <;> rfl)

@[simp] theorem Chip.haltReq_csrLatch (s : Chip) (n : Nat) (x : Core) :
    (s.csrLatch n x).haltReq = x.haltReq := by
  unfold Chip.csrLatch; split <;> rfl

/-- A result is written and the instruction retires. -/
theorem Chip.finish_core (s : Chip) (c m rd : Nat) (w : Word) (next : Nat)
    (h : (s.core c m).haltReq = false) :
    (s.finish c m rd w next).core c m = ((s.core c m).put rd w).retired next := by
  unfold Chip.finish
  rw [Chip.retire_eq _ _ _ _ (by simp [h])]
  simp

theorem Sys.onlyCore_finish (y : Sys) (c m rd : Nat) (w : Word) (next : Nat)
    (h : (y.chip.core c m).haltReq = false) :
    y.onlyCore (onChip (fun s => s.finish c m rd w next) y) c m := by
  have e : onChip (fun s => s.finish c m rd w next) y =
      onChip (fun s => s.setCore c m (((y.chip.core c m).put rd w).retired next))
        (onChip (fun s => s.setCore c m ((y.chip.core c m).put rd w)) y) := by
    simp only [onChip, Chip.finish]
    rw [Chip.retire_eq _ _ _ _ (by simp [h])]
    simp
  rw [e]
  exact Sys.onlyCore_trans (Sys.onlyCore_setCore ..) (Sys.onlyCore_setCore ..)

/-- The registers a newt's trap writes: its record and its bit of NW_TRAP_PEND. -/
theorem Chip.nwRec_apart (c m : Nat) : nwRec c m ≠ nwPg c + 0x54 + 4 * (m / 32) ∧
    nwRec c m + 4 ≠ nwPg c + 0x54 + 4 * (m / 32) ∧ nwRec c m + 8 ≠ nwPg c + 0x54 + 4 * (m / 32) ∧
    nwRec c m + 12 ≠ nwPg c + 0x54 + 4 * (m / 32) := by
  simp only [nwRec, nwRecPg, nwPg, clPg]
  refine ⟨?_, ?_, ?_, ?_⟩ <;> omega

/-- What an exception of a newt writes: its record, the core, its trap bit. -/
def Chip.trapped (s : Chip) (c m cause tval : Nat) : Chip :=
  ((((((s.setFld (nwRec c m) 12 8 cause).setReg (nwRec c m + 4) (BitVec.ofNat 32 (s.core c m).pc)).setReg
    (nwRec c m + 8) (BitVec.ofNat 32 tval)).setCore c m
      { s.core c m with st := 4, haltReq := false }).setFlag (nwPg c + 0x54 + 4 * (m / 32)) (m % 32) true).setFld
        (nwRec c m) 15 13 2)

/-- R97: an exception of a newt other than cause 24. -/
theorem Chip.trap_newt (s : Chip) {c m cause tval : Nat} (hm : m < 128) (h24 : cause ≠ 24) :
    s.trap c m cause tval = s.trapped c m cause tval := by
  unfold Chip.trap Chip.trapped
  simp [hm, h24, Chip.setStop, Chip.trapPend]

theorem Chip.core_trapped (s : Chip) (c m cause tval : Nat) :
    (s.trapped c m cause tval).core c m = { s.core c m with st := 4, haltReq := false } := by
  unfold Chip.trapped
  simp only [Chip.core_setFld, Chip.core_setFlag, Chip.core_setCore]

theorem Chip.reg_trapped (s : Chip) {c m a : Nat} (cause tval : Nat)
    (ha : a ∉ [nwRec c m, nwRec c m + 4, nwRec c m + 8, nwPg c + 0x54 + 4 * (m / 32)]) :
    (s.trapped c m cause tval).reg a = s.reg a := by
  simp only [List.mem_cons, List.not_mem_nil, or_false, not_or] at ha
  obtain ⟨a1, a2, a3, a4⟩ := ha
  unfold Chip.trapped
  rw [Chip.reg_setFld_ne _ _ _ _ (Ne.symm a1), Chip.reg_setFlag_ne _ _ _ (Ne.symm a4), Chip.reg_setCore,
    Chip.reg_setReg_ne _ _ (Ne.symm a3), Chip.reg_setReg_ne _ _ (Ne.symm a2),
    Chip.reg_setFld_ne _ _ _ _ (Ne.symm a1)]

theorem Chip.cause_trapped (s : Chip) (c m : Nat) {cause : Nat} (tval : Nat) (hk : cause < 32) :
    (s.trapped c m cause tval).fld (nwRec c m) 12 8 = cause := by
  unfold Chip.trapped
  obtain ⟨n1, n2, n3, -⟩ := Chip.nwRec_apart c m
  rw [Chip.fld_setFld_apart _ _ _ (by decide) (by omega), Chip.fld, Chip.reg_setFlag_ne _ _ _ (Ne.symm n1)]
  rw [Chip.reg_setCore, Chip.reg_setReg_ne _ _ (by omega), Chip.reg_setReg_ne _ _ (by omega)]
  rw [← Chip.fld, Chip.fld_setFld _ _ _ (by decide)]
  exact Nat.mod_eq_of_lt hk

theorem Chip.tpc_trapped (s : Chip) (c m cause tval : Nat) :
    (s.trapped c m cause tval).reg (nwRec c m + 4) = BitVec.ofNat 32 (s.core c m).pc := by
  unfold Chip.trapped
  obtain ⟨n1, n2, n3, -⟩ := Chip.nwRec_apart c m
  rw [Chip.reg_setFld_ne _ _ _ _ (by omega), Chip.reg_setFlag_ne _ _ _ (Ne.symm n2), Chip.reg_setCore,
      Chip.reg_setReg_ne _ _ (by omega), Chip.reg_setReg]

theorem Chip.tval_trapped (s : Chip) (c m cause tval : Nat) :
    (s.trapped c m cause tval).reg (nwRec c m + 8) = BitVec.ofNat 32 tval := by
  unfold Chip.trapped
  obtain ⟨n1, n2, n3, -⟩ := Chip.nwRec_apart c m
  rw [Chip.reg_setFld_ne _ _ _ _ (by omega), Chip.reg_setFlag_ne _ _ _ (Ne.symm n3), Chip.reg_setCore,
      Chip.reg_setReg]

theorem Chip.stop_trapped (s : Chip) (c m cause tval : Nat) :
    (s.trapped c m cause tval).fld (nwRec c m) 15 13 = 2 := by
  unfold Chip.trapped
  rw [Chip.fld_setFld _ _ _ (by decide)]; rfl

theorem Chip.pend_trapped (s : Chip) (c m cause tval : Nat) :
    (s.trapped c m cause tval).flag (nwPg c + 0x54 + 4 * (m / 32)) (m % 32) = true := by
  unfold Chip.trapped
  obtain ⟨n1, n2, n3, -⟩ := Chip.nwRec_apart c m
  rw [Chip.flag, Chip.reg_setFld_ne _ _ _ _ n1, ← Chip.flag,
    Chip.flag_setFlag _ _ _ (Nat.mod_lt _ (by decide))]

/-- Frames of one core and some registers compose. -/
theorem Sys.onlyCoreRegs.trans {y z w : Sys} {c m : Nat} {l : List Nat} (h : y.onlyCoreRegs z c m l)
    (h' : z.onlyCoreRegs w c m l) : y.onlyCoreRegs w c m l := by
  obtain ⟨a1, a2, a3, a4, a5⟩ := h
  obtain ⟨b1, b2, b3, b4, b5⟩ := h'
  refine ⟨?_, fun d hd => (b2 d hd).trans (a2 d hd), ?_, fun n hn => (b4 n hn).trans (a4 n hn),
    fun a ha => (b5 a ha).trans (a5 a ha)⟩
  · rw [b1, a1]
  · rw [b3, a3]

theorem Sys.onlyCoreRegs_core {y z : Sys} {c m : Nat} (l : List Nat) (h : y.onlyCore z c m) :
    y.onlyCoreRegs z c m l := by
  obtain ⟨a1, a2, a3, a4⟩ := h
  refine ⟨?_, a2, a3, a4, fun a _ => ?_⟩
  · conv => lhs; rw [a1]
    congr 2; rw [a1]
  · rw [a1]; rfl

theorem Sys.onlyCoreRegs.refl (y : Sys) (c m : Nat) (l : List Nat) : y.onlyCoreRegs y c m l :=
  ⟨rfl, fun _ _ => rfl, rfl, fun _ _ => rfl, fun _ _ => rfl⟩

theorem Sys.onlyCoreRegs.setReg {y z : Sys} {c m : Nat} {l : List Nat} (h : y.onlyCoreRegs z c m l)
    {a : Nat} (w : Word) (ha : a ∈ l) :
    y.onlyCoreRegs { z with chip := z.chip.setReg a w } c m l :=
  h.trans ⟨rfl, fun _ _ => rfl, rfl, fun _ _ => rfl, fun b hb =>
    Chip.reg_setReg_ne _ _ fun e => hb (e ▸ ha)⟩

theorem Sys.onlyCoreRegs.setFld {y z : Sys} {c m : Nat} {l : List Nat} (h : y.onlyCoreRegs z c m l)
    {a : Nat} (hi lo v : Nat) (ha : a ∈ l) :
    y.onlyCoreRegs { z with chip := z.chip.setFld a hi lo v } c m l := h.setReg _ ha

theorem Sys.onlyCoreRegs.setFlag {y z : Sys} {c m : Nat} {l : List Nat} (h : y.onlyCoreRegs z c m l)
    {a : Nat} (n : Nat) (v : Bool) (ha : a ∈ l) :
    y.onlyCoreRegs { z with chip := z.chip.setFlag a n v } c m l := h.setReg _ ha

theorem Sys.onlyCoreRegs.setCore {y z : Sys} {c m : Nat} {l : List Nat} (h : y.onlyCoreRegs z c m l)
    (x : Core) : y.onlyCoreRegs { z with chip := z.chip.setCore c m x } c m l :=
  h.trans (Sys.onlyCoreRegs_core l (z.onlyCore_setCore c m x))

theorem Sys.onlyCoreRegs_trapped (y : Sys) (c m cause tval : Nat) :
    y.onlyCoreRegs { y with chip := y.chip.trapped c m cause tval } c m
      [nwRec c m, nwRec c m + 4, nwRec c m + 8, nwPg c + 0x54 + 4 * (m / 32)] := by
  unfold Chip.trapped
  exact (((((Sys.onlyCoreRegs.refl y c m _).setFld _ _ _ (by simp) |>.setReg _ (by simp)).setReg _
    (by simp)).setCore _).setFlag _ _ (by simp)).setFld _ _ _ (by simp)

end Sys2Proof.Machine
end

