-- ==== Sys2Proof/WellFormed.lean ====
section
/-! DEFINITION. Well-formed commands: every number fits the field the spec gives it. The meanings are
total and do not ask for it (log entry 8). -/

namespace Sys2Proof

/-- n fits w bits. -/
def fits (w n : Nat) : Bool := decide (n < 2 ^ w)

/-- R340: a session of 8 bits, a channel of 5, SEQ of 32, TAG of 16. -/
def CmdReq.wf (q : CmdReq) : Bool := fits 8 q.session && fits 5 q.chan && fits 32 q.seq && fits 16 q.tag

/-- R297: the fields of a packet header. -/
def PktHdr.wf (h : PktHdr) : Bool :=
  fits 4 h.typ && fits 3 h.cls && fits 12 h.dstChip && fits 7 h.dstPort && fits 2 h.chk &&
  fits 14 h.srcHost && fits 16 h.tag && fits 12 h.srcChip && fits 7 h.srcPort && fits 4 h.status &&
  fits 40 h.offset && fits 64 h.value && fits 24 h.deadline && fits 16 h.rseq && fits 2 h.kind &&
  fits 21 h.len && fits 64 h.check

/-- R297: a packet: its payload is no longer than 1 MiB and a publication's three words. -/
def Packet.wf (p : Packet) : Bool := p.hdr.wf && decide (p.payload.length ≤ 0x100018)

/-- R257: a flit: 120 B of payload. -/
def Flit.wf (f : Flit) : Bool :=
  fits 12 f.seq && fits 12 f.ack && fits 3 f.vc && fits 3 f.typ && fits 2 f.fc && f.payload.length == 120 && fits 32 f.crc

/-- R255: a codeword carries five flits. -/
def Codeword.wf (c : Codeword) : Bool :=
  fits 7 c.lstate && c.flits.length == 5 && c.flits.all Flit.wf

/-- R278: an INIT flit names eight VCs. -/
def InitInfo.wf (i : InitInfo) : Bool :=
  fits 12 i.chip && fits 7 i.link && fits 8 i.vcEn && fits 12 i.rxNext && fits 16 i.session &&
  fits 16 i.peerSession && i.free.all (fits 16) && i.free.length == 8

/-- R340: an XHT datagram: its payload fits a frame. -/
def Datagram.wf (d : Datagram) : Bool :=
  fits 8 d.hdr.session && fits 5 d.hdr.chan && fits 32 d.hdr.seq && fits 16 d.hdr.tag &&
  decide (d.payload.length ≤ 8928)

/-- R338: an Ethernet frame in its fields. -/
def EthFrame.wf (f : EthFrame) : Bool :=
  fits 12 f.vid && fits 3 f.pcp && fits 48 f.dstMac && fits 48 f.srcMac && fits 16 f.srcPort &&
  fits 16 f.dstPort && fits 128 f.dstIp && fits 128 f.srcIp

/-- R464: a chain frame as it can arrive: an intact one states its length. -/
def ChainFrame.wf (f : ChainFrame) : Bool :=
  fits 4 f.typ && fits 4 f.typHi && fits 6 f.dst && fits 6 f.src && fits 8 f.seq && fits 16 f.len &&
  fits 16 f.crc && decide (f.payload.length ≤ 65535)

/-- R410, R414: a pair message in its fields, on a link that is there. -/
def PairMsg.wf (m : PairMsg) : Bool :=
  fits 8 m.kind && fits 12 m.chip && fits 32 m.ord && fits 64 m.tick && fits 64 m.arg0 && fits 64 m.arg1 &&
  decide (m.link < 96)

/-- R496: a register address: a multiple of 4 below 2^25. -/
def regAddrOk (a : Nat) : Bool := a % 4 == 0 && fits 25 a

/-- R360, R497: a run of registers in one MGMT message. -/
def runFits (a n : Nat) : Bool := regAddrOk a && decide (1 ≤ n ∧ n ≤ 64)

/-- R315: an arbiter that is there. -/
def ArbId.wf : ArbId → Bool
  | .bank c b => decide (c < 208 ∧ b < 32)
  | .mc n => decide (n < 256)
  | .vc l => decide (l < 96)
  | .mesh r o => decide (r < 234 ∧ o < 5)

/-- R399: a unit that is there. -/
def UnitId.wf : UnitId → Bool
  | .newt c m => decide (c < 208 ∧ m < 128)
  | .frog c | .cluster c => decide (c < 208)
  | .copy c e => decide (c < 208 ∧ e < 2)
  | .mc n => decide (n < 256)
  | .link l => decide (l < 96)
  | .eth => true
  | .cv u => decide (u < 32)
  | .part p => decide (p < 64)

def MgmtSrc.wf : MgmtSrc → Bool
  | .xht q => q.wf
  | .fabric p => p.wf
  | .chain f => f.wf

def RenewSrc.wf : RenewSrc → Bool
  | .fabric port p => decide (port < 97) && p.wf
  | .xht q => q.wf

/-- Every operand of the command fits the field the spec gives it. -/
def Instr.wf : Instr → Bool
  | .fgPost _ ag _ => match ag with | .newt m => decide (m < 128) | _ => true
  | .snoopInv _ a len => decide (1 ≤ len ∧ a.off + len ≤ 0x200000)
  | .arbGrant id _ reqs _ => id.wf && reqs.all fun r => fits 4 r.prio
  | .ctxAssign q slot root l1n cls => q.wf && fits 5 slot && fits 40 root && fits 19 l1n && cls.all (decide <| · < 208)
  | .ctxStart q slot | .ctxKill q slot | .ctxKillDrain q slot | .ctxRelease q slot => q.wf && fits 5 slot
  | .invRange q slot _ _ va len => q.wf && fits 5 slot && fits 48 va && fits 28 len
  | .tableWrite q _ _ => q.wf
  | .extGrant q part base count => q.wf && fits 6 part && fits 13 base && fits 14 count
  | .extBind q base count lease => q.wf && fits 13 base && fits 14 count && fits 12 lease
  | .extReturn q _ part base count => q.wf && fits 6 part && fits 13 base && fits 14 count
  | .extHold q base count | .extRelease q base count => q.wf && fits 13 base && fits 14 count
  | .isoSet q idx .. => q.wf && fits 12 idx
  | .isoClear q idx => q.wf && fits 12 idx
  | .leaseOpen q host len rint => q.wf && fits 14 host && fits 26 len && fits 26 rint
  | .leaseClose q lease => q.wf && fits 12 lease
  | .leaseRenew src => src.wf
  | .linkBind q link _ host => q.wf && decide (link < 96) && fits 14 host
  | .rd port p | .wr port p | .rdc port p | .recallAck port p | .publish port p | .time port p
  | .planLoad port p | .planCommit port p | .planAbort port p => decide (port < 128) && p.wf
  | .forward port vc p => decide (port < 128 ∧ vc < 8) && p.wf
  | .pubCreate q base shadow count version =>
    q.wf && fits 40 base && fits 40 shadow && fits 16 count && fits 64 version
  | .pubDelete q region => q.wf && fits 10 region
  | .codeword _ cw => cw.wf
  | .sequencedFlit _ f | .lctlCredit _ f | .lctlXstate _ f | .nullFlit _ f | .holdFlit _ f => f.wf
  | .initFlit _ i => i.wf
  | .frameReceive f | .discover f | .firmwareFrame f _ | .pfcFrame f => f.wf
  | .brd q cls off len deadline => q.wf && fits 3 cls && fits 40 off && fits 21 len && fits 24 deadline
  | .bwr d => d.wf
  | .svcReq q entry data => q.wf && fits 8 entry
  | .xhtTime q | .nop q => q.wf
  | .mgmtRead src addr count => src.wf && runFits addr count
  | .mgmtWrite src addr data => src.wf && runFits addr data.length
  | .sessSet q i ws => q.wf && fits 8 i && ws.length == 8
  | .sessClear q i => q.wf && fits 8 i
  | .svcSet q ws => q.wf && decide (8 ≤ ws.length)
  | .fence u _ => u.wf
  | .fenceContained u => u.wf
  | .errInjectReport pg _ | .errInjectFlipOne pg _ | .errInjectFlipTwo pg _ | .freeze pg _ =>
    pg % 4096 == 0 && fits 25 pg
  | .order m | .orderAck m | .note m _ | .renew m | .renewAck m | .out m | .digest m | .relay m _
  | .repair m | .handover m | .resync m _ => m.wf
  | .pairCmdForce key => fits 8 key
  | .stageS0 plls straps => fits 28 plls && fits 3 straps
  | .modelHash _ _ h => h.length == 48
  | .enum f | .chainFrameForward f | .continueHold f | .chainReset f | .retire f | .alertAck f
  | .flashRead f | .flashErase f | .flashProgram f | .poll f => f.wf
  | .registerWrite _ addr _ => regAddrOk addr
  | .stackHot n _ => decide (n < 8)
  | _ => true

end Sys2Proof
end

