-- ==== Sys2Proof/Tests/Slice0.lean ====
section
/-! SUPPORT. Tests: for every statement its hypotheses met on small states (theorems hyp_<statement>), the
checks of `Instr.wf`, and some single steps. Expected values are written from the spec's encodings and
rules. -/

namespace Sys2Proof.Tests

open Sys2Proof.Machine

/-! Small states. -/

/-- The chip after reset. -/
def base : Chip := {}

/-- A chip as a state of the block: no command waits, the memories list nothing. -/
def st (c : Chip) : State := ⟨[], { chip := c }⟩

/-- The block after reset, core m of cluster 0 in RUN as x says, the instruction word w at address 0 of
its instruction SRAM. -/
def coreAt (m : Nat) (x : Core) (w : Nat) : Sys :=
  { mem := { sram := KMap.store [] (sramKey 0 m 0) (leBytes 4 w) }, chip := base.setCore 0 m { x with st := 2 } }

/-- The words of the list decode to the instructions beside them, for core m as x says. -/
def fetchesAll (m : Nat) (x : Core) (l : List (Nat × Rv)) : Prop :=
  ∀ e ∈ l, (coreAt m x e.1).nextIs 0 m e.2 e.1 4 (coreAt m x e.1)

/-- Session 0 of partition 0 and host 5, session 1 of partition 1 and host 6, each with its partition's
command channel 0 and P0 to P2 allowed (R344). -/
def withSess (c : Chip) : Chip :=
  { c with eth.sess := [(0, [0x00001401, 0, 0, 0x00010000, 0, 0, 0, 0]), (1, [0x00001811, 0, 0, 0x00010000, 0, 0, 0, 0])] }

/-- Commands of session 0 and of session 1. -/
def q0 : CmdReq := ⟨0, 0, 1, 7⟩
def q1 : CmdReq := ⟨1, 0, 1, 7⟩

/-- Commands on the data channel. -/
def d0 : CmdReq := ⟨0, 16, 1, 7⟩
def d1 : CmdReq := ⟨1, 16, 1, 7⟩

/-- A good line of 64 bytes 7 at an offset, in a state. -/
def cLine (off s : Nat) : Line := ⟨off, s, List.replicate 64 7, [], 1⟩

/-- A TILE of one row, column and K of 4 in 16 bits, a LOAD and a SCAN of one chunk (R56, R58, R71). -/
def tileD : List Word := [0x00005501, 7, 3, 0, 8, 64, 8, 0, 0, 0, 0, 0, 128]
def loadD : List Word := [0x00000503, 7, 0, 0, 8, 0, 0, 64, 96, 0, 0, 0, 128]
def scanD : List Word := [0x00075002, 7, 0, 0, 8, 0, 0, 64, 0, 0, 96, 0, 128]

/-! Newts: the words are written out from the encodings of R85, R92 and R94. -/

theorem hyp_newt_words : fetchesAll 0 {}
    [(0x00208133, .alu .add 2 1 2), (0x00500093, .alui .add 1 0 5), (0x12345037, .lui 0 0x12345000),
     (0x12345097, .auipc 1 0x12345000), (0x008000EF, .jal 1 8), (0x000100E7, .jalr 1 2 0),
     (0x00208463, .branch 0 1 2 8), (0x00000073, .ecall), (0x00100073, .ebreak), (0x0000000F, .fence)] := by
  unfold fetchesAll Sys.nextIs; decide +kernel

theorem hyp_ccc_words : fetchesAll 128 {}
    [(0x30200073, .mret), (0x00000073, .ecall), (0x00100073, .ebreak)] := by
  unfold fetchesAll Sys.nextIs; decide +kernel

/-- The kv instructions with rd = 2, rs1 = 3, rs2 = 4, rs3 = 5 (R94). -/
theorem hyp_kv_words : fetchesAll 0 {}
    [(0x0041810B, .kv .qmul 2 3 4 0), (0x0041910B, .kv .sadd 2 3 4 0), (0x0041A10B, .kv .ssub 2 3 4 0),
     (0x0041B10B, .kv .bexp 2 3 4 0), (0x0041C10B, .kv .dot4 2 3 4 0), (0x0041D10B, .kv .crc 2 3 4 0),
     (0x0041E10B, .kv .cpy 2 3 4 0), (0x2841812B, .kv .clamp 2 3 4 5), (0x0041912B, .kv .waitt 2 3 4 0),
     (0x0041A12B, .kv .evt 2 3 4 0), (0x0000302B, .kv .fencest 0 0 0 0)] := by
  unfold fetchesAll Sys.nextIs; decide +kernel

/-- One HALT waits for the ADD. -/
theorem hyp_NewtControl_halt :
    (coreAt 127 { haltReq := true } 0x00208133).nextIs 0 127 (.alu .add 2 1 2) 0x00208133 4
      (coreAt 127 { haltReq := true } 0x00208133) ∧
    ((coreAt 127 { haltReq := true } 0x00208133).chip.core 0 127).haltReq = true := by
  unfold Sys.nextIs; decide +kernel

/-- A core running, waiting, halted, trapped; one reset begun and clean. -/
theorem hyp_NewtControl :
    (∀ n ∈ [2, 3, 1, 4], let x := (base.setCore 0 5 { st := n }).core 0 5
      x.absent = false ∧ x.flush = 0 ∧ x.st = n ∧ x.miss = none ∧ x.flush ≠ 2) ∧
    (let x := (base.setCore 207 127 { st := 1, flush := 2 }).core 207 127
     x.absent = false ∧ x.flush = 2 ∧ x.dirty = false ∧ x.miss = none ∧ x.badDirty = false) := by
  decide +kernel

/-- A read of time, a write of kvflags, an absent CSR, a write of a read-only one, a machine CSR of the
cluster control core, and a write of its misa. -/
theorem hyp_CsrAccess : fetchesAll 0 {}
    [(0xC01020F3, .csr 2 1 0 0xC01), (0x802110F3, .csr 1 1 2 0x802), (0x301020F3, .csr 2 1 0 0x301),
     (0xC01110F3, .csr 1 1 2 0xC01)] ∧ fetchesAll 128 {} [(0x301020F3, .csr 2 1 0 0x301), (0x301110F3, .csr 1 1 2 0x301)] ∧
    (coreAt 0 {} 0).chip.csrGet 0 0 0xC01 = some 0 ∧ csrNew 2 0 0 0 = none ∧
    (coreAt 0 {} 0).chip.csrGet 0 0 0x802 = some 0 ∧ csrNew 1 0 2 0 = some 0 ∧
    (coreAt 0 {} 0).chip.csrGet 0 0 0x301 = none ∧ (coreAt 128 {} 0).chip.csrGet 0 128 0x301 ≠ none := by
  unfold fetchesAll Sys.nextIs; decide +kernel

/-- W = 8 and 5; rd even, odd and x0; a CRC width of 3. -/
theorem hyp_KvArithmetic : fetchesAll 0 { kvbw := 5, kvcrc := 3 }
    [(0x0041B10B, .kv .bexp 2 3 4 0), (0x0041D10B, .kv .crc 2 3 4 0), (0x0041C00B, .kv .dot4 0 3 4 0),
     (0x0041C18B, .kv .dot4 3 3 4 0)] ∧
    ((coreAt 0 {} 0).chip.core 0 0).kvbw = 8 ∧ ((coreAt 0 {} 0).chip.core 0 0).kvcrc % 4 ≠ 3 ∧
    ((coreAt 0 {} 0).chip.core 0 0).kvcrc / 8 % 4 ≠ 3 := by
  unfold fetchesAll Sys.nextIs; decide +kernel

/-- Posting enabled, x3 = 32 and x4 = 1; events enabled. -/
theorem hyp_KvPostAndWait :
    let x : Core := { x := [(3, 32), (4, 1)], st := 2 }
    let c := ((base.setCore 0 0 x).setFlag (nwPg 0 + 0x40) 0 true).setFlag (nwPg 0 + 0x40) 1 true
    let y : Sys := { mem := { sram := KMap.store [] (sramKey 0 0 0) (leBytes 4 0x0041E10B) }, chip := c }
    y.nextIs 0 0 (.kv .cpy 2 3 4 0) 0x0041E10B 4 y ∧ (y.chip.core 0 0).haltReq = false ∧
    y.chip.flag (nwPg 0 + 0x40) 0 = true ∧ (x.get 3).toNat % 32 = 0 ∧ (x.get 4).toNat < 2 ∧
    (y.chip.eng 0 1).queue.length < 16 ∧ y.chip.isFenced (.copy 0 1) = false ∧
    y.chip.flag (nwPg 0 + 0x40) 1 = true ∧ (y.chip.cl 0).evq.length < 16 ∧
    base.flag (nwPg 0 + 0x40) 1 = false ∧ base.tickCopy < (x.get 3).toNat := by
  unfold Sys.nextIs; decide +kernel

theorem hyp_FenceAndWaits :
    (let x : Core := { lines := [(0, some (cLine 0 3)), (5, some (cLine 0x100 2))] }
     KMap.wf none x.lines = true ∧ (coreAt 0 x 0x0000000F).chip.stFrozen 0 = false ∧
     (∀ e ∈ x.lines, ∀ l ∈ e.2.toList, l.off % 64 = 0 ∧ l.data.length = 64) ∧
     (∀ e ∈ x.lines, ∀ e' ∈ x.lines, e.2.map (·.off) = e'.2.map (·.off) → e.1 = e'.1)) ∧
    (∀ t ∈ [0, 1], let y := base.setCore 0 0 { st := 3, target := t, wlen := 4 }
      (y.core 0 0).st = 3 ∧ (y.core 0 0).flush = 0 ∧ (y.core 0 0).haltReq = false ∧
      ((y.core 0 0).target ≤ y.tickCopy ∨ y.tickCopy < (y.core 0 0).target)) ∧
    Word.bit (0x80000000 : Word) 31 = true ∧ Word.bit (127 : Word) 31 = false ∧
    Word.bits (127 : Word) 6 0 = 127 := by decide +kernel

/-- A broadcast of the masked newt 0, and one that is done. -/
theorem hyp_NewtStart :
    Word.bit (0x10 : Word) 0 = false ∧ Word.bit (1 : Word) 0 = true ∧ Word.bit (1 : Word) 3 = false ∧
    (let y := base.setFlag (nwPg 0 + 0x64) 0 true
     y.flag (nwPg 0 + 0x8C) 2 = false ∧ y.bcOk 0 = true ∧ y.masked 0 0 = true ∧ (y.core 0 0).st < 2 ∧
     (∀ m : NewtNo, y.masked 0 m = true → (y.core 0 m).st < 2)) ∧
    (let y := base.setFlag (nwPg 0 + 0x8C) 2 true
     y.flag (nwPg 0 + 0x8C) 2 = true ∧ y.stFrozen 0 = false) ∧
    (base.fld (nwPg 0 + 0x90) 14 8 = 0 ∧ base.fld (nwPg 0 + 0x90) 4 0 = 0 ∧ (base.core 0 0).isOpen = true ∧
     (base.core 0 0).absent = false) := by decide +kernel

/-- MBOX pends and is enabled. -/
theorem hyp_ControlCore :
    let y := (base.setCore 0 128 { st := 2, mie := true, mieReg := 0x3F0000 }).setFlag (nwPg 0 + 0x100) 0 true
    (y.core 0 128).runs = true ∧ (y.core 0 128).mie = true ∧
    (List.range 6).filter (fun i => Word.bit (y.mip 0 &&& (y.core 0 128).mieReg) (16 + i)) = [4] := by
  decide +kernel

/-- A load of the instruction SRAM, of the data SRAM, of the store, and one misaligned; a store
likewise. -/
theorem hyp_NewtLoad_NewtStore :
    fetchesAll 0 { x := [(2, 0x10000000)] } [(0x00012083, .load 2 1 2 0), (0x00112023, .store 2 2 1 0)] ∧
    placeOf 0 = .isram 0 ∧ placeOf 0x10000 = .dsram 0 ∧ placeOf 0x10000000 = .store 0 ∧
    KMap.at (coreAt 0 {} 0x00012083).mem.sramMark .good (sramKey 0 0 0 / 4) = .good ∧
    accSize 2 = 4 ∧ 0x10000001 % accSize 2 ≠ 0 ∧
    (let x : Core := { lines := [(0, some (cLine 0 2))] }
     x.line 0 = some (0, cLine 0 2)) ∧
    (let x : Core := { lines := [(0, some (cLine 0 1))] }
     x.line 0 = some (0, cLine 0 1)) ∧
    (cLine 0 2).badAt 0 = false ∧ ({} : Core).line 0 = none := by
  unfold fetchesAll Sys.nextIs; decide +kernel

/-- A miss of each kind, and a dirty line to write back. -/
theorem hyp_SnoopTransactions :
    (∀ k ∈ [0, 1], let x : Core := { st := 2, miss := some ⟨k, 64, 2, 1, 0, 4⟩ }
      let y := base.setCore 0 0 x
      (y.cl 0).opens = [] ∧ (y.cl 0).credits = [] ∧ y.stFrozen 0 = false ∧ x.waits = true ∧ x.haltReq = false ∧
      x.missWay 64 = some 4 ∧ y.holders 0 64 0 = []) ∧
    (let x : Core := { st := 2, miss := some ⟨2, 0, 2, 1, 0, 4⟩, lines := [(0, some (cLine 0 1))] }
     x.waits = true ∧ x.missWay 0 = some 0 ∧ (x.line 0).isSome = true) ∧
    (let x : Core := { st := 2, flush := 0, miss := some ⟨0, 0x1000, 2, 1, 0, 4⟩, lines :=
       (List.range 4).map fun k => (k, some (cLine (0x10000 * (k + 1)) 3)) }
     x.waits = true ∧ x.wbNext = some (0, cLine 0x10000 3) ∧
     (List.replicate 64 (7 : Byte)).length = 64) := by decide +kernel

theorem hyp_StoreUpkeep :
    (base.cl 0).opens = [] ∧ (base.cl 0).credits = [] ∧ base.stFrozen 0 = false ∧
    (let y := { base.setFld (stPg 0 + 0x50) 23 0 1 with ref := 1 }
     y.fld (stPg 0 + 0x50) 23 0 ≠ 0 ∧ (y.cl 0).scrubAt + y.fld (stPg 0 + 0x50) 23 0 ≤ y.ref) ∧
    ({} : Mem).stMarks (stKey 0 0 / 4) 2 = [] ∧
    ({ storeMark := [(1, .one)] } : Mem).stMarks (stKey 0 0 / 4) 2 = [(1, .one)] ∧
    ({ storeMark := [(1, .poison)] } : Mem).stMarks (stKey 0 0 / 4) 2 = [(1, .poison)] ∧ Mark.poison.dead = true := by decide +kernel

theorem hyp_ArbiterGrants :
    (∀ id ∈ [ArbId.bank 207 31, .mc 255, .vc 95, .mesh 0 3], ∃ k ∈ [(arbKey id).getD 0],
      arbKey id = some k ∧ base.arbFrozen id = false ∧ arbHas id 4 = true ∧ (base.arb id k).holder = none ∧
      (base.arb id k).parked = []) ∧
    (∃ r ∈ [(⟨4, 3, 1, 5⟩ : ArbReq)], arbPick 1 16 [r, ⟨1, 2, 1, 4⟩] = some r ∧ arbPick 16 16 [⟨1, 2, 1, 6⟩, r] = some r) := by
  decide +kernel

/-! The frog. -/

/-- A post the control core may make at an aligned offset; one of a newt without NEWT_POST. -/
theorem hyp_FrogQueue_post :
    base.isFenced (.frog 0) = false ∧ Word.bits (0x40 : Word) 20 0 % 64 = 0 ∧ Word.bits (0x41 : Word) 20 0 % 64 ≠ 0 ∧
    (base.frog 0).taken < 32 ∧ base.flag (fgPg 0 + 0x40) 0 = false ∧
    (base.setFlag (fgPg 0 + 0x40) 0 true).flag (fgPg 0 + 0x40) 0 = true ∧
    32 ≤ ({ queue := List.replicate 32 (0, tileD) } : Frog).taken := by decide +kernel

/-- A total for the armed table, a carry for the empty buffer, an abort for the scan that waits, and a
wait that is over. -/
theorem hyp_FrogQueue_carry :
    let w : ScanWait := ⟨0, [0x12, 0, 0, 0, 0, 0, 0, 0, 0, 0, 0, 0x100], [], [], (0, false), 0, 0, 0, false⟩
    let at0 := fun (f : Frog) (p : Post) => ({ base with posts := [p], parts.owner := [(0, some 33)] }).setFrog 0 f
    let t : Post := ⟨.total, 1, 0, some 33, 0, 1, [(5, false)]⟩
    let k : Post := ⟨.carry, 1, 0, some 33, 0, 1, [(5, false)]⟩
    let a : Post := ⟨.abort .ue, 1, 0, some 33, 0, 1, []⟩
    ((at0 { armed := some (3, 0) } t).postAt 0 0 (fun p => !isAbort p) = some t ∧
      (at0 { armed := some (3, 0) } t).postForeign 0 t = false ∧ base.isFenced (.frog 0) = false ∧
      KMap.at ({} : Frog).table none t.chunk = none) ∧
    ((at0 {} k).postAt 0 0 (fun p => !isAbort p) = some k ∧ (at0 {} k).postForeign 0 k = false) ∧
    ((at0 { wait := some w } a).postAt 0 0 isAbort = some a ∧ (at0 { wait := some w } a).postForeign 0 a = false ∧
      a.scan = sId w.desc ∧ scanChunks w.desc ≠ 1 ∧ ptr w.desc 12 % 4 = 0) ∧
    (let y := { at0 { wait := some w } a with ref := 1000001 }
     y.stFrozen 0 = false ∧ w.since + max (y.reg (fgPg 0 + 0x5C)).toNat 1000 < y.ref) := by
  decide +kernel

theorem calm_base (c : Nat) : (st base).sys.Calm c := ⟨rfl, rfl, fun _ => rfl⟩

/-- Each descriptor at the head of a ready frog passes its checks; with mode 3 (R46), or without its
words, it fails them. -/
theorem hyp_FrogTraps_FrogCompletes :
    base.frogReady 0 = true ∧ (base.frog 0).struck = none ∧
    base.frogCheck {} 0 0 tileD = none ∧ dw tileD 0 3 0 = 1 ∧
    Chip.frogCheck { store := [(96, 128)] } base 0 0 loadD = none ∧ dw loadD 0 3 0 = 3 ∧ tCls loadD ≠ 0 ∧
    base.frogCheck {} 0 0 scanD = none ∧ dw scanD 0 3 0 = 2 ∧ scanChunks scanD = 1 ∧
    base.frogCheck {} 0 0 [0x00305501, 7] = some 2 ∧ base.frogCheck {} 0 0 [3, 7] ≠ none ∧
    base.frogCheck {} 0 0 [0x00375012, 7] ≠ none ∧
    ({ trapped := true } : Frog).trapped = true ∧ (base.frog 0).trapped = false := by
  decide +kernel

theorem hyp_RoundingModes : dw ([0x00305501, 7] : List Word) 0 3 0 = 1 ∧ tMode ([0x00305501, 7] : List Word) = 3 ∧
    dw ([0x00375012, 7] : List Word) 0 3 0 = 2 ∧ tMode ([0x00375012, 7] : List Word) = 3 := by decide +kernel

/-! Contexts, translation, copies. -/

/-- A chip whose context 33 (partition 1, slot 1) is in a state and owns cluster 3. -/
def ctxIn (n : Nat) : Chip :=
  { withSess base with parts.ctxs := [(33, { state := n, l1n := 2, root := 0x1000 })], parts.owner := [(3, some 33)] }

/-- A command of session 1, for the slots FREE, READY, RUNNING, DRAINING, KILLED and RELEASING. -/
theorem hyp_ContextCommands :
    (ctxIn 1).takesCmd q1 false ∧ (ctxIn 1).sessPart q1.session = 1 ∧
    (∀ n ∈ [0, 1, 2, 3, 4, 5], ((ctxIn n).ctxAt 33).state = n) ∧
    (let y := (ctxIn 0).setFlag (floorPg + 0x40) 4 true
     y.retiring = false ∧ y.ownerOf 4 = none ∧ y.clusterWorks 4 = true ∧
     ∃ r ∈ [y.area 1], r % 4096 = 0 ∧ y.inArea 1 r (8 * 262144) = true) := by
  unfold Chip.takesCmd; decide +kernel

/-- A DRAINING context without promises, a kill message under way, a release that is over. -/
theorem hyp_ContextCommands_ends :
    ((ctxIn 3).ctxAt 33).state = 3 ∧ (ctxIn 3).prom.reqs = [] ∧
    (let y := { base with parts.ctxs := [(33, { state := 4, killing := [3] })], parts.owner := [(3, some 33)] }
     y.ownerOf 3 = some 33 ∧ 3 ∈ (y.ctxAt 33).killing) ∧
    (let y := { base with parts.ctxs := [(33, { state := 5, releasing := some q1 })], parts.owner := [(3, some 33)] }
     y.releaseReady 33 = true ∧ (y.ctxAt 33).releasing = some q1) := by decide +kernel

/-- A TABLE_WRITE in the area, one misaligned, one too long; a preload, a walk's next level and its
leaf. -/
theorem hyp_Translation :
    (withSess base).takesCmd q0 false ∧
    (let y := withSess base
     ∃ off ∈ [y.area 0], off % 2048 = 0 ∧ y.tableOk 0 off 2048 = true ∧
       y.mcTurnsAway (y.ctrlOf (off / 2048)) = none ∧ y.isDefect (y.ctrlOf (off / 2048)) (off / 2048) = false) ∧
    (base.flag (tlbPg 3 + 0x54) 31 = false ∧ (base.cl 3).walks = [] ∧ Word.bit (0x80000000 : Word) 31 = true ∧
     base.ownerOf 3 = none ∧ (ctxIn 2).ownerOf 3 = some 33 ∧ (ctxIn 2).invHolds 33 0 = false ∧
     0 / 512 < ((ctxIn 2).ctxAt 33).l1n) ∧
    (let w : Walk := ⟨2, 33, 5, 1⟩
     let a : Acc := { src := .walk 3 2, port := 0, b := 0, pb := 0, lo := 0, len := 8, write := false, rdc := false
                      excl := false, part := 1, x := 0, data := leBytes 8 0x3001, slot := none, slot2 := none
                      checked := true, phase := .served, st := .ok, reg := false, lock := false, tick := 0, late := false }
     let y := { (ctxIn 2).setCl 3 { walks := [w] } with accs := [a] }
     (y.cl 3).walks = [w] ∧ (y.cl 3).pre = none ∧ (y.eng 3 0).descs = [] ∧ (y.eng 3 1).descs = [] ∧
     y.accs.find? (fun a => a.src == BlkSrc.walk 3 2 && a.phase == .served) = some a ∧ a.st = .ok) := by
  unfold Chip.takesCmd; decide +kernel

/-- An RD of one block at VA 0, an XC of one block to cluster 4, a WAITT for tick 5, each with its
completion word at 64 (R121). -/
def rdD : List Word := [0x41, 7, 0, 0, 0, 1, 0, 64]
def wrD : List Word := [0x42, 7, 0, 0, 0, 1, 0, 64]
def xcD : List Word := [0x43, 7, 0, 0, 0, 1, 0x00800000, 64]
def waitD : List Word := [0x44, 7, 5, 0, 0, 0, 0, 64]

theorem hyp_CopyPrograms :
    base.isFenced (.copy 3 1) = false ∧ (base.eng 3 1).room = true ∧
    ({ queue := List.replicate 16 0 } : Eng).room = false ∧ Word.bits (0x20 : Word) 20 0 % 32 = 0 ∧
    Word.bits (0x30 : Word) 20 0 % 32 ≠ 0 ∧ base.frozen (cpPg 3 1) = false ∧ base.stFrozen 3 = false ∧
    copyBad 3 0x1FFFE0 rdD = false ∧ copyBad 3 0 xcD = false ∧ copyBad 3 0 waitD = false ∧
    copyBad 3 0 [0, 0, 0, 0, 0, 0, 0, 0] = true ∧ copyBad 4 0 xcD = true ∧ copyBad 3 0 [0x2, 0, 0, 0, 0, 0, 0, 0] = true ∧
    copyBad 3 0 [0x4, 0, 0, 0, 0, 0, 1, 0] = true ∧ 0x1FFFE0 + 32 ≤ 0x200000 ∧
    wordsOf (KMap.bytes (KMap.store [] 32 (xcD.flatMap fun w => leBytes 4 w.toNat)) 32 32) = xcD ∧
    dw xcD 0 3 0 = 3 ∧ dw waitD 0 3 0 = 4 ∧ db waitD 0 6 = true ∧ db xcD 0 9 = false ∧
    base.xcStop 3 4 = some .noAccess ∧
    ({ base with parts.owner := [(3, some 33), (4, some 33)] } : Chip).xcStop 3 4 = none ∧
    base.tickCopy < wideOf waitD ∧ wideOf waitD ≤ ({ base with now := 5 } : Chip).tickCopy := by decide +kernel

/-- A translation of page 0 of the owner's context; a WAITT that waits. -/
theorem hyp_CopyStarts :
    (let t : TlbEnt := ⟨33, 0, 1, 0, true, true, false, 0, 0⟩
     let y := (ctxIn 2).setCl 3 { tlb := [(0, some t)], eng0 := { queue := [0] } }
     (y.eng 3 0).queue = [0] ∧ (y.eng 3 0).cur = none ∧ (y.eng 3 0).descs = [] ∧ (y.eng 3 0).struck = none ∧
     y.ownerOf 3 = some 33 ∧ (y.ctxAt 33).translates = true ∧ copyBad 3 0 rdD = false ∧ copyBad 3 0 wrD = false ∧
     pagesOf rdD = [0] ∧ pagesOf wrD = [0] ∧ y.invHolds 33 0 = false ∧ (y.cl 3).walks = [] ∧
     y.tlbFind 3 33 0 = some (0, t) ∧ t.flips = 0 ∧ dw rdD 0 3 0 = 1 ∧ dw wrD 0 3 0 = 2) ∧
    (let d := { descOf base 3 0 0 waitD with waiting := true }
     d.waiting = true ∧ d.forced = none ∧ d.fails = [] ∧ d.fly = [] ∧ d.need = [] ∧ d.nblk = 0 ∧
     db d.ws 0 6 = true ∧ db d.ws 0 9 = false ∧ d.cmplPtr % 4 = 0) := by decide +kernel

/-- A descriptor with its first block to issue, and with it in flight. -/
theorem hyp_CopyBlocks :
    (∀ ws ∈ [rdD, wrD, xcD], let d := descOf base 3 0 0 ws
      d.issued = false ∧ d.need = [] ∧ d.waiting = false ∧ d.fly.length < 32 ∧ d.forced = none ∧ d.stop = false ∧
      d.next < d.nblk ∧ d.csOff % 4 = 0) ∧ (base.eng 3 0).lastIssue = none ∧ base.stFrozen 3 = false ∧
    (descOf base 3 0 0 rdD).opc = 1 ∧ (descOf base 3 0 0 wrD).opc = 2 ∧ (descOf base 3 0 0 xcD).opc = 3 ∧
    (let y := { base with xcs := [⟨3, 0, blkNo 0 0, 4, 0x80, List.replicate 2048 9⟩] }
     (y.xcs.filter fun x => x.dst == 4)[0]? = some ⟨3, 0, blkNo 0 0, 4, 0x80, List.replicate 2048 9⟩ ∧
     y.isFenced (.cluster 4) = false ∧ y.clResetting 4 = false) := by decide +kernel

theorem hyp_InvRange :
    (withSess base).takesCmd q0 false ∧ ¬ ((false = false ∧ 32 ≤ 31) ∨ (false = false ∧ (0 % 0x200000 ≠ 0 ∨ 1 = 0))) ∧
    (let j : InvJob := ⟨q0, [0], 0, 1, []⟩
     let y := { withSess base with parts.invs := [(0, [j])] }
     KMap.at y.parts.invs [] 0 = [j] ∧ j.waits.all y.invSettled = true ∧ y.invClusters 0 j = [] ∧
     y.takesCmd q0 false) := by
  unfold Chip.takesCmd; decide +kernel

/-! Channel controllers and rights. -/

/-- An access of request 1 to block 0 that holds slot 2. -/
def accOf (write : Bool) (len : Nat) (data : List Byte) (phase : Phase) : Acc :=
  { src := .req 1 0, port := 0, b := 0, pb := 0, lo := 0, len := len, write := write, rdc := false, excl := false
    part := 64, x := 0, data := data, slot := some 2, slot2 := some 5, checked := true, phase := phase, st := .ok
    reg := false, lock := false, tick := 0, late := false }

/-- Controller 0 in state 2 with an access in the slot that is due. -/
def mcWith (a : Acc) (p : List (Nat × Bool)) : Chip :=
  { base.setFld (mcPg 0 + 0x40) 2 0 2 with now := 100, accs := [a], mcs := [(0, { poison := p })] }

/-- A read, a write of a whole block, a write of 8 bytes, and a read of a poisoned block. -/
theorem hyp_BlockSlot :
    (∀ a ∈ [accOf false 8 [] .ready, accOf true 2048 (List.replicate 2048 7) .ready, accOf true 8 (List.replicate 8 7) .ready],
      let y := mcWith a []
      y.fld (mcPg 0 + 0x40) 2 0 = 2 ∧ (y.mc 0).lastSlot = none ∧ y.slotAt y.now = 2 ∧ y.inScrub 0 2 = false ∧
      (y.markLate 0 2).reservedFor 0 2 = some a ∧ (y.mc 0).marked = [] ∧ (y.mc 0).inject = 0 ∧
      (y.mc 0).poison.any (fun p => p.1 == a.pb) = false ∧ 0 ≤ y.codeT) ∧
    (let a := accOf false 8 [] .ready
     let y := mcWith a [(0, false)]
     (y.markLate 0 2).reservedFor 0 2 = some a ∧ (y.mc 0).poison.any (fun p => p.1 == a.pb) = true ∧
     y.standsBy = false) := by decide +kernel

/-- One chip and tick for each clause of ControllerTime. -/
theorem hyp_ControllerTime :
    (∃ t ∈ [(⟨1, 0, 64000⟩ : Thr)], ({ base with thrMsgs := [t] } : Chip).thrMsgs = [t] ∧ base.prom.thr = []) ∧
    (∃ t ∈ [(⟨1, 0, 64000⟩ : Thr)], ([t] : List Thr)[0]? = some t ∧ t.stop ≤ 64000 ∧ 63999 < t.stop) ∧
    0 % 32000000 = 0 ∧ 1 % 32000000 ≠ 0 ∧
    (base.mc 0).leakTick + 1000 * max (base.fld (mcPg 0 + 0x70) 31 16) 1 ≤ 65535000 ∧
    (1950 - 61 + 61 * 1) % 1950 = 0 ∧ 390625 % 100000000 = 390625 * 1 ∧
    (let y := { (base.setFld (mcPg 0 + 0x40) 2 0 2).setFld (mcPg 0 + 0x54) 15 0 1 with now := 3100 }
     y.scrubFirst 0 (y.slotAt y.now) = true ∧ y.fld (mcPg 0 + 0x40) 2 0 = 2 ∧ (y.mc 0).lastSlot = none ∧
     (y.mc 0).poison = [] ∧ (y.mc 0).marked = [] ∧ (y.mc 0).inject = 0 ∧ 0 ≤ y.codeT ∧
     ∃ pos ∈ [y.scrubPosAt 0 (y.slotAt y.now)], y.slotKeeps 0 (pos / y.rowsD) (y.slotAt y.now) = true ∧
       y.slotKeeps 0 (pos / y.rowsD) (y.slotAt y.now + 1) = true) ∧
    (base.setFlag (mcPg 0 + 0x40) 3 true).flag (mcPg 0 + 0x40) 3 = true ∧
    (base.mc 0).resetting = none ∧ ({ resetting := some 0 } : Mc).resetting ≠ none := by decide +kernel

/-- Partition 1 owns extent 5; extent 6 is in quarantine, 7 held, 8 FREE; lease 3 of host 9, bound to link 3, is ACTIVE. -/
def withRights : Chip :=
  { withSess base with
    rights.exts := [(5, { state := 1, part := 1 }), (6, { state := 3 }), (7, { state := 5 })]
    rights.leases := [(3, ⟨1, 9, 1, 1000, 100, 1000000⟩)]
    rights.linkHost := [(3, some 9)] }

theorem hyp_Extents :
    withRights.takesCmd q0 true ∧ withRights.takesCmd q1 false ∧ extRangeOk 8191 1 = true ∧ extRangeOk 8191 2 = false ∧
    withRights.retiring = false ∧ withRights.extState 8 = 0 ∧ withRights.extState 6 = 3 ∧ withRights.extState 7 = 5 ∧
    withRights.leaseOfPart 3 1 = true ∧ withRights.leaseOfPart 4 1 = false ∧ withRights.ownedBy 1 5 = true ∧
    withRights.ownedBy 1 6 = false ∧ withRights.overlapping (extRange 5 1) = [] ∧
    withRights.rights.revs = [] ∧ withRights.overlapBusy (extRange 5 1) = false := by
  unfold Chip.takesCmd; decide +kernel

/-- A revocation that is over, a quarantine at its end, a fill that is complete. -/
theorem hyp_Extents_ends :
    (let r : Rev := ⟨2, some q1, .extReturn, 0, true, 1, [5], [], [], [], []⟩
     let y := { withSess base with rights.revs := [r] }
     y.rights.revs.find? (fun r => r.id == 2) = some r ∧ y.revReady r = true ∧ y.revReady { r with committed := false } = false) ∧
    (base.standsBy = false ∧ base.leads = false) ∧ withRights.extState 6 = 3 ∧ (withRights.ext 6).qEnd ≤ 0 ∧
    (let y := { base with rights.exts := [(6, { state := 4 })]
                          rights.fillPos := (List.range 256).map fun n => (256 * 6 + n, 128) }
     y.extState 6 = 4 ∧ y.fillDone 6 = true) ∧ base.fillDone 6 = false := by decide +kernel

/-- An entry of partition 1 for host 9 by lease 3, read-write, over extent 5 (R189). -/
def isoD : List Word := [0x01038009, 0x00004005, 3, 0]

theorem hyp_IsoTable :
    withRights.takesCmd q1 false ∧ withRights.takesCmd q0 true ∧ withRights.isoSetOk 1 4095 isoD = true ∧
    withRights.isoSetOk 1 4096 isoD = false ∧ isoLowers [0, 0, 0, 0] (isoStored isoD) = false ∧
    isoLowers isoD [0, 0, 0, 0] = true ∧ withRights.isoBusy 4095 = false ∧
    KMap.at withRights.rights.linkHost none 95 = none ∧ KMap.at withRights.rights.linkHost none 3 = some 9 ∧
    ({ withRights with rights.shadow := [⟨4095, isoNone, 300, .add q1⟩] } : Chip).isoBusy 4095 = true ∧
    (let c : IsoChange := ⟨7, isoD, 300, .add q1⟩
     let y := { withRights with rights.shadow := [c], now := 300 }
     (y.standsBy = false ∧ y.leads = false) ∧ y.rights.shadow = [c] ∧ y.rights.commits = [] ∧ y.errs.armed = [] ∧ y.rights.isoWait = [] ∧ y.rights.retWait = [] ∧
     y.isoFits c.ws = true ∧ ({ y with rights.exts := [] } : Chip).isoFits c.ws = false ∧
     c.tc ≤ y.now ∧ withRights.now < c.tc) ∧
    (base.setFld (extPg + 0x74) 15 0 1).fld (extPg + 0x74) 15 0 ≠ 0 ∧ base.fld (extPg + 0x74) 15 0 ≤ 65535 ∧
    (base.isoAt 0).rt = (base.isoAt 0).ct ∧ base.fld (extPg + 0x78) 15 0 ≤ 300 ∧
    (let y := { withRights with rights.iso := [(7, { rt := isoD, ct := isoD, gen := 2 })]
                                rights.shadow := [⟨7, isoNone, 300, .add q1⟩] }
     y.overlapping (extRange 5 1) = [7] ∧ y.overlapBusy (extRange 5 1) = true) := by
  unfold Chip.takesCmd; decide +kernel

/-- A lease is free, one may be closed, renewed, lapse, and end its grace. -/
theorem hyp_Leases :
    withRights.takesCmd q1 false ∧ withRights.hostLease 8 = none ∧ withRights.freeLease = some 0 ∧
    withRights.leaseOfPart 3 1 = true ∧ withRights.leaseOfPart 4 1 = false ∧
    (let y := { withRights with regs := [(rtPg + 0x40, 0x80000001)] }
     y.standsBy = false ∧ y.addressed = true ∧ y.spoofed 3 9 = false ∧ y.spoofed 3 8 = true ∧
     leaseEff 1000000 ⟨1, 9, 1, 1000, 100, 1000000⟩ = 2 ∧ leaseEff 9000000 ⟨1, 9, 1, 1000, 100, 1000000⟩ = 3 ∧
     y.hostLease 9 = some (3, ⟨1, 9, 1, 1000, 100, 1000000⟩) ∧ leaseEff y.now ⟨1, 9, 1, 1000, 100, 1000000⟩ = 1 ∧
     y.hostLease 8 = none ∧ y.sessValid 1 = true ∧ (y.recorded d1 2).isSome = false) ∧
    (let y := { base with rights.leases := [(3, ⟨1, 6, 1, 1000, 100, 1000000⟩)] }
     (withSess y).hostLease ((withSess y).sessHost 1) = some (3, ⟨1, 6, 1, 1000, 100, 1000000⟩)) ∧
    (let r : Rev := ⟨2, some q1, .leaseClose 3, 0, true, 1, [], [], [], [], []⟩
     let y := { withRights with rights.revs := [r] }
     y.rights.revs.filter (fun r => r.kind == .leaseClose 3 || r.kind == .lapse 3) = [r] ∧ r.committed = true ∧
     y.revReady r = true) := by
  unfold Chip.takesCmd; decide +kernel

/-! Requests, promises, directory, published regions. -/

/-- A packet header of host 9 on link 3, class P1, of 64 bytes at extent 5. -/
def hdrD : PktHdr :=
  { typ := 0, cls := 1, dstChip := 1, dstPort := 127, excl := false, reg := false, ver := false, chk := 0, srcHost := 9
    tag := 4, srcChip := 2, srcPort := 0, status := 0, offset := 5 * 0x4000000, value := 0, deadline := 0, rseq := 0
    kind := 0, len := 64, check := 0 }
def pktD : Packet := ⟨hdrD, List.replicate 64 1⟩

/-- The chip has its address, host 9 may read and write extent 5 (isoD). -/
def withIso : Chip :=
  { withRights with regs := [(rtPg + 0x40, 0x80000001)], rights.iso := [(7, { rt := isoD, ct := isoD, gen := 2 })] }

/-- A region over blocks 163840 to 163843 with version 6. -/
def regionD : Region :=
  { valid := true, base := 163840, shadow := 163850, count := 4, part := 1, version := 6, created := true }

theorem hyp_FabricRequests :
    withIso.addressed = true ∧ withIso.portBusy 3 = false ∧ withIso.spoofed 3 9 = false ∧
    (∃ b ∈ [blkSpan hdrD.offset hdrD.len], b = (163840, 1) ∧ withIso.inShadow b.1 b.2 = false ∧ withIso.regionAt b.1 b.2 = none) ∧
    withIso.routerCheck 9 false hdrD.offset 64 = true ∧ withIso.routerCheck 9 true hdrD.offset 64 = true ∧
    withRights.routerCheck 9 false hdrD.offset 64 = false ∧ withRights.pairRole = 0 ∧ hdrD.len ≠ 0 ∧
    (let y := { withIso with regions := [(2, regionD)] }
     y.inShadow 163840 1 = false ∧ y.regionAt 163840 1 = some (2, regionD) ∧ hdrD.offset % 2048 = 0 ∧
     y.routerCheck 9 true hdrD.offset 2048 = true ∧
     payNat (leBytes 8 6 ++ leBytes 8 7) 0 8 < payNat (leBytes 8 6 ++ leBytes 8 7) 8 8) ∧
    base.addressed = false := by decide +kernel

/-- An XHT header of session 1 on its data channel, a BWR in one piece of 8 bytes. -/
def xhtD : XhtHdr :=
  { typ := 0, ver := 1, dup := false, last := true, retx := false, hasValue := false, session := 1, chan := 16, seq := 1
    tag := 7, cls := 1, status := 0, word3 := 0x14000000, word4 := 0, len := 8, foff := 0, rsvdZero := true }
def bwrD : Datagram := ⟨xhtD, List.replicate 8 1⟩

/-- Host 6 of session 1 holds lease 3 and an entry for extent 5. -/
def withHost : Chip :=
  { withSess base with
    rights.exts := [(5, { state := 1, part := 1 })]
    rights.leases := [(3, ⟨1, 6, 1, 1000, 100, 1000000⟩)]
    rights.iso := [(7, { rt := [0x01038006, 0x00004005, 3, 0], ct := [0x01038006, 0x00004005, 3, 0] })]
    prom.svc := [(2, { valid := true, part := 1, deadline := 9 })] }

theorem hyp_EthernetRequests :
    withHost.sessValid 1 = true ∧ withHost.portBusy 96 = false ∧ withHost.repeated d1 .brd = false ∧
    withHost.repeated d1 .bwr = false ∧ withHost.repeated d1 .svc = false ∧ withHost.sessPart 1 ≠ 0 ∧
    withHost.routerCheck (withHost.sessHost 1) false 0x14000000 8 = true ∧ xOffset xhtD = 0x14000000 ∧
    withHost.routerCheck (withHost.sessHost 1) true (xOffset xhtD) 8 = true ∧
    withHost.inShadow (blkSpan 0x14000000 8).1 (blkSpan 0x14000000 8).2 = false ∧
    withHost.regionAt (blkSpan 0x14000000 8).1 (blkSpan 0x14000000 8).2 = none ∧
    bwrD.payload.length = xhtD.len ∧ xhtD.len ≤ withHost.pieceMax ∧ withHost.pieceMax < 8193 ∧
    bwrD.hdr.foff = 0 ∧ ({ xhtD with foff := 8 } : XhtHdr).foff ≠ 0 ∧
    (withHost.eth.stages.find? fun g => g.session == 1 && g.seq == 1) = none ∧ withHost.staged + 8193 ≤ 4194304 ∧
    (∃ e ∈ [KMap.at withHost.prom.svc {} 2], e.valid = true ∧ e.part = withHost.sessPart 1 ∧
      withHost.svcOk e [0, 0, 0, 0] = true) ∧
    (let g : Stage := ⟨1, 1, 7, 1, 0, 8193, 0, 0, []⟩
     ([g].find? fun g => g.session == 1 && g.seq == 1) = some g ∧
     g.first + 1000 * max (base.fld (enPg + 0x80) 15 0) 1 ≤ 65535000) := by decide +kernel

/-- A read of 64 bytes at extent 5 by host 9, class P1 with a long deadline. -/
def reqD : Req :=
  { id := 0, kind := .rd, cls := 1, part := 1, port := 3, host := 9, srcChip := 2, srcPort := 0, tag := 4, session := 0
    addr := [], chan := 0, seq := 0, th := 0, td := 1000000, off := 0x14000000, len := 64, excl := false, chk := 0
    data := [], promise := true, gens := [], region := none, body := 0, base := 0, new := 0, fixed := none, check := 0
    entry := 0, cluster := 0, svcSlot := 0, occ0 := 0, occ := 0, dispatched := false, resp := none, model := []
    dig := [], nblks := 1, sent := false }

/-- A verdict of each kind. -/
def verdictKind : Verdict → Nat
  | .answer _ => 0
  | .refuse _ => 1
  | .accept _ _ => 2

/-- The chip is READY with one header; the class B read is accepted, the promise of a short deadline is
refused, a chip out of SERVICE answers. -/
theorem hyp_Admission :
    (let y := fun r : Req => ({ base with prom.hdrs := [r] }).setFld (stagePg + 0x40) 5 4 1
     let k := fun r : Req => verdictKind (((y r).takeHdr r (y r).prom.seq).2.verdict ((y r).takeHdr r (y r).prom.seq).1)
     (y reqD).isReady = true ∧ (y reqD).pairRole = 0 ∧ (y reqD).nextHdr = some reqD ∧
     k { reqD with promise := false } = 2 ∧ k { reqD with td := 10 } = 1 ∧
     (let z := (y reqD).setFld (chPg + 0x44) 1 0 2
      verdictKind ((z.takeHdr reqD 1).2.verdict (z.takeHdr reqD 1).1) = 0)) ∧
    base.isReady = false ∧ base.nextHdr = none := by decide +kernel

/-- A service entry of partition 1 in order (R246). -/
def svcD : List Word := [0x00000102, 0, 500, 0x00EC012C, 1, 1, 8, 0x00010000, 0, 0]

theorem hyp_Admission_svcSet :
    (withSess base).takesCmd q1 false ∧ (withSess base).retiring = false ∧ svcRsvdOk svcD = true ∧
    svcD.length = 7 + 3 * 1 ∧ Word.bits (svcD.getD 1 0) 8 5 + 1 = 1 ∧ Word.bit (svcD.getD 0 0) 8 = true ∧
    svcFieldsOk { valid := true, part := 1, ctx := 0, deadline := 500, inT := 300, outT := 236, pre := 1, occ := 1
                  respBytes := 8, accs := svcAccs 1 (svcD.drop 7) } = true ∧
    (KMap.at (withSess base).prom.svc {} 2).valid = false := by
  unfold Chip.takesCmd; decide +kernel

/-- A service request to dispatch, one dispatched; an outcome with its port up and one with it down; a
promise that is missed. -/
theorem hyp_PromiseLife :
    (let r := { reqD with id := 4, kind := .svc }
     ([r].find? fun r => r.id == 4 && r.kind == .svc && !r.dispatched && !r.sent) = some r ∧
     ([{ r with dispatched := true }].find? fun r =>
       r.id == 4 && r.kind == .svc && r.dispatched && r.resp.isNone && r.fixed.isNone && !r.sent) = some { r with dispatched := true }) ∧
    (let r := { reqD with id := 4, fixed := some (0, .ue) }
     let y := { base with prom.reqs := [r] }
     y.pairRole = 0 ∧ (y.prom.reqs.find? fun r => r.id == 4 && !r.sent) = some r ∧ y.outcome r = some .ue ∧ r.cut = false ∧ y.portUp 3 = false ∧
     y.now ≤ r.td ∧ (y.setFld (lkPg 3 + 0x44) 2 0 4).portUp 3 = true ∧
     (let z := { y with prom.reqs := [{ r with cut := true }], now := 2000000 }
      z.outcome { r with cut := true } = some .ue ∧ r.promise = true ∧ r.td < z.now)) ∧
    (let r := { reqD with id := 4 }
     let y := { base with prom.reqs := [r], prom.eg := [⟨3, 2, 1, 1, 4⟩], now := 256 }
     (y.prom.reqs.find? fun r => r.id == 4 && r.promise && !r.sent) = some r ∧ y.egCells 4 = [2] ∧ y.outcome r = none ∧
     128 * (y.egCells 4).foldl max 0 ≤ y.now ∧ y.isContained (y.holderOf r) = false ∧
     y.handling (y.holderOf r) = none ∧ y.fenced1 (y.holderOf r) = false) := by decide +kernel

/-- An access of request 4 at the directory; a recall that its one holder answers, or that times out. -/
theorem hyp_DirectoryWork :
    (∀ w ∈ [true, false], ∀ c ∈ [true, false],
      let a := { accOf w 64 [] .waitDir with src := .req 4 0, b := 163840, rdc := c && !w }
      let y := { withIso with accs := [a], prom.reqs := [{ reqD with id := 4 }], dir.cache := [(0, [⟨Machine.setOf 163840, false⟩])] }
      (y.accs.find? fun a => a.src == .req 4 0 && a.phase == .waitDir) = some a ∧
      (y.accs.find? fun a => a.src == .req 4 0) = some a ∧ y.dirEarlier a = false ∧ y.dirBusy a.b = false ∧
      y.entOf a.b = none ∧ y.mapBit (Machine.setOf a.b) = false ∧ y.needsSet (Machine.setOf a.b) = false ∧
      y.oldBody a = false ∧ ((y.foundSet (Machine.setOf a.b)).ctrlCheck a).1 = true ∧
      ({ y with dir.mapOnes := [Machine.setOf a.b / 32], dir.cache := [] } : Chip).needsSet (Machine.setOf a.b) = true ∧ y.accHost a = some 9 ∧
      y.mayRegister 9 a.b = true ∧ y.freeEnt (Machine.setOf a.b) = some (128 * Machine.setOf a.b)) ∧
    (let t : Trk := ⟨5, 0, 163840, 1, [9], 0, false, .invalid, none, false, []⟩
     let y := { withIso with dir.trk := [t] }
     (y.dir.trk.find? fun t => t.rseq == 5 && t.holders.contains 9) = some t ∧ y.now ≤ t.issue + y.rclTmo ∧
     (y.dir.trk.find? fun t => t.rseq == 5) = some t ∧ y.hostLease 9 = some (3, ⟨1, 9, 1, 1000, 100, 1000000⟩) ∧
     leaseEff y.now ⟨1, 9, 1, 1000, 100, 1000000⟩ = 1 ∧ y.namedBy 9 (some (t.what / 32768)) = [7] ∧
     t.issue + y.rclTmo ≤ 100000000 ∧ (y.standsBy = false ∧ y.leads = false)) ∧
    (let w : RclWait := ⟨1, 5, 1, 9, none⟩
     let y := { withIso with dir.waits := [w] }
     y.dir.waits[0]? = some w ∧ y.waitReady w = true ∧ y.leaseLive 9 = true) := by decide +kernel

theorem hyp_DirectoryWork_look :
    base.flag (dirPg + 0x84) 0 = false ∧ (base.setFlag (dirPg + 0x84) 0 true).flag (dirPg + 0x84) 0 = true ∧
    (∃ e ∈ [(⟨7, 1, false, 0, [9], 0, 0⟩ : DirEnt)],
      ({ base with dir.ents := [(128 * Machine.setOf 7, e)] } : Chip).findEnt 7 = some e) ∧ base.findEnt 7 = none := by
  decide +kernel

/-- A region to create, to delete, ready, and one publish from its start to the end of its resync. -/
theorem hyp_PublishedRegions :
    withRights.takesCmd q1 false ∧ withRights.pubOk 1 0x14000000 0x14100000 4 = true ∧
    withRights.pubOk 1 0x14000001 0x14100000 4 = false ∧ withRights.freeRegion = some 0 ∧
    (let u : Pub := ⟨4, 6, 7, 0, 1, []⟩
     let x := { reqD with id := 4, kind := .publish, len := 2048, region := some 2, base := 6, new := 7 }
     let g := { regionD with queue := [u] }
     let y := { base with regions := [(2, g)], prom.reqs := [x] }
     y.region 2 = g ∧ (y.prom.reqs.find? fun x => x.id == u.req) = some x ∧ x.fixed = none ∧ x.sent = false ∧
     g.version = u.base ∧ regionD.version ≠ 5 ∧ y.pubReady x [163840] = true ∧ y.ctrlGrants x 163840 = true ∧
     y.entOf 163840 = none ∧ y.pairRole = 0) ∧
    (let g := { regionD with state := 3, creating := some q1, copyPos := 4 }
     g.creating = some q1 ∧ g.created = true ∧ g.count ≤ g.copyPos) := by
  unfold Chip.takesCmd; decide +kernel

/-! Links, routing, time, plans, shapers, gates. -/

/-- Link 3 in a state. -/
def lkIn (n : Nat) (x : Lnk) : Chip := ({ base with links := [(3, x)] }).setFld (lkPg 3 + 0x44) 2 0 n

/-- A flit of a type on VC 4 with a given first payload byte. -/
def flitD (typ b : Nat) : Flit := ⟨0, 4095, 4, typ, 0, BitVec.ofNat 8 b :: List.replicate 119 0, 0⟩

/-- In state UP with nothing unacknowledged: a NULL, a HOLD, a CREDIT, an XSTATE, the flit of a short
packet, and one of a packet that goes on. -/
theorem hyp_LinkFlits :
    (∀ f ∈ [flitD 0 0, flitD 7 0, flitD 5 1, flitD 5 2, flitD 4 1, flitD 2 0],
      let x : Lnk := { rx := [f], vcEn := 0xF0, sizes := List.replicate 8 16, peerSize := List.replicate 8 16
                       openRx := if f.typ = 2 then [(4, some ⟨3, 1, false⟩)] else [] }
      let y := lkIn 4 x
      x.rx = f :: [] ∧ y.lkState 3 = 4 ∧ seqDist (f.ack + 1) (y.unack 3) = 0 ∧ seqDist (y.rxNext 3) f.seq = 0 ∧
      gateBit x.vcEn f.vc = true ∧ f.fc = 0 ∧ x.onOff = false ∧ bufCount x f.vc < sizeOf x f.vc ∧
      ∀ w < 8, y.creditOf 3 w + 0 ≤ min (x.peerSize.getD w 0) 1023) ∧
    flitsNeeded (flitD 4 1).payload = some 1 ∧ byteAt (flitD 5 1).payload 0 = 1 ∧ byteAt (flitD 5 2).payload 0 = 2 ∧
    (let f := { flitD 0 0 with ack := 5 }
     seqDist ((lkIn 4 {}).txNext 3) ((lkIn 4 {}).unack 3) < seqDist (f.ack + 1) ((lkIn 4 {}).unack 3)) ∧
    (let y := (lkIn 4 {}).setFld (lkPg 3 + 0x4C) 11 0 1
     0 < seqDist (0 + 1) (y.unack 3) ∧ seqDist (0 + 1) (y.unack 3) ≤ seqDist (y.txNext 3) (y.unack 3)) := by
  decide +kernel

/-- Each timer of a link due. -/
theorem hyp_LinkTimers :
    (lkIn 4 {}).lkState 3 = 4 ∧
    (let y := { (lkIn 4 {}).setFld (lkPg 3 + 0x4C) 11 0 1 with now := 100000 }
     y.timerOn 3 = true ∧ (y.lk 3).uAt + 4608 ≤ y.now ∧
       (y.lk 3).timerAt + max (y.fld (lkPg 3 + 0x54) 15 0) 512 ≤ y.now) ∧
    (let x : Lnk := { owed := [(4, [0])], holdAt := some 0 }
     x.onOff = false ∧ (∃ e ∈ x.owed, ∃ t ∈ e.2, t + 8 * max (base.fld (lkPg 3 + 0x84) 15 8) 1 ≤ 100000) ∧
       x.holdAt = some 0 ∧ 0 + 2048 ≤ 2048) ∧
    (let x : Lnk := { vcEn := 0xF0, sizes := List.replicate 8 16 }
     let y := { lkIn 3 x with now := 2000 }
     y.lkState 3 = 3 ∧ lnkCfgOk x = true ∧ x.peer = none ∧ x.initAt + 2000 ≤ y.now) ∧
    (lkIn 2 {}).lkState 3 = 2 ∧ ({} : Lnk).lockAt + 1000000 ≤ 1000000 ∧
    ((lkIn 4 {}).linkRole 3).1 ≠ 0 ∧ ({} : Lnk).resetting = false ∧ (lkIn 2 {}).lkState 3 ≠ 3 ∧ (lkIn 4 {}).ft.had = false ∧
      (lkIn 4 {}).ftParent = none ∧
    (let y := { lkIn 4 {} with roles := [(3, some (2, 0))], now := 100000 }
     y.timeLink 3 = true ∧ (y.lk 3).askedAt + max (y.fld (ftPg + 0x6C) 15 0) 256 ≤ y.now) := by decide +kernel

def cwD (f : Flit) : Codeword := ⟨false, 1, 0x2D3, 1, 0, List.replicate 5 f⟩

/-- The INIT of a partner, SEEN, that resumes or not. -/
def initD (resume : Bool) : InitInfo :=
  ⟨2, 3, 0xF0, false, resume, true, 0, 0, 0, List.replicate 8 16⟩

theorem hyp_LinkTraining :
    (lkIn 1 {}).lkState 3 = 1 ∧ ({} : Lnk).ask = none ∧ ({} : Lnk).noPll = false ∧ ({} : Lnk).mustFull = true ∧
    (lkIn 1 {}).isContained (.link 3) = false ∧ (lkIn 1 {}).handling (.link 3) = none ∧ (lkIn 1 {}).fenced1 (.link 3) = false ∧
    (lkIn 1 {}).fld (lkPg 3 + 0x44) 11 8 + 1 ≤ max ((lkIn 1 {}).fld (lkPg 3 + 0xBC) 3 0) 1 ∧
    (∃ f ∈ [{ flitD 0 0 with crc := flitCrc (flitD 0 0) }], ∀ g ∈ (cwD f).flits, g.crc = flitCrc g) ∧
    (cwD (flitD 0 0)).uncorrectable = false ∧ (cwD (flitD 0 0)).mark = 0x2D3 ∧ (cwD (flitD 0 0)).lstate = 0 ∧ (lkIn 2 {}).lkState 3 = 2 ∧ (lkIn 4 {}).lkState 3 = 4 ∧
    ({ cwD (flitD 0 0) with uncorrectable := true } : Codeword).uncorrectable = true ∧
    (let x : Lnk := { vcEn := 0xF0, sizes := List.replicate 8 16, resume := true }
     let y := ((lkIn 3 x).setFlag (lkPg 3 + 0x48) 31 true).setFld (lkPg 3 + 0x48) 18 0 (3 * 4096 + 2)
     y.lkState 3 = 3 ∧ lnkCfgOk x = true ∧ lnkAgrees x (initD true) = true ∧ y.ft.had = false ∧ y.ftParent = none ∧ x.nbrLocked = false ∧ lnkAgrees x { initD true with fcMode := true } = false ∧
     (initD true).seen = true ∧ y.resumes 3 (initD true) = true ∧ y.resumes 3 (initD false) = false) := by decide +kernel

/-- The payload of a partner's INIT, and what it says (R278). -/
theorem hyp_LinkTraining_init :
    initOf ([2, 0, 3, 0xF0, 6, 0, 0, 0, 0, 0, 0] ++ (List.replicate 8 [16, 0]).flatten) = initD true := by decide +kernel

theorem hyp_FlitTime :
    ({} : Lnk).flitNo ≠ some (base.now * 25 / 128) ∧ ({} : Lnk).noPll = false ∧ ({} : Lnk).buf = [] ∧
    (∀ n ∈ [1, 2, 3, 4], (lkIn n { ask := some ⟨false, 16, true, 0⟩ }).lkState 3 = n) ∧ ({} : Lnk).inits = 0 ∧
    ((lkIn 4 {}).setFlag (lkPg 3 + 0x44) 3 true).inHold 3 = true ∧ (lkIn 4 {}).inHold 3 = false ∧
    (let x : Lnk := { replay := [flitD 4 1], replayPos := some 0 }
     x.replay[0]? = some (flitD 4 1) ∧ x.txq = [] ∧ (lkIn 4 x).lctlDue 3 = false) ∧
    (let x : Lnk := { xstateDue := true, timeDue := true, onOff := true, offNow := 16 }
     let y := fun (x : Lnk) => { lkIn 4 x with now := 122 }
     (y x).now * 25 / 128 % 25 = 23 ∧ (y x).lctlDue 3 = true ∧ x.replayPos = none ∧
     (y { x with xstateDue := false, creditDue := true, onOff := false }).lctlDue 3 = true ∧
     (y { x with xstateDue := false }).lctlDue 3 = false) ∧
    (∃ f ∈ [flitD 4 1], ({ buf := [f] } : Lnk).buf = f :: [] ∧ (lkIn 2 { buf := [f] }).lkState 3 = 2) ∧
    (lkIn 4 {}).ctlDue 3 = false ∧
    (let f : TxFlit := ⟨4, 4, 1, false, some ⟨1, 9, 4, 100, false, true⟩, List.replicate 120 0, none⟩
     let x : Lnk := { txq := [(4, [f])], vcEn := 0xF0 }
     let y := (lkIn 4 x).setFld (lkPg 3 + 0x88 + 4 * 4) 25 16 5
     (∀ e ∈ x.txq, ∀ f ∈ e.2, ∀ r ∈ f.resv.toList, y.now ≤ r.td) ∧ headResv x 4 = true ∧ y.now * 25 / 128 % 25 < 23 ∧ y.planVc 3 0 = none ∧ KMap.at x.txq [] 4 = f :: [] ∧ y.canSend 3 4 = true ∧
     x.onOff = false ∧ f.resv = some ⟨1, 9, 4, 100, false, true⟩ ∧ y.now ≤ 100) := by decide +kernel

/-- Chip 1 at (0, 0, 0) of a torus of 4, link 10 in direction 0, link 11 in direction 1, chip 2 at
(1, 0, 0), link 3 a host's. -/
theorem hyp_Routing :
    let y := ((({ base with roles := [(10, some (2, 0)), (11, some (2, 1))], coord := [(2, 0x80000001)]
                            regs := [(rtPg + 0x40, 0x80000001)] }).setFld (rtPg + 0x44) 3 0 3).setFld
      (lkPg 10 + 0x44) 2 0 4).setFld (rtPg + 0x50) 6 0 96
    y.addressed = true ∧ (y.linkRole 11).1 = 2 ∧ 2 ≠ y.selfChip ∧ Word.bit (KMap.at y.coord 0 2) 31 = true ∧
    y.nextHop (KMap.at y.coord 0 2) = some (0, false) ∧ (y.pickLink (y.bundle 0) 9 2).map (·.1) = some 10 ∧
    y.selfChip = 1 ∧ (y.linkRole 3).1 = 1 ∧ Word.bit (KMap.at y.coord 0 3) 31 = false ∧
    respClass { hdrD with typ := 8 } = true ∧ 96 ≤ y.fld (rtPg + 0x50) 6 0 ∧ y.roleRefused 3 2 6 = true ∧
    y.roleRefused 3 2 5 = false ∧ base.fld (rtPg + 0x50) 6 0 < 96 ∧ y.pairRole = 0 ∧
    (let z := y.setFld (rtPg + 0x50) 6 0 10
     z.fld (rtPg + 0x50) 6 0 < 96 ∧ z.roleRefused 10 0 0 = false ∧ z.linkRole 10 = (2, 0) ∧ z.lkState 10 = 4 ∧
     (z.lk 10).resetting = false ∧ (z.lk 10).noPll = false ∧ (z.lk 10).ask = none) := by decide +kernel

/-- A time link whose offset is the parent's; an authorised host with a plan of one record that ends the
list, to be taken at the next multiple of 128 that is far enough ahead. -/
theorem hyp_TimeAndPlans :
    (let y := { (((lkIn 4 { nbrLocked := true }).setFlag (ftPg + 0x44) 7 true).setFld (ftPg + 0x44) 6 0 3) with
                  roles := [(3, some (2, 0))], ft.had := true }
     y.timeLink 3 = true ∧ y.isMaster = false ∧ y.ft.had = true ∧ y.ftParent = some 3) ∧
    (base.setFld (ftPg + 0x58) 1 0 1).ftState ≤ 3 ∧
    (let y := { base with regs := [(rtPg + 0x40, 0x80000001), (rtPg + 0x60, 0x80000009)]
                          rights.linkHost := [(3, some 9)]
                          plan := { named := true, pend := [(0, 0xF)] } }
     y.addressed = true ∧ y.spoofed 3 9 = false ∧ y.standsBy = false ∧ y.planAuth 9 = true ∧ y.planAuth 8 = false ∧
     y.planPending = false ∧ (y.reg (planPg + 0x48)).toNat = 0 ∧ y.planActive = false ∧ (100096 : Nat) % 128 = 0 ∧
     y.now + 100000 ≤ 100096 ∧ y.plan.named = true) := by decide +kernel

theorem hyp_TimeAndPlans_list :
    recType 0xF = 0xF ∧ planList [(0, 0xF)] 16384 0 = some [] ∧ base.planOk 4096 [] = true := by decide +kernel

theorem hyp_ShapersAndGates :
    (let h : Held := ⟨3, 1, 64, .pin "x" true, false, none⟩
     let y := { base with held := [h], shapers := [(64 * 3 + 1, { en := true, burst := 5, entry := some 0 })] }
     y.waiting 3 1 = [h] ∧ (y.shaper 3 1).entry = some 0 ∧ (y.shaper 3 1).cfgDue = none ∧ 0 ≤ tokAt (y.shaper 3 1) 0 ∧
     tokAt { tok := -5 } 0 < 0 ∧ (y.shaper 3 2).entry = none ∧ (y.shaper 3 2).cfgDue = none) ∧
    (let g : Gate := { admin := [(0, 0x0000FF08 * 256)], cycle := 128, take := 10000 }
     commitErr g 0 = 0 ∧ commitErr { g with nent := 0 } 0 ≠ 0) ∧
    listNo true 0 = some 4 ∧ listNo false 3 = some 3 := by decide +kernel

/-! The Ethernet port, sessions, events, resets, pins. -/

/-- A frame for the chip from the address of session 1, carrying a BRD header of SEQ 1 (R340). -/
def frameD (kind : FrameKind) (payload : List Byte) (port : Nat) : EthFrame :=
  { len := 100, fcsOk := true, tpids := [], vid := 0, pcp := 0, dstMac := 2 ^ 48 - 1, srcMac := 1, kind := kind, af6 := false
    ipPlain := true, ipChecksumOk := true, dstIp := 0, srcIp := 0, srcPort := 0, dstPort := port, udpChecksum := 0
    udpChecksumOk := true, udpPayload := payload }
def brdBytes : List Byte := [0x14, 0x02, 0x01, 0x10, 1, 0, 0, 0, 7, 0, 1, 0] ++ List.replicate 20 0

/-- The port is UP. -/
def ethOn : Chip := (withSess base).setFld (enPg + 0x44) 1 0 2

theorem hyp_EthernetPort :
    base.ethUp = false ∧ ethOn.ethUp = true ∧
    (∃ f ∈ [frameD .udp brdBytes (ethOn.fld (enPg + 0x78) 15 0)], ethOn.frameBad f = none ∧
      ¬ (f.dstPort = 319 ∨ f.dstPort = 320) ∧
      ∃ d ∈ (datagramOf f.udpPayload).toList, xhtBad d.hdr = false ∧ ethOn.pairRole = 0 ∧
        ethOn.sessMatches d.hdr.session f = true ∧ ethOn.chanBad d.hdr = false ∧ d.hdr.typ ≠ 1 ∧
        ethOn.inBytes + f.len ≤ 1048576 ∧ ethOn.pfcOn f.pcp = false ∧ d.hdr.chan < 17 ∧
        seqPlace (ethOn.winOf d.hdr.session d.hdr.chan) d.hdr.seq = .new ∧
        (ethOn.winOf d.hdr.session d.hdr.chan).ents = [] ∧
        seqPlace { h := some 5000 } d.hdr.seq = .old) ∧
    ethOn.frameBad { frameD .udp [] 0 with fcsOk := false } = some 0x88 ∧
    ethOn.frameBad (frameD .discovery [0x4B, 0x56, 0x01] 0) = none ∧ ethOn.frameBad (frameD .toFirmware [] 0) = none ∧
    ethOn.frameBad (frameD .udp [] 319) = none ∧ ethOn.frameBad (frameD .pfc [] 0) = none ∧
    (ethOn.setFlag (enPg + 0x40) 3 true).flag (enPg + 0x40) 3 = true ∧ ethOn.eth.lastAdv = none := by decide +kernel

theorem hyp_EthernetPort_more :
    ethOn.fld (enPg + 0x44) 1 0 = 2 ∧ (base.setFld (enPg + 0x44) 1 0 1).fld (enPg + 0x44) 1 0 = 1 ∧
    base.isFenced .eth = false ∧ (base.lk 40).noPll = false ∧ base.held = [] ∧ base.prom.reqs = [] ∧
    ethOn.standsBy = false ∧ ethOn.sessValid 1 = true ∧
    (let m : Msg := ⟨5, [], 0⟩
     let y := { ethOn with eth.ev := [(1, { next := 6, unacked := [m] })] }
     (KMap.at y.eth.ev {} 1).unacked.find? (fun x => x.seq == 5) = some m ∧
     m.last + 1000 * max (y.fld (enPg + 0x84) 15 0) 10 ≤ 65535000) := by decide +kernel

/-- A fabric MGMT packet of host 9, authorised. -/
def mgmtP (op n addr : Nat) (d : List Word) : Packet :=
  ⟨{ hdrD with cls := 4, len := 8 + 4 * d.length }, [BitVec.ofNat 8 op, BitVec.ofNat 8 n, 0, 0] ++ leBytes 4 addr ++ wordBytes d⟩

theorem hyp_SessionsAndMgmt :
    (withSess base).sessValid 1 = true ∧ winEnt ((withSess base).winOf 1 16) 1 = none ∧
    (withSess base).isFenced (.part ((withSess base).sessPart 1)) = false ∧
    (withSess base).partResetting ((withSess base).sessPart 1) = false ∧ (withSess base).takesCmd q0 true ∧
    sessFormOk [0x00002011, 0, 0, 0, 0, 0, 0, 0] = true ∧ sessFormOk [0] = false ∧
    (withSess base).sessLimits 255 [0x00002011, 0, 0, 0, 0, 0, 0, 0] = true ∧ (withSess base).errs.armed = [] ∧
    (let y := { base with regs := [(rtPg + 0x40, 0x80000001), (glbPg + 0x64, 0x80000009)], rights.linkHost := [(0, some 9)] }
     y.addressed = true ∧ y.spoofed (y.portOf hdrD) 9 = false ∧ y.mgmtAuth 9 = true ∧ y.mgmtAuth 8 = false ∧
     runOk glbPg 64 = true ∧ payloadIs (mgmtP 1 64 glbPg []).payload 1 glbPg 64 [] = true ∧
     payloadIs (mgmtP 2 1 (glbPg + 0x80) [5]).payload 2 (glbPg + 0x80) 1 [5] = true ∧
     (mgmtP 2 1 (glbPg + 0x80) [5]).payload.length = (mgmtP 2 1 (glbPg + 0x80) [5]).hdr.len ∧ y.standsBy = false) ∧
    base.coreOut = 0 ∧
    (let b : TmrBad := ⟨glbPg + 0x80, 1, 5⟩
     let y := { base with tmr := [b] }
     y.tmr = [b] ∧ y.badCopies b.addr = [b]) := by
  unfold Chip.takesCmd; decide +kernel

/-- A pending record, one sealed in an earlier cell, resets that begin and that end. -/
theorem hyp_EventsAndResets :
    (let r : EvRec := ⟨0, 0, 0, 0, 3, 0, 1, 0, 0, 1, 1, 9, 4, 10⟩
     let y := { base with parts.pend := [(256 + 3, some r)], parts.sealed := [(0, r)], hloc := [(9, 0x80000001)], now := 10000 }
     y.evPend 1 3 = some r ∧ r.time ≠ 0 ∧ r.first + 1000 * r.time ≤ y.now ∧ 0 < r.first + 1000 * r.time ∧
     y.parts.sealed = [(0, r)] ∧ 0 / 128 < y.now / 128 ∧ r.path = 1 ∧ Word.bit (KMap.at y.hloc 0 r.host) 31 = true) ∧
    base.clResetting 3 = false ∧ base.ownerOf 3 = none ∧
    (let y := { base with parts.clReset := [(3, some 0)], parts.resetting := [(1, some 0)] }
     y.clResetting 3 = true ∧ y.coresOff 3 = true ∧ y.copiesRest 3 = true ∧ KMap.at y.parts.resetting none 1 = some 0 ∧
     (∀ k < 32, (y.ctxAt (32 * 1 + k)).state = 0)) ∧ base.partResetting 1 = false ∧ base.errs.chipUe = none ∧
    base.boot.resetDue = false ∧ base.boot.tripped = false ∧ base.boot.on = false ∧ base.boot.low = false := by
  decide +kernel

/-- A running chip past S0, alert inputs asserted, an alert pulse that is over. -/
theorem hyp_PinsAndClocks :
    (let y := { base.setFld (stagePg + 0x40) 3 0 8 with boot.on := true, ref := 20000000 }
     y.pastS0 = true ∧ (y.setFld (stagePg + 0x40) 5 4 1).stageState = 1 ∧ y.errs.chipUe = none ∧
     (headPage glbPg).isSome = true ∧ y.twarnAt ≤ 110 ∧ (-128 : Int) ≤ y.twarnAt) ∧ base.pastS0 = false ∧
    (let y := { base with chain.inAt := some 0, duo.inAt := some 0, chain.alertAt := some 0, duo.outAt := some 0, ref := 100000 }
     y.chain.inAt = some 0 ∧ 0 + 100000 ≤ y.ref ∧ y.flag (chPg + 0x44) 9 = false ∧ y.flag (pairPg + 0x48) 13 = false ∧
     y.boot.low = false) ∧
    (base.setFlag (chPg + 0x48) 0 true).alertsOn ≠ 0 ∧ base.alertsOn = 0 ∧ base.chain.inAt = none := by decide +kernel

theorem hyp_RegisterWrites :
    pageRef 0x4000 = none ∧ pageRef glbPg = some ⟨0x01, 0, glbPg, 0⟩ ∧
    (∃ r ∈ (pageRef (glbPg + 0x80)).toList, mayWrite .triad r = true ∧ commandWindow r = false ∧ base.beyond r = false ∧
      isHigh (glbPg + 0x80) = false ∧ mayWrite (.newt 0) r = false) ∧
    (∃ r ∈ (pageRef (enPg + 0x48)).toList, mayWrite .triad r = true ∧ commandWindow r = false ∧ base.beyond r = false ∧
      isHigh (enPg + 0x48) = false ∧ isLow (enPg + 0x48) = true ∧ writable (enPg + 0x48) = true) ∧
    base.errs.armed = [] ∧ base.tmr = [] ∧ Word.bits (0xE1000001 : Word) 31 24 = 0xE1 ∧ Word.bit (0xE1000001 : Word) 0 = true := by
  decide +kernel

theorem hyp_FencesAndChecks :
    (∀ u ∈ [UnitId.frog 207, .copy 207 1, .cluster 3, .link 95, .cv 31, .eth, .newt 207 127],
      unitOfKind (unitKind u).1 (unitKind u).2 = some u ∧ causeFits u .logic = true ∧ causeFits u .widen = false ∧
      base.isContained u = false ∧ base.handling u = none ∧ base.fenced1 u = false) ∧
    (let f : FenceRec := ⟨.link 5, .order, 0, false, true⟩
     let y := { base with errs.fences := [f] }
     y.fenced1 (.link 5) = true ∧ unitOfKind 6 5 = some (.link 5) ∧ (y.errs.fences.find? fun f => f.unit == .link 5) = some f ∧
     y.mayLift f = true ∧ (y.chainOf (.link 5)).drop 1 = [] ∧
     { base with errs.fences := [{ f with contained := false }] }.contained1 (.link 5) = false) ∧
    Word.bits (0x00000506 : Word) 3 0 = 6 ∧ Word.bits (0x00000506 : Word) 23 8 = 5 ∧
    (∃ r ∈ (headPage (stPg 3)).toList, freezeActs r.ty = true) ∧ (∃ r ∈ (headPage glbPg).toList, freezeActs r.ty = false) ∧
    (∃ r ∈ (headPage (nwPg 3)).toList, ∃ b ∈ List.finRange 32, repOf r.ty r.inst b = some .note) := by decide +kernel

theorem hyp_Checks :
    (base.cv 3).queue.length < 8 ∧ base.isFenced (.cv 3) = false ∧ base.flag (blkCtrl (cvPg 3)) 0 = true ∧
    (let r : CvStream := ⟨0, 1, 0, false, true, 1, 4, 0⟩
     let x : Cv := { run := some r, pos := 1 }
     x.run = some r ∧ x.ended = none ∧ r.len ≤ x.pos ∧ ({ queue := [r] } : Cv).run = none) := by decide +kernel

/-! The pair, bring-up, attestation, the chain, the rest. -/

/-- Chip 1, paired with chip 2, in a role of the pair, its mirror link 84 UP. -/
def pairIn (role : Nat) : Chip :=
  (((({ base with regs := [(rtPg + 0x40, 0x80000001)] }).setFlag (pairPg + 0x40) 0 true).setReg (pairPg + 0x44)
    0x80000002).setFld (pairPg + 0x48) 2 0 role).setFld (lkPg 84 + 0x44) 2 0 4 |>.setReg (lkPg 84 + 0x48) 2

def msgD (kind ord arg0 arg1 : Nat) : PairMsg := ⟨kind, 2, ord, 0, arg0, arg1, [], 84⟩

theorem hyp_PairMessages :
    (pairIn 2).paired = true ∧ (pairIn 2).flag (pairPg + 0x44) 31 = true ∧ ((pairIn 2).linkRole 84).1 = 3 ∧
    (pairIn 2).fld (lkPg 84 + 0x48) 11 0 = (pairIn 2).fld (pairPg + 0x44) 11 0 ∧ (msgD 1 0 0 0).link = 84 ∧
    ((pairIn 2).linkRole 3).1 ≠ 3 ∧ ((pairIn 2).setReg (lkPg 84 + 0x48) 7).fld (lkPg 84 + 0x48) 11 0 ≠ 2 ∧
    (pairIn 1).prom.reqs = [] ∧ (∃ z ∈ [(onChip (fun c => c.activateBlk (c.ctrlOf 0) 0 0) { chip := pairIn 2 }).readBlk
      ((pairIn 2).ctrlOf 0) 0 3 64], z.1.isSome = true) ∧
    (pairIn 2).standsBy = true ∧ (pairIn 1).standsBy = false ∧ (pairIn 1).pairRole = 1 ∧ (pairIn 3).pairRole = 3 ∧
    (pairIn 2).prom.seq = 1 ∧ (pairIn 2).duo.tokens = [] ∧ (pairIn 2).bodiesOf 7 = [] ∧ (pairIn 2).duo.live = [] ∧
    (pairIn 1).held = [] ∧ 1 % 2 = 1 ∧
    (let b : PairIn := ⟨7, 0, .fleson 3 4 false pktD⟩
     let y := { pairIn 2 with duo.inbuf := [b], duo.relays := [5], duo.log := [b], duo.ids := [(7, 5)]
                              duo.outs := [⟨5, 0, 9, none⟩] }
     y.bodiesOf 7 ≠ [] ∧ y.duo.inbuf[0]? = some b ∧
     (y.duo.tokens.any fun t => t.what.isNone && t.arg0 == b.arg0) = false ∧ 5 ∈ y.duo.relays ∧
     (y.duo.log.find? fun b => ((y.duo.ids.filter fun e => e.2 == 5).map (·.1)).contains b.arg0) = some b ∧
     y.duo.outs.any (fun o : PairOut => o.ord == 5 && o.idx == 0) = true ∧
     b.tick + 1000 * max (y.fld (pairPg + 0x6C) 31 16) 1 ≤ 65535000 ∧ (∀ t ∈ y.duo.tokens, t.ord ≠ y.prom.seq)) ∧
    0 < (pairIn 2).dataBlocks ∧ (pairIn 2).isDefect ((pairIn 2).ctrlOf 0) 0 = false ∧
    ((pairIn 2).mc ((pairIn 2).ctrlOf 0)).inject = 0 := by decide +kernel

/-- Epoch 3 has ended with a digest that agrees, and with one that does not. -/
theorem hyp_PairMessages_epoch :
    let y := fun d => { (pairIn 2).setFld (pairPg + 0x70) 9 0 2 with duo.digests := [(1, d)], now := 4 * 2 ^ 20 }
    max ((y 0).fld (pairPg + 0x70) 9 0) 2 = 2 ∧ 0 < epochOf (y 0).now ∧ 2 ≤ epochOf (y 0).now - 1 ∧ (y 0).duo.epoch = none ∧
    (y 0).duo.cmpFrom ≤ epochOf (y 0).now - 1 - 2 := by decide +kernel

theorem hyp_PairCrown :
    (∀ n ∈ [1, 2, 3, 4, 5], (pairIn n).pairRole = n) ∧
    (let y := { pairIn 1 with now := 4096, duo.alone := false, duo.boundary := some 4096 }
     y.duo.renewAt + 250 ≤ y.now ∧ y.leads = true ∧ y.duo.ta + 900 ≤ y.now ∧ y.boundaryFrom y.now = y.now) ∧
    (let y := { pairIn 1 with now := 4096, duo.alone := true, duo.copyAt := some (pairIn 1).dataBlocks }
     (∃ a ∈ y.duo.copyAt, y.dataBlocks ≤ a) ∧ y.boundaryFrom y.now = y.now ∧ 0 < y.dataBlocks ∧ y.held = [] ∧
     y.prom.reqs = [] ∧ y.duo.live = []) ∧
    ((pairIn 1).setFlag (pairPg + 0x40) 2 true).flag (pairPg + 0x40) 2 = true ∧ (pairIn 1).lag = false ∧
    ((pairIn 5).setFlag (pairPg + 0x40) 3 true).flag (pairPg + 0x40) 3 = true ∧ (pairIn 5).mirrors = [84] ∧
    (let y := { pairIn 2 with now := 4096 }
     y.pair (pairPg + 0x54) + 100 ≤ y.now ∧ y.lag = false ∧ y.duo.inbuf = [] ∧ y.duo.ready = [] ∧ y.duo.relays = [] ∧
     y.mirrors = [84]) ∧
    (pairIn 5).duo.formed = false ∧ (pairIn 5).flag (pairPg + 0x48) 13 = false ∧ (pairIn 5).duo.inAt = none ∧
    ((pairIn 5).setFlag (pairPg + 0x40) 1 true).flag (pairPg + 0x40) 1 = true ∧
    0 + 1000 * max ((pairIn 3).fld (pairPg + 0x6C) 15 0) 1 ≤ 65535000 ∧
    (let y := { (pairIn 4).setFld (pairPg + 0x74) 1 0 2 with duo.digests := [(6, (pairIn 4).digestOf 6)] }
     y.pairRole = 4 ∧ y.fld (pairPg + 0x74) 1 0 = 2 ∧
     (y.duo.digests.find? fun e => e.1 == 6) = some (6, y.digestOf 6)) ∧
    (let y := { (pairIn 1).setFlag (pairPg + 0x48) 13 true with duo.seenLow := true }
     y.flag (pairPg + 0x48) 13 = true ∧ y.duo.seenLow = true) := by decide +kernel

/-- Stage k runs, in time and late. -/
def stageAt (k ref : Nat) : Chip :=
  { (base.setFld (stagePg + 0x40) 3 0 k).setFld (stagePg + 0x40) 5 4 0 with boot.on := true, ref := ref }

theorem hyp_BringUp :
    (∀ k ∈ [0, 1, 2, 3, 4, 5, 6, 7, 8], (stageAt k 0).inStage k = true ∧ (stageAt k 0).pastBound = false ∧
      (stageAt k (10 ^ 15)).pastBound = true ∧ (stageAt k 0).boot.cfg = [] ∧ (stageAt k 0).stageState = 0) ∧
    (stageAt 1 0).recovery = false ∧ (stageAt 1 0).boot.manifest = [] ∧ (stageAt 1 0).chainValid = false ∧
    127 % 128 = 127 ∧ (stageAt 4 0).defects 0 + [(0, 9, 1)].length ≤ 64 ∧ (stageAt 4 0).fld (memPg + 0xAC) 1 0 ≠ 2 ∧
    ((stageAt 4 0).setFld (memPg + 0xAC) 1 0 2).fld (memPg + 0xAC) 1 0 = 2 ∧ (stageAt 5 0).boot.placed = false ∧
    manifestOk (List.replicate 4096 0) = false ∧
    (({ sys := st (stageAt 5 0) |>.sys, pending := [] } : State).sys.section false [] 2) = none ∧
    ((stageAt 6 0).setFlag (ftPg + 0x40) 0 true).isMaster = true ∧ (stageAt 6 0).isMaster = false ∧
    (stageAt 6 0).ftState ≠ 2 := by decide +kernel

theorem hyp_Attestation :
    base.att.making = none ∧ base.flag (attPg + 0x74) 1 = false ∧
    (let y := ((base.setFlag (attPg + 0x74) 1 true).setReg (attPg + 0x94) 5)
     y.flag (attPg + 0x74) 1 = true ∧ y.pair (attPg + 0x8C) < y.pair (attPg + 0x94)) ∧
    base.pair (attPg + 0x94) ≤ base.pair (attPg + 0x8C) ∧
    (let y := { base with parts.ctxs := [(33, { state := 2, starting := some q1 })] }
     (y.ctxAt 33).starting = some q1 ∧ (List.replicate 48 (7 : Byte)).length = 48 ∧ y.att.log.length < 4096) := by
  decide +kernel

/-- A request of the chain head for position 5, its CRC computed (R464). -/
def chainD (typ : Nat) (payload : List Byte) : ChainFrame :=
  let f : ChainFrame := ⟨typ, 0, 5, false, 0, true, 9, payload, payload.length, 0, false⟩
  { f with crc := chainCrc f }

/-- Unit 5 of a chain that is up. -/
def onChain (c : Chip) : Chip :=
  { (c.setFlag (chPg + 0x40) 31 true).setFld (chPg + 0x40) 5 0 5 with boot.on := true }

theorem hyp_ManagementChain :
    base.chainUp = false ∧ (onChain base).chainUp = true ∧
    (∀ f ∈ [chainD 4 [1, 0, 0, 0, 0, 0, 0, 0, 0], chainD 4 [2, 0, 0, 0, 0, 0, 0, 0, 0xA7], chainD 4 [3, 0, 0, 0, 1, 0, 0, 0, 0x96],
        chainD 4 [4, 0, 0, 0, 1, 0, 0, 0, 0], chainD 5 [1, 0, 0, 0, 0, 0, 0, 0, 0, 1], chainD 5 [2, 0, 0, 0, 0, 0x10, 0, 0, 0, 0],
        chainD 5 ([3, 0, 0, 0, 0, 0, 0, 0, 1, 0, 0, 0, 0, 0, 0, 0] ++ [7]), chainD 4 [9]],
      chainGood f = true ∧ (onChain base).chainTarget f = true ∧ f.bcast = false ∧ (onChain base).chain.kept = none ∧
      unknownOp f = decide (f.payload = [9])) ∧
    chainGood { chainD 4 [1] with aborted := true } = false ∧ (onChain base).chainTarget { chainD 4 [1] with dst := 6 } = false ∧
    chainGood (chainD 1 (List.replicate 16 0)) = true ∧ chainGood (chainD 6 (List.replicate 8 0)) = true ∧
    base.chainValid = false ∧ (onChain base).chainValid = true ∧
    ((onChain base).setFld (stagePg + 0x40) 5 4 3).stageState = 3 ∧ (onChain base).svc = 0 ∧
    ((onChain base).setFld (stagePg + 0x40) 5 4 1).isReady = true ∧
    ((onChain base).setFld (stagePg + 0x6C) 2 0 3).straps % 4 = 3 ∧
    (let y := ((onChain base).setFld (chPg + 0x44) 1 0 1).setFld (chPg + 0x44) 4 2 1
     y.svc = 1 ∧ y.retireStep = 1 ∧ y.paired = false ∧ y.rights.leases = [] ∧ y.rights.exts = [] ∧ y.parts.ctxs = []) ∧
    (let y := ((onChain base).setFld (chPg + 0x44) 1 0 1).setFld (chPg + 0x44) 4 2 3
     y.svc = 1 ∧ y.retireStep = 3 ∧ y.reclaimed = true) := by decide +kernel

theorem hyp_IdleTick : base.ft.debt.natAbs < 16 ∧ base.duo.tokens = [] ∧
    (let y := { base with ft.debt := 16, now := 256 }
     16 ≤ y.ft.debt.natAbs ∧ y.ft.slewAt + 256 ≤ y.now ∧ y.duo.tokens = [] ∧ 0 < y.ft.debt ∧ -y.ft.debt < 0) := by
  decide +kernel

/-- A state in canonical form that a tick leaves for a next one. -/
theorem hyp_InvKept : State.reset.Inv ∧ ∃ t, step State.reset = .next t := ⟨by unfold State.Inv; decide +kernel, _, rfl⟩

theorem hyp_MisalignedAccess : accSize 2 = 4 ∧ (0 + 2) % 2 ^ 32 % accSize 2 ≠ 0 ∧
    fetchesAll 0 {} [(0x00202083, .load 2 1 0 2), (0x00102123, .store 2 0 1 2)] ∧
    fetchesAll 128 {} [(0x00202083, .load 2 1 0 2), (0x00102123, .store 2 0 1 2)] := by
  unfold fetchesAll Sys.nextIs; decide +kernel

/-- Both ends of the exact range of shifts and of s64. -/
theorem hyp_AccumulatorBounds : (-2 ^ 63 : Int) ≤ 2 ^ 63 - 1 ∧ (24 : Nat) ≤ 24 ∧ 24 < 25 := by decide +kernel

/-! Well-formed commands: for every check of `Instr.wf` a term that it refuses, and some at the ends of
their ranges that it accepts. -/

theorem wf_refuses_CmdReq : ([⟨256, 0, 0, 0⟩, ⟨0, 32, 0, 0⟩, ⟨0, 0, 2 ^ 32, 0⟩, ⟨0, 0, 0, 65536⟩] : List CmdReq).all
    (fun q => !q.wf && !(Instr.nop q).wf && !(Instr.xhtTime q).wf && !(Instr.tableWrite q 0 []).wf) = true := by decide +kernel

theorem wf_refuses_commands : ([.fgPost 0 (.newt 128) 0, .snoopInv 0 ⟨0, 0⟩ 0, .snoopInv 0 ⟨0, 0x1FFFFF⟩ 2,
    .arbGrant (.bank 208 0) 0 [] [], .arbGrant (.bank 0 32) 0 [] [], .arbGrant (.mc 256) 0 [] [], .arbGrant (.vc 96) 0 [] [],
    .arbGrant (.mesh 234 0) 0 [] [], .arbGrant (.mesh 0 5) 0 [] [], .arbGrant (.mc 0) 0 [⟨0, 16, 1, 0⟩] [],
    .ctxAssign q0 32 0 0 [], .ctxAssign q0 0 (2 ^ 40) 0 [], .ctxAssign q0 0 0 (2 ^ 19) [], .ctxAssign q0 0 0 0 [208],
    .ctxStart q0 32, .ctxKill q0 32, .ctxKillDrain q0 32, .ctxRelease q0 32, .invRange q0 32 false false 0 0,
    .invRange q0 0 false false (2 ^ 48) 0, .invRange q0 0 false false 0 (2 ^ 28), .extGrant q0 64 0 0, .extGrant q0 0 8192 0,
    .extGrant q0 0 0 16384, .extBind q0 8192 0 0, .extBind q0 0 16384 0, .extBind q0 0 0 4096, .extReturn q0 true 64 0 0,
    .extReturn q0 true 0 8192 0, .extHold q0 8192 0, .extHold q0 0 16384, .extRelease q0 8192 0, .isoSet q0 4096 0 0 0 0,
    .isoClear q0 4096, .leaseOpen q0 16384 0 0, .leaseOpen q0 0 (2 ^ 26) 0, .leaseOpen q0 0 0 (2 ^ 26), .leaseClose q0 4096,
    .leaseRenew (.xht ⟨256, 0, 0, 0⟩), .leaseRenew (.fabric 97 pktD), .linkBind q0 96 true 0, .linkBind q0 0 true 16384,
    .pubCreate q0 (2 ^ 40) 0 0 0, .pubCreate q0 0 (2 ^ 40) 0 0, .pubCreate q0 0 0 65536 0, .pubCreate q0 0 0 0 (2 ^ 64),
    .pubDelete q0 1024, .brd q0 8 0 0 0, .brd q0 0 (2 ^ 40) 0 0, .brd q0 0 0 (2 ^ 21) 0, .brd q0 0 0 0 (2 ^ 24),
    .svcReq q0 256 [], .mgmtRead (.xht q0) 2 1, .mgmtRead (.xht q0) (2 ^ 25) 1, .mgmtRead (.xht q0) 0 0,
    .mgmtRead (.xht q0) 0 65, .mgmtRead (.xht ⟨256, 0, 0, 0⟩) 0 1, .mgmtWrite (.xht q0) 0 [], .sessSet q0 256 (List.replicate 8 0),
    .sessSet q0 0 [0], .sessClear q0 256, .svcSet q0 [0], .fence (.newt 0 128) .data, .fence (.newt 208 0) .data,
    .fence (.frog 208) .data, .fence (.copy 0 2) .data, .fence (.cluster 208) .data, .fence (.mc 256) .data,
    .fence (.link 96) .data, .fence (.cv 32) .data, .fenceContained (.part 64), .errInjectReport 1 0,
    .errInjectFlipOne (2 ^ 25) 0, .errInjectFlipTwo 4 0, .freeze 2048 true, .pairCmdForce 256, .stageS0 (2 ^ 28) 0,
    .stageS0 0 8, .modelHash 0 0 [], .registerWrite .triad 2 0, .registerWrite .triad (2 ^ 25) 0, .stackHot 8 0] : List Instr).all
    (fun i => !i.wf) = true := by decide +kernel

theorem wf_refuses_packets : ([{ hdrD with typ := 16 }, { hdrD with cls := 8 }, { hdrD with dstChip := 4096 },
    { hdrD with dstPort := 128 }, { hdrD with chk := 4 }, { hdrD with srcHost := 16384 }, { hdrD with tag := 65536 },
    { hdrD with srcChip := 4096 }, { hdrD with srcPort := 128 }, { hdrD with status := 16 }, { hdrD with offset := 2 ^ 40 },
    { hdrD with value := 2 ^ 64 }, { hdrD with deadline := 2 ^ 24 }, { hdrD with rseq := 65536 }, { hdrD with kind := 4 },
    { hdrD with len := 2 ^ 21 }, { hdrD with check := 2 ^ 64 }] : List PktHdr).all (fun h => !(Instr.rd 0 ⟨h, []⟩).wf &&
      !(Instr.forward 0 0 ⟨h, []⟩).wf) = true ∧
    ([.wr 128 pktD, .rdc 128 pktD, .forward 0 8 pktD, .forward 128 0 pktD, .recallAck 128 pktD, .publish 128 pktD, .time 128 pktD,
      .planLoad 128 pktD, .planCommit 128 pktD, .planAbort 128 pktD] : List Instr).all (fun i => !i.wf) = true := by
  decide +kernel

theorem wf_refuses_links : ([{ flitD 0 0 with seq := 4096 }, { flitD 0 0 with ack := 4096 }, { flitD 0 0 with vc := 8 },
    { flitD 0 0 with typ := 8 }, { flitD 0 0 with fc := 4 }, { flitD 0 0 with payload := [] },
    { flitD 0 0 with crc := 2 ^ 32 }] : List Flit).all (fun f => !(Instr.nullFlit 0 f).wf && !(Instr.sequencedFlit 0 f).wf &&
      !(Instr.lctlCredit 0 f).wf && !(Instr.lctlXstate 0 f).wf && !(Instr.holdFlit 0 f).wf && !(Instr.codeword 0 (cwD f)).wf) = true ∧
    ([{ cwD (flitD 0 0) with lstate := 128 }, { cwD (flitD 0 0) with flits := [] }] : List Codeword).all
      (fun c => !(Instr.codeword 0 c).wf) = true ∧
    ([{ initD true with chip := 4096 }, { initD true with link := 128 }, { initD true with vcEn := 256 },
      { initD true with rxNext := 4096 }, { initD true with session := 65536 }, { initD true with peerSession := 65536 },
      { initD true with free := [] }, { initD true with free := List.replicate 8 65536 }] : List InitInfo).all
      (fun i => !(Instr.initFlit 0 i).wf) = true := by decide +kernel

theorem wf_refuses_frames : ([{ frameD .udp [] 0 with vid := 4096 }, { frameD .udp [] 0 with pcp := 8 },
    { frameD .udp [] 0 with dstMac := 2 ^ 48 }, { frameD .udp [] 0 with srcMac := 2 ^ 48 }, { frameD .udp [] 0 with srcPort := 65536 },
    { frameD .udp [] 0 with dstPort := 65536 }, { frameD .udp [] 0 with dstIp := 2 ^ 128 },
    { frameD .udp [] 0 with srcIp := 2 ^ 128 }] : List EthFrame).all (fun f => !(Instr.frameReceive f).wf && !(Instr.discover f).wf &&
      !(Instr.firmwareFrame f none).wf && !(Instr.pfcFrame f).wf) = true ∧
    ([{ xhtD with session := 256 }, { xhtD with chan := 32 }, { xhtD with seq := 2 ^ 32 }, { xhtD with tag := 65536 }] : List XhtHdr).all
      (fun h => !(Instr.bwr ⟨h, []⟩).wf) = true ∧ (Instr.bwr ⟨xhtD, List.replicate 8929 0⟩).wf = false ∧
    ([{ chainD 4 [] with typ := 16 }, { chainD 4 [] with typHi := 16 }, { chainD 4 [] with dst := 64 },
      { chainD 4 [] with src := 64 }, { chainD 4 [] with seq := 256 }, { chainD 4 [] with len := 65536 },
      { chainD 4 [] with crc := 65536 }] : List ChainFrame).all (fun f => !(Instr.poll f).wf && !(Instr.enum f).wf) = true ∧
    ([{ msgD 1 0 0 0 with kind := 256 }, { msgD 1 0 0 0 with chip := 4096 }, { msgD 1 0 0 0 with ord := 2 ^ 32 },
      { msgD 1 0 0 0 with tick := 2 ^ 64 }, msgD 1 0 (2 ^ 64) 0, msgD 1 0 0 (2 ^ 64)] : List PairMsg).all
      (fun m => !(Instr.order m).wf && !(Instr.resync m none).wf) = true := by decide +kernel

theorem wf_accepts : ([.tile 207, .fgPost 0 (.newt 127) 0, .snoopInv 0 ⟨3, 0x1FFFFF⟩ 1, .arbGrant (.mesh 233 4) 0 [⟨0, 15, 1, 0⟩] [],
    .ctxAssign q0 31 (2 ^ 40 - 1) (2 ^ 19 - 1) [207], .extGrant q0 63 8191 16383, .isoSet q0 4095 0 0 0 0, .rd 127 pktD,
    .forward 127 7 pktD, .nullFlit 95 (flitD 0 0), .initFlit 0 (initD true), .codeword 0 (cwD (flitD 0 0)),
    .frameReceive (frameD .udp [] 65535), .bwr bwrD, .mgmtRead (.xht q0) 0x1FFFFFC 64, .fence (.part 63) .order,
    .poll (chainD 6 []), .order (msgD 1 0 0 0), .registerWrite .triad 0x1FFFFFC 0, .stackHot 7 0] : List Instr).all Instr.wf = true := by
  decide +kernel

/-! The fault, the empty queue, the order of the queue. -/

theorem test_reset_queue : State.reset.pending = [] := by decide

theorem test_fault : (match exec (.registerWrite .triad 0x4000 5) State.reset with
    | .fault .noSuchRegister => true | _ => false) = true := by decide +kernel

theorem test_front_first : (match step ⟨[.glbReset 0xE1000001, .nop q0], {}⟩ with
    | .next t => t.pending == [.nop q0] && t.sys.chip.boot.resetDue | _ => false) = true := by decide +kernel

theorem test_tick : (match step State.reset with | .next t => t.sys.chip.now | _ => 0) = 1 := by decide +kernel

/-! Values: the start of CRC-32C in R402's example, the catalogued check values of the algorithms of R401
over the bytes 1 to 9 in ASCII, and single instructions of a newt by hand. -/

theorem test_crc_start : crcStart (crcAlg 2) true 0x12345FC000 0x0A1C = 0x3FEDC1BC := by decide +kernel

theorem test_crc_checks : (List.range 3).map (fun k => crcOf k false 0 0 [0x31, 0x32, 0x33, 0x34, 0x35, 0x36, 0x37, 0x38, 0x39]) =
    [0x29B1, 0xCBF43926, 0xE3069283] := by decide +kernel

/-- What a command leaves in register n of core 0 of cluster 0. -/
def leaves (i : Instr) (y : Sys) (n : Nat) : Nat :=
  match exec i ⟨[], y⟩ with
  | .next t => ((t.sys.chip.core 0 0).get n).toNat
  | _ => 0

theorem test_newt_values :
    leaves (.newtAluOp 0 0) (coreAt 0 { x := [(1, 5), (2, 0xFFFFFFFE)] } 0x00208133) 2 = 3 ∧
    leaves (.kvSadd 0 0) (coreAt 0 { x := [(3, 0x7FFFFFFF), (4, 1)] } 0x0041910B) 2 = 0x7FFFFFFF ∧
    leaves (.kvSsub 0 0) (coreAt 0 { x := [(3, 0x80000000), (4, 1)] } 0x0041A10B) 2 = 0x80000000 ∧
    leaves (.kvQmul 0 0) (coreAt 0 { x := [(3, 3), (4, 0xFFFFFFFF)], kvqsh := 1 } 0x0041810B) 2 = 0xFFFFFFFE ∧
    leaves (.kvDot4 0 0) (coreAt 0 { x := [(3, 0xFF01), (4, 0x0203)] } 0x0041C10B) 2 = 1 ∧
    leaves (.kvBexp 0 0) (coreAt 0 { x := [(3, 255), (4, 0)] } 0x0041B10B) 2 = 1 := by decide +kernel

end Sys2Proof.Tests
end

/-! Chapter 02: what an accumulator holds after a contribution, a shift or a sum (R37, R38), where RQ_ROUND
ends up (R46, R47), and the trap of a descriptor that names rounding mode 3. -/

namespace Sys2Proof.Machine

/-! ## Accumulators (R37, R38) -/

theorem clamp64_of_mem {r : Int} (hlo : s64Lo ≤ r) (hhi : r ≤ s64Hi) : clamp64 r = (r, false) := by
  rw [clamp64, if_neg (not_lt.2 hhi), if_neg (not_lt.2 hlo)]

theorem clamp64_of_gt {r : Int} (h : s64Hi < r) : clamp64 r = (s64Hi, true) := if_pos h

theorem clamp64_of_lt {r : Int} (h : r < s64Lo) : clamp64 r = (s64Lo, true) := by
  have hle : s64Lo ≤ s64Hi := by decide
  rw [clamp64, if_neg (by omega), if_pos h]

theorem satToward_pos {v : Int} (h : 0 < v) : satToward v = (s64Hi, true) := by
  rw [satToward, if_pos h]

theorem satToward_neg {v : Int} (h : v < 0) : satToward v = (s64Lo, true) := by
  rw [satToward, if_neg (by omega)]

@[simp] theorem accAdd_sat (a v : Int) (n : Nat) : accAdd (a, true) v n = (a, true) := if_pos (Or.inl rfl)

@[simp] theorem accShift_sat (a : Int) (n : Nat) : accShift (a, true) n = (a, true) := if_pos (Or.inl rfl)

@[simp] theorem satAdd_sat (a : Int) (b : Int × Bool) : satAdd (a, true) b = (a, true) := if_pos rfl

@[simp] theorem accAdd_zero (a : Int × Bool) (n : Nat) : accAdd a 0 n = a := if_pos (Or.inr rfl)

@[simp] theorem accShift_zero (n : Nat) : accShift (0, false) n = (0, false) := if_pos (Or.inr rfl)

/-- A contribution of 0 needs no case of its own here: the accumulator is its own exact sum. -/
theorem accAdd_of_le {a : Int} (hlo : s64Lo ≤ a) (hhi : a ≤ s64Hi) (v : Int) {n : Nat} (hn : n ≤ 24) :
    accAdd (a, false) v n = clamp64 (a + v * 2 ^ n) := by
  by_cases hv : v = 0
  · subst hv
    rw [accAdd_zero, zero_mul, add_zero, clamp64_of_mem hlo hhi]
  · rw [accAdd, if_neg (by simp [hv]), if_neg (by omega)]

theorem accShift_of_le (a : Int) {n : Nat} (hn : n ≤ 24) :
    accShift (a, false) n = clamp64 (a * 2 ^ n) := by
  by_cases ha : a = 0
  · subst ha
    rw [accShift_zero, zero_mul, clamp64_of_mem (by decide) (by decide)]
  · rw [accShift, if_neg (by simp [ha]), if_neg (by omega)]

theorem accAdd_of_gt (a : Int) {v : Int} (hv : v ≠ 0) {n : Nat} (hn : 24 < n) :
    accAdd (a, false) v n = satToward v := by
  rw [accAdd, if_neg (by simp [hv]), if_pos hn]

theorem accShift_of_gt {a : Int} (ha : a ≠ 0) {n : Nat} (hn : 24 < n) :
    accShift (a, false) n = satToward a := by
  rw [accShift, if_neg (by simp [ha]), if_pos hn]

theorem satAdd_unsat (a v : Int) : satAdd (a, false) (v, false) = clamp64 (a + v) := by
  simp [satAdd]

/-- R38: what an exact result leaves in an accumulator, inside s64 and on either side of it. -/
theorem clamp64_cases (r : Int) :
    (s64Lo ≤ r → r ≤ s64Hi → clamp64 r = (r, false)) ∧ (s64Hi < r → clamp64 r = (s64Hi, true)) ∧
      (r < s64Lo → clamp64 r = (s64Lo, true)) :=
  ⟨clamp64_of_mem, clamp64_of_gt, clamp64_of_lt⟩

/-! ## Rounding (R46, R47) -/

@[simp] theorem rqRound_zero (p : Int) (mode : Nat) : rqRound p 0 mode = p := if_pos rfl

/-- R47: RQ_ROUND decides between the floor q of the quotient and q + 1 by the remainder r, held against
one half of the divisor. -/
theorem rqRound_succ (p : Int) (n : Nat) : ∃ q r : Int, p = q * (2 * 2 ^ n) + r ∧ 0 ≤ r ∧ r < 2 * 2 ^ n ∧
    rqRound p (n + 1) 0 = (if 2 ^ n < r ∨ (r = 2 ^ n ∧ q % 2 = 1) then q + 1 else q) ∧
    rqRound p (n + 1) 1 = (if 2 ^ n < r ∨ (r = 2 ^ n ∧ 0 ≤ q) then q + 1 else q) ∧
    rqRound p (n + 1) 2 = q := by
  have hu : (0 : Int) < 2 ^ (n + 1) := by positivity
  rw [← pow_succ']
  refine ⟨p / 2 ^ (n + 1), p - p / 2 ^ (n + 1) * 2 ^ (n + 1), by ring, ?_, ?_, ?_⟩
  · exact sub_nonneg.2 (Int.ediv_mul_le p hu.ne')
  · exact sub_left_lt_of_lt_add (by rw [← add_one_mul]; exact Int.lt_ediv_add_one_mul_self p hu)
  · simp [rqRound]

/-- q is a nearest integer to p / u. -/
def Nearest (p u q : Int) : Prop := 2 * (p - q * u) ≤ u ∧ 2 * (q * u - p) ≤ u

/-- p / u lies half a unit from q. -/
def HalfFrom (p u q : Int) : Prop := 2 * (p - q * u) = u ∨ 2 * (q * u - p) = u

theorem rqRound_rne (p : Int) (n : Nat) : Nearest p (2 ^ n) (rqRound p n 0) ∧
    (HalfFrom p (2 ^ n) (rqRound p n 0) → rqRound p n 0 % 2 = 0) := by
  unfold Nearest HalfFrom
  cases n with
  | zero => simp
  | succ n =>
    obtain ⟨q, r, hp, hr0, hru, hround, -, -⟩ := rqRound_succ p n
    rw [hround, hp, pow_succ']
    split_ifs with hup
    · rw [add_one_mul]; omega
    · omega

/-- On a tie the sign of p is that of its floor q: q + 1 lies above p ≥ 0, and q below p < 0. -/
theorem rqRound_rhaz (p : Int) (n : Nat) : Nearest p (2 ^ n) (rqRound p n 1) ∧
    (HalfFrom p (2 ^ n) (rqRound p n 1) → p.natAbs < (rqRound p n 1 * 2 ^ n).natAbs) := by
  unfold Nearest HalfFrom
  cases n with
  | zero => simp
  | succ n =>
    obtain ⟨q, r, hp, hr0, hru, -, hround, -⟩ := rqRound_succ p n
    have hu : (0 : Int) ≤ 2 * 2 ^ n := by positivity
    rw [hround, hp, pow_succ']
    split_ifs with hup
    · have hpos : 0 ≤ q → 0 ≤ q * (2 * 2 ^ n) := fun hq => mul_nonneg hq hu
      rw [add_one_mul]; omega
    · have hneg : q < 0 → (q + 1) * (2 * 2 ^ n) ≤ 0 := fun hq => mul_nonpos_of_nonpos_of_nonneg hq hu
      rw [add_one_mul] at hneg; omega

theorem rqRound_rtmi (p : Int) (n : Nat) :
    rqRound p n 2 * 2 ^ n ≤ p ∧ p < (rqRound p n 2 + 1) * 2 ^ n := by
  cases n with
  | zero => simp
  | succ n =>
    obtain ⟨q, r, hp, hr0, hru, -, -, hround⟩ := rqRound_succ p n
    rw [hround, add_one_mul, hp, pow_succ']
    omega

/-! ## The frog's trap (R60, R66, R67) -/

theorem exec_tile (c : ClusterNo) (s : State) : exec (.tile c) s = execTile c s := (rfl)

theorem exec_scan (c : ClusterNo) (s : State) : exec (.scan c) s = execScan c s := (rfl)

@[simp] theorem Chip.frog_frogTrap (s : Chip) (c code tag : Nat) (q : Option (Nat × List Word)) :
    (s.frogTrap c code tag q).frog c = { s.frog c with trapped := true, trapDesc := q } := by
  simp [Chip.frogTrap]

@[simp] theorem Chip.reg_frogTrap (s : Chip) (c code tag : Nat) (q : Option (Nat × List Word)) :
    (s.frogTrap c code tag q).reg (fgPg c + 0x4C) = BitVec.ofNat 32 (code + 65536 * tag) := by
  simp [Chip.frogTrap]

/-- R60, R66: a ready frog takes the descriptor at its queue head out of the queue, and where a check fails
traps with the code of the first one that does; nothing of the descriptor runs. -/
theorem Sys.frogStart_trap {y : Sys} {c n code : Nat} {d : List Word} {rest : List (Nat × List Word)}
    {ops : List Nat} (run : Nat → List Word → Sys → Sys) (hq : (y.chip.frog c).queue = (n, d) :: rest)
    (hready : y.chip.frogReady c = true) (hopc : dw d 0 3 0 ∈ ops)
    (hstruck : (y.chip.frog c).struck = none)
    (hcode : Chip.frogCheck y.mem (y.chip.setFrog c { y.chip.frog c with queue := rest }) c n d = some code) :
    y.frogStart c ops run = onChip (fun s =>
      (s.setFrog c { s.frog c with queue := rest }).frogTrap c code (dw d 1 15 0) (some (n, d))) y := by
  unfold Sys.frogStart
  rw [hq]
  dsimp only
  rw [if_neg (by simp [hready, hopc]), hstruck]
  dsimp only [onChip] at hcode ⊢
  rw [if_neg (by decide), if_neg (by decide), hcode]

/-! ## Rounding mode 3 (R46) -/

theorem Chip.tileChecks_mode3 (s : Chip) (c : Nat) {d : List Word} (h : tMode d = 3) :
    ∃ a b l, s.tileChecks c d = (2, a) :: (3, b) :: (4, true) :: l := by
  unfold Chip.tileChecks
  rw [h]
  exact ⟨_, _, _, rfl⟩

theorem Chip.scanChecks_mode3 (s : Chip) (c n : Nat) {d : List Word} (h : tMode d = 3) :
    ∃ a b l, s.scanChecks c n d = (2, a) :: (3, b) :: (4, true) :: l := by
  unfold Chip.scanChecks
  rw [h]
  exact ⟨_, _, _, rfl⟩

/-- Among checks in ascending code order, one of which fails with code 4, the first that fails has a code of
at most 4. -/
theorem firstFailing_le_four (a b : Bool) (l : List (Nat × Bool)) :
    ∃ code, (((2, a) :: (3, b) :: (4, true) :: l).find? (·.2)).map (·.1) = some code ∧ 0 < code ∧ code ≤ 4 := by
  cases a
  · cases b <;> simp
  · simp

/-- R46, R66: a TILE or a SCAN that names mode 3 fails its checks, at 0x04 or before. -/
theorem Chip.frogCheck_mode3 (m : Mem) (s : Chip) (c n : Nat) {d : List Word} (h : tMode d = 3)
    (hopc : dw d 0 3 0 = 1 ∨ dw d 0 3 0 = 2) :
    ∃ code, Chip.frogCheck m s c n d = some code ∧ 0 < code ∧ code ≤ 4 := by
  unfold Chip.frogCheck
  rcases hopc with ho | ho
  · obtain ⟨a, b, l, e⟩ := s.tileChecks_mode3 c h
    simpa only [ho, e] using firstFailing_le_four a b l
  · obtain ⟨a, b, l, e⟩ := s.scanChecks_mode3 c n h
    simpa only [ho, e] using firstFailing_le_four a b l

/-- Where TILE or SCAN finds a descriptor of its OPC at the head of a ready frog, and the descriptor names
mode 3, the command does what `Sys.frogStart_trap` says. -/
theorem exec_mode3 {s : State} {c : ClusterNo} {n : Nat} {d : List Word} {rest : List (Nat × List Word)}
    {i : Instr} {opc : Nat} (hi : (i, opc) ∈ [(.tile c, 1), (.scan c, 2)]) (hopc : dw d 0 3 0 = opc)
    (hmode : tMode d = 3) (hq : (s.sys.chip.frog c).queue = (n, d) :: rest)
    (hready : s.sys.chip.frogReady c = true) (hstruck : (s.sys.chip.frog c).struck = none) :
    ∃ code, 0 < code ∧ code ≤ 4 ∧ exec i s = .next { s with sys := onChip (fun x =>
      (x.setFrog c { x.frog c with queue := rest }).frogTrap c code (dw d 1 15 0) (some (n, d))) s.sys } := by
  simp only [List.mem_cons, Prod.mk.injEq, List.not_mem_nil, or_false] at hi
  obtain ⟨code, hcode, h0, h4⟩ := Chip.frogCheck_mode3 s.sys.mem
    (s.sys.chip.setFrog c { s.sys.chip.frog c with queue := rest }) c n hmode (by omega)
  refine ⟨code, h0, h4, ?_⟩
  rcases hi with ⟨rfl, rfl⟩ | ⟨rfl, rfl⟩
  · rw [exec_tile, execTile, liftS, Sys.frogStart_trap _ hq hready (by simp [hopc]) hstruck hcode]
  · rw [exec_scan, execScan, liftS, Sys.frogStart_trap _ hq hready (by simp [hopc]) hstruck hcode]

/-! ## The statements -/

/-- Settles O6: within 24 bits each operation is `clamp64` of the exact result, beyond them it is
`satToward`. -/
theorem accumulatorBounds : Obligations.AccumulatorBounds := by
  unfold Obligations.AccumulatorBounds
  intro a v n b hi lo exactly
  refine ⟨accAdd_sat a v n, accShift_sat a n, satAdd_sat a (v, b), fun hlo hhi => ?_⟩
  refine ⟨accAdd_zero _ n, accShift_zero n, fun hn => ⟨?_, ?_⟩, fun hn hv => ?_, fun hn hv => ?_,
    fun hn ha => ?_, fun hn ha => ?_, ?_⟩
  · rw [accAdd_of_le hlo hhi v hn]
    exact clamp64_cases _
  · rw [accShift_of_le a hn]
    exact clamp64_cases _
  · rw [accAdd_of_gt a hv.ne' hn]
    exact satToward_pos hv
  · rw [accAdd_of_gt a hv.ne hn]
    exact satToward_neg hv
  · rw [accShift_of_gt ha.ne' hn]
    exact satToward_pos ha
  · rw [accShift_of_gt ha.ne hn]
    exact satToward_neg ha
  · rw [satAdd_unsat]
    exact clamp64_cases _

/-- Settles O7: modes 0, 1 and 2 by the floor and the remainder that RQ_ROUND decides by, mode 3 by check
0x04, which a descriptor that names it fails. -/
theorem roundingModes : Obligations.RoundingModes := by
  unfold Obligations.RoundingModes
  refine ⟨fun p n => ⟨rqRound_rne p n, rqRound_rhaz p n, rqRound_rtmi p n⟩, ?_⟩
  intro s c n d rest i opc hi hopc hmode hq hready hstruck
  obtain ⟨code, h0, h4, e⟩ := exec_mode3 hi hopc hmode hq hready hstruck
  refine ⟨_, code, e, onChip_mem .., h0, h4, ?_, ?_, ?_⟩
  · rw [onChip_chip, Chip.frog_frogTrap, Chip.frog_setFrog]
  · rw [onChip_chip, Chip.frog_frogTrap]
  · rw [onChip_chip, Chip.reg_frogTrap]

end Sys2Proof.Machine

/-! Chapter 04: the loads and stores of newts and of the cluster control core. A misaligned one raises its
fault and accesses nothing (R87, R97). -/

namespace Sys2Proof.Machine

/-! ## The core's next instruction is a load or a store -/

theorem exec_newtLoad (c : ClusterNo) (m : CoreNo) (s : State) :
    exec (.newtLoad c m) s = execNewtLoad c m s := (rfl)

theorem exec_newtStore (c : ClusterNo) (m : CoreNo) (s : State) :
    exec (.newtStore c m) s = execNewtStore c m s := (rfl)

/-- NEWT_LOAD runs the load that the core has fetched. -/
theorem exec_newtLoad_of_nextIs {s : State} {c : ClusterNo} {m : CoreNo} {f3 rd rs1 imm bits len : Nat} {y : Sys}
    (h : s.sys.nextIs c m (.load f3 rd rs1 imm) bits len y) :
    exec (.newtLoad c m) s = .next { s with
      sys := y.runLoad c m f3 rd ((((y.chip.core c m).get rs1).toNat + imm) % 2 ^ 32)
        ((s.sys.chip.core c m).pc + len) } := by
  rw [exec_newtLoad, execNewtLoad, liftS, Sys.coreStep_eq h (by simp), if_pos rfl]

/-- NEWT_STORE runs the store that the core has fetched. -/
theorem exec_newtStore_of_nextIs {s : State} {c : ClusterNo} {m : CoreNo} {f3 rs1 rs2 imm bits len : Nat} {y : Sys}
    (h : s.sys.nextIs c m (.store f3 rs1 rs2 imm) bits len y) :
    exec (.newtStore c m) s = .next { s with
      sys := y.runStore c m f3 ((y.chip.core c m).get rs2)
        ((((y.chip.core c m).get rs1).toNat + imm) % 2 ^ 32) ((s.sys.chip.core c m).pc + len) } := by
  rw [exec_newtStore, execNewtStore, liftS, Sys.coreStep_eq h (by simp), if_pos rfl]

/-! ## Misaligned addresses (R87) -/

theorem Sys.runLoad_misaligned (y : Sys) (c m rd next : Nat) {f3 addr : Nat} (h : addr % accSize f3 ≠ 0) :
    y.runLoad c m f3 rd addr next = onChip (fun s => s.trap c m 4 addr) y := if_pos h

theorem Sys.runStore_misaligned (y : Sys) (c m : Nat) (w : Word) (next : Nat) {f3 addr : Nat}
    (h : addr % accSize f3 ≠ 0) :
    y.runStore c m f3 w addr next = onChip (fun s => s.trap c m 6 addr) y := if_pos h

/-- R87: all that a misaligned load or store does is the exception of its cause. -/
theorem exec_misaligned {s : State} {c : ClusterNo} {m : CoreNo} {f3 ra rb imm bits len : Nat} {y : Sys} {op : Rv}
    {i : Instr} {cause base : Nat}
    (hop : (op, i, cause, base) = (.load f3 ra rb imm, .newtLoad c m, 4, rb) ∨
      (op, i, cause, base) = (.store f3 ra rb imm, .newtStore c m, 6, ra))
    (hnext : s.sys.nextIs c m op bits len y)
    (hmis : (((y.chip.core c m).get base).toNat + imm) % 2 ^ 32 % accSize f3 ≠ 0) :
    exec i s = .next { s with
      sys := onChip (fun t => t.trap c m cause ((((y.chip.core c m).get base).toNat + imm) % 2 ^ 32)) y } := by
  simp only [Prod.mk.injEq] at hop
  obtain ⟨rfl, rfl, rfl, rfl⟩ | ⟨rfl, rfl, rfl, rfl⟩ := hop
  · rw [exec_newtLoad_of_nextIs hnext, Sys.runLoad_misaligned _ _ _ _ _ hmis]
  · rw [exec_newtStore_of_nextIs hnext, Sys.runStore_misaligned _ _ _ _ _ hmis]

/-! ## Exceptions (R93, R97) -/

/-- R93: an exception of the cluster control core other than cause 24. -/
theorem Sys.trap_ccc (y : Sys) {c m cause : Nat} (tval : Nat) (hm : m = 128) (h24 : cause ≠ 24) :
    onChip (fun s => s.trap c m cause tval) y =
      onChip (fun s => s.setCore c m ((y.chip.core c m).machineTrap (BitVec.ofNat 32 cause) tval)) y := by
  simp [onChip, Chip.trap, hm, h24]

/-! ## The statement -/

/-- Settles O8: a misaligned load or store is the exception of its cause alone, which `Chip.trapped` describes
for a newt and `Core.machineTrap` for the cluster control core. -/
theorem misalignedAccess : Obligations.MisalignedAccess := by
  unfold Obligations.MisalignedAccess
  intro s c m f3 ra rb imm bits len y op i cause base hop hnext x addr hmis
  have hcause : cause = 4 ∨ cause = 6 := by
    simp only [Prod.mk.injEq] at hop
    obtain ⟨-, -, hk, -⟩ | ⟨-, -, hk, -⟩ := hop
    · exact .inl hk
    · exact .inr hk
  have h24 : cause ≠ 24 := by omega
  refine ⟨_, exec_misaligned hop hnext hmis, onChip_mem .., fun hm => ?_, fun hm => ?_⟩
  · rw [onChip_chip, Chip.trap_newt _ hm h24]
    exact ⟨Chip.core_trapped .., Chip.cause_trapped _ _ _ _ (by omega), Chip.tval_trapped ..⟩
  · rw [Sys.trap_ccc _ _ hm h24]
    exact ⟨Sys.onlyCore_setCore .., Chip.core_setCore ..⟩

end Sys2Proof.Machine

/-! The canonical form of the memories is kept by every command (O4): one lemma for each operation that
writes a memory, one for each command that can, and every other command moves the chip alone. -/

namespace Sys2Proof.Machine

-- One after the other: side by side the proofs ask for more memory than the check grants.
set_option Elab.async false
open Laws

theorem wf_ite {p : Prop} [Decidable p] {a b : Sys} (ha : a.mem.wf = true) (hb : b.mem.wf = true) :
    (if p then a else b).mem.wf = true := by
  split <;> assumption

/-- A command that completes keeps the canonical form of the memories. -/
def Keeps (f : State → Host.Outcome State Fault Refusal) : Prop := ∀ s t, s.Inv → f s = .next t → t.Inv

theorem keeps_liftS {f : Sys → Sys} (hf : ∀ y, y.mem.wf = true → (f y).mem.wf = true) : Keeps (liftS f) := by
  intro s t hs e
  cases e
  exact hf _ hs

theorem keeps_of_chip {f : State → Host.Outcome State Fault Refusal}
    (hf : ∀ s, ∃ x, f s = .next { s with sys := { s.sys with chip := x } }) : Keeps f := by
  intro s t hs e
  obtain ⟨x, hx⟩ := hf s
  rw [hx] at e
  cases e
  exact hs

/-! ## PairBase -/

theorem Sys.wf_turnOf {y : Sys} (id : Nat) (f : Sys → Sys) (hf : ∀ z, z.mem.wf = true → (f z).mem.wf = true)
    (h : y.mem.wf = true) : (y.turnOf id f).mem.wf = true := by
  unfold Sys.turnOf
  grind [onChip_mem]

/-! ## Store -/

theorem Sys.wf_invLines {y : Sys} (c off n : Nat) (h : y.mem.wf = true) : (y.invLines c off n).mem.wf = true
    := by
  unfold Sys.invLines
  grind [Sys.wf_invCore, wf_forEachS]

theorem Sys.wf_stWrite {y : Sys} (c off : Nat) (d : List Byte) (h : y.mem.wf = true) :
    (y.stWrite c off d).mem.wf = true := by
  unfold Sys.stWrite
  grind [Sys.wf_stRaw, Sys.wf_invLines]

theorem Sys.wf_fillLine {y : Sys} (c line : Nat) (h : y.mem.wf = true) : (y.fillLine c line).2.mem.wf = true
    := by
  unfold Sys.fillLine
  grind [Sys.wf_stRead]

theorem Sys.wf_ringRd {y : Sys} (c line m : Nat) (h : y.mem.wf = true) : (y.ringRd c line m).2.mem.wf = true
    := by
  unfold Sys.ringRd
  grind [onChip_mem, Sys.wf_writeLine, Sys.wf_fillLine, wf_forEachS]

theorem Sys.wf_ringRdx {y : Sys} (c line m : Nat) (h : y.mem.wf = true) : (y.ringRdx c line m).2.mem.wf = true
    := by
  unfold Sys.ringRdx
  grind [onChip_mem, Sys.wf_fillLine]

theorem keeps_execSnoopInv (c : ClusterNo) (start : AgentAt) (len : Nat) : Keeps (execSnoopInv c start len) := by
  refine keeps_liftS fun y h => wf_ite h (wf_forEachS _ _ (fun l z hz => ?_) h)
  split
  · exact hz
  · exact Sys.wf_invLines _ _ _ hz

theorem Mem.wf_stPoison {m : Mem} (c off n : Nat) (h : m.wf = true) : (m.stPoison c off n).wf = true := by
  rw [Mem.wf_iff] at h ⊢
  obtain ⟨h1, h2, h3, h4, h5, h6, h7⟩ := h
  exact ⟨h1, wf_foldl_put (fun e : Nat × Mark => e.1) (fun _ => Mark.poison) _ h2, h3, h4, h5, h6, h7⟩

theorem keeps_execClScrub (c : ClusterNo) : Keeps (execClScrub c) := by
  refine keeps_liftS fun y h => wf_ite h ?_
  exact Mem.wf_stPoison _ _ _ (Sys.wf_stRead _ _ _ h)

/-! ## Newt -/

theorem Sys.wf_fetchHalf {y : Sys} (c m a : Nat) (h : y.mem.wf = true) : (y.fetchHalf c m a).2.mem.wf = true
    := by
  unfold Sys.fetchHalf
  grind [Sys.wf_stRead, Sys.wf_sramWord]

theorem Sys.wf_fetch {y : Sys} (c m : Nat) (h : y.mem.wf = true) : (y.fetch c m).2.mem.wf = true := by
  unfold Sys.fetch
  grind [Sys.wf_fetchHalf]

theorem Sys.wf_coreStep {y : Sys} (c m : Nat) (all : Bool) (sel : Rv → Bool)
    (run : Rv → Nat → Nat → Sys → Sys) (hrun : ∀ a b k z, z.mem.wf = true → (run a b k z).mem.wf = true)
    (h : y.mem.wf = true) : (y.coreStep c m all sel run).mem.wf = true := by
  unfold Sys.coreStep
  grind [onChip_mem, Sys.wf_fetch]

theorem keeps_execNewtAluOp (c : ClusterNo) (m : CoreNo) : Keeps (execNewtAluOp c m) :=
  keeps_liftS fun y h => by grind [onChip_mem, Sys.wf_coreStep]

theorem keeps_execCsrAccess (c : ClusterNo) (m : CoreNo) : Keeps (execCsrAccess c m) :=
  keeps_liftS fun y h => by grind [onChip_mem, Sys.wf_coreStep]

theorem keeps_execEcall (c : ClusterNo) (m : CoreNo) : Keeps (execEcall c m) :=
  keeps_liftS fun y h => by grind [onChip_mem, Sys.wf_coreStep]

theorem keeps_execEbreak (c : ClusterNo) (m : CoreNo) : Keeps (execEbreak c m) :=
  keeps_liftS fun y h => by grind [onChip_mem, Sys.wf_coreStep]

theorem Sys.wf_kvStep {y : Sys} (c m : Nat) (k : Kv) (run : (rd rs1 rs2 rs3 bits next : Nat) → Chip → Chip)
    (h : y.mem.wf = true) : (y.kvStep c m k run).mem.wf = true := by
  refine Sys.wf_coreStep _ _ _ _ _ (fun op _ _ z hz => ?_) h
  cases op <;> exact hz

theorem keeps_execKvQmul (c : ClusterNo) (m : CoreNo) : Keeps (execKvQmul c m) :=
  keeps_liftS fun y h => by grind [Sys.wf_kvStep]

theorem keeps_execKvSadd (c : ClusterNo) (m : CoreNo) : Keeps (execKvSadd c m) :=
  keeps_liftS fun y h => by grind [Sys.wf_kvStep]

theorem keeps_execKvSsub (c : ClusterNo) (m : CoreNo) : Keeps (execKvSsub c m) :=
  keeps_liftS fun y h => by grind [Sys.wf_kvStep]

theorem keeps_execKvClamp (c : ClusterNo) (m : CoreNo) : Keeps (execKvClamp c m) :=
  keeps_liftS fun y h => by grind [Sys.wf_kvStep]

theorem keeps_execKvBexp (c : ClusterNo) (m : CoreNo) : Keeps (execKvBexp c m) :=
  keeps_liftS fun y h => by grind [Sys.wf_kvStep]

theorem keeps_execKvDot4 (c : ClusterNo) (m : CoreNo) : Keeps (execKvDot4 c m) :=
  keeps_liftS fun y h => by grind [Sys.wf_kvStep]

theorem keeps_execKvCrc (c : ClusterNo) (m : CoreNo) : Keeps (execKvCrc c m) :=
  keeps_liftS fun y h => by grind [Sys.wf_kvStep]

theorem keeps_execKvCpy (c : ClusterNo) (m : CoreNo) : Keeps (execKvCpy c m) :=
  keeps_liftS fun y h => by grind [Sys.wf_kvStep]

theorem keeps_execKvWaitt (c : ClusterNo) (m : CoreNo) : Keeps (execKvWaitt c m) :=
  keeps_liftS fun y h => by grind [Sys.wf_kvStep]

theorem keeps_execKvEvt (c : ClusterNo) (m : CoreNo) : Keeps (execKvEvt c m) :=
  keeps_liftS fun y h => by grind [Sys.wf_kvStep]

theorem Sys.wf_cleanAll {y : Sys} (c m : Nat) (h : y.mem.wf = true) : (y.cleanAll c m).mem.wf = true := by
  unfold Sys.cleanAll
  grind [onChip_mem, Sys.wf_writeLine, wf_forEachS]

theorem Sys.wf_fenceSt {y : Sys} (c m : Nat) (sel : Rv → Bool) (h : y.mem.wf = true) :
    (y.fenceSt c m sel).mem.wf = true := by
  unfold Sys.fenceSt
  grind [onChip_mem, Sys.wf_coreStep, Sys.wf_cleanAll]

theorem keeps_execKvFenceSt (c : ClusterNo) (m : CoreNo) : Keeps (execKvFenceSt c m) :=
  keeps_liftS fun y h => by grind [Sys.wf_fenceSt]

theorem keeps_execFenceInsn (c : ClusterNo) (m : CoreNo) : Keeps (execFenceInsn c m) :=
  keeps_liftS fun y h => by grind [Sys.wf_fenceSt]

/-! ## NewtCtl -/

theorem keeps_execBroadcastDone (c : ClusterNo) : Keeps (execBroadcastDone c) :=
  keeps_liftS fun y h => by grind [onChip_mem, Sys.wf_stRead, Sys.wf_loadSram, wf_forEachS]

theorem Sys.wf_evictLine {y : Sys} (c m k : Nat) (l : Line) (h : y.mem.wf = true) :
    (y.evictLine c m k l).mem.wf = true := by
  unfold Sys.evictLine
  grind [onChip_mem, Sys.wf_writeLine]

theorem keeps_execSnoopWb (c : ClusterNo) (m : CoreNo) : Keeps (execSnoopWb c m) :=
  keeps_liftS fun y h => by grind [Sys.wf_evictLine]

/-! ## Serve -/

theorem Sys.wf_writeFwd {y : Sys} (n b : Nat) (d : List Byte) (src : BlkSrc) (h : y.mem.wf = true) :
    (y.writeFwd n b d src).mem.wf = true := by
  unfold Sys.writeFwd
  grind [onChip_mem, Sys.wf_writeBlk]

theorem Sys.wf_serve {y : Sys} (n j : Nat) (a : Acc) (h : y.mem.wf = true) : (y.serve n j a).mem.wf = true :=
    by
  unfold Sys.serve
  grind [onChip_mem, Sys.readBlk_mem, Sys.wf_writeFwd]

theorem Sys.wf_fillOne {y : Sys} (n x b : Nat) (h : y.mem.wf = true) : (y.fillOne n x b).mem.wf = true := by
  unfold Sys.fillOne
  grind [onChip_mem, Sys.wf_writeFwd]

theorem Sys.wf_serveFree {y : Sys} (n j : Nat) (h : y.mem.wf = true) : (y.serveFree n j).mem.wf = true := by
  unfold Sys.serveFree
  grind [onChip_mem, Sys.wf_serve, Sys.wf_fillOne]

theorem keeps_execBlockSlot (n : McNo) : Keeps (execBlockSlot n) :=
  keeps_liftS fun y h => by grind [onChip_mem, Sys.wf_serve, Sys.wf_serveFree]

theorem keeps_execPatrolScrub (n : McNo) : Keeps (execPatrolScrub n) :=
  keeps_liftS fun y h => by grind [onChip_mem, Sys.readBlk_mem, Sys.wf_writeBlk]

/-! ## Ctx -/

theorem Sys.wf_clearNewt {y : Sys} (c m : Nat) (h : y.mem.wf = true) : (y.clearNewt c m).mem.wf = true := by
  unfold Sys.clearNewt
  grind [onChip_mem, Sys.wf_loadSram]

theorem Sys.wf_clearStore {y : Sys} (c : Nat) (h : y.mem.wf = true) : (y.clearStore c).mem.wf = true := by
  have h' := Sys.wf_invLines c 0 0x200000 h
  unfold Sys.clearStore
  rw [onMem_mem, Mem.wf_iff] at *
  obtain ⟨h1, h2, h3, h4, h5, h6, h7⟩ := h'
  exact ⟨wf_zero _ _ h1, wf_zero _ _ h2, h3, h4, h5, h6, h7⟩

theorem Sys.wf_releaseCluster {y : Sys} (c x : Nat) (h : y.mem.wf = true) : (y.releaseCluster c x).mem.wf =
    true := by
  unfold Sys.releaseCluster
  grind [onChip_mem, Sys.wf_clearNewt, Sys.wf_clearStore, wf_forEachS]

theorem keeps_execCtxReleaseDone (p : PartNo) (slot : SlotNo) : Keeps (execCtxReleaseDone p slot) :=
  keeps_liftS fun y h => by grind [onChip_mem, Sys.wf_releaseCluster, wf_forEachS]

theorem Sys.wf_tablePart {y : Sys} (x : Nat) (b : Nat × Nat × List Byte) (h : y.mem.wf = true) :
    (y.tablePart x b).2.mem.wf = true := by
  unfold Sys.tablePart
  grind [onChip_mem, Sys.readBlk_mem, Sys.wf_writeFwd]

theorem Sys.wf_tableAll {y : Sys} (x : Nat) (l : List (Nat × Nat × List Byte)) (h : y.mem.wf = true) :
    (y.tableAll x l).2.mem.wf = true := by
  induction l generalizing y with
  | nil => exact h
  | cons b l ih =>
    have hb := Sys.wf_tablePart x b h
    unfold Sys.tableAll
    split
    · rename_i e; rw [e] at hb; exact ih hb
    · exact hb

theorem keeps_execTableWrite (q : CmdReq) (off : Nat) (data : List Byte) : Keeps (execTableWrite q off data)
    :=
  keeps_liftS fun y h => by grind [onChip_mem, Sys.wf_turnOf, Sys.wf_tableAll]

/-! ## Copy -/

theorem Sys.wf_copyWordAt {y : Sys} (c : Nat) (d : Desc) (w : List Byte) (h : y.mem.wf = true) :
    (y.copyWordAt c d w).mem.wf = true := by
  unfold Sys.copyWordAt
  grind [Sys.wf_stWrite]

theorem Sys.wf_completeDesc {y : Sys} (c e : Nat) (d : Desc) (h : y.mem.wf = true) :
    (y.completeDesc c e d).mem.wf = true := by
  unfold Sys.completeDesc
  grind [onChip_mem, Sys.wf_copyWordAt]

theorem Sys.wf_copyDone {y : Sys} (c e n : Nat) (h : y.mem.wf = true) : (y.copyDone c e n).mem.wf = true := by
  induction n generalizing y with
  | zero => exact h
  | succ n ih =>
    unfold Sys.copyDone
    grind [onChip_mem, Sys.wf_completeDesc]

theorem Sys.wf_copySettle {y : Sys} (c e : Nat) (h : y.mem.wf = true) : (y.copySettle c e).mem.wf = true := by
  unfold Sys.copySettle
  grind [Sys.wf_copyDone]

theorem keeps_execWalkReadDone (c : ClusterNo) (e : Nat) : Keeps (execWalkReadDone c e) :=
  keeps_liftS fun y h => by grind [Sys.wf_copySettle]

theorem Sys.wf_reachDesc {y : Sys} (c e : Nat) (want : Nat → Bool) (ready : Chip → Bool)
    (run : Nat → List Word → Chip → Chip) (h : y.mem.wf = true) : (y.reachDesc c e want ready run).mem.wf =
    true := by
  unfold Sys.reachDesc
  grind [onChip_mem, Sys.wf_stRead, Sys.wf_copySettle]

theorem keeps_execCopyRd (c : ClusterNo) (e : EngNo) : Keeps (execCopyRd c e) :=
  keeps_liftS fun y h => by grind [onChip_mem, Sys.wf_reachDesc]

theorem keeps_execCopyWr (c : ClusterNo) (e : EngNo) : Keeps (execCopyWr c e) :=
  keeps_liftS fun y h => by grind [onChip_mem, Sys.wf_reachDesc]

theorem keeps_execCopyXc (c : ClusterNo) (e : EngNo) : Keeps (execCopyXc c e) :=
  keeps_liftS fun y h => by grind [Sys.wf_reachDesc]

theorem keeps_execCopyWaitt (c : ClusterNo) (e : EngNo) : Keeps (execCopyWaitt c e) :=
  keeps_liftS fun y h => by grind [Sys.wf_reachDesc]

theorem keeps_execWaittReached (c : ClusterNo) (e : EngNo) : Keeps (execWaittReached c e) :=
  keeps_liftS fun y h => by grind [onChip_mem, Sys.wf_copySettle]

theorem keeps_execCpKick (c : ClusterNo) (e : EngNo) (ag : Agent) (v : Word) : Keeps (execCpKick c e ag v) :=
  keeps_liftS fun y h => by grind [onChip_mem, Sys.wf_copySettle]

theorem keeps_execBlockIssue (c : ClusterNo) (e : EngNo) : Keeps (execBlockIssue c e) :=
  keeps_liftS fun y h => by grind [onChip_mem, Sys.wf_stRead, Sys.wf_copySettle]

theorem keeps_execBlockSettle (c : ClusterNo) (e : EngNo) (i : Nat) : Keeps (execBlockSettle c e i) :=
  keeps_liftS fun y h => by grind [onChip_mem, Sys.wf_stWrite, Sys.wf_copySettle]

theorem keeps_execXcBlockArrive (c : ClusterNo) (i : Nat) : Keeps (execXcBlockArrive c i) :=
  keeps_liftS fun y h => by grind [onChip_mem, Sys.wf_stWrite, Sys.wf_copySettle]

/-! ## Ring -/

theorem Sys.wf_missTurn {y : Sys} (c m kind : Nat) (f : Miss → Nat → Sys → Sys)
    (hf : ∀ a b z, z.mem.wf = true → (f a b z).mem.wf = true) (h : y.mem.wf = true) :
    (y.missTurn c m kind f).mem.wf = true := by
  unfold Sys.missTurn
  grind

theorem Sys.wf_missRd {y : Sys} (c m : Nat) (ms : Miss) (k : Nat) (h : y.mem.wf = true) :
    (y.missRd c m ms k).mem.wf = true := by
  unfold Sys.missRd
  grind [onChip_mem, Sys.wf_ringRd]

theorem Sys.wf_missRdx {y : Sys} (c m : Nat) (ms : Miss) (k : Nat) (h : y.mem.wf = true) :
    (y.missRdx c m ms k).mem.wf = true := by
  unfold Sys.missRdx
  grind [onChip_mem, Sys.wf_ringRdx]

theorem keeps_execSnoopRd (c : ClusterNo) (m : CoreNo) : Keeps (execSnoopRd c m) :=
  keeps_liftS fun y h => by grind [Sys.wf_missTurn, Sys.wf_missRd]

theorem keeps_execSnoopRdx (c : ClusterNo) (m : CoreNo) : Keeps (execSnoopRdx c m) :=
  keeps_liftS fun y h => by grind [Sys.wf_missTurn, Sys.wf_missRdx]

theorem keeps_execSnoopUpg (c : ClusterNo) (m : CoreNo) : Keeps (execSnoopUpg c m) :=
  keeps_liftS fun y h => by grind [onChip_mem, Sys.wf_missTurn]

theorem Sys.wf_coreTurn {y : Sys} (c line m : Nat) (h : y.mem.wf = true) : (y.coreTurn c line m).mem.wf = true
    := by
  unfold Sys.coreTurn
  grind [onChip_mem, Sys.wf_evictLine, Sys.wf_missRd, Sys.wf_missRdx]

theorem Sys.wf_ringTurn {y : Sys} (c : Nat) (t : Nat × Nat) (h : y.mem.wf = true) : (y.ringTurn c t).mem.wf =
    true := by
  unfold Sys.ringTurn
  grind [Sys.wf_invLines, Sys.wf_coreTurn]

theorem Sys.wf_ringDrain {y : Sys} (c : Nat) (h : y.mem.wf = true) : (y.ringDrain c).mem.wf = true := by
  unfold Sys.ringDrain
  grind [onChip_mem, Sys.wf_ringTurn, wf_forEachS]

/-! ## Fence -/

theorem Sys.wf_frogRests {y : Sys} (c : Nat) (h : y.mem.wf = true) : (y.frogRests c).mem.wf = true := by
  unfold Sys.frogRests
  grind [onChip_mem, Sys.wf_stWrite, wf_forEachS]

theorem Sys.wf_headFenced {y : Sys} (c off : Nat) (h : y.mem.wf = true) : (y.headFenced c off).mem.wf = true
    := by
  unfold Sys.headFenced
  grind [Sys.wf_stRead, Sys.wf_copyWordAt]

theorem Sys.wf_copyRests {y : Sys} (c e : Nat) (h : y.mem.wf = true) : (y.copyRests c e).mem.wf = true := by
  unfold Sys.copyRests
  grind [onChip_mem, Sys.wf_completeDesc, Sys.wf_headFenced, wf_forEachS]

theorem Sys.wf_unitRests {y : Sys} (u : UnitId) (h : y.mem.wf = true) : (y.unitRests u).mem.wf = true := by
  unfold Sys.unitRests
  split
  · exact h
  · exact Sys.wf_frogRests _ h
  · exact Sys.wf_copyRests _ _ h
  · refine Sys.wf_copyRests _ _ (Sys.wf_copyRests _ _ (Sys.wf_frogRests _ ?_))
    rw [onChip_mem]
    exact h
  · exact h

theorem keeps_execFenceContained (u : UnitId) : Keeps (execFenceContained u) :=
  keeps_liftS fun y h => by grind [onChip_mem, Sys.wf_unitRests]

theorem Sys.wf_thaw {y : Sys} (r : PageRef) (h : y.mem.wf = true) : (y.thaw r).mem.wf = true := by
  unfold Sys.thaw
  grind [Sys.wf_copySettle, Sys.wf_ringDrain, wf_forEachS]

theorem keeps_execFreeze (page : Nat) (on : Bool) : Keeps (execFreeze page on) :=
  keeps_liftS fun y h => by grind [onChip_mem, Sys.wf_thaw]

/-! ## Resets -/

theorem wf_xcEnds {y : Sys} (c : Nat) (h : y.mem.wf = true) : (execClusterReset.xcEnds c y).mem.wf = true :=
  wf_forEachS _ _ (fun d _ hz => Sys.wf_copySettle d 1 (Sys.wf_copySettle d 0 hz)) h

theorem keeps_execClusterReset (c : ClusterNo) : Keeps (execClusterReset c) :=
  keeps_liftS fun _ h => wf_ite h (wf_xcEnds c h)

/-! ## Pair -/

theorem keeps_execRepair (m : PairMsg) : Keeps (execRepair m) :=
  keeps_liftS fun y h => by grind [onChip_mem, Sys.readBlk_mem, Sys.wf_writeBlk]

theorem keeps_execResync (m : PairMsg) (snap : Option Snap) : Keeps (execResync m snap) :=
  keeps_liftS fun y h => by grind [onChip_mem, Sys.wf_writeBlk]

/-! ## Quote -/

theorem Sys.wf_flashErase {y : Sys} (a : Nat) (h : y.mem.wf = true) : (y.flashErase a).mem.wf = true := by
  unfold Sys.flashErase
  grind [Sys.wf_flashPut]

theorem Sys.wf_flashProgram {y : Sys} (a : Nat) (d : List Byte) (h : y.mem.wf = true) :
    (y.flashProgram a d).2.mem.wf = true := by
  unfold Sys.flashProgram
  grind [Sys.wf_flashPut]

theorem Sys.wf_lmsReserve {y : Sys} (k : Nat) (h : y.mem.wf = true) : (y.lmsReserve k).2.mem.wf = true := by
  induction k generalizing y with
  | zero => exact h
  | succ k ih =>
    unfold Sys.lmsReserve
    grind [onChip_mem, Sys.wf_flashErase, Sys.wf_flashProgram]

theorem Sys.wf_lmsTry {y : Sys}  (h : y.mem.wf = true) : (y.lmsTry ).2.mem.wf = true := by
  unfold Sys.lmsTry
  grind [Sys.wf_lmsReserve]

theorem keeps_execQuote : Keeps execQuote :=
  keeps_liftS fun y h => by grind [onChip_mem, Sys.wf_lmsTry]

/-! ## Pins -/

theorem keeps_execChipReset : Keeps execChipReset :=
  keeps_liftS fun y h => by grind [onChip_mem, Sys.wf_chipReset]

theorem Sys.wf_heldReset {y : Sys}  (h : y.mem.wf = true) : (y.heldReset ).mem.wf = true := by
  unfold Sys.heldReset
  grind [onChip_mem, Sys.wf_chipReset]

theorem keeps_execResetN (lowUs : Nat) : Keeps (execResetN lowUs) :=
  keeps_liftS fun y h => by grind [onChip_mem, Sys.wf_heldReset]

theorem keeps_execPwrgoodFall : Keeps execPwrgoodFall :=
  keeps_liftS fun y h => by grind [onChip_mem, Sys.wf_heldReset]

/-! ## Frog -/

theorem Sys.wf_frogEnqueue {y : Sys} (c a : Nat) (h : y.mem.wf = true) : (y.frogEnqueue c a).mem.wf = true :=
    by
  unfold Sys.frogEnqueue
  grind [onChip_mem, Sys.wf_stRead]

theorem keeps_execFgPost (c : ClusterNo) (ag : Agent) (v : Word) : Keeps (execFgPost c ag v) :=
  keeps_liftS fun y h => by grind [Sys.wf_frogEnqueue]

theorem Sys.wf_frogPost {y : Sys} (c : Nat) (d : List Word) (w : List Byte) (h : y.mem.wf = true) :
    (y.frogPost c d w).mem.wf = true := Sys.wf_stWrite _ _ _ h

theorem Sys.wf_frogEndUe {y : Sys} (c : Nat) (d : List Word) (badcode badscale : Bool) (h : y.mem.wf = true) :
    (y.frogEndUe c d badcode badscale).mem.wf = true := Sys.wf_frogPost _ _ _ h

theorem Sys.wf_frogStart {y : Sys} (c : Nat) (ops : List Nat) (run : Nat → List Word → Sys → Sys)
    (hrun : ∀ a b z, z.mem.wf = true → (run a b z).mem.wf = true) (h : y.mem.wf = true) :
    (y.frogStart c ops run).mem.wf = true := by
  unfold Sys.frogStart
  grind [onChip_mem]

theorem Sys.wf_readRuns {y : Sys} (c base stride len n : Nat) (h : y.mem.wf = true) :
    (y.readRuns c base stride len n).2.2.mem.wf = true := by
  induction n generalizing y base with
  | zero => exact h
  | succ n ih => exact ih (base + stride) (Sys.wf_stRead c base len h)

theorem Sys.wf_meetEnds {y : Sys} (c base stride len n : Nat) (h : y.mem.wf = true) :
    (y.meetEnds c base stride len n).mem.wf = true := by
  unfold Sys.meetEnds
  grind [Sys.wf_stRead, Sys.wf_invLines, wf_forEachS]

theorem Sys.wf_writeRuns {y : Sys} (c base stride : Nat) (l : List (List Byte)) (h : y.mem.wf = true) :
    (y.writeRuns c base stride l).mem.wf = true := by
  unfold Sys.writeRuns
  induction l generalizing y base with
  | nil => exact h
  | cons d l ih => exact ih (base + stride) (Sys.wf_stWrite c base d h)

theorem Sys.wf_readPlane {y : Sys} (c f p stride k n : Nat) (h : y.mem.wf = true) :
    (y.readPlane c f p stride k n).2.2.mem.wf = true := by
  unfold Sys.readPlane
  grind [Sys.wf_stRead, Sys.wf_readRuns]

theorem Sys.wf_drain {y : Sys} (c : Nat) (d : List Word) (rows rq : List (List (Int × Bool)))
    (h : y.mem.wf = true) : (y.drain c d rows rq).mem.wf = true := by
  unfold Sys.drain
  grind [Sys.wf_writeRuns]

theorem Sys.wf_tileMain {y : Sys} (c : Nat) (d : List Word) (pa pb : Plane) (out : List ScaleRec)
    (h : y.mem.wf = true) : (y.tileMain c d pa pb out).mem.wf = true := by
  unfold Sys.tileMain
  grind [onChip_mem, Sys.wf_frogPost, Sys.wf_readRuns, Sys.wf_meetEnds, Sys.wf_drain, Sys.wf_frogEndUe]

theorem Sys.wf_tileRun {y : Sys} (c : Nat) (d : List Word) (h : y.mem.wf = true) : (y.tileRun c d).mem.wf =
    true := by
  unfold Sys.tileRun
  grind [Sys.wf_stRead, Sys.wf_readPlane, Sys.wf_tileMain, Sys.wf_frogEndUe]

theorem keeps_execTile (c : ClusterNo) : Keeps (execTile c) :=
  keeps_liftS fun y h => by grind [Sys.wf_frogStart, Sys.wf_tileRun]

theorem Sys.wf_loadMain {y : Sys} (c : Nat) (d : List Word) (w : Nat) (h : y.mem.wf = true) :
    (y.loadMain c d w).mem.wf = true := by
  unfold Sys.loadMain
  grind [onChip_mem, Sys.wf_frogPost, Sys.wf_frogEndUe, Sys.wf_readRuns]

theorem keeps_execLoad (c : ClusterNo) : Keeps (execLoad c) :=
  keeps_liftS fun y h => by grind [Sys.wf_stRead, Sys.wf_frogStart, Sys.wf_loadMain, Sys.wf_frogEndUe]

/-! ## Scan -/

theorem Sys.wf_readLanes {y : Sys} (c : Nat) (d : List Word) (base stride w : Nat) (h : y.mem.wf = true) :
    (y.readLanes c d base stride w).2.2.mem.wf = true := by
  refine List.foldlRecOn (motive := fun t : List (List Int) × Bool × Sys => t.2.2.mem.wf = true) _ _ h ?_
  rintro ⟨ls, bad, z⟩ hz l -
  generalize laneAt d base stride w l = p
  obtain ⟨a, n⟩ := p
  exact Sys.wf_stRead c a (n * w) hz

theorem Sys.wf_readH0 {y : Sys} (c : Nat) (d : List Word) (h : y.mem.wf = true) : (y.readH0 c d).2.2.mem.wf =
    true := by
  unfold Sys.readH0
  grind [Sys.wf_stRead]

theorem Sys.wf_writeLanes {y : Sys} (c : Nat) (d : List Word) (ls : List (List Int)) (h : y.mem.wf = true) :
    (y.writeLanes c d ls).mem.wf = true := by
  unfold Sys.writeLanes
  generalize 0 = k
  induction ls generalizing y k with
  | nil => exact h
  | cons vs ls ih => exact ih (Sys.wf_stWrite _ _ _ h) (k + 1)

theorem Sys.wf_meetLanes {y : Sys} (c : Nat) (d : List Word) (h : y.mem.wf = true) : (y.meetLanes c d).mem.wf
    = true := by
  unfold Sys.meetLanes
  grind [Sys.wf_meetEnds, wf_forEachS]

theorem Sys.wf_scanDone {y : Sys} (c n : Nat) (d : List Word) (finals : List Int) (exact : Bool) (count : Nat)
    (h : y.mem.wf = true) : (y.scanDone c n d finals exact count).mem.wf = true := by
  unfold Sys.scanDone
  grind [Sys.wf_stWrite, Sys.wf_frogPost]

theorem Sys.wf_scanUe {y : Sys} (c n : Nat) (d : List Word) (h : y.mem.wf = true) : (y.scanUe c n d).mem.wf =
    true := by
  unfold Sys.scanUe
  grind [Sys.wf_frogEndUe]

theorem Sys.wf_scanOut {y : Sys} (c n : Nat) (d : List Word) (go : Sys → Sys)
    (hgo : ∀ z, z.mem.wf = true → (go z).mem.wf = true) (h : y.mem.wf = true) : (y.scanOut c n d go).mem.wf =
    true := by
  unfold Sys.scanOut
  grind [Sys.wf_meetLanes, Sys.wf_scanUe]

theorem Sys.wf_prefixEnd {y : Sys} (c n : Nat) (d : List Word) (starts : List (Int × Bool))
    (els : List (List Int)) (finals : List (Int × Bool)) (carry : Bool) (h : y.mem.wf = true) :
    (y.prefixEnd c n d starts els finals carry).mem.wf = true := by
  unfold Sys.prefixEnd
  grind [Sys.wf_writeLanes, Sys.wf_scanDone, Sys.wf_scanOut]

theorem Sys.wf_gatherEnd {y : Sys} (c : Nat) (w : ScanWait) (carry : Int × Bool) (h : y.mem.wf = true) :
    (y.gatherEnd c w carry).mem.wf = true := by
  unfold Sys.gatherEnd
  grind [Sys.wf_prefixEnd]

theorem Sys.wf_relayRun {y : Sys} (c n : Nat) (d : List Word) (starts : List (Int × Bool))
    (h : y.mem.wf = true) : (y.relayRun c n d starts).mem.wf = true := by
  unfold Sys.relayRun
  grind [onChip_mem, Sys.wf_readLanes, Sys.wf_writeLanes, Sys.wf_scanDone, Sys.wf_scanUe, Sys.wf_scanOut,
    Sys.wf_prefixEnd]

theorem Sys.wf_takePost {y : Sys} (c : Nat) (w : ScanWait) (p : Post) (h : y.mem.wf = true) :
    (y.takePost c w p).mem.wf = true := by
  unfold Sys.takePost
  grind [Sys.wf_gatherEnd, Sys.wf_relayRun]

theorem Sys.wf_enterWait {y : Sys} (c : Nat) (w : ScanWait) (h : y.mem.wf = true) : (y.enterWait c w).mem.wf =
    true := by
  unfold Sys.enterWait
  grind [Sys.wf_takePost]

theorem Sys.wf_gatherRun {y : Sys} (c n : Nat) (d : List Word) (h : y.mem.wf = true) :
    (y.gatherRun c n d).mem.wf = true := by
  unfold Sys.gatherRun
  grind [onChip_mem, Sys.wf_readLanes, Sys.wf_readH0, Sys.wf_scanUe, Sys.wf_gatherEnd, Sys.wf_enterWait]

theorem keeps_execScan (c : ClusterNo) : Keeps (execScan c) :=
  keeps_liftS fun y h => by grind [Sys.wf_frogStart, Sys.wf_readH0, Sys.wf_scanUe, Sys.wf_relayRun,
    Sys.wf_enterWait, Sys.wf_gatherRun]

theorem keeps_execCarryPost (c : ClusterNo) (i : Nat) : Keeps (execCarryPost c i) :=
  keeps_liftS fun y h => by grind [onChip_mem, Sys.wf_takePost]

theorem Sys.wf_spoilLanes {y : Sys} (c : Nat) (d : List Word) (h : y.mem.wf = true) :
    (y.spoilLanes c d).mem.wf = true := by
  unfold Sys.spoilLanes
  grind [Sys.wf_writeLanes]

theorem Sys.wf_endWait {y : Sys} (c : Nat) (w : ScanWait) (st : Status) (h : y.mem.wf = true) :
    (y.endWait c w st).mem.wf = true := by
  unfold Sys.endWait
  grind [onChip_mem, Sys.wf_frogPost]

theorem keeps_execAbortPost (c : ClusterNo) (i : Nat) : Keeps (execAbortPost c i) :=
  keeps_liftS fun y h => by grind [Sys.wf_spoilLanes, Sys.wf_endWait]

theorem keeps_execCarryTmo (c : ClusterNo) : Keeps (execCarryTmo c) :=
  keeps_liftS fun y h => by grind [onChip_mem, Sys.wf_endWait]

/-! ## RegWrite -/

theorem wf_viaRow {y : Sys} {f : State → Host.Outcome State Fault Refusal} (hf : Keeps f) (h : y.mem.wf = true) :
    (viaRow f y).mem.wf = true := by
  unfold viaRow
  split
  · exact hf ⟨[], y⟩ _ h (by assumption)
  · exact h

theorem wf_viaFin {y : Sys} {n : Nat} (k : Nat) {f : Fin n → State → Host.Outcome State Fault Refusal}
    (hf : ∀ i, Keeps (f i)) (h : y.mem.wf = true) : (viaFin k f y).mem.wf = true := by
  unfold viaFin
  split
  · exact wf_viaRow (hf _) h
  · exact h

/-- The rows that a register write carries out and that act on the chip alone. -/
theorem wf_viaChip {y : Sys} {f : State → Host.Outcome State Fault Refusal}
    (hf : ∀ s, ∃ x, f s = .next { s with sys := { s.sys with chip := x } }) (h : y.mem.wf = true) :
    (viaRow f y).mem.wf = true := wf_viaRow (keeps_of_chip hf) h

theorem wf_viaFinChip {y : Sys} {n : Nat} (k : Nat) {f : Fin n → State → Host.Outcome State Fault Refusal}
    (hf : ∀ i s, ∃ x, f i s = .next { s with sys := { s.sys with chip := x } }) (h : y.mem.wf = true) :
    (viaFin k f y).mem.wf = true := wf_viaFin k (fun i => keeps_of_chip (hf i)) h

theorem Sys.wf_softReset {y : Sys} (r : PageRef) (h : y.mem.wf = true) : (y.softReset r).mem.wf = true := by
  unfold Sys.softReset
  split
  · exact wf_viaFin _ keeps_execClusterReset h
  · exact wf_viaFinChip _ (fun _ _ => ⟨_, rfl⟩) h
  · exact wf_viaFinChip _ (fun _ _ => ⟨_, rfl⟩) h
  · exact wf_viaChip (fun _ => ⟨_, rfl⟩) h
  · exact wf_ite h (wf_viaFinChip _ (fun _ _ => ⟨_, rfl⟩) h)
  · exact wf_viaFinChip _ (fun _ _ => ⟨_, rfl⟩) h
  · exact h

theorem Sys.wf_errInject {y : Sys} (r : PageRef) (v : Word) (h : y.mem.wf = true) :
    (y.errInject r v).mem.wf = true := by
  refine wf_ite h ?_
  split
  · exact wf_viaFinChip _ (fun _ _ => ⟨_, rfl⟩) h
  · exact wf_viaFinChip _ (fun _ _ => ⟨_, rfl⟩) h
  · exact wf_viaFinChip _ (fun _ _ => ⟨_, rfl⟩) h
  · exact h

theorem Sys.wf_headWrite {y : Sys} (r : PageRef) (v : Word) (h : y.mem.wf = true) : (y.headWrite r v).mem.wf =
    true := by
  unfold Sys.headWrite
  grind [onChip_mem, Sys.wf_thaw, Sys.wf_softReset, Sys.wf_errInject]

theorem Sys.wf_pairCmd {y : Sys} (v : Word) (h : y.mem.wf = true) : (y.pairCmd v).mem.wf = true := by
  unfold Sys.pairCmd
  split
  · exact wf_viaChip (fun _ => ⟨_, rfl⟩) h
  · exact wf_viaChip (fun _ => ⟨_, rfl⟩) h
  · exact wf_viaChip (fun _ => ⟨_, rfl⟩) h
  · exact h

theorem Sys.wf_nwCtl {y : Sys} (r : PageRef) (v : Word) (h : y.mem.wf = true) : (y.nwCtl r v).mem.wf = true := by
  have go : ∀ {f : ClusterNo → NewtNo → State → Host.Outcome State Fault Refusal} (c m : Nat),
      (∀ c m, Keeps (f c m)) →
      (viaFin c (fun c t => if hm : m < 128 then f c ⟨m, hm⟩ t else .next t) y).mem.wf = true := by
    intro f c m hf
    refine wf_viaFin c (fun c s t hs e => ?_) h
    split at e
    · exact hf _ _ s t hs e
    · cases e; exact hs
  unfold Sys.nwCtl
  split
  · exact go _ _ fun _ _ => keeps_of_chip fun _ => ⟨_, rfl⟩
  · exact go _ _ fun _ _ => keeps_of_chip fun _ => ⟨_, rfl⟩
  · exact go _ _ fun _ _ => keeps_of_chip fun _ => ⟨_, rfl⟩
  · exact h

theorem Sys.wf_mboxWrite {y : Sys} (ag : Agent) (c : Nat) (v : Word) (h : y.mem.wf = true) :
    (y.mboxWrite ag c v).mem.wf = true := by
  unfold Sys.mboxWrite
  have hin : ∀ z : Sys, z.mem.wf = true → (if isDev ag = true then viaFin c execMboxInSet z
      else viaFin c execMboxInClear z).mem.wf = true := fun z hz =>
    wf_ite (wf_viaFinChip _ (fun _ _ => ⟨_, rfl⟩) hz) (wf_viaFinChip _ (fun _ _ => ⟨_, rfl⟩) hz)
  have hout : ∀ z : Sys, z.mem.wf = true → (if isDev ag = true then viaFin c execMboxOutClear z
      else viaFin c execMboxOutSet z).mem.wf = true := fun z hz =>
    wf_ite (wf_viaFinChip _ (fun _ _ => ⟨_, rfl⟩) hz) (wf_viaFinChip _ (fun _ _ => ⟨_, rfl⟩) hz)
  have h1 := wf_ite (p := Word.bit v 0 = true) (hin y h) h
  exact wf_ite (hout _ h1) h1

theorem Sys.wf_gateCtrl {y : Sys} (eth : Bool) (v : Word) (h : y.mem.wf = true) :
    (y.gateCtrl eth v).mem.wf = true := by
  unfold Sys.gateCtrl
  have hrow : ∀ {p : Prop} [Decidable p] {f : State → Host.Outcome State Fault Refusal} {z : Sys},
      (∀ s, ∃ x, f s = .next { s with sys := { s.sys with chip := x } }) → z.mem.wf = true →
      (if p then viaRow f z else z).mem.wf = true := fun hf hz => wf_ite (wf_viaChip hf hz) hz
  exact hrow (fun _ => ⟨_, rfl⟩) (hrow (fun _ => ⟨_, rfl⟩) h)

theorem Sys.wf_vecWrite {y : Sys} (r : PageRef) (v : Word) (h : y.mem.wf = true) : (y.vecWrite r v).mem.wf = true :=
  wf_ite h (wf_viaFinChip _ (fun _ _ => ⟨_, rfl⟩) h)

/-- A register write's effect, where it has one, keeps the form. -/
def KeepsIf (y : Sys) (o : Option Sys) : Prop := y.mem.wf = true → ∀ z, o = some z → z.mem.wf = true

theorem keepsIf_some {y z : Sys} (h : y.mem.wf = true → z.mem.wf = true) : KeepsIf y (some z) := by
  intro hy w e
  cases e
  exact h hy

theorem keepsIf_none (y : Sys) : KeepsIf y none := fun _ _ e => nomatch e

theorem keepsIf_ite {y : Sys} {p : Prop} [Decidable p] {a b : Option Sys} (ha : KeepsIf y a) (hb : KeepsIf y b) :
    KeepsIf y (if p then a else b) := by
  split <;> assumption

theorem keeps_viaEng (k : Nat) {f : EngNo → State → Host.Outcome State Fault Refusal} (hf : ∀ e, Keeps (f e)) :
    Keeps (Sys.nearEffect.viaEng k f) := by
  intro s t hs e
  unfold Sys.nearEffect.viaEng at e
  split at e
  · exact hf _ s t hs e
  · cases e; exact hs

theorem Sys.keepsIf_nearEffect (y : Sys) (ag : Agent) (r : PageRef) (v : Word) :
    KeepsIf y (y.nearEffect ag r v) := by
  have row : ∀ {p : Prop} [Decidable p] {f : State → Host.Outcome State Fault Refusal}, Keeps f →
      KeepsIf y (some (if p then viaRow f y else y)) := fun hf => keepsIf_some fun h => wf_ite (wf_viaRow hf h) h
  unfold Sys.nearEffect
  split
  · exact keepsIf_some (wf_viaChip fun _ => ⟨_, rfl⟩)
  · exact row keeps_execQuote
  · exact keepsIf_ite (keepsIf_some id) (keepsIf_none y)
  · exact keepsIf_some id
  · exact row (keeps_of_chip fun _ => ⟨_, rfl⟩)
  · exact keepsIf_some (wf_viaChip fun _ => ⟨_, rfl⟩)
  · exact keepsIf_some (wf_viaFin _ fun _ => keeps_viaEng _ fun _ => keeps_of_chip fun _ => ⟨_, rfl⟩)
  · exact keepsIf_some (wf_viaFin _ fun _ => keeps_viaEng _ fun _ => keeps_execCpKick _ _ _ _)
  · exact keepsIf_some (wf_viaFin _ fun _ => keeps_execFgPost _ _ _)
  · refine keepsIf_some fun h => ?_
    split
    · exact wf_viaFinChip _ (fun _ _ => ⟨_, rfl⟩) h
    · exact wf_viaFinChip _ (fun _ _ => ⟨_, rfl⟩) h
    · exact h
  · exact keepsIf_some id
  · exact keepsIf_some id
  · exact keepsIf_some (wf_viaFinChip _ fun _ _ => ⟨_, rfl⟩)
  · exact keepsIf_some (wf_viaFinChip _ fun _ _ => ⟨_, rfl⟩)
  · exact keepsIf_some (wf_viaFinChip _ fun _ _ => ⟨_, rfl⟩)
  · exact keepsIf_some (wf_viaFinChip _ fun _ _ => ⟨_, rfl⟩)
  · exact keepsIf_some fun h => wf_ite (wf_viaFinChip _ (fun _ _ => ⟨_, rfl⟩) h) h
  · exact keepsIf_some (Sys.wf_mboxWrite _ _ _)
  · exact keepsIf_ite (keepsIf_some (Sys.wf_nwCtl _ _)) (keepsIf_none y)
  · exact keepsIf_some id
  · exact keepsIf_none y

theorem Sys.keepsIf_farEffect (y : Sys) (r : PageRef) (v : Word) : KeepsIf y (y.farEffect r v) := by
  have row : ∀ {f : State → Host.Outcome State Fault Refusal},
      (∀ s, ∃ x, f s = .next { s with sys := { s.sys with chip := x } }) → KeepsIf y (some (viaRow f y)) :=
    fun hf => keepsIf_some (wf_viaChip hf)
  have chip : ∀ f, KeepsIf y (some (onChip f y)) := fun f => keepsIf_some id
  unfold Sys.farEffect
  split
  · exact keepsIf_some fun h => wf_ite (wf_viaFinChip _ (fun _ _ => ⟨_, rfl⟩) h) h
  · exact keepsIf_some fun h => wf_viaChip (fun _ => ⟨_, rfl⟩) h
  · exact row fun _ => ⟨_, rfl⟩
  · exact row fun _ => ⟨_, rfl⟩
  · exact chip _
  · exact chip _
  · exact chip _
  · exact chip _
  · exact chip _
  · exact row fun _ => ⟨_, rfl⟩
  · exact chip _
  · exact chip _
  · exact chip _
  · exact chip _
  · exact chip _
  · dsimp only
    refine keepsIf_ite (keepsIf_none y) ?_
    split
    · exact chip _
    · exact chip _
    · exact chip _
    · exact keepsIf_some (Sys.wf_gateCtrl _ _)
    · exact keepsIf_none y

theorem Sys.keepsIf_poolEffect (y : Sys) (r : PageRef) (v : Word) : KeepsIf y (y.poolEffect r v) := by
  have row : ∀ {p : Prop} [Decidable p] {f : State → Host.Outcome State Fault Refusal},
      (∀ s, ∃ x, f s = .next { s with sys := { s.sys with chip := x } }) →
      KeepsIf y (some (if p then viaRow f y else y)) := fun hf => keepsIf_some fun h => wf_ite (wf_viaChip hf h) h
  unfold Sys.poolEffect
  split
  · exact keepsIf_some fun h => wf_ite h h
  · exact keepsIf_some (wf_viaChip fun _ => ⟨_, rfl⟩)
  · exact keepsIf_some id
  · exact keepsIf_some id
  · exact keepsIf_some id
  · exact keepsIf_ite (keepsIf_some (Sys.wf_vecWrite _ _)) (keepsIf_none y)
  · exact keepsIf_some fun h => wf_ite (wf_viaFinChip _ (fun _ _ => ⟨_, rfl⟩) h) h
  · exact keepsIf_some id
  · exact keepsIf_some (Sys.wf_pairCmd _)
  · exact row fun _ => ⟨_, rfl⟩
  · exact keepsIf_some id
  · exact row fun _ => ⟨_, rfl⟩
  · exact keepsIf_none y

theorem keepsIf_orElse {y : Sys} {a b : Option Sys} (ha : KeepsIf y a) (hb : KeepsIf y b) :
    KeepsIf y (a.orElse fun _ => b) := by
  cases a with
  | none => exact hb
  | some z => exact ha

theorem Sys.wf_regEffect {y : Sys} (ag : Agent) (r : PageRef) (v : Word) (h : y.mem.wf = true) :
    (y.regEffect ag r v).mem.wf = true := by
  have he := keepsIf_orElse (y.keepsIf_nearEffect ag r v)
    (keepsIf_orElse (y.keepsIf_farEffect r v) (y.keepsIf_poolEffect r v)) h
  refine wf_ite (Sys.wf_headWrite r v h) ?_
  split
  · exact he _ (by assumption)
  · exact h

theorem keeps_execTlbPreload (c : ClusterNo) (v : Word) : Keeps (execTlbPreload c v) :=
  keeps_of_chip fun _ => ⟨_, rfl⟩

theorem Sys.wf_pairEffect {y : Sys} (r : PageRef) (lo hi : Word) (h : y.mem.wf = true) :
    (y.pairEffect r lo hi).mem.wf = true := by
  unfold Sys.pairEffect
  split
  · exact wf_viaFin _ (fun c => keeps_execTlbPreload c hi) h
  · exact h
  · exact h
  · exact h

theorem Sys.wf_regWrite {y : Sys} (ag : Agent) (a : Nat) (v : Word) (h : y.mem.wf = true) :
    (y.regWrite ag a v).mem.wf = true := by
  unfold Sys.regWrite
  grind [onChip_mem, Sys.wf_regEffect, Sys.wf_pairEffect]

theorem Sys.wf_writeRun {y : Sys} (ag : Agent) (a : Nat) (l : List Word) (h : y.mem.wf = true) :
    (y.writeRun ag a l).mem.wf = true := by
  induction l generalizing y a with
  | nil => exact h
  | cons v l ih => exact ih (a + 4) (Sys.wf_regWrite ag a v h)

theorem keeps_execRegisterWrite (ag : Agent) (addr : Nat) (v : Word) : Keeps (execRegisterWrite ag addr v) := by
  intro s t hs e
  unfold execRegisterWrite at e
  split at e
  · cases e
  · exact keeps_liftS (fun y h => Sys.wf_regWrite ag addr v h) s t hs e

/-! ## ChainBase -/

theorem Sys.wf_chainDo {y : Sys} (f : ChainFrame) (act : Sys → (Status × List Byte) × Sys)
    (hact : ∀ z, z.mem.wf = true → (act z).2.mem.wf = true) (h : y.mem.wf = true) : (y.chainDo f act).mem.wf =
    true := by
  unfold Sys.chainDo
  grind

theorem Sys.wf_chainAct {y : Sys} (f : ChainFrame) (act : Sys → (Status × List Byte) × Sys)
    (hact : ∀ z, z.mem.wf = true → (act z).2.mem.wf = true) (h : y.mem.wf = true) : (y.chainAct f act).mem.wf
    = true := by
  unfold Sys.chainAct
  grind [onChip_mem, Sys.wf_chainDo]

theorem Sys.wf_chainPass {y : Sys} (f : ChainFrame) (h : y.mem.wf = true) : (y.chainPass f).mem.wf = true :=
    by
  unfold Sys.chainPass
  grind [onChip_mem, Sys.wf_chainAct]

theorem Sys.wf_chainReq {y : Sys} (f : ChainFrame) (kind : Bool) (act : Sys → (Status × List Byte) × Sys)
    (hact : ∀ z, z.mem.wf = true → (act z).2.mem.wf = true) (h : y.mem.wf = true) :
    (y.chainReq f kind act).mem.wf = true := by
  unfold Sys.chainReq
  grind [onChip_mem, Sys.wf_chainAct, Sys.wf_chainPass]

/-! ## Mgmt -/

theorem Sys.wf_mgmtTurn {y : Sys} (input : Bool) (id : Nat) (f : Sys → Sys)
    (hf : ∀ z, z.mem.wf = true → (f z).mem.wf = true) (h : y.mem.wf = true) : (y.mgmtTurn input id f).mem.wf =
    true := by
  unfold Sys.mgmtTurn
  grind [Sys.wf_turnOf]

theorem Sys.wf_xhtMgmt {y : Sys} (q : CmdReq) (input : Bool) (ok : Bool) (act : Sys → List Byte × Sys)
    (hact : ∀ z, z.mem.wf = true → (act z).2.mem.wf = true) (h : y.mem.wf = true) :
    (y.xhtMgmt q input ok act).mem.wf = true := by
  unfold Sys.xhtMgmt
  grind [onChip_mem, Sys.wf_mgmtTurn]

theorem Sys.wf_fabricMgmt {y : Sys} (pkt : Packet) (input : Bool) (len : Nat) (ok : Bool)
    (act : Sys → List Byte × Sys) (hact : ∀ z, z.mem.wf = true → (act z).2.mem.wf = true)
    (h : y.mem.wf = true) : (y.fabricMgmt pkt input len ok act).mem.wf = true := by
  unfold Sys.fabricMgmt
  grind [onChip_mem, Sys.wf_mgmtTurn]

theorem Sys.wf_chainMgmt {y : Sys} (f : ChainFrame) (ok : Bool) (act : Sys → List Byte × Sys)
    (hact : ∀ z, z.mem.wf = true → (act z).2.mem.wf = true) (h : y.mem.wf = true) :
    (y.chainMgmt f ok act).mem.wf = true := by
  unfold Sys.chainMgmt
  grind [onChip_mem, Sys.wf_chainReq]

theorem keeps_execMgmtRead (src : MgmtSrc) (addr count : Nat) : Keeps (execMgmtRead src addr count) :=
  keeps_liftS fun y h => by grind [Sys.wf_xhtMgmt, Sys.wf_fabricMgmt, Sys.wf_chainMgmt]

theorem keeps_execMgmtWrite (src : MgmtSrc) (addr : Nat) (data : List Word) : Keeps
    (execMgmtWrite src addr data) :=
  keeps_liftS fun y h => by grind [Sys.wf_writeRun, Sys.wf_xhtMgmt, Sys.wf_fabricMgmt, Sys.wf_chainMgmt]

theorem keeps_execVote (a b c : Option CoreWrite) : Keeps (execVote a b c) :=
  keeps_liftS fun y h => by grind [onChip_mem, Sys.wf_regWrite]

/-! ## Boot -/

theorem Sys.wf_applyCfg {y : Sys} (e : CfgEnt) (h : y.mem.wf = true) : (y.applyCfg e).mem.wf = true := by
  unfold Sys.applyCfg
  grind [onChip_mem, Sys.wf_regWrite]

theorem Sys.wf_beginStage {y : Sys} (k : Nat) (h : y.mem.wf = true) : (y.beginStage k).mem.wf = true := by
  unfold Sys.beginStage
  grind [onChip_mem, Sys.wf_applyCfg, wf_forEachS]

theorem Sys.wf_passStage {y : Sys} (data : List Byte) (h : y.mem.wf = true) : (y.passStage data).mem.wf = true
    := by
  unfold Sys.passStage
  grind [onChip_mem, Sys.wf_beginStage]

theorem Sys.wf_runS0 {y : Sys} (plls straps : Nat) (h : y.mem.wf = true) : (y.runS0 plls straps).mem.wf = true
    := by
  unfold Sys.runS0
  grind [onChip_mem, Sys.wf_passStage]

theorem Sys.wf_choose {y : Sys}  (h : y.mem.wf = true) : (y.choose ).mem.wf = true := by
  unfold Sys.choose
  grind [onChip_mem]

theorem Sys.wf_runS1 {y : Sys}  (h : y.mem.wf = true) : (y.runS1 ).mem.wf = true := by
  unfold Sys.runS1
  grind [Sys.wf_passStage, Sys.wf_choose]

theorem Sys.wf_runS2 {y : Sys} (units : List (Nat × List Nat)) (links lanes : Nat) (blocks : Bool)
    (h : y.mem.wf = true) : (y.runS2 units links lanes blocks).mem.wf = true := by
  unfold Sys.runS2
  grind [onChip_mem, Sys.wf_passStage]

theorem Sys.wf_runS3 {y : Sys} (trained : List Nat) (h : y.mem.wf = true) : (y.runS3 trained).mem.wf = true :=
    by
  unfold Sys.runS3
  grind [onChip_mem, Sys.wf_passStage]

theorem Sys.wf_fillPasses {y : Sys} (fails : List (Nat × Nat × Nat)) (h : y.mem.wf = true) :
    (y.fillPasses fails).mem.wf = true := by
  unfold Sys.fillPasses
  refine wf_ite h ?_
  rw [onChip_mem, onMem_mem, onChip_mem, Mem.wf_iff] at *
  obtain ⟨h1, h2, h3, h4, -, -, h7⟩ := h
  exact ⟨h1, h2, h3, h4, rfl, wf_foldl_put _ _ _ rfl, h7⟩

theorem Sys.wf_decodePass {y : Sys}  (h : y.mem.wf = true) : (y.decodePass ).mem.wf = true := by
  unfold Sys.decodePass
  grind [onChip_mem, Sys.readBlk_mem, Sys.wf_passStage, wf_forEachS]

theorem Sys.wf_runS4 {y : Sys} (fails : List (Nat × Nat × Nat)) (all : Bool) (h : y.mem.wf = true) :
    (y.runS4 fails all).mem.wf = true := by
  unfold Sys.runS4
  grind [Sys.wf_fillPasses, Sys.wf_decodePass]

theorem Sys.wf_fetchBlocks {y : Sys} (b n : Nat) (h : y.mem.wf = true) : (y.fetchBlocks b n).2.mem.wf = true := by
  induction n generalizing y b with
  | zero => exact h
  | succ n ih =>
    unfold Sys.fetchBlocks
    grind [onChip_mem, Sys.readBlk_mem]

theorem Sys.wf_startCcc {y : Sys} (c : Nat) (h : y.mem.wf = true) : (y.startCcc c).mem.wf = true := by
  have hf := Sys.wf_fetchBlocks ((y.chip.rsv + 0x800000) / 2048) 8 h
  unfold Sys.startCcc
  split <;> rename_i e <;> rw [e] at hf
  · exact hf
  · exact Sys.wf_loadSram _ _ _ _ _ (Sys.wf_loadSram _ _ _ _ _ (Sys.wf_stWrite _ _ _ hf))

/-- The kernel would evaluate the block numbers of the parts, which the form does not depend on: they are
abstracted before the definition is opened (`id` keeps the abstraction from being undone). -/
theorem Sys.wf_placeImages {y : Sys} (clu nwt : List Byte) (h : y.mem.wf = true) :
    (y.placeImages clu nwt).mem.wf = true := by
  suffices key : ∀ F, F = Sys.placeImages → ∀ (y : Sys) clu nwt, y.mem.wf = true → (F y clu nwt).mem.wf = true from
    key _ rfl y clu nwt h
  intro F
  delta Sys.placeImages
  generalize Chip.rsv = rsv
  generalize tableParts = parts
  revert rsv parts
  refine id ?_
  rintro rsv parts rfl y clu nwt h
  exact wf_forEachS _ _ (fun c _ hz => Sys.wf_startCcc c hz) (Sys.wf_tableAll _ _ (Sys.wf_tableAll _ _ h))

theorem Sys.wf_endS5 {y : Sys}  (h : y.mem.wf = true) : (y.endS5 ).mem.wf = true := by
  unfold Sys.endS5
  grind [Sys.wf_passStage]

theorem Sys.wf_runS5 {y : Sys}  (h : y.mem.wf = true) : (y.runS5 ).mem.wf = true := by
  unfold Sys.runS5
  grind [onChip_mem, Sys.wf_placeImages, Sys.wf_endS5]

theorem Sys.wf_runS6 {y : Sys}  (h : y.mem.wf = true) : (y.runS6 ).mem.wf = true := by
  unfold Sys.runS6
  grind [Sys.wf_passStage]

theorem Sys.wf_runS7 {y : Sys}  (h : y.mem.wf = true) : (y.runS7 ).mem.wf = true := by
  unfold Sys.runS7
  grind [onChip_mem, Sys.wf_passStage]

theorem Sys.wf_identity {y : Sys}  (h : y.mem.wf = true) : (y.identity ).mem.wf = true := by
  unfold Sys.identity
  grind [onChip_mem]

theorem Sys.wf_runS8 {y : Sys}  (h : y.mem.wf = true) : (y.runS8 ).mem.wf = true := by
  unfold Sys.runS8
  grind [onChip_mem, Sys.wf_lmsTry, Sys.wf_identity]

theorem Sys.wf_boundOver {y : Sys}  (h : y.mem.wf = true) : (y.boundOver ).mem.wf = true := by
  unfold Sys.boundOver
  grind [onChip_mem, Sys.wf_endS5]

theorem Sys.wf_stageRun {y : Sys} (k : Nat) (f : Sys → Sys) (hf : ∀ z, z.mem.wf = true → (f z).mem.wf = true)
    (h : y.mem.wf = true) : (y.stageRun k f).mem.wf = true := by
  unfold Sys.stageRun
  grind [Sys.wf_boundOver]

theorem keeps_execStageS0 (plls straps : Nat) : Keeps (execStageS0 plls straps) :=
  keeps_liftS fun y h => by grind [Sys.wf_runS0, Sys.wf_stageRun]

theorem keeps_execStageS1 : Keeps execStageS1 :=
  keeps_liftS fun y h => by grind [Sys.wf_runS1, Sys.wf_stageRun]

theorem keeps_execStageS2 (units : List (Nat × List Nat)) (links lanes : Nat) (blocks : Bool) : Keeps
    (execStageS2 units links lanes blocks) :=
  keeps_liftS fun y h => by grind [Sys.wf_runS2, Sys.wf_stageRun]

theorem keeps_execStageS3 (trained : List Nat) : Keeps (execStageS3 trained) :=
  keeps_liftS fun y h => by grind [Sys.wf_runS3, Sys.wf_stageRun]

theorem keeps_execStageS4 (test : FillTest) : Keeps (execStageS4 test) :=
  keeps_liftS fun y h => by grind [Sys.wf_runS4, Sys.wf_stageRun]

theorem keeps_execStageS5 : Keeps execStageS5 :=
  keeps_liftS fun y h => by grind [Sys.wf_runS5, Sys.wf_stageRun]

theorem keeps_execStageS6 : Keeps execStageS6 :=
  keeps_liftS fun y h => by grind [Sys.wf_runS6, Sys.wf_stageRun]

theorem keeps_execStageS7 : Keeps execStageS7 :=
  keeps_liftS fun y h => by grind [Sys.wf_runS7, Sys.wf_stageRun]

theorem keeps_execStageS8 : Keeps execStageS8 :=
  keeps_liftS fun y h => by grind [Sys.wf_runS8, Sys.wf_stageRun]

theorem keeps_execStageBoundExceeded : Keeps execStageBoundExceeded :=
  keeps_liftS fun y h => by grind [Sys.wf_boundOver]

/-! ## Chain -/

theorem keeps_execChainFrameForward (f : ChainFrame) : Keeps (execChainFrameForward f) :=
  keeps_liftS fun y h => by grind [Sys.wf_chainPass]

theorem keeps_execEnum (f : ChainFrame) : Keeps (execEnum f) :=
  keeps_liftS fun y h => by grind [onChip_mem, Sys.wf_chainPass]

theorem keeps_execPoll (f : ChainFrame) : Keeps (execPoll f) :=
  keeps_liftS fun y h => by grind [Sys.wf_chainPass]

theorem Sys.wf_ctl {y : Sys} (f : ChainFrame) (op key : Nat) (ok : Chip → Bool) (act : Sys → Sys)
    (hact : ∀ z, z.mem.wf = true → (act z).mem.wf = true) (h : y.mem.wf = true) :
    (y.ctl f op key ok act).mem.wf = true := by
  unfold Sys.ctl
  grind [Sys.wf_chainReq]

theorem keeps_execContinueHold (f : ChainFrame) : Keeps (execContinueHold f) :=
  keeps_liftS fun y h => by grind [onChip_mem, Sys.wf_beginStage, Sys.wf_ctl]

theorem keeps_execChainReset (f : ChainFrame) : Keeps (execChainReset f) :=
  keeps_liftS fun y h => by grind [onChip_mem, Sys.wf_ctl]

theorem keeps_execAlertAck (f : ChainFrame) : Keeps (execAlertAck f) :=
  keeps_liftS fun y h => by grind [onChip_mem, Sys.wf_ctl]

theorem keeps_execRetire (f : ChainFrame) : Keeps (execRetire f) :=
  keeps_liftS fun y h => by grind [onChip_mem, Sys.wf_ctl]

theorem Sys.wf_flashReq {y : Sys} (f : ChainFrame) (op : Nat) (ok : Chip → Bool)
    (act : Sys → (Status × List Byte) × Sys) (hact : ∀ z, z.mem.wf = true → (act z).2.mem.wf = true)
    (h : y.mem.wf = true) : (y.flashReq f op ok act).mem.wf = true := by
  unfold Sys.flashReq
  grind [Sys.wf_chainReq]

theorem keeps_execFlashRead (f : ChainFrame) : Keeps (execFlashRead f) :=
  keeps_liftS fun y h => by grind [Sys.wf_flashReq]

theorem keeps_execFlashErase (f : ChainFrame) : Keeps (execFlashErase f) :=
  keeps_liftS fun y h => by grind [Sys.wf_flashErase, Sys.wf_flashReq]

theorem keeps_execFlashProgram (f : ChainFrame) : Keeps (execFlashProgram f) :=
  keeps_liftS fun y h => by grind [Sys.wf_flashProgram, Sys.wf_flashReq]

/-! ## NewtMem -/

theorem Sys.wf_loadSramAt {y : Sys} (c m a addr f3 rd next : Nat) (h : y.mem.wf = true) :
    (y.loadSramAt c m a addr f3 rd next).mem.wf = true := by
  unfold Sys.loadSramAt
  grind [onChip_mem, Sys.wf_sramWord]

theorem Sys.wf_runLoad {y : Sys} (c m f3 rd addr next : Nat) (h : y.mem.wf = true) :
    (y.runLoad c m f3 rd addr next).mem.wf = true := by
  unfold Sys.runLoad
  grind [onChip_mem, Sys.wf_loadSramAt]

theorem keeps_execNewtLoad (c : ClusterNo) (m : CoreNo) : Keeps (execNewtLoad c m) :=
  keeps_liftS fun y h => by grind [Sys.wf_coreStep, Sys.wf_runLoad]

theorem Sys.wf_storeSramAt {y : Sys} (c m a addr : Nat) (d : List Byte) (next : Nat) (h : y.mem.wf = true) :
    (y.storeSramAt c m a addr d next).mem.wf = true := by
  unfold Sys.storeSramAt
  grind [onChip_mem, Sys.wf_sramWord, Sys.wf_sramPut]

theorem Sys.wf_runStore {y : Sys} (c m f3 : Nat) (w : Word) (addr next : Nat) (h : y.mem.wf = true) :
    (y.runStore c m f3 w addr next).mem.wf = true := by
  unfold Sys.runStore
  grind [onChip_mem, Sys.wf_regWrite, Sys.wf_storeSramAt]

theorem keeps_execNewtStore (c : ClusterNo) (m : CoreNo) : Keeps (execNewtStore c m) :=
  keeps_liftS fun y h => by grind [Sys.wf_coreStep, Sys.wf_runStore]


/-! ## Every command -/

theorem keeps_exec (c : Instr) : Keeps (exec c) := by
  cases c with
  | fgPost c ag v => exact keeps_execFgPost c ag v
  | tile c => exact keeps_execTile c
  | load c => exact keeps_execLoad c
  | scan c => exact keeps_execScan c
  | carryPost c ix => exact keeps_execCarryPost c ix
  | abortPost c ix => exact keeps_execAbortPost c ix
  | carryTmo c => exact keeps_execCarryTmo c
  | newtAluOp c m => exact keeps_execNewtAluOp c m
  | newtLoad c m => exact keeps_execNewtLoad c m
  | newtStore c m => exact keeps_execNewtStore c m
  | csrAccess c m => exact keeps_execCsrAccess c m
  | fenceInsn c m => exact keeps_execFenceInsn c m
  | ecall c m => exact keeps_execEcall c m
  | ebreak c m => exact keeps_execEbreak c m
  | kvQmul c m => exact keeps_execKvQmul c m
  | kvSadd c m => exact keeps_execKvSadd c m
  | kvSsub c m => exact keeps_execKvSsub c m
  | kvClamp c m => exact keeps_execKvClamp c m
  | kvBexp c m => exact keeps_execKvBexp c m
  | kvDot4 c m => exact keeps_execKvDot4 c m
  | kvCrc c m => exact keeps_execKvCrc c m
  | kvCpy c m => exact keeps_execKvCpy c m
  | kvWaitt c m => exact keeps_execKvWaitt c m
  | kvEvt c m => exact keeps_execKvEvt c m
  | kvFenceSt c m => exact keeps_execKvFenceSt c m
  | broadcastDone c => exact keeps_execBroadcastDone c
  | snoopRd c m => exact keeps_execSnoopRd c m
  | snoopRdx c m => exact keeps_execSnoopRdx c m
  | snoopUpg c m => exact keeps_execSnoopUpg c m
  | snoopWb c m => exact keeps_execSnoopWb c m
  | snoopInv c start len => exact keeps_execSnoopInv c start len
  | clScrub c => exact keeps_execClScrub c
  | copyRd c e => exact keeps_execCopyRd c e
  | copyWr c e => exact keeps_execCopyWr c e
  | copyXc c e => exact keeps_execCopyXc c e
  | copyWaitt c e => exact keeps_execCopyWaitt c e
  | waittReached c e => exact keeps_execWaittReached c e
  | cpKick c e ag v => exact keeps_execCpKick c e ag v
  | blockIssue c e => exact keeps_execBlockIssue c e
  | blockSettle c e ix => exact keeps_execBlockSettle c e ix
  | xcBlockArrive c ix => exact keeps_execXcBlockArrive c ix
  | ctxReleaseDone p slot => exact keeps_execCtxReleaseDone p slot
  | tableWrite q off data => exact keeps_execTableWrite q off data
  | walkReadDone c e => exact keeps_execWalkReadDone c e
  | tlbPreload c v => exact keeps_execTlbPreload c v
  | blockSlot n => exact keeps_execBlockSlot n
  | patrolScrub n => exact keeps_execPatrolScrub n
  | mgmtRead src addr count => exact keeps_execMgmtRead src addr count
  | mgmtWrite src addr data => exact keeps_execMgmtWrite src addr data
  | clusterReset c => exact keeps_execClusterReset c
  | chipReset => exact keeps_execChipReset
  | fenceContained u => exact keeps_execFenceContained u
  | freeze page on => exact keeps_execFreeze page on
  | repair m => exact keeps_execRepair m
  | resync m snap => exact keeps_execResync m snap
  | vote a b c => exact keeps_execVote a b c
  | stageS0 plls straps => exact keeps_execStageS0 plls straps
  | stageS1 => exact keeps_execStageS1
  | stageS2 units links lanes blocks => exact keeps_execStageS2 units links lanes blocks
  | stageS3 trained => exact keeps_execStageS3 trained
  | stageS4 test => exact keeps_execStageS4 test
  | stageS5 => exact keeps_execStageS5
  | stageS6 => exact keeps_execStageS6
  | stageS7 => exact keeps_execStageS7
  | stageS8 => exact keeps_execStageS8
  | stageBoundExceeded => exact keeps_execStageBoundExceeded
  | quote => exact keeps_execQuote
  | enum f => exact keeps_execEnum f
  | chainFrameForward f => exact keeps_execChainFrameForward f
  | continueHold f => exact keeps_execContinueHold f
  | chainReset f => exact keeps_execChainReset f
  | retire f => exact keeps_execRetire f
  | alertAck f => exact keeps_execAlertAck f
  | flashRead f => exact keeps_execFlashRead f
  | flashErase f => exact keeps_execFlashErase f
  | flashProgram f => exact keeps_execFlashProgram f
  | poll f => exact keeps_execPoll f
  | resetN lowUs => exact keeps_execResetN lowUs
  | pwrgoodFall => exact keeps_execPwrgoodFall
  | registerWrite ag addr v => exact keeps_execRegisterWrite ag addr v
  | _ => exact keeps_of_chip fun _ => ⟨_, rfl⟩

/-- Settles O4: no command leaves the canonical form (`keeps_exec`), and an idle tick moves no memory. -/
theorem invKept : Obligations.InvKept := by
  unfold Obligations.InvKept
  rintro ⟨_ | ⟨c, l⟩, y⟩ t hs e
  · cases e
    exact hs
  · exact keeps_exec c ⟨l, y⟩ t hs e

/-- Settles O5: every arm but `registerWrite`'s completes on the state it is given. -/
theorem neverRefused : Obligations.NeverRefused := by
  unfold Obligations.NeverRefused
  intro c s
  cases c with
  | registerWrite p a v =>
    by_cases h : a % 4 ≠ 0 ∨ (pageRef a).isNone
    · exact .inr ⟨if_pos h, p, a, v, rfl⟩
    · exact .inl ⟨_, if_neg h⟩
  | _ => exact .inl ⟨_, rfl⟩

/-- Settles O1: `step` names the front command and hands `exec` the rest. -/
theorem stepRunsFront : Obligations.StepRunsFront := fun _ _ _ => rfl

/-- Settles O3: at reset every memory is the empty map. -/
theorem resetInv : Obligations.ResetInv := by
  unfold Obligations.ResetInv State.Inv
  decide

end Sys2Proof.Machine

/-! Chapter 04: what the instructions of a core do that touch neither the cluster store nor a register page
(R85 to R101): arithmetic, jumps, CSRs, traps, Xkv. -/

namespace Sys2Proof.Machine

-- One after the other: side by side the proofs ask for more memory than the check grants.
set_option Elab.async false

/-! ## A core that goes on -/

/-- A result is written, the instruction retires, and no other core is concerned. -/
theorem Sys.finish_ends (y : Sys) (c m rd : Nat) (w : Word) (next : Nat) (h : (y.chip.core c m).haltReq = false) :
    y.onlyCore { y with chip := y.chip.finish c m rd w next } c m ∧
      (y.chip.finish c m rd w next).core c m = ((y.chip.core c m).put rd w).retired next :=
  ⟨y.onlyCore_finish c m rd w next h, y.chip.finish_core c m rd w next h⟩

/-- A core takes values, retires, and no other core is concerned. -/
theorem Sys.setCore_retire_ends (y : Sys) (c m : Nat) (x : Core) (next : Nat) (h : x.haltReq = false) :
    y.onlyCore { y with chip := (y.chip.setCore c m x).retire c m next } c m ∧
      ((y.chip.setCore c m x).retire c m next).core c m = x.retired next := by
  rw [Chip.retire_eq _ _ _ _ (by simp [h]), Chip.core_setCore]
  exact ⟨Sys.onlyCore_trans (y.onlyCore_setCore c m x) (Sys.onlyCore_setCore _ c m _), Chip.core_setCore ..⟩

/-- A core takes values, gets a result, retires, and no other core is concerned. -/
theorem Sys.setCore_finish_ends (y : Sys) (c m rd : Nat) (x : Core) (w : Word) (next : Nat)
    (h : x.haltReq = false) :
    y.onlyCore { y with chip := (y.chip.setCore c m x).finish c m rd w next } c m ∧
      ((y.chip.setCore c m x).finish c m rd w next).core c m = (x.put rd w).retired next := by
  have e := Sys.finish_ends { y with chip := y.chip.setCore c m x } c m rd w next (by simp [h])
  simp only [Chip.core_setCore] at e
  exact ⟨Sys.onlyCore_trans (y.onlyCore_setCore c m x) e.1, e.2⟩

/-- A core that takes no HALT writes its next pc and retires. -/
theorem Sys.retire_ends (y : Sys) (c m next : Nat) (h : (y.chip.core c m).haltReq = false) :
    y.onlyCore { y with chip := y.chip.retire c m next } c m ∧
      (y.chip.retire c m next).core c m = (y.chip.core c m).retired next := by
  rw [Chip.retire_eq _ _ _ _ h]
  exact ⟨y.onlyCore_setCore c m _, Chip.core_setCore ..⟩

/-! ## Arithmetic (R86) -/

theorem exec_newtAluOp (c : ClusterNo) (m : CoreNo) (s : State) :
    exec (.newtAluOp c m) s = execNewtAluOp c m s := (rfl)

/-- NEWT_ALU_OP runs the arithmetic instruction, branch or jump that the core has fetched. -/
theorem exec_newtAluOp_of_nextIs {s : State} {c : ClusterNo} {m : CoreNo} {op : Rv} {bits len : Nat} {y : Sys}
    (h : s.sys.nextIs c m op bits len y) (hop : isAlu op = true) :
    exec (.newtAluOp c m) s = .next { s with
      sys := { y with chip := y.chip.runAlu c m op ((s.sys.chip.core c m).pc + len) } } := by
  rw [exec_newtAluOp, execNewtAluOp, liftS, Sys.coreStep_eq h (by rintro rfl; cases hop), if_pos hop]
  rfl

/-- Settles O9: each arithmetic instruction is a result that is written and an instruction that retires. -/
theorem newtArithmetic : Obligations.NewtArithmetic := by
  unfold Obligations.NewtArithmetic
  intro s c m op bits len y h hh x next ends
  refine ⟨?_, ?_, ?_, ?_, ?_, ?_, ?_, ?_⟩
  · rintro f rd a b rfl
    exact ⟨_, exec_newtAluOp_of_nextIs h rfl, y.finish_ends c m rd _ next hh⟩
  · rintro f rd a imm rfl
    exact ⟨_, exec_newtAluOp_of_nextIs h rfl, y.finish_ends c m rd _ next hh⟩
  · rintro rd imm rfl
    exact ⟨_, exec_newtAluOp_of_nextIs h rfl, y.finish_ends c m rd _ next hh⟩
  · rintro rd imm rfl
    exact ⟨_, exec_newtAluOp_of_nextIs h rfl, y.finish_ends c m rd _ next hh⟩
  · rintro rd imm rfl
    exact ⟨_, exec_newtAluOp_of_nextIs h rfl, y.finish_ends c m rd _ _ hh⟩
  · rintro rd a imm rfl
    exact ⟨_, exec_newtAluOp_of_nextIs h rfl, y.finish_ends c m rd _ _ hh⟩
  · rintro f3 a b imm rfl
    exact ⟨_, exec_newtAluOp_of_nextIs h rfl, y.retire_ends c m _ hh⟩
  · rintro rfl
    exact ⟨_, exec_newtAluOp_of_nextIs h rfl, y.setCore_retire_ends c m _ _ hh⟩

/-! ## HALT, RESUME, reset (R99, R100) -/

theorem exec_halt (c : ClusterNo) (m : NewtNo) (s : State) : exec (.halt c m) s = execHalt c m s := (rfl)

theorem exec_resume (c : ClusterNo) (m : NewtNo) (s : State) : exec (.resume c m) s = execResume c m s := (rfl)

theorem exec_newtResetDone (c : ClusterNo) (m : NewtNo) (s : State) :
    exec (.newtResetDone c m) s = execNewtResetDone c m s := (rfl)

/-- R99: what a newt does that stops at a pc: NW_PC, the core HALTED, STOP = 1. -/
def Chip.haltedAt (s : Chip) (c m pc : Nat) (x : Core) : Chip :=
  ((s.setReg (nwRec c m + 12) (BitVec.ofNat 32 pc)).setCore c m x).setFld (nwRec c m) 15 13 1

theorem Chip.core_haltedAt (s : Chip) (c m pc : Nat) (x : Core) : (s.haltedAt c m pc x).core c m = x := by
  simp [Chip.haltedAt]

theorem Chip.pc_haltedAt (s : Chip) (c m pc : Nat) (x : Core) :
    (s.haltedAt c m pc x).reg (nwRec c m + 12) = BitVec.ofNat 32 pc := by
  unfold Chip.haltedAt
  rw [Chip.reg_setFld_ne _ _ _ _ (by omega), Chip.reg_setCore, Chip.reg_setReg]

theorem Chip.stop_haltedAt (s : Chip) (c m pc : Nat) (x : Core) :
    (s.haltedAt c m pc x).fld (nwRec c m) 15 13 = 1 :=
  Chip.fld_setFld _ _ _ (by decide)

theorem Sys.onlyCoreRegs_haltedAt (y : Sys) (c m pc : Nat) (x : Core) :
    y.onlyCoreRegs { y with chip := y.chip.haltedAt c m pc x } c m [nwRec c m + 12, nwRec c m] :=
  (((Sys.onlyCoreRegs.refl y c m _).setReg _ (by simp)).setCore x).setFld _ _ _ (by simp)

/-- R99: a HALT that waited for an instruction to retire stops the newt after it. -/
theorem Chip.finish_halts (s : Chip) {c m : Nat} (rd : Nat) (w : Word) (next : Nat) (hm : m < 128)
    (h : (s.core c m).haltReq = true) :
    s.finish c m rd w next = (s.setCore c m ((s.core c m).put rd w)).haltedAt c m next
      { ((s.core c m).put rd w).retired next with st := 1, haltReq := false } := by
  unfold Chip.finish Chip.retire Chip.haltedAt Chip.setStop
  simp [h, hm, Core.retired]

/-- R99: HALT of a newt that runs or waits for a tick, with no data outstanding. -/
theorem exec_halt_stops {s : State} {c : ClusterNo} {m : NewtNo} (habs : (s.sys.chip.core c m).absent = false)
    (hf : (s.sys.chip.core c m).flush = 0) (hst : (s.sys.chip.core c m).st = 2 ∨ (s.sys.chip.core c m).st = 3)
    (hmiss : (s.sys.chip.core c m).miss = none) :
    exec (.halt c m) s = .next { s with sys := { s.sys with
      chip := s.sys.chip.haltedAt c m (s.sys.chip.core c m).pc { s.sys.chip.core c m with st := 1 } } } := by
  rw [exec_halt, execHalt, liftC]
  dsimp only
  rw [if_neg (by simp only [habs, hf]; rcases hst with h | h <;> simp [h]), if_neg (by simp [hmiss]),
    Chip.setStop, if_pos m.isLt]
  rfl

/-- R99: RESUME of a halted or trapped newt. -/
theorem exec_resume_runs {s : State} {c : ClusterNo} {m : NewtNo} (habs : (s.sys.chip.core c m).absent = false)
    (hf : (s.sys.chip.core c m).flush = 0)
    (hst : (s.sys.chip.core c m).st = 1 ∨ (s.sys.chip.core c m).st = 4) :
    exec (.resume c m) s = .next { s with sys := { s.sys with
      chip := (s.sys.chip.setCore c m { s.sys.chip.core c m with
        st := 2
        pc := (s.sys.chip.reg (nwRec c m + 12)).toNat % 8192 / 2 * 2
        miss := none }).trapPend c m false } } := by
  rw [exec_resume, execResume, liftC]
  dsimp only
  rw [if_neg (by simp only [habs, hf]; rcases hst with h | h <;> simp [h])]

/-- R100: newt reset of a newt that is neither OFF nor in a reset. -/
theorem Chip.newtStop_reset {s : Chip} {c m : Nat} (hm : m < 128) (habs : (s.core c m).absent = false)
    (hst : (s.core c m).st ≠ 0) (hf : (s.core c m).flush ≠ 2) :
    s.newtStop c m 5 = ((s.setCl c { s.cl c with
      credits := (s.cl c).credits.filter fun k => !(k.2 == m) }).setCore c m
        { s.core c m with flush := 2, badDirty := false, haltReq := false }).setFld (nwRec c m) 15 13 5 := by
  simp [Chip.newtStop, habs, hst, hf, Chip.setStop, hm]

/-- R100: the end of a reset in which no line with an error was discarded. -/
theorem exec_newtResetDone_off {s : State} {c : ClusterNo} {m : NewtNo}
    (hf : (s.sys.chip.core c m).flush = 2) (hd : (s.sys.chip.core c m).dirty = false)
    (hmiss : (s.sys.chip.core c m).miss = none) (hbad : (s.sys.chip.core c m).badDirty = false) :
    exec (.newtResetDone c m) s =
      .next { s with sys := { s.sys with chip := s.sys.chip.coreOff c m } } := by
  rw [exec_newtResetDone, execNewtResetDone, liftC, Chip.resetOver]
  dsimp only
  rw [if_pos (by simp [hf, hd, hmiss]), hbad]
  rfl

theorem Chip.core_coreOff (s : Chip) (c m : Nat) :
    (s.coreOff c m).core c m = { absent := (s.core c m).absent } := Chip.core_setCore ..

theorem Chip.fenced1_coreOff (s : Chip) (c m : Nat) : (s.coreOff c m).fenced1 (.newt c m) = false := by
  simp [Chip.coreOff, Chip.fenced1]

/-- Settles O10: a stop is `Chip.haltedAt`, and the others are the branch of their command that the newt's
state takes. -/
theorem newtControl : Obligations.NewtControl := by
  unfold Obligations.NewtControl
  refine ⟨?_, ?_⟩
  · intro s c m f rd a b bits len y h hm hh
    refine ⟨_, exec_newtAluOp_of_nextIs h rfl, ?_⟩
    simp only [Chip.runAlu, Chip.finish_halts _ _ _ _ hm hh, Chip.core_haltedAt, Chip.pc_haltedAt,
      Chip.stop_haltedAt, and_true]
    exact ((Sys.onlyCoreRegs.refl y c m _).setCore _).trans (Sys.onlyCoreRegs_haltedAt _ c m _ _)
  intro s c m y x habs
  refine ⟨fun hf hst hmiss => ?_, fun hf hst => ?_, fun hst hf => ?_, fun hf hd hmiss hbad => ?_⟩
  · exact ⟨_, exec_halt_stops habs hf hst hmiss, y.onlyCoreRegs_haltedAt .., Chip.core_haltedAt ..,
      Chip.pc_haltedAt .., Chip.stop_haltedAt ..⟩
  · refine ⟨_, exec_resume_runs habs hf hst,
      ((Sys.onlyCoreRegs.refl y c m _).setCore _).setFlag _ _ (by simp), ?_,
      Chip.flag_setFlag _ _ _ (Nat.mod_lt _ (by decide))⟩
    exact (Chip.core_setFlag ..).trans (Chip.core_setCore ..)
  · refine ⟨{ y with chip := y.chip.newtStop c m 5 }, rfl, rfl, ?_⟩
    rw [Chip.newtStop_reset m.isLt habs hst hf]
    exact ⟨(Chip.core_setFld ..).trans (Chip.core_setCore ..), Chip.fld_setFld _ _ _ (by decide)⟩
  · refine ⟨_, exec_newtResetDone_off hf hd hmiss hbad, rfl, ?_, Chip.fenced1_coreOff .., rfl⟩
    have hx : ({ absent := x.absent } : Core) = {} := by rw [habs]
    exact (y.chip.core_coreOff c m).trans hx

end Sys2Proof.Machine

/-! Chapter 04: CSRs, ECALL and EBREAK (R92, R93, R97). -/

namespace Sys2Proof.Machine

-- One after the other: side by side the proofs ask for more memory than the check grants.
set_option Elab.async false

/-! ## Traps of a newt (R97) -/

/-- R97: what an exception of a newt other than cause 24 leaves. -/
theorem Sys.trap_newt_ends (y : Sys) {c m cause : Nat} (tval : Nat) (hm : m < 128) (hk : cause < 24) :
    y.onlyCoreRegs { y with chip := y.chip.trap c m cause tval } c m
        [nwRec c m, nwRec c m + 4, nwRec c m + 8, nwPg c + 0x54 + 4 * (m / 32)] ∧
      (y.chip.trap c m cause tval).core c m = { y.chip.core c m with st := 4, haltReq := false } ∧
      (y.chip.trap c m cause tval).fld (nwRec c m) 12 8 = cause ∧
      (y.chip.trap c m cause tval).reg (nwRec c m + 4) = BitVec.ofNat 32 (y.chip.core c m).pc ∧
      (y.chip.trap c m cause tval).reg (nwRec c m + 8) = BitVec.ofNat 32 tval ∧
      (y.chip.trap c m cause tval).fld (nwRec c m) 15 13 = 2 ∧
      (y.chip.trap c m cause tval).flag (nwPg c + 0x54 + 4 * (m / 32)) (m % 32) = true := by
  rw [Chip.trap_newt _ hm (by omega)]
  exact ⟨y.onlyCoreRegs_trapped c m cause tval, Chip.core_trapped .., Chip.cause_trapped _ _ _ _ (by omega),
    Chip.tpc_trapped .., Chip.tval_trapped .., Chip.stop_trapped .., Chip.pend_trapped ..⟩

/-! ## CSRs (R92, R93) -/

theorem exec_csrAccess (c : ClusterNo) (m : CoreNo) (s : State) :
    exec (.csrAccess c m) s = execCsrAccess c m s := (rfl)

section

variable {s : State} {c : ClusterNo} {m : CoreNo} {f3 rd rs1 num bits len : Nat} {y : Sys}

/-- The operand of a CSR instruction. -/
def Core.csrSrc (x : Core) (f3 rs1 : Nat) : Word := if 4 ≤ f3 then BitVec.ofNat 32 rs1 else x.get rs1

/-- R92: a CSR instruction that writes nothing. -/
theorem exec_csrAccess_reads (h : s.sys.nextIs c m (.csr f3 rd rs1 num) bits len y) {old : Word}
    (hget : y.chip.csrGet c m num = some old)
    (hnew : csrNew f3 ((y.chip.core c m).csrSrc f3 rs1) rs1 old = none) :
    exec (.csrAccess c m) s = .next { s with sys := { y with
      chip := (y.chip.setCore c m (y.chip.csrLatch num (y.chip.core c m))).finish c m rd old
        ((s.sys.chip.core c m).pc + len) } } := by
  rw [exec_csrAccess, execCsrAccess, liftS, Sys.coreStep_eq h (by simp), if_pos rfl]
  unfold Core.csrSrc at hnew
  simp only [onChip, hget, hnew]

/-- R92: a CSR instruction that writes a CSR that can be written. -/
theorem exec_csrAccess_writes (h : s.sys.nextIs c m (.csr f3 rd rs1 num) bits len y) {old w : Word}
    (hget : y.chip.csrGet c m num = some old)
    (hnew : csrNew f3 ((y.chip.core c m).csrSrc f3 rs1) rs1 old = some w)
    (hnum : num < 0xC00) (hmisa : num ≠ 0x301) :
    exec (.csrAccess c m) s = .next { s with sys := { y with
      chip := (y.chip.setCore c m ((y.chip.core c m).csrPut num w)).finish c m rd old
        ((s.sys.chip.core c m).pc + len) } } := by
  rw [exec_csrAccess, execCsrAccess, liftS, Sys.coreStep_eq h (by simp), if_pos rfl]
  unfold Core.csrSrc at hnew
  simp only [onChip, hget, hnew]
  rw [if_neg (by omega)]

/-- R92: an absent CSR, or a write of a read-only one, is an illegal instruction. -/
theorem exec_csrAccess_illegal (h : s.sys.nextIs c m (.csr f3 rd rs1 num) bits len y)
    (hbad : y.chip.csrGet c m num = none ∨ ∃ old w, y.chip.csrGet c m num = some old ∧
      csrNew f3 ((y.chip.core c m).csrSrc f3 rs1) rs1 old = some w ∧ (0xC00 ≤ num ∨ num = 0x301)) :
    exec (.csrAccess c m) s = .next { s with sys := { y with chip := y.chip.trap c m 2 bits } } := by
  rw [exec_csrAccess, execCsrAccess, liftS, Sys.coreStep_eq h (by simp), if_pos rfl]
  unfold Core.csrSrc at hbad
  obtain hget | ⟨old, w, hget, hnew, hnum⟩ := hbad
  · simp only [onChip, hget]
  · simp only [onChip, hget, hnew, if_pos hnum]

end

/-- Settles O11: a CSR instruction writes the CSR or latches its read and then writes rd, or it traps. -/
theorem csrAccess : Obligations.CsrAccess := by
  unfold Obligations.CsrAccess
  intro s c m f3 rd rs1 num bits len y h hh x next src
  refine ⟨fun old hget hnew => ?_, fun old w hget hnew hnum hmisa => ?_, fun hm hbad => ?_⟩
  · exact ⟨_, exec_csrAccess_reads h hget hnew, y.setCore_finish_ends c m rd _ old next
      ((Chip.haltReq_csrLatch ..).trans hh)⟩
  · exact ⟨_, exec_csrAccess_writes h hget hnew hnum hmisa, y.setCore_finish_ends c m rd _ old next
      ((Core.haltReq_csrPut ..).trans hh)⟩
  · obtain ⟨hframe, hcore, hcause, -, htval, -, -⟩ := y.trap_newt_ends (c := c) (cause := 2) bits hm (by decide)
    exact ⟨_, exec_csrAccess_illegal h hbad, hframe, hcore, hcause, htval⟩

/-! ## ECALL and EBREAK (R97) -/

theorem exec_ecall (c : ClusterNo) (m : CoreNo) (s : State) : exec (.ecall c m) s = execEcall c m s := (rfl)

theorem exec_ebreak (c : ClusterNo) (m : CoreNo) (s : State) : exec (.ebreak c m) s = execEbreak c m s := (rfl)

/-- R97: ECALL and EBREAK are the exception of their cause. -/
theorem exec_callOrBreak {s : State} {c : ClusterNo} {m : CoreNo} {bits len : Nat} {y : Sys} {op : Rv} {i : Instr}
    {cause tval : Nat}
    (hop : (op, i, cause, tval) = (.ecall, .ecall c m, 8, 0) ∨
      (op, i, cause, tval) = (.ebreak, .ebreak c m, 3, (y.chip.core c m).pc))
    (h : s.sys.nextIs c m op bits len y) :
    exec i s = .next { s with sys := { y with chip := y.chip.trap c m cause tval } } := by
  simp only [Prod.mk.injEq] at hop
  obtain ⟨rfl, rfl, rfl, rfl⟩ | ⟨rfl, rfl, rfl, rfl⟩ := hop
  · rw [exec_ecall, execEcall, liftS, Sys.coreStep_eq h (by simp), if_pos (by decide)]
    rfl
  · rw [exec_ebreak, execEbreak, liftS, Sys.coreStep_eq h (by simp), if_pos (by decide)]
    rfl

/-- Settles O12: both are an exception, which `Sys.trap_newt_ends` describes for a newt and
`Core.machineTrap` for the cluster control core. -/
theorem callAndBreak : Obligations.CallAndBreak := by
  unfold Obligations.CallAndBreak
  intro s c m bits len y op i cause tval hop h
  have hcause : cause < 24 := by
    simp only [Prod.mk.injEq] at hop
    omega
  refine ⟨fun hm => ⟨_, exec_callOrBreak hop h, y.trap_newt_ends tval hm hcause⟩, fun hm => ?_⟩
  have e : y.chip.trap c m cause tval =
      y.chip.setCore c m ((y.chip.core c m).machineTrap (BitVec.ofNat 32 cause) tval) :=
    congrArg Sys.chip (y.trap_ccc tval hm (by omega))
  refine ⟨_, exec_callOrBreak hop h, ?_⟩
  rw [e]
  exact ⟨y.onlyCore_setCore c m _, Chip.core_setCore ..⟩

end Sys2Proof.Machine

/-! Chapter 04: Xkv (R95, R101). -/

namespace Sys2Proof.Machine

-- One after the other: side by side the proofs ask for more memory than the check grants.
set_option Elab.async false

/-- The core runs the Xkv instruction that it has fetched. -/
theorem Sys.kvStep_eq {y y' : Sys} {c m : Nat} {k : Kv} {rd a b d bits len : Nat}
    (h : y.nextIs c m (.kv k rd a b d) bits len y') (run : (rd rs1 rs2 rs3 bits next : Nat) → Chip → Chip) :
    y.kvStep c m k run =
      { y' with chip := run rd a b d bits ((y.chip.core c m).pc + len) y'.chip } := by
  unfold Sys.kvStep
  rw [Sys.coreStep_eq h (by simp), if_pos (by simp [isKv])]
  rfl

/-- R95: `clamp32` by the values of its bounds. -/
theorem clamp32_eq (v : Int) : clamp32 v =
    if 2 ^ 31 ≤ v then (0x7FFFFFFF, true) else if v < -2 ^ 31 then (0x80000000, true)
    else (BitVec.ofInt 32 v, false) := by
  have hhi : wOf (2 ^ 31 - 1) = 0x7FFFFFFF := by decide
  have hlo : wOf (-2 ^ 31) = 0x80000000 := by decide
  unfold clamp32
  rw [hhi, hlo, wOf]
  by_cases h : (2 : Int) ^ 31 ≤ v
  · rw [if_pos h, if_pos (by omega)]
  · rw [if_neg h, if_neg (by omega)]

/-- R95: a result with its SAT is written, and no other core is concerned. -/
theorem Sys.finishSat_ends (y : Sys) (c m rd : Nat) (r : Word × Bool) (next : Nat)
    (h : (y.chip.core c m).haltReq = false) :
    y.onlyCore { y with chip := y.chip.finishSat c m rd r next } c m ∧
      (y.chip.finishSat c m rd r next).core c m =
        (((y.chip.core c m).flagIf 0 r.2).put rd r.1).retired next :=
  y.setCore_finish_ends c m rd _ r.1 next ((Core.haltReq_flagIf ..).trans h)

theorem exec_kvQmul (c : ClusterNo) (m : CoreNo) (s : State) : exec (.kvQmul c m) s = execKvQmul c m s := (rfl)

theorem exec_kvSadd (c : ClusterNo) (m : CoreNo) (s : State) : exec (.kvSadd c m) s = execKvSadd c m s := (rfl)

theorem exec_kvSsub (c : ClusterNo) (m : CoreNo) (s : State) : exec (.kvSsub c m) s = execKvSsub c m s := (rfl)

theorem exec_kvClamp (c : ClusterNo) (m : CoreNo) (s : State) : exec (.kvClamp c m) s = execKvClamp c m s := (rfl)

theorem exec_kvBexp (c : ClusterNo) (m : CoreNo) (s : State) : exec (.kvBexp c m) s = execKvBexp c m s := (rfl)

theorem exec_kvDot4 (c : ClusterNo) (m : CoreNo) (s : State) : exec (.kvDot4 c m) s = execKvDot4 c m s := (rfl)

theorem exec_kvCrc (c : ClusterNo) (m : CoreNo) (s : State) : exec (.kvCrc c m) s = execKvCrc c m s := (rfl)

theorem exec_kvCpy (c : ClusterNo) (m : CoreNo) (s : State) : exec (.kvCpy c m) s = execKvCpy c m s := (rfl)

theorem exec_kvWaitt (c : ClusterNo) (m : CoreNo) (s : State) : exec (.kvWaitt c m) s = execKvWaitt c m s := (rfl)

theorem exec_kvEvt (c : ClusterNo) (m : CoreNo) (s : State) : exec (.kvEvt c m) s = execKvEvt c m s := (rfl)

/-! ## The instructions that compute -/

section

variable {s : State} {c : ClusterNo} {m : CoreNo} {rd a b d bits len : Nat} {y : Sys}

/-- R95: kv.bexp on a W that it has. -/
theorem exec_kvBexp_of_width (h : s.sys.nextIs c m (.kv .bexp rd a b d) bits len y)
    (hw : (y.chip.core c m).kvbw = 4 ∨ (y.chip.core c m).kvbw = 8 ∨ (y.chip.core c m).kvbw = 16) :
    exec (.kvBexp c m) s = .next { s with sys := { y with
      chip := y.chip.finish c m rd (wOf (max ((y.chip.core c m).get b).toInt
        (needBits ((y.chip.core c m).get a).toInt (y.chip.core c m).kvbw 32)))
        ((s.sys.chip.core c m).pc + len) } } := by
  rw [exec_kvBexp, execKvBexp, liftS, Sys.kvStep_eq h]
  dsimp only
  rw [if_neg (by rcases hw with hw | hw | hw <;> simp [hw])]
  rfl

theorem exec_kvBexp_illegal (h : s.sys.nextIs c m (.kv .bexp rd a b d) bits len y)
    (hw : ¬((y.chip.core c m).kvbw = 4 ∨ (y.chip.core c m).kvbw = 8 ∨ (y.chip.core c m).kvbw = 16)) :
    exec (.kvBexp c m) s = .next { s with sys := { y with chip := y.chip.trap c m 2 bits } } := by
  rw [exec_kvBexp, execKvBexp, liftS, Sys.kvStep_eq h]
  dsimp only
  rw [if_pos (by simpa using hw)]

/-- R95: kv.dot4 on a pair. -/
theorem exec_kvDot4_of_pair (h : s.sys.nextIs c m (.kv .dot4 rd a b d) bits len y) (heven : rd % 2 = 0)
    (h0 : rd ≠ 0) {r : Int × Bool}
    (hr : dot4 (signed 64 (((y.chip.core c m).get rd).toNat + 2 ^ 32 * ((y.chip.core c m).get (rd + 1)).toNat))
      ((y.chip.core c m).get a) ((y.chip.core c m).get b) = r) :
    exec (.kvDot4 c m) s = .next { s with sys := { y with
      chip := (y.chip.setCore c m (((y.chip.core c m).flagIf 0 r.2).put (rd + 1)
        (BitVec.ofNat 32 (unsigned 64 r.1 / 2 ^ 32)))).finish c m rd (BitVec.ofNat 32 (unsigned 64 r.1))
          ((s.sys.chip.core c m).pc + len) } } := by
  rw [exec_kvDot4, execKvDot4, liftS, Sys.kvStep_eq h]
  dsimp only
  rw [if_neg (by omega), hr]

theorem exec_kvDot4_illegal (h : s.sys.nextIs c m (.kv .dot4 rd a b d) bits len y) (hrd : rd = 0 ∨ rd % 2 = 1) :
    exec (.kvDot4 c m) s = .next { s with sys := { y with chip := y.chip.trap c m 2 bits } } := by
  rw [exec_kvDot4, execKvDot4, liftS, Sys.kvStep_eq h]
  dsimp only
  rw [if_pos hrd]

/-- R95: kv.crc on a POLY and an NB that it has. -/
theorem exec_kvCrc_of_cfg (h : s.sys.nextIs c m (.kv .crc rd a b d) bits len y)
    (hp : (y.chip.core c m).kvcrc % 4 ≠ 3) (hn : (y.chip.core c m).kvcrc / 8 % 4 ≠ 3) :
    exec (.kvCrc c m) s = .next { s with sys := { y with
      chip := y.chip.finish c m rd (kvCrcRun (y.chip.core c m).kvcrc ((y.chip.core c m).get a)
        ((y.chip.core c m).get b)) ((s.sys.chip.core c m).pc + len) } } := by
  rw [exec_kvCrc, execKvCrc, liftS, Sys.kvStep_eq h]
  dsimp only
  rw [if_neg (by tauto)]

theorem exec_kvCrc_illegal (h : s.sys.nextIs c m (.kv .crc rd a b d) bits len y)
    (hcfg : (y.chip.core c m).kvcrc % 4 = 3 ∨ (y.chip.core c m).kvcrc / 8 % 4 = 3) :
    exec (.kvCrc c m) s = .next { s with sys := { y with chip := y.chip.trap c m 2 bits } } := by
  rw [exec_kvCrc, execKvCrc, liftS, Sys.kvStep_eq h]
  dsimp only
  rw [if_pos hcfg]

end

/-- R97: an illegal instruction of a newt, for a command that is the exception of cause 2. -/
theorem illegal_traps {s : State} {i : Instr} {c m bits : Nat} {y : Sys} (hm : m < 128)
    (e : exec i s = .next { s with sys := { y with chip := y.chip.trap c m 2 bits } }) :
    ∃ z, exec i s = .next { s with sys := z } ∧
      z.chip.core c m = { y.chip.core c m with st := 4, haltReq := false } ∧ z.chip.fld (nwRec c m) 12 8 = 2 := by
  obtain ⟨-, hcore, hcause, -⟩ := y.trap_newt_ends (c := c) (cause := 2) bits hm (by decide)
  exact ⟨_, e, hcore, hcause⟩

/-- Settles O13: each instruction is its result written and retired, or the illegal instruction. -/
theorem kvArithmetic : Obligations.KvArithmetic := by
  unfold Obligations.KvArithmetic
  refine ⟨?_, ?_⟩
  · intro s c m rd a b d bits len y hh x next ends clip
    have sat : ∀ (i : Instr) (r : Word × Bool), exec i s = .next { s with
        sys := { y with chip := y.chip.finishSat c m rd r next } } → ends i r :=
      fun i r e => ⟨_, e, y.finishSat_ends c m rd r next hh⟩
    have hclip : ∀ v, clamp32 v = clip v := clamp32_eq
    refine ⟨fun h => sat _ _ ?_, fun h => sat _ _ ?_, fun h => sat _ _ ?_, fun h => sat _ _ ?_⟩
    · rw [exec_kvQmul, execKvQmul, liftS, Sys.kvStep_eq h, ← hclip]
      rfl
    · rw [exec_kvSadd, execKvSadd, liftS, Sys.kvStep_eq h, ← hclip]
      rfl
    · rw [exec_kvSsub, execKvSsub, liftS, Sys.kvStep_eq h, ← hclip]
      rfl
    · rw [exec_kvClamp, execKvClamp, liftS, Sys.kvStep_eq h]
      rfl
  · intro s c m rd a b d bits len y hh x next ends traps
    refine ⟨fun h => ⟨fun hw => ?_, fun hw hm => ?_⟩, fun h => ⟨fun heven h0 => ?_, fun hrd hm => ?_⟩,
      fun h => ⟨fun hp hn => ?_, fun hcfg hm => ?_⟩⟩
    · exact ⟨_, exec_kvBexp_of_width h hw, y.finish_ends c m rd _ next hh⟩
    · exact illegal_traps hm (exec_kvBexp_illegal h hw)
    · exact ⟨_, exec_kvDot4_of_pair h heven h0 rfl, y.setCore_finish_ends c m rd _ _ next
        ((Core.haltReq_put ..).trans ((Core.haltReq_flagIf ..).trans hh))⟩
    · exact illegal_traps hm (exec_kvDot4_illegal h hrd)
    · exact ⟨_, exec_kvCrc_of_cfg h hp hn, y.finish_ends c m rd _ next hh⟩
    · exact illegal_traps hm (exec_kvCrc_illegal h hcfg)

/-! ## kv.cpy, kv.waitt and kv.evt -/

@[simp] theorem Chip.eng_setCore (s : Chip) (c m d e : Nat) (x : Core) : (s.setCore c m x).eng d e = s.eng d e := by
  by_cases h : d = c
  · subst h; simp [Chip.eng, Chip.cl_setCore]
  · simp [Chip.eng, Chip.cl_setCore_ne _ _ h]

@[simp] theorem Chip.core_setEng (s : Chip) (c e d m : Nat) (x : Eng) : (s.setEng c e x).core d m = s.core d m := by
  unfold Chip.core Chip.setEng
  by_cases h : c = d
  · subst h; rw [Chip.cl_setCl]; split <;> rfl
  · rw [Chip.cl_setCl_ne _ _ h]

/-- A core's result does not concern the engines. -/
@[simp] theorem Chip.eng_finish (s : Chip) (c m rd : Nat) (w : Word) (next d e : Nat) :
    (s.finish c m rd w next).eng d e = s.eng d e := by
  unfold Chip.finish Chip.retire
  dsimp only
  split
  · unfold Chip.setStop
    split <;> simp
  · simp

/-- R122: a program that is posted goes to the end of the engine's queue. -/
theorem Chip.queue_engPost (s : Chip) (c e a : Nat) :
    ((s.engPost c e a).eng c e).queue = (s.eng c e).queue ++ [a] := by
  simp [Chip.engPost, (s.reports_strike (cpPg c e)).eng]

theorem Chip.core_engPost (s : Chip) (c e a d m : Nat) : (s.engPost c e a).core d m = s.core d m := by
  simp [Chip.engPost, (s.reports_strike (cpPg c e)).core]

/-- R95: the cluster's oldest event leaves its queue, and the cores stay as they are. -/
theorem Chip.core_evDrain (s : Chip) (c d m : Nat) : (s.evDrain c).core d m = s.core d m := by
  unfold Chip.evDrain
  dsimp only
  split
  · rfl
  · split
    · rfl
    · rw [(Chip.reports_raise ..).core]
      by_cases h : c = d
      · subst h; simp [Chip.core]
      · simp [Chip.core, Chip.cl_setCl_ne _ _ h]

section

variable {s : State} {c : ClusterNo} {m : CoreNo} {rd a b d bits len : Nat} {y : Sys}

/-- R95: kv.cpy that is accepted. -/
theorem exec_kvCpy_posts (h : s.sys.nextIs c m (.kv .cpy rd a b d) bits len y)
    (can : y.chip.flag (nwPg c + 0x40) 0 = true ∧ ((y.chip.core c m).get b).toNat < 2 ∧
      ((y.chip.core c m).get a).toNat % 32 = 0 ∧ ((y.chip.core c m).get a).toNat < 0x200000 ∧
      (y.chip.eng c ((y.chip.core c m).get b).toNat).queue.length < 16)
    (hf : y.chip.isFenced (.copy c ((y.chip.core c m).get b).toNat) = false) :
    exec (.kvCpy c m) s = .next { s with sys := { y with
      chip := (y.chip.engPost c ((y.chip.core c m).get b).toNat ((y.chip.core c m).get a).toNat).finish c m rd 1
        ((s.sys.chip.core c m).pc + len) } } := by
  rw [exec_kvCpy, execKvCpy, liftS, Sys.kvStep_eq h]
  dsimp only
  rw [if_pos (by simpa [Eng.room] using can), hf, if_neg (by decide)]

/-- R95: kv.cpy that is rejected. -/
theorem exec_kvCpy_rejects (h : s.sys.nextIs c m (.kv .cpy rd a b d) bits len y)
    (cannot : ¬(y.chip.flag (nwPg c + 0x40) 0 = true ∧ ((y.chip.core c m).get b).toNat < 2 ∧
      ((y.chip.core c m).get a).toNat % 32 = 0 ∧ ((y.chip.core c m).get a).toNat < 0x200000 ∧
      (y.chip.eng c ((y.chip.core c m).get b).toNat).queue.length < 16)) :
    exec (.kvCpy c m) s = .next { s with sys := { y with
      chip := (y.chip.setCore c m ((y.chip.core c m).flagIf 1 true)).finish c m rd 0
        ((s.sys.chip.core c m).pc + len) } } := by
  rw [exec_kvCpy, execKvCpy, liftS, Sys.kvStep_eq h]
  dsimp only
  rw [if_neg (by simpa [Eng.room] using cannot)]

/-- R101: kv.waitt on a tick that the cluster tick copy has reached. -/
theorem exec_kvWaitt_past (h : s.sys.nextIs c m (.kv .waitt rd a b d) bits len y)
    (ht : ((y.chip.core c m).get a).toNat + 2 ^ 32 * ((y.chip.core c m).get b).toNat ≤ y.chip.tickCopy) :
    exec (.kvWaitt c m) s = .next { s with sys := { y with
      chip := y.chip.finish c m rd 2 ((s.sys.chip.core c m).pc + len) } } := by
  rw [exec_kvWaitt, execKvWaitt, liftS, Sys.kvStep_eq h]
  dsimp only
  rw [if_pos ht]

/-- R101: kv.waitt on a tick that lies ahead. -/
theorem exec_kvWaitt_ahead (h : s.sys.nextIs c m (.kv .waitt rd a b d) bits len y)
    (ht : y.chip.tickCopy < ((y.chip.core c m).get a).toNat + 2 ^ 32 * ((y.chip.core c m).get b).toNat) :
    exec (.kvWaitt c m) s = .next { s with sys := { y with
      chip := y.chip.setCore c m { y.chip.core c m with
        st := 3
        target := ((y.chip.core c m).get a).toNat + 2 ^ 32 * ((y.chip.core c m).get b).toNat
        wrd := rd
        wlen := (s.sys.chip.core c m).pc + len - (y.chip.core c m).pc } } } := by
  rw [exec_kvWaitt, execKvWaitt, liftS, Sys.kvStep_eq h]
  dsimp only
  rw [if_neg (by omega)]

/-- R95: kv.evt that is accepted: the event is at the end of the cluster's queue, which may pass its oldest
one on. -/
theorem exec_kvEvt_queues (h : s.sys.nextIs c m (.kv .evt rd a b d) bits len y)
    (hon : y.chip.flag (nwPg c + 0x40) 1 = true) (hv : ((y.chip.core c m).get a).toNat < 256)
    (hq : (y.chip.cl c).evq.length < 16) :
    exec (.kvEvt c m) s = .next { s with sys := { y with
      chip := ((y.chip.setCl c { y.chip.cl c with evq := (y.chip.cl c).evq ++
        [(if m.val = 128 then 0xFF else m.val, ((y.chip.core c m).get a).toNat,
          ((y.chip.core c m).get b).toNat)] }).evDrain c).finish c m rd 1
            ((s.sys.chip.core c m).pc + len) } } := by
  rw [exec_kvEvt, execKvEvt, liftS, Sys.kvStep_eq h]
  dsimp only
  rw [if_pos ⟨hon, hv, by simpa using hq⟩]

/-- R95: kv.evt that is rejected while the queue has room or events are off. -/
theorem exec_kvEvt_rejects (h : s.sys.nextIs c m (.kv .evt rd a b d) bits len y)
    (hbad : y.chip.flag (nwPg c + 0x40) 1 = false ∨
      (256 ≤ ((y.chip.core c m).get a).toNat ∧ (y.chip.cl c).evq.length < 16)) :
    exec (.kvEvt c m) s = .next { s with sys := { y with
      chip := (y.chip.setCore c m ((y.chip.core c m).flagIf 2 true)).finish c m rd 0
        ((s.sys.chip.core c m).pc + len) } } := by
  rw [exec_kvEvt, execKvEvt, liftS, Sys.kvStep_eq h]
  dsimp only
  obtain hoff | ⟨hv, hq⟩ := hbad
  · rw [if_neg (by simp [hoff]), if_neg (by simp [hoff])]
  · rw [if_neg (by omega), if_neg (by simp [hq])]

end

/-- Settles O14: the accepting and the rejecting branch of each of the three. -/
theorem kvPostAndWait : Obligations.KvPostAndWait := by
  unfold Obligations.KvPostAndWait
  intro s c m rd a b d bits len y hh x next off e t can
  refine ⟨fun h => ⟨fun hcan hf => ?_, fun hcannot => ?_⟩, fun h => ⟨fun ht => ?_, fun ht => ?_⟩,
    fun h => ⟨fun hon hv hq => ?_, fun hbad => ?_⟩⟩
  · refine ⟨_, exec_kvCpy_posts h hcan hf, rfl, ?_, ?_⟩
    · exact (congrArg Eng.queue (Chip.eng_finish ..)).trans (Chip.queue_engPost ..)
    · have hcore := y.chip.core_engPost c e off c m
      exact (Chip.finish_core _ _ _ _ _ _ (by rw [hcore]; exact hh)).trans (by rw [hcore])
  · exact ⟨_, exec_kvCpy_rejects h hcannot,
      y.setCore_finish_ends c m rd _ 0 next ((Core.haltReq_flagIf ..).trans hh)⟩
  · exact ⟨_, exec_kvWaitt_past h ht, y.finish_ends c m rd _ next hh⟩
  · exact ⟨_, exec_kvWaitt_ahead h ht, y.onlyCore_setCore c m _, Chip.core_setCore ..⟩
  · refine ⟨_, exec_kvEvt_queues h hon hv hq, rfl, ?_⟩
    have hcore : ∀ q, ((y.chip.setCl c { y.chip.cl c with evq := q }).evDrain c).core c m = x := fun q => by
      rw [Chip.core_evDrain, Chip.core, Chip.cl_setCl]
      rfl
    exact (Chip.finish_core _ _ _ _ _ _ (by rw [hcore]; exact hh)).trans (by rw [hcore])
  · exact ⟨_, exec_kvEvt_rejects h hbad,
      y.setCore_finish_ends c m rd _ 0 next ((Core.haltReq_flagIf ..).trans hh)⟩

end Sys2Proof.Machine

/-! Chapter 04: starts, broadcasts, mailboxes and interrupts (R93, R106 to R109). -/

namespace Sys2Proof.Machine

-- One after the other: side by side the proofs ask for more memory than the check grants.
set_option Elab.async false

/-! ## Operations applied for every element of a list -/

/-- What every application keeps, all of them keep. -/
theorem forEach_keeps {α : Type} (P : Chip → Prop) {l : List α} {f : α → Chip → Chip}
    (hf : ∀ a ∈ l, ∀ s, P s → P (f a s)) {s : Chip} (hs : P s) : P (forEach l f s) :=
  List.foldlRecOn (motive := P) l _ hs fun t ht a ha => hf a ha t ht

theorem forEachS_keeps {α : Type} (P : Sys → Prop) {l : List α} {f : α → Sys → Sys}
    (hf : ∀ a ∈ l, ∀ y, P y → P (f a y)) {y : Sys} (hy : P y) : P (forEachS l f y) :=
  List.foldlRecOn (motive := P) l _ hy fun t ht a ha => hf a ha t ht

/-- An operation on each core of a list once: a core of the list has been through its own application, and
the others are as before. I is what the applications rely on. -/
theorem Chip.core_forEach {f : Nat → Chip → Chip} {c : Nat} (I : Chip → Prop) (R : Nat → Core → Core → Prop)
    (hI : ∀ m s, I s → I (f m s)) (hself : ∀ m s, I s → R m (s.core c m) ((f m s).core c m))
    (hother : ∀ m n s, n ≠ m → (f m s).core c n = s.core c n) {l : List Nat} (hl : l.Nodup) {s : Chip} (hs : I s)
    (n : Nat) :
    (n ∈ l → R n (s.core c n) ((forEach l f s).core c n)) ∧
      (n ∉ l → (forEach l f s).core c n = s.core c n) := by
  induction l generalizing s with
  | nil => exact ⟨fun h => absurd h List.not_mem_nil, fun _ => rfl⟩
  | cons a l ih =>
    obtain ⟨ha, hl⟩ := List.nodup_cons.1 hl
    obtain ⟨hin, hout⟩ := ih hl (hI a s hs)
    refine ⟨fun hn => ?_, fun hn => ?_⟩
    · by_cases h : n = a
      · subst h
        rw [show forEach (n :: l) f s = forEach l f (f n s) from rfl, hout ha]
        exact hself n s hs
      · have := hin ((List.mem_cons.1 hn).resolve_left h)
        rwa [hother a n s h] at this
    · rw [List.mem_cons, not_or] at hn
      exact (hout hn.2).trans (hother a n s hn.1)

/-! ## NW_START and broadcasts (R106) -/

theorem exec_nwStart (c : ClusterNo) (v : Word) (s : State) : exec (.nwStart c v) s = execNwStart c v s := (rfl)

theorem exec_broadcast (c : ClusterNo) (v : Word) (s : State) :
    exec (.broadcast c v) s = execBroadcast c v s := (rfl)

theorem exec_broadcastDone (c : ClusterNo) (s : State) : exec (.broadcastDone c) s = execBroadcastDone c s := (rfl)

theorem exec_nwXdataWrite (c : ClusterNo) (v : Word) (s : State) :
    exec (.nwXdataWrite c v) s = execNwXdataWrite c v s := (rfl)

/-- R106: NW_START for one newt. -/
def Chip.start1 (c pc m : Nat) (s : Chip) : Chip :=
  let x := s.core c m
  if s.masked c m ∧ x.st = 1 ∧ x.flush = 0 ∧ x.absent = false
  then s.setCore c m { x with st := 2, pc := pc, miss := none } else s

theorem exec_nwStart_eq {s : State} {c : ClusterNo} {v : Word} (h : Word.bit v 0 = false) :
    exec (.nwStart c v) s = .next { s with sys := { s.sys with
      chip := forEach (List.range 128) (Chip.start1 c (Word.bits v 12 0)) s.sys.chip } } := by
  rw [exec_nwStart, execNwStart, liftC, h, if_neg (by decide)]
  rfl

/-- R106: a masked newt in HALTED starts. -/
def Core.started (masked : Bool) (pc : Nat) (x : Core) : Core :=
  if masked = true ∧ x.st = 1 ∧ x.flush = 0 ∧ x.absent = false then { x with st := 2, pc := pc, miss := none } else x

theorem Chip.core_start1 (s : Chip) (c pc m : Nat) :
    (s.start1 c pc m).core c m = (s.core c m).started (s.masked c m) pc := by
  unfold Chip.start1 Core.started
  dsimp only
  split
  · exact Chip.core_setCore ..
  · rfl

theorem Chip.core_start1_ne (s : Chip) (c pc : Nat) {m n : Nat} (h : n ≠ m) :
    (s.start1 c pc m).core c n = s.core c n := by
  unfold Chip.start1
  dsimp only
  split
  · exact Chip.core_setCore_ne _ _ (.inr h)
  · rfl

theorem Chip.start1_rest (s : Chip) (c pc m : Nat) : s.start1 c pc m = { s with cls := (s.start1 c pc m).cls } := by
  unfold Chip.start1
  dsimp only
  split <;> rfl

theorem Chip.masked_congr {s t : Chip} (h : t.regs = s.regs) (c m : Nat) : t.masked c m = s.masked c m := by
  simp only [Chip.masked, Chip.flag, Chip.reg, h]

/-- R106: every masked newt in HALTED starts, and nothing but the newts of the cluster changes. -/
theorem Chip.forEach_start1 (s : Chip) (c pc : Nat) :
    forEach (List.range 128) (Chip.start1 c pc) s =
        { s with cls := (forEach (List.range 128) (Chip.start1 c pc) s).cls } ∧
      ∀ m < 128, (forEach (List.range 128) (Chip.start1 c pc) s).core c m =
        (s.core c m).started (s.masked c m) pc := by
  refine ⟨?_, fun m hm => ?_⟩
  · refine forEach_keeps (fun t => t = { s with cls := t.cls }) (fun m _ t ht => ?_) rfl
    rw [Chip.start1_rest t, ht]
  · refine (Chip.core_forEach (fun t => t.regs = s.regs) (fun m x x' => x' = x.started (s.masked c m) pc)
      (fun m t ht => ?_) (fun m t ht => ?_) (fun m n t h => t.core_start1_ne c pc h) List.nodup_range rfl m).1
      (List.mem_range.2 hm)
    · rw [Chip.start1_rest t]
      exact ht
    · rw [Chip.core_start1, Chip.masked_congr ht]

/-- R106: the fields of a broadcast are not its control register. -/
theorem Chip.bcOk_setFlag (s : Chip) (c n : Nat) (b : Bool) : (s.setFlag (nwPg c + 0x8C) n b).bcOk c = s.bcOk c := by
  have h : ∀ o, o ≠ 0x8C → (s.setFlag (nwPg c + 0x8C) n b).fld (nwPg c + o) 20 0 = s.fld (nwPg c + o) 20 0 :=
    fun o ho => Chip.fld_setFld_ne _ _ _ _ _ _ (by omega)
  simp [Chip.bcOk, h]

theorem Chip.masked_setFlag (s : Chip) (c n : Nat) (b : Bool) {m : Nat} (hm : m < 128) :
    (s.setFlag (nwPg c + 0x8C) n b).masked c m = s.masked c m :=
  Chip.flag_setFlag_ne _ _ _ _ (by omega)

/-- R106: the newts that a broadcast loads. -/
def Chip.bcTargets (s : Chip) (c : Nat) : List Nat :=
  ((List.range 128).filter fun m => s.masked c m).filter fun m => !(s.core c m).absent && (s.core c m).st != 5

theorem Chip.mem_bcTargets (s : Chip) (c : Nat) {m : Nat} (hm : m < 128) :
    m ∈ s.bcTargets c ↔ s.masked c m = true ∧ (s.core c m).absent = false ∧ (s.core c m).st ≠ 5 := by
  simp only [Chip.bcTargets, List.mem_filter, List.mem_range, hm, true_and, Bool.and_eq_true, Bool.not_eq_true',
    bne_iff_ne]

theorem Chip.mem_bcTargets_setFlag (s : Chip) (c n : Nat) (b : Bool) {m : Nat} (hm : m < 128) :
    m ∈ (s.setFlag (nwPg c + 0x8C) n b).bcTargets c ↔ m ∈ s.bcTargets c := by
  rw [Chip.mem_bcTargets _ _ hm, Chip.mem_bcTargets _ _ hm, Chip.masked_setFlag _ _ _ _ hm, Chip.core_setFlag]

/-- R106: a broadcast starts: GO, BUSY, and the newts it loads. -/
def Chip.bcGo (s : Chip) (c : Nat) : Chip :=
  ((s.setCl c { s.cl c with bcast := s.bcTargets c }).setFlag (nwPg c + 0x8C) 0 true).setFlag (nwPg c + 0x8C) 2 true

theorem Chip.bcast_bcGo (s : Chip) (c : Nat) : ((s.bcGo c).cl c).bcast = s.bcTargets c := by
  simp only [Chip.bcGo, Chip.cl_setFlag, Chip.cl_setCl]

theorem Chip.go_bcGo (s : Chip) (c : Nat) : (s.bcGo c).flag (nwPg c + 0x8C) 0 = true :=
  (Chip.flag_setFlag_apart _ _ _ (by decide) (by decide)).trans (Chip.flag_setFlag _ _ _ (by decide))

theorem Chip.busy_bcGo (s : Chip) (c : Nat) : (s.bcGo c).flag (nwPg c + 0x8C) 2 = true :=
  Chip.flag_setFlag _ _ _ (by decide)

theorem Chip.zfill_bcGo (s : Chip) (c : Nat) :
    (s.bcGo c).flag (nwPg c + 0x8C) 1 = s.flag (nwPg c + 0x8C) 1 :=
  (Chip.flag_setFlag_apart _ _ _ (by decide) (by decide)).trans
    (Chip.flag_setFlag_apart _ _ _ (by decide) (by decide))

/-- R106: no masked newt runs, waits or is trapped. -/
theorem Chip.bcIdle {s : Chip} {c : Nat} (n : Nat) (b : Bool)
    (hst : ∀ m : NewtNo, s.masked c m = true → (s.core c m).st < 2 ∨ 4 < (s.core c m).st) :
    ((List.range 128).filter fun m => (s.setFlag (nwPg c + 0x8C) n b).masked c m).any (fun m =>
      decide (2 ≤ ((s.setFlag (nwPg c + 0x8C) n b).core c m).st ∧
        ((s.setFlag (nwPg c + 0x8C) n b).core c m).st ≤ 4)) = false := by
  rw [List.any_eq_false]
  intro m hm
  obtain ⟨hr, hmask⟩ := List.mem_filter.1 hm
  have hlt := List.mem_range.1 hr
  rw [Chip.masked_setFlag _ _ _ _ hlt] at hmask
  have hst := hst ⟨m, hlt⟩ hmask
  rw [Chip.core_setFlag, decide_eq_true_eq]
  dsimp only at hst
  omega

/-- R106: GO of a broadcast that nothing stands against. -/
theorem exec_broadcast_go {s : State} {c : ClusterNo} {v : Word} (hgo : Word.bit v 0 = true)
    (herr : Word.bit v 3 = false) (hbusy : s.sys.chip.flag (nwPg c + 0x8C) 2 = false)
    (hok : s.sys.chip.bcOk c = true)
    (hst : ∀ m : NewtNo, s.sys.chip.masked c m = true →
      (s.sys.chip.core c m).st < 2 ∨ 4 < (s.sys.chip.core c m).st) :
    exec (.broadcast c v) s = .next { s with sys := { s.sys with
      chip := (s.sys.chip.setFlag (nwPg c + 0x8C) 1 (Word.bit v 1)).bcGo c } } := by
  have hidle := Chip.bcIdle 1 (Word.bit v 1) hst
  have hok' := (s.sys.chip.bcOk_setFlag c 1 (Word.bit v 1)).trans hok
  have hbusy' := (s.sys.chip.flag_setFlag_apart (nwPg c + 0x8C) (n := 1) (m := 2) (Word.bit v 1) (by decide)
    (by decide)).trans hbusy
  rw [exec_broadcast, execBroadcast, liftC]
  dsimp only
  generalize s.sys.chip.setFlag (nwPg c + 0x8C) 1 (Word.bit v 1) = t at hidle hok' hbusy' ⊢
  simp only [herr, hgo, hbusy', hidle, hok', Bool.false_eq_true, Bool.true_eq_false, if_false, or_self]
  rfl

/-! ## The end of a broadcast -/

theorem Chip.core_loaded {s : Chip} {c m : Nat} (h : (s.core c m).st < 2) :
    ((s.loaded c m).core c m).st = 1 ∧ ((s.loaded c m).core c m).x = [] := by
  unfold Chip.loaded
  dsimp only
  rw [if_pos (by omega), Chip.core_setCore]
  exact ⟨rfl, rfl⟩

theorem Chip.core_loaded_ne (s : Chip) (c : Nat) {m n : Nat} (h : n ≠ m) : (s.loaded c m).core c n = s.core c n := by
  unfold Chip.loaded
  dsimp only
  split
  · exact Chip.core_setCore_ne _ _ (.inr h)
  · rfl

/-- R106: a newt of the list is HALTED with reset registers, however often the list names it. -/
theorem Chip.core_forEach_loaded {l : List Nat} {s : Chip} {c m : Nat} (hm : m ∈ l) (h : (s.core c m).st < 2) :
    ((forEach l (fun n s => s.loaded c n) s).core c m).st = 1 ∧
      ((forEach l (fun n s => s.loaded c n) s).core c m).x = [] := by
  induction l generalizing s with
  | nil => exact absurd hm List.not_mem_nil
  | cons a l ih =>
    show ((forEach l _ (s.loaded c a)).core c m).st = 1 ∧ ((forEach l _ (s.loaded c a)).core c m).x = []
    by_cases ha : m = a
    · subst ha
      refine forEach_keeps (fun t => (t.core c m).st = 1 ∧ (t.core c m).x = []) (fun b _ t ht => ?_)
        (Chip.core_loaded h)
      by_cases hb : m = b
      · subst hb
        exact Chip.core_loaded (by omega)
      · rw [Chip.core_loaded_ne _ _ hb]
        exact ht
    · exact ih ((List.mem_cons.1 hm).resolve_left ha) (by rwa [Chip.core_loaded_ne _ _ ha])

/-- R106: a broadcast ends: GO and BUSY are clear and the list is empty. -/
def Chip.bcOver (s : Chip) (c : Nat) : Chip :=
  ((s.setFlag (nwPg c + 0x8C) 0 false).setFlag (nwPg c + 0x8C) 2 false).setCl c { s.cl c with bcast := [] }

theorem Chip.busy_bcOver (s : Chip) (c : Nat) : (s.bcOver c).flag (nwPg c + 0x8C) 2 = false := by
  rw [Chip.bcOver, Chip.flag_setCl]
  exact Chip.flag_setFlag _ _ _ (by decide)

theorem Chip.bcast_bcOver (s : Chip) (c : Nat) : ((s.bcOver c).cl c).bcast = [] := by
  rw [Chip.bcOver, Chip.cl_setCl]

theorem Chip.core_bcOver (s : Chip) (c m : Nat) : (s.bcOver c).core c m = s.core c m := by
  simp [Chip.bcOver, Chip.core]

/-- R106: the image goes into the newts that are still stopped, and they are HALTED. -/
theorem exec_broadcastDone_loads {s : State} {c : ClusterNo} (hbusy : s.sys.chip.flag (nwPg c + 0x8C) 2 = true)
    (hfrozen : s.sys.chip.stFrozen c = false) (hmark : s.sys.mem.storeMark = []) :
    ∃ mem : Mem, mem.store = s.sys.mem.store ∧ exec (.broadcastDone c) s = .next { s with sys := {
      mem := mem
      chip := (forEach ((s.sys.chip.cl c).bcast.filter fun m => decide ((s.sys.chip.core c m).st < 2))
        (fun m t => t.loaded c m) s.sys.chip).bcOver c } } := by
  rw [exec_broadcastDone, execBroadcastDone, liftS]
  dsimp only
  rw [hbusy, hfrozen, if_neg (by decide), Sys.stRead_clean _ _ _ _ hmark]
  dsimp only
  rw [Sys.stRead_clean _ _ _ _ hmark]
  dsimp only
  rw [if_neg (by decide)]
  generalize hz : forEachS _ _ s.sys = z
  have hkeep : z.mem.store = s.sys.mem.store ∧ z.chip = s.sys.chip := by
    rw [← hz]
    refine forEachS_keeps (fun z => z.mem.store = s.sys.mem.store ∧ z.chip = s.sys.chip) (fun m _ z hz => ?_)
      ⟨rfl, rfl⟩
    exact hz
  refine ⟨z.mem, hkeep.1, ?_⟩
  simp only [onChip, hkeep.2, Chip.bcOver]

/-- Settles O16: what NW_START does newt by newt, the checks of GO, the list of a broadcast at its end, and
NW_XDATA's one write. -/
theorem newtStart : Obligations.NewtStart := by
  unfold Obligations.NewtStart
  intro s c y
  refine ⟨fun v hv => ?_, fun v hgo herr hbusy hok hst => ?_, fun hbusy hfrozen hmark => ?_,
    fun v m n hm hn hopen habs => ?_⟩
  · obtain ⟨hrest, hcore⟩ := s.sys.chip.forEach_start1 c (Word.bits v 12 0)
    refine ⟨_, exec_nwStart_eq hv, ?_, fun m => hcore m m.isLt⟩
    conv_lhs => rw [hrest]
  · refine ⟨_, exec_broadcast_go hgo herr hbusy hok hst, rfl, Chip.go_bcGo .., Chip.busy_bcGo .., ?_, fun m => ?_⟩
    · exact (Chip.zfill_bcGo ..).trans (Chip.flag_setFlag _ _ _ (by decide))
    · have hmem := (y.chip.mem_bcTargets_setFlag c 1 (Word.bit v 1) m.isLt).trans (y.chip.mem_bcTargets c m.isLt)
      rwa [← Chip.bcast_bcGo] at hmem
  · obtain ⟨mem, hstore, e⟩ := exec_broadcastDone_loads hbusy hfrozen hmark
    refine ⟨_, e, Chip.busy_bcOver .., Chip.bcast_bcOver .., hstore, fun m hm _ hst => ?_⟩
    have hin : m ∈ (y.chip.cl c).bcast.filter fun m => decide ((y.chip.core c m).st < 2) :=
      List.mem_filter.2 ⟨hm, decide_eq_true hst⟩
    have hcore := Chip.core_forEach_loaded hin hst
    rwa [← Chip.core_bcOver] at hcore
  · subst hm hn
    refine ⟨{ y with chip := y.chip.setCore c _ _ }, ?_, y.onlyCore_setCore .., Chip.core_setCore ..⟩
    rw [exec_nwXdataWrite, execNwXdataWrite, liftC]
    dsimp only
    rw [if_pos ⟨hopen, habs⟩]

/-! ## Mailboxes and interrupts (R93, R107, R108) -/

theorem exec_cccInterrupt (c : ClusterNo) (s : State) : exec (.cccInterrupt c) s = execCccInterrupt c s := (rfl)

/-- A write of one bit of a register changes that bit alone. -/
theorem Sys.setFlag_ends (y : Sys) (a : Nat) {n : Nat} (b : Bool) (hn : n < 32) :
    y.onlyRegs { y with chip := y.chip.setFlag a n b } [a] ∧ (y.chip.setFlag a n b).flag a n = b ∧
      ∀ k, k < 32 → k ≠ n → (y.chip.setFlag a n b).flag a k = y.chip.flag a k :=
  ⟨⟨rfl, fun _ hb => Chip.reg_setFlag_ne _ _ _ fun e => hb (by simp [e])⟩, Chip.flag_setFlag _ _ _ hn,
    fun _ hk hne => Chip.flag_setFlag_apart _ _ _ hk hne⟩

/-- R93: with one interrupt pending and enabled the cluster control core takes that one. -/
theorem exec_cccInterrupt_takes {s : State} {c : ClusterNo} {k : Nat} (hruns : (s.sys.chip.core c 128).runs = true)
    (hmie : (s.sys.chip.core c 128).mie = true)
    (hone : (List.range 6).filter (fun i =>
      Word.bit (s.sys.chip.mip c &&& (s.sys.chip.core c 128).mieReg) (16 + i)) = [k]) :
    exec (.cccInterrupt c) s = .next { s with sys := { s.sys with
      chip := s.sys.chip.setCore c 128
        ((s.sys.chip.core c 128).machineTrap (BitVec.ofNat 32 (2 ^ 31 + 16 + k)) 0) } } := by
  rw [exec_cccInterrupt, execCccInterrupt, liftC]
  dsimp only
  rw [hone, if_neg (by simp [hruns, hmie])]
  rfl

/-- Settles O17: each doorbell command is a write of one bit, and the interrupt is `Core.machineTrap`. -/
theorem controlCore : Obligations.ControlCore := by
  unfold Obligations.ControlCore
  refine ⟨fun s c i a n b hi => ?_, fun s c k => ?_⟩
  · have hn : n < 32 := by
      simp only [List.mem_cons, Prod.mk.injEq, List.not_mem_nil, or_false] at hi
      omega
    have e : exec i s = .next { s with sys := { s.sys with chip := s.sys.chip.setFlag a n b } } := by
      simp only [List.mem_cons, Prod.mk.injEq, List.not_mem_nil, or_false] at hi
      obtain ⟨rfl, rfl, rfl, rfl⟩ | ⟨rfl, rfl, rfl, rfl⟩ | ⟨rfl, rfl, rfl, rfl⟩ | ⟨rfl, rfl, rfl, rfl⟩ |
        ⟨rfl, rfl, rfl, rfl⟩ := hi <;> rfl
    exact ⟨_, e, s.sys.setFlag_ends a b hn⟩
  · intro y x hruns hmie hone
    refine ⟨_, exec_cccInterrupt_takes hruns hmie hone, y.onlyCore_setCore .., ?_⟩
    have hx : x.machineTrap (BitVec.ofNat 32 (2 ^ 31 + 16 + k)) 0 = { x with
        mepc := BitVec.ofNat 32 x.pc, mcause := BitVec.ofNat 32 (2 ^ 31 + 16 + k), mtval := 0, mpie := true
        mie := false, pc := x.mtvec.toNat / 4 * 4, haltReq := false } := by
      unfold Core.machineTrap
      rw [hmie]
      rfl
    exact (Chip.core_setCore ..).trans hx

end Sys2Proof.Machine

/-! The cluster store and its caches (R96, R101, R112, R116): what a write of whole words and the write-back
of a line leave alone, the fence that cleans a cache, and the ends of a wait. -/

namespace Sys2Proof.Laws

/-- A canonical map reads at a key it lists what it lists there. -/
theorem at_of_mem {α : Type} [DecidableEq α] {d d' : α} {m : KMap α} (h : m.wf d = true) {k : Nat} {v : α}
    (hm : (k, v) ∈ m) : m.at d' k = v := by
  have key : ∀ (m : KMap α) (n : Nat), above n m → (k, v) ∈ m → m.at? k = some v := by
    intro m
    induction m with
    | nil => intro _ _ h; exact absurd h List.not_mem_nil
    | cons e m ih =>
      intro n ha hm
      obtain ⟨k', v'⟩ := e
      rcases List.mem_cons.1 hm with e | hm
      · cases e
        simp [KMap.at?]
      · have hk : k' ≠ k := fun e => by
          have h1 := ih _ ha.2 hm
          rw [at?_none_of_above ha.2 (by omega)] at h1
          cases h1
        simp only [KMap.at?, hk, if_false]
        exact ih _ ha.2 hm
  rw [KMap.at, key m 0 ((wf_iff d m).1 h).1 hm]
  rfl

/-- The keys of a canonical map differ. -/
theorem nodup_keys {α : Type} [DecidableEq α] {d : α} {m : KMap α} (h : m.wf d = true) :
    (m.map Prod.fst).Nodup := by
  have key : ∀ (m : KMap α) (n : Nat), above n m → (m.map Prod.fst).Nodup ∧ ∀ k ∈ m.map Prod.fst, n ≤ k := by
    intro m
    induction m with
    | nil => intro _ _; simp
    | cons e m ih =>
      intro n ha
      obtain ⟨h1, h2⟩ := ih _ ha.2
      refine ⟨List.nodup_cons.2 ⟨fun hk => ?_, h1⟩, fun k hk => ?_⟩
      · have := h2 _ hk
        omega
      · rcases List.mem_cons.1 hk with rfl | hk
        · exact ha.1
        · have := h2 k hk
          have := ha.1
          omega
  exact (key m 0 ((wf_iff d m).1 h).1).1

/-- What a map of options reads it lists. -/
theorem mem_of_at_some {α : Type} {m : KMap (Option α)} {k : Nat} {v : α} (h : m.at none k = some v) :
    (k, some v) ∈ m := by
  induction m with
  | nil => cases h
  | cons e m ih =>
    obtain ⟨k', v'⟩ := e
    by_cases hk : k' = k
    · simp only [KMap.at, KMap.at?, hk, if_true, Option.getD_some] at h
      simp [hk, h]
    · simp only [KMap.at, KMap.at?, hk, if_false] at h
      exact List.mem_cons_of_mem _ (ih h)

/-- Bytes are read one by one. -/
theorem bytes_congr {m m' : KMap Byte} {a n : Nat} (h : ∀ i, a ≤ i → i < a + n → m.at 0 i = m'.at 0 i) :
    m.bytes a n = m'.bytes a n := by
  induction n generalizing a with
  | zero => rfl
  | succ n ih =>
    simp only [KMap.bytes]
    rw [h a (le_refl _) (by omega), ih fun i h1 h2 => h i (by omega) (by omega)]

/-- What a store wrote is read back, by the number of its bytes. -/
theorem bytes_store_of_length {m : KMap Byte} {a n : Nat} {bs : List Byte} (h : bs.length = n) :
    (m.store a bs).bytes a n = bs := by
  subst h
  exact bytes_store m a bs

end Sys2Proof.Laws

namespace Sys2Proof.Machine

-- One after the other: side by side the proofs ask for more memory than the check grants.
set_option Elab.async false

open Laws

/-! ## Frames of what a store holds -/

theorem Sys.onlyStore.refl (y : Sys) (c m : Nat) : y.onlyStore y c m := ⟨rfl, fun _ _ => rfl, rfl, fun _ _ => rfl⟩

theorem Sys.onlyStore.trans {y z w : Sys} {c m : Nat} (h : y.onlyStore z c m) (h' : z.onlyStore w c m) :
    y.onlyStore w c m := by
  obtain ⟨a1, a2, a3, a4⟩ := h
  obtain ⟨b1, b2, b3, b4⟩ := h'
  refine ⟨?_, fun d hd => (b2 d hd).trans (a2 d hd), ?_, fun n hn => (b4 n hn).trans (a4 n hn)⟩
  · rw [b1, a1]
  · rw [b3, a3]

theorem Sys.onlyCore.onlyStore {y z : Sys} {c m : Nat} (h : y.onlyCore z c m) : y.onlyStore z c m := by
  obtain ⟨a1, a2, a3, a4⟩ := h
  refine ⟨?_, a2, a3, a4⟩
  rw [a1]

theorem Chip.takeArmed_rest (s : Chip) (pg : Nat) :
    (s.takeArmed pg).2 = { s with errs := { s.errs with armed := (s.takeArmed pg).2.errs.armed } } := by
  unfold Chip.takeArmed
  split <;> rfl

/-- A write of whole words changes the bytes, their marks, and the injections that are armed. -/
theorem Sys.stPut_rest (y : Sys) (c off : Nat) (d : List Byte) : y.stPut c off d = {
    mem := { y.mem with store := (y.stPut c off d).mem.store, storeMark := (y.stPut c off d).mem.storeMark }
    chip := { y.chip with errs := { y.chip.errs with armed := (y.stPut c off d).chip.errs.armed } } } := by
  unfold Sys.stPut
  split
  · rfl
  · dsimp only
    rw [Chip.takeArmed_rest]

theorem Sys.stPut_store (y : Sys) (c off : Nat) (d : List Byte) :
    (y.stPut c off d).mem.store = KMap.store y.mem.store (stKey c off) d := by
  unfold Sys.stPut
  split
  · rename_i h
    rw [List.isEmpty_iff.1 h]
    rfl
  · rfl

/-- The write-back of a line changes the bytes, their marks, and the injections that are armed. -/
theorem Sys.writeLine_rest (y : Sys) (c : Nat) (l : Line) : y.writeLine c l = {
    mem := { y.mem with store := (y.writeLine c l).mem.store, storeMark := (y.writeLine c l).mem.storeMark }
    chip := { y.chip with errs := { y.chip.errs with armed := (y.writeLine c l).chip.errs.armed } } } := by
  unfold Sys.writeLine
  dsimp only
  rw [Sys.stPut_rest]

theorem Sys.writeLine_store (y : Sys) (c : Nat) (l : Line) :
    (y.writeLine c l).mem.store = KMap.store y.mem.store (stKey c l.off) l.data := Sys.stPut_store ..

theorem Sys.writeLine_cls (y : Sys) (c : Nat) (l : Line) : (y.writeLine c l).chip.cls = y.chip.cls := by
  rw [Sys.writeLine_rest]

theorem Sys.writeLine_core (y : Sys) (c : Nat) (l : Line) (d n : Nat) :
    (y.writeLine c l).chip.core d n = y.chip.core d n := by
  rw [Chip.core, Chip.cl, Sys.writeLine_cls]
  rfl

theorem Sys.onlyStore_writeLine (y : Sys) (c m : Nat) (l : Line) : y.onlyStore (y.writeLine c l) c m := by
  have hcl : ∀ d, (y.writeLine c l).chip.cl d = y.chip.cl d := fun d => by
    rw [Chip.cl, Sys.writeLine_cls]
    rfl
  exact ⟨by conv_lhs => rw [Sys.writeLine_rest]
            rw [Sys.writeLine_cls], fun d _ => hcl d, by rw [hcl], fun n _ => y.writeLine_core c l c n⟩

/-! ## The fence (R96) -/

/-- R96: a dirty line is written back and stays valid and clean. -/
def Sys.cleanLine (y : Sys) (c m : Nat) (e : Nat × Option Line) : Sys :=
  match e.2 with
  | some l =>
    if l.st = 3 then
      onChip (fun s => s.setCore c m ((s.core c m).setLine e.1 (some { l with st := 2 }))) (y.writeLine c l)
    else y
  | none => y

theorem Sys.cleanAll_eq (y : Sys) (c m : Nat) :
    y.cleanAll c m = forEachS (y.chip.core c m).lines (fun e z => z.cleanLine c m e) y := (rfl)

theorem Sys.cleanLine_dirty (y : Sys) (c m k : Nat) {l : Line} (h : l.st = 3) :
    y.cleanLine c m (k, some l) =
      onChip (fun s => s.setCore c m ((s.core c m).setLine k (some { l with st := 2 }))) (y.writeLine c l) :=
  if_pos h

/-- A line that is not dirty, or no line, is left alone. -/
theorem Sys.cleanLine_other (y : Sys) (c m k : Nat) {o : Option Line} (h : ∀ l, o = some l → l.st ≠ 3) :
    y.cleanLine c m (k, o) = y := by
  cases o with
  | none => rfl
  | some l => exact if_neg (h l rfl)

/-- Of the core, cleaning a line changes the line alone. -/
theorem Sys.core_cleanLine (y : Sys) (c m : Nat) (e : Nat × Option Line) :
    (y.cleanLine c m e).chip.core c m =
      { y.chip.core c m with lines := ((y.cleanLine c m e).chip.core c m).lines } := by
  obtain ⟨k, o⟩ := e
  by_cases h : ∃ l, o = some l ∧ l.st = 3
  · obtain ⟨l, rfl, hl⟩ := h
    rw [Sys.cleanLine_dirty _ _ _ _ hl, onChip_chip, Chip.core_setCore, Sys.writeLine_core]
    rfl
  · rw [Sys.cleanLine_other y c m k fun l e h3 => h ⟨l, e, h3⟩]

theorem Sys.onlyStore_cleanLine (y : Sys) (c m : Nat) (e : Nat × Option Line) :
    y.onlyStore (y.cleanLine c m e) c m := by
  obtain ⟨k, o⟩ := e
  by_cases h : ∃ l, o = some l ∧ l.st = 3
  · obtain ⟨l, rfl, hl⟩ := h
    rw [Sys.cleanLine_dirty _ _ _ _ hl]
    exact (y.onlyStore_writeLine c m l).trans
      ((Sys.onlyCore_setCore (y.writeLine c l) c m
        (((y.writeLine c l).chip.core c m).setLine k (some { l with st := 2 }))).onlyStore)
  · rw [Sys.cleanLine_other y c m k fun l e h3 => h ⟨l, e, h3⟩]
    exact .refl y c m

/-- What cleaning lines leaves alone: everything but the stores and the core's lines. -/
theorem Sys.cleanLines_frame (l : List (Nat × Option Line)) (y : Sys) (c m : Nat) :
    y.onlyStore (forEachS l (fun e z => z.cleanLine c m e) y) c m ∧
      (forEachS l (fun e z => z.cleanLine c m e) y).chip.core c m = { y.chip.core c m with
        lines := ((forEachS l (fun e z => z.cleanLine c m e) y).chip.core c m).lines } := by
  refine forEachS_keeps (fun z => y.onlyStore z c m ∧
    z.chip.core c m = { y.chip.core c m with lines := (z.chip.core c m).lines }) (fun e _ z hz => ?_)
    ⟨.refl y c m, rfl⟩
  refine ⟨hz.1.trans (z.onlyStore_cleanLine c m e), ?_⟩
  rw [Sys.core_cleanLine, hz.2]

/-- A byte of the store that no dirty line of the list covers is left alone. -/
theorem Sys.cleanLines_store_out {l : List (Nat × Option Line)} (y : Sys) (c m : Nat) {a : Nat}
    (h : ∀ k x, (k, some x) ∈ l → x.st = 3 → a < stKey c x.off ∨ stKey c x.off + x.data.length ≤ a) :
    KMap.at (forEachS l (fun e z => z.cleanLine c m e) y).mem.store 0 a = KMap.at y.mem.store 0 a := by
  refine forEachS_keeps (fun z => KMap.at z.mem.store 0 a = KMap.at y.mem.store 0 a) (fun e he z hz => ?_) rfl
  obtain ⟨k, o⟩ := e
  by_cases hd : ∃ l, o = some l ∧ l.st = 3
  · obtain ⟨x, rfl, hx⟩ := hd
    rw [Sys.cleanLine_dirty _ _ _ _ hx, onChip_mem, Sys.writeLine_store, at_store_out _ _ _ (h k x he hx)]
    exact hz
  · rwa [Sys.cleanLine_other z c m k fun l e h3 => hd ⟨l, e, h3⟩]

/-- A line that the list does not name as dirty is left alone. -/
theorem Sys.cleanLines_line_keep {l : List (Nat × Option Line)} (y : Sys) (c m : Nat) {k : Nat}
    (h : ∀ x, (k, some x) ∈ l → x.st ≠ 3) :
    KMap.at ((forEachS l (fun e z => z.cleanLine c m e) y).chip.core c m).lines none k =
      KMap.at (y.chip.core c m).lines none k := by
  refine forEachS_keeps (fun z => KMap.at (z.chip.core c m).lines none k =
    KMap.at (y.chip.core c m).lines none k) (fun e he z hz => ?_) rfl
  obtain ⟨k', o⟩ := e
  by_cases hd : ∃ l, o = some l ∧ l.st = 3
  · obtain ⟨x, rfl, hx⟩ := hd
    have hk : k' ≠ k := by
      rintro rfl
      exact h x he hx
    rw [Sys.cleanLine_dirty _ _ _ _ hx, onChip_chip, Chip.core_setCore, Core.setLine, at_put_ne _ _ hk,
      Sys.writeLine_core]
    exact hz
  · rwa [Sys.cleanLine_other z c m k' fun l e h3 => hd ⟨l, e, h3⟩]

/-- Every dirty line of the list is in the store and clean, where the list names each line once and no two of
them overlap. -/
theorem Sys.cleanLines_dirty {l : List (Nat × Option Line)} (y : Sys) (c m : Nat)
    (hkeys : (l.map Prod.fst).Nodup)
    (hwhole : ∀ k x, (k, some x) ∈ l → x.off % 64 = 0 ∧ x.data.length = 64)
    (hone : ∀ k x k' x', (k, some x) ∈ l → (k', some x') ∈ l → x.off = x'.off → k = k') {k : Nat} {x : Line}
    (hx : (k, some x) ∈ l) (hst : x.st = 3) :
    KMap.bytes (forEachS l (fun e z => z.cleanLine c m e) y).mem.store (stKey c x.off) 64 = x.data ∧
      KMap.at ((forEachS l (fun e z => z.cleanLine c m e) y).chip.core c m).lines none k =
        some { x with st := 2 } := by
  obtain ⟨pre, post, rfl⟩ := List.append_of_mem hx
  obtain ⟨hoff, hlen⟩ := hwhole k x hx
  have hpost : k ∉ post.map Prod.fst := by
    rw [List.map_append, List.map_cons, List.nodup_append] at hkeys
    exact (List.nodup_cons.1 hkeys.2.1).1
  have hpost' : ∀ x', (k, some x') ∉ post := fun x' h => hpost (List.mem_map_of_mem (f := Prod.fst) h)
  generalize hz : forEachS pre (fun e z => z.cleanLine c m e) y = z
  have hall : forEachS (pre ++ (k, some x) :: post) (fun e z => z.cleanLine c m e) y =
      forEachS post (fun e z => z.cleanLine c m e) (z.cleanLine c m (k, some x)) := by
    rw [← hz]
    simp only [forEachS, List.foldl_append, List.foldl_cons]
  rw [hall, Sys.cleanLines_line_keep _ _ _ fun x' h => absurd h (hpost' x'), Sys.cleanLine_dirty _ _ _ _ hst]
  refine ⟨?_, by rw [onChip_chip, Chip.core_setCore, Core.setLine, at_put_self]⟩
  refine (bytes_congr fun i h1 h2 => Sys.cleanLines_store_out _ c m fun k' x' hx' _ => ?_).trans ?_
  · have hmem : (k', some x') ∈ pre ++ (k, some x) :: post := by simp [hx']
    obtain ⟨hoff', hlen'⟩ := hwhole k' x' hmem
    have hne : x.off ≠ x'.off := fun e =>
      hpost (hone k x k' x' hx hmem e ▸ List.mem_map_of_mem (f := Prod.fst) hx')
    unfold stKey at h1 h2 ⊢
    omega
  · rw [onChip_mem, Sys.writeLine_store]
    exact bytes_store_of_length hlen

/-- Cleaning keeps the cache in canonical form. -/
theorem Sys.wf_cleanLines (l : List (Nat × Option Line)) {y : Sys} {c m : Nat}
    (h : KMap.wf none (y.chip.core c m).lines = true) :
    KMap.wf none ((forEachS l (fun e z => z.cleanLine c m e) y).chip.core c m).lines = true := by
  refine forEachS_keeps (fun z => KMap.wf none (z.chip.core c m).lines = true) (fun e _ z hz => ?_) h
  obtain ⟨k, o⟩ := e
  by_cases hd : ∃ l, o = some l ∧ l.st = 3
  · obtain ⟨x, rfl, hx⟩ := hd
    rw [Sys.cleanLine_dirty _ _ _ _ hx, onChip_chip, Chip.core_setCore, Sys.writeLine_core]
    exact wf_put k (some { x with st := 2 }) hz
  · rwa [Sys.cleanLine_other z c m k fun l e h3 => hd ⟨l, e, h3⟩]

/-- R96: after the fence no line is dirty. -/
theorem Sys.cleanAll_clean (y : Sys) (c m : Nat) (hwf : KMap.wf none (y.chip.core c m).lines = true)
    (hwhole : ∀ k x, (k, some x) ∈ (y.chip.core c m).lines → x.off % 64 = 0 ∧ x.data.length = 64)
    (hone : ∀ k x k' x', (k, some x) ∈ (y.chip.core c m).lines → (k', some x') ∈ (y.chip.core c m).lines →
      x.off = x'.off → k = k') :
    ((y.cleanAll c m).chip.core c m).dirty = false := by
  rw [Sys.cleanAll_eq, Core.dirty, List.any_eq_false]
  rintro ⟨k, o⟩ hmem
  cases o with
  | none => simp
  | some l =>
    have hat := at_of_mem (d' := none) (Sys.wf_cleanLines _ hwf) hmem
    rw [beq_iff_eq]
    intro h3
    by_cases hd : ∃ x, (k, some x) ∈ (y.chip.core c m).lines ∧ x.st = 3
    · obtain ⟨x, hx, hst⟩ := hd
      rw [(Sys.cleanLines_dirty y c m (nodup_keys hwf) hwhole hone hx hst).2] at hat
      cases hat
      cases h3
    · rw [Sys.cleanLines_line_keep y c m fun x hx hst => hd ⟨x, hx, hst⟩] at hat
      exact hd ⟨l, mem_of_at_some hat, h3⟩

theorem exec_kvFenceSt (c : ClusterNo) (m : CoreNo) (s : State) :
    exec (.kvFenceSt c m) s = execKvFenceSt c m s := (rfl)

theorem exec_fenceInsn (c : ClusterNo) (m : CoreNo) (s : State) :
    exec (.fenceInsn c m) s = execFenceInsn c m s := (rfl)

/-- R96: with grants the fence writes every dirty line back and retires. -/
theorem Sys.fenceSt_eq {y y' : Sys} {c m : Nat} {op : Rv} {bits len : Nat} {sel : Rv → Bool}
    (h : y.nextIs c m op bits len y') (hop : op ≠ .illegal) (hsel : sel op = true)
    (hfrozen : y'.chip.stFrozen c = false) :
    y.fenceSt c m sel =
      onChip (fun s => s.retire c m ((y.chip.core c m).pc + len)) (y'.cleanAll c m) := by
  unfold Sys.fenceSt
  rw [Sys.coreStep_eq h hop, if_pos hsel, if_neg (by simp [hfrozen])]

/-- R85, R96: FENCE and kv.fence.st do the same. -/
theorem exec_fence {s : State} {c : ClusterNo} {m : CoreNo} {op : Rv} {i : Instr} {bits len : Nat} {y : Sys}
    (hop : (op, i) = (.fence, .fenceInsn c m) ∨ ∃ rd a b d, (op, i) = (.kv .fencest rd a b d, .kvFenceSt c m))
    (h : s.sys.nextIs c m op bits len y) (hfrozen : y.chip.stFrozen c = false) :
    exec i s = .next { s with
      sys := onChip (fun t => t.retire c m ((s.sys.chip.core c m).pc + len)) (y.cleanAll c m) } := by
  obtain hop | ⟨rd, a, b, d, hop⟩ := hop
  · obtain ⟨rfl, rfl⟩ := Prod.mk.injEq .. ▸ hop
    rw [exec_fenceInsn, execFenceInsn, liftS, Sys.fenceSt_eq h (by simp) (by decide) hfrozen]
  · obtain ⟨rfl, rfl⟩ := Prod.mk.injEq .. ▸ hop
    rw [exec_kvFenceSt, execKvFenceSt, liftS, Sys.fenceSt_eq h (by simp) (by simp [isKv]) hfrozen]

/-! ## The ends of a wait (R101) -/

theorem exec_waitTickReached (c : ClusterNo) (m : CoreNo) (s : State) :
    exec (.waitTickReached c m) s = execWaitTickReached c m s := (rfl)

theorem exec_nwKick (c : ClusterNo) (v : Word) (s : State) : exec (.nwKick c v) s = execNwKick c v s := (rfl)

/-- R101: a newt in WAIT_TICK, as its wait ends with rd = w. -/
def Core.woken (x : Core) (w : Word) : Core := (({ x with st := 2 } : Core).put x.wrd w).retired (x.pc + x.wlen)

theorem Sys.endWaitt_ends (y : Sys) {c m : Nat} (w : Word) (hst : (y.chip.core c m).st = 3)
    (hf : (y.chip.core c m).flush = 0) (hh : (y.chip.core c m).haltReq = false) :
    y.onlyCore { y with chip := y.chip.endWaitt c m w } c m ∧
      (y.chip.endWaitt c m w).core c m = (y.chip.core c m).woken w := by
  unfold Chip.endWaitt
  dsimp only
  rw [if_neg (by omega)]
  exact y.setCore_finish_ends c m _ _ w _ hh

/-- R101: a newt that does not wait stays as it is. -/
theorem Chip.endWaitt_idle (s : Chip) {c m : Nat} (w : Word) (h : (s.core c m).st ≠ 3 ∨ (s.core c m).flush ≠ 0) :
    s.endWaitt c m w = s := if_pos h

@[simp] theorem Chip.setCore_now (s : Chip) (c m : Nat) (x : Core) : (s.setCore c m x).now = s.now := (rfl)
@[simp] theorem Chip.setCore_ft (s : Chip) (c m : Nat) (x : Core) : (s.setCore c m x).ft = s.ft := (rfl)

theorem Chip.tickCopy_congr {s t : Chip} (hnow : t.now = s.now) (hft : t.ft = s.ft) : t.tickCopy = s.tickCopy := by
  rw [Chip.tickCopy, Chip.tickCopy, hnow, hft]

/-- The end of a wait concerns one newt, its record, and nothing that the tick copy reads. -/
theorem Chip.endWaitt_frame (s : Chip) (c m : Nat) (w : Word) :
    (s.endWaitt c m w).tickCopy = s.tickCopy ∧ (∀ d, d ≠ c → (s.endWaitt c m w).cl d = s.cl d) ∧
      ∀ n, n ≠ m → (s.endWaitt c m w).core c n = s.core c n := by
  unfold Chip.endWaitt
  dsimp only
  split
  · exact ⟨rfl, fun _ _ => rfl, fun _ _ => rfl⟩
  · unfold Chip.finish Chip.retire
    dsimp only
    split
    · unfold Chip.setStop
      split
      · refine ⟨Chip.tickCopy_congr (by simp) (by simp), fun d hd => ?_, fun n hn => ?_⟩
        · simp only [Chip.cl_setFld, Chip.cl_setCore_ne _ _ hd, Chip.cl_setReg]
        · simp only [Chip.core_setFld, Chip.core_setCore_ne _ _ (Or.inr hn), Chip.core_setReg]
      · refine ⟨Chip.tickCopy_congr (by simp) (by simp), fun d hd => ?_, fun n hn => ?_⟩
        · simp only [Chip.cl_setCore_ne _ _ hd, Chip.cl_setReg]
        · simp only [Chip.core_setCore_ne _ _ (Or.inr hn), Chip.core_setReg]
    · refine ⟨Chip.tickCopy_congr (by simp) (by simp), fun d hd => ?_, fun n hn => ?_⟩
      · simp only [Chip.cl_setCore_ne _ _ hd]
      · simp only [Chip.core_setCore_ne _ _ (Or.inr hn)]

/-- R101, R109: NW_KICK for one newt. -/
def Chip.kick1 (c m : Nat) (s : Chip) : Chip :=
  s.endWaitt c m (if (s.core c m).target ≤ s.tickCopy then 0 else 1)

theorem exec_nwKick_one {s : State} {c : ClusterNo} {v : Word} {m : NewtNo} (h31 : Word.bit v 31 = false)
    (hm : Word.bits v 6 0 = m.val) :
    exec (.nwKick c v) s = .next { s with sys := { s.sys with chip := s.sys.chip.kick1 c m } } := by
  rw [exec_nwKick, execNwKick, liftC, h31, if_neg (by decide), hm]
  rfl

theorem exec_nwKick_all {s : State} {c : ClusterNo} {v : Word} (h31 : Word.bit v 31 = true) :
    exec (.nwKick c v) s = .next { s with sys := { s.sys with
      chip := forEach (List.range 128) (Chip.kick1 c) s.sys.chip } } := by
  rw [exec_nwKick, execNwKick, liftC, h31, if_pos rfl]
  rfl

/-- R101: what NW_KICK with ALL leaves of each newt. -/
theorem Chip.forEach_kick1 (s : Chip) (c : Nat) {m : Nat} (hm : m < 128) :
    ((s.core c m).st = 3 → (s.core c m).flush = 0 → (s.core c m).haltReq = false →
      (forEach (List.range 128) (Chip.kick1 c) s).core c m =
        (s.core c m).woken (if (s.core c m).target ≤ s.tickCopy then 0 else 1)) ∧
    ((s.core c m).st ≠ 3 ∨ (s.core c m).flush ≠ 0 →
      (forEach (List.range 128) (Chip.kick1 c) s).core c m = s.core c m) := by
  refine (Chip.core_forEach (fun t => t.tickCopy = s.tickCopy) (fun m x x' =>
      (x.st = 3 → x.flush = 0 → x.haltReq = false →
        x' = x.woken (if x.target ≤ s.tickCopy then 0 else 1)) ∧ (x.st ≠ 3 ∨ x.flush ≠ 0 → x' = x))
    (fun n t ht => (t.endWaitt_frame c n _).1.trans ht) (fun n t ht => ⟨fun hst hf hh => ?_, fun hidle => ?_⟩)
    (fun n k t hk => (t.endWaitt_frame c n _).2.2 k hk) List.nodup_range rfl m).1 (List.mem_range.2 hm)
  · rw [← ht]
    exact (Sys.endWaitt_ends ⟨{}, t⟩ _ hst hf hh).2
  · exact congrArg (Chip.core · c n) (t.endWaitt_idle _ hidle)

/-- What NW_KICK with ALL leaves alone: the other clusters and the cluster control core. -/
theorem Chip.forEach_kick1_frame (s : Chip) (c : Nat) :
    (∀ d, d ≠ c → (forEach (List.range 128) (Chip.kick1 c) s).cl d = s.cl d) ∧
      (forEach (List.range 128) (Chip.kick1 c) s).core c 128 = s.core c 128 := by
  refine forEach_keeps (fun t => (∀ d, d ≠ c → t.cl d = s.cl d) ∧ t.core c 128 = s.core c 128)
    (fun m hm t ht => ?_) ⟨fun _ _ => rfl, rfl⟩
  obtain ⟨-, hcl, hcore⟩ := t.endWaitt_frame c m (if (t.core c m).target ≤ t.tickCopy then 0 else 1)
  have hne : 128 ≠ m := by
    have := List.mem_range.1 hm
    omega
  exact ⟨fun d hd => (hcl d hd).trans (ht.1 d hd), (hcore 128 hne).trans ht.2⟩

/-- Settles O15: the fence line by line, and the end of a wait newt by newt. -/
theorem fenceAndWaits : Obligations.FenceAndWaits := by
  unfold Obligations.FenceAndWaits
  refine ⟨?_, fun s c => ?_⟩
  · intro s c m op i bits len y hop h hh x hwf hfrozen hwhole hone
    obtain ⟨hframe, hcore⟩ := y.cleanLines_frame x.lines c m
    rw [← Sys.cleanAll_eq] at hframe hcore
    have hhalt : ((y.cleanAll c m).chip.core c m).haltReq = false := by
      rw [hcore]
      exact hh
    obtain ⟨hret, hret'⟩ := (y.cleanAll c m).retire_ends c m ((s.sys.chip.core c m).pc + len) hhalt
    have hlines : (((y.cleanAll c m).chip.core c m).retired ((s.sys.chip.core c m).pc + len)).lines =
        ((y.cleanAll c m).chip.core c m).lines := rfl
    refine ⟨_, exec_fence hop h hfrozen, hframe.trans hret.onlyStore, fun k l hl hst => ?_, fun a ha => ?_, ?_, ?_⟩
    · have hd := Sys.cleanLines_dirty y c m (nodup_keys hwf) hwhole hone hl hst
      rw [onChip_mem, onChip_chip, hret', hlines]
      exact hd
    · refine Sys.cleanLines_store_out y c m fun k l hl hst => ?_
      rw [(hwhole k l hl).2]
      exact ha k l hl hst
    · rw [onChip_chip, hret', hcore]
      rfl
    · rw [onChip_chip, hret']
      exact y.cleanAll_clean c m hwf hwhole hone
  · intro y
    refine ⟨fun m hst hf hh ht => ?_, fun v m h31 hm hst hf hh => ?_, fun v h31 => ?_⟩
    · refine ⟨{ y with chip := y.chip.endWaitt c m 0 }, ?_, y.endWaitt_ends 0 hst hf hh⟩
      rw [exec_waitTickReached, execWaitTickReached, liftC, if_pos ht]
    · exact ⟨_, exec_nwKick_one h31 hm, y.endWaitt_ends _ hst hf hh⟩
    · obtain ⟨hcl, hccc⟩ := y.chip.forEach_kick1_frame c
      have hall := fun m : NewtNo => y.chip.forEach_kick1 c m.isLt
      have e := exec_nwKick_all (s := s) (c := c) h31
      generalize forEach (List.range 128) (Chip.kick1 c) s.sys.chip = t at hcl hccc hall e
      exact ⟨_, e, rfl, fun d hd => hcl d (Fin.val_ne_of_ne hd), hccc, hall⟩

end Sys2Proof.Machine

/-! Loads, stores and the snoop ring (R88, R116 to R118). -/

namespace Sys2Proof.Machine

-- One after the other: side by side the proofs ask for more memory than the check grants.
set_option Elab.async false

open Laws

/-! ## Loads (R88, R116) -/

@[simp] theorem Core.haltReq_useLine (x : Core) (k : Nat) (l : Line) : (x.useLine k l).haltReq = x.haltReq := (rfl)

/-- R91: a good SRAM word reads as it is. -/
theorem Sys.sramWord_good {y : Sys} {c m a : Nat}
    (h : KMap.at y.mem.sramMark .good (sramKey c m (a / 4 * 4) / 4) = .good) :
    y.sramWord c m a = (some (KMap.bytes y.mem.sram (sramKey c m (a / 4 * 4)) 4), y) := by
  unfold Sys.sramWord
  dsimp only
  rw [h]

/-- R88: a load from a good word of the core's SRAMs. -/
theorem Sys.loadSramAt_good {y : Sys} {c m a : Nat} (addr f3 rd next : Nat)
    (h : KMap.at y.mem.sramMark .good (sramKey c m (a / 4 * 4) / 4) = .good) :
    y.loadSramAt c m a addr f3 rd next = { y with chip := y.chip.finish c m rd (loadValue f3
      (((KMap.bytes y.mem.sram (sramKey c m (a / 4 * 4)) 4).drop (a % 4)).take (accSize f3))) next } := by
  unfold Sys.loadSramAt
  rw [Sys.sramWord_good h]
  rfl

/-- R88: an address of the instruction SRAM, or of the data SRAM by its index in both. -/
theorem Sys.runLoad_sram {y : Sys} {c m f3 rd addr next a : Nat} (h0 : addr % accSize f3 = 0)
    (hp : placeOf addr = .isram a ∨ placeOf addr = .dsram (a - 8192) ∧ 8192 ≤ a) :
    y.runLoad c m f3 rd addr next = y.loadSramAt c m a addr f3 rd next := by
  unfold Sys.runLoad
  dsimp only
  rw [if_neg (by simp [h0])]
  obtain hp | ⟨hp, ha⟩ := hp
  · rw [hp]
  · rw [hp]
    dsimp only
    rw [Nat.add_sub_cancel' ha]

theorem Sys.runLoad_store {y : Sys} {c m f3 rd addr next a : Nat} (h0 : addr % accSize f3 = 0)
    (hp : placeOf addr = .store a) :
    y.runLoad c m f3 rd addr next = { y with chip := y.chip.loadStore c m a f3 rd next } := by
  unfold Sys.runLoad
  dsimp only
  rw [if_neg (by simp [h0]), hp]
  rfl

/-- R112, R116: a load from a good word of a line. -/
theorem Chip.loadLine_good {l : Line} {a : Nat} (s : Chip) (c m k f3 rd next : Nat) (h : l.badAt a = false) :
    s.loadLine c m k l a f3 rd next =
      (s.setCore c m ((s.core c m).useLine k l)).finish c m rd (l.load a f3) next := by
  unfold Chip.loadLine
  dsimp only
  rw [h, if_neg (by decide)]

theorem Chip.loadStore_hit {s : Chip} {c m a k : Nat} {l : Line} (f3 rd next : Nat)
    (h : (s.core c m).line (a / 64 * 64) = some (k, l)) :
    s.loadStore c m a f3 rd next = s.loadLine c m k l a f3 rd next := by
  unfold Chip.loadStore
  dsimp only
  rw [h]

theorem Chip.loadStore_miss {s : Chip} {c m a : Nat} (f3 rd next : Nat)
    (h : (s.core c m).line (a / 64 * 64) = none) :
    s.loadStore c m a f3 rd next =
      s.setCore c m { s.core c m with miss := some ⟨0, a, f3, rd, 0, next - (s.core c m).pc⟩ } := by
  unfold Chip.loadStore
  dsimp only
  rw [h]

/-- Settles O18: a load by where its address leads. -/
theorem newtLoad : Obligations.NewtLoad := by
  unfold Obligations.NewtLoad
  intro s c m f3 rd rs1 imm bits len y h hh x next addr n
  refine ⟨fun a h0 hp hgood _ => ?_, fun a k l h0 hp hline hbad => ?_, fun a h0 hp hline => ?_, fun hm hmis => ?_⟩
  · refine ⟨_, exec_newtLoad_of_nextIs h, ?_⟩
    rw [Sys.runLoad_sram h0 hp, Sys.loadSramAt_good _ _ _ _ hgood]
    exact y.finish_ends c m rd _ next hh
  · refine ⟨_, exec_newtLoad_of_nextIs h, ?_⟩
    rw [Sys.runLoad_store h0 hp, Chip.loadStore_hit _ _ _ hline, Chip.loadLine_good _ _ _ _ _ _ _ hbad]
    exact y.setCore_finish_ends c m rd (x.useLine k l) (l.load a f3) next hh
  · refine ⟨_, exec_newtLoad_of_nextIs h, ?_⟩
    rw [Sys.runLoad_store h0 hp, Chip.loadStore_miss _ _ _ hline]
    exact ⟨y.onlyCore_setCore c m _, Chip.core_setCore ..⟩
  · refine ⟨_, exec_newtLoad_of_nextIs h, ?_⟩
    rw [Sys.runLoad_misaligned _ _ _ _ _ hmis]
    obtain ⟨-, hcore, hcause, -, htval, -, -⟩ := y.trap_newt_ends (c := c) (cause := 4) addr hm (by decide)
    exact ⟨hcore, hcause, htval⟩

/-! ## Stores (R88, R116) -/

@[simp] theorem length_leBytes (n v : Nat) : (leBytes n v).length = n := by
  induction n generalizing v with
  | zero => rfl
  | succ n ih => simp [leBytes, ih]

@[simp] theorem length_bytes (m : KMap Byte) (a n : Nat) : (KMap.bytes m a n).length = n := by
  induction n generalizing a with
  | zero => rfl
  | succ n ih => simp [KMap.bytes, ih]

theorem length_splice {l d : List Byte} {k : Nat} (h : k + d.length ≤ l.length) : (splice l k d).length = l.length := by
  simp only [splice, List.length_append, List.length_take, List.length_drop]
  omega

/-- A splice of everything is what is spliced in. -/
theorem splice_all {l d : List Byte} (h : d.length = l.length) : splice l 0 d = d := by
  simp [splice, h]

/-- R91: what a write of an SRAM word leaves of the chip. -/
theorem Sys.sramPut_core (y : Sys) (c m a : Nat) (d : List Byte) (c' m' : Nat) :
    (y.sramPut c m a d).chip.core c' m' = y.chip.core c' m' := by
  unfold Sys.sramPut
  dsimp only
  exact (Chip.reports_takeArmed y.chip _).core c' m'

/-- R91: a store to the data SRAM, of a word or into a good word, writes the word with the bytes spliced in. -/
theorem Sys.storeSramAt_good {y : Sys} {c m a : Nat} {d : List Byte} (addr next : Nat) (hd : a % 4 + d.length ≤ 4)
    (h : d.length = 4 ∨ KMap.at y.mem.sramMark .good (sramKey c m ((8192 + a) / 4 * 4) / 4) = .good) :
    y.storeSramAt c m a addr d next = onChip (fun s => s.retire c m next) (y.sramPut c m (8192 + a)
      (splice (KMap.bytes y.mem.sram (sramKey c m ((8192 + a) / 4 * 4)) 4) (a % 4) d)) := by
  unfold Sys.storeSramAt
  by_cases h4 : d.length = 4
  · rw [if_pos h4, show a % 4 = 0 by omega, splice_all (by rw [length_bytes, h4])]
  · rw [if_neg h4, Sys.sramWord_good (h.resolve_left h4)]

theorem Sys.runStore_dsram {y : Sys} {c m f3 addr next a : Nat} (w : Word) (h0 : addr % accSize f3 = 0)
    (hp : placeOf addr = .dsram a) :
    y.runStore c m f3 w addr next = y.storeSramAt c m a addr (storeBytes f3 w) next := by
  unfold Sys.runStore
  dsimp only
  rw [if_neg (by simp [h0]), hp]

theorem Sys.runStore_store {y : Sys} {c m f3 addr next a : Nat} (w : Word) (h0 : addr % accSize f3 = 0)
    (hp : placeOf addr = .store a) :
    y.runStore c m f3 w addr next = { y with chip := y.chip.storeStore c m a f3 w next } := by
  unfold Sys.runStore
  dsimp only
  rw [if_neg (by simp [h0]), hp]
  rfl

section

variable {s : Chip} {c m a k : Nat} {l : Line}

theorem Chip.storeStore_owned (f3 : Nat) (w : Word) (next : Nat)
    (h : (s.core c m).line (a / 64 * 64) = some (k, l)) (hst : l.st ≠ 1) :
    s.storeStore c m a f3 w next =
      (s.setCore c m ((s.core c m).useLine k (l.stored a (storeBytes f3 w)))).retire c m next := by
  unfold Chip.storeStore
  dsimp only
  rw [h]
  exact if_neg hst

theorem Chip.storeStore_shared (f3 : Nat) (w : Word) (next : Nat)
    (h : (s.core c m).line (a / 64 * 64) = some (k, l)) (hst : l.st = 1) :
    s.storeStore c m a f3 w next = s.setCore c m { s.core c m with
      miss := some ⟨2, a, f3, 0, w.toNat, next - (s.core c m).pc⟩ } := by
  unfold Chip.storeStore
  dsimp only
  rw [h]
  exact if_pos hst

theorem Chip.storeStore_miss (f3 : Nat) (w : Word) (next : Nat)
    (h : (s.core c m).line (a / 64 * 64) = none) :
    s.storeStore c m a f3 w next = s.setCore c m { s.core c m with
      miss := some ⟨1, a, f3, 0, w.toNat, next - (s.core c m).pc⟩ } := by
  unfold Chip.storeStore
  dsimp only
  rw [h]

end

/-- Settles O19: a store by where its address leads; the SRAM word it writes is the old one with the bytes
spliced in. -/
theorem newtStore : Obligations.NewtStore := by
  unfold Obligations.NewtStore
  intro s c m f3 rs1 rs2 imm bits len y h hh x next addr w n
  refine ⟨fun a h0 hp ha => ?_, fun a k l h0 hp hline => ⟨fun hst => ?_, fun hst => ?_⟩,
    fun a h0 hp hline => ?_, fun hm hmis => ?_⟩
  · intro k hgood
    have hlen : (storeBytes f3 w).length = n := length_leBytes ..
    have hsp : (splice (KMap.bytes y.mem.sram k 4) (a % 4) (storeBytes f3 w)).length = 4 := by
      rw [length_splice (by rw [hlen, length_bytes]; exact ha), length_bytes]
    refine ⟨_, exec_newtStore_of_nextIs h, ?_⟩
    rw [Sys.runStore_dsram _ h0 hp, Sys.storeSramAt_good _ _ (by rw [hlen]; exact ha) (by rw [hlen]; exact hgood)]
    refine ⟨?_, rfl, bytes_store_of_length hsp, fun i hi => at_store_out _ _ _ (by rw [hsp]; exact hi)⟩
    have hcore := y.sramPut_core c m (8192 + a) (splice (KMap.bytes y.mem.sram k 4) (a % 4) (storeBytes f3 w)) c m
    rw [onChip_chip, Chip.retire_eq _ _ _ _ (by rw [hcore]; exact hh), Chip.core_setCore, hcore]
  · refine ⟨_, exec_newtStore_of_nextIs h, ?_⟩
    rw [Sys.runStore_store _ h0 hp, Chip.storeStore_owned _ _ _ hline hst]
    obtain ⟨hframe, hcore⟩ := y.setCore_retire_ends c m (x.useLine k (l.stored a (storeBytes f3 w))) next hh
    exact ⟨hframe, hcore, rfl⟩
  · refine ⟨_, exec_newtStore_of_nextIs h, ?_⟩
    rw [Sys.runStore_store _ h0 hp, Chip.storeStore_shared _ _ _ hline hst]
    exact ⟨y.onlyCore_setCore c m _, Chip.core_setCore ..⟩
  · refine ⟨_, exec_newtStore_of_nextIs h, ?_⟩
    rw [Sys.runStore_store _ h0 hp, Chip.storeStore_miss _ _ _ hline]
    exact ⟨y.onlyCore_setCore c m _, Chip.core_setCore ..⟩
  · refine ⟨_, exec_newtStore_of_nextIs h, ?_⟩
    rw [Sys.runStore_misaligned _ _ _ _ _ hmis]
    obtain ⟨-, hcore, hcause, -, htval, -, -⟩ := y.trap_newt_ends (c := c) (cause := 6) addr hm (by decide)
    exact ⟨hcore, hcause, htval⟩

/-! ## The order point (R117, R118) -/

/-- R118: with grants the order point admits. -/
theorem Chip.ringAdmit_granted {s : Chip} {c : Nat} (line w : Nat) (h : s.stFrozen c = false) :
    s.ringAdmit c line w = (true, s) := if_pos h

/-- R117: a miss whose line finds a way is carried out. -/
theorem Sys.missTurn_eq {y : Sys} {c m k : Nat} {ms : Miss} (f : Miss → Nat → Sys → Sys)
    (hfrozen : y.chip.stFrozen c = false) (hmiss : (y.chip.core c m).miss = some ms)
    (hway : (y.chip.core c m).missWay (ms.addr / 64 * 64) = some k) : y.missTurn c m ms.kind f = f ms k y := by
  unfold Sys.missTurn
  rw [hmiss]
  dsimp only
  rw [if_neg (by simp), hway]
  dsimp only
  rw [Chip.ringAdmit_granted _ _ hfrozen]

theorem exec_snoopRd (c : ClusterNo) (m : CoreNo) (s : State) : exec (.snoopRd c m) s = execSnoopRd c m s := (rfl)

theorem exec_snoopRdx (c : ClusterNo) (m : CoreNo) (s : State) : exec (.snoopRdx c m) s = execSnoopRdx c m s := (rfl)

theorem exec_snoopUpg (c : ClusterNo) (m : CoreNo) (s : State) : exec (.snoopUpg c m) s = execSnoopUpg c m s := (rfl)

theorem exec_snoopWb (c : ClusterNo) (m : CoreNo) (s : State) : exec (.snoopWb c m) s = execSnoopWb c m s := (rfl)

/-- A line comes into a core that still waits for it and its load goes on. -/
theorem Chip.core_loadArrives {s : Chip} {c m : Nat} (ms : Miss) (k : Nat) {l : Line}
    (hw : (s.core c m).waits = true) (hh : (s.core c m).haltReq = false) (hbad : l.bad = []) :
    (s.loadArrives c m ms k l).core c m =
      ((({ s.core c m with miss := none } : Core).useLine k l).put ms.rd (l.load ms.addr ms.f3)).retired
        ((s.core c m).pc + ms.len) := by
  have hw' : ({ s.core c m with miss := none } : Core).waits = true := hw
  unfold Chip.loadArrives Chip.missOver
  dsimp only
  rw [Chip.core_setCore, if_neg (by rw [hw']; decide), Chip.loadLine_good _ _ _ _ _ _ _ (by simp [Line.badAt, hbad]),
    Chip.core_setCore, Chip.finish_core _ _ _ _ _ _ (by rw [Chip.core_setCore]; exact hh), Chip.core_setCore]

/-- A line becomes the core's and its store completes. -/
theorem Chip.core_storeArrives {s : Chip} {c m : Nat} (ms : Miss) (k : Nat) (l : Line)
    (hw : (s.core c m).waits = true) (hh : (s.core c m).haltReq = false) :
    (s.storeArrives c m ms k l).core c m = (({ s.core c m with miss := none } : Core).useLine k
      (l.stored ms.addr (storeBytes ms.f3 (BitVec.ofNat 32 ms.val)))).retired ((s.core c m).pc + ms.len) := by
  have hw' : ({ s.core c m with miss := none } : Core).waits = true := hw
  unfold Chip.storeArrives Chip.missOver
  dsimp only
  rw [Chip.core_setCore, if_pos hw', Chip.retire_eq _ _ _ _ (by rw [Chip.core_setCore]; exact hh), Chip.core_setCore,
    Chip.core_setCore]

theorem Chip.core_storeArrives_ne (s : Chip) (c : Nat) {m n : Nat} (ms : Miss) (k : Nat) (l : Line)
    (hw : (s.core c m).waits = true) (hh : (s.core c m).haltReq = false) (hn : n ≠ m) :
    (s.storeArrives c m ms k l).core c n = s.core c n := by
  have hw' : ({ s.core c m with miss := none } : Core).waits = true := hw
  unfold Chip.storeArrives Chip.missOver
  dsimp only
  rw [Chip.core_setCore, if_pos hw', Chip.retire_eq _ _ _ _ (by rw [Chip.core_setCore]; exact hh)]
  simp only [Chip.core_setCore_ne _ _ (Or.inr hn)]

@[simp] theorem Core.miss_put (x : Core) (n : Nat) (w : Word) : (x.put n w).miss = x.miss := by
  unfold Core.put; split <;> rfl

@[simp] theorem Core.lines_put (x : Core) (n : Nat) (w : Word) : (x.put n w).lines = x.lines := by
  unfold Core.put; split <;> rfl

theorem Core.lines_setLine (x : Core) (k : Nat) (l : Option Line) : KMap.at (x.setLine k l).lines none k = l :=
  at_put_self none x.lines k l

/-- The line a core takes in is where it is put, as used. -/
theorem Core.lines_useLine (x : Core) (k : Nat) (l : Line) :
    KMap.at (x.useLine k l).lines none k = some { l with used := x.uses + 1 } :=
  at_put_self none x.lines k (some { l with used := x.uses + 1 })

/-! ## Copies of the other cores (R117) -/

theorem Chip.holder_ne {s : Chip} {c line m : Nat} {h : Nat × Nat × Line} (hh : h ∈ s.holders c line m) : h.1 ≠ m := by
  unfold Chip.holders at hh
  obtain ⟨e, -, he⟩ := List.mem_filterMap.1 hh
  split at he
  · cases he
  · rename_i hne
    obtain ⟨l, -, rfl⟩ := Option.map_eq_some_iff.1 he
    exact hne

/-- R117: the holders of a list lose their lines. -/
def Chip.dropLines (s : Chip) (c : Nat) (hs : List (Nat × Nat × Line)) : Chip :=
  forEach hs (fun h s => s.setCore c h.1 ((s.core c h.1).setLine h.2.1 none)) s

/-- A line that is gone stays gone while lines are dropped. -/
theorem Chip.dropLines_keeps_none {s : Chip} {c n k : Nat} (hs : List (Nat × Nat × Line))
    (h : KMap.at (s.core c n).lines none k = none) :
    KMap.at ((s.dropLines c hs).core c n).lines none k = none := by
  refine forEach_keeps (fun t => KMap.at (t.core c n).lines none k = none) (fun g _ t ht => ?_) h
  by_cases hn : n = g.1
  · subst hn
    rw [Chip.core_setCore, Core.setLine]
    by_cases hk : g.2.1 = k
    · subst hk
      exact at_put_self none _ _ none
    · rw [at_put_ne _ _ hk]
      exact ht
  · rw [Chip.core_setCore_ne _ _ (.inr hn)]
    exact ht

theorem Chip.dropLines_none (s : Chip) (c : Nat) {hs : List (Nat × Nat × Line)} {h : Nat × Nat × Line} (hh : h ∈ hs) :
    KMap.at ((s.dropLines c hs).core c h.1).lines none h.2.1 = none := by
  obtain ⟨pre, post, rfl⟩ := List.append_of_mem hh
  have hsplit : s.dropLines c (pre ++ h :: post) =
      ((s.dropLines c pre).setCore c h.1 (((s.dropLines c pre).core c h.1).setLine h.2.1 none)).dropLines c post := by
    simp only [Chip.dropLines, forEach, List.foldl_append, List.foldl_cons]
  rw [hsplit]
  refine Chip.dropLines_keeps_none post ?_
  rw [Chip.core_setCore, Core.setLine, at_put_self]

theorem Chip.dropLines_core (s : Chip) (c : Nat) {hs : List (Nat × Nat × Line)} {m : Nat} (hm : ∀ h ∈ hs, h.1 ≠ m) :
    (s.dropLines c hs).core c m = s.core c m :=
  forEach_keeps (fun u => u.core c m = s.core c m)
    (fun h hh _ hu => (Chip.core_setCore_ne _ _ (.inr (Ne.symm (hm h hh)))).trans hu) rfl

/-- R117: a line in state E as a store without errors holds it. -/
def Sys.storeLine (y : Sys) (c line : Nat) : Line := ⟨line, 2, KMap.bytes y.mem.store (stKey c line) 64, [], 0⟩

/-- R117: a line read from a store without errors. -/
theorem Sys.fillLine_clean {y : Sys} (c line : Nat) (h : y.mem.storeMark = []) :
    y.fillLine c line = (y.storeLine c line, y) := by
  unfold Sys.fillLine
  rw [Sys.stRead_clean _ _ _ _ h]
  rfl

/-- R117: an RD that meets no other core's line. -/
theorem Sys.ringRd_alone {y : Sys} {c line m : Nat} (hmark : y.mem.storeMark = [])
    (hs : y.chip.holders c line m = []) :
    y.ringRd c line m = (y.storeLine c line, y) := by
  unfold Sys.ringRd
  dsimp only
  rw [hs]
  show (match y.fillLine c line with | (l, y) => ({ l with st := 2 }, y)) = _
  rw [Sys.fillLine_clean c line hmark]
  rfl

/-- R117: an RDX drops the others' copies and brings a line. -/
theorem Sys.ringRdx_eq {y : Sys} (c line m : Nat) (hmark : y.mem.storeMark = []) :
    ∃ l, y.ringRdx c line m =
      (l, { y with chip := y.chip.dropLines c (y.chip.holders c line m) }) := by
  unfold Sys.ringRdx
  dsimp only
  split
  · exact ⟨_, rfl⟩
  · rw [Sys.fillLine_clean c line (show (onChip _ y).mem.storeMark = [] from hmark)]
    exact ⟨_, rfl⟩

/-- R117: what an RDX or an UPG leaves once its line is the core's: the store is done, the line is M, and no
other core holds a copy. -/
theorem Chip.storeArrives_owned {s : Chip} {c m line : Nat} (ms : Miss) (k : Nat) (l : Line)
    (hw : (s.core c m).waits = true) (hh : (s.core c m).haltReq = false) :
    (((s.dropLines c (s.holders c line m)).storeArrives c m ms k l).core c m).miss = none ∧
      (∀ h, h ∈ s.holders c line m → KMap.at
        (((s.dropLines c (s.holders c line m)).storeArrives c m ms k l).core c h.1).lines none h.2.1 = none) ∧
      ∃ l', KMap.at (((s.dropLines c (s.holders c line m)).storeArrives c m ms k l).core c m).lines none k =
        some l' ∧ l'.st = 3 := by
  have hcore := s.dropLines_core c (hs := s.holders c line m) fun h hh => Chip.holder_ne hh
  rw [← hcore] at hw hh
  have ht := Chip.core_storeArrives ms k l hw hh
  refine ⟨by rw [ht]; rfl, fun h hmem => ?_, _, by rw [ht]; exact Core.lines_useLine .., rfl⟩
  rw [Chip.core_storeArrives_ne _ c ms k l hw hh (Chip.holder_ne hmem)]
  exact s.dropLines_none c hmem

section

variable {s : State} {c : ClusterNo} {m : CoreNo} {ms : Miss} {k : Nat}

theorem exec_snoopRd_eq (hfrozen : s.sys.chip.stFrozen c = false) (hmiss : (s.sys.chip.core c m).miss = some ms)
    (hway : (s.sys.chip.core c m).missWay (ms.addr / 64 * 64) = some k) (hk : ms.kind = 0) :
    exec (.snoopRd c m) s = .next { s with sys := s.sys.missRd c m ms k } := by
  rw [exec_snoopRd, execSnoopRd, liftS, ← hk, Sys.missTurn_eq _ hfrozen hmiss hway]

theorem exec_snoopRdx_eq (hfrozen : s.sys.chip.stFrozen c = false) (hmiss : (s.sys.chip.core c m).miss = some ms)
    (hway : (s.sys.chip.core c m).missWay (ms.addr / 64 * 64) = some k) (hk : ms.kind = 1) :
    exec (.snoopRdx c m) s = .next { s with sys := s.sys.missRdx c m ms k } := by
  rw [exec_snoopRdx, execSnoopRdx, liftS, ← hk, Sys.missTurn_eq _ hfrozen hmiss hway]

theorem exec_snoopUpg_eq (hfrozen : s.sys.chip.stFrozen c = false) (hmiss : (s.sys.chip.core c m).miss = some ms)
    (hway : (s.sys.chip.core c m).missWay (ms.addr / 64 * 64) = some k) (hk : ms.kind = 2) {k' : Nat} {l : Line}
    (hline : (s.sys.chip.core c m).line (ms.addr / 64 * 64) = some (k', l)) :
    exec (.snoopUpg c m) s = .next { s with sys := { s.sys with
      chip := (s.sys.chip.dropLines c (s.sys.chip.holders c (ms.addr / 64 * 64) m)).storeArrives
        c m ms k l } } := by
  rw [exec_snoopUpg, execSnoopUpg, liftS, ← hk, Sys.missTurn_eq _ hfrozen hmiss hway]
  dsimp only
  rw [hline]
  rfl

end

theorem Sys.missRd_alone {y : Sys} {c m : Nat} {ms : Miss} (k : Nat) (hmark : y.mem.storeMark = [])
    (hs : y.chip.holders c (ms.addr / 64 * 64) m = []) :
    y.missRd c m ms k =
      { y with chip := y.chip.loadArrives c m ms k (y.storeLine c (ms.addr / 64 * 64)) } := by
  unfold Sys.missRd
  rw [Sys.ringRd_alone hmark hs]
  rfl

theorem Sys.missRdx_eq {y : Sys} (c m : Nat) (ms : Miss) (k : Nat) (hmark : y.mem.storeMark = []) :
    ∃ l, y.missRdx c m ms k = { y with
      chip := (y.chip.dropLines c (y.chip.holders c (ms.addr / 64 * 64) m)).storeArrives c m ms k l } := by
  obtain ⟨l, hl⟩ := Sys.ringRdx_eq (y := y) c (ms.addr / 64 * 64) m hmark
  refine ⟨l, ?_⟩
  unfold Sys.missRdx
  rw [hl]
  rfl

/-! ## Write-backs (R117) -/

/-- R117: a good dirty line is written back and leaves the cache. -/
theorem Sys.evictLine_good (y : Sys) (c m k : Nat) {l : Line} (hbad : l.bad = []) :
    y.evictLine c m k l = onChip (fun s => s.setCore c m ((s.core c m).setLine k none)) (y.writeLine c l) := by
  unfold Sys.evictLine
  dsimp only
  rw [if_neg (by simp [hbad]), if_neg (by simp [hbad])]

theorem exec_snoopWb_eq {s : State} {c : ClusterNo} {m : CoreNo} {k : Nat} {l : Line}
    (hfrozen : s.sys.chip.stFrozen c = false) (hwb : (s.sys.chip.core c m).wbNext = some (k, l)) :
    exec (.snoopWb c m) s = .next { s with sys := s.sys.evictLine c m k l } := by
  rw [exec_snoopWb, execSnoopWb, liftS, hwb]
  dsimp only
  rw [Chip.ringAdmit_granted _ _ hfrozen]

/-- Settles O20: each transaction by what it takes from the other cores and what its own core does with the
line. -/
theorem snoopTransactions : Obligations.SnoopTransactions := by
  unfold Obligations.SnoopTransactions
  intro s c m y x hfrozen hmark
  have howned := fun (ms : Miss) (k : Nat) (l : Line) => Chip.storeArrives_owned (s := y.chip) (c := c) (m := m)
    (line := ms.addr / 64 * 64) ms k l
  refine ⟨fun ms k hw hh hmiss hway => ⟨fun hk hs => ?_, fun hk => ?_, fun hk hline => ?_⟩,
    fun k l hwb hbad hlen => ?_⟩
  · have hcore := Chip.core_loadArrives (s := y.chip) ms k (l := y.storeLine c (ms.addr / 64 * 64)) hw hh rfl
    have e := exec_snoopRd_eq hfrozen hmiss hway hk
    rw [Sys.missRd_alone k hmark hs] at e
    refine ⟨_, e, rfl, ?_⟩
    rw [hcore]
    refine ⟨Core.miss_put .., rfl, { y.storeLine c (ms.addr / 64 * 64) with used := x.uses + 1 }, ?_, rfl, rfl, rfl⟩
    exact (congrArg (fun L => KMap.at L none k) (Core.lines_put ..)).trans (Core.lines_useLine ..)
  · obtain ⟨l, hl⟩ := Sys.missRdx_eq (y := y) c m ms k hmark
    have e := exec_snoopRdx_eq hfrozen hmiss hway hk
    have hown := howned ms k l hw hh
    rw [hl] at e
    generalize Chip.storeArrives _ c m ms k l = t at e hown
    exact ⟨_, e, rfl, hown⟩
  · obtain ⟨⟨k', l⟩, hl⟩ := Option.isSome_iff_exists.1 hline
    have e := exec_snoopUpg_eq hfrozen hmiss hway hk hl
    have hown := howned ms k l hw hh
    generalize Chip.storeArrives _ c m ms k l = t at e hown
    exact ⟨_, e, rfl, hown⟩
  · refine ⟨_, exec_snoopWb_eq hfrozen hwb, ?_⟩
    rw [Sys.evictLine_good y c m k hbad, onChip_chip, onChip_mem, Chip.core_setCore, Sys.writeLine_store]
    exact ⟨Core.lines_setLine .., bytes_store_of_length hlen, fun i hi => at_store_out _ _ _ (by rw [hlen]; exact hi)⟩

end Sys2Proof.Machine

/-! Invalidations and the scrubber of a cluster store (R112, R114, R119). -/

namespace Sys2Proof.Laws

theorem mem_del_of_ne {α : Type} {m : KMap α} {i : Nat} {e : Nat × α} (h : e ∈ m) (hi : e.1 ≠ i) :
    e ∈ KMap.del m i := by
  induction m with
  | nil => exact absurd h List.not_mem_nil
  | cons f m ih =>
    obtain ⟨k, v⟩ := f
    simp only [KMap.del]
    rcases List.mem_cons.1 h with rfl | h
    · rw [if_neg hi]
      exact List.mem_cons_self ..
    · split
      · exact ih h
      · exact List.mem_cons_of_mem _ (ih h)

theorem not_mem_del {α : Type} (m : KMap α) (i : Nat) (v : α) : (i, v) ∉ KMap.del m i := by
  induction m with
  | nil => exact List.not_mem_nil
  | cons f m ih =>
    obtain ⟨k, w⟩ := f
    simp only [KMap.del]
    split
    · exact ih
    · rename_i hk
      rw [List.mem_cons, Prod.mk.injEq, not_or]
      exact ⟨fun h => hk h.1.symm, ih⟩

theorem mem_ins_self {α : Type} (m : KMap α) (i : Nat) (x : α) : (i, x) ∈ KMap.ins m i x := by
  induction m with
  | nil => simp [KMap.ins]
  | cons f m ih =>
    obtain ⟨k, w⟩ := f
    simp only [KMap.ins]
    split
    · simp
    · split
      · simp
      · simp [ih]

/-- A map reads its default where it lists nothing. -/
theorem at_of_not_mem {α : Type} {d : α} {m : KMap α} {k : Nat} (h : ∀ v, (k, v) ∉ m) : m.at d k = d := by
  induction m with
  | nil => rfl
  | cons e m ih =>
    obtain ⟨k', v⟩ := e
    have hk : k' ≠ k := by
      rintro rfl
      exact h v (List.mem_cons_self ..)
    have := ih fun v hv => h v (List.mem_cons_of_mem _ hv)
    unfold KMap.at at this ⊢
    rwa [KMap.at?, if_neg hk]

/-- A map that does not read its default at a key lists the key. -/
theorem mem_keys_of_at_ne {α : Type} {d : α} {m : KMap α} {k : Nat} (h : m.at d k ≠ d) : ∃ v, (k, v) ∈ m := by
  by_contra hn
  exact h (at_of_not_mem fun v hv => hn ⟨v, hv⟩)

end Sys2Proof.Laws

namespace Sys2Proof.Machine

-- One after the other: side by side the proofs ask for more memory than the check grants.
set_option Elab.async false

open Laws

/-- A pass over a list, seen from one of its elements. -/
theorem forEachS_split {α : Type} (pre post : List α) (a : α) (f : α → Sys → Sys) (y : Sys) :
    forEachS (pre ++ a :: post) f y = forEachS post f (f a (forEachS pre f y)) := by
  simp only [forEachS, List.foldl_append, List.foldl_cons]

/-! ## INV (R119) -/

/-- The cache lists nothing at key k. -/
def Core.gone (k : Nat) (x : Core) : Prop := ∀ v, (k, v) ∉ x.lines

/-- The cache lists a line at key k as it did, or nothing there any more. -/
def Core.lineOrGone (k : Nat) (l : Line) (x : Core) : Prop := (k, some l) ∈ x.lines ∨ x.gone k

theorem Core.lines_drop (x : Core) (k : Nat) : (x.setLine k none).lines = KMap.del x.lines k := by
  rw [Core.setLine, KMap.put, if_pos rfl]

theorem Core.gone_drop (x : Core) (k : Nat) : (x.setLine k none).gone k := fun v => by
  rw [Core.lines_drop]
  exact not_mem_del x.lines k v

theorem Core.gone.drop {k : Nat} (x : Core) (j : Nat) (h : x.gone k) : (x.setLine j none).gone k := fun v hv => by
  rw [Core.lines_drop] at hv
  exact h v (mem_del hv)

theorem Core.lineOrGone.drop {k : Nat} {l : Line} (x : Core) (j : Nat) (h : x.lineOrGone k l) :
    (x.setLine j none).lineOrGone k l := by
  by_cases hj : k = j
  · subst hj
    exact .inr (x.gone_drop k)
  · refine h.imp (fun h => ?_) fun h => h.drop x j
    rw [Core.lines_drop]
    exact mem_del_of_ne h hj

theorem Core.gone.at_none {x : Core} {k : Nat} (h : x.gone k) : KMap.at x.lines none k = none := at_of_not_mem h

/-- R119: one line of an INV: an M copy is written back, and the line leaves the cache. -/
def Sys.dropLine (y : Sys) (c off n m : Nat) (e : Nat × Option Line) : Sys :=
  match e.2 with
  | none => y
  | some l =>
    if l.off < off + n ∧ off < l.off + 64 then
      onChip (fun s => s.setCore c m ((s.core c m).setLine e.1 none)) (if l.st = 3 then y.writeLine c l else y)
    else y

theorem Sys.invCore_eq (y : Sys) (c off n m : Nat) :
    y.invCore c off n m = forEachS (y.chip.core c m).lines (fun e z => z.dropLine c off n m e) y := by
  unfold Sys.invCore Sys.dropLine
  simp only [decide_eq_true_eq] <;> rfl

theorem Sys.dropLine_none (y : Sys) (c off n m k : Nat) : y.dropLine c off n m (k, none) = y := (rfl)

theorem Sys.dropLine_miss (y : Sys) (c m k : Nat) {off n : Nat} {l : Line}
    (h : ¬(l.off < off + n ∧ off < l.off + 64)) : y.dropLine c off n m (k, some l) = y := if_neg h

theorem Sys.dropLine_hit (y : Sys) (c m k : Nat) {off n : Nat} {l : Line} (h : l.off < off + n ∧ off < l.off + 64) :
    y.dropLine c off n m (k, some l) = onChip (fun s => s.setCore c m ((s.core c m).setLine k none))
      (if l.st = 3 then y.writeLine c l else y) := if_pos h

theorem Sys.core_writeBack (y : Sys) (c : Nat) (l : Line) (d n : Nat) :
    (if l.st = 3 then y.writeLine c l else y).chip.core d n = y.chip.core d n := by
  split
  · exact y.writeLine_core c l d n
  · rfl

theorem Sys.regs_writeBack (y : Sys) (c : Nat) (l : Line) :
    (if l.st = 3 then y.writeLine c l else y).chip.regs = y.chip.regs := by
  split
  · rw [Sys.writeLine_rest]
  · rfl

/-- What dropping a line does to the cores: one line of one core goes, or nothing. -/
theorem Sys.dropLine_cores (y : Sys) (c off n m : Nat) (e : Nat × Option Line) :
    (y.dropLine c off n m e).chip.regs = y.chip.regs ∧
      (∀ m', m' ≠ m → (y.dropLine c off n m e).chip.core c m' = y.chip.core c m') ∧
      ((y.dropLine c off n m e).chip.core c m = y.chip.core c m ∨
        (y.dropLine c off n m e).chip.core c m = (y.chip.core c m).setLine e.1 none) := by
  obtain ⟨k, o⟩ := e
  cases o with
  | none => exact ⟨rfl, fun _ _ => rfl, .inl rfl⟩
  | some l =>
    by_cases h : l.off < off + n ∧ off < l.off + 64
    · rw [Sys.dropLine_hit _ _ _ _ h, onChip_chip]
      refine ⟨y.regs_writeBack c l, fun m' hm => ?_, .inr ?_⟩
      · rw [Chip.core_setCore_ne _ _ (.inr hm), Sys.core_writeBack]
      · rw [Chip.core_setCore, Sys.core_writeBack]
    · rw [Sys.dropLine_miss _ _ _ _ h]
      exact ⟨rfl, fun _ _ => rfl, .inl rfl⟩

/-- A property of core m's lines that losing a line keeps, an INV keeps. -/
theorem Sys.dropLine_keeps {P : Core → Prop} (hP : ∀ x j, P x → P (x.setLine j none)) {y : Sys} {c m : Nat}
    (off n m' : Nat) (e : Nat × Option Line) (h : P (y.chip.core c m)) :
    P ((y.dropLine c off n m' e).chip.core c m) := by
  obtain ⟨-, hne, hself⟩ := y.dropLine_cores c off n m' e
  by_cases hm : m = m'
  · subst hm
    obtain e | e := hself
    · rwa [e]
    · rw [e]
      exact hP _ _ h
  · rwa [hne m hm]

theorem Sys.invCore_keeps {P : Core → Prop} (hP : ∀ x j, P x → P (x.setLine j none)) {y : Sys} {c m : Nat}
    (off n m' : Nat) (h : P (y.chip.core c m)) : P ((y.invCore c off n m').chip.core c m) := by
  rw [Sys.invCore_eq]
  exact forEachS_keeps (fun z => P (z.chip.core c m)) (fun e _ z hz => z.dropLine_keeps hP off n m' e hz) h

theorem Sys.invLines_keeps {P : Core → Prop} (hP : ∀ x j, P x → P (x.setLine j none)) {y : Sys} {c m : Nat}
    (off n : Nat) (h : P (y.chip.core c m)) : P ((y.invLines c off n).chip.core c m) := by
  unfold Sys.invLines
  split
  · exact h
  · exact forEachS_keeps (fun z => P (z.chip.core c m)) (fun e _ z hz => Sys.invCore_keeps (y := z) hP off n e.1 hz) h

theorem Sys.regs_invLines (y : Sys) (c off n : Nat) : (y.invLines c off n).chip.regs = y.chip.regs := by
  unfold Sys.invLines
  split
  · rfl
  · refine forEachS_keeps (fun z => z.chip.regs = y.chip.regs) (fun e _ z hz => ?_) rfl
    rw [Sys.invCore_eq]
    exact forEachS_keeps (fun w => w.chip.regs = y.chip.regs)
      (fun e' _ w hw => (w.dropLine_cores c off n e.1 e').1.trans hw) hz

/-- R119: a line that the INV touches leaves its core's cache. -/
theorem Sys.invCore_gone {y : Sys} {c m k off n : Nat} {l : Line} (h : (y.chip.core c m).lineOrGone k l)
    (hit : l.off < off + n ∧ off < l.off + 64) : ((y.invCore c off n m).chip.core c m).gone k := by
  obtain hmem | hgone := h
  · obtain ⟨pre, post, hsplit⟩ := List.append_of_mem hmem
    rw [Sys.invCore_eq, hsplit, forEachS_split]
    refine forEachS_keeps (fun w => (w.chip.core c m).gone k)
      (fun e _ w hw => w.dropLine_keeps Core.gone.drop off n m e hw) ?_
    rw [Sys.dropLine_hit _ _ _ _ hit, onChip_chip, Chip.core_setCore]
    exact Core.gone_drop _ k
  · exact y.invCore_keeps Core.gone.drop off n m hgone

/-- A core that holds a line is one the cluster lists. -/
theorem Chip.mem_cores {s : Chip} {c m : Nat} {e : Nat × Option Line} (h : e ∈ (s.core c m).lines) :
    ∃ x, (m, x) ∈ (s.cl c).cores := by
  refine mem_keys_of_at_ne (d := ({} : Core)) fun hx => ?_
  have hlines : (s.core c m).lines = [] := congrArg Core.lines hx
  rw [hlines] at h
  exact absurd h List.not_mem_nil

/-- R119: after an INV no core of the cluster holds a line that it touches. -/
theorem Sys.invLines_gone {y : Sys} {c m k off n : Nat} {l : Line} (h : (y.chip.core c m).lineOrGone k l)
    (hit : l.off < off + n ∧ off < l.off + 64) (hn : n ≠ 0) :
    ((y.invLines c off n).chip.core c m).gone k := by
  obtain hmem | hgone := id h
  · obtain ⟨x, hx⟩ := Chip.mem_cores hmem
    obtain ⟨pre, post, hsplit⟩ := List.append_of_mem hx
    have hpre : ((forEachS pre (fun e z => z.invCore c off n e.1) y).chip.core c m).lineOrGone k l := by
      refine forEachS_keeps (fun z => (z.chip.core c m).lineOrGone k l) ?_ h
      intro e _ z hz
      exact Sys.invCore_keeps (P := Core.lineOrGone k l) Core.lineOrGone.drop off n e.1 hz
    rw [Sys.invLines, if_neg hn, hsplit, forEachS_split]
    refine forEachS_keeps (fun w => (w.chip.core c m).gone k) ?_ ?_
    · intro e _ w hw
      exact Sys.invCore_keeps (P := Core.gone k) Core.gone.drop off n e.1 hw
    · exact (Sys.invCore_gone hpre hit)
  · exact y.invLines_keeps Core.gone.drop off n hgone

theorem exec_snoopInv (c : ClusterNo) (start : AgentAt) (len : Nat) (s : State) :
    exec (.snoopInv c start len) s = execSnoopInv c start len s := (rfl)

/-- The lines that a range touches. -/
def linesOf (off len : Nat) : List Nat := (List.range ((off % 64 + len + 63) / 64)).map fun i => off / 64 * 64 + 64 * i

/-- R119: a line that meets a range meets one of the range's lines. -/
theorem exists_linesOf {off len a : Nat} (h0 : len ≠ 0) (h1 : a < off + len) (h2 : off < a + 64) :
    ∃ b ∈ linesOf off len, a < b + 64 ∧ b < a + 64 := by
  obtain ⟨p, hp1, hp2, hp3, hp4⟩ : ∃ p, off ≤ p ∧ a ≤ p ∧ p < off + len ∧ p < a + 64 :=
    ⟨max off a, by omega, by omega, by omega, by omega⟩
  refine ⟨off / 64 * 64 + 64 * ((p - off / 64 * 64) / 64), List.mem_map_of_mem (List.mem_range.2 ?_), ?_, ?_⟩
  · omega
  · omega
  · omega

theorem Chip.stFrozen_congr {s t : Chip} (h : t.regs = s.regs) (c : Nat) : t.stFrozen c = s.stFrozen c := by
  simp only [Chip.stFrozen, Chip.frozen, Chip.flag, Chip.reg, h]

/-- R119: with grants an INV is the drop of each line it touches. -/
theorem exec_snoopInv_eq {s : State} {c : ClusterNo} {ag : Fin 4} {off len : Nat} (h : off + len ≤ 0x200000)
    (h0 : len ≠ 0) (hfrozen : s.sys.chip.stFrozen c = false) :
    exec (.snoopInv c ⟨ag, off⟩ len) s = .next { s with
      sys := forEachS (linesOf off len) (fun a y => y.invLines c a 64) s.sys } := by
  rw [exec_snoopInv, execSnoopInv, liftS]
  dsimp only
  rw [if_neg (by omega)]
  have key : ∀ (ls : List Nat) (y : Sys), y.chip.stFrozen c = false →
      forEachS ls (fun l y => match y.chip.ringAdmit c l (agentWho ag) with
        | (false, s) => { y with chip := s }
        | (true, s) => Sys.invLines { y with chip := s } c l 64) y =
      forEachS ls (fun a y => y.invLines c a 64) y := by
    intro ls
    induction ls with
    | nil => exact fun _ _ => rfl
    | cons a ls ih =>
      intro y hy
      simp only [forEachS, List.foldl_cons, Chip.ringAdmit_granted _ _ hy]
      exact ih _ ((Chip.stFrozen_congr (y.regs_invLines c a 64) c).trans hy)
  exact congrArg (fun z => Host.Outcome.next { s with sys := z }) (key (linesOf off len) s.sys hfrozen)

theorem snoopInv_drops {s : State} {c : ClusterNo} {ag : Fin 4} {off len : Nat} (h : off + len ≤ 0x200000)
    (h0 : len ≠ 0) (hfrozen : s.sys.chip.stFrozen c = false) :
    ∃ z, exec (.snoopInv c ⟨ag, off⟩ len) s = .next { s with sys := z } ∧
      ∀ m k l, (k, some l) ∈ (s.sys.chip.core c m).lines → l.off < off + len → off < l.off + 64 →
        KMap.at (z.chip.core c m).lines none k = none := by
  refine ⟨_, exec_snoopInv_eq h h0 hfrozen, fun m k l hl h1 h2 => Core.gone.at_none ?_⟩
  obtain ⟨b, hb, h3, h4⟩ := exists_linesOf h0 h1 h2
  obtain ⟨pre, post, hsplit⟩ := List.append_of_mem hb
  have hpre : ((forEachS pre (fun a y => y.invLines c a 64) s.sys).chip.core c m).lineOrGone k l := by
    refine forEachS_keeps (fun z => (z.chip.core c m).lineOrGone k l) ?_ (.inl hl)
    intro a _ z hz
    exact Sys.invLines_keeps (P := Core.lineOrGone k l) Core.lineOrGone.drop a 64 hz
  rw [hsplit, forEachS_split]
  refine forEachS_keeps (fun z => (z.chip.core c m).gone k) ?_ ?_
  · intro a _ z hz
    exact Sys.invLines_keeps (P := Core.gone k) Core.gone.drop a 64 hz
  · exact Sys.invLines_gone hpre ⟨h3, h4⟩ (by decide)

/-! ## What reporting and fences leave of the scrubber (R112, R114) -/

/-- The scrubber of every store stands where it stood. -/
structure Chip.scrubs (s t : Chip) : Prop where
  all : ∀ d, (t.cl d).scrub = (s.cl d).scrub

theorem Chip.scrubs.refl (s : Chip) : s.scrubs s := ⟨fun _ => rfl⟩

theorem Chip.scrubs.trans {s t u : Chip} (h : s.scrubs t) (h' : t.scrubs u) : s.scrubs u :=
  ⟨fun d => (h'.all d).trans (h.all d)⟩

theorem Chip.scrubs_of_cls {s t : Chip} (h : t.cls = s.cls) : s.scrubs t := by
  refine ⟨fun d => ?_⟩
  rw [Chip.cl, h]
  rfl

theorem Chip.Reports.scrubs {s t : Chip} (h : s.Reports t) : s.scrubs t := Chip.scrubs_of_cls h.cls

theorem Chip.scrubs_ite {s t u : Chip} {p : Prop} [Decidable p] (h : s.scrubs t) (h' : s.scrubs u) :
    s.scrubs (if p then t else u) := by
  split <;> assumption

theorem Chip.scrubs_setCl (s : Chip) (c : Nat) {x : Cl} (h : x.scrub = (s.cl c).scrub) : s.scrubs (s.setCl c x) := by
  refine ⟨fun d => ?_⟩
  by_cases hd : c = d
  · subst hd
    rw [Chip.cl_setCl, h]
  · rw [Chip.cl_setCl_ne _ _ hd]

theorem Chip.scrubs_setCore (s : Chip) (c m : Nat) (x : Core) : s.scrubs (s.setCore c m x) := s.scrubs_setCl c rfl

theorem Chip.scrubs_setFrog (s : Chip) (c : Nat) (f : Frog) : s.scrubs (s.setFrog c f) := s.scrubs_setCl c rfl

theorem Chip.scrubs_setEng (s : Chip) (c e : Nat) (x : Eng) : s.scrubs (s.setEng c e x) :=
  s.scrubs_setCl c (by split <;> rfl)

theorem scrubs_forEach {α : Type} (l : List α) {f : α → Chip → Chip} (hf : ∀ a (s : Chip), s.scrubs (f a s)) (s : Chip) :
    s.scrubs (forEach l f s) :=
  forEach_keeps (fun t => s.scrubs t) (fun a _ t ht => ht.trans (hf a t)) (.refl _)

theorem Chip.scrubs_setStop (s : Chip) (c m v : Nat) : s.scrubs (s.setStop c m v) := by
  unfold Chip.setStop
  exact Chip.scrubs_ite (Chip.scrubs_of_cls rfl) (.refl _)

theorem Chip.scrubs_trapPend (s : Chip) (c m : Nat) (b : Bool) : s.scrubs (s.trapPend c m b) :=
  Chip.scrubs_of_cls rfl

theorem Chip.scrubs_newtStop (s : Chip) (c m stop : Nat) : s.scrubs (s.newtStop c m stop) := by
  have hend : ∀ (t : Chip) {p : Prop} [Decidable p] (b : Bool) (v : Nat), s.scrubs t →
      s.scrubs ((if p then t.trapPend c m b else t).setStop c m v) := fun t p _ b v ht =>
    (Chip.scrubs_ite (ht.trans (t.scrubs_trapPend c m b)) ht).trans (Chip.scrubs_setStop ..)
  unfold Chip.newtStop
  dsimp only
  refine Chip.scrubs_ite (.refl _) ?_
  split
  · exact hend _ _ _ (s.scrubs_setCore c m _)
  · exact Chip.scrubs_ite (.refl _) (hend _ _ _ ((s.scrubs_setCl c (by rfl)).trans (Chip.scrubs_setCore _ c m _)))
  · refine Chip.scrubs_ite (.refl _) ?_
    exact ((s.scrubs_setCl c (by rfl)).trans (Chip.scrubs_setCore _ c m _)).trans (Chip.scrubs_setStop ..)

theorem Chip.scrubs_postAbort (s : Chip) (c d n : Nat) (st : Status) : s.scrubs (s.postAbort c d n st) :=
  Chip.scrubs_of_cls rfl

theorem Chip.scrubs_wrapBy (s : Chip) (a k : Nat) : s.scrubs (s.wrapBy a k) := Chip.scrubs_of_cls rfl

theorem Chip.scrubs_endReqs (s : Chip) (p : Req → Bool) (st : Status) : s.scrubs (s.endReqs p st) :=
  Chip.scrubs_of_cls rfl

theorem Chip.scrubs_fences (s : Chip) (l : List FenceRec) : s.scrubs { s with errs.fences := l } :=
  Chip.scrubs_of_cls rfl

theorem Chip.scrubs_failTick (s : Chip) (l : List (UnitId × Nat)) : s.scrubs { s with errs.failTick := l } :=
  Chip.scrubs_of_cls rfl

theorem Chip.scrubs_stale (s : Chip) (l : List UnitId) : s.scrubs { s with errs.stale := l } :=
  Chip.scrubs_of_cls rfl

theorem Chip.scrubs_releaseTable (s : Chip) (c : Nat) (st : Status) : s.scrubs (s.releaseTable c st) := by
  unfold Chip.releaseTable
  dsimp only
  split
  · exact .refl _
  · exact (scrubs_forEach _ (fun d t => t.scrubs_postAbort c d _ st) s).trans (Chip.scrubs_setFrog ..)

theorem Chip.scrubs_leaveScan (s : Chip) (c serial : Nat) (d : List Word) (st : Status) :
    s.scrubs (s.leaveScan c serial d st) := by
  unfold Chip.leaveScan
  dsimp only
  refine Chip.scrubs_ite (.refl _) ?_
  have h : s.scrubs (if dw d 11 23 16 = c then s else s.postAbort c (dw d 11 23 16) (dw d 11 31 24) st) :=
    Chip.scrubs_ite (.refl _) (s.scrubs_postAbort ..)
  exact Chip.scrubs_ite (h.trans (Chip.scrubs_releaseTable ..)) h

theorem Chip.scrubs_frogDone (s : Chip) (c : Nat) (d : List Word) : s.scrubs (s.frogDone c d) := by
  unfold Chip.frogDone
  have h := s.scrubs_wrapBy (fgPg c + 0x68) 1
  exact Chip.scrubs_ite (h.trans (Chip.reports_setFlag ..).scrubs) h

theorem Chip.scrubs_frogFenced (s : Chip) (c : Nat) (d : List Word) (n : Nat) : s.scrubs (s.frogFenced c d n) := by
  unfold Chip.frogFenced
  exact Chip.scrubs_ite ((s.scrubs_setCl c (by rfl)).trans (Chip.scrubs_frogDone ..)) (.refl _)

theorem Chip.scrubs_frogStop (s : Chip) (c : Nat) (st : Status) : s.scrubs (s.frogStop c st) := by
  unfold Chip.frogStop
  dsimp only
  generalize hu : Chip.setReg _ _ _ = u
  have h0 : s.scrubs u := hu ▸ (s.scrubs_setFrog c _).trans (Chip.scrubs_of_cls rfl)
  generalize hv : Chip.releaseTable _ c st = v
  have h1 : s.scrubs v := by
    rw [← hv]
    refine Chip.scrubs.trans ?_ (Chip.scrubs_releaseTable ..)
    split
    · exact h0.trans (Chip.scrubs_leaveScan ..)
    · exact h0
  refine Chip.scrubs_ite ?_ h1
  refine Chip.scrubs.trans ?_ (scrubs_forEach _ (fun q t => t.scrubs_frogFenced c (Prod.snd q) 0) _)
  split
  · exact h1.trans (Chip.scrubs_frogFenced ..)
  · exact h1

theorem Chip.scrubs_copyStop (s : Chip) (c e : Nat) (st : Status) : s.scrubs (s.copyStop c e st) := by
  unfold Chip.copyStop
  dsimp only
  have h : ∀ (l : List Acc) (x : Cl), x.scrub = (s.cl c).scrub → s.scrubs (({ s with accs := l } : Chip).setCl c x) :=
    fun l x hx => Chip.scrubs.trans (t := { s with accs := l }) (Chip.scrubs_of_cls rfl) (Chip.scrubs_setCl _ c hx)
  exact Chip.scrubs_ite ((h _ _ (by rfl)).trans (Chip.scrubs_setEng ..)) ((h _ _ (by rfl)).trans (Chip.scrubs_setEng ..))

theorem Chip.scrubs_clusterStop (s : Chip) (c : Nat) (st : Status) (stop : Nat) :
    s.scrubs (s.clusterStop c st stop) := by
  unfold Chip.clusterStop
  exact (((scrubs_forEach _ (fun m t => t.scrubs_newtStop c m stop) s).trans (Chip.scrubs_frogStop ..)).trans
    (Chip.scrubs_copyStop ..)).trans (Chip.scrubs_copyStop ..)

theorem Chip.scrubs_pairFence (s : Chip) (u : UnitId) : s.scrubs (s.pairFence u) := by
  have h : s.scrubs (if s.standsBy then s.goOut else s.announce (.fence u)) := by
    refine Chip.scrubs_ite (Chip.scrubs_of_cls rfl) ?_
    unfold Chip.announce
    exact Chip.scrubs_ite (Chip.scrubs_of_cls rfl) (.refl _)
  unfold Chip.pairFence
  cases u with
  | link | eth | cv | part => exact .refl _
  | _ => exact h

/-- A fence of a cluster or of a partition leaves the scrubbers alone. -/
theorem Chip.scrubs_fenceUnit (s : Chip) {u : UnitId} (cause : Cause)
    (h : (∃ c, u = .cluster c) ∨ ∃ p, u = .part p) : s.scrubs (s.fenceUnit u cause) := by
  unfold Chip.fenceUnit
  refine Chip.scrubs_ite (.refl _) ?_
  obtain ⟨c, rfl⟩ | ⟨p, rfl⟩ := h
  · exact (((((s.scrubs_pairFence _).trans (Chip.scrubs_fences ..)).trans (Chip.reports_setFld ..).scrubs).trans
      (Chip.scrubs_failTick ..)).trans (Chip.scrubs_endReqs ..)).trans (Chip.scrubs_clusterStop ..)
  · exact (((s.scrubs_pairFence _).trans (Chip.scrubs_fences ..)).trans (Chip.reports_setFld ..).scrubs).trans
      (Chip.scrubs_endReqs ..)

theorem Chip.scrubs_writeCopies (s : Chip) (u : UnitId) : s.scrubs (s.writeCopies u) := by
  have h : s.scrubs s.reconcile := by
    unfold Chip.reconcile
    exact (s.scrubs_stale []).trans (scrubs_forEach _
      (fun _ t => ((t.reports_countErr fqPg 1 0 0 true).trans (Chip.reports_bump ..)).scrubs) _)
  unfold Chip.writeCopies
  dsimp only
  have h' := h.trans (s.reconcile.reports_strike fqPg).scrubs
  exact Chip.scrubs_ite (h'.trans (Chip.scrubs_stale ..)) h'

theorem Chip.scrubs_fenceAll (s : Chip) {u : UnitId} (cause : Cause)
    (h : (∃ c, u = .cluster c) ∨ ∃ p, u = .part p) : s.scrubs (s.fenceAll u cause) := by
  have h1 := (s.scrubs_fenceUnit cause h).trans (Chip.scrubs_writeCopies _ u)
  unfold Chip.fenceAll
  dsimp only
  split
  · exact h1.trans (scrubs_forEach _ (fun c t => t.scrubs_fenceUnit _ (.inl ⟨c, rfl⟩)) _)
  · exact h1

/-- R388: an enclosing scope is a cluster or a partition. -/
theorem Chip.scopeOf_some {s : Chip} {u w : UnitId} (h : s.scopeOf u = some w) :
    (∃ c, w = .cluster c) ∨ ∃ p, w = .part p := by
  unfold Chip.scopeOf at h
  split at h
  · exact .inl ⟨_, (Option.some.inj h).symm⟩
  · exact .inl ⟨_, (Option.some.inj h).symm⟩
  · exact .inl ⟨_, (Option.some.inj h).symm⟩
  · split at h
    · split at h
      · cases h
      · exact .inr ⟨_, (Option.some.inj h).symm⟩
    · cases h
  · cases h

theorem Chip.reports_unitRecord (s : Chip) (u : UnitId) (cause : Cause) (pg bit info : Nat) (inj widen second : Bool) :
    s.Reports (s.unitRecord u cause pg bit info inj widen second) :=
  s.reports_fault _

theorem Chip.reports_fenceRecord (s : Chip) (u : UnitId) (cause : Cause) (pg bit info : Nat) (inj widen second : Bool) :
    s.Reports (s.fenceRecord u cause pg bit info inj widen second) :=
  (s.reports_unitRecord ..).trans (Chip.reports_sendState ..)

/-- R112: an uncorrectable word is recorded, and what it fences leaves the scrubbers alone. -/
theorem Chip.scrubs_wordUe (s : Chip) (c off : Nat) : s.scrubs (s.wordUe c off) := by
  unfold Chip.wordUe
  dsimp only
  generalize hu : Chip.countErr _ _ _ _ _ _ = u
  have h : s.scrubs u := by
    rw [← hu]
    refine Chip.Reports.scrubs (Chip.Reports.trans ?_ (Chip.reports_countErr ..))
    exact .ite (.refl _) ((Chip.Reports.refl s).setReg ..)
  refine Chip.scrubs_ite h ?_
  split
  · exact h.trans (u.reports_fault _).scrubs
  · refine Chip.scrubs_ite h ?_
    split
    · rename_i w hw
      exact (h.trans (Chip.scrubs_fenceAll _ _ (Chip.scopeOf_some hw))).trans (Chip.reports_fenceRecord ..).scrubs
    · exact h.trans (u.reports_unitRecord ..).scrubs

theorem Sys.scrubs_stMeet (y : Sys) (c : Nat) (e : Nat × Mark) : y.chip.scrubs (y.stMeet c e).chip := by
  unfold Sys.stMeet
  dsimp only
  split
  · exact .refl _
  · exact .refl _
  · exact (y.chip.reports_countErr _ _ _ _ _).scrubs
  · exact y.chip.scrubs_wordUe c _
  · exact (y.chip.reports_setErr _ _).scrubs

/-! ## R114: a due scrub -/

theorem Mem.mem_stMarks {m : Mem} {k n : Nat} {e : Nat × Mark} :
    e ∈ m.stMarks k n ↔ e ∈ m.storeMark ∧ k ≤ e.1 ∧ e.1 < k + n := by
  simp [Mem.stMarks]

/-- A word that is poison, or that the poisoned ones name, is poison once they are written. -/
theorem at_poisoned (k : Nat) (l : List (Nat × Mark)) (m : KMap Mark)
    (h : KMap.at m .good k = .poison ∨ ∃ v, (k, v) ∈ l) :
    KMap.at (l.foldl (fun m e => KMap.put m .good e.1 .poison) m) .good k = .poison := by
  induction l generalizing m with
  | nil => exact h.resolve_right (by simp)
  | cons e l ih =>
    refine ih _ ?_
    by_cases he : e.1 = k
    · exact .inl (he ▸ at_put_self ..)
    · rw [at_put_ne _ _ he]
      refine h.imp id fun ⟨v, hv⟩ => ⟨v, (List.mem_cons.1 hv).resolve_left ?_⟩
      rintro rfl
      exact he rfl

/-- R112: a word that cannot be corrected becomes the poison codeword. -/
theorem Mem.stPoison_dead {m : Mem} {c off k : Nat} {v : Mark} (h : (k, v) ∈ m.stMarks (stKey c off / 4) 2)
    (hv : v.dead = true) : KMap.at (m.stPoison c off 8).storeMark .good k = .poison :=
  at_poisoned k _ _ (.inr ⟨v, List.mem_filter.2 ⟨h, hv⟩⟩)

/-- Nothing is poisoned where every word can be corrected. -/
theorem Mem.stPoison_alive {m : Mem} {c off : Nat} (h : ∀ e ∈ m.stMarks (stKey c off / 4) 2, e.2.dead = false) :
    m.stPoison c off 8 = m := by
  have : (m.stMarks (stKey c off / 4) (8 / 4)).filter (fun e => e.2.dead) = [] :=
    List.filter_eq_nil_iff.2 fun e he => by simp [h e he]
  unfold Mem.stPoison
  rw [this]
  rfl

theorem Sys.stMeet_store (y : Sys) (c : Nat) (e : Nat × Mark) : (y.stMeet c e).mem.store = y.mem.store := by
  unfold Sys.stMeet
  dsimp only
  split <;> rfl

/-- R112: a word that its reader cannot correct is still one after it was met. -/
theorem Sys.stMeet_dead (y : Sys) (c : Nat) {k : Nat} {v : Mark} (h : (k, v) ∈ y.mem.storeMark) (hv : v.dead = true) :
    ∃ v', v'.dead = true ∧ (k, v') ∈ (y.stMeet c (k, v)).mem.storeMark := by
  cases v with
  | good | one => cases hv
  | two =>
    refine ⟨.told, rfl, ?_⟩
    show (k, Mark.told) ∈ KMap.put y.mem.storeMark .good k .told
    exact Laws.mem_ins_self ..
  | told => exact ⟨.told, rfl, h⟩
  | poison => exact ⟨.poison, rfl, h⟩

/-- R114: what a due scrub has done: the marked words of its granule are met, the dead ones poisoned, and
the next granule's turn has come. -/
def Sys.scrubbed (y : Sys) (c : Nat) : Sys :=
  let p := (y.chip.cl c).scrub
  let z := forEachS (y.mem.stMarks (stKey c (8 * p) / 4) 2) (fun e z => z.stMeet c e) y
  onChip (fun s => s.setCl c { s.cl c with scrub := ((s.cl c).scrub + 1) % 262144
                                           scrubAt := s.ref }) (onMem (fun m => m.stPoison c (8 * p) 8) z)

theorem exec_clScrub_eq {s : State} {c : ClusterNo} (h0 : s.sys.chip.fld (stPg c + 0x50) 23 0 ≠ 0)
    (hdue : (s.sys.chip.cl c).scrubAt + s.sys.chip.fld (stPg c + 0x50) 23 0 ≤ s.sys.chip.ref) :
    exec (.clScrub c) s = .next { s with sys := s.sys.scrubbed c } := by
  have hwords : (8 * (s.sys.chip.cl c).scrub % 4 + 8 + 3) / 4 = 2 := by omega
  have hgo : ¬ (s.sys.chip.fld (stPg c + 0x50) 23 0 = 0 ∨
      s.sys.chip.ref < (s.sys.chip.cl c).scrubAt + s.sys.chip.fld (stPg c + 0x50) 23 0) := by omega
  have hexec : exec (.clScrub c) s = execClScrub c s := (rfl)
  rw [hexec]
  unfold execClScrub liftS
  dsimp only
  rw [if_neg hgo]
  unfold Sys.stRead
  rw [hwords]
  rfl

section
variable {y : Sys} {c : Nat}

/-- The mark memory a due scrub leaves, where it meets at most one marked word. -/
theorem Sys.scrubbed_mem (l : List (Nat × Mark)) (hl : y.mem.stMarks (stKey c (8 * (y.chip.cl c).scrub) / 4) 2 = l) :
    (y.scrubbed c).mem = (forEachS l (fun e z => z.stMeet c e) y).mem.stPoison c (8 * (y.chip.cl c).scrub) 8 := by
  rw [← hl]
  rfl

theorem Sys.scrubbed_scrub (l : List (Nat × Mark)) (hl : y.mem.stMarks (stKey c (8 * (y.chip.cl c).scrub) / 4) 2 = l) :
    ((y.scrubbed c).chip.cl c).scrub = ((y.chip.cl c).scrub + 1) % 262144 := by
  have h : y.chip.scrubs (forEachS l (fun e z => z.stMeet c e) y).chip :=
    forEachS_keeps (fun z => y.chip.scrubs z.chip) (fun e _ z hz => hz.trans (z.scrubs_stMeet c e)) (.refl _)
  unfold Sys.scrubbed
  dsimp only
  rw [hl, onChip_chip, Chip.cl_setCl, onMem_chip, h.all]

theorem Sys.scrubbed_clean (h : y.mem.stMarks (stKey c (8 * (y.chip.cl c).scrub) / 4) 2 = []) :
    y.scrubbed c = onChip (fun s => s.setCl c { s.cl c with scrub := ((s.cl c).scrub + 1) % 262144
                                                            scrubAt := s.ref }) y := by
  have hm : y.mem.stPoison c (8 * (y.chip.cl c).scrub) 8 = y.mem := Mem.stPoison_alive (by rw [h]; simp)
  unfold Sys.scrubbed
  dsimp only
  rw [h]
  simp only [forEachS, List.foldl_nil, onMem, hm]

/-- R114: a single flipped bit is corrected. -/
theorem Sys.scrubbed_one {k : Nat} (h : y.mem.stMarks (stKey c (8 * (y.chip.cl c).scrub) / 4) 2 = [(k, .one)]) :
    (y.scrubbed c).mem = { y.mem with storeMark := KMap.put y.mem.storeMark .good k .good } := by
  rw [y.scrubbed_mem _ h]
  refine Mem.stPoison_alive fun e he => ?_
  obtain ⟨hmem, hwin⟩ := Mem.mem_stMarks.1 he
  have hold : e ∈ y.mem.stMarks (stKey c (8 * (y.chip.cl c).scrub) / 4) 2 :=
    Mem.mem_stMarks.2 ⟨Laws.mem_del hmem, hwin⟩
  rw [h, List.mem_singleton] at hold
  rw [hold]
  rfl

/-- R112: a word that cannot be corrected is poisoned, and the bytes stay. -/
theorem Sys.scrubbed_dead {k : Nat} {v : Mark}
    (h : y.mem.stMarks (stKey c (8 * (y.chip.cl c).scrub) / 4) 2 = [(k, v)]) (hv : v.dead = true) :
    KMap.at (y.scrubbed c).mem.storeMark .good k = .poison := by
  have hold : (k, v) ∈ y.mem.stMarks (stKey c (8 * (y.chip.cl c).scrub) / 4) 2 := by simp [h]
  obtain ⟨hmem, hwin⟩ := Mem.mem_stMarks.1 hold
  obtain ⟨v', hv', hmem'⟩ := y.stMeet_dead c hmem hv
  rw [y.scrubbed_mem _ h]
  exact Mem.stPoison_dead (Mem.mem_stMarks.2 ⟨hmem', hwin⟩) hv'

theorem Sys.scrubbed_store (l : List (Nat × Mark)) (hl : y.mem.stMarks (stKey c (8 * (y.chip.cl c).scrub) / 4) 2 = l) :
    (y.scrubbed c).mem.store = y.mem.store := by
  rw [y.scrubbed_mem l hl]
  show (forEachS l (fun e z => z.stMeet c e) y).mem.store = y.mem.store
  exact forEachS_keeps (fun z => z.mem.store = y.mem.store) (fun e _ z hz => (z.stMeet_store c e).trans hz) rfl

end

/-- Settles O21: an INV drops the lines it meets block by block, and a due scrub by the marks of its granule. -/
theorem storeUpkeep : Obligations.StoreUpkeep := by
  unfold Obligations.StoreUpkeep
  refine ⟨fun s c ag off len h h0 hf => snoopInv_drops h h0 hf, ?_⟩
  intro s c y n p h0 hdue
  have hexec := exec_clScrub_eq h0 hdue
  refine ⟨fun h => ⟨_, hexec, ?_⟩, fun k h => ⟨_, hexec, Sys.scrubbed_store _ h, ?_, Sys.scrubbed_scrub _ h⟩,
    fun k v h hv => ⟨_, hexec, Sys.scrubbed_store _ h, Sys.scrubbed_dead h hv, Sys.scrubbed_scrub _ h⟩⟩
  · rw [Sys.scrubbed_clean h, onChip_chip, Chip.cl_setCl]
    exact ⟨rfl, rfl, rfl, fun a => rfl⟩
  · rw [Sys.scrubbed_one h]
    exact Laws.at_put_self Mark.good s.sys.mem.storeMark k Mark.good

end Sys2Proof.Machine

/-! PROOF of O22 (R317, R322): one decision of a grant arbiter. -/

namespace Sys2Proof.Machine

-- One after the other: side by side the proofs ask for more memory than the check grants.
set_option Elab.async false

open Laws

/-- What is set as an arbiter's state is its state. -/
theorem Chip.arb_setArb (s : Chip) (id : ArbId) (k : Nat) (r : ArbRes) (a : Arb) :
    (s.setArb id k r a).arb id k = a := by
  cases id with
  | bank c b => exact at_put_self ..
  | mesh r o => exact at_put_self ..
  | vc l => exact congrArg Lnk.arb (at_put_self _ s.links l _)
  | mc n =>
    have h1 : ((s.setArb (.mc n) k r a).mc n).arbCount = a.g := congrArg Mc.arbCount (at_put_self _ s.mcs n _)
    have h2 : KMap.at (s.setArb (.mc n) k r a).arbs {} k = { a with g := 1 } := at_put_self ..
    simp only [Chip.arb, h1, h2]

/-- R317: the choice among one request. -/
theorem arbPick_singleton (g n : Nat) (r : ArbReq) : arbPick g n [r] = some r := rfl

/-- R317: the arbiter's state once the entry e, its only one, has the grant. -/
def Arb.granted (a : Arb) (n : Nat) (e : ArbEnt) : Arb :=
  { a with g := a.g + 1, holder := some { e with step1 := a.g % n == 0 }, parked := [] }

/-- R317: an idle arbiter with nothing parked grants the one request it is given. -/
theorem arbDecide_only {a : Arb} (n : Nat) (pre : Bool) (prio : ArbEnt → Nat) (e : ArbEnt) (hh : a.holder = none)
    (hp : a.parked = [e]) :
    arbDecide a n pre prio [] = (.grant, a.granted n e) := by
  simp [Arb.granted, arbDecide, hh, hp, arbPick_singleton, giveTo, withdraw]

/-- The entry a request is parked as. -/
def reqEntry (r : ArbReq) (at' : Nat) : ArbEnt := ⟨r.who, r.prio, max r.beats 1, 0, at', false⟩

theorem exec_arbGrant_only {s : State} {id : ArbId} {cycles k : Nat} {r : ArbReq} (hk : arbKey id = some k)
    (hf : s.sys.chip.arbFrozen id = false) (hw : arbHas id r.who = true)
    (hh : (s.sys.chip.arb id k).holder = none) (hp : (s.sys.chip.arb id k).parked = []) :
    exec (.arbGrant id cycles [r] []) s =
      let a := arbAdvance (s.sys.chip.arb id k) cycles
      .next { s with sys := { s.sys with
        chip := s.sys.chip.setArb id k .grant (a.granted (s.sys.chip.arbN id) (reqEntry r a.cycle)) } } := by
  have hexec : exec (.arbGrant id cycles [r] []) s = execArbGrant id cycles [r] [] s := (rfl)
  rw [hexec, execArbGrant, liftC]
  simp only [hk, List.filter_cons, hw, if_true, List.filter_nil, List.map_cons, List.map_nil, hf]
  have hhold : (arbAdvance (s.sys.chip.arb id k) cycles).holder = none := by simp [arbAdvance, hh]
  have hparked : (arbAdvance (s.sys.chip.arb id k) cycles).parked = [] := hp
  generalize arbAdvance (s.sys.chip.arb id k) cycles = a at hhold hparked
  have hnew : parkNew a [⟨r.who, r.prio, max r.beats 1, 0, a.cycle, false⟩] =
      { a with parked := [reqEntry r a.cycle] } := by
    simp [parkNew, hhold, hparked, insertEnt, reqEntry]
  rw [hnew, arbDecide_only (a := { a with parked := [reqEntry r a.cycle] }) _ _ _ (reqEntry r a.cycle) hhold rfl]
  rfl

/-- A choice by pairs keeps one of them that stands above both: the last one left stands above all. -/
theorem foldl_choice {α : Type} (above : α → α → Prop) (hr : ∀ a, above a a)
    (ht : ∀ a b c, above a b → above b c → above a c) (f : α → α → α)
    (hf : ∀ a b, (f a b = a ∨ f a b = b) ∧ above (f a b) a ∧ above (f a b) b) (l : List α) (r : α) :
    l.foldl f r ∈ r :: l ∧ ∀ q ∈ r :: l, above (l.foldl f r) q := by
  induction l generalizing r with
  | nil => simpa using hr r
  | cons b l ih =>
    obtain ⟨hmem, habove⟩ := ih (f r b)
    obtain ⟨hor, h1, h2⟩ := hf r b
    rw [List.foldl_cons]
    refine ⟨?_, fun q hq => ?_⟩
    · rcases List.mem_cons.1 hmem with h | h
      · rw [h]
        rcases hor with h' | h' <;> simp [h']
      · simp [h]
    · have htop := habove (f r b) (by simp)
      rcases List.mem_cons.1 hq with rfl | hq
      · exact ht _ _ _ htop h1
      · rcases List.mem_cons.1 hq with rfl | hq
        · exact ht _ _ _ htop h2
        · exact habove q (by simp [hq])

/-- R317: what one request has over another: the longer wait in step 1, the priority in step 2. -/
def arbAbove (step1 : Bool) (a b : ArbReq) : Prop := if step1 then a.since ≤ b.since else b.prio ≤ a.prio

theorem arbAbove_better (step1 : Bool) (a b : ArbReq) :
    let c := if arbBetter step1 a b then b else a
    (c = a ∨ c = b) ∧ arbAbove step1 c a ∧ arbAbove step1 c b := by
  cases step1 <;> simp only [arbBetter, arbAbove, decide_eq_true_eq, if_true, Bool.false_eq_true, if_false] <;> split <;>
    simp <;> omega

theorem arbPick_above {g n : Nat} {l : List ArbReq} {r : ArbReq} (h : arbPick g n l = some r) :
    r ∈ l ∧ ∀ q ∈ l, arbAbove (g % n == 0) r q := by
  cases l with
  | nil => cases h
  | cons x l =>
    rw [← Option.some.inj h]
    refine foldl_choice (arbAbove (g % n == 0)) ?_ ?_ _ (fun a b => arbAbove_better _ a b) l x
    · intro a
      unfold arbAbove
      split <;> exact Nat.le_refl _
    · intro a b c
      unfold arbAbove
      split <;> omega

/-- Settles O22: the granted entry is the request's own, and the choice stands above every request. -/
theorem arbiterGrants : Obligations.ArbiterGrants := by
  unfold Obligations.ArbiterGrants
  refine ⟨fun s id cycles k r hk hf hw hh hp => ⟨_, exec_arbGrant_only hk hf hw hh hp, rfl, ?_⟩, ?_⟩
  · rw [Chip.arb_setArb]
    exact ⟨fun e he => by cases he; rfl, rfl, rfl, rfl⟩
  · intro g n l r h
    obtain ⟨hmem, habove⟩ := arbPick_above h
    refine ⟨hmem, fun hn q hq => ?_, fun hn q hq => ?_⟩
    · simpa [arbAbove, hn] using habove q hq
    · simpa [arbAbove, hn] using habove q hq

end Sys2Proof.Machine

/-! PROOF of O23 (R59, R79 to R83): posts to a frog, carries, aborts and the time limit of a wait. -/

namespace Sys2Proof.Machine

-- One after the other: side by side the proofs ask for more memory than the check grants.
set_option Elab.async false

open Laws

/-! ## What a completion word leaves -/

@[simp] theorem length_cmplBytes (st : Status) (ex bc bs : Bool) (opc tag : Nat) (lo hi : Int) (sat kc : Nat) :
    (cmplBytes st ex bc bs opc tag lo hi sat kc).length = 16 := by
  rw [cmplBytes, length_leBytes]

@[simp] theorem Frog.length_failBytes (f : Frog) (d : List Word) (st : Status) (n : Nat) (bc bs : Bool) :
    (f.failBytes d st n bc bs).length = 16 := by
  unfold Frog.failBytes
  by_cases h : dw d 0 3 0 = 2
  · rw [if_pos h]
    apply length_cmplBytes
  · rw [if_neg h]
    apply length_cmplBytes

theorem Chip.cls_frogDone (s : Chip) (c : Nat) (d : List Word) : (s.frogDone c d).cls = s.cls := by
  have hcount : (s.wrapBy (fgPg c + 0x68) 1).cls = s.cls := Chip.wrapBy_cls ..
  unfold Chip.frogDone
  split
  · exact (Chip.setFlag_cls ..).trans hcount
  · exact hcount

theorem Chip.frog_frogDone (s : Chip) (c : Nat) (d : List Word) : (s.frogDone c d).frog c = s.frog c := by
  unfold Chip.frog Chip.cl
  rw [Chip.cls_frogDone]

/-- R62: a completion word in a calm store: its bytes are there, and it is counted. -/
theorem Sys.frogPost_calm {y : Sys} {c : Nat} (h : y.Calm c) {d : List Word} (ho : ptr d 12 % 4 = 0) {w : List Byte}
    (hw : w.length = 16) :
    y.frogPost c d w =
      onChip (fun s => s.frogDone c d) (y.withStore (KMap.store y.mem.store (stKey c (ptr d 12)) w)) := by
  unfold Sys.frogPost
  rw [Sys.stWrite_words h ho (by omega)]

theorem Sys.frogPost_bytes {y : Sys} {c : Nat} (h : y.Calm c) {d : List Word} (ho : ptr d 12 % 4 = 0) {w : List Byte}
    (hw : w.length = 16) : KMap.bytes (y.frogPost c d w).mem.store (stKey c (ptr d 12)) 16 = w := by
  rw [Sys.frogPost_calm h ho hw, onChip_mem, Sys.withStore_store]
  exact bytes_store_of_length hw

theorem Sys.frogPost_chip {y : Sys} {c : Nat} (h : y.Calm c) {d : List Word} (ho : ptr d 12 % 4 = 0) {w : List Byte}
    (hw : w.length = 16) : (y.frogPost c d w).chip = y.chip.frogDone c d := by
  rw [Sys.frogPost_calm h ho hw]
  rfl

/-! ## What leaving a scan changes -/

/-- Only posts and the carry table of cluster c's frog have changed. -/
structure Chip.leavesScan (s t : Chip) (c : Nat) : Prop where
  errs : t.errs = s.errs
  core : ∀ m, t.core c m = s.core c m
  regs : t.regs = s.regs
  wait : (t.frog c).wait = (s.frog c).wait
  queue : (t.frog c).queue = (s.frog c).queue

theorem Chip.leavesScan.refl (s : Chip) (c : Nat) : s.leavesScan s c := ⟨rfl, fun _ => rfl, rfl, rfl, rfl⟩

theorem Chip.leavesScan.trans {s t u : Chip} {c : Nat} (h : s.leavesScan t c) (h' : t.leavesScan u c) :
    s.leavesScan u c :=
  ⟨h'.errs.trans h.errs, fun m => (h'.core m).trans (h.core m), h'.regs.trans h.regs, h'.wait.trans h.wait,
    h'.queue.trans h.queue⟩

theorem Chip.leavesScan_postAbort (s : Chip) (c x d n : Nat) (st : Status) :
    s.leavesScan (s.postAbort x d n st) c := ⟨rfl, fun _ => rfl, rfl, rfl, rfl⟩

theorem Chip.leavesScan_setFrog (s : Chip) (c : Nat) {f : Frog} (h : f.wait = (s.frog c).wait)
    (hq : f.queue = (s.frog c).queue) : s.leavesScan (s.setFrog c f) c :=
  ⟨rfl, fun m => s.core_setFrog c c m f, rfl, by rw [Chip.frog_setFrog, h], by rw [Chip.frog_setFrog, hq]⟩

theorem Chip.leavesScan_releaseTable (s : Chip) (c : Nat) (st : Status) : s.leavesScan (s.releaseTable c st) c := by
  unfold Chip.releaseTable
  dsimp only
  split
  · exact .refl s c
  · refine Chip.leavesScan.trans (forEach_keeps (fun t => s.leavesScan t c) ?_ (.refl s c))
      (Chip.leavesScan_setFrog _ c rfl rfl)
    exact fun d _ t ht => ht.trans (t.leavesScan_postAbort c c d _ st)

theorem Chip.leavesScan_leaveScan (s : Chip) (c n : Nat) (d : List Word) (st : Status) :
    s.leavesScan (s.leaveScan c n d st) c := by
  unfold Chip.leaveScan
  dsimp only
  split
  · exact .refl s c
  · generalize ht : (if dw d 11 23 16 = c then s else s.postAbort c (dw d 11 23 16) (dw d 11 31 24) st) = t
    have habort : s.leavesScan t c := by
      rw [← ht]
      split
      · exact .refl s c
      · exact s.leavesScan_postAbort ..
    split
    · exact habort.trans (Chip.leavesScan_releaseTable ..)
    · exact habort

/-- R65, R81: the end of a waiting scan in a calm store. -/
theorem Sys.endWait_calm {y : Sys} {c : Nat} (h : y.Calm c) (w : ScanWait) (st : Status) (ho : ptr w.desc 12 % 4 = 0) :
    ((y.endWait c w st).chip.frog c).wait = none ∧
      KMap.bytes (y.endWait c w st).mem.store (stKey c (ptr w.desc 12)) 16 =
        (y.chip.frog c).failBytes w.desc st w.count := by
  have hleave := (y.chip.setFrog c { y.chip.frog c with wait := none }).leavesScan_leaveScan c w.serial w.desc st
  have hcalm : (onChip (fun s => (s.setFrog c { y.chip.frog c with wait := none }).leaveScan c w.serial w.desc st) y).Calm c :=
    h.chip _ (congrArg Errs.armed hleave.errs) fun m => by rw [hleave.core, Chip.core_setFrog]
  unfold Sys.endWait
  dsimp only
  refine ⟨?_, Sys.frogPost_bytes hcalm ho (Frog.length_failBytes ..)⟩
  rw [Sys.frogPost_chip hcalm ho (Frog.length_failBytes ..), Chip.frog_frogDone, onChip_chip, hleave.wait,
    Chip.frog_setFrog]

/-- Writes one after the other change bytes of a calm store only. -/
theorem Sys.foldl_calm {α β : Type} {c : Nat} {f : β × Sys → α → β × Sys}
    (hf : ∀ b z a, z.Calm c → ∃ m, (f (b, z) a).2 = z.withStore m) (l : List α) (b : β) {y : Sys} (h : y.Calm c) :
    ∃ m, (l.foldl f (b, y)).2 = y.withStore m := by
  induction l generalizing b y with
  | nil => exact ⟨y.mem.store, rfl⟩
  | cons a l ih =>
    obtain ⟨m, hm⟩ := hf b y a h
    obtain ⟨m', hm'⟩ := ih (f (b, y) a).1 (y := (f (b, y) a).2) (hm ▸ h.withStore m)
    exact ⟨m', by rw [List.foldl_cons]; exact hm'.trans (by rw [hm, Sys.withStore_withStore])⟩

/-- R73: the outputs of the lanes change bytes of a calm store only. -/
theorem Sys.writeLanes_calm {y : Sys} {c : Nat} (h : y.Calm c) (d : List Word) (ls : List (List Int)) :
    ∃ m, y.writeLanes c d ls = y.withStore m :=
  Sys.foldl_calm (fun _ _ _ hz => Sys.stWrite_calm hz _ _) ls 0 h

/-- R81: the spoilt outputs of a scan that an abort ends change bytes of a calm store, and no frog. -/
theorem Sys.spoilLanes_calm {y : Sys} {c : Nat} (h : y.Calm c) (d : List Word) :
    (y.spoilLanes c d).Calm c ∧ (y.spoilLanes c d).chip.frog c = y.chip.frog c := by
  unfold Sys.spoilLanes
  split
  · exact ⟨h, rfl⟩
  · have hfresh : Sys.Calm { y with chip := y.chip.fresh.2 } c := h.chip y.chip.fresh.2 rfl fun _ => rfl
    dsimp only
    obtain ⟨m, hm⟩ := Sys.writeLanes_calm hfresh d (((List.range (sLanes d)).map fun l =>
      (laneAt d (ptr d 8) (ptr d 9) (sWh d) l).2).mapIdx fun l m => (List.range m).map fun t =>
        (Config.freeByte y.chip.fresh.1 (2 ^ 24 * l + t) : Int))
    rw [hm]
    exact ⟨hfresh.withStore m, rfl⟩

/-! ## Posting (R59) -/

theorem exec_fgPost (c : ClusterNo) (ag : Agent) (v : Word) (s : State) : exec (.fgPost c ag v) s = execFgPost c ag v s :=
  (rfl)

theorem exec_fgPost_eq {s : State} {c : ClusterNo} {ag : Agent} (v : Word)
    (h : ∀ m, ag = .newt m → s.sys.chip.flag (fgPg c + 0x40) 0 = true) :
    exec (.fgPost c ag v) s = .next { s with sys := s.sys.frogEnqueue c (Word.bits v 20 0) } := by
  have hmay : s.sys.chip.mayPost c ag = true := by
    cases ag with
    | newt m => exact h m rfl
    | _ => rfl
  rw [exec_fgPost, execFgPost, liftS, if_pos hmay]

theorem exec_fgPost_none {s : State} {c : ClusterNo} {ag : Agent} (v : Word)
    (h : ¬ ∀ m, ag = .newt m → s.sys.chip.flag (fgPg c + 0x40) 0 = true) : exec (.fgPost c ag v) s = .next s := by
  have hmay : s.sys.chip.mayPost c ag = false := by
    cases ag with
    | newt m => simpa [Chip.mayPost] using h
    | _ => exact absurd (fun _ he => by cases he) h
  rw [exec_fgPost, execFgPost, liftS, hmay]
  rfl

theorem Chip.strike_cls (s : Chip) (pg : Nat) : (s.strike pg).2.cls = s.cls := (s.reports_strike pg).cls

/-- R80: arming the carry table leaves the queue, the cores and the registers. -/
theorem Chip.armTable_rest (s : Chip) (c n : Nat) (d : List Word) :
    ((s.armTable c n d).frog c).queue = (s.frog c).queue ∧ (∀ m, (s.armTable c n d).core c m = s.core c m) ∧
      (s.armTable c n d).regs = s.regs := by
  unfold Chip.armTable
  dsimp only
  split
  · exact ⟨rfl, fun _ => rfl, rfl⟩
  · split
    · exact ⟨by rw [Chip.frog_setFrog], fun m => Chip.core_setFrog .., rfl⟩
    · split
      · exact ⟨rfl, fun _ => rfl, rfl⟩
      · exact ⟨by rw [Chip.frog_setFrog], fun m => Chip.core_setFrog .., rfl⟩

theorem Sys.frogEnqueue_bad {y : Sys} {c a : Nat} (hf : y.chip.isFenced (.frog c) = false)
    (h : a % 64 ≠ 0 ∨ 32 ≤ (y.chip.frog c).taken) :
    y.frogEnqueue c a = onChip (fun s => s.notice (fgPg c) 0) y := by
  unfold Sys.frogEnqueue
  simp only [hf, Bool.false_eq_true, if_false, if_pos h]

/-- R59: a post queues the words at its offset, under the frog's next serial number. -/
theorem Sys.frogEnqueue_good {y : Sys} {c a : Nat} (hf : y.chip.isFenced (.frog c) = false) (ha : a % 64 = 0)
    (hroom : (y.chip.frog c).taken < 32) (hmark : y.mem.storeMark = []) :
    (y.frogEnqueue c a).mem = y.mem ∧
    ((y.frogEnqueue c a).chip.frog c).queue = (y.chip.frog c).queue ++
      [((y.chip.frog c).serial, wordsOf (KMap.bytes y.mem.store (stKey c a) 64))] ∧
    (∀ m, (y.frogEnqueue c a).chip.core c m = y.chip.core c m) ∧ (y.frogEnqueue c a).chip.regs = y.chip.regs := by
  have hok : ¬ (a % 64 ≠ 0 ∨ 32 ≤ (y.chip.frog c).taken) := by omega
  have hrep := y.chip.reports_strike (fgPg c)
  have hregs := y.chip.strike_regs (fgPg c)
  unfold Sys.frogEnqueue
  simp only [hf, Bool.false_eq_true, if_false, if_neg hok, Sys.stRead_clean _ _ _ _ hmark, List.isEmpty_nil,
    Bool.true_eq_false, onChip_chip, onChip_mem, true_and]
  generalize y.chip.strike (fgPg c) = t at hrep hregs
  have harm := Chip.armTable_rest
  refine ⟨?_, fun m => ?_, ?_⟩
  · rw [(harm ..).1, Chip.frog_setFrog, hrep.frog]
  · rw [(harm ..).2.1, Chip.core_setFrog, hrep.core]
  · rw [(harm ..).2.2]
    exact hregs

/-! ## Posts between frogs (R79, R80) -/

/-- A post has arrived: it is on its way no more. -/
def Chip.tookPost (s : Chip) (p : Post) : Chip := { s with posts := s.posts.erase p }

theorem Chip.tookPost_rest (s : Chip) (p : Post) (c : Nat) :
    (s.tookPost p).postForeign c p = s.postForeign c p ∧ (s.tookPost p).isFenced (.frog c) = s.isFenced (.frog c) ∧
      (s.tookPost p).frog c = s.frog c :=
  ⟨rfl, rfl, rfl⟩

/-- R80: the frog whose carry table holds the total of a post. -/
def Frog.withTotal (f : Frog) (p : Post) : Frog :=
  { f with
    table := KMap.put f.table none p.chunk
      (some ⟨(p.vals.headD (0, false)).1, (p.vals.headD (0, false)).2, p.src⟩) }

@[simp] theorem Frog.table_withTotal (f : Frog) (p : Post) : KMap.at (f.withTotal p).table none p.chunk =
    some ⟨(p.vals.headD (0, false)).1, (p.vals.headD (0, false)).2, p.src⟩ := by
  unfold Frog.withTotal
  dsimp only
  rw [at_put_self]

theorem exec_carryPost (c : ClusterNo) (i : Nat) (s : State) : exec (.carryPost c i) s = execCarryPost c i s := (rfl)

/-- R77: the head's posts leave its carry table as it is. -/
theorem Chip.tryGather_table (s : Chip) (c : Nat) : ((s.tryGather c).frog c).table = (s.frog c).table := by
  have hposts : ∀ (w : ScanWait) (ts : List (Option Total)) (k : Nat) (h : Int × Bool) (t : Chip),
      (ts.foldl (fun (k, h, s) t => match t with
        | some t => (k + 1, satAdd h (t.val, t.sat),
            Chip.postVals s .carry c (if k = sChunk w.desc then c else t.src) w.desc k [h])
        | none => (k + 1, h, s)) (k, h, t)).2.2.frog c = t.frog c := by
    intro w ts
    induction ts with
    | nil => exact fun _ _ _ => rfl
    | cons x ts ih =>
      intro k h t
      cases x with
      | none => exact ih _ _ _
      | some x => exact (ih _ _ _).trans rfl
  unfold Chip.tryGather
  dsimp only
  split
  · split
    · rfl
    · exact (congrArg Frog.table (hposts _ _ 0 _ _)).trans (by rw [Chip.frog_setFrog])
  · rfl

section
variable {s : State} {c : ClusterNo} {i : Nat} {p : Post}

theorem exec_carryPost_total {n : Nat} (hfrozen : s.sys.chip.stFrozen c = false)
    (hpost : s.sys.chip.postAt c i (fun p => !isAbort p) = some p) (hctx : s.sys.chip.postForeign c p = false)
    (hfence : s.sys.chip.isFenced (.frog c) = false) (hkind : p.kind = .total)
    (harmed : (s.sys.chip.frog c).armed = some (n, p.scan))
    (hempty : KMap.at (s.sys.chip.frog c).table none p.chunk = none) :
    exec (.carryPost c i) s = .next { s with sys := onChip (fun t =>
      ((t.tookPost p).setFrog c ((t.frog c).withTotal p)).tryGather c) s.sys } := by
  obtain ⟨hctx', hfence', hfrog'⟩ := s.sys.chip.tookPost_rest p c
  rw [hctx] at hctx'
  rw [hfence] at hfence'
  unfold Chip.tookPost at hctx' hfence' hfrog'
  rw [exec_carryPost, execCarryPost, liftS]
  simp only [hfrozen, hpost, hctx', hfence', hkind, hfrog', harmed, hempty, Bool.false_eq_true, or_self, if_false,
    if_true, Option.isNone_none, and_self]
  rw [← harmed]
  rfl

theorem exec_carryPost_keep (hfrozen : s.sys.chip.stFrozen c = false)
    (hpost : s.sys.chip.postAt c i (fun p => !isAbort p) = some p) (hctx : s.sys.chip.postForeign c p = false)
    (hfence : s.sys.chip.isFenced (.frog c) = false) (hkind : p.kind ≠ .total)
    (hbuf : (s.sys.chip.frog c).buf = none) (hwait : (s.sys.chip.frog c).wait = none) :
    exec (.carryPost c i) s = .next { s with sys := onChip (fun t =>
      (t.tookPost p).setFrog c { t.frog c with buf := some p }) s.sys } := by
  obtain ⟨hctx', hfence', hfrog'⟩ := s.sys.chip.tookPost_rest p c
  rw [hctx] at hctx'
  rw [hfence] at hfence'
  unfold Chip.tookPost at hctx' hfence' hfrog'
  rw [exec_carryPost, execCarryPost, liftS]
  simp only [hfrozen, hpost, hctx', hfence', hkind, hfrog', hbuf, hwait, Bool.false_eq_true, or_self, if_false,
    Option.isSome_none]
  rw [← hwait]
  rfl

theorem exec_abortPost_end {st : Status} {w : ScanWait} (hfrozen : s.sys.chip.stFrozen c = false)
    (hpost : s.sys.chip.postAt c i isAbort = some p) (hkind : p.kind = .abort st)
    (hwait : (s.sys.chip.frog c).wait = some w) (hctx : s.sys.chip.postForeign c p = false)
    (hscan : p.scan = sId w.desc) (hmulti : scanChunks w.desc ≠ 1) :
    exec (.abortPost c i) s = .next { s with sys :=
      ((onChip (fun t => t.tookPost p) s.sys).spoilLanes c w.desc).endWait c w st } := by
  obtain ⟨hctx', _, hfrog'⟩ := s.sys.chip.tookPost_rest p c
  rw [hctx] at hctx'
  unfold Chip.tookPost at hctx' hfrog'
  have hexec : exec (.abortPost c i) s = execAbortPost c i s := (rfl)
  rw [hexec, execAbortPost, liftS]
  simp only [hfrozen, hpost, hctx', hkind, hfrog', hwait, hscan, hmulti, Bool.false_eq_true, ne_eq, not_true, or_self,
    if_false]
  rfl

theorem exec_carryTmo_end {w : ScanWait} (hfrozen : s.sys.chip.stFrozen c = false)
    (hwait : (s.sys.chip.frog c).wait = some w)
    (hlate : w.since + max (s.sys.chip.reg (fgPg c + 0x5C)).toNat 1000 < s.sys.chip.ref) :
    exec (.carryTmo c) s = .next { s with sys :=
      (onChip (fun s => s.notice (fgPg c) 2) s.sys).endWait c w .fenced } := by
  have hexec : exec (.carryTmo c) s = execCarryTmo c s := (rfl)
  rw [hexec, execCarryTmo, liftS]
  simp only [hwait, hfrozen, Bool.false_eq_true, if_false, if_pos hlate]

end

/-- Settles O23: a post, a carry, an abort and the time limit by what each leaves of the frog. -/
theorem frogQueue : Obligations.FrogQueue := by
  unfold Obligations.FrogQueue
  refine ⟨fun s c ag v => ⟨fun hmay hf ha hroom hmark => ⟨_, exec_fgPost_eq v hmay, ?_⟩,
    fun hmay hf hbad => ⟨_, exec_fgPost_eq v hmay, ?_⟩, fun hmay => exec_fgPost_none v hmay⟩, ?_⟩
  · exact Sys.frogEnqueue_good hf ha hroom hmark
  · rw [Sys.frogEnqueue_bad hf hbad]
    refine ⟨rfl, (Chip.reports_notice ..).cls, Chip.notice_flag _ _ (by decide) (.inl ?_)⟩
    have := c.isLt
    unfold errStat fgPg clPg
    omega
  · intro s c y f hfrozen
    refine ⟨fun i p hpost hctx hfence => ⟨fun n hkind harmed hempty =>
      ⟨_, exec_carryPost_total hfrozen hpost hctx hfence hkind harmed hempty, rfl, ?_⟩,
      fun hkind hbuf hwait => ⟨_, exec_carryPost_keep hfrozen hpost hctx hfence hkind hbuf hwait, rfl, ?_, rfl, rfl⟩⟩,
      fun i p st w hpost hkind hwait hctx hscan hmulti hcalm ho =>
        ⟨_, exec_abortPost_end hfrozen hpost hkind hwait hctx hscan hmulti, ?_⟩,
      fun w hwait hlate hcalm ho => ⟨_, exec_carryTmo_end hfrozen hwait hlate, ?_⟩⟩
    · rw [onChip_chip, Chip.tryGather_table, Chip.frog_setFrog, Frog.table_withTotal]
    · rw [onChip_chip, Chip.frog_setFrog]
    · have hcalm' : (onChip (fun t => t.tookPost p) s.sys).Calm c :=
        hcalm.chip _ rfl fun _ => rfl
      obtain ⟨hspoilt, hfrog⟩ := Sys.spoilLanes_calm hcalm' w.desc
      have hend := Sys.endWait_calm hspoilt w st ho
      rw [hfrog] at hend
      exact hend
    · have hrep := s.sys.chip.reports_notice (fgPg c) 2
      have hcalm' : (onChip (fun s => s.notice (fgPg c) 2) s.sys).Calm c :=
        hcalm.chip _ (congrArg Errs.armed (Chip.notice_errs ..)) fun m => by rw [hrep.core]
      have hend := Sys.endWait_calm hcalm' w .fenced ho
      rw [onChip_chip, hrep.frog] at hend
      exact hend

end Sys2Proof.Machine

/-! PROOF of O24 and O25 (R58 to R67): the start of a descriptor, its trap, and its completion. -/

namespace Sys2Proof.Machine

-- One after the other: side by side the proofs ask for more memory than the check grants.
set_option Elab.async false

open Laws

/-! ## O24: traps -/

theorem exec_load (c : ClusterNo) (s : State) : exec (.load c) s = execLoad c s := (rfl)

theorem Chip.frogTrap_regs (s : Chip) (c code tag : Nat) (q : Option (Nat × List Word)) {a : Nat}
    (h : a ≠ fgPg c + 0x4C) : (s.frogTrap c code tag q).reg a = s.reg a := by
  unfold Chip.frogTrap
  rw [Chip.reg_setReg_ne _ _ (Ne.symm h), Chip.reg_setFrog]

/-- R60, R66: TILE, LOAD and SCAN trap with the code of the first check that fails. -/
theorem exec_frogTrap {s : State} {c : ClusterNo} {n code opc : Nat} {d : List Word} {rest : List (Nat × List Word)}
    {i : Instr} (hi : (i, opc) ∈ [(.tile c, 1), (.load c, 3), (.scan c, 2)]) (hopc : dw d 0 3 0 = opc)
    (hq : (s.sys.chip.frog c).queue = (n, d) :: rest) (hready : s.sys.chip.frogReady c = true)
    (hstruck : (s.sys.chip.frog c).struck = none)
    (hcode : Chip.frogCheck s.sys.mem (s.sys.chip.setFrog c { s.sys.chip.frog c with queue := rest }) c n d = some code) :
    exec i s = .next { s with sys := onChip (fun x =>
      (x.setFrog c { x.frog c with queue := rest }).frogTrap c code (dw d 1 15 0) (some (n, d))) s.sys } := by
  simp only [List.mem_cons, Prod.mk.injEq, List.not_mem_nil, or_false] at hi
  obtain ⟨rfl, rfl⟩ | ⟨rfl, rfl⟩ | ⟨rfl, rfl⟩ := hi
  · rw [exec_tile, execTile, liftS, Sys.frogStart_trap _ hq hready (by simp [hopc]) hstruck hcode]
  · rw [exec_load, execLoad, liftS, Sys.frogStart_trap _ hq hready (by simp [hopc]) hstruck hcode]
  · rw [exec_scan, execScan, liftS, Sys.frogStart_trap _ hq hready (by simp [hopc]) hstruck hcode]

/-- R67: a trapped frog after RESUME: its carry table may have been released before. -/
theorem exec_fgTrapActResume_eq {s : State} {c : ClusterNo} (h : (s.sys.chip.frog c).trapped = true) :
    ∃ mine : Bool, exec (.fgTrapActResume c) s = .next { s with sys := onChip (fun s =>
        let t := if mine then s.releaseTable c .fenced else s
        (t.setFrog c { t.frog c with trapped := false, trapDesc := none }).setReg (fgPg c + 0x4C) 0) s.sys } := by
  have hexec : exec (.fgTrapActResume c) s = execFgTrapActResume c s := (rfl)
  rw [hexec, execFgTrapActResume, liftC]
  simp only [h, Bool.true_eq_false, if_false]
  exact ⟨_, rfl⟩

theorem exec_fgTrapActFlush_eq {s : State} {c : ClusterNo} (h : (s.sys.chip.frog c).trapped = true) :
    ∃ mine : Bool, exec (.fgTrapActFlush c) s = .next { s with sys := onChip (fun s =>
        let t := if mine then s.releaseTable c .fenced else s
        ((t.setFrog c { t.frog c with trapped := false, trapDesc := none, queue := [] }).setReg
          (fgPg c + 0x4C) 0).bumpBy (fgPg c + 0x6C) (s.frog c).taken) s.sys } := by
  have hexec : exec (.fgTrapActFlush c) s = execFgTrapActFlush c s := (rfl)
  rw [hexec, execFgTrapActFlush, liftC]
  simp only [h, Bool.true_eq_false, if_false]
  exact ⟨_, rfl⟩

theorem Chip.released_rest (s : Chip) (c : Nat) (mine : Bool) :
    ((if mine then s.releaseTable c .fenced else s).frog c).queue = (s.frog c).queue ∧
      ∀ a, (if mine then s.releaseTable c .fenced else s).reg a = s.reg a := by
  cases mine
  · exact ⟨rfl, fun _ => rfl⟩
  · have h := s.leavesScan_releaseTable c .fenced
    rw [if_pos rfl]
    exact ⟨h.queue, fun a => by unfold Chip.reg; rw [h.regs]⟩

/-- Settles O24: a start whose check fails is the trap of its code, and RESUME and FLUSH end it. -/
theorem frogTraps : Obligations.FrogTraps := by
  unfold Obligations.FrogTraps
  refine ⟨?_, ?_⟩
  · intro s c n d rest code i opc hi hopc hq hready hstruck hcode
    refine ⟨_, exec_frogTrap hi hopc hq hready hstruck hcode, onChip_mem .., ?_⟩
    rw [onChip_chip, Chip.frog_frogTrap, Chip.frog_setFrog, Chip.reg_frogTrap]
    exact ⟨rfl, rfl, rfl, rfl, fun a ha => by rw [Chip.frogTrap_regs _ _ _ _ _ ha, Chip.reg_setFrog]⟩
  · intro s c f
    refine ⟨fun ht => ⟨?_, ?_⟩, fun ht => ⟨?_, ?_⟩⟩
    · obtain ⟨mine, hexec⟩ := exec_fgTrapActResume_eq ht
      obtain ⟨hq, hreg⟩ := s.sys.chip.released_rest c mine
      refine ⟨_, hexec, onChip_mem .., ?_⟩
      rw [onChip_chip]
      dsimp only
      rw [Chip.frog_setReg, Chip.frog_setFrog, Chip.reg_setReg]
      refine ⟨rfl, rfl, hq, rfl, fun a ha => ?_⟩
      rw [Chip.reg_setReg_ne _ _ (Ne.symm ha), Chip.reg_setFrog, hreg]
    · obtain ⟨mine, hexec⟩ := exec_fgTrapActFlush_eq ht
      obtain ⟨-, hreg⟩ := s.sys.chip.released_rest c mine
      refine ⟨_, hexec, onChip_mem .., ?_⟩
      rw [onChip_chip]
      dsimp only
      rw [Chip.frog_bumpBy, Chip.frog_setReg, Chip.frog_setFrog, Chip.reg_bumpBy,
        Chip.reg_bumpBy_ne _ _ (by omega), Chip.reg_setReg, Chip.reg_setReg_ne _ _ (by omega), Chip.reg_setFrog, hreg]
      exact ⟨rfl, rfl, rfl, rfl⟩
    · have hexec : exec (.fgTrapActResume c) s = execFgTrapActResume c s := (rfl)
      rw [hexec, execFgTrapActResume, liftC, if_pos ht]
    · have hexec : exec (.fgTrapActFlush c) s = execFgTrapActFlush c s := (rfl)
      rw [hexec, execFgTrapActFlush, liftC, if_pos ht]

end Sys2Proof.Machine

/-! PROOF of O25 (R58, R60, R62): TILE, LOAD and SCAN that pass their checks, in a calm store. -/

namespace Sys2Proof.Machine

-- One after the other: side by side the proofs ask for more memory than the check grants.
set_option Elab.async false

open Laws

/-! ## Reads and writes of a calm store -/

theorem Sys.readRuns_calm {y : Sys} (h : y.mem.storeMark = []) (c base stride len n : Nat) :
    y.readRuns c base stride len n =
      ((List.range n).map fun i => KMap.bytes y.mem.store (stKey c (base + i * stride)) len, false, y) := by
  induction n generalizing base with
  | zero => rfl
  | succ n ih =>
    rw [Sys.readRuns, Sys.stRead_clean _ _ _ _ h]
    dsimp only
    rw [ih]
    simp only [List.range_succ_eq_map, List.map_cons, List.map_map, Nat.zero_mul, Nat.add_zero, List.isEmpty_nil,
      Bool.not_true, Bool.or_false]
    congr 2
    refine List.map_congr_left fun i _ => ?_
    simp only [Function.comp_apply, Nat.succ_eq_add_one, Nat.add_mul, Nat.one_mul]
    congr 2
    omega

theorem Sys.readPlane_calm {y : Sys} (h : y.mem.storeMark = []) (c f p stride k n : Nat) :
    ∃ pl, y.readPlane c f p stride k n = (pl, false, y) := by
  unfold Sys.readPlane
  split
  · rw [Sys.readRuns_calm h]
    exact ⟨_, rfl⟩
  · split
    · rw [Sys.stRead_clean _ _ _ _ h]
      exact ⟨_, rfl⟩
    · exact ⟨_, rfl⟩

theorem Mem.stBad_clean {m : Mem} (h : m.storeMark = []) (c off n : Nat) : m.stBad c off n = false := by
  simp [Mem.stBad, Mem.stMarks, h]

theorem Mem.stStuck_clean {m : Mem} (h : m.storeMark = []) (c off n : Nat) : m.stStuck c off n = false := by
  simp [Mem.stStuck, Mem.stBad_clean h]

theorem Sys.runsStuck_calm {y : Sys} {c : Nat} (h : y.Calm c) (base stride len n : Nat) :
    y.runsStuck c base stride len n = false := by
  simp [Sys.runsStuck, Sys.invLines_calm h, Mem.stStuck_clean h.marks]

theorem Sys.writeRuns_calm {y : Sys} {c : Nat} (h : y.Calm c) (base stride : Nat) (l : List (List Byte)) :
    ∃ m, y.writeRuns c base stride l = y.withStore m :=
  Sys.foldl_calm (fun _ _ _ hz => Sys.stWrite_calm hz _ _) l base h

theorem Sys.drain_calm {y : Sys} {c : Nat} (h : y.Calm c) (d : List Word) (rows rq : List (List (Int × Bool))) :
    ∃ m, y.drain c d rows rq = y.withStore m := by
  unfold Sys.drain
  split
  · obtain ⟨m, hm⟩ := Sys.writeRuns_calm h (ptr d 9) (ptr d 10)
      (rows.map fun r => r.flatMap fun a => leBytes 8 (unsigned 64 a.1))
    obtain ⟨m', hm'⟩ := Sys.writeRuns_calm (h.withStore m) (ptr d 11) 32 (rows.map satRow)
    exact ⟨m', by rw [hm, hm', Sys.withStore_withStore]⟩
  · exact Sys.writeRuns_calm h ..
  · exact ⟨y.mem.store, rfl⟩

theorem Sys.Calm.setFrog {y : Sys} {c : Nat} (h : y.Calm c) (f : Frog) :
    (onChip (fun s => s.setFrog c f) y).Calm c :=
  h.chip _ rfl fun m => by rw [Chip.core_setFrog]

/-! ## Completion (R62) -/

/-- R62: a descriptor has ended: frog c is f, its completion word is w, and FG_COUNT has advanced. -/
structure Sys.completed (y z : Sys) (c : Nat) (d : List Word) (f : Frog) (w : List Byte) : Prop where
  frog : z.chip.frog c = f
  word : KMap.bytes z.mem.store (stKey c (ptr d 12)) 16 = w
  count : z.chip.reg (fgPg c + 0x68) = BitVec.ofNat 32 ((y.chip.reg (fgPg c + 0x68)).toNat + 1)

theorem Chip.reg_frogDone (s : Chip) (c : Nat) (d : List Word) :
    (s.frogDone c d).reg (fgPg c + 0x68) = BitVec.ofNat 32 ((s.reg (fgPg c + 0x68)).toNat + 1) := by
  have hcount : (s.wrapBy (fgPg c + 0x68) 1).reg (fgPg c + 0x68) =
      BitVec.ofNat 32 ((s.reg (fgPg c + 0x68)).toNat + 1) := Chip.reg_setReg ..
  unfold Chip.frogDone
  split
  · rw [Chip.reg_setFlag_ne _ _ _ (by unfold nwPg fgPg; omega), hcount]
  · exact hcount

theorem Sys.frogPost_completed {y : Sys} {c : Nat} (h : y.Calm c) {d : List Word} (ho : ptr d 12 % 4 = 0) {w : List Byte}
    (hw : w.length = 16) : y.completed (y.frogPost c d w) c d (y.chip.frog c) w where
  frog := by rw [Sys.frogPost_chip h ho hw, Chip.frog_frogDone]
  word := Sys.frogPost_bytes h ho hw
  count := by rw [Sys.frogPost_chip h ho hw, Chip.reg_frogDone]

/-- The trap of code 0x40 leaves the completion. -/
theorem Sys.completed.trap {y z : Sys} {c : Nat} {d : List Word} {f : Frog} {w : List Byte}
    (h : y.completed z c d f w) (code tag : Nat) (q : Option (Nat × List Word)) :
    y.completed (onChip (fun s => s.frogTrap c code tag q) z) c d { f with trapped := true, trapDesc := q } w where
  frog := by rw [onChip_chip, Chip.frog_frogTrap, h.frog]
  word := by rw [onChip_mem, h.word]
  count := by rw [onChip_chip, Chip.frogTrap_regs _ _ _ _ _ (by omega), h.count]

/-! ## The checks that have passed -/

theorem Chip.check_passed {m : Mem} {s : Chip} {c n : Nat} {d : List Word} (h : Chip.frogCheck m s c n d = none)
    {l : List (Nat × Bool)} (hl : (match dw d 0 3 0 with
      | 1 => s.tileChecks c d
      | 2 => s.scanChecks c n d
      | 3 => Chip.loadChecks m s c d
      | _ => [(0x01, true)]) = l) {e : Nat × Bool} (he : e ∈ l) : e.2 = false := by
  have hnone : (l.find? (·.2)).map (·.1) = none := by
    rw [← hl, ← h]
    unfold Chip.frogCheck
    rfl
  rw [Option.map_eq_none_iff, List.find?_eq_none] at hnone
  simpa using hnone e he

/-- R56, R66: a descriptor that passes its checks has its completion word at a multiple of 16. -/
theorem Chip.check_cmplPtr {m : Mem} {s : Chip} {c n : Nat} {d : List Word} (h : Chip.frogCheck m s c n d = none)
    (hopc : dw d 0 3 0 = 1 ∨ dw d 0 3 0 = 2 ∨ dw d 0 3 0 = 3) : ptr d 12 % 16 = 0 := by
  rcases hopc with ho | ho | ho
  · have halign : tileAlign d = false :=
      Chip.check_passed h (e := (0x0B, tileAlign d)) (by rw [ho]) (by simp [Chip.tileChecks])
    simp only [tileAlign, Bool.or_eq_false_iff, bne_eq_false_iff_eq] at halign
    exact halign.2
  · have halign : (([3, 4, 5, 6, 7, 8, 9, 10].any fun i => ptr d i % 8 != 0) || ptr d 12 % 16 != 0) = false :=
      Chip.check_passed h (e := (0x0B, _)) (by rw [ho]; rfl) (.tail _ (.tail _ (.tail _ (.head _))))
    simp only [Bool.or_eq_false_iff, bne_eq_false_iff_eq] at halign
    exact halign.2
  · have halign : loadAlign d = false :=
      Chip.check_passed h (e := (0x0B, loadAlign d)) (by rw [ho]) (by simp [Chip.loadChecks])
    simp only [loadAlign, Bool.or_eq_false_iff, bne_eq_false_iff_eq] at halign
    exact halign.2

/-! ## Slots -/

theorem Frog.slot_setSlot (f : Frog) (i : Nat) (x : FSlot) : (f.setSlot i x).slot i = x := by
  unfold Frog.setSlot Frog.slot
  dsimp only
  by_cases hw : wideCls x.cls = true
  · simp [hw]
  · by_cases hi : i = 0 <;> simp [hw, hi]

theorem Frog.queue_setSlot (f : Frog) (i : Nat) (x : FSlot) : (f.setSlot i x).queue = f.queue := by
  unfold Frog.setSlot
  dsimp only
  split
  · rfl
  · split <;> rfl

/-- R60: the frog after a TILE or LOAD: its queue stands, and the slot is x. -/
structure Frog.tiled (f f' : Frog) (d : List Word) (x : FSlot) : Prop where
  queue : f'.queue = f.queue
  slot : f'.slot (tSlot d) = x

theorem Frog.tiled_putTile (f : Frog) (d : List Word) (x : FSlot) (wide : Bool) (rows : List (List (Int × Bool))) :
    f.tiled ((f.setSlot (tSlot d) x).putTile (tSlot d) wide rows) d x :=
  ⟨(f.queue_setSlot (tSlot d) x), f.slot_setSlot (tSlot d) x⟩

theorem Frog.tiled.trap {f f' : Frog} {d : List Word} {x : FSlot} (h : f.tiled f' d x) (q : Option (Nat × List Word)) :
    f.tiled { f' with trapped := true, trapDesc := q } d x := ⟨h.queue, h.slot⟩

/-- K that a tile's slot holds before the descriptor. -/
def Frog.oldK (f : Frog) (d : List Word) : Nat := if tAcc d then (f.slot (tSlot d)).kcount else 0

/-! ## TILE (R60) -/

/-- R57, R60, R62: the drain and the completion word of a descriptor that leaves the frog f. -/
theorem Sys.drained_completed {y : Sys} {c : Nat} (h : y.Calm c) {d : List Word} (ho : ptr d 12 % 4 = 0) (f : Frog)
    (rows rq : List (List (Int × Bool))) {w : List Byte} (hw : w.length = 16) :
    y.completed (((onChip (fun s => s.setFrog c f) y).drain c d rows rq).frogPost c d w) c d f w := by
  obtain ⟨m, hm⟩ := Sys.drain_calm (h.setFrog f) d rows rq
  have hdone := Sys.frogPost_completed ((h.setFrog f).withStore m) ho hw
  rw [hm]
  refine ⟨hdone.frog.trans ?_, hdone.word, hdone.count⟩
  rw [Sys.withStore_chip, onChip_chip, Chip.frog_setFrog]

/-- R60: from y to z, the TILE d has ended: its slot is valid, with rows, columns and K, and its completion
word says OK. -/
def Sys.tileEnds (y z : Sys) (c : Nat) (d : List Word) : Prop :=
  ∃ f x ex bc bs lo hi k, (y.chip.frog c).tiled f d x ∧ x.valid = true ∧ x.rows = tRows d ∧ x.cols = tCols d ∧
    x.kcount = (y.chip.frog c).oldK d + tK d ∧
    y.completed z c d f (cmplBytes .ok ex bc bs 1 (dw d 1 15 0) lo hi k ((y.chip.frog c).oldK d + tK d))

/-- The end of a TILE that leaves x in its slot, with and without the trap of code 0x40. -/
theorem Sys.tileEnds_post {y : Sys} {c : Nat} (h : y.Calm c) {d : List Word} (ho : ptr d 12 % 4 = 0) (x : FSlot)
    (hvalid : x.valid = true) (hrows : x.rows = tRows d) (hcols : x.cols = tCols d)
    (hk : x.kcount = (y.chip.frog c).oldK d + tK d) (wide bad ex bc bs : Bool) (acc rows rq : List (List (Int × Bool)))
    (lo hi : Int) (k code tag : Nat) :
    let z := ((onChip (fun s => s.setFrog c (((y.chip.frog c).setSlot (tSlot d) x).putTile (tSlot d) wide acc)) y).drain
      c d rows rq).frogPost c d (cmplBytes .ok ex bc bs 1 (dw d 1 15 0) lo hi k x.kcount)
    y.tileEnds (if bad = true then onChip (fun s => s.frogTrap c code tag none) z else z) c d := by
  have htiled := (y.chip.frog c).tiled_putTile d x wide acc
  have hdone := Sys.drained_completed h ho (((y.chip.frog c).setSlot (tSlot d) x).putTile (tSlot d) wide acc) rows rq
    (length_cmplBytes .ok ex bc bs 1 (dw d 1 15 0) lo hi k x.kcount)
  cases bad
  · exact ⟨_, x, ex, bc, bs, lo, hi, k, htiled, hvalid, hrows, hcols, hk, hk ▸ hdone⟩
  · exact ⟨_, x, ex, bc, bs, lo, hi, k, htiled.trap none, hvalid, hrows, hcols, hk, hk ▸ hdone.trap code tag none⟩

/-- R60: a TILE that has passed its checks, in a calm store. -/
theorem Sys.tileMain_calm {y : Sys} {c : Nat} (h : y.Calm c) {d : List Word} (ho : ptr d 12 % 4 = 0) (pa pb : Plane)
    (out : List ScaleRec) : y.tileEnds (y.tileMain c d pa pb out) c d := by
  unfold Sys.tileMain
  simp only [Sys.readRuns_calm h.marks, Sys.runsStuck_calm h, Bool.false_eq_true, or_self, and_false, if_false]
  exact Sys.tileEnds_post h ho _ rfl rfl rfl rfl ..

theorem Sys.tileRun_calm {y : Sys} {c : Nat} (h : y.Calm c) (d : List Word) :
    ∃ pa pb out, y.tileRun c d = y.tileMain c d pa pb out := by
  obtain ⟨pa, ha⟩ := Sys.readPlane_calm h.marks c (tFmtA d) (ptr d 7) (dw d 13 15 0) (tK d) (tRows d)
  obtain ⟨pb, hb⟩ := Sys.readPlane_calm h.marks c (tFmtB d) (ptr d 8) (dw d 13 31 16) (tK d) (tCols d)
  unfold Sys.tileRun
  rw [ha]
  dsimp only
  rw [hb]
  dsimp only
  by_cases hout : tOut d = 2
  · rw [if_pos hout, Sys.stRead_clean _ _ _ _ h.marks]
    exact ⟨pa, pb, _, if_neg (by simp)⟩
  · rw [if_neg hout]
    exact ⟨pa, pb, _, if_neg (by simp)⟩

/-! ## LOAD (R58) -/

/-- R58: the values of a TERN partial fit its accumulators. -/
def Sys.partialFits (y : Sys) (c : Nat) (d : List Word) : Prop :=
  tCls d = 0 → ∀ i < tRows d, ∀ v ∈ chunks 8 (tCols d)
    (KMap.bytes y.mem.store (stKey c (ptr d 3 + i * ptr d 4)) (8 * tCols d)),
    -2 ^ 31 + 1 ≤ signed 64 v ∧ signed 64 v ≤ 2 ^ 31 - 1

/-- R58: no value of the partial lies outside the accumulators. -/
theorem Sys.partialFits.near {y : Sys} {c : Nat} {d : List Word} (h : y.partialFits c d) (ss : List (List Byte)) :
    (tCls d == 0 && (List.zipWith (fun a sb =>
      (chunks 8 (tCols d) a).mapIdx fun j v => (signed 64 v, satBit sb j))
      ((List.range (tRows d)).map fun i => KMap.bytes y.mem.store (stKey c (ptr d 3 + i * ptr d 4)) (8 * tCols d)) ss).any
      fun r => r.any fun a => decide (a.1 < -2 ^ 31 + 1 ∨ 2 ^ 31 - 1 < a.1)) = false := by
  by_cases hcls : tCls d = 0
  · rw [Bool.and_eq_false_iff]
    right
    rw [List.any_eq_false]
    intro r hr
    rw [List.mem_iff_get] at hr
    obtain ⟨k, rfl⟩ := hr
    simp only [List.get_eq_getElem, List.getElem_zipWith, List.getElem_map, List.getElem_range, List.any_eq_true,
      decide_eq_true_eq, not_exists, not_and, List.mem_mapIdx]
    rintro a ⟨j, hj, rfl⟩
    have hk : k.1 < tRows d := by
      have := k.2
      simp at this
      omega
    have := h hcls k.1 hk _ (List.getElem_mem hj)
    dsimp only
    omega
  · simp [hcls]

/-- R58: from y to z, the LOAD d has ended: its slot is valid and holds kc steps, and its completion word says
OK. -/
def Sys.loadEnds (y z : Sys) (c : Nat) (d : List Word) (kc : Nat) : Prop :=
  ∃ f x ex lo hi k, (y.chip.frog c).tiled f d x ∧ x.valid = true ∧ x.kcount = kc ∧
    y.completed z c d f (cmplBytes .ok ex false false 3 (dw d 1 15 0) lo hi k kc)

theorem Sys.loadEnds_post {y : Sys} {c : Nat} (h : y.Calm c) {d : List Word} (ho : ptr d 12 % 4 = 0) (x : FSlot)
    {kc : Nat} (hvalid : x.valid = true) (hk : x.kcount = kc) (wide ex : Bool) (acc : List (List (Int × Bool)))
    (lo hi : Int) (k : Nat) :
    y.loadEnds ((onChip (fun s => s.setFrog c (((y.chip.frog c).setSlot (tSlot d) x).putTile (tSlot d) wide acc)) y).frogPost
      c d (cmplBytes .ok ex false false 3 (dw d 1 15 0) lo hi k x.kcount)) c d kc := by
  have hdone := Sys.frogPost_completed (h.setFrog (((y.chip.frog c).setSlot (tSlot d) x).putTile (tSlot d) wide acc)) ho
    (length_cmplBytes .ok ex false false 3 (dw d 1 15 0) lo hi k x.kcount)
  have hfrog := hdone.frog
  rw [onChip_chip, Chip.frog_setFrog] at hfrog
  exact ⟨_, x, ex, lo, hi, k, (y.chip.frog c).tiled_putTile d x wide acc, hvalid, hk,
    hk ▸ ⟨hfrog, hdone.word, hdone.count⟩⟩

theorem Sys.loadMain_calm {y : Sys} {c : Nat} (h : y.Calm c) {d : List Word} (ho : ptr d 12 % 4 = 0) (hd : Nat)
    (hfit : y.partialFits c d) : y.loadEnds (y.loadMain c d hd) c d ((y.chip.frog c).oldK d + hd / 2 ^ 96) := by
  unfold Sys.loadMain
  simp only [Sys.readRuns_calm h.marks, hfit.near, Bool.false_eq_true, or_self, if_false]
  exact Sys.loadEnds_post h ho _ rfl rfl ..

/-! ## SCAN (R71 to R75) -/

theorem Sys.readLanes_calm {y : Sys} (h : y.mem.storeMark = []) (c : Nat) (d : List Word) (base stride w : Nat) :
    ∃ ls, y.readLanes c d base stride w = (ls, false, y) := by
  have hfold : ∀ (l : List Nat) (acc : List (List Int)), ∃ ls,
      l.foldl (fun (ls, bad, y) l =>
        let (a, n) := laneAt d base stride w l
        let (bs, b, y) := Sys.stRead y c a (n * w)
        (ls ++ [(chunks w n bs).map (signed (8 * w))], bad || !b.isEmpty, y)) (acc, false, y) = (ls, false, y) := by
    intro l
    induction l with
    | nil => exact fun acc => ⟨acc, rfl⟩
    | cons i l ih =>
      intro acc
      rw [List.foldl_cons]
      dsimp only
      rw [Sys.stRead_clean _ _ _ _ h]
      exact ih _
  exact hfold _ []

theorem Sys.readH0_calm {y : Sys} (h : y.mem.storeMark = []) (c : Nat) (d : List Word) :
    ∃ ls, y.readH0 c d = (ls, false, y) := by
  unfold Sys.readH0
  rw [Sys.stRead_clean _ _ _ _ h]
  exact ⟨_, rfl⟩

theorem Sys.lanesStuck_calm {y : Sys} {c : Nat} (h : y.Calm c) (d : List Word) : y.lanesStuck c d = false := by
  simp [Sys.lanesStuck, Sys.runsStuck_calm h]

theorem Sys.scanOut_calm {y : Sys} {c : Nat} (h : y.Calm c) (n : Nat) (d : List Word) (go : Sys → Sys) :
    y.scanOut c n d go = go y := by
  unfold Sys.scanOut
  rw [Sys.lanesStuck_calm h]
  simp

/-- R62, R74: from y to z, the SCAN d has ended OK. -/
def Sys.scanEnds (y z : Sys) (c : Nat) (d : List Word) : Prop :=
  ∃ f ex k, f.queue = (y.chip.frog c).queue ∧ f.wait = none ∧
    y.completed z c d f (cmplBytes .ok ex false false 2 (dw d 1 15 0) 0 0 k (sN d))

/-- R80: the carry table of a scan that ends is released. -/
def Chip.scanLeft (s : Chip) (c n : Nat) : Chip :=
  match (s.frog c).armed with
  | some a => if a.1 = n then s.setFrog c { s.frog c with armed := none, table := [] } else s
  | none => s

theorem Chip.scanLeft_rest (s : Chip) (c n : Nat) :
    ((s.scanLeft c n).frog c).queue = (s.frog c).queue ∧ (∀ m, (s.scanLeft c n).core c m = s.core c m) ∧
      (s.scanLeft c n).errs = s.errs ∧ (s.scanLeft c n).regs = s.regs := by
  unfold Chip.scanLeft
  split
  · split
    · exact ⟨by rw [Chip.frog_setFrog], fun m => Chip.core_setFrog .., rfl, rfl⟩
    · exact ⟨rfl, fun _ => rfl, rfl, rfl⟩
  · exact ⟨rfl, fun _ => rfl, rfl, rfl⟩

/-- R80: the frog of a scan that ends waits for nothing. -/
def Chip.scanEnded (s : Chip) (c n : Nat) : Chip :=
  (s.scanLeft c n).setFrog c { (s.scanLeft c n).frog c with wait := none }

theorem Sys.scanDone_eq (y : Sys) (c n : Nat) (d : List Word) (finals : List Int) (exact : Bool) (count : Nat) :
    y.scanDone c n d finals exact count =
      let y := y.stWrite c (ptr d 10) (finals.flatMap fun v => leBytes 8 (unsigned 64 v))
      let (k, s) := if count < 65536 then (count, y.chip) else y.chip.fresh
      Sys.frogPost { y with chip := s.scanEnded c n } c d
        (cmplBytes .ok exact false false 2 (dw d 1 15 0) 0 0 k (sN d)) := (rfl)

theorem Chip.scanEnded_rest (s : Chip) (c n : Nat) :
    ((s.scanEnded c n).frog c).queue = (s.frog c).queue ∧ ((s.scanEnded c n).frog c).wait = none ∧
      (∀ m, (s.scanEnded c n).core c m = s.core c m) ∧ (s.scanEnded c n).errs = s.errs ∧
      ∀ a, (s.scanEnded c n).reg a = s.reg a := by
  obtain ⟨hq, hcore, herrs, hregs⟩ := s.scanLeft_rest c n
  unfold Chip.scanEnded
  rw [Chip.frog_setFrog]
  refine ⟨hq, rfl, fun m => (Chip.core_setFrog ..).trans (hcore m), herrs, fun a => ?_⟩
  rw [Chip.reg_setFrog]
  unfold Chip.reg
  rw [hregs]

/-- R62, R74: a scan ends OK in a calm store. -/
theorem Sys.scanDone_calm {y : Sys} {c : Nat} (h : y.Calm c) {d : List Word} (ho : ptr d 12 % 4 = 0) (n : Nat)
    (finals : List Int) (exact : Bool) (count : Nat) : y.scanEnds (y.scanDone c n d finals exact count) c d := by
  obtain ⟨m, hm⟩ := Sys.stWrite_calm h (ptr d 10) (finals.flatMap fun v => leBytes 8 (unsigned 64 v))
  have hpost : ∀ (k : Nat) (s : Chip), (s.frog c = y.chip.frog c ∧ (∀ m, s.core c m = y.chip.core c m) ∧
      s.errs = y.chip.errs ∧ ∀ a, s.reg a = y.chip.reg a) →
      y.scanEnds (Sys.frogPost { y.withStore m with chip := s.scanEnded c n } c d
        (cmplBytes .ok exact false false 2 (dw d 1 15 0) 0 0 k (sN d))) c d := by
    intro k s ⟨hfrog, hcore, herrs, hreg⟩
    obtain ⟨hq, hwait, hcore', herrs', hreg'⟩ := s.scanEnded_rest c n
    have hcalm := (h.withStore m).chip (s.scanEnded c n) (congrArg Errs.armed (herrs'.trans herrs)) fun m => by
      rw [hcore', hcore]
      rfl
    have hdone := Sys.frogPost_completed hcalm ho (length_cmplBytes .ok exact false false 2 (dw d 1 15 0) 0 0 k (sN d))
    exact ⟨_, exact, k, hq.trans (by rw [hfrog]), hwait,
      ⟨hdone.frog, hdone.word, hdone.count.trans (by rw [hreg', hreg])⟩⟩
  rw [Sys.scanDone_eq, hm]
  by_cases hc : count < 65536
  · simp only [hc, if_true]
    exact hpost count y.chip ⟨rfl, fun _ => rfl, rfl, fun _ => rfl⟩
  · simp only [hc, if_false]
    exact hpost _ y.chip.fresh.2 ⟨rfl, fun _ => rfl, rfl, fun _ => rfl⟩

theorem Sys.scanEnds.of_store {y z : Sys} {m : KMap Byte} {c : Nat} {d : List Word}
    (h : (y.withStore m).scanEnds z c d) : y.scanEnds z c d := by
  obtain ⟨f, ex, k, hq, hw, hdone⟩ := h
  exact ⟨f, ex, k, hq, hw, ⟨hdone.frog, hdone.word, hdone.count⟩⟩

/-- R73, R74: the outputs and the end of a scan in a calm store. -/
theorem Sys.scanWritten_calm {y : Sys} {c : Nat} (h : y.Calm c) {d : List Word} (ho : ptr d 12 % 4 = 0) (n : Nat)
    (ls : List (List Int)) (finals : List Int) (exact : Bool) (count : Nat) :
    y.scanEnds ((if sAll d then y.writeLanes c d ls else y).scanDone c n d finals exact count) c d := by
  split
  · obtain ⟨m, hm⟩ := Sys.writeLanes_calm h d ls
    rw [hm]
    exact (Sys.scanDone_calm (h.withStore m) ho ..).of_store
  · exact Sys.scanDone_calm h ho ..

theorem Sys.prefixEnd_calm {y : Sys} {c : Nat} (h : y.Calm c) {d : List Word} (ho : ptr d 12 % 4 = 0) (n : Nat)
    (starts : List (Int × Bool)) (els : List (List Int)) (finals : List (Int × Bool)) (carry : Bool) :
    y.scanEnds (y.prefixEnd c n d starts els finals carry) c d := by
  unfold Sys.prefixEnd
  dsimp only
  rw [Sys.scanOut_calm h]
  exact Sys.scanWritten_calm h ho ..

/-- R77: a SPLIT scan over one chunk. -/
theorem Sys.gatherRun_calm {y : Sys} {c : Nat} (h : y.Calm c) {d : List Word} (ho : ptr d 12 % 4 = 0) (n : Nat)
    (h1 : scanChunks d = 1) : y.scanEnds (y.gatherRun c n d) c d := by
  obtain ⟨bs, hbs⟩ := Sys.readLanes_calm h.marks c d (ptr d 3) (ptr d 4) (sWb d)
  obtain ⟨h0, hh0⟩ := Sys.readH0_calm h.marks c d
  have hreads : sReadsH0 c d = true := by simp [sReadsH0, h1]
  unfold Sys.gatherRun
  rw [hbs]
  dsimp only
  rw [if_pos hreads, hh0]
  dsimp only
  rw [if_neg (by simp), if_pos h1]
  exact Sys.prefixEnd_calm h ho ..

/-- R78: a MULTI scan over one chunk. -/
theorem Sys.relayRun_calm {y : Sys} {c : Nat} (h : y.Calm c) {d : List Word} (ho : ptr d 12 % 4 = 0) (n : Nat)
    (h1 : scanChunks d = 1) (starts : List (Int × Bool)) : y.scanEnds (y.relayRun c n d starts) c d := by
  obtain ⟨bs, hbs⟩ := Sys.readLanes_calm h.marks c d (ptr d 3) (ptr d 4) (sWb d)
  obtain ⟨as', has⟩ := Sys.readLanes_calm h.marks c d (ptr d 5) (ptr d 6) 2
  unfold Sys.relayRun
  rw [hbs]
  dsimp only
  by_cases hr : sRecur d = true
  · rw [if_pos hr, has]
    dsimp only
    rw [if_neg (by simp), if_pos hr, Sys.scanOut_calm h, if_pos (.inl h1)]
    exact Sys.scanWritten_calm h ho ..
  · rw [if_neg hr]
    dsimp only
    rw [if_neg (by simp), if_neg hr, if_pos (.inl h1)]
    exact Sys.prefixEnd_calm h ho ..

/-! ## O25 -/

/-- R60: the block once a descriptor has left the queue of frog c. -/
def Sys.dequeued (y : Sys) (c : Nat) (rest : List (Nat × List Word)) : Sys :=
  onChip (fun s => s.setFrog c { s.frog c with queue := rest }) y

/-- R60: a ready frog runs the descriptor at its queue head where its checks pass. -/
theorem Sys.frogStart_run {y : Sys} {c n : Nat} {d : List Word} {rest : List (Nat × List Word)} {ops : List Nat}
    (run : Nat → List Word → Sys → Sys) (hq : (y.chip.frog c).queue = (n, d) :: rest)
    (hready : y.chip.frogReady c = true) (hopc : dw d 0 3 0 ∈ ops) (hstruck : (y.chip.frog c).struck = none)
    (hcode : Chip.frogCheck y.mem (y.chip.setFrog c { y.chip.frog c with queue := rest }) c n d = none) :
    y.frogStart c ops run = run n d (y.dequeued c rest) := by
  unfold Sys.frogStart
  rw [hq]
  dsimp only
  rw [if_neg (by simp [hready, hopc]), hstruck]
  dsimp only [onChip] at hcode ⊢
  rw [if_neg (by decide), if_neg (by decide), hcode]
  rfl

theorem Sys.frog_dequeued (y : Sys) (c : Nat) (rest : List (Nat × List Word)) :
    (y.dequeued c rest).chip.frog c = { y.chip.frog c with queue := rest } := by
  rw [Sys.dequeued, onChip_chip, Chip.frog_setFrog]

theorem Sys.reg_dequeued (y : Sys) (c : Nat) (rest : List (Nat × List Word)) (a : Nat) :
    (y.dequeued c rest).chip.reg a = y.chip.reg a := by
  rw [Sys.dequeued, onChip_chip, Chip.reg_setFrog]

theorem Sys.oldK_dequeued (y : Sys) (c : Nat) (rest : List (Nat × List Word)) (d : List Word) :
    ((y.dequeued c rest).chip.frog c).oldK d = if tAcc d then ((y.chip.frog c).slot (tSlot d)).kcount else 0 := by
  rw [Sys.frog_dequeued]
  rfl

/-- Settles O25: each run ends in `Sys.completed` with the fields of its word. -/
theorem frogCompletes : Obligations.FrogCompletes := by
  unfold Obligations.FrogCompletes
  intro s c n d rest y f word hq hready hstruck hcalm hcode old
  have hcalm' : (s.sys.dequeued c rest).Calm c := hcalm.setFrog _
  have hmem : (s.sys.dequeued c rest).mem = s.sys.mem := rfl
  have ho : dw d 0 3 0 = 1 ∨ dw d 0 3 0 = 2 ∨ dw d 0 3 0 = 3 → ptr d 12 % 4 = 0 := fun h => by
    have := Chip.check_cmplPtr hcode h
    omega
  refine ⟨fun hopc => ?_, fun hopc hfit => ?_, fun hopc h1 => ?_⟩
  · have hexec : exec (.tile c) s = .next { s with sys := (s.sys.dequeued c rest).tileRun c d } := by
      rw [exec_tile, execTile, liftS, Sys.frogStart_run _ hq hready (by simp [hopc]) hstruck hcode]
    obtain ⟨pa, pb, out, hrun⟩ := Sys.tileRun_calm hcalm' d
    obtain ⟨g, x, ex, bc, bs, lo, hi, k, htiled, hvalid, hrows, hcols, hk, hdone⟩ :=
      Sys.tileMain_calm hcalm' (ho (.inl hopc)) pa pb out
    rw [Sys.oldK_dequeued] at hk hdone
    rw [hrun] at hexec
    refine ⟨_, hexec, ?_⟩
    rw [hdone.frog, htiled.slot, htiled.queue, Sys.frog_dequeued]
    exact ⟨rfl, hvalid, hrows, hcols, hk, ⟨ex, bc, bs, lo, hi, k, hdone.word⟩,
      hdone.count.trans (by rw [Sys.reg_dequeued])⟩
  · have hexec : exec (.load c) s = .next { s with
        sys := (s.sys.dequeued c rest).loadMain c d
          (leNat (KMap.bytes s.sys.mem.store (stKey c (ptr d 8)) 16)) } := by
      rw [exec_load, execLoad, liftS, Sys.frogStart_run _ hq hready (by simp [hopc]) hstruck hcode]
      rw [Sys.stRead_clean _ _ _ _ hcalm'.marks]
      rfl
    obtain ⟨g, x, ex, lo, hi, k, htiled, hvalid, hk, hdone⟩ := Sys.loadMain_calm hcalm' (ho (.inr (.inr hopc)))
      (leNat (KMap.bytes s.sys.mem.store (stKey c (ptr d 8)) 16)) hfit
    rw [Sys.oldK_dequeued] at hk hdone
    refine ⟨_, hexec, ?_⟩
    rw [hdone.frog, htiled.slot, htiled.queue, Sys.frog_dequeued]
    exact ⟨rfl, hvalid, hk, ⟨ex, false, false, lo, hi, k, hdone.word⟩, hdone.count.trans (by rw [Sys.reg_dequeued])⟩
  · have hends : ∃ z, exec (.scan c) s = .next { s with sys := z } ∧ (s.sys.dequeued c rest).scanEnds z c d := by
      rw [exec_scan, execScan, liftS, Sys.frogStart_run _ hq hready (by simp [hopc]) hstruck hcode]
      refine ⟨_, rfl, ?_⟩
      split
      · exact Sys.gatherRun_calm hcalm' (ho (.inr (.inl hopc))) n h1
      · obtain ⟨h0, hh0⟩ := Sys.readH0_calm hcalm'.marks c d
        rw [if_pos (.inl h1), hh0]
        exact Sys.relayRun_calm hcalm' (ho (.inr (.inl hopc))) n h1 _
    obtain ⟨z, hexec, g, ex, k, hqueue, hwait, hdone⟩ := hends
    refine ⟨z, hexec, ?_⟩
    rw [hdone.frog, hqueue, Sys.frog_dequeued]
    exact ⟨rfl, hwait, ⟨ex, false, false, 0, 0, k, hdone.word⟩, hdone.count.trans (by rw [Sys.reg_dequeued])⟩

end Sys2Proof.Machine

/-! PROOF of O26 (R135 to R137, R146): the context commands, and how a context ends. -/

namespace Sys2Proof.Machine

-- One after the other: side by side the proofs ask for more memory than the check grants.
set_option Elab.async false

open Laws

/-! ## The slots -/

@[simp] theorem Chip.ctxAt_setCtx (s : Chip) (x : Nat) (k : Ctx) : (s.setCtx x k).ctxAt x = k := at_put_self ..

theorem Chip.told_setCtx {s t : Chip} (h : s.Told t) (x : Nat) (k : Ctx) : (s.setCtx x k).Told (t.setCtx x k) := by
  refine ⟨?_, h.regs⟩
  unfold Chip.setCtx
  conv => lhs; rw [h.rest]

/-- R135: a context command whose slot is in a state it asks for. -/
theorem Chip.ctxCmd_ok {s : Chip} {q : CmdReq} (h : s.takesCmd q false) {slot : Nat} (hslot : slot < 32)
    {states : List Nat} (hst : (s.ctxAt (32 * s.sessPart q.session + slot)).state ∈ states)
    (f : Nat → Ctx → Chip → Chip) :
    s.ctxCmd q slot states f = f (32 * s.sessPart q.session + slot) (s.ctxAt (32 * s.sessPart q.session + slot))
      (s.leaveIngress q) := by
  have hctx : (s.leaveIngress q).ctxAt (32 * s.sessPart q.session + slot) =
      s.ctxAt (32 * s.sessPart q.session + slot) := rfl
  unfold Chip.ctxCmd
  rw [Chip.command_eq h]
  dsimp only
  rw [hctx, if_pos ⟨hslot, by simpa using hst⟩]

theorem Chip.ctxCmd_no {s : Chip} {q : CmdReq} (h : s.takesCmd q false) {slot : Nat} {states : List Nat}
    (hst : (s.ctxAt (32 * s.sessPart q.session + slot)).state ∉ states) (f : Nat → Ctx → Chip → Chip) :
    s.ctxCmd q slot states f = (s.leaveIngress q).cmdAnswer q .noAccess 0 := by
  have hctx : (s.leaveIngress q).ctxAt (32 * s.sessPart q.session + slot) =
      s.ctxAt (32 * s.sessPart q.session + slot) := rfl
  unfold Chip.ctxCmd
  rw [Chip.command_eq h]
  dsimp only
  rw [hctx, if_neg (fun h => hst (by simpa using h.2))]

/-- An answer that follows what only the guard of commands changed. -/
theorem answers_of_exec {i : Instr} {s : State} {q : CmdReq} {e : Chip} {st : Status} {r : Nat}
    (h : exec i s = .next { s with sys := { s.sys with chip := (e.leaveIngress q).cmdAnswer q st r } }) :
    Answers i s e q st r :=
  Answers.intro h ((e.told_leaveIngress q).trans (Chip.told_cmdAnswer ..)) (Chip.answeredIs_cmdAnswer ..)

theorem pends_of_exec {i : Instr} {s : State} {q : CmdReq} {e : Chip}
    (h : exec i s = .next { s with sys := { s.sys with chip := (e.leaveIngress q).cmdPending q } }) :
    Pends i s e q :=
  Pends.intro h ((e.told_leaveIngress q).trans (Chip.told_cmdPending ..)) (Chip.pendingIs_cmdPending ..)

/-! ## A kill (R146) -/

/-- R146: what a kill of a live context leaves, but for what it tells. -/
def Chip.killedCtx (s : Chip) (x : Nat) (w : KillWhy) : Chip :=
  (s.setCtx x { (s.ctxAt x).killed w s.now with killing := s.ctxClusters x, starting := none }).endReqs
    (fun r => (s.ctxClusters x).any fun c =>
      (s.setCtx x { (s.ctxAt x).killed w s.now with killing := s.ctxClusters x, starting := none }).needsCl c r)
    .contextKilled

theorem Chip.told_killCtx {s : Chip} {x : Nat} (w : KillWhy) (h : 1 ≤ (s.ctxAt x).state ∧ (s.ctxAt x).state ≤ 3) :
    (s.killedCtx x w).Told (s.killCtx x w) := by
  have hstart : (s.killedCtx x w).Told (match (s.ctxAt x).starting with
      | some q => (s.killedCtx x w).cmdAnswer q .contextKilled 0
      | none => s.killedCtx x w) := by
    split
    · exact Chip.told_cmdAnswer ..
    · exact .refl _
  unfold Chip.killCtx
  dsimp only
  rw [if_pos h]
  exact hstart.trans (Chip.sent_pageEventD ..).told

theorem Chip.ctxAt_killedCtx (s : Chip) (x : Nat) (w : KillWhy) :
    (s.killedCtx x w).ctxAt x = { (s.ctxAt x).killed w s.now with killing := s.ctxClusters x, starting := none } :=
  s.ctxAt_setCtx x _

/-- R146: the slot of a killed context. -/
theorem Chip.ctxAt_killCtx {s t : Chip} {x : Nat} (k : Nat) (h : 1 ≤ (s.ctxAt x).state ∧ (s.ctxAt x).state ≤ 3)
    (ht : (s.killCtx x (killOf k)).Told t) :
    (t.ctxAt x).state = 4 ∧ (t.ctxAt x).fltKind = k ∧ (t.ctxAt x).killing = s.ctxClusters x := by
  rw [ht.ctxAt, (Chip.told_killCtx (killOf k) h).ctxAt, Chip.ctxAt_killedCtx]
  exact ⟨rfl, rfl, rfl⟩

/-! ## Assignment (R132) -/

/-- R132: cluster c is given to context x: nothing of it is translated there. -/
def Chip.giveCluster (x c : Nat) (s : Chip) : Chip :=
  Chip.tlbDrop { s with parts.owner := KMap.put s.parts.owner none c (some x) } c fun t => t.ctx == x

theorem Chip.ownerOf_giveCluster (s : Chip) (x c d : Nat) :
    (s.giveCluster x c).ownerOf d = if d = c then some x else s.ownerOf d := by
  by_cases h : d = c
  · subst h
    rw [if_pos rfl]
    exact at_put_self none s.parts.owner d (some x)
  · rw [if_neg h]
    exact at_put_ne (d := none) (d' := none) s.parts.owner (some x) (Ne.symm h)

theorem Chip.ownerOf_giveClusters (l : List Nat) (s : Chip) (x d : Nat) :
    (forEach l (Chip.giveCluster x) s).ownerOf d = if d ∈ l then some x else s.ownerOf d := by
  induction l generalizing s with
  | nil => simp [forEach]
  | cons c l ih =>
    refine (ih (s.giveCluster x c)).trans ?_
    rw [Chip.ownerOf_giveCluster]
    by_cases h1 : d ∈ l <;> by_cases h2 : d = c <;> simp [h1, h2]

theorem exec_ctxAssign_ok {s : State} {q : CmdReq} {slot root l1n : Nat} {cls : List Nat}
    (h : s.sys.chip.takesCmd q false) (hslot : slot < 32)
    (hst : (s.sys.chip.ctxAt (32 * s.sys.chip.sessPart q.session + slot)).state = 0)
    (hret : s.sys.chip.retiring = false)
    (hcls : ∀ c ∈ cls, c < 208 ∧ s.sys.chip.ownerOf c = none ∧ s.sys.chip.clusterWorks c = true)
    (hroot : root % 4096 = 0) (hl0 : l1n ≠ 0) (hl1 : l1n ≤ 262144)
    (harea : s.sys.chip.inArea ((32 * s.sys.chip.sessPart q.session + slot) / 32) root (8 * l1n) = true) :
    exec (.ctxAssign q slot root l1n cls) s = .next { s with sys := onChip (fun t =>
      ((forEach cls.eraseDups (Chip.giveCluster (32 * s.sys.chip.sessPart q.session + slot)) (t.leaveIngress q)).setCtx
        (32 * s.sys.chip.sessPart q.session + slot) { state := 1, root := root, l1n := l1n }).cmdAnswer q .ok 0) s.sys } := by
  have hexec : exec (.ctxAssign q slot root l1n cls) s = execCtxAssign q slot root l1n cls s := (rfl)
  have hret' : (s.sys.chip.leaveIngress q).retiring = false := hret
  have hfree : cls.eraseDups.any (fun c => decide (208 ≤ c) || ((s.sys.chip.leaveIngress q).ownerOf c).isSome) = false := by
    rw [List.any_eq_false]
    intro c hc
    obtain ⟨hlt, hown, -⟩ := hcls c (List.mem_eraseDups.1 hc)
    have hown' : (s.sys.chip.leaveIngress q).ownerOf c = none := hown
    simp [hown', hlt]
  have hworks : cls.eraseDups.any (fun c => !(s.sys.chip.leaveIngress q).clusterWorks c) = false := by
    rw [List.any_eq_false]
    intro c hc
    have hw : (s.sys.chip.leaveIngress q).clusterWorks c = true := (hcls c (List.mem_eraseDups.1 hc)).2.2
    simp [hw]
  have hgood : ¬ (root % 4096 ≠ 0 ∨ l1n = 0 ∨ 262144 < l1n ∨ (s.sys.chip.leaveIngress q).inArea
      ((32 * s.sys.chip.sessPart q.session + slot) / 32) root (8 * l1n) = false) := by
    have harea' : (s.sys.chip.leaveIngress q).inArea ((32 * s.sys.chip.sessPart q.session + slot) / 32) root (8 * l1n) =
      true := harea
    rw [harea']
    simp
    omega
  rw [hexec, execCtxAssign, liftC, Chip.ctxCmd_ok h hslot (by simp [hst])]
  dsimp only
  rw [if_neg (by rw [hret', hfree]; simp), if_neg (by rw [hworks]; simp), if_neg hgood]
  rfl

/-- R135: a context that starts for a command. -/
def Ctx.starts (k : Ctx) (q : CmdReq) : Ctx := { k with state := 2, starting := some q }

theorem exec_ctxStart_ok {s : State} {q : CmdReq} {slot : Nat} (h : s.sys.chip.takesCmd q false) (hslot : slot < 32)
    (hst : (s.sys.chip.ctxAt (32 * s.sys.chip.sessPart q.session + slot)).state = 1) :
    ∃ t : Chip, exec (.ctxStart q slot) s = .next { s with sys := onChip (fun _ =>
      (t.setCtx (32 * s.sys.chip.sessPart q.session + slot)
        ((s.sys.chip.ctxAt (32 * s.sys.chip.sessPart q.session + slot)).starts q)).cmdPending q) s.sys } := by
  have hexec : exec (.ctxStart q slot) s = execCtxStart q slot s := (rfl)
  rw [hexec, execCtxStart, liftC, Chip.ctxCmd_ok h hslot (by simp [hst])]
  exact ⟨_, rfl⟩

/-- R135: what CTX_KILL does to a live context. -/
theorem exec_ctxKill_ok {s : State} {q : CmdReq} {slot : Nat} (h : s.sys.chip.takesCmd q false) (hslot : slot < 32)
    (hst : 1 ≤ (s.sys.chip.ctxAt (32 * s.sys.chip.sessPart q.session + slot)).state ∧
      (s.sys.chip.ctxAt (32 * s.sys.chip.sessPart q.session + slot)).state ≤ 3) :
    exec (.ctxKill q slot) s = .next { s with sys := onChip (fun t =>
      ((t.leaveIngress q).killCtx (32 * s.sys.chip.sessPart q.session + slot) (killOf 8)).cmdAnswer q .ok 0) s.sys } := by
  have hexec : exec (.ctxKill q slot) s = execCtxKill q slot s := (rfl)
  have h4 : ((s.sys.chip.leaveIngress q).ctxAt (32 * s.sys.chip.sessPart q.session + slot)).state ≠ 4 := by
    have : (s.sys.chip.leaveIngress q).ctxAt (32 * s.sys.chip.sessPart q.session + slot) =
      s.sys.chip.ctxAt (32 * s.sys.chip.sessPart q.session + slot) := rfl
    rw [this]
    omega
  rw [hexec, execCtxKill, liftC, Chip.ctxCmd_ok h hslot (by simp; omega)]
  dsimp only
  rw [if_neg h4]
  rfl

theorem answers_ctxKill_killed {s : State} {q : CmdReq} {slot : Nat} (h : s.sys.chip.takesCmd q false) (hslot : slot < 32)
    (hst : (s.sys.chip.ctxAt (32 * s.sys.chip.sessPart q.session + slot)).state = 4) :
    Answers (.ctxKill q slot) s s.sys.chip q .ok 0 := by
  have hexec : exec (.ctxKill q slot) s = execCtxKill q slot s := (rfl)
  refine answers_of_exec ?_
  have h4 : ((s.sys.chip.leaveIngress q).ctxAt (32 * s.sys.chip.sessPart q.session + slot)).state = 4 := hst
  rw [hexec, execCtxKill, liftC, Chip.ctxCmd_ok h hslot (by simp; omega)]
  dsimp only
  rw [if_pos h4]

theorem answers_ctxKillDrain_killed {s : State} {q : CmdReq} {slot : Nat} (h : s.sys.chip.takesCmd q false)
    (hslot : slot < 32) (hst : (s.sys.chip.ctxAt (32 * s.sys.chip.sessPart q.session + slot)).state = 4) :
    Answers (.ctxKillDrain q slot) s s.sys.chip q .ok 0 := by
  have hexec : exec (.ctxKillDrain q slot) s = execCtxKillDrain q slot s := (rfl)
  refine answers_of_exec ?_
  rw [hexec, execCtxKillDrain, liftC, Chip.ctxCmd_ok h hslot (by simp; omega)]
  dsimp only
  rw [if_pos hst]

theorem answers_ctxKillDrain_running {s : State} {q : CmdReq} {slot : Nat} (h : s.sys.chip.takesCmd q false)
    (hslot : slot < 32) (hst : (s.sys.chip.ctxAt (32 * s.sys.chip.sessPart q.session + slot)).state = 2) :
    Answers (.ctxKillDrain q slot) s (s.sys.chip.setCtx (32 * s.sys.chip.sessPart q.session + slot)
      { s.sys.chip.ctxAt (32 * s.sys.chip.sessPart q.session + slot) with state := 3 }) q .ok 0 := by
  have hexec : exec (.ctxKillDrain q slot) s = execCtxKillDrain q slot s := (rfl)
  refine answers_of_exec ?_
  rw [hexec, execCtxKillDrain, liftC, Chip.ctxCmd_ok h hslot (by simp; omega)]
  dsimp only
  rw [if_neg (by omega)]
  rfl

theorem pends_ctxRelease {s : State} {q : CmdReq} {slot : Nat} (h : s.sys.chip.takesCmd q false) (hslot : slot < 32)
    (hst : (s.sys.chip.ctxAt (32 * s.sys.chip.sessPart q.session + slot)).state = 1 ∨
      (s.sys.chip.ctxAt (32 * s.sys.chip.sessPart q.session + slot)).state = 4) :
    Pends (.ctxRelease q slot) s (s.sys.chip.setCtx (32 * s.sys.chip.sessPart q.session + slot)
      { s.sys.chip.ctxAt (32 * s.sys.chip.sessPart q.session + slot) with state := 5, releasing := some q }) q := by
  have hexec : exec (.ctxRelease q slot) s = execCtxRelease q slot s := (rfl)
  refine pends_of_exec ?_
  rw [hexec, execCtxRelease, liftC, Chip.ctxCmd_ok h hslot (by simp; omega)]
  rfl

/-! ## What stopping a cluster leaves (R137) -/

/-- Nothing but clusters, registers, posts and accesses has changed. -/
structure Chip.stops (s t : Chip) : Prop where
  rest : t = { s with cls := t.cls, posts := t.posts, accs := t.accs, regs := t.regs }

theorem Chip.stops.refl (s : Chip) : s.stops s := ⟨rfl⟩

theorem Chip.stops.trans {s t u : Chip} (h : s.stops t) (h' : t.stops u) : s.stops u :=
  ⟨by rw [h'.rest, h.rest]⟩

theorem Chip.stops.parts {s t : Chip} (h : s.stops t) : t.parts = s.parts := by rw [h.rest]

theorem Chip.stops.ctxAt {s t : Chip} (h : s.stops t) (x : Nat) : t.ctxAt x = s.ctxAt x := by
  unfold Chip.ctxAt
  rw [h.parts]

theorem Chip.stops_ite {s t u : Chip} {p : Prop} [Decidable p] (h : s.stops t) (h' : s.stops u) :
    s.stops (if p then t else u) := by
  split <;> assumption

theorem Chip.stops_setCl (s : Chip) (c : Nat) (x : Cl) : s.stops (s.setCl c x) := ⟨rfl⟩
theorem Chip.stops_setCore (s : Chip) (c m : Nat) (x : Core) : s.stops (s.setCore c m x) := ⟨rfl⟩
theorem Chip.stops_setFrog (s : Chip) (c : Nat) (f : Frog) : s.stops (s.setFrog c f) := ⟨rfl⟩
theorem Chip.stops_setEng (s : Chip) (c e : Nat) (x : Eng) : s.stops (s.setEng c e x) := ⟨rfl⟩
theorem Chip.stops_setReg (s : Chip) (a : Nat) (w : Word) : s.stops (s.setReg a w) := ⟨rfl⟩
theorem Chip.stops_setFlag (s : Chip) (a n : Nat) (b : Bool) : s.stops (s.setFlag a n b) := ⟨rfl⟩
theorem Chip.stops_wrapBy (s : Chip) (a k : Nat) : s.stops (s.wrapBy a k) := ⟨rfl⟩
theorem Chip.stops_trapPend (s : Chip) (c m : Nat) (b : Bool) : s.stops (s.trapPend c m b) := ⟨rfl⟩
theorem Chip.stops_postAbort (s : Chip) (c d n : Nat) (st : Status) : s.stops (s.postAbort c d n st) := ⟨rfl⟩

theorem Chip.stops_setStop (s : Chip) (c m v : Nat) : s.stops (s.setStop c m v) := by
  unfold Chip.setStop
  exact Chip.stops_ite ⟨rfl⟩ (.refl s)

theorem stops_forEach {α : Type} (l : List α) {f : α → Chip → Chip} (hf : ∀ a (s : Chip), s.stops (f a s)) (s : Chip) :
    s.stops (forEach l f s) :=
  forEach_keeps (fun t => s.stops t) (fun a _ t ht => ht.trans (hf a t)) (.refl s)

theorem Chip.stops_newtStop (s : Chip) (c m stop : Nat) : s.stops (s.newtStop c m stop) := by
  have hend : ∀ (t : Chip) {p : Prop} [Decidable p] (b : Bool) (v : Nat), s.stops t →
      s.stops ((if p then t.trapPend c m b else t).setStop c m v) := fun t p _ b v ht =>
    (Chip.stops_ite (ht.trans (t.stops_trapPend c m b)) ht).trans (Chip.stops_setStop ..)
  unfold Chip.newtStop
  dsimp only
  refine Chip.stops_ite (.refl s) ?_
  split
  · exact hend _ _ _ (s.stops_setCore c m _)
  · exact Chip.stops_ite (.refl s) (hend _ _ _ ((s.stops_setCl c _).trans (Chip.stops_setCore _ c m _)))
  · refine Chip.stops_ite (.refl s) ?_
    exact ((s.stops_setCl c _).trans (Chip.stops_setCore _ c m _)).trans (Chip.stops_setStop ..)

theorem Chip.stops_releaseTable (s : Chip) (c : Nat) (st : Status) : s.stops (s.releaseTable c st) := by
  unfold Chip.releaseTable
  dsimp only
  split
  · exact .refl s
  · exact (stops_forEach _ (fun d t => t.stops_postAbort c d _ st) s).trans (Chip.stops_setFrog ..)

theorem Chip.stops_leaveScan (s : Chip) (c serial : Nat) (d : List Word) (st : Status) :
    s.stops (s.leaveScan c serial d st) := by
  unfold Chip.leaveScan
  dsimp only
  refine Chip.stops_ite (.refl s) ?_
  have h : s.stops (if dw d 11 23 16 = c then s else s.postAbort c (dw d 11 23 16) (dw d 11 31 24) st) :=
    Chip.stops_ite (.refl s) (s.stops_postAbort ..)
  exact Chip.stops_ite (h.trans (Chip.stops_releaseTable ..)) h

theorem Chip.stops_frogFenced (s : Chip) (c : Nat) (d : List Word) (n : Nat) : s.stops (s.frogFenced c d n) := by
  have hdone : ∀ t : Chip, s.stops t → s.stops (t.frogDone c d) := fun t ht => by
    unfold Chip.frogDone
    have h := ht.trans (t.stops_wrapBy (fgPg c + 0x68) 1)
    exact Chip.stops_ite (h.trans (Chip.stops_setFlag ..)) h
  unfold Chip.frogFenced
  exact Chip.stops_ite (hdone _ (s.stops_setCl c _)) (.refl s)

theorem Chip.stops_frogStop (s : Chip) (c : Nat) (st : Status) : s.stops (s.frogStop c st) := by
  unfold Chip.frogStop
  dsimp only
  generalize hu : Chip.setReg _ _ _ = u
  have h0 : s.stops u := hu ▸ (s.stops_setFrog c _).trans (Chip.stops_setReg ..)
  generalize hv : Chip.releaseTable _ c st = v
  have h1 : s.stops v := by
    rw [← hv]
    refine Chip.stops.trans ?_ (Chip.stops_releaseTable ..)
    split
    · exact h0.trans (Chip.stops_leaveScan ..)
    · exact h0
  refine Chip.stops_ite ?_ h1
  refine Chip.stops.trans ?_ (stops_forEach _ (fun q t => t.stops_frogFenced c (Prod.snd q) 0) _)
  split
  · exact h1.trans (Chip.stops_frogFenced ..)
  · exact h1

theorem Chip.stops_copyStop (s : Chip) (c e : Nat) (st : Status) : s.stops (s.copyStop c e st) := by
  unfold Chip.copyStop
  dsimp only
  have h : ∀ (l : List Acc) (x : Cl), s.stops (({ s with accs := l } : Chip).setCl c x) := fun l x => ⟨rfl⟩
  exact Chip.stops_ite ((h _ _).trans (Chip.stops_setEng ..)) ((h _ _).trans (Chip.stops_setEng ..))

theorem Chip.stops_clusterStop (s : Chip) (c : Nat) (st : Status) (stop : Nat) :
    s.stops (s.clusterStop c st stop) := by
  unfold Chip.clusterStop
  exact (((stops_forEach _ (fun m t => t.stops_newtStop c m stop) s).trans (Chip.stops_frogStop ..)).trans
    (Chip.stops_copyStop ..)).trans (Chip.stops_copyStop ..)

/-- R137: the frog of a cluster whose kill message has come. -/
theorem Chip.frog_frogStop (s : Chip) (c : Nat) {st : Status} (h : st ≠ .fenced) :
    ((s.frogStop c st).frog c).queue = [] ∧ ((s.frogStop c st).frog c).wait = none := by
  unfold Chip.frogStop
  dsimp only
  rw [if_neg h]
  generalize hu : Chip.setReg _ _ _ = u
  have hfrog : (u.frog c).queue = [] ∧ (u.frog c).wait = none := by
    rw [← hu, Chip.frog_setReg, Chip.frog_setFrog]
    exact ⟨rfl, rfl⟩
  have hleave : ∀ t : Chip, u.leavesScan t c → u.leavesScan (t.releaseTable c st) c := fun t ht =>
    ht.trans (t.leavesScan_releaseTable c st)
  have h := hleave (match (s.frog c).wait with
    | some w => u.leaveScan c w.serial w.desc st
    | none => u) (by
      split
      · exact Chip.leavesScan_leaveScan ..
      · exact .refl u c)
  exact ⟨h.queue.trans hfrog.1, h.wait.trans hfrog.2⟩

theorem Chip.eng_setEng_ne (s : Chip) {c e e' : Nat} (x : Eng) (h' : e' < 2) (h : e < 2) (hne : e' ≠ e) :
    (s.setEng c e x).eng c e' = s.eng c e' := by
  unfold Chip.setEng Chip.eng
  rw [Chip.cl_setCl]
  have hor : e = 0 ∧ e' = 1 ∨ e = 1 ∧ e' = 0 := by omega
  rcases hor with ⟨rfl, rfl⟩ | ⟨rfl, rfl⟩ <;> rfl

/-- R129: a stopped engine, and what stopping it leaves of the frog and the other engine. -/
theorem Chip.copyStop_rest (s : Chip) (c : Nat) {e : Nat} (he : e < 2) (st : Status) :
    ((s.copyStop c e st).eng c e).queue = [] ∧ (s.copyStop c e st).frog c = s.frog c ∧
      ∀ e', e' < 2 → e' ≠ e → (s.copyStop c e st).eng c e' = s.eng c e' := by
  have hset : ∀ (t : Chip) (z : Eng), t.frog c = s.frog c → (∀ e', t.eng c e' = s.eng c e') → z.queue = [] →
      ((t.setEng c e z).eng c e).queue = [] ∧ (t.setEng c e z).frog c = s.frog c ∧
        ∀ e', e' < 2 → e' ≠ e → (t.setEng c e z).eng c e' = s.eng c e' := by
    intro t z hf he' hz
    refine ⟨by rw [Chip.eng_setEng, hz], ?_, fun e' h2 hne => ?_⟩
    · rw [← hf, Chip.setEng, Chip.frog, Chip.cl_setCl]
      split <;> rfl
    · rw [← he' e', Chip.eng_setEng_ne _ _ h2 he hne]
  unfold Chip.copyStop
  dsimp only
  split
  · exact hset _ _ (by rw [Chip.frog, Chip.cl_setCl]; rfl) (fun e' => by rw [Chip.eng, Chip.cl_setCl]; rfl) rfl
  · exact hset _ _ (by rw [Chip.frog, Chip.cl_setCl]; rfl) (fun e' => by rw [Chip.eng, Chip.cl_setCl]; rfl) rfl

/-! ## The clusters of a released context (R136) -/

/-- The chip has changed in what its clusters hold and which injections are armed. -/
structure Sys.recached (y z : Sys) : Prop where
  rest : z.chip = { y.chip with
    cls := z.chip.cls
    errs := { y.chip.errs with armed := z.chip.errs.armed } }

theorem Sys.recached.refl (y : Sys) : y.recached y := ⟨rfl⟩

theorem Sys.recached.trans {y z w : Sys} (h : y.recached z) (h' : z.recached w) : y.recached w :=
  ⟨by rw [h'.rest, h.rest]⟩

theorem Sys.recached.parts {y z : Sys} (h : y.recached z) : z.chip.parts = y.chip.parts := by rw [h.rest]

theorem Sys.recached_setCore (y : Sys) (c m : Nat) (f : Chip → Core) :
    y.recached (onChip (fun s => s.setCore c m (f s)) y) := ⟨rfl⟩

theorem Sys.recached_writeBack (y : Sys) (c : Nat) (l : Line) :
    y.recached (if l.st = 3 then y.writeLine c l else y) := by
  split
  · exact ⟨by conv_lhs => rw [Sys.writeLine_rest]
              rw [Sys.writeLine_cls]⟩
  · exact .refl y

theorem Sys.recached_dropLine (y : Sys) (c off n m : Nat) (e : Nat × Option Line) : y.recached (y.dropLine c off n m e) := by
  obtain ⟨k, o⟩ := e
  cases o with
  | none => exact .refl y
  | some l =>
    by_cases h : l.off < off + n ∧ off < l.off + 64
    · rw [Sys.dropLine_hit _ _ _ _ h]
      exact (y.recached_writeBack c l).trans (Sys.recached_setCore ..)
    · rw [Sys.dropLine_miss _ _ _ _ h]
      exact .refl y

theorem Sys.recached_invLines (y : Sys) (c off n : Nat) : y.recached (y.invLines c off n) := by
  unfold Sys.invLines
  split
  · exact .refl y
  · refine forEachS_keeps (fun z => y.recached z) (fun e _ z hz => ?_) (.refl y)
    rw [Sys.invCore_eq]
    exact forEachS_keeps (fun w => y.recached w) (fun e' _ w hw => hw.trans (w.recached_dropLine c off n e.1 e')) hz

/-- R104, R136: clearing a newt leaves who owns what. -/
theorem Sys.parts_clearNewt (y : Sys) (c m : Nat) : (y.clearNewt c m).chip.parts = y.chip.parts := by
  have hloaded : ∀ s : Chip, (s.loaded c m).parts = s.parts := fun s => by
    unfold Chip.loaded
    dsimp only
    split <;> rfl
  unfold Sys.clearNewt
  dsimp only
  split
  · rfl
  · rw [onChip_chip, hloaded]
    exact (y.chip.stops_newtStop c m 3).parts

theorem Sys.parts_clearNewts (y : Sys) (c : Nat) (l : List Nat) :
    (forEachS l (fun m y => y.clearNewt c m) y).chip.parts = y.chip.parts :=
  forEachS_keeps (fun z => z.chip.parts = y.chip.parts) (fun m _ z hz => (z.parts_clearNewt c m).trans hz) rfl

theorem Sys.parts_clearStore (y : Sys) (c : Nat) : (y.clearStore c).chip.parts = y.chip.parts :=
  (y.recached_invLines c 0 0x200000).parts

theorem Chip.parts_preEnds (s : Chip) (c r : Nat) : (s.preEnds c r).parts = s.parts := by
  unfold Chip.preEnds
  rw [Chip.setReg_parts, Chip.setFlag_parts]
  rfl

/-- R143: a preload of a cluster that no context owns ends. -/
theorem Chip.parts_preGo (s : Chip) {c : Nat} (h : s.ownerOf c = none) : (s.preGo c).parts = s.parts := by
  unfold Chip.preGo
  split
  · rfl
  · split
    · rfl
    · rw [h]
      exact s.parts_preEnds c 1

/-- R136: a released cluster belongs to no context, and every other as before. -/
theorem Sys.ownerOf_releaseCluster (y : Sys) (c x d : Nat) :
    (y.releaseCluster c x).chip.ownerOf d = if d = c then none else y.chip.ownerOf d := by
  unfold Sys.releaseCluster
  dsimp only
  generalize hz : (if y.chip.isFenced (.cluster c) = true then y else _) = z
  have hparts : z.chip.parts = y.chip.parts := by
    rw [← hz]
    split
    · rfl
    · rw [onChip_chip, (Chip.stops_setFrog ..).parts, Sys.parts_clearStore, Sys.parts_clearNewts]
  have hown : ∀ s : Chip, ({ s with parts.owner := KMap.put s.parts.owner none c none } : Chip).ownerOf c = none :=
    fun s => at_put_self none s.parts.owner c none
  unfold Chip.ownerOf
  rw [onChip_chip, Chip.parts_preGo _ (hown _), ← hparts]
  split
  · rename_i h
    subst h
    exact hown _
  · rename_i h
    exact at_put_ne (d := none) (d' := none) z.chip.parts.owner none (Ne.symm h)

theorem Sys.ownerOf_releaseClusters (l : List Nat) (y : Sys) (x d : Nat) :
    (forEachS l (fun c y => y.releaseCluster c x) y).chip.ownerOf d = if d ∈ l then none else y.chip.ownerOf d := by
  induction l generalizing y with
  | nil => simp [forEachS]
  | cons c l ih =>
    refine (ih (y.releaseCluster c x)).trans ?_
    rw [Sys.ownerOf_releaseCluster]
    by_cases h1 : d ∈ l <;> by_cases h2 : d = c <;> simp [h1, h2]

/-! ## How a context ends -/

theorem exec_drainComplete_eq {s : State} {p : PartNo} {slot : SlotNo}
    (hst : (s.sys.chip.ctxAt (32 * p.val + slot.val)).state = 3)
    (hdone : ∀ r ∈ s.sys.chip.prom.reqs, r.sent = false →
      ∀ c ∈ s.sys.chip.ctxClusters (32 * p.val + slot.val), s.sys.chip.needsCl c r = false) :
    exec (.drainComplete p slot) s =
      .next { s with sys := onChip (fun t => t.killCtx (32 * p.val + slot.val) (killOf 8)) s.sys } := by
  have hexec : exec (.drainComplete p slot) s = execDrainComplete p slot s := (rfl)
  have hall : (s.sys.chip.prom.reqs.all fun r => r.sent ||
      !(s.sys.chip.ctxClusters (32 * p.val + slot.val)).any fun c => s.sys.chip.needsCl c r) = true := by
    rw [List.all_eq_true]
    intro r hr
    cases hsent : r.sent with
    | true => rfl
    | false => simpa using hdone r hr hsent
  rw [hexec, execDrainComplete, liftC]
  dsimp only
  rw [if_pos ⟨hst, hall⟩]
  rfl

/-- R146: the kill message has reached cluster c. -/
def Ctx.reached (k : Ctx) (c : Nat) : Ctx := { k with killing := k.killing.filter fun d => !(d == c) }

theorem exec_killMessage_eq {s : State} {c : ClusterNo} {x : Nat} (hown : s.sys.chip.ownerOf c = some x)
    (hkill : c.val ∈ (s.sys.chip.ctxAt x).killing) :
    exec (.killMessage c) s = .next { s with sys := onChip (fun t =>
      (t.setCtx x ((t.ctxAt x).reached c)).clusterStop c .contextKilled 3) s.sys } := by
  have hexec : exec (.killMessage c) s = execKillMessage c s := (rfl)
  rw [hexec, execKillMessage, liftC]
  simp only [hown, List.contains_iff_mem.2 hkill, if_true]
  rfl

/-- R137: what stopping a cluster leaves of its frog and its engines. -/
theorem Chip.clusterStop_empty (s : Chip) (c stop : Nat) {st : Status} (h : st ≠ .fenced) :
    ((s.clusterStop c st stop).frog c).queue = [] ∧ ((s.clusterStop c st stop).frog c).wait = none ∧
      ((s.clusterStop c st stop).eng c 0).queue = [] ∧ ((s.clusterStop c st stop).eng c 1).queue = [] := by
  unfold Chip.clusterStop
  dsimp only
  generalize forEach (List.range 129) _ s = t
  obtain ⟨hq, hw⟩ := t.frog_frogStop c h
  obtain ⟨h0, hf0, -⟩ := (t.frogStop c st).copyStop_rest c (e := 0) (by decide) st
  obtain ⟨h1, hf1, hother⟩ := ((t.frogStop c st).copyStop c 0 st).copyStop_rest c (e := 1) (by decide) st
  rw [hf1, hf0, hother 0 (by decide) (by decide)]
  exact ⟨hq, hw, h0, h1⟩

/-- R136, R454: the slot of a released context is free, and the command that waits is answered. -/
def Chip.freeSlot (s : Chip) (x : Nat) (o : Option CmdReq) : Chip :=
  let s := Chip.setCtx { s with att.models := KMap.put s.att.models [] x [] } x {}
  match o with
  | some q => s.cmdAnswer q .ok 0
  | none => s

theorem exec_ctxReleaseDone_eq {s : State} {p : PartNo} {slot : SlotNo}
    (h : s.sys.chip.releaseReady (32 * p.val + slot.val) = true) :
    exec (.ctxReleaseDone p slot) s = .next { s with
      sys := onChip (fun t => t.freeSlot (32 * p.val + slot.val) (s.sys.chip.ctxAt (32 * p.val + slot.val)).releasing)
        (forEachS (s.sys.chip.ctxClusters (32 * p.val + slot.val))
          (fun c y => y.releaseCluster c (32 * p.val + slot.val)) s.sys) } := by
  have hexec : exec (.ctxReleaseDone p slot) s = execCtxReleaseDone p slot s := (rfl)
  rw [hexec, execCtxReleaseDone, liftS]
  dsimp only
  rw [if_pos h]
  rfl

theorem Chip.freeSlot_ends (s : Chip) (x : Nat) (o : Option CmdReq) :
    (s.freeSlot x o).ctxAt x = {} ∧ (∀ c, (s.freeSlot x o).ownerOf c = s.ownerOf c) ∧
      ∀ q, o = some q → (s.freeSlot x o).answeredIs q .ok 0 := by
  cases o with
  | none => exact ⟨Chip.ctxAt_setCtx .., fun _ => rfl, fun q h => by cases h⟩
  | some q =>
    have ht := (Chip.setCtx { s with att.models := KMap.put s.att.models [] x [] } x {}).told_cmdAnswer q .ok 0
    refine ⟨ht.ctxAt x |>.trans (Chip.ctxAt_setCtx ..), fun c => ht.ownerOf c, fun q' h => ?_⟩
    cases h
    exact Chip.answeredIs_cmdAnswer ..

/-- Settles O26: each context command by its effect on the slot, and the ends of a context. -/
theorem contextCommands : Obligations.ContextCommands := by
  unfold Obligations.ContextCommands
  refine ⟨?_, ?_⟩
  · intro s q slot h hslot y x k
    have hno : ∀ {i : Instr} {states : List Nat} {f : Nat → Ctx → Chip → Chip},
        exec i s = liftC (fun s => s.ctxCmd q slot states f) s → k.state ∉ states → Answers i s y q .noAccess 0 :=
      fun hexec hst => answers_of_exec (by rw [hexec, liftC, Chip.ctxCmd_no h hst])
    refine ⟨fun root l1n cls hst hret _ hcls hroot hl0 hl1 harea => ⟨_, exec_ctxAssign_ok h hslot hst hret hcls hroot hl0
        hl1 harea, onChip_mem .., ?_⟩,
      fun hst => ?_, fun hst => ⟨_, exec_ctxKill_ok h hslot hst, onChip_mem .., ?_⟩,
      fun hst => ⟨answers_ctxKill_killed h hslot hst, answers_ctxKillDrain_killed h hslot hst⟩,
      fun hst => answers_ctxKillDrain_running h hslot hst, fun hst => pends_ctxRelease h hslot hst,
      fun root l1n cls hst => hno (states := [0]) rfl (by simpa using hst),
      fun hst => hno (states := [1]) rfl (by simpa using hst),
      fun hst => hno (states := [1, 2, 3, 4]) rfl (by simp; omega),
      fun h2 h4 => hno (states := [2, 4]) rfl (by simp; omega),
      fun h1 h4 => hno (states := [1, 4]) rfl (by simp; omega)⟩
    · rw [onChip_chip]
      have ht := fun t : Chip => t.told_cmdAnswer q .ok 0
      refine ⟨?_, fun c => ?_, Chip.answeredIs_cmdAnswer ..⟩
      · rw [(ht _).ctxAt, Chip.ctxAt_setCtx]
      · rw [(ht _).ownerOf]
        refine (Chip.ownerOf_giveClusters cls.eraseDups (y.leaveIngress q) x c).trans ?_
        simp only [List.mem_eraseDups]
        rfl
    · obtain ⟨t, hexec⟩ := exec_ctxStart_ok h hslot hst
      refine ⟨_, hexec, onChip_mem .., ?_, Chip.pendingIs_cmdPending ..⟩
      rw [onChip_chip, (Chip.told_cmdPending ..).ctxAt, Chip.ctxAt_setCtx]
      rfl
    · rw [onChip_chip]
      obtain ⟨h1, h2, h3⟩ := Chip.ctxAt_killCtx (s := s.sys.chip.leaveIngress q) 8 hst
        (Chip.told_cmdAnswer (Chip.killCtx (s.sys.chip.leaveIngress q) x (killOf 8)) q .ok 0)
      exact ⟨h1, h2, h3, Chip.answeredIs_cmdAnswer ..⟩
  · intro s y
    refine ⟨?_, fun c x hown hkill => ⟨_, exec_killMessage_eq hown hkill, onChip_mem .., ?_⟩, ?_⟩
    · intro p slot x hst hdone
      exact ⟨_, exec_drainComplete_eq hst hdone, onChip_mem .., Chip.ctxAt_killCtx 8 (by omega) (.refl _)⟩
    · rw [onChip_chip, (Chip.stops_clusterStop ..).ctxAt, Chip.ctxAt_setCtx]
      refine ⟨by simp [Ctx.reached], Chip.clusterStop_empty _ _ _ (by decide)⟩
    · intro p slot x hready
      obtain ⟨hctx, hown, hans⟩ := Chip.freeSlot_ends
        (forEachS (y.ctxClusters x) (fun c z => z.releaseCluster c x) s.sys).chip x (y.ctxAt x).releasing
      refine ⟨_, exec_ctxReleaseDone_eq hready, hctx, fun c hc => ?_, hans⟩
      rw [onChip_chip]
      exact (hown c).trans ((Sys.ownerOf_releaseClusters ..).trans (if_pos hc))

end Sys2Proof.Machine

/-! FACTS about the copy engines (R122 to R127): what a change of an engine leaves of its cluster, what
settling leaves of descriptors that have not settled, how the one descriptor of an engine completes, and
how an engine at rest reaches the head of its queue. -/

namespace Sys2Proof.Machine

-- One after the other: side by side the proofs ask for more memory than the check grants.
set_option Elab.async false

open Laws

/-! ## Engines beside the rest of a cluster -/

/-- Nothing but the engines of cluster c has changed. -/
structure Chip.engines (s t : Chip) (c : Nat) : Prop where
  rest : t = { s with cls := t.cls }
  cl : t.cl c = { s.cl c with eng0 := (t.cl c).eng0, eng1 := (t.cl c).eng1 }

theorem Chip.engines.refl (s : Chip) (c : Nat) : s.engines s c := ⟨rfl, rfl⟩

theorem Chip.engines.trans {s t u : Chip} {c : Nat} (h : s.engines t c) (h' : t.engines u c) : s.engines u c :=
  ⟨by rw [h'.rest, h.rest], by rw [h'.cl, h.cl]⟩

theorem Chip.engines_setEng (s : Chip) (c e : Nat) (x : Eng) : s.engines (s.setEng c e x) c := by
  refine ⟨rfl, ?_⟩
  rw [Chip.setEng, Chip.cl_setCl]
  split <;> rfl

theorem Chip.engines.regs {s t : Chip} {c : Nat} (h : s.engines t c) : t.regs = s.regs := by rw [h.rest]

theorem Chip.engines.reg {s t : Chip} {c : Nat} (h : s.engines t c) (a : Nat) : t.reg a = s.reg a := by
  rw [Chip.reg, h.regs, Chip.reg]

theorem Chip.engines.flag {s t : Chip} {c : Nat} (h : s.engines t c) (a n : Nat) : t.flag a n = s.flag a n := by
  rw [Chip.flag, h.reg, Chip.flag]

theorem Chip.engines.parts {s t : Chip} {c : Nat} (h : s.engines t c) : t.parts = s.parts := by rw [h.rest]

theorem Chip.engines.walks {s t : Chip} {c : Nat} (h : s.engines t c) : (t.cl c).walks = (s.cl c).walks := by rw [h.cl]

theorem Chip.engines.tlbAt {s t : Chip} {c : Nat} (h : s.engines t c) (i : Nat) : t.tlbAt c i = s.tlbAt c i := by
  rw [Chip.tlbAt, h.cl, Chip.tlbAt]

theorem Sys.Calm.setEng {y : Sys} {d : Nat} (h : y.Calm d) (c e : Nat) (x : Eng) :
    (onChip (fun s => s.setEng c e x) y).Calm d :=
  h.chip _ rfl fun m => by rw [show _ = y.chip.core d m from Chip.core_setEng ..]

/-! ## Settling (R124, R127) -/

/-- No descriptor of cluster c's engines has settled. -/
def Chip.unsettled (s : Chip) (c : Nat) : Prop := ∀ g, ∀ d ∈ (s.eng c g).descs, d.settled = false

theorem Chip.unsettled.setEng {s : Chip} {c : Nat} (h : s.unsettled c) (e : Nat) {x : Eng}
    (hx : ∀ d ∈ x.descs, d.settled = false) : (s.setEng c e x).unsettled c := by
  intro g d hd
  by_cases he : e = 0 <;> by_cases hg : g = 0
  · exact hx d (by simpa [Chip.eng, Chip.setEng, he, hg] using hd)
  · exact h g d (by simpa [Chip.eng, Chip.setEng, he, hg] using hd)
  · exact h g d (by simpa [Chip.eng, Chip.setEng, he, hg] using hd)
  · exact hx d (by simpa [Chip.eng, Chip.setEng, he, hg] using hd)

/-- Where nothing has settled, settling drops stopped descriptors at most. -/
theorem Sys.copyDone_unsettled (n : Nat) {y : Sys} {c : Nat} (e : Nat) (h : y.chip.unsettled c) :
    (y.copyDone c e n).mem = y.mem ∧ y.chip.engines (y.copyDone c e n).chip c ∧ (y.copyDone c e n).chip.unsettled c := by
  induction n generalizing y with
  | zero => exact ⟨rfl, .refl _ c, h⟩
  | succ n ih =>
    rw [Sys.copyDone]
    dsimp only
    split
    · exact ⟨rfl, .refl _ c, h⟩
    · rename_i d l hd
      split
      · exact ⟨rfl, .refl _ c, h⟩
      · split
        · obtain ⟨hm, hc, hu⟩ := ih (y := onChip (fun s => s.setEng c e { s.eng c e with descs := l }) y)
            (h.setEng e fun x hx => h e x (hd ▸ List.mem_cons_of_mem _ hx))
          exact ⟨hm, (y.chip.engines_setEng c e _).trans hc, hu⟩
        · exact ⟨rfl, .refl _ c, h⟩
      · rw [if_neg (by rw [h e d (hd ▸ List.mem_cons_self)]; simp)]
        exact ⟨rfl, .refl _ c, h⟩

/-- A descriptor that has blocks to issue or in flight keeps its place. -/
theorem Sys.copySettle_waits {y : Sys} {c e : Nat} {d : Desc} (h : (y.chip.eng c e).descs = [d]) (hf : d.forced = none)
    (hs : d.settled = false) : y.copySettle c e = y := by
  unfold Sys.copySettle
  rw [h, List.length_singleton, Sys.copyDone]
  dsimp only
  rw [h]
  dsimp only
  rw [hf]
  dsimp only
  rw [if_neg (by rw [hs]; simp)]

theorem Sys.copySettle_completes {y : Sys} {c e : Nat} {d : Desc} (h : (y.chip.eng c e).descs = [d]) (hf : d.forced = none)
    (hs : d.settled = true) (hw : y.chip.wordHeld c d = false) : y.copySettle c e = y.completeDesc c e d := by
  unfold Sys.copySettle
  rw [h, List.length_singleton, Sys.copyDone]
  dsimp only
  rw [h]
  dsimp only
  rw [hf]
  dsimp only
  rw [if_pos ⟨hs, hw⟩]
  rfl

theorem Chip.wordHeld_own {s : Chip} {c : Nat} {d : Desc} (h9 : db d.ws 0 9 = false) (hz : s.stFrozen c = false) :
    s.wordHeld c d = false := by
  simp [Chip.wordHeld, h9, hz]

/-! ## Completion (R127) -/

@[simp] theorem length_copyWord (st : Status) (late : Bool) (opc tag blks : Nat) :
    (copyWord st late opc tag blks).length = 8 := by
  rw [copyWord, length_leBytes]

/-- The completion word of a descriptor. -/
def Desc.word (d : Desc) : List Byte := copyWord d.status d.late d.opc (dw d.ws 1 15 0) d.ok

theorem Chip.eng_completeDesc (y : Sys) (c e : Nat) (d : Desc) :
    (y.completeDesc c e d).chip.eng c e =
      { (y.copyWordAt c d d.word).chip.eng c e with
        descs := ((y.copyWordAt c d d.word).chip.eng c e).descs.filter fun z => !(z.serial == d.serial) } := by
  have hflag : ∀ (t : Chip) {p : Prop} [Decidable p] (a n : Nat) (b : Bool),
      (if p then t.setFlag a n b else t).eng c e = t.eng c e := fun t p _ a n b => by split <;> rfl
  have hbump : ∀ (t : Chip) {p : Prop} [Decidable p] (a : Nat), (if p then t else t.bump a).eng c e = t.eng c e :=
    fun t p _ a => by split <;> rfl
  unfold Sys.completeDesc
  dsimp only
  rw [onChip_chip, hflag]
  split
  · rw [(Chip.reports_countErr ..).eng, hbump, Chip.eng_wrapBy, Chip.eng_setEng]
    rfl
  · rw [(Chip.reports_notice ..).eng, hbump, Chip.eng_wrapBy, Chip.eng_setEng]
    rfl
  · rw [hbump, Chip.eng_wrapBy, Chip.eng_setEng]
    rfl

/-- R127: the one descriptor of an engine has completed with its word in the cluster's own store. -/
structure Sys.copyEnds (y z : Sys) (c e : Nat) (d : Desc) : Prop where
  descs : (z.chip.eng c e).descs = []
  cur : (z.chip.eng c e).cur = (y.chip.eng c e).cur
  word : KMap.bytes z.mem.store (stKey c d.cmplPtr) 8 = d.word

theorem Sys.copyEnds_completeDesc {y : Sys} {c e : Nat} {d : Desc} (h : (y.chip.eng c e).descs = [d]) (hc : y.Calm c)
    (h6 : db d.ws 0 6 = true) (h9 : db d.ws 0 9 = false) (h4 : d.cmplPtr % 4 = 0) :
    y.copyEnds (y.completeDesc c e d) c e d := by
  have hword : y.copyWordAt c d d.word = y.withStore (KMap.store y.mem.store (stKey c d.cmplPtr) d.word) := by
    unfold Sys.copyWordAt
    rw [if_neg (by rw [h6]; decide), if_neg (by rw [h9]; decide)]
    exact Sys.stWrite_words hc h4 (by simp [Desc.word])
  have heng := Chip.eng_completeDesc y c e d
  rw [hword] at heng
  refine ⟨by rw [heng]; simp [h], by rw [heng]; rfl, ?_⟩
  have hmem : (y.completeDesc c e d).mem = (y.copyWordAt c d d.word).mem := rfl
  rw [hmem, hword]
  exact bytes_store_of_length (by simp [Desc.word])

/-- R124, R127: where the one descriptor of an engine has settled, it completes. -/
theorem Sys.copyEnds_settle {y : Sys} {c e : Nat} {d : Desc} (h : (y.chip.eng c e).descs = [d]) (hf : d.forced = none)
    (hs : d.settled = true) (hz : y.chip.stFrozen c = false) (hc : y.Calm c) (h6 : db d.ws 0 6 = true)
    (h9 : db d.ws 0 9 = false) (h4 : d.cmplPtr % 4 = 0) : y.copyEnds (y.copySettle c e) c e d := by
  rw [Sys.copySettle_completes h hf hs (Chip.wordHeld_own h9 hz)]
  exact Sys.copyEnds_completeDesc h hc h6 h9 h4

theorem Chip.stFrozen_setEng (s : Chip) (c e : Nat) (x : Eng) (d : Nat) : (s.setEng c e x).stFrozen d = s.stFrozen d := by
  rw [Chip.stFrozen, Chip.frozen, Chip.flag_setEng, Chip.stFrozen, Chip.frozen]

/-! ## An engine at the head of its queue (R122 to R124) -/

/-- An engine at rest that may read the descriptor at the head of its queue. -/
structure Sys.headAt (y : Sys) (c e off : Nat) (rest : List Nat) : Prop where
  queue : (y.chip.eng c e).queue = off :: rest
  cur : (y.chip.eng c e).cur = none
  descs : (y.chip.eng c e).descs = []
  struck : (y.chip.eng c e).struck = none
  runs : y.chip.frozen (cpPg c e) = false
  grants : y.chip.stFrozen c = false
  marks : y.mem.storeMark = []
  inside : off + 32 ≤ 0x200000

/-- The words of the descriptor at a store offset. -/
def Sys.wordsAt (y : Sys) (c off : Nat) : List Word := wordsOf (KMap.bytes y.mem.store (stKey c off) 32)

theorem Sys.headAt.take {y : Sys} {c e off : Nat} {rest : List Nat} (h : y.headAt c e off rest) :
    (y.chip.eng c e).take = { y.chip.eng c e with queue := rest } := by
  rw [Eng.take, h.cur]
  dsimp only
  rw [h.queue, h.struck, h.cur]
  rfl

theorem Sys.reachDesc_head {y : Sys} {c e off : Nat} {rest : List Nat} (h : y.headAt c e off rest) {want : Nat → Bool}
    {ready : Chip → Bool} (run : Nat → List Word → Chip → Chip) (hwant : want (dw (y.wordsAt c off) 0 3 0) = true) :
    (copyBad c off (y.wordsAt c off) = true →
      y.reachDesc c e want ready run = onChip (fun s => s.refuseDesc c e off) y) ∧
    (copyBad c off (y.wordsAt c off) = false → ready y.chip = true →
      y.reachDesc c e want ready run = (onChip (run off (y.wordsAt c off)) y).copySettle c e) := by
  have hreach : (y.chip.eng c e).reach = some off := by simp [Eng.reach, h.cur, h.descs, h.queue]
  have hhit : (y.chip.eng c e).hit = 0 := by simp [Eng.hit, h.cur, h.struck]
  have hmay : ∀ b, (y.chip.eng c e).mayStart b = true := fun b => by simp [Eng.mayStart, h.descs]
  have hws : (if 0x200000 < off + 32 then [] else wordsOf (KMap.bytes y.mem.store (stKey c off) 32)) = y.wordsAt c off :=
    if_neg (by have := h.inside; omega)
  unfold Sys.reachDesc
  dsimp only
  rw [hreach]
  dsimp only
  rw [if_neg (by rw [h.runs, h.grants]; simp), Sys.stRead_clean y c off 32 h.marks]
  dsimp only
  rw [hws, hhit, if_neg (by rw [hwant, hmay]; simp), if_neg (by decide)]
  refine ⟨fun hb => ?_, fun hb hr => ?_⟩
  · rw [if_pos (.inl hb)]
    rfl
  · rw [if_neg (by rw [hb]; simp), if_neg (by
      have : (onChip (fun s => if (0 : Nat) = 1 then
        (s.setEng c e { s.eng c e with struck := none }).countErr (cpPg c e) 1 0 0 true else s) y).chip = y.chip := rfl
      rw [this, hr]
      decide)]
    rfl

/-- The engine has started the descriptor at the head of its queue, changed by f. -/
theorem Sys.eng_startDesc {y : Sys} {c e off : Nat} {rest : List Nat} (h : y.headAt c e off rest) (ws : List Word)
    (f : Desc → Desc) :
    (y.chip.startDesc c e off ws f).eng c e = { y.chip.eng c e with
      queue := rest
      cur := if db ws 0 4 then some (off + 32) else none
      serial := (y.chip.eng c e).serial + 1
      descs := [f (descOf y.chip c (y.chip.eng c e).serial off ws)] } := by
  rw [Chip.startDesc, Chip.eng_setEng, h.take]
  dsimp only
  rw [h.descs]
  rfl

theorem Chip.engines_startDesc (s : Chip) (c e off : Nat) (ws : List Word) (f : Desc → Desc) :
    s.engines (s.startDesc c e off ws f) c := Chip.engines_setEng ..

theorem Sys.Calm.startDesc {y : Sys} {d : Nat} (h : y.Calm d) (c e off : Nat) (ws : List Word) (f : Desc → Desc) :
    (onChip (fun s => s.startDesc c e off ws f) y).Calm d := h.setEng ..

/-- R123: the engine has refused the head of its queue. -/
theorem Sys.eng_refuseDesc {y : Sys} {c e off : Nat} {rest : List Nat} (h : y.headAt c e off rest) :
    (y.chip.refuseDesc c e off).eng c e = { y.chip.eng c e with queue := rest } := by
  rw [Chip.refuseDesc, (Chip.reports_notice ..).eng, Chip.eng_setFlag, Chip.eng_setReg, Chip.eng_setEng, h.take]
  rw [← h.cur]

/-- R123: an offset and a number of blocks that pass the checks. -/
theorem copyBad_good {c off : Nat} {ws : List Word} (h : copyBad c off ws = false) :
    dw ws 7 20 0 % 8 = 0 ∧ (dw ws 0 3 0 ≠ 4 → dw ws 5 10 0 ≠ 0) := by
  unfold copyBad at h
  simp only [Bool.or_eq_false_iff, decide_eq_false_iff_not, bne_eq_false_iff_eq, Bool.and_eq_false_iff] at h
  omega

end Sys2Proof.Machine

/-! PROOF of O27 (R140 to R143, R353): TABLE_WRITE, preloads and table walks. -/

namespace Sys2Proof.Machine

-- One after the other: side by side the proofs ask for more memory than the check grants.
set_option Elab.async false

open Laws

/-! ## Memory of a controller's activations and writes (R172, R176) -/

@[simp] theorem Chip.mc_setMc (s : Chip) (n : Nat) (m : Mc) : (s.setMc n m).mc n = m := at_put_self ..

theorem Chip.Reports.mc {s t : Chip} (h : s.Reports t) (n : Nat) : t.mc n = s.mc n := by
  rw [Chip.mc, h.mcs, Chip.mc]

/-- R172: an activation leaves the poison table. -/
theorem Chip.poison_activate (s : Chip) (n k r x : Nat) : ((s.activate n k r x).mc n).poison = (s.mc n).poison := by
  unfold Chip.activate
  dsimp only
  split
  · rw [Chip.mc_setMc]
  · have h : ∀ (m : Mc) (p : Nat) (v w : Word), m.poison = (s.mc n).poison →
        ((((((s.setMc n m).setReg (p + 0x64) v).setReg (p + 0x68) w).bump (p + 0x6C)).notice p 3).mc n).poison =
          (s.mc n).poison := fun m p v w hm => by
      rw [(Chip.reports_notice ..).mc, ← hm]
      exact congrArg Mc.poison (s.mc_setMc n m)
    split
    · exact h _ _ _ _ rfl
    · exact h _ _ _ _ rfl

theorem Chip.isDefect_activateBlk (s : Chip) (n b b' x : Nat) : (s.activateBlk n b x).isDefect n b' = s.isDefect n b' := by
  unfold Chip.activateBlk Chip.isDefect
  dsimp only
  rw [Chip.poison_activate, Chip.poison_activate]

/-- R156: what writing a whole block leaves in the memories. -/
theorem Sys.mem_writeFwd {y : Sys} {n b : Nat} (h : y.chip.isDefect n b = false) (d : List Byte) (src : BlkSrc) :
    (y.writeFwd n b d src).mem.pool = KMap.store y.mem.pool (2048 * b) d ∧
      (y.writeFwd n b d src).mem.store = y.mem.store := by
  have hw : (y.writeBlk n b 0 d).mem.pool = KMap.store y.mem.pool (2048 * b) d ∧
      (y.writeBlk n b 0 d).mem.store = y.mem.store := by
    unfold Sys.writeBlk
    rw [if_neg (by rw [h]; decide)]
    dsimp only
    split
    · exact ⟨rfl, rfl⟩
    · exact ⟨rfl, rfl⟩
  unfold Sys.writeFwd
  dsimp only
  split
  · exact hw
  · exact hw

/-! ## TABLE_WRITE (R140, R353) -/

/-- R140: one whole block is one part. -/
theorem tableParts_whole {off : Nat} {data : List Byte} (ho : off % 2048 = 0) (hd : data.length = 2048) :
    tableParts off data = [(off / 2048, 0, data)] := by
  have hblocks : blocksOf off 2048 = [(off / 2048, 0, 2048)] := by
    have hn : (off + 2048 - 1) / 2048 + 1 - off / 2048 = 1 := by omega
    have hlen : min 2048 (off + 2048 - 2048 * (off / 2048)) = 2048 := by omega
    rw [blocksOf, hn]
    simp only [List.range_one, List.map_cons, List.map_nil, if_true, Nat.add_zero, ho, hlen, Nat.sub_zero]
  have hdrop : 2048 * (off / 2048) - off = 0 := by omega
  have htake : data.take 2048 = data := List.take_of_length_le (by omega)
  unfold tableParts
  rw [hd, hblocks]
  simp [hdrop, htake]

/-- R140: the part of one whole block. -/
theorem Sys.tablePart_whole {y : Sys} {b x : Nat} {data : List Byte} (hd : data.length = 2048)
    (hmc : y.chip.mcTurnsAway (y.chip.ctrlOf b) = none) (hdef : y.chip.isDefect (y.chip.ctrlOf b) b = false) :
    (y.tablePart x (b, 0, data)).1 = .ok ∧
      (y.tablePart x (b, 0, data)).2.mem.pool = KMap.store y.mem.pool (2048 * b) data ∧
      (y.tablePart x (b, 0, data)).2.mem.store = y.mem.store := by
  have hdef' : (onChip (fun s => s.activateBlk (y.chip.ctrlOf b) b x) y).chip.isDefect (y.chip.ctrlOf b) b = false := by
    rw [onChip_chip, Chip.isDefect_activateBlk, hdef]
  unfold Sys.tablePart
  dsimp only
  rw [hmc]
  dsimp only
  rw [if_neg (by rw [hdef']; decide), if_pos hd]
  obtain ⟨hp, hst⟩ := Sys.mem_writeFwd hdef' data (.triad b)
  exact ⟨rfl, hp, hst⟩

theorem exec_tableWrite_eq {s : State} {q : CmdReq} (off : Nat) (data : List Byte) (h : s.sys.chip.takesCmd q false) :
    exec (.tableWrite q off data) s = .next { s with
      sys :=
        if off % 8 = 0 ∧ data.length % 8 = 0 ∧ 8 ≤ data.length ∧ data.length ≤ 8192 ∧
            s.sys.chip.tableOk (s.sys.chip.sessPart q.session) off data.length = true then
          onChip (fun t => t.cmdAnswer q (Sys.tableAll (onChip (fun s => s.leaveIngress q) s.sys)
              (hostX (s.sys.chip.sessHost q.session)) (tableParts off data)).1 0)
            (Sys.tableAll (onChip (fun s => s.leaveIngress q) s.sys) (hostX (s.sys.chip.sessHost q.session))
              (tableParts off data)).2
        else { s.sys with chip := (s.sys.chip.leaveIngress q).cmdAnswer q .noAccess 0 } } := by
  have hexec : exec (.tableWrite q off data) s = execTableWrite q off data s := (rfl)
  obtain ⟨hwait, halone, haway⟩ := h
  rw [hexec, execTableWrite, liftS]
  dsimp only
  rw [if_neg (by rw [hwait]; decide), Sys.turnOf, if_neg (by rw [halone]; decide)]
  rw [onChip_chip, Chip.turnedAway_ingress _ _ _ haway]
  rfl

/-- R140, R353: one whole block of the area. -/
theorem tableWrite_whole {s : State} {q : CmdReq} {off : Nat} {data : List Byte} (h : s.sys.chip.takesCmd q false)
    (ho : off % 2048 = 0) (hd : data.length = 2048)
    (hok : s.sys.chip.tableOk (s.sys.chip.sessPart q.session) off 2048 = true)
    (hmc : s.sys.chip.mcTurnsAway (s.sys.chip.ctrlOf (off / 2048)) = none)
    (hdef : s.sys.chip.isDefect (s.sys.chip.ctrlOf (off / 2048)) (off / 2048) = false) :
    ∃ z, exec (.tableWrite q off data) s = .next { s with sys := z } ∧
      z.mem.pool = KMap.store s.sys.mem.pool off data ∧ z.mem.store = s.sys.mem.store ∧ z.chip.answeredIs q .ok 0 := by
  obtain ⟨h1, h2, h3⟩ := Sys.tablePart_whole (y := onChip (fun s => s.leaveIngress q) s.sys)
    (x := hostX (s.sys.chip.sessHost q.session)) hd hmc hdef
  have hall : Sys.tableAll (onChip (fun s => s.leaveIngress q) s.sys) (hostX (s.sys.chip.sessHost q.session))
      (tableParts off data) = (.ok, (Sys.tablePart (onChip (fun s => s.leaveIngress q) s.sys)
        (hostX (s.sys.chip.sessHost q.session)) (off / 2048, 0, data)).2) := by
    rw [tableParts_whole ho hd, Sys.tableAll]
    generalize Sys.tablePart _ _ _ = r at h1
    obtain ⟨st, z⟩ := r
    dsimp only at h1 ⊢
    rw [h1]
    rfl
  refine ⟨_, exec_tableWrite_eq off data h, ?_⟩
  rw [if_pos ⟨by omega, by omega, by omega, by omega, by rw [hd]; exact hok⟩, hall, onChip_mem, h2, h3,
    show 2048 * (off / 2048) = off by omega]
  exact ⟨rfl, rfl, Chip.answeredIs_cmdAnswer ..⟩

theorem tableWrite_refused {s : State} {q : CmdReq} {off : Nat} {data : List Byte} (h : s.sys.chip.takesCmd q false)
    (hbad : off % 8 ≠ 0 ∨ data.length % 8 ≠ 0 ∨ data.length = 0 ∨ 8192 < data.length ∨
      s.sys.chip.tableOk (s.sys.chip.sessPart q.session) off data.length = false) :
    Answers (.tableWrite q off data) s s.sys.chip q .noAccess 0 := by
  refine answers_of_exec ?_
  rw [exec_tableWrite_eq off data h, if_neg]
  rintro ⟨h1, h2, h3, h4, h5⟩
  rw [h5] at hbad
  simp only [Bool.true_eq_false, or_false] at hbad
  omega

/-! ## Preloads (R143) -/

/-- R143: what a write of CL_TLB_PRE_HI with GO stores. -/
def preHi (v : Word) : Word := (v &&& 0x1ffff) ||| 0x80000000

theorem preHi_bits (v : Word) : Word.bits (preHi v) 15 0 = Word.bits v 15 0 := by
  unfold preHi
  apply Nat.eq_of_testBit_eq
  intro i
  simp only [testBit_bits, BitVec.getLsbD_or, BitVec.getLsbD_and]
  by_cases h : i < 16
  · interval_cases i <;> simp
  · simp [show ¬ i < 15 + 1 - 0 by omega]

theorem preHi_go (v : Word) : Word.bit (preHi v) 31 = true := by
  rw [preHi, Word.bit, BitVec.getLsbD_or]
  simp

/-- R143: a preload is in progress for a page; CL_TLB_PRE_HI stands at address a. -/
def Chip.preBegunAt (s : Chip) (c a : Nat) (v : Word) : Chip :=
  (s.setReg a (preHi v)).setCl c { s.cl c with pre := some ((s.setReg a (preHi v)).prePage c, Word.bit v 16) }

def Chip.preBegun (s : Chip) (c : Nat) (v : Word) : Chip := s.preBegunAt c (tlbPg c + 0x54) v

/-- R143: the page a write of CL_TLB_PRE_HI names. -/
def Chip.preNames (s : Chip) (c : Nat) (v : Word) : Nat := s.fld (tlbPg c + 0x50) 31 21 + 2048 * Word.bits v 15 0

/-- R143: a write of CL_TLB_PRE_HI, which stands at address a. -/
def Chip.preWrite (c : Nat) (v : Word) (a : Nat) (s : Chip) : Chip :=
  let busy := s.flag a 31
  let s := s.setReg a ((v &&& 0x1ffff) ||| if busy || Word.bit v 31 then 0x80000000 else 0)
  if busy = false ∧ Word.bit v 31 = true then
    (s.setCl c { s.cl c with pre := some (s.prePage c, Word.bit v 16) }).preGo c
  else s

theorem Chip.preWrite_go {s : Chip} {a : Nat} {v : Word} (c : Nat) (hbusy : s.flag a 31 = false)
    (hgo : Word.bit v 31 = true) : s.preWrite c v a = (s.preBegunAt c a v).preGo c := by
  unfold Chip.preWrite
  dsimp only
  rw [if_pos ⟨hbusy, hgo⟩, hbusy, hgo]
  rfl

theorem exec_tlbPreload_eq {s : State} {c : ClusterNo} {v : Word} (hbusy : s.sys.chip.flag (tlbPg c + 0x54) 31 = false)
    (hgo : Word.bit v 31 = true) :
    exec (.tlbPreload c v) s = .next { s with sys := onChip (fun t => (t.preBegun c v).preGo c) s.sys } := by
  have hexec : exec (.tlbPreload c v) s =
      .next { s with sys := onChip (fun t => t.preWrite c v (tlbPg c + 0x54)) s.sys } := (rfl)
  rw [hexec, onChip, onChip, Chip.preWrite_go _ hbusy hgo, Chip.preBegun]

theorem Chip.preBegun_cl (s : Chip) (c : Nat) (v : Word) :
    (s.preBegun c v).cl c = { s.cl c with pre := some (s.preNames c v, Word.bit v 16) } := by
  have hpage : (s.setReg (tlbPg c + 0x54) (preHi v)).prePage c = s.preNames c v := by
    rw [Chip.prePage, Chip.fld_setReg_ne _ _ _ _ (by omega), Chip.preNames]
    rw [show (s.setReg (tlbPg c + 0x54) _).fld (tlbPg c + 0x54) 15 0 = Word.bits _ 15 0 from
      congrArg (Word.bits · 15 0) (Chip.reg_setReg ..), preHi_bits]
  rw [Chip.preBegun, Chip.preBegunAt, Chip.cl_setCl, hpage]

theorem Chip.preBegun_parts (s : Chip) (c : Nat) (v : Word) : (s.preBegun c v).parts = s.parts := by
  have h : ∀ (t : Chip) (x : Cl), (t.setCl c x).parts = t.parts := fun _ _ => rfl
  rw [Chip.preBegun, Chip.preBegunAt, h, Chip.setReg_parts]

theorem Chip.preBegun_ownerOf (s : Chip) (c d : Nat) (v : Word) : (s.preBegun c v).ownerOf d = s.ownerOf d := by
  rw [Chip.ownerOf, Chip.preBegun_parts, Chip.ownerOf]

theorem Chip.preBegun_ctxAt (s : Chip) (c x : Nat) (v : Word) : (s.preBegun c v).ctxAt x = s.ctxAt x := by
  rw [Chip.ctxAt, Chip.preBegun_parts, Chip.ctxAt]

theorem Chip.preBegun_invHolds (s : Chip) (c x pg : Nat) (v : Word) : (s.preBegun c v).invHolds x pg = s.invHolds x pg := by
  rw [Chip.invHolds, Chip.preBegun_parts, Chip.invHolds]

/-- R143: a preload whose cluster no context owns. -/
theorem Chip.preGo_unowned {s : Chip} {c : Nat} (hp : ((s.cl c).pre).isSome = true) (hw : (s.cl c).walks = [])
    (ho : s.ownerOf c = none) : s.preGo c = s.preEnds c 1 := by
  obtain ⟨g, hg⟩ := Option.isSome_iff_exists.1 hp
  unfold Chip.preGo
  rw [hg, hw, ho]
  rfl

theorem Chip.preGo_owned {s : Chip} {c x pg : Nat} {b : Bool} (hp : (s.cl c).pre = some (pg, b)) (hw : (s.cl c).walks = [])
    (ho : s.ownerOf c = some x) (hi : s.invHolds x pg = false) (hl : pg / 512 < (s.ctxAt x).l1n) :
    s.preGo c = s.walkRead c ⟨2, x, pg, 1⟩ ((s.ctxAt x).root + 8 * (pg / 512)) := by
  have hstart : s.walkStart c 2 x pg = (true, s.walkRead c ⟨2, x, pg, 1⟩ ((s.ctxAt x).root + 8 * (pg / 512))) := by
    unfold Chip.walkStart
    dsimp only
    rw [if_neg (by omega)]
  unfold Chip.preGo
  rw [hp, hw, ho]
  dsimp only
  rw [List.any_nil, if_neg (by decide), if_neg (by rw [hi]; decide), hstart]

/-- R142: a walk has started its read. -/
theorem Chip.walks_walkRead (s : Chip) (c : Nat) (w : Walk) (a : Nat) :
    ((s.walkRead c w a).cl c).walks = (s.cl c).walks ++ [w] := by
  unfold Chip.walkRead
  dsimp only
  rw [Chip.cl_bump, Chip.cl_setCl]
  rfl

theorem Chip.flag_walkRead (s : Chip) (c : Nat) (w : Walk) (a b n : Nat) (h : tlbPg c + 0x48 ≠ b) :
    (s.walkRead c w a).flag b n = s.flag b n := by
  unfold Chip.walkRead
  dsimp only
  exact Chip.flag_setReg_ne _ _ _ h

/-- R143, R152: the result of a preload, which is no longer in progress. -/
theorem Chip.preEnds_regs (s : Chip) (c r : Nat) :
    (s.preEnds c r).reg (tlbPg c + 0x58) = BitVec.ofNat 32 r ∧ (s.preEnds c r).flag (tlbPg c + 0x54) 31 = false := by
  unfold Chip.preEnds
  dsimp only
  exact ⟨Chip.reg_setReg .., by rw [Chip.flag_setReg_ne _ _ _ (by omega), Chip.flag_setFlag _ _ _ (by decide)]⟩

theorem Chip.preEnds_cl (s : Chip) (c r : Nat) : (s.preEnds c r).cl c = { s.cl c with pre := none } := by
  unfold Chip.preEnds
  dsimp only
  rw [Chip.cl_setReg, Chip.cl_setFlag, Chip.cl_setCl]

/-! ## Walks (R142) -/

theorem Chip.cl_setTlb (s : Chip) (c i : Nat) (t : Option TlbEnt) :
    (s.setTlb c i t).cl c = { s.cl c with tlb := KMap.put (s.cl c).tlb none i t } := Chip.cl_setCl ..

/-- Cluster c's TLB holds an entry that translates as t does. -/
def Chip.holdsTlb (s : Chip) (c : Nat) (t : TlbEnt) : Prop :=
  ∃ i t', s.tlbAt c i = some t' ∧ t'.ctx = t.ctx ∧ t'.page = t.page ∧ t'.pa = t.pa

theorem Chip.holdsTlb_setTlb (s : Chip) (c i : Nat) {t t' : TlbEnt} (h : t'.ctx = t.ctx ∧ t'.page = t.page ∧ t'.pa = t.pa) :
    (s.setTlb c i (some t')).holdsTlb c t :=
  ⟨i, t', by rw [Chip.tlbAt, Chip.cl_setTlb]; exact at_put_self none (s.cl c).tlb i (some t'), h⟩

/-- R141: an installed entry is there, and no walk is touched. -/
theorem Chip.tlbInstall_holds (s : Chip) (c : Nat) (t : TlbEnt) :
    (s.tlbInstall c t).holdsTlb c t ∧ ((s.tlbInstall c t).cl c).walks = (s.cl c).walks := by
  have hcl : (s.strike (tlbPg c)).2.cl c = s.cl c := (s.reports_strike _).cl c
  unfold Chip.tlbInstall
  dsimp only
  generalize hu : Chip.setCl (s.strike (tlbPg c)).2 c _ = u
  have hw : (u.cl c).walks = (s.cl c).walks := by rw [← hu, Chip.cl_setCl, ← hcl]
  split
  · exact ⟨Chip.holdsTlb_setTlb _ _ _ ⟨rfl, rfl, rfl⟩, by rw [Chip.cl_setTlb, ← hw]⟩
  · split
    · exact ⟨Chip.holdsTlb_setTlb _ _ _ ⟨rfl, rfl, rfl⟩, by rw [Chip.cl_setTlb, ← hw]⟩
    · generalize u.tlbNext c (u.cl c).tlbPtr = i
      obtain ⟨k, t', hk, ht⟩ := Chip.holdsTlb_setTlb u c i
        (t := t) (t' := { t with flips := (s.strike (tlbPg c)).1, ent := ((s.strike (tlbPg c)).2.cl c).tlbSeq })
        ⟨rfl, rfl, rfl⟩
      refine ⟨⟨k, t', ?_, ht⟩, ?_⟩
      · rw [← hk, Chip.tlbAt, Chip.cl_setCl, Chip.tlbAt]
      · rw [Chip.cl_setCl, Chip.cl_setTlb, ← hw]

/-- R142: what a served read of cluster c's only walk leaves for it to say. -/
def Chip.walkTaken (s : Chip) (c e : Nat) : Chip :=
  let s := { s with accs := s.accs.filter fun x => !(x.src == BlkSrc.walk c e) }
  s.setCl c { s.cl c with walks := (s.cl c).walks.filter fun w => !(w.e == e) }

theorem Chip.walkTaken_cl {s : Chip} {c e : Nat} {w : Walk} (hw : (s.cl c).walks = [w]) (he : w.e = e) :
    (s.walkTaken c e).cl c = { s.cl c with walks := [] } := by
  have hacc : ({ s with accs := s.accs.filter fun x => !(x.src == BlkSrc.walk c e) } : Chip).cl c = s.cl c := rfl
  rw [Chip.walkTaken]
  dsimp only
  rw [Chip.cl_setCl, hacc, hw]
  simp [he]

/-- R142: the read of a walk has returned, and no descriptor settles. -/
theorem exec_walkReadDone_ends {s : State} {c : ClusterNo} {e : Nat} {w : Walk} {a : Acc} {t : Chip}
    (hw : (s.sys.chip.cl c).walks = [w]) (he : w.e = e)
    (ha : s.sys.chip.accs.find? (fun a => a.src == BlkSrc.walk c e && a.phase == .served) = some a) (hok : a.st = .ok)
    (ht : (s.sys.chip.walkTaken c e).walkEnds c w (s.sys.chip.walkStep w (leNat a.data)) = t) (hu : t.unsettled c) :
    ∃ z, exec (.walkReadDone c e) s = .next { s with sys := z } ∧ z.mem = s.sys.mem ∧ t.engines z.chip c := by
  have hexec : exec (.walkReadDone c e) s = execWalkReadDone c e s := (rfl)
  have hfind : (s.sys.chip.cl c).walks.find? (fun w => w.e == e) = some w := by rw [hw]; simp [he]
  have hsettle : ∀ (y : Sys) (g : Nat), y.chip.unsettled c → (y.copySettle c g).mem = y.mem ∧
      y.chip.engines (y.copySettle c g).chip c ∧ (y.copySettle c g).chip.unsettled c :=
    fun y g h => Sys.copyDone_unsettled _ g h
  obtain ⟨hm0, hc0, hu0⟩ := hsettle { s.sys with chip := t } 0 hu
  obtain ⟨hm1, hc1, -⟩ := hsettle _ 1 hu0
  refine ⟨Sys.copySettle (Sys.copySettle { s.sys with chip := t } c 0) c 1, ?_, hm1.trans hm0, hc0.trans hc1⟩
  rw [hexec, execWalkReadDone, liftS]
  dsimp only
  rw [hfind, ha]
  dsimp only
  rw [if_pos hok, ← ht]
  rfl

theorem Chip.unsettled_of_cl {s t : Chip} {c : Nat} (h : s.unsettled c) (h0 : (t.cl c).eng0 = (s.cl c).eng0)
    (h1 : (t.cl c).eng1 = (s.cl c).eng1) : t.unsettled c := by
  intro g d hd
  rw [Chip.eng, h0, h1] at hd
  exact h g d hd

/-- R141, R143: installing an entry and ending a preload leave the engines. -/
theorem Chip.tlbInstall_eng (s : Chip) (c : Nat) (t : TlbEnt) :
    ((s.tlbInstall c t).cl c).eng0 = (s.cl c).eng0 ∧ ((s.tlbInstall c t).cl c).eng1 = (s.cl c).eng1 := by
  have hcl : (s.strike (tlbPg c)).2.cl c = s.cl c := (s.reports_strike _).cl c
  unfold Chip.tlbInstall
  dsimp only
  generalize hu : Chip.setCl (s.strike (tlbPg c)).2 c _ = u
  have hw : (u.cl c).eng0 = (s.cl c).eng0 ∧ (u.cl c).eng1 = (s.cl c).eng1 := by rw [← hu, Chip.cl_setCl, ← hcl]; exact ⟨rfl, rfl⟩
  split
  · rw [Chip.cl_setTlb]; exact hw
  · split
    · rw [Chip.cl_setTlb]; exact hw
    · rw [Chip.cl_setCl, Chip.cl_setTlb]; exact hw

theorem Chip.walkRead_eng (s : Chip) (c : Nat) (w : Walk) (a : Nat) :
    ((s.walkRead c w a).cl c).eng0 = (s.cl c).eng0 ∧ ((s.walkRead c w a).cl c).eng1 = (s.cl c).eng1 := by
  unfold Chip.walkRead
  dsimp only
  rw [Chip.cl_bump, Chip.cl_setCl]
  exact ⟨rfl, rfl⟩

/-- R143: the leaf of a preload that pins nothing. -/
theorem Chip.preLeaf_free {s : Chip} {c : Nat} (h : ∀ g, (s.cl c).pre = some g → g.2 = false) (w : Walk) (t : TlbEnt) :
    s.preLeaf c w t = (s.tlbInstall c { t with pin := false }).preEnds c 0 := by
  have hpin : ((s.cl c).pre.map (·.2)).getD false = false := by
    cases hp : (s.cl c).pre with
    | none => rfl
    | some g => exact h g hp
  unfold Chip.preLeaf
  rw [hpin]
  dsimp only
  rw [if_neg (by simp)]

/-- R143: a preload in a cluster that no context owns. -/
theorem tlbPreload_unowned {s : State} {c : ClusterNo} {v : Word} (hbusy : s.sys.chip.flag (tlbPg c + 0x54) 31 = false)
    (hw : (s.sys.chip.cl c).walks = []) (hgo : Word.bit v 31 = true) (ho : s.sys.chip.ownerOf c = none) :
    ∃ z, exec (.tlbPreload c v) s = .next { s with sys := z } ∧ z.mem = s.sys.mem ∧
      z.chip.reg (tlbPg c + 0x58) = 1 ∧ z.chip.flag (tlbPg c + 0x54) 31 = false := by
  have hcl := s.sys.chip.preBegun_cl c v
  refine ⟨_, exec_tlbPreload_eq hbusy hgo, onChip_mem .., ?_⟩
  rw [onChip_chip, Chip.preGo_unowned (s := s.sys.chip.preBegun c v) (by rw [hcl]; rfl) (by rw [hcl]; exact hw)
    (by rw [Chip.preBegun_ownerOf, ho])]
  exact Chip.preEnds_regs ..

theorem Chip.flag_preBegun (s : Chip) (c : Nat) (v : Word) : (s.preBegun c v).flag (tlbPg c + 0x54) 31 = true := by
  rw [Chip.preBegun, Chip.preBegunAt, Chip.flag_setCl, Chip.flag, Chip.reg_setReg, preHi_go]

/-- R143: a preload in a cluster that context x owns. -/
theorem tlbPreload_owned {s : State} {c : ClusterNo} {v : Word} {x : Nat}
    (hbusy : s.sys.chip.flag (tlbPg c + 0x54) 31 = false) (hw : (s.sys.chip.cl c).walks = [])
    (hgo : Word.bit v 31 = true) (ho : s.sys.chip.ownerOf c = some x)
    (hi : s.sys.chip.invHolds x (s.sys.chip.preNames c v) = false)
    (hl : s.sys.chip.preNames c v / 512 < (s.sys.chip.ctxAt x).l1n) :
    ∃ z, exec (.tlbPreload c v) s = .next { s with sys := z } ∧ z.mem = s.sys.mem ∧
      (z.chip.cl c).walks = [⟨2, x, s.sys.chip.preNames c v, 1⟩] ∧ z.chip.flag (tlbPg c + 0x54) 31 = true := by
  have hcl := s.sys.chip.preBegun_cl c v
  have hwalks : ((s.sys.chip.preBegun c v).cl c).walks = [] := by rw [hcl]; exact hw
  refine ⟨_, exec_tlbPreload_eq hbusy hgo, onChip_mem .., ?_⟩
  rw [onChip_chip, Chip.preGo_owned (by rw [hcl]) hwalks (by rw [Chip.preBegun_ownerOf, ho])
      (by rw [Chip.preBegun_invHolds, hi]) (by rw [Chip.preBegun_ctxAt]; exact hl), Chip.walks_walkRead, hwalks,
    Chip.flag_walkRead _ _ _ _ _ _ (by omega)]
  exact ⟨rfl, Chip.flag_preBegun ..⟩

theorem Chip.unsettled_walkTaken {s : Chip} {c : ClusterNo} {e : Nat} {w : Walk} (hw : (s.cl c).walks = [w])
    (he : w.e = e) (hu : ∀ (g : EngNo) d, d ∈ (s.eng c g).descs → d.settled = false) : (s.walkTaken c e).unsettled c := by
  have hcl := Chip.walkTaken_cl hw he
  refine Chip.unsettled_of_cl (s := s) (fun g d hd => ?_) (by rw [hcl]) (by rw [hcl])
  by_cases hg : g = 0
  · exact hu 0 d (by simpa [Chip.eng, hg] using hd)
  · exact hu 1 d (by simpa [Chip.eng, hg] using hd)

/-- R142: a walk whose entry names a table goes on. -/
theorem walkReadDone_next {s : State} {c : ClusterNo} {e p : Nat} {w : Walk} {a : Acc}
    (hw : (s.sys.chip.cl c).walks = [w]) (he : w.e = e)
    (hu : ∀ (g : EngNo) d, d ∈ (s.sys.chip.eng c g).descs → d.settled = false)
    (ha : s.sys.chip.accs.find? (fun a => a.src == BlkSrc.walk c e && a.phase == .served) = some a) (hok : a.st = .ok)
    (hp : s.sys.chip.walkStep w (leNat a.data) = .next p) :
    ∃ z, exec (.walkReadDone c e) s = .next { s with sys := z } ∧ z.mem = s.sys.mem ∧
      (z.chip.cl c).walks = [{ w with level := 2 }] := by
  obtain ⟨h0, h1⟩ := (s.sys.chip.walkTaken c e).walkRead_eng c { w with level := 2 } p
  obtain ⟨z, hexec, hm, hz⟩ := exec_walkReadDone_ends hw he ha hok rfl (by
    rw [hp]
    exact Chip.unsettled_of_cl (Chip.unsettled_walkTaken hw he hu) h0 h1)
  refine ⟨z, hexec, hm, ?_⟩
  rw [hz.walks, hp]
  refine (Chip.walks_walkRead ..).trans ?_
  rw [Chip.walkTaken_cl hw he]
  rfl

/-- R142, R143: the leaf that a preload's walk finds. -/
theorem walkReadDone_leaf {s : State} {c : ClusterNo} {w : Walk} {a : Acc} {t : TlbEnt}
    (hw : (s.sys.chip.cl c).walks = [w]) (he : w.e = 2)
    (hu : ∀ (g : EngNo) d, d ∈ (s.sys.chip.eng c g).descs → d.settled = false)
    (ha : s.sys.chip.accs.find? (fun a => a.src == BlkSrc.walk c 2 && a.phase == .served) = some a) (hok : a.st = .ok)
    (hp : s.sys.chip.walkStep w (leNat a.data) = .leaf t) (hpin : ∀ g, (s.sys.chip.cl c).pre = some g → g.2 = false) :
    ∃ z, exec (.walkReadDone c 2) s = .next { s with sys := z } ∧ z.mem = s.sys.mem ∧
      (z.chip.cl c).walks = [] ∧ z.chip.reg (tlbPg c + 0x58) = 0 ∧ z.chip.holdsTlb c t := by
  have hcl := Chip.walkTaken_cl hw he
  have hend : (s.sys.chip.walkTaken c 2).walkEnds c w (.leaf t) =
      ((s.sys.chip.walkTaken c 2).tlbInstall c { t with pin := false }).preEnds c 0 := by
    rw [Chip.walkEnds]
    dsimp only
    rw [if_pos he, Chip.preLeaf_free (fun g hg => hpin g (by rw [hcl] at hg; exact hg))]
  obtain ⟨h0, h1⟩ := (s.sys.chip.walkTaken c 2).tlbInstall_eng c { t with pin := false }
  obtain ⟨⟨i, t', hi, ht⟩, hwalks⟩ := (s.sys.chip.walkTaken c 2).tlbInstall_holds c { t with pin := false }
  generalize (s.sys.chip.walkTaken c 2).tlbInstall c { t with pin := false } = u at hend h0 h1 hi hwalks
  have hpre := u.preEnds_cl c 0
  obtain ⟨z, hexec, hm, hz⟩ := exec_walkReadDone_ends hw he ha hok ((congrArg _ hp).trans hend)
    (Chip.unsettled_of_cl (Chip.unsettled_walkTaken hw he hu) (by rw [hpre]; exact h0) (by rw [hpre]; exact h1))
  refine ⟨z, hexec, hm, ?_, ?_, i, t', ?_, ht⟩
  · rw [hz.walks, hpre]
    exact hwalks.trans (by rw [hcl])
  · rw [hz.reg]
    exact (u.preEnds_regs c 0).1
  · rw [hz.tlbAt, Chip.tlbAt, hpre]
    exact hi

/-- Settles O27: TABLE_WRITE, preloads, and what the read of a walk leads to. -/
theorem translation : Obligations.Translation := by
  unfold Obligations.Translation
  intro s y
  refine ⟨fun q off data h => ⟨?_, ?_⟩, ?_, ?_⟩
  · intro ho hd hok n hmc hdef
    obtain ⟨z, hexec, hpool, hstore, hans⟩ := tableWrite_whole h ho hd hok hmc hdef
    refine ⟨z, hexec, ?_, hstore, fun a ha => ?_, hans⟩
    · rw [hpool]
      exact bytes_store_of_length hd
    · rw [hpool]
      exact at_store_out _ _ _ (by omega)
  · exact tableWrite_refused h
  · intro c v hbusy hw hgo
    refine ⟨tlbPreload_unowned hbusy hw hgo, ?_⟩
    intro x pg ho hi hl
    exact tlbPreload_owned hbusy hw hgo ho hi hl
  · intro c e w a hw he hu ha hok
    refine ⟨fun p hp => walkReadDone_next hw he hu ha hok hp, fun t hp he2 hpin => ?_⟩
    subst he2
    exact walkReadDone_leaf hw he hu ha hok hp hpin

end Sys2Proof.Machine

/-! PROOF of O28 (R122 to R125, R128): posting, checking and starting copy descriptors. -/

namespace Sys2Proof.Machine

-- One after the other: side by side the proofs ask for more memory than the check grants.
set_option Elab.async false

open Laws

/-! ## Posts (R122) -/

theorem cpPost_queues {s : State} {c : ClusterNo} {e : EngNo} {v : Word} (hf : s.sys.chip.isFenced (.copy c e) = false)
    (ha : Word.bits v 20 0 % 32 = 0) (hr : (s.sys.chip.eng c e).room = true) :
    ∃ z, exec (.cpPost c e .ccc v) s = .next { s with sys := z } ∧ z.mem = s.sys.mem ∧
      (z.chip.eng c e).queue = (s.sys.chip.eng c e).queue ++ [Word.bits v 20 0] ∧
      (z.chip.eng c e).descs = (s.sys.chip.eng c e).descs ∧ z.chip.regs = s.sys.chip.regs := by
  have hexec : exec (.cpPost c e .ccc v) s = execCpPost c e .ccc v s := (rfl)
  refine ⟨onChip (fun t => t.engPost c e (Word.bits v 20 0)) s.sys, ?_, onChip_mem .., ?_⟩
  · rw [hexec, execCpPost, liftC]
    dsimp only
    rw [if_neg (by rw [hf]; decide), if_neg (by rw [ha, hr]; simp)]
    rfl
  · have heng := (s.sys.chip.reports_strike (cpPg c e)).eng c e
    have hregs := s.sys.chip.strike_regs (cpPg c e)
    rw [onChip_chip, Chip.engPost]
    dsimp only
    rw [Chip.eng_setEng, heng]
    exact ⟨rfl, rfl, hregs⟩

theorem cpPost_overflows {s : State} {c : ClusterNo} {e : EngNo} {v : Word} (hf : s.sys.chip.isFenced (.copy c e) = false)
    (h : Word.bits v 20 0 % 32 ≠ 0 ∨ (s.sys.chip.eng c e).room = false) :
    ∃ z, exec (.cpPost c e .ccc v) s = .next { s with sys := z } ∧ z.mem = s.sys.mem ∧
      z.chip.eng c e = s.sys.chip.eng c e ∧ z.chip.flag (errStat (cpPg c e)) 0 = true := by
  have hexec : exec (.cpPost c e .ccc v) s = execCpPost c e .ccc v s := (rfl)
  refine ⟨onChip (fun t => t.notice (cpPg c e) 0) s.sys, ?_, onChip_mem .., ?_⟩
  · rw [hexec, execCpPost, liftC]
    dsimp only
    rw [if_neg (by rw [hf]; decide), if_pos h]
    rfl
  · rw [onChip_chip]
    exact ⟨(Chip.reports_notice ..).eng c e,
      Chip.notice_flag _ _ (by decide) (by unfold belowPt errStat cpPg clPg; have := c.isLt; have := e.isLt; omega)⟩

/-! ## What a start of each OPC comes to -/

theorem Chip.checkGo_idle {s : Chip} {c e : Nat} (h : (s.eng c e).descs = []) (n : Nat) : s.checkGo c e n = s := by
  have hnone : (s.eng c e).checking = none := by rw [Eng.checking, h]; rfl
  cases n with
  | zero => rfl
  | succ n =>
    rw [Chip.checkGo, hnone]

/-- R144: what COPY_RD and COPY_WR do at the head of the queue of an engine at rest. -/
theorem exec_copyPool_eq {s : State} {c : ClusterNo} {e : EngNo} (h : (s.sys.chip.eng c e).descs = []) :
    exec (.copyRd c e) s = .next { s with
      sys := s.sys.reachDesc c e (fun o => o != 2 && o != 3 && o != 4) (fun t => t.copiesRun c)
        (fun off ws t => t.startPool c e off ws) } ∧
    exec (.copyWr c e) s = .next { s with
      sys := s.sys.reachDesc c e (fun o => o == 2) (fun t => t.copiesRun c)
        (fun off ws t => t.startPool c e off ws) } := by
  have hrd : exec (.copyRd c e) s = execCopyRd c e s := (rfl)
  have hwr : exec (.copyWr c e) s = execCopyWr c e s := (rfl)
  have hidle : onChip (fun t => t.checkGo c e 4) s.sys = s.sys := by rw [onChip, Chip.checkGo_idle h]
  rw [hrd, hwr, execCopyRd, execCopyWr, liftS, liftS]
  dsimp only
  rw [hidle]
  exact ⟨rfl, rfl⟩

/-- R128: what COPY_XC does with a descriptor that passes its checks. -/
def Chip.startXc (s : Chip) (c e off : Nat) (ws : List Word) : Chip :=
  match s.xcStop c (dw ws 6 28 21) with
  | some st =>
    let s := s.startDesc c e off ws fun d => { d with stop := true, fails := [(0, st)] }
    s.setEng c e { s.eng c e with cur := none }
  | none => s.startDesc c e off ws id

/-- R125: what COPY_WAITT does with a descriptor that passes its checks. -/
def Chip.startWaitt (s : Chip) (c e off : Nat) (ws : List Word) : Chip :=
  if wideOf ws ≤ s.tickCopy then (s.startDesc c e off ws fun d => { d with late := true }).waittLate c e
  else s.startDesc c e off ws fun d => { d with waiting := true }

theorem exec_copyXc_eq (s : State) (c : ClusterNo) (e : EngNo) :
    exec (.copyXc c e) s = .next { s with
      sys := s.sys.reachDesc c e (fun o => o == 3) (fun _ => true) (fun off ws t => t.startXc c e off ws) } := (rfl)

theorem exec_copyWaitt_eq (s : State) (c : ClusterNo) (e : EngNo) :
    exec (.copyWaitt c e) s = .next { s with
      sys := s.sys.reachDesc c e (fun o => o == 4) (fun _ => true) (fun off ws t => t.startWaitt c e off ws) } := (rfl)

/-! ## Refused descriptors (R123) -/

/-- R123: whatever the OPC, the engine that picks it refuses a bad one. -/
theorem copy_refuses {s : State} {c : ClusterNo} {e : EngNo} {off : Nat} {rest : List Nat} (h : s.sys.headAt c e off rest)
    (hb : copyBad c off (s.sys.wordsAt c off) = true) {i : Instr} {opcs : List Nat}
    (hi : (i, opcs) ∈ [(.copyRd c e, 1 :: 0 :: (List.range 11).map (· + 5)),
      (.copyWr c e, [2]), (.copyXc c e, [3]), (.copyWaitt c e, [4])])
    (ho : dw (s.sys.wordsAt c off) 0 3 0 ∈ opcs) :
    exec i s = .next { s with sys := onChip (fun t => t.refuseDesc c e off) s.sys } := by
  simp only [List.mem_cons, Prod.mk.injEq, List.not_mem_nil, or_false] at hi
  obtain ⟨rfl, rfl⟩ | ⟨rfl, rfl⟩ | ⟨rfl, rfl⟩ | ⟨rfl, rfl⟩ := hi
  · rw [(exec_copyPool_eq h.descs).1, (Sys.reachDesc_head h _ (by
      have hne : dw (s.sys.wordsAt c off) 0 3 0 ≠ 2 ∧ dw (s.sys.wordsAt c off) 0 3 0 ≠ 3 ∧
          dw (s.sys.wordsAt c off) 0 3 0 ≠ 4 := by
        generalize dw (s.sys.wordsAt c off) 0 3 0 = o at ho
        simp only [List.mem_cons, List.mem_map, List.mem_range] at ho
        obtain rfl | rfl | ⟨k, -, rfl⟩ := ho <;> omega
      simp [hne])).1 hb]
  · rw [(exec_copyPool_eq h.descs).2, (Sys.reachDesc_head h _ (by simpa using ho)).1 hb]
  · rw [exec_copyXc_eq, (Sys.reachDesc_head h _ (by simpa using ho)).1 hb]
  · rw [exec_copyWaitt_eq, (Sys.reachDesc_head h _ (by simpa using ho)).1 hb]

theorem Chip.refuseDesc_regs (s : Chip) (c : ClusterNo) (e : EngNo) (off : Nat) :
    (s.refuseDesc c e off).reg (cpPg c e + 0x50) = BitVec.ofNat 32 (off % 0x200000) ∧
      (s.refuseDesc c e off).flag (cpPg c e + 0x54) 1 = true := by
  have hb : ∀ k, k < 0x1000 → belowPt (cpPg c e + k) := fun k hk => by
    unfold belowPt cpPg clPg; have := c.isLt; have := e.isLt; omega
  unfold Chip.refuseDesc
  dsimp only
  generalize Chip.setEng s c e _ = t
  refine ⟨?_, ?_⟩
  · rw [Chip.notice_reg _ _ _ (hb _ (by decide)) (by omega) (by omega), Chip.setFlag, Chip.setFld,
      Chip.reg_setReg_ne _ _ (by omega), Chip.reg_setReg]
  · rw [Chip.flag, Chip.notice_reg _ _ _ (hb _ (by decide)) (by omega) (by omega), ← Chip.flag,
      Chip.flag_setFlag _ _ _ (by decide)]

/-! ## XC (R124, R128) -/

theorem Desc.settled_of_blocks {d : Desc} (hs : d.stop = false) (hn : d.next < d.nblk) : d.settled = false := by
  simp [Desc.settled, Desc.issued, hs, hn]

theorem copyXc_starts {s : State} {c : ClusterNo} {e : EngNo} {off : Nat} {rest : List Nat} (h : s.sys.headAt c e off rest)
    (hg : copyBad c off (s.sys.wordsAt c off) = false) (ho : dw (s.sys.wordsAt c off) 0 3 0 = 3)
    (hx : s.sys.chip.xcStop c (dw (s.sys.wordsAt c off) 6 28 21) = none) :
    ∃ z, exec (.copyXc c e) s = .next { s with sys := z } ∧ z.mem = s.sys.mem ∧
      (z.chip.eng c e).queue = rest ∧
      (z.chip.eng c e).descs = [descOf s.sys.chip c (s.sys.chip.eng c e).serial off (s.sys.wordsAt c off)] ∧
      (z.chip.eng c e).cur = if db (s.sys.wordsAt c off) 0 4 then some (off + 32) else none := by
  have heng := Sys.eng_startDesc h (s.sys.wordsAt c off) id
  have hrun : s.sys.chip.startXc c e off (s.sys.wordsAt c off) = s.sys.chip.startDesc c e off (s.sys.wordsAt c off) id := by
    rw [Chip.startXc, hx]
  have hblk := (copyBad_good hg).2 (by omega)
  rw [exec_copyXc_eq, (Sys.reachDesc_head h _ (by simp [ho])).2 hg rfl, onChip, hrun,
    Sys.copySettle_waits (d := descOf s.sys.chip c (s.sys.chip.eng c e).serial off (s.sys.wordsAt c off))
      (by rw [heng]; rfl) rfl (Desc.settled_of_blocks rfl (Nat.pos_of_ne_zero hblk))]
  refine ⟨_, rfl, rfl, ?_⟩
  dsimp only
  rw [heng]
  exact ⟨rfl, rfl, rfl⟩

/-- R128: an XC descriptor that a status ends before its first block. -/
def Desc.barred (d : Desc) (st : Status) : Desc := { d with stop := true, fails := [(0, st)] }

theorem copyXc_barred {s : State} {c : ClusterNo} {e : EngNo} {off : Nat} {rest : List Nat} (h : s.sys.headAt c e off rest)
    (hg : copyBad c off (s.sys.wordsAt c off) = false) (ho : dw (s.sys.wordsAt c off) 0 3 0 = 3)
    (hx : s.sys.chip.xcStop c (dw (s.sys.wordsAt c off) 6 28 21) = some .noAccess)
    (h6 : db (s.sys.wordsAt c off) 0 6 = true) (h9 : db (s.sys.wordsAt c off) 0 9 = false) (hc : s.sys.Calm c) :
    ∃ z, exec (.copyXc c e) s = .next { s with sys := z } ∧ (z.chip.eng c e).descs = [] ∧ (z.chip.eng c e).cur = none ∧
      KMap.bytes z.mem.store (stKey c (dw (s.sys.wordsAt c off) 7 20 0)) 8 =
        copyWord .noAccess false 3 (dw (s.sys.wordsAt c off) 1 15 0) 0 := by
  have heng := Sys.eng_startDesc h (s.sys.wordsAt c off) fun d => d.barred .noAccess
  have h8 := (copyBad_good hg).1
  have hcalm : ({ s.sys with
      chip := s.sys.chip.startDesc c e off (s.sys.wordsAt c off) fun d => d.barred .noAccess } : Sys).Calm c :=
    hc.startDesc c e off (s.sys.wordsAt c off) fun d => d.barred .noAccess
  have hgrant : (s.sys.chip.startDesc c e off (s.sys.wordsAt c off) fun d => d.barred .noAccess).stFrozen c = false :=
    (Chip.stFrozen_setEng ..).trans h.grants
  have hrun : s.sys.chip.startXc c e off (s.sys.wordsAt c off) =
      (s.sys.chip.startDesc c e off (s.sys.wordsAt c off) fun d => d.barred .noAccess).setEng c e
        { (s.sys.chip.startDesc c e off (s.sys.wordsAt c off) fun d => d.barred .noAccess).eng c e with cur := none } := by
    rw [Chip.startXc, hx]
    rfl
  generalize hd : (descOf s.sys.chip c (s.sys.chip.eng c e).serial off (s.sys.wordsAt c off)).barred .noAccess = d at heng
  generalize s.sys.chip.startDesc c e off (s.sys.wordsAt c off) (fun d => d.barred .noAccess) = u at heng hcalm hgrant hrun
  have hws : d.ws = s.sys.wordsAt c off := by rw [← hd]; rfl
  have hword : d.word = copyWord .noAccess false 3 (dw (s.sys.wordsAt c off) 1 15 0) 0 := by
    rw [Desc.word, Desc.opc, hws, ho, ← hd]
    rfl
  have hend := Sys.copyEnds_settle (y := { s.sys with chip := u.setEng c e { u.eng c e with cur := none } }) (c := c)
    (e := e) (d := d) (by rw [Chip.eng_setEng, heng]) (by rw [← hd]; rfl) (by rw [← hd]; rfl)
    ((Chip.stFrozen_setEng ..).trans hgrant) (hcalm.setEng c e { u.eng c e with cur := none }) (by rw [hws]; exact h6)
    (by rw [hws]; exact h9) (by rw [Desc.cmplPtr, hws]; omega)
  rw [exec_copyXc_eq, (Sys.reachDesc_head h _ (by simp [ho])).2 hg rfl, onChip, hrun]
  refine ⟨_, rfl, hend.descs, ?_, ?_⟩
  · rw [hend.cur]
    dsimp only
    rw [Chip.eng_setEng]
  · rw [← hword, ← hws]
    exact hend.word

/-! ## WAITT (R125) -/

theorem copyWaitt_waits {s : State} {c : ClusterNo} {e : EngNo} {off : Nat} {rest : List Nat} (h : s.sys.headAt c e off rest)
    (hg : copyBad c off (s.sys.wordsAt c off) = false) (ho : dw (s.sys.wordsAt c off) 0 3 0 = 4)
    (ht : s.sys.chip.tickCopy < wideOf (s.sys.wordsAt c off)) :
    ∃ z, exec (.copyWaitt c e) s = .next { s with sys := z } ∧ z.mem = s.sys.mem ∧ (z.chip.eng c e).queue = rest ∧
      (z.chip.eng c e).descs =
        [{ descOf s.sys.chip c (s.sys.chip.eng c e).serial off (s.sys.wordsAt c off) with waiting := true }] ∧
      z.chip.regs = s.sys.chip.regs := by
  have heng := Sys.eng_startDesc h (s.sys.wordsAt c off) fun d => { d with waiting := true }
  have hrun : s.sys.chip.startWaitt c e off (s.sys.wordsAt c off) =
      s.sys.chip.startDesc c e off (s.sys.wordsAt c off) fun d => { d with waiting := true } := by
    rw [Chip.startWaitt, if_neg (by omega)]
  have hregs := (s.sys.chip.engines_startDesc c e off (s.sys.wordsAt c off) fun d => { d with waiting := true }).regs
  rw [exec_copyWaitt_eq, (Sys.reachDesc_head h _ (by simp [ho])).2 hg rfl, onChip, hrun,
    Sys.copySettle_waits (by rw [heng]) rfl (by simp [Desc.settled, Desc.issued])]
  refine ⟨_, rfl, rfl, ?_⟩
  dsimp only
  rw [heng]
  exact ⟨rfl, rfl, hregs⟩

theorem Chip.eng_waittLate (s : Chip) (c e d g : Nat) : (s.waittLate c e).eng d g = s.eng d g := by
  rw [Chip.waittLate, (Chip.reports_notice ..).eng, Chip.eng_bump]

/-- R125: marking a WAITT late leaves what a store write needs. -/
theorem Sys.Calm.waittLate {y : Sys} {d : Nat} (h : y.Calm d) (c e : Nat) : (onChip (fun s => s.waittLate c e) y).Calm d := by
  refine h.chip _ ?_ fun m => ?_
  · exact congrArg Errs.armed ((Chip.notice_errs ..).trans (Chip.bump_errs ..))
  · exact congrArg Core.lines ((Chip.reports_notice ..).core d m)

theorem Chip.stFrozen_waittLate (s : Chip) (c : ClusterNo) (e : EngNo) : (s.waittLate c e).stFrozen c = s.stFrozen c := by
  have hreg : (s.waittLate c e).reg (blkCtrl (stPg c)) = s.reg (blkCtrl (stPg c)) := by
    have hc := c.isLt
    have he := e.isLt
    have ha : blkCtrl (stPg c) < 0x1100000 ∧ cpPg c e + 0x1000 ≤ blkCtrl (stPg c) := by
      unfold blkCtrl stPg cpPg clPg; omega
    rw [Chip.waittLate, Chip.notice_reg _ _ _ (.inl ha.1) (by omega) (by omega), Chip.reg_bump_ne _ (by omega)]
  rw [Chip.stFrozen, Chip.frozen, Chip.flag, hreg, Chip.stFrozen, Chip.frozen, Chip.flag]

/-- R121: no completion word of a WAITT goes to another store. -/
theorem copyBad_waitt {c off : Nat} {ws : List Word} (h : copyBad c off ws = false) (ho : dw ws 0 3 0 = 4) :
    db ws 0 9 = false := by
  have hr : descRsvd ws = false := by
    unfold copyBad at h
    simp only [Bool.or_eq_false_iff] at h
    tauto
  unfold descRsvd at hr
  rw [ho] at hr
  simp only [Bool.not_eq_false', Bool.and_eq_true] at hr
  simpa using hr.2.2

theorem dw_zero_of_wide {ws : List Word} {i : Nat} (h : dw ws i 31 0 = 0) : dw ws i 10 0 = 0 := by
  simp only [dw, Word.bits] at h ⊢
  omega

theorem copyBad_noBlocks {c off : Nat} {ws : List Word} (h : copyBad c off ws = false) (ho : dw ws 0 3 0 = 4) :
    dw ws 5 10 0 = 0 := by
  have hr : descRsvd ws = false := by
    unfold copyBad at h
    simp only [Bool.or_eq_false_iff] at h
    tauto
  unfold descRsvd at hr
  rw [ho] at hr
  simp only [Bool.not_eq_false', Bool.and_eq_true, beq_iff_eq] at hr
  obtain ⟨-, ⟨⟨⟨⟨⟨-, h5⟩, -⟩, -⟩, -⟩, -⟩⟩ := hr
  exact dw_zero_of_wide h5

/-- R125: a descriptor of a WAITT whose tick had come. -/
def Desc.tardy (d : Desc) : Desc := { d with late := true }

theorem copyWaitt_late {s : State} {c : ClusterNo} {e : EngNo} {off : Nat} {rest : List Nat} (h : s.sys.headAt c e off rest)
    (hg : copyBad c off (s.sys.wordsAt c off) = false) (ho : dw (s.sys.wordsAt c off) 0 3 0 = 4)
    (ht : wideOf (s.sys.wordsAt c off) ≤ s.sys.chip.tickCopy) (h6 : db (s.sys.wordsAt c off) 0 6 = true)
    (hc : s.sys.Calm c) :
    ∃ z, exec (.copyWaitt c e) s = .next { s with sys := z } ∧ (z.chip.eng c e).descs = [] ∧
      (z.chip.eng c e).cur = (if db (s.sys.wordsAt c off) 0 4 then some (off + 32) else none) ∧
      KMap.bytes z.mem.store (stKey c (dw (s.sys.wordsAt c off) 7 20 0)) 8 =
        copyWord .ok true 4 (dw (s.sys.wordsAt c off) 1 15 0) 0 := by
  have heng := Sys.eng_startDesc h (s.sys.wordsAt c off) Desc.tardy
  have h8 := (copyBad_good hg).1
  have h9 := copyBad_waitt hg ho
  have hcalm : ({ s.sys with
      chip := (s.sys.chip.startDesc c e off (s.sys.wordsAt c off) Desc.tardy).waittLate c e } : Sys).Calm c :=
    (hc.startDesc c e off (s.sys.wordsAt c off) Desc.tardy).waittLate c e
  have hgrant : ((s.sys.chip.startDesc c e off (s.sys.wordsAt c off) Desc.tardy).waittLate c e).stFrozen c = false := by
    rw [Chip.stFrozen_waittLate]
    exact h.grants
  have hrun : s.sys.chip.startWaitt c e off (s.sys.wordsAt c off) =
      (s.sys.chip.startDesc c e off (s.sys.wordsAt c off) Desc.tardy).waittLate c e := by
    rw [Chip.startWaitt, if_pos ht]
    rfl
  have heng' := Chip.eng_waittLate (s.sys.chip.startDesc c e off (s.sys.wordsAt c off) Desc.tardy) c e c e
  rw [heng] at heng'
  have hset : (descOf s.sys.chip c (s.sys.chip.eng c e).serial off (s.sys.wordsAt c off)).tardy.settled = true := by
    simpa [Desc.settled, Desc.issued, Desc.tardy, descOf, Desc.nblk] using copyBad_noBlocks hg ho
  generalize hd : (descOf s.sys.chip c (s.sys.chip.eng c e).serial off (s.sys.wordsAt c off)).tardy = d at heng' hset
  generalize (s.sys.chip.startDesc c e off (s.sys.wordsAt c off) Desc.tardy).waittLate c e = u at heng' hgrant hrun hcalm
  have hws : d.ws = s.sys.wordsAt c off := by rw [← hd]; rfl
  have hword : d.word = copyWord .ok true 4 (dw (s.sys.wordsAt c off) 1 15 0) 0 := by
    rw [Desc.word, Desc.opc, hws, ho, ← hd]
    rfl
  have hend := Sys.copyEnds_settle (y := { s.sys with chip := u }) (d := d) (congrArg Eng.descs heng') (by rw [← hd]; rfl) hset
    hgrant hcalm (by rw [hws]; exact h6) (by rw [hws]; exact h9) (by rw [Desc.cmplPtr, hws]; omega)
  rw [exec_copyWaitt_eq, (Sys.reachDesc_head h _ (by simp [ho])).2 hg rfl, onChip, hrun]
  refine ⟨_, rfl, hend.descs, hend.cur.trans (congrArg Eng.cur heng'), ?_⟩
  rw [← hword, ← hws]
  exact hend.word

/-- Settles O28: posts, refused descriptors, XC and WAITT, each from the engine at the head of its queue. -/
theorem copyPrograms : Obligations.CopyPrograms := by
  unfold Obligations.CopyPrograms
  intro s c e y x pg
  refine ⟨fun v hf => ⟨cpPost_queues hf, cpPost_overflows hf⟩, ?_⟩
  intro off rest hq hcur hdescs hst hrun hgr hm hin ws d next
  have h : s.sys.headAt c e off rest := ⟨hq, hcur, hdescs, hst, hrun, hgr, hm, hin⟩
  refine ⟨fun hb i opcs hi ho => ⟨_, copy_refuses h hb hi ho, onChip_mem .., ?_⟩,
    fun hg ho => ⟨copyXc_starts h hg ho, copyXc_barred h hg ho⟩,
    fun hg ho => ⟨copyWaitt_waits h hg ho, copyWaitt_late h hg ho⟩⟩
  rw [onChip_chip, Sys.eng_refuseDesc h]
  exact ⟨rfl, hdescs, hcur, s.sys.chip.refuseDesc_regs c e off⟩

end Sys2Proof.Machine

/-! PROOF of O29 and O30 (R125 to R127, R144): starts with a cached translation, the ends of WAITT, and the
blocks of a copy. -/

namespace Sys2Proof.Machine

-- One after the other: side by side the proofs ask for more memory than the check grants.
set_option Elab.async false

open Laws

/-! ## A change of the one descriptor -/

theorem Eng.upd_one {x : Eng} {d : Desc} (h : x.descs = [d]) (f : Desc → Desc) :
    x.upd d.serial f = { x with descs := [f d] } := by
  rw [Eng.upd, h]
  simp [updWhere]

/-! ## Starts with a translation (R144) -/

/-- R144: a check whose one page translates with the right it asks for has passed. -/
def Desc.passed (d : Desc) (pg : Nat) (t : TlbEnt) : Desc :=
  { d with need := [], missed := false, tr := d.tr ++ [⟨pg, t.paOf pg, t.ent⟩] }

theorem Chip.checkGo_hit {s : Chip} {c e pg k i : Nat} {d : Desc} {t : TlbEnt} (h : (s.eng c e).descs = [d])
    (hneed : d.need = [pg]) (hstop : d.stop = false) (hctx : d.ctx = some k) (hi : s.invHolds k pg = false)
    (hw : (s.cl c).walks = []) (hf : s.tlbFind c k pg = some (i, t)) (hfl : t.flips = 0)
    (hr : ¬((d.opc = 1 ∧ t.r = false) ∨ (d.opc = 2 ∧ t.w = false))) (n : Nat) :
    s.checkGo c e (n + 1) = s.setEng c e { s.eng c e with descs := [d.passed pg t] } := by
  have hcheck : (s.eng c e).checking = some d := by simp [Eng.checking, h, hneed, hstop]
  have hlook : s.tlbLookup c k pg = (some t, s) := by
    rw [Chip.tlbLookup, hf]
    dsimp only
    rw [if_pos hfl]
  have hpass : s.pagePasses c e d k pg t = s.setEng c e { s.eng c e with descs := [d.passed pg t] } := by
    rw [Chip.pagePasses, if_neg hr, Eng.upd_one h, hneed]
    rfl
  have hdone : ∀ (x : Eng), x.descs = [d.passed pg t] → x.checking = none := fun x hx => by
    simp [Eng.checking, hx, Desc.passed]
  rw [Chip.checkGo, hcheck]
  dsimp only
  rw [hneed, hctx]
  dsimp only
  rw [hw, List.any_nil, if_neg (by rw [hi]; simp), hlook]
  dsimp only
  rw [hpass]
  cases n with
  | zero => rfl
  | succ n =>
    rw [Chip.checkGo, hdone _ (by rw [Chip.eng_setEng])]

/-- The translation of a page is there when a check of the cluster starts. -/
structure Chip.pageReady (s : Chip) (c k pg i : Nat) (t : TlbEnt) : Prop where
  free : s.invHolds k pg = false
  walks : (s.cl c).walks = []
  found : s.tlbFind c k pg = some (i, t)
  good : t.flips = 0

theorem Chip.pageReady.engines {s u : Chip} {c k pg i : Nat} {t : TlbEnt} (h : s.pageReady c k pg i t)
    (hu : s.engines u c) : u.pageReady c k pg i t := by
  refine ⟨?_, hu.walks.trans h.walks, ?_, h.good⟩
  · rw [Chip.invHolds, hu.parts]
    exact h.free
  · rw [Chip.tlbFind, hu.cl]
    exact h.found

/-- R144: what a start with a cached translation leaves. -/
def Sys.poolStarts (y z : Sys) (c e off : Nat) (rest : List Nat) (d : Desc) : Prop :=
  z.mem = y.mem ∧ (z.chip.eng c e).queue = rest ∧ (z.chip.eng c e).descs = [d] ∧
    (z.chip.eng c e).cur = (if db (y.wordsAt c off) 0 4 then some (off + 32) else none)

theorem Sys.startPool_hit {y : Sys} {c e off k pg i : Nat} {rest : List Nat} {t : TlbEnt} (h : y.headAt c e off rest)
    (hk : y.chip.ownerOf c = some k) (hg : copyBad c off (y.wordsAt c off) = false)
    (hp : pagesOf (y.wordsAt c off) = [pg]) (ht : y.chip.pageReady c k pg i t)
    (hr : ¬((dw (y.wordsAt c off) 0 3 0 = 1 ∧ t.r = false) ∨ (dw (y.wordsAt c off) 0 3 0 = 2 ∧ t.w = false)))
    (ho : dw (y.wordsAt c off) 0 3 0 ≠ 4) :
    y.poolStarts ((onChip (fun s => s.startPool c e off (y.wordsAt c off)) y).copySettle c e) c e off rest
      { descOf y.chip c (y.chip.eng c e).serial off (y.wordsAt c off) with tr := [⟨pg, t.paOf pg, t.ent⟩] } := by
  have heng := Sys.eng_startDesc h (y.wordsAt c off) fun d => { d with need := pagesOf (y.wordsAt c off) }
  have hready := ht.engines (y.chip.engines_startDesc c e off (y.wordsAt c off) fun d =>
    { d with need := pagesOf (y.wordsAt c off) })
  have hblk := (copyBad_good hg).2 ho
  generalize hu : (y.chip.startDesc c e off (y.wordsAt c off) fun d => { d with need := pagesOf (y.wordsAt c off) }) = u
    at heng hready
  have hstart : y.chip.startPool c e off (y.wordsAt c off) = u.setEng c e { u.eng c e with
      descs := [{ descOf y.chip c (y.chip.eng c e).serial off (y.wordsAt c off) with tr := [⟨pg, t.paOf pg, t.ent⟩] }] } := by
    rw [Chip.startPool, hu, Chip.checkGo_hit (d := { descOf y.chip c (y.chip.eng c e).serial off (y.wordsAt c off) with
      need := pagesOf (y.wordsAt c off) }) (by rw [heng]) hp rfl hk hready.free hready.walks hready.found hready.good hr 3]
    rfl
  rw [onChip, hstart, Sys.copySettle_waits (by rw [Chip.eng_setEng]) rfl
    (Desc.settled_of_blocks rfl (Nat.pos_of_ne_zero hblk))]
  refine ⟨rfl, ?_⟩
  dsimp only
  rw [Chip.eng_setEng, heng]
  exact ⟨rfl, rfl, rfl⟩

theorem copyPool_starts {s : State} {c : ClusterNo} {e : EngNo} {off k pg i : Nat} {rest : List Nat} {t : TlbEnt}
    (h : s.sys.headAt c e off rest) (hk : s.sys.chip.ownerOf c = some k) (htr : (s.sys.chip.ctxAt k).translates = true)
    (hg : copyBad c off (s.sys.wordsAt c off) = false) (hp : pagesOf (s.sys.wordsAt c off) = [pg])
    (ht : s.sys.chip.pageReady c k pg i t) {ins : Instr} {opc : Nat} {right : Bool}
    (hi : (ins, opc, right) ∈ [(.copyRd c e, 1, t.r), (.copyWr c e, 2, t.w)])
    (ho : dw (s.sys.wordsAt c off) 0 3 0 = opc) (hr : right = true) :
    ∃ z, exec ins s = .next { s with sys := z } ∧ s.sys.poolStarts z c e off rest
      { descOf s.sys.chip c (s.sys.chip.eng c e).serial off (s.sys.wordsAt c off) with
        tr := [⟨pg, t.paOf pg, t.ent⟩] } := by
  have hrun : s.sys.chip.copiesRun c = true := by rw [Chip.copiesRun, hk]; exact htr
  simp only [List.mem_cons, Prod.mk.injEq, List.not_mem_nil, or_false] at hi
  obtain ⟨rfl, rfl, rfl⟩ | ⟨rfl, rfl, rfl⟩ := hi
  · rw [(exec_copyPool_eq h.descs).1, (Sys.reachDesc_head h _ (by simp [ho])).2 hg hrun]
    exact ⟨_, rfl, Sys.startPool_hit h hk hg hp ht (by simp [ho, hr]) (by omega)⟩
  · rw [(exec_copyPool_eq h.descs).2, (Sys.reachDesc_head h _ (by simp [ho])).2 hg hrun]
    exact ⟨_, rfl, Sys.startPool_hit h hk hg hp ht (by simp [ho, hr]) (by omega)⟩

/-! ## The ends of WAITT (R125) -/

/-- An engine whose one descriptor is a WAITT that waits, with a completion word for its own store. -/
structure Sys.waitsOne (y : Sys) (c e : Nat) (d : Desc) : Prop where
  descs : (y.chip.eng c e).descs = [d]
  waiting : d.waiting = true
  free : d.forced = none
  fails : d.fails = []
  fly : d.fly = []
  need : d.need = []
  blocks : d.nblk = 0
  word : db d.ws 0 6 = true
  own : db d.ws 0 9 = false
  even : d.cmplPtr % 4 = 0
  calm : y.Calm c
  grants : y.chip.stFrozen c = false

theorem Sys.waitsOne.waitt {y : Sys} {c e : Nat} {d : Desc} (h : y.waitsOne c e d) : (y.chip.eng c e).waitt = some d := by
  rw [Eng.waitt, h.descs]
  simp [h.waiting]

/-- R125: a WAITT that no longer waits. -/
def Desc.woken (d : Desc) (late : Bool) : Desc := { d with waiting := false, late := late }

theorem Sys.waitsOne.woken {y : Sys} {c e : Nat} {d : Desc} (h : y.waitsOne c e d) (late : Bool) :
    (d.woken late).settled = true ∧ (d.woken late).word = copyWord .ok late d.opc (dw d.ws 1 15 0) d.ok := by
  have hn := h.blocks
  refine ⟨?_, ?_⟩
  · simp [Desc.settled, Desc.issued, Desc.woken, h.need, h.fly]
    exact .inr (hn ▸ Nat.zero_le _)
  · have hst : (d.woken late).status = .ok := by
      have hf : (d.woken late).fails = [] := h.fails
      rw [Desc.status, hf]
    rw [Desc.word, hst]
    rfl

/-- R125: the engine after its WAITT woke: whether it counts as late is the caller's. -/
theorem Sys.waitsOne.ends {y : Sys} {c e : Nat} {d : Desc} (h : y.waitsOne c e d) (late : Bool) {u : Chip}
    (hu : (u.eng c e).descs = [d.woken late]) (hc : ({ y with chip := u } : Sys).Calm c) (hz : u.stFrozen c = false) :
    ((({ y with chip := u } : Sys).copySettle c e).chip.eng c e).descs = [] ∧
      KMap.bytes (({ y with chip := u } : Sys).copySettle c e).mem.store (stKey c d.cmplPtr) 8 =
        copyWord .ok late d.opc (dw d.ws 1 15 0) d.ok := by
  obtain ⟨hset, hword⟩ := h.woken late
  have hend := Sys.copyEnds_settle (y := { y with chip := u }) hu h.free hset hz hc h.word h.own h.even
  exact ⟨hend.descs, hend.word.trans hword⟩

theorem waittReached_ends {s : State} {c : ClusterNo} {e : EngNo} {d : Desc} (h : s.sys.waitsOne c e d)
    (ht : wideOf d.ws ≤ s.sys.chip.tickCopy) :
    ∃ z, exec (.waittReached c e) s = .next { s with sys := z } ∧ (z.chip.eng c e).descs = [] ∧
      KMap.bytes z.mem.store (stKey c d.cmplPtr) 8 = copyWord .ok d.late d.opc (dw d.ws 1 15 0) d.ok := by
  have hexec : exec (.waittReached c e) s = execWaittReached c e s := (rfl)
  have hends := h.ends d.late (u := s.sys.chip.setEng c e { s.sys.chip.eng c e with descs := [d.woken d.late] })
    (by rw [Chip.eng_setEng]) (h.calm.setEng ..) ((Chip.stFrozen_setEng ..).trans h.grants)
  refine ⟨_, ?_, hends⟩
  rw [hexec, execWaittReached, liftS, h.waitt]
  dsimp only
  rw [if_pos ht, onChip, Eng.upd_one h.descs]
  rfl

theorem waittReached_waits {s : State} {c : ClusterNo} {e : EngNo} {d : Desc} (h : s.sys.waitsOne c e d)
    (ht : s.sys.chip.tickCopy < wideOf d.ws) : exec (.waittReached c e) s = .next s := by
  have hexec : exec (.waittReached c e) s = execWaittReached c e s := (rfl)
  rw [hexec, execWaittReached, liftS, h.waitt]
  dsimp only
  rw [if_neg (by omega)]

theorem cpKick_ends {s : State} {c : ClusterNo} {e : EngNo} {d : Desc} {v : Word} (h : s.sys.waitsOne c e d)
    (hv : Word.bit v 0 = true) :
    ∃ z, exec (.cpKick c e .ccc v) s = .next { s with sys := z } ∧ (z.chip.eng c e).descs = [] ∧
      KMap.bytes z.mem.store (stKey c d.cmplPtr) 8 =
        copyWord .ok (decide (s.sys.chip.tickCopy < wideOf d.ws)) d.opc (dw d.ws 1 15 0) d.ok := by
  have hexec : exec (.cpKick c e .ccc v) s = execCpKick c e .ccc v s := (rfl)
  generalize hlate : decide (s.sys.chip.tickCopy < wideOf d.ws) = late
  generalize hu : s.sys.chip.setEng c e { s.sys.chip.eng c e with descs := [d.woken late] } = u
  have hcalm : ({ s.sys with chip := u } : Sys).Calm c := hu ▸ h.calm.setEng ..
  have hgrant : u.stFrozen c = false := hu ▸ (Chip.stFrozen_setEng ..).trans h.grants
  have hdescs : (u.eng c e).descs = [d.woken late] := by rw [← hu, Chip.eng_setEng]
  refine ⟨Sys.copySettle { s.sys with chip := if late then u.waittLate c e else u } c e, ?_, h.ends late ?_ ?_ ?_⟩
  · rw [hexec, execCpKick, liftS]
    dsimp only
    rw [h.waitt]
    dsimp only
    rw [if_pos hv, onChip, Eng.upd_one h.descs, hlate, ← hu]
    rfl
  · cases late
    · exact hdescs
    · exact (congrArg Eng.descs (Chip.eng_waittLate ..)).trans hdescs
  · cases late
    · exact hcalm
    · exact hcalm.waittLate c e
  · cases late
    · exact hgrant
    · exact (Chip.stFrozen_waittLate ..).trans hgrant

/-- Settles O29: an RD or WR whose page is cached, and the two ends of a WAITT. -/
theorem copyStarts : Obligations.CopyStarts := by
  unfold Obligations.CopyStarts
  intro s c e y x
  refine ⟨?_, ?_⟩
  · intro off rest k i t pg hq hcur hdescs hst hrun hgr hm hin hk htr ws hg hp hfree hwalks hfound hgood ins opc right
      hi ho hr
    exact copyPool_starts ⟨hq, hcur, hdescs, hst, hrun, hgr, hm, hin⟩ hk htr hg hp ⟨hfree, hwalks, hfound, hgood⟩ hi ho hr
  · intro d hd hwait hforced hfails hfly hneed hblk h6 h9 h4 hc hz
    have h : s.sys.waitsOne c e d := ⟨hd, hwait, hforced, hfails, hfly, hneed, hblk, h6, h9, h4, hc, hz⟩
    exact ⟨waittReached_ends h, fun v hv => cpKick_ends h hv, waittReached_waits h, fun m v => rfl⟩

end Sys2Proof.Machine

/-! PROOF of O30 (R126, R127): the blocks of a copy. -/

namespace Sys2Proof.Machine

-- One after the other: side by side the proofs ask for more memory than the check grants.
set_option Elab.async false

open Laws

/-! ## The access of a block (R126) -/

theorem Chip.reports_copySlot (s : Chip) (c : Nat) (ws : List Word) (pb : Nat) : s.Reports (s.copySlot c ws pb).2 := by
  unfold Chip.copySlot
  split
  · exact .refl s
  · dsimp only
    exact .ite (s.reports_bump _) (.refl s)

theorem Chip.reports_copyAcc (s : Chip) (c e : Nat) (d : Desc) (k : Nat) (w : Bool) (data : List Byte) :
    s.Reports (s.copyAcc c e d k w data).2 := by
  unfold Chip.copyAcc
  dsimp only
  have h := s.reports_copySlot c d.ws (s.bodyNow (d.poolOff k / 2048))
  split
  · exact h
  · split
    · exact h
    · exact h

theorem Chip.copyAcc_acc (s : Chip) (c e : Nat) (d : Desc) (k : Nat) (w : Bool) (data : List Byte) :
    (s.copyAcc c e d k w data).1.src = .copy c e (blkNo d.serial k) ∧
      (s.copyAcc c e d k w data).1.b = d.poolOff k / 2048 ∧ (s.copyAcc c e d k w data).1.write = w ∧
      (s.copyAcc c e d k w data).1.data = data := by
  unfold Chip.copyAcc
  dsimp only
  split
  · exact ⟨rfl, rfl, rfl, rfl⟩
  · split
    · exact ⟨rfl, rfl, rfl, rfl⟩
    · exact ⟨rfl, rfl, rfl, rfl⟩

/-! ## The next block (R126, R128) -/

/-- An engine whose one descriptor has a block to issue now. -/
structure Sys.issuesOne (y : Sys) (c e : Nat) (d : Desc) : Prop where
  descs : (y.chip.eng c e).descs = [d]
  issued : d.issued = false
  need : d.need = []
  waiting : d.waiting = false
  room : d.fly.length < 32
  pace : ∀ t, (y.chip.eng c e).lastIssue = some t → t + 4 ≤ y.chip.ref
  grants : y.chip.stFrozen c = false
  marks : y.mem.storeMark = []

/-- A descriptor whose next block is on its way. -/
def Desc.sends (d : Desc) : Desc := { d with next := d.next + 1, fly := d.fly ++ [d.next] }

/-- R126: the request of block d.next goes out. -/
def Chip.issueBlk (s : Chip) (c e : Nat) (d : Desc) : Chip :=
  s.setEng c e { (s.eng c e).upd d.serial (fun d' => { d' with next := d.next + 1, fly := d'.fly ++ [d.next] }) with
    lastIssue := some s.ref }

theorem Chip.eng_issueBlk {s : Chip} {c e : Nat} {d : Desc} (h : (s.eng c e).descs = [d]) :
    ((s.issueBlk c e d).eng c e).descs = [d.sends] ∧ ((s.issueBlk c e d).eng c e).lastIssue = some s.ref := by
  rw [Chip.issueBlk, Chip.eng_setEng, Eng.upd_one h]
  exact ⟨rfl, rfl⟩

/-- What issuing a block comes to, by the OPC of the descriptor. -/
def Sys.issueNext (y : Sys) (c e : Nat) (d : Desc) : Sys :=
  if d.opc = 1 then
    let (a, s) := y.chip.copyAcc c e d d.next false []
    { y with chip := Chip.issueBlk { s with accs := s.accs ++ [a] } c e d }
  else
    let b := KMap.bytes y.mem.store (stKey c (d.csOff + 2048 * d.next)) 2048
    if d.opc = 2 then
      let (a, s) := y.chip.copyAcc c e d d.next true b
      { y with chip := Chip.issueBlk { s with accs := s.accs ++ [a] } c e d }
    else match y.chip.xcStop c (dw d.ws 6 28 21) with
      | some st => Sys.copySettle (onChip (fun s => s.blockFails c e d.serial d.next st) y) c e
      | none => onChip (fun s => Chip.issueBlk { s with
          xcs := s.xcs ++ [⟨c, e, blkNo d.serial d.next, dw d.ws 6 28 21, dw d.ws 6 20 0 + 2048 * d.next, b⟩] } c e d) y

theorem exec_blockIssue_eq {s : State} {c : ClusterNo} {e : EngNo} {d : Desc} (h : s.sys.issuesOne c e d) :
    exec (.blockIssue c e) s = .next { s with sys := s.sys.issueNext c e d } := by
  have hexec : exec (.blockIssue c e) s = execBlockIssue c e s := (rfl)
  have hissue : (s.sys.chip.eng c e).issuing = some d := by
    simp [Eng.issuing, h.descs, h.issued, h.need, h.waiting]
  have hfly : (s.sys.chip.eng c e).inflight = d.fly.length := by simp [Eng.inflight, h.descs]
  rw [hexec, execBlockIssue, liftS]
  dsimp only
  rw [hissue]
  dsimp only
  rw [if_neg (by
    rw [hfly, h.grants]
    have := h.room
    rintro (h1 | h1 | h1)
    · split at h1
      · rename_i t ht
        have := h.pace t ht
        simp only [decide_eq_true_eq] at h1
        omega
      · cases h1
    · omega
    · exact absurd h1.2 (by decide)), Sys.issueNext]
  dsimp only
  split
  · rfl
  · rw [Sys.stRead_clean _ _ _ _ h.marks]
    dsimp only
    rw [if_neg (by decide)]
    split
    · rfl
    · generalize s.sys.chip.xcStop c (dw d.ws 6 28 21) = o
      cases o <;> rfl

/-- R126: what every issued block leaves. -/
def Sys.blockSent (y z : Sys) (c e : Nat) (d : Desc) : Prop :=
  z.mem = y.mem ∧ (z.chip.eng c e).descs = [d.sends] ∧ (z.chip.eng c e).lastIssue = some y.chip.ref

/-- R126: the access of a block joins those of the chip, which reports at most. -/
theorem Sys.blockSent_acc {y : Sys} {c e : Nat} {d : Desc} (h : (y.chip.eng c e).descs = [d]) {t : Chip}
    (ht : y.chip.Reports t) (a : Acc) :
    y.blockSent { y with chip := Chip.issueBlk { t with accs := t.accs ++ [a] } c e d } c e d ∧
      (Chip.issueBlk { t with accs := t.accs ++ [a] } c e d).accs = y.chip.accs ++ [a] ∧
      (Chip.issueBlk { t with accs := t.accs ++ [a] } c e d).xcs = y.chip.xcs := by
  obtain ⟨h1, h2⟩ := Chip.eng_issueBlk (s := { t with accs := t.accs ++ [a] }) (c := c) (e := e) (d := d)
    (by rw [← h]; exact congrArg Eng.descs (ht.eng c e))
  refine ⟨⟨rfl, h1, h2.trans (congrArg some ht.ref)⟩, ?_, ht.xcs⟩
  rw [← ht.accs]
  rfl

theorem blockIssue_read {s : State} {c : ClusterNo} {e : EngNo} {d : Desc} (h : s.sys.issuesOne c e d) (ho : d.opc = 1) :
    ∃ z a, exec (.blockIssue c e) s = .next { s with sys := z } ∧ s.sys.blockSent z c e d ∧
      z.chip.accs = s.sys.chip.accs ++ [a] ∧ a.src = .copy c e (blkNo d.serial d.next) ∧
      a.b = d.poolOff d.next / 2048 ∧ a.write = false ∧ z.chip.xcs = s.sys.chip.xcs := by
  obtain ⟨hsrc, hb, hw, -⟩ := s.sys.chip.copyAcc_acc c e d d.next false []
  obtain ⟨hsent, haccs, hxcs⟩ := Sys.blockSent_acc h.descs (s.sys.chip.reports_copyAcc c e d d.next false [])
    (s.sys.chip.copyAcc c e d d.next false []).1
  refine ⟨_, (s.sys.chip.copyAcc c e d d.next false []).1, exec_blockIssue_eq h, ?_⟩
  rw [Sys.issueNext, if_pos ho]
  exact ⟨hsent, haccs, hsrc, hb, hw, hxcs⟩

theorem blockIssue_write {s : State} {c : ClusterNo} {e : EngNo} {d : Desc} (h : s.sys.issuesOne c e d) (ho : d.opc = 2) :
    ∃ z a, exec (.blockIssue c e) s = .next { s with sys := z } ∧ s.sys.blockSent z c e d ∧
      z.chip.accs = s.sys.chip.accs ++ [a] ∧ a.src = .copy c e (blkNo d.serial d.next) ∧
      a.b = d.poolOff d.next / 2048 ∧ a.write = true ∧
      a.data = KMap.bytes s.sys.mem.store (stKey c (d.csOff + 2048 * d.next)) 2048 ∧ z.chip.xcs = s.sys.chip.xcs := by
  generalize hdata : KMap.bytes s.sys.mem.store (stKey c (d.csOff + 2048 * d.next)) 2048 = data
  obtain ⟨hsrc, hb, hw, hd⟩ := s.sys.chip.copyAcc_acc c e d d.next true data
  obtain ⟨hsent, haccs, hxcs⟩ := Sys.blockSent_acc h.descs (s.sys.chip.reports_copyAcc c e d d.next true data)
    (s.sys.chip.copyAcc c e d d.next true data).1
  refine ⟨_, (s.sys.chip.copyAcc c e d d.next true data).1, exec_blockIssue_eq h, ?_⟩
  rw [Sys.issueNext, if_neg (by omega)]
  dsimp only
  rw [if_pos ho, hdata]
  exact ⟨hsent, haccs, hsrc, hb, hw, hd, hxcs⟩

theorem blockIssue_xc {s : State} {c : ClusterNo} {e : EngNo} {d : Desc} (h : s.sys.issuesOne c e d) (ho : d.opc = 3)
    (hx : s.sys.chip.xcStop c (dw d.ws 6 28 21) = none) :
    ∃ z, exec (.blockIssue c e) s = .next { s with sys := z } ∧ s.sys.blockSent z c e d ∧ z.chip.accs = s.sys.chip.accs ∧
      z.chip.xcs = s.sys.chip.xcs ++ [⟨c, e, blkNo d.serial d.next, dw d.ws 6 28 21, dw d.ws 6 20 0 + 2048 * d.next,
        KMap.bytes s.sys.mem.store (stKey c (d.csOff + 2048 * d.next)) 2048⟩] := by
  refine ⟨_, exec_blockIssue_eq h, ?_⟩
  rw [Sys.issueNext, if_neg (by omega)]
  dsimp only
  rw [if_neg (by omega), hx]
  dsimp only
  generalize KMap.bytes s.sys.mem.store _ 2048 = b
  obtain ⟨h1, h2⟩ := Chip.eng_issueBlk (s := { s.sys.chip with
    xcs := s.sys.chip.xcs ++ [⟨c, e, blkNo d.serial d.next, dw d.ws 6 28 21, dw d.ws 6 20 0 + 2048 * d.next, b⟩] })
    (c := c) (e := e) (d := d) h.descs
  exact ⟨⟨rfl, h1, h2⟩, rfl, rfl⟩

/-! ## Blocks that come back (R126, R127) -/

/-- An engine whose one descriptor has block k in flight and more to issue. -/
structure Sys.fliesOne (y : Sys) (c e : Nat) (d : Desc) (k : Nat) : Prop where
  number : k < 2048
  descs : (y.chip.eng c e).descs = [d]
  free : d.forced = none
  fly : d.fly = [k]
  going : d.stop = false
  more : d.next < d.nblk

/-- A descriptor whose one block in flight is written. -/
def Desc.wrote (d : Desc) : Desc := { d with fly := [], ok := d.ok + 1 }

theorem blkNo_parts {n k : Nat} (h : k < 2048) : blkNo n k / 2048 = n ∧ blkNo n k % 2048 = k := by
  unfold blkNo
  omega

theorem Sys.fliesOne.settles {y z : Sys} {c e k : Nat} {d : Desc} (h : y.fliesOne c e d k)
    (hz : (z.chip.eng c e).descs = [d]) :
    ((onChip (fun s => s.blockOk c e d.serial k) z).copySettle c e).mem = z.mem ∧
      (((onChip (fun s => s.blockOk c e d.serial k) z).copySettle c e).chip.eng c e).descs = [d.wrote] := by
  have heng : ((onChip (fun s => s.blockOk c e d.serial k) z).chip.eng c e).descs = [d.wrote] := by
    rw [onChip_chip, Chip.blockOk, Chip.eng_wrapBy, Chip.eng_setEng, Eng.upd_one hz, h.fly]
    simp [Desc.wrote]
  rw [Sys.copySettle_waits heng h.free (Desc.settled_of_blocks h.going h.more)]
  exact ⟨rfl, heng⟩

/-- The found access of a block leaves the chip's list. -/
def Sys.accGone (y : Sys) (src : BlkSrc) : Sys := onChip (fun s => { s with accs := s.accs.filter fun x => !(x.src == src) }) y

theorem exec_blockSettle_ok {s : State} {c : ClusterNo} {e : EngNo} {d : Desc} {k : Nat} {a : Acc}
    (h : s.sys.fliesOne c e d k)
    (ha : s.sys.chip.accs.find? (fun a => a.src == BlkSrc.copy c e (blkNo d.serial k) && a.phase == .served) = some a)
    (hok : a.st = .ok) (hz : d.opc = 1 → s.sys.chip.stFrozen c = false) :
    exec (.blockSettle c e (blkNo d.serial k)) s = .next { s with
      sys := (onChip (fun s => s.blockOk c e d.serial k)
        (if d.opc = 1 then (s.sys.accGone (.copy c e (blkNo d.serial k))).stWrite c (d.csOff + 2048 * k) a.data
          else s.sys.accGone (.copy c e (blkNo d.serial k)))).copySettle c e } := by
  have hexec : exec (.blockSettle c e (blkNo d.serial k)) s = execBlockSettle c e (blkNo d.serial k) s := (rfl)
  obtain ⟨hn, hk⟩ := blkNo_parts (n := d.serial) h.number
  rw [hexec, execBlockSettle, liftS]
  dsimp only
  rw [hn, hk, ha, h.descs]
  simp only [List.find?_cons, beq_self_eq_true]
  rw [if_neg (by
    rintro ⟨h1, -, h2⟩
    rw [hz h1] at h2
    cases h2), if_pos hok]
  rfl

theorem blockSettle_read {s : State} {c : ClusterNo} {e : EngNo} {d : Desc} {k : Nat} {a : Acc}
    (h : s.sys.fliesOne c e d k)
    (ha : s.sys.chip.accs.find? (fun a => a.src == BlkSrc.copy c e (blkNo d.serial k) && a.phase == .served) = some a)
    (hok : a.st = .ok) (ho : d.opc = 1) (heven : d.csOff % 4 = 0) (hlen : a.data.length = 2048) (hc : s.sys.Calm c)
    (hz : s.sys.chip.stFrozen c = false) :
    ∃ z, exec (.blockSettle c e (blkNo d.serial k)) s = .next { s with sys := z } ∧
      KMap.bytes z.mem.store (stKey c (d.csOff + 2048 * k)) 2048 = a.data ∧
      (∀ i, i < stKey c (d.csOff + 2048 * k) ∨ stKey c (d.csOff + 2048 * k) + 2048 ≤ i →
        KMap.at z.mem.store 0 i = KMap.at s.sys.mem.store 0 i) ∧
      (z.chip.eng c e).descs = [d.wrote] := by
  have hcalm : (s.sys.accGone (.copy c e (blkNo d.serial k))).Calm c := hc.chip _ rfl fun _ => rfl
  have hwrite := Sys.stWrite_words hcalm (o := d.csOff + 2048 * k) (d := a.data) (by omega) (by omega)
  refine ⟨_, exec_blockSettle_ok h ha hok (fun _ => hz), ?_⟩
  rw [if_pos ho, hwrite]
  obtain ⟨hm, hd⟩ := h.settles (z := (s.sys.accGone (.copy c e (blkNo d.serial k))).withStore
    (KMap.store s.sys.mem.store (stKey c (d.csOff + 2048 * k)) a.data)) h.descs
  have hm' : _ = KMap.store s.sys.mem.store (stKey c (d.csOff + 2048 * k)) a.data := congrArg Mem.store hm
  refine ⟨?_, fun i hi => ?_, hd⟩
  · exact (congrArg (KMap.bytes · _ _) hm').trans (bytes_store_of_length hlen)
  · exact (congrArg (KMap.at · 0 i) hm').trans (at_store_out _ _ _ (by omega))

theorem blockSettle_write {s : State} {c : ClusterNo} {e : EngNo} {d : Desc} {k : Nat} {a : Acc}
    (h : s.sys.fliesOne c e d k)
    (ha : s.sys.chip.accs.find? (fun a => a.src == BlkSrc.copy c e (blkNo d.serial k) && a.phase == .served) = some a)
    (hok : a.st = .ok) (ho : d.opc = 2) :
    ∃ z, exec (.blockSettle c e (blkNo d.serial k)) s = .next { s with sys := z } ∧ z.mem = s.sys.mem ∧
      (z.chip.eng c e).descs = [d.wrote] := by
  refine ⟨_, exec_blockSettle_ok h ha hok (fun h1 => by omega), ?_⟩
  rw [if_neg (by omega)]
  exact h.settles (z := s.sys.accGone (.copy c e (blkNo d.serial k))) h.descs

theorem xcBlockArrive_writes {s : State} {c : ClusterNo} {e : EngNo} {d : Desc} {k : Nat} (h : s.sys.fliesOne c e d k)
    {t : ClusterNo} {i off : Nat} {data : List Byte}
    (hx : (s.sys.chip.xcs.filter fun x => x.dst == t.val)[i]? = some ⟨c, e, blkNo d.serial k, t, off, data⟩)
    (hf : s.sys.chip.isFenced (.cluster t) = false) (hr : s.sys.chip.clResetting t = false)
    (hz : s.sys.chip.stFrozen t = false) (heven : off % 4 = 0) (hlen : data.length = 2048) (hc : s.sys.Calm t) :
    ∃ z, exec (.xcBlockArrive t i) s = .next { s with sys := z } ∧ KMap.bytes z.mem.store (stKey t off) 2048 = data ∧
      (z.chip.eng c e).descs = [d.wrote] := by
  have hexec : exec (.xcBlockArrive t i) s = execXcBlockArrive t i s := (rfl)
  obtain ⟨hn, hk⟩ := blkNo_parts (n := d.serial) h.number
  generalize hgone : onChip (fun s => { s with xcs := s.xcs.erase ⟨c, e, blkNo d.serial k, t, off, data⟩ }) s.sys = g
  have hcalm : g.Calm t := hgone ▸ hc.chip _ rfl fun _ => rfl
  have hmem : g.mem = s.sys.mem := by rw [← hgone]; rfl
  have hdescs : (g.chip.eng c e).descs = [d] := by rw [← hgone]; exact h.descs
  have hwrite := Sys.stWrite_words hcalm heven (d := data) (by omega)
  obtain ⟨hm, hd⟩ := h.settles (z := g.withStore (KMap.store g.mem.store (stKey t off) data)) hdescs
  have hm' : _ = KMap.store g.mem.store (stKey t off) data := congrArg Mem.store hm
  refine ⟨_, ?_, ?_, hd⟩
  · rw [hexec, execXcBlockArrive, liftS]
    dsimp only
    rw [hx]
    dsimp only
    rw [if_neg (by rw [hf]; decide), if_neg (by rw [hr]; decide), if_neg (by rw [hz]; decide), hn, hk, hgone, hwrite]
  · exact (congrArg (KMap.bytes · _ _) hm').trans (bytes_store_of_length hlen)

/-- Settles O30: the next block by its OPC, and a block that has come back. -/
theorem copyBlocks : Obligations.CopyBlocks := by
  unfold Obligations.CopyBlocks
  intro s c e y x
  refine ⟨?_, ?_⟩
  · intro d hd hissued hneed hwait hroom hpace hz hm ends bytes
    have h : s.sys.issuesOne c e d := ⟨hd, hissued, hneed, hwait, hroom, hpace, hz, hm⟩
    exact ⟨blockIssue_read h, blockIssue_write h, blockIssue_xc h⟩
  · intro d k a hk hd hforced hfly hstop hnext
    have h : s.sys.fliesOne c e d k := ⟨hk, hd, hforced, hfly, hstop, hnext⟩
    exact ⟨fun ha hok => ⟨blockSettle_read h ha hok, blockSettle_write h ha hok⟩,
      fun t i off data hx hf hr hz h4 hlen hc => xcBlockArrive_writes h hx hf hr hz h4 hlen hc⟩

end Sys2Proof.Machine

/-! PROOF of O31 (R149): INV_RANGE. -/

namespace Sys2Proof.Machine

-- One after the other: side by side the proofs ask for more memory than the check grants.
set_option Elab.async false

open Laws

/-! ## What step 1 leaves of a TLB -/

/-- Every entry of cluster d's TLB was there before. -/
def Chip.tlbWithin (s t : Chip) (d : Nat) : Prop := ∀ p ∈ (t.cl d).tlb, p ∈ (s.cl d).tlb

theorem Chip.tlbWithin.refl (s : Chip) (d : Nat) : s.tlbWithin s d := fun _ h => h

theorem Chip.tlbWithin.trans {s t u : Chip} {d : Nat} (h : s.tlbWithin t d) (h' : t.tlbWithin u d) : s.tlbWithin u d :=
  fun p hp => h p (h' p hp)

theorem Chip.tlbWithin_setCl (s : Chip) (c : Nat) {x : Cl} (h : ∀ p ∈ x.tlb, p ∈ (s.cl c).tlb) (d : Nat) :
    s.tlbWithin (s.setCl c x) d := by
  intro p hp
  by_cases hc : c = d
  · subst hc
    rw [Chip.cl_setCl] at hp
    exact h p hp
  · rw [Chip.cl_setCl_ne _ _ hc] at hp
    exact hp

theorem Chip.tlbWithin_setEng (s : Chip) (c e : Nat) (x : Eng) (d : Nat) : s.tlbWithin (s.setEng c e x) d := by
  refine s.tlbWithin_setCl c (fun p hp => ?_) d
  split at hp <;> exact hp

theorem Chip.tlbWithin_tlbDrop (s : Chip) (c : Nat) (f : TlbEnt → Bool) (d : Nat) : s.tlbWithin (s.tlbDrop c f) d :=
  s.tlbWithin_setCl c (fun _ hp => List.mem_of_mem_filter hp) d

theorem Chip.tlbWithin_invCheck (s : Chip) (j : InvJob) (c e d : Nat) : s.tlbWithin (s.invCheck j c e) d := by
  unfold Chip.invCheck
  split
  · exact .refl s d
  · split
    · exact s.tlbWithin_setEng c e _ d
    · exact .refl s d

theorem Chip.tlbWithin_invWalks (s : Chip) (j : InvJob) (c x d : Nat) : s.tlbWithin (s.invWalks j c x) d := by
  have h : ∀ (l : List Acc) (ws : List Walk),
      s.tlbWithin (({ s with accs := l } : Chip).setCl c { s.cl c with walks := ws }) d :=
    fun l ws => Chip.tlbWithin_setCl { s with accs := l } c (x := { s.cl c with walks := ws }) (fun _ hp => hp) d
  unfold Chip.invWalks
  exact h _ _

/-- Step 1 of R149 at one cluster of a context it names. -/
def Chip.invAt (j : InvJob) (cx : Nat × Nat) (s : Chip) : Chip :=
  let s := s.tlbDrop cx.1 fun t => t.ctx == cx.2 && j.meets t.page t.size
  ((s.invCheck j cx.1 0).invCheck j cx.1 1).invWalks j cx.1 cx.2

theorem Chip.invAt_within (s : Chip) (j : InvJob) (cx : Nat × Nat) (d : Nat) :
    (s.tlbDrop cx.1 fun t => t.ctx == cx.2 && j.meets t.page t.size).tlbWithin (s.invAt j cx) d :=
  ((Chip.tlbWithin_invCheck _ j cx.1 0 d).trans (Chip.tlbWithin_invCheck _ j cx.1 1 d)).trans
    (Chip.tlbWithin_invWalks _ j cx.1 cx.2 d)

theorem tlbWithin_invAll (l : List (Nat × Nat)) (s : Chip) (j : InvJob) (d : Nat) :
    s.tlbWithin (forEach l (Chip.invAt j) s) d :=
  forEach_keeps (fun t => s.tlbWithin t d)
    (fun cx _ t ht => (ht.trans (t.tlbWithin_tlbDrop cx.1 _ d)).trans (t.invAt_within j cx d)) (.refl s d)

/-- R149: after step 1 no entry of a named context's cluster meets the range. -/
theorem invAll_drops {l : List (Nat × Nat)} {c x : Nat} (h : (c, x) ∈ l) (s : Chip) (j : InvJob) {i : Nat} {t : TlbEnt}
    (ht : (i, some t) ∈ ((forEach l (Chip.invAt j) s).cl c).tlb) (hx : t.ctx = x) : j.meets t.page t.size = false := by
  induction l generalizing s with
  | nil => cases h
  | cons cx l ih =>
    rcases List.mem_cons.1 h with rfl | h'
    · have hin := (Chip.invAt_within s j (c, x) c) _ ((tlbWithin_invAll l (s.invAt j (c, x)) j c) _ ht)
      rw [Chip.tlbDrop, Chip.cl_setCl] at hin
      have hkept := (List.mem_filter.1 hin).2
      simpa [hx] using hkept
    · exact ih h' (s.invAt j cx) ht

theorem Chip.mem_invClusters {s : Chip} {p c x : Nat} {j : InvJob} (h : (c, some x) ∈ s.parts.owner) (hp : x / 32 = p)
    (hs : x % 32 ∈ j.slots) : (c, x) ∈ s.invClusters p j := by
  unfold Chip.invClusters
  refine List.mem_filterMap.2 ⟨_, h, ?_⟩
  dsimp only
  rw [if_pos ⟨hp, List.contains_iff_mem.2 hs⟩]

/-! ## What step 1 leaves of the rest -/

theorem Chip.stops_invAt (s : Chip) (j : InvJob) (cx : Nat × Nat) : s.stops (s.invAt j cx) := by
  have hcheck : ∀ (t : Chip) (c e : Nat), t.stops (t.invCheck j c e) := by
    intro t c e
    unfold Chip.invCheck
    split
    · exact .refl t
    · exact Chip.stops_ite (t.stops_setEng ..) (.refl t)
  have hwalks : ∀ t : Chip, t.stops (t.invWalks j cx.1 cx.2) := fun t => ⟨rfl⟩
  unfold Chip.invAt
  exact (((s.stops_setCl cx.1 _).trans (hcheck _ cx.1 0)).trans (hcheck _ cx.1 1)).trans (hwalks _)

theorem stops_invAll (l : List (Nat × Nat)) (s : Chip) (j : InvJob) : s.stops (forEach l (Chip.invAt j) s) :=
  stops_forEach l (fun cx t => t.stops_invAt j cx) s

/-- The INV_RANGEs of partition p that are not answered. -/
def Chip.putInvs (s : Chip) (p : Nat) (l : List InvJob) : Chip :=
  { s with parts.invs := KMap.put s.parts.invs [] p l }

theorem Chip.invs_putInvs (s : Chip) (p : Nat) (l : List InvJob) : KMap.at (s.putInvs p l).parts.invs [] p = l :=
  at_put_self [] s.parts.invs p l

/-- The INV_RANGE in progress with the descriptors it waits for. -/
theorem Chip.invStart_begins {s : Chip} {p : Nat} {j : InvJob} (h : KMap.at s.parts.invs [] p = [j]) :
    ∃ w, s.invStart p = (forEach (s.invClusters p j) (Chip.invAt j) s).putInvs p [{ j with waits := w }] := by
  refine ⟨(s.invClusters p j).flatMap fun (c, x) => if (s.ctxAt x).translates
    then s.invWaits j c x 0 ++ s.invWaits j c x 1 else [], ?_⟩
  have hparts : (forEach (s.invClusters p j) (Chip.invAt j) s).parts = s.parts := (stops_invAll _ s j).parts
  unfold Chip.invStart Chip.putInvs
  rw [h, hparts]
  dsimp only
  rw [← hparts]
  rfl

/-! ## The command -/

/-- R149: the INV_RANGE a command asks for. -/
def invJobOf (q : CmdReq) (slot : Nat) (allS allV : Bool) (va len : Nat) : InvJob :=
  { q := q, slots := if allS then List.range 32 else [slot], lo := if allV then 0 else va / 0x200000
    hi := if allV then 2 ^ 27 else va / 0x200000 + len, waits := [] }

/-- R149: an INV_RANGE whose slot or range is out of bounds. -/
def invBad (slot : Nat) (allS allV : Bool) (va len : Nat) : Prop :=
  (allS = false ∧ 32 ≤ slot) ∨ (allV = false ∧ (va % 0x200000 ≠ 0 ∨ len = 0 ∨ 2 ^ 27 < len ∨
    2 ^ 27 < (if allV then 2 ^ 27 else va / 0x200000 + len)))

/-- R149: an INV_RANGE that is in order joins those of its partition, and starts where it is the first. -/
def Chip.invJoins (s : Chip) (q : CmdReq) (p : Nat) (j : InvJob) : Chip :=
  let s := s.cmdPending q
  let js := KMap.at s.parts.invs [] p
  let s := s.putInvs p (js ++ [j])
  if js.isEmpty then s.invStart p else s

theorem exec_invRange_eq {s : State} {q : CmdReq} {slot va len : Nat} {allS allV : Bool} (h : s.sys.chip.takesCmd q false) :
    (invBad slot allS allV va len → exec (.invRange q slot allS allV va len) s = .next { s with
      sys := { s.sys with chip := (s.sys.chip.leaveIngress q).cmdAnswer q .noAccess 0 } }) ∧
    (¬invBad slot allS allV va len → exec (.invRange q slot allS allV va len) s = .next { s with
      sys := { s.sys with
        chip := (s.sys.chip.leaveIngress q).invJoins q (s.sys.chip.sessPart q.session)
          (invJobOf q slot allS allV va len) } }) := by
  have hexec : exec (.invRange q slot allS allV va len) s = execInvRange q slot allS allV va len s := (rfl)
  rw [hexec, execInvRange, liftC, Chip.command_eq h]
  dsimp only
  unfold invBad
  exact ⟨fun hb => by rw [if_pos hb], fun hg => by rw [if_neg hg]; rfl⟩

theorem Chip.told_putInvs {s t : Chip} (h : s.Told t) (m : KMap (List InvJob)) :
    ({ s with parts.invs := m } : Chip).Told { t with parts.invs := m } := by
  refine ⟨?_, h.regs⟩
  conv => lhs; rw [h.rest]

theorem Chip.winOf_of_eth {s t : Chip} (h : t.eth = s.eth) (i c : Nat) : t.winOf i c = s.winOf i c := by
  unfold Chip.winOf Chip.sessPart Chip.sessW Chip.sessRec
  rw [h]

theorem Chip.pendingIs_congr {s t : Chip} {q : CmdReq} (h : t.winOf q.session q.chan = s.winOf q.session q.chan)
    (hp : s.pendingIs q) : t.pendingIs q := by
  unfold Chip.pendingIs
  rw [h]
  exact hp

/-- R149: an INV_RANGE behind another. -/
theorem invRange_waits {s : State} {q : CmdReq} {slot va len : Nat} {allS allV : Bool} (h : s.sys.chip.takesCmd q false)
    (hg : ¬invBad slot allS allV va len)
    (hjs : KMap.at s.sys.chip.parts.invs [] (s.sys.chip.sessPart q.session) ≠ []) :
    Pends (.invRange q slot allS allV va len) s { s.sys.chip with
      parts.invs := KMap.put s.sys.chip.parts.invs [] (s.sys.chip.sessPart q.session)
        (KMap.at s.sys.chip.parts.invs [] (s.sys.chip.sessPart q.session) ++ [invJobOf q slot allS allV va len]) } q := by
  have ht := (s.sys.chip.told_leaveIngress q).trans (Chip.told_cmdPending (s.sys.chip.leaveIngress q) q)
  have hpend := Chip.pendingIs_cmdPending (s.sys.chip.leaveIngress q) q
  have hjoin : (s.sys.chip.leaveIngress q).invJoins q (s.sys.chip.sessPart q.session) (invJobOf q slot allS allV va len) =
      { (s.sys.chip.leaveIngress q).cmdPending q with
        parts.invs := KMap.put s.sys.chip.parts.invs [] (s.sys.chip.sessPart q.session)
          (KMap.at s.sys.chip.parts.invs [] (s.sys.chip.sessPart q.session) ++ [invJobOf q slot allS allV va len]) } := by
    unfold Chip.invJoins
    dsimp only
    rw [ht.parts_invs, if_neg (by simpa using hjs), Chip.putInvs, ht.parts_invs]
  refine Pends.intro ((exec_invRange_eq h).2 hg) ?_ ?_
  · rw [hjoin]
    exact Chip.told_putInvs ht _
  · rw [hjoin]
    exact Chip.pendingIs_congr rfl hpend

theorem invRange_starts {s : State} {q : CmdReq} {slot va len : Nat} {allS allV : Bool} (h : s.sys.chip.takesCmd q false)
    (hg : ¬invBad slot allS allV va len)
    (hjs : KMap.at s.sys.chip.parts.invs [] (s.sys.chip.sessPart q.session) = []) :
    ∃ z, exec (.invRange q slot allS allV va len) s = .next { s with sys := z } ∧ z.mem = s.sys.mem ∧
      z.chip.pendingIs q ∧
      (∃ w, KMap.at z.chip.parts.invs [] (s.sys.chip.sessPart q.session) =
        [{ invJobOf q slot allS allV va len with waits := w }]) ∧
      ∀ c x, (c, some x) ∈ s.sys.chip.parts.owner → x / 32 = s.sys.chip.sessPart q.session →
        x % 32 ∈ (invJobOf q slot allS allV va len).slots →
        ∀ i t, (i, some t) ∈ (z.chip.cl c).tlb → t.ctx = x →
          (invJobOf q slot allS allV va len).meets t.page t.size = false := by
  have ht := (s.sys.chip.told_leaveIngress q).trans (Chip.told_cmdPending (s.sys.chip.leaveIngress q) q)
  have hpend := Chip.pendingIs_cmdPending (s.sys.chip.leaveIngress q) q
  generalize hp : s.sys.chip.sessPart q.session = p at hjs ⊢
  generalize hj : invJobOf q slot allS allV va len = j
  have hexec := (exec_invRange_eq h).2 hg
  rw [hp, hj] at hexec
  generalize hu : (s.sys.chip.leaveIngress q).cmdPending q = u at ht hpend
  have hown : u.parts.owner = s.sys.chip.parts.owner := ht.parts_owner
  have hinvs : u.parts.invs = s.sys.chip.parts.invs := ht.parts_invs
  obtain ⟨w, hw⟩ := Chip.invStart_begins (u.invs_putInvs p [j])
  have hrest := stops_invAll ((u.putInvs p [j]).invClusters p j) (u.putInvs p [j]) j
  have hdrops : ∀ c x, (c, x) ∈ (u.putInvs p [j]).invClusters p j → ∀ i t,
      (i, some t) ∈ ((forEach ((u.putInvs p [j]).invClusters p j) (Chip.invAt j) (u.putInvs p [j])).cl c).tlb →
      t.ctx = x → j.meets t.page t.size = false := fun c x hm i t hi hx => invAll_drops hm _ j hi hx
  have hjoin : (s.sys.chip.leaveIngress q).invJoins q p j = (u.putInvs p [j]).invStart p := by
    unfold Chip.invJoins
    dsimp only
    rw [hu, hinvs, hjs, if_pos (by rfl)]
    rfl
  rw [hjoin, hw] at hexec
  generalize forEach _ (Chip.invAt j) _ = v at hexec hrest hdrops
  refine ⟨_, hexec, rfl, ?_, ⟨w, v.invs_putInvs p _⟩, ?_⟩
  · refine Chip.pendingIs_congr ?_ hpend
    have heth : v.eth = u.eth := by rw [hrest.rest]; rfl
    exact Chip.winOf_of_eth heth ..
  · intro c x hc hxp hxs i t hi hx
    exact hdrops c x (Chip.mem_invClusters (hown ▸ hc) hxp hxs) i t hi hx

/-- R149: the answer, where no descriptor is waited for and no other INV_RANGE waits. -/
theorem invRangeAnswer_ok {s : State} {n : PartNo} {j : InvJob} (h : KMap.at s.sys.chip.parts.invs [] n = [j])
    (hw : j.waits.all s.sys.chip.invSettled = true) (hc : s.sys.chip.invClusters n j = []) :
    Answers (.invRangeAnswer n) s { s.sys.chip with
      parts.invs := KMap.put s.sys.chip.parts.invs [] n [] } j.q .ok 0 := by
  have hexec : exec (.invRangeAnswer n) s = execInvRangeAnswer n s := (rfl)
  have ht := Chip.told_cmdAnswer { s.sys.chip with parts.invs := KMap.put s.sys.chip.parts.invs [] n [] } j.q .ok 0
  have hnone : KMap.at (Chip.cmdAnswer { s.sys.chip with
      parts.invs := KMap.put s.sys.chip.parts.invs [] n [] } j.q .ok 0).parts.invs [] n = [] := by
    rw [ht.parts_invs]
    exact at_put_self [] s.sys.chip.parts.invs n []
  refine Answers.intro (t := Chip.cmdAnswer { s.sys.chip with
    parts.invs := KMap.put s.sys.chip.parts.invs [] n [] } j.q .ok 0) ?_ ht (Chip.answeredIs_cmdAnswer ..)
  rw [hexec, execInvRangeAnswer, liftC]
  dsimp only
  rw [h]
  dsimp only
  rw [if_pos hw, hc, Chip.invStart, hnone]
  rfl

/-- Settles O31: an INV_RANGE out of bounds, behind another, and at the head; and the answer. -/
theorem invRange : Obligations.InvRange := by
  unfold Obligations.InvRange
  intro s q slot va len allS allV y p js lo hi slots bad h
  refine ⟨fun hb => answers_of_exec ((exec_invRange_eq h).1 hb), invRange_waits h, fun hg hjs => ?_,
    fun n j hj hw hc => invRangeAnswer_ok hj hw hc⟩
  obtain ⟨z, hexec, hm, hp, hw, hd⟩ := invRange_starts h hg hjs
  refine ⟨z, hexec, hm, hp, hw, fun c x hc hxp hxs i t ht hx => ?_⟩
  exact of_decide_eq_false (hd c x hc hxp hxs i t ht hx)

end Sys2Proof.Machine

/-! PROOF of O32 (R164, R168, R170, R176): what a controller serves in a reserved slot. -/

namespace Sys2Proof.Machine

-- One after the other: side by side the proofs ask for more memory than the check grants.
set_option Elab.async false

open Laws

/-! ## What the work of a controller leaves (R172, R174) -/

/-- Registers that controller n's work does not write: outside its page, the fault queue's and those that
events count in. -/
def mcQuiet (n a : Nat) : Prop :=
  belowPt a ∧ (a < mcPg n ∨ mcPg n + 0x1000 ≤ a) ∧ (a < fqPg ∨ fqPg + 0x1000 ≤ a)

/-- Controller n has activated rows, corrected or reported: accesses, promises, its poison, marks and armed
injection, and the quiet registers are as before. -/
structure Chip.mcActs (s t : Chip) (n : Nat) : Prop where
  accs : t.accs = s.accs
  prom : t.prom = s.prom
  poison : (t.mc n).poison = (s.mc n).poison
  marked : (t.mc n).marked = (s.mc n).marked
  inject : (t.mc n).inject = (s.mc n).inject
  regs : ∀ a, mcQuiet n a → t.reg a = s.reg a

theorem Chip.mcActs.refl (s : Chip) (n : Nat) : s.mcActs s n := ⟨rfl, rfl, rfl, rfl, rfl, fun _ _ => rfl⟩

theorem Chip.mcActs.trans {s t u : Chip} {n : Nat} (h : s.mcActs t n) (h' : t.mcActs u n) : s.mcActs u n :=
  ⟨h'.accs.trans h.accs, h'.prom.trans h.prom, h'.poison.trans h.poison, h'.marked.trans h.marked,
    h'.inject.trans h.inject, fun a ha => (h'.regs a ha).trans (h.regs a ha)⟩

theorem Chip.mcActs_ite {s t u : Chip} {n : Nat} {p : Prop} [Decidable p] (h : s.mcActs t n) (h' : s.mcActs u n) :
    s.mcActs (if p then t else u) n := by
  split <;> assumption

theorem Chip.Reports.mcActs {s t : Chip} {n : Nat} (h : s.Reports t) (hr : ∀ a, mcQuiet n a → t.reg a = s.reg a) :
    s.mcActs t n :=
  ⟨h.accs, h.prom, by rw [h.mc], by rw [h.mc], by rw [h.mc], hr⟩

/-- A register of controller n's own page. -/
theorem Chip.mcActs_setReg (s : Chip) (n : Nat) {k : Nat} (w : Word) (h : k < 0x1000) :
    s.mcActs (s.setReg (mcPg n + k) w) n :=
  ⟨rfl, rfl, rfl, rfl, rfl, fun a ha => Chip.reg_setReg_ne _ _ (by have := ha.2.1; omega)⟩

theorem Chip.mcActs_setMc (s : Chip) (n : Nat) {m : Mc} (hp : m.poison = (s.mc n).poison)
    (hm : m.marked = (s.mc n).marked) (hi : m.inject = (s.mc n).inject) : s.mcActs (s.setMc n m) n :=
  ⟨rfl, rfl, by rw [Chip.mc_setMc, hp], by rw [Chip.mc_setMc, hm], by rw [Chip.mc_setMc, hi], fun _ _ => rfl⟩

theorem Chip.mcActs_notice (s : Chip) (n b : Nat) : s.mcActs (s.notice (mcPg n) b) n :=
  (s.reports_notice _ _).mcActs fun a ha => by
    have := ha.2.1
    exact Chip.notice_reg _ _ _ ha.1 (by omega) (by omega)

theorem Chip.mcActs_latchFirst (s : Chip) (n b c i : Nat) (inj : Bool) : s.mcActs (s.latchFirst (mcPg n) b c i inj) n :=
  (s.reports_latchFirst _ _ _ _ _).mcActs fun a ha => by
    have := ha.2.1
    exact Chip.latchFirst_reg _ _ _ _ _ _ (by omega)

theorem Chip.mcActs_setErr (s : Chip) (n b : Nat) : s.mcActs (s.setErr (mcPg n) b) n :=
  (s.reports_setErr _ _).mcActs fun a ha => by
    have := ha.2.1
    exact Chip.setErr_reg _ _ _ ha.1 (by unfold errStat; omega)

theorem Chip.mcActs_fault (s : Chip) (n : Nat) (r : FaultRec) : s.mcActs (s.fault r) n :=
  (s.reports_fault r).mcActs fun _ ha => Chip.fault_reg _ _ ha.1 ha.2.2

/-- R172: an activation. -/
theorem Chip.mcActs_activate (s : Chip) (n k r x : Nat) : s.mcActs (s.activate n k r x) n := by
  have hthr : ∀ (t : Chip) (l : List Thr), s.mcActs t n → s.mcActs { t with thrMsgs := l } n := fun t l h =>
    h.trans ⟨rfl, rfl, rfl, rfl, rfl, fun _ _ => rfl⟩
  have hrec : ∀ (p : Nat) (m : Mc) (v w : Word), p = mcPg n → m.poison = (s.mc n).poison →
      m.marked = (s.mc n).marked → m.inject = (s.mc n).inject →
      s.mcActs (((((s.setMc n m).setReg (p + 0x64) v).setReg (p + 0x68) w).bump (p + 0x6C)).notice p 3) n := by
    intro p m v w hp hpo hm hi
    subst hp
    exact ((((s.mcActs_setMc n hpo hm hi).trans (Chip.mcActs_setReg _ n _ (by decide))).trans
      (Chip.mcActs_setReg _ n _ (by decide))).trans (Chip.mcActs_setReg _ n _ (by decide))).trans (Chip.mcActs_notice ..)
  unfold Chip.activate
  dsimp only
  split
  · exact s.mcActs_setMc n rfl rfl rfl
  · generalize ht : Chip.notice _ (mcPg n) 3 = t
    have h : s.mcActs t n := ht ▸ hrec _ _ _ _ rfl rfl rfl rfl
    split
    · exact h
    · exact hthr t _ h

theorem Chip.mcActs_activateBlk (s : Chip) (n b x : Nat) : s.mcActs (s.activateBlk n b x) n := by
  unfold Chip.activateBlk
  exact (s.mcActs_activate n _ _ x).trans (Chip.mcActs_activate _ n _ _ x)

/-- R174: a correction. -/
theorem Chip.mcActs_correct (s : Chip) (n k : Nat) : s.mcActs (s.correct n k) n := by
  have hreg : ∀ (t : Chip) {i : Nat} (w : Word), i < 0x1000 → t.mcActs (t.setReg (mcPg n + i) w) n :=
    fun t i w h => t.mcActs_setReg n w h
  have h0 : s.mcActs ((s.bumpBy (mcPg n + 0x78) k).bump (mcPg n + 0x20)) n :=
    (hreg _ _ (by decide)).trans (hreg _ _ (by decide))
  unfold Chip.correct
  dsimp only
  refine Chip.mcActs_ite (.refl s n) (Chip.mcActs_ite ?_ (h0.trans (hreg _ _ (by decide))))
  exact (((h0.trans (hreg _ _ (by decide))).trans (hreg _ _ (by decide))).trans (Chip.mcActs_notice ..)).trans
    (Chip.mcActs_fault ..)

theorem Chip.mcActs.codeT {s t : Chip} {n : Nat} (h : s.mcActs t n) (hn : n < 256) : t.codeT = s.codeT := by
  have hreg : t.reg (memPg + 0x40) = s.reg (memPg + 0x40) := h.regs _ (by
    unfold mcQuiet belowPt memPg mcPg fqPg
    omega)
  rw [Chip.codeT, Chip.fld, hreg, Chip.codeT, Chip.fld]

theorem Chip.mcActs.standsBy {s t : Chip} {n : Nat} (h : s.mcActs t n) (hn : n < 256) : t.standsBy = s.standsBy := by
  have hreg : t.reg (pairPg + 0x48) = s.reg (pairPg + 0x48) := h.regs _ (by
    unfold mcQuiet belowPt pairPg mcPg fqPg
    omega)
  rw [Chip.standsBy, Chip.pairRole, Chip.fld, hreg, Chip.standsBy, Chip.pairRole, Chip.fld]

theorem Chip.mcActs_askRepair (s : Chip) (n b : Nat) : s.mcActs (s.askRepair b) n := by
  have hsend : s.mcActs (s.duoSend 9 0 0 b 0 []) n := ⟨rfl, rfl, rfl, rfl, rfl, fun _ _ => rfl⟩
  unfold Chip.askRepair
  exact Chip.mcActs_ite hsend (.refl s n)

/-! ## Reading a block (R175, R176) -/

/-- R157, R176: a block in no table whose errors the code corrects is read. -/
theorem Sys.readBlk_good {y : Sys} {n b : Nat} (port part : Nat) (hp : (y.chip.mc n).poison.any (fun p => p.1 == b) = false)
    (hm : (y.chip.mc n).marked = []) (he : (KMap.at y.mem.poolErr [] b).length ≤ y.chip.codeT) :
    y.readBlk n b port part =
      (some (y.mem.blk b), { y with chip := y.chip.correct n (KMap.at y.mem.poolErr [] b).length }) := by
  have hdec : y.mem.decode y.chip.codeT b y.chip.free = .good (KMap.at y.mem.poolErr [] b).length := by
    rw [Mem.decode, if_pos he]
  unfold Sys.readBlk
  dsimp only
  rw [if_neg (by rw [hp]; decide), if_neg (by rw [hm]; simp), hdec]

/-- R176: a block in the poison table is not read. -/
theorem Sys.readBlk_poison {y : Sys} {n b : Nat} (port part : Nat) (hp : (y.chip.mc n).poison.any (fun p => p.1 == b) = true) :
    y.readBlk n b port part =
      (none, { y with chip := (y.chip.latchFirst (mcPg n) 2 1 b false).setErr (mcPg n) 2 }) := by
  unfold Sys.readBlk
  dsimp only
  rw [if_pos hp]

/-! ## Ends of an access -/

/-- The access has been served with a status and bytes. -/
def Chip.servedAs (s : Chip) (src : BlkSrc) (st : Status) (d : List Byte) : Prop :=
  ∃ b ∈ s.accs, b.src = src ∧ b.phase = .served ∧ b.st = st ∧ b.data = d

/-- R168: an access ends. -/
def Chip.ends (s : Chip) (a : Acc) (st : Status) (d : List Byte) : Chip :=
  (s.setAcc a.src fun a => { a with phase := .served, st := st, data := d }).accEnded
    { a with phase := .served, st := st, data := d }

theorem mem_updWhere {α : Type} {l : List α} {p : α → Bool} {x : α} (hx : x ∈ l) (hp : p x = true) (f : α → α) :
    f x ∈ updWhere l p f := by
  unfold updWhere
  exact List.mem_map.2 ⟨x, hx, by rw [if_pos hp]⟩

theorem Chip.mem_setAcc {s : Chip} {a : Acc} (h : a ∈ s.accs) (f : Acc → Acc) : f a ∈ (s.setAcc a.src f).accs :=
  mem_updWhere h (by simp) f

/-- R13, R226: an access of a request that ends stays, served, whatever its status brings the request. -/
theorem Chip.ends_served {s : Chip} {a : Acc} {id k : Nat} (h : a ∈ s.accs) (hsrc : a.src = .req id k) (st : Status)
    (d : List Byte) : (s.ends a st d).servedAs a.src st d ∧ (s.ends a st d).mcs = s.mcs := by
  have hmem := Chip.mem_setAcc h fun a => { a with phase := .served, st := st, data := d }
  have hmcs : (s.setAcc a.src fun a => { a with phase := .served, st := st, data := d }).mcs = s.mcs := rfl
  unfold Chip.ends
  generalize (s.setAcc a.src fun a => { a with phase := .served, st := st, data := d }) = t at hmem hmcs
  unfold Chip.accEnded
  dsimp only
  rw [hsrc]
  dsimp only
  split
  · exact ⟨⟨_, hmem, hsrc, rfl, rfl, rfl⟩, hmcs⟩
  · refine ⟨⟨{ a with phase := .served, st := st, data := d }, ?_, hsrc, rfl, rfl, rfl⟩, hmcs⟩
    unfold Chip.endReqs
    exact List.mem_filter.2 ⟨hmem, by simp [hsrc]⟩

/-! ## The slot -/

theorem Chip.tookSlot_mc (s : Chip) (n j k : Nat) : ((s.tookSlot n j k).mc n).lastSlot = some j := by
  have hflag : ∀ (t : Chip) (a i : Nat) (b : Bool), (t.setFlag a i b).mc n = t.mc n := fun t a i b => by
    rw [Chip.mc, Chip.setFlag_mcs, Chip.mc]
  unfold Chip.tookSlot
  dsimp only
  rw [hflag, Chip.mc_setMc]

theorem Chip.tookSlot_accs (s : Chip) (n j k : Nat) : (s.tookSlot n j k).accs = s.accs := by
  unfold Chip.tookSlot
  dsimp only
  rw [Chip.setFlag_accs]
  rfl

/-- R164: the slot of controller n serves access a, which is reserved for it. -/
structure Sys.reserves (y : Sys) (n : Nat) (a : Acc) (id k : Nat) : Prop where
  regions : y.chip.regions = []
  runs : y.chip.fld (mcPg n + 0x40) 2 0 = 2
  fresh : ∀ k, (y.chip.mc n).lastSlot = some k → k < y.chip.slotAt y.chip.now
  quiet : y.chip.inScrub n (y.chip.slotAt y.chip.now) = false
  held : (y.chip.markLate n (y.chip.slotAt y.chip.now)).reservedFor n (y.chip.slotAt y.chip.now) = some a
  src : a.src = .req id k
  marked : (y.chip.mc n).marked = []
  inject : (y.chip.mc n).inject = 0

/-- R164: the chip in a slot, its late accesses marked. -/
def Sys.slotBegins (y : Sys) (n : Nat) : Sys := onChip (fun s => s.markLate n (y.chip.slotAt y.chip.now)) y

theorem exec_blockSlot_eq {s : State} {n : McNo} {a : Acc} {id k : Nat} (h : s.sys.reserves n a id k) :
    exec (.blockSlot n) s = .next { s with
      sys := onChip (fun t => t.tookSlot n (s.sys.chip.slotAt s.sys.chip.now) (t.bankOf a.pb))
        ((s.sys.slotBegins n).serve n (s.sys.chip.slotAt s.sys.chip.now) a) } := by
  have hexec : exec (.blockSlot n) s = execBlockSlot n s := (rfl)
  have hkick : s.sys.chip.regionKicks = s.sys.chip := by rw [Chip.regionKicks, h.regions]; rfl
  have hbegin : onChip (fun t => t.regionKicks.markLate n (s.sys.chip.slotAt s.sys.chip.now)) s.sys = s.sys.slotBegins n := by
    rw [onChip, hkick]
    rfl
  have hheld : (s.sys.slotBegins n).chip.reservedFor n (s.sys.chip.slotAt s.sys.chip.now) = some a := h.held
  rw [hexec, execBlockSlot, liftS]
  dsimp only
  rw [if_neg (by rw [h.runs]; simp), hbegin, hheld]
  cases hl : (s.sys.chip.mc n).lastSlot with
  | none =>
    dsimp only
    rw [if_neg (by simp [h.quiet])]
  | some k' =>
    have := h.fresh k' hl
    dsimp only
    rw [if_neg (by simp [h.quiet]; omega)]

theorem Sys.reserves.mem {y : Sys} {n : Nat} {a : Acc} {id k : Nat} (h : y.reserves n a id k) :
    a ∈ (y.slotBegins n).chip.accs := List.mem_of_find?_eq_some h.held

theorem Sys.reserves.atMc {y : Sys} {n : Nat} {a : Acc} {id k : Nat} (h : y.reserves n a id k) : atMc a = true := by
  have := List.find?_some h.held
  simp only [Bool.and_eq_true] at this
  exact this.1.1.1.1.1.1

/-! ## Serving it -/

/-- Marking late accesses writes no register outside the controller's page. -/
theorem Chip.markLate_acts (s : Chip) {n : Nat} (hn : n < 256) (j : Nat) :
    (s.markLate n j).mc n = s.mc n ∧ (s.markLate n j).codeT = s.codeT ∧ (s.markLate n j).standsBy = s.standsBy := by
  unfold Chip.markLate
  dsimp only
  generalize hu : s.updAccs _ _ = u
  have hmc : u.mc n = s.mc n := by rw [← hu]; rfl
  have hregs : u.regs = s.regs := by rw [← hu]; rfl
  have h : ∀ k, u.mcActs (u.bumpBy (mcPg n + 0xAC) k) n := fun k => u.mcActs_setReg n _ (by decide)
  have hct : u.codeT = s.codeT := by rw [Chip.codeT, Chip.fld, Chip.reg, hregs]; rfl
  have hsb : u.standsBy = s.standsBy := by rw [Chip.standsBy, Chip.pairRole, Chip.fld, Chip.reg, hregs]; rfl
  refine ⟨?_, (h _).codeT hn |>.trans hct, (h _).standsBy hn |>.trans hsb⟩
  rw [Chip.mc, Chip.bumpBy_mcs, ← hmc, Chip.mc]

/-- The controller at a reserved slot with the rows of the access activated. -/
structure Sys.serves (y u : Sys) (n : Nat) (a : Acc) : Prop where
  chip : u.chip = (y.slotBegins n).chip.activateBlk n a.pb (if a.port ≤ 2 then a.x else 0)
  mem : u.mem = y.mem
  mine : a ∈ u.chip.accs
  poison : (u.chip.mc n).poison = (y.chip.mc n).poison
  marked : (u.chip.mc n).marked = []
  inject : (u.chip.mc n).inject = 0
  codeT : u.chip.codeT = y.chip.codeT
  standsBy : u.chip.standsBy = y.chip.standsBy

theorem Sys.reserves.serves {y : Sys} {n : Nat} {a : Acc} {id k : Nat} (h : y.reserves n a id k) (hn : n < 256) :
    y.serves (onChip (fun s => s.activateBlk n a.pb (if a.port ≤ 2 then a.x else 0)) (y.slotBegins n)) n a := by
  obtain ⟨hmc, hct, hsb⟩ := y.chip.markLate_acts hn (y.chip.slotAt y.chip.now)
  have hacts := (y.slotBegins n).chip.mcActs_activateBlk n a.pb (if a.port ≤ 2 then a.x else 0)
  have hmc' : (y.slotBegins n).chip.mc n = y.chip.mc n := hmc
  exact ⟨rfl, rfl, hacts.accs ▸ h.mem, by rw [onChip_chip, hacts.poison, hmc'], by rw [onChip_chip, hacts.marked, hmc', h.marked],
    by rw [onChip_chip, hacts.inject, hmc', h.inject], (hacts.codeT hn).trans hct, (hacts.standsBy hn).trans hsb⟩

/-- What serving an access leaves before the slot counts as taken. -/
def Sys.served (y : Sys) (a : Acc) (st : Status) (d : List Byte) : Sys := onChip (fun s => s.ends a st d) y

theorem Sys.served_slot {z : Sys} {a : Acc} {id k : Nat} (h : a ∈ z.chip.accs) (hsrc : a.src = .req id k) (n j : Nat)
    (st : Status) (d : List Byte) :
    ((onChip (fun t => t.tookSlot n j (t.bankOf a.pb)) (z.served a st d)).chip.mc n).lastSlot = some j ∧
      (onChip (fun t => t.tookSlot n j (t.bankOf a.pb)) (z.served a st d)).chip.servedAs a.src st d := by
  refine ⟨Chip.tookSlot_mc .., ?_⟩
  obtain ⟨b, hb, hrest⟩ := (Chip.ends_served h hsrc st d).1
  exact ⟨b, by rw [onChip_chip, Chip.tookSlot_accs]; exact hb, hrest⟩

theorem Sys.setForm_req {y : Sys} {a : Acc} {id k : Nat} (h : a.src = .req id k) : y.setForm a = a := by
  unfold Sys.setForm
  rw [h]

theorem Sys.readForm_req {y : Sys} {a : Acc} {id k : Nat} (h : a.src = .req id k) (d : List Byte) :
    y.readForm a d = (d.drop a.lo).take a.len := by
  unfold Sys.readForm
  rw [h]

section
variable {y u : Sys} {n j id k : Nat} {a : Acc}

/-- R168: a read of a block the code corrects. -/
theorem Sys.serve_read (hu : u = onChip (fun s => s.activateBlk n a.pb (if a.port ≤ 2 then a.x else 0)) y)
    (hsrc : a.src = .req id k) (hw : a.write = false) {d : List Byte} {t : Chip}
    (hr : u.readBlk n a.pb a.port a.part = (some d, { u with chip := t })) :
    y.serve n j a = ({ u with chip := t } : Sys).served a .ok ((d.drop a.lo).take a.len) := by
  unfold Sys.serve
  dsimp only
  rw [← hu, Sys.setForm_req hsrc, if_pos hw, hr]
  dsimp only
  rw [Sys.readForm_req hsrc]
  rfl

/-- R176: a read of a block that is not there. -/
theorem Sys.serve_ue (hu : u = onChip (fun s => s.activateBlk n a.pb (if a.port ≤ 2 then a.x else 0)) y)
    (hsrc : a.src = .req id k) (hw : a.write = false) {t : Chip}
    (hr : u.readBlk n a.pb a.port a.part = (none, { u with chip := t })) (hs : (t.askRepair a.pb).standsBy = false) :
    y.serve n j a = ({ u with chip := t.askRepair a.pb } : Sys).served a .ue [] := by
  unfold Sys.serve
  dsimp only
  rw [← hu, Sys.setForm_req hsrc, if_pos hw, hr]
  dsimp only
  rw [if_neg (by rw [onChip_chip, hs]; decide)]
  rfl

/-- R170: the first half of a sub-block write. -/
theorem Sys.serve_merge (hu : u = onChip (fun s => s.activateBlk n a.pb (if a.port ≤ 2 then a.x else 0)) y)
    (hsrc : a.src = .req id k) (hw : a.write = true) (hp : a.phase = .ready) (hl : a.len < 2048) {d : List Byte} {t : Chip}
    (hr : u.readBlk n a.pb a.port a.part = (some d, { u with chip := t })) :
    y.serve n j a = { u with
      chip := t.setAcc a.src fun x => { x with phase := .rmw j, data := d.take a.lo ++ a.data ++ d.drop (a.lo + a.len) } } := by
  unfold Sys.serve
  dsimp only
  rw [← hu, Sys.setForm_req hsrc, if_neg (by rw [hw]; decide), hp]
  dsimp only
  rw [if_pos hl, hr]
  rfl

/-- R168, R170: a whole-block write, and the second half of a sub-block write. -/
theorem Sys.serve_write (hu : u = onChip (fun s => s.activateBlk n a.pb (if a.port ≤ 2 then a.x else 0)) y)
    (hsrc : a.src = .req id k) (hw : a.write = true) (hp : (a.phase = .ready ∧ a.len = 2048) ∨ ∃ i, a.phase = .rmw i)
    (hd : u.chip.isDefect n a.pb = false) :
    y.serve n j a = (u.writeFwd n a.pb a.data a.src).served a .ok [] := by
  unfold Sys.serve
  dsimp only
  rw [← hu, Sys.setForm_req hsrc, if_neg (by rw [hw]; decide)]
  obtain ⟨hp, hl⟩ | ⟨i, hp⟩ := hp
  · rw [hp]
    dsimp only
    rw [if_neg (by omega), if_neg (by rw [hd]; decide)]
    rfl
  · rw [hp]
    rfl

end

/-- R156: what writing a block leaves of the memories, with no injection armed. -/
theorem Sys.writeFwd_plain {y : Sys} {n b : Nat} (hd : y.chip.isDefect n b = false) (hi : (y.chip.mc n).inject = 0)
    (d : List Byte) (src : BlkSrc) :
    (y.writeFwd n b d src).mem = y.mem.putBlk b 0 d ∧ (y.writeFwd n b d src).chip.accs = y.chip.accs := by
  have hw : (y.writeBlk n b 0 d).mem = y.mem.putBlk b 0 d ∧ (y.writeBlk n b 0 d).chip.accs = y.chip.accs := by
    unfold Sys.writeBlk
    rw [if_neg (by rw [hd]; decide)]
    dsimp only
    rw [if_neg (by rw [hi]; decide)]
    exact ⟨rfl, rfl⟩
  unfold Sys.writeFwd
  dsimp only
  split
  · exact hw
  · exact hw

/-- Settles O32: the controller in a reserved slot, by what the access is. -/
theorem blockSlot : Obligations.BlockSlot := by
  unfold Obligations.BlockSlot
  intro s n a id k y j hreg hrun hfresh hquiet hheld hsrc hmarked hinj ends
  have h : y.reserves n a id k := ⟨hreg, hrun, hfresh, hquiet, hheld, hsrc, hmarked, hinj⟩
  have hs := h.serves n.isLt
  have hexec := exec_blockSlot_eq h
  generalize hu : onChip (fun s => s.activateBlk n a.pb (if a.port ≤ 2 then a.x else 0)) (y.slotBegins n) = u at hs
  refine ⟨fun hp => ⟨fun hw hph hlen => ?_, fun he => ⟨fun hw => ?_, fun hw hph hl => ?_⟩⟩, fun hp hw hsb => ?_⟩
  · have hdef : u.chip.isDefect n a.pb = false := by
      rw [Chip.isDefect, hs.poison]
      rw [List.any_eq_false] at hp ⊢
      intro p hm
      simpa using fun h1 => absurd h1 (by simpa using hp p hm)
    obtain ⟨hm, haccs⟩ := u.writeFwd_plain hdef hs.inject a.data a.src
    have hserve := Sys.serve_write (j := j) hu.symm hsrc hw hph hdef
    refine ⟨_, hexec, ?_⟩
    rw [hserve]
    have hmem : (onChip (fun t => t.tookSlot n j (t.bankOf a.pb)) ((u.writeFwd n a.pb a.data a.src).served a .ok [])).mem =
        y.mem.putBlk a.pb 0 a.data := by rw [← hs.mem, ← hm]; rfl
    refine ⟨Sys.served_slot (haccs ▸ hs.mine) hsrc n j .ok [], ?_⟩
    rw [hmem]
    refine ⟨bytes_store_of_length hlen, at_put_self [] y.mem.poolErr a.pb [], fun i hi => at_store_out _ _ _ (by omega), rfl, rfl⟩
  · have hr := Sys.readBlk_good (y := u) a.port a.part (hs.poison ▸ hp) hs.marked (by rw [hs.mem, hs.codeT]; exact he)
    refine ⟨_, hexec, ?_⟩
    rw [Sys.serve_read (j := j) hu.symm hsrc hw hr, hs.mem]
    refine ⟨rfl, Sys.served_slot ?_ hsrc n j .ok _⟩
    rw [(u.chip.mcActs_correct n _).accs]
    exact hs.mine
  · have hr := Sys.readBlk_good (y := u) a.port a.part (hs.poison ▸ hp) hs.marked (by rw [hs.mem, hs.codeT]; exact he)
    refine ⟨_, hexec, ?_⟩
    rw [Sys.serve_merge (j := j) hu.symm hsrc hw hph hl hr]
    refine ⟨hs.mem, Chip.tookSlot_mc .., ?_⟩
    have hmine : a ∈ (u.chip.correct n (KMap.at u.mem.poolErr [] a.pb).length).accs := by
      rw [(u.chip.mcActs_correct n _).accs]
      exact hs.mine
    have hmerged := Chip.mem_setAcc hmine fun x => { x with
      phase := .rmw j, data := (u.mem.blk a.pb).take a.lo ++ a.data ++ (u.mem.blk a.pb).drop (a.lo + a.len) }
    rw [onChip_chip, Chip.tookSlot_accs, ← hs.mem]
    exact ⟨_, hmerged, rfl, rfl, rfl⟩
  · have hr := Sys.readBlk_poison (y := u) (n := n) (b := a.pb) a.port a.part (by rw [hs.poison]; exact hp)
    have hacts : u.chip.mcActs (((u.chip.latchFirst (mcPg n) 2 1 a.pb false).setErr (mcPg n) 2).askRepair a.pb) n :=
      ((u.chip.mcActs_latchFirst n 2 1 a.pb false).trans (Chip.mcActs_setErr ..)).trans (Chip.mcActs_askRepair ..)
    refine ⟨_, hexec, ?_⟩
    rw [Sys.serve_ue (j := j) hu.symm hsrc hw hr (by rw [hacts.standsBy n.isLt, hs.standsBy]; exact hsb)]
    refine ⟨hs.mem, Sys.served_slot ?_ hsrc n j .ue []⟩
    rw [hacts.accs]
    exact hs.mine

end Sys2Proof.Machine

/-! PROOF of O33 (R165, R166, R171 to R174, R180, R242, R380): the commands of a controller's own time. -/

namespace Sys2Proof.Laws

/-- Storing the bytes that are there changes nothing that is read. -/
theorem at_store_same (n : Nat) (m : KMap Byte) (a i : Nat) : (m.store a (m.bytes a n)).at 0 i = m.at 0 i := by
  induction n generalizing m a with
  | zero => rfl
  | succ n ih =>
    have hput : ∀ k, (m.put 0 a (m.at 0 a)).at 0 k = m.at 0 k := fun k => by
      by_cases h : a = k
      · subst h
        exact at_put_self 0 m a _
      · exact at_put_ne m _ h
    simp only [KMap.bytes, KMap.store]
    rw [← bytes_congr (fun k _ _ => hput k), ih, hput]

end Sys2Proof.Laws

namespace Sys2Proof.Machine

-- One after the other: side by side the proofs ask for more memory than the check grants.
set_option Elab.async false

open Laws

/-- A command that acts on the chip alone. -/
def chipNext (s : State) (i : Instr) (t : Chip) : Prop := exec i s = .next { s with sys := { s.sys with chip := t } }

/-! ## Throttles (R173, R242) -/

theorem throttle_enters {s : State} {t : Thr} (hmsg : s.sys.chip.thrMsgs = [t])
    (hnew : ∀ e ∈ s.sys.chip.prom.thr, ¬(e.x = t.x ∧ e.n = t.n)) (hroom : s.sys.chip.prom.thr.length < 64) :
    chipNext s .throttle { s.sys.chip with thrMsgs := [], prom.thr := s.sys.chip.prom.thr ++ [t] } := by
  have hexec : exec .throttle s = execThrottle s := (rfl)
  have hnone : s.sys.chip.prom.thr.any (fun e => e.x == t.x && e.n == t.n) = false := by
    rw [List.any_eq_false]
    intro e he
    simpa using fun hx hn => hnew e he ⟨hx, hn⟩
  have hadd : ({ s.sys.chip with thrMsgs := [] } : Chip).addThrottle t =
      { s.sys.chip with thrMsgs := [], prom.thr := s.sys.chip.prom.thr ++ [t] } := by
    unfold Chip.addThrottle
    dsimp only
    rw [if_neg (by rw [hnone]; decide), if_pos hroom]
  rw [chipNext, hexec, execThrottle, liftC]
  dsimp only
  rw [hmsg, forEach, List.foldl_cons, List.foldl_nil, hadd]

theorem throttleEnd_eq {s : State} {i : Nat} {t : Thr} (h : s.sys.chip.prom.thr[i]? = some t) :
    (t.stop ≤ s.sys.chip.now →
      chipNext s (.throttleEnd i) { s.sys.chip with prom.thr := s.sys.chip.prom.thr.eraseIdx i }) ∧
    (s.sys.chip.now < t.stop → chipNext s (.throttleEnd i) s.sys.chip) := by
  have hexec : exec (.throttleEnd i) s = execThrottleEnd i s := (rfl)
  unfold chipNext
  rw [hexec, execThrottleEnd, liftC, h]
  exact ⟨fun ht => by dsimp only; rw [if_pos ht], fun ht => by dsimp only; rw [if_neg (by omega)]⟩

/-! ## Hot rows (R172) -/

/-- The hot-row tables of a controller are emptied. -/
def Chip.clearHot (n : Nat) (s : Chip) : Chip := s.setMc n { s.mc n with hot := [] }

theorem Chip.mc_setMc_ne (s : Chip) {n k : Nat} (m : Mc) (h : n ≠ k) : (s.setMc n m).mc k = s.mc k := by
  unfold Chip.mc Chip.setMc
  exact at_put_ne (d := ({} : Mc)) (d' := {}) s.mcs m h

theorem Chip.hot_clearHot (s : Chip) (n k : Nat) (h : n = k ∨ (s.mc k).hot = []) : ((s.clearHot n).mc k).hot = [] := by
  by_cases hn : n = k
  · subst hn
    rw [Chip.clearHot, Chip.mc_setMc]
  · rw [Chip.clearHot, Chip.mc_setMc_ne _ _ hn]
    exact h.resolve_left hn

theorem hot_clearAll (l : List Nat) (s : Chip) (k : Nat) (h : k ∈ l ∨ (s.mc k).hot = []) :
    ((forEach l Chip.clearHot s).mc k).hot = [] := by
  induction l generalizing s with
  | nil => exact h.resolve_left (by simp)
  | cons n l ih =>
    refine ih (s.clearHot n) ?_
    by_cases hn : n = k
    · exact .inr (s.hot_clearHot n k (.inl hn))
    · rcases h with h | h
      · exact .inl ((List.mem_cons.1 h).resolve_left (Ne.symm hn))
      · exact .inr (s.hot_clearHot n k (.inr h))

theorem clearAll_rest (l : List Nat) (s : Chip) :
    (forEach l Chip.clearHot s).regs = s.regs ∧ (forEach l Chip.clearHot s).accs = s.accs :=
  forEach_keeps (fun t => t.regs = s.regs ∧ t.accs = s.accs) (fun n _ t h => show (t.clearHot n).regs = s.regs ∧ (t.clearHot n).accs = s.accs from h)
    ⟨rfl, rfl⟩

theorem hotRowClear_due {s : State} (h : s.sys.chip.now % 32000000 = 0) :
    ∃ z, chipNext s .hotRowClear z ∧ z.regs = s.sys.chip.regs ∧ z.accs = s.sys.chip.accs ∧ ∀ k, (z.mc k).hot = [] := by
  have hexec : exec .hotRowClear s = execHotRowClear s := (rfl)
  obtain ⟨hregs, haccs⟩ := clearAll_rest (s.sys.chip.mcs.map (·.1)) s.sys.chip
  refine ⟨forEach (s.sys.chip.mcs.map (·.1)) Chip.clearHot s.sys.chip, ?_, hregs, haccs, fun k => ?_⟩
  · rw [chipNext, hexec, execHotRowClear, liftC]
    dsimp only
    rw [if_pos h]
    rfl
  · refine hot_clearAll _ _ _ ?_
    by_cases hk : k ∈ s.sys.chip.mcs.map (·.1)
    · exact .inl hk
    · refine .inr ?_
      rw [Chip.mc, at_of_not_mem fun v hv => hk (List.mem_map.2 ⟨_, hv, rfl⟩)]

theorem hotRowClear_early {s : State} (h : s.sys.chip.now % 32000000 ≠ 0) : chipNext s .hotRowClear s.sys.chip := by
  have hexec : exec .hotRowClear s = execHotRowClear s := (rfl)
  rw [chipNext, hexec, execHotRowClear, liftC, if_neg h]

/-! ## The bucket, the rate, retraining, power-down -/

theorem Chip.mc_setFld (s : Chip) (a hi lo v n : Nat) : (s.setFld a hi lo v).mc n = s.mc n := by
  rw [Chip.mc, Chip.setFld_mcs, Chip.mc]

theorem Chip.mc_setFlag (s : Chip) (a i : Nat) (b : Bool) (n : Nat) : (s.setFlag a i b).mc n = s.mc n := by
  rw [Chip.mc, Chip.setFlag_mcs, Chip.mc]

theorem fld_lt (s : Chip) (a hi lo : Nat) : s.fld a hi lo < 2 ^ (hi + 1 - lo) := Nat.mod_lt _ (Nat.two_pow_pos _)

theorem ceLeak_due {s : State} {n : McNo}
    (h : (s.sys.chip.mc n).leakTick + 1000 * max (s.sys.chip.fld (mcPg n + 0x70) 31 16) 1 ≤ s.sys.chip.now) :
    ∃ z, chipNext s (.ceLeak n) z ∧ z.fld (mcPg n + 0x74) 15 0 = s.sys.chip.fld (mcPg n + 0x74) 15 0 - 1 ∧
      (z.mc n).leakTick = s.sys.chip.now ∧ ∀ a, a ≠ mcPg n + 0x74 → z.reg a = s.sys.chip.reg a := by
  have hexec : exec (.ceLeak n) s = execCeLeak n s := (rfl)
  have hlt := fld_lt s.sys.chip (mcPg n + 0x74) 15 0
  have hfld : ∀ m : Mc, (s.sys.chip.setMc n m).fld (mcPg n + 0x74) 15 0 = s.sys.chip.fld (mcPg n + 0x74) 15 0 := fun _ => rfl
  refine ⟨_, by rw [chipNext, hexec, execCeLeak, liftC, if_pos h], ?_, ?_, fun a ha => ?_⟩
  · rw [Chip.fld_setFld _ _ _ (by decide), hfld, Nat.mod_eq_of_lt (by omega)]
  · rw [Chip.mc_setFld, Chip.mc_setMc]
  · exact Chip.reg_setFld_ne _ _ _ _ (Ne.symm ha)

/-- R166: bank 0's window has chosen a rate. -/
def Chip.rateChosen (s : Chip) (n : Nat) (hot : Bool) : Chip :=
  (s.setMc n { s.mc n with rateAt := s.now, wasHot := s.flag (mcPg n + 0x40) 4 }).setFlag (mcPg n + 0x40) 4 hot

/-- R166: a window in use carries the neighbour refreshes of bank 0. -/
def Chip.refreshed (s : Chip) (n : Nat) : Chip :=
  (s.setMc n { s.mc n with nbr := (s.mc n).nbr.filter (fun x => !(x.1 == 0)), idleSince := s.now }).setFlag
    (mcPg n + 0x40) 3 false

theorem exec_refreshWindow_zero {s : State} {n : McNo} (h : (s.sys.chip.now + 61 * n) % 1950 = 0) {hot : Bool}
    (hhot : hot = (s.sys.chip.flag (mcPg n + 0x50) 0 ||
      decide (s.sys.chip.fld (mcPg n + 0x50) 15 8 ≤ s.sys.chip.fld (mcPg n + 0x40) 15 8))) :
    chipNext s (.refreshWindow n 0)
      (if (s.sys.chip.rateChosen n hot).flag (mcPg n + 0x40) 4 = true ∨ (s.sys.chip.now + 61 * n) / 1950 % 2 = 0 then
        (s.sys.chip.rateChosen n hot).refreshed n else s.sys.chip.rateChosen n hot) := by
  have hexec : exec (.refreshWindow n 0) s = execRefreshWindow n 0 s := (rfl)
  subst hhot
  rw [chipNext, hexec, execRefreshWindow, liftC]
  dsimp only
  rw [if_neg (by simp [h])]
  rfl

theorem refreshWindow_zero {s : State} {n : McNo} (h : (s.sys.chip.now + 61 * n) % 1950 = 0) {hot : Bool}
    (hhot : hot = (s.sys.chip.flag (mcPg n + 0x50) 0 ||
      decide (s.sys.chip.fld (mcPg n + 0x50) 15 8 ≤ s.sys.chip.fld (mcPg n + 0x40) 15 8))) :
    ∃ z, chipNext s (.refreshWindow n 0) z ∧ z.flag (mcPg n + 0x40) 4 = hot ∧
      (hot = true → (z.mc n).nbr = (s.sys.chip.mc n).nbr.filter (fun x => !(x.1 == 0)) ∧
        z.flag (mcPg n + 0x40) 3 = false) ∧
      ∀ a, a ≠ mcPg n + 0x40 → z.reg a = s.sys.chip.reg a := by
  have hflag : (s.sys.chip.rateChosen n hot).flag (mcPg n + 0x40) 4 = hot := Chip.flag_setFlag _ _ _ (by decide)
  have hreg : ∀ a, a ≠ mcPg n + 0x40 → (s.sys.chip.rateChosen n hot).reg a = s.sys.chip.reg a := fun a ha =>
    Chip.reg_setFlag_ne _ _ _ (Ne.symm ha)
  have hnbr : ((s.sys.chip.rateChosen n hot).mc n).nbr = (s.sys.chip.mc n).nbr := by
    rw [Chip.rateChosen, Chip.mc_setFlag, Chip.mc_setMc]
  have hexec := exec_refreshWindow_zero h hhot
  generalize s.sys.chip.rateChosen n hot = u at hflag hreg hnbr hexec
  refine ⟨_, hexec, ?_⟩
  split
  · refine ⟨?_, fun _ => ⟨?_, Chip.flag_setFlag _ _ _ (by decide)⟩, fun a ha => ?_⟩
    · rw [Chip.refreshed, Chip.flag_setFlag_apart _ _ _ (by decide) (by decide)]
      exact hflag
    · rw [Chip.refreshed, Chip.mc_setFlag, Chip.mc_setMc, ← hnbr]
    · exact (Chip.reg_setFlag_ne _ _ _ (Ne.symm ha)).trans (hreg a ha)
  · rename_i hno
    exact ⟨hflag, fun hh => absurd (.inl (hflag.trans hh)) hno, hreg⟩

theorem Chip.slotLen_cases (s : Chip) : s.slotLen = 660 ∨ s.slotLen = 680 := by
  unfold Chip.slotLen
  split
  · exact .inl rfl
  · exact .inr rfl

/-- R165: the last tick of the slot in progress at t, counted from a tick that t is congruent to. -/
theorem slot_back {t l p q : Nat} (hl : l = 660 ∨ l = 680) (h : t % 100000000 = p) (hp : p < 100000000)
    (hq : q = (16 * t / l * l + l + 16 - 1) / 16 - 1) : (q + 100000000 - p % 100000000) % 100000000 + t = q := by
  have hd : ∃ d, q = t + d ∧ d < 44 := by
    refine ⟨q - t, ?_⟩
    rcases hl with rfl | rfl <;> omega
  obtain ⟨d, rfl, hd⟩ := hd
  have ht : t = 100000000 * (t / 100000000) + p := by omega
  generalize t / 100000000 = k at ht
  subst ht
  rw [Nat.mod_eq_of_lt hp, show 100000000 * k + p + d + 100000000 - p = d + 100000000 * (k + 1) by omega,
    Nat.add_mul_mod_self_left, Nat.mod_eq_of_lt (by omega)]
  omega

/-- R165: the slot in progress at a retraining tick is barred. -/
theorem Chip.inTraining_now {s : Chip} {n : McNo} (h : s.now % 100000000 = 390625 * n) :
    s.inTraining n (s.slotAt s.now) = true := by
  have hn := n.isLt
  have hstart : 16 * s.now / s.slotLen * s.slotLen ≤ 16 * s.now := Nat.div_mul_le_self ..
  unfold Chip.inTraining Chip.slotMeets Chip.windowAt Chip.slotAt Chip.slotStart ceilDiv
  dsimp only
  generalize hq : (16 * s.now / s.slotLen * s.slotLen + s.slotLen + 16 - 1) / 16 - 1 = q
  have hback := slot_back s.slotLen_cases h (by omega) hq.symm
  generalize (q + 100000000 - 390625 * n.val % 100000000) % 100000000 = back at hback ⊢
  rw [if_neg (by omega)]
  rfl

theorem retraining_ok {s : State} {n : McNo} (h : s.sys.chip.now % 100000000 = 390625 * n) :
    chipNext s (.retraining n true) s.sys.chip := by
  have hexec : exec (.retraining n true) s = execRetraining n true s := (rfl)
  rw [chipNext, hexec, execRetraining, liftC, if_neg (by simpa using h), if_pos rfl]

theorem powerDown_eq (s : State) (n : McNo) :
    (s.sys.chip.fld (mcPg n + 0x5C) 15 0 ≠ 0 →
      16 * (s.sys.chip.mc n).idleSince + 10 * s.sys.chip.fld (mcPg n + 0x5C) 15 0 ≤ 16 * s.sys.chip.now →
      chipNext s (.powerDown n) (s.sys.chip.setFlag (mcPg n + 0x40) 3 true)) ∧
    (s.sys.chip.fld (mcPg n + 0x5C) 15 0 = 0 ∨
      16 * s.sys.chip.now < 16 * (s.sys.chip.mc n).idleSince + 10 * s.sys.chip.fld (mcPg n + 0x5C) 15 0 →
      chipNext s (.powerDown n) s.sys.chip) := by
  have hexec : exec (.powerDown n) s = execPowerDown n s := (rfl)
  unfold chipNext
  rw [hexec, execPowerDown, liftC]
  exact ⟨fun h1 h2 => by rw [if_pos ⟨h1, h2⟩], fun h => by rw [if_neg (by omega)]⟩

theorem powerDownExit_eq {s : State} {n : McNo} (h : s.sys.chip.flag (mcPg n + 0x40) 3 = true) :
    chipNext s (.powerDownExit n) ((s.sys.chip.setMc n
      { s.sys.chip.mc n with idleSince := s.sys.chip.now }).setFlag (mcPg n + 0x40) 3 false) := by
  have hexec : exec (.powerDownExit n) s = execPowerDownExit n s := (rfl)
  rw [chipNext, hexec, execPowerDownExit, liftC, if_pos h]

/-! ## Controller reset (R180, R380) -/

theorem Chip.endReqs_rest (s : Chip) (p : Req → Bool) (st : Status) :
    (s.endReqs p st).mcs = s.mcs ∧ (s.endReqs p st).regs = s.regs := ⟨rfl, rfl⟩

theorem Chip.resetAccs_rest (s : Chip) (n : Nat) : (s.resetAccs n).mcs = s.mcs ∧ (s.resetAccs n).regs = s.regs := by
  have hupd : ∀ (t : Chip) (p : Acc → Bool) (f : Acc → Acc), (t.updAccs p f).mcs = t.mcs ∧ (t.updAccs p f).regs = t.regs :=
    fun _ _ _ => ⟨rfl, rfl⟩
  unfold Chip.resetAccs
  exact ⟨by rw [(hupd ..).1, (Chip.endReqs_rest ..).1, (Chip.endReqs_rest ..).1],
    by rw [(hupd ..).2, (Chip.endReqs_rest ..).2, (Chip.endReqs_rest ..).2]⟩

/-- R380: what the start of a reset leaves of a controller. -/
structure Chip.mcResets (s z : Chip) (n : Nat) : Prop where
  resetting : (z.mc n).resetting = some s.now
  hot : (z.mc n).hot = []
  buckets : (z.mc n).buckets = []
  state : z.fld (mcPg n + 0x40) 2 0 = 4
  level : z.fld (mcPg n + 0x74) 15 0 = 0
  poison : (z.mc n).poison = (s.mc n).poison

theorem Chip.mcReset_starts {s : Chip} {n : Nat} (h : (s.mc n).resetting = none) : s.mcResets (s.mcReset n) n := by
  have hnot : s.mcResetting n = false := by rw [Chip.mcResetting, ← Chip.mc, h]; rfl
  unfold Chip.mcReset
  rw [if_neg (by rw [hnot]; decide)]
  dsimp only
  generalize hu : Chip.setFld (Chip.setFld _ _ 15 0 0) _ 2 0 4 = u
  obtain ⟨hmcs, hregs⟩ := u.resetAccs_rest n
  have hmc : (u.resetAccs n).mc n = { s.mc n with hot := [], buckets := [], resetting := some s.now } := by
    rw [Chip.mc, hmcs, ← Chip.mc, ← hu, Chip.mc_setFld, Chip.mc_setFld, Chip.mc_setMc]
  have hfld : ∀ a hi lo, (u.resetAccs n).fld a hi lo = u.fld a hi lo := fun a hi lo => by
    rw [Chip.fld, Chip.reg, hregs, Chip.fld, Chip.reg]
  refine ⟨by rw [hmc], by rw [hmc], by rw [hmc], ?_, ?_, by rw [hmc]⟩
  · exact (hfld ..).trans (hu ▸ Chip.fld_setFld _ _ _ (by decide))
  · rw [hfld, ← hu, Chip.fld_setFld_ne _ _ _ _ _ _ (by omega)]
    exact Chip.fld_setFld _ _ _ (by decide)

theorem exec_channelControllerReset_eq (s : State) (n : McNo) :
    chipNext s (.channelControllerReset n) (s.sys.chip.mcReset n) := (rfl)

theorem Chip.mcReset_under {s : Chip} {n : Nat} (h : (s.mc n).resetting ≠ none) : s.mcReset n = s := by
  have hres : s.mcResetting n = true := by
    rw [Chip.mcResetting, ← Chip.mc]
    exact Option.isSome_iff_ne_none.2 h
  rw [Chip.mcReset, if_pos hres]

theorem channelControllerResetDone_ends {s : State} {n : McNo} (h : (s.sys.chip.mc n).resetting ≠ none) :
    ∃ z, chipNext s (.channelControllerResetDone n) z ∧ (z.mc n).resetting = none ∧
      z.fld (mcPg n + 0x40) 2 0 = (if s.sys.chip.fenced1 (.mc n) then 3 else 2) ∧
      ∀ f ∈ z.errs.fences, f.unit = .mc n → f.resetDone = true := by
  have hexec : exec (.channelControllerResetDone n) s = execChannelControllerResetDone n s := (rfl)
  have hres : s.sys.chip.mcResetting n = true := by
    rw [Chip.mcResetting, ← Chip.mc]
    exact Option.isSome_iff_ne_none.2 h
  refine ⟨_, by rw [chipNext, hexec, execChannelControllerResetDone, liftC, if_pos hres], ?_, ?_, fun f hf hu => ?_⟩
  · have hfence : ∀ (t : Chip) (p : UnitId → Bool), (t.resetDoneFor p).mc n = t.mc n := fun _ _ => rfl
    rw [hfence, Chip.mc_setFld, Chip.mc_setMc]
  · have hfence : ∀ (t : Chip) (p : UnitId → Bool), (t.resetDoneFor p).fld (mcPg n + 0x40) 2 0 = t.fld (mcPg n + 0x40) 2 0 :=
      fun _ _ => rfl
    rw [hfence, Chip.fld_setFld _ _ _ (by decide)]
    have hsame : ∀ m : Mc, (s.sys.chip.setMc n m).fenced1 (.mc n) = s.sys.chip.fenced1 (.mc n) := fun _ => rfl
    rw [hsame]
    split <;> rfl
  · unfold Chip.resetDoneFor updWhere at hf
    dsimp only at hf
    obtain ⟨g, -, rfl⟩ := List.mem_map.1 hf
    split
    · rfl
    · rename_i hg
      rw [if_neg hg] at hu
      exact absurd (by simp [hu]) hg

/-! ## The patrol scrub (R165, R175) -/

/-- R165: a scrub window of controller n starts in the slot in progress, and its block may be served. -/
structure Sys.scrubDue (y : Sys) (n pos b : Nat) : Prop where
  first : y.chip.scrubFirst n (y.chip.slotAt y.chip.now) = true
  runs : y.chip.fld (mcPg n + 0x40) 2 0 = 2
  fresh : ∀ k, (y.chip.mc n).lastSlot = some k → k < y.chip.slotAt y.chip.now
  place : pos = y.chip.fld (mcPg n + 0x58) 19 0
  block : b = y.chip.blockAt n (pos / y.chip.rowsD) (pos % y.chip.rowsD)
  keeps : y.chip.slotKeeps n (pos / y.chip.rowsD) (y.chip.slotAt y.chip.now) = true
  keeps' : y.chip.slotKeeps n (pos / y.chip.rowsD) (y.chip.slotAt y.chip.now + 1) = true
  poison : (y.chip.mc n).poison = []
  marked : (y.chip.mc n).marked = []
  inject : (y.chip.mc n).inject = 0
  good : (KMap.at y.mem.poolErr [] b).length ≤ y.chip.codeT

/-- R165: the block of a scrub has been read. -/
def Sys.scrubRead (y : Sys) (n b : Nat) : Sys :=
  onChip (fun s => (s.activateBlk n b 0).correct n (KMap.at y.mem.poolErr [] b).length) y

/-- R165, R175: what a scrub leaves of the block. -/
def Sys.scrubWrote (y : Sys) (n b : Nat) : Sys :=
  if max (y.chip.fld (mcPg n + 0x54) 23 16) 1 ≤ (KMap.at y.mem.poolErr [] b).length then
    (y.scrubRead n b).writeBlk n b 0 (y.mem.blk b)
  else y.scrubRead n b

/-- R165: the scrub moves on. -/
def Chip.scrubMoves (s : Chip) (n j k pos : Nat) : Chip :=
  (s.tookSlot n j k).setFld (mcPg n + 0x58) 19 0 ((pos + 1) % (16 * s.rowsD))

theorem Sys.scrubRead_acts (y : Sys) (n b : Nat) : y.chip.mcActs (y.scrubRead n b).chip n :=
  (y.chip.mcActs_activateBlk n b 0).trans (Chip.mcActs_correct ..)

theorem exec_patrolScrub_eq {s : State} {n : McNo} {pos b : Nat} (h : s.sys.scrubDue n pos b) :
    exec (.patrolScrub n) s = .next { s with
      sys := onChip (fun t => t.scrubMoves n (s.sys.chip.slotAt s.sys.chip.now + 1) (pos / s.sys.chip.rowsD) pos)
        (s.sys.scrubWrote n b) } := by
  have hexec : exec (.patrolScrub n) s = execPatrolScrub n s := (rfl)
  have hacts := s.sys.chip.mcActs_activateBlk n b 0
  have hread := Sys.readBlk_good (y := onChip (fun t => t.activateBlk n b 0) s.sys) (n := n) (b := b) 3 64
    (by rw [onChip_chip, hacts.poison, h.poison]; rfl) (by rw [onChip_chip, hacts.marked, h.marked])
    (by rw [onChip_chip, hacts.codeT n.isLt]; exact h.good)
  have hgood := h.good
  have hb := h.block
  rw [hexec, execPatrolScrub, liftS]
  dsimp only
  rw [← h.place, ← hb]
  have hrun : ∀ taken : Bool, taken = false → ¬(s.sys.chip.scrubFirst n (s.sys.chip.slotAt s.sys.chip.now) = false ∨
      s.sys.chip.fld (mcPg n + 0x40) 2 0 ≠ 2 ∨ taken = true) := fun taken ht => by
    rw [h.first, h.runs, ht]
    simp
  rw [if_neg (hrun _ (by
    split
    · rename_i k hk
      have := h.fresh k hk
      simpa using this
    · rfl)), if_neg (by rw [h.keeps, h.keeps']; simp), hread]
  dsimp only
  unfold Sys.scrubWrote
  by_cases hw : max (s.sys.chip.fld (mcPg n + 0x54) 23 16) 1 ≤ (KMap.at s.sys.mem.poolErr [] b).length
  · rw [if_pos hw, if_pos ⟨hgood, hw⟩]
    rfl
  · rw [if_neg hw, if_neg (fun h1 => hw h1.2)]
    rfl

/-- R156, R165: a rewritten block reads as before, with no symbol in error. -/
theorem Sys.scrubWrote_mem {y : Sys} {n pos b : Nat} (h : y.scrubDue n pos b) :
    (∀ a, KMap.at (y.scrubWrote n b).mem.pool 0 a = KMap.at y.mem.pool 0 a) ∧
      (max (y.chip.fld (mcPg n + 0x54) 23 16) 1 ≤ (KMap.at y.mem.poolErr [] b).length →
        KMap.at (y.scrubWrote n b).mem.poolErr [] b = []) := by
  have hacts := y.scrubRead_acts n b
  have hw : ((y.scrubRead n b).writeBlk n b 0 (y.mem.blk b)).mem = y.mem.putBlk b 0 (y.mem.blk b) := by
    unfold Sys.writeBlk
    rw [if_neg (by rw [Chip.isDefect, hacts.poison, h.poison]; simp)]
    dsimp only
    rw [if_neg (by rw [hacts.inject, h.inject]; decide)]
    rfl
  unfold Sys.scrubWrote
  split
  · rw [hw, Mem.putBlk, Mem.blk, Nat.add_zero]
    generalize 2048 = w
    exact ⟨fun a => at_store_same w y.mem.pool (w * b) a, fun _ => at_put_self [] y.mem.poolErr b []⟩
  · rename_i hno
    exact ⟨fun _ => rfl, fun h1 => absurd h1 hno⟩

theorem Chip.rowsD_of_codeT {s t : Chip} (h : t.codeT = s.codeT) : t.rowsD = s.rowsD := by
  rw [Chip.rowsD, Chip.codeC, h, Chip.rowsD, Chip.codeC]

theorem Chip.rowsD_pos (s : Chip) : 0 < s.rowsD ∧ s.rowsD ≤ 65536 := by
  have hlt := fld_lt s (memPg + 0x40) 1 0
  unfold Chip.rowsD Chip.codeC Chip.codeT
  generalize s.fld (memPg + 0x40) 1 0 = f at hlt
  have hf : f < 4 := hlt
  interval_cases f <;> decide

theorem Sys.scrubWrote_rowsD (y : Sys) {n : Nat} (hn : n < 256) (b : Nat) : (y.scrubWrote n b).chip.rowsD = y.chip.rowsD := by
  have hread := Chip.rowsD_of_codeT ((y.scrubRead_acts n b).codeT hn)
  have hwrite : ((y.scrubRead n b).writeBlk n b 0 (y.mem.blk b)).chip.regs = (y.scrubRead n b).chip.regs := by
    unfold Sys.writeBlk
    split <;> rfl
  unfold Sys.scrubWrote
  split
  · refine (Chip.rowsD_of_codeT ?_).trans hread
    rw [Chip.codeT, Chip.fld, Chip.reg, hwrite]
    rfl
  · exact hread

theorem patrolScrub_moves {s : State} {n : McNo} {pos b : Nat} (h : s.sys.scrubDue n pos b) :
    ∃ z, exec (.patrolScrub n) s = .next { s with sys := z } ∧
      (∀ a, KMap.at z.mem.pool 0 a = KMap.at s.sys.mem.pool 0 a) ∧
      z.chip.fld (mcPg n + 0x58) 19 0 = (pos + 1) % (16 * s.sys.chip.rowsD) ∧
      (z.chip.mc n).lastSlot = some (s.sys.chip.slotAt s.sys.chip.now + 1) ∧
      (max (s.sys.chip.fld (mcPg n + 0x54) 23 16) 1 ≤ (KMap.at s.sys.mem.poolErr [] b).length →
        KMap.at z.mem.poolErr [] b = []) := by
  obtain ⟨hpool, herr⟩ := Sys.scrubWrote_mem h
  have hrows := s.sys.scrubWrote_rowsD n.isLt b
  obtain ⟨hpos, hle⟩ := s.sys.chip.rowsD_pos
  refine ⟨_, exec_patrolScrub_eq h, hpool, ?_, ?_, herr⟩
  · rw [onChip_chip, Chip.scrubMoves, Chip.fld_setFld _ _ _ (by decide), hrows]
    have := Nat.mod_lt (pos + 1) (show 0 < 16 * s.sys.chip.rowsD by omega)
    exact Nat.mod_eq_of_lt (by omega)
  · rw [onChip_chip, Chip.scrubMoves, Chip.mc_setFld, Chip.tookSlot_mc]

/-- Settles O33: each command of a controller's time, at its tick and before it. -/
theorem controllerTime : Obligations.ControllerTime := by
  unfold Obligations.ControllerTime
  intro s n y pg m next
  refine ⟨fun t hmsg hnew hroom => throttle_enters hmsg hnew hroom, fun i t ht => throttleEnd_eq ht, hotRowClear_due,
    hotRowClear_early, ceLeak_due, fun h => refreshWindow_zero h rfl,
    fun h => ⟨retraining_ok h, Chip.inTraining_now h⟩, ?_, powerDown_eq s n, powerDownExit_eq, ?_, ?_⟩
  · intro j pos b e hfirst hrun hfresh hk hk' hp hm hi he
    exact patrolScrub_moves ⟨hfirst, hrun, hfresh, rfl, rfl, hk, hk', hp, hm, hi, he⟩
  · intro h
    obtain ⟨h1, h2, h3, h4, h5, h6⟩ := Chip.mcReset_starts (s := y) h
    exact ⟨_, exec_channelControllerReset_eq s n, h1, h2, h3, h4, h5, h6⟩
  · intro h
    refine ⟨?_, channelControllerResetDone_ends h⟩
    have := exec_channelControllerReset_eq s n
    rw [Chip.mcReset_under h] at this
    exact this

end Sys2Proof.Machine

/-! PROOF of O34 (R188, R199 to R202): extent commands, revocations, quarantine and fill. -/

namespace Sys2Proof.Machine

-- One after the other: side by side the proofs ask for more memory than the check grants.
set_option Elab.async false

open Laws

theorem forEach_cons {α : Type} (a : α) (l : List α) (f : α → Chip → Chip) (s : Chip) :
    forEach (a :: l) f s = forEach l f (f a s) := rfl

/-! ## The table of extents -/

/-- t is s but for the table of extents and the progress of fills. -/
structure Chip.extsOnly (s t : Chip) : Prop where
  rest : t = { s with
    rights := { s.rights with
      exts := t.rights.exts
      fillPos := t.rights.fillPos } }

theorem Chip.extsOnly.refl (s : Chip) : s.extsOnly s := ⟨rfl⟩

theorem Chip.extsOnly.trans {s t u : Chip} (h : s.extsOnly t) (h' : t.extsOnly u) : s.extsOnly u :=
  ⟨by rw [h'.rest, h.rest]⟩

theorem Chip.extsOnly_setExt (s : Chip) (e : Nat) (x : Ext) : s.extsOnly (s.setExt e x) := ⟨rfl⟩

theorem Chip.extsOnly_startFill (s : Chip) (e : Nat) : s.extsOnly (s.startFill e) := ⟨rfl⟩

theorem Chip.extsOnly.now {s t : Chip} (h : s.extsOnly t) : t.now = s.now := by rw [h.rest]

theorem Chip.ext_setExt (s : Chip) (e i : Nat) (x : Ext) : (s.setExt e x).ext i = if i = e then x else s.ext i := by
  unfold Chip.setExt Chip.ext
  by_cases h : i = e
  · subst h
    rw [if_pos rfl]
    exact at_put_self ..
  · rw [if_neg h]
    exact at_put_ne _ _ (Ne.symm h)

theorem Chip.ext_startFill (s : Chip) (e i : Nat) :
    (s.startFill e).ext i = if i = e then { state := 4, qEnd := s.now } else s.ext i :=
  Chip.ext_setExt s e i { state := 4, qEnd := s.now }

/-- Operations on extents one after the other: each extent of the list has been through its own. -/
theorem exts_forEach {l : List Nat} {g : Nat → Chip → Chip} {f : Ext → Ext} (n : Nat) (hl : l.Nodup)
    (hg : ∀ e (s : Chip), s.now = n → s.extsOnly (g e s) ∧ ∀ i, (g e s).ext i = if i = e then f (s.ext i) else s.ext i) :
    ∀ s : Chip, s.now = n → s.extsOnly (forEach l g s) ∧
      ∀ i, (forEach l g s).ext i = if i ∈ l then f (s.ext i) else s.ext i := by
  induction l with
  | nil => exact fun s _ => ⟨.refl s, fun i => by simp [forEach]⟩
  | cons e l ih =>
    intro s hs
    obtain ⟨hnot, hnd⟩ := List.nodup_cons.mp hl
    obtain ⟨ho, he⟩ := hg e s hs
    obtain ⟨ho', he'⟩ := ih hnd (g e s) (ho.now.trans hs)
    refine ⟨ho.trans ho', fun i => ?_⟩
    rw [forEach_cons, he', he]
    by_cases hi : i = e
    · subst hi
      simp [hnot]
    · simp [hi]

theorem Chip.mapExts_exts (s : Chip) {es : List Nat} (h : es.Nodup) (f : Ext → Ext) :
    s.extsOnly (s.mapExts es f) ∧ ∀ i, (s.mapExts es f).ext i = if i ∈ es then f (s.ext i) else s.ext i :=
  exts_forEach s.now h (fun e s _ => ⟨s.extsOnly_setExt e _, fun i => by
    rw [Chip.ext_setExt]
    by_cases hi : i = e
    · subst hi
      rfl
    · rw [if_neg hi, if_neg hi]⟩) s rfl

theorem extRange_nodup (base count : Nat) : (extRange base count).Nodup :=
  List.nodup_range.map fun _ _ h => Nat.add_left_cancel h

/-! ## Extent commands (R188) -/

/-- R188: what an extent command that passes leaves. -/
def extGives (s : State) (q : CmdReq) (i : Instr) (es : List Nat) (f : Ext → Ext) : Prop :=
  ∃ z, exec i s = .next { s with sys := z } ∧ z.mem = s.sys.mem ∧ z.chip.answeredIs q .ok 0 ∧
    (∀ e, z.chip.ext e = if e ∈ es then f (s.sys.chip.ext e) else s.sys.chip.ext e) ∧
    z.chip.rights.iso = s.sys.chip.rights.iso ∧ z.chip.rights.leases = s.sys.chip.rights.leases

/-- R188: every named extent has changed and the command is answered. -/
theorem extGives_of {s : State} {q : CmdReq} {i : Instr} {es : List Nat} {f : Ext → Ext} {u : Chip}
    (hexec : exec i s = .next { s with sys := { s.sys with chip := u.cmdAnswer q .ok 0 } })
    (ho : (s.sys.chip.leaveIngress q).extsOnly u)
    (he : ∀ e, u.ext e = if e ∈ es then f (s.sys.chip.ext e) else s.sys.chip.ext e) : extGives s q i es f := by
  have hr : (u.cmdAnswer q .ok 0).rights = u.rights := (u.told_cmdAnswer q .ok 0).rights
  refine ⟨_, hexec, rfl, Chip.answeredIs_cmdAnswer .., fun e => ?_, ?_, ?_⟩
  · rw [← he]
    exact congrArg (KMap.at · {} e) (congrArg Rights.exts hr)
  · exact (congrArg Rights.iso hr).trans (by rw [ho.rest]; rfl)
  · exact (congrArg Rights.leases hr).trans (by rw [ho.rest]; rfl)

section
variable {s : State} {q : CmdReq} {base count : Nat} {ok : Nat → Bool} {f : Ext → Ext} {i : Instr}

/-- R188: an extent command of the shared form whose every extent passes. -/
theorem extCmd_gives
    (hexec : exec i s = .next { s with
      sys := { s.sys with chip := (s.sys.chip.leaveIngress q).extCmd q base count ok f } })
    (hr : extRangeOk base count = true) (hok : ∀ e ∈ extRange base count, ok e = true) :
    extGives s q i (extRange base count) f := by
  rw [Chip.extCmd, if_pos ⟨hr, List.all_eq_true.mpr hok⟩] at hexec
  obtain ⟨ho, he⟩ := (s.sys.chip.leaveIngress q).mapExts_exts (extRange_nodup base count) f
  exact extGives_of hexec ho he

/-- R188: one of whose extents does not pass. -/
theorem extCmd_refused
    (hexec : exec i s = .next { s with
      sys := { s.sys with chip := (s.sys.chip.leaveIngress q).extCmd q base count ok f } })
    (h : extRangeOk base count = false ∨ ∃ e ∈ extRange base count, ok e = false) :
    Answers i s s.sys.chip q .noAccess 0 := by
  rw [Chip.extCmd, if_neg] at hexec
  · exact answers_of_exec hexec
  · rintro ⟨hr, hall⟩
    obtain h | ⟨e, he, hno⟩ := h
    · rw [hr] at h
      cases h
    · exact absurd (List.all_eq_true.mp hall e he) (by simp [hno])

end

theorem Chip.grantCommand_eq {s : Chip} {q : CmdReq} {b : Bool} (h : s.takesCmd q b) (f : Nat → Chip → Chip) :
    s.grantCommand q b f = if s.retiring = true then (s.leaveIngress q).cmdAnswer q .noAccess 0
      else f (s.sessPart q.session) (s.leaveIngress q) := by
  unfold Chip.grantCommand
  rw [Chip.command_eq h]
  rfl

section
variable {s : State} {q : CmdReq}

theorem exec_extGrant_eq (part base count : Nat) (h : s.sys.chip.takesCmd q true) :
    exec (.extGrant q part base count) s = .next { s with
      sys := { s.sys with
        chip := if s.sys.chip.retiring = true then (s.sys.chip.leaveIngress q).cmdAnswer q .noAccess 0
          else (s.sys.chip.leaveIngress q).extCmd q base count
            (fun e => s.sys.chip.extState e == 0 && decide (part < 64))
            fun x => { x with state := 1, part := part, bound := false, lease := 0 } } } := by
  have hexec : exec (.extGrant q part base count) s = execExtGrant q part base count s := (rfl)
  rw [hexec, execExtGrant, liftC]
  simp only [Chip.grantCommand_eq h]
  rfl

theorem exec_extHold_eq (base count : Nat) (h : s.sys.chip.takesCmd q true) :
    exec (.extHold q base count) s = .next { s with
      sys := { s.sys with
        chip := (s.sys.chip.leaveIngress q).extCmd q base count (fun e => s.sys.chip.extState e == 3)
          fun x => { x with state := 5, part := 0 } } } := by
  have hexec : exec (.extHold q base count) s = execExtHold q base count s := (rfl)
  rw [hexec, execExtHold, liftC]
  simp only [Chip.command_eq h]
  rfl

theorem exec_extRelease_eq (base count : Nat) (h : s.sys.chip.takesCmd q true) :
    exec (.extRelease q base count) s = .next { s with
      sys := { s.sys with
        chip := if extRangeOk base count ∧ (extRange base count).all (fun e => s.sys.chip.extState e == 5)
          then (forEach (extRange base count) (fun e s => s.startFill e) (s.sys.chip.leaveIngress q)).cmdAnswer q .ok 0
          else (s.sys.chip.leaveIngress q).cmdAnswer q .noAccess 0 } } := by
  have hexec : exec (.extRelease q base count) s = execExtRelease q base count s := (rfl)
  rw [hexec, execExtRelease, liftC]
  simp only [Chip.command_eq h]
  rfl

theorem exec_extBind_eq (base count lease : Nat) (h : s.sys.chip.takesCmd q false) :
    exec (.extBind q base count lease) s = .next { s with
      sys := { s.sys with
        chip := if s.sys.chip.leaseOfPart lease (s.sys.chip.sessPart q.session) = false
          then (s.sys.chip.leaveIngress q).cmdAnswer q .noAccess 0
          else (s.sys.chip.leaveIngress q).extCmd q base count (s.sys.chip.ownedBy (s.sys.chip.sessPart q.session))
            fun x => { x with bound := true, lease := lease } } } := by
  have hexec : exec (.extBind q base count lease) s = execExtBind q base count lease s := (rfl)
  rw [hexec, execExtBind, liftC]
  simp only [Chip.command_eq h]
  rfl

end

section
variable {s : State} {q : CmdReq} {part base count lease : Nat}

theorem extGrant_ok (h : s.sys.chip.takesCmd q true) (hr : extRangeOk base count = true)
    (hret : s.sys.chip.retiring = false) (hp : part < 64) (hst : ∀ e ∈ extRange base count, s.sys.chip.extState e = 0) :
    extGives s q (.extGrant q part base count) (extRange base count) fun x => { x with
      state := 1
      part := part
      bound := false
      lease := 0 } := by
  have hexec := exec_extGrant_eq part base count h
  rw [hret, if_neg Bool.false_ne_true] at hexec
  exact extCmd_gives hexec hr fun e he => by simp [hst e he, hp]

theorem extGrant_no (h : s.sys.chip.takesCmd q true)
    (hno : extRangeOk base count = false ∨ ∃ e ∈ extRange base count, s.sys.chip.extState e ≠ 0) :
    Answers (.extGrant q part base count) s s.sys.chip q .noAccess 0 := by
  have hexec := exec_extGrant_eq part base count h
  by_cases hret : s.sys.chip.retiring = true
  · rw [if_pos hret] at hexec
    exact answers_of_exec hexec
  · rw [if_neg hret] at hexec
    exact extCmd_refused hexec (hno.imp id fun ⟨e, he, hst⟩ => ⟨e, he, by simp [hst]⟩)

theorem extHold_ok (h : s.sys.chip.takesCmd q true) (hr : extRangeOk base count = true)
    (hst : ∀ e ∈ extRange base count, s.sys.chip.extState e = 3) :
    extGives s q (.extHold q base count) (extRange base count) fun x => { x with
      state := 5
      part := 0 } :=
  extCmd_gives (exec_extHold_eq base count h) hr fun e he => by simp [hst e he]

theorem extHold_no (h : s.sys.chip.takesCmd q true)
    (hno : extRangeOk base count = false ∨ ∃ e ∈ extRange base count, s.sys.chip.extState e ≠ 3) :
    Answers (.extHold q base count) s s.sys.chip q .noAccess 0 :=
  extCmd_refused (exec_extHold_eq base count h) (hno.imp id fun ⟨e, he, hst⟩ => ⟨e, he, by simp [hst]⟩)

theorem extRelease_ok (h : s.sys.chip.takesCmd q true) (hr : extRangeOk base count = true)
    (hst : ∀ e ∈ extRange base count, s.sys.chip.extState e = 5) :
    extGives s q (.extRelease q base count) (extRange base count) fun _ =>
      { state := 4, qEnd := s.sys.chip.now } := by
  have hexec := exec_extRelease_eq base count h
  rw [if_pos ⟨hr, List.all_eq_true.mpr fun e he => by simp [hst e he]⟩] at hexec
  obtain ⟨ho, he⟩ := exts_forEach (f := fun _ => { state := 4, qEnd := s.sys.chip.now }) s.sys.chip.now
    (extRange_nodup base count) (fun e s hs => ⟨s.extsOnly_startFill e, fun i => by rw [Chip.ext_startFill, hs]⟩)
    (s.sys.chip.leaveIngress q) rfl
  exact extGives_of hexec ho he

theorem extRelease_no (h : s.sys.chip.takesCmd q true)
    (hno : extRangeOk base count = false ∨ ∃ e ∈ extRange base count, s.sys.chip.extState e ≠ 5) :
    Answers (.extRelease q base count) s s.sys.chip q .noAccess 0 := by
  have hexec := exec_extRelease_eq base count h
  rw [if_neg] at hexec
  · exact answers_of_exec hexec
  · rintro ⟨hr, hall⟩
    obtain hno | ⟨e, he, hst⟩ := hno
    · rw [hr] at hno
      cases hno
    · exact absurd (List.all_eq_true.mp hall e he) (by simp [hst])

theorem extBind_ok (h : s.sys.chip.takesCmd q false) (hr : extRangeOk base count = true)
    (hl : s.sys.chip.leaseOfPart lease (s.sys.chip.sessPart q.session) = true)
    (hown : ∀ e ∈ extRange base count, s.sys.chip.ownedBy (s.sys.chip.sessPart q.session) e = true) :
    extGives s q (.extBind q base count lease) (extRange base count) fun x => { x with
      bound := true
      lease := lease } := by
  have hexec := exec_extBind_eq base count lease h
  rw [if_neg (by simp [hl])] at hexec
  exact extCmd_gives hexec hr hown

theorem extBind_no (h : s.sys.chip.takesCmd q false)
    (hno : s.sys.chip.leaseOfPart lease (s.sys.chip.sessPart q.session) = false ∨ extRangeOk base count = false ∨
      ∃ e ∈ extRange base count, s.sys.chip.ownedBy (s.sys.chip.sessPart q.session) e = false) :
    Answers (.extBind q base count lease) s s.sys.chip q .noAccess 0 := by
  have hexec := exec_extBind_eq base count lease h
  by_cases hl : s.sys.chip.leaseOfPart lease (s.sys.chip.sessPart q.session) = false
  · rw [if_pos hl] at hexec
    exact answers_of_exec hexec
  · rw [if_neg hl] at hexec
    exact extCmd_refused hexec (hno.resolve_left hl)

end

/-! ## Returns (R188, R202) -/

theorem Chip.told_setRights {s t : Chip} (h : s.Told t) (r : Rights) :
    Chip.Told { s with rights := r } { t with rights := r } :=
  ⟨by conv => lhs; rw [h.rest], h.regs⟩

/-- A command that is pending and has changed rights. -/
theorem pends_setRights {i : Instr} {s : State} {q : CmdReq} {r : Rights}
    (h : exec i s = .next { s with
      sys := { s.sys with chip := { ((s.sys.chip.leaveIngress q).cmdPending q) with rights := r } } }) :
    Pends i s { s.sys.chip with rights := r } q :=
  Pends.intro h (Chip.told_setRights ((s.sys.chip.told_leaveIngress q).trans (Chip.told_cmdPending ..)) r)
    (Chip.pendingIs_cmdPending (s.sys.chip.leaveIngress q) q)

theorem Chip.cmdPending_eth (s : Chip) (q : CmdReq) :
    ∃ e, (s.leaveIngress q).cmdPending q = { s with eth := e } := by
  unfold Chip.cmdPending Chip.record Chip.setWin
  split
  · exact ⟨_, rfl⟩
  · exact ⟨_, rfl⟩

theorem toShadow_forEach (g : Nat → IsoChange) (l : List Nat) (s : Chip) :
    forEach l (fun i s => s.toShadow (g i)) s = { s with rights.shadow := s.rights.shadow ++ l.map g } := by
  induction l generalizing s with
  | nil => simp [forEach]
  | cons i l ih =>
    rw [forEach_cons, ih]
    simp [Chip.toShadow]

/-- R200: the revocation an EXT_RETURN opens. -/
def retRev (id : Nat) (q : CmdReq) (p tc : Nat) (es idxs : List Nat) : Rev :=
  ⟨id, some q, .extReturn, tc, false, p, es, idxs, [], [], []⟩

theorem find_append_last {l : List Rev} {r : Rev} {n : Nat} (h : ∀ x ∈ l, x.id < n) (hr : r.id = n) :
    (l ++ [r]).find? (fun x => x.id == n) = some r := by
  have hnone : l.find? (fun x => x.id == n) = none := by
    rw [List.find?_eq_none]
    exact fun x hx => by simpa using Nat.ne_of_lt (h x hx)
  simp [List.find?_append, hnone, hr]

theorem updWhere_append_last {l : List Rev} {r : Rev} {n : Nat} (h : ∀ x ∈ l, x.id < n) (hr : r.id = n) (f : Rev → Rev) :
    updWhere (l ++ [r]) (fun x => x.id == n) f = l ++ [f r] := by
  have hl : updWhere l (fun x => x.id == n) f = l := by
    unfold updWhere
    refine (List.map_congr_left fun x hx => ?_).trans (List.map_id l)
    rw [if_neg (by simpa using Nat.ne_of_lt (h x hx))]
    rfl
  have happ : updWhere (l ++ [r]) (fun x => x.id == n) f = updWhere l (fun x => x.id == n) f ++ [f r] := by
    simp [updWhere, hr]
  rw [happ, hl]

/-- The chip with a return opened. -/
def Chip.withRet (s : Chip) (q : CmdReq) (p : Nat) (es : List Nat) : Chip :=
  { s with
    rights.revSeq := s.rights.revSeq + 1
    rights.revs := s.rights.revs ++ [retRev s.rights.revSeq q p 0 es []] }

/-- R188, R202: the return gets its commit tick. -/
theorem Chip.startReturn_opened {s : Chip} {es : List Nat} (q : CmdReq) (p : Nat)
    (hids : ∀ r ∈ s.rights.revs, r.id < s.rights.revSeq) (hst : ∀ e ∈ es, s.extState e = 1) :
    (s.withRet q p es).startReturn s.rights.revSeq = { s with
      rights.revSeq := s.rights.revSeq + 1
      rights.revs := s.rights.revs ++ [retRev s.rights.revSeq q p s.commitAt es (s.overlapping es)]
      rights.shadow := s.rights.shadow ++
        (s.overlapping es).map fun i => ⟨i, isoNone, s.commitAt, .rev s.rights.revSeq⟩
      rights.commits := s.rights.commits ++ [(s.commitAt, .ret s.rights.revSeq)] } := by
  unfold Chip.startReturn
  rw [show (s.withRet q p es).rights.revs = s.rights.revs ++ [retRev s.rights.revSeq q p 0 es []] from rfl,
    find_append_last hids rfl]
  dsimp only
  have hst' : ∀ e ∈ es, (s.withRet q p es).extState e = 1 := hst
  rw [if_pos (List.all_eq_true.mpr fun e he => by simpa using hst' e he), toShadow_forEach]
  unfold Chip.updRevs
  rw [show (s.withRet q p es).rights.revs = s.rights.revs ++ [retRev s.rights.revSeq q p 0 es []] from rfl,
    updWhere_append_last hids rfl]
  rfl

section
variable {s : State} {q : CmdReq} {force : Bool} {part base count : Nat}

theorem exec_extReturn_eq (force : Bool) (part base count : Nat) (h : s.sys.chip.takesCmd q false) :
    exec (.extReturn q force part base count) s = .next { s with
      sys := { s.sys with
        chip := if (s.sys.chip.sessPart q.session = 0 ∨ s.sys.chip.sessPart q.session = part) ∧
            extRangeOk base count = true ∧ (extRange base count).all (s.sys.chip.ownedBy part) = true ∧
            (force = true ∨ (s.sys.chip.overlapping (extRange base count)).isEmpty = true)
          then ((s.sys.chip.leaveIngress q).cmdPending q).extReturnAt (some q) (s.sys.chip.sessPart q.session)
            (extRange base count)
          else (s.sys.chip.leaveIngress q).cmdAnswer q .noAccess 0 } } := by
  have hexec : exec (.extReturn q force part base count) s = execExtReturn q force part base count s := (rfl)
  rw [hexec, execExtReturn, liftC]
  simp only [Chip.command_eq h]
  rfl

theorem extReturn_starts (h : s.sys.chip.takesCmd q false)
    (hp : s.sys.chip.sessPart q.session = 0 ∨ s.sys.chip.sessPart q.session = part)
    (hr : extRangeOk base count = true) (hown : ∀ e ∈ extRange base count, s.sys.chip.ownedBy part e = true)
    (hov : force = true ∨ s.sys.chip.overlapping (extRange base count) = []) :
    exec (.extReturn q force part base count) s = .next { s with
      sys := { s.sys with
        chip := ((s.sys.chip.leaveIngress q).cmdPending q).extReturnAt (some q) (s.sys.chip.sessPart q.session)
            (extRange base count) } } := by
  rw [exec_extReturn_eq force part base count h,
    if_pos ⟨hp, hr, List.all_eq_true.mpr hown, hov.imp id fun e => by rw [e]; rfl⟩]

theorem extReturn_free (h : s.sys.chip.takesCmd q false)
    (hp : s.sys.chip.sessPart q.session = 0 ∨ s.sys.chip.sessPart q.session = part)
    (hr : extRangeOk base count = true) (hown : ∀ e ∈ extRange base count, s.sys.chip.ownedBy part e = true)
    (hov : force = true ∨ s.sys.chip.overlapping (extRange base count) = [])
    (hids : ∀ r ∈ s.sys.chip.rights.revs, r.id < s.sys.chip.rights.revSeq)
    (hbusy : s.sys.chip.overlapBusy (extRange base count) = false) :
    Pends (.extReturn q force part base count) s { s.sys.chip with
      rights.revSeq := s.sys.chip.rights.revSeq + 1
      rights.revs := s.sys.chip.rights.revs ++ [retRev s.sys.chip.rights.revSeq q (s.sys.chip.sessPart q.session)
        s.sys.chip.commitAt (extRange base count) (s.sys.chip.overlapping (extRange base count))]
      rights.shadow := s.sys.chip.rights.shadow ++
        (s.sys.chip.overlapping (extRange base count)).map fun i =>
          ⟨i, isoNone, s.sys.chip.commitAt, .rev s.sys.chip.rights.revSeq⟩
      rights.commits := s.sys.chip.rights.commits ++ [(s.sys.chip.commitAt, .ret s.sys.chip.rights.revSeq)] } q := by
  have hexec := extReturn_starts h hp hr hown hov
  have hst : ∀ e ∈ extRange base count, s.sys.chip.extState e = 1 := fun e he => by
    have hown := hown e he
    unfold Chip.ownedBy at hown
    simp only [Bool.and_eq_true, beq_iff_eq] at hown
    exact hown.1
  refine pends_setRights (hexec.trans ?_)
  obtain ⟨x, hx⟩ := s.sys.chip.cmdPending_eth q
  rw [hx]
  have hopen : Chip.extReturnAt { s.sys.chip with eth := x } (some q) (s.sys.chip.sessPart q.session)
      (extRange base count) = (Chip.withRet { s.sys.chip with eth := x } q (s.sys.chip.sessPart q.session)
        (extRange base count)).startReturn s.sys.chip.rights.revSeq := by
    have hbusy' : (Chip.withRet { s.sys.chip with eth := x } q (s.sys.chip.sessPart q.session)
        (extRange base count)).overlapBusy (extRange base count) = false := hbusy
    unfold Chip.extReturnAt
    exact if_neg (ne_true_of_eq_false hbusy')
  rw [hopen]
  refine congrArg (fun c => Host.Outcome.next { s with sys := { s.sys with chip := c } }) ?_
  exact Chip.startReturn_opened (s := { s.sys.chip with eth := x }) q _ hids hst

theorem extReturn_waits (h : s.sys.chip.takesCmd q false)
    (hp : s.sys.chip.sessPart q.session = 0 ∨ s.sys.chip.sessPart q.session = part)
    (hr : extRangeOk base count = true) (hown : ∀ e ∈ extRange base count, s.sys.chip.ownedBy part e = true)
    (hov : force = true ∨ s.sys.chip.overlapping (extRange base count) = [])
    (hbusy : s.sys.chip.overlapBusy (extRange base count) = true) :
    Pends (.extReturn q force part base count) s { s.sys.chip with
      rights.revSeq := s.sys.chip.rights.revSeq + 1
      rights.revs := s.sys.chip.rights.revs ++ [retRev s.sys.chip.rights.revSeq q (s.sys.chip.sessPart q.session)
        0 (extRange base count) []]
      rights.retWait := s.sys.chip.rights.retWait ++ [s.sys.chip.rights.revSeq] } q := by
  have hexec := extReturn_starts h hp hr hown hov
  refine pends_setRights (hexec.trans ?_)
  obtain ⟨x, hx⟩ := s.sys.chip.cmdPending_eth q
  rw [hx]
  refine congrArg (fun c => Host.Outcome.next { s with sys := { s.sys with chip := c } }) ?_
  have hbusy' : (Chip.withRet { s.sys.chip with eth := x } q (s.sys.chip.sessPart q.session)
      (extRange base count)).overlapBusy (extRange base count) = true := hbusy
  unfold Chip.extReturnAt
  exact if_pos hbusy'

theorem extReturn_no (h : s.sys.chip.takesCmd q false)
    (hno : (s.sys.chip.sessPart q.session ≠ 0 ∧ s.sys.chip.sessPart q.session ≠ part) ∨
      extRangeOk base count = false ∨ (∃ e ∈ extRange base count, s.sys.chip.ownedBy part e = false) ∨
      (force = false ∧ s.sys.chip.overlapping (extRange base count) ≠ [])) :
    Answers (.extReturn q force part base count) s s.sys.chip q .noAccess 0 := by
  have hexec := exec_extReturn_eq force part base count h
  rw [if_neg] at hexec
  · exact answers_of_exec hexec
  · rintro ⟨hp, hr, hall, hov⟩
    obtain ⟨h0, h1⟩ | hno | ⟨e, he, hno⟩ | ⟨hf, hne⟩ := hno
    · exact hp.elim h0 h1
    · rw [hr] at hno
      cases hno
    · exact absurd (List.all_eq_true.mp hall e he) (by simp [hno])
    · exact hov.elim (fun h => by simp [hf] at h) fun h => hne (List.isEmpty_iff.mp h)

end

end Sys2Proof.Machine

/-! PROOF of O34, its second half (R199 to R201): what the end of a revocation sets going, quarantine, fill. -/

namespace Sys2Proof.Machine

-- One after the other: side by side the proofs ask for more memory than the check grants.
set_option Elab.async false

open Laws

/-! ## What goes on when a revocation or a change is done -/

/-- The revocations of t are those of s, changed but for number and kind, and new ones of isolation entries. -/
def revsFrom (s t : Rights) : Prop :=
  s.revSeq ≤ t.revSeq ∧ ∀ x ∈ t.revs, (∃ w ∈ s.revs, w.id = x.id ∧ w.kind = x.kind) ∨
    (s.revSeq ≤ x.id ∧ (x.kind = .isoSet ∨ x.kind = .isoClear))

theorem revsFrom.refl (s : Rights) : revsFrom s s := ⟨Nat.le_refl _, fun x hx => .inl ⟨x, hx, rfl, rfl⟩⟩

theorem revsFrom.trans {s t u : Rights} (h : revsFrom s t) (h' : revsFrom t u) : revsFrom s u := by
  refine ⟨Nat.le_trans h.1 h'.1, fun x hx => ?_⟩
  obtain ⟨w, hw, hid, hk⟩ | ⟨hseq, hk⟩ := h'.2 x hx
  · rw [← hid, ← hk]
    exact h.2 w hw
  · exact .inr ⟨Nat.le_trans h.1 hseq, hk⟩

/-- t is s but for what the end of a revocation or of a change sets going: entries and what waits for them,
revocations, regions and requests, and what answers write. -/
structure Chip.proceeds (s t : Chip) : Prop where
  rest : t = { s with
    out := t.out
    regs := t.regs
    own := t.own
    held := t.held
    shapers := t.shapers
    duo := t.duo
    eth := t.eth
    parts := t.parts
    accs := t.accs
    prom := t.prom
    regions := t.regions
    rights := { s.rights with
      iso := t.rights.iso
      shadow := t.rights.shadow
      commits := t.rights.commits
      isoWait := t.rights.isoWait
      retWait := t.rights.retWait
      revs := t.rights.revs
      revSeq := t.rights.revSeq } }
  regs : ∀ a, quiet a → a ≠ pubPg + 0x6C → t.reg a = s.reg a
  revs : revsFrom s.rights t.rights

theorem Chip.proceeds.refl (s : Chip) : s.proceeds s := ⟨rfl, fun _ _ _ => rfl, .refl _⟩

theorem Chip.proceeds.trans {s t u : Chip} (h : s.proceeds t) (h' : t.proceeds u) : s.proceeds u :=
  ⟨by rw [h'.rest, h.rest], fun a ha hb => (h'.regs a ha hb).trans (h.regs a ha hb), h.revs.trans h'.revs⟩

theorem Chip.proceeds_ite {s t u : Chip} {p : Prop} [Decidable p] (h : s.proceeds t) (h' : s.proceeds u) :
    s.proceeds (if p then t else u) := by
  split <;> assumption

theorem proceeds_forEach {α : Type} (l : List α) {f : α → Chip → Chip} (hf : ∀ a (s : Chip), s.proceeds (f a s))
    (s : Chip) : s.proceeds (forEach l f s) :=
  forEach_keeps (s.proceeds ·) (fun a _ t ht => ht.trans (hf a t)) (.refl s)

theorem Chip.Told.proceeds {s t : Chip} (h : s.Told t) : s.proceeds t := by
  refine ⟨?_, fun a ha _ => h.regs a ha, ?_⟩
  · rw [h.rights, h.accs, h.prom, h.regions]
    refine h.rest.trans ?_
    congr 1
    · exact (congrArg Chip.eth h.rest).symm
    · exact (congrArg Chip.parts h.rest).symm
  · rw [h.rights]
    exact .refl _

theorem Chip.proceeds_cmdAnswer (s : Chip) (q : CmdReq) (st : Status) (r : Nat) : s.proceeds (s.cmdAnswer q st r) :=
  (s.told_cmdAnswer q st r).proceeds

theorem Chip.proceeds.ext {s t : Chip} (h : s.proceeds t) (e : Nat) : t.ext e = s.ext e := by
  rw [Chip.ext, h.rest]
  rfl

theorem Chip.proceeds.now {s t : Chip} (h : s.proceeds t) : t.now = s.now := by rw [h.rest]

theorem Chip.proceeds.leases {s t : Chip} (h : s.proceeds t) : t.rights.leases = s.rights.leases := by rw [h.rest]

theorem Chip.proceeds.usable {s t : Chip} (h : s.proceeds t) : t.usable = s.usable := by
  have hreg : t.reg (memPg + 0x40) = s.reg (memPg + 0x40) := h.regs _ (by unfold quiet memPg; omega) (by decide)
  unfold Chip.usable Chip.rsv Chip.dataBlocks Chip.rowsD Chip.codeC Chip.codeT Chip.fld
  rw [hreg]

/-! ### Changes that go on -/

theorem Chip.proceeds_toShadow (s : Chip) (c : IsoChange) : s.proceeds (s.toShadow c) :=
  ⟨rfl, fun _ _ _ => rfl, .refl _⟩

theorem Chip.proceeds_commitLater (s : Chip) (t : Nat) (c : Commit) : s.proceeds (s.commitLater t c) :=
  ⟨rfl, fun _ _ _ => rfl, .refl _⟩

theorem Chip.proceeds_setIso (s : Chip) (i : Nat) (e : Iso) : s.proceeds (s.setIso i e) :=
  ⟨rfl, fun _ _ _ => rfl, .refl _⟩

theorem Chip.proceeds_isoStart (s : Chip) (q : CmdReq) (p i : Nat) (ws : List Word) {kind : RevKind}
    (hk : kind = .isoSet ∨ kind = .isoClear) : s.proceeds (s.isoStart q p i ws kind) := by
  unfold Chip.isoStart
  split
  · refine ⟨rfl, fun _ _ _ => rfl, Nat.le_succ _, fun x hx => ?_⟩
    rcases List.mem_append.mp hx with hx | hx
    · exact .inl ⟨x, hx, rfl, rfl⟩
    · rw [List.mem_singleton.mp hx]
      exact .inr ⟨Nat.le_refl _, hk⟩
  · exact s.proceeds_toShadow _

theorem Chip.proceeds_nextChange (i n : Nat) : ∀ s : Chip, s.proceeds (s.nextChange i n) := by
  induction n with
  | zero => exact Chip.proceeds.refl
  | succ n ih =>
    intro s
    unfold Chip.nextChange
    cases s.rights.isoWait.find? fun c => c.idx == i with
    | none => exact .refl s
    | some c =>
      dsimp only
      have h0 : s.proceeds { s with rights.isoWait := s.rights.isoWait.erase c } :=
        ⟨rfl, fun _ _ _ => rfl, .refl _⟩
      refine h0.trans ?_
      cases c.why with
      | rev id => exact Chip.proceeds_toShadow ..
      | add q =>
        refine Chip.proceeds_ite (Chip.proceeds_isoStart _ _ _ _ _ (.inr rfl)) (Chip.proceeds_ite
          (Chip.proceeds_isoStart _ _ _ _ _ (.inl rfl)) ?_)
        exact (Chip.proceeds_cmdAnswer _ q .noAccess 0).trans (ih _)

theorem Chip.proceeds_updRevs (s : Chip) (p : Rev → Bool) {f : Rev → Rev}
    (hf : ∀ r, (f r).id = r.id ∧ (f r).kind = r.kind) : s.proceeds (s.updRevs p f) := by
  refine ⟨rfl, fun _ _ _ => rfl, Nat.le_refl _, fun x hx => ?_⟩
  obtain ⟨r, hr, hx⟩ := List.mem_map.mp hx
  refine .inl ⟨r, hr, ?_⟩
  split at hx
  · rw [← hx]
    exact ⟨(hf r).1.symm, (hf r).2.symm⟩
  · rw [← hx]
    exact ⟨rfl, rfl⟩

theorem Chip.proceeds_filterRevs (s : Chip) (p : Rev → Bool) :
    s.proceeds { s with rights.revs := s.rights.revs.filter p } :=
  ⟨rfl, fun _ _ _ => rfl, Nat.le_refl _, fun x hx => .inl ⟨x, List.mem_of_mem_filter hx, rfl, rfl⟩⟩

theorem Chip.proceeds_startReturn (s : Chip) (id : Nat) : s.proceeds (s.startReturn id) := by
  unfold Chip.startReturn
  cases s.rights.revs.find? fun r => r.id == id with
  | none => exact .refl s
  | some r =>
    dsimp only
    have hgone := s.proceeds_filterRevs fun x => !(x.id == id)
    refine Chip.proceeds_ite ?_ ?_
    · exact ((s.proceeds_updRevs _ (f := fun x => { x with tc := s.commitAt, idxs := s.overlapping r.exts })
        fun _ => ⟨rfl, rfl⟩).trans (proceeds_forEach _ (fun _ s => s.proceeds_toShadow _) _)).trans
        (Chip.proceeds_commitLater ..)
    · cases r.q with
      | none => exact hgone
      | some q => exact hgone.trans (Chip.proceeds_cmdAnswer ..)

theorem Chip.proceeds_changeDone (s : Chip) (i : Nat) : s.proceeds (s.changeDone i) := by
  unfold Chip.changeDone
  refine (Chip.proceeds_nextChange i _ s).trans (proceeds_forEach _ (fun id s => ?_) _)
  have herase : s.proceeds { s with rights.retWait := s.rights.retWait.erase id } :=
    ⟨rfl, fun _ _ _ => rfl, .refl _⟩
  cases s.rights.revs.find? fun r => r.id == id with
  | none => exact herase
  | some r => exact Chip.proceeds_ite (.refl s) (herase.trans (Chip.proceeds_startReturn _ id))

/-! ### Regions that go with their extents -/

theorem Chip.proceeds_endReqs (s : Chip) (p : Req → Bool) (st : Status) : s.proceeds (s.endReqs p st) :=
  ⟨rfl, fun _ _ _ => rfl, .refl _⟩

theorem Chip.proceeds_removeRegion (s : Chip) (i : Nat) : s.proceeds (s.removeRegion i) := by
  have hbump : ∀ (s : Chip) (k : Nat), s.proceeds (s.bumpBy (pubPg + 0x6C) k) := fun s k =>
    ⟨rfl, fun a _ ha => Chip.reg_setReg_ne _ _ (Ne.symm ha), .refl _⟩
  unfold Chip.removeRegion
  dsimp only
  generalize hu : Chip.bumpBy _ _ _ = u
  have h0 : s.proceeds u := by
    rw [← hu]
    exact (s.proceeds_endReqs _ .noAccess).trans (hbump _ _)
  refine h0.trans ?_
  cases (KMap.at s.regions {} i).deleting with
  | none => exact ⟨rfl, fun _ _ _ => rfl, .refl _⟩
  | some q =>
    refine .trans ?_ (Chip.proceeds_cmdAnswer _ q .ok 0)
    exact ⟨rfl, fun _ _ _ => rfl, .refl _⟩

theorem Chip.proceeds_putRegion (s : Chip) (m : KMap Region) : s.proceeds { s with regions := m } :=
  ⟨rfl, fun _ _ _ => rfl, .refl _⟩

theorem Chip.proceeds_dropRegion (s : Chip) (i : Nat) : s.proceeds (s.dropRegion i) := by
  unfold Chip.dropRegion
  dsimp only
  cases (KMap.at s.regions {} i).creating with
  | some q => exact (s.proceeds_removeRegion i).trans (Chip.proceeds_cmdAnswer ..)
  | none =>
    refine Chip.proceeds_ite (.refl s) (Chip.proceeds_ite ?_ (s.proceeds_putRegion _))
    exact Chip.proceeds_ite (s.proceeds_putRegion _) (s.proceeds_removeRegion i)

/-! ### Quarantine -/

/-- R199: an extent's entry in QUARANTINE until a tick. -/
def Ext.quarantined (x : Ext) (n : Nat) : Ext := { x with state := 3, part := 0, bound := false, lease := 0, qEnd := n }

/-- R199: the tick at which a quarantine that starts now ends. -/
def Chip.quarantineTo (s : Chip) : Nat := s.now + 1000 * (s.reg (extPg + 0x4C)).toNat

theorem Chip.extsOnly_toQuarantine (s : Chip) (e : Nat) : s.extsOnly (s.toQuarantine e) := by
  unfold Chip.toQuarantine
  split
  · exact s.extsOnly_setExt e _
  · exact .refl s

theorem Chip.extsOnly.regs {s t : Chip} (h : s.extsOnly t) : t.regs = s.regs := by rw [h.rest]

theorem Chip.extsOnly.leases {s t : Chip} (h : s.extsOnly t) : t.rights.leases = s.rights.leases := by rw [h.rest]

theorem Chip.extsOnly.revsFrom {s t : Chip} (h : s.extsOnly t) : revsFrom s.rights t.rights := by
  have hseq : t.rights.revSeq = s.rights.revSeq := by rw [h.rest]
  have hrevs : t.rights.revs = s.rights.revs := by rw [h.rest]
  exact ⟨hseq.ge, fun x hx => .inl ⟨x, hrevs ▸ hx, rfl, rfl⟩⟩

theorem Chip.extsOnly.usable {s t : Chip} (h : s.extsOnly t) : t.usable = s.usable := by
  unfold Chip.usable Chip.rsv Chip.dataBlocks Chip.rowsD Chip.codeC Chip.codeT Chip.fld Chip.reg
  rw [h.regs]

theorem Chip.extsOnly.quarantineTo {s t : Chip} (h : s.extsOnly t) : t.quarantineTo = s.quarantineTo := by
  unfold Chip.quarantineTo Chip.reg
  rw [h.now, h.regs]

theorem Chip.extsOnly.extState {s t : Chip} (h : s.extsOnly t) {e : Nat} (he : (t.ext e).state = (s.ext e).state) :
    t.extState e = s.extState e := by
  rw [Chip.extState, Chip.extState, h.usable, he]

theorem Chip.ext_toQuarantine (s : Chip) (e i : Nat) :
    (s.toQuarantine e).ext i =
      if i = e ∧ s.extState e = 2 then (s.ext e).quarantined s.quarantineTo else s.ext i := by
  unfold Chip.toQuarantine
  by_cases h : s.extState e = 2
  · simp only [h, if_true, and_true]
    exact s.ext_setExt e i _
  · simp [h]

theorem Ext.quarantined_twice (x : Ext) (n : Nat) : (x.quarantined n).quarantined n = x.quarantined n := rfl

theorem ext_toQuarantines (l : List Nat) : ∀ s : Chip,
    s.extsOnly (forEach l (fun e s => s.toQuarantine e) s) ∧
    ∀ i, (forEach l (fun e s => s.toQuarantine e) s).ext i =
      if i ∈ l ∧ s.extState i = 2 then (s.ext i).quarantined s.quarantineTo else s.ext i := by
  induction l with
  | nil => exact fun s => ⟨.refl s, fun i => by simp [forEach]⟩
  | cons e l ih =>
    intro s
    obtain ⟨ho, he⟩ := ih (s.toQuarantine e)
    have hoe := s.extsOnly_toQuarantine e
    refine ⟨by rw [forEach_cons]; exact hoe.trans ho, fun i => ?_⟩
    rw [forEach_cons, he, hoe.quarantineTo]
    have hext := s.ext_toQuarantine e i
    by_cases hi : i = e ∧ s.extState e = 2
    · rw [if_pos hi] at hext
      obtain ⟨rfl, hst⟩ := hi
      rw [hext, if_pos (⟨List.mem_cons_self, hst⟩ : i ∈ i :: l ∧ s.extState i = 2)]
      exact ite_eq_right_iff.mpr fun _ => Ext.quarantined_twice ..
    · rw [if_neg hi] at hext
      rw [hext, hoe.extState (by rw [hext])]
      by_cases hl : i ∈ l
      · simp [hl]
      · have hne : ¬(i ∈ e :: l ∧ s.extState i = 2) := by
          rintro ⟨hmem, hst⟩
          rcases List.mem_cons.mp hmem with rfl | hmem
          · exact hi ⟨rfl, hst⟩
          · exact hl hmem
        rw [if_neg hne, if_neg (fun h => hl h.1)]

/-! ### The end of a revocation (R201) -/

/-- The chip with revocation r gone. -/
def Chip.dropRev (s : Chip) (r : Rev) : Chip :=
  { s with rights.revs := s.rights.revs.filter fun x => !(x.id == r.id) }

/-- The chip with a revocation gone, its regions dropped and the previous generations of its entries too. -/
def Chip.revEnds (s : Chip) (r : Rev) : Chip :=
  forEach r.idxs (fun i s => s.setIso i { s.isoAt i with prev := none })
    (forEach ((s.regions.filter fun g =>
      r.exts.contains (g.2.base / 32768) || r.exts.contains (g.2.shadow / 32768)).map (·.1))
      (fun i s => s.dropRegion i) (s.dropRev r))

theorem Chip.proceeds_revEnds (s : Chip) (r : Rev) : (s.dropRev r).proceeds (s.revEnds r) :=
  (proceeds_forEach _ (fun i s => s.proceeds_dropRegion i) _).trans
    (proceeds_forEach _ (fun i s => s.proceeds_setIso i _) _)

/-- The revocation's extents in QUARANTINE, and what waited for its entries gone on. -/
def Chip.revFrees (s : Chip) (r : Rev) : Chip :=
  forEach r.idxs (fun i s => s.changeDone i) (forEach r.exts (fun e s => s.toQuarantine e) (s.revEnds r))

theorem Chip.revDone_eq (s : Chip) (r : Rev) :
    s.revDone r = match r.q with
      | some q => (s.revFrees r).cmdAnswer q .ok 0
      | none => s.revFrees r := (rfl)

theorem Chip.told_revDone (s : Chip) (r : Rev) : (s.revFrees r).Told (s.revDone r) := by
  rw [Chip.revDone_eq]
  cases r.q with
  | none => exact .refl _
  | some q => exact Chip.told_cmdAnswer ..

theorem Chip.answeredIs_revDone {s : Chip} {r : Rev} {q : CmdReq} (h : r.q = some q) :
    (s.revDone r).answeredIs q .ok 0 := by
  rw [Chip.revDone_eq, h]
  exact Chip.answeredIs_cmdAnswer ..

theorem Chip.proceeds.extState {s t : Chip} (h : s.proceeds t) (e : Nat) : t.extState e = s.extState e := by
  rw [Chip.extState, Chip.extState, h.usable, h.ext]

theorem Chip.proceeds.quarantineTo {s t : Chip} (h : s.proceeds t) : t.quarantineTo = s.quarantineTo := by
  have hreg : t.reg (extPg + 0x4C) = s.reg (extPg + 0x4C) := h.regs _ (by unfold quiet extPg; omega) (by decide)
  rw [Chip.quarantineTo, Chip.quarantineTo, h.now, hreg]

/-- R199, R201: its extents that are RETURNING enter QUARANTINE, and no other changes. -/
theorem Chip.ext_revDone (s : Chip) (r : Rev) :
    (s.revDone r).usable = s.usable ∧ ∀ e, (s.revDone r).ext e =
      if e ∈ r.exts ∧ s.extState e = 2 then (s.ext e).quarantined s.quarantineTo else s.ext e := by
  have h1 : s.proceeds (s.revEnds r) := (s.proceeds_filterRevs _).trans (s.proceeds_revEnds r)
  obtain ⟨ho, hq⟩ := ext_toQuarantines r.exts (s.revEnds r)
  have h2 := (proceeds_forEach r.idxs (fun i s => Chip.proceeds_changeDone s i)
    (forEach r.exts (fun e s => s.toQuarantine e) (s.revEnds r))).trans (s.told_revDone r).proceeds
  refine ⟨h2.usable.trans (ho.usable.trans h1.usable), fun e => ?_⟩
  rw [h2.ext, hq, h1.extState, h1.ext, h1.quarantineTo]

theorem Chip.rights_revDone (s : Chip) (r : Rev) :
    (s.revDone r).rights.leases = s.rights.leases ∧
      revsFrom (s.dropRev r).rights (s.revDone r).rights := by
  have h1 := s.proceeds_revEnds r
  obtain ⟨ho, _⟩ := ext_toQuarantines r.exts (s.revEnds r)
  have h2 := proceeds_forEach r.idxs (fun i s => Chip.proceeds_changeDone s i)
    (forEach r.exts (fun e s => s.toQuarantine e) (s.revEnds r))
  have h3 := (s.told_revDone r).proceeds
  exact ⟨h3.leases.trans (h2.leases.trans (ho.leases.trans h1.leases)),
    h1.revs.trans (ho.revsFrom.trans (h2.revs.trans h3.revs))⟩

section
variable {s : State} {n : Nat} {r : Rev}

theorem exec_revocationDone_eq (hr : s.sys.chip.rights.revs.find? (fun r => r.id == n) = some r)
    (hk : ∀ i, r.kind ≠ .leaseClose i ∧ r.kind ≠ .lapse i) :
    chipNext s (.revocationDone n) (if s.sys.chip.revReady r = true then s.sys.chip.revDone r else s.sys.chip) := by
  have hexec : exec (.revocationDone n) s = execRevocationDone n s := (rfl)
  rw [chipNext, hexec, execRevocationDone, liftC]
  simp only [hr]
  cases hkind : r.kind with
  | leaseClose i => exact absurd hkind (hk i).1
  | lapse i => exact absurd hkind (hk i).2
  | _ => rfl

theorem revocationDone_ends (hr : s.sys.chip.rights.revs.find? (fun r => r.id == n) = some r)
    (hk : ∀ i, r.kind ≠ .leaseClose i ∧ r.kind ≠ .lapse i) (hseq : n < s.sys.chip.rights.revSeq)
    (hready : s.sys.chip.revReady r = true) :
    ∃ z, exec (.revocationDone n) s = .next { s with sys := z } ∧ z.mem = s.sys.mem ∧
      (∀ x ∈ z.chip.rights.revs, x.id ≠ n) ∧
      (∀ e ∈ r.exts, s.sys.chip.extState e = 2 → z.chip.extState e = 3 ∧
        (z.chip.ext e).qEnd = s.sys.chip.now + 1000 * (s.sys.chip.reg (extPg + 0x4C)).toNat) ∧
      (∀ e, e ∉ r.exts → z.chip.ext e = s.sys.chip.ext e) ∧
      ∀ q, r.q = some q → z.chip.answeredIs q .ok 0 := by
  have hexec := exec_revocationDone_eq hr hk
  rw [if_pos hready] at hexec
  have hid : r.id = n := by simpa using List.find?_some hr
  refine ⟨_, hexec, rfl, fun x hx => ?_, fun e he hst => ?_, fun e he => ?_, fun q hq => Chip.answeredIs_revDone hq⟩
  · obtain ⟨w, hw, hwid, _⟩ | ⟨hge, _⟩ := ((s.sys.chip.rights_revDone r).2).2 x hx
    · have := List.of_mem_filter hw
      rw [hid, hwid] at this
      simpa using this
    · exact (Nat.lt_of_lt_of_le hseq hge).ne'
  · obtain ⟨hu, hexts⟩ := s.sys.chip.ext_revDone r
    have hext := hexts e
    rw [if_pos ⟨he, hst⟩] at hext
    refine ⟨?_, by rw [hext]; rfl⟩
    have hlt : e < s.sys.chip.usable := by
      by_contra hge
      rw [Chip.extState, if_neg hge] at hst
      split at hst <;> cases hst
    show Chip.extState _ e = 3
    rw [Chip.extState, hu, if_pos hlt, hext]
    rfl
  · rw [(s.sys.chip.ext_revDone r).2 e, if_neg fun h => he h.1]

theorem revocationDone_waits (hr : s.sys.chip.rights.revs.find? (fun r => r.id == n) = some r)
    (hk : ∀ i, r.kind ≠ .leaseClose i ∧ r.kind ≠ .lapse i) (hready : s.sys.chip.revReady r = false) :
    exec (.revocationDone n) s = .next s := by
  have hexec := exec_revocationDone_eq hr hk
  rw [if_neg (by simp [hready])] at hexec
  exact hexec

end

/-! ## Quarantine and fill (R199) -/

section
variable {s : State} {n : Nat}

theorem exec_quarantineEnd_eq (s : State) (n : Nat) :
    chipNext s (.quarantineEnd n) (if (s.sys.chip.ext n).qEnd ≤ s.sys.chip.now
      then s.sys.chip.decides (.quarantineEnd n) fun t => t.quarantineOver n else s.sys.chip) := (rfl)

theorem Chip.decides_alone {s : Chip} (h : s.decidesAlone) (k : NoteKind) (f : Chip → Chip) : s.decides k f = f s := by
  unfold Chip.decides
  rw [if_neg (by simp [h.1]), if_neg (by simp [h.2])]

theorem quarantineEnd_fills (h : s.sys.chip.decidesAlone) (hst : s.sys.chip.extState n = 3)
    (hend : (s.sys.chip.ext n).qEnd ≤ s.sys.chip.now) :
    ∃ z, exec (.quarantineEnd n) s = .next { s with sys := z } ∧ z.mem = s.sys.mem ∧
      (∀ e, z.chip.ext e = if e = n then { state := 4, qEnd := s.sys.chip.now } else s.sys.chip.ext e) ∧
      (∀ c, KMap.at z.chip.rights.fillPos 0 (256 * n + c % 256) = 0) ∧ z.chip.regs = s.sys.chip.regs := by
  have hexec := exec_quarantineEnd_eq s n
  rw [if_pos hend, Chip.decides_alone h, Chip.quarantineOver, if_pos hst] at hexec
  refine ⟨_, hexec, rfl, fun e => Chip.ext_startFill s.sys.chip n e, fun c => at_of_not_mem fun e he => ?_,
    (s.sys.chip.extsOnly_startFill n).regs⟩
  have hkeep := List.of_mem_filter he
  have hdiv : (256 * n + c % 256) / 256 = n := by omega
  simp [hdiv] at hkeep

theorem quarantineEnd_early (h : s.sys.chip.now < (s.sys.chip.ext n).qEnd) :
    exec (.quarantineEnd n) s = .next s := by
  have hexec := exec_quarantineEnd_eq s n
  rw [if_neg (Nat.not_le.mpr h)] at hexec
  exact hexec

theorem exec_zeroingDone_eq (s : State) (n : Nat) :
    chipNext s (.zeroingDone n) (if s.sys.chip.extState n = 4 ∧ s.sys.chip.fillDone n = true
      then { (s.sys.chip.setExt n { defect := (s.sys.chip.ext n).defect }) with
        rights.fillPos := s.sys.chip.rights.fillPos.filter fun e => !(e.1 / 256 == n) }
      else s.sys.chip) := (rfl)

theorem zeroingDone_frees (hst : s.sys.chip.extState n = 4) (hfill : s.sys.chip.fillDone n = true) :
    ∃ z, exec (.zeroingDone n) s = .next { s with sys := z } ∧ z.mem = s.sys.mem ∧
      (∀ e, z.chip.ext e = if e = n then { defect := (s.sys.chip.ext n).defect } else s.sys.chip.ext e) ∧
      z.chip.regs = s.sys.chip.regs := by
  have hexec := exec_zeroingDone_eq s n
  rw [if_pos ⟨hst, hfill⟩] at hexec
  exact ⟨_, hexec, rfl, fun e => Chip.ext_setExt s.sys.chip n e _, rfl⟩

theorem zeroingDone_waits (hfill : s.sys.chip.fillDone n = false) : exec (.zeroingDone n) s = .next s := by
  have hexec := exec_zeroingDone_eq s n
  rw [if_neg (by simp [hfill])] at hexec
  exact hexec

end

/-- Settles O34: an extent command is one check and one change for each of its extents; a return opens its
revocation, at once or behind what concerns its extents; what the end of a revocation sets going leaves the
table of extents alone, so that its RETURNING extents are in QUARANTINE after it. -/
theorem extents : Obligations.Extents := by
  unfold Obligations.Extents
  refine ⟨fun s q part base count lease force => ⟨fun h => ⟨fun hr => ⟨?_, ?_, ?_⟩, ?_, ?_, ?_⟩,
    fun h => ⟨?_, ?_, ?_, ?_⟩⟩, fun s n => ⟨?_, ?_, ?_, ?_, ?_⟩⟩
  · exact extGrant_ok h hr
  · exact extHold_ok h hr
  · exact extRelease_ok h hr
  · exact extGrant_no h
  · exact extHold_no h
  · exact extRelease_no h
  · exact fun hr hl hown => extBind_ok h hr hl hown
  · exact extBind_no h
  · exact fun hp hr hown hov hids =>
      ⟨extReturn_free h hp hr hown hov hids, extReturn_waits h hp hr hown hov⟩
  · exact extReturn_no h
  · exact fun r hr hk hseq => ⟨revocationDone_ends hr hk hseq, revocationDone_waits hr hk⟩
  · exact quarantineEnd_fills
  · exact quarantineEnd_early
  · exact zeroingDone_frees
  · exact zeroingDone_waits

end Sys2Proof.Machine

/-! PROOF of O35 (R190, R193 to R195, R202, R205): entries of the isolation table and link bindings. -/

namespace Sys2Proof.Machine

-- One after the other: side by side the proofs ask for more memory than the check grants.
set_option Elab.async false

open Laws

/-! ## Changes of an entry (R190, R194) -/

/-- R190, R194: how a change of an entry that may be carried out waits. -/
def isoWaits (s : State) (q : CmdReq) (idx : Nat) (i : Instr) (new : List Word) (kind : RevKind) : Prop :=
  (isoLowers (s.sys.chip.isoAt idx).ct new = false → s.sys.chip.isoBusy idx = false →
    Pends i s { s.sys.chip with
      rights.shadow := s.sys.chip.rights.shadow ++ [⟨idx, new, s.sys.chip.commitAt, .add q⟩] } q) ∧
  (s.sys.chip.isoBusy idx = true →
    Pends i s { s.sys.chip with rights.isoWait := s.sys.chip.rights.isoWait ++ [⟨idx, new, 0, .add q⟩] } q) ∧
  (isoLowers (s.sys.chip.isoAt idx).ct new = true → s.sys.chip.isoBusy idx = false →
    Pends i s { s.sys.chip with
      rights.revSeq := s.sys.chip.rights.revSeq + 1
      rights.revs := s.sys.chip.rights.revs ++ [⟨s.sys.chip.rights.revSeq, some q, kind, s.sys.chip.commitAt, false,
        s.sys.chip.sessPart q.session, [], [idx], [], [], []⟩]
      rights.shadow := s.sys.chip.rights.shadow ++
        [⟨idx, new, s.sys.chip.commitAt, .rev s.sys.chip.rights.revSeq⟩] } q)

theorem isoWaits_of {s : State} {q : CmdReq} {idx : Nat} {i : Instr} {new : List Word} {kind : RevKind}
    (hexec : chipNext s i ((s.sys.chip.leaveIngress q).isoChange q (s.sys.chip.sessPart q.session) idx new kind)) :
    isoWaits s q idx i new kind := by
  unfold Chip.isoChange at hexec
  refine ⟨fun hlow hbusy => pends_setRights (hexec.trans ?_), fun hbusy => pends_setRights (hexec.trans ?_),
    fun hlow hbusy => pends_setRights (hexec.trans ?_)⟩ <;>
  obtain ⟨x, hx⟩ := s.sys.chip.cmdPending_eth q <;>
  rw [hx] <;>
  refine congrArg (fun c => Host.Outcome.next { s with sys := { s.sys with chip := c } }) ?_
  · have hbusy' : Chip.isoBusy { s.sys.chip with eth := x } idx = false := hbusy
    have hlow' : isoLowers (Chip.isoAt { s.sys.chip with eth := x } idx).ct new = false := hlow
    dsimp only
    rw [if_neg (by simp [hbusy']), Chip.isoStart, if_neg (by simp [hlow'])]
    rfl
  · exact if_pos hbusy
  · have hbusy' : Chip.isoBusy { s.sys.chip with eth := x } idx = false := hbusy
    have hlow' : isoLowers (Chip.isoAt { s.sys.chip with eth := x } idx).ct new = true := hlow
    dsimp only
    rw [if_neg (by simp [hbusy']), Chip.isoStart, if_pos hlow']
    rfl

section
variable {s : State} {q : CmdReq} {idx : Nat} {w0 w1 w2 w3 : Word}

theorem exec_isoSet_eq (idx : Nat) (w0 w1 w2 w3 : Word) (h : s.sys.chip.takesCmd q false) :
    chipNext s (.isoSet q idx w0 w1 w2 w3)
      (if s.sys.chip.isoSetMay (s.sys.chip.sessPart q.session) idx [w0, w1, w2, w3] = true
        then (s.sys.chip.leaveIngress q).isoChange q (s.sys.chip.sessPart q.session) idx (isoStored [w0, w1, w2, w3]) .isoSet
        else (s.sys.chip.leaveIngress q).cmdAnswer q .noAccess 0) := by
  have hexec : exec (.isoSet q idx w0 w1 w2 w3) s = execIsoSet q idx w0 w1 w2 w3 s := (rfl)
  rw [chipNext, hexec, execIsoSet, liftC]
  simp only [Chip.command_eq h]
  rfl

theorem exec_isoClear_eq (idx : Nat) (h : s.sys.chip.takesCmd q false) :
    chipNext s (.isoClear q idx)
      (if s.sys.chip.isoClearMay (s.sys.chip.sessPart q.session) idx = true
        then (s.sys.chip.leaveIngress q).isoChange q (s.sys.chip.sessPart q.session) idx [0, 0, 0, 0] .isoClear
        else (s.sys.chip.leaveIngress q).cmdAnswer q .noAccess 0) := by
  have hexec : exec (.isoClear q idx) s = execIsoClear q idx s := (rfl)
  rw [chipNext, hexec, execIsoClear, liftC]
  simp only [Chip.command_eq h]
  rfl

theorem isoSet_ok (h : s.sys.chip.takesCmd q false)
    (hok : s.sys.chip.isoSetOk (s.sys.chip.sessPart q.session) idx [w0, w1, w2, w3] = true)
    (hret : s.sys.chip.retiring = false ∨ isoAdds (s.sys.chip.isoAt idx).ct [w0, w1, w2, w3] = false) :
    isoWaits s q idx (.isoSet q idx w0 w1 w2 w3) (isoStored [w0, w1, w2, w3]) .isoSet := by
  have hexec := exec_isoSet_eq idx w0 w1 w2 w3 h
  rw [if_pos] at hexec
  · exact isoWaits_of hexec
  · rw [Chip.isoSetMay, hok]
    obtain hret | hret := hret <;> simp [hret]

theorem isoSet_no (h : s.sys.chip.takesCmd q false)
    (hno : s.sys.chip.isoSetOk (s.sys.chip.sessPart q.session) idx [w0, w1, w2, w3] = false ∨
      (s.sys.chip.retiring = true ∧ isoAdds (s.sys.chip.isoAt idx).ct [w0, w1, w2, w3] = true)) :
    Answers (.isoSet q idx w0 w1 w2 w3) s s.sys.chip q .noAccess 0 := by
  have hexec := exec_isoSet_eq idx w0 w1 w2 w3 h
  rw [if_neg] at hexec
  · exact answers_of_exec hexec
  · rw [Chip.isoSetMay]
    obtain hno | ⟨hr, ha⟩ := hno
    · simp [hno]
    · simp [hr, ha]

theorem isoClear_ok (h : s.sys.chip.takesCmd q false) (hidx : idx < 4096)
    (hown : s.sys.chip.sessPart q.session = 0 ∨ isoValid (s.sys.chip.isoAt idx).ct = false ∨
      isoPart (s.sys.chip.isoAt idx).ct = s.sys.chip.sessPart q.session) :
    isoWaits s q idx (.isoClear q idx) [0, 0, 0, 0] .isoClear := by
  have hexec := exec_isoClear_eq idx h
  rw [if_pos] at hexec
  · exact isoWaits_of hexec
  · rw [Chip.isoClearMay]
    obtain hown | hown | hown := hown <;> simp [hidx, hown]

theorem isoClear_no (h : s.sys.chip.takesCmd q false)
    (hno : 4096 ≤ idx ∨ (s.sys.chip.sessPart q.session ≠ 0 ∧ isoValid (s.sys.chip.isoAt idx).ct = true ∧
      isoPart (s.sys.chip.isoAt idx).ct ≠ s.sys.chip.sessPart q.session)) :
    Answers (.isoClear q idx) s s.sys.chip q .noAccess 0 := by
  have hexec := exec_isoClear_eq idx h
  rw [if_neg] at hexec
  · exact answers_of_exec hexec
  · rw [Chip.isoClearMay]
    obtain hno | ⟨h0, hv, hp⟩ := hno
    · simp [Nat.not_lt.mpr hno]
    · simp [h0, hv, hp]

end

/-! ## Link bindings (R205) -/

section
variable {s : State} {q : CmdReq} {link host : Nat} {valid : Bool}

theorem exec_linkBind_eq (link : Nat) (valid : Bool) (host : Nat) (h : s.sys.chip.takesCmd q true) :
    chipNext s (.linkBind q link valid host) (if link < 96 ∧ host < 16384
      then Chip.commitLater (match KMap.at ((s.sys.chip.leaveIngress q).cmdPending q).rights.linkHost none link with
        | none => (s.sys.chip.leaveIngress q).cmdPending q
        | some h => if valid = true ∧ h = host then (s.sys.chip.leaveIngress q).cmdPending q
          else (((s.sys.chip.leaveIngress q).cmdPending q).openRev (some q) (.unbind link)
            (s.sys.chip.sessPart q.session) s.sys.chip.commitAt [] []).2)
        s.sys.chip.commitAt (.bind q link valid host)
      else (s.sys.chip.leaveIngress q).cmdAnswer q .noAccess 0) := by
  have hexec : exec (.linkBind q link valid host) s = execLinkBind q link valid host s := (rfl)
  rw [chipNext, hexec, execLinkBind, liftC]
  simp only [Chip.command_eq h]
  rfl

theorem linkBind_new (h : s.sys.chip.takesCmd q true) (hl : link < 96) (hh : host < 16384)
    (hnone : KMap.at s.sys.chip.rights.linkHost none link = none) :
    Pends (.linkBind q link valid host) s { s.sys.chip with
      rights.commits := s.sys.chip.rights.commits ++ [(s.sys.chip.commitAt, .bind q link valid host)] } q := by
  have hexec := exec_linkBind_eq link valid host h
  rw [if_pos ⟨hl, hh⟩] at hexec
  refine pends_setRights (hexec.trans ?_)
  obtain ⟨x, hx⟩ := s.sys.chip.cmdPending_eth q
  rw [hx, show KMap.at (Chip.rights { s.sys.chip with eth := x }).linkHost none link = none from hnone]
  rfl

theorem linkBind_bound (h : s.sys.chip.takesCmd q true) {b : Nat} (hl : link < 96) (hh : host < 16384)
    (hsome : KMap.at s.sys.chip.rights.linkHost none link = some b) :
    Pends (.linkBind q link valid host) s (if valid = true ∧ b = host
      then { s.sys.chip with
        rights.commits := s.sys.chip.rights.commits ++ [(s.sys.chip.commitAt, .bind q link valid host)] }
      else { s.sys.chip with
        rights.revSeq := s.sys.chip.rights.revSeq + 1
        rights.revs := s.sys.chip.rights.revs ++ [⟨s.sys.chip.rights.revSeq, some q, .unbind link, s.sys.chip.commitAt,
          false, s.sys.chip.sessPart q.session, [], [], [], [], []⟩]
        rights.commits := s.sys.chip.rights.commits ++ [(s.sys.chip.commitAt, .bind q link valid host)] }) q := by
  have hexec := exec_linkBind_eq link valid host h
  rw [if_pos ⟨hl, hh⟩] at hexec
  obtain ⟨x, hx⟩ := s.sys.chip.cmdPending_eth q
  have hsome' : KMap.at ((s.sys.chip.leaveIngress q).cmdPending q).rights.linkHost none link = some b := by
    rw [hx]
    exact hsome
  rw [hsome'] at hexec
  dsimp only at hexec
  by_cases hsame : valid = true ∧ b = host
  · rw [if_pos hsame] at hexec ⊢
    refine pends_setRights (hexec.trans ?_)
    rw [hx]
    rfl
  · rw [if_neg hsame] at hexec ⊢
    refine pends_setRights (hexec.trans ?_)
    rw [hx]
    rfl

theorem linkBind_no (h : s.sys.chip.takesCmd q true) (hno : 96 ≤ link ∨ 16384 ≤ host) :
    Answers (.linkBind q link valid host) s s.sys.chip q .noAccess 0 := by
  have hexec := exec_linkBind_eq link valid host h
  rw [if_neg (by omega)] at hexec
  exact answers_of_exec hexec

end

/-! ## The commit tick of one change (R194, R202) -/

/-- With no injection armed an entry is written as it is. -/
theorem Chip.isoWords_calm {s : Chip} (h : s.errs.armed = []) (i : Nat) : s.isoWords i = s := by
  have hs : ∀ pg, s.strike pg = (0, s) := fun pg => by
    unfold Chip.strike Chip.takeArmed
    rw [h]
    rfl
  unfold Chip.isoWords
  rw [hs extPg]
  dsimp only
  rw [hs risoPg]
  rfl

/-- Where nothing waits the end of a change sets nothing going. -/
theorem Chip.changeDone_idle {s : Chip} (h : s.rights.isoWait = []) (h' : s.rights.retWait = []) (i : Nat) :
    s.changeDone i = s := by
  unfold Chip.changeDone
  rw [h]
  unfold Chip.nextChange
  dsimp only [List.length_nil]
  rw [h']
  rfl

/-- One change in the shadow, nothing else that waits for a tick, no injection. -/
structure Chip.oneChange (s : Chip) (c : IsoChange) : Prop where
  shadow : s.rights.shadow = [c]
  commits : s.rights.commits = []
  armed : s.errs.armed = []
  isoWait : s.rights.isoWait = []
  retWait : s.rights.retWait = []

section
variable {s : State} {c : IsoChange} {q : CmdReq}

theorem exec_commitTick_eq (h : s.sys.chip.decidesAlone) : chipNext s .commitTick s.sys.chip.commitDue := by
  have hexec : exec .commitTick s = execCommitTick s := (rfl)
  rw [chipNext, hexec, execCommitTick, liftC, Chip.decides_alone h]

theorem Chip.clock_alone {s : Chip} (h : s.decidesAlone) : s.clock = s.now := by
  rw [Chip.clock, if_neg (by simp [h.1])]

/-- R194: a commit tick with nothing but changes of entries that wait for it. -/
theorem Chip.commitDue_shadow {s : Chip} (hco : s.rights.commits = []) :
    s.commitDue = forEach (s.rights.shadow.filter fun c => decide (c.tc ≤ s.clock)) (fun c s => s.applyIso c) { s with
      rights.commits := []
      rights.shadow := s.rights.shadow.filter fun c => !decide (c.tc ≤ s.clock) } := by
  unfold Chip.commitDue
  rw [hco]
  rfl

theorem Chip.commitDue_one {s : Chip} (h : s.decidesAlone) (hc : s.oneChange c) :
    s.commitDue = if c.tc ≤ s.now then Chip.applyIso { s with rights.shadow := [] } c else s := by
  obtain ⟨hsh, hco, -, -, -⟩ := hc
  rw [Chip.commitDue_shadow hco, Chip.clock_alone h, hsh]
  by_cases hdue : c.tc ≤ s.now
  · have hrest : [c].filter (fun c => !decide (c.tc ≤ s.now)) = [] := by simp [hdue]
    have hall : [c].filter (fun c => decide (c.tc ≤ s.now)) = [c] := by simp [hdue]
    rw [if_pos hdue, hrest, hall, ← hco]
    rfl
  · have hrest : [c].filter (fun c => !decide (c.tc ≤ s.now)) = [c] := by simp [hdue]
    have hall : [c].filter (fun c => decide (c.tc ≤ s.now)) = [] := by simp [hdue]
    rw [if_neg hdue, hrest, hall, ← hco, ← hsh]
    rfl

theorem commitTick_add (h : s.sys.chip.decidesAlone) (hc : s.sys.chip.oneChange c) (hdue : c.tc ≤ s.sys.chip.now)
    (hwhy : c.why = .add q) (hfit : s.sys.chip.isoFits c.ws = true) :
    ∃ z, exec .commitTick s = .next { s with sys := z } ∧ z.mem = s.sys.mem ∧
      z.chip.rights.shadow = [] ∧ z.chip.answeredIs q .ok 0 ∧
      (∀ i, z.chip.isoAt i = if i = c.idx
        then { s.sys.chip.isoAt i with rt := c.ws, ct := c.ws, gen := ((s.sys.chip.isoAt i).gen + 1) % 65536 }
        else s.sys.chip.isoAt i) := by
  have hexec := exec_commitTick_eq h
  rw [Chip.commitDue_one h hc, if_pos hdue, Chip.applyIso,
    if_neg (by rw [show Chip.isoFits { s.sys.chip with rights.shadow := [] } c.ws = true from hfit]; decide),
    Chip.isoWords_calm (show (Chip.errs { s.sys.chip with rights.shadow := [] }).armed = [] from hc.armed), hwhy] at hexec
  dsimp only at hexec
  generalize hv : Chip.setIso _ _ _ = v at hexec
  have htold := v.told_cmdAnswer q .ok 0
  have hw : v.rights.isoWait = [] := by rw [← hv]; exact hc.isoWait
  have hr : v.rights.retWait = [] := by rw [← hv]; exact hc.retWait
  rw [Chip.changeDone_idle (by rw [htold.rights, hw]) (by rw [htold.rights, hr])] at hexec
  refine ⟨_, hexec, rfl, ?_, Chip.answeredIs_cmdAnswer .., fun i => ?_⟩
  · show (v.cmdAnswer q .ok 0).rights.shadow = []
    rw [htold.rights, ← hv]
    rfl
  · show KMap.at (v.cmdAnswer q .ok 0).rights.iso {} i = _
    rw [htold.rights, ← hv]
    by_cases hi : i = c.idx
    · rw [if_pos hi, hi]
      exact at_put_self ..
    · rw [if_neg hi]
      exact at_put_ne _ _ (Ne.symm hi)

theorem commitTick_fails (h : s.sys.chip.decidesAlone) (hc : s.sys.chip.oneChange c) (hdue : c.tc ≤ s.sys.chip.now)
    (hwhy : c.why = .add q) (hfit : s.sys.chip.isoFits c.ws = false) :
    Answers .commitTick s { s.sys.chip with rights.shadow := [] } q .noAccess 0 := by
  have hexec := exec_commitTick_eq h
  rw [Chip.commitDue_one h hc, if_pos hdue, Chip.applyIso,
    if_pos (show Chip.isoFits { s.sys.chip with rights.shadow := [] } c.ws = false from hfit), Chip.isoFails, hwhy] at hexec
  dsimp only at hexec
  generalize hv : ({ s.sys.chip with rights.shadow := [] } : Chip) = v at hexec ⊢
  have htold := v.told_cmdAnswer q .noAccess 0
  have hw : v.rights.isoWait = [] := by rw [← hv]; exact hc.isoWait
  have hr : v.rights.retWait = [] := by rw [← hv]; exact hc.retWait
  rw [Chip.changeDone_idle (by rw [htold.rights, hw]) (by rw [htold.rights, hr])] at hexec
  exact Answers.intro hexec htold (Chip.answeredIs_cmdAnswer ..)

theorem commitTick_early (h : s.sys.chip.decidesAlone) (hc : s.sys.chip.oneChange c) (hnot : s.sys.chip.now < c.tc) :
    exec .commitTick s = .next s := by
  have hexec := exec_commitTick_eq h
  rw [Chip.commitDue_one h hc, if_neg (Nat.not_le.mpr hnot)] at hexec
  exact hexec

end

/-! ## The comparator (R195) -/

section
variable {s : State}

theorem isoCompare_off (h : s.sys.chip.fld (extPg + 0x74) 15 0 = 0) : exec .isoCompare s = .next s := by
  have hexec : exec .isoCompare s = execIsoCompare s := (rfl)
  rw [hexec, execIsoCompare, liftC, if_pos h]

theorem isoCompare_same (h : s.sys.chip.fld (extPg + 0x74) 15 0 ≠ 0)
    (heq : (s.sys.chip.isoAt s.sys.chip.rights.cmpPos).rt = (s.sys.chip.isoAt s.sys.chip.rights.cmpPos).ct) :
    exec .isoCompare s = .next { s with
      sys := { s.sys with
        chip := { s.sys.chip with rights.cmpPos := (s.sys.chip.rights.cmpPos + 1) % 4096 } } } := by
  have hexec : exec .isoCompare s = execIsoCompare s := (rfl)
  rw [hexec, execIsoCompare, liftC]
  dsimp only
  rw [if_neg h, if_pos heq]

/-- What counts and reports a difference of the two copies. -/
def Chip.isoDiffers (s : Chip) (i : Nat) (r : FaultRec) : Chip := (s.bump (extPg + 0x70)).itemErr extPg 0 i r

theorem Chip.isoDiffers_reports (s : Chip) (i : Nat) (r : FaultRec) :
    s.Reports (s.isoDiffers i r) ∧ (s.isoDiffers i r).flag (errStat extPg) 0 = true ∧
      (s.isoDiffers i r).reg (extPg + 0x78) = s.reg (extPg + 0x78) ∧
      (s.isoDiffers i r).reg (pairPg + 0x48) = s.reg (pairPg + 0x48) := by
  have hreg : ∀ a, belowPt a → a ≠ extPg + 0x10 → a ≠ extPg + 0x18 → a ≠ extPg + 0x20 → a ≠ extPg + 0x70 →
      (a < fqPg ∨ fqPg + 0x1000 ≤ a) → (s.isoDiffers i r).reg a = s.reg a := fun a h h1 h2 h3 h4 h5 =>
    (Chip.fault_reg _ r h h5).trans ((Chip.countErr_reg _ _ _ _ _ _ h h1 h2 h3).trans (Chip.reg_bump_ne _ (Ne.symm h4)))
  refine ⟨(s.reports_bump _).trans (Chip.reports_itemErr _ _ _ _ _), ?_, ?_, ?_⟩
  · unfold Chip.isoDiffers Chip.itemErr Chip.flag
    rw [Chip.fault_reg _ r (by unfold belowPt errStat extPg; omega) (by decide)]
    exact Chip.countErr_flag _ _ (by decide) (by unfold belowPt errStat extPg; omega)
  · exact hreg _ (by unfold belowPt extPg; omega) (by decide) (by decide) (by decide) (by decide) (by decide)
  · exact hreg _ (by unfold belowPt pairPg; omega) (by decide) (by decide) (by decide) (by decide) (by decide)

theorem isoCompare_differs (h : s.sys.chip.fld (extPg + 0x74) 15 0 ≠ 0)
    (hne : (s.sys.chip.isoAt s.sys.chip.rights.cmpPos).rt ≠ (s.sys.chip.isoAt s.sys.chip.rights.cmpPos).ct)
    (ha : s.sys.chip.decidesAlone) (hlead : s.sys.chip.fld (extPg + 0x78) 15 0 ≤ 300) :
    ∃ z, exec .isoCompare s = .next { s with sys := z } ∧ z.mem = s.sys.mem ∧
      z.chip.rights = { s.sys.chip.rights with
        cmpPos := (s.sys.chip.rights.cmpPos + 1) % 4096
        commits := s.sys.chip.rights.commits ++
          [(s.sys.chip.now + 300, .fence s.sys.chip.rights.cmpPos none)] } ∧
      z.chip.flag (errStat extPg) 0 = true := by
  have hexec : exec .isoCompare s = execIsoCompare s := (rfl)
  rw [execIsoCompare, liftC] at hexec
  dsimp only at hexec
  rw [if_neg h, if_neg hne] at hexec
  generalize hv : ({ s.sys.chip with rights.cmpPos := (s.sys.chip.rights.cmpPos + 1) % 4096 } : Chip) = v at hexec
  obtain ⟨hrep, hflag, hlead', hpair⟩ := v.isoDiffers_reports s.sys.chip.rights.cmpPos
    { faultOf extPg 1 0 with
      kind := 10
      part := isoPart (s.sys.chip.isoAt s.sys.chip.rights.cmpPos).ct
      unit := s.sys.chip.rights.cmpPos }
  unfold Chip.isoDiffers at hrep hflag hlead' hpair
  generalize Chip.itemErr _ _ _ _ _ = u at hexec hrep hflag hlead' hpair
  have hregs : v.regs = s.sys.chip.regs := by rw [← hv]
  have hduo : u.duo = s.sys.chip.duo := by rw [hrep.duo, ← hv]
  have hrole : u.pairRole = s.sys.chip.pairRole := by
    unfold Chip.pairRole Chip.fld
    rw [hpair, Chip.reg, hregs, Chip.reg]
  have hu : u.decidesAlone := by
    obtain ⟨h1, h2⟩ := ha
    unfold Chip.standsBy at h1
    unfold Chip.leads at h2
    unfold Chip.decidesAlone Chip.standsBy Chip.leads
    rw [hrole, hduo]
    exact ⟨h1, h2⟩
  have hnow : u.clock = s.sys.chip.now := by
    rw [Chip.clock_alone hu, hrep.now, ← hv]
  have hat : u.commitAt = s.sys.chip.now + 300 := by
    unfold Chip.commitAt
    have hf : u.fld (extPg + 0x78) 15 0 = s.sys.chip.fld (extPg + 0x78) 15 0 := by
      unfold Chip.fld
      rw [hlead', Chip.reg, hregs, Chip.reg]
    rw [hnow, hf, Nat.max_eq_right hlead]
  rw [Chip.decides_alone hu] at hexec
  refine ⟨_, hexec, rfl, ?_, hflag⟩
  show (u.commitLater u.commitAt (.fence s.sys.chip.rights.cmpPos none)).rights = _
  rw [hat, Chip.commitLater]
  dsimp only
  rw [hrep.rights, ← hv]

end

/-- Settles O35: a change that may be carried out waits in the shadow or behind the one under way, with a
revocation where it lowers a right; at the commit tick of the only change both copies take its words; the
comparator compares one entry and fences it where its copies differ. -/
theorem isoTable : Obligations.IsoTable := by
  unfold Obligations.IsoTable
  intro s q idx w0 w1 w2 w3
  refine ⟨fun h => ⟨?_, ?_, ?_, ?_⟩, fun h link valid host => ⟨?_, ?_, ?_⟩,
    fun h c hsh hco har hiw hrw => ⟨?_, ?_, ?_⟩, ?_, ?_, ?_⟩
  · exact fun hok hret => isoSet_ok h hok hret
  · exact isoSet_no h
  · exact fun hidx hown => isoClear_ok h hidx hown
  · exact isoClear_no h
  · exact linkBind_new h
  · exact fun b hl hh hs => linkBind_bound h hl hh hs
  · exact linkBind_no h
  · exact commitTick_add h ⟨hsh, hco, har, hiw, hrw⟩
  · exact commitTick_fails h ⟨hsh, hco, har, hiw, hrw⟩
  · exact commitTick_early h ⟨hsh, hco, har, hiw, hrw⟩
  · exact isoCompare_off
  · exact isoCompare_same
  · exact isoCompare_differs

end Sys2Proof.Machine

/-! SUPPORT. What recalls change (R212 to R217, R510): the directory, accesses, what is sent or
waits to be sent, registers and reports, and of rights the revocations that wait for them. -/

namespace Sys2Proof.Machine

-- One after the other: side by side the proofs ask for more memory than the check grants.
set_option Elab.async false

open Laws

/-- t is s but for what recalls change. -/
structure Chip.recalls (s t : Chip) : Prop where
  rest : t = { s with
    free := t.free
    out := t.out
    regs := t.regs
    own := t.own
    held := t.held
    links := t.links
    accs := t.accs
    dir := t.dir
    errs := { s.errs with fq := t.errs.fq, nextSeq := t.errs.nextSeq, armed := t.errs.armed }
    chain := t.chain
    parts := t.parts
    rights := { s.rights with revs := t.rights.revs } }

theorem Chip.recalls.refl (s : Chip) : s.recalls s := ⟨rfl⟩

theorem Chip.recalls.trans {s t u : Chip} (h : s.recalls t) (h' : t.recalls u) : s.recalls u :=
  ⟨by rw [h'.rest, h.rest]⟩

theorem Chip.recalls_ite {s t u : Chip} {p : Prop} [Decidable p] (h : s.recalls t) (h' : s.recalls u) :
    s.recalls (if p then t else u) := by
  split <;> assumption

theorem recalls_forEach {α : Type} (l : List α) {f : α → Chip → Chip} (hf : ∀ a (s : Chip), s.recalls (f a s)) (s : Chip) :
    s.recalls (forEach l f s) :=
  forEach_keeps (s.recalls ·) (fun a _ t ht => ht.trans (hf a t)) (.refl s)

theorem Chip.recalls.exts {s t : Chip} (h : s.recalls t) : t.rights.exts = s.rights.exts := by rw [h.rest]

theorem Chip.recalls.leases {s t : Chip} (h : s.recalls t) : t.rights.leases = s.rights.leases := by rw [h.rest]

theorem Chip.recalls.commits {s t : Chip} (h : s.recalls t) : t.rights.commits = s.rights.commits := by rw [h.rest]

theorem Chip.Reports.recalls {s t : Chip} (h : s.Reports t) : s.recalls t := by
  refine ⟨?_⟩
  rw [h.accs, h.links, h.dir, h.rights, show t.held = s.held by rw [h.rest]]
  refine h.rest.trans ?_
  congr 1
  exact (congrArg Chip.parts h.rest).symm

theorem Chip.recalls_toHost (s : Chip) (h : Nat) (hd : PktHdr) (pl : List Byte) : s.recalls (s.toHost h hd pl) := by
  unfold Chip.toHost
  dsimp only
  refine Chip.recalls_ite ⟨rfl⟩ ?_
  exact ((s.reports_bump _).trans (Chip.reports_notice _ _ _)).recalls

theorem Chip.recalls_sendRecall (s : Chip) (h n k off len : Nat) : s.recalls (s.sendRecall h n k off len) :=
  s.recalls_toHost ..

theorem Chip.recalls_updRevs (s : Chip) (p : Rev → Bool) (f : Rev → Rev) : s.recalls (s.updRevs p f) := ⟨rfl⟩

theorem Chip.recalls_setDir (s : Chip) (d : Dir) : s.recalls { s with dir := d } := ⟨rfl⟩

theorem Chip.recalls_setReg (s : Chip) (a : Nat) (w : Word) : s.recalls (s.setReg a w) := ⟨rfl⟩

/-! ## Sets and entries -/

theorem Chip.recalls_setEnt (s : Chip) (k : Nat) (e : DirEnt) : s.recalls (s.setEnt k e) := ⟨rfl⟩

theorem Chip.recalls_writeBack (s : Chip) (d : Nat) : s.recalls (s.writeBack d) := by
  unfold Chip.writeBack
  exact Chip.recalls_ite (.refl s) ⟨rfl⟩

theorem Chip.recalls_putCache (s : Chip) (m : KMap (List CSet)) : s.recalls { s with dir.cache := m } := ⟨rfl⟩

theorem Chip.recalls_useSet (s : Chip) (d : Nat) (b : Bool) : s.recalls (s.useSet d b) := by
  unfold Chip.useSet
  dsimp only
  cases (KMap.at s.dir.cache [] (d % 256)).find? fun c => c.set == d with
  | some c => exact s.recalls_putCache _
  | none =>
    refine Chip.recalls_ite (s.recalls_putCache _) ?_
    cases s.victimWay (KMap.at s.dir.cache [] (d % 256)) with
    | some v => exact Chip.recalls_ite ((s.recalls_putCache _).trans (Chip.recalls_writeBack _ _)) (s.recalls_putCache _)
    | none => exact Chip.recalls_ite (s.recalls_writeBack d) (.refl s)

theorem Chip.recalls_changeEnt (s : Chip) (k : Nat) (e : DirEnt) : s.recalls (s.changeEnt k e) := by
  unfold Chip.changeEnt
  refine Chip.recalls.trans ?_ ((Chip.recalls_setEnt _ k e).trans (Chip.recalls_useSet _ _ _))
  exact Chip.recalls_ite ⟨rfl⟩ (.refl s)

/-! ## The end of a recall -/

theorem Chip.recalls_finishLost (s : Chip) (d : Nat) (b : Bool) : s.recalls (s.finishLost d b) := by
  unfold Chip.finishLost
  exact ((s.recalls_setDir _).trans (Chip.recalls_setReg _ _ _)).trans (Chip.reports_fault _ _).recalls

theorem Chip.recalls_clearSet (s : Chip) (d : Nat) : s.recalls (s.clearSet d) := by
  unfold Chip.clearSet
  split
  · exact s.recalls_finishLost d true
  · exact ⟨rfl⟩

theorem Chip.recalls_leavePending (s : Chip) (n b : Nat) (h : Option Nat) : s.recalls (s.leavePending n b h) := by
  unfold Chip.leavePending
  cases s.entOf b with
  | none => exact .refl s
  | some e => exact Chip.recalls_ite (s.recalls_changeEnt _ _) (.refl s)

/-- R213: what waited on a recall goes on. -/
theorem Chip.recalls_goOn (s : Chip) (b : Bool) (k : Nat) (l : List Acc) :
    s.recalls { (if b = true then s.bumpBy (dirPg + 0x54) k else s) with accs := l } := by
  cases b <;> exact ⟨rfl⟩

theorem Chip.recalls_completeRecall (s : Chip) (n : Nat) : s.recalls (s.completeRecall n) := by
  unfold Chip.completeRecall
  cases s.dir.trk.find? fun t => t.rseq == n with
  | none => exact .refl s
  | some t =>
    dsimp only
    generalize hu : Chip.recallGone _ _ = u
    have hsu : s.recalls u := by
      rw [← hu]
      exact ⟨rfl⟩
    refine hsu.trans ?_
    cases t.after with
    | invalid => exact (u.recalls_leavePending _ _ _).trans (Chip.recalls_goOn _ _ _ _)
    | owned h => exact (u.recalls_leavePending _ _ _).trans (Chip.recalls_goOn _ _ _ _)
    | lostSet d => exact (u.recalls_clearSet d).trans (Chip.recalls_goOn _ _ _ _)
    | _ => exact Chip.recalls_goOn ..

theorem Chip.recalls_settleRecalls (s : Chip) : s.recalls s.settleRecalls :=
  recalls_forEach _ (fun n s => s.recalls_completeRecall n) s

/-! ## The start of a recall -/

theorem Chip.recalls_unregResp (s : Chip) (r : Req) : s.recalls (s.unregResp r) := ⟨rfl⟩

theorem Chip.recalls_unregister (s : Chip) (b : Nat) (hs : List Nat) : s.recalls (s.unregister b hs) := by
  unfold Chip.unregister
  dsimp only
  have h1 : ∀ k, s.recalls (s.bumpBy (dirPg + 0x54) k) := fun _ => ⟨rfl⟩
  exact ((h1 _).trans (recalls_forEach _ (fun r s => s.recalls_unregResp r) _)).trans ⟨rfl⟩

theorem Chip.recalls_startRecall (s : Chip) (kind what count : Nat) (hs : List Nat) (wide : Bool) (after : After)
    (victim : Option DirEnt) (unres : Bool) : s.recalls (s.startRecall kind what count hs wide after victim unres).2 := by
  unfold Chip.startRecall
  dsimp only
  refine Chip.recalls.trans ?_ (recalls_forEach _ (fun h s => s.recalls_sendRecall _ _ _ _ _) _)
  refine Chip.recalls.trans (t := if kind = 0 then s.unregister what _ else s) ?_ ⟨rfl⟩
  exact Chip.recalls_ite (s.recalls_unregister _ _) (.refl s)

theorem Chip.recalls_issueWait (s : Chip) (w : RclWait) : s.recalls (s.issueWait w) := by
  unfold Chip.issueWait
  dsimp only
  refine Chip.recalls.trans ?_ (Chip.recalls_settleRecalls _)
  cases w.rev with
  | none => exact s.recalls_startRecall ..
  | some r => exact (s.recalls_startRecall ..).trans (Chip.recalls_updRevs ..)

theorem Chip.recalls_askRecall (s : Chip) (w : RclWait) : s.recalls (s.askRecall w) := by
  unfold Chip.askRecall
  exact Chip.recalls_ite (s.recalls_issueWait w) ⟨rfl⟩

theorem Chip.recalls_purgeHost (s : Chip) (h : Nat) : s.recalls (s.purgeHost h) := by
  unfold Chip.purgeHost
  exact ((recalls_forEach _ (fun x s => s.recalls_changeEnt _ _) s).trans ⟨rfl⟩).trans (Chip.recalls_settleRecalls _)

/-! ## A revocation takes effect (R200, R217) -/

theorem Chip.recalls_recallLosers (s : Chip) (id : Nat) (es : List Nat) : s.recalls (s.recallLosers id es) :=
  recalls_forEach _ (fun _ s => recalls_forEach _ (fun _ s => s.recalls_askRecall _) s) s

theorem Chip.recalls.rights {s t : Chip} (h : s.recalls t) : t.rights = { s.rights with revs := t.rights.revs } := by
  rw [h.rest]

/-- Of rights, a revocation that takes effect changes the revocations alone. -/
theorem Chip.rights_revCommit (s : Chip) (id : Nat) :
    (s.revCommit id).rights = { s.rights with revs := (s.revCommit id).rights.revs } := by
  unfold Chip.revCommit
  cases s.rights.revs.find? fun r => r.id == id with
  | none => rfl
  | some r =>
    dsimp only
    rw [(Chip.recalls_recallLosers _ _ _).rights]
    rfl

end Sys2Proof.Machine

/-! PROOF of O36 (R196 to R198): leases from opening to FREE. -/

namespace Sys2Proof.Machine

-- One after the other: side by side the proofs ask for more memory than the check grants.
set_option Elab.async false

open Laws

/-! ## Opening and closing (R196, R197) -/

section
variable {s : State} {q : CmdReq} {i host len rint : Nat}

/-- R196: what the length and the interval of a lease must be. -/
def leaseTerms (host len rint : Nat) : Prop :=
  100 ≤ len ∧ len ≤ 60000000 ∧ 50 ≤ rint ∧ 2 * rint ≤ len ∧ host < 16384

theorem exec_leaseOpen_eq (host len rint : Nat) (h : s.sys.chip.takesCmd q false) :
    chipNext s (.leaseOpen q host len rint)
      (if s.sys.chip.retiring = true then (s.sys.chip.leaveIngress q).cmdAnswer q .noAccess 0
        else match s.sys.chip.hostLease host, s.sys.chip.freeLease with
          | none, some i =>
            if 100 ≤ len ∧ len ≤ 60000000 ∧ 50 ≤ rint ∧ 2 * rint ≤ len ∧ host < 16384
            then ((s.sys.chip.leaveIngress q).setLease i ⟨1, host, s.sys.chip.sessPart q.session, len, rint,
              s.sys.chip.clock + 1000 * len⟩).cmdAnswer q .ok i
            else (s.sys.chip.leaveIngress q).cmdAnswer q .noAccess 0
          | _, _ => (s.sys.chip.leaveIngress q).cmdAnswer q .noAccess 0) := by
  have hexec : exec (.leaseOpen q host len rint) s = execLeaseOpen q host len rint s := (rfl)
  rw [chipNext, hexec, execLeaseOpen, liftC]
  simp only [Chip.grantCommand_eq h]
  rfl

theorem leaseOpen_ok (h : s.sys.chip.takesCmd q false) (hret : s.sys.chip.retiring = false)
    (hnone : s.sys.chip.hostLease host = none) (hfree : s.sys.chip.freeLease = some i) (hok : leaseTerms host len rint) :
    Answers (.leaseOpen q host len rint) s (s.sys.chip.setLease i ⟨1, host, s.sys.chip.sessPart q.session, len, rint,
      s.sys.chip.clock + 1000 * len⟩) q .ok i := by
  have hexec := exec_leaseOpen_eq host len rint h
  unfold leaseTerms at hok
  rw [if_neg (by simp [hret]), hnone, hfree] at hexec
  dsimp only at hexec
  rw [if_pos hok] at hexec
  exact answers_of_exec hexec

theorem leaseOpen_no (h : s.sys.chip.takesCmd q false)
    (hno : s.sys.chip.hostLease host ≠ none ∨ s.sys.chip.freeLease = none ∨ ¬leaseTerms host len rint) :
    Answers (.leaseOpen q host len rint) s s.sys.chip q .noAccess 0 := by
  have hexec := exec_leaseOpen_eq host len rint h
  refine answers_of_exec (hexec.trans (congrArg (fun c => Host.Outcome.next { s with sys := { s.sys with chip := c } }) ?_))
  split
  · rfl
  · cases hl : s.sys.chip.hostLease host with
    | some l => rfl
    | none =>
      cases hf : s.sys.chip.freeLease with
      | none => rfl
      | some i => exact if_neg ((hno.resolve_left (· hl)).resolve_left (by simp [hf]))

theorem exec_leaseClose_eq (i : Nat) (h : s.sys.chip.takesCmd q false) :
    chipNext s (.leaseClose q i) (if i < 4096 ∧ s.sys.chip.leaseOfPart i (s.sys.chip.sessPart q.session) = true
      then (((s.sys.chip.leaveIngress q).cmdPending q).openRev (some q) (.leaseClose i)
          (s.sys.chip.sessPart q.session) s.sys.chip.commitAt [] []).2.commitLater s.sys.chip.commitAt
        (.close (((s.sys.chip.leaveIngress q).cmdPending q).openRev (some q) (.leaseClose i)
          (s.sys.chip.sessPart q.session) s.sys.chip.commitAt [] []).1 i)
      else (s.sys.chip.leaveIngress q).cmdAnswer q .noAccess 0) := by
  have hexec : exec (.leaseClose q i) s = execLeaseClose q i s := (rfl)
  rw [chipNext, hexec, execLeaseClose, liftC]
  simp only [Chip.command_eq h]
  rfl

theorem leaseClose_ok (h : s.sys.chip.takesCmd q false) (hi : i < 4096)
    (hp : s.sys.chip.leaseOfPart i (s.sys.chip.sessPart q.session) = true) :
    Pends (.leaseClose q i) s { s.sys.chip with
      rights.revSeq := s.sys.chip.rights.revSeq + 1
      rights.revs := s.sys.chip.rights.revs ++ [⟨s.sys.chip.rights.revSeq, some q, .leaseClose i, s.sys.chip.commitAt,
        false, s.sys.chip.sessPart q.session, [], [], [], [], []⟩]
      rights.commits := s.sys.chip.rights.commits ++
        [(s.sys.chip.commitAt, .close s.sys.chip.rights.revSeq i)] } q := by
  have hexec := exec_leaseClose_eq i h
  rw [if_pos ⟨hi, hp⟩] at hexec
  refine pends_setRights (hexec.trans ?_)
  obtain ⟨x, hx⟩ := s.sys.chip.cmdPending_eth q
  rw [hx]
  rfl

theorem leaseClose_no (h : s.sys.chip.takesCmd q false)
    (hno : 4096 ≤ i ∨ s.sys.chip.leaseOfPart i (s.sys.chip.sessPart q.session) = false) :
    Answers (.leaseClose q i) s s.sys.chip q .noAccess 0 := by
  have hexec := exec_leaseClose_eq i h
  rw [if_neg] at hexec
  · exact answers_of_exec hexec
  · rintro ⟨hi, hp⟩
    obtain hno | hno := hno
    · omega
    · rw [hp] at hno
      cases hno

end

/-! ## Renewals (R198) -/

/-- R198: the lease renewed at its header tick. -/
def Chip.renewed (s : Chip) (i : Nat) (l : Lease) : Chip :=
  s.setLease i { l with
    state := 1
    x := s.now + 1000 * l.len }

theorem Chip.leaseNow_alone {s : Chip} (h : s.standsBy = false) : s.leaseNow = s.now := by
  rw [Chip.leaseNow, if_neg (by simp [h])]

theorem Chip.renewLease_some {s : Chip} (hs : s.standsBy = false) {h i : Nat} {l : Lease}
    (hl : s.hostLease h = some (i, l)) :
    s.renewLease h = if leaseEff s.now l = 1 ∨ leaseEff s.now l = 2
      then (true, if leaseEff s.now l = 2 then (s.renewed i l).leaseEvent i else s.renewed i l)
      else (false, s.bump (lsPg + 0x6C)) := by
  have hclock : s.clock = s.now := by rw [Chip.clock, if_neg (by simp [hs])]
  unfold Chip.renewLease Chip.renewed
  rw [hl]
  dsimp only
  rw [Chip.leaseNow_alone hs, hclock]

theorem Chip.turnOf_alone {s : Chip} (h : s.standsBy = false) (id : Nat) (f : Chip → Chip) : s.turnOf id f = f s := by
  unfold Chip.turnOf
  rw [if_neg (by simp [h])]

/-- What a renewal over the fabric leaves, where it is answered with a status. -/
def renewGives (s : State) (port : Nat) (pkt : Packet) (c : Chip) (st : Status) : Prop :=
  chipNext s (.leaseRenew (.fabric port pkt)) (c.respond pkt.hdr st)

section
variable {s : State} {port : Nat} {pkt : Packet}

theorem exec_leaseRenew_fabric (hs : s.sys.chip.standsBy = false) (ha : s.sys.chip.addressed = true) :
    chipNext s (.leaseRenew (.fabric port pkt))
      (if s.sys.chip.spoofed port pkt.hdr.srcHost = true
        then ((s.sys.chip.bump (lsPg + 0x6C)).spoofCount.respond pkt.hdr .noAccess)
        else if pkt.hdr.cls ≠ 4 then (s.sys.chip.bump (lsPg + 0x6C)).respond pkt.hdr .noAccess
        else (s.sys.chip.renewLease pkt.hdr.srcHost).2.respond pkt.hdr
          (if (s.sys.chip.renewLease pkt.hdr.srcHost).1 = true then .ok else .noAccess)) := by
  have hexec : exec (.leaseRenew (.fabric port pkt)) s = execLeaseRenew (.fabric port pkt) s := (rfl)
  rw [chipNext, hexec, execLeaseRenew, liftC]
  dsimp only
  rw [Chip.turnOf_alone hs]
  rw [if_neg (by simp [ha])]

theorem leaseRenew_spoofed (hs : s.sys.chip.standsBy = false) (ha : s.sys.chip.addressed = true)
    (h : s.sys.chip.spoofed port pkt.hdr.srcHost = true) :
    renewGives s port pkt (s.sys.chip.bump (lsPg + 0x6C)).spoofCount .noAccess := by
  have hexec := exec_leaseRenew_fabric hs ha (port := port) (pkt := pkt)
  rw [if_pos h] at hexec
  exact hexec

theorem leaseRenew_class (hs : s.sys.chip.standsBy = false) (ha : s.sys.chip.addressed = true)
    (h : s.sys.chip.spoofed port pkt.hdr.srcHost = false) (hc : pkt.hdr.cls ≠ 4) :
    renewGives s port pkt (s.sys.chip.bump (lsPg + 0x6C)) .noAccess := by
  have hexec := exec_leaseRenew_fabric hs ha (port := port) (pkt := pkt)
  rw [if_neg (by simp [h]), if_pos hc] at hexec
  exact hexec

theorem leaseRenew_none (hs : s.sys.chip.standsBy = false) (ha : s.sys.chip.addressed = true)
    (h : s.sys.chip.spoofed port pkt.hdr.srcHost = false) (hl : s.sys.chip.hostLease pkt.hdr.srcHost = none) :
    renewGives s port pkt (s.sys.chip.bump (lsPg + 0x6C)) .noAccess := by
  by_cases hc : pkt.hdr.cls ≠ 4
  · exact leaseRenew_class hs ha h hc
  · have hexec := exec_leaseRenew_fabric hs ha (port := port) (pkt := pkt)
    have hr : s.sys.chip.renewLease pkt.hdr.srcHost = (false, s.sys.chip.bump (lsPg + 0x6C)) := by
      unfold Chip.renewLease
      rw [hl]
    rw [if_neg (by simp [h]), if_neg hc, hr] at hexec
    exact hexec

theorem leaseRenew_some (hs : s.sys.chip.standsBy = false) (ha : s.sys.chip.addressed = true)
    (h : s.sys.chip.spoofed port pkt.hdr.srcHost = false) (hc : pkt.hdr.cls = 4) {i : Nat} {l : Lease}
    (hl : s.sys.chip.hostLease pkt.hdr.srcHost = some (i, l)) :
    (leaseEff s.sys.chip.now l = 1 → renewGives s port pkt (s.sys.chip.renewed i l) .ok) ∧
      (leaseEff s.sys.chip.now l = 2 → renewGives s port pkt ((s.sys.chip.renewed i l).leaseEvent i) .ok) ∧
      (leaseEff s.sys.chip.now l ≠ 1 → leaseEff s.sys.chip.now l ≠ 2 →
        renewGives s port pkt (s.sys.chip.bump (lsPg + 0x6C)) .noAccess) := by
  have hexec := exec_leaseRenew_fabric hs ha (port := port) (pkt := pkt)
  rw [if_neg (by simp [h]), if_neg (by simp [hc]), Chip.renewLease_some hs hl] at hexec
  refine ⟨fun he => ?_, fun he => ?_, fun h1 h2 => ?_⟩
  · rw [if_pos (.inl he), if_neg (by omega)] at hexec
    exact hexec
  · rw [if_pos (.inr he), if_pos he] at hexec
    exact hexec
  · rw [if_neg (by simp [h1, h2])] at hexec
    exact hexec

/-- R198, R230: a renewal on the data channel of a session. -/
theorem leaseRenew_session (hs : s.sys.chip.standsBy = false) {q : CmdReq} {i : Nat} {l : Lease}
    (hv : s.sys.chip.sessValid q.session = true) (hrec : (s.sys.chip.recorded q 2).isSome = false) (hc : q.chan = 16)
    (hl : s.sys.chip.hostLease (s.sys.chip.sessHost q.session) = some (i, l)) (he : leaseEff s.sys.chip.now l = 1) :
    Answers (.leaseRenew (.xht q)) s (s.sys.chip.renewed i l) q .ok 0 := by
  have hexec : exec (.leaseRenew (.xht q)) s = execLeaseRenew (.xht q) s := (rfl)
  rw [execLeaseRenew, liftC] at hexec
  dsimp only at hexec
  rw [Chip.turnOf_alone hs] at hexec
  have hv' : (s.sys.chip.leaveIngress q).sessValid q.session = true := hv
  have hrec' : ((s.sys.chip.leaveIngress q).recorded q 2).isSome = false := by
    unfold Chip.recorded at hrec ⊢
    rw [Option.isSome_map] at hrec ⊢
    exact hrec
  have hl' : (s.sys.chip.leaveIngress q).hostLease ((s.sys.chip.leaveIngress q).sessHost q.session) = some (i, l) := hl
  have he' : leaseEff (s.sys.chip.leaveIngress q).now l = 1 := he
  rw [if_neg (by simp [hv']), if_neg (by simp [hrec']), if_neg (by simp [hc]),
    Chip.renewLease_some (show (s.sys.chip.leaveIngress q).standsBy = false from hs) hl', if_pos (.inl he'),
    if_neg (by omega)] at hexec
  exact answers_of_exec hexec

end

/-! ## Lapse (R197) -/

section
variable {s : State} {i : Nat}

theorem leaseExpiry_lapses (h : s.sys.chip.decidesAlone)
    (hx : (KMap.at s.sys.chip.rights.leases {} i).x ≤ s.sys.chip.now)
    (hst : (KMap.at s.sys.chip.rights.leases {} i).state = 1) :
    ∃ z, exec (.leaseExpiry i) s = .next { s with sys := z } ∧ z.mem = s.sys.mem ∧
      z.chip.rights = (s.sys.chip.setLease i { KMap.at s.sys.chip.rights.leases {} i with state := 2 }).rights := by
  have hexec : exec (.leaseExpiry i) s = execLeaseExpiry i s := (rfl)
  rw [execLeaseExpiry, liftC] at hexec
  dsimp only at hexec
  rw [if_pos hx, Chip.decides_alone h, Chip.leaseLapse] at hexec
  rw [if_pos hst] at hexec
  exact ⟨_, hexec, rfl, (Chip.reports_raise _ _ _ _ _ _ _ _).rights⟩

theorem leaseExpiry_early (h : s.sys.chip.now < (KMap.at s.sys.chip.rights.leases {} i).x) :
    exec (.leaseExpiry i) s = .next s := by
  have hexec : exec (.leaseExpiry i) s = execLeaseExpiry i s := (rfl)
  rw [hexec, execLeaseExpiry, liftC, if_neg (Nat.not_le.mpr h)]

end

/-! ## The end of the grace (R197, R198) -/

/-- The extents and the leases of t are those of s. -/
structure Chip.sameHolds (s t : Chip) : Prop where
  exts : t.rights.exts = s.rights.exts
  leases : t.rights.leases = s.rights.leases

theorem Chip.sameHolds.refl (s : Chip) : s.sameHolds s := ⟨rfl, rfl⟩

theorem Chip.sameHolds.trans {s t u : Chip} (h : s.sameHolds t) (h' : t.sameHolds u) : s.sameHolds u :=
  ⟨h'.exts.trans h.exts, h'.leases.trans h.leases⟩

theorem Chip.sameHolds_ite {s t u : Chip} {p : Prop} [Decidable p] (h : s.sameHolds t) (h' : s.sameHolds u) :
    s.sameHolds (if p then t else u) := by
  split <;> assumption

theorem Chip.recalls.sameHolds {s t : Chip} (h : s.recalls t) : s.sameHolds t := ⟨h.exts, h.leases⟩

theorem Chip.proceeds.sameHolds {s t : Chip} (h : s.proceeds t) : s.sameHolds t := ⟨by rw [h.rest], h.leases⟩

theorem Chip.sameHolds_of_rights {s t : Chip} (h : t.rights = s.rights) : s.sameHolds t := ⟨by rw [h], by rw [h]⟩

theorem Chip.sameHolds_revCommit (s : Chip) (id : Nat) : s.sameHolds (s.revCommit id) :=
  ⟨by rw [s.rights_revCommit], by rw [s.rights_revCommit]⟩

theorem Chip.rights_strike (s : Chip) (pg : Nat) : (s.strike pg).2.rights = s.rights := by
  have htake : (s.takeArmed pg).2.rights = s.rights := (s.reports_takeArmed pg).rights
  unfold Chip.strike
  generalize s.takeArmed pg = o at htake
  obtain ⟨m, u⟩ := o
  cases m with
  | none => exact htake
  | some m => cases m <;> exact htake

/-- R193, R398: writing an entry leaves extents and leases alone, struck or not. -/
theorem Chip.sameHolds_isoWords (s : Chip) (i : Nat) : s.sameHolds (s.isoWords i) := by
  have hhit : ∀ (s : Chip) (n pg ce ue : Nat), s.sameHolds (if n = 0 then s
      else if n = 1 then s.countErr pg ce 0 i true
      else Chip.commitLater (s.itemErr pg ue i { faultOf pg 1 ue with
        inj := true, kind := 10, part := isoPart (s.isoAt i).ct, unit := i }) s.commitAt (.fence i none)) :=
    fun s n pg ce ue => Chip.sameHolds_ite (.refl s) (Chip.sameHolds_ite
      (Chip.sameHolds_of_rights (s.reports_countErr _ _ _ _ _).rights)
      ((Chip.sameHolds_of_rights (s.reports_itemErr _ _ _ _).rights).trans
        (Chip.proceeds_commitLater _ _ _).sameHolds))
  unfold Chip.isoWords
  dsimp only
  exact (((Chip.sameHolds_of_rights (s.rights_strike _)).trans (Chip.sameHolds_of_rights (Chip.rights_strike _ _))).trans
    (hhit _ _ _ _ _)).trans (hhit _ _ _ _ _)

theorem Chip.sameHolds_isoFails (s : Chip) (c : IsoChange) : s.sameHolds (s.isoFails c) := by
  unfold Chip.isoFails
  dsimp only
  refine Chip.sameHolds.trans ?_ (Chip.proceeds_changeDone _ _).sameHolds
  cases c.why with
  | add q => exact (s.proceeds_cmdAnswer q _ _).sameHolds
  | rev id =>
    dsimp only
    have hgone := s.proceeds_filterRevs fun x => !(x.id == id)
    cases (s.rights.revs.find? fun r : Rev => r.id == id).bind (·.q) with
    | none => exact hgone.sameHolds
    | some q => exact (hgone.trans (Chip.proceeds_cmdAnswer _ q _ _)).sameHolds

/-- R194: a change that becomes current leaves extents and leases alone. -/
theorem Chip.sameHolds_applyIso (s : Chip) (c : IsoChange) : s.sameHolds (s.applyIso c) := by
  unfold Chip.applyIso
  refine Chip.sameHolds_ite (s.sameHolds_isoFails c) ((s.sameHolds_isoWords c.idx).trans ?_)
  generalize s.isoWords c.idx = u
  dsimp only
  cases c.why with
  | add q => exact (((u.proceeds_setIso _ _).trans (Chip.proceeds_cmdAnswer _ q _ _)).trans
      (Chip.proceeds_changeDone _ _)).sameHolds
  | rev id => exact (u.proceeds_setIso _ _).sameHolds.trans (Chip.sameHolds_revCommit _ id)

theorem sameHolds_forEach {α : Type} (l : List α) {f : α → Chip → Chip} (hf : ∀ a (s : Chip), s.sameHolds (f a s))
    (s : Chip) : s.sameHolds (forEach l f s) :=
  forEach_keeps (s.sameHolds ·) (fun a _ t ht => ht.trans (hf a t)) (.refl s)

/-- R194: a commit tick for which nothing but changes of entries waits leaves extents and leases alone. -/
theorem Chip.sameHolds_commitDue {s : Chip} (hco : s.rights.commits = []) : s.sameHolds s.commitDue := by
  rw [Chip.commitDue_shadow hco]
  refine .trans ?_ (sameHolds_forEach _ (fun c s => s.sameHolds_applyIso c) _)
  exact ⟨rfl, rfl⟩

/-- Changes of extents that repeat without effect, one after the other. -/
theorem Chip.mapExts_again {f : Ext → Ext} (hf : ∀ x, f (f x) = f x) (l : List Nat) : ∀ (s : Chip) (i : Nat),
    (s.mapExts l f).ext i = if i ∈ l then f (s.ext i) else s.ext i := by
  induction l with
  | nil => exact fun s i => rfl
  | cons e l ih =>
    intro s i
    have hstep : s.mapExts (e :: l) f = (s.setExt e (f (s.ext e))).mapExts l f := forEach_cons ..
    rw [hstep, ih, Chip.ext_setExt]
    by_cases hi : i = e
    · subst hi
      simp [hf]
    · simp [hi]

theorem Chip.extsOnly_mapExts (s : Chip) (l : List Nat) (f : Ext → Ext) : s.extsOnly (s.mapExts l f) :=
  forEach_keeps (s.extsOnly ·) (fun e _ t ht => ht.trans (t.extsOnly_setExt e _)) (.refl s)

/-- R197: an extent that its lease leaves behind. -/
def Ext.reclaimed (x : Ext) : Ext := { x with state := 2, bound := false, lease := 0 }

/-- R197: the extents bound to lease i. -/
def Chip.boundTo (s : Chip) (i : Nat) : List Nat :=
  (s.rights.exts.filter fun x => x.2.state == 1 && x.2.bound && x.2.lease == i).map (·.1)

theorem Chip.sameHolds_stage (s : Chip) (c : IsoChange) :
    s.sameHolds (s.stage c) ∧ (s.stage c).rights.commits = s.rights.commits := by
  unfold Chip.stage
  split <;> exact ⟨⟨rfl, rfl⟩, rfl⟩

/-- R197, R198: the reclaim of a lease. -/
theorem Chip.reclaim_holds (s : Chip) (id i : Nat) :
    (s.reclaim id i).rights.leases = KMap.put s.rights.leases {} i { KMap.at s.rights.leases {} i with state := 3 } ∧
      (∀ e, (s.reclaim id i).ext e = if e ∈ s.boundTo i then (s.ext e).reclaimed else s.ext e) ∧
      (s.reclaim id i).rights.commits = s.rights.commits := by
  unfold Chip.reclaim
  dsimp only
  generalize hu : ({ s with rights.leases := KMap.put s.rights.leases {} i { KMap.at s.rights.leases {} i with state := 3 } } : Chip) = u
  have hexts : u.rights.exts = s.rights.exts := by rw [← hu]
  have hleases : u.rights.leases = KMap.put s.rights.leases {} i { KMap.at s.rights.leases {} i with state := 3 } := by
    rw [← hu]
  have hcom : u.rights.commits = s.rights.commits := by rw [← hu]
  generalize (List.map _ _ ++ u.overlapping _).eraseDups = idxs
  generalize hv : Chip.updRevs u _ _ = v
  have hv1 : v.rights.exts = u.rights.exts ∧ v.rights.leases = u.rights.leases ∧ v.rights.commits = u.rights.commits := by
    rw [← hv]
    exact ⟨rfl, rfl, rfl⟩
  have hm := v.extsOnly_mapExts (s.boundTo i) Ext.reclaimed
  have hmext := v.mapExts_again (f := Ext.reclaimed) (fun _ => rfl) (s.boundTo i)
  have hmcom : (v.mapExts (s.boundTo i) Ext.reclaimed).rights.commits = v.rights.commits := by rw [hm.rest]
  change (Chip.raise ((Chip.revCommit (forEach idxs _ (v.mapExts (s.boundTo i) Ext.reclaimed)) id).purgeHost _)
    _ _ _ _ _ _ _).rights.leases = _ ∧ (∀ e, Chip.ext (Chip.raise ((Chip.revCommit (forEach idxs _
      (v.mapExts (s.boundTo i) Ext.reclaimed)) id).purgeHost _) _ _ _ _ _ _ _) e = _) ∧
    (Chip.raise ((Chip.revCommit (forEach idxs _ (v.mapExts (s.boundTo i) Ext.reclaimed)) id).purgeHost _)
      _ _ _ _ _ _ _).rights.commits = _
  generalize v.mapExts (s.boundTo i) Ext.reclaimed = m at hm hmext hmcom ⊢
  generalize hw : forEach idxs _ m = w
  have hw1 : m.sameHolds w ∧ w.rights.commits = m.rights.commits := by
    rw [← hw]
    exact forEach_keeps (fun t => m.sameHolds t ∧ t.rights.commits = m.rights.commits)
      (fun k _ t ht => ⟨ht.1.trans (t.sameHolds_stage _).1, (t.sameHolds_stage _).2.trans ht.2⟩) ⟨.refl m, rfl⟩
  have hpurge := Chip.recalls_purgeHost (w.revCommit id) (KMap.at s.rights.leases {} i).host
  have hrev := (w.sameHolds_revCommit id).trans hpurge.sameHolds
  have hcommits := hpurge.commits.trans (congrArg Rights.commits (w.rights_revCommit id))
  rw [(Chip.reports_raise _ _ _ _ _ _ _ _).rights]
  refine ⟨?_, fun e => ?_, ?_⟩
  · rw [hrev.leases, hw1.1.leases, hm.leases, hv1.2.1, hleases]
  · rw [Chip.ext, (Chip.reports_raise _ _ _ _ _ _ _ _).rights, hrev.exts, hw1.1.exts]
    refine (hmext e).trans ?_
    rw [Chip.ext, hv1.1, hexts]
    rfl
  · rw [hcommits, hw1.2, hmcom, hv1.2.2, hcom]

theorem leaseGraceEnd_reclaims {s : State} {i : Nat} {l : Lease} (hl : l = KMap.at s.sys.chip.rights.leases {} i)
    (h : s.sys.chip.decidesAlone) (hx : l.x + 2000 * l.rint ≤ s.sys.chip.now) (hst : l.state = 1 ∨ l.state = 2)
    (hco : s.sys.chip.rights.commits = []) :
    ∃ z, exec (.leaseGraceEnd i) s = .next { s with sys := z } ∧ z.mem = s.sys.mem ∧
      z.chip.rights.leases = KMap.put s.sys.chip.rights.leases {} i { l with state := 3 } ∧
      ∀ e, z.chip.ext e = if e ∈ s.sys.chip.boundTo i then (s.sys.chip.ext e).reclaimed else s.sys.chip.ext e := by
  have hexec : exec (.leaseGraceEnd i) s = execLeaseGraceEnd i s := (rfl)
  subst hl
  rw [execLeaseGraceEnd, liftC] at hexec
  dsimp only at hexec
  rw [if_pos hx, Chip.decides_alone h, Chip.graceOver] at hexec
  dsimp only at hexec
  rw [if_pos hst] at hexec
  generalize hu : (Chip.openRev _ _ _ _ _ _ _).2 = u at hexec
  have hur : u.rights.exts = s.sys.chip.rights.exts ∧ u.rights.leases = s.sys.chip.rights.leases ∧
      u.rights.commits = s.sys.chip.rights.commits := by
    rw [← hu]
    exact ⟨rfl, rfl, rfl⟩
  obtain ⟨hue, hul, huc⟩ := hur
  obtain ⟨hleases, hext, hcom⟩ := u.reclaim_holds (Chip.openRev s.sys.chip none (.lapse i)
    (KMap.at s.sys.chip.rights.leases {} i).part ((KMap.at s.sys.chip.rights.leases {} i).x +
      2000 * (KMap.at s.sys.chip.rights.leases {} i).rint) [] []).1 i
  generalize u.reclaim _ i = v at hexec hleases hext hcom
  have hdue := Chip.sameHolds_commitDue (hcom.trans (huc.trans hco))
  refine ⟨_, hexec, rfl, ?_, fun e => ?_⟩
  · show v.commitDue.rights.leases = _
    rw [hdue.leases, hleases, hul]
  · show KMap.at v.commitDue.rights.exts {} e = _
    rw [hdue.exts]
    refine (hext e).trans ?_
    rw [Chip.boundTo, Chip.ext, hue]
    rfl

/-! ## The end of the drain (R198) -/

/-- The revocation is a reclaim of lease i. -/
def Rev.ofLease (r : Rev) (i : Nat) : Bool := r.kind == .leaseClose i || r.kind == .lapse i

theorem revDones_clear (i : Nat) (l : List Rev) : ∀ s : Chip,
    (∀ x ∈ s.rights.revs, x.ofLease i = true → ∃ r ∈ l, r.id = x.id) →
    (forEach l (fun r s => s.revDone r) s).rights.leases = s.rights.leases ∧
      ∀ x ∈ (forEach l (fun r s => s.revDone r) s).rights.revs, x.ofLease i = false := by
  induction l with
  | nil =>
    intro s h
    refine ⟨rfl, fun x hx => Bool.eq_false_iff.mpr fun hb => ?_⟩
    obtain ⟨r, hr, _⟩ := h x hx hb
    cases hr
  | cons r l ih =>
    intro s h
    obtain ⟨hleases, -, hrevs⟩ := s.rights_revDone r
    rw [forEach_cons]
    obtain ⟨hz, hclear⟩ := ih (s.revDone r) fun x hx hb => by
      obtain ⟨w, hw, hid, hk⟩ | ⟨-, hk⟩ := hrevs x hx
      · obtain ⟨hwin, hwid⟩ := List.mem_filter.mp hw
        obtain ⟨r', hr', hid'⟩ := h w hwin (by rw [Rev.ofLease, hk]; exact hb)
        refine ⟨r', (List.mem_cons.mp hr').resolve_left fun heq => ?_, hid'.trans hid⟩
        rw [heq] at hid'
        simp [hid'] at hwid
      · rw [Rev.ofLease] at hb
        obtain hk | hk := hk <;> simp [hk] at hb
    exact ⟨hz.trans hleases, hclear⟩

section
variable {s : State} {i : Nat} {rs : List Rev}

theorem exec_reclaimDone_eq (hrs : s.sys.chip.rights.revs.filter (fun r => r.ofLease i) = rs) :
    chipNext s (.reclaimDone i) (if (rs.filter (·.committed)).isEmpty = false ∧
        (rs.filter (·.committed)).all s.sys.chip.revReady = true
      then forEach rs (fun r s => s.revDone r) ((s.sys.chip.setLease i {}).bump (lsPg + 0x5C)) else s.sys.chip) := by
  subst hrs
  rfl

theorem reclaimDone_frees (hrs : s.sys.chip.rights.revs.filter (fun r => r.ofLease i) = rs)
    (hgo : (rs.filter (·.committed)).isEmpty = false)
    (hready : ∀ r ∈ rs, r.committed = true → s.sys.chip.revReady r = true) :
    ∃ z, exec (.reclaimDone i) s = .next { s with sys := z } ∧ z.mem = s.sys.mem ∧
      z.chip.rights.leases = KMap.put s.sys.chip.rights.leases {} i {} ∧
      (∀ x ∈ z.chip.rights.revs, x.kind ≠ .leaseClose i ∧ x.kind ≠ .lapse i) ∧
      ∀ (q : CmdReq) (r : Rev), rs = [r] → r.q = some q → z.chip.answeredIs q .ok 0 := by
  have hexec := exec_reclaimDone_eq hrs
  have hall : (rs.filter (·.committed)).all s.sys.chip.revReady = true :=
    List.all_eq_true.mpr fun r hr => hready r (List.mem_filter.mp hr).1 (List.mem_filter.mp hr).2
  rw [if_pos ⟨hgo, hall⟩] at hexec
  generalize hu : Chip.bump _ _ = u at hexec
  have hrights : u.rights = (s.sys.chip.setLease i {}).rights := by rw [← hu, Chip.bump_rights]
  obtain ⟨hleases, hclear⟩ := revDones_clear i rs u fun x hx hb => by
    rw [hrights] at hx
    rw [← hrs]
    exact ⟨x, List.mem_filter.mpr ⟨hx, hb⟩, rfl⟩
  refine ⟨_, hexec, rfl, ?_, fun x hx => ?_, fun q r hr hq => ?_⟩
  · refine hleases.trans ?_
    rw [hrights]
    rfl
  · have hno := hclear x hx
    unfold Rev.ofLease at hno
    simpa using hno
  · subst hr
    exact Chip.answeredIs_revDone hq

theorem reclaimDone_waits (hrs : s.sys.chip.rights.revs.filter (fun r => r.ofLease i) = rs)
    (hnot : ¬((rs.filter (·.committed)).isEmpty = false ∧
      ∀ r ∈ rs, r.committed = true → s.sys.chip.revReady r = true)) : exec (.reclaimDone i) s = .next s := by
  have hexec := exec_reclaimDone_eq hrs
  rw [if_neg] at hexec
  · exact hexec
  · rintro ⟨hgo, hall⟩
    exact hnot ⟨hgo, fun r hr hc => List.all_eq_true.mp hall r (List.mem_filter.mpr ⟨hr, hc⟩)⟩

end

/-- Settles O36: a lease by its commands and ticks; what a reclaim and the changes due with it set going
touch no lease and no extent but those it names, and the end of its drain leaves no reclaim of it. -/
theorem leases : Obligations.Leases := by
  unfold Obligations.Leases
  intro s q i host len rint
  refine ⟨fun h => ⟨?_, ?_, ?_, ?_⟩, fun hs => ⟨fun port pkt ha => ⟨?_, fun hsp => ⟨?_, ?_, fun hc hl => ?_⟩⟩, ?_⟩,
    fun h => ⟨?_, ?_⟩, ?_, ?_, ?_⟩
  · exact fun hret hn hf h1 h2 h3 h4 h5 => leaseOpen_ok h hret hn hf ⟨h1, h2, h3, h4, h5⟩
  · refine fun hno => leaseOpen_no h ?_
    unfold leaseTerms
    obtain hno | hno | hno := hno
    · exact .inl hno
    · exact .inr (.inl hno)
    · exact .inr (.inr (by omega))
  · exact leaseClose_ok h
  · exact leaseClose_no h
  · exact leaseRenew_spoofed hs ha
  · exact leaseRenew_class hs ha hsp
  · exact leaseRenew_none hs ha hsp
  · exact leaseRenew_some hs ha hsp hc hl
  · exact fun hv hrec hc hl he => leaseRenew_session hs hv hrec hc hl he
  · exact leaseExpiry_lapses h
  · exact fun hx hst _ hco => leaseGraceEnd_reclaims rfl h hx hst hco
  · exact leaseExpiry_early
  · intro hdone
    obtain ⟨z, hexec, hmem, hl, hclear, hq⟩ := reclaimDone_frees (s := s) (i := i) rfl hdone.1 hdone.2
    exact ⟨z, hexec, hmem, hl, hclear, fun r hr hrq => hq q r hr hrq⟩
  · exact fun hnot => reclaimDone_waits (s := s) (i := i) rfl hnot

end Sys2Proof.Machine

/-! PROOF of O37 and O38 (R193, R229, R238, R246, R355 to R358): requests at the ingress. -/

namespace Sys2Proof.Machine

-- One after the other: side by side the proofs ask for more memory than the check grants.
set_option Elab.async false

open Laws

/-! ## A request that keeps the rules of regions -/

/-- R193: the request with the entries of its header tick. -/
def Chip.withGens (s : Chip) (r : Req) : Req := { r with gens := s.matched r.host r.off r.len }

/-- R238: the header of a request awaits its decision. -/
def Chip.headerWaits (s : Chip) (r : Req) : Chip := { s with prom.hdrs := s.prom.hdrs ++ [s.withGens r] }

/-- R193, R223: a request that meets no region, no shadow, and that its rights allow, waits. -/
theorem Chip.arrive_plain {s : Chip} {r : Req} (hheld : s.heldRead r = false)
    (hsh : s.inShadow (blkSpan r.off r.len).1 (blkSpan r.off r.len).2 = false)
    (hreg : s.regionAt (blkSpan r.off r.len).1 (blkSpan r.off r.len).2 = none)
    (hpub : r.kind ≠ .publish) (hchk : s.routerCheck r.host (isWrite r.kind) r.off r.len = true) :
    s.arrive r = s.headerWaits r := by
  have hnil : s.regionsOn.filter (fun g => meets (blkSpan r.off r.len).1 (blkSpan r.off r.len).2 g.2.base g.2.count) = [] := by
    rw [List.filter_eq_nil_iff]
    exact fun g hg => by simpa using List.find?_eq_none.mp hreg g hg
  have hstop : s.regionStop r = false := by
    unfold Chip.regionStop
    dsimp only
    rw [hsh, hreg]
    simp [hpub]
  unfold Chip.arrive
  dsimp only
  rw [hheld, if_neg Bool.false_ne_true, hnil]
  dsimp only
  rw [hchk, hstop, if_neg (by simp), if_neg Bool.false_ne_true]
  rfl

/-- R193, R238: one whose host has no right is answered NO_ACCESS and counted. -/
theorem Chip.arrive_noRight {s : Chip} {r : Req} (hheld : s.heldRead r = false)
    (hreg : s.regionAt (blkSpan r.off r.len).1 (blkSpan r.off r.len).2 = none)
    (hchk : s.routerCheck r.host (isWrite r.kind) r.off r.len = false) :
    s.arrive r = (s.bump (risoPg + 0x64)).answerNow r .noAccess := by
  have hnil : s.regionsOn.filter (fun g => meets (blkSpan r.off r.len).1 (blkSpan r.off r.len).2 g.2.base g.2.count) = [] := by
    rw [List.filter_eq_nil_iff]
    exact fun g hg => by simpa using List.find?_eq_none.mp hreg g hg
  unfold Chip.arrive
  dsimp only
  rw [hheld, if_neg Bool.false_ne_true, hnil]
  dsimp only
  rw [hheld, hchk, if_pos ⟨rfl, rfl⟩]

/-! ## Over the fabric -/

/-- R184, R405, R512: a fabric request passes what stands before the checks of every request. -/
structure Chip.fabricPasses (s : Chip) (kind : ReqKind) (port : Nat) (pkt : Packet) : Prop where
  low : port < 96
  addressed : s.addressed = true
  free : s.portBusy port = false
  bound : s.spoofed port pkt.hdr.srcHost = false
  cls : classOk kind pkt.hdr.cls = true
  chk : pkt.hdr.chk ≠ 3
  len : pkt.hdr.len ≠ 0 ∨ kind = .publish

/-- The request a packet other than a PUBLISH makes. -/
def Chip.packetReq (s : Chip) (kind : ReqKind) (port : Nat) (pkt : Packet) : Req :=
  { s.mkReq kind pkt.hdr.cls port pkt.hdr.srcHost pkt.hdr.tag pkt.hdr.offset pkt.hdr.len pkt.hdr.deadline pkt.payload with
    srcChip := pkt.hdr.srcChip
    srcPort := pkt.hdr.srcPort
    excl := pkt.hdr.excl
    chk := pkt.hdr.chk
    check := pkt.hdr.check
    base := 0
    new := 0
    region := none }

theorem Chip.fabricReq_plain {s : Chip} {kind : ReqKind} {port : Nat} {pkt : Packet} (h : s.fabricPasses kind port pkt)
    (hk : kind ≠ .publish) : s.fabricReq kind port pkt = s.arrive (s.packetReq kind port pkt) := by
  unfold Chip.fabricReq
  dsimp only
  rw [if_neg (by simp [h.addressed, h.free]), if_neg (by simp [h.bound]),
    if_neg (by simp [h.cls, h.len.resolve_right hk]), if_neg h.chk]
  simp only [hk, if_false]
  rfl

theorem Chip.heldRead_notBrd {s : Chip} {r : Req} (h : r.kind ≠ .brd) : s.heldRead r = false := by
  unfold Chip.heldRead
  simp [h]

theorem classOk_iff {k : ReqKind} (h1 : k ≠ .publish) (h2 : k ≠ .svc) (c : Nat) : classOk k c = true ↔ c ∈ [0, 1, 2, 4] := by
  cases k <;> simp [classOk, or_assoc] at h1 h2 ⊢

section
variable {s : State} {port : Nat} {pkt : Packet} {i : Instr} {kind : ReqKind}

/-- R193, R229, R238: what a request that waits shows. -/
def entersAs (s : State) (port : Nat) (pkt : Packet) (i : Instr) (r : Req) (k : ReqKind) (len : Nat) (data : List Byte) :
    Prop :=
  exec i s = .next { s with
    sys := { s.sys with chip := { s.sys.chip with prom.hdrs := s.sys.chip.prom.hdrs ++ [r] } } } ∧
  r.kind = k ∧ r.cls = pkt.hdr.cls ∧ r.port = port ∧ r.host = pkt.hdr.srcHost ∧ r.tag = pkt.hdr.tag ∧
  r.off = pkt.hdr.offset ∧ r.len = len ∧ r.data = data ∧ r.th = s.sys.chip.now ∧
  r.promise = (pkt.hdr.cls != 4) ∧
  r.td = s.sys.chip.now + (if pkt.hdr.deadline = 0 then classD pkt.hdr.cls else min pkt.hdr.deadline (classD pkt.hdr.cls)) ∧
  r.gens = s.sys.chip.matched pkt.hdr.srcHost pkt.hdr.offset len ∧ r.part = s.sys.chip.partOfOff pkt.hdr.offset

theorem fabric_waits (hexec : chipNext s i (s.sys.chip.fabricReq kind port pkt)) (hk : kind ≠ .publish) (hb : kind ≠ .brd)
    (h : s.sys.chip.fabricPasses kind port pkt)
    (hsh : s.sys.chip.inShadow (blkSpan pkt.hdr.offset pkt.hdr.len).1 (blkSpan pkt.hdr.offset pkt.hdr.len).2 = false)
    (hreg : s.sys.chip.regionAt (blkSpan pkt.hdr.offset pkt.hdr.len).1 (blkSpan pkt.hdr.offset pkt.hdr.len).2 = none)
    (hchk : s.sys.chip.routerCheck pkt.hdr.srcHost (isWrite kind) pkt.hdr.offset pkt.hdr.len = true) :
    ∃ r, entersAs s port pkt i r kind pkt.hdr.len pkt.payload := by
  rw [Chip.fabricReq_plain h hk, Chip.arrive_plain (Chip.heldRead_notBrd hb) hsh hreg hk hchk] at hexec
  exact ⟨_, hexec, rfl, rfl, rfl, rfl, rfl, rfl, rfl, rfl, rfl, rfl, rfl, rfl, rfl⟩

/-- R413: a chip in no pair gives an input no number. -/
theorem Chip.orderIn_alone {s : Chip} (hp : s.pairRole = 0) (id tick arg : Nat) :
    s.orderIn id tick arg = { s with duo.live := s.duo.live.filter fun t => !(t.arg0 == id) } := by
  unfold Chip.orderIn
  rw [if_neg (by simp [hp])]

/-- R237: an answer at a port of a chip that is in no pair, to a request that is no publish. -/
theorem Chip.answerNow_alone {s : Chip} (hp : s.pairRole = 0) {r : Req} (hport : r.port ≠ 96) (hk : r.kind ≠ .publish)
    (st : Status) :
    s.answerNow r st = Chip.emit { s with duo.live := s.duo.live.filter fun t => !(t.arg0 == reqId r) }
      (.packet ⟨s.respHd (reqHd r) st, []⟩) := by
  unfold Chip.answerNow
  rw [Chip.orderIn_alone hp]
  unfold Chip.answer
  rw [if_neg hport]
  simp only [hk, if_false]
  rfl

theorem fabric_refused (hexec : chipNext s i (s.sys.chip.fabricReq kind port pkt)) (hk : kind ≠ .publish) (hb : kind ≠ .brd)
    (h : s.sys.chip.fabricPasses kind port pkt)
    (hreg : s.sys.chip.regionAt (blkSpan pkt.hdr.offset pkt.hdr.len).1 (blkSpan pkt.hdr.offset pkt.hdr.len).2 = none)
    (hchk : s.sys.chip.routerCheck pkt.hdr.srcHost (isWrite kind) pkt.hdr.offset pkt.hdr.len = false)
    (hpair : s.sys.chip.pairRole = 0) :
    ∃ z p, exec i s = .next { s with sys := z } ∧ z.mem = s.sys.mem ∧ z.chip.prom = s.sys.chip.prom ∧
      z.chip.reg (risoPg + 0x64) = (s.sys.chip.bump (risoPg + 0x64)).reg (risoPg + 0x64) ∧
      z.chip.out = s.sys.chip.out ++ [.packet p] ∧ p.hdr.typ = 8 ∧ p.hdr.status = stCode .noAccess ∧
      p.hdr.tag = pkt.hdr.tag ∧ p.hdr.dstChip = pkt.hdr.srcChip ∧ p.hdr.dstPort = pkt.hdr.srcPort ∧ p.payload = [] := by
  have hport : (s.sys.chip.packetReq kind port pkt).port ≠ 96 := fun heq => by
    have := h.low
    have : port = 96 := heq
    omega
  have hrole : (s.sys.chip.bump (risoPg + 0x64)).pairRole = 0 := by
    rw [← hpair, Chip.pairRole, Chip.pairRole, Chip.fld, Chip.fld, Chip.reg_bump_ne _ (by decide)]
  rw [Chip.fabricReq_plain h hk, Chip.arrive_noRight (Chip.heldRead_notBrd hb) hreg hchk,
    Chip.answerNow_alone hrole hport hk] at hexec
  refine ⟨_, ⟨s.sys.chip.respHd (reqHd (s.sys.chip.packetReq kind port pkt)) .noAccess, []⟩, hexec, rfl, Chip.bump_prom s.sys.chip (risoPg + 0x64),
    rfl, ?_, rfl, rfl, rfl, rfl, rfl, rfl⟩
  rw [Chip.emit_out, Chip.bump_out]
  rfl

end

/-! ## PUBLISH (R224) -/

/-- The request a PUBLISH makes. -/
def Chip.publishReq (s : Chip) (port : Nat) (pkt : Packet) : Req :=
  { s.mkReq .publish pkt.hdr.cls port pkt.hdr.srcHost pkt.hdr.tag pkt.hdr.offset (pkt.hdr.len - 16) pkt.hdr.deadline
      (pkt.payload.drop 16) with
    srcChip := pkt.hdr.srcChip
    srcPort := pkt.hdr.srcPort
    excl := pkt.hdr.excl
    chk := pkt.hdr.chk
    check := pkt.hdr.check
    base := payNat pkt.payload 0 8
    new := payNat pkt.payload 8 8
    region := (s.regionAt (blkSpan pkt.hdr.offset (pkt.hdr.len - 16)).1
      (blkSpan pkt.hdr.offset (pkt.hdr.len - 16)).2).map (·.1) }

theorem Chip.fabricReq_publish {s : Chip} {port : Nat} {pkt : Packet} (h : s.fabricPasses .publish port pkt) :
    s.fabricReq .publish port pkt = s.arrive (s.publishReq port pkt) := by
  unfold Chip.fabricReq
  dsimp only
  rw [if_neg (by simp [h.addressed, h.free]), if_neg (by simp [h.bound]), if_neg (by simp [h.cls]), if_neg h.chk]
  rfl

/-- R224: a PUBLISH of whole blocks of one region to a version that rises. -/
structure Chip.publishFits (s : Chip) (pkt : Packet) (gi : Nat) (g : Region) : Prop where
  shadow : s.inShadow (blkSpan pkt.hdr.offset (pkt.hdr.len - 16)).1 (blkSpan pkt.hdr.offset (pkt.hdr.len - 16)).2 = false
  region : s.regionAt (blkSpan pkt.hdr.offset (pkt.hdr.len - 16)).1 (blkSpan pkt.hdr.offset (pkt.hdr.len - 16)).2 =
    some (gi, g)
  start : pkt.hdr.offset % 2048 = 0
  whole : (pkt.hdr.len - 16) % 2048 = 0
  some : 16 < pkt.hdr.len
  low : g.base ≤ (blkSpan pkt.hdr.offset (pkt.hdr.len - 16)).1
  high : (blkSpan pkt.hdr.offset (pkt.hdr.len - 16)).1 + (blkSpan pkt.hdr.offset (pkt.hdr.len - 16)).2 ≤ g.base + g.count
  rises : payNat pkt.payload 0 8 < payNat pkt.payload 8 8

theorem find_filter_cons {α : Type} {l : List α} {p : α → Bool} {a : α} (h : l.find? p = some a) :
    ∃ l', l.filter p = a :: l' := by
  have hhead : (l.filter p).head? = some a := by rw [List.head?_filter, h]
  cases hl : l.filter p with
  | nil => rw [hl] at hhead; cases hhead
  | cons b l' =>
    rw [hl] at hhead
    cases hhead
    exact ⟨l', rfl⟩

theorem Chip.regionStop_fits {s : Chip} {pkt : Packet} {gi : Nat} {g : Region} (hf : s.publishFits pkt gi g) {r : Req}
    (hk : r.kind = .publish) (ho : r.off = pkt.hdr.offset) (hl : r.len = pkt.hdr.len - 16)
    (hb : r.base = payNat pkt.payload 0 8) (hn : r.new = payNat pkt.payload 8 8) : s.regionStop r = false := by
  obtain ⟨hsh, hreg, hstart, hwhole, hsome, hlow, hhigh, hrises⟩ := hf
  unfold Chip.regionStop
  dsimp only
  rw [ho, hl, hsh, if_neg Bool.false_ne_true, if_pos hk, hreg]
  dsimp only
  rw [decide_eq_false_iff_not, hb, hn]
  omega

theorem publish_waits {s : State} {port gi : Nat} {pkt : Packet} {g : Region} (h : s.sys.chip.fabricPasses .publish port pkt)
    (hf : s.sys.chip.publishFits pkt gi g)
    (hchk : s.sys.chip.routerCheck pkt.hdr.srcHost true pkt.hdr.offset (pkt.hdr.len - 16) = true) :
    ∃ r, entersAs s port pkt (.publish port pkt) r .publish (pkt.hdr.len - 16) (pkt.payload.drop 16) ∧
      r.region = some gi ∧ r.base = payNat pkt.payload 0 8 ∧ r.new = payNat pkt.payload 8 8 := by
  have hexec : chipNext s (.publish port pkt) (s.sys.chip.fabricReq .publish port pkt) := (rfl)
  rw [Chip.fabricReq_publish h] at hexec
  obtain ⟨l, hl⟩ := find_filter_cons hf.region
  have hheld : ∀ r : Req, r.kind = .publish → s.sys.chip.heldRead r = false := fun r hr =>
    Chip.heldRead_notBrd (by rw [hr]; decide)
  unfold Chip.arrive at hexec
  dsimp only at hexec
  rw [hheld _ rfl, if_neg Bool.false_ne_true,
    show s.sys.chip.regionsOn.filter (fun g => meets (blkSpan (s.sys.chip.publishReq port pkt).off
      (s.sys.chip.publishReq port pkt).len).1 (blkSpan (s.sys.chip.publishReq port pkt).off
      (s.sys.chip.publishReq port pkt).len).2 g.2.base g.2.count) = (gi, g) :: l from hl] at hexec
  dsimp only at hexec
  rw [if_neg (fun hno => Bool.false_ne_true (hno.1.symm.trans hchk)),
    Chip.regionStop_fits hf rfl rfl rfl rfl rfl, if_neg Bool.false_ne_true] at hexec
  exact ⟨_, ⟨hexec, rfl, rfl, rfl, rfl, rfl, rfl, rfl, rfl, rfl, rfl, rfl, rfl, rfl⟩, rfl, rfl, rfl⟩

/-- R238: a request before the chip has its number, or at a port that holds a header, is left where it is. -/
theorem Chip.fabricReq_stays {s : Chip} (kind : ReqKind) {port : Nat} (pkt : Packet)
    (h : s.addressed = false ∨ s.portBusy port = true) : s.fabricReq kind port pkt = s := if_pos h

/-- Settles O37: a request that passes its port, its class and the router-side check waits with what its
header names, and with the region it reads where it is a publish; one without a right is answered. -/
theorem fabricRequests : Obligations.FabricRequests := by
  unfold Obligations.FabricRequests
  intro s port pkt
  have hplain : ∀ (i : Instr) (kind : ReqKind), kind ≠ .publish → kind ≠ .brd → kind ≠ .svc →
      chipNext s i (s.sys.chip.fabricReq kind port pkt) → (port < 96 ∧ s.sys.chip.addressed = true ∧
        s.sys.chip.portBusy port = false ∧ s.sys.chip.spoofed port pkt.hdr.srcHost = false ∧
        pkt.hdr.cls ∈ [0, 1, 2, 4] ∧ pkt.hdr.chk ≠ 3) → pkt.hdr.len ≠ 0 → s.sys.chip.fabricPasses kind port pkt :=
    fun i kind h1 h2 h3 hexec ⟨hp, ha, hf, hs, hc, hk⟩ hl => ⟨hp, ha, hf, hs, (classOk_iff h1 h3 _).mpr hc, hk, .inl hl⟩
  refine ⟨fun hpass hlen hsh hreg => ?_, fun hpass hlen hsh hreg => ?_, fun hpass hlen hsh hreg => ?_, ?_, fun hstay => ?_⟩
  · have h := hplain (.rd port pkt) .rd (by decide) (by decide) (by decide) rfl hpass hlen
    exact ⟨fabric_waits rfl (by decide) (by decide) h hsh hreg, fabric_refused rfl (by decide) (by decide) h hreg⟩
  · have h := hplain (.wr port pkt) .wr (by decide) (by decide) (by decide) rfl hpass hlen
    exact ⟨fabric_waits rfl (by decide) (by decide) h hsh hreg, fabric_refused rfl (by decide) (by decide) h hreg⟩
  · have h := hplain (.rdc port pkt) .rdc (by decide) (by decide) (by decide) rfl hpass hlen
    exact ⟨fabric_waits rfl (by decide) (by decide) h hsh hreg, fabric_refused rfl (by decide) (by decide) h hreg⟩
  · intro gi g ⟨hp, ha, hf, hs, hc, hk⟩ hlen n b hsh hreg hstart hwhole hlow hhigh hrises hchk
    have hcls : classOk .publish pkt.hdr.cls = true := by simpa [classOk, or_assoc] using hc
    exact publish_waits ⟨hp, ha, hf, hs, hcls, hk, .inr rfl⟩ ⟨hsh, hreg, hstart, hwhole, hlen, hlow, hhigh, hrises⟩ hchk
  · have hstays : ∀ (i : Instr) (kind : ReqKind), chipNext s i (s.sys.chip.fabricReq kind port pkt) →
        exec i s = .next s := fun i kind hexec => by
      rw [Chip.fabricReq_stays kind pkt hstay] at hexec
      exact hexec
    exact ⟨hstays _ .rd rfl, hstays _ .wr rfl, hstays _ .rdc rfl, hstays _ .publish rfl⟩

end Sys2Proof.Machine

/-! PROOF of O38 (R246, R355, R356, R358): BRD, BWR and SVC_REQ at the Ethernet port. -/

namespace Sys2Proof.Machine

-- One after the other: side by side the proofs ask for more memory than the check grants.
set_option Elab.async false

open Laws

/-- R347, R350, R355: a message on the data channel of a VALID session that is not recorded yet, at a port that
holds no header. -/
structure Chip.freshAt (s : Chip) (q : CmdReq) (k : ReqKind) : Prop where
  valid : s.sessValid q.session = true
  free : s.portBusy 96 = false
  new : s.repeated q k = false
  data : q.chan = 16

/-- R355: the deadline of a request. -/
def Chip.dueAt (s : Chip) (cls deadline : Nat) : Nat :=
  s.now + (if deadline = 0 then classD cls else min deadline (classD cls))

/-- What a request of a session that waits shows. -/
def entersEth (s : State) (i : Instr) (q : CmdReq) (r : Req) (k : ReqKind) (cls td : Nat) (data : List Byte) : Prop :=
  exec i s = .next { s with
    sys := { s.sys with
      chip := { s.sys.chip.leaveIngress q with prom.hdrs := s.sys.chip.prom.hdrs ++ [r] } } } ∧
  r.kind = k ∧ r.cls = cls ∧ r.port = 96 ∧ r.host = s.sys.chip.sessHost q.session ∧ r.tag = q.tag ∧
  r.session = q.session ∧ r.addr = s.sys.chip.sessRec q.session ∧ r.chan = q.chan ∧ r.seq = q.seq ∧
  r.data = data ∧ r.th = s.sys.chip.now ∧ r.td = td

/-- The request a BRD or BWR makes. -/
def Chip.sessionReq (s : Chip) (kind : ReqKind) (q : CmdReq) (cls off len deadline : Nat) (data : List Byte) : Req :=
  { s.mkReq kind cls 96 (s.sessHost q.session) q.tag off len deadline data with
    session := q.session
    addr := s.sessRec q.session
    chan := q.chan
    seq := q.seq }

theorem Chip.xhtReq_fresh {s : Chip} {kind : ReqKind} {q : CmdReq} {cls off len deadline : Nat} {data : List Byte}
    (h : s.freshAt q kind) (hcls : classOk kind cls = true) (hlen : len ≠ 0) :
    s.xhtReq kind q cls off len deadline data =
      (s.leaveIngress q).arrive (s.sessionReq kind q cls off len deadline data) := by
  obtain ⟨hv, hf, hn, hd⟩ := h
  unfold Chip.xhtReq
  dsimp only
  rw [if_neg (by simp [hv, hf]), if_neg (by simp [hn]), if_neg (by simp [hcls, hlen, hd])]
  rfl

section
variable {s : State} {q : CmdReq} {cls off len deadline : Nat} {data : List Byte} {kind : ReqKind} {i : Instr}

theorem eth_waits (hexec : chipNext s i (s.sys.chip.xhtReq kind q cls off len deadline data))
    (h : s.sys.chip.freshAt q kind) (hk : kind ≠ .publish) (hk' : kind ≠ .svc) (hcls : cls ∈ [0, 1, 2, 4]) (hlen : len ≠ 0)
    (hheld : kind ≠ .brd ∨ s.sys.chip.sessPart q.session ≠ 0)
    (hsh : s.sys.chip.inShadow (blkSpan off len).1 (blkSpan off len).2 = false)
    (hreg : s.sys.chip.regionAt (blkSpan off len).1 (blkSpan off len).2 = none)
    (hchk : s.sys.chip.routerCheck (s.sys.chip.sessHost q.session) (isWrite kind) off len = true) :
    ∃ r, entersEth s i q r kind cls (s.sys.chip.dueAt cls deadline) data ∧ r.off = off ∧ r.len = len := by
  have hno : (s.sys.chip.leaveIngress q).heldRead (s.sys.chip.sessionReq kind q cls off len deadline data) = false := by
    obtain hb | hp := hheld
    · exact Chip.heldRead_notBrd hb
    · have hp' : (s.sys.chip.leaveIngress q).sessPart (s.sys.chip.sessionReq kind q cls off len deadline data).session ≠ 0 := hp
      unfold Chip.heldRead
      simp [hp']
  rw [Chip.xhtReq_fresh h ((classOk_iff hk hk' _).mpr hcls) hlen,
    Chip.arrive_plain (s := s.sys.chip.leaveIngress q) hno hsh hreg hk hchk] at hexec
  exact ⟨_, ⟨hexec, rfl, rfl, rfl, rfl, rfl, rfl, rfl, rfl, rfl, rfl, rfl, rfl⟩, rfl, rfl⟩

end

/-! ## BWR (R356) -/

/-- The request identity a datagram carries. -/
def datagramReq (d : Datagram) : CmdReq := ⟨d.hdr.session, d.hdr.chan, d.hdr.seq, d.hdr.tag⟩

section
variable {s : State} {d : Datagram}

theorem bwr_whole (h : s.sys.chip.freshAt (datagramReq d) .bwr) (hmax : d.hdr.len ≤ s.sys.chip.pieceMax)
    (hfirst : d.hdr.foff = 0) (hall : d.payload.length = d.hdr.len) :
    chipNext s (.bwr d)
      (s.sys.chip.xhtReq .bwr (datagramReq d) d.hdr.cls (xOffset d.hdr) d.hdr.len (xDeadline d.hdr) d.payload) := by
  have hexec : exec (.bwr d) s = execBwr d s := (rfl)
  obtain ⟨hv, hf, hn, -⟩ := h
  unfold datagramReq at hv hn
  rw [chipNext, hexec, execBwr, liftC, if_neg (by simp [hf])]
  unfold Chip.bwrPiece
  dsimp only at hv ⊢
  rw [if_neg (by simp [hv]), if_neg (by simp [hn]), if_neg (by omega), if_pos ⟨hfirst, hall⟩]
  rfl

theorem bwr_staged (h : s.sys.chip.freshAt (datagramReq d) .bwr) (hmax : d.payload.length ≤ s.sys.chip.pieceMax)
    (hpart : d.hdr.foff ≠ 0 ∨ d.payload.length ≠ d.hdr.len)
    (hnone : (s.sys.chip.eth.stages.find? fun g => g.session == d.hdr.session && g.seq == d.hdr.seq) = none)
    (hroom : s.sys.chip.staged + d.hdr.len ≤ 4194304) (hend : d.hdr.foff + d.payload.length ≤ d.hdr.len) :
    chipNext s (.bwr d) { s.sys.chip.leaveIngress (datagramReq d) with
      eth.stages := s.sys.chip.eth.stages ++ [Stage.mk d.hdr.session d.hdr.seq d.hdr.tag d.hdr.cls (xOffset d.hdr)
        d.hdr.len (xDeadline d.hdr) s.sys.chip.now [(d.hdr.foff, d.payload)]] } := by
  have hexec : exec (.bwr d) s = execBwr d s := (rfl)
  obtain ⟨hv, hf, hn, -⟩ := h
  unfold datagramReq at hv hn
  have hnone' : ((s.sys.chip.leaveIngress (datagramReq d)).eth.stages.find? fun g =>
      g.session == d.hdr.session && g.seq == d.hdr.seq) = none := hnone
  have hroom' : (s.sys.chip.leaveIngress (datagramReq d)).staged + d.hdr.len ≤ 4194304 := hroom
  unfold datagramReq at hnone' hroom'
  rw [chipNext, hexec, execBwr, liftC, if_neg (by simp [hf])]
  unfold Chip.bwrPiece
  dsimp only at hv ⊢
  rw [if_neg (by simp [hv]), if_neg (by simp [hn]), if_neg (by omega), if_neg (by omega), hnone']
  dsimp only
  rw [if_neg (by omega), if_neg (by omega)]
  rfl

end

/-! ## SVC_REQ (R246, R358) -/

theorem svcReq_waits {s : State} {q : CmdReq} {entry : Nat} {data : List Byte} (h : s.sys.chip.freshAt q .svc)
    (hlow : 4 ≤ data.length) (hhigh : data.length ≤ 8192) :
    ∃ r, entersEth s (.svcReq q entry data) q r .svc 3
        (s.sys.chip.now + 1000 * (KMap.at s.sys.chip.prom.svc {} entry).deadline) data ∧ r.entry = entry ∧
      r.part = (KMap.at s.sys.chip.prom.svc {} entry).part := by
  have hexec : exec (.svcReq q entry data) s = execSvcReq q entry data s := (rfl)
  obtain ⟨hv, hf, hn, hd⟩ := h
  rw [execSvcReq, liftC] at hexec
  dsimp only at hexec
  rw [if_neg (by simp [hv, hf]), if_neg (by simp [hn]), if_neg (by omega)] at hexec
  exact ⟨_, ⟨hexec, rfl, rfl, rfl, rfl, rfl, rfl, rfl, rfl, rfl, rfl, rfl, rfl⟩, rfl, rfl⟩

/-! ## A message that stays incomplete (R356) -/

section
variable {s : State} {session seq : Nat} {g : Stage}

theorem exec_enStageTmo_eq (h : (s.sys.chip.eth.stages.find? fun g => g.session == session && g.seq == seq) = some g) :
    chipNext s (.enStageTmo session seq)
      (if g.first + 1000 * max (s.sys.chip.fld (enPg + 0x80) 15 0) 1 ≤ s.sys.chip.now
        then s.sys.chip.stageDrop session seq (enPg + 0xA8) else s.sys.chip) := by
  have hexec : exec (.enStageTmo session seq) s = execEnStageTmo session seq s := (rfl)
  rw [chipNext, hexec, execEnStageTmo, liftC, h]

theorem enStageTmo_drops (h : (s.sys.chip.eth.stages.find? fun g => g.session == session && g.seq == seq) = some g)
    (hdue : g.first + 1000 * max (s.sys.chip.fld (enPg + 0x80) 15 0) 1 ≤ s.sys.chip.now) :
    ∃ z, exec (.enStageTmo session seq) s = .next { s with sys := z } ∧ z.mem = s.sys.mem ∧
      z.chip.eth.stages = s.sys.chip.eth.stages.filter (fun g => !(g.session == session && g.seq == seq)) ∧
      z.chip.reg (enPg + 0xA8) = (s.sys.chip.bump (enPg + 0xA8)).reg (enPg + 0xA8) := by
  have hexec := exec_enStageTmo_eq h
  rw [if_pos hdue] at hexec
  unfold Chip.stageDrop at hexec
  generalize hu : Chip.bump _ _ = u at hexec
  have hstages : u.eth.stages = s.sys.chip.eth.stages.filter (fun g => !(g.session == session && g.seq == seq)) := by
    rw [← hu, Chip.bump_eth]
  have hreg : u.reg (enPg + 0xA8) = (s.sys.chip.bump (enPg + 0xA8)).reg (enPg + 0xA8) := by
    rw [← hu]
    rfl
  refine ⟨_, hexec, rfl, ?_, ?_⟩
  · exact (congrArg (·.stages) (Chip.reports_notice u enPg 3).eth).trans hstages
  · exact (Chip.notice_reg u enPg 3 (by unfold belowPt enPg; omega) (by decide) (by decide)).trans hreg

theorem enStageTmo_early (h : (s.sys.chip.eth.stages.find? fun g => g.session == session && g.seq == seq) = some g)
    (hnot : s.sys.chip.now < g.first + 1000 * max (s.sys.chip.fld (enPg + 0x80) 15 0) 1) :
    exec (.enStageTmo session seq) s = .next s := by
  have hexec := exec_enStageTmo_eq h
  rw [if_neg (Nat.not_le.mpr hnot)] at hexec
  exact hexec

end

/-- Settles O38: a message that is new and in order waits at the Ethernet port with what its session and its
header name; the first piece of a BWR in pieces is staged, until its time is over. -/
theorem ethernetRequests : Obligations.EthernetRequests := by
  unfold Obligations.EthernetRequests
  intro s q cls off len deadline entry session seq data d
  refine ⟨?_, ?_, ?_, ?_, fun g hg => ⟨enStageTmo_drops hg, enStageTmo_early hg⟩⟩
  · rintro ⟨hv, hf, hn, hd⟩ hcls hlen hp ⟨hsh, hreg⟩ hchk
    exact eth_waits (i := .brd q cls off len deadline) rfl ⟨hv, hf, hn, hd⟩ (by decide) (by decide) hcls hlen (.inr hp)
      hsh hreg hchk
  · rintro ⟨hv, hf, hn, hd⟩ hcls hlen hfirst hall hmax ⟨hsh, hreg⟩ hchk
    exact eth_waits (bwr_whole ⟨hv, hf, hn, hd⟩ hmax hfirst hall) ⟨hv, hf, hn, hd⟩ (by decide) (by decide) hcls hlen
      (.inl (by decide)) hsh hreg hchk
  · rintro ⟨hv, hf, hn, hd⟩ hmax hpart hnone hroom hend
    exact bwr_staged ⟨hv, hf, hn, hd⟩ hmax hpart hnone hroom hend
  · rintro ⟨hv, hf, hn, hd⟩ hlow hhigh
    exact svcReq_waits ⟨hv, hf, hn, hd⟩ hlow hhigh

end Sys2Proof.Machine

/-! PROOF of O39 (R237 to R240, R246, R352, R453): admission of a header; entries of the service table. -/

namespace Sys2Proof.Machine

-- One after the other: side by side the proofs ask for more memory than the check grants.
set_option Elab.async false

open Laws

/-! ## Requests that go on -/

/-- r' is request r but for its failure, which stays once it is there, its blocks and whether it was cut. -/
def Req.goesOn (r r' : Req) : Prop :=
  r' = { r with
    fixed := r'.fixed
    nblks := r'.nblks
    cut := r'.cut } ∧ (r.fixed.isSome = true → r'.fixed.isSome = true)

theorem Req.goesOn.refl (r : Req) : r.goesOn r := ⟨rfl, fun h => h⟩

theorem Req.goesOn.trans {r r' r'' : Req} (h : r.goesOn r') (h' : r'.goesOn r'') : r.goesOn r'' :=
  ⟨by rw [h'.1, h.1], fun hf => h'.2 (h.2 hf)⟩

/-- The requests of t are those of s, going on; every fence of s stands, and time does too. -/
structure Chip.reqsGoOn (s t : Chip) : Prop where
  reqs : ∃ g : Req → Req, t.prom.reqs = s.prom.reqs.map g ∧ ∀ r : Req, r.goesOn (g r)
  fences : ∀ f ∈ s.errs.fences, f ∈ t.errs.fences
  now : t.now = s.now

theorem Chip.reqsGoOn_of {s t : Chip} (hr : t.prom.reqs = s.prom.reqs) (hf : t.errs.fences = s.errs.fences)
    (hn : t.now = s.now) : s.reqsGoOn t :=
  ⟨⟨fun r => r, by rw [hr, List.map_id'], Req.goesOn.refl⟩, fun f h => hf ▸ h, hn⟩

theorem Chip.reqsGoOn.refl (s : Chip) : s.reqsGoOn s := Chip.reqsGoOn_of rfl rfl rfl

theorem Chip.reqsGoOn.trans {s t u : Chip} (h : s.reqsGoOn t) (h' : t.reqsGoOn u) : s.reqsGoOn u := by
  obtain ⟨⟨g, hg, hgr⟩, hf, hn⟩ := h
  obtain ⟨⟨g', hg', hgr'⟩, hf', hn'⟩ := h'
  exact ⟨⟨g' ∘ g, by rw [hg', hg, List.map_map], fun r => (hgr r).trans (hgr' (g r))⟩,
    fun f hm => hf' f (hf f hm), hn'.trans hn⟩

theorem Chip.reqsGoOn_ite {s t u : Chip} {p : Prop} [Decidable p] (h : s.reqsGoOn t) (h' : s.reqsGoOn u) :
    s.reqsGoOn (if p then t else u) := by
  split <;> assumption

theorem reqsGoOn_forEach {α : Type} (l : List α) {f : α → Chip → Chip} (hf : ∀ a (s : Chip), s.reqsGoOn (f a s))
    (s : Chip) : s.reqsGoOn (forEach l f s) :=
  forEach_keeps (s.reqsGoOn ·) (fun a _ t ht => ht.trans (hf a t)) (.refl s)

theorem Chip.Reports.reqsGoOn {s t : Chip} (h : s.Reports t) : s.reqsGoOn t :=
  Chip.reqsGoOn_of (by rw [h.prom]) h.errs_fences h.now

theorem Chip.Told.reqsGoOn {s t : Chip} (h : s.Told t) : s.reqsGoOn t :=
  Chip.reqsGoOn_of (by rw [h.prom]) (by rw [h.errs]) h.now

theorem Chip.reqsGoOn_updReqs (s : Chip) (p : Req → Bool) {f : Req → Req} (hf : ∀ r : Req, r.goesOn (f r)) :
    s.reqsGoOn (s.updReqs p f) :=
  ⟨⟨fun r => if p r then f r else r, rfl, fun r => by
    dsimp only
    split
    · exact hf r
    · exact .refl r⟩, fun _ h => h, rfl⟩

theorem fixStatus_isSome (old : Option (Nat × Status)) (t : Nat) (st : Status) : (fixStatus old t st).isSome = true := by
  cases old with
  | none => rfl
  | some o =>
    unfold fixStatus
    dsimp only
    split <;> rfl

theorem Chip.reqsGoOn_endReqs (s : Chip) (p : Req → Bool) (st : Status) : s.reqsGoOn (s.endReqs p st) := by
  have h := s.reqsGoOn_updReqs (fun r => !r.sent && !flipped r && p r)
    (f := fun r => { r with fixed := fixStatus r.fixed s.now st }) fun r => ⟨rfl, fun _ => fixStatus_isSome _ _ _⟩
  exact h.trans (Chip.reqsGoOn_of rfl rfl rfl)

/-! ## What a decision comes to (R239) -/

/-- R247: the request as its placement leaves it. -/
def Req.placed (r x : Req) : Prop :=
  x = { r with
    cluster := x.cluster
    svcSlot := x.svcSlot
    occ0 := x.occ0
    occ := x.occ }

theorem Chip.placeSvc_placed {s u : Chip} {r x : Req} {e : SvcEnt} {cls : List Nat} {t : Nat}
    (h : s.placeSvc r e cls = some (t, x, u)) : r.placed x := by
  unfold Chip.placeSvc at h
  dsimp only at h
  split at h
  · cases h
  · split at h
    · cases h
    · split at h
      · cases h
      · rw [Option.map_eq_some_iff] at h
        obtain ⟨⟨t', u'⟩, -, h⟩ := h
        cases h
        rfl

/-- R239, R240: what is known of a request that was accepted. -/
structure Chip.acceptedBy (s : Chip) (r x : Req) : Prop where
  placed : r.placed x
  room : r.promise = true → (s.opens none).length < 65536
  plain : r.promise = true → r.kind ≠ .svc → ∃ t v, s.place r = some (t, v) ∧ t + 1500 ≤ r.td
  svc : r.promise = true → r.kind = .svc → ∃ cls t r' v,
    s.placeSvc r (KMap.at s.prom.svc {} r.entry) cls = some (t, r', v) ∧ t + 1500 ≤ r'.td

theorem Req.placed.refl (r : Req) : r.placed r := rfl

/-- R225, R245: a placed request is accepted, a publish with its resync. -/
theorem resync_accept {u v : Chip} {x x' : Req} {t : Nat}
    (h : (match x.kind, x.region with
      | .publish, some g => match u.placeResync x g t with
        | none => Verdict.refuse 0
        | some (_, u) => .accept x u
      | _, _ => .accept x u) = .accept x' v) : x' = x := by
  split at h
  · split at h
    · cases h
    · cases h
      rfl
  · cases h
    rfl

theorem Chip.verdict_accept {s u : Chip} {r x : Req} (h : s.verdict r = .accept x u) : s.acceptedBy r x := by
  unfold Chip.verdict at h
  dsimp only at h
  split at h
  · cases h
  · split at h
    · cases h
    · split at h
      · rename_i hprom
        cases h
        exact ⟨.refl r, fun hp => by simp [hprom] at hp, fun hp => by simp [hprom] at hp, fun hp => by simp [hprom] at hp⟩
      · split at h
        · cases h
        · rename_i hroom
          split at h
          · cases h
          · have hroom' : r.promise = true → (s.opens none).length < 65536 := fun _ => by omega
            by_cases hk : r.kind = .svc
            · rw [if_pos hk] at h
              cases hpl : s.placeSvc r (KMap.at s.prom.svc {} r.entry) ((s.ctxClusters (32 * (KMap.at s.prom.svc {} r.entry).part +
                  (KMap.at s.prom.svc {} r.entry).ctx)).filter fun c => !(s.shut (.cluster c) || s.clResetting c)) with
              | none => rw [hpl] at h; cases h
              | some o =>
                obtain ⟨t, x0, v⟩ := o
                rw [hpl] at h
                dsimp only at h
                split at h
                · cases h
                · rename_i hlate
                  have hx : x = x0 := resync_accept h
                  exact ⟨hx ▸ Chip.placeSvc_placed hpl, hroom', fun _ hno => absurd hk hno,
                    fun _ _ => ⟨_, t, x0, v, hpl, by omega⟩⟩
            · rw [if_neg hk] at h
              cases hpl : s.place r with
              | none => rw [hpl] at h; cases h
              | some o =>
                obtain ⟨t, v⟩ := o
                rw [hpl] at h
                dsimp only [Option.map_some] at h
                split at h
                · cases h
                · rename_i hlate
                  have hx : x = r := resync_accept h
                  exact ⟨hx ▸ .refl r, hroom', fun _ _ => ⟨t, v, hpl, by omega⟩, fun _ hno => absurd hno hk⟩

/-! ## The request once it is accepted (R238) -/

theorem Chip.reqsGoOn_setReg (s : Chip) (a : Nat) (w : Word) : s.reqsGoOn (s.setReg a w) := Chip.reqsGoOn_of rfl rfl rfl

theorem Chip.reqsGoOn_accs (s : Chip) (l : List Acc) : s.reqsGoOn { s with accs := l } := Chip.reqsGoOn_of rfl rfl rfl

theorem Chip.reqsGoOn_enqueuePub (s : Chip) (r : Req) : s.reqsGoOn (s.enqueuePub r) := by
  unfold Chip.enqueuePub
  split
  · exact Chip.reqsGoOn_of rfl rfl rfl
  · exact .refl s

theorem Chip.reqsGoOn_wantSet (s : Chip) (d : Nat) (id : Option Nat) : s.reqsGoOn (s.wantSet d id) := by
  unfold Chip.wantSet
  dsimp only
  refine Chip.reqsGoOn_ite (Chip.reqsGoOn_ite (s.reqsGoOn_accs _) (.refl s)) ?_
  exact (s.reqsGoOn_accs _).trans (Chip.reports_bump _ _).reqsGoOn

theorem Chip.reqsGoOn_wantSets (s : Chip) (r : Req) : s.reqsGoOn (s.wantSets r) := by
  unfold Chip.wantSets
  exact Chip.reqsGoOn_ite (.refl s) (reqsGoOn_forEach _ (fun d s => Chip.reqsGoOn_ite (s.reqsGoOn_wantSet _ _) (.refl s)) s)

theorem Chip.reqsGoOn_e2eFail (s : Chip) (r : Req) : s.reqsGoOn (s.e2eFail r) := by
  unfold Chip.e2eFail
  dsimp only
  exact ((((s.reqsGoOn_endReqs _ _).trans (Chip.reports_bump _ _).reqsGoOn).trans (Chip.reqsGoOn_setReg _ _ _)).trans
    (Chip.reqsGoOn_setReg _ _ _)).trans (Chip.reports_itemErr _ _ _ _ _).reqsGoOn

theorem Chip.reqsGoOn_strike (s : Chip) (pg : Nat) : s.reqsGoOn (s.strike pg).2 := by
  have htake := (s.reports_takeArmed pg).reqsGoOn
  unfold Chip.strike
  generalize s.takeArmed pg = o at htake
  obtain ⟨m, u⟩ := o
  cases m with
  | none => exact htake
  | some m => cases m <;> exact htake

theorem Chip.reqsGoOn_promiseWord (s : Chip) (r : Req) : s.reqsGoOn (s.promiseWord r) := by
  have hs := s.reqsGoOn_strike prPg
  unfold Chip.promiseWord
  generalize s.strike prPg = o at hs
  obtain ⟨n, u⟩ := o
  match n, hs with
  | 0, hs => exact hs
  | 1, hs => exact hs.trans (Chip.reports_countErr _ _ _ _ _ _).reqsGoOn
  | n + 2, hs => exact (hs.trans (Chip.reqsGoOn_endReqs _ _ _)).trans (Chip.reports_itemErr _ _ _ _ _).reqsGoOn

/-- R238: the request is entered and the next admission number passed. -/
def Chip.entersReq (s : Chip) (r : Req) : Chip :=
  { s with
    prom.reqs := s.prom.reqs ++ [r]
    prom.seq := (if r.id = s.prom.seq then r.id + 1 else s.prom.seq) % 2 ^ 32 }

theorem Chip.reqsGoOn_record (s : Chip) (i c n : Nat) (b : Bool) (st : Status) (k : Nat) : s.reqsGoOn (s.record i c n b st k) :=
  (s.told_record i c n b st k).reqsGoOn

/-- R238: the request, with what a service request takes along, is entered, and goes on. -/
theorem Chip.accept_enters (s : Chip) (r : Req) : ∃ r' : Req, r' = { r with
      model := r'.model
      audit := r'.audit } ∧ (s.entersReq r').reqsGoOn (s.accept r) := by
  unfold Chip.accept
  dsimp only
  generalize hr : (if r.kind = .svc then _ else r) = r'
  refine ⟨r', by rw [← hr]; split <;> rfl, ?_⟩
  rw [show ({ s with
    prom.reqs := s.prom.reqs ++ [r']
    prom.seq := (if r'.id = s.prom.seq then r'.id + 1 else s.prom.seq) % 2 ^ 32 } : Chip) = s.entersReq r' from rfl]
  generalize s.entersReq r' = u
  have h1 : u.reqsGoOn (if r'.promise = true then u.bump (prPg + 0x44) else u) :=
    Chip.reqsGoOn_ite (u.reports_bump _).reqsGoOn (.refl u)
  generalize (if r'.promise = true then u.bump (prPg + 0x44) else u) = u1 at h1
  have h2 : u1.reqsGoOn (if r'.port = 96 ∧ (winEnt (u1.winOf r'.session r'.chan) r'.seq).isNone = true
      then u1.record r'.session r'.chan r'.seq false .ok 0 else u1) :=
    Chip.reqsGoOn_ite (u1.reqsGoOn_record ..) (.refl u1)
  generalize (if r'.port = 96 ∧ (winEnt (u1.winOf r'.session r'.chan) r'.seq).isNone = true
      then u1.record r'.session r'.chan r'.seq false .ok 0 else u1) = u2 at h2
  generalize (if r'.kind = .publish ∨ r'.kind = .svc then [] else u2.accsOf r') = as
  have h3 := (u2.reqsGoOn_accs (u2.accs ++ as)).trans (Chip.reqsGoOn_updReqs _ (fun x => x.id == r'.id)
    (f := fun x => { x with nblks := as.length }) fun r => ⟨rfl, fun h => h⟩)
  refine (h1.trans (h2.trans h3)).trans ?_
  generalize Chip.updReqs _ _ _ = u3
  have h4 := (u3.reqsGoOn_enqueuePub r').trans (Chip.reqsGoOn_wantSets _ r')
  refine h4.trans ?_
  generalize (u3.enqueuePub r').wantSets r' = u4
  have h5 : u4.reqsGoOn (if e2eBad r' = true then u4.e2eFail r' else u4) :=
    Chip.reqsGoOn_ite (u4.reqsGoOn_e2eFail r') (.refl u4)
  exact h5.trans (Chip.reqsGoOn_ite (Chip.reqsGoOn_promiseWord _ r') (.refl _))

/-! ## ADMIT -/

section
variable {s : State}

/-- R238: the next header and what it leaves behind, decided. -/
theorem exec_admitNext_eq (hready : s.sys.chip.isReady = true) (hp : s.sys.chip.pairRole = 0) {r : Req}
    (hr : s.sys.chip.nextHdr = some r) :
    chipNext s .admitNext (((s.sys.chip.takeHdr r s.sys.chip.prom.seq).2).carryOut (s.sys.chip.takeHdr r s.sys.chip.prom.seq).1
      ((s.sys.chip.takeHdr r s.sys.chip.prom.seq).2.verdict (s.sys.chip.takeHdr r s.sys.chip.prom.seq).1)) := by
  have hexec : exec .admitNext s = execAdmit s := (rfl)
  have hs : s.sys.chip.standsBy = false := by
    unfold Chip.standsBy
    rw [hp]
    rfl
  rw [chipNext, hexec, execAdmit, liftC, if_neg (by simp [hready, hp]), if_neg (by simp [hs]), hr]
  rfl

theorem admitNext_unready (h : s.sys.chip.isReady = false) : exec .admitNext s = .next s := by
  have hexec : exec .admitNext s = execAdmit s := (rfl)
  rw [hexec, execAdmit, liftC, if_pos (.inl h)]

theorem admitNext_none (hready : s.sys.chip.isReady = true) (hp : s.sys.chip.pairRole = 0)
    (hr : s.sys.chip.nextHdr = none) : exec .admitNext s = .next s := by
  have hexec : exec .admitNext s = execAdmit s := (rfl)
  have hs : s.sys.chip.standsBy = false := by
    unfold Chip.standsBy
    rw [hp]
    rfl
  rw [hexec, execAdmit, liftC, if_neg (by simp [hready, hp]), if_neg (by simp [hs]), hr]

end

/-- R238: the header as it is decided: what its port held, with its number. -/
theorem Chip.takeHdr_facts (s : Chip) (r : Req) (n : Nat) :
    (s.takeHdr r n).2 = { s with
      prom.hdrs := s.prom.hdrs.filter fun x => !(x.port == r.port)
      prom.rr := r.port } ∧
    (s.takeHdr r n).1 = { r with
      id := n
      part := (s.takeHdr r n).1.part
      td := (s.takeHdr r n).1.td
      body := (s.takeHdr r n).1.body } := by
  unfold Chip.takeHdr
  dsimp only
  split <;> exact ⟨rfl, rfl⟩

/-- What is common to the outcomes of a decision that enter nothing. -/
structure Chip.turnsOff (s z : Chip) (r : Req) : Prop where
  reqs : z.prom.reqs = s.prom.reqs
  ch : z.prom.ch = s.prom.ch
  hdrs : z.prom.hdrs = s.prom.hdrs.filter fun x => !(x.port == r.port)

section
variable {s : Chip} {r : Req} {n : Nat}

theorem Chip.takeHdr_alone (hp : s.pairRole = 0) : (s.takeHdr r n).2.pairRole = 0 := by
  rw [(s.takeHdr_facts r n).1]
  exact hp

/-- R239: an answer before admission. -/
theorem Chip.carryOut_answer (hp : s.pairRole = 0) (st : Status) (hport : r.port ≠ 96) (hk : r.kind ≠ .publish) :
    s.turnsOff ((s.takeHdr r n).2.carryOut (s.takeHdr r n).1 (.answer st)) r ∧
      ((s.takeHdr r n).2.carryOut (s.takeHdr r n).1 (.answer st)).out =
        s.out ++ [.packet ⟨s.respHd (reqHd (s.takeHdr r n).1) st, []⟩] := by
  obtain ⟨hchip, hreq⟩ := s.takeHdr_facts r n
  have hport' : (s.takeHdr r n).1.port ≠ 96 := by rw [hreq]; exact hport
  have hk' : (s.takeHdr r n).1.kind ≠ .publish := by rw [hreq]; exact hk
  have heq : (s.takeHdr r n).2.carryOut (s.takeHdr r n).1 (.answer st) = _ :=
    Chip.answerNow_alone (Chip.takeHdr_alone hp) hport' hk' st
  rw [heq, hchip]
  exact ⟨⟨rfl, rfl, rfl⟩, Chip.emit_out ..⟩

/-- R240, R298: REFUSED with its hint. -/
theorem Chip.carryOut_refuse (hp : s.pairRole = 0) (h : Nat) (hport : r.port ≠ 96) :
    s.turnsOff ((s.takeHdr r n).2.carryOut (s.takeHdr r n).1 (.refuse h)) r ∧
      ((s.takeHdr r n).2.carryOut (s.takeHdr r n).1 (.refuse h)).reg (prPg + 0x48) = (s.bump (prPg + 0x48)).reg (prPg + 0x48) ∧
      ((s.takeHdr r n).2.carryOut (s.takeHdr r n).1 (.refuse h)).out = s.out ++ [.packet
        ⟨{ s.respHd (reqHd (s.takeHdr r n).1) .ok with
          typ := 9
          ver := true
          value := h }, []⟩] := by
  obtain ⟨hchip, hreq⟩ := s.takeHdr_facts r n
  have hport' : (s.takeHdr r n).1.port ≠ 96 := by rw [hreq]; exact hport
  unfold Chip.carryOut
  dsimp only
  rw [Chip.orderIn_alone (Chip.takeHdr_alone hp)]
  unfold Chip.refuse
  rw [if_neg hport', hchip]
  refine ⟨⟨?_, ?_, ?_⟩, ?_, ?_⟩
  · rw [Chip.emit_prom, Chip.bump_prom]
  · rw [Chip.emit_prom, Chip.bump_prom]
  · rw [Chip.emit_prom, Chip.bump_prom]
  · rw [Chip.reg_emit]
    rfl
  · rw [Chip.emit_out, Chip.bump_out]
    rfl

theorem Chip.orderIn_reqs (s : Chip) (id tick arg : Nat) : (s.orderIn id tick arg).prom.reqs = s.prom.reqs := by
  unfold Chip.orderIn
  split <;> rfl

/-- R238: an accepted request is one of the chip's. -/
theorem Chip.carryOut_accept (hp : (s.takeHdr r n).2.verdict (s.takeHdr r n).1 = .accept x u) :
    ∃ x' ∈ ((s.takeHdr r n).2.carryOut (s.takeHdr r n).1 (.accept x u)).prom.reqs, x'.id = n ∧ x'.off = r.off ∧
      x'.len = r.len ∧ x'.td = (s.takeHdr r n).1.td ∧ x'.kind = r.kind ∧ x'.promise = r.promise := by
  obtain ⟨-, hreq⟩ := s.takeHdr_facts r n
  have hplaced := (Chip.verdict_accept hp).placed
  unfold Chip.carryOut
  dsimp only
  generalize Chip.orderIn u _ _ _ = v
  obtain ⟨r', hr', ⟨g, hg, hgoes⟩, -, -⟩ := v.accept_enters x
  have hmem : r' ∈ (v.entersReq r').prom.reqs := List.mem_append_right _ (List.mem_singleton_self r')
  refine ⟨g r', hg ▸ List.mem_map_of_mem hmem, ?_⟩
  rw [(hgoes r').1, hr', hplaced]
  dsimp only
  refine ⟨?_, ?_, ?_, rfl, ?_, ?_⟩ <;> rw [hreq]

end

/-! ## Entries of the service table (R246, R453) -/

theorem Chip.setBytes_rest (s : Chip) (a n : Nat) (d : List Byte) :
    s.setBytes a n d = { s with regs := (s.setBytes a n d).regs } := by
  unfold Chip.setBytes
  refine forEach_keeps (fun t => t = { s with regs := t.regs }) (fun i _ t ht => ?_) rfl
  generalize BitVec.ofNat 32 _ = w
  generalize a + 4 * i = b
  unfold Chip.setReg
  rw [ht]

/-- R453: a measurement at run time extends MRUN and is logged; nothing else changes but registers. -/
theorem Chip.measure_run (s : Chip) {typ : Nat} (h : 16 ≤ typ) (d : List Byte) :
    s.measure typ d = { s with
      regs := (s.measure typ d).regs
      att := (s.measure typ d).att } ∧
    (s.measure typ d).att.mrun = sha384 (s.att.mrun ++ leBytes 4 typ ++ d) := by
  unfold Chip.measure
  dsimp only
  rw [decide_eq_true h]
  simp only [if_true]
  generalize sha384 (s.att.mrun ++ leBytes 4 typ ++ d) = m
  generalize hu : Chip.setBytes _ _ _ _ = u
  have hrest : u = { s with
      att.mrun := m
      regs := u.regs } := by
    rw [← hu]
    exact Chip.setBytes_rest ..
  have hatt : u.att.mrun = m := by rw [hrest]
  split
  · refine ⟨?_, hatt⟩
    rw [hrest]
    rfl
  · refine ⟨?_, hatt⟩
    rw [hrest]
    rfl

section
variable {s : State} {q : CmdReq} {ws : List Word}

/-- R246: the entry the words of an SVC_SET of partition p give. -/
def svcEntOf (p : Nat) (ws : List Word) : SvcEnt :=
  { valid := Word.bit (ws.getD 0 0) 8
    part := p
    ctx := Word.bits (ws.getD 1 0) 4 0
    deadline := Word.bits (ws.getD 2 0) 13 0
    inT := Word.bits (ws.getD 3 0) 15 0
    outT := Word.bits (ws.getD 3 0) 31 16
    pre := Word.bits (ws.getD 4 0) 23 0
    occ := Word.bits (ws.getD 5 0) 16 0
    respBytes := Word.bits (ws.getD 6 0) 13 0
    accs := svcAccs (Word.bits (ws.getD 1 0) 8 5 + 1) (ws.drop 7) }

/-- R246: the index and the number of access descriptors of an SVC_SET. -/
def svcIdx (ws : List Word) : Nat := Word.bits (ws.getD 0 0) 7 0
def svcLen (ws : List Word) : Nat := 7 + 3 * (Word.bits (ws.getD 1 0) 8 5 + 1)

/-- R246: the entry is written, or cleared. -/
def Chip.svcPut (s : Chip) (ws : List Word) (e : SvcEnt) : Chip :=
  { s with prom.svc := KMap.put s.prom.svc {} (svcIdx ws) (if e.valid then e else {}) }

/-- R246, R453: the entry is written, or cleared, and measured. -/
def Chip.svcWritten (s : Chip) (ws : List Word) (e : SvcEnt) : Chip :=
  Chip.measure (s.svcPut ws e) 0x11
    (sha384 (ws.flatMap fun w => leBytes 4 w.toNat))

theorem exec_svcSet_eq (ws : List Word) (h : s.sys.chip.takesCmd q false) :
    chipNext s (.svcSet q ws) (if s.sys.chip.retiring = true then (s.sys.chip.leaveIngress q).cmdAnswer q .noAccess 0
      else if ws.length ≠ svcLen ws ∨ svcRsvdOk ws = false ∨
          ((svcEntOf (s.sys.chip.sessPart q.session) ws).valid = true ∧
            svcFieldsOk (svcEntOf (s.sys.chip.sessPart q.session) ws) = false) ∨
          ((KMap.at s.sys.chip.prom.svc {} (svcIdx ws)).valid = true ∧
            (KMap.at s.sys.chip.prom.svc {} (svcIdx ws)).part ≠ s.sys.chip.sessPart q.session)
        then (s.sys.chip.leaveIngress q).cmdAnswer q .noAccess 0
        else ((s.sys.chip.leaveIngress q).svcWritten ws (svcEntOf (s.sys.chip.sessPart q.session) ws)).cmdAnswer q .ok 0) := by
  have hexec : exec (.svcSet q ws) s = execSvcSet q ws s := (rfl)
  rw [chipNext, hexec, execSvcSet, liftC]
  simp only [Chip.grantCommand_eq h]
  rfl

theorem svcSet_writes (h : s.sys.chip.takesCmd q false) (hret : s.sys.chip.retiring = false)
    (hlen : ws.length = svcLen ws) (hrsvd : svcRsvdOk ws = true) {e : SvcEnt}
    (he : e = svcEntOf (s.sys.chip.sessPart q.session) ws) (hok : e.valid = false ∨ svcFieldsOk e = true)
    (hold : (KMap.at s.sys.chip.prom.svc {} (svcIdx ws)).valid = false ∨
      (KMap.at s.sys.chip.prom.svc {} (svcIdx ws)).part = s.sys.chip.sessPart q.session) :
    ∃ z, exec (.svcSet q ws) s = .next { s with sys := z } ∧ z.mem = s.sys.mem ∧ z.chip.answeredIs q .ok 0 ∧
      (∀ j, KMap.at z.chip.prom.svc {} j =
        if j = svcIdx ws then (if e.valid then e else {}) else KMap.at s.sys.chip.prom.svc {} j) ∧
      z.chip.att.mrun = sha384 (s.sys.chip.att.mrun ++ leBytes 4 0x11 ++ sha384 (ws.flatMap fun w => leBytes 4 w.toNat)) ∧
      z.chip.rights = s.sys.chip.rights := by
  have hexec := exec_svcSet_eq ws h
  have hgood : ¬(ws.length ≠ svcLen ws ∨ svcRsvdOk ws = false ∨ (e.valid = true ∧ svcFieldsOk e = false) ∨
      ((KMap.at s.sys.chip.prom.svc {} (svcIdx ws)).valid = true ∧
        (KMap.at s.sys.chip.prom.svc {} (svcIdx ws)).part ≠ s.sys.chip.sessPart q.session)) := by
    rintro (hno | hno | ⟨h1, h2⟩ | ⟨h1, h2⟩)
    · exact hno hlen
    · simp [hrsvd] at hno
    · obtain hok | hok := hok
      · simp [hok] at h1
      · simp [hok] at h2
    · obtain hold | hold := hold
      · simp [hold] at h1
      · exact h2 hold
  rw [if_neg (by simp [hret]), ← he, if_neg hgood] at hexec
  obtain ⟨hrest, hmrun⟩ := Chip.measure_run ((s.sys.chip.leaveIngress q).svcPut ws e)
    (show 16 ≤ 0x11 by decide) (sha384 (ws.flatMap fun w => leBytes 4 w.toNat))
  have htold := ((s.sys.chip.leaveIngress q).svcWritten ws e).told_cmdAnswer q .ok 0
  have hsvc : ((s.sys.chip.leaveIngress q).svcWritten ws e).prom.svc =
      KMap.put s.sys.chip.prom.svc {} (svcIdx ws) (if e.valid then e else {}) := by
    rw [Chip.svcWritten, hrest]
    rfl
  refine ⟨_, hexec, rfl, Chip.answeredIs_cmdAnswer .., fun j => ?_, ?_, ?_⟩
  · show KMap.at (((s.sys.chip.leaveIngress q).svcWritten ws e).cmdAnswer q .ok 0).prom.svc {} j = _
    rw [htold.prom, hsvc]
    by_cases hj : j = svcIdx ws
    · rw [if_pos hj, hj]
      exact at_put_self ..
    · rw [if_neg hj]
      exact at_put_ne _ _ (Ne.symm hj)
  · exact (congrArg (·.mrun) htold.att).trans hmrun
  · refine htold.rights.trans ?_
    rw [Chip.svcWritten, hrest]
    rfl

theorem svcSet_refused (h : s.sys.chip.takesCmd q false)
    (hno : ws.length ≠ svcLen ws ∨ svcRsvdOk ws = false ∨
      ((KMap.at s.sys.chip.prom.svc {} (svcIdx ws)).valid = true ∧
        (KMap.at s.sys.chip.prom.svc {} (svcIdx ws)).part ≠ s.sys.chip.sessPart q.session)) :
    Answers (.svcSet q ws) s s.sys.chip q .noAccess 0 := by
  have hexec := exec_svcSet_eq ws h
  by_cases hret : s.sys.chip.retiring = true
  · rw [if_pos hret] at hexec
    exact answers_of_exec hexec
  · rw [if_neg hret, if_pos] at hexec
    · exact answers_of_exec hexec
    · obtain hno | hno | hno := hno
      · exact .inl hno
      · exact .inr (.inl hno)
      · exact .inr (.inr (.inr hno))

end

/-- Settles O39: the decision of a header by its verdict, of which an acceptance says what it rests on; the
service table by the checks of the words. -/
theorem admission : Obligations.Admission := by
  unfold Obligations.Admission
  refine ⟨fun s => ⟨admitNext_unready, fun hready hp => ⟨admitNext_none hready hp, fun r hr => ⟨?_, ?_, ?_⟩⟩, ?_⟩,
    fun s q ws h => ⟨?_, svcSet_refused h⟩⟩
  · intro st hv hport hk
    have hexec := exec_admitNext_eq hready hp hr
    rw [hv] at hexec
    obtain ⟨hoff, hout⟩ := Chip.carryOut_answer (n := s.sys.chip.prom.seq) hp st hport hk
    exact ⟨_, hexec, rfl, hoff.reqs, hoff.ch, hoff.hdrs, hout⟩
  · intro hint hv hport
    have hexec := exec_admitNext_eq hready hp hr
    rw [hv] at hexec
    obtain ⟨hoff, hreg, hout⟩ := Chip.carryOut_refuse (n := s.sys.chip.prom.seq) hp hint hport
    exact ⟨_, _, hexec, rfl, hoff.reqs, hoff.ch, hoff.hdrs, hreg, hout, rfl, rfl⟩
  · intro x u hv
    have hexec := exec_admitNext_eq hready hp hr
    rw [hv] at hexec
    exact ⟨_, hexec, rfl, Chip.carryOut_accept hv⟩
  · intro r x u hv hprom
    have hacc := Chip.verdict_accept hv
    exact ⟨hacc.room hprom, hacc.plain hprom, hacc.svc hprom⟩
  · intro e hvalid hpart hctx hdl hin hout hpre hocc hresp haccs hret hlen hrsvd hok hold
    refine svcSet_writes h hret hlen hrsvd ?_ hok hold
    unfold svcEntOf
    obtain ⟨v, p, c, d, i, o, pr, oc, rb, ac⟩ := e
    simp only at hvalid hpart hctx hdl hin hout hpre hocc hresp haccs
    subst hvalid hpart hctx hdl hin hout hpre hocc hresp haccs
    rfl

end Sys2Proof.Machine

/-! PROOF of O40 (R231, R241, R246 to R251): how a promise goes on to its outcome. -/

namespace Sys2Proof.Machine

-- One after the other: side by side the proofs ask for more memory than the check grants.
set_option Elab.async false

open Laws

/-! ## What ends requests leaves of them (R387, R388) -/

theorem Chip.recalls.reqsGoOn {s t : Chip} (h : s.recalls t) : s.reqsGoOn t :=
  Chip.reqsGoOn_of (by rw [h.rest]) (by rw [h.rest]) (by rw [h.rest])

theorem Chip.stops.reqsGoOn {s t : Chip} (h : s.stops t) : s.reqsGoOn t :=
  Chip.reqsGoOn_of (by rw [h.rest]) (by rw [h.rest]) (by rw [h.rest])

theorem Chip.reqsGoOn_loseSet (s : Chip) (d : Nat) : s.reqsGoOn (s.loseSet d) := by
  unfold Chip.loseSet
  exact Chip.reqsGoOn_ite (.refl s) (((s.recalls_setDir _).reqsGoOn.trans (Chip.reports_countErr ..).reqsGoOn).trans
    (Chip.recalls_askRecall ..).reqsGoOn)

theorem Chip.reqsGoOn_loseSetsOf (s : Chip) (n : Nat) : s.reqsGoOn (s.loseSetsOf n) := by
  unfold Chip.loseSetsOf
  exact (reqsGoOn_forEach _ (fun d s => s.reqsGoOn_loseSet d) s).trans (Chip.recalls_setDir _ _).reqsGoOn

theorem Chip.reqsGoOn_failAccs (s : Chip) (n : Nat) (st : Status) : s.reqsGoOn (s.failAccs n st) := by
  unfold Chip.failAccs
  exact (s.reqsGoOn_endReqs _ _).trans (Chip.reqsGoOn_accs _ _)

theorem Chip.reqsGoOn_pairFence (s : Chip) (u : UnitId) : s.reqsGoOn (s.pairFence u) := by
  have h : s.reqsGoOn (if s.standsBy then s.goOut else s.announce (.fence u)) := by
    refine Chip.reqsGoOn_ite (Chip.reqsGoOn_of rfl rfl rfl) ?_
    unfold Chip.announce
    exact Chip.reqsGoOn_ite (Chip.reqsGoOn_of rfl rfl rfl) (.refl s)
  unfold Chip.pairFence
  cases u with
  | link | eth | cv | part => exact .refl s
  | _ => exact h

theorem Chip.reqsGoOn_writeCopies (s : Chip) (u : UnitId) : s.reqsGoOn (s.writeCopies u) := by
  have h : s.reqsGoOn s.reconcile := by
    unfold Chip.reconcile
    dsimp only
    have hone : ∀ t : Chip, t.reqsGoOn ((t.countErr fqPg 1 0 0 true).bump (fqPg + 0x78)) :=
      fun t => ((t.reports_countErr fqPg 1 0 0 true).trans (Chip.reports_bump ..)).reqsGoOn
    refine Chip.reqsGoOn.trans (t := { s with errs.stale := [] }) (Chip.reqsGoOn_of rfl rfl rfl) ?_
    exact reqsGoOn_forEach _ (fun _ t => hone t) _
  unfold Chip.writeCopies
  dsimp only
  exact (h.trans (Chip.reports_strike _ fqPg).reqsGoOn).trans
    (Chip.reqsGoOn_ite (Chip.reqsGoOn_of rfl rfl rfl) (.refl _))

/-- R387, R391: the fence of a cluster or of a controller is recorded, with its tick. -/
theorem Chip.fenceUnit_records {s : Chip} {u : UnitId} (cause : Cause) (hu : (∃ c, u = .cluster c) ∨ ∃ n, u = .mc n)
    (hf : s.fenced1 u = false) :
    FenceRec.mk u cause s.now false false ∈ (s.fenceUnit u cause).errs.fences ∧ s.reqsGoOn (s.fenceUnit u cause) := by
  have hp := s.reqsGoOn_pairFence u
  unfold Chip.fenceUnit
  rw [if_neg (ne_true_of_eq_false hf)]
  dsimp only
  generalize s.pairFence u = p at hp
  have hadd : p.reqsGoOn { p with errs.fences := p.errs.fences ++ [FenceRec.mk u cause p.now false false] } :=
    ⟨⟨fun r => r, by rw [List.map_id'], Req.goesOn.refl⟩, fun f h => List.mem_append_left _ h, rfl⟩
  have hin : FenceRec.mk u cause s.now false false ∈ ({ p with
      errs.fences := p.errs.fences ++ [FenceRec.mk u cause p.now false false] } : Chip).errs.fences := by
    rw [hp.now]
    exact List.mem_append_right _ (List.mem_singleton.2 rfl)
  generalize ({ p with errs.fences := p.errs.fences ++ [FenceRec.mk u cause p.now false false] } : Chip) = q at hadd hin
  have hrest : ∀ t, q.reqsGoOn t → FenceRec.mk u cause s.now false false ∈ t.errs.fences ∧ s.reqsGoOn t :=
    fun t h => ⟨h.fences _ hin, (hp.trans hadd).trans h⟩
  have hfail : q.reqsGoOn { (q.setFld (blkStat (unitPg u)) 4 0 (1 + 4 * causeCode cause)) with
      errs.failTick := (u, (q.setFld (blkStat (unitPg u)) 4 0 (1 + 4 * causeCode cause)).now) ::
        (q.setFld (blkStat (unitPg u)) 4 0 (1 + 4 * causeCode cause)).errs.failTick.filter fun x => !(x.1 == u) } :=
    Chip.reqsGoOn_of rfl rfl rfl
  obtain ⟨c, rfl⟩ | ⟨n, rfl⟩ := hu
  · exact hrest _ ((hfail.trans (Chip.reqsGoOn_endReqs _ _ _)).trans (Chip.stops_clusterStop ..).reqsGoOn)
  · exact hrest _ (((((hfail.trans (Chip.reqsGoOn_endReqs _ _ _)).trans (Chip.reqsGoOn_failAccs _ _ _)).trans
      (Chip.reports_setFlag ..).reqsGoOn).trans (Chip.reports_setFld ..).reqsGoOn).trans (Chip.reqsGoOn_loseSetsOf _ _))

theorem Chip.isContained_congr {s t : Chip} (hf : t.errs.fences = s.errs.fences) (ho : t.parts.owner = s.parts.owner)
    (u : UnitId) : t.isContained u = s.isContained u := by
  have hs : ∀ w, t.scopeOf w = s.scopeOf w := fun w => by
    unfold Chip.scopeOf Chip.ownerOf
    rw [ho]
  unfold Chip.isContained Chip.contained1
  rw [hf]
  simp only [hs]

theorem Chip.handling_congr {s t : Chip} (hf : t.errs.fences = s.errs.fences) (ho : t.parts.owner = s.parts.owner)
    (u : UnitId) : t.handling u = s.handling u := by
  have hs : ∀ w, t.scopeOf w = s.scopeOf w := fun w => by
    unfold Chip.scopeOf Chip.ownerOf
    rw [ho]
  unfold Chip.handling Chip.chainOf
  rw [hf]
  simp only [hs]

/-- R386: an error in a unit that is in service fences it. -/
theorem Chip.unitError_fences {s : Chip} {u : UnitId} (cause : Cause) (pg bit info : Nat) (inj : Bool)
    (hu : (∃ c, u = .cluster c) ∨ ∃ n, u = .mc n) (hc : s.isContained u = false) (hh : s.handling u = none)
    (hf : s.fenced1 u = false) :
    FenceRec.mk u cause s.now false false ∈ (s.unitError u cause pg bit info inj).errs.fences ∧
      s.reqsGoOn (s.unitError u cause pg bit info inj) := by
  have hcount := s.reports_countErr pg bit 1 info inj
  unfold Chip.unitError
  dsimp only
  generalize s.countErr pg bit 1 info inj = t at hcount
  have howner : t.parts.owner = s.parts.owner := by rw [hcount.rest]
  rw [Chip.isContained_congr hcount.errs_fences howner, hc, Chip.handling_congr hcount.errs_fences howner, hh]
  obtain ⟨hin, hgo⟩ := Chip.fenceUnit_records (s := t) cause hu
    ((congrArg (fun l : List FenceRec => l.any fun f => f.unit == u) hcount.errs_fences).trans hf)
  rw [hcount.now] at hin
  have hall : (t.fenceUnit u cause).reqsGoOn (t.fence u cause pg bit inj) := by
    unfold Chip.fence
    refine Chip.reqsGoOn.trans ?_ (Chip.reports_fenceRecord ..).reqsGoOn
    unfold Chip.fenceAll
    obtain ⟨c, rfl⟩ | ⟨n, rfl⟩ := hu
    · exact Chip.reqsGoOn_writeCopies _ _
    · exact Chip.reqsGoOn_writeCopies _ _
  exact ⟨hall.fences _ hin, (hcount.reqsGoOn.trans hgo).trans hall⟩

/-! ## What sending an outcome changes -/

/-- t is s but for what sending changes; the code strength stands. -/
structure Chip.sends (s t : Chip) : Prop where
  rest : t = { s with
    free := t.free
    out := t.out
    regs := t.regs
    own := t.own
    held := t.held
    shapers := t.shapers
    duo := t.duo
    eth := t.eth
    parts := { s.parts with pend := t.parts.pend, sealed := t.parts.sealed } }
  code : t.reg (memPg + 0x40) = s.reg (memPg + 0x40)

theorem Chip.sends.refl (s : Chip) : s.sends s := ⟨rfl, rfl⟩

theorem Chip.sends.trans {s t u : Chip} (h : s.sends t) (h' : t.sends u) : s.sends u :=
  ⟨by rw [h'.rest, h.rest], h'.code.trans h.code⟩

theorem Chip.sends_ite {s t u : Chip} {p : Prop} [Decidable p] (h : s.sends t) (h' : s.sends u) :
    s.sends (if p then t else u) := by
  split <;> assumption

theorem Chip.Told.sends {s t : Chip} (h : s.Told t) : s.sends t :=
  ⟨by rw [h.rest], h.regs _ (by unfold quiet memPg; omega)⟩

theorem Chip.sends_record (s : Chip) (i c n : Nat) (b : Bool) (st : Status) (k : Nat) : s.sends (s.record i c n b st k) :=
  (s.told_record ..).sends

theorem Chip.sends_recordOutcome (s : Chip) (r : Req) (st : Status) : s.sends (s.recordOutcome r st) := by
  unfold Chip.recordOutcome
  split
  · exact Chip.sends_ite (s.sends_record ..) (.refl s)
  · exact .refl s

theorem Chip.sends_emit (s : Chip) (o : Out) : s.sends (s.emit o) := ⟨rfl, rfl⟩

theorem Chip.sends_auditTick (s : Chip) (o : Out) : s.sends (s.auditTick o) := by
  unfold Chip.auditTick
  split
  · exact Chip.sends_ite ⟨rfl, rfl⟩ (.refl s)
  · exact .refl s

theorem Chip.sends_bumpEn (s : Chip) {k : Nat} (hk : k < 0x1000) : s.sends (s.bump (enPg + k)) :=
  (s.sent_setReg _ fun _ ha => ha.en hk).told.sends

theorem Chip.sends_noticeEn (s : Chip) (b : Nat) : s.sends (s.notice enPg b) :=
  (s.sent_notice enPg b (fun _ ha => ha.en (by omega)) fun _ ha => ha.en (by omega)).told.sends

theorem Chip.sends_ethLeave (s : Chip) (o : Out) (td : Option Nat) : s.sends (s.ethLeave o td) := by
  unfold Chip.ethLeave
  dsimp only
  generalize timeNow s.now o = o
  have h : s.sends (((s.auditTick o).wrapBy (enPg + 0xC8) 1).emit o) :=
    ((s.sends_auditTick o).trans (Chip.sent_setReg _ _ fun _ ha => ha.en (by omega)).told.sends).trans (Chip.sends_emit _ o)
  cases td with
  | some t => exact Chip.sends_ite ((h.trans (Chip.sends_bumpEn _ (by omega))).trans (Chip.sends_noticeEn _ 4)) h
  | none => exact h.trans (Chip.sent_enterOut ..).told.sends

theorem Chip.sends_ethGo (s : Chip) (n : Nat) (o : Out) (td : Option Nat) (b : Bool) : s.sends (s.ethGo n o td b) := by
  have h : s.sends (if td.isSome then s else s.useEthRoom n) := Chip.sends_ite (.refl s) ⟨rfl, rfl⟩
  unfold Chip.ethGo
  dsimp only
  exact (h.trans (Chip.sends_ite (Chip.sent_overrun _).told.sends (.refl _))).trans (Chip.sends_ethLeave ..)

theorem Chip.sends_hold (s : Chip) (h : Held) : s.sends { s with held := s.held ++ [h] } := ⟨rfl, rfl⟩

theorem Chip.sends_ethSend (s : Chip) (p n : Nat) (o : Out) (td : Option Nat) : s.sends (s.ethSend p n o td) := by
  unfold Chip.ethSend
  refine Chip.sends_ite (s.sent_keep ..).told.sends ?_
  unfold Chip.ethOut
  dsimp only
  split
  · exact Chip.sends_ite (s.sends_hold _) (s.sends_ethGo ..)
  · exact s.sends_hold _

theorem Chip.sends_egress (s : Chip) (port p n : Nat) (o : Out) : s.sends (s.egress port p n o) := by
  unfold Chip.egress
  dsimp only
  split
  · split
    · exact ⟨rfl, rfl⟩
    · exact ⟨rfl, rfl⟩
  · exact Chip.sends_ite (s.sends_ethSend ..) (s.sends_emit o)

theorem Chip.sends_enterResv (s : Chip) (r : Req) (o : Out) : s.sends (s.enterResv r o) := (s.sent_enterOut ..).told.sends

theorem Chip.sends_sendFor (s : Chip) (r : Req) (st : Status) (len : Nat) (o : Out) : s.sends (s.sendFor r st len o) := by
  unfold Chip.sendFor
  refine Chip.sends_ite (s.sends_egress ..) (Chip.sends_ite ((s.sends_enterResv r o).trans (Chip.sends_ethSend ..)) ?_)
  exact ((s.sends_enterResv r o).trans (Chip.sends_emit _ o)).trans ⟨rfl, rfl⟩

theorem Chip.sends_pushMsg (s : Chip) (i : Nat) (audit : Bool) (body : List Byte) : s.sends (s.pushMsg i audit body).2 := by
  unfold Chip.pushMsg
  dsimp only
  generalize hu : (if audit = true then _ else _ : Chip) = u
  have hsu : s.sends u := by
    rw [← hu]
    exact Chip.sends_ite ⟨rfl, rfl⟩ ⟨rfl, rfl⟩
  refine Chip.sends_ite ?_ hsu
  exact (hsu.trans (u.sends_bumpEn (by split <;> omega))).trans (Chip.sends_noticeEn _ _)

theorem Chip.sends_auditNo (s : Chip) (i : Nat) (rec : List Word) (body : List Byte) : s.sends (s.auditNo i rec body).2 := by
  unfold Chip.auditNo
  split
  · exact ⟨rfl, rfl⟩
  · exact s.sends_pushMsg ..

theorem Chip.sends_sendSvc (s : Chip) (r : Req) (st : Status) : s.sends (s.sendSvc r st) := by
  unfold Chip.sendSvc
  dsimp only
  generalize hu : Chip.ethSend _ _ _ _ _ = u
  have hsu : s.sends u := by
    rw [← hu]
    exact (s.sends_enterResv ..).trans (Chip.sends_ethSend ..)
  refine hsu.trans ?_
  cases r.audit with
  | none => exact (u.sends_bumpEn (by omega)).trans (Chip.sends_noticeEn _ 2)
  | some a => exact ((u.sends_auditNo a.1 a.2 _).trans (Chip.sends_enterResv ..)).trans (Chip.sends_ethSend ..)

theorem Chip.sends_sendXht (s : Chip) (r : Req) (st : Status) : s.sends (s.sendXht r st) := by
  unfold Chip.sendXht
  exact forEach_keeps (s.sends ·) (fun g _ t ht => ht.trans (t.sends_sendFor ..)) (.refl s)

/-! ## What the end of requests leaves (R216, R238) -/

/-- The requests, block slots and tracker entries of t are some of those of s; what left s has left t, and
the fences stand. -/
structure Chip.reaps (s t : Chip) : Prop where
  reqs : ∀ x ∈ t.prom.reqs, x ∈ s.prom.reqs
  ch : ∀ x ∈ t.prom.ch, x ∈ s.prom.ch
  trk : ∀ x ∈ t.prom.trk, x ∈ s.prom.trk
  out : ∃ l, t.out = s.out ++ l
  fences : t.errs.fences = s.errs.fences

theorem Chip.reaps_of {s t : Chip} (hp : t.prom = s.prom) (ho : ∃ l, t.out = s.out ++ l) (hf : t.errs.fences = s.errs.fences) :
    s.reaps t :=
  ⟨fun _ h => hp ▸ h, fun _ h => hp ▸ h, fun _ h => hp ▸ h, ho, hf⟩

theorem Chip.reaps.refl (s : Chip) : s.reaps s := Chip.reaps_of rfl ⟨[], (List.append_nil _).symm⟩ rfl

theorem Chip.reaps.trans {s t u : Chip} (h : s.reaps t) (h' : t.reaps u) : s.reaps u := by
  obtain ⟨l, hl⟩ := h.out
  obtain ⟨l', hl'⟩ := h'.out
  exact ⟨fun x hx => h.reqs x (h'.reqs x hx), fun x hx => h.ch x (h'.ch x hx), fun x hx => h.trk x (h'.trk x hx),
    ⟨l ++ l', by rw [hl', hl, List.append_assoc]⟩, h'.fences.trans h.fences⟩

theorem reaps_forEach {α : Type} (l : List α) {f : α → Chip → Chip} (hf : ∀ a (s : Chip), s.reaps (f a s)) (s : Chip) :
    s.reaps (forEach l f s) :=
  forEach_keeps (s.reaps ·) (fun a _ t ht => ht.trans (hf a t)) (.refl s)

theorem Chip.reaps_dropReq (s : Chip) (id : Nat) : s.reaps (s.dropReq id) :=
  ⟨fun _ h => (List.mem_filter.1 h).1,
   fun _ h => (List.mem_filter.1 (List.mem_filter.1 h).1).1,
   fun _ h => (List.mem_filter.1 h).1, ⟨[], (List.append_nil _).symm⟩, rfl⟩

theorem Chip.sealVec_out (s : Chip) (p v : Nat) : (s.sealVec p v).out = s.out := by
  unfold Chip.sealVec
  split
  · rfl
  · dsimp only
    rw [Chip.bump_out, Chip.setReg_out]
    rfl

theorem Chip.raise_out (s : Chip) (p v b i c d e : Nat) : (s.raise p v b i c d e).out = s.out := by
  have helapsed : ∀ s : Chip, (s.sealElapsed p v).out = s.out := fun s => by
    unfold Chip.sealElapsed
    split
    · rfl
    · split
      · exact s.sealVec_out p v
      · rfl
  have hdue : ∀ s : Chip, (s.sealIfDue p v).out = s.out := fun s => by
    unfold Chip.sealIfDue
    split
    · rfl
    · split
      · exact s.sealVec_out p v
      · rfl
  unfold Chip.raise
  split
  · rw [Chip.bump_out]
  · exact (hdue _).trans (helapsed s)

theorem Chip.notice_out (s : Chip) (pg b : Nat) : (s.notice pg b).out = s.out := by
  have hset : ∀ s : Chip, (s.setErr pg b).out = s.out := fun s => by
    unfold Chip.setErr
    dsimp only
    split
    · rw [Chip.setFlag_out]
    · unfold Chip.pageEvent Chip.pageEventD
      split
      · rw [Chip.raise_out, Chip.setFlag_out]
      · rw [Chip.setFlag_out]
  refine (hset _).trans ?_
  unfold Chip.latchFirst
  split
  · rfl
  · rw [Chip.setReg_out]

theorem Chip.reaps_sendRecall (s : Chip) (h n k off len : Nat) : s.reaps (s.sendRecall h n k off len) := by
  unfold Chip.sendRecall Chip.toHost
  dsimp only
  split
  · exact Chip.reaps_of rfl ⟨_, rfl⟩ rfl
  · have hr := (s.reports_bump (rtPg + 0x70)).trans (Chip.reports_notice _ rtPg 0)
    exact Chip.reaps_of hr.prom ⟨[], by rw [Chip.notice_out, List.append_nil]; rfl⟩ hr.errs_fences

theorem Chip.reaps_updTrk (s : Chip) (p : Trk → Bool) (f : Trk → Trk) : s.reaps (s.updTrk p f) :=
  Chip.reaps_of rfl ⟨[], (List.append_nil _).symm⟩ rfl

theorem Chip.reaps_sendLate (s : Chip) : s.reaps s.sendLate := by
  unfold Chip.sendLate
  refine reaps_forEach _ (fun t s => ?_) s
  dsimp only
  exact (s.reaps_updTrk ..).trans (reaps_forEach _ (fun h s => s.reaps_sendRecall ..) _)

theorem Chip.reaps_reapReqs (s : Chip) : s.reaps s.reapReqs := by
  unfold Chip.reapReqs
  split
  · exact .refl s
  · exact (reaps_forEach _ (f := fun (r : Req) s => s.dropReq r.id) (fun r s => s.reaps_dropReq r.id) s).trans
      (Chip.reaps_sendLate _)

/-! ## An outcome leaves (R231, R238) -/

/-- R234: request i holds no block slot beyond the one under way, and no tracker entry. -/
def Chip.freed (s t : Chip) (i : Nat) : Prop :=
  (∀ c ∈ t.prom.ch, c.owner = i → c.slot ≤ s.slotAt s.now) ∧ (∀ c ∈ t.prom.trk, c.owner ≠ i)

theorem Chip.sends.slotAt {s t : Chip} (h : s.sends t) (n : Nat) : t.slotAt n = s.slotAt n := by
  unfold Chip.slotAt Chip.slotLen Chip.codeT Chip.fld
  rw [h.code]

theorem Chip.freeSlots_frees {s t : Chip} (h : s.sends t) (i : Nat) : s.freed (t.freeSlots i) i := by
  refine ⟨fun c hc ho => ?_, fun c hc ho => ?_⟩
  · have hp := (List.mem_filter.1 hc).2
    rw [h.slotAt, show t.now = s.now by rw [h.rest]] at hp
    simpa [ho] using hp
  · simpa [ho] using (List.mem_filter.1 hc).2

/-- What of a response is sent, before its slots are freed. -/
def Chip.sendsResp (s : Chip) (r : Req) (st : Status) : Chip :=
  let s := Chip.recordOutcome { s with duo.cause := if s.pairRole = 0 then none else some r.id } r st
  if r.kind = .svc then s.sendSvc r st
    else if r.port = 96 then s.sendXht r st else s.sendFabric r st

theorem Chip.sends_sendFabric (s : Chip) (r : Req) (st : Status) : s.sends (s.sendFabric r st) := by
  unfold Chip.sendFabric
  exact s.sends_sendFor ..

theorem Chip.sends_cause (s : Chip) (c : Option Nat) : s.sends { s with duo.cause := c } := ⟨rfl, rfl⟩

theorem Chip.sends_sendsResp (s : Chip) (r : Req) (st : Status) : s.sends (s.sendsResp r st) := by
  unfold Chip.sendsResp
  dsimp only
  exact ((s.sends_cause _).trans (Chip.sends_recordOutcome _ r st)).trans (Chip.sends_ite (Chip.sends_sendSvc ..)
    (Chip.sends_ite (Chip.sends_sendXht ..) (Chip.sends_sendFabric ..)))

/-- R231, R238: once its outcome has been sent a request is marked so, or gone, and has freed its slots. -/
theorem Chip.sendOutcome_facts (s : Chip) (r : Req) (st : Status) :
    s.freed (s.sendOutcome r st) r.id ∧
    (∀ x ∈ (s.sendOutcome r st).prom.reqs, x.id = r.id → x.sent = true) ∧
    (∃ l, (s.sendOutcome r st).out = (s.sendsResp r st).out ++ l) ∧
    (s.sendOutcome r st).errs.fences = s.errs.fences := by
  have hs := (s.sends_sendsResp r st).trans (Chip.sends_cause _ none)
  have hdef : s.sendOutcome r st = Chip.reapReqs (Chip.updReqs
      { (Chip.freeSlots { s.sendsResp r st with duo.cause := none } r.id) with
        accs := (Chip.freeSlots { s.sendsResp r st with duo.cause := none } r.id).accs.filter
          fun a : Acc => match a.src with
            | .req i _ => !(i == r.id && a.phase != .served)
            | _ => true } (fun x => x.id == r.id) fun x => { x with sent := true }) := rfl
  rw [hdef]
  have hout : ({ s.sendsResp r st with duo.cause := none } : Chip).out = (s.sendsResp r st).out := rfl
  generalize ({ s.sendsResp r st with duo.cause := none } : Chip) = t at hs hout
  generalize ((t.freeSlots r.id).accs.filter _) = l
  have hend := Chip.reaps_reapReqs (Chip.updReqs { (t.freeSlots r.id) with accs := l } (fun x => x.id == r.id)
    fun x => { x with sent := true })
  have hfree := Chip.freeSlots_frees hs r.id
  refine ⟨⟨fun c hc => hfree.1 c (hend.ch c hc), fun c hc => hfree.2 c (hend.trk c hc)⟩, fun x hx hid => ?_, ?_, ?_⟩
  · obtain ⟨x', hx', rfl⟩ := List.mem_map.1 (hend.reqs x hx)
    by_cases hi : (x'.id == r.id) = true
    · rw [if_pos hi]
    · rw [if_neg hi] at hid
      exact absurd (beq_iff_eq.2 hid) hi
  · rw [← hout]
    exact hend.out
  · exact hend.fences.trans (by rw [show (Chip.updReqs { (t.freeSlots r.id) with accs := l } _ _).errs = t.errs from rfl, hs.rest])

/-- R231, R299: the response to a promise that a host asked for over a link is a packet with its status. -/
theorem Chip.sendsResp_out {s : Chip} (hp : s.pairRole = 0) {r : Req} (st : Status) (hport : r.port ≠ 96)
    (hk : r.kind ≠ .svc) (hprom : r.promise = true) : ∃ p, (s.sendsResp r st).out = s.out ++ [.packet p] ∧
      p.hdr.typ = 8 ∧ p.hdr.status = stCode st ∧ p.hdr.tag = r.tag ∧ p.hdr.srcHost = r.host ∧
      p.hdr.dstChip = r.srcChip ∧ p.hdr.dstPort = r.srcPort ∧ (st ≠ .ok → p.payload = []) := by
  unfold Chip.sendsResp
  dsimp only
  rw [if_neg hk, if_neg hport]
  have hrec : ∀ t : Chip, t.recordOutcome r st = t := fun t => by
    unfold Chip.recordOutcome
    split
    · rw [if_neg fun h => hport h.1]
    · rfl
  rw [hrec]
  have hcause : ({ s with duo.cause := if s.pairRole = 0 then none else some r.id } : Chip).pairRole = 0 := hp
  have hout : ({ s with duo.cause := if s.pairRole = 0 then none else some r.id } : Chip).out = s.out := rfl
  generalize ({ s with duo.cause := if s.pairRole = 0 then none else some r.id } : Chip) = t at hcause hout
  have hfor : ∀ len o, (t.sendFor r st len o).out = t.out ++ [o] := fun len o => by
    unfold Chip.sendFor
    rw [if_neg (by simp [hprom]), if_neg hport]
    have hent : t.enterResv r o = t := by
      unfold Chip.enterResv Chip.enterOut Chip.standsBy
      simp [hcause]
    rw [hent]
    rfl
  unfold Chip.sendFabric
  dsimp only
  rw [hfor, hout]
  refine ⟨_, rfl, ?_⟩
  cases t.verOf r with
  | none => exact ⟨rfl, rfl, rfl, rfl, rfl, rfl, fun h => if_neg fun hc => h hc.1⟩
  | some v => exact ⟨rfl, rfl, rfl, rfl, rfl, rfl, fun h => if_neg fun hc => h hc.1⟩

section
variable {s : State} {i : Nat} {r : Req}

/-! ## Service requests (R248, R456) -/

theorem svcDispatch_hands (h : (s.sys.chip.prom.reqs.find? fun r => r.id == i && r.kind == .svc && !r.dispatched && !r.sent) =
    some r) : chipNext s (.svcDispatch i) ((s.sys.chip.updReqs (fun x => x.id == i) fun x => { x with dispatched := true }).emit
      (.dispatch r.cluster i)) := by
  have hexec : exec (.svcDispatch i) s = execSvcDispatch i s := (rfl)
  rw [chipNext, hexec, execSvcDispatch, liftC, h]

theorem digestReady_holds {resp : List Byte} {vers : List Nat} (h : (s.sys.chip.prom.reqs.find? fun r =>
      r.id == i && r.kind == .svc && r.dispatched && r.resp.isNone && r.fixed.isNone && !r.sent) = some r) :
    chipNext s (.digestReady i resp vers) (s.sys.chip.updReqs (fun x => x.id == i) fun x =>
      { x with resp := some resp, dig := (sha384 (auditMsg r vers resp)).take 16 }) := by
  have hexec : exec (.digestReady i resp vers) s = execDigestReady i resp vers s := (rfl)
  rw [chipNext, hexec, execDigestReady, liftC, h]

/-! ## The outcome's port (R231, R250, R251) -/

/-- R231, R251: on a chip that acts alone an outcome is lost where its port has been down and T_d is over, else
leaves by a port that is up, or ends FENCED at one that is not. -/
theorem exec_responseSend_eq {st : Status} (hp : s.sys.chip.pairRole = 0)
    (h : (s.sys.chip.prom.reqs.find? fun r => r.id == i && !r.sent) = some r) (ho : s.sys.chip.outcome r = some st) :
    chipNext s (.responseSend i) (if r.promise = true ∧ r.cut = true ∧ r.td < s.sys.chip.now then s.sys.chip.loseResp r
      else if s.sys.chip.portUp r.port = true then
        (if st = .ok ∧ r.promise = true ∧ s.sys.chip.now < s.sys.chip.firstCell r.id then s.sys.chip
          else s.sys.chip.sendOutcome r st)
      else s.sys.chip.cutReqs (fun x => x.id == i) .fenced) := by
  have hexec : exec (.responseSend i) s = execResponseSend i s := (rfl)
  have hleads : s.sys.chip.leads = false := by
    unfold Chip.leads
    simp [hp]
  have hnote : s.sys.chip.noteDue r st = false := by
    unfold Chip.noteDue
    rw [hleads]
    rfl
  have hack : s.sys.chip.awaitsAck r.id = false := by
    unfold Chip.awaitsAck
    rw [hleads]
    rfl
  rw [chipNext, hexec, execResponseSend, liftC, h]
  dsimp only
  rw [ho]
  dsimp only
  rw [if_neg (by omega), if_neg (by omega), if_neg (ne_true_of_eq_false hnote), Chip.sendWhenDue, if_pos hack]

theorem id_of_find {p : Req → Bool} (h : (s.sys.chip.prom.reqs.find? fun r => r.id == i && p r) = some r) : r.id = i := by
  have hr := List.find?_some h
  rw [Bool.and_eq_true, beq_iff_eq] at hr
  exact hr.1

theorem responseSend_sends {st : Status} (hp : s.sys.chip.pairRole = 0)
    (h : (s.sys.chip.prom.reqs.find? fun r => r.id == i && !r.sent) = some r) (ho : s.sys.chip.outcome r = some st)
    (hin : r.promise = false ∨ r.cut = false ∨ s.sys.chip.now ≤ r.td) (hup : s.sys.chip.portUp r.port = true)
    (hdue : st ≠ .ok ∨ r.promise = false ∨ s.sys.chip.firstCell i ≤ s.sys.chip.now) :
    ∃ z, exec (.responseSend i) s = .next { s with sys := z } ∧ z.mem = s.sys.mem ∧ s.sys.chip.freed z.chip i ∧
      (∀ x ∈ z.chip.prom.reqs, x.id = i → x.sent = true) ∧
      (r.port ≠ 96 → r.kind ≠ .svc → r.promise = true → ∃ p l, z.chip.out = s.sys.chip.out ++ .packet p :: l ∧
        p.hdr.typ = 8 ∧ p.hdr.status = stCode st ∧ p.hdr.tag = r.tag ∧ p.hdr.srcHost = r.host ∧
        p.hdr.dstChip = r.srcChip ∧ p.hdr.dstPort = r.srcPort ∧ (st ≠ .ok → p.payload = [])) := by
  have hexec := exec_responseSend_eq hp h ho
  have hid := id_of_find h
  rw [if_neg, if_pos hup, if_neg] at hexec
  · obtain ⟨hfree, hsent, ⟨l, hl⟩, -⟩ := s.sys.chip.sendOutcome_facts r st
    rw [hid] at hfree hsent
    refine ⟨_, hexec, rfl, hfree, hsent, fun hport hk hprom => ?_⟩
    obtain ⟨p, hpo, hrest⟩ := Chip.sendsResp_out hp st hport hk hprom
    refine ⟨p, l, ?_, hrest⟩
    show (s.sys.chip.sendOutcome r st).out = _
    rw [hl, hpo, List.append_assoc]
    rfl
  · rintro ⟨h1, h2, h3⟩
    rw [hid] at h3
    obtain hd | hd | hd := hdue
    · exact hd h1
    · simp [hd] at h2
    · omega
  · rintro ⟨h1, h2, h3⟩
    obtain hd | hd | hd := hin
    · simp [hd] at h1
    · simp [hd] at h2
    · omega

theorem responseSend_early {st : Status} (hp : s.sys.chip.pairRole = 0)
    (h : (s.sys.chip.prom.reqs.find? fun r => r.id == i && !r.sent) = some r) (ho : s.sys.chip.outcome r = some st)
    (hin : r.promise = false ∨ r.cut = false ∨ s.sys.chip.now ≤ r.td) (hup : s.sys.chip.portUp r.port = true)
    (hst : st = .ok) (hprom : r.promise = true) (hearly : s.sys.chip.now < s.sys.chip.firstCell i) :
    exec (.responseSend i) s = .next s := by
  have hexec := exec_responseSend_eq hp h ho
  have hid := id_of_find h
  rw [if_neg, if_pos hup, if_pos ⟨hst, hprom, hid ▸ hearly⟩] at hexec
  · exact hexec
  · rintro ⟨h1, h2, h3⟩
    obtain hd | hd | hd := hin
    · simp [hd] at h1
    · simp [hd] at h2
    · omega

/-- R250, R251: a request whose port is down ends FENCED, but for one that has flipped. -/
theorem Chip.cutReqs_reqs (y : Chip) (i : Nat) : (y.cutReqs (fun x => x.id == i) .fenced).prom.reqs =
    y.prom.reqs.map fun x => if x.id = i ∧ x.sent = false
      then { x with
        cut := true
        fixed := if flipped x then x.fixed else fixStatus x.fixed y.now .fenced }
      else x := by
  show (updWhere (updWhere y.prom.reqs _ _) _ _) = _
  unfold updWhere
  rw [List.map_map]
  refine List.map_congr_left fun x _ => ?_
  by_cases hi : x.id = i
  · by_cases hsent : x.sent = true
    · simp [hi, hsent]
    · rw [Bool.not_eq_true] at hsent
      by_cases hf : flipped x = true
      · simp [hi, hsent, hf]
      · simp [hi, hsent, hf]
  · simp [hi]

theorem responseSend_cut {st : Status} (hp : s.sys.chip.pairRole = 0)
    (h : (s.sys.chip.prom.reqs.find? fun r => r.id == i && !r.sent) = some r) (ho : s.sys.chip.outcome r = some st)
    (hin : r.promise = false ∨ r.cut = false ∨ s.sys.chip.now ≤ r.td) (hup : s.sys.chip.portUp r.port = false) :
    chipNext s (.responseSend i) (s.sys.chip.cutReqs (fun x => x.id == i) .fenced) := by
  have hexec := exec_responseSend_eq hp h ho
  rw [if_neg, if_neg (ne_true_of_eq_false hup)] at hexec
  · exact hexec
  · rintro ⟨h1, h2, h3⟩
    obtain hd | hd | hd := hin
    · simp [hd] at h1
    · simp [hd] at h2
    · omega

end

/-! ## A response that is lost (R251) -/

theorem Chip.dropReq_facts {s t : Chip} (h : s.sends t) (i : Nat) :
    s.freed (t.dropReq i) i ∧ (∀ x ∈ (t.dropReq i).prom.reqs, x.id ≠ i) ∧
    (∀ c ∈ (t.dropReq i).prom.eg, c.owner = i → c.cell ≤ s.now / 128) ∧
    (∀ c ∈ (t.dropReq i).prom.cl, c.owner = i → c.c0 ≤ s.now / 128 ∧ c.c0 + c.n ≤ s.now / 128 + 1) := by
  have hnow : t.now = s.now := by rw [h.rest]
  obtain ⟨hch, htrk⟩ := Chip.freeSlots_frees h i
  refine ⟨⟨fun c hc => hch c (List.mem_filter.1 hc).1, htrk⟩, fun x hx hid => ?_, fun c hc ho => ?_, fun c hc ho => ?_⟩
  · simpa [hid] using (List.mem_filter.1 hx).2
  · have h1 := (List.mem_filter.1 (List.mem_filter.1 hc).1).2
    have h2 : c.cell ≤ t.now / 128 := by simpa [ho] using h1
    rwa [hnow] at h2
  · obtain ⟨x, -, hx⟩ := List.mem_filterMap.1 (List.mem_filter.1 hc).1
    have hn : (t.freeSlots i).now = s.now := hnow
    by_cases hxo : x.owner = i
    · rw [if_pos hxo] at hx
      split at hx
      · cases hx
        dsimp only
        have h3 : t.now / 128 = s.now / 128 := by rw [hnow]
        omega
      · cases hx
    · rw [if_neg hxo] at hx
      cases hx
      exact absurd ho hxo

theorem Chip.sends_setReg (s : Chip) {a : Nat} (w : Word) (h : a ≠ memPg + 0x40) : s.sends (s.setReg a w) :=
  ⟨rfl, Chip.reg_setReg_ne _ _ h⟩

theorem Chip.sends_noticePr (s : Chip) (b : Nat) : s.sends (s.notice prPg b) := by
  have hset : ∀ s : Chip, s.sends (s.setErr prPg b) := fun s =>
    Chip.sends_ite (s.sends_setReg _ (by decide)) ((s.sends_setReg _ (by decide)).trans (Chip.sent_pageEvent _ _).told.sends)
  exact (Chip.sends_ite (.refl s) (s.sends_setReg _ (by decide))).trans (hset _)

theorem Chip.sends_promiseLost (s : Chip) (part host tag : Nat) : s.sends (s.promiseLost part host tag) :=
  ((s.sends_setReg _ (by decide)).trans (Chip.sends_noticePr _ 1)).trans (Chip.sent_pageEventD ..).told.sends

theorem Chip.recordOutcome_regs (s : Chip) (r : Req) (st : Status) : (s.recordOutcome r st).regs = s.regs := by
  unfold Chip.recordOutcome
  split
  · split
    · unfold Chip.record Chip.setWin
      split <;> rfl
    · rfl
  · rfl

theorem Chip.promiseLost_reg (s : Chip) (part host tag : Nat) :
    (s.promiseLost part host tag).reg (prPg + 0x50) = (s.bump (prPg + 0x50)).reg (prPg + 0x50) := by
  have hlow : belowPt (prPg + 0x50) := .inl (by decide)
  unfold Chip.promiseLost
  rw [Chip.pageEventD_reg _ _ _ _ _ hlow, Chip.notice_reg _ _ _ hlow (by decide) (by decide)]

/-- R251: a response that is lost is counted, and what its request held is free. -/
theorem Chip.loseResp_facts (s : Chip) (r : Req) :
    s.freed (s.loseResp r) r.id ∧ (∀ x ∈ (s.loseResp r).prom.reqs, x.id ≠ r.id) ∧
    (∀ c ∈ (s.loseResp r).prom.eg, c.owner = r.id → c.cell ≤ s.now / 128) ∧
    (∀ c ∈ (s.loseResp r).prom.cl, c.owner = r.id → c.c0 ≤ s.now / 128 ∧ c.c0 + c.n ≤ s.now / 128 + 1) ∧
    (s.loseResp r).reg (prPg + 0x50) = (s.bump (prPg + 0x50)).reg (prPg + 0x50) := by
  unfold Chip.loseResp
  generalize (s.outcome r).getD .fenced = st
  have hs := (s.sends_promiseLost r.part r.host r.tag).trans (Chip.sends_recordOutcome _ r st)
  obtain ⟨h1, h2, h3, h4⟩ := Chip.dropReq_facts hs r.id
  refine ⟨h1, h2, h3, h4, ?_⟩
  rw [← s.promiseLost_reg r.part r.host r.tag]
  exact congrArg (fun m => KMap.at m 0 (prPg + 0x50)) (Chip.recordOutcome_regs ..)

/-! ## A missed deadline (R249) -/

theorem Chip.holderOf_kind (s : Chip) (r : Req) : (∃ c, s.holderOf r = .cluster c) ∨ ∃ n, s.holderOf r = .mc n := by
  unfold Chip.holderOf
  split
  · exact .inl ⟨_, rfl⟩
  · split
    · exact .inr ⟨_, rfl⟩
    · exact .inr ⟨_, rfl⟩

theorem Chip.flipped_outcome {s : Chip} {r : Req} (h : s.outcome r = none) : flipped r = false := by
  unfold Chip.outcome at h
  unfold flipped
  cases hf : r.fixed with
  | some o => simp [hf] at h
  | none =>
    cases hk : r.kind with
    | publish =>
      cases hd : r.dispatched with
      | true => simp [hf, hk, hd] at h
      | false => rfl
    | _ => rfl

/-- The first request of a property that going on keeps is the same one, gone on. -/
theorem Chip.reqsGoOn.find {s t : Chip} (h : s.reqsGoOn t) {p : Req → Bool} (hp : ∀ r r' : Req, r.goesOn r' → p r' = p r)
    {x : Req} (hx : t.prom.reqs.find? p = some x) : ∃ r : Req, s.prom.reqs.find? p = some r ∧ r.goesOn x := by
  obtain ⟨g, hg, hgr⟩ := h.reqs
  rw [hg, List.find?_map, show p ∘ g = p from funext fun r => hp r (g r) (hgr r), Option.map_eq_some_iff] at hx
  obtain ⟨r, hr, rfl⟩ := hx
  exact ⟨r, hr, hgr r⟩

/-- The request that is due at its last cell. -/
def isPending (i : Nat) (r : Req) : Bool := r.id == i && r.promise && !r.sent

theorem isPending_goesOn (i : Nat) (r r' : Req) (h : r.goesOn r') : isPending i r' = isPending i r := by
  rw [h.1]
  rfl

theorem Chip.endReqs_fixes {y : Chip} {i : Nat} {r x : Req} (h : y.prom.reqs.find? (isPending i) = some r)
    (ho : y.outcome r = none) (hx : (y.endReqs (fun x => x.id == i) .fenced).prom.reqs.find? (isPending i) = some x) :
    x.fixed.isSome = true := by
  change (y.prom.reqs.map fun r => if (!r.sent && !flipped r && r.id == i) = true
    then { r with fixed := fixStatus r.fixed y.now .fenced } else r).find? (isPending i) = some x at hx
  rw [List.find?_map, Option.map_eq_some_iff] at hx
  obtain ⟨r', hr', rfl⟩ := hx
  have hsame : (isPending i ∘ fun r : Req => if (!r.sent && !flipped r && r.id == i) = true
      then { r with fixed := fixStatus r.fixed y.now .fenced } else r) = isPending i := by
    funext r
    dsimp only [Function.comp]
    split
    · rfl
    · rfl
  rw [hsame, h] at hr'
  cases hr'
  have hpend := List.find?_some h
  unfold isPending at hpend
  simp only [Bool.and_eq_true, Bool.not_eq_true', beq_iff_eq] at hpend
  obtain ⟨⟨hid, -⟩, hsent⟩ := hpend
  rw [if_pos (by simp [hid, hsent, Chip.flipped_outcome ho])]
  exact fixStatus_isSome _ _ _

section
variable {s : State} {i : Nat} {r : Req}

/-- R249: what a missed deadline leaves before its response goes. -/
def Chip.missed (y : Chip) (i : Nat) (r : Req) : Chip :=
  ((y.endReqs (fun x => x.id == i) .fenced).bump (prPg + 0x4C)).unitError (y.holderOf r) .miss prPg 0 i false

theorem exec_promiseMiss_eq (h : s.sys.chip.prom.reqs.find? (isPending i) = some r) :
    chipNext s (.promiseMiss i) (if s.sys.chip.now < 128 * (s.sys.chip.egCells i).foldl max 0 ∨
        (s.sys.chip.outcome r).isSome = true ∨ (s.sys.chip.egCells i).isEmpty = true then s.sys.chip
      else match (s.sys.chip.missed i r).prom.reqs.find? fun r => r.id == i with
        | none => s.sys.chip.missed i r
        | some r' => if (s.sys.chip.missed i r).portUp r'.port = true then (s.sys.chip.missed i r).sendOutcome r' .fenced
          else s.sys.chip.missed i r) := by
  have hexec : exec (.promiseMiss i) s = execPromiseMiss i s := (rfl)
  have h' : (s.sys.chip.prom.reqs.find? fun r => r.id == i && r.promise && !r.sent) = some r := h
  rw [chipNext, hexec, execPromiseMiss, liftC, h']
  rfl

theorem Chip.missed_facts {y : Chip} (h : y.prom.reqs.find? (isPending i) = some r) (ho : y.outcome r = none)
    (hc : y.isContained (y.holderOf r) = false) (hh : y.handling (y.holderOf r) = none) (hf : y.fenced1 (y.holderOf r) = false) :
    FenceRec.mk (y.holderOf r) .miss y.now false false ∈ (y.missed i r).errs.fences ∧
    ∀ x, (y.missed i r).prom.reqs.find? (isPending i) = some x → x.fixed.isSome = true := by
  have hend : ((y.endReqs (fun x => x.id == i) .fenced).bump (prPg + 0x4C)).errs.fences = y.errs.fences := rfl
  have howner : ((y.endReqs (fun x => x.id == i) .fenced).bump (prPg + 0x4C)).parts.owner = y.parts.owner := rfl
  obtain ⟨hin, hgo⟩ := Chip.unitError_fences (s := (y.endReqs (fun x => x.id == i) .fenced).bump (prPg + 0x4C)) .miss
    prPg 0 i false (y.holderOf_kind r) ((Chip.isContained_congr hend howner _).trans hc)
    ((Chip.handling_congr hend howner _).trans hh) hf
  refine ⟨hin, fun x hx => ?_⟩
  obtain ⟨x', hx', hgoes⟩ := hgo.find (isPending_goesOn i) hx
  exact hgoes.2 (Chip.endReqs_fixes h ho hx')

theorem promiseMiss_fences (h : s.sys.chip.prom.reqs.find? (isPending i) = some r) (heg : s.sys.chip.egCells i ≠ [])
    (ho : s.sys.chip.outcome r = none) (hdue : 128 * (s.sys.chip.egCells i).foldl max 0 ≤ s.sys.chip.now)
    (hc : s.sys.chip.isContained (s.sys.chip.holderOf r) = false) (hh : s.sys.chip.handling (s.sys.chip.holderOf r) = none)
    (hf : s.sys.chip.fenced1 (s.sys.chip.holderOf r) = false) :
    ∃ z, exec (.promiseMiss i) s = .next { s with sys := z } ∧
      (∃ f ∈ z.chip.errs.fences, f.unit = s.sys.chip.holderOf r ∧ f.cause = .miss ∧ f.tx = s.sys.chip.now) ∧
      ∀ x, z.chip.prom.reqs.find? (isPending i) = some x → x.fixed.isSome = true := by
  have hexec := exec_promiseMiss_eq h
  rw [if_neg] at hexec
  · obtain ⟨hin, hfixed⟩ := Chip.missed_facts h ho hc hh hf
    cases hfind : (s.sys.chip.missed i r).prom.reqs.find? fun r => r.id == i with
    | none =>
      rw [hfind] at hexec
      exact ⟨_, hexec, ⟨_, hin, rfl, rfl, rfl⟩, hfixed⟩
    | some r' =>
      rw [hfind] at hexec
      dsimp only at hexec
      by_cases hup : (s.sys.chip.missed i r).portUp r'.port = true
      · rw [if_pos hup] at hexec
        obtain ⟨-, hsent, -, hfences⟩ := (s.sys.chip.missed i r).sendOutcome_facts r' .fenced
        have hid : r'.id = i := by simpa using List.find?_some hfind
        refine ⟨_, hexec, ⟨_, hfences ▸ hin, rfl, rfl, rfl⟩, fun x hx => ?_⟩
        have hp := List.find?_some hx
        unfold isPending at hp
        simp only [Bool.and_eq_true, Bool.not_eq_true', beq_iff_eq] at hp
        obtain ⟨⟨hxid, -⟩, hxs⟩ := hp
        rw [hsent x (List.mem_of_find?_eq_some hx) (hxid.trans hid.symm)] at hxs
        cases hxs
      · rw [if_neg hup] at hexec
        exact ⟨_, hexec, ⟨_, hin, rfl, rfl, rfl⟩, hfixed⟩
  · rintro (hd | hd | hd)
    · omega
    · simp [ho] at hd
    · exact heg (List.isEmpty_iff.1 hd)

theorem promiseMiss_waits (h : s.sys.chip.prom.reqs.find? (isPending i) = some r)
    (hno : s.sys.chip.outcome r ≠ none ∨ s.sys.chip.now < 128 * (s.sys.chip.egCells i).foldl max 0) :
    exec (.promiseMiss i) s = .next s := by
  have hexec := exec_promiseMiss_eq h
  rw [if_pos] at hexec
  · exact hexec
  · obtain hno | hno := hno
    · exact .inr (.inl (Option.isSome_iff_ne_none.2 hno))
    · exact .inl hno

end

/-- Settles O40: a service request is handed over and its digest made; an outcome leaves its port, ends FENCED there
or is lost; a promise without one at its last cell ends and its holder is fenced. -/
theorem promiseLife : Obligations.PromiseLife := by
  unfold Obligations.PromiseLife
  refine fun s i resp vers => ⟨fun r h => svcDispatch_hands h, fun r h => digestReady_holds h, ?_, fun r h heg =>
    ⟨promiseMiss_fences h heg, promiseMiss_waits h⟩⟩
  intro hp r st h ho
  refine ⟨responseSend_sends hp h ho, responseSend_early hp h ho, fun hin hup =>
    ⟨_, responseSend_cut hp h ho hin hup, rfl, Chip.cutReqs_reqs ..⟩, fun hin => ?_⟩
  have hexec := exec_responseSend_eq hp h ho
  rw [not_or, not_or] at hin
  obtain ⟨h1, h2, h3⟩ := hin
  rw [Bool.not_eq_false] at h1 h2
  rw [if_pos ⟨h1, h2, by omega⟩] at hexec
  obtain ⟨hfree, hgone, heg, hcl, hreg⟩ := s.sys.chip.loseResp_facts r
  rw [id_of_find h] at hfree hgone heg hcl
  exact ⟨_, hexec, rfl, hfree, hgone, heg, hcl, hreg⟩

end Sys2Proof.Machine

/-! PROOF of O41 (R193, R207 to R219, R510, R511): the directory: lookups, holders, recalls, DIR_SEL. -/

namespace Sys2Proof.Machine

-- One after the other: side by side the proofs ask for more memory than the check grants.
set_option Elab.async false

open Laws

/-! ## A set that is used (R208) -/

/-- t is s with what is cached changed, and more accesses behind the others. -/
structure Chip.caches (s t : Chip) : Prop where
  rest : t = { s with
    accs := t.accs
    dir := { s.dir with cache := t.dir.cache } }
  accs : ∃ l, t.accs = s.accs ++ l

theorem Chip.caches.refl (s : Chip) : s.caches s := ⟨rfl, [], (List.append_nil _).symm⟩

theorem Chip.caches_put (s : Chip) (m : KMap (List CSet)) : s.caches { s with dir.cache := m } :=
  ⟨rfl, [], (List.append_nil _).symm⟩

theorem Chip.caches.trans {s t u : Chip} (h : s.caches t) (h' : t.caches u) : s.caches u := by
  obtain ⟨l, hl⟩ := h.accs
  obtain ⟨l', hl'⟩ := h'.accs
  exact ⟨by rw [h'.rest, h.rest], l ++ l', by rw [hl', hl, List.append_assoc]⟩

theorem Chip.caches_ite {s t u : Chip} {p : Prop} [Decidable p] (h : s.caches t) (h' : s.caches u) :
    s.caches (if p then t else u) := by
  split <;> assumption

theorem Chip.caches_writeBack (s : Chip) (d : Nat) : s.caches (s.writeBack d) := by
  unfold Chip.writeBack
  exact Chip.caches_ite (.refl s) ⟨rfl, _, rfl⟩

theorem Chip.caches_useSet (s : Chip) (d : Nat) (b : Bool) : s.caches (s.useSet d b) := by
  unfold Chip.useSet
  dsimp only
  cases (KMap.at s.dir.cache [] (d % 256)).find? fun c => c.set == d with
  | some c => exact s.caches_put _
  | none =>
    refine Chip.caches_ite (s.caches_put _) ?_
    cases s.victimWay (KMap.at s.dir.cache [] (d % 256)) with
    | some v => exact Chip.caches_ite ((s.caches_put _).trans (Chip.caches_writeBack _ _)) (s.caches_put _)
    | none => exact Chip.caches_ite (s.caches_writeBack d) (.refl s)

/-- Whose output a RECALL is does not matter to the cache. -/
theorem Chip.useSet_cause (s : Chip) (c : Option Nat) (d : Nat) (b : Bool) :
    Chip.useSet { s with duo.cause := c } d b = { s.useSet d b with duo.cause := c } := by
  have hput : ∀ (m : KMap (List CSet)) (e : Nat), Chip.writeBack { s with
      duo.cause := c
      dir.cache := m } e = { Chip.writeBack { s with dir.cache := m } e with duo.cause := c } := fun m e => by
    unfold Chip.writeBack
    dsimp only
    split
    · rfl
    · rfl
  unfold Chip.useSet
  dsimp only
  cases (KMap.at s.dir.cache [] (d % 256)).find? fun c => c.set == d with
  | some c => rfl
  | none =>
    dsimp only
    split
    · rfl
    · have hv : Chip.victimWay { s with duo.cause := c } (KMap.at s.dir.cache [] (d % 256)) =
          s.victimWay (KMap.at s.dir.cache [] (d % 256)) := rfl
      rw [hv]
      cases s.victimWay (KMap.at s.dir.cache [] (d % 256)) with
      | some v =>
        cases hd : v.dirty with
        | true => simpa [hd] using hput _ _
        | false => simp [hd]
      | none =>
        cases b with
        | true => exact hput s.dir.cache d
        | false => rfl

/-! ## Lookups (R193, R209, R212, R219) -/

theorem Chip.causedBy_eq (s : Chip) (src : BlkSrc) : ∃ c, s.causedBy src = { s with duo.cause := c } := by
  unfold Chip.causedBy
  split
  · split
    · exact ⟨s.duo.cause, rfl⟩
    · exact ⟨_, rfl⟩
  · exact ⟨s.duo.cause, rfl⟩

/-- What a lookup that found its set leaves. -/
theorem Chip.foundSet_rest (s : Chip) (d : Nat) :
    s.foundSet d = { s with
      accs := (s.foundSet d).accs
      dir := { s.dir with
        cache := (s.foundSet d).dir.cache
        got := (s.foundSet d).dir.got } } ∧ ∃ l, (s.foundSet d).accs = s.accs ++ l := by
  have h : s.caches (if s.mapBit d then s.useSet d false else s) := Chip.caches_ite (s.caches_useSet _ _) (.refl s)
  unfold Chip.foundSet
  dsimp only
  generalize (if s.mapBit d then s.useSet d false else s) = t at h
  refine ⟨?_, h.accs⟩
  rw [h.rest]

/-- R212: access a, at its controller, in the place f gives it. -/
def Chip.atMc (v : Chip) (a : Acc) (f : Acc → Acc) : Chip :=
  { v with
    accs := (v.accs.filter fun x => !(x.src == a.src)) ++ [f { a with
      phase := .ready
      checked := true
      lock := false }] }

theorem Chip.toMc_eq {v : Chip} {a : Acc} {l l' : List Acc} (hv : v.accs = l ++ l')
    (h : (l.find? fun x => x.src == a.src) = some a) (f : Acc → Acc) : v.toMc a.src f = v.atMc a f := by
  have hfind : (v.accs.find? fun x => x.src == a.src) = some a := by
    rw [hv, List.find?_append, h]
    rfl
  unfold Chip.toMc
  rw [hfind]
  rfl

section
variable {s : State} {src : BlkSrc} {a : Acc}

theorem dirLookupDone_waits (h : (s.sys.chip.accs.find? fun a => a.src == src && a.phase == .waitDir) = some a)
    (hw : s.sys.chip.dirEarlier a = true ∨ s.sys.chip.dirBusy a.b = true) : exec (.dirLookupDone src) s = .next s := by
  have hexec : exec (.dirLookupDone src) s = execDirLookupDone src s := (rfl)
  rw [hexec, execDirLookupDone, liftC, h]
  dsimp only
  rw [if_pos hw]

theorem dirLookupDone_reads (h : (s.sys.chip.accs.find? fun a => a.src == src && a.phase == .waitDir) = some a)
    (h1 : s.sys.chip.dirEarlier a = false) (h2 : s.sys.chip.dirBusy a.b = false) (h3 : s.sys.chip.needsSet (setOf a.b) = true) :
    chipNext s (.dirLookupDone src) (s.sys.chip.wantSet (setOf a.b) (s.sys.chip.ownerOfAcc a)) := by
  have hexec : exec (.dirLookupDone src) s = execDirLookupDone src s := (rfl)
  rw [chipNext, hexec, execDirLookupDone, liftC, h]
  dsimp only
  rw [if_neg (by simp [h1, h2]), if_pos h3]

/-- R208: the set that is wanted is being read. -/
theorem Chip.wantSet_reads (y : Chip) (d : Nat) (id : Option Nat) : ∃ x ∈ (y.wantSet d id).accs, x.src = .set d .lookup := by
  unfold Chip.wantSet
  dsimp only
  split
  next hany =>
    obtain ⟨x, hx, hsrc⟩ := List.any_eq_true.1 hany
    have hsrc' : x.src = .set d .lookup := by simpa using hsrc
    split
    · refine ⟨_, List.mem_map.2 ⟨x, hx, rfl⟩, ?_⟩
      split
      · exact hsrc'
      · exact hsrc'
    · exact ⟨x, hx, hsrc'⟩
  next => exact ⟨_, List.mem_append_right _ (List.mem_singleton.2 rfl), rfl⟩

theorem dirLookupDone_passes (h : (s.sys.chip.accs.find? fun a => a.src == src && a.phase == .waitDir) = some a)
    (h1 : s.sys.chip.dirEarlier a = false) (h2 : s.sys.chip.dirBusy a.b = false)
    (h3 : s.sys.chip.needsSet (setOf a.b) = false) {u : Chip} (hu : s.sys.chip.foundSet (setOf a.b) = u)
    (hc : u.ctrlCheck a = (true, u)) :
    chipNext s (.dirLookupDone src) { (u.causedBy a.src).dirEvent a with duo.cause := none } := by
  have hexec : exec (.dirLookupDone src) s = execDirLookupDone src s := (rfl)
  rw [chipNext, hexec, execDirLookupDone, liftC, h]
  dsimp only
  rw [if_neg (by simp [h1, h2]), if_neg (ne_true_of_eq_false h3), hu, hc]

/-- R212: an access of a block without an entry, or a read that does not register, goes on. -/
theorem Chip.dirEvent_plain {u : Chip} {l l' : List Acc} (hacc : u.accs = l ++ l')
    (h : (l.find? fun x => x.src == a.src) = some a)
    (hk : a.write = true ∧ u.entOf a.b = none ∨ a.write = false ∧ a.rdc = false) : u.dirEvent a = u.atMc a id := by
  unfold Chip.dirEvent
  obtain ⟨hw, hent⟩ | ⟨hw, hr⟩ := hk
  · rw [if_pos hw, Chip.dirWrite, hent]
    exact Chip.toMc_eq hacc h id
  · rw [if_neg (ne_true_of_eq_false hw), hr]
    exact Chip.toMc_eq hacc h id

/-- R210, R212: a first RDC goes on registered. -/
theorem Chip.dirEvent_registers {u : Chip} {l l' : List Acc} (hacc : u.accs = l ++ l')
    (h : (l.find? fun x => x.src == a.src) = some a) (hw : a.write = false) (hr : a.rdc = true) {host k : Nat}
    (hh : u.accHost a = some host) (hm : u.mayRegister host a.b = true) (ho : u.oldBody a = false)
    (hent : u.entOf a.b = none) (hfree : u.freeEnt (setOf a.b) = some k) :
    u.dirEvent a = ((u.useSet (setOf a.b) true).setEnt k (newEnt a.b host a.excl)).atMc a
      fun a => { a with reg := true } := by
  obtain ⟨l'', hl⟩ := (u.caches_useSet (setOf a.b) true).accs
  unfold Chip.dirEvent
  rw [if_neg (ne_true_of_eq_false hw), hr, if_pos rfl, hh]
  dsimp only
  unfold Chip.dirRdc
  rw [if_neg (by simp [hm, ho]), hent]
  dsimp only
  rw [hfree]
  exact Chip.toMc_eq (l' := l' ++ l'') (by
    show (u.useSet (setOf a.b) true).accs = _
    rw [hl, hacc, List.append_assoc]) h _

end

/-! ## Recalls that end (R213) -/

theorem Chip.caches.trk {s t : Chip} (h : s.caches t) : t.dir.trk = s.dir.trk := by rw [h.rest]

theorem Chip.changeEnt_trk (s : Chip) (k : Nat) (e : DirEnt) : (s.changeEnt k e).dir.trk = s.dir.trk := by
  unfold Chip.changeEnt
  have hset : ∀ u : Chip, (u.setEnt k e).dir.trk = u.dir.trk := fun _ => rfl
  refine (Chip.caches_useSet _ _ _).trk.trans ((hset _).trans ?_)
  split
  · rw [Chip.bump_dir]
  · rfl

theorem Chip.leavePending_trk (s : Chip) (n b : Nat) (h : Option Nat) : (s.leavePending n b h).dir.trk = s.dir.trk := by
  unfold Chip.leavePending
  split
  · split
    · exact s.changeEnt_trk _ _
    · rfl
  · rfl

theorem Chip.clearSet_trk (s : Chip) (d : Nat) : (s.clearSet d).dir.trk = s.dir.trk := by
  unfold Chip.clearSet
  split
  · unfold Chip.finishLost
    dsimp only
    rw [(Chip.reports_fault _ _).dir, Chip.setReg_dir]
  · rfl

theorem Chip.completeRecall_trk (s : Chip) (n : Nat) :
    (s.completeRecall n).dir.trk = s.dir.trk.filter fun x => !(x.rseq == n) := by
  have hgo : ∀ (u : Chip) (b : Bool) (k : Nat), (if b = true then u.bumpBy (dirPg + 0x54) k else u).dir.trk =
      u.dir.trk := by
    intro u b k
    cases b with
    | true => rw [if_pos rfl, Chip.bumpBy_dir]
    | false => rfl
  unfold Chip.completeRecall
  cases hf : s.dir.trk.find? fun t => t.rseq == n with
  | none =>
    rw [List.find?_eq_none] at hf
    exact (List.filter_eq_self.2 fun x hx => by simpa using hf x hx).symm
  | some t =>
    dsimp only
    generalize hu : Chip.recallGone _ _ = u
    have htrk : u.dir.trk = s.dir.trk.filter fun x => !(x.rseq == n) := by
      rw [← hu]
      rfl
    rw [← htrk]
    cases t.after with
    | invalid => exact (hgo _ _ _).trans (u.leavePending_trk ..)
    | owned h => exact (hgo _ _ _).trans (u.leavePending_trk ..)
    | lostSet d => exact (hgo _ _ _).trans (u.clearSet_trk d)
    | _ => exact hgo ..

theorem completeRecalls_trk (l : List Nat) : ∀ s : Chip, (forEach l (fun n s => s.completeRecall n) s).dir.trk =
    s.dir.trk.filter fun x => !l.contains x.rseq := by
  induction l with
  | nil => exact fun s => (List.filter_eq_self.2 fun x _ => rfl).symm
  | cons n l ih =>
    intro s
    rw [forEach_cons, ih, Chip.completeRecall_trk, List.filter_filter]
    refine List.filter_congr fun x _ => ?_
    rw [List.contains_cons, Bool.not_or, Bool.and_comm]

/-- R213: a recall that still has its entry has a holder left. -/
theorem Chip.settleRecalls_holders {s : Chip} {x : Trk} (h : x ∈ s.settleRecalls.dir.trk) :
    x ∈ s.dir.trk ∧ x.holders ≠ [] := by
  unfold Chip.settleRecalls at h
  rw [completeRecalls_trk] at h
  obtain ⟨hx, hn⟩ := List.mem_filter.1 h
  refine ⟨hx, fun hempty => ?_⟩
  simp only [Bool.not_eq_true', List.contains_eq_mem, decide_eq_false_iff_not] at hn
  exact hn (List.mem_map.2 ⟨x, List.mem_filter.2 ⟨hx, by rw [hempty]; rfl⟩, rfl⟩)

theorem Chip.settleRecalls_none {s : Chip} (h : ∀ t ∈ s.dir.trk, t.holders ≠ []) : s.settleRecalls = s := by
  unfold Chip.settleRecalls
  rw [List.filter_eq_nil_iff.2 fun t ht => by simpa using h t ht]
  rfl

section
variable {s : State} {i : Nat}

/-! ## Acknowledgements (R213, R214) -/

theorem exec_recallAck_eq {port : Nat} {pkt : Packet} (hs : s.sys.chip.standsBy = false) (ha : s.sys.chip.addressed = true)
    (hsp : s.sys.chip.spoofed port pkt.hdr.srcHost = false) (hcls : pkt.hdr.cls = 4) :
    chipNext s (.recallAck port pkt) (match s.sys.chip.dir.trk.find?
        fun t => t.rseq == pkt.hdr.rseq && t.holders.contains pkt.hdr.srcHost with
      | some t =>
        if s.sys.chip.now ≤ t.issue + s.sys.chip.rclTmo ∨ s.sys.chip.standsBy = true
        then s.sys.chip.ackHolder t.rseq pkt.hdr.srcHost
        else (s.sys.chip.bump (dirPg + 0x58)).notice dirPg 3
      | none => (s.sys.chip.bump (dirPg + 0x58)).notice dirPg 3) := by
  have hexec : exec (.recallAck port pkt) s = execRecallAck port pkt s := (rfl)
  rw [chipNext, hexec, execRecallAck, liftC, Chip.turnOf_alone hs]
  dsimp only
  rw [if_neg (by simp [ha]), if_neg (ne_true_of_eq_false hsp), if_neg (by simp [hcls])] <;>
    cases s.sys.chip.dir.trk.find? fun t => t.rseq == pkt.hdr.rseq && t.holders.contains pkt.hdr.srcHost <;> rfl

theorem Chip.ackHolder_holders (y : Chip) (n h : Nat) :
    ∀ x ∈ (y.ackHolder n h).dir.trk, x.rseq = n → h ∉ x.holders ∧ x.holders ≠ [] := by
  intro x hx hn
  obtain ⟨hin, hne⟩ := Chip.settleRecalls_holders hx
  refine ⟨fun hh => ?_, hne⟩
  obtain ⟨t, -, rfl⟩ := List.mem_map.1 hin
  by_cases ht : (t.rseq == n) = true
  · rw [if_pos ht] at hh
    simpa using (List.mem_filter.1 hh).2
  · rw [if_neg ht] at hn
    exact ht (beq_iff_eq.2 hn)

/-! ## Timeouts (R213, R215) -/

/-- R215: the only entry that names a host that timed out is fenced at the commit tick 300 ticks ahead. -/
theorem Chip.fenceHost_one {y : Chip} (hs : y.standsBy = false) {h k : Nat} {e : Option Nat} (hn : y.namedBy h e = [k])
    (hlead : y.fld (extPg + 0x78) 15 0 ≤ 300) :
    (y.fenceHost h e).dir.trk = y.dir.trk ∧
    (y.fenceHost h e).rights.commits = y.rights.commits ++ [(y.now + 300, .fence k (some h))] := by
  unfold Chip.fenceHost
  rw [hn]
  dsimp only
  have hr1 := y.reports_countErr dirPg 2 1 h false
  have hreg1 : ∀ a, belowPt a → a < dirPg ∨ dirPg + 0x1000 ≤ a → (y.countErr dirPg 2 1 h false).reg a = y.reg a :=
    fun a ha hd => Chip.countErr_reg _ _ _ _ _ _ ha (by omega) (by omega) (by omega)
  generalize y.countErr dirPg 2 1 h false = u at hr1 hreg1
  generalize hrec : ({ faultOf dirPg 1 2 with
      kind := 10, part := isoPart (u.isoAt k).ct, unit := k, info := h } : FaultRec) = rec
  have hr2 := u.reports_fault rec
  have hreg2 : ∀ a, belowPt a → a < fqPg ∨ fqPg + 0x1000 ≤ a → (u.fault rec).reg a = u.reg a :=
    fun a ha hd => Chip.fault_reg _ _ ha hd
  generalize u.fault rec = v at hr2 hreg2
  have hv := hr1.trans hr2
  have hreg : ∀ a, belowPt a → a < dirPg ∨ dirPg + 0x1000 ≤ a → a < fqPg ∨ fqPg + 0x1000 ≤ a →
      (v.bump (dirPg + 0x60)).reg a = y.reg a := fun a ha hd hf => by
    rw [Chip.reg_bump_ne _ (by omega), hreg2 a ha hf, hreg1 a ha hd]
  have hstands : (v.bump (dirPg + 0x60)).standsBy = false := by
    unfold Chip.standsBy Chip.pairRole Chip.fld at hs ⊢
    rw [hreg _ (.inr (by decide)) (.inr (by decide)) (.inr (by decide))]
    exact hs
  have hfld : (v.bump (dirPg + 0x60)).fld (extPg + 0x78) 15 0 ≤ 300 := by
    unfold Chip.fld at hlead ⊢
    rw [hreg _ (.inl (by decide)) (.inr (by decide)) (.inr (by decide))]
    exact hlead
  have hw : y.Reports (v.bump (dirPg + 0x60)) := hv.trans (v.reports_bump _)
  have hat : (v.bump (dirPg + 0x60)).commitAt = y.now + 300 := by
    unfold Chip.commitAt Chip.clock
    rw [if_neg (ne_true_of_eq_false hstands), hw.now, Nat.max_eq_right hfld]
  show (Chip.fenceEntry { (v.bump (dirPg + 0x60)) with dir.fencing := _ } k (some h)).dir.trk = _ ∧ _
  have htrk : (v.bump (dirPg + 0x60)).dir.trk = y.dir.trk := congrArg Dir.trk hw.dir
  refine ⟨htrk, ?_⟩
  show (v.bump (dirPg + 0x60)).rights.commits ++ [((v.bump (dirPg + 0x60)).commitAt, _)] = _
  rw [hat, hw.rights]

/-- A recall that times out has lost its entry; so has every one without a holder. -/
theorem Chip.recallOver_gone (u : Chip) (i : Nat) :
    ∀ x ∈ ((u.updTrk (fun x => x.rseq == i) fun x => { x with holders := [] }).settleRecalls).dir.trk, x.rseq ≠ i := by
  intro x hx hi
  obtain ⟨hin, hne⟩ := Chip.settleRecalls_holders hx
  obtain ⟨t, -, rfl⟩ := List.mem_map.1 hin
  by_cases ht : (t.rseq == i) = true
  · rw [if_pos ht] at hne
    exact hne rfl
  · rw [if_neg ht] at hi
    exact ht (beq_iff_eq.2 hi)

theorem exec_recallTimeout_eq (h : s.sys.chip.decidesAlone) {t : Trk}
    (ht : (s.sys.chip.dir.trk.find? fun t => t.rseq == i) = some t) :
    chipNext s (.recallTimeout i) (if t.issue + s.sys.chip.rclTmo ≤ s.sys.chip.now then
      ((forEach t.holders (fun h s => s.timeOutHolder t h) s.sys.chip).updTrk (fun x => x.rseq == i)
        fun x => { x with holders := [] }).settleRecalls
      else s.sys.chip) := by
  have hexec : exec (.recallTimeout i) s = execRecallTimeout i s := (rfl)
  rw [chipNext, hexec, execRecallTimeout, liftC, ht]
  dsimp only
  rw [Chip.decides_alone h, Chip.recallOver, ht]

theorem Chip.timeOutHolder_active {y : Chip} (hs : y.standsBy = false) {t : Trk} (hk : t.kind = 0) {h l k : Nat} {x : Lease}
    (hl : y.hostLease h = some (l, x)) (heff : leaseEff y.now x = 1) (hn : y.namedBy h (some (t.what / 32768)) = [k])
    (hlead : y.fld (extPg + 0x78) 15 0 ≤ 300) :
    (y.timeOutHolder t h).dir.trk = y.dir.trk ∧
    (y.timeOutHolder t h).rights.commits = y.rights.commits ++ [(y.now + 300, .fence k (some h))] := by
  unfold Chip.timeOutHolder
  rw [if_neg (by omega), if_pos hk, hl]
  dsimp only
  rw [Chip.leaseNow_alone hs, heff]
  have hreg : ∀ a, dirPg + 0x5C ≠ a → (y.bump (dirPg + 0x5C)).reg a = y.reg a := fun a ha => Chip.reg_bump_ne _ ha
  have hw := y.reports_bump (dirPg + 0x5C)
  show ((y.bump (dirPg + 0x5C)).fenceHost h (some (t.what / 32768))).dir.trk = _ ∧ _
  generalize y.bump (dirPg + 0x5C) = w at hreg hw
  have hstands : w.standsBy = false := by
    unfold Chip.standsBy Chip.pairRole Chip.fld at hs ⊢
    rw [hreg _ (by decide)]
    exact hs
  have hfld : w.fld (extPg + 0x78) 15 0 ≤ 300 := by
    unfold Chip.fld at hlead ⊢
    rw [hreg _ (by decide)]
    exact hlead
  have hnamed : w.namedBy h (some (t.what / 32768)) = [k] := by
    unfold Chip.namedBy at hn ⊢
    rw [hw.rights]
    exact hn
  obtain ⟨h1, h2⟩ := Chip.fenceHost_one hstands hnamed hfld
  rw [hw.dir] at h1
  rw [hw.rights, hw.now] at h2
  exact ⟨h1, h2⟩

theorem recallTimeout_fences (h : s.sys.chip.decidesAlone) {t : Trk}
    (ht : (s.sys.chip.dir.trk.find? fun t => t.rseq == i) = some t) (hdue : t.issue + s.sys.chip.rclTmo ≤ s.sys.chip.now)
    (hk : t.kind = 0) {host l k : Nat} {x : Lease} (hh : t.holders = [host]) (hl : s.sys.chip.hostLease host = some (l, x))
    (heff : leaseEff s.sys.chip.now x = 1) (hn : s.sys.chip.namedBy host (some (t.what / 32768)) = [k])
    (hlead : s.sys.chip.fld (extPg + 0x78) 15 0 ≤ 300) :
    ∃ z, exec (.recallTimeout i) s = .next { s with sys := z } ∧ z.mem = s.sys.mem ∧
      (∀ x ∈ z.chip.dir.trk, x.rseq ≠ i) ∧
      z.chip.rights.commits = s.sys.chip.rights.commits ++ [(s.sys.chip.now + 300, .fence k (some host))] := by
  have hexec := exec_recallTimeout_eq h ht
  rw [if_pos hdue, hh] at hexec
  refine ⟨_, hexec, rfl, Chip.recallOver_gone _ i, ?_⟩
  refine (Chip.recalls_settleRecalls _).commits.trans ?_
  exact (Chip.timeOutHolder_active h.1 hk hl heff hn hlead).2

/-! ## Waiting recalls (R510) -/

theorem forEach_sendRecall_dir (l : List Nat) (n kind off len : Nat) (y : Chip) :
    (forEach l (fun h s => s.sendRecall h n kind off len) y).dir = y.dir := by
  refine forEach_keeps (fun t : Chip => t.dir = y.dir) (fun h _ t ht => ?_) rfl
  rw [← ht]
  unfold Chip.sendRecall Chip.toHost
  dsimp only
  split
  · rfl
  · rw [(Chip.reports_notice _ _ _).dir, Chip.bump_dir]

theorem Chip.startRecall_range (y : Chip) (what count : Nat) (hs : List Nat) (wide : Bool) (after : After) (unres : Bool) :
    (y.startRecall 1 what count hs wide after none unres).2.dir.waits = y.dir.waits ∧
    ∃ t, (y.startRecall 1 what count hs wide after none unres).2.dir.trk = y.dir.trk ++ [t] ∧ t.kind = 1 ∧
      t.what = what ∧ t.count = count ∧ t.holders = hs ∧ t.issue = y.now := by
  have hnone : hs.filter (fun h => !([] : List Nat).contains h) = hs := List.filter_eq_self.2 fun _ _ => rfl
  unfold Chip.startRecall
  dsimp only
  rw [forEach_sendRecall_dir, Chip.setReg_dir]
  exact ⟨rfl, _, rfl, rfl, rfl, rfl, hnone, rfl⟩

/-- R217, R510: a RANGE recall starts, of a host whose lease is live. -/
theorem Chip.issueWait_range {y : Chip} {w : RclWait} (hk : w.kind = 1) (hl : y.leaseLive w.host = true) (hr : w.rev = none)
    (hhold : ∀ t ∈ y.dir.trk, t.holders ≠ []) : (y.issueWait w).dir.waits = y.dir.waits ∧
      ∃ t, (y.issueWait w).dir.trk = y.dir.trk ++ [t] ∧ t.kind = 1 ∧ t.what = w.what ∧
        t.count = w.count ∧ t.holders = [w.host] ∧ t.issue = y.now := by
  have hhosts : [w.host].filter y.leaseLive = [w.host] := by simp [hl]
  have hdef : y.issueWait w = (y.startRecall 1 w.what w.count [w.host] false .range none true).2.settleRecalls := by
    unfold Chip.issueWait
    rw [hr, hk, hhosts]
    rfl
  rw [hdef]
  obtain ⟨hwaits, t, htrk, h1, h2, h3, h4, h5⟩ := y.startRecall_range w.what w.count [w.host] false .range true
  generalize (y.startRecall 1 w.what w.count [w.host] false .range none true).2 = v at hwaits htrk
  have hv : v.settleRecalls = v := Chip.settleRecalls_none fun x hx => by
    rw [htrk] at hx
    obtain hx | hx := List.mem_append.1 hx
    · exact hhold x hx
    · rw [List.mem_singleton.1 hx, h4]
      exact List.cons_ne_nil _ _
  rw [hv]
  exact ⟨hwaits, t, htrk, h1, h2, h3, h4, h5⟩

theorem recallResources_issues {w : RclWait} (h : s.sys.chip.dir.waits[i]? = some w) (hready : s.sys.chip.waitReady w = true)
    (hk : w.kind = 1) (hl : s.sys.chip.leaseLive w.host = true) (hr : w.rev = none)
    (hhold : ∀ t ∈ s.sys.chip.dir.trk, t.holders ≠ []) :
    ∃ z n, exec (.recallResourcesObtained i) s = .next { s with sys := z } ∧ z.mem = s.sys.mem ∧
      z.chip.dir.waits = s.sys.chip.dir.waits.eraseIdx i ∧
      ∃ t, z.chip.dir.trk = s.sys.chip.dir.trk ++ [t] ∧ t.rseq = n ∧ t.kind = 1 ∧ t.what = w.what ∧
        t.count = w.count ∧ t.holders = [w.host] ∧ t.issue = s.sys.chip.now := by
  have hexec : exec (.recallResourcesObtained i) s = execRecallResourcesObtained i s := (rfl)
  rw [execRecallResourcesObtained, liftC, h] at hexec
  dsimp only at hexec
  rw [if_pos hready] at hexec
  obtain ⟨hwaits, t, htrk, h1, h2, h3, h4, h5⟩ := Chip.issueWait_range
    (y := { s.sys.chip with dir.waits := s.sys.chip.dir.waits.eraseIdx i }) hk hl hr hhold
  exact ⟨_, _, hexec, rfl, hwaits, t, htrk, rfl, h1, h2, h3, h4, h5⟩

theorem recallResources_waits {w : RclWait} (h : s.sys.chip.dir.waits[i]? = some w) (hready : s.sys.chip.waitReady w = false) :
    exec (.recallResourcesObtained i) s = .next s := by
  have hexec : exec (.recallResourcesObtained i) s = execRecallResourcesObtained i s := (rfl)
  rw [hexec, execRecallResourcesObtained, liftC, h]
  dsimp only
  rw [if_neg (ne_true_of_eq_false hready)]

/-! ## DIR_SEL (R511) -/

theorem dirSel_starts {v : Word} (h : s.sys.chip.flag (dirPg + 0x84) 0 = false) {b : Nat} (hb : b = Word.bits v 27 0)
    {read : Bool} (hr : read = (s.sys.chip.mapBit (setOf b) && !s.sys.chip.setCached (setOf b))) :
    ∃ z, exec (.dirSel v) s = .next { s with sys := z } ∧
      Sys.onlyRegs { s.sys with chip := { s.sys.chip with
        dir.look := some ⟨b, read, false⟩
        accs := if read then s.sys.chip.accs ++ [s.sys.chip.setAccess (setOf b) .sel none] else s.sys.chip.accs } } z
        [dirPg + 0x70, dirPg + 0x84] ∧
      z.chip.reg (dirPg + 0x70) = BitVec.ofNat 32 b ∧ z.chip.reg (dirPg + 0x84) = 1 := by
  have hexec : exec (.dirSel v) s = execDirSel v s := (rfl)
  rw [execDirSel, liftC, if_neg (ne_true_of_eq_false h)] at hexec
  dsimp only at hexec
  subst hb hr
  refine ⟨_, hexec, ⟨rfl, fun a ha => ?_⟩, ?_, ?_⟩
  · simp only [List.mem_cons, List.not_mem_nil, or_false, not_or] at ha
    exact (Chip.reg_setReg_ne _ _ (Ne.symm ha.2)).trans (Chip.reg_setReg_ne _ _ (Ne.symm ha.1))
  · exact (Chip.reg_setReg_ne _ _ (by decide)).trans (Chip.reg_setReg ..)
  · exact Chip.reg_setReg ..

theorem dirSel_running {v : Word} (h : s.sys.chip.flag (dirPg + 0x84) 0 = true) : exec (.dirSel v) s = .next s := by
  have hexec : exec (.dirSel v) s = execDirSel v s := (rfl)
  rw [hexec, execDirSel, liftC, if_pos h]

theorem dirSelDone_none (h : s.sys.chip.dir.look = none) : exec .dirSelDone s = .next s := by
  have hexec : exec .dirSelDone s = execDirSelDone s := (rfl)
  rw [hexec, execDirSelDone, liftC, h]

theorem dirSelDone_waits {l : DirLook} (h : s.sys.chip.dir.look = some l) (hw : l.wait = true) :
    exec .dirSelDone s = .next s := by
  have hexec : exec .dirSelDone s = execDirSelDone s := (rfl)
  rw [hexec, execDirSelDone, liftC, h]
  dsimp only
  rw [if_pos hw]

/-- R511: the four words of an entry, shown. -/
def Chip.showsEnt (y : Chip) (ws : List Nat) : Chip :=
  forEach (List.range 4) (fun i s => s.setReg (dirPg + 0x74 + 4 * i) (BitVec.ofNat 32 (ws.getD i 0))) y

theorem Chip.showsEnt_eq (y : Chip) (ws : List Nat) : y.showsEnt ws =
    (((y.setReg (dirPg + 0x74) (BitVec.ofNat 32 (ws.getD 0 0))).setReg (dirPg + 0x78) (BitVec.ofNat 32 (ws.getD 1 0))).setReg
      (dirPg + 0x7C) (BitVec.ofNat 32 (ws.getD 2 0))).setReg (dirPg + 0x80) (BitVec.ofNat 32 (ws.getD 3 0)) := by
  unfold Chip.showsEnt
  rw [show List.range 4 = [0, 1, 2, 3] from rfl, forEach_cons, forEach_cons, forEach_cons, forEach_cons]
  rfl

theorem Chip.showsEnt_rest (y : Chip) (ws : List Nat) : y.showsEnt ws = { y with regs := (y.showsEnt ws).regs } := by
  rw [y.showsEnt_eq]
  generalize dirPg + 0x74 = a0, dirPg + 0x78 = a1, dirPg + 0x7C = a2, dirPg + 0x80 = a3
  rfl

theorem Chip.showsEnt_reg_ne (y : Chip) (ws : List Nat) {a : Nat} (h0 : a ≠ dirPg + 0x74) (h1 : a ≠ dirPg + 0x78)
    (h2 : a ≠ dirPg + 0x7C) (h3 : a ≠ dirPg + 0x80) : (y.showsEnt ws).reg a = y.reg a := by
  rw [y.showsEnt_eq, Chip.reg_setReg_ne _ _ h3.symm, Chip.reg_setReg_ne _ _ h2.symm, Chip.reg_setReg_ne _ _ h1.symm,
    Chip.reg_setReg_ne _ _ h0.symm]

theorem Chip.showsEnt_reg (y : Chip) (ws : List Nat) {k : Nat} (h : k < 4) :
    (y.showsEnt ws).reg (dirPg + 0x74 + 4 * k) = BitVec.ofNat 32 (ws.getD k 0) := by
  rw [y.showsEnt_eq]
  match k, h with
  | 0, _ => rw [Chip.reg_setReg_ne _ _ (by decide), Chip.reg_setReg_ne _ _ (by decide), Chip.reg_setReg_ne _ _ (by decide),
      Chip.reg_setReg]
  | 1, _ => exact ((Chip.reg_setReg_ne _ _ (by decide)).trans (Chip.reg_setReg_ne _ _ (by decide))).trans (Chip.reg_setReg ..)
  | 2, _ => exact (Chip.reg_setReg_ne _ _ (by decide)).trans (Chip.reg_setReg ..)
  | 3, _ => exact Chip.reg_setReg ..

/-- R511: what a DIR_SEL lookup shows of the entry it found. -/
def Chip.showsFound (y : Chip) (o : Option DirEnt) : Chip :=
  (Chip.showsEnt { y with dir.look := none } (match o with | some e => entWords e | none => [0, 0, 0, 0])).setReg
    (dirPg + 0x84) (if o.isSome then 2 else 0)

theorem exec_dirSelDone_eq {l : DirLook} (h : s.sys.chip.dir.look = some l) (hw : l.wait = false) :
    chipNext s .dirSelDone (s.sys.chip.showsFound
      (if l.bad then s.sys.chip.evictedEnt l.b else s.sys.chip.findEnt l.b)) := by
  have hexec : exec .dirSelDone s = execDirSelDone s := (rfl)
  rw [chipNext, hexec, execDirSelDone, liftC, h]
  dsimp only
  rw [if_neg (ne_true_of_eq_false hw)]
  have hfound : (if l.bad = true then Chip.evictedEnt { s.sys.chip with dir.look := none } l.b
      else Chip.findEnt { s.sys.chip with dir.look := none } l.b) =
      if l.bad then s.sys.chip.evictedEnt l.b else s.sys.chip.findEnt l.b := by
    split
    · rfl
    · rfl
  rw [hfound]
  cases (if l.bad then s.sys.chip.evictedEnt l.b else s.sys.chip.findEnt l.b) <;> rfl

theorem dirSelDone_shows {l : DirLook} (h : s.sys.chip.dir.look = some l) (hw : l.wait = false) {o : Option DirEnt}
    (ho : o = if l.bad then s.sys.chip.evictedEnt l.b else s.sys.chip.findEnt l.b) :
    ∃ z, exec .dirSelDone s = .next { s with sys := z } ∧
      Sys.onlyRegs { s.sys with chip := { s.sys.chip with dir.look := none } } z
        [dirPg + 0x74, dirPg + 0x78, dirPg + 0x7C, dirPg + 0x80, dirPg + 0x84] ∧
      (∀ e, o = some e → z.chip.reg (dirPg + 0x84) = 2 ∧
        ∀ k < 4, z.chip.reg (dirPg + 0x74 + 4 * k) = BitVec.ofNat 32 ((entWords e).getD k 0)) ∧
      (o = none → z.chip.reg (dirPg + 0x84) = 0 ∧
        ∀ k < 4, z.chip.reg (dirPg + 0x74 + 4 * k) = 0) := by
  have hexec := exec_dirSelDone_eq h hw
  rw [← ho] at hexec
  have hlast : ∀ (u : Chip) (w : Word), ∀ k < 4, (u.setReg (dirPg + 0x84) w).reg (dirPg + 0x74 + 4 * k) =
      u.reg (dirPg + 0x74 + 4 * k) := fun u w k hk => Chip.reg_setReg_ne _ _ (by omega)
  refine ⟨_, hexec, ⟨?_, fun a ha => ?_⟩, fun e he => ⟨?_, fun k hk => ?_⟩, fun he => ⟨?_, fun k hk => ?_⟩⟩
  · unfold Chip.showsFound
    rw [Chip.showsEnt_rest]
    generalize dirPg + 0x84 = a
    rfl
  · simp only [List.mem_cons, List.not_mem_nil, or_false, not_or] at ha
    obtain ⟨h0, h1, h2, h3, h4⟩ := ha
    exact (Chip.reg_setReg_ne _ _ (Ne.symm h4)).trans (Chip.showsEnt_reg_ne _ _ h0 h1 h2 h3)
  · subst he
    exact Chip.reg_setReg ..
  · subst he
    exact (hlast _ _ k hk).trans (Chip.showsEnt_reg _ _ hk)
  · subst he
    exact Chip.reg_setReg ..
  · subst he
    refine (hlast _ _ k hk).trans ((Chip.showsEnt_reg _ _ hk).trans ?_)
    match k, hk with
    | 0, _ => rfl
    | 1, _ => rfl
    | 2, _ => rfl
    | 3, _ => rfl

end

/-- Settles O41: lookups by turn, set, check and event; recalls by their holders; the DIR_SEL lookup. -/
theorem directoryWork : Obligations.DirectoryWork := by
  unfold Obligations.DirectoryWork
  refine ⟨fun s src a port i pkt => ⟨?_, ?_, ?_, ?_, ?_, ?_⟩, fun s v =>
    ⟨fun h => dirSel_starts h rfl rfl, dirSel_running, fun l => dirSelDone_waits, fun l h hw => dirSelDone_shows h hw rfl,
      dirSelDone_none⟩⟩
  · exact fun ⟨h, _⟩ hw => dirLookupDone_waits h hw
  · exact fun ⟨h, _⟩ h1 h2 h3 => ⟨dirLookupDone_reads h h1 h2 h3, Chip.wantSet_reads ..⟩
  · rintro ⟨h, hfirst⟩ h1 h2 h3 hc
    have hsrc : a.src = src := by simpa using List.find?_some hfirst
    subst hsrc
    obtain ⟨hrest, l, hl⟩ := s.sys.chip.foundSet_rest (setOf a.b)
    have hexec := dirLookupDone_passes h h1 h2 h3 rfl hc
    dsimp only
    generalize s.sys.chip.foundSet (setOf a.b) = u at hexec hc hrest hl
    obtain ⟨c, hcause⟩ := u.causedBy_eq a.src
    rw [hcause] at hexec
    refine ⟨fun hw hr => ?_, fun hw hent => ?_, fun host k hw hr hh hm ho hent hfree => ?_⟩
    · rw [Chip.dirEvent_plain (u := { u with duo.cause := c }) hl hfirst (.inr ⟨hw, hr⟩)] at hexec
      exact hexec
    · rw [Chip.dirEvent_plain (u := { u with duo.cause := c }) hl hfirst (.inl ⟨hw, by rw [hrest]; exact hent⟩)] at hexec
      exact hexec
    · rw [Chip.dirEvent_registers (u := { u with duo.cause := c }) hl hfirst hw hr (by rw [hrest]; exact hh)
        (by rw [hrest]; exact hm) (by rw [hrest]; exact ho) (by rw [hrest]; exact hent) (by rw [hrest]; exact hfree),
        Chip.useSet_cause] at hexec
      exact hexec
  · intro hs ha hsp hcls
    have hexec := exec_recallAck_eq hs ha hsp hcls
    refine ⟨fun t ht hin => ?_, fun hnone => ?_⟩
    · rw [ht] at hexec
      dsimp only at hexec
      rw [if_pos (.inl hin)] at hexec
      exact ⟨_, hexec, rfl, s.sys.chip.ackHolder_holders t.rseq pkt.hdr.srcHost⟩
    · rw [hnone] at hexec
      refine ⟨_, hexec, rfl, ?_, ?_⟩
      · exact (Chip.reports_notice _ _ _).dir.trans (Chip.bump_dir ..)
      · exact Chip.notice_reg _ _ _ (.inl (by decide)) (by decide) (by decide)
  · intro h t ht
    refine ⟨fun hdue hk host l k x hh hl heff hn hlead => recallTimeout_fences h ht hdue hk hh hl heff hn hlead, fun hlate => ?_⟩
    have hexec := exec_recallTimeout_eq h ht
    rw [if_neg (by omega)] at hexec
    exact hexec
  · exact fun w h => ⟨recallResources_issues h, recallResources_waits h⟩

end Sys2Proof.Machine

/-! PROOF of O42 (R222, R225, R226): published regions. -/

namespace Sys2Proof.Machine

-- One after the other: side by side the proofs ask for more memory than the check grants.
set_option Elab.async false

open Laws

/-! ## Writes to one key, one after the other -/

theorem del_del {α : Type} (m : KMap α) (i : Nat) : (m.del i).del i = m.del i := by
  induction m with
  | nil => rfl
  | cons e m ih =>
    obtain ⟨k, v⟩ := e
    by_cases hk : k = i
    · simp [KMap.del, hk, ih]
    · simp [KMap.del, hk, ih]

theorem del_ins {α : Type} (m : KMap α) (i : Nat) (x : α) : (m.ins i x).del i = m.del i := by
  induction m with
  | nil => simp [KMap.ins, KMap.del]
  | cons e m ih =>
    obtain ⟨k, v⟩ := e
    rw [KMap.ins]
    split
    · simp [KMap.del]
    · split
      next hk => simp [KMap.del, hk]
      next hk => simp [KMap.del, hk, ih]

/-- A key that is written and removed is removed. -/
theorem del_put {α : Type} [DecidableEq α] {d : α} (m : KMap α) (i : Nat) (x : α) : (m.put d i x).del i = m.del i := by
  unfold KMap.put
  split
  · exact del_del m i
  · exact del_ins m i x

theorem ins_ins {α : Type} (m : KMap α) (i : Nat) (x y : α) : (m.ins i x).ins i y = m.ins i y := by
  induction m with
  | nil => simp [KMap.ins]
  | cons e m ih =>
    obtain ⟨k, v⟩ := e
    by_cases h : i < k
    · simp [KMap.ins, h]
    · by_cases hk : k = i
      · simp [KMap.ins, hk]
      · simp [KMap.ins, h, hk, ih]

/-- Of two writes to a key, the first of which lists it, the second counts. -/
theorem put_put {α : Type} [DecidableEq α] {d : α} (m : KMap α) (i : Nat) {x : α} (y : α)
    (h : x ≠ d) : (m.put d i x).put d i y = m.put d i y := by
  unfold KMap.put
  rw [if_neg h, del_ins, ins_ins]

/-! ## A region (R222) -/

theorem Chip.region_setRegion (s : Chip) (r : Nat) (g : Region) (i : Nat) :
    (s.setRegion r g).region i = if i = r then g else s.region i := by
  by_cases h : i = r
  · rw [if_pos h, h]
    exact at_put_self ..
  · rw [if_neg h]
    exact at_put_ne _ _ (Ne.symm h)

/-- Ending the requests that satisfy nothing ends none. -/
theorem Chip.endReqs_none (s : Chip) {p : Req → Bool} (h : ∀ r, p r = false) (st : Status) : s.endReqs p st = s := by
  have hreqs : updWhere s.prom.reqs (fun r => !r.sent && !flipped r && p r)
      (fun r => { r with fixed := fixStatus r.fixed s.now st }) = s.prom.reqs :=
    (List.map_congr_left fun r _ => if_neg (by simp [h r])).trans (List.map_id _)
  have hids : s.prom.reqs.filter (fun r => !r.sent && !flipped r && p r) = [] :=
    List.filter_eq_nil_iff.2 fun r _ => by simp [h r]
  unfold Chip.endReqs Chip.updReqs
  dsimp only
  rw [hids, hreqs]
  have haccs : s.accs.filter (fun a => match a.src with
      | .req id _ => !((([] : List Req).map (·.id)).contains id && a.phase != .served)
      | _ => true) = s.accs := List.filter_eq_self.2 fun a _ => by cases a.src <;> rfl
  exact congrArg (fun l => ({ s with accs := l } : Chip)) haccs

/-- R222: what region r leaves when it is removed. -/
def Chip.withoutRegion (s : Chip) (r : Nat) : Chip :=
  { s with
    regions := KMap.del s.regions r
    prom.ch := s.prom.ch.filter fun c => !(c.owner == 2 ^ 32 + r)
    prom.win := s.prom.win.filter fun w => !(w.b == regionWin r)
    accs := s.accs.filter fun a => match a.src with
      | .region i _ => !(i == r)
      | _ => true }

theorem Chip.removeRegion_idle {s : Chip} {r : Nat} (hq : (KMap.at s.regions {} r).queue = []) :
    s.removeRegion r = match (KMap.at s.regions {} r).deleting with
      | some q => ((s.bumpBy (pubPg + 0x6C) 0).withoutRegion r).cmdAnswer q .ok 0
      | none => (s.bumpBy (pubPg + 0x6C) 0).withoutRegion r := by
  unfold Chip.removeRegion
  dsimp only
  rw [hq, s.endReqs_none (p := fun r => ([] : List Pub).any fun p => p.req == r.id) (fun _ => rfl)]
  cases (KMap.at s.regions {} r).deleting <;> rfl

theorem Chip.bumpBy_zero (s : Chip) (a b : Nat) : (s.bumpBy a 0).reg b = s.reg b := by
  by_cases h : a = b
  · subst h
    refine BitVec.eq_of_toNat_eq ?_
    rw [Chip.reg_bumpBy]
    have := (s.reg a).isLt
    omega
  · exact Chip.reg_bumpBy_ne _ _ h

theorem Chip.region_withoutRegion (s : Chip) (r : Nat) : (s.withoutRegion r).region r = {} := by
  unfold Chip.region Chip.withoutRegion KMap.at
  dsimp only
  rw [at?_del_self]
  rfl

/-! ## Creation and deletion (R222) -/

section
variable {s : State} {q : CmdReq} {r base shadow count version : Nat}

/-- R222: a region as a command creates it. -/
def newRegion (q : CmdReq) (p base shadow count version : Nat) : Region :=
  { valid := true, base := base / 2048, shadow := shadow / 2048, count := count, part := p, version := version, state := 3
    creating := some q }

theorem exec_pubCreate_eq (base shadow count version : Nat) (h : s.sys.chip.takesCmd q false) :
    chipNext s (.pubCreate q base shadow count version)
      (if s.sys.chip.retiring = true then (s.sys.chip.leaveIngress q).cmdAnswer q .noAccess 0
      else match s.sys.chip.pubOk (s.sys.chip.sessPart q.session) base shadow count, s.sys.chip.freeRegion with
      | true, some i =>
        (Chip.cmdPending ((s.sys.chip.leaveIngress q).setRegion i
          (newRegion q (s.sys.chip.sessPart q.session) base shadow count version)) q).commitLater
          ((s.sys.chip.leaveIngress q).setRegion i
            (newRegion q (s.sys.chip.sessPart q.session) base shadow count version)).commitAt (.pub q i)
      | _, _ => (s.sys.chip.leaveIngress q).cmdAnswer q .noAccess 0) := by
  have hexec : exec (.pubCreate q base shadow count version) s = execPubCreate q base shadow count version s := (rfl)
  rw [chipNext, hexec, execPubCreate, liftC]
  simp only [Chip.grantCommand_eq h]
  have hok : (s.sys.chip.leaveIngress q).pubOk = s.sys.chip.pubOk := rfl
  have hfree : (s.sys.chip.leaveIngress q).freeRegion = s.sys.chip.freeRegion := rfl
  split
  · rfl
  · rw [hok, hfree] <;>
      cases s.sys.chip.pubOk (s.sys.chip.sessPart q.session) base shadow count <;> cases s.sys.chip.freeRegion <;> rfl

theorem Chip.told_setRegions {y t : Chip} (h : y.Told t) (m : KMap Region) :
    Chip.Told { y with regions := m } { t with regions := m } :=
  ⟨by conv => lhs; rw [h.rest], h.regs⟩

theorem Chip.told_withoutRegion {y t : Chip} (h : y.Told t) (r : Nat) : (y.withoutRegion r).Told (t.withoutRegion r) := by
  refine ⟨?_, h.regs⟩
  unfold Chip.withoutRegion
  conv => lhs; rw [h.rest]

theorem Chip.told_bumpZero (y : Chip) (a : Nat) : y.Told (y.bumpBy a 0) := ⟨rfl, fun b _ => y.bumpBy_zero a b⟩

theorem pubCreate_pends (h : s.sys.chip.takesCmd q false) (hret : s.sys.chip.retiring = false)
    (hok : s.sys.chip.pubOk (s.sys.chip.sessPart q.session) base shadow count = true)
    (hfree : s.sys.chip.freeRegion = some r) :
    Pends (.pubCreate q base shadow count version) s { s.sys.chip with
      regions := KMap.put s.sys.chip.regions {} r (newRegion q (s.sys.chip.sessPart q.session) base shadow count version)
      rights.commits := s.sys.chip.rights.commits ++ [(s.sys.chip.commitAt, .pub q r)] } q := by
  have hexec := exec_pubCreate_eq base shadow count version h
  rw [if_neg (ne_true_of_eq_false hret), hok, hfree] at hexec
  dsimp only at hexec
  generalize newRegion q (s.sys.chip.sessPart q.session) base shadow count version = g at hexec
  have htold := ((s.sys.chip.setRegion r g).told_leaveIngress q).trans (Chip.told_cmdPending _ q)
  have hpend := Chip.pendingIs_cmdPending ((s.sys.chip.setRegion r g).leaveIngress q) q
  obtain ⟨e, he⟩ := (s.sys.chip.setRegion r g).cmdPending_eth q
  have he' : Chip.cmdPending ((s.sys.chip.leaveIngress q).setRegion r g) q = { s.sys.chip.setRegion r g with eth := e } := he
  rw [he'] at hexec
  rw [he] at htold hpend
  exact Pends.intro hexec (Chip.told_setRights htold { s.sys.chip.rights with
    commits := s.sys.chip.rights.commits ++ [(s.sys.chip.commitAt, .pub q r)] }) hpend

theorem pubCreate_refused (h : s.sys.chip.takesCmd q false)
    (hno : s.sys.chip.pubOk (s.sys.chip.sessPart q.session) base shadow count = false ∨ s.sys.chip.freeRegion = none) :
    Answers (.pubCreate q base shadow count version) s s.sys.chip q .noAccess 0 := by
  have hexec := exec_pubCreate_eq base shadow count version h
  by_cases hret : s.sys.chip.retiring = true
  · rw [if_pos hret] at hexec
    exact answers_of_exec hexec
  · rw [if_neg hret] at hexec
    obtain hno | hno := hno
    · rw [hno] at hexec
      exact answers_of_exec hexec
    · rw [hno] at hexec
      cases hok : s.sys.chip.pubOk (s.sys.chip.sessPart q.session) base shadow count with
      | true => rw [hok] at hexec; exact answers_of_exec hexec
      | false => rw [hok] at hexec; exact answers_of_exec hexec

theorem exec_pubDelete_eq (r : Nat) (h : s.sys.chip.takesCmd q false) {g : Region} (hg : s.sys.chip.region r = g) :
    chipNext s (.pubDelete q r) (if g.valid = true ∧ g.created = true ∧ g.part = s.sys.chip.sessPart q.session ∧ g.state = 0 ∧
        g.queue.isEmpty = true then
      (Chip.cmdPending ((s.sys.chip.leaveIngress q).setRegion r { g with deleting := some q }) q).deleteRegion r
      else (s.sys.chip.leaveIngress q).cmdAnswer q .noAccess 0) := by
  have hexec : exec (.pubDelete q r) s = execPubDelete q r s := (rfl)
  have hreg : (s.sys.chip.leaveIngress q).region r = g := hg
  rw [chipNext, hexec, execPubDelete, liftC]
  simp only [Chip.command_eq h]
  rw [hreg]

/-- R222: region r with the command that deletes it. -/
theorem Chip.pendDelete_eth (y : Chip) (q : CmdReq) (r : Nat) (g : Region) :
    ∃ e, Chip.cmdPending ((y.leaveIngress q).setRegion r g) q = { y.setRegion r g with eth := e } :=
  (y.setRegion r g).cmdPending_eth q

theorem pubDelete_copies (h : s.sys.chip.takesCmd q false) {g : Region} (hg : s.sys.chip.region r = g) (hv : g.valid = true)
    (hc : g.created = true) (hp : g.part = s.sys.chip.sessPart q.session) (hst : g.state = 0) (hq : g.queue = [])
    (hcur : g.cur = 1) :
    Pends (.pubDelete q r) s { s.sys.chip with regions := KMap.put s.sys.chip.regions {} r { g with
      deleting := some q
      delCopy := true
      state := 3
      copyPos := 0 } } q := by
  have hexec := exec_pubDelete_eq r h hg
  rw [if_pos ⟨hv, hc, hp, hst, by rw [hq]; rfl⟩] at hexec
  generalize hg' : ({ g with deleting := some q } : Region) = g' at hexec
  have htold := ((s.sys.chip.setRegion r g').told_leaveIngress q).trans (Chip.told_cmdPending _ q)
  have hpend := Chip.pendingIs_cmdPending ((s.sys.chip.setRegion r g').leaveIngress q) q
  obtain ⟨e, he⟩ := (s.sys.chip.setRegion r g').cmdPending_eth q
  have he' : Chip.cmdPending ((s.sys.chip.leaveIngress q).setRegion r g') q = { s.sys.chip.setRegion r g' with eth := e } := he
  rw [he'] at hexec
  rw [he] at htold hpend
  have hat : KMap.at (KMap.put s.sys.chip.regions {} r g') {} r = g' := at_put_self ..
  have hdel : Chip.deleteRegion { s.sys.chip.setRegion r g' with eth := e } r = { s.sys.chip with
      eth := e
      regions := KMap.put s.sys.chip.regions {} r { g' with
        delCopy := true
        state := 3
        copyPos := 0 } } := by
    unfold Chip.deleteRegion
    show (if (KMap.at (KMap.put s.sys.chip.regions {} r g') {} r).cur = 1 then ({ s.sys.chip with
      eth := e
      regions := KMap.put (KMap.put s.sys.chip.regions {} r g') {} r { KMap.at (KMap.put s.sys.chip.regions {} r g') {} r with
        delCopy := true
        state := 3
        copyPos := 0 } } : Chip) else _) = _
    rw [hat, if_pos (by rw [← hg']; exact hcur), put_put _ _ _ (by
      rw [← hg']
      exact fun hno => absurd (congrArg Region.valid hno) (by simp [hv]))]
  rw [hdel] at hexec
  subst hg'
  exact Pends.intro hexec (Chip.told_setRegions htold _) (Chip.pendingIs_congr rfl hpend)

/-- R222: the slots of a region that is READY in body 0 are free, and its entry is too. -/
theorem pubDelete_removes (h : s.sys.chip.takesCmd q false) {g : Region} (hg : s.sys.chip.region r = g) (hv : g.valid = true)
    (hc : g.created = true) (hp : g.part = s.sys.chip.sessPart q.session) (hst : g.state = 0) (hq : g.queue = [])
    (hcur : g.cur = 0) : Answers (.pubDelete q r) s (s.sys.chip.withoutRegion r) q .ok 0 := by
  have hexec := exec_pubDelete_eq r h hg
  rw [if_pos ⟨hv, hc, hp, hst, by rw [hq]; rfl⟩] at hexec
  generalize hg' : ({ g with deleting := some q } : Region) = g' at hexec
  obtain ⟨e, he⟩ := s.sys.chip.pendDelete_eth q r g'
  have hpending := ((s.sys.chip.setRegion r g').told_leaveIngress q).trans (Chip.told_cmdPending _ q)
  have he' : Chip.cmdPending ((s.sys.chip.setRegion r g').leaveIngress q) q = { s.sys.chip.setRegion r g' with eth := e } := he
  rw [he'] at hpending
  rw [he] at hexec
  have hat : KMap.at ({ s.sys.chip.setRegion r g' with eth := e } : Chip).regions {} r = g' := at_put_self ..
  have hdel : Chip.deleteRegion { s.sys.chip.setRegion r g' with eth := e } r =
      ((Chip.bumpBy { s.sys.chip.setRegion r g' with eth := e } (pubPg + 0x6C) 0).withoutRegion r).cmdAnswer q .ok 0 := by
    unfold Chip.deleteRegion
    dsimp only
    rw [if_neg (by rw [hat, ← hg']; exact fun h1 => by simp [hcur] at h1), Chip.removeRegion_idle (by rw [hat, ← hg']; exact hq),
      hat, ← hg']
  rw [hdel] at hexec
  have hsame : (s.sys.chip.setRegion r g').withoutRegion r = s.sys.chip.withoutRegion r := by
    unfold Chip.withoutRegion
    have hregions : (s.sys.chip.setRegion r g').regions = KMap.put s.sys.chip.regions {} r g' := rfl
    rw [hregions, del_put]
    rfl
  have htold := Chip.told_withoutRegion (hpending.trans (Chip.told_bumpZero _ (pubPg + 0x6C))) r
  rw [hsame] at htold
  exact Answers.intro hexec (htold.trans (Chip.told_cmdAnswer ..)) (Chip.answeredIs_cmdAnswer ..)

theorem pubDelete_refused (h : s.sys.chip.takesCmd q false) {g : Region} (hg : s.sys.chip.region r = g)
    (hno : g.valid = false ∨ g.created = false ∨ g.part ≠ s.sys.chip.sessPart q.session ∨ g.state ≠ 0 ∨ g.queue ≠ []) :
    Answers (.pubDelete q r) s s.sys.chip q .noAccess 0 := by
  have hexec := exec_pubDelete_eq r h hg
  rw [if_neg] at hexec
  · exact answers_of_exec hexec
  · rintro ⟨h1, h2, h3, h4, h5⟩
    obtain hno | hno | hno | hno | hno := hno
    · simp [hno] at h1
    · simp [hno] at h2
    · exact hno h3
    · exact hno h4
    · exact hno (List.isEmpty_iff.1 h5)

theorem exec_pubCreateReady_eq (r : Nat) {g : Region} (hg : s.sys.chip.region r = g) (hc : g.creating = some q) :
    chipNext s (.pubCreateReady r) (if g.created = true ∧ g.count ≤ g.copyPos
      then (s.sys.chip.setRegion r { g with state := 0, creating := none, copyPos := 0 }).cmdAnswer q .ok r
      else s.sys.chip) := by
  have hexec : exec (.pubCreateReady r) s = execPubCreateReady r s := (rfl)
  rw [chipNext, hexec, execPubCreateReady, liftC]
  dsimp only
  rw [hg, hc]

/-! ## The start of a publish (R225) -/

/-- What a publish of request x, for entry u of the region's queue, checks before it starts. -/
theorem exec_publishStart_eq {g : Region} (hg : s.sys.chip.region r = g) {u : Pub} {l : List Pub} (hq : g.queue = u :: l)
    {x : Req} (hx : (s.sys.chip.prom.reqs.find? fun x => x.id == u.req) = some x) (hfix : x.fixed = none)
    (hsent : x.sent = false) (hc : g.created = true) (hst : g.state = 0) :
    chipNext s (.publishStart r) (if g.version ≠ u.base then
        ((s.sys.chip.setRegion r (popPub g)).bump (pubPg + 0x64)).endReqs (fun x => x.id == u.req) .versionConflict
      else
        let bs := (List.range u.n).map (g.base + u.k0 + ·)
        if s.sys.chip.pubReady x bs = false then s.sys.chip
        else if (s.sys.chip.pubSets bs).isEmpty = false then
          forEach (s.sys.chip.pubSets bs) (fun d y => y.wantSet d (some x.id)) s.sys.chip
        else if bs.all (s.sys.chip.ctrlGrants x) = false ∧ (s.sys.chip.gensFenced x = true ∨ s.sys.chip.standsBy = false) then
          let y := (s.sys.chip.setRegion r (popPub g)).bump (extPg + 0x7C)
          (if s.sys.chip.gensFenced x then y else y.isoMismatch x (g.base / 32768)).endReqs
            (fun x => x.id == u.req) .noAccess
        else s.sys.chip.runPub r g u x bs) := by
  have hexec : exec (.publishStart r) s = execPublishStart r s := (rfl)
  rw [chipNext, hexec, execPublishStart, liftC]
  dsimp only
  rw [hg, hq]
  dsimp only
  rw [if_neg (by simp [hc, hst]), hx]
  dsimp only
  rw [if_neg (by simp [hfix, hsent])]
  split
  · rfl
  · split
    · rfl
    · split
      · rfl
      · split
        · rfl
        · rfl

theorem publishStart_conflict {g : Region} (hg : s.sys.chip.region r = g) {u : Pub} {l : List Pub} (hq : g.queue = u :: l)
    {x : Req} (hx : (s.sys.chip.prom.reqs.find? fun x => x.id == u.req) = some x) (hfix : x.fixed = none)
    (hsent : x.sent = false) (hc : g.created = true) (hst : g.state = 0) (hv : g.version ≠ u.base) :
    ∃ z, exec (.publishStart r) s = .next { s with sys := z } ∧
      (z.mem = s.sys.mem ∧ ∀ i, z.chip.region i = if i = r then { g with queue := l } else s.sys.chip.region i) ∧
      (flipped x = false → (z.chip.prom.reqs.find? fun x => x.id == u.req) =
        some { x with fixed := some (s.sys.chip.now, .versionConflict) }) := by
  have hexec := exec_publishStart_eq hg hq hx hfix hsent hc hst
  rw [if_pos hv] at hexec
  refine ⟨_, hexec, ⟨rfl, fun i => ?_⟩, fun hf => ?_⟩
  · have hpop : popPub g = { g with queue := l } := by
      unfold popPub
      rw [hq]
      rfl
    exact (s.sys.chip.region_setRegion r (popPub g) i).trans (by rw [hpop])
  · show ((s.sys.chip.prom.reqs.map fun r => if (!r.sent && !flipped r && r.id == u.req) = true
      then { r with fixed := fixStatus r.fixed s.sys.chip.now .versionConflict } else r).find? _) = _
    rw [List.find?_map]
    have hp : ((fun x : Req => x.id == u.req) ∘ fun r => if (!r.sent && !flipped r && r.id == u.req) = true
        then { r with fixed := fixStatus r.fixed s.sys.chip.now .versionConflict } else r) = fun x => x.id == u.req := by
      funext r
      dsimp only [Function.comp]
      split
      · rfl
      · rfl
    have hid : (x.id == u.req) = true := List.find?_some (p := fun x : Req => x.id == u.req) hx
    rw [hp, hx, Option.map_some, if_pos (by simp [hsent, hf, hid]), hfix]
    rfl

end

/-- t is s with the sets of the cache used, and more accesses behind the others. -/
structure Chip.finds (s t : Chip) : Prop where
  rest : t = { s with
    accs := t.accs
    dir := { s.dir with
      cache := t.dir.cache
      got := t.dir.got } }
  accs : ∃ l, t.accs = s.accs ++ l

theorem Chip.finds_foundSets (l : List Nat) (s : Chip) : s.finds (forEach l (fun d s => s.foundSet d) s) := by
  refine forEach_keeps (s.finds ·) (fun d _ t ht => ?_) ⟨rfl, [], (List.append_nil _).symm⟩
  obtain ⟨hrest, l', hl'⟩ := t.foundSet_rest d
  obtain ⟨l, hl⟩ := ht.accs
  exact ⟨by rw [hrest, ht.rest], l ++ l', by rw [hl', hl, List.append_assoc]⟩

/-- R225: the region with the publish at the head of its queue running. -/
def runsPub (g : Region) (p : Pub) : Region :=
  { unlockPub g with state := 1, run0 := p.k0, runN := p.n, pendBlks := [] }

/-- R219, R223: the accesses of a request depend on no region but for where its bodies lie. -/
theorem Chip.pubAccs_congr {y t : Chip} (hp : t.prom.ch = y.prom.ch) (hd : t.dir = y.dir) (hn : t.now = y.now)
    (hs : ∀ d, t.setBlock d = y.setBlock d) (hc : ∀ b, t.ctrlOf b = y.ctrlOf b)
    (hb : ∀ i body b, bodyBlk (KMap.at t.regions {} i) body b = bodyBlk (KMap.at y.regions {} i) body b) (x : Req) :
    t.pubAccs x = y.pubAccs x := by
  have hbody : ∀ b, t.bodyOf x b = y.bodyOf x b := fun b => by
    unfold Chip.bodyOf
    simp only [hb]
  have hmap : ∀ d, t.mapBit d = y.mapBit d := fun d => by
    unfold Chip.mapBit Chip.setDisabled Chip.setUsed
    rw [hd, hs, hc]
  have hcached : ∀ d, t.setCached d = y.setCached d := fun d => by
    unfold Chip.setCached
    rw [hd]
  unfold Chip.pubAccs Chip.accsOf
  simp only [hbody, hmap, hcached, hp, hn]

theorem bodyBlk_runsPub (g : Region) (p : Pub) (body b : Nat) : bodyBlk (runsPub g p) body b = bodyBlk g body b := rfl

/-- R225: a publish that starts and whose blocks have no entry leaves the directory's entries alone. -/
theorem Chip.runPub_facts {y : Chip} (hp : y.pairRole = 0) {r : Nat} {g : Region} (hg : y.region r = g) (p : Pub) (x : Req)
    {bs : List Nat} (hbs : ∀ b ∈ bs, y.entOf b = none) :
    (∀ i, (y.runPub r g p x bs).region i = if i = r then runsPub g p else y.region i) ∧
    (∃ k, (y.runPub r g p x bs).accs = y.accs ++ y.pubAccs { x with body := 1 - g.cur, nblks := p.n } ++ k) ∧
    (y.runPub r g p x bs).dir.ents = y.dir.ents ∧ (y.runPub r g p x bs).dir.trk = y.dir.trk := by
  generalize hx' : ({ x with body := 1 - g.cur, nblks := p.n } : Req) = x'
  generalize ht : (y.updReqs (fun x => x.id == p.req) fun _ => x').setRegion r (runsPub g p) = t
  have htreg : ∀ i, t.region i = if i = r then runsPub g p else y.region i := by
    rw [← ht]
    exact Chip.region_setRegion _ r (runsPub g p)
  have htdir : t.dir = y.dir := by rw [← ht]; rfl
  have htacc : t.accs = y.accs := by rw [← ht]; rfl
  have htrole : t.pairRole = 0 := by rw [← ht]; exact hp
  have hpub : t.pubAccs x' = y.pubAccs x' := by
    refine Chip.pubAccs_congr (by rw [← ht]; rfl) htdir (by rw [← ht]; rfl) (fun d => by rw [← ht]; rfl)
      (fun b => by rw [← ht]; rfl) (fun i body b => ?_) x'
    show bodyBlk (t.region i) body b = bodyBlk (y.region i) body b
    rw [htreg]
    by_cases hi : i = r
    · rw [if_pos hi, hi, hg]
      exact bodyBlk_runsPub g p body b
    · rw [if_neg hi]
  have hdef : y.runPub r g p x bs = { forEach bs (fun b s => s.pubPend r x' b)
      (Chip.causedBy (forEach (bs.map setOf).eraseDups (fun d s => s.foundSet d)
        { t with accs := t.accs ++ t.pubAccs x' }) (.req p.req 0)) with duo.cause := none } := by
    rw [← ht, ← hx']
    rfl
  have hfound := Chip.finds_foundSets (bs.map setOf).eraseDups { t with accs := t.accs ++ t.pubAccs x' }
  rw [hdef]
  generalize forEach (bs.map setOf).eraseDups (fun d s => s.foundSet d)
    ({ t with accs := t.accs ++ t.pubAccs x' } : Chip) = u at hfound
  have hcause : u.causedBy (.req p.req 0) = u := by
    unfold Chip.causedBy
    exact if_pos (by rw [hfound.rest]; exact htrole)
  have htents : t.dir.ents = y.dir.ents := congrArg Dir.ents htdir
  have httrk : t.dir.trk = y.dir.trk := congrArg Dir.trk htdir
  have hents : u.dir.ents = y.dir.ents := by
    rw [hfound.rest]
    exact htents
  have hpend : forEach bs (fun b s => s.pubPend r x' b) u = u := by
    refine forEach_keeps (· = u) (fun b hb t ht => ?_) rfl
    have hent : u.entOf b = none := by
      unfold Chip.entOf
      rw [hents]
      exact hbs b hb
    rw [ht, Chip.pubPend, hent]
  rw [hcause, hpend]
  obtain ⟨k, hk⟩ := hfound.accs
  refine ⟨fun i => ?_, ⟨k, ?_⟩, hents, ?_⟩
  · rw [← htreg i]
    show u.region i = t.region i
    rw [hfound.rest]
    rfl
  · show u.accs = _
    rw [hk]
    show t.accs ++ t.pubAccs x' ++ k = _
    rw [htacc, hpub]
  · show u.dir.trk = _
    rw [hfound.rest]
    exact httrk

section
variable {s : State} {r : Nat}

theorem publishStart_runs {g : Region} (hg : s.sys.chip.region r = g) {u : Pub} {l : List Pub} (hq : g.queue = u :: l)
    {x : Req} (hx : (s.sys.chip.prom.reqs.find? fun x => x.id == u.req) = some x) (hfix : x.fixed = none)
    (hsent : x.sent = false) {bs : List Nat} (hbs : bs = (List.range u.n).map (g.base + u.k0 + ·)) (hc : g.created = true)
    (hst : g.state = 0) (hv : g.version = u.base) (hready : s.sys.chip.pubReady x bs = true) (hsets : s.sys.chip.pubSets bs = [])
    (hgrant : bs.all (s.sys.chip.ctrlGrants x) = true) :
    chipNext s (.publishStart r) (s.sys.chip.runPub r g u x bs) := by
  have hexec := exec_publishStart_eq hg hq hx hfix hsent hc hst
  rw [if_neg (by simp [hv])] at hexec
  dsimp only at hexec
  rw [← hbs, if_neg (by simp [hready]), hsets, if_neg (by simp), if_neg (by simp [hgrant])] at hexec
  exact hexec

/-! ## The flip (R225) -/

/-- R225: the region once it has flipped. -/
def flipsTo (g : Region) (p : Pub) (now : Nat) : Region :=
  { popPub g with cur := 1 - g.cur, version := p.new, flip := now, state := 2 }

theorem exec_publishFlip_eq {g : Region} (hg : s.sys.chip.region r = g) {u : Pub} {l : List Pub} (hq : g.queue = u :: l)
    {x : Req} (hx : (s.sys.chip.prom.reqs.find? fun x => x.id == u.req) = some x) (hfix : x.fixed = none)
    (hsent : x.sent = false) (hst : g.state = 1) (hacc : ∀ a ∈ s.sys.chip.accs, ∀ k, a.src = .req u.req k → a.phase = .served)
    (htrk : ∀ t ∈ s.sys.chip.dir.trk, t.after ≠ .flip r) :
    ∃ y v, y = ((s.sys.chip.updReqs (fun x => x.id == u.req) fun x => { x with dispatched := true }).setRegion r
        (flipsTo g u s.sys.chip.now)).bump (pubPg + 0x68) ∧
      v = (y.releasePend r true).repoint r (flipsTo g u s.sys.chip.now) ∧
      chipNext s (.publishFlip r) (v.setRegion r { v.region r with
        drain := v.oldReads r (flipsTo g u s.sys.chip.now) }) := by
  refine ⟨_, _, rfl, rfl, ?_⟩
  have hexec : exec (.publishFlip r) s = execPublishFlip r s := (rfl)
  rw [chipNext, hexec, execPublishFlip, liftC]
  dsimp only
  rw [hg, hq]
  dsimp only
  rw [if_neg (by simp [hst]), hx]
  dsimp only
  rw [if_neg (by simp [hfix, hsent]), if_neg]
  · rfl
  · rintro (h | h)
    · obtain ⟨a, ha, hp⟩ := List.any_eq_true.1 h
      split at hp
      next id k hsrc =>
        rw [Bool.and_eq_true, beq_iff_eq] at hp
        obtain ⟨hid, hph⟩ := hp
        rw [hacc a ha k (by rw [hsrc, hid])] at hph
        simp at hph
      next => cases hp
    · obtain ⟨t, ht, hp⟩ := List.any_eq_true.1 h
      exact htrk t ht (by simpa using hp)

theorem Chip.region_repoint (y : Chip) (r : Nat) (g : Region) (i : Nat) : (y.repoint r g).region i = y.region i := rfl

theorem Chip.releasePend_region {y : Chip} {r : Nat} (h : (y.region r).pendBlks = []) (b : Bool) (i : Nat) :
    (y.releasePend r b).region i = y.region i := by
  have hdef : y.releasePend r b = Chip.setRegion (y.updTrk (fun t => t.after == .flip r) fun t => { t with after := .invalid }) r
      { y.region r with pendBlks := [] } := by
    unfold Chip.releasePend
    dsimp only
    rw [h]
    rfl
  rw [hdef, Chip.region_setRegion]
  split
  next hi =>
    rw [hi]
    generalize hg : y.region r = g at h
    obtain ⟨⟩ := g
    subst h
    rfl
  next => rfl

theorem publishFlip_flips {g : Region} (hg : s.sys.chip.region r = g) {u : Pub} {l : List Pub} (hq : g.queue = u :: l)
    {x : Req} (hx : (s.sys.chip.prom.reqs.find? fun x => x.id == u.req) = some x) (hfix : x.fixed = none)
    (hsent : x.sent = false) (hst : g.state = 1) (hacc : ∀ a ∈ s.sys.chip.accs, ∀ k, a.src = .req u.req k → a.phase = .served)
    (htrk : ∀ t ∈ s.sys.chip.dir.trk, t.after ≠ .flip r) (hpend : g.pendBlks = []) :
    ∃ z d, exec (.publishFlip r) s = .next { s with sys := z } ∧ z.mem = s.sys.mem ∧
      ∀ i, z.chip.region i = if i = r then { g with
        queue := l
        cur := 1 - g.cur
        version := u.new
        flip := s.sys.chip.now
        state := 2
        drain := d } else s.sys.chip.region i := by
  obtain ⟨y, v, hy, hv, hexec⟩ := exec_publishFlip_eq hg hq hx hfix hsent hst hacc htrk
  have hyreg : ∀ i, y.region i = if i = r then flipsTo g u s.sys.chip.now else s.sys.chip.region i := by
    rw [hy]
    exact Chip.region_setRegion _ r _
  have hvreg : ∀ i, v.region i = y.region i := fun i => by
    rw [hv, Chip.region_repoint]
    refine Chip.releasePend_region ?_ true i
    rw [hyreg r, if_pos rfl]
    exact hpend
  refine ⟨_, v.oldReads r (flipsTo g u s.sys.chip.now), hexec, rfl, fun i => ?_⟩
  refine (Chip.region_setRegion ..).trans ?_
  by_cases hi : i = r
  · rw [if_pos hi, if_pos hi, hvreg, hyreg, if_pos rfl]
    unfold flipsTo popPub
    rw [hq]
    rfl
  · rw [if_neg hi, if_neg hi, hvreg, hyreg, if_neg hi]

/-! ## The end of a publish (R225) -/

theorem publishDrainEnd_resyncs {g : Region} (hg : s.sys.chip.region r = g) (hst : g.state = 2)
    (hold : (s.sys.chip.prom.hdrs ++ s.sys.chip.prom.reqs).any (readsOld r g) = false)
    (hdrain : ∀ id ∈ g.drain, ∀ x ∈ s.sys.chip.prom.reqs, x.id = id → x.sent = true)
    (hacc : ∀ a ∈ s.sys.chip.accs, ∀ c e k, a.src = .copy c e k → a.phase = .served) :
    chipNext s (.publishDrainEnd r) (s.sys.chip.startResync r) := by
  have hexec : exec (.publishDrainEnd r) s = execPublishDrainEnd r s := (rfl)
  rw [chipNext, hexec, execPublishDrainEnd, liftC]
  dsimp only
  rw [hg, if_pos]
  refine ⟨hst, ?_, hold, ?_⟩
  · refine List.all_eq_true.2 fun id hid => ?_
    rw [Bool.not_eq_true', List.any_eq_false]
    intro x hx hp
    simp only [Bool.and_eq_true, beq_iff_eq, Bool.not_eq_true'] at hp
    rw [hdrain id hid x hx hp.1] at hp
    cases hp.2
  · refine List.all_eq_true.2 fun a ha => ?_
    split
    next c e k hsrc => simp [hacc a ha c e k hsrc]
    next => rfl

theorem Chip.startResync_facts {y : Chip} {r : Nat} {g : Region} (hg : y.region r = g) :
    (∀ i, (y.startResync r).region i = if i = r then { g with state := 3, copyPos := 0 } else y.region i) ∧
    (y.startResync r).accs.length = y.accs.length + g.runN := by
  subst hg
  refine ⟨fun i => Chip.region_setRegion y r _ i, ?_⟩
  show (y.accs ++ (List.range (y.region r).runN).map _).length = _
  rw [List.length_append, List.length_map, List.length_range]

/-- R225: the slots of a resync that is over are free. -/
def Chip.resynced (y : Chip) (r : Nat) (g : Region) : Chip :=
  { y.setRegion r { g with state := 0, runN := 0, copyPos := 0, drain := [], delWanted := false } with
    prom.ch := y.prom.ch.filter fun c => !(c.owner == 2 ^ 32 + r &&
      (g.queue.isEmpty || decide (c.slot ≤ y.slotAt y.now)))
    prom.win := y.prom.win.filter fun w => !(w.b == regionWin r && decide (w.stop ≤ y.now)) }

theorem exec_publishResyncEnd_eq {g : Region} (hg : s.sys.chip.region r = g) (hst : g.state = 3) (hc : g.created = true)
    (hcr : g.creating = none) (hd : g.delCopy = false) :
    chipNext s (.publishResyncEnd r) (if g.runN ≤ g.copyPos then
      (if g.delWanted = true then (s.sys.chip.resynced r g).deleteRegion r else s.sys.chip.resynced r g)
      else s.sys.chip) := by
  have hexec : exec (.publishResyncEnd r) s = execPublishResyncEnd r s := (rfl)
  rw [chipNext, hexec, execPublishResyncEnd, liftC]
  dsimp only
  rw [hg]
  by_cases hn : g.runN ≤ g.copyPos
  · rw [if_pos ⟨hst, hc, hcr, hd, hn⟩, if_pos hn]
    rfl
  · rw [if_neg (fun h => hn h.2.2.2.2), if_neg hn]

theorem Chip.region_deleteRegion (y : Chip) (r : Nat) : (y.deleteRegion r).region r =
    if (y.region r).cur = 1 then { y.region r with delCopy := true, state := 3, copyPos := 0 } else {} := by
  unfold Chip.deleteRegion
  show (if (y.region r).cur = 1 then y.setRegion r _ else y.removeRegion r).region r = _
  split
  · rw [Chip.region_setRegion, if_pos rfl]
    rfl
  · unfold Chip.removeRegion
    dsimp only
    generalize hu : ({ Chip.bumpBy _ _ _ with regions := _, prom.ch := _, prom.win := _, accs := _ } : Chip) = u
    have hgone : u.region r = {} := by
      rw [← hu]
      show KMap.at (KMap.del y.regions r) {} r = {}
      unfold KMap.at
      rw [at?_del_self]
      rfl
    cases (KMap.at y.regions {} r).deleting with
    | none => exact hgone
    | some q =>
      have hans : (u.cmdAnswer q .ok 0).region r = u.region r := by
        unfold Chip.region
        rw [(u.told_cmdAnswer q .ok 0).rest]
      exact hans.trans hgone

end

/-- Settles O42: a region from its creation to its deletion, and a publish from its start to the end of its
resync. -/
theorem publishedRegions : Obligations.PublishedRegions := by
  unfold Obligations.PublishedRegions
  intro s q r base shadow count version
  refine ⟨fun h => ⟨pubCreate_pends h, pubCreate_refused h, fun hv hc hp hst hq _ =>
      ⟨pubDelete_removes h rfl hv hc hp hst hq, pubDelete_copies h rfl hv hc hp hst hq⟩, pubDelete_refused h rfl⟩,
    fun hcr => ?_, fun u l x hq hx hfix hsent => ⟨?_, ?_, ?_⟩, ?_, fun hst hc hcr hd => ?_⟩
  · have hexec := exec_pubCreateReady_eq r (s := s) rfl hcr
    refine ⟨fun hc hn => ?_, fun hno => ?_⟩
    · rw [if_pos ⟨hc, hn⟩] at hexec
      exact Answers.intro hexec (Chip.told_cmdAnswer ..) (Chip.answeredIs_cmdAnswer ..)
    · rw [if_neg] at hexec
      · exact hexec
      · rintro ⟨hc, hn⟩
        obtain hno | hno := hno
        · rw [hno] at hc
          cases hc
        · omega
  · exact fun hc hst hv => publishStart_conflict rfl hq hx hfix hsent hc hst hv
  · intro bs hbs hc hst hv hready hsets hgrant hents hp
    have hexec := publishStart_runs rfl hq hx hfix hsent hbs hc hst hv hready hsets hgrant
    obtain ⟨hreg, haccs, he, ht⟩ := Chip.runPub_facts hp rfl u x hents
    exact ⟨_, hexec, ⟨rfl, hreg⟩, haccs, he, ht⟩
  · intro hst hacc htrk hpend
    exact publishFlip_flips rfl hq hx hfix hsent hst hacc htrk hpend
  · intro hst hold hdrain hacc
    obtain ⟨hreg, hlen⟩ := Chip.startResync_facts (y := s.sys.chip) (r := r) rfl
    exact ⟨_, publishDrainEnd_resyncs rfl hst hold hdrain hacc, ⟨rfl, hreg⟩, hlen⟩
  · have hexec := exec_publishResyncEnd_eq (s := s) (r := r) rfl hst hc hcr hd
    refine ⟨fun hn hw => ?_, fun hn hw => ?_, fun hn => ?_⟩
    · rw [if_pos hn, if_neg (ne_true_of_eq_false hw)] at hexec
      refine ⟨_, hexec, ⟨rfl, fun i => ?_⟩, rfl, rfl⟩
      refine (Chip.region_setRegion s.sys.chip r _ i).trans ?_
      rw [show (s.sys.chip.region r).delWanted = false from hw]
    · rw [if_pos hn, if_pos hw] at hexec
      refine ⟨_, hexec, rfl, (Chip.region_deleteRegion ..).trans ?_⟩
      have hreg : (s.sys.chip.resynced r (s.sys.chip.region r)).region r = { s.sys.chip.region r with
          state := 0, runN := 0, copyPos := 0, drain := [], delWanted := false } :=
        (Chip.region_setRegion s.sys.chip r _ r).trans (if_pos rfl)
      rw [hreg]
    · rw [if_neg (by omega)] at hexec
      exact hexec

end Sys2Proof.Machine

/-! SUPPORT. One link: its part of the chip, an acknowledgement (R263), and what brings it down (R274, R276, R302). -/


namespace Sys2Proof.Machine

-- One after the other: side by side the proofs ask for more memory than the check grants.
set_option Elab.async false

open Laws

/-! ## A link's part of the chip -/

@[simp] theorem Chip.lk_setLk (s : Chip) (l : Nat) (x : Lnk) : (s.setLk l x).lk l = x := at_put_self ..

theorem Chip.lk_setLk_ne (s : Chip) {l k : Nat} (x : Lnk) (h : k ≠ l) : (s.setLk l x).lk k = s.lk k :=
  at_put_ne _ _ (Ne.symm h)

@[simp] theorem Chip.reg_setLk (s : Chip) (l : Nat) (x : Lnk) (a : Nat) : (s.setLk l x).reg a = s.reg a := rfl

theorem Chip.onlyLink.refl (s : Chip) (l : Nat) (R : List Nat) : s.onlyLink s l R := ⟨rfl, fun _ _ => rfl, fun _ _ => rfl⟩

theorem Chip.onlyLink.trans {s t u : Chip} {l : Nat} {R : List Nat} (h : s.onlyLink t l R) (h' : t.onlyLink u l R) :
    s.onlyLink u l R :=
  ⟨by rw [h'.rest, h.rest], fun k hk => (h'.others k hk).trans (h.others k hk),
    fun a ha => (h'.regs a ha).trans (h.regs a ha)⟩

theorem Chip.onlyLink.mono {s t : Chip} {l : Nat} {R R' : List Nat} (h : s.onlyLink t l R) (hR : ∀ a ∈ R, a ∈ R') :
    s.onlyLink t l R' :=
  ⟨h.rest, h.others, fun a ha => h.regs a fun hin => ha (hR a hin)⟩

theorem Chip.onlyLink_setLk (s : Chip) (l : Nat) (x : Lnk) (R : List Nat) : s.onlyLink (s.setLk l x) l R :=
  ⟨rfl, fun _ hk => s.lk_setLk_ne x hk, fun _ _ => rfl⟩

theorem Chip.onlyLink_setReg (s : Chip) (l : Nat) {a : Nat} (w : Word) {R : List Nat} (h : a ∈ R) :
    s.onlyLink (s.setReg a w) l R :=
  ⟨rfl, fun _ _ => rfl, fun _ hb => Chip.reg_setReg_ne _ _ fun e => hb (e ▸ h)⟩

theorem Chip.onlyLink.fld {s t : Chip} {l : Nat} {R : List Nat} (h : s.onlyLink t l R) {a : Nat} (ha : a ∉ R) (hi lo : Nat) :
    t.fld a hi lo = s.fld a hi lo := by
  unfold Chip.fld
  rw [h.regs a ha]

/-- Two registers of a link's page. -/
theorem lkPg_add_ne (l : Nat) {j k : Nat} (h : j ≠ k) : lkPg l + j ≠ lkPg l + k := by omega

/-! ## Acknowledgement (R263) -/

/-- z is x but for what waits to be handled and what an acknowledgement frees and restarts. -/
def Lnk.acked (x z : Lnk) : Prop :=
  z = { x with
    rx := z.rx
    replay := z.replay
    firsts := z.firsts
    unackResp := z.unackResp
    replayPos := z.replayPos
    timerAt := z.timerAt
    uAt := z.uAt
    expiries := z.expiries }

section
variable {y : Chip} {l : Nat} {q : List Flit} {a : Nat}

theorem Chip.ackReceive_none (hn : seqDist (a + 1) (y.unack l) = 0) :
    (y.setLk l { y.lk l with rx := q }).ackReceive l a = y.setLk l { y.lk l with rx := q } := if_pos hn

theorem Chip.ackReceive_frees (h0 : 0 < seqDist (a + 1) (y.unack l))
    (hn : seqDist (a + 1) (y.unack l) ≤ seqDist (y.txNext l) (y.unack l)) :
    y.onlyLink ((y.setLk l { y.lk l with rx := q }).ackReceive l a) l [lkPg l + 0x4C] ∧
    ((y.setLk l { y.lk l with rx := q }).ackReceive l a).unack l = (y.unack l + seqDist (a + 1) (y.unack l)) % 4096 ∧
    (((y.setLk l { y.lk l with rx := q }).ackReceive l a).lk l).replay = (y.lk l).replay.drop (seqDist (a + 1) (y.unack l)) ∧
    (((y.setLk l { y.lk l with rx := q }).ackReceive l a).lk l).expiries = 0 ∧
    (((y.setLk l { y.lk l with rx := q }).ackReceive l a).lk l).timerAt = y.now ∧
    (y.lk l).acked (((y.setLk l { y.lk l with rx := q }).ackReceive l a).lk l) := by
  generalize hx : ({ y.lk l with rx := q } : Lnk) = x'
  have hlk : (y.setLk l x').lk l = x' := Chip.lk_setLk ..
  generalize hy : y.setLk l x' = y' at hlk
  have hu : y'.unack l = y.unack l := by rw [← hy]; rfl
  have ht : y'.txNext l = y.txNext l := by rw [← hy]; rfl
  have hnow : y'.now = y.now := by rw [← hy]; rfl
  have hwhole : y.onlyLink y' l [lkPg l + 0x4C] := by rw [← hy]; exact Chip.onlyLink_setLk ..
  unfold Chip.ackReceive
  dsimp only
  rw [hu, ht, hlk, if_neg (by omega), if_pos hn]
  generalize hw : y'.setFld (lkPg l + 0x4C) 23 12 ((y.unack l + seqDist (a + 1) (y.unack l)) % 4096) = w
  have hfld : w.unack l = (y.unack l + seqDist (a + 1) (y.unack l)) % 4096 := by
    rw [← hw, Chip.unack, Chip.fld_setFld _ _ _ (by decide)]
    omega
  have hwn : w.now = y.now := by rw [← hw]; exact hnow
  have hwl : y.onlyLink w l [lkPg l + 0x4C] := by
    rw [← hw]
    exact hwhole.trans (Chip.onlyLink_setReg _ l _ (List.mem_singleton.2 rfl))
  refine ⟨hwl.trans (Chip.onlyLink_setLk ..), hfld, ?_, ?_, ?_, ?_⟩
  · rw [Chip.lk_setLk, ← hx]
  · rw [Chip.lk_setLk]
  · rw [Chip.lk_setLk]
    exact hwn
  · rw [Chip.lk_setLk, ← hx]
    rfl

/-- R263: an ACK within what is unacknowledged touches the link's unacknowledged number alone. -/
theorem Chip.ackReceive_only (hn : seqDist (a + 1) (y.unack l) ≤ seqDist (y.txNext l) (y.unack l)) :
    y.onlyLink ((y.setLk l { y.lk l with rx := q }).ackReceive l a) l [lkPg l + 0x4C] ∧
    (y.lk l).acked (((y.setLk l { y.lk l with rx := q }).ackReceive l a).lk l) := by
  by_cases h0 : seqDist (a + 1) (y.unack l) = 0
  · rw [Chip.ackReceive_none h0]
    exact ⟨Chip.onlyLink_setLk .., by rw [Chip.lk_setLk]; rfl⟩
  · obtain ⟨h1, -, -, -, -, h2⟩ := Chip.ackReceive_frees (q := q) (by omega) hn
    exact ⟨h1, h2⟩

end

/-! ## A link goes down (R274, R276, R302) -/

theorem Chip.named_reg (s : Chip) (pg b : Nat) {a : Nat} (h : belowPt a) (h1 : a ≠ pg + 0x10) (h2 : a ≠ pg + 0x18) :
    (s.named pg b).reg a = s.reg a :=
  (Chip.pageEvent_reg _ _ h).trans ((Chip.reg_setFlag_ne _ _ _ (Ne.symm h1)).trans (Chip.latchFirst_reg _ _ _ _ _ _ h2))

theorem Chip.reports_named (s : Chip) (pg b : Nat) : s.Reports (s.named pg b) :=
  ((s.reports_latchFirst pg b 0 0 false).trans (Chip.reports_setFlag ..)).trans (Chip.reports_pageEvent ..)

theorem KMap.at_map {α : Type} (f : α → α) (m : KMap α) (d : α) (k : Nat) :
    KMap.at (m.map fun e => (e.1, f e.2)) d k = KMap.at m d k ∨
    KMap.at (m.map fun e => (e.1, f e.2)) d k = f (KMap.at m d k) := by
  induction m with
  | nil => exact .inl rfl
  | cons e m ih =>
    by_cases h : e.1 = k
    · right
      simp [KMap.at, KMap.at?, h]
    · simpa [KMap.at, KMap.at?, h] using ih

/-- R302: a link's part is as before, or its ticks are stepped. -/
def Lnk.stepped (x z : Lnk) : Prop := z = x ∨ ∃ d, z = x.moved d

theorem Chip.lk_stepTime (s : Chip) (n k : Nat) : (s.lk k).stepped ((s.stepTime n).lk k) :=
  (KMap.at_map (fun x : Lnk => x.moved ((n : Int) - s.now)) s.links {} k).imp id fun h => ⟨_, h⟩

theorem Chip.gainParent_links (s : Chip) (l k : Nat) : (s.lk k).stepped ((s.gainParent l).lk k) := by
  by_cases h : s.ft.had = true
  · refine .inl ?_
    unfold Chip.gainParent
    dsimp only
    rw [if_pos h]
    rfl
  · unfold Chip.gainParent
    dsimp only
    rw [if_neg h]
    exact Chip.lk_stepTime { s with ft.had := true, ft.debt := _ } _ k

theorem Chip.gainParent_had {s : Chip} (h : s.ft.had = true) (l : Nat) : (s.gainParent l).links = s.links := by
  unfold Chip.gainParent
  dsimp only
  rw [if_pos h]
  rfl

/-- Registers of the page of fabric time. -/
def ftReg (a : Nat) : Prop := ftPg ≤ a ∧ a < ftPg + 0x1000

theorem Chip.setParent_reg (s : Chip) (l : Nat) {a : Nat} (h : ¬ ftReg a) : (s.setParent l).reg a = s.reg a :=
  (Chip.reg_setFld_ne _ _ _ _ (by unfold ftReg at h; omega)).trans (Chip.reg_setFld_ne _ _ _ _ (by unfold ftReg at h; omega))

theorem Chip.gainParent_reg (s : Chip) (l : Nat) {a : Nat} (h : ¬ ftReg a) : (s.gainParent l).reg a = s.reg a := by
  unfold Chip.gainParent
  dsimp only
  refine (Chip.setParent_reg _ _ h).trans ((Chip.reg_setFld_ne _ _ _ _ (by unfold ftReg at h; omega)).trans ?_)
  split <;> rfl

theorem Chip.loseParent_links (s : Chip) : s.loseParent.links = s.links := by
  unfold Chip.loseParent
  dsimp only
  split
  · rw [(Chip.reports_notice ..).links, (Chip.reports_notice ..).links, Chip.setFtState, Chip.setFld_links]
  · rw [(Chip.reports_notice ..).links, Chip.setFtState, Chip.setFld_links]

theorem Chip.loseParent_reg (s : Chip) {a : Nat} (h : ¬ ftReg a) (hb : belowPt a) : s.loseParent.reg a = s.reg a := by
  have h1 : a ≠ ftPg + 0x10 := by unfold ftReg at h; omega
  have h2 : a ≠ ftPg + 0x18 := by unfold ftReg at h; omega
  have h3 : ftPg + 0x48 ≠ a := by unfold ftReg at h; omega
  unfold Chip.loseParent
  dsimp only
  split
  · exact (Chip.notice_reg _ _ _ hb h1 h2).trans ((Chip.notice_reg _ _ _ hb h1 h2).trans (Chip.reg_setFld_ne _ _ _ _ h3))
  · exact (Chip.notice_reg _ _ _ hb h1 h2).trans (Chip.reg_setFld_ne _ _ _ _ h3)

theorem Chip.ftEval_reg (s : Chip) {a : Nat} (h : ¬ ftReg a) (hb : belowPt a) : s.ftEval.reg a = s.reg a := by
  unfold Chip.ftEval
  split
  · rfl
  · split
    · split
      · exact Chip.loseParent_reg _ h hb
      · rfl
    · split
      · exact Chip.gainParent_reg _ _ h
      · split
        · exact Chip.setParent_reg _ _ h
        · exact Chip.setParent_reg _ _ h

theorem Chip.ftEval_lk (s : Chip) (k : Nat) : (s.lk k).stepped (s.ftEval.lk k) := by
  unfold Chip.ftEval
  split
  · exact .inl rfl
  · split
    · split
      · exact .inl (congrArg (fun m : KMap Lnk => KMap.at m {} k) s.loseParent_links)
      · exact .inl rfl
    · split
      · exact Chip.gainParent_links ..
      · split <;> exact .inl rfl

theorem Chip.loseParent_roles (s : Chip) : s.loseParent.roles = s.roles := by
  unfold Chip.loseParent
  dsimp only
  split
  · rw [(Chip.reports_notice ..).roles, (Chip.reports_notice ..).roles, Chip.setFtState, Chip.setFld_roles]
  · rw [(Chip.reports_notice ..).roles, Chip.setFtState, Chip.setFld_roles]

theorem Chip.gainParent_roles (s : Chip) (l : Nat) : (s.gainParent l).roles = s.roles := by
  unfold Chip.gainParent
  dsimp only
  split <;> rfl

theorem Chip.ftEval_roles (s : Chip) : s.ftEval.roles = s.roles := by
  unfold Chip.ftEval
  split
  · rfl
  · split
    · split
      · exact s.loseParent_roles
      · rfl
    · split
      · exact Chip.gainParent_roles ..
      · split <;> rfl

/-- R302: fabric time is stepped at the first parent alone. -/
theorem Chip.ftEval_links {s : Chip} (h : s.isMaster = true ∨ s.ft.had = true ∨ s.ftParent = none) :
    s.ftEval.links = s.links := by
  unfold Chip.ftEval
  split
  · rfl
  · rename_i hm
    split
    · split
      · exact s.loseParent_links
      · rfl
    · rename_i l hl
      split
      · refine Chip.gainParent_had ?_ _
        rcases h with h | h | h
        · exact absurd h hm
        · exact h
        · exact absurd (hl.symm.trans h) (by simp)
      · split <;> rfl

/-- Registers that a link going down writes, but for those of fabric time. -/
def downReg (l a : Nat) : Prop :=
  ¬ belowPt a ∨ (lkPg l ≤ a ∧ a < lkPg l + 0x1000) ∨ (rtPg ≤ a ∧ a < rtPg + 0x1000) ∨ a = pairPg + 0x48

/-- t is s but for link l, its page, what the loss of a link counts, and what waits for it. -/
structure Chip.downs (s t : Chip) (l : Nat) : Prop where
  now : t.now = s.now
  ft : t.ft = s.ft
  roles : t.roles = s.roles
  others : ∀ k, k ≠ l → t.lk k = s.lk k
  regs : ∀ a, ¬ downReg l a → t.reg a = s.reg a

theorem Chip.downs.refl (s : Chip) (l : Nat) : s.downs s l := ⟨rfl, rfl, rfl, fun _ _ => rfl, fun _ _ => rfl⟩

theorem Chip.downs.trans {s t u : Chip} {l : Nat} (h : s.downs t l) (h' : t.downs u l) : s.downs u l :=
  ⟨h'.now.trans h.now, h'.ft.trans h.ft, h'.roles.trans h.roles, fun k hk => (h'.others k hk).trans (h.others k hk),
    fun a ha => (h'.regs a ha).trans (h.regs a ha)⟩

theorem Chip.downs_setReg (s : Chip) {l a : Nat} (w : Word) (h : downReg l a) : s.downs (s.setReg a w) l :=
  ⟨rfl, rfl, rfl, fun _ _ => rfl, fun _ hb => Chip.reg_setReg_ne _ _ fun e => hb (e ▸ h)⟩

theorem Chip.downs_setLk (s : Chip) (l : Nat) (x : Lnk) : s.downs (s.setLk l x) l :=
  ⟨rfl, rfl, rfl, fun _ hk => s.lk_setLk_ne x hk, fun _ _ => rfl⟩

theorem Chip.Reports.downs {s t : Chip} {l : Nat} (h : s.Reports t) (hr : ∀ a, ¬ downReg l a → t.reg a = s.reg a) :
    s.downs t l :=
  ⟨h.now, h.ft, h.roles, fun k _ => congrArg (fun m : KMap Lnk => KMap.at m {} k) h.links, hr⟩

theorem downReg_page (l : Nat) {k : Nat} (h : k < 0x1000) : downReg l (lkPg l + k) := .inr (.inl ⟨by omega, by omega⟩)

theorem Chip.downs_named (s : Chip) (l b : Nat) : s.downs (s.named (lkPg l) b) l :=
  (s.reports_named _ _).downs fun a ha => by
    unfold downReg at ha
    exact Chip.named_reg _ _ _ (by by_contra h; exact ha (.inl h)) (by omega) (by omega)

theorem Chip.downs_notice (s : Chip) (l b : Nat) : s.downs (s.notice (lkPg l) b) l :=
  (s.reports_notice _ _).downs fun a ha => by
    unfold downReg at ha
    exact Chip.notice_reg _ _ _ (by by_contra h; exact ha (.inl h)) (by omega) (by omega)

theorem Chip.downs_cutReqs (s : Chip) (l : Nat) (p : Req → Bool) (st : Status) : s.downs (s.cutReqs p st) l :=
  ⟨rfl, rfl, rfl, fun _ _ => rfl, fun _ _ => rfl⟩

theorem Chip.downs_cutLink (s : Chip) (l : Nat) (st : Status) : s.downs (s.cutLink l st) l := Chip.downs_setLk ..

theorem Chip.downs_startAsk (s : Chip) (l : Nat) (reset own lead : Bool) : s.downs (s.startAsk l reset own lead) l :=
  ((s.downs_setReg _ (downReg_page l (by decide))).trans (Chip.downs_setLk ..)).trans
    ((Chip.downs_setReg _ _ (downReg_page l (by decide))).trans (Chip.downs_setLk ..))

/-- R302: a parent is not gained where a link alone changes and is not UP, or as much a parent as before. -/
theorem Chip.downs.noParent {s t : Chip} {l : Nat} (h : s.downs t l) (hl : l < 96)
    (hs : t.lkState l ≠ 4 ∨ (t.lk l).nbrLocked = false ∨
      (t.lkState l = s.lkState l ∧ (t.lk l).nbrLocked = (s.lk l).nbrLocked))
    (hp : s.ftParent = none) : t.ftParent = none := by
  have hreg : t.reg (ftPg + 0x44) = s.reg (ftPg + 0x44) :=
    h.regs _ (by unfold downReg lkPg rtPg pairPg ftPg belowPt; omega)
  unfold Chip.ftParent at hp ⊢
  simp only [Chip.flag, Chip.fld, hreg] at hp ⊢
  rw [List.find?_eq_none] at hp ⊢
  intro k hk
  obtain ⟨j, -, rfl⟩ := List.mem_map.1 hk
  have hold := hp _ hk
  generalize hkk : Word.bits (s.reg (ftPg + 0x44)) (8 * j + 6) (8 * j) = k at hold ⊢
  have hlt : k < 128 := by
    rw [← hkk]
    have h7 : 8 * j + 6 + 1 - 8 * j = 7 := by omega
    rw [Word.bits, h7]
    exact Nat.mod_lt _ (by decide)
  by_cases e : k = l
  · subst e
    rcases hs with hs | hs | ⟨hs, hn⟩
    · simp [Chip.timeLink, hs]
    · simp [hs]
    · rwa [hn, Chip.timeLink, Chip.linkRole, h.roles, hs]
  · rwa [h.others k e, Chip.timeLink, Chip.linkRole, h.roles, Chip.lkState, Chip.fld,
      h.regs (lkPg k + 0x44) (by unfold downReg lkPg rtPg pairPg belowPt; omega)]

/-- R276: z is what link part x becomes when the link sends a request of 16 codewords from tick n on. -/
structure Lnk.asks (x z : Lnk) (reset own : Bool) (n : Nat) : Prop where
  ask : z.ask = some ⟨reset, 16, own, n⟩
  rx : z.rx = []
  holdAt : z.holdAt = none
  replay : z.replay = x.replay
  resetting : z.resetting = x.resetting
  noPll : z.noPll = x.noPll
  full : reset = true → z.mustFull = true ∧ z.resume = false

/-- A step of fabric time leaves a request that is sent. -/
theorem Lnk.asks.stepped {x z z' : Lnk} {reset own : Bool} {n : Nat} (h : x.asks z reset own n) (hz : z.stepped z') :
    ∃ n', x.asks z' reset own n' := by
  rcases hz with rfl | ⟨d, rfl⟩
  · exact ⟨n, h⟩
  · refine ⟨Machine.moved d n, ⟨?_, h.rx, ?_, h.replay, h.resetting, h.noPll, h.full⟩⟩
    · exact congrArg (Option.map fun a : Ask => { a with start := Machine.moved d a.start }) h.ask
    · exact congrArg (Option.map (Machine.moved d)) h.holdAt

theorem Chip.startAsk_asks (s : Chip) (l : Nat) (reset own lead : Bool) :
    (s.lk l).asks ((s.startAsk l reset own lead).lk l) reset own s.now := by
  unfold Chip.startAsk Chip.settleAsk
  dsimp only
  rw [Chip.lk_setLk, Chip.lk_setLk]
  refine ⟨rfl, rfl, rfl, rfl, rfl, rfl, fun h => ?_⟩
  subst h
  exact ⟨rfl, Bool.and_false _⟩

theorem Chip.lkState_setLkState (s : Chip) (l v : Nat) : (s.setLkState l v).lkState l = v % 8 :=
  Chip.fld_setFld _ _ _ (by decide)

@[simp] theorem Chip.fld_setLk (s : Chip) (l : Nat) (x : Lnk) (a hi lo : Nat) : (s.setLk l x).fld a hi lo = s.fld a hi lo := rfl

theorem Chip.fld_setFlag_apart (s : Chip) (a : Nat) {n hi lo : Nat} (b : Bool) (hh : hi < 32) (h : hi < n ∨ n < lo) :
    (s.setFlag a n b).fld a hi lo = s.fld a hi lo := Chip.fld_setFld_apart _ _ _ hh h

theorem Chip.startAsk_state (s : Chip) (l : Nat) (reset own lead : Bool) : (s.startAsk l reset own lead).lkState l = 1 := by
  rw [Chip.startAsk, Chip.settleAsk, Chip.lkState]
  dsimp only
  rw [Chip.fld_setLk, Chip.fld_setFlag_apart _ _ _ (by decide) (.inl (by decide)), Chip.fld_setLk]
  exact s.lkState_setLkState l 1

theorem Chip.startAsk_reg (s : Chip) (l : Nat) (reset own lead : Bool) {a : Nat} (h : a ≠ lkPg l + 0x44) :
    (s.startAsk l reset own lead).reg a = s.reg a := by
  rw [Chip.startAsk, Chip.settleAsk]
  dsimp only
  rw [Chip.reg_setLk, Chip.reg_setFlag_ne _ _ _ (Ne.symm h), Chip.reg_setLk]
  exact Chip.reg_setFld_ne _ _ _ _ (Ne.symm h)

/-- The registers of the link's page but for its error registers. -/
def lkQuiet (l a : Nat) : Prop := lkPg l + 0x40 ≤ a ∧ a < lkPg l + 0x1000

/-- What linkDown does after the link has asked and before fabric time is looked at. -/
def Chip.toldDown (s : Chip) (l was : Nat) : Chip :=
  let s := s.named (lkPg l) 2
  let s := if s.standsBy && (s.linkRole l).1 == 1 then s.setLag true else s
  if was = 4 then s.rehash l else s

theorem Chip.rehash_links (s : Chip) (l : Nat) : (s.rehash l).links = s.links := by
  unfold Chip.rehash
  split <;> rfl

theorem Chip.downs_rehash (s : Chip) (l k : Nat) : s.downs (s.rehash l) k := by
  unfold Chip.rehash
  split
  · exact Chip.downs_setReg _ _ (.inr (.inr (.inl ⟨by omega, by omega⟩)))
  · exact .refl ..

theorem Chip.rehash_reg (s : Chip) (l : Nat) {a : Nat} (h : a ≠ rtPg + 0x7C) : (s.rehash l).reg a = s.reg a := by
  unfold Chip.rehash
  split
  · exact Chip.reg_bump_ne _ (Ne.symm h)
  · rfl

theorem Chip.downs.ite {s t u : Chip} {l : Nat} {p : Prop} [Decidable p] (h : s.downs t l) (h' : s.downs u l) :
    s.downs (if p then t else u) l := by
  split <;> assumption

theorem Chip.downs_toldDown (s : Chip) (l was : Nat) : s.downs (s.toldDown l was) l := by
  unfold Chip.toldDown
  dsimp only
  generalize hz : (if ((s.named (lkPg l) 2).standsBy && ((s.named (lkPg l) 2).linkRole l).1 == 1) = true
    then (s.named (lkPg l) 2).setLag true else s.named (lkPg l) 2) = z
  have h : s.downs z l := by
    rw [← hz]
    exact .ite ((s.downs_named l 2).trans (Chip.downs_setReg _ _ (.inr (.inr (.inr rfl))))) (s.downs_named l 2)
  exact .ite (h.trans (Chip.downs_rehash ..)) h

theorem Chip.toldDown_links (s : Chip) (l was : Nat) : (s.toldDown l was).links = s.links := by
  unfold Chip.toldDown
  dsimp only
  generalize hz : (if ((s.named (lkPg l) 2).standsBy && ((s.named (lkPg l) 2).linkRole l).1 == 1) = true
    then (s.named (lkPg l) 2).setLag true else s.named (lkPg l) 2) = z
  have h : z.links = s.links := by
    rw [← hz]
    split
    · exact (Chip.setFlag_links ..).trans (s.reports_named (lkPg l) 2).links
    · exact (s.reports_named (lkPg l) 2).links
  split
  · exact (Chip.rehash_links ..).trans h
  · exact h

theorem Chip.toldDown_reg (s : Chip) {l : Nat} (was : Nat) (hl : l < 96) {a : Nat} (h : lkQuiet l a) :
    (s.toldDown l was).reg a = s.reg a := by
  have hb : belowPt a := by unfold lkQuiet lkPg at h; unfold belowPt; omega
  have hn : (s.named (lkPg l) 2).reg a = s.reg a :=
    Chip.named_reg _ _ _ hb (by unfold lkQuiet at h; omega) (by unfold lkQuiet at h; omega)
  have hp : pairPg + 0x48 ≠ a := by unfold lkQuiet lkPg at h; unfold pairPg; omega
  have hr : a ≠ rtPg + 0x7C := by unfold lkQuiet lkPg at h; unfold rtPg; omega
  unfold Chip.toldDown
  dsimp only
  generalize hz : (if ((s.named (lkPg l) 2).standsBy && ((s.named (lkPg l) 2).linkRole l).1 == 1) = true
    then (s.named (lkPg l) 2).setLag true else s.named (lkPg l) 2) = z
  have h : z.reg a = s.reg a := by
    rw [← hz]
    split
    · exact (Chip.reg_setFlag_ne _ _ _ hp).trans hn
    · exact hn
  split
  · exact (Chip.rehash_reg _ _ hr).trans h
  · exact h

/-- R251, R266: what is cut, and where the loss is recorded, before the link asks. -/
def Chip.cutDown (s : Chip) (l cause : Nat) : Chip :=
  let s := s.setFld (lkPg l + 0xB0) 3 0 cause
  let s := (s.setPair (lkPg l + 0xB4) s.now).bump (lkPg l + 0xAC)
  let s := s.setFlag (lkPg l + 0x44) 3 false
  (s.cutReqs (fun r => r.port == l) (cutStatus cause)).cutLink l (cutStatus cause)

theorem Chip.linkDown_eq (s : Chip) (l cause : Nat) (reset lead : Bool) : s.linkDown l cause reset lead =
    (((s.cutDown l cause).startAsk l reset (cause != 5) lead).toldDown l (s.lkState l)).ftEval := rfl

theorem Chip.downs_setFld (s : Chip) {l a : Nat} (hi lo v : Nat) (h : downReg l a) : s.downs (s.setFld a hi lo v) l :=
  s.downs_setReg _ h

theorem Chip.downs_setFlag (s : Chip) {l a : Nat} (n : Nat) (b : Bool) (h : downReg l a) : s.downs (s.setFlag a n b) l :=
  s.downs_setReg _ h

theorem Chip.downs_bump (s : Chip) {l a : Nat} (h : downReg l a) : s.downs (s.bump a) l := s.downs_setReg _ h

theorem Chip.downs_setPair (s : Chip) {l a : Nat} (v : Nat) (h : downReg l a) (h' : downReg l (a + 4)) :
    s.downs (s.setPair a v) l :=
  (s.downs_setReg _ h).trans (Chip.downs_setReg _ _ h')

theorem Chip.downs_cutDown (s : Chip) (l cause : Nat) : s.downs (s.cutDown l cause) l := by
  unfold Chip.cutDown
  dsimp only
  rw [Chip.setFld_now]
  have h1 := s.downs_setFld (l := l) (a := lkPg l + 0xB0) 3 0 cause (downReg_page l (by decide))
  have h2 := h1.trans (Chip.downs_setPair _ s.now (a := lkPg l + 0xB4) (downReg_page l (by decide))
    (downReg_page l (k := 0xB8) (by decide)))
  have h3 := h2.trans (Chip.downs_bump _ (a := lkPg l + 0xAC) (downReg_page l (by decide)))
  have h4 := h3.trans (Chip.downs_setFlag _ (a := lkPg l + 0x44) 3 false (downReg_page l (by decide)))
  exact h4.trans ((Chip.downs_cutReqs ..).trans (Chip.downs_cutLink ..))

theorem Chip.cutReqs_links (s : Chip) (p : Req → Bool) (st : Status) : (s.cutReqs p st).links = s.links := rfl

theorem Chip.cutLink_lk (s : Chip) (l : Nat) (st : Status) :
    ∃ q, (s.cutLink l st).lk l = { s.lk l with txq := q } := ⟨_, Chip.lk_setLk ..⟩

theorem Chip.cutDown_lk (s : Chip) (l cause : Nat) : ∃ q, (s.cutDown l cause).lk l = { s.lk l with txq := q } := by
  unfold Chip.cutDown
  dsimp only
  generalize hz : Chip.cutReqs _ _ _ = z
  have hlinks : z.links = s.links := by
    rw [← hz, Chip.cutReqs_links, Chip.setFlag_links, Chip.bump_links, Chip.setPair_links, Chip.setFld_links]
  have hlk : z.lk l = s.lk l := congrArg (fun m : KMap Lnk => KMap.at m {} l) hlinks
  rw [← hlk]
  exact z.cutLink_lk l _

@[simp] theorem Chip.reg_cutReqs (s : Chip) (p : Req → Bool) (st : Status) (a : Nat) : (s.cutReqs p st).reg a = s.reg a := rfl

@[simp] theorem Chip.reg_cutLink (s : Chip) (l : Nat) (st : Status) (a : Nat) : (s.cutLink l st).reg a = s.reg a := rfl

theorem Chip.cutDown_fld (s : Chip) (l : Nat) {cause : Nat} (h : cause < 16) :
    (s.cutDown l cause).fld (lkPg l + 0xB0) 3 0 = cause := by
  have e : (s.setFld (lkPg l + 0xB0) 3 0 cause).fld (lkPg l + 0xB0) 3 0 = cause :=
    (Chip.fld_setFld _ _ _ (by decide)).trans (Nat.mod_eq_of_lt h)
  refine Eq.trans (congrArg (Word.bits · 3 0) ?_) e
  unfold Chip.cutDown
  dsimp only
  generalize s.setFld (lkPg l + 0xB0) 3 0 cause = z
  rw [Chip.reg_cutLink, Chip.reg_cutReqs, Chip.reg_setFlag_ne _ _ _ (lkPg_add_ne l (by decide)),
    Chip.reg_bump_ne _ (lkPg_add_ne l (by decide)), Chip.setPair, Chip.reg_setReg_ne _ _ (by omega),
    Chip.reg_setReg_ne _ _ (by omega)]

theorem Chip.pair_setPair (s : Chip) (a v : Nat) : (s.setPair a v).pair a = v % 2 ^ 64 := by
  unfold Chip.pair Chip.setPair
  rw [Chip.reg_setReg, Chip.reg_setReg_ne _ _ (by omega), Chip.reg_setReg, BitVec.toNat_ofNat, BitVec.toNat_ofNat]
  omega

theorem Chip.cutDown_pair (s : Chip) (l cause : Nat) : (s.cutDown l cause).pair (lkPg l + 0xB4) = s.now % 2 ^ 64 := by
  refine Eq.trans ?_ ((s.setFld (lkPg l + 0xB0) 3 0 cause).pair_setPair (lkPg l + 0xB4) s.now)
  unfold Chip.cutDown Chip.pair
  dsimp only
  rw [Chip.setFld_now]
  generalize s.setFld (lkPg l + 0xB0) 3 0 cause = z
  rw [Chip.reg_cutLink, Chip.reg_cutReqs, Chip.reg_cutLink, Chip.reg_cutReqs, Chip.reg_setFlag_ne _ _ _ (by omega),
    Chip.reg_bump_ne _ (by omega), Chip.reg_setFlag_ne _ _ _ (by omega), Chip.reg_bump_ne _ (by omega)]

/-- R274, R276: link l of s has gone down for a cause in t, asking for a retraining. -/
structure Chip.fell (s t : Chip) (l cause : Nat) (reset : Bool) : Prop where
  state : t.lkState l = 1
  why : t.fld (lkPg l + 0xB0) 3 0 = cause
  tick : t.pair (lkPg l + 0xB4) = s.now % 2 ^ 64
  ask : ∃ a, (t.lk l).ask = some a ∧ a.reset = reset ∧ a.left = 16 ∧ a.own = (cause != 5)
  rx : (t.lk l).rx = []
  holdAt : (t.lk l).holdAt = none
  replay : (t.lk l).replay = (s.lk l).replay
  resetting : (t.lk l).resetting = (s.lk l).resetting
  noPll : (t.lk l).noPll = (s.lk l).noPll
  roles : t.roles = s.roles
  full : reset = true → (t.lk l).mustFull = true ∧ (t.lk l).resume = false
  others : s.isMaster = true ∨ s.ft.had = true ∨ s.ftParent = none → ∀ k : Nat, k ≠ l → t.lk k = s.lk k

theorem Chip.linkDown_fell (s : Chip) {l cause : Nat} (reset lead : Bool) (hl : l < 96) (hc : cause < 16) :
    s.fell (s.linkDown l cause reset lead) l cause reset := by
  rw [Chip.linkDown_eq]
  obtain ⟨q, hcutLk⟩ := s.cutDown_lk l cause
  have hreplay : ((s.cutDown l cause).lk l).replay = (s.lk l).replay := by rw [hcutLk]
  have hresetting : ((s.cutDown l cause).lk l).resetting = (s.lk l).resetting := by rw [hcutLk]
  have hpll : ((s.cutDown l cause).lk l).noPll = (s.lk l).noPll := by rw [hcutLk]
  clear hcutLk
  have hdown := s.downs_cutDown l cause
  have hcause := s.cutDown_fld l hc
  have hpair := s.cutDown_pair l cause
  generalize s.cutDown l cause = c at hreplay hresetting hpll hdown hcause hpair
  have hask := c.startAsk_asks l reset (cause != 5) lead
  have hstate := c.startAsk_state l reset (cause != 5) lead
  have hdown' := hdown.trans (c.downs_startAsk l reset (cause != 5) lead)
  have hreg : ∀ k, k ≠ 0x44 → (c.startAsk l reset (cause != 5) lead).reg (lkPg l + k) = c.reg (lkPg l + k) :=
    fun k hk => c.startAsk_reg l _ _ _ (by omega)
  generalize c.startAsk l reset (cause != 5) lead = d at hask hstate hdown' hreg
  have hlk : (d.toldDown l (s.lkState l)).lk l = d.lk l := congrArg (fun m : KMap Lnk => KMap.at m {} l) (d.toldDown_links l _)
  have hdown'' := hdown'.trans (d.downs_toldDown l (s.lkState l))
  have hreg' : ∀ k, 0x40 ≤ k → k < 0x1000 → (d.toldDown l (s.lkState l)).reg (lkPg l + k) = d.reg (lkPg l + k) :=
    fun k h h' => d.toldDown_reg _ hl ⟨by omega, by omega⟩
  generalize d.toldDown l (s.lkState l) = e at hlk hdown'' hreg'
  have hreg'' : ∀ k, 0x40 ≤ k → k < 0x1000 → e.ftEval.reg (lkPg l + k) = d.reg (lkPg l + k) := fun k h h' =>
    (e.ftEval_reg (by unfold ftReg lkPg ftPg; omega) (by unfold belowPt lkPg; omega)).trans (hreg' k h h')
  have hst : e.lkState l = 1 := by
    unfold Chip.lkState Chip.fld at hstate ⊢
    rw [hreg' _ (by decide) (by decide)]
    exact hstate
  have hz := e.ftEval_lk l
  rw [hlk] at hz
  obtain ⟨n, hfin⟩ := hask.stepped hz
  have hothers : s.isMaster = true ∨ s.ft.had = true ∨ s.ftParent = none → ∀ k : Nat, k ≠ l → e.ftEval.lk k = s.lk k := by
    intro h k hk
    have hlinks : e.ftEval.links = e.links := Chip.ftEval_links <| by
      rcases h with h | h | h
      · refine .inl (Eq.trans ?_ h)
        unfold Chip.isMaster Chip.flag
        rw [hdown''.regs _ (by unfold downReg lkPg rtPg pairPg ftPg belowPt; omega)]
      · exact .inr (.inl (by rw [hdown''.ft, h]))
      · exact .inr (.inr (hdown''.noParent hl (.inl (by omega)) h))
    exact (congrArg (fun m : KMap Lnk => KMap.at m {} k) hlinks).trans (hdown''.others k hk)
  refine ⟨?_, ?_, ?_, ⟨_, hfin.ask, rfl, rfl, rfl⟩, hfin.rx, hfin.holdAt, hfin.replay.trans hreplay,
    hfin.resetting.trans hresetting, hfin.noPll.trans hpll, e.ftEval_roles.trans hdown''.roles, hfin.full, hothers⟩
  · unfold Chip.lkState Chip.fld at hstate ⊢
    rw [hreg'' _ (by decide) (by decide)]
    exact hstate
  · unfold Chip.fld at hcause ⊢
    rw [hreg'' _ (by decide) (by decide), hreg _ (by decide)]
    exact hcause
  · unfold Chip.pair at hpair ⊢
    rw [Nat.add_assoc] at hpair ⊢
    rw [hreg'' _ (by decide) (by decide), hreg'' _ (by decide) (by decide), hreg _ (by decide), hreg _ (by decide)]
    exact hpair

end Sys2Proof.Machine

/-! PROOF of O43 (R257, R260 to R263, R268, R269, R271): the oldest received flit of a link. -/

namespace Sys2Proof.Machine

-- One after the other: side by side the proofs ask for more memory than the check grants.
set_option Elab.async false

open Laws

/-! ## The flit is taken, its ACK first -/

section
variable {y : Chip} {l : Nat} {f : Flit} {q : List Flit}

/-- R263: what the ACK of the oldest received flit leaves. -/
def Chip.ackTaken (y : Chip) (l : Nat) (f : Flit) (q : List Flit) : Chip :=
  (y.setLk l { y.lk l with rx := q }).ackReceive l f.ack

theorem Chip.takeFlit_eq {p : Flit → Bool} {g : Chip → Chip} (hrx : (y.lk l).rx = f :: q) (hst : y.lkState l = 4)
    (hp : p f = true) :
    y.takeFlit l f p g = if (y.ackTaken l f q).lkState l = 4 then g (y.ackTaken l f q) else y.ackTaken l f q := by
  unfold Chip.takeFlit
  dsimp only
  rw [hrx]
  dsimp only
  rw [if_pos (by simp [hp, hst])]
  rfl

theorem Chip.ackTaken_state (hn : seqDist (f.ack + 1) (y.unack l) ≤ seqDist (y.txNext l) (y.unack l)) :
    (y.ackTaken l f q).lkState l = y.lkState l :=
  (Chip.ackReceive_only hn).1.fld (fun h => lkPg_add_ne l (by decide) (List.mem_singleton.1 h)) _ _

theorem Chip.takeFlit_within {p : Flit → Bool} {g : Chip → Chip} (hrx : (y.lk l).rx = f :: q) (hst : y.lkState l = 4)
    (hp : p f = true) (hn : seqDist (f.ack + 1) (y.unack l) ≤ seqDist (y.txNext l) (y.unack l)) :
    y.takeFlit l f p g = g (y.ackTaken l f q) := by
  rw [Chip.takeFlit_eq hrx hst hp, if_pos ((Chip.ackTaken_state hn).trans hst)]

theorem Chip.ackTaken_beyond (hn : seqDist (y.txNext l) (y.unack l) < seqDist (f.ack + 1) (y.unack l)) (hst : y.lkState l = 4) :
    y.ackTaken l f q = ((y.setLk l { y.lk l with rx := q }).protoErr l).linkDown l 4 false true := by
  have hu : (y.setLk l { y.lk l with rx := q }).unack l = y.unack l := rfl
  have ht : (y.setLk l { y.lk l with rx := q }).txNext l = y.txNext l := rfl
  have hs : (y.setLk l { y.lk l with rx := q }).lkState l = 4 := hst
  unfold Chip.ackTaken Chip.ackReceive
  dsimp only
  rw [hu, ht, if_neg (by omega), if_neg (by omega), if_pos hs]

end

/-! ## What a received flit does to its link -/

/-- R271: register a of t counts one more than in s, and nothing else of s changes. -/
theorem Chip.counts_bump (s : Chip) (l a : Nat) :
    s.onlyLink (s.bump a) l [a] ∧ (s.bump a).lk l = s.lk l ∧ ((s.bump a).reg a).toNat = min ((s.reg a).toNat + 1) 0xffffffff :=
  ⟨s.onlyLink_setReg l _ (List.mem_singleton.2 rfl), rfl, Chip.reg_bumpBy ..⟩

section
variable {s : Chip} {l : Nat} {f : Flit}

theorem Chip.seqFlit_late (h0 : seqDist (s.rxNext l) f.seq ≠ 0) (h : seqDist (s.rxNext l) f.seq ≤ 2048) :
    s.seqFlit l f = s.bump (lkPg l + 0x70) := by
  unfold Chip.seqFlit
  dsimp only
  rw [if_neg h0, if_pos h]

theorem Chip.seqFlit_early (h : 2048 < seqDist (s.rxNext l) f.seq) : s.seqFlit l f = s.bump (lkPg l + 0x74) := by
  unfold Chip.seqFlit
  dsimp only
  rw [if_neg (by omega), if_neg (by omega)]

theorem Chip.seqFlit_lctl (h0 : seqDist (s.rxNext l) f.seq = 0) (hvc : gateBit (s.lk l).vcEn f.vc = true) (ht : f.typ = 5) :
    s.seqFlit l f = ((s.rxAdvance l).creditBack l f.vc f.fc).lctl l f := by
  unfold Chip.seqFlit
  dsimp only
  rw [if_pos h0, if_neg (by simp [hvc]), if_pos ht]

theorem Chip.seqFlit_full (h0 : seqDist (s.rxNext l) f.seq = 0) (hvc : gateBit (s.lk l).vcEn f.vc = true) (ht : f.typ ≠ 5)
    (hfull : sizeOf (s.lk l) f.vc ≤ bufCount (s.lk l) f.vc) :
    s.seqFlit l f = (s.bump (lkPg l + 0x80)).notice (lkPg l) 6 := by
  unfold Chip.seqFlit
  dsimp only
  rw [if_pos h0, if_neg (by simp [hvc]), if_neg ht, if_neg (by omega)]

theorem Chip.judge_best (h : 4 ≤ f.vc) : s.judge l f.vc = (true, s) := if_pos h

theorem Chip.seqFlit_room (h0 : seqDist (s.rxNext l) f.seq = 0) (hvc : gateBit (s.lk l).vcEn f.vc = true) (ht : f.typ ≠ 5)
    (hroom : bufCount (s.lk l) f.vc < sizeOf (s.lk l) f.vc) (hv : 4 ≤ f.vc) :
    s.seqFlit l f = if f.typ = 1 ∨ f.typ = 4 then ((s.rxAdvance l).creditBack l f.vc f.fc).headFlit l f true
      else ((s.rxAdvance l).creditBack l f.vc f.fc).laterFlit l f := by
  unfold Chip.seqFlit
  dsimp only
  rw [if_pos h0, if_neg (by simp [hvc]), if_neg ht, if_pos hroom, Chip.judge_best hv]

theorem Chip.creditBack_none {k : Nat} (v : Nat) (h : (s.lk l).onOff = true ∨ k = 0) : s.creditBack l v k = s := if_pos h

theorem Chip.onlyLink_rxAdvance (s : Chip) (l : Nat) : s.onlyLink (s.rxAdvance l) l [lkPg l + 0x50] :=
  s.onlyLink_setReg l _ (List.mem_singleton.2 rfl)

theorem Chip.rxNext_rxAdvance (s : Chip) (l : Nat) : (s.rxAdvance l).rxNext l = (s.rxNext l + 1) % 4096 :=
  (Chip.fld_setFld _ _ _ (by decide)).trans (Nat.mod_mod _ _)

theorem Chip.lk_rxAdvance (s : Chip) (l k : Nat) : (s.rxAdvance l).lk k = s.lk k := rfl

/-! ## Flits of packets (R260, R262) -/

/-- R268, R269: z is x but for what the receive buffer makes due. -/
def Lnk.due (x z : Lnk) : Prop :=
  z = { x with
    offNow := z.offNow
    xstateDue := z.xstateDue
    creditDue := z.creditDue }

theorem Chip.dueLctl_due (s : Chip) (l : Nat) :
    s.onlyLink (s.dueLctl l) l [] ∧ (s.lk l).due ((s.dueLctl l).lk l) := by
  unfold Chip.dueLctl
  dsimp only
  split
  · exact ⟨Chip.onlyLink_setLk .., by rw [Chip.lk_setLk]; rfl⟩
  · exact ⟨Chip.onlyLink_setLk .., by rw [Chip.lk_setLk]; rfl⟩

theorem Chip.intoBuf_due (s : Chip) (l : Nat) (f : Flit) (x : Lnk) :
    s.onlyLink ((s.setLk l x).intoBuf l f) l [] ∧
    Lnk.due { x with buf := x.buf ++ [f] } (((s.setLk l x).intoBuf l f).lk l) := by
  unfold Chip.intoBuf
  dsimp only
  rw [Chip.lk_setLk]
  obtain ⟨h1, h2⟩ := ((s.setLk l x).setLk l { x with buf := x.buf ++ [f] }).dueLctl_due l
  rw [Chip.lk_setLk] at h2
  exact ⟨((s.onlyLink_setLk l x _).trans (Chip.onlyLink_setLk ..)).trans h1, h2⟩

theorem Lnk.due.fields {x z : Lnk} (h : x.due z) : z.buf = x.buf ∧ z.heads = x.heads ∧ z.openRx = x.openRx := by
  rw [h]
  exact ⟨rfl, rfl, rfl⟩

/-- R260: a first flit of a packet that no open packet precedes, on a best-effort VC. -/
theorem Chip.headFlit_opens {m : Nat} (hv : 4 ≤ f.vc) (hopen : KMap.at (s.lk l).openRx none f.vc = none)
    (hm : flitsNeeded f.payload = some m) (hone : f.typ = 4 → m = 1) :
    s.onlyLink (s.headFlit l f true) l [] ∧ ((s.headFlit l f true).lk l).buf = (s.lk l).buf ++ [f] ∧
    ((s.headFlit l f true).lk l).heads = (s.lk l).heads ∧
    KMap.at ((s.headFlit l f true).lk l).openRx none f.vc = if f.typ = 4 then none else some ⟨m, 1, false⟩ := by
  unfold Chip.headFlit
  dsimp only
  rw [hopen, if_neg (by simp), hm]
  dsimp only
  rw [if_neg fun h => h.2 (hone h.1), if_neg (Nat.not_lt.2 hv)]
  obtain ⟨h1, h2⟩ := s.intoBuf_due l f { s.lk l with
    heads := (s.lk l).heads
    openRx := if f.typ = 4 then (s.lk l).openRx else KMap.put (s.lk l).openRx none f.vc (some ⟨m, 1, !true⟩) }
  obtain ⟨hbuf, hheads, hrx⟩ := h2.fields
  refine ⟨h1, hbuf, hheads, ?_⟩
  rw [hrx]
  dsimp only
  by_cases h4 : f.typ = 4
  · rw [if_pos h4, if_pos h4]
    exact hopen
  · rw [if_neg h4, if_neg h4]
    exact at_put_self (d := (none : Option OpenPkt)) ..

/-- R260: a later flit of a packet. -/
theorem Chip.laterFlit_goes {o : OpenPkt} (hopen : KMap.at (s.lk l).openRx none f.vc = some o) :
    (f.typ = 2 → s.onlyLink (s.laterFlit l f) l [] ∧ ((s.laterFlit l f).lk l).buf = (s.lk l).buf ++ [f] ∧
      KMap.at ((s.laterFlit l f).lk l).openRx none f.vc = some { o with got := o.got + 1 }) ∧
    (f.typ ≠ 2 → o.got + 1 = o.need → s.onlyLink (s.laterFlit l f) l [] ∧ ((s.laterFlit l f).lk l).buf = (s.lk l).buf ++ [f] ∧
      KMap.at ((s.laterFlit l f).lk l).openRx none f.vc = none) := by
  unfold Chip.laterFlit
  dsimp only
  rw [hopen]
  dsimp only
  constructor
  · intro h2
    rw [if_pos h2]
    obtain ⟨h1, hdue⟩ := s.intoBuf_due l f { s.lk l with
      openRx := KMap.put (s.lk l).openRx none f.vc (some { o with got := o.got + 1 }) }
    obtain ⟨hbuf, -, hrx⟩ := hdue.fields
    refine ⟨h1, hbuf, ?_⟩
    rw [hrx]
    dsimp only
    exact at_put_self (d := (none : Option OpenPkt)) ..
  · intro h2 hlast
    rw [if_neg h2, if_pos hlast]
    obtain ⟨h1, hdue⟩ := s.intoBuf_due l f { s.lk l with openRx := KMap.put (s.lk l).openRx none f.vc none }
    obtain ⟨hbuf, -, hrx⟩ := hdue.fields
    refine ⟨h1, hbuf, ?_⟩
    rw [hrx]
    dsimp only
    exact at_put_self (d := (none : Option OpenPkt)) ..

/-! ## Credits (R268) -/

/-- The credit registers of link l. -/
def creditRegs (l : Nat) : List Nat := (List.range 8).map (lkPg l + 0x88 + 4 * ·)

theorem Chip.creditBack_adds {v k : Nat} (hon : (s.lk l).onOff = false) (hv : v < 8)
    (hcap : s.creditOf l v + k ≤ min ((s.lk l).peerSize.getD v 0) 1023) :
    s.onlyLink (s.creditBack l v k) l (creditRegs l) ∧ (s.creditBack l v k).lk l = s.lk l ∧
    ∀ w, (s.creditBack l v k).creditOf l w = s.creditOf l w + if w = v then k else 0 := by
  by_cases hk : k = 0
  · rw [Chip.creditBack_none v (.inr hk)]
    refine ⟨.refl .., rfl, fun w => ?_⟩
    split
    · omega
    · rfl
  · have heq : s.creditBack l v k = s.setCredit l v (s.creditOf l v + k) := by
      unfold Chip.creditBack
      dsimp only
      rw [if_neg (by simp [hon, hk]), if_neg (by omega)]
    rw [heq]
    refine ⟨s.onlyLink_setReg l _ (List.mem_map.2 ⟨v, List.mem_range.2 hv, rfl⟩), rfl, fun w => ?_⟩
    by_cases hw : w = v
    · subst hw
      rw [if_pos rfl]
      exact (Chip.fld_setFld _ _ _ (by decide)).trans (Nat.mod_eq_of_lt (by omega))
    · rw [if_neg hw, Nat.add_zero]
      exact Chip.fld_setFld_ne _ _ _ _ _ _ (by omega)

theorem forEach_append {α : Type} (l m : List α) (f : α → Chip → Chip) (s : Chip) :
    forEach (l ++ m) f s = forEach m f (forEach l f s) := List.foldl_append ..

/-- R268: the credits of the eight VCs come back one after the other. -/
theorem Chip.creditsBack {n : Nat} (b : Nat → Nat) (hn : n ≤ 8) (hon : (s.lk l).onOff = false)
    (hcap : ∀ w < n, s.creditOf l w + b w ≤ min ((s.lk l).peerSize.getD w 0) 1023) :
    s.onlyLink (forEach (List.range n) (fun v t => t.creditBack l v (b v)) s) l (creditRegs l) ∧
    (forEach (List.range n) (fun v t => t.creditBack l v (b v)) s).lk l = s.lk l ∧
    ∀ w, (forEach (List.range n) (fun v t => t.creditBack l v (b v)) s).creditOf l w =
      s.creditOf l w + if w < n then b w else 0 := by
  induction n with
  | zero => exact ⟨.refl .., rfl, fun w => by rw [if_neg (by omega)]; rfl⟩
  | succ n ih =>
    obtain ⟨h1, h2, h3⟩ := ih (by omega) fun w hw => hcap w (by omega)
    rw [List.range_succ, forEach_append]
    generalize forEach (List.range n) (fun v t => t.creditBack l v (b v)) s = t at h1 h2 h3
    have hcap' : t.creditOf l n + b n ≤ min ((t.lk l).peerSize.getD n 0) 1023 := by
      rw [h3, h2, if_neg (by omega)]
      exact hcap n (by omega)
    obtain ⟨g1, g2, g3⟩ := Chip.creditBack_adds (h2 ▸ hon) (by omega) hcap'
    refine ⟨h1.trans g1, g2.trans h2, fun w => (g3 w).trans ?_⟩
    rw [h3]
    by_cases hw : w = n
    · subst hw
      rw [if_neg (by omega), if_pos rfl, if_pos (by omega)]
      omega
    · rw [if_neg hw]
      by_cases hlt : w < n
      · rw [if_pos hlt, if_pos (by omega)]
        omega
      · rw [if_neg hlt, if_neg (by omega)]

end

/-! ## O43 -/

section
variable {s : State} {l : LinkNo} {f : Flit} {q : List Flit}

theorem exec_nullFlit_eq (s : State) (l : LinkNo) (f : Flit) : chipNext s (.nullFlit l f)
    (s.sys.chip.takeFlit l f (fun f => f.typ == 0) fun s => s) := rfl

theorem exec_holdFlit_eq (s : State) (l : LinkNo) (f : Flit) : chipNext s (.holdFlit l f)
    (s.sys.chip.takeFlit l f (fun f => f.typ == 7) fun s => s.bump (lkPg l + 0xC0)) := rfl

/-- A flit that takes a number, and the command that handles it. -/
def numberedFlit (f : Flit) (l : LinkNo) (i : Instr) : Prop :=
  ((1 ≤ f.typ ∧ f.typ ≤ 4) ∧ i = .sequencedFlit l f) ∨ (f.typ = 5 ∧ byteAt f.payload 0 = 1 ∧ i = .lctlCredit l f) ∨
  (f.typ = 5 ∧ byteAt f.payload 0 = 2 ∧ i = .lctlXstate l f)

theorem exec_numbered {i : Instr} (hi : numberedFlit f l i) (hrx : (s.sys.chip.lk l).rx = f :: q) (hst : s.sys.chip.lkState l = 4)
    (hn : seqDist (f.ack + 1) (s.sys.chip.unack l) ≤ seqDist (s.sys.chip.txNext l) (s.sys.chip.unack l)) :
    chipNext s i ((s.sys.chip.ackTaken l f q).seqFlit l f) := by
  rcases hi with ⟨ht, rfl⟩ | ⟨ht, hk, rfl⟩ | ⟨ht, hk, rfl⟩
  · have hexec : exec (.sequencedFlit l f) s = execSequencedFlit l f s := (rfl)
    rw [chipNext, hexec, execSequencedFlit, liftC, Chip.takeFlit_within hrx hst (by simp [ht]) hn]
  · have hexec : exec (.lctlCredit l f) s = execLctlCredit l f s := (rfl)
    rw [chipNext, hexec, execLctlCredit, liftC, Chip.takeFlit_within hrx hst (by simp [ht, hk]) hn]
  · have hexec : exec (.lctlXstate l f) s = execLctlXstate l f s := (rfl)
    rw [chipNext, hexec, execLctlXstate, liftC, Chip.takeFlit_within hrx hst (by simp [ht, hk]) hn]

/-- What handling the flit leaves of the link's numbers and configuration. -/
structure Chip.acknowledged (y b : Chip) (l : Nat) : Prop where
  rxNext : b.rxNext l = y.rxNext l
  credit : ∀ w, b.creditOf l w = y.creditOf l w
  buf : (b.lk l).buf = (y.lk l).buf
  sizes : (b.lk l).sizes = (y.lk l).sizes
  heads : (b.lk l).heads = (y.lk l).heads
  openRx : (b.lk l).openRx = (y.lk l).openRx
  vcEn : (b.lk l).vcEn = (y.lk l).vcEn
  onOff : (b.lk l).onOff = (y.lk l).onOff
  peerSize : (b.lk l).peerSize = (y.lk l).peerSize

theorem Chip.ackTaken_acknowledged {y : Chip} {l : Nat}
    (hn : seqDist (f.ack + 1) (y.unack l) ≤ seqDist (y.txNext l) (y.unack l)) : y.acknowledged (y.ackTaken l f q) l := by
  obtain ⟨h, hx⟩ := Chip.ackReceive_only (q := q) hn
  have hreg : ∀ {k : Nat}, k ≠ 0x4C → ∀ hi lo, (y.ackTaken l f q).fld (lkPg l + k) hi lo = y.fld (lkPg l + k) hi lo :=
    fun hk hi lo => h.fld (fun e => lkPg_add_ne l hk (List.mem_singleton.1 e)) hi lo
  unfold Lnk.acked at hx
  refine ⟨hreg (by decide) _ _, fun w => ?_, ?_, ?_, ?_, ?_, ?_, ?_, ?_⟩
  · have := hreg (k := 0x88 + 4 * w) (by omega) 25 16
    rwa [← Nat.add_assoc] at this
  all_goals rw [Chip.ackTaken, hx]

/-- R262: a flit in order advances RX_NEXT; the rest is what its kind does. -/
theorem seqFlit_accepted (hrx : (s.sys.chip.lk l).rx = f :: q) (hst : s.sys.chip.lkState l = 4)
    (hn : seqDist (f.ack + 1) (s.sys.chip.unack l) ≤ seqDist (s.sys.chip.txNext l) (s.sys.chip.unack l)) {i : Instr}
    (hi : numberedFlit f l i) {t : Chip} (heq : (s.sys.chip.ackTaken l f q).seqFlit l f = t) {R : List Nat}
    (ht : ((s.sys.chip.ackTaken l f q).rxAdvance l).onlyLink t l R) (hR : lkPg l + 0x50 ∉ R) :
    chipNext s i t ∧ (s.sys.chip.ackTaken l f q).onlyLink t l ((lkPg l + 0x50) :: R) ∧
    t.rxNext l = (s.sys.chip.rxNext l + 1) % 4096 := by
  have hk := Chip.ackTaken_acknowledged (q := q) hn
  refine ⟨heq ▸ exec_numbered hi hrx hst hn, ?_, ?_⟩
  · exact ((Chip.onlyLink_rxAdvance ..).mono fun a ha => List.mem_cons.2 (.inl (List.mem_singleton.1 ha))).trans
      (ht.mono fun a ha => List.mem_cons_of_mem _ ha)
  · rw [← hk.rxNext, ← Chip.rxNext_rxAdvance]
    exact ht.fld hR _ _

end

theorem Chip.lctl_credits {s : Chip} {l : Nat} (hk : byteAt f.payload 0 = 1) :
    s.lctl l f = forEach (List.range 8) (fun v s => s.creditBack l v (byteAt f.payload (1 + v))) s := by
  simp only [Chip.lctl, hk]

theorem Chip.lctl_xstate {s : Chip} {l : Nat} (hk : byteAt f.payload 0 = 2) :
    s.lctl l f = s.setLk l { s.lk l with off := byteAt f.payload 1 } := by
  simp only [Chip.lctl, hk]

theorem Chip.creditOf_rxAdvance (s : Chip) (l w : Nat) : (s.rxAdvance l).creditOf l w = s.creditOf l w :=
  Chip.fld_setFld_ne _ _ _ _ _ _ (by omega)

/-- Settles O43: the flit is handled where its ACK leaves the link UP; what it does is said by the lemmas on
the parts of a sequenced flit, on what the ACK leaves. -/
theorem linkFlits : Obligations.LinkFlits := by
  intro s l f q y x pg u n b d v k gives counts accepts hrx hst
  refine ⟨Chip.ackReceive_none, fun h0 hn => ?_, fun hn ht => ?_, fun hn => ?_⟩
  · obtain ⟨a1, a2, a3, a4, a5, -⟩ := Chip.ackReceive_frees (q := q) h0 hn
    exact ⟨a1, a2, a3, a4, a5⟩
  · have hdown := Chip.linkDown_fell ((y.setLk l { y.lk l with rx := q }).protoErr l) (l := l) (cause := 4) false true l.isLt (by decide)
    rw [← Chip.ackTaken_beyond hn hst] at hdown
    refine ⟨y.ackTaken l f q, ?_, hdown.state, hdown.why, hdown.ask⟩
    refine (exec_nullFlit_eq s l f).trans ?_
    rw [Chip.takeFlit_eq hrx hst (by simp [ht]), if_neg (by rw [hdown.state]; decide)]
  have hb : y.acknowledged b l := Chip.ackTaken_acknowledged hn
  refine ⟨fun ht => ?_, fun ht => ?_, fun hd i hi => ?_, fun hd hvc hcr => ?_, ?_⟩
  · refine (exec_nullFlit_eq s l f).trans ?_
    rw [Chip.takeFlit_within hrx hst (by simp [ht]) hn]
    rfl
  · obtain ⟨c1, c2, c3⟩ := b.counts_bump l (pg + 0xC0)
    refine ⟨b.bump (pg + 0xC0), (exec_holdFlit_eq s l f).trans ?_, c1, c2, c3⟩
    rw [Chip.takeFlit_within hrx hst (by simp [ht]) hn]
    rfl
  · have hexec : chipNext s i (b.seqFlit l f) := exec_numbered hi hrx hst hn
    have hd' : seqDist (b.rxNext l) f.seq = d := by rw [hb.rxNext]
    refine ⟨fun h => ?_, fun h => ?_⟩
    · obtain ⟨c1, c2, c3⟩ := b.counts_bump l (pg + 0x70)
      rw [Chip.seqFlit_late (by omega) (by omega)] at hexec
      exact ⟨_, hexec, c1, c2, c3⟩
    · obtain ⟨c1, c2, c3⟩ := b.counts_bump l (pg + 0x74)
      rw [Chip.seqFlit_early (by omega)] at hexec
      exact ⟨_, hexec, c1, c2, c3⟩
  · have hd' : seqDist (b.rxNext l) f.seq = 0 := by rw [hb.rxNext]; exact hd
    have hvc' : gateBit (b.lk l).vcEn f.vc = true := by rw [hb.vcEn]; exact hvc
    have hcr' : (b.rxAdvance l).creditBack l f.vc f.fc = b.rxAdvance l :=
      Chip.creditBack_none _ (hcr.imp (fun h => hb.onOff.trans h) id)
    have hno : ∀ h : Nat, h ∉ ([] : List Nat) := fun _ => by simp
    have hcount : bufCount (b.lk l) f.vc = bufCount x v := by unfold bufCount; rw [hb.buf]
    have hsize : sizeOf (b.lk l) f.vc = sizeOf x v := by unfold sizeOf; rw [hb.sizes]
    refine ⟨fun ht hk => ?_, fun h1 h4 hv hroom => ?_, fun h1 h4 hfull => ?_⟩
    · have heq := Chip.seqFlit_lctl hd' hvc' ht
      rw [hcr', Chip.lctl_xstate hk] at heq
      obtain ⟨e1, e2, e3⟩ := seqFlit_accepted hrx hst hn (.inr (.inr ⟨ht, hk, rfl⟩)) heq (Chip.onlyLink_setLk _ l _ []) (hno _)
      exact ⟨_, e1, e2, e3, Chip.lk_setLk ..⟩
    · have heq := Chip.seqFlit_room hd' hvc' (by omega) (by omega) hv
      rw [hcr'] at heq
      refine ⟨fun ht hopen m hm hone => ?_, fun o ho => ⟨fun ht => ?_, fun ht hlast => ?_⟩⟩
      · rw [if_pos ht] at heq
        obtain ⟨g1, g2, g3, g4⟩ := Chip.headFlit_opens (s := b.rxAdvance l) (l := l) hv
          ((congrArg (KMap.at · none v) hb.openRx).trans hopen) hm hone
        obtain ⟨e1, e2, e3⟩ := seqFlit_accepted hrx hst hn (.inl ⟨⟨h1, h4⟩, rfl⟩) heq g1 (hno _)
        exact ⟨_, e1, e2, e3, g2.trans (congrArg (· ++ [f]) hb.buf), g3.trans hb.heads, g4⟩
      · rw [if_neg (by omega)] at heq
        obtain ⟨g1, g2, g3⟩ := (Chip.laterFlit_goes (s := b.rxAdvance l) (l := l)
          ((congrArg (KMap.at · none v) hb.openRx).trans ho)).1 ht
        obtain ⟨e1, e2, e3⟩ := seqFlit_accepted hrx hst hn (.inl ⟨⟨h1, h4⟩, rfl⟩) heq g1 (hno _)
        exact ⟨_, e1, e2, e3, g2.trans (congrArg (· ++ [f]) hb.buf), g3⟩
      · rw [if_neg (by omega)] at heq
        obtain ⟨g1, g2, g3⟩ := (Chip.laterFlit_goes (s := b.rxAdvance l) (l := l)
          ((congrArg (KMap.at · none v) hb.openRx).trans ho)).2 (by omega) hlast
        obtain ⟨e1, e2, e3⟩ := seqFlit_accepted hrx hst hn (.inl ⟨⟨h1, h4⟩, rfl⟩) heq g1 (hno _)
        exact ⟨_, e1, e2, e3, g2.trans (congrArg (· ++ [f]) hb.buf), g3⟩
    · have heq := Chip.seqFlit_full hd' hvc' (by omega) (by omega)
      have hexec : chipNext s (.sequencedFlit l f) (b.seqFlit l f) := exec_numbered (.inl ⟨⟨h1, h4⟩, rfl⟩) hrx hst hn
      rw [heq] at hexec
      have hpage : ∀ {j : Nat}, j < 0x1000 → belowPt (lkPg l + j) := fun hj => by have := l.isLt; unfold belowPt lkPg; omega
      refine ⟨_, hexec, (Chip.reports_notice ..).links, ?_, ?_⟩
      · refine Eq.trans ?_ hb.rxNext
        unfold Chip.rxNext Chip.fld
        rw [Chip.notice_reg _ _ _ (hpage (by decide)) (by omega) (by omega), Chip.reg_bump_ne _ (by omega)]
      · rw [Chip.notice_reg _ _ _ (hpage (by decide)) (by omega) (by omega)]
        exact Chip.reg_bumpBy ..
  · intro hd hvc ht hk hon back hv hcap
    have hd' : seqDist (b.rxNext l) f.seq = 0 := by rw [hb.rxNext]; exact hd
    have hvc' : gateBit (b.lk l).vcEn f.vc = true := by rw [hb.vcEn]; exact hvc
    have hcap' : ∀ w < 8, (b.rxAdvance l).creditOf l w + back w ≤ min (((b.rxAdvance l).lk l).peerSize.getD w 0) 1023 := by
      intro w hw
      have h := hcap w hw
      rw [Chip.lk_rxAdvance, hb.peerSize, Chip.creditOf_rxAdvance, hb.credit]
      exact h
    have hback : back v = byteAt f.payload (1 + v) + f.fc := by simp [back]
    obtain ⟨g1, g2, g3⟩ := Chip.creditBack_adds (s := b.rxAdvance l) (l := l) (v := v) (k := f.fc) (hb.onOff.trans hon) hv
      (by have := hcap' v hv; omega)
    have heq := Chip.seqFlit_lctl hd' hvc' ht
    rw [Chip.lctl_credits hk] at heq
    generalize (b.rxAdvance l).creditBack l f.vc f.fc = z at g1 g2 g3 heq
    have hon' : (z.lk l).onOff = false := by rw [g2]; exact hb.onOff.trans hon
    obtain ⟨k1, k2, k3⟩ := Chip.creditsBack (s := z) (l := l) (n := 8) (fun w => byteAt f.payload (1 + w)) (by decide) hon' <| by
      intro w hw
      have h := hcap' w hw
      rw [g2, g3]
      simp only [back] at h
      omega
    obtain ⟨e1, e2, e3⟩ := seqFlit_accepted hrx hst hn (.inr (.inl ⟨ht, hk, rfl⟩)) heq (g1.trans k1) (by simp [creditRegs]; omega)
    refine ⟨_, e1, e2, e3, k2.trans g2, fun w hw => ?_⟩
    rw [k3, g3, if_pos hw, Chip.creditOf_rxAdvance, hb.credit]
    simp only [back]
    omega

end Sys2Proof.Machine

/-! PROOF of O44 (R264, R265, R268, R273, R274, R276, R280, R281, R301, R379): the timers of a link and what
brings it down. -/

namespace Sys2Proof.Machine

-- One after the other: side by side the proofs ask for more memory than the check grants.
set_option Elab.async false

open Laws

/-! ## What a reset of a link cuts (R379) -/

/-- t is s but for link l and what a link going down writes, and link l keeps what keeps it up. -/
structure Chip.cutsOnly (s t : Chip) (l : Nat) : Prop where
  downs : s.downs t l
  lk : ∃ q, t.lk l = { s.lk l with txq := q }
  page : ∀ k, 0x40 ≤ k → k < 0x1000 → t.reg (lkPg l + k) = s.reg (lkPg l + k)

theorem Chip.cutsOnly.refl (s : Chip) (l : Nat) : s.cutsOnly s l := ⟨.refl .., ⟨_, rfl⟩, fun _ _ _ => rfl⟩

theorem Chip.cutsOnly.trans {s t u : Chip} {l : Nat} (h : s.cutsOnly t l) (h' : t.cutsOnly u l) : s.cutsOnly u l := by
  obtain ⟨q, hq⟩ := h.lk
  obtain ⟨q', hq'⟩ := h'.lk
  exact ⟨h.downs.trans h'.downs, ⟨q', by rw [hq', hq]⟩, fun k a b => (h'.page k a b).trans (h.page k a b)⟩

theorem Chip.cutsOnly_of {s t : Chip} {l : Nat} (hd : s.downs t l) (hl : t.links = s.links)
    (hp : ∀ k, 0x40 ≤ k → k < 0x1000 → t.reg (lkPg l + k) = s.reg (lkPg l + k)) : s.cutsOnly t l :=
  ⟨hd, ⟨(s.lk l).txq, congrArg (fun m : KMap Lnk => KMap.at m {} l) hl⟩, hp⟩

theorem Chip.cutsOnly_cutReqs (s : Chip) (l : Nat) (p : Req → Bool) (st : Status) : s.cutsOnly (s.cutReqs p st) l :=
  Chip.cutsOnly_of (s.downs_cutReqs l p st) rfl fun _ _ _ => rfl

theorem Chip.cutsOnly_forEach {α : Type} {l : Nat} (as : List α) {f : α → Chip → Chip}
    (hf : ∀ a (s : Chip), s.cutsOnly (f a s) l) (s : Chip) : s.cutsOnly (forEach as f s) l :=
  forEach_keeps (s.cutsOnly · l) (fun a _ t ht => ht.trans (hf a t)) (.refl s l)

theorem Chip.cutsOnly_dropReq (s : Chip) (l id : Nat) : s.cutsOnly (s.dropReq id) l :=
  Chip.cutsOnly_of ⟨rfl, rfl, rfl, fun _ _ => rfl, fun _ _ => rfl⟩ rfl fun _ _ _ => rfl

theorem Chip.cutsOnly_sendRecall (s : Chip) {l : Nat} (hl : l < 96) (h n k off len : Nat) :
    s.cutsOnly (s.sendRecall h n k off len) l := by
  unfold Chip.sendRecall Chip.toHost
  dsimp only
  split
  · exact Chip.cutsOnly_of ⟨rfl, rfl, rfl, fun _ _ => rfl, fun _ _ => rfl⟩ rfl fun _ _ _ => rfl
  · have hr := (s.reports_bump (rtPg + 0x70)).trans (Chip.reports_notice _ rtPg 0)
    have hreg : ∀ a, belowPt a → (a < rtPg ∨ rtPg + 0x1000 ≤ a) → ((s.bump (rtPg + 0x70)).notice rtPg 0).reg a = s.reg a :=
      fun a hb ha => (Chip.notice_reg _ _ _ hb (by omega) (by omega)).trans (Chip.reg_bump_ne _ (by omega))
    refine Chip.cutsOnly_of (hr.downs fun a ha => ?_) hr.links fun k h h' => ?_
    · unfold downReg at ha
      exact hreg a (by by_contra h; exact ha (.inl h)) (by omega)
    · exact hreg _ (by unfold belowPt lkPg; omega) (by unfold lkPg rtPg; omega)

theorem Chip.cutsOnly_sendLate (s : Chip) {l : Nat} (hl : l < 96) : s.cutsOnly s.sendLate l := by
  unfold Chip.sendLate
  refine Chip.cutsOnly_forEach _ (fun t s => ?_) s
  dsimp only
  have hupd : s.cutsOnly (s.updTrk (fun x => x.rseq == t.rseq) fun x => { x with late := x.late.filter fun h =>
      !(t.late.filter fun h => (s.openRdcs t.kind t.what t.count h).isEmpty).contains h }) l :=
    Chip.cutsOnly_of ⟨rfl, rfl, rfl, fun _ _ => rfl, fun _ _ => rfl⟩ rfl fun _ _ _ => rfl
  exact hupd.trans (Chip.cutsOnly_forEach _ (fun h s => s.cutsOnly_sendRecall hl ..) _)

theorem Chip.cutsOnly_reapReqs (s : Chip) {l : Nat} (hl : l < 96) : s.cutsOnly s.reapReqs l := by
  unfold Chip.reapReqs
  split
  · exact .refl ..
  · exact (Chip.cutsOnly_forEach _ (f := fun (r : Req) s => s.dropReq r.id) (fun r s => s.cutsOnly_dropReq l r.id) s).trans
      (Chip.cutsOnly_sendLate _ hl)

theorem Chip.cutsOnly_resetQueue (s : Chip) {l : Nat} (hl : l < 96) : s.cutsOnly (s.resetQueue l) l := by
  unfold Chip.resetQueue
  dsimp only
  refine .trans ⟨s.downs_setLk l _, ⟨_, Chip.lk_setLk ..⟩, fun _ _ _ => rfl⟩ (Chip.cutsOnly_reapReqs _ hl)

/-! ## The timers -/

section
variable {s : State} {l : LinkNo}

/-- What the statement says of a link that goes down. -/
def linkFalls (s : State) (l : LinkNo) (i : Instr) (cause : Nat) (reset : Bool) (p : Lnk → Prop) : Prop :=
  ∃ t, chipNext s i t ∧ t.lkState l = 1 ∧ t.fld (lkPg l + 0xB0) 3 0 = cause ∧
    t.pair (lkPg l + 0xB4) = s.sys.chip.now % 2 ^ 64 ∧
    (∃ a, (t.lk l).ask = some a ∧ a.reset = reset ∧ a.left = 16 ∧ a.own = true) ∧ (t.lk l).rx = [] ∧
    (t.lk l).holdAt = none ∧ (t.lk l).replay = (s.sys.chip.lk l).replay ∧ p (t.lk l) ∧
    (s.sys.chip.isMaster = true ∨ s.sys.chip.ft.had = true ∨ s.sys.chip.ftParent = none →
      ∀ k : Nat, k ≠ l.val → t.lk k = s.sys.chip.lk k)

theorem linkFalls_of {i : Instr} {cause : Nat} {reset lead : Bool} (hc : cause < 16) (h5 : cause ≠ 5)
    (hexec : chipNext s i (s.sys.chip.linkDown l cause reset lead)) : linkFalls s l i cause reset fun _ => True := by
  have h := s.sys.chip.linkDown_fell (l := l) (cause := cause) reset lead l.isLt hc
  obtain ⟨a, h1, h2, h3, h4⟩ := h.ask
  exact ⟨_, hexec, h.state, h.why, h.tick, ⟨a, h1, h2, h3, h4.trans (by simpa using h5)⟩, h.rx, h.holdAt, h.replay, trivial, h.others⟩

theorem chipNext_same {i : Instr} (h : chipNext s i s.sys.chip) : exec i s = .next s := h

theorem exec_retrain_eq (s : State) (l : LinkNo) : chipNext s (.retrain l)
    (if s.sys.chip.lkState l = 4 then s.sys.chip.linkDown l 6 false true else s.sys.chip) := rfl

theorem retrain_falls : if s.sys.chip.lkState l = 4 then linkFalls s l (.retrain l) 6 false fun _ => True
    else exec (.retrain l) s = .next s := by
  have hexec := exec_retrain_eq s l
  split
  next h =>
    rw [if_pos h] at hexec
    exact linkFalls_of (by decide) (by decide) hexec
  next h =>
    rw [if_neg h] at hexec
    exact chipNext_same hexec

theorem exec_replayStall_eq (s : State) (l : LinkNo) : chipNext s (.replayStall l)
    (if s.sys.chip.timerOn l && (decide (max (s.sys.chip.fld (lkPg l + 0x54) 19 16) 1 ≤ (s.sys.chip.lk l).expiries) ||
        decide ((s.sys.chip.lk l).uAt + 4608 ≤ s.sys.chip.now))
      then s.sys.chip.linkDown l 3 false true else s.sys.chip) := rfl

theorem replayStall_falls : if s.sys.chip.timerOn l = true ∧
      (max (s.sys.chip.fld (lkPg l + 0x54) 19 16) 1 ≤ (s.sys.chip.lk l).expiries ∨ (s.sys.chip.lk l).uAt + 4608 ≤ s.sys.chip.now)
    then linkFalls s l (.replayStall l) 3 false fun _ => True else exec (.replayStall l) s = .next s := by
  have hexec := exec_replayStall_eq s l
  split
  next h =>
    rw [if_pos (by simpa using h)] at hexec
    exact linkFalls_of (by decide) (by decide) hexec
  next h =>
    rw [if_neg (by simpa using h)] at hexec
    exact chipNext_same hexec

theorem exec_replayTimer_eq (s : State) (l : LinkNo) : chipNext s (.replayTimer l)
    (if s.sys.chip.timerOn l && decide ((s.sys.chip.lk l).timerAt + max (s.sys.chip.fld (lkPg l + 0x54) 15 0) 512 ≤ s.sys.chip.now)
      then (s.sys.chip.bump (lkPg l + 0x58)).setLk l { s.sys.chip.lk l with
        replayPos := some 0
        timerAt := s.sys.chip.now
        expiries := (s.sys.chip.lk l).expiries + 1 }
      else s.sys.chip) := rfl

theorem exec_creditAge_eq (s : State) (l : LinkNo) : chipNext s (.creditAge l)
    (if !(s.sys.chip.lk l).onOff && (s.sys.chip.lk l).owed.any (fun e => e.2.any fun t =>
        decide (t + 8 * max (s.sys.chip.fld (lkPg l + 0x84) 15 8) 1 ≤ s.sys.chip.now))
      then s.sys.chip.setLk l { s.sys.chip.lk l with creditDue := true } else s.sys.chip) := rfl

theorem exec_holdTimeout_some {a : Nat} (h : (s.sys.chip.lk l).holdAt = some a) : chipNext s (.holdTimeout l)
    (if a + 2048 ≤ s.sys.chip.now then (s.sys.chip.holdEnd l).notice (lkPg l) 8 else s.sys.chip) := by
  have hexec : exec (.holdTimeout l) s = execHoldTimeout l s := (rfl)
  rw [chipNext, hexec, execHoldTimeout, liftC, h]

theorem exec_holdTimeout_none (h : (s.sys.chip.lk l).holdAt = none) : chipNext s (.holdTimeout l) s.sys.chip := by
  have hexec : exec (.holdTimeout l) s = execHoldTimeout l s := (rfl)
  rw [chipNext, hexec, execHoldTimeout, liftC, h]

theorem Chip.holdEnd_some {y : Chip} {l a : Nat} (h : (y.lk l).holdAt = some a) :
    y.holdEnd l = (y.setFlag (lkPg l + 0x44) 3 false).setLk l { y.lk l with
      holdAt := none
      timerAt := resumeAt (y.lk l).timerAt a y.now
      uAt := resumeAt (y.lk l).uAt a y.now } := by
  unfold Chip.holdEnd
  dsimp only
  rw [h]

theorem holdTimeout_ends {a : Nat} (h : (s.sys.chip.lk l).holdAt = some a) (hn : a + 2048 ≤ s.sys.chip.now) :
    ∃ t, chipNext s (.holdTimeout l) t ∧ t.inHold l = false ∧ t.lkState l = s.sys.chip.lkState l ∧
      t.lk l = { s.sys.chip.lk l with
        holdAt := none
        timerAt := resumeAt (s.sys.chip.lk l).timerAt a s.sys.chip.now
        uAt := resumeAt (s.sys.chip.lk l).uAt a s.sys.chip.now } := by
  have hexec := exec_holdTimeout_some h
  rw [if_pos hn] at hexec
  have hreg : ((s.sys.chip.holdEnd l).notice (lkPg l) 8).reg (lkPg l + 0x44) =
      (s.sys.chip.setFlag (lkPg l + 0x44) 3 false).reg (lkPg l + 0x44) := by
    rw [Chip.notice_reg _ _ _ (by have := l.isLt; unfold belowPt lkPg; omega) (by omega) (by omega), Chip.holdEnd_some h, Chip.reg_setLk]
  refine ⟨_, hexec, ?_, ?_, ?_⟩
  · unfold Chip.inHold Chip.flag
    rw [hreg]
    exact Chip.flag_setFlag _ _ _ (by decide)
  · unfold Chip.lkState Chip.fld
    rw [hreg]
    exact Chip.fld_setFlag_apart _ _ _ (by decide) (.inl (by decide))
  · refine (congrArg (fun m : KMap Lnk => KMap.at m {} l) (Chip.reports_notice ..).links).trans ?_
    rw [Chip.holdEnd_some h]
    exact Chip.lk_setLk ..

theorem exec_initTimeout_eq (s : State) (l : LinkNo) : chipNext s (.initTimeout l)
    (if s.sys.chip.lkState l == 3 && !(!lnkCfgOk (s.sys.chip.lk l) || match (s.sys.chip.lk l).peer with
          | some i => !lnkAgrees (s.sys.chip.lk l) i
          | none => false) && decide ((s.sys.chip.lk l).initAt + 2000 ≤ s.sys.chip.now)
      then s.sys.chip.linkDown l 7 false true else s.sys.chip) := rfl

theorem initTimeout_falls (hst : s.sys.chip.lkState l = 3) (hcfg : lnkCfgOk (s.sys.chip.lk l) = true)
    (hpeer : (s.sys.chip.lk l).peer = none ∨ ∃ i, (s.sys.chip.lk l).peer = some i ∧ lnkAgrees (s.sys.chip.lk l) i = true) :
    if (s.sys.chip.lk l).initAt + 2000 ≤ s.sys.chip.now then linkFalls s l (.initTimeout l) 7 false fun _ => True
    else exec (.initTimeout l) s = .next s := by
  have hexec := exec_initTimeout_eq s l
  have hstays : (match (s.sys.chip.lk l).peer with
      | some i => !lnkAgrees (s.sys.chip.lk l) i
      | none => false) = false := by
    rcases hpeer with h | ⟨i, h, ha⟩
    · rw [h]
    · rw [h]
      simpa using ha
  rw [hstays] at hexec
  split
  next h =>
    rw [if_pos (by simp [hst, hcfg, h])] at hexec
    exact linkFalls_of (by decide) (by decide) hexec
  next h =>
    rw [if_neg (by simp [h])] at hexec
    exact chipNext_same hexec

theorem exec_lockTimeout_eq (s : State) (l : LinkNo) : chipNext s (.lockTimeout l)
    (if s.sys.chip.lkState l = 2 ∧ (s.sys.chip.lk l).lockAt + 1000000 ≤ s.sys.chip.now
      then (s.sys.chip.setLkState l 1).setLk l { s.sys.chip.lk l with mustFull := true } else s.sys.chip) := rfl

theorem exec_ftPeriodExpiry_eq (s : State) (l : LinkNo) : chipNext s (.ftPeriodExpiry l)
    (if s.sys.chip.timeLink l && decide ((s.sys.chip.lk l).askedAt + max (s.sys.chip.fld (ftPg + 0x6C) 15 0) 256 ≤ s.sys.chip.now)
      then s.sys.chip.setLk l { s.sys.chip.lk l with
        timeDue := true
        askedAt := s.sys.chip.now } else s.sys.chip) := rfl

/-! ## The reset of a link -/

/-- R379: the link as its reset finds it, before it is taken down. -/
def Chip.resetCut (s : Chip) (l : Nat) : Chip :=
  let t := (s.cutReqs (fun r => r.port == l) .reset).resetQueue l
  t.setLk l { t.lk l with
    resume := false
    mustFull := true
    resetting := true }

theorem exec_linkReset_eq (s : State) (l : LinkNo) : chipNext s (.linkReset l) (s.sys.chip.resetLink l) := rfl

theorem Chip.resetLink_eq (s : Chip) (l : Nat) : s.resetLink l =
    if (s.linkRole l).1 = 0 ∨ (s.lk l).resetting then s
    else if (s.resetCut l).lkState l = 4 ∨ (s.resetCut l).lkState l = 3 then (s.resetCut l).linkDown l 8 true true
    else if ((s.resetCut l).lkState l = 2 ∨ ((s.resetCut l).lkState l = 1 ∧
        (((s.resetCut l).setFld (lkPg l + 0x44) 11 8 0).lk l).ask.isSome))
      then ((s.resetCut l).setFld (lkPg l + 0x44) 11 8 0).startAsk l true true true
    else ((s.resetCut l).setFld (lkPg l + 0x44) 11 8 0).setLkState l 1 := rfl

theorem Chip.resetCut_facts (s : Chip) {l : Nat} (hl : l < 96) :
    s.downs (s.resetCut l) l ∧ (s.resetCut l).lkState l = s.lkState l ∧
    ∃ q, (s.resetCut l).lk l = { s.lk l with
      txq := q
      resume := false
      mustFull := true
      resetting := true } := by
  have h := (s.cutsOnly_cutReqs l (fun r => r.port == l) .reset).trans (Chip.cutsOnly_resetQueue _ hl)
  obtain ⟨q, hq⟩ := h.lk
  unfold Chip.resetCut
  dsimp only
  generalize (s.cutReqs (fun r => r.port == l) .reset).resetQueue l = t at h hq
  refine ⟨h.downs.trans (Chip.downs_setLk ..), ?_, q, ?_⟩
  · unfold Chip.lkState Chip.fld
    rw [Chip.reg_setLk, h.page _ (by decide) (by decide)]
  · rw [Chip.lk_setLk, hq]

theorem linkReset_falls (hrole : (s.sys.chip.linkRole l).1 ≠ 0) (hres : (s.sys.chip.lk l).resetting = false)
    (hst : s.sys.chip.lkState l = 3 ∨ s.sys.chip.lkState l = 4) :
    linkFalls s l (.linkReset l) 8 true fun z => z.resetting = true ∧ z.resume = false ∧ z.mustFull = true := by
  have hexec := exec_linkReset_eq s l
  obtain ⟨hdown, hstate, q, hlk⟩ := s.sys.chip.resetCut_facts l.isLt
  rw [Chip.resetLink_eq, if_neg (by simp [hrole, hres]), if_pos (by omega)] at hexec
  have h := (s.sys.chip.resetCut l).linkDown_fell (l := l) (cause := 8) true true l.isLt (by decide)
  have hothers : s.sys.chip.isMaster = true ∨ s.sys.chip.ft.had = true ∨ s.sys.chip.ftParent = none →
      ∀ k : Nat, k ≠ l.val → ((s.sys.chip.resetCut l).linkDown l 8 true true).lk k = s.sys.chip.lk k := by
    intro hft k hk
    refine (h.others ?_ k hk).trans (hdown.others k hk)
    rcases hft with hft | hft | hft
    · refine .inl (Eq.trans ?_ hft)
      unfold Chip.isMaster Chip.flag
      rw [hdown.regs _ (by have := l.isLt; unfold downReg lkPg rtPg pairPg ftPg belowPt; omega)]
    · exact .inr (.inl (by rw [hdown.ft, hft]))
    · exact .inr (.inr (hdown.noParent l.isLt (.inr (.inr ⟨hstate, by rw [hlk]⟩)) hft))
  refine ⟨_, hexec, h.state, h.why, h.tick.trans (by rw [hdown.now]), h.ask, h.rx, h.holdAt, h.replay.trans (by rw [hlk]),
    ⟨h.resetting.trans (by rw [hlk]), (h.full rfl).2, (h.full rfl).1⟩, hothers⟩

theorem linkReset_trains (hrole : (s.sys.chip.linkRole l).1 ≠ 0) (hres : (s.sys.chip.lk l).resetting = false)
    (h3 : s.sys.chip.lkState l ≠ 3) (h4 : s.sys.chip.lkState l ≠ 4) :
    ∃ t, chipNext s (.linkReset l) t ∧ t.lkState l = 1 ∧ (t.lk l).resetting = true ∧ (t.lk l).resume = false ∧
      (t.lk l).mustFull = true ∧ (∀ k : Nat, k ≠ l.val → t.lk k = s.sys.chip.lk k) ∧
      if s.sys.chip.lkState l = 2 ∨ (s.sys.chip.lkState l = 1 ∧ (s.sys.chip.lk l).ask.isSome = true)
      then (t.lk l).ask = some ⟨true, 16, true, s.sys.chip.now⟩ else (t.lk l).ask = (s.sys.chip.lk l).ask := by
  have hexec := exec_linkReset_eq s l
  obtain ⟨hdown, hstate, q, hlk⟩ := s.sys.chip.resetCut_facts l.isLt
  rw [Chip.resetLink_eq, if_neg (by simp [hrole, hres]), if_neg (by omega), hstate] at hexec
  generalize s.sys.chip.resetCut l = c at hdown hlk hexec
  have hlk' : (c.setFld (lkPg l + 0x44) 11 8 0).lk l = c.lk l := rfl
  have hothers' : ∀ k, (c.setFld (lkPg l + 0x44) 11 8 0).lk k = c.lk k := fun _ => rfl
  have hnow : (c.setFld (lkPg l + 0x44) 11 8 0).now = s.sys.chip.now := hdown.now
  rw [hlk', hlk] at hexec
  generalize c.setFld (lkPg l + 0x44) 11 8 0 = d at hlk' hothers' hnow hexec
  split
  next hask =>
    rw [if_pos hask] at hexec
    have h := d.startAsk_asks l true true true
    refine ⟨_, hexec, d.startAsk_state .., h.resetting.trans (by rw [hlk', hlk]), (h.full rfl).2, (h.full rfl).1, fun k hk => ?_,
      h.ask.trans (by rw [hnow])⟩
    exact ((d.downs_startAsk l true true true).others k hk).trans ((hothers' k).trans (hdown.others k hk))
  next hask =>
    rw [if_neg hask] at hexec
    have hd : (d.setLkState l 1).lk l = c.lk l := hlk'
    refine ⟨_, hexec, d.lkState_setLkState l 1, ?_, ?_, ?_, fun k hk => ?_, ?_⟩
    · rw [hd, hlk]
    · rw [hd, hlk]
    · rw [hd, hlk]
    · exact (hothers' k).trans (hdown.others k hk)
    · rw [hd, hlk]

theorem linkReset_same (h : (s.sys.chip.linkRole l).1 = 0 ∨ (s.sys.chip.lk l).resetting = true) :
    exec (.linkReset l) s = .next s := by
  have hexec := exec_linkReset_eq s l
  rw [Chip.resetLink_eq, if_pos h] at hexec
  exact chipNext_same hexec

end

/-- Settles O44: each timer has its condition and otherwise changes nothing; what brings the link down is
`linkDown`, whose facts are those of `Chip.fell`. -/
theorem linkTimers : Obligations.LinkTimers := by
  intro s l y x pg gives same falls stalled
  refine ⟨retrain_falls, replayStall_falls, ?_, ?_, fun a ha => ⟨holdTimeout_ends ha, fun hn => ?_⟩, exec_holdTimeout_none,
    initTimeout_falls, ?_, linkReset_falls, linkReset_trains, linkReset_same, ?_⟩
  · have hexec := exec_replayTimer_eq s l
    split
    next h =>
      rw [if_pos (by simpa using h)] at hexec
      obtain ⟨hw, -, hc⟩ := y.counts_bump l (pg + 0x58)
      exact ⟨_, hexec, hw.trans (Chip.onlyLink_setLk ..), Chip.lk_setLk .., hc⟩
    next h =>
      rw [if_neg (by simpa using h)] at hexec
      exact chipNext_same hexec
  · have hexec := exec_creditAge_eq s l
    split
    next h =>
      rw [if_pos (by simpa using h)] at hexec
      exact hexec
    next h =>
      rw [if_neg (by simpa using h)] at hexec
      exact chipNext_same hexec
  · have hexec := exec_holdTimeout_some ha
    rw [if_neg (Nat.not_le.2 hn)] at hexec
    exact chipNext_same hexec
  · have hexec := exec_lockTimeout_eq s l
    split
    next h =>
      rw [if_pos h] at hexec
      have hw : y.onlyLink (y.setLkState l 1) l [pg + 0x44] := y.onlyLink_setReg l _ (List.mem_singleton.2 rfl)
      exact ⟨_, hexec, hw.trans (Chip.onlyLink_setLk ..),
        y.lkState_setLkState l 1, Chip.lk_setLk ..⟩
    next h =>
      rw [if_neg h] at hexec
      exact chipNext_same hexec
  · have hexec := exec_ftPeriodExpiry_eq s l
    split
    next h =>
      rw [if_pos (by simpa using h)] at hexec
      exact hexec
    next h =>
      rw [if_neg (by simpa using h)] at hexec
      exact chipNext_same hexec

end Sys2Proof.Machine

/-! PROOF of O45 (R255, R259, R267, R273, R276 to R279, R386): training, LOCK, INIT and UP of a link. -/

namespace Sys2Proof.Machine

-- One after the other: side by side the proofs ask for more memory than the check grants.
set_option Elab.async false

open Laws

/-! ## A fence of a link (R386) -/

theorem Chip.fenceUnit_link {s : Chip} {l : Nat} (cause : Cause) (hf : s.fenced1 (.link l) = false) :
    FenceRec.mk (.link l) cause s.now false false ∈ (s.fenceUnit (.link l) cause).errs.fences := by
  have hcut : ∀ (t : Chip) (p : Req → Bool) (st : Status), ((t.cutReqs p st).cutLink l st).errs = t.errs := fun _ _ _ => rfl
  have hp := (s.reqsGoOn_pairFence (.link l)).now
  unfold Chip.fenceUnit
  rw [if_neg (ne_true_of_eq_false hf)]
  dsimp only
  rw [hcut]
  dsimp only
  rw [Chip.setFld_errs, hp]
  exact List.mem_append_right _ (List.mem_singleton.2 rfl)

theorem Chip.unitError_link {s : Chip} {l : Nat} (cause : Cause) (pg bit info : Nat) (inj : Bool)
    (hc : s.isContained (.link l) = false) (hh : s.handling (.link l) = none) (hf : s.fenced1 (.link l) = false) :
    FenceRec.mk (.link l) cause s.now false false ∈ (s.unitError (.link l) cause pg bit info inj).errs.fences := by
  have hcount := s.reports_countErr pg bit 1 info inj
  unfold Chip.unitError
  dsimp only
  generalize s.countErr pg bit 1 info inj = t at hcount
  have howner : t.parts.owner = s.parts.owner := by rw [hcount.rest]
  rw [Chip.isContained_congr hcount.errs_fences howner, hc, Chip.handling_congr hcount.errs_fences howner, hh]
  have hin := Chip.fenceUnit_link (s := t) (l := l) cause
    ((congrArg (fun m : List FenceRec => m.any fun f => f.unit == .link l) hcount.errs_fences).trans hf)
  rw [hcount.now] at hin
  have hall : (t.fenceUnit (.link l) cause).reqsGoOn (t.fence (.link l) cause pg bit inj) := by
    unfold Chip.fence
    exact (Chip.reqsGoOn_writeCopies _ _).trans (Chip.reports_fenceRecord ..).reqsGoOn
  exact hall.fences _ hin

/-! ## What a discarded link leaves (R273, R279) -/

/-- t is s for the fences, the owners of clusters, the tick and the page of link l. -/
structure Chip.discards (s t : Chip) (l : Nat) : Prop where
  now : t.now = s.now
  fences : t.errs.fences = s.errs.fences
  owner : t.parts.owner = s.parts.owner
  page : ∀ k, 0x40 ≤ k → k < 0x1000 → t.reg (lkPg l + k) = s.reg (lkPg l + k)

theorem Chip.discards.refl (s : Chip) (l : Nat) : s.discards s l := ⟨rfl, rfl, rfl, fun _ _ _ => rfl⟩

theorem Chip.discards.trans {s t u : Chip} {l : Nat} (h : s.discards t l) (h' : t.discards u l) : s.discards u l :=
  ⟨h'.now.trans h.now, h'.fences.trans h.fences, h'.owner.trans h.owner, fun k a b => (h'.page k a b).trans (h.page k a b)⟩

theorem Chip.discards_forEach {α : Type} {l : Nat} (as : List α) {f : α → Chip → Chip}
    (hf : ∀ a (s : Chip), s.discards (f a s) l) (s : Chip) : s.discards (forEach as f s) l :=
  forEach_keeps (s.discards · l) (fun a _ t ht => ht.trans (hf a t)) (.refl s l)

theorem Chip.discards_setLk (s : Chip) (l k : Nat) (x : Lnk) : s.discards (s.setLk k x) l := ⟨rfl, rfl, rfl, fun _ _ _ => rfl⟩

theorem Chip.discards_dueLctl (s : Chip) (l : Nat) : s.discards (s.dueLctl l) l := by
  unfold Chip.dueLctl
  dsimp only
  split
  · exact s.discards_setLk ..
  · exact s.discards_setLk ..

theorem Chip.discards_owe (s : Chip) (l v k : Nat) : s.discards (s.owe l v k) l := by
  unfold Chip.owe
  split
  · exact .refl ..
  · exact (s.discards_setLk ..).trans (Chip.discards_dueLctl ..)

theorem Chip.discards_dropOpen (s : Chip) (l v : Nat) : s.discards (s.dropOpen l v) l := by
  unfold Chip.dropOpen
  dsimp only
  split
  · exact .refl ..
  · exact (s.discards_setLk ..).trans (Chip.discards_owe ..)

theorem Chip.Reports.discards {s t : Chip} {l : Nat} (h : s.Reports t)
    (hr : ∀ k, 0x40 ≤ k → k < 0x1000 → t.reg (lkPg l + k) = s.reg (lkPg l + k)) : s.discards t l :=
  ⟨h.now, h.errs_fences, h.parts_owner, hr⟩

theorem lkPg_below {l k : Nat} (hl : l < 96) (hk : k < 0x1000) : belowPt (lkPg l + k) := by
  unfold belowPt lkPg
  omega

theorem Chip.discards_lostResp (s : Chip) {l : Nat} (hl : l < 96) (t : RespTag) : s.discards (s.lostResp t) l := by
  unfold Chip.lostResp Chip.promiseLost
  refine (((s.reports_bump _).trans (Chip.reports_notice ..)).trans (Chip.reports_pageEventD ..)).discards fun k h h' => ?_
  rw [Chip.pageEventD_reg _ _ _ _ _ (lkPg_below hl h'), Chip.notice_reg _ _ _ (lkPg_below hl h') (by unfold lkPg prPg; omega)
    (by unfold lkPg prPg; omega), Chip.reg_bump_ne _ (by unfold lkPg prPg; omega)]

theorem Chip.discards_sendRecall (s : Chip) {l : Nat} (hl : l < 96) (h n k off len : Nat) :
    s.discards (s.sendRecall h n k off len) l := by
  unfold Chip.sendRecall Chip.toHost
  dsimp only
  split
  · exact ⟨rfl, rfl, rfl, fun _ _ _ => rfl⟩
  · refine ((s.reports_bump (rtPg + 0x70)).trans (Chip.reports_notice _ rtPg 0)).discards fun k h h' => ?_
    rw [Chip.notice_reg _ _ _ (lkPg_below hl h') (by unfold lkPg rtPg; omega) (by unfold lkPg rtPg; omega),
      Chip.reg_bump_ne _ (by unfold lkPg rtPg; omega)]

theorem Chip.discards_sendLate (s : Chip) {l : Nat} (hl : l < 96) : s.discards s.sendLate l := by
  unfold Chip.sendLate
  refine Chip.discards_forEach _ (fun t s => ?_) _
  dsimp only
  have hupd : s.discards (s.updTrk (fun x => x.rseq == t.rseq) fun x => { x with late := x.late.filter fun h =>
      !(t.late.filter fun h => (s.openRdcs t.kind t.what t.count h).isEmpty).contains h }) l :=
    ⟨rfl, rfl, rfl, fun _ _ _ => rfl⟩
  exact hupd.trans (Chip.discards_forEach _ (fun h s => s.discards_sendRecall hl ..) _)

theorem Chip.discards_reapReqs (s : Chip) {l : Nat} (hl : l < 96) : s.discards s.reapReqs l := by
  have hdrop : ∀ (r : Req) (t : Chip), t.discards (t.dropReq r.id) l := fun _ _ => ⟨rfl, rfl, rfl, fun _ _ _ => rfl⟩
  unfold Chip.reapReqs
  split
  · exact .refl ..
  · exact (Chip.discards_forEach _ (f := fun (r : Req) s => s.dropReq r.id) hdrop s).trans (Chip.discards_sendLate _ hl)

theorem Chip.discards_dropStarted (s : Chip) {l : Nat} (hl : l < 96) : s.discards (s.dropStarted l) l :=
  (s.discards_setLk ..).trans (Chip.discards_forEach _ (fun r s => s.discards_lostResp hl r) _)

theorem Chip.discards_discardLink (s : Chip) {l : Nat} (hl : l < 96) : s.discards (s.discardLink l) l := by
  have hopen := Chip.discards_forEach ((s.lk l).openRx.map (·.1)) (f := fun v s => s.dropOpen l v) (fun v s => s.discards_dropOpen l v) s
  unfold Chip.discardLink
  dsimp only
  generalize forEach ((s.lk l).openRx.map (·.1)) (fun v s => s.dropOpen l v) s = a at hopen
  have hlost := (hopen.trans (a.discards_dropStarted hl)).trans
    (Chip.discards_forEach (s.lk l).unackResp (f := fun e s => s.lostResp e.2) (fun e s => s.discards_lostResp hl e.2) _)
  exact (hlost.trans (Chip.discards_setLk ..)).trans (Chip.discards_reapReqs _ hl)

theorem Chip.discardLink_replay (s : Chip) {l : Nat} (hl : l < 96) : ((s.discardLink l).lk l).replay = [] := by
  unfold Chip.discardLink
  dsimp only
  generalize hz : Chip.setLk _ l _ = z
  obtain ⟨q, hq⟩ := (z.cutsOnly_reapReqs hl).lk
  rw [hq, ← hz, Chip.lk_setLk]

/-! ## Training (R277) -/

section
variable {s : State} {l : LinkNo} {full ok : Bool} {flight : Nat}

theorem exec_trainingDone_eq (hst : s.sys.chip.lkState l = 1) (hask : (s.sys.chip.lk l).ask = none) (hpll : (s.sys.chip.lk l).noPll = false)
    (hfull : (s.sys.chip.lk l).mustFull = true → full = true) : chipNext s (.trainingDone l full ok flight)
    (if ok then Chip.setLk (Chip.setLkState ((s.sys.chip.setFld (lkPg l + 0xA8) 7 0 flight).setFld (lkPg l + 0x44) 11 8 0) l 2) l
        { s.sys.chip.lk l with
          lockAt := s.sys.chip.now
          good := 0
          bad := 0
          mustFull := false }
      else if full = false then s.sys.chip.setLk l { s.sys.chip.lk l with mustFull := true }
      else if max (s.sys.chip.fld (lkPg l + 0xBC) 3 0) 1 ≤ s.sys.chip.fld (lkPg l + 0x44) 11 8 + 1
        then (s.sys.chip.setFld (lkPg l + 0x44) 11 8 (min (s.sys.chip.fld (lkPg l + 0x44) 11 8 + 1) 15)).linkFailed l
      else (s.sys.chip.setFld (lkPg l + 0x44) 11 8 (min (s.sys.chip.fld (lkPg l + 0x44) 11 8 + 1) 15)).setLk l
        { s.sys.chip.lk l with mustFull := true }) := by
  have hexec : exec (.trainingDone l full ok flight) s = execTrainingDone l full ok flight s := (rfl)
  have hno : ¬(s.sys.chip.lkState l ≠ 1 ∨ (s.sys.chip.lk l).ask.isSome ∨ (s.sys.chip.lk l).noPll ∨
      ((s.sys.chip.lk l).mustFull ∧ full = false)) := by
    rw [hask, hpll]
    rintro (h | h | h | ⟨h, h'⟩)
    · exact h hst
    · exact absurd h (by decide)
    · exact absurd h (by decide)
    · exact absurd (hfull h) (by simp [h'])
  rw [chipNext, hexec, execTrainingDone, liftC]
  dsimp only
  rw [if_neg hno]
  have hbc : (s.sys.chip.setFld (lkPg l + 0x44) 11 8 (min (s.sys.chip.fld (lkPg l + 0x44) 11 8 + 1) 15)).fld (lkPg l + 0xBC) 3 0 =
      s.sys.chip.fld (lkPg l + 0xBC) 3 0 := Chip.fld_setFld_ne _ _ _ _ _ _ (lkPg_add_ne l (by decide))
  rw [hbc, Chip.setFld_now, Chip.setFld_now]

theorem trainingDone_locks (hst : s.sys.chip.lkState l = 1) (hask : (s.sys.chip.lk l).ask = none) (hpll : (s.sys.chip.lk l).noPll = false)
    (hfull : (s.sys.chip.lk l).mustFull = true → full = true) :
    ∃ t, chipNext s (.trainingDone l full true flight) t ∧ s.sys.chip.onlyLink t l [lkPg l + 0x44, lkPg l + 0xA8] ∧
      t.lkState l = 2 ∧ t.fld (lkPg l + 0x44) 11 8 = 0 ∧ t.fld (lkPg l + 0xA8) 7 0 = flight % 256 ∧
      t.lk l = { s.sys.chip.lk l with
        lockAt := s.sys.chip.now
        good := 0
        bad := 0
        mustFull := false } := by
  have hexec := exec_trainingDone_eq (ok := true) (flight := flight) hst hask hpll hfull
  rw [if_pos rfl] at hexec
  generalize s.sys.chip = y at hexec
  have h1 : y.onlyLink (y.setFld (lkPg l + 0xA8) 7 0 flight) l [lkPg l + 0x44, lkPg l + 0xA8] := y.onlyLink_setReg l _ (by simp)
  have hfl : (y.setFld (lkPg l + 0xA8) 7 0 flight).fld (lkPg l + 0xA8) 7 0 = flight % 256 := Chip.fld_setFld _ _ _ (by decide)
  generalize y.setFld (lkPg l + 0xA8) 7 0 flight = a at hexec h1 hfl
  have h2 : a.onlyLink (a.setFld (lkPg l + 0x44) 11 8 0) l [lkPg l + 0x44, lkPg l + 0xA8] := a.onlyLink_setReg l _ (by simp)
  have hz : (a.setFld (lkPg l + 0x44) 11 8 0).fld (lkPg l + 0x44) 11 8 = 0 := Chip.fld_setFld _ _ _ (by decide)
  have hfl' : (a.setFld (lkPg l + 0x44) 11 8 0).fld (lkPg l + 0xA8) 7 0 = flight % 256 :=
    (Chip.fld_setFld_ne _ _ _ _ _ _ (lkPg_add_ne l (by decide))).trans hfl
  generalize a.setFld (lkPg l + 0x44) 11 8 0 = b at hexec h2 hz hfl'
  have h3 : b.onlyLink (b.setLkState l 2) l [lkPg l + 0x44, lkPg l + 0xA8] := b.onlyLink_setReg l _ (by simp)
  have hz' : (b.setLkState l 2).fld (lkPg l + 0x44) 11 8 = 0 := (Chip.fld_setFld_apart _ _ _ (by decide) (.inr (by decide))).trans hz
  have hfl'' : (b.setLkState l 2).fld (lkPg l + 0xA8) 7 0 = flight % 256 :=
    (Chip.fld_setFld_ne _ _ _ _ _ _ (lkPg_add_ne l (by decide))).trans hfl'
  exact ⟨_, hexec, ((h1.trans h2).trans h3).trans (Chip.onlyLink_setLk ..), b.lkState_setLkState l 2, hz', hfl'', Chip.lk_setLk ..⟩

theorem trainingDone_repeats (hst : s.sys.chip.lkState l = 1) (hask : (s.sys.chip.lk l).ask = none) (hpll : (s.sys.chip.lk l).noPll = false)
    (hn : s.sys.chip.fld (lkPg l + 0x44) 11 8 + 1 < max (s.sys.chip.fld (lkPg l + 0xBC) 3 0) 1) :
    ∃ t, chipNext s (.trainingDone l true false flight) t ∧ s.sys.chip.onlyLink t l [lkPg l + 0x44] ∧
      t.lkState l = 1 ∧ t.fld (lkPg l + 0x44) 11 8 = min (s.sys.chip.fld (lkPg l + 0x44) 11 8 + 1) 15 ∧
      t.lk l = { s.sys.chip.lk l with mustFull := true } := by
  have hexec := exec_trainingDone_eq (full := true) (ok := false) (flight := flight) hst hask hpll fun _ => rfl
  rw [if_neg (by decide), if_neg (by decide), if_neg (Nat.not_le.2 hn)] at hexec
  generalize hm : min (s.sys.chip.fld (lkPg l + 0x44) 11 8 + 1) 15 = m at hexec
  have h1 : s.sys.chip.onlyLink (s.sys.chip.setFld (lkPg l + 0x44) 11 8 m) l [lkPg l + 0x44] := s.sys.chip.onlyLink_setReg l _ (by simp)
  have h2 : (s.sys.chip.setFld (lkPg l + 0x44) 11 8 m).lkState l = s.sys.chip.lkState l :=
    Chip.fld_setFld_apart _ _ _ (by decide) (.inl (by decide))
  have h3 : (s.sys.chip.setFld (lkPg l + 0x44) 11 8 m).fld (lkPg l + 0x44) 11 8 = m :=
    (Chip.fld_setFld _ _ _ (by decide)).trans (Nat.mod_eq_of_lt (by omega))
  generalize s.sys.chip.setFld (lkPg l + 0x44) 11 8 m = a at hexec h1 h2 h3
  exact ⟨_, hexec, h1.trans (Chip.onlyLink_setLk ..), h2.trans hst, h3, Chip.lk_setLk ..⟩

theorem trainingDone_fails (hst : s.sys.chip.lkState l = 1) (hask : (s.sys.chip.lk l).ask = none) (hpll : (s.sys.chip.lk l).noPll = false)
    (hn : max (s.sys.chip.fld (lkPg l + 0xBC) 3 0) 1 ≤ s.sys.chip.fld (lkPg l + 0x44) 11 8 + 1)
    (hc : s.sys.chip.isContained (.link l) = false) (hh : s.sys.chip.handling (.link l) = none)
    (hf : s.sys.chip.fenced1 (.link l) = false) :
    ∃ t, chipNext s (.trainingDone l true false flight) t ∧
      ∃ f ∈ t.errs.fences, f.unit = .link l ∧ f.cause = .link ∧ f.tx = s.sys.chip.now := by
  have hexec := exec_trainingDone_eq (full := true) (ok := false) (flight := flight) hst hask hpll fun _ => rfl
  rw [if_neg (by decide), if_neg (by decide), if_pos hn] at hexec
  refine ⟨_, hexec, FenceRec.mk (.link l) .link s.sys.chip.now false false, ?_, rfl, rfl, rfl⟩
  generalize min (s.sys.chip.fld (lkPg l + 0x44) 11 8 + 1) 15 = m
  unfold Chip.linkFailed
  dsimp only
  generalize hy : (s.sys.chip.setFld (lkPg l + 0x44) 11 8 m).setLkState l 5 = y
  have hnow : y.now = s.sys.chip.now := by rw [← hy]; rfl
  have hfences : y.errs.fences = s.sys.chip.errs.fences := by rw [← hy]; rfl
  have howner : y.parts.owner = s.sys.chip.parts.owner := by rw [← hy]; rfl
  have hd := y.discards_discardLink l.isLt
  generalize y.discardLink l = z at hd
  have hin := Chip.unitError_link (s := z) (l := l) .link (lkPg l) 3 0 false
    ((Chip.isContained_congr (hd.fences.trans hfences) (hd.owner.trans howner) _).trans hc)
    ((Chip.handling_congr (hd.fences.trans hfences) (hd.owner.trans howner) _).trans hh)
    ((congrArg (fun m : List FenceRec => m.any fun f => f.unit == .link l) (hd.fences.trans hfences)).trans hf)
  rw [hd.now, hnow] at hin
  split
  · rw [(Chip.reports_pageEvent ..).errs_fences]
    exact hin
  · exact hin

/-! ## Codewords (R255, R275, R276) -/

/-- R255: good codewords in a row with one more of number n. -/
def goodRun (x : Lnk) (n : Nat) : Nat := if x.good = 0 ∨ n = (x.cwn + 1) % 5 then x.good + 1 else 1

/-- R255: link part x after one more good codeword of number n. -/
def Lnk.goodCw (x : Lnk) (n : Nat) : Lnk :=
  { x with
    good := goodRun x n
    bad := 0
    cwn := n }

theorem Chip.lockStep_good (y : Chip) (l n : Nat) : y.lockStep l false n =
    if y.lkState l = 2 ∧ 8 ≤ goodRun (y.lk l) n then (y.setLk l ((y.lk l).goodCw n)).enterInit l
    else y.setLk l ((y.lk l).goodCw n) := by
  have hgood : (if ((y.lk l).good == 0 || n == ((y.lk l).cwn + 1) % 5) = true then (y.lk l).good + 1 else 1) = goodRun (y.lk l) n :=
    ite_congr (by simp) (fun _ => rfl) fun _ => rfl
  unfold Chip.lockStep
  dsimp only
  rw [hgood]
  rfl

theorem Chip.peerAsks_idle (y : Chip) (l : Nat) : y.peerAsks l 0 = y.setLk l { y.lk l with peerAsks := 0 } := by
  unfold Chip.peerAsks
  exact if_pos (Or.inl rfl)

theorem Chip.takeFlits_locking {y : Chip} {l : Nat} {fs : List Flit} (hcrc : ∀ f ∈ fs, f.crc = flitCrc f) (h3 : y.lkState l ≠ 3)
    (h4 : y.lkState l ≠ 4) : y.takeFlits l fs = y := by
  unfold Chip.takeFlits
  refine forEach_keeps (· = y) (fun f hf t ht => ?_) rfl
  subst ht
  rw [if_neg (not_not.2 (hcrc f hf)), if_neg (by omega), if_neg h3]

theorem Chip.takeFlits_up {y : Chip} {l : Nat} {fs : List Flit} (hcrc : ∀ f ∈ fs, f.crc = flitCrc f) (h4 : y.lkState l = 4) :
    y.onlyLink (y.takeFlits l fs) l [] ∧ (y.takeFlits l fs).lk l = { y.lk l with rx := (y.lk l).rx ++ fs } := by
  induction fs generalizing y with
  | nil => exact ⟨.refl .., by rw [List.append_nil]; rfl⟩
  | cons f fs ih =>
    have hone : y.takeFlits l (f :: fs) = (y.setLk l { y.lk l with rx := (y.lk l).rx ++ [f] }).takeFlits l fs := by
      unfold Chip.takeFlits
      rw [forEach_cons, if_neg (not_not.2 (hcrc f List.mem_cons_self)), if_pos (.inl h4)]
    rw [hone]
    obtain ⟨h1, h2⟩ := ih (y := y.setLk l { y.lk l with rx := (y.lk l).rx ++ [f] }) (fun g hg => hcrc g (List.mem_cons_of_mem _ hg)) h4
    refine ⟨(y.onlyLink_setLk ..).trans h1, h2.trans ?_⟩
    rw [Chip.lk_setLk]
    dsimp only
    rw [List.append_assoc]
    rfl

/-- R267: what a link in INIT has taken over. -/
theorem Chip.enterInit_facts (y : Chip) {l : Nat} (hl : l < 96) :
    (y.enterInit l).lkState l = 3 ∧ (∀ k, k ≠ l → (y.enterInit l).lk k = y.lk k) ∧
    (y.enterInit l).reg (lkPg l + 0x68) = y.reg (lkPg l + 0x68) ∧
    (y.enterInit l).lk l = { y.lk l with
      initAt := y.now
      peer := none
      vcEn := y.fld (lkPg l + 0x40) 15 8
      onOff := y.flag (lkPg l + 0x40) 1
      sizes := (List.range 8).map fun v => y.fld (lkPg l + 0x88 + 4 * v) 9 0 } := by
  have hstate := y.lkState_setLkState l 3
  have hlk : ∀ k, (y.setLkState l 3).lk k = y.lk k := fun _ => rfl
  have h68 : (y.setLkState l 3).reg (lkPg l + 0x68) = y.reg (lkPg l + 0x68) := Chip.reg_setFld_ne _ _ _ _ (by omega)
  unfold Chip.enterInit
  dsimp only
  generalize y.setLkState l 3 = z at hstate hlk h68
  generalize hw : z.setLk l _ = w
  have hwst : w.lkState l = 3 := by rw [← hw]; exact hstate
  have hwlk : ∀ k, k ≠ l → w.lk k = y.lk k := fun k hk => by rw [← hw, Chip.lk_setLk_ne _ _ hk, hlk]
  have hw68 : w.reg (lkPg l + 0x68) = y.reg (lkPg l + 0x68) := by rw [← hw]; exact h68
  split
  · exact ⟨hwst, hwlk, hw68, by rw [← hw, Chip.lk_setLk]⟩
  · have hn : ∀ {k : Nat}, 0x40 ≤ k → k < 0x1000 → (w.notice (lkPg l) 7).reg (lkPg l + k) = w.reg (lkPg l + k) :=
      fun h h' => Chip.notice_reg _ _ _ (lkPg_below hl h') (by omega) (by omega)
    have hlinks : (w.notice (lkPg l) 7).links = w.links := (Chip.reports_notice ..).links
    refine ⟨?_, fun k hk => ?_, ?_, ?_⟩
    · unfold Chip.lkState Chip.fld
      rw [hn (by decide) (by decide)]
      exact hwst
    · exact (congrArg (fun m : KMap Lnk => KMap.at m {} k) hlinks).trans (hwlk k hk)
    · rw [hn (by decide) (by decide), hw68]
    · refine (congrArg (fun m : KMap Lnk => KMap.at m {} l) hlinks).trans ?_
      rw [← hw]
      exact Chip.lk_setLk ..

variable {cw : Codeword}

theorem exec_codeword_good (hpll : (s.sys.chip.lk l).noPll = false) (hst : s.sys.chip.lkState l = 2 ∨ s.sys.chip.lkState l = 4)
    (hun : cw.uncorrectable = false) (hmark : cw.mark = 0x2D3) (hls : cw.lstate = 0) :
    chipNext s (.codeword l cw)
      (if (((s.sys.chip.bumpBy (lkPg l + 0x68) cw.corrected).lockStep l false cw.cwn).peerAsks l 0).lkState l = s.sys.chip.lkState l
        then (((s.sys.chip.bumpBy (lkPg l + 0x68) cw.corrected).lockStep l false cw.cwn).peerAsks l 0).takeFlits l cw.flits
        else ((s.sys.chip.bumpBy (lkPg l + 0x68) cw.corrected).lockStep l false cw.cwn).peerAsks l 0) := by
  have hexec : exec (.codeword l cw) s = execCodeword l cw s := (rfl)
  have hno : ¬((s.sys.chip.lk l).noPll ∨ s.sys.chip.lkState l = 0 ∨ s.sys.chip.lkState l = 5 ∨
      (s.sys.chip.lkState l = 1 ∧ (s.sys.chip.lk l).ask.isSome = false)) := by
    rw [hpll]
    rintro (h | h | h | ⟨h, -⟩)
    · exact absurd h (by decide)
    all_goals omega
  have hbad : (cw.mark != 0x2D3) = false := by simp [hmark]
  rw [chipNext, hexec, execCodeword, liftC]
  dsimp only
  rw [if_neg hno, if_neg (ne_true_of_eq_false hun), hbad, if_pos hmark, hls]

theorem codeword_locks (hpll : (s.sys.chip.lk l).noPll = false) (hst : s.sys.chip.lkState l = 2)
    (hun : cw.uncorrectable = false) (hmark : cw.mark = 0x2D3) (hls : cw.lstate = 0) (hcrc : ∀ f ∈ cw.flits, f.crc = flitCrc f) :
    ∃ t, chipNext s (.codeword l cw) t ∧ (∀ k : Nat, k ≠ l.val → t.lk k = s.sys.chip.lk k) ∧
      (t.reg (lkPg l + 0x68)).toNat = min ((s.sys.chip.reg (lkPg l + 0x68)).toNat + cw.corrected) 0xffffffff ∧
      (goodRun (s.sys.chip.lk l) cw.cwn < 8 → s.sys.chip.onlyLink t l [lkPg l + 0x68] ∧ t.lk l = { s.sys.chip.lk l with
        good := goodRun (s.sys.chip.lk l) cw.cwn
        bad := 0
        cwn := cw.cwn
        peerAsks := 0 }) ∧
      (8 ≤ goodRun (s.sys.chip.lk l) cw.cwn → t.lkState l = 3 ∧ (t.lk l).initAt = s.sys.chip.now ∧ (t.lk l).peer = none ∧
        (t.lk l).vcEn = s.sys.chip.fld (lkPg l + 0x40) 15 8 ∧ (t.lk l).onOff = s.sys.chip.flag (lkPg l + 0x40) 1 ∧
        (t.lk l).sizes = (List.range 8).map fun v => s.sys.chip.fld (lkPg l + 0x88 + 4 * v) 9 0) := by
  have hexec := exec_codeword_good hpll (.inl hst) hun hmark hls
  rw [hst] at hexec
  have hb : s.sys.chip.onlyLink (s.sys.chip.bumpBy (lkPg l + 0x68) cw.corrected) l [lkPg l + 0x68] := s.sys.chip.onlyLink_setReg l _ (by simp)
  have hcount := s.sys.chip.reg_bumpBy (lkPg l + 0x68) cw.corrected
  have hlk : ∀ k, (s.sys.chip.bumpBy (lkPg l + 0x68) cw.corrected).lk k = s.sys.chip.lk k := fun _ => rfl
  have hnow : (s.sys.chip.bumpBy (lkPg l + 0x68) cw.corrected).now = s.sys.chip.now := rfl
  have hstb : (s.sys.chip.bumpBy (lkPg l + 0x68) cw.corrected).lkState l = 2 :=
    (hb.fld (fun h => lkPg_add_ne l (by decide) (List.mem_singleton.1 h)) _ _).trans hst
  have hfld : ∀ {k : Nat}, k ≠ 0x68 → (s.sys.chip.bumpBy (lkPg l + 0x68) cw.corrected).reg (lkPg l + k) = s.sys.chip.reg (lkPg l + k) :=
    fun hk => Chip.reg_bumpBy_ne _ _ (by omega)
  generalize s.sys.chip.bumpBy (lkPg l + 0x68) cw.corrected = b at hexec hb hcount hlk hnow hstb hfld
  rw [Chip.lockStep_good, hstb, hlk] at hexec
  by_cases h8 : 8 ≤ goodRun (s.sys.chip.lk l) cw.cwn
  · rw [if_pos (show 2 = 2 ∧ 8 ≤ goodRun (s.sys.chip.lk l) cw.cwn from ⟨rfl, h8⟩), Chip.peerAsks_idle] at hexec
    obtain ⟨i1, i2, i3, i4⟩ := (b.setLk l ((s.sys.chip.lk l).goodCw cw.cwn)).enterInit_facts l.isLt
    generalize (b.setLk l ((s.sys.chip.lk l).goodCw cw.cwn)).enterInit l = e at hexec i1 i2 i3 i4
    rw [if_neg (show (e.setLk l { e.lk l with peerAsks := 0 }).lkState l ≠ 2 from fun h => by
      have h3 : (e.setLk l { e.lk l with peerAsks := 0 }).lkState l = 3 := i1
      omega)] at hexec
    refine ⟨_, hexec, fun k hk => ?_, ?_, fun h => absurd h8 (by omega), fun _ => ⟨i1, ?_, ?_, ?_, ?_, ?_⟩⟩
    · rw [Chip.lk_setLk_ne _ _ hk, i2 k hk, Chip.lk_setLk_ne _ _ hk, hlk]
    · rw [Chip.reg_setLk, i3, Chip.reg_setLk, hcount]
    all_goals rw [Chip.lk_setLk, i4]
    · exact hnow
    · exact congrArg (Word.bits · 15 8) (hfld (by decide))
    · exact congrArg (fun w : Word => w.getLsbD 1) (hfld (by decide))
    · refine List.map_congr_left fun v _ => ?_
      have h := hfld (k := 0x88 + 4 * v) (by omega)
      rw [← Nat.add_assoc] at h
      exact congrArg (Word.bits · 9 0) h
  · rw [if_neg (show ¬(2 = 2 ∧ 8 ≤ goodRun (s.sys.chip.lk l) cw.cwn) from fun h => h8 h.2), Chip.peerAsks_idle, Chip.lk_setLk] at hexec
    generalize hz : (b.setLk l ((s.sys.chip.lk l).goodCw cw.cwn)).setLk l { (s.sys.chip.lk l).goodCw cw.cwn with peerAsks := 0 } = z at hexec
    have hzst : z.lkState l = 2 := by rw [← hz]; exact hstb
    rw [if_pos hzst, Chip.takeFlits_locking hcrc (by omega) (by omega)] at hexec
    have hz' : b.onlyLink z l [lkPg l + 0x68] := by rw [← hz]; exact (b.onlyLink_setLk ..).trans (Chip.onlyLink_setLk ..)
    have hzlk : z.lk l = { (s.sys.chip.lk l).goodCw cw.cwn with peerAsks := 0 } := by rw [← hz, Chip.lk_setLk]
    refine ⟨z, hexec, fun k hk => (hz'.others k hk).trans (hlk k), ?_, fun _ => ⟨hb.trans hz', hzlk⟩, fun h => absurd h h8⟩
    rw [← hz, Chip.reg_setLk, Chip.reg_setLk, hcount]

theorem codeword_up (hpll : (s.sys.chip.lk l).noPll = false) (hst : s.sys.chip.lkState l = 4)
    (hun : cw.uncorrectable = false) (hmark : cw.mark = 0x2D3) (hls : cw.lstate = 0) (hcrc : ∀ f ∈ cw.flits, f.crc = flitCrc f) :
    ∃ t, chipNext s (.codeword l cw) t ∧ s.sys.chip.onlyLink t l [lkPg l + 0x68] ∧ t.lk l = { s.sys.chip.lk l with
      rx := (s.sys.chip.lk l).rx ++ cw.flits
      good := goodRun (s.sys.chip.lk l) cw.cwn
      bad := 0
      cwn := cw.cwn
      peerAsks := 0 } := by
  have hexec := exec_codeword_good hpll (.inr hst) hun hmark hls
  rw [hst] at hexec
  have hb : s.sys.chip.onlyLink (s.sys.chip.bumpBy (lkPg l + 0x68) cw.corrected) l [lkPg l + 0x68] := s.sys.chip.onlyLink_setReg l _ (by simp)
  have hlk : (s.sys.chip.bumpBy (lkPg l + 0x68) cw.corrected).lk l = s.sys.chip.lk l := rfl
  have hstb : (s.sys.chip.bumpBy (lkPg l + 0x68) cw.corrected).lkState l = 4 :=
    (hb.fld (fun h => lkPg_add_ne l (by decide) (List.mem_singleton.1 h)) _ _).trans hst
  generalize s.sys.chip.bumpBy (lkPg l + 0x68) cw.corrected = b at hexec hb hlk hstb
  rw [Chip.lockStep_good, hstb, hlk, if_neg (show ¬(4 = 2 ∧ 8 ≤ goodRun (s.sys.chip.lk l) cw.cwn) from fun h => absurd h.1 (by decide)),
    Chip.peerAsks_idle, Chip.lk_setLk] at hexec
  generalize hz : (b.setLk l ((s.sys.chip.lk l).goodCw cw.cwn)).setLk l { (s.sys.chip.lk l).goodCw cw.cwn with peerAsks := 0 } = z at hexec
  have hzst : z.lkState l = 4 := by rw [← hz]; exact hstb
  rw [if_pos hzst] at hexec
  have hz' : b.onlyLink z l [lkPg l + 0x68] := by rw [← hz]; exact (b.onlyLink_setLk ..).trans (Chip.onlyLink_setLk ..)
  have hzlk : z.lk l = { (s.sys.chip.lk l).goodCw cw.cwn with peerAsks := 0 } := by rw [← hz, Chip.lk_setLk]
  obtain ⟨t1, t2⟩ := Chip.takeFlits_up (y := z) (l := l) hcrc hzst
  exact ⟨_, hexec, (hb.trans hz').trans (t1.mono fun a ha => absurd ha (by simp)), by rw [t2, hzlk]; rfl⟩

/-! ## An uncorrectable codeword -/

/-- t is s for link l in LOCK, but that crcErrors counts its errors: n of them. -/
structure Chip.crcCounts (s t : Chip) (l n : Nat) : Prop where
  state : t.lkState l = s.lkState l
  others : ∀ k, k ≠ l → t.lk k = s.lk k
  lk : ∃ e, t.lk l = { s.lk l with errs := e }
  count : (t.reg (lkPg l + 0x64)).toNat = min ((s.reg (lkPg l + 0x64)).toNat + n) 0xffffffff
  fec : t.reg (lkPg l + 0x6C) = s.reg (lkPg l + 0x6C)

theorem Chip.corrected_reg (s : Chip) (pg b i : Nat) {a : Nat} (h : belowPt a) (h1 : a ≠ pg + 0x10) (h2 : a ≠ pg + 0x18)
    (h3 : a ≠ pg + 0x20) : (s.corrected pg b i).reg a = s.reg a :=
  (Chip.reg_bump_ne _ (Ne.symm h3)).trans ((Chip.setErr_reg _ _ _ h h1).trans (Chip.latchFirst_reg _ _ _ _ _ _ h2))

theorem Chip.crcError_counts (s : Chip) {l : Nat} (hl : l < 96) (h4 : s.lkState l ≠ 4) : s.crcCounts (s.crcError l) l 1 := by
  have hr := (s.reports_bump (lkPg l + 0x64)).trans (Chip.reports_corrected _ (lkPg l) 0 0)
  have hreg : ∀ {k : Nat}, 0x40 ≤ k → k < 0x1000 → ((s.bump (lkPg l + 0x64)).corrected (lkPg l) 0 0).reg (lkPg l + k) =
      (s.bump (lkPg l + 0x64)).reg (lkPg l + k) :=
    fun h h' => Chip.corrected_reg _ _ _ _ (lkPg_below hl h') (by omega) (by omega) (by omega)
  have hbump : ∀ {k : Nat}, k ≠ 0x64 → (s.bump (lkPg l + 0x64)).reg (lkPg l + k) = s.reg (lkPg l + k) :=
    fun hk => Chip.reg_bump_ne _ (by omega)
  have hcount : ((s.bump (lkPg l + 0x64)).reg (lkPg l + 0x64)).toNat = min ((s.reg (lkPg l + 0x64)).toNat + 1) 0xffffffff :=
    Chip.reg_bumpBy ..
  unfold Chip.crcError
  dsimp only
  generalize s.bump (lkPg l + 0x64) = b at hr hreg hbump hcount
  have hstate : (b.corrected (lkPg l) 0 0).lkState l = s.lkState l := by
    unfold Chip.lkState Chip.fld
    rw [hreg (by decide) (by decide), hbump (by decide)]
  have hlk : ∀ k, (b.corrected (lkPg l) 0 0).lk k = s.lk k := fun k => congrArg (fun m : KMap Lnk => KMap.at m {} k) hr.links
  have h64 := hreg (k := 0x64) (by decide) (by decide)
  have h6C := (hreg (k := 0x6C) (by decide) (by decide)).trans (hbump (by decide))
  generalize b.corrected (lkPg l) 0 0 = c at hstate hlk h64 h6C
  generalize (c.now :: (c.lk l).errs.filter fun t => decide (c.now < t + 1000 * max (c.fld (lkPg l + 0x60) 31 8) 1)).take 255 = es
  have hst : (c.setLk l { c.lk l with errs := es }).lkState l = s.lkState l := hstate
  rw [if_neg fun h => h4 (hst ▸ h.2)]
  refine ⟨hst, fun k hk => (c.lk_setLk_ne _ hk).trans (hlk k), ⟨es, ?_⟩, ?_, ?_⟩
  · rw [Chip.lk_setLk, hlk]
  · rw [Chip.reg_setLk, h64, hcount]
  · rw [Chip.reg_setLk, h6C]

theorem Chip.crcErrors_counts (s : Chip) {l : Nat} (hl : l < 96) (h4 : s.lkState l ≠ 4) (n : Nat) :
    s.crcCounts (forEach (List.range n) (fun _ s => s.crcError l) s) l n := by
  induction n with
  | zero => exact ⟨rfl, fun _ _ => rfl, ⟨_, rfl⟩, by have := (s.reg (lkPg l + 0x64)).isLt; show _ = _; rw [Nat.add_zero]; exact (Nat.min_eq_left (by omega)).symm, rfl⟩
  | succ n ih =>
    rw [List.range_succ, forEach_append]
    generalize forEach (List.range n) (fun _ s => s.crcError l) s = t at ih
    have h := t.crcError_counts hl (by rw [ih.state]; exact h4)
    obtain ⟨e, he⟩ := ih.lk
    obtain ⟨e', he'⟩ := h.lk
    refine ⟨h.state.trans ih.state, fun k hk => (h.others k hk).trans (ih.others k hk), ⟨e', he'.trans (by rw [he])⟩,
      h.count.trans ?_, h.fec.trans ih.fec⟩
    rw [ih.count]
    omega

theorem codeword_lost (hpll : (s.sys.chip.lk l).noPll = false) (hun : cw.uncorrectable = true) (hst : s.sys.chip.lkState l = 2) :
    ∃ t, chipNext s (.codeword l cw) t ∧ t.lkState l = 2 ∧ (∀ k : Nat, k ≠ l.val → t.lk k = s.sys.chip.lk k) ∧
      (t.reg (lkPg l + 0x6C)).toNat = min ((s.sys.chip.reg (lkPg l + 0x6C)).toNat + 1) 0xffffffff ∧
      (t.reg (lkPg l + 0x64)).toNat = min ((s.sys.chip.reg (lkPg l + 0x64)).toNat + 5) 0xffffffff ∧
      ∃ e, t.lk l = { s.sys.chip.lk l with
        good := 0
        bad := (s.sys.chip.lk l).bad + 1
        peerAsks := 0
        errs := e } := by
  have hexec : exec (.codeword l cw) s = execCodeword l cw s := (rfl)
  have hno : ¬((s.sys.chip.lk l).noPll ∨ s.sys.chip.lkState l = 0 ∨ s.sys.chip.lkState l = 5 ∨
      (s.sys.chip.lkState l = 1 ∧ (s.sys.chip.lk l).ask.isSome = false)) := by
    rw [hpll]
    rintro (h | h | h | ⟨h, -⟩)
    · exact absurd h (by decide)
    all_goals omega
  rw [execCodeword, liftC] at hexec
  dsimp only at hexec
  rw [if_neg hno, if_pos hun] at hexec
  have hr := (s.sys.chip.reports_bump (lkPg l + 0x6C)).trans (Chip.reports_corrected _ (lkPg l) 1 0)
  have hreg : ∀ {k : Nat}, 0x40 ≤ k → k < 0x1000 → ((s.sys.chip.bump (lkPg l + 0x6C)).corrected (lkPg l) 1 0).reg (lkPg l + k) =
      (s.sys.chip.bump (lkPg l + 0x6C)).reg (lkPg l + k) :=
    fun h h' => Chip.corrected_reg _ _ _ _ (lkPg_below l.isLt h') (by omega) (by omega) (by omega)
  have hbump : ∀ {k : Nat}, k ≠ 0x6C → (s.sys.chip.bump (lkPg l + 0x6C)).reg (lkPg l + k) = s.sys.chip.reg (lkPg l + k) :=
    fun hk => Chip.reg_bump_ne _ (by omega)
  have hcount : ((s.sys.chip.bump (lkPg l + 0x6C)).reg (lkPg l + 0x6C)).toNat = min ((s.sys.chip.reg (lkPg l + 0x6C)).toNat + 1) 0xffffffff :=
    Chip.reg_bumpBy ..
  generalize s.sys.chip.bump (lkPg l + 0x6C) = b at hr hreg hbump hcount hexec
  have hstate : (b.corrected (lkPg l) 1 0).lkState l = 2 := by
    unfold Chip.lkState Chip.fld
    rw [hreg (by decide) (by decide), hbump (by decide)]
    exact hst
  have hlk : ∀ k, (b.corrected (lkPg l) 1 0).lk k = s.sys.chip.lk k := fun k => congrArg (fun m : KMap Lnk => KMap.at m {} k) hr.links
  have h64 := (hreg (k := 0x64) (by decide) (by decide)).trans (hbump (by decide))
  have h6C := hreg (k := 0x6C) (by decide) (by decide)
  generalize b.corrected (lkPg l) 1 0 = c at hstate hlk h64 h6C hexec
  have hlock : c.lockStep l true 0 = c.setLk l { c.lk l with
      good := 0
      bad := (c.lk l).bad + 1 } := by
    unfold Chip.lockStep
    dsimp only
    have hst2 : (c.setLk l { c.lk l with
      good := 0
      bad := (c.lk l).bad + 1 }).lkState l = 2 := hstate
    rw [if_pos rfl, hst2, if_neg (by omega)]
  rw [hlock, Chip.lk_setLk] at hexec
  generalize hz : Chip.setLk _ l _ = z at hexec
  have hzst : z.lkState l = 2 := by rw [← hz]; exact hstate
  have hzlk : ∀ k, k ≠ l.val → z.lk k = s.sys.chip.lk k := fun k hk => by
    rw [← hz, Chip.lk_setLk_ne _ _ hk, Chip.lk_setLk_ne _ _ hk, hlk]
  have hzl : z.lk l = { s.sys.chip.lk l with
      good := 0
      bad := (s.sys.chip.lk l).bad + 1
      peerAsks := 0 } := by rw [← hz, Chip.lk_setLk, hlk]
  have hz64 : z.reg (lkPg l + 0x64) = s.sys.chip.reg (lkPg l + 0x64) := by rw [← hz, Chip.reg_setLk, Chip.reg_setLk, h64]
  have hz6C : z.reg (lkPg l + 0x6C) = b.reg (lkPg l + 0x6C) := by rw [← hz, Chip.reg_setLk, Chip.reg_setLk, h6C]
  have h := z.crcErrors_counts l.isLt (by omega) 5
  obtain ⟨e, he⟩ := h.lk
  refine ⟨_, hexec, h.state.trans hzst, fun k hk => (h.others k hk).trans (hzlk k hk), ?_, ?_, e, ?_⟩
  · rw [h.fec, hz6C, hcount]
  · rw [h.count, hz64]
  · rw [he, hzl]

/-! ## INIT (R267, R278, R279) -/

/-- What a received INIT leaves before it is judged (R263). -/
theorem Chip.ackTaken_open {y : Chip} {l : Nat} {h : Flit} {q : List Flit} (hst : y.lkState l ≠ 4) :
    y.onlyLink (y.ackTaken l h q) l [lkPg l + 0x4C] ∧ (y.lk l).acked ((y.ackTaken l h q).lk l) := by
  by_cases hn : seqDist (h.ack + 1) (y.unack l) ≤ seqDist (y.txNext l) (y.unack l)
  · exact Chip.ackReceive_only hn
  · have hu : (y.setLk l { y.lk l with rx := q }).unack l = y.unack l := rfl
    have ht : (y.setLk l { y.lk l with rx := q }).txNext l = y.txNext l := rfl
    have hs : (y.setLk l { y.lk l with rx := q }).lkState l ≠ 4 := hst
    have heq : y.ackTaken l h q = y.setLk l { y.lk l with rx := q } := by
      unfold Chip.ackTaken Chip.ackReceive
      dsimp only
      rw [hu, ht, if_neg (by omega), if_neg hn, if_neg hs]
    rw [heq]
    exact ⟨Chip.onlyLink_setLk .., by rw [Chip.lk_setLk]; rfl⟩

/-- R278: what the partner's INIT leaves before it is judged. -/
def Chip.initTaken (y : Chip) (l : Nat) (h : Flit) (q : List Flit) (i : InitInfo) : Chip :=
  (y.ackTaken l h q).setLk l { (y.ackTaken l h q).lk l with peer := some i }

theorem exec_initFlit_eq {h : Flit} {q : List Flit} {i : InitInfo} (hrx : (s.sys.chip.lk l).rx = h :: q) (ht : h.typ = 6)
    (hi : initOf h.payload = i) (hst : s.sys.chip.lkState l = 3) : chipNext s (.initFlit l i)
      (if lnkCfgOk (s.sys.chip.lk l) = false ∨ lnkAgrees (s.sys.chip.lk l) i = false
        then (s.sys.chip.initTaken l h q i).notice (lkPg l) 7
        else if i.seen then (s.sys.chip.initTaken l h q i).enterUp l i else s.sys.chip.initTaken l h q i) := by
  have hexec : exec (.initFlit l i) s = execInitFlit l i s := (rfl)
  have hb : (s.sys.chip.ackTaken l h q).lkState l = 3 :=
    ((Chip.ackTaken_open (by omega)).1.fld (fun e => lkPg_add_ne l (by decide) (List.mem_singleton.1 e)) _ _).trans hst
  unfold Chip.ackTaken at hb
  rw [chipNext, hexec, execInitFlit, liftC]
  dsimp only
  rw [hrx]
  dsimp only
  rw [if_pos ⟨ht, hi⟩, hb, if_neg (by decide)]
  rfl

theorem Chip.resumes_peer (b : Chip) (l : Nat) (i : InitInfo) : (b.setLk l { b.lk l with peer := some i }).resumes l i = b.resumes l i := by
  unfold Chip.resumes
  rw [Chip.lk_setLk]
  rfl

/-- What link part z has of x in common: what is to be sent again, received and to be sent, and the partner's session. -/
structure Lnk.sameStore (x z : Lnk) : Prop where
  replay : z.replay = x.replay
  expiries : z.expiries = x.expiries
  buf : z.buf = x.buf
  txq : z.txq = x.txq
  met : z.met = x.met
  peerSession : z.peerSession = x.peerSession

theorem Lnk.stepped.sameStore {x z : Lnk} (h : x.stepped z) : x.sameStore z := by
  rcases h with rfl | ⟨d, rfl⟩
  · exact ⟨rfl, rfl, rfl, rfl, rfl, rfl⟩
  · exact ⟨rfl, rfl, rfl, rfl, rfl, rfl⟩

/-- What is left to do at the entry of UP once the link is resumed or fresh (R278, R374). -/
def Chip.goUp (s : Chip) (l : Nat) : Chip :=
  let x := s.lk l
  let s := (s.setLkState l 4).setLk l { x with
    inits := 2
    met := true
    resume := true
    mustFull := false
    resetting := false }
  let s := if x.resetting then s.resetDoneFor fun u => u == .link l else s
  (((s.dueLctl l).pageEvent (lkPg l)).rehash l).ftEval

theorem Chip.enterUp_eq (s : Chip) (l : Nat) (i : InitInfo) :
    s.enterUp l i = if s.resumes l i then (s.resumeLink l i).goUp l else (s.freshLink l i).goUp l := by
  unfold Chip.enterUp Chip.goUp
  dsimp only
  split <;> rfl

theorem Chip.goUp_facts (s : Chip) {l : Nat} (hl : l < 96) :
    (s.goUp l).lkState l = 4 ∧ (∀ k, k ≠ 0x44 → 0x40 ≤ k → k < 0x1000 → (s.goUp l).reg (lkPg l + k) = s.reg (lkPg l + k)) ∧
    Lnk.sameStore { s.lk l with met := true } ((s.goUp l).lk l) ∧
    (s.isMaster = true ∨ s.ft.had = true ∨ (s.ftParent = none ∧ (s.lk l).nbrLocked = false) →
      ∀ k, k ≠ l → (s.goUp l).lk k = s.lk k) := by
  unfold Chip.goUp
  dsimp only
  generalize hy : (s.setLkState l 4).setLk l { s.lk l with
    inits := 2
    met := true
    resume := true
    mustFull := false
    resetting := false } = y
  have hyst : y.lkState l = 4 := by rw [← hy]; exact s.lkState_setLkState l 4
  have hyreg : ∀ k, k ≠ 0x44 → y.reg (lkPg l + k) = s.reg (lkPg l + k) := fun k hk => by
    rw [← hy, Chip.reg_setLk]
    exact Chip.reg_setFld_ne _ _ _ _ (by omega)
  have hylk : Lnk.sameStore { s.lk l with met := true } (y.lk l) ∧ (y.lk l).nbrLocked = (s.lk l).nbrLocked := by
    rw [← hy, Chip.lk_setLk]
    exact ⟨⟨rfl, rfl, rfl, rfl, rfl, rfl⟩, rfl⟩
  have hydown : s.downs y l := by
    rw [← hy]
    exact (s.downs_setFld 2 0 4 (downReg_page l (by decide))).trans (Chip.downs_setLk ..)
  clear hy
  generalize hw : (if (s.lk l).resetting = true then y.resetDoneFor fun u => u == .link l else y) = w
  have hwreg : ∀ a, w.reg a = y.reg a := fun a => by rw [← hw]; split <;> rfl
  have hwlk : ∀ k, w.lk k = y.lk k := fun k => by rw [← hw]; split <;> rfl
  have hwdown : y.downs w l := by
    rw [← hw]
    exact .ite ⟨rfl, rfl, rfl, fun _ _ => rfl, fun _ _ => rfl⟩ (.refl ..)
  clear hw
  obtain ⟨d1, d2⟩ := w.dueLctl_due l
  generalize w.dueLctl l = d at d1 d2
  have hdown : s.downs d l := (hydown.trans hwdown).trans
    ⟨by rw [d1.rest], by rw [d1.rest], by rw [d1.rest], d1.others, fun a _ => d1.regs a (by simp)⟩
  have hpe := d.reports_pageEvent (lkPg l)
  have hpereg : ∀ a, belowPt a → (d.pageEvent (lkPg l)).reg a = d.reg a := fun a h => d.pageEvent_reg _ h
  generalize d.pageEvent (lkPg l) = p at hpe hpereg
  have hpdown : d.downs p l := hpe.downs fun a ha => hpereg a (by unfold downReg at ha; by_contra h; exact ha (.inl h))
  have hrdown := (hdown.trans hpdown).trans (p.downs_rehash l l)
  have hrlk : ∀ k, (p.rehash l).lk k = d.lk k := fun k =>
    congrArg (fun m : KMap Lnk => KMap.at m {} k) ((p.rehash_links l).trans hpe.links)
  have hrreg : ∀ k, k < 0x1000 → (p.rehash l).reg (lkPg l + k) = y.reg (lkPg l + k) := fun k hk =>
    (p.rehash_reg l (by unfold lkPg rtPg; omega)).trans ((hpereg _ (lkPg_below hl hk)).trans ((d1.regs _ (by simp)).trans (hwreg _)))
  generalize p.rehash l = r at hrdown hrlk hrreg
  have hfin : ∀ k, k < 0x1000 → r.ftEval.reg (lkPg l + k) = y.reg (lkPg l + k) := fun k hk =>
    (r.ftEval_reg (by unfold ftReg lkPg ftPg; omega) (lkPg_below hl hk)).trans (hrreg k hk)
  have hdue : (r.lk l).sameStore (r.ftEval.lk l) := (r.ftEval_lk l).sameStore
  have hn : (r.lk l).nbrLocked = (s.lk l).nbrLocked := by
    rw [hrlk, d2, hwlk]
    exact hylk.2
  refine ⟨?_, fun k hk h h' => (hfin k h').trans (hyreg k hk), ?_, fun hft k hk => ?_⟩
  · unfold Chip.lkState Chip.fld
    rw [hfin _ (by decide)]
    exact hyst
  · have hs : (y.lk l).sameStore (r.lk l) := by
      rw [hrlk, d2, hwlk]
      exact ⟨rfl, rfl, rfl, rfl, rfl, rfl⟩
    have h0 := hylk.1
    exact ⟨hdue.replay.trans (hs.replay.trans h0.replay), hdue.expiries.trans (hs.expiries.trans h0.expiries),
      hdue.buf.trans (hs.buf.trans h0.buf), hdue.txq.trans (hs.txq.trans h0.txq), hdue.met.trans (hs.met.trans h0.met),
      hdue.peerSession.trans (hs.peerSession.trans h0.peerSession)⟩
  · have hlinks : r.ftEval.links = r.links := Chip.ftEval_links <| by
      rcases hft with h | h | ⟨h, hnl⟩
      · refine .inl (Eq.trans ?_ h)
        unfold Chip.isMaster Chip.flag
        rw [hrdown.regs _ (by unfold downReg lkPg rtPg pairPg ftPg belowPt; omega)]
      · exact .inr (.inl (by rw [hrdown.ft, h]))
      · exact .inr (.inr (hrdown.noParent hl (.inr (.inl (hn.trans hnl))) h))
    exact (congrArg (fun m : KMap Lnk => KMap.at m {} k) hlinks).trans (hrdown.others k hk)

theorem Chip.resumeLink_facts (b : Chip) (l : Nat) (i : InitInfo) :
    (b.resumeLink l i).unack l = i.rxNext % 4096 ∧ (b.resumeLink l i).txNext l = b.txNext l ∧
    (b.resumeLink l i).rxNext l = b.rxNext l ∧ b.downs (b.resumeLink l i) l ∧
    ((b.resumeLink l i).lk l).replay = (b.lk l).replay.drop (seqDist i.rxNext (b.unack l)) ∧
    ((b.resumeLink l i).lk l).expiries = 0 ∧ ((b.resumeLink l i).lk l).buf = (b.lk l).buf ∧
    ((b.resumeLink l i).lk l).txq = (b.lk l).txq ∧ ((b.resumeLink l i).lk l).nbrLocked = (b.lk l).nbrLocked := by
  have h1 : (b.setFld (lkPg l + 0x4C) 23 12 i.rxNext).unack l = i.rxNext % 4096 := Chip.fld_setFld _ _ _ (by decide)
  have h2 : (b.setFld (lkPg l + 0x4C) 23 12 i.rxNext).txNext l = b.txNext l := Chip.fld_setFld_apart _ _ _ (by decide) (.inl (by decide))
  have h3 : (b.setFld (lkPg l + 0x4C) 23 12 i.rxNext).rxNext l = b.rxNext l := Chip.fld_setFld_ne _ _ _ _ _ _ (lkPg_add_ne l (by decide))
  have h4 : b.downs (b.setFld (lkPg l + 0x4C) 23 12 i.rxNext) l := b.downs_setFld _ _ _ (downReg_page l (by decide))
  have hflag : ∀ {z : Chip} {k hi lo : Nat}, k ≠ 0x44 → (z.setFlag (lkPg l + 0x44) 4 true).fld (lkPg l + k) hi lo = z.fld (lkPg l + k) hi lo :=
    fun hk => Chip.fld_setFld_ne _ _ _ _ _ _ (by omega)
  unfold Chip.resumeLink
  dsimp only
  generalize b.setFld (lkPg l + 0x4C) 23 12 i.rxNext = c at h1 h2 h3 h4
  have h5 := h4.trans (c.downs_setFlag (a := lkPg l + 0x44) 4 true (downReg_page l (by decide)))
  have h6 : (c.setFlag (lkPg l + 0x44) 4 true).unack l = i.rxNext % 4096 := (hflag (by decide)).trans h1
  have h7 : (c.setFlag (lkPg l + 0x44) 4 true).txNext l = b.txNext l := (hflag (by decide)).trans h2
  have h8 : (c.setFlag (lkPg l + 0x44) 4 true).rxNext l = b.rxNext l := (hflag (by decide)).trans h3
  generalize c.setFlag (lkPg l + 0x44) 4 true = d at h5 h6 h7 h8
  refine ⟨h6, h7, h8, h5.trans (Chip.downs_setLk ..), ?_, ?_, ?_, ?_, ?_⟩
  all_goals rw [Chip.lk_setLk]

theorem Chip.drawSizes_keeps (s : Chip) (free : List Nat) : (s.drawSizes free).2.regs = s.regs ∧ (s.drawSizes free).2.links = s.links :=
  List.foldlRecOn (motive := fun p : List Nat × Chip => p.2.regs = s.regs ∧ p.2.links = s.links) free _ ⟨rfl, rfl⟩
    fun _ hp _ _ => hp

theorem Chip.setCredits_facts (s : Chip) (l : Nat) (g : Nat → Nat) (n : Nat) :
    (forEach (List.range n) (fun v s => s.setCredit l v (g v)) s).links = s.links ∧
    (∀ a, (∀ v < n, a ≠ lkPg l + 0x88 + 4 * v) → (forEach (List.range n) (fun v s => s.setCredit l v (g v)) s).reg a = s.reg a) ∧
    ∀ v < n, (forEach (List.range n) (fun v s => s.setCredit l v (g v)) s).creditOf l v = g v % 1024 := by
  induction n with
  | zero => exact ⟨rfl, fun _ _ => rfl, fun v hv => absurd hv (by omega)⟩
  | succ n ih =>
    obtain ⟨h1, h2, h3⟩ := ih
    rw [List.range_succ, forEach_append]
    generalize forEach (List.range n) (fun v s => s.setCredit l v (g v)) s = t at h1 h2 h3
    refine ⟨h1, fun a ha => ?_, fun v hv => ?_⟩
    · exact (Chip.reg_setFld_ne _ _ _ _ (Ne.symm (ha n (by omega)))).trans (h2 a fun v hv => ha v (by omega))
    · by_cases e : v = n
      · subst e
        exact Chip.fld_setFld _ _ _ (by decide)
      · exact (Chip.fld_setFld_ne _ _ _ _ _ _ (by omega)).trans (h3 v (by omega))

theorem Chip.countDiscard_facts (s : Chip) {l : Nat} (hl : l < 96) (n : Nat) :
    (s.countDiscard l n).links = s.links ∧ (s.countDiscard l n).reg (lkPg l + 0x50) = s.reg (lkPg l + 0x50) := by
  unfold Chip.countDiscard
  split
  · exact ⟨rfl, rfl⟩
  · refine ⟨(Chip.reports_notice ..).links.trans rfl, ?_⟩
    rw [Chip.notice_reg _ _ _ (lkPg_below hl (by decide)) (by omega) (by omega)]
    exact Chip.reg_bumpBy_ne _ _ (by omega)

/-- R279: the registers of a link that starts afresh. -/
def Chip.freshRegs (s : Chip) (l : Nat) (i : InitInfo) : Chip :=
  let s := s.setReg (lkPg l + 0x4C) 0
  let s := s.setReg (lkPg l + 0x50) (BitVec.ofNat 32 (65536 * ((s.lkSession l + 1) % 65536)))
  let s := s.setReg (lkPg l + 0x48) (BitVec.ofNat 32 (i.chip + 4096 * i.link + 2 ^ 31))
  s.setFlag (lkPg l + 0x44) 4 false

theorem Chip.freshRegs_facts (s : Chip) (l : Nat) (i : InitInfo) :
    (s.freshRegs l i).links = s.links ∧ (s.freshRegs l i).reg (lkPg l + 0x4C) = 0 ∧
    (s.freshRegs l i).rxNext l = 0 ∧ (s.freshRegs l i).lkSession l = (s.lkSession l + 1) % 65536 := by
  have h50 : (s.setReg (lkPg l + 0x4C) 0).lkSession l = s.lkSession l := Chip.fld_setReg_ne _ _ _ _ (lkPg_add_ne l (by decide))
  have h4C : (s.setReg (lkPg l + 0x4C) 0).reg (lkPg l + 0x4C) = 0 := Chip.reg_setReg ..
  have hlinks : (s.setReg (lkPg l + 0x4C) 0).links = s.links := Chip.setReg_links ..
  unfold Chip.freshRegs
  dsimp only
  rw [h50]
  have hn : (s.lkSession l + 1) % 65536 < 65536 := Nat.mod_lt _ (by decide)
  generalize (s.lkSession l + 1) % 65536 = n at hn
  generalize s.setReg (lkPg l + 0x4C) 0 = a at h4C hlinks
  have b50 := a.reg_setReg (lkPg l + 0x50) (BitVec.ofNat 32 (65536 * n))
  have b4C := (a.reg_setReg_ne (BitVec.ofNat 32 (65536 * n)) (lkPg_add_ne l (j := 0x50) (k := 0x4C) (by decide))).trans h4C
  have blinks := (a.setReg_links (lkPg l + 0x50) (BitVec.ofNat 32 (65536 * n))).trans hlinks
  generalize a.setReg (lkPg l + 0x50) (BitVec.ofNat 32 (65536 * n)) = b at b50 b4C blinks
  have hrest : ∀ {k : Nat}, k ≠ 0x48 → k ≠ 0x44 →
      ((b.setReg (lkPg l + 0x48) (BitVec.ofNat 32 (i.chip + 4096 * i.link + 2 ^ 31))).setFlag (lkPg l + 0x44) 4 false).reg (lkPg l + k) =
        b.reg (lkPg l + k) :=
    fun h h' => (Chip.reg_setFlag_ne _ _ _ (by omega)).trans (Chip.reg_setReg_ne _ _ (by omega))
  have hlinks' : ((b.setReg (lkPg l + 0x48) (BitVec.ofNat 32 (i.chip + 4096 * i.link + 2 ^ 31))).setFlag (lkPg l + 0x44) 4 false).links =
      s.links := (Chip.setFlag_links ..).trans ((Chip.setReg_links ..).trans blinks)
  refine ⟨hlinks', (hrest (by decide) (by decide)).trans b4C, ?_, ?_⟩
  · unfold Chip.rxNext Chip.fld
    rw [hrest (by decide) (by decide), b50, Word.bits, BitVec.toNat_ofNat]
    omega
  · unfold Chip.lkSession Chip.fld
    rw [hrest (by decide) (by decide), b50, Word.bits, BitVec.toNat_ofNat]
    omega

theorem Chip.freshLink_eq (b : Chip) (l : Nat) (i : InitInfo) : ∃ sz, b.freshLink l i =
    Chip.setLk (forEach (List.range 8) (fun v s => s.setCredit l v (i.free.getD v 0))
      ((((b.discardLink l).countDiscard l (b.linkFlits l)).freshRegs l i).drawSizes i.free).2) l
    { (forEach (List.range 8) (fun v s => s.setCredit l v (i.free.getD v 0))
      ((((b.discardLink l).countDiscard l (b.linkFlits l)).freshRegs l i).drawSizes i.free).2).lk l with
      owed := []
      creditDue := false
      xstateDue := false
      offNow := 0
      offSent := 0
      off := 0
      expiries := 0
      peerSession := (i.session + 1) % 65536
      peerSize := sz } := ⟨_, rfl⟩

theorem Chip.freshLink_facts (b : Chip) {l : Nat} (hl : l < 96) (i : InitInfo) :
    (b.freshLink l i).reg (lkPg l + 0x4C) = 0 ∧ (b.freshLink l i).rxNext l = 0 ∧
    (b.freshLink l i).lkSession l = (b.lkSession l + 1) % 65536 ∧
    (∀ v < 8, (b.freshLink l i).creditOf l v = i.free.getD v 0 % 1024) ∧ ((b.freshLink l i).lk l).replay = [] ∧
    ((b.freshLink l i).lk l).peerSession = (i.session + 1) % 65536 := by
  obtain ⟨sz, heq⟩ := b.freshLink_eq l i
  rw [heq]
  have hreplay := b.discardLink_replay hl
  have hpage := (b.discards_discardLink hl).page 0x50 (by decide) (by decide)
  generalize b.discardLink l = d at hreplay hpage
  obtain ⟨c1, c2⟩ := d.countDiscard_facts hl (b.linkFlits l)
  generalize d.countDiscard l (b.linkFlits l) = e at c1 c2
  obtain ⟨f1, f2, f3, f4⟩ := e.freshRegs_facts l i
  generalize e.freshRegs l i = f at f1 f2 f3 f4
  obtain ⟨g1, g2⟩ := f.drawSizes_keeps i.free
  have hg : ∀ a, (f.drawSizes i.free).2.reg a = f.reg a := fun a => by unfold Chip.reg; rw [g1]
  generalize (f.drawSizes i.free).2 = g at g2 hg
  obtain ⟨k1, k2, k3⟩ := g.setCredits_facts l (fun v => i.free.getD v 0) 8
  generalize forEach (List.range 8) (fun v s => s.setCredit l v (i.free.getD v 0)) g = k at k1 k2 k3
  have hk : ∀ j, j < 0x88 → k.reg (lkPg l + j) = f.reg (lkPg l + j) := fun j hj => (k2 _ fun v _ => by omega).trans (hg _)
  have hlk : k.lk l = d.lk l := congrArg (fun m : KMap Lnk => KMap.at m {} l) (k1.trans (g2.trans (f1.trans c1)))
  have hsess : e.lkSession l = b.lkSession l := congrArg (Word.bits · 31 16) (c2.trans hpage)
  refine ⟨(hk _ (by decide)).trans f2, ?_, ?_, k3, ?_, ?_⟩
  · exact (congrArg (Word.bits · 11 0) (hk _ (by decide))).trans f3
  · exact (congrArg (Word.bits · 31 16) (hk _ (by decide))).trans (f4.trans (by rw [hsess]))
  · rw [Chip.lk_setLk, hlk, hreplay]
  · rw [Chip.lk_setLk]

variable {h : Flit} {q : List Flit} {i : InitInfo}

theorem Chip.ackTaken_txNext {y : Chip} {l : Nat} (hst : y.lkState l ≠ 4) : (y.ackTaken l h q).txNext l = y.txNext l := by
  have hs : (y.setLk l { y.lk l with rx := q }).lkState l ≠ 4 := hst
  have htx : (y.setLk l { y.lk l with rx := q }).txNext l = y.txNext l := rfl
  unfold Chip.ackTaken Chip.ackReceive
  dsimp only
  generalize y.setLk l { y.lk l with rx := q } = z at hs htx
  split
  · exact htx
  · split
    · rw [Chip.txNext, Chip.fld_setLk, Chip.fld_setFld_apart _ _ _ (by decide) (.inl (by decide))]
      exact htx
    · exact htx

/-- What a link in INIT keeps while an INIT is taken. -/
structure Chip.initKeeps (y b : Chip) (l : Nat) : Prop where
  downs : y.downs b l
  txNext : b.txNext l = y.txNext l
  rxNext : b.rxNext l = y.rxNext l
  session : b.lkSession l = y.lkSession l
  state : b.lkState l = y.lkState l
  master : b.isMaster = y.isMaster
  noParent : y.ftParent = none → b.ftParent = none
  nbrLocked : (b.lk l).nbrLocked = (y.lk l).nbrLocked
  buf : (b.lk l).buf = (y.lk l).buf
  txq : (b.lk l).txq = (y.lk l).txq

theorem Chip.ackTaken_initKeeps {y : Chip} {l : Nat} (hl : l < 96) (hst : y.lkState l ≠ 4) : y.initKeeps (y.ackTaken l h q) l := by
  obtain ⟨b1, b2⟩ := Chip.ackTaken_open (y := y) (l := l) (h := h) (q := q) hst
  have hreg : ∀ {k : Nat}, k ≠ 0x4C → (y.ackTaken l h q).reg (lkPg l + k) = y.reg (lkPg l + k) :=
    fun hk => b1.regs _ fun e => lkPg_add_ne l hk (List.mem_singleton.1 e)
  have hdown : y.downs (y.ackTaken l h q) l :=
    ⟨by rw [b1.rest], by rw [b1.rest], by rw [b1.rest], b1.others,
      fun a ha => b1.regs a fun e => ha (List.mem_singleton.1 e ▸ downReg_page l (by decide))⟩
  have hmaster : (y.ackTaken l h q).reg (ftPg + 0x40) = y.reg (ftPg + 0x40) :=
    hdown.regs _ (by unfold downReg lkPg rtPg pairPg ftPg belowPt; omega)
  have hstate : (y.ackTaken l h q).lkState l = y.lkState l := congrArg (Word.bits · 2 0) (hreg (by decide))
  have hn : ((y.ackTaken l h q).lk l).nbrLocked = (y.lk l).nbrLocked := by rw [b2]
  exact ⟨hdown, Chip.ackTaken_txNext hst, congrArg (Word.bits · 11 0) (hreg (by decide)),
    congrArg (Word.bits · 31 16) (hreg (by decide)), hstate, congrArg (fun w : Word => w.getLsbD 0) hmaster,
    hdown.noParent hl (.inr (.inr ⟨hstate, hn⟩)), hn, by rw [b2], by rw [b2]⟩

/-- R278, R279: an INIT that agrees and was seen resumes the link. -/
theorem initFlit_resumes (hrx : (s.sys.chip.lk l).rx = h :: q) (ht : h.typ = 6) (hi : initOf h.payload = i)
    (hst : s.sys.chip.lkState l = 3) (hcfg : lnkCfgOk (s.sys.chip.lk l) = true) (hag : lnkAgrees (s.sys.chip.lk l) i = true)
    (hseen : i.seen = true) (hres : (s.sys.chip.ackTaken l h q).resumes l i = true) :
    ∃ t, chipNext s (.initFlit l i) t ∧ t.lkState l = 4 ∧
      t.unack l = i.rxNext % 4096 ∧ t.txNext l = s.sys.chip.txNext l ∧ t.rxNext l = s.sys.chip.rxNext l ∧
      (s.sys.chip.isMaster = true ∨ s.sys.chip.ft.had = true ∨ (s.sys.chip.ftParent = none ∧ (s.sys.chip.lk l).nbrLocked = false) →
        ∀ k : Nat, k ≠ l.val → t.lk k = s.sys.chip.lk k) ∧
      (t.lk l).replay = ((s.sys.chip.ackTaken l h q).lk l).replay.drop (seqDist i.rxNext ((s.sys.chip.ackTaken l h q).unack l)) ∧
      (t.lk l).expiries = 0 ∧ (t.lk l).buf = (s.sys.chip.lk l).buf ∧ (t.lk l).txq = (s.sys.chip.lk l).txq := by
  have hexec := exec_initFlit_eq hrx ht hi hst
  rw [if_neg (by simp [hcfg, hag]), if_pos hseen, Chip.enterUp_eq, Chip.initTaken, Chip.resumes_peer, if_pos hres] at hexec
  have hb := Chip.ackTaken_initKeeps (h := h) (q := q) l.isLt (y := s.sys.chip) (by omega)
  generalize s.sys.chip.ackTaken l h q = b at hexec hb ⊢
  obtain ⟨r1, r2, r3, r4, r5, r6, r7, r8, r9⟩ := (b.setLk l { b.lk l with peer := some i }).resumeLink_facts l i
  generalize (b.setLk l { b.lk l with peer := some i }).resumeLink l i = z at hexec r1 r2 r3 r4 r5 r6 r7 r8 r9
  rw [Chip.lk_setLk] at r5 r7 r8 r9
  obtain ⟨g1, g2, g3, g4⟩ := z.goUp_facts l.isLt
  have hdown : s.sys.chip.downs z l := (hb.downs.trans (b.downs_setLk ..)).trans r4
  refine ⟨_, hexec, g1, ?_, ?_, ?_, fun hft k hk => ?_, ?_, ?_, ?_, ?_⟩
  · exact (congrArg (Word.bits · 23 12) (g2 0x4C (by decide) (by decide) (by decide))).trans r1
  · exact (congrArg (Word.bits · 11 0) (g2 0x4C (by decide) (by decide) (by decide))).trans (r2.trans hb.txNext)
  · exact (congrArg (Word.bits · 11 0) (g2 0x50 (by decide) (by decide) (by decide))).trans (r3.trans hb.rxNext)
  · refine (g4 ?_ k hk).trans (hdown.others k hk)
    rcases hft with hft | hft | ⟨hft, hn⟩
    · refine .inl (Eq.trans ?_ hft)
      unfold Chip.isMaster Chip.flag
      rw [hdown.regs _ (by have := l.isLt; unfold downReg lkPg rtPg pairPg ftPg belowPt; omega)]
    · exact .inr (.inl (by rw [hdown.ft, hft]))
    · have hz : (z.lk l).nbrLocked = false := r9.trans (hb.nbrLocked.trans hn)
      exact .inr (.inr ⟨hdown.noParent l.isLt (.inr (.inl hz)) hft, hz⟩)
  · exact g3.replay.trans r5
  · exact g3.expiries.trans r6
  · exact g3.buf.trans (r7.trans hb.buf)
  · exact g3.txq.trans (r8.trans hb.txq)

/-- R278, R279: an INIT that agrees and was seen starts the link afresh where it does not resume. -/
theorem initFlit_fresh (hrx : (s.sys.chip.lk l).rx = h :: q) (ht : h.typ = 6) (hi : initOf h.payload = i)
    (hst : s.sys.chip.lkState l = 3) (hcfg : lnkCfgOk (s.sys.chip.lk l) = true) (hag : lnkAgrees (s.sys.chip.lk l) i = true)
    (hseen : i.seen = true) (hres : (s.sys.chip.ackTaken l h q).resumes l i = false) :
    ∃ t, chipNext s (.initFlit l i) t ∧ t.lkState l = 4 ∧
      t.txNext l = 0 ∧ t.unack l = 0 ∧ t.rxNext l = 0 ∧ t.lkSession l = (s.sys.chip.lkSession l + 1) % 65536 ∧
      (∀ v < 8, t.creditOf l v = i.free.getD v 0 % 1024) ∧ (t.lk l).replay = [] ∧
      (t.lk l).met = true ∧ (t.lk l).peerSession = (i.session + 1) % 65536 := by
  have hexec := exec_initFlit_eq hrx ht hi hst
  rw [if_neg (by simp [hcfg, hag]), if_pos hseen, Chip.enterUp_eq, Chip.initTaken, Chip.resumes_peer,
    if_neg (ne_true_of_eq_false hres)] at hexec
  have hb := Chip.ackTaken_initKeeps (h := h) (q := q) l.isLt (y := s.sys.chip) (by omega)
  generalize s.sys.chip.ackTaken l h q = b at hexec hb
  obtain ⟨f1, f2, f3, f4, f5, f6⟩ := (b.setLk l { b.lk l with peer := some i }).freshLink_facts l.isLt i
  generalize (b.setLk l { b.lk l with peer := some i }).freshLink l i = z at hexec f1 f2 f3 f4 f5 f6
  obtain ⟨g1, g2, g3, -⟩ := z.goUp_facts l.isLt
  have h4C : (z.goUp l).reg (lkPg l + 0x4C) = 0 := (g2 0x4C (by decide) (by decide) (by decide)).trans f1
  refine ⟨_, hexec, g1, ?_, ?_, ?_, ?_, fun v hv => ?_, g3.replay.trans f5, g3.met, g3.peerSession.trans f6⟩
  · unfold Chip.txNext Chip.fld
    rw [h4C]
    rfl
  · unfold Chip.unack Chip.fld
    rw [h4C]
    rfl
  · exact (congrArg (Word.bits · 11 0) (g2 0x50 (by decide) (by decide) (by decide))).trans f2
  · exact (congrArg (Word.bits · 31 16) (g2 0x50 (by decide) (by decide) (by decide))).trans
      (f3.trans (congrArg (fun n => (n + 1) % 65536) hb.session))
  · have hreg := g2 (0x88 + 4 * v) (by omega) (by omega) (by omega)
    rw [← Nat.add_assoc] at hreg
    exact (congrArg (Word.bits · 25 16) hreg).trans (f4 v hv)

theorem initFlit_disagrees (hrx : (s.sys.chip.lk l).rx = h :: q) (ht : h.typ = 6) (hi : initOf h.payload = i)
    (hst : s.sys.chip.lkState l = 3) (hbad : lnkCfgOk (s.sys.chip.lk l) = false ∨ lnkAgrees (s.sys.chip.lk l) i = false) :
    ∃ t, chipNext s (.initFlit l i) t ∧ t.lkState l = 3 ∧
      t.lk l = { (s.sys.chip.ackTaken l h q).lk l with peer := some i } ∧ t.flag (errStat (lkPg l)) 7 = true := by
  have hexec := exec_initFlit_eq hrx ht hi hst
  rw [if_pos hbad] at hexec
  have hb := (Chip.ackTaken_initKeeps (h := h) (q := q) l.isLt (y := s.sys.chip) (by omega)).state.trans hst
  have hlk : (s.sys.chip.initTaken l h q i).lk l = { (s.sys.chip.ackTaken l h q).lk l with peer := some i } := Chip.lk_setLk ..
  have hit : (s.sys.chip.initTaken l h q i).lkState l = 3 := hb
  generalize s.sys.chip.initTaken l h q i = z at hexec hlk hit
  refine ⟨_, hexec, ?_, ?_, Chip.notice_flag _ _ (by decide) (lkPg_below l.isLt (by decide))⟩
  · refine (congrArg (Word.bits · 2 0) ?_).trans hit
    exact Chip.notice_reg _ _ _ (lkPg_below l.isLt (by decide)) (by omega) (by omega)
  · exact (congrArg (fun m : KMap Lnk => KMap.at m {} l) (Chip.reports_notice ..).links).trans hlk

end

/-- Settles O45: training, codewords and INIT, each by the lemma on its case. -/
theorem linkTraining : Obligations.LinkTraining := by
  intro s l flight cw i h q y x pg gives tries most good
  refine ⟨fun hst hask hpll => ⟨fun full hf => trainingDone_locks hst hask hpll hf, fun hm => ?_,
    fun hn => trainingDone_repeats hst hask hpll hn, fun hn hc hh hf => trainingDone_fails hst hask hpll hn hc hh hf⟩,
    fun hno full ok => ?_, fun hno => ?_, fun hpll hun hmark hls hcrc => ⟨fun hst => codeword_locks hpll hst hun hmark hls hcrc,
      fun hst => codeword_up hpll hst hun hmark hls hcrc⟩, fun hpll hun hst => codeword_lost hpll hun hst, ?_⟩
  · exact exec_trainingDone_eq (full := false) (ok := false) (flight := flight) hst hask hpll fun h => absurd (hm.symm.trans h) (by decide)
  · have hexec : exec (.trainingDone l full ok flight) s = execTrainingDone l full ok flight s := (rfl)
    rw [hexec, execTrainingDone, liftC]
    dsimp only
    rw [if_pos (by tauto)]
  · have hexec : exec (.codeword l cw) s = execCodeword l cw s := (rfl)
    have hskip : y.lkState l = 0 ∨ y.lkState l = 5 ∨ (y.lkState l = 1 ∧ x.ask.isSome = false) ∨ x.noPll = true := by
      rcases hno with h | h | ⟨h, ha⟩ | h
      · exact .inl h
      · exact .inr (.inl h)
      · exact .inr (.inr (.inl ⟨h, by rw [ha]; rfl⟩))
      · exact .inr (.inr (.inr h))
    rw [hexec, execCodeword, liftC]
    dsimp only
    rw [if_pos (by tauto)]
  · intro b hrx ht hi hst
    refine ⟨initFlit_disagrees hrx ht hi hst, fun hcfg hag => ⟨fun hseen => ?_, initFlit_resumes hrx ht hi hst hcfg hag,
      initFlit_fresh hrx ht hi hst hcfg hag⟩⟩
    have hexec := exec_initFlit_eq hrx ht hi hst
    rw [if_neg (fun hno => hno.elim (fun h => absurd (hcfg.symm.trans h) (by decide)) fun h => absurd (hag.symm.trans h) (by decide)),
      if_neg (ne_true_of_eq_false hseen)] at hexec
    exact hexec

end Sys2Proof.Machine

/-! PROOF of O46 (R255, R261, R263, R264, R268, R271 to R273, R276, R278, R280, R301): a flit time of a link. -/

namespace Sys2Proof.Machine

-- One after the other: side by side the proofs ask for more memory than the check grants.
set_option Elab.async false

open Laws

/-! ## What a link shows: the rest of the chip stays -/

/-- u is y but that link l is z and that os has been sent. -/
structure Chip.shows (y u : Chip) (l : Nat) (z : Lnk) (os : List Out) : Prop where
  rest : u = { y with
    links := u.links
    out := y.out ++ os }
  lk : u.lk l = z
  others : ∀ k, k ≠ l → u.lk k = y.lk k

section
variable {y u : Chip} {l : Nat} {z : Lnk} {os : List Out}

theorem Chip.shows_start (y : Chip) (l : Nat) (z : Lnk) : y.shows (y.setLk l z) l z [] :=
  ⟨by rw [List.append_nil]; rfl, Chip.lk_setLk .., fun _ hk => Chip.lk_setLk_ne _ _ hk⟩

theorem Chip.shows.setLk (h : y.shows u l z os) (z' : Lnk) : y.shows (u.setLk l z') l z' os :=
  ⟨by conv => lhs; rw [h.rest]
      rfl, Chip.lk_setLk .., fun k hk => (Chip.lk_setLk_ne _ _ hk).trans (h.others k hk)⟩

theorem Chip.shows.emit (h : y.shows u l z os) {o : Out} (ho : ∀ p, o ≠ .packet p) : y.shows (u.emit o) l z (os ++ [o]) := by
  refine ⟨?_, h.lk, h.others⟩
  have hown : (u.emit o).own = u.own := by
    unfold Chip.emit
    cases o with
    | packet p => exact absurd rfl (ho p)
    | _ => rfl
  have hemit : u.emit o = { u with out := u.out ++ [o] } := by
    conv => lhs; unfold Chip.emit
    exact congrArg (fun w => ({ u with out := u.out ++ [o], own := w } : Chip)) hown
  rw [hemit]
  conv => lhs; rw [h.rest]
  rw [List.append_assoc]

theorem Chip.shows.regs (h : y.shows u l z os) : u.regs = y.regs := by rw [h.rest]
theorem Chip.shows.out (h : y.shows u l z os) : u.out = y.out ++ os := by rw [h.rest]
theorem Chip.shows.now (h : y.shows u l z os) : u.now = y.now := by rw [h.rest]
theorem Chip.shows.roles (h : y.shows u l z os) : u.roles = y.roles := by rw [h.rest]
theorem Chip.shows.plan (h : y.shows u l z os) : u.plan = y.plan := by rw [h.rest]
theorem Chip.shows.errs (h : y.shows u l z os) : u.errs = y.errs := by rw [h.rest]

theorem Chip.shows.reg (h : y.shows u l z os) (a : Nat) : u.reg a = y.reg a := by
  unfold Chip.reg
  rw [h.regs]

theorem Chip.shows.fld (h : y.shows u l z os) (a hi lo : Nat) : u.fld a hi lo = y.fld a hi lo := by
  unfold Chip.fld
  rw [h.reg]

theorem Chip.shows.flag (h : y.shows u l z os) (a n : Nat) : u.flag a n = y.flag a n := by
  unfold Chip.flag
  rw [h.reg]

theorem Chip.shows.state (h : y.shows u l z os) : u.lkState l = y.lkState l := h.fld _ _ _

theorem Chip.shows.ackOf (h : y.shows u l z os) : u.ackOf l = y.ackOf l := by
  unfold Chip.ackOf Chip.rxNext
  rw [h.fld]

theorem Chip.shows.plainFlit (h : y.shows u l z os) (t : Nat) (p : List Byte) : u.plainFlit l t p = y.plainFlit l t p := by
  unfold Chip.plainFlit Chip.txNext
  rw [h.ackOf, h.fld]

theorem Chip.shows.sendPlain (h : y.shows u l z os) (t : Nat) (p : List Byte) :
    y.shows (u.sendPlain l t p) l z (os ++ [.flit l (y.plainFlit l t p)]) := by
  unfold Chip.sendPlain
  rw [h.plainFlit]
  exact h.emit fun _ => by simp

theorem Chip.shows.initInfo (h : y.shows u l z os) (hv : z.vcEn = (y.lk l).vcEn) (ho : z.onOff = (y.lk l).onOff)
    (hr : z.resume = (y.lk l).resume) (hp : z.peer = (y.lk l).peer) (hs : z.peerSession = (y.lk l).peerSession)
    (hz : z.sizes = (y.lk l).sizes) (hb : z.buf = (y.lk l).buf) : u.initInfo l = y.initInfo l := by
  unfold Chip.initInfo Chip.rxNext Chip.lkSession Chip.selfChip sizeOf bufCount
  dsimp only
  rw [h.lk, hv, ho, hr, hp, hs, hz, hb, h.fld, h.fld]
  simp only [h.fld]

theorem Chip.shows.deliver (h : y.shows u l z os) (fs : List Flit) :
    y.shows (forEach fs (fun f s => s.emit (.deliver l f)) u) l z (os ++ fs.map (.deliver l)) := by
  induction fs generalizing u os with
  | nil => rw [List.map_nil, List.append_nil]; exact h
  | cons f fs ih =>
    rw [forEach_cons, List.map_cons]
    have := ih (h.emit (o := .deliver l f) fun _ => by simp)
    rwa [List.append_assoc, List.singleton_append] at this

end

/-! ## The start of a flit time -/

/-- R251: no status waits past its T_d. -/
theorem dropExpired_none {now : Nat} {q : List TxFlit} (h : ∀ f ∈ q, ∀ r, f.resv = some r → r.replaced = false ∨ now ≤ r.td) :
    (dropExpired now q).1 = [] := by
  induction q with
  | nil => rfl
  | cons f q ih =>
    have hq := ih fun g hg => h g (List.mem_cons_of_mem _ hg)
    unfold dropExpired
    dsimp only
    cases hr : f.resv with
    | none => exact hq
    | some t =>
      dsimp only
      have ht : ¬(t.replaced && decide (t.td < now)) = true := by
        rcases h f List.mem_cons_self t hr with h | h
        · simp [h]
        · simp [h]
      rw [if_neg ht]
      exact hq

theorem Chip.dropLate_none {u : Chip} {l : Nat}
    (h : ∀ e ∈ (u.lk l).txq, ∀ f ∈ e.2, ∀ r, f.resv = some r → r.replaced = false ∨ u.now ≤ r.td) : u.dropLate l = u := by
  have hlost : ((u.lk l).txq.flatMap fun e => (dropExpired u.now e.2).1) = [] :=
    List.flatMap_eq_nil_iff.2 fun e he => dropExpired_none (h e he)
  unfold Chip.dropLate
  dsimp only
  rw [hlost]
  rfl

/-- A codeword starts in this flit time. -/
def cwStarts (x : Lnk) (n : Nat) : Bool :=
  match x.flitNo with
  | some m => m / 5 != n / 5
  | none => true

section
variable {s : State} {l : LinkNo}

theorem exec_flitTime_eq (hno : (s.sys.chip.lk l).flitNo ≠ some (s.sys.chip.now * 25 / 128)) (hpll : (s.sys.chip.lk l).noPll = false)
    {w : Chip} (hw : ((s.sys.chip.setLk l { s.sys.chip.lk l with flitNo := some (s.sys.chip.now * 25 / 128) }).drainBuf l).dropLate l = w) :
    chipNext s (.flitTime l) (((if cwStarts (s.sys.chip.lk l) (s.sys.chip.now * 25 / 128)
      then w.startCodeword l (s.sys.chip.now * 25 / 128 / 5 % 5) else w).sendFlit l (s.sys.chip.now * 25 / 128)).reapReqs) := by
  have hexec : exec (.flitTime l) s = execFlitTime l s := (rfl)
  rw [chipNext, hexec, execFlitTime, liftC]
  dsimp only
  rw [if_neg hno, if_neg (ne_true_of_eq_false hpll), hw]
  rfl

theorem flitTime_noPll (hno : (s.sys.chip.lk l).flitNo ≠ some (s.sys.chip.now * 25 / 128)) (hpll : (s.sys.chip.lk l).noPll = true) :
    chipNext s (.flitTime l) (s.sys.chip.dropLate l).reapReqs := by
  have hexec : exec (.flitTime l) s = execFlitTime l s := (rfl)
  rw [chipNext, hexec, execFlitTime, liftC]
  dsimp only
  rw [if_neg hno, if_pos hpll]

theorem flitTime_done (h : (s.sys.chip.lk l).flitNo = some (s.sys.chip.now * 25 / 128)) : exec (.flitTime l) s = .next s := by
  have hexec : exec (.flitTime l) s = execFlitTime l s := (rfl)
  rw [hexec, execFlitTime, liftC]
  dsimp only
  rw [if_pos h]

/-- The codeword header of a link that is past training. -/
theorem Chip.startCodeword_sync {u : Chip} {l : Nat} (c : Nat) (h : u.lkState l = 2 ∨ u.lkState l = 3 ∨ u.lkState l = 4) :
    u.startCodeword l c = u.emit (.cwHead l (cwHeader c 0)) := by
  unfold Chip.startCodeword
  dsimp only
  rcases h with h | h | h <;> rw [h] <;> cases (u.lk l).ask <;> rfl

theorem Chip.shows.startCodeword_sync {y u : Chip} {l : Nat} {z : Lnk} {os : List Out} (h : y.shows u l z os) (b : Bool) (c : Nat)
    (hst : y.lkState l = 2 ∨ y.lkState l = 3 ∨ y.lkState l = 4) :
    y.shows (if b then u.startCodeword l c else u) l z (os ++ if b then [.cwHead l (cwHeader c 0)] else []) := by
  cases b with
  | true =>
    rw [if_pos rfl, if_pos rfl, Chip.startCodeword_sync c (by rw [h.state]; exact hst)]
    exact h.emit fun _ => by simp
  | false =>
    rw [if_neg (by decide), if_neg (by decide), List.append_nil]
    exact h

/-- The link part in a flit time that is used. -/
def usedLink (s : State) (l : Nat) : Lnk := { s.sys.chip.lk l with flitNo := some (s.sys.chip.now * 25 / 128) }

/-- The chip once the receive buffer has been drained and a codeword started. -/
def Chip.begun (s : State) (l : Nat) (w : Chip) : Chip :=
  if cwStarts (s.sys.chip.lk l) (s.sys.chip.now * 25 / 128) then w.startCodeword l (s.sys.chip.now * 25 / 128 / 5 % 5) else w

/-- The codeword header sent. -/
def headOf (s : State) (l : Nat) : List Out :=
  if cwStarts (s.sys.chip.lk l) (s.sys.chip.now * 25 / 128) then [.cwHead l (cwHeader (s.sys.chip.now * 25 / 128 / 5 % 5) 0)] else []

/-- No status of the link is past its T_d. -/
def statusInTime (s : State) (l : Nat) : Prop :=
  ∀ e ∈ (s.sys.chip.lk l).txq, ∀ f ∈ e.2, ∀ r, f.resv = some r → r.replaced = false ∨ s.sys.chip.now ≤ r.td

theorem exec_flitTime_quiet (hno : (s.sys.chip.lk l).flitNo ≠ some (s.sys.chip.now * 25 / 128)) (hpll : (s.sys.chip.lk l).noPll = false)
    (hin : statusInTime s l) (hbuf : (s.sys.chip.lk l).buf = []) :
    chipNext s (.flitTime l)
      ((Chip.begun s l (s.sys.chip.setLk l (usedLink s l))).sendFlit l (s.sys.chip.now * 25 / 128)).reapReqs := by
  have hdrain : (s.sys.chip.setLk l (usedLink s l)).drainBuf l = s.sys.chip.setLk l (usedLink s l) := by
    have hb : (usedLink s l).buf = [] := hbuf
    unfold Chip.drainBuf
    dsimp only
    rw [Chip.lk_setLk, hb]
  refine exec_flitTime_eq hno hpll (w := s.sys.chip.setLk l (usedLink s l)) ?_
  refine (congrArg (Chip.dropLate · l) hdrain).trans (Chip.dropLate_none fun e he => ?_)
  rw [Chip.lk_setLk] at he
  exact hin e he

/-- What the statement says of what is sent. -/
def linkSends (s : State) (l : LinkNo) (z : Lnk) (os : List Out) : Prop :=
  ∃ u : Chip, chipNext s (.flitTime l) u.reapReqs ∧ u = { s.sys.chip with
    links := u.links
    out := s.sys.chip.out ++ os } ∧ u.lk l = z ∧ ∀ k : Nat, k ≠ l.val → u.lk k = s.sys.chip.lk k

theorem linkSends_of {u : Chip} {z : Lnk} {os : List Out} (hexec : chipNext s (.flitTime l) u.reapReqs)
    (h : s.sys.chip.shows u l z os) : linkSends s l z os := ⟨u, hexec, h.rest, h.lk, h.others⟩

/-! ## TRAIN, LOCK and INIT -/

section
variable (hno : (s.sys.chip.lk l).flitNo ≠ some (s.sys.chip.now * 25 / 128)) (hpll : (s.sys.chip.lk l).noPll = false)
  (hin : statusInTime s l) (hbuf : (s.sys.chip.lk l).buf = [])
include hno hpll hin hbuf

theorem train_silent (hst : s.sys.chip.lkState l = 1) (hask : (s.sys.chip.lk l).ask = none) :
    linkSends s l (usedLink s l) [] := by
  have hexec := exec_flitTime_quiet hno hpll hin hbuf
  have h := s.sys.chip.shows_start l (usedLink s l)
  generalize s.sys.chip.setLk l (usedLink s l) = w at hexec h
  have hwst : w.lkState l = 1 := h.state.trans hst
  have hwask : (w.lk l).ask = none := by rw [h.lk]; exact hask
  have hb : Chip.begun s l w = w := by
    unfold Chip.begun Chip.startCodeword
    dsimp only
    rw [hwst, hwask]
    split <;> rfl
  have hs : w.sendFlit l (s.sys.chip.now * 25 / 128) = w := by
    unfold Chip.sendFlit
    rw [hwst, hwask]
    rfl
  rw [hb, hs] at hexec
  exact linkSends_of hexec h

theorem train_asks {a : Ask} (hst : s.sys.chip.lkState l = 1) (hask : (s.sys.chip.lk l).ask = some a) :
    (cwStarts (s.sys.chip.lk l) (s.sys.chip.now * 25 / 128) = false →
      linkSends s l (usedLink s l) [.flit l (s.sys.chip.plainFlit l 0 [])]) ∧
    (cwStarts (s.sys.chip.lk l) (s.sys.chip.now * 25 / 128) = true → 0 < a.left →
      linkSends s l { usedLink s l with ask := some { a with left := a.left - 1 } }
        [.cwHead l (cwHeader (s.sys.chip.now * 25 / 128 / 5 % 5) (if a.reset then 2 else 1)), .flit l (s.sys.chip.plainFlit l 0 [])]) ∧
    (cwStarts (s.sys.chip.lk l) (s.sys.chip.now * 25 / 128) = true → a.left = 0 → (s.sys.chip.linkRole l).1 ≠ 0 →
      linkSends s l { usedLink s l with ask := none } []) ∧
    (cwStarts (s.sys.chip.lk l) (s.sys.chip.now * 25 / 128) = true → a.left = 0 → (s.sys.chip.linkRole l).1 = 0 →
      ∃ u : Chip, chipNext s (.flitTime l) u.reapReqs ∧ u.lkState l = 0 ∧ u.out = s.sys.chip.out ∧ (u.lk l).ask = none) := by
  have hexec := exec_flitTime_quiet hno hpll hin hbuf
  have h := s.sys.chip.shows_start l (usedLink s l)
  generalize s.sys.chip.setLk l (usedLink s l) = w at hexec h
  have hwst : w.lkState l = 1 := h.state.trans hst
  have hwask : (w.lk l).ask = some a := by rw [h.lk]; exact hask
  have hwrole : w.linkRole l = s.sys.chip.linkRole l := by unfold Chip.linkRole; rw [h.roles]
  have hnull : ∀ {u : Chip}, u.lkState l = 1 → (u.lk l).ask.isSome = true → u.sendFlit l (s.sys.chip.now * 25 / 128) = u.sendPlain l 0 [] := by
    intro u hu ha
    unfold Chip.sendFlit
    rw [hu]
    exact if_pos ha
  have hquiet : ∀ {u : Chip}, u.lkState l = 1 → (u.lk l).ask = none → u.sendFlit l (s.sys.chip.now * 25 / 128) = u := by
    intro u hu ha
    unfold Chip.sendFlit
    rw [hu, ha]
    rfl
  have hcw : w.startCodeword l (s.sys.chip.now * 25 / 128 / 5 % 5) =
      if a.left = 0 then if (s.sys.chip.linkRole l).1 = 0 then w.goIdle l else w.setLk l { usedLink s l with ask := none }
      else (w.setLk l { usedLink s l with ask := some { a with left := a.left - 1 } }).emit
        (.cwHead l (cwHeader (s.sys.chip.now * 25 / 128 / 5 % 5) (if a.reset then 2 else 1))) := by
    unfold Chip.startCodeword
    dsimp only
    rw [hwst, hwask, hwrole, h.lk]
    rfl
  refine ⟨fun hs => ?_, fun hs ha => ?_, fun hs ha hr => ?_, fun hs ha hr => ?_⟩
  · rw [Chip.begun, if_neg (ne_true_of_eq_false hs), hnull hwst (by rw [hwask]; rfl)] at hexec
    exact linkSends_of hexec (h.sendPlain 0 [])
  · rw [Chip.begun, if_pos hs, hcw, if_neg (by omega)] at hexec
    have h' := (h.setLk { usedLink s l with ask := some { a with left := a.left - 1 } }).emit
      (o := .cwHead l (cwHeader (s.sys.chip.now * 25 / 128 / 5 % 5) (if a.reset then 2 else 1))) fun _ => by simp
    rw [hnull (h'.state.trans hst) (by rw [h'.lk]; rfl)] at hexec
    exact linkSends_of hexec (h'.sendPlain 0 [])
  · rw [Chip.begun, if_pos hs, hcw, if_pos ha, if_neg hr] at hexec
    have h' := h.setLk { usedLink s l with ask := none }
    rw [hquiet (h'.state.trans hst) (by rw [h'.lk])] at hexec
    exact linkSends_of hexec h'
  · rw [Chip.begun, if_pos hs, hcw, if_pos ha, if_pos hr] at hexec
    have hg : (w.goIdle l).lkState l = 0 ∧ (w.goIdle l).out = w.out ∧ ((w.goIdle l).lk l).ask = none := by
      unfold Chip.goIdle
      exact ⟨w.lkState_setLkState l 0, rfl, by rw [Chip.lk_setLk]⟩
    obtain ⟨g1, g2, g3⟩ := hg
    have hsend : (w.goIdle l).sendFlit l (s.sys.chip.now * 25 / 128) = w.goIdle l := by
      unfold Chip.sendFlit
      rw [g1]
      rfl
    rw [hsend] at hexec
    exact ⟨_, hexec, g1, g2.trans (h.out.trans (List.append_nil _)), g3⟩

/-- What a link past training is when it comes to send. -/
theorem exec_flitTime_sync (hst : s.sys.chip.lkState l = 2 ∨ s.sys.chip.lkState l = 3 ∨ s.sys.chip.lkState l = 4) :
    ∃ u, s.sys.chip.shows u l (usedLink s l) (headOf s l) ∧
      chipNext s (.flitTime l) (u.sendFlit l (s.sys.chip.now * 25 / 128)).reapReqs := by
  have hexec := exec_flitTime_quiet hno hpll hin hbuf
  have h := (s.sys.chip.shows_start l (usedLink s l)).startCodeword_sync (cwStarts (s.sys.chip.lk l) (s.sys.chip.now * 25 / 128))
    (s.sys.chip.now * 25 / 128 / 5 % 5) hst
  exact ⟨_, h, hexec⟩

theorem lock_sends (hst : s.sys.chip.lkState l = 2) :
    linkSends s l (usedLink s l) (headOf s l ++ [.flit l (s.sys.chip.plainFlit l 0 [])]) := by
  obtain ⟨u, h, hexec⟩ := exec_flitTime_sync hno hpll hin hbuf (.inl hst)
  have hsend : u.sendFlit l (s.sys.chip.now * 25 / 128) = u.sendPlain l 0 [] := by
    simp only [Chip.sendFlit, h.state.trans hst]
  rw [hsend] at hexec
  exact linkSends_of hexec (h.sendPlain 0 [])

theorem init_sends (hst : s.sys.chip.lkState l = 3) : linkSends s l (usedLink s l)
    (headOf s l ++ [.flit l (s.sys.chip.plainFlit l 6 (initBytes (s.sys.chip.initInfo l)))]) := by
  obtain ⟨u, h, hexec⟩ := exec_flitTime_sync hno hpll hin hbuf (.inr (.inl hst))
  have hsend : u.sendFlit l (s.sys.chip.now * 25 / 128) = u.sendPlain l 6 (initBytes (s.sys.chip.initInfo l)) := by
    simp only [Chip.sendFlit, h.state.trans hst, Chip.sendInit, h.initInfo rfl rfl rfl rfl rfl rfl rfl]
  rw [hsend] at hexec
  exact linkSends_of hexec (h.sendPlain ..)

/-! ## UP -/

theorem exec_flitTime_up (hst : s.sys.chip.lkState l = 4) :
    ∃ u, s.sys.chip.shows u l (usedLink s l) (headOf s l) ∧
      chipNext s (.flitTime l) (u.upFlit l (s.sys.chip.now * 25 / 128)).reapReqs := by
  obtain ⟨u, h, hexec⟩ := exec_flitTime_sync hno hpll hin hbuf (.inr (.inr hst))
  have hsend : u.sendFlit l (s.sys.chip.now * 25 / 128) = u.upFlit l (s.sys.chip.now * 25 / 128) := by
    simp only [Chip.sendFlit, h.state.trans hst]
  rw [hsend] at hexec
  exact ⟨u, h, hexec⟩

theorem up_inits (hst : s.sys.chip.lkState l = 4) (hi : 0 < (s.sys.chip.lk l).inits) :
    linkSends s l { usedLink s l with inits := (s.sys.chip.lk l).inits - 1 }
      (headOf s l ++ [.flit l (s.sys.chip.plainFlit l 6 (initBytes (s.sys.chip.initInfo l)))]) := by
  obtain ⟨u, h, hexec⟩ := exec_flitTime_up hno hpll hin hbuf hst
  have hui : (u.lk l).inits = (s.sys.chip.lk l).inits := by rw [h.lk]; rfl
  have h' := h.setLk { usedLink s l with inits := (s.sys.chip.lk l).inits - 1 }
  have hup : u.upFlit l (s.sys.chip.now * 25 / 128) =
      (u.setLk l { usedLink s l with inits := (s.sys.chip.lk l).inits - 1 }).sendPlain l 6 (initBytes (s.sys.chip.initInfo l)) := by
    unfold Chip.upFlit Chip.sendInit
    dsimp only
    rw [if_pos (by omega), hui, h.lk, h'.initInfo rfl rfl rfl rfl rfl rfl rfl]
  rw [hup] at hexec
  exact linkSends_of hexec (h'.sendPlain ..)

theorem up_holds (hst : s.sys.chip.lkState l = 4) (hi : (s.sys.chip.lk l).inits = 0) (hh : s.sys.chip.inHold l = true) :
    linkSends s l (usedLink s l) (headOf s l ++ [.flit l (s.sys.chip.plainFlit l 7 [])]) := by
  obtain ⟨u, h, hexec⟩ := exec_flitTime_up hno hpll hin hbuf hst
  have hui : (u.lk l).inits = 0 := by rw [h.lk]; exact hi
  have hhold : u.inHold l = true := (h.flag _ _).trans hh
  have hup : u.upFlit l (s.sys.chip.now * 25 / 128) = u.sendPlain l 7 [] := by
    unfold Chip.upFlit
    dsimp only
    rw [if_neg (by omega), if_pos hhold]
  rw [hup] at hexec
  exact linkSends_of hexec (h.sendPlain ..)

theorem exec_flitTime_packets (hst : s.sys.chip.lkState l = 4) (hi : (s.sys.chip.lk l).inits = 0) (hh : s.sys.chip.inHold l = false)
    (hr : (s.sys.chip.lk l).replayPos = none) :
    ∃ u, s.sys.chip.shows u l (usedLink s l) (headOf s l) ∧
      chipNext s (.flitTime l) (if 23 ≤ s.sys.chip.now * 25 / 128 % 25 ∧ u.ctlDue l = true then u.sendCtl l
        else (u.sendFirst l (s.sys.chip.now * 25 / 128 % 25) (s.sys.chip.now * 25 / 128)).getD
          (if (u.noteWait l (s.sys.chip.now * 25 / 128)).ctlDue l then (u.noteWait l (s.sys.chip.now * 25 / 128)).sendCtl l
            else (u.noteWait l (s.sys.chip.now * 25 / 128)).sendPlain l 0 [])).reapReqs := by
  obtain ⟨u, h, hexec⟩ := exec_flitTime_up hno hpll hin hbuf hst
  have hui : (u.lk l).inits = 0 := by rw [h.lk]; exact hi
  have hhold : u.inHold l = false := (h.flag _ _).trans hh
  have hur : (u.lk l).replayPos = none := by rw [h.lk]; exact hr
  refine ⟨u, h, ?_⟩
  have hup : u.upFlit l (s.sys.chip.now * 25 / 128) = if 23 ≤ s.sys.chip.now * 25 / 128 % 25 ∧ u.ctlDue l = true then u.sendCtl l
        else (u.sendFirst l (s.sys.chip.now * 25 / 128 % 25) (s.sys.chip.now * 25 / 128)).getD
          (if (u.noteWait l (s.sys.chip.now * 25 / 128)).ctlDue l then (u.noteWait l (s.sys.chip.now * 25 / 128)).sendCtl l
            else (u.noteWait l (s.sys.chip.now * 25 / 128)).sendPlain l 0 []) := by
    unfold Chip.upFlit
    dsimp only
    rw [if_neg (by omega), if_neg (ne_true_of_eq_false hhold), hur]
    dsimp only
    cases u.sendFirst l (s.sys.chip.now * 25 / 128 % 25) (s.sys.chip.now * 25 / 128) <;> rfl
  rwa [hup] at hexec

end

/-! ### Nothing to send -/

theorem Chip.canSend_empty {u : Chip} {l v : Nat} (h : (u.lk l).txq = []) : u.canSend l v = false := by
  unfold Chip.canSend
  dsimp only
  rw [h]
  rfl

theorem headResv_empty {x : Lnk} (v : Nat) (h : x.txq = []) : headResv x v = false := by
  unfold headResv
  rw [h]
  rfl

theorem Chip.vcOffers_empty {u : Chip} {l : Nat} (h : (u.lk l).txq = []) : u.vcOffers l = [] :=
  List.filter_eq_nil_iff.2 fun v _ => by rw [Chip.canSend_empty h]; simp

theorem vcChoice_none (x : Lnk) (frozen : Bool) (n : Nat) : (vcChoice x [] frozen n).1 = none := by
  have hheld : x.arb.holder.filter (fun e => ([] : List Nat).contains e.who) = none := by
    cases x.arb.holder with
    | none => rfl
    | some e => rfl
  unfold vcChoice
  dsimp only
  rw [hheld]
  cases frozen <;> rfl

theorem Chip.sendArb_none {u : Chip} {l : Nat} (n : Nat) (h : (u.lk l).txq = []) : u.sendArb l n = none := by
  have hw := vcChoice_none (u.lk l) (u.flag (blkCtrl (lkPg l)) 1) n
  unfold Chip.sendArb
  dsimp only
  rw [Chip.vcOffers_empty h]
  generalize vcChoice (u.lk l) [] (u.flag (blkCtrl (lkPg l)) 1) n = c at hw
  obtain ⟨w, pre, a⟩ := c
  dsimp only at hw
  subst hw
  rfl

theorem Chip.sendFirst_none {u : Chip} {l : Nat} (k n : Nat) (h : (u.lk l).txq = []) : u.sendFirst l k n = none := by
  have hsched : (u.planVc l k).filter (fun v => u.canSend l v) = none := by
    cases u.planVc l k with
    | none => rfl
    | some v => simp [Option.filter, Chip.canSend_empty h]
  have hresv : [4, 5, 6, 7].find? (fun v => decide (k < 23) && headResv (u.lk l) v && u.canSend l v) = none :=
    List.find?_eq_none.2 fun v _ => by simp [Chip.canSend_empty h]
  unfold Chip.sendFirst
  split
  · rfl
  · dsimp only
    rw [hsched, hresv]
    exact Chip.sendArb_none n h

/-! ### Numbered flits -/

/-- R261: the flit that takes the next number. -/
def Chip.numberedFlit (u : Chip) (l v typ fc : Nat) (p : List Byte) : Flit :=
  withCrc { seq := u.txNext l, ack := u.ackOf l, vc := v, typ := typ, fc := fc, payload := flitPay p, crc := 0 }

theorem Chip.seqSend_facts {u : Chip} {l : Nat} (v typ fc : Nat) (p : List Byte) (hr : (u.lk l).replayPos = none) :
    (u.seqSend l v typ fc p).out = u.out ++ [.flit l (u.numberedFlit l v typ fc p)] ∧
    (u.seqSend l v typ fc p).txNext l = (u.txNext l + 1) % 4096 ∧
    (∀ a, a ≠ lkPg l + 0x4C → (u.seqSend l v typ fc p).reg a = u.reg a) ∧
    (u.seqSend l v typ fc p).now = u.now ∧
    ∃ ta ua, (u.seqSend l v typ fc p).lk l = { u.lk l with
      replay := (u.lk l).replay ++ [u.numberedFlit l v typ fc p]
      timerAt := ta
      uAt := ua } := by
  unfold Chip.seqSend
  dsimp only
  rw [hr, if_neg (by simp)]
  have htx : (u.setFld (lkPg l + 0x4C) 11 0 ((u.txNext l + 1) % 4096)).txNext l = (u.txNext l + 1) % 4096 :=
    (Chip.fld_setFld _ _ _ (by decide)).trans (Nat.mod_mod _ _)
  have hreg : ∀ a, a ≠ lkPg l + 0x4C → (u.setFld (lkPg l + 0x4C) 11 0 ((u.txNext l + 1) % 4096)).reg a = u.reg a :=
    fun a ha => Chip.reg_setFld_ne _ _ _ _ (Ne.symm ha)
  have hout : (u.setFld (lkPg l + 0x4C) 11 0 ((u.txNext l + 1) % 4096)).out = u.out := Chip.setFld_out ..
  have hnow : (u.setFld (lkPg l + 0x4C) 11 0 ((u.txNext l + 1) % 4096)).now = u.now := Chip.setFld_now ..
  generalize u.setFld (lkPg l + 0x4C) 11 0 ((u.txNext l + 1) % 4096) = w at htx hreg hout hnow
  have hlk : ∀ (x : Lnk) (o : Out), ((w.setLk l x).emit o).lk l = x := fun x o => w.lk_setLk l x
  refine ⟨congrArg (· ++ [_]) hout, htx, hreg, hnow, ?_⟩
  rw [hlk]
  exact ⟨_, _, rfl⟩

/-- What a flit with a number shows (R261, R263). -/
def linkNumbers (s : State) (l : LinkNo) (g : Flit) (u : Chip) : Prop :=
  chipNext s (.flitTime l) u.reapReqs ∧ u.out = s.sys.chip.out ++ headOf s l ++ [.flit l g] ∧
  g.seq = s.sys.chip.txNext l ∧ g.ack = s.sys.chip.ackOf l ∧ g.crc = flitCrc g ∧ u.txNext l = (s.sys.chip.txNext l + 1) % 4096 ∧
  (u.lk l).replay = (s.sys.chip.lk l).replay ++ [g]

theorem withCrc_crc (f : Flit) : (withCrc f).crc = flitCrc (withCrc f) := rfl

/-- A flit sent by w, which shows what the flit time began with. -/
theorem linkNumbers_of {w u : Chip} {z : Lnk} {v typ fc : Nat} {p : List Byte} (hw : s.sys.chip.shows w l z (headOf s l))
    (hz : z.replay = (s.sys.chip.lk l).replay) (hr : z.replayPos = none)
    (hexec : chipNext s (.flitTime l) u.reapReqs) (hout : u.out = (w.seqSend l v typ fc p).out)
    (htx : u.txNext l = (w.seqSend l v typ fc p).txNext l) (hreplay : (u.lk l).replay = ((w.seqSend l v typ fc p).lk l).replay) :
    linkNumbers s l (w.numberedFlit l v typ fc p) u := by
  obtain ⟨g1, g2, -, -, ta, ua, g5⟩ := Chip.seqSend_facts (u := w) (l := l) v typ fc p (by rw [hw.lk]; exact hr)
  have htxn : w.txNext l = s.sys.chip.txNext l := hw.fld _ _ _
  refine ⟨hexec, ?_, htxn, hw.ackOf, rfl, ?_, ?_⟩
  · rw [hout, g1, hw.out]
  · rw [htx, g2, htxn]
  · rw [hreplay, g5, hw.lk, hz]

/-! ### LCTLs (R268, R271) -/

theorem Chip.shows.owedSent {y u : Chip} {l : Nat} {z : Lnk} {os : List Out} (h : y.shows u l z os) (v k : Nat) :
    ∃ o c, y.shows (u.owedSent l v k) l { z with
      owed := o
      creditDue := c } os := by
  unfold Chip.owedSent
  dsimp only
  rw [h.lk]
  exact ⟨_, _, h.setLk _⟩

theorem Chip.shows.owedAll {y u : Chip} {l : Nat} {z : Lnk} {os : List Out} (h : y.shows u l z os) (vs : List Nat) (g : Nat → Nat) :
    ∃ o c, y.shows (vs.foldl (fun s v => Chip.owedSent s l v (g v)) u) l { z with
      owed := o
      creditDue := c } os := by
  induction vs generalizing u z with
  | nil => exact ⟨z.owed, z.creditDue, h⟩
  | cons v vs ih =>
    obtain ⟨o, c, h'⟩ := h.owedSent v (g v)
    obtain ⟨o', c', h''⟩ := ih h'
    exact ⟨o', c', h''⟩

theorem sendLctl_xstate {w : Chip} {z : Lnk} (hw : s.sys.chip.shows w l z (headOf s l)) (hx : z.xstateDue = true)
    (hz : z.replay = (s.sys.chip.lk l).replay) (hr : z.replayPos = none) (hexec : chipNext s (.flitTime l) (w.sendLctl l).reapReqs) :
    ∃ u g, linkNumbers s l g u ∧ g.typ = 5 ∧ g.vc = 4 ∧ g.payload = flitPay [2, BitVec.ofNat 8 z.offNow] ∧
      (u.lk l).offSent = z.offNow ∧ (u.lk l).xstateDue = false := by
  have heq : w.sendLctl l = (w.seqSend l 4 5 0 [2, BitVec.ofNat 8 z.offNow]).setLk l
      { (w.seqSend l 4 5 0 [2, BitVec.ofNat 8 z.offNow]).lk l with
        xstateDue := false
        offSent := z.offNow } := by
    unfold Chip.sendLctl
    dsimp only
    rw [hw.lk, if_pos hx]
  rw [heq] at hexec
  exact ⟨_, _, linkNumbers_of hw hz hr hexec rfl rfl (by rw [Chip.lk_setLk]), rfl, rfl, rfl, by rw [Chip.lk_setLk], by rw [Chip.lk_setLk]⟩

theorem sendLctl_credits {w : Chip} {z : Lnk} (hw : s.sys.chip.shows w l z (headOf s l)) (hx : z.xstateDue = false)
    (hz : z.replay = (s.sys.chip.lk l).replay) (hr : z.replayPos = none) (hexec : chipNext s (.flitTime l) (w.sendLctl l).reapReqs) :
    ∃ u g, linkNumbers s l g u ∧ g.typ = 5 ∧ g.vc = 4 ∧
      g.payload = flitPay (1 :: (List.range 8).map fun v => BitVec.ofNat 8 (min (owedOf z v) 255)) := by
  obtain ⟨o, c, h1⟩ := hw.owedAll (List.range 8) fun v => ((List.range 8).map fun v => min (owedOf z v) 255).getD v 0
  unfold Chip.sendLctl at hexec
  dsimp only at hexec
  rw [hw.lk, if_neg (ne_true_of_eq_false hx)] at hexec
  generalize (List.range 8).foldl (fun s v => Chip.owedSent s l v (((List.range 8).map fun v => min (owedOf z v) 255).getD v 0)) w = a
    at h1 hexec
  obtain ⟨o', c', h2⟩ := h1.owedSent 4 (a.fcFor l 4)
  generalize a.owedSent l 4 (a.fcFor l 4) = b at h2 hexec
  rw [List.map_map] at hexec
  generalize hp : (1 : Byte) :: (List.range 8).map (BitVec.ofNat 8 ∘ fun v => min (owedOf z v) 255) = p at hexec
  generalize hd : Chip.setLk _ l _ = d at hexec
  have hdout : d.out = (b.seqSend l 4 5 (a.fcFor l 4) p).out := by rw [← hd]; rfl
  have hdtx : d.txNext l = (b.seqSend l 4 5 (a.fcFor l 4) p).txNext l := by rw [← hd]; rfl
  have hdreplay : (d.lk l).replay = ((b.seqSend l 4 5 (a.fcFor l 4) p).lk l).replay := by rw [← hd, Chip.lk_setLk]
  obtain ⟨d1, d2⟩ := d.dueLctl_due l
  have hout : (d.dueLctl l).out = d.out := by rw [d1.rest]
  have htx : (d.dueLctl l).txNext l = d.txNext l := d1.fld (by simp) _ _
  have hreplay : ((d.dueLctl l).lk l).replay = (d.lk l).replay := by rw [d2]
  refine ⟨_, _, linkNumbers_of h2 hz hr hexec (hout.trans hdout) (htx.trans hdtx) (hreplay.trans hdreplay), rfl, rfl, ?_⟩
  rw [← hp]
  rfl

/-! ### Reserved responses (R234, R272) -/

theorem Chip.respNumbered_facts {u : Chip} {l n : Nat} {t : RespTag} (h : u.now ≤ t.td) :
    u.respNumbered l n t = u.setLk l { u.lk l with unackResp := (u.lk l).unackResp ++ [(n, t)] } := if_neg (by omega)

theorem sendVc_reserved {w : Chip} {z : Lnk} {v : Nat} {f : TxFlit} {r : RespTag} {q : List TxFlit}
    (hw : s.sys.chip.shows w l z (headOf s l)) (hq : KMap.at z.txq [] v = f :: q) (hf : f.resv = some r)
    (htd : s.sys.chip.now ≤ r.td) (hon : z.onOff = false) (hz : z.replay = (s.sys.chip.lk l).replay) (hr : z.replayPos = none)
    (hexec : chipNext s (.flitTime l) (w.sendVc l v).reapReqs) :
    ∃ u g, linkNumbers s l g u ∧ g.vc = v ∧ g.typ = f.typ ∧ u.creditOf l v = s.sys.chip.creditOf l v - 1 ∧
      KMap.at (u.lk l).txq [] v = q := by
  unfold Chip.sendVc at hexec
  dsimp only at hexec
  rw [hw.lk, hq] at hexec
  dsimp only at hexec
  rw [hf] at hexec
  dsimp only at hexec
  have h1 := hw.setLk { z with
    txq := KMap.put z.txq [] v q
    txOpen := if f.typ = 1 then v :: z.txOpen else if f.typ = 3 then z.txOpen.erase v else z.txOpen }
  generalize w.setLk l { z with
    txq := KMap.put z.txq [] v q
    txOpen := if f.typ = 1 then v :: z.txOpen else if f.typ = 3 then z.txOpen.erase v else z.txOpen } = a at h1 hexec
  obtain ⟨o, c, h2⟩ := h1.owedSent v (a.fcFor l v)
  generalize a.owedSent l v (a.fcFor l v) = b at h2 hexec
  generalize (if f.stamp then stampPay f.payload a.now else f.payload) = p at hexec
  rw [if_neg (ne_true_of_eq_false hon)] at hexec
  obtain ⟨-, -, g3, g4, ta, ua, g5⟩ := Chip.seqSend_facts (u := b) (l := l) v f.typ (a.fcFor l v) p (by rw [h2.lk]; exact hr)
  have hnum := fun (u : Chip) => linkNumbers_of (u := u) (v := v) (typ := f.typ) (fc := a.fcFor l v) (p := p) h2 hz hr
  generalize b.seqSend l v f.typ (a.fcFor l v) p = d at hexec g3 g4 g5 hnum
  have hcred : d.creditOf l v = s.sys.chip.creditOf l v :=
    (congrArg (Word.bits · 25 16) (g3 _ (by omega))).trans (h2.fld _ _ _)
  have hlt : s.sys.chip.creditOf l v < 1024 := Nat.mod_lt _ (by decide)
  rw [hcred] at hexec
  have hset : (d.setCredit l v (s.sys.chip.creditOf l v - 1)).creditOf l v = s.sys.chip.creditOf l v - 1 :=
    (Chip.fld_setFld _ _ _ (by decide)).trans (Nat.mod_eq_of_lt (by omega))
  have htx : (d.setCredit l v (s.sys.chip.creditOf l v - 1)).txNext l = d.txNext l := Chip.fld_setFld_ne _ _ _ _ _ _ (by omega)
  have hlk : (d.setCredit l v (s.sys.chip.creditOf l v - 1)).lk l = d.lk l := rfl
  have hout : (d.setCredit l v (s.sys.chip.creditOf l v - 1)).out = d.out := Chip.setFld_out ..
  have hnow : (d.setCredit l v (s.sys.chip.creditOf l v - 1)).now = d.now := Chip.setFld_now ..
  generalize d.setCredit l v (s.sys.chip.creditOf l v - 1) = e at hexec hset htx hlk hout hnow
  have hq' : KMap.at (d.lk l).txq [] v = q := by
    rw [g5, h2.lk]
    exact at_put_self (d := ([] : List TxFlit)) ..
  split at hexec
  · rw [Chip.respNumbered_facts (by rw [hnow, g4, h2.now]; exact htd)] at hexec
    refine ⟨_, _, hnum _ hexec hout htx (by rw [Chip.lk_setLk, hlk]), rfl, rfl, hset, ?_⟩
    rw [Chip.lk_setLk, hlk]
    exact hq'
  · refine ⟨_, _, hnum _ hexec hout htx (by rw [hlk]), rfl, rfl, hset, ?_⟩
    rw [hlk]
    exact hq'

/-! ### A replay (R261, R264) -/

theorem Chip.shows.noteWait {y u : Chip} {l : Nat} {z : Lnk} {os : List Out} (h : y.shows u l z os) (n : Nat) (hq : z.txq = []) :
    y.shows (u.noteWait l n) l { z with since := sinceAfter z [] n none } os := by
  unfold Chip.noteWait
  dsimp only
  rw [Chip.vcOffers_empty (by rw [h.lk]; exact hq), h.lk]
  exact h.setLk _

theorem Chip.shows.lctlDue {y u : Chip} {l : Nat} {z : Lnk} {os : List Out} (h : y.shows u l z os)
    (hx : z.xstateDue = (y.lk l).xstateDue) (hc : z.creditDue = (y.lk l).creditDue) (hr : z.replay = (y.lk l).replay) :
    u.lctlDue l = y.lctlDue l := by
  unfold Chip.lctlDue
  dsimp only
  rw [h.lk, hx, hc, hr]

theorem Chip.shows.ctlDue {y u : Chip} {l : Nat} {z : Lnk} {os : List Out} (h : y.shows u l z os)
    (hx : z.xstateDue = (y.lk l).xstateDue) (hc : z.creditDue = (y.lk l).creditDue) (hr : z.replay = (y.lk l).replay)
    (ht : z.timeDue = (y.lk l).timeDue) : u.ctlDue l = y.ctlDue l := by
  unfold Chip.ctlDue
  rw [h.lctlDue hx hc hr, h.lk, ht]

theorem Chip.numberNext_none {u : Chip} {l : Nat} (k n : Nat) (hq : (u.lk l).txq = []) (hd : u.lctlDue l = false) :
    u.numberNext l k n = u.noteWait l n := by
  have hd' : (u.noteWait l n).lctlDue l = false := by
    unfold Chip.noteWait Chip.lctlDue
    dsimp only
    rw [Chip.lk_setLk]
    exact hd
  unfold Chip.numberNext
  rw [if_neg (fun h => absurd (hd.symm.trans h.2) (by decide)), Chip.sendFirst_none k n hq]
  exact if_neg (ne_true_of_eq_false hd')

theorem Chip.sendReplay_facts {u : Chip} {l p : Nat} {f : Flit} (h : (u.lk l).replay[p]? = some f) :
    (u.sendReplay l p).out = u.out ++ [.flit l (withCrc { f with ack := u.ackOf l })] ∧
    ((u.sendReplay l p).reg (lkPg l + 0x5C)).toNat = min ((u.reg (lkPg l + 0x5C)).toNat +
      if (u.lk l).replay.length ≤ p + (u.lk l).firsts then 0 else 1) 0xffffffff ∧
    (u.sendReplay l p).lk l = { u.lk l with
      replayPos := if p + 1 < (u.lk l).replay.length then some (p + 1) else none
      firsts := if (u.lk l).replay.length ≤ p + (u.lk l).firsts then (u.lk l).firsts - 1 else (u.lk l).firsts } := by
  unfold Chip.sendReplay
  dsimp only
  rw [h]
  dsimp only
  by_cases hf : (u.lk l).replay.length ≤ p + (u.lk l).firsts
  · have hb := (u.reg (lkPg l + 0x5C)).isLt
    rw [if_pos (decide_eq_true hf), if_pos hf, if_pos hf, if_pos (decide_eq_true hf), Chip.lk_setLk]
    refine ⟨rfl, ?_, rfl⟩
    rw [Chip.reg_setLk, Chip.reg_emit]
    omega
  · have hd : ¬decide ((u.lk l).replay.length ≤ p + (u.lk l).firsts) = true := by simpa using hf
    rw [if_neg hd, if_neg hf, if_neg hf, if_neg hd, Chip.lk_setLk]
    refine ⟨congrArg (· ++ [_]) (Chip.bump_out ..), ?_, rfl⟩
    rw [Chip.reg_setLk, Chip.reg_emit]
    exact Chip.reg_bumpBy ..

section
variable (hno : (s.sys.chip.lk l).flitNo ≠ some (s.sys.chip.now * 25 / 128)) (hpll : (s.sys.chip.lk l).noPll = false)
  (hin : statusInTime s l) (hbuf : (s.sys.chip.lk l).buf = []) (hst : s.sys.chip.lkState l = 4)
  (hi : (s.sys.chip.lk l).inits = 0) (hh : s.sys.chip.inHold l = false)
include hno hpll hin hbuf hst hi hh

theorem up_replays {p : Nat} {f : Flit} (hr : (s.sys.chip.lk l).replayPos = some p) (hf : (s.sys.chip.lk l).replay[p]? = some f)
    (hq : (s.sys.chip.lk l).txq = []) (hd : s.sys.chip.lctlDue l = false) :
    ∃ u : Chip, chipNext s (.flitTime l) u.reapReqs ∧
      u.out = s.sys.chip.out ++ headOf s l ++ [.flit l (withCrc { f with ack := s.sys.chip.ackOf l })] ∧
      (u.reg (lkPg l + 0x5C)).toNat = min ((s.sys.chip.reg (lkPg l + 0x5C)).toNat +
        if (s.sys.chip.lk l).replay.length ≤ p + (s.sys.chip.lk l).firsts then 0 else 1) 0xffffffff ∧
      (u.lk l).replay = (s.sys.chip.lk l).replay ∧
      (u.lk l).firsts = (if (s.sys.chip.lk l).replay.length ≤ p + (s.sys.chip.lk l).firsts then (s.sys.chip.lk l).firsts - 1
        else (s.sys.chip.lk l).firsts) ∧
      (u.lk l).replayPos = if p + 1 < (s.sys.chip.lk l).replay.length then some (p + 1) else none := by
  obtain ⟨u, h, hexec⟩ := exec_flitTime_up hno hpll hin hbuf hst
  have hui : (u.lk l).inits = 0 := by rw [h.lk]; exact hi
  have hhold : u.inHold l = false := (h.flag _ _).trans hh
  have hur : (u.lk l).replayPos = some p := by rw [h.lk]; exact hr
  have huq : (u.lk l).txq = [] := by rw [h.lk]; exact hq
  have hud : u.lctlDue l = false := (h.lctlDue rfl rfl rfl).trans hd
  have hup : u.upFlit l (s.sys.chip.now * 25 / 128) = (u.noteWait l (s.sys.chip.now * 25 / 128)).sendReplay l p := by
    unfold Chip.upFlit
    dsimp only
    rw [if_neg (by omega), if_neg (ne_true_of_eq_false hhold), hur]
    dsimp only
    rw [Chip.numberNext_none _ _ huq hud]
  rw [hup] at hexec
  have h' := h.noteWait (s.sys.chip.now * 25 / 128) hq
  generalize u.noteWait l (s.sys.chip.now * 25 / 128) = w at hexec h'
  obtain ⟨r1, r2, r3⟩ := Chip.sendReplay_facts (u := w) (l := l) (p := p) (f := f) (by rw [h'.lk]; exact hf)
  rw [h'.lk] at r2 r3
  refine ⟨_, hexec, ?_, ?_, ?_, ?_, ?_⟩
  · rw [r1, h'.out, h'.ackOf]
  · rw [r2, h'.reg]
    rfl
  · rw [r3]
    rfl
  · rw [r3]
    rfl
  · rw [r3]
    rfl

variable (hr : (s.sys.chip.lk l).replayPos = none)
include hr

theorem up_idles (hq : (s.sys.chip.lk l).txq = []) (hd : s.sys.chip.ctlDue l = false) :
    linkSends s l { usedLink s l with since := sinceAfter (s.sys.chip.lk l) [] (s.sys.chip.now * 25 / 128) none }
      (headOf s l ++ [.flit l (s.sys.chip.plainFlit l 0 [])]) := by
  obtain ⟨u, h, hexec⟩ := exec_flitTime_packets hno hpll hin hbuf hst hi hh hr
  have huq : (u.lk l).txq = [] := by rw [h.lk]; exact hq
  have hud : u.ctlDue l = false := (h.ctlDue rfl rfl rfl rfl).trans hd
  have h' := h.noteWait (s.sys.chip.now * 25 / 128) hq
  have hwd : (u.noteWait l (s.sys.chip.now * 25 / 128)).ctlDue l = false := (h'.ctlDue rfl rfl rfl rfl).trans hd
  rw [if_neg (fun hn => absurd (hud.symm.trans hn.2) (by decide)), Chip.sendFirst_none _ _ huq, Option.getD_none,
    if_neg (ne_true_of_eq_false hwd)] at hexec
  exact linkSends_of hexec (h'.sendPlain 0 [])

variable (hk : 23 ≤ s.sys.chip.now * 25 / 128 % 25)
include hk

theorem up_controls (hd : s.sys.chip.ctlDue l = true) :
    ∃ u, s.sys.chip.shows u l (usedLink s l) (headOf s l) ∧ chipNext s (.flitTime l)
      (if s.sys.chip.lctlDue l then u.sendLctl l else u.sendTime l).reapReqs := by
  obtain ⟨u, h, hexec⟩ := exec_flitTime_packets hno hpll hin hbuf hst hi hh hr
  have hud : u.ctlDue l = true := (h.ctlDue rfl rfl rfl rfl).trans hd
  have hul : u.lctlDue l = s.sys.chip.lctlDue l := h.lctlDue rfl rfl rfl
  rw [if_pos (And.intro hk hud), Chip.sendCtl, hul] at hexec
  exact ⟨u, h, hexec⟩

theorem up_xstate (hd : s.sys.chip.lctlDue l = true) (hx : (s.sys.chip.lk l).xstateDue = true) :
    ∃ u g, linkNumbers s l g u ∧ g.typ = 5 ∧ g.vc = 4 ∧
      g.payload = flitPay [2, BitVec.ofNat 8 (s.sys.chip.lk l).offNow] ∧ (u.lk l).offSent = (s.sys.chip.lk l).offNow ∧
      (u.lk l).xstateDue = false := by
  obtain ⟨u, h, hexec⟩ := up_controls hno hpll hin hbuf hst hi hh hr hk (by simp [Chip.ctlDue, hd])
  rw [if_pos hd] at hexec
  exact sendLctl_xstate (z := usedLink s l) h hx rfl hr hexec

theorem up_credits (hd : s.sys.chip.lctlDue l = true) (hx : (s.sys.chip.lk l).xstateDue = false) :
    ∃ u g, linkNumbers s l g u ∧ g.typ = 5 ∧ g.vc = 4 ∧
      g.payload = flitPay (1 :: (List.range 8).map fun v => BitVec.ofNat 8 (min (owedOf (s.sys.chip.lk l) v) 255)) := by
  obtain ⟨u, h, hexec⟩ := up_controls hno hpll hin hbuf hst hi hh hr hk (by simp [Chip.ctlDue, hd])
  rw [if_pos hd] at hexec
  exact sendLctl_credits (z := usedLink s l) h hx rfl hr hexec

theorem up_times (hd : s.sys.chip.lctlDue l = false) (ht : (s.sys.chip.lk l).timeDue = true) :
    ∃ r : TimeRec, r.t1 = 16 * s.sys.chip.now ∧ r.t2 = (s.sys.chip.lk l).nbrT4 ∧ r.t3 = (s.sys.chip.lk l).nbrT1 ∧
      linkSends s l { usedLink s l with timeDue := false }
        (headOf s l ++ [.flit l (s.sys.chip.plainFlit l 0 (Config.timeBytes r)), .timeRec l r]) := by
  obtain ⟨u, h, hexec⟩ := up_controls hno hpll hin hbuf hst hi hh hr hk (by simp [Chip.ctlDue, ht])
  rw [if_neg (ne_true_of_eq_false hd)] at hexec
  unfold Chip.sendTime at hexec
  dsimp only at hexec
  rw [h.lk] at hexec
  generalize hrec : ({ t1 := 16 * u.now, t2 := (usedLink s l).nbrT4, t3 := (usedLink s l).nbrT1, t4 := 0, locked := u.ftState == 2, depth := u.fld (ftPg + 0x48) 13 9 } : TimeRec) = r at hexec
  have h' := ((h.setLk { usedLink s l with timeDue := false }).sendPlain 0 (Config.timeBytes r)).emit (o := .timeRec l r)
    fun _ => by simp
  rw [List.append_assoc] at h'
  refine ⟨r, ?_, ?_, ?_, linkSends_of hexec h'⟩
  · rw [← hrec, ← h.now]
  · rw [← hrec]
    rfl
  · rw [← hrec]
    rfl

end

theorem Chip.shows.planVc {y u : Chip} {l : Nat} {z : Lnk} {os : List Out} (h : y.shows u l z os) (k : Nat) :
    u.planVc l k = y.planVc l k := by
  rw [h.rest]
  rfl

theorem Chip.shows.canSend {y u : Chip} {l v : Nat} {z : Lnk} {os : List Out} (h : y.shows u l z os)
    (hz : z = { y.lk l with flitNo := z.flitNo }) : u.canSend l v = y.canSend l v := by
  have hc : u.creditOf l v = y.creditOf l v := h.fld _ _ _
  have hf : u.isFenced (.link l) = y.isFenced (.link l) := by rw [h.rest]; rfl
  unfold Chip.canSend Chip.headCut
  rw [h.lk, hc, hf, hz]

section
variable (hno : (s.sys.chip.lk l).flitNo ≠ some (s.sys.chip.now * 25 / 128)) (hpll : (s.sys.chip.lk l).noPll = false)
  (hin : statusInTime s l) (hbuf : (s.sys.chip.lk l).buf = []) (hst : s.sys.chip.lkState l = 4)
  (hi : (s.sys.chip.lk l).inits = 0) (hh : s.sys.chip.inHold l = false) (hr : (s.sys.chip.lk l).replayPos = none)
include hno hpll hin hbuf hst hi hh hr

theorem up_reserved {v : Nat} {f : TxFlit} {r : RespTag} {q : List TxFlit} (hk : s.sys.chip.now * 25 / 128 % 25 < 23)
    (hlen : (s.sys.chip.lk l).replay.length < 1024) (hplan : s.sys.chip.planVc l (s.sys.chip.now * 25 / 128 % 25) = none)
    (hv : v = 4 ∨ v = 5 ∨ v = 6 ∨ v = 7) (hfirst : ∀ w, 4 ≤ w → w < v → headResv (s.sys.chip.lk l) w = false)
    (hq : KMap.at (s.sys.chip.lk l).txq [] v = f :: q) (hf : f.resv = some r) (htd : s.sys.chip.now ≤ r.td)
    (hcan : s.sys.chip.canSend l v = true) (hon : (s.sys.chip.lk l).onOff = false) :
    ∃ u g, linkNumbers s l g u ∧ g.vc = v ∧ g.typ = f.typ ∧ u.creditOf l v = s.sys.chip.creditOf l v - 1 ∧
      KMap.at (u.lk l).txq [] v = q := by
  obtain ⟨u, h, hexec⟩ := exec_flitTime_packets hno hpll hin hbuf hst hi hh hr
  have hresv : headResv (s.sys.chip.lk l) v = true := by
    unfold headResv
    rw [hq]
    simp [hf]
  have hucan : u.canSend l v = true := (h.canSend rfl).trans hcan
  have hur : ∀ w, headResv (u.lk l) w = headResv (s.sys.chip.lk l) w := fun w => by rw [h.lk]; rfl
  have hfind : [4, 5, 6, 7].find? (fun v => decide (s.sys.chip.now * 25 / 128 % 25 < 23) && headResv (u.lk l) v && u.canSend l v) = some v := by
    rcases hv with rfl | rfl | rfl | rfl <;> simp [List.find?, hk, hur, hresv, hucan, hfirst]
  have hsend : u.sendFirst l (s.sys.chip.now * 25 / 128 % 25) (s.sys.chip.now * 25 / 128) = some (u.sendVc l v) := by
    have hul : ¬1024 ≤ (u.lk l).replay.length := by rw [h.lk]; exact Nat.not_le.2 hlen
    unfold Chip.sendFirst
    dsimp only
    rw [if_neg hul, h.planVc, hplan, Option.filter_none, hfind]
  rw [if_neg (fun hn => absurd hn.1 (by omega)), hsend, Option.getD_some] at hexec
  exact sendVc_reserved h hq hf htd hon rfl hr hexec

end

/-! ## The receive buffer is drained (R260, R268, R295) -/

theorem Chip.shows.dueLctl {y u : Chip} {l : Nat} {z : Lnk} {os : List Out} (h : y.shows u l z os) :
    ∃ z', y.shows (u.dueLctl l) l z' os ∧ z.due z' := by
  unfold Chip.dueLctl
  dsimp only
  rw [h.lk]
  split
  · exact ⟨_, h.setLk _, rfl⟩
  · exact ⟨_, h.setLk _, rfl⟩

theorem Lnk.due.kept {x z : Lnk} (h : x.due z) : z.buf = x.buf ∧ z.gather = x.gather ∧ z.owed = x.owed ∧ z.txq = x.txq := by
  rw [h]
  exact ⟨rfl, rfl, rfl, rfl⟩

theorem Chip.shows.drainBuf {y u : Chip} {l : Nat} {z : Lnk} {os : List Out} {f : Flit} {q : List Flit} (h : y.shows u l z os)
    (hb : z.buf = f :: q) :
    ∃ z', y.shows (u.drainBuf l) l z'
        (os ++ if f.typ = 3 ∨ f.typ = 4 then (KMap.at z.gather [] f.vc ++ [f]).map (.deliver l) else []) ∧
      z'.buf = q ∧ z'.txq = z.txq ∧
      KMap.at z'.gather [] f.vc = (if f.typ = 3 ∨ f.typ = 4 then [] else KMap.at z.gather [] f.vc ++ [f]) ∧
      KMap.at z'.owed [] f.vc = KMap.at z.owed [] f.vc ++ [y.now] := by
  have hwhole : ((f.typ == 3 || f.typ == 4) = true) = (f.typ = 3 ∨ f.typ = 4) := by simp
  unfold Chip.drainBuf
  dsimp only
  rw [h.lk, hb]
  dsimp only
  simp only [hwhole]
  generalize hx : ({ z with
    buf := q
    gather := KMap.put z.gather [] f.vc (if f.typ = 3 ∨ f.typ = 4 then [] else KMap.at z.gather [] f.vc ++ [f]) } : Lnk) = x
  have hxf : x.buf = q ∧ x.txq = z.txq ∧ x.owed = z.owed ∧
      x.gather = KMap.put z.gather [] f.vc (if f.typ = 3 ∨ f.typ = 4 then [] else KMap.at z.gather [] f.vc ++ [f]) := by
    rw [← hx]
    exact ⟨rfl, rfl, rfl, rfl⟩
  obtain ⟨x1, x2, x3, x4⟩ := hxf
  have h1 := h.setLk x
  generalize u.setLk l x = a at h1
  have howe : ∃ z', y.shows (a.owe l f.vc 1) l z' os ∧ z'.buf = q ∧ z'.txq = z.txq ∧ z'.gather = x.gather ∧
      z'.owed = KMap.put z.owed [] f.vc (KMap.at z.owed [] f.vc ++ [y.now]) := by
    unfold Chip.owe
    dsimp only
    rw [if_neg (by decide), h1.lk, h1.now, x3]
    obtain ⟨z', h2, h3⟩ := (h1.setLk { x with
      owed := KMap.put z.owed [] f.vc (KMap.at z.owed [] f.vc ++ List.replicate 1 y.now) }).dueLctl
    obtain ⟨k1, k2, k3, k4⟩ := h3.kept
    exact ⟨z', h2, k1.trans x1, k4.trans x2, k2, k3⟩
  obtain ⟨z1, h2, a1, a2, a3, a4⟩ := howe
  obtain ⟨z2, h3, hdue⟩ := h2.dueLctl
  obtain ⟨k1, k2, k3, k4⟩ := hdue.kept
  have hg : KMap.at z2.gather [] f.vc = (if f.typ = 3 ∨ f.typ = 4 then [] else KMap.at z.gather [] f.vc ++ [f]) := by
    rw [k2, a3, x4]
    exact at_put_self (d := ([] : List Flit)) ..
  have ho : KMap.at z2.owed [] f.vc = KMap.at z.owed [] f.vc ++ [y.now] := by
    rw [k3, a4]
    exact at_put_self (d := ([] : List Nat)) ..
  refine ⟨z2, ?_, k1.trans a1, k4.trans a2, hg, ho⟩
  by_cases hw : f.typ = 3 ∨ f.typ = 4
  · rw [if_pos hw, if_pos hw]
    exact h3.deliver _
  · rw [if_neg hw, if_neg hw, List.append_nil]
    exact h3

theorem flitTime_drains {f : Flit} {q : List Flit} (hno : (s.sys.chip.lk l).flitNo ≠ some (s.sys.chip.now * 25 / 128))
    (hpll : (s.sys.chip.lk l).noPll = false) (hin : statusInTime s l) (hbuf : (s.sys.chip.lk l).buf = f :: q)
    (hst : s.sys.chip.lkState l = 2) :
    ∃ u : Chip, chipNext s (.flitTime l) u.reapReqs ∧ (u.lk l).buf = q ∧
      u.out = s.sys.chip.out ++ (if f.typ = 3 ∨ f.typ = 4 then (KMap.at (s.sys.chip.lk l).gather [] f.vc ++ [f]).map (.deliver l) else []) ++
        headOf s l ++ [.flit l (s.sys.chip.plainFlit l 0 [])] ∧
      KMap.at (u.lk l).gather [] f.vc =
        (if f.typ = 3 ∨ f.typ = 4 then [] else KMap.at (s.sys.chip.lk l).gather [] f.vc ++ [f]) ∧
      KMap.at (u.lk l).owed [] f.vc = KMap.at (s.sys.chip.lk l).owed [] f.vc ++ [s.sys.chip.now] := by
  obtain ⟨z, h, z1, z2, z3, z4⟩ := (s.sys.chip.shows_start l (usedLink s l)).drainBuf (f := f) (q := q) hbuf
  rw [List.nil_append] at h
  have hlate : ((s.sys.chip.setLk l (usedLink s l)).drainBuf l).dropLate l = (s.sys.chip.setLk l (usedLink s l)).drainBuf l :=
    Chip.dropLate_none fun e he => by
      rw [h.lk, z2] at he
      rw [h.now]
      exact hin e he
  have hexec := exec_flitTime_eq hno hpll (w := (s.sys.chip.setLk l (usedLink s l)).drainBuf l) hlate
  have h' := h.startCodeword_sync (cwStarts (s.sys.chip.lk l) (s.sys.chip.now * 25 / 128)) (s.sys.chip.now * 25 / 128 / 5 % 5) (.inl hst)
  generalize (if cwStarts (s.sys.chip.lk l) (s.sys.chip.now * 25 / 128) = true
    then ((s.sys.chip.setLk l (usedLink s l)).drainBuf l).startCodeword l (s.sys.chip.now * 25 / 128 / 5 % 5)
    else (s.sys.chip.setLk l (usedLink s l)).drainBuf l) = w at hexec h'
  have hsend : w.sendFlit l (s.sys.chip.now * 25 / 128) = w.sendPlain l 0 [] := by
    simp only [Chip.sendFlit, h'.state.trans hst]
  rw [hsend] at hexec
  have h'' := h'.sendPlain 0 []
  refine ⟨_, hexec, by rw [h''.lk, z1], ?_, by rw [h''.lk]; exact z3, by rw [h''.lk]; exact z4⟩
  rw [h''.out, List.append_assoc, List.append_assoc, List.append_assoc]
  rfl

end

/-- Settles O46: a flit time, by the state of the link and what waits. -/
theorem flitTime : Obligations.FlitTime := by
  intro s l y x n c starts used head null gives sends numbers inTime
  refine ⟨flitTime_done, flitTime_noPll, fun hno hpll hin => ⟨fun f q hbuf hst => flitTime_drains hno hpll hin hbuf hst, fun hbuf =>
    ⟨fun hst hask => train_silent hno hpll hin hbuf hst hask, fun a hst hask => train_asks hno hpll hin hbuf hst hask,
      lock_sends hno hpll hin hbuf, init_sends hno hpll hin hbuf, up_inits hno hpll hin hbuf, up_holds hno hpll hin hbuf,
      fun hst hi hh => ⟨fun p f hr hf hq hd => up_replays hno hpll hin hbuf hst hi hh hr hf hq hd, fun hr =>
        ⟨up_idles hno hpll hin hbuf hst hi hh hr, up_xstate hno hpll hin hbuf hst hi hh hr,
          up_credits hno hpll hin hbuf hst hi hh hr, up_times hno hpll hin hbuf hst hi hh hr,
          fun hk hlen hplan v f r q hv hfirst hq hf htd hcan hon =>
            up_reserved hno hpll hin hbuf hst hi hh hr hk hlen hplan hv hfirst hq hf htd hcan hon⟩⟩⟩⟩⟩

end Sys2Proof.Machine

/-! PROOF of O47 (R286 to R288, R290 to R294, R509): the router and the roles of links. -/

namespace Sys2Proof.Machine

-- One after the other: side by side the proofs ask for more memory than the check grants.
set_option Elab.async false

open Laws

/-! ## A packet joins a link's queue (R295) -/

theorem cutQueue_stays {g : TxFlit → Fate} {q : List TxFlit} (h : ∀ f ∈ q, g f = .stays) : cutQueue g true q = q := by
  induction q with
  | nil => rfl
  | cons f q ih =>
    have hf := h f List.mem_cons_self
    have hq := ih fun f hf => h f (List.mem_cons_of_mem _ hf)
    unfold cutQueue
    split
    · rw [hf]
      exact congrArg (f :: ·) hq
    · exact congrArg (f :: ·) hq

/-- The flits of a packet that holds no reservation keep their place on a link that is down. -/
theorem packetFlits_stay (pkt : Packet) (v : Nat) (st : Status) :
    cutQueue (cutFate st) false (packetFlits ⟨pkt, false, none, none, false⟩ v) = packetFlits ⟨pkt, false, none, none, false⟩ v := by
  have hresv : ∀ f ∈ packetFlits ⟨pkt, false, none, none, false⟩ v, cutFate st f = .stays := by
    intro f hf
    unfold packetFlits at hf
    obtain ⟨i, hi, rfl⟩ := List.mem_mapIdx.1 hf
    rfl
  have htyp : ∀ f ∈ (packetFlits ⟨pkt, false, none, none, false⟩ v).head?, f.typ = 1 ∨ f.typ = 4 := by
    intro f hf
    unfold packetFlits at hf
    dsimp only at hf
    generalize ceilDiv (hdrBytes pkt.hdr ++ pkt.payload).length 120 = n at hf
    cases n with
    | zero => simp [cut120] at hf
    | succ n =>
      simp only [cut120, List.mapIdx_cons, List.head?_cons, Option.mem_def, Option.some.injEq] at hf
      subst hf
      dsimp only
      by_cases h1 : n + 1 = 1
      · rw [if_pos h1]
        exact .inr rfl
      · rw [if_neg h1]
        exact .inl (if_pos trivial)
  generalize packetFlits ⟨pkt, false, none, none, false⟩ v = q at hresv htyp
  cases q with
  | nil => rfl
  | cons f q =>
    unfold cutQueue
    rw [if_pos (htyp f rfl), hresv f List.mem_cons_self]
    exact congrArg (f :: ·) (cutQueue_stays fun g hg => hresv g (List.mem_cons_of_mem _ hg))

theorem packetFlits_unreserved (pkt : Packet) (v : Nat) :
    (((packetFlits ⟨pkt, false, none, none, false⟩ v).head?).bind (·.resv)).isNone = true := by
  cases hq : (packetFlits ⟨pkt, false, none, none, false⟩ v).head? with
  | none => rfl
  | some f =>
    have hf := List.mem_of_head? hq
    unfold packetFlits at hf
    obtain ⟨i, hi, rfl⟩ := List.mem_mapIdx.1 hf
    rfl

theorem Chip.toLink_facts (s : Chip) (l v : Nat) (pkt : Packet) :
    (s.toLink l v ⟨pkt, false, none, none, false⟩).out = s.out ++ [.forward l v pkt] ∧
    (∀ a, (s.toLink l v ⟨pkt, false, none, none, false⟩).reg a = s.reg a) ∧
    KMap.at ((s.toLink l v ⟨pkt, false, none, none, false⟩).lk l).txq [] v =
      KMap.at (s.lk l).txq [] v ++ packetFlits ⟨pkt, false, none, none, false⟩ v ∧
    ∀ j, j ≠ l → (s.toLink l v ⟨pkt, false, none, none, false⟩).lk j = s.lk j := by
  have hfs : (if s.portUp l then packetFlits ⟨pkt, false, none, none, false⟩ v
      else cutQueue (cutFate (if (s.lk l).resetting then .reset else .fenced)) false (packetFlits ⟨pkt, false, none, none, false⟩ v)) =
      packetFlits ⟨pkt, false, none, none, false⟩ v := by
    rw [packetFlits_stay]
    exact ite_self _
  have hjoin : joinVc ((s.lk l).txOpen.contains v) (KMap.at (s.lk l).txq [] v) (packetFlits ⟨pkt, false, none, none, false⟩ v) =
      KMap.at (s.lk l).txq [] v ++ packetFlits ⟨pkt, false, none, none, false⟩ v := by
    unfold joinVc
    rw [if_pos (packetFlits_unreserved pkt v)]
  unfold Chip.toLink
  dsimp only
  rw [hfs, hjoin]
  refine ⟨rfl, fun _ => rfl, ?_, fun j hj => ?_⟩
  · have hlk : ∀ (x : Lnk) (o : Out), ((s.setLk l x).emit o).lk l = x := fun x o => s.lk_setLk l x
    rw [hlk]
    exact at_put_self (d := ([] : List TxFlit)) ..
  · exact s.lk_setLk_ne _ hj

/-- What the statement says of a packet that leaves on VC u of link k. -/
def packetLeaves (s : State) (port vc : Nat) (pkt : Packet) (k u : Nat) : Prop :=
  ∃ t, chipNext s (.forward port vc pkt) t ∧ t.out = s.sys.chip.out ++ [.forward k u pkt] ∧
    (t.reg (rtPg + 0x88)).toNat = ((s.sys.chip.reg (rtPg + 0x88)).toNat + 1) % 2 ^ 32 ∧
    KMap.at (t.lk k).txq [] u = KMap.at (s.sys.chip.lk k).txq [] u ++ packetFlits ⟨pkt, false, none, none, false⟩ u ∧
    ∀ j, j ≠ k → j ≠ port → t.lk j = s.sys.chip.lk j

/-- The chip as the router takes a packet from VC vc of a link. -/
def Chip.headTaken (y : Chip) (port vc : Nat) : Chip :=
  y.setLk port { y.lk port with heads := (y.lk port).heads.eraseP fun e => e.1 == vc }

section
variable {s : State} {port vc : Nat} {pkt : Packet}

theorem Chip.headTaken_txq (y : Chip) (port vc k : Nat) : ((y.headTaken port vc).lk k).txq = (y.lk k).txq := by
  unfold Chip.headTaken
  by_cases h : k = port
  · subst h
    rw [Chip.lk_setLk]
  · rw [Chip.lk_setLk_ne _ _ h]

theorem packetLeaves_of {k u : Nat} (hport : port < 96)
    (hexec : chipNext s (.forward port vc pkt) ((s.sys.chip.headTaken port vc).sendOn port k u ⟨pkt, false, none, none, false⟩)) :
    packetLeaves s port vc pkt k u := by
  unfold Chip.sendOn at hexec
  rw [if_pos hport] at hexec
  have hreg : ((s.sys.chip.headTaken port vc).wrapBy (rtPg + 0x88) 1).reg (rtPg + 0x88) =
      BitVec.ofNat 32 ((s.sys.chip.reg (rtPg + 0x88)).toNat + 1) := Chip.reg_setReg ..
  have hout : ((s.sys.chip.headTaken port vc).wrapBy (rtPg + 0x88) 1).out = s.sys.chip.out := Chip.wrapBy_out ..
  have hlk : ∀ j, ((s.sys.chip.headTaken port vc).wrapBy (rtPg + 0x88) 1).lk j = (s.sys.chip.headTaken port vc).lk j := fun _ => rfl
  generalize (s.sys.chip.headTaken port vc).wrapBy (rtPg + 0x88) 1 = w at hexec hreg hout hlk
  obtain ⟨t1, t2, t3, t4⟩ := w.toLink_facts k u pkt
  refine ⟨_, hexec, by rw [t1, hout], ?_, ?_, fun j hj hp => ?_⟩
  · rw [t2, hreg, BitVec.toNat_ofNat]
  · rw [t3, hlk, Chip.headTaken_txq]
  · rw [t4 j hj, hlk]
    exact Chip.lk_setLk_ne _ _ hp

theorem exec_forward_fabric (ha : s.sys.chip.addressed = true) (hport : port < 96) (hvc : vc < 8) (hrole : (s.sys.chip.linkRole port).1 = 2) :
    chipNext s (.forward port vc pkt) ((s.sys.chip.headTaken port vc).routeTo port vc (movedHead (s.sys.chip.lk port) vc)
      ⟨pkt, false, none, none, false⟩) := by
  have hexec : exec (.forward port vc pkt) s = execForward port vc pkt s := (rfl)
  rw [chipNext, hexec, execForward, liftC]
  dsimp only
  rw [if_neg (by simp [ha]), if_neg (by omega), if_neg (by omega), hrole]
  rfl

theorem forward_routes {d k : Nat} {minus first : Bool} (ha : s.sys.chip.addressed = true) (hport : port < 96) (hvc : vc < 8)
    (hrole : (s.sys.chip.linkRole port).1 = 2) (hdst : pkt.hdr.dstChip ≠ s.sys.chip.selfChip)
    (hbit : Word.bit (KMap.at s.sys.chip.coord 0 pkt.hdr.dstChip) 31 = true)
    (hhop : s.sys.chip.nextHop (KMap.at s.sys.chip.coord 0 pkt.hdr.dstChip) = some (d, minus))
    (hpick : s.sys.chip.pickLink (s.sys.chip.bundle (2 * d + if minus then 1 else 0)) pkt.hdr.srcHost pkt.hdr.dstChip = some (k, first))
    (h4 : 4 ≤ vc) :
    packetLeaves s port vc pkt k (lowVc pkt.hdr + if wrapHop (s.sys.chip.selfAt d) (s.sys.chip.torus d) minus = true ∨
      ((s.sys.chip.linkRole port).2 / 2 = d ∧ vc % 2 = 1) then 1 else 0) := by
  have hexec := exec_forward_fabric (pkt := pkt) ha hport hvc hrole
  have hvcEq : hopVc pkt.hdr ((s.sys.chip.linkRole port).1 == 2 && (s.sys.chip.linkRole port).2 / 2 == d && decide (port < 96)) vc
      (wrapHop (s.sys.chip.selfAt d) (s.sys.chip.torus d) minus) = lowVc pkt.hdr + if wrapHop (s.sys.chip.selfAt d) (s.sys.chip.torus d) minus = true ∨
      ((s.sys.chip.linkRole port).2 / 2 = d ∧ vc % 2 = 1) then 1 else 0 := by
    unfold hopVc
    simp [hrole, hport]
  rw [← hvcEq]
  refine packetLeaves_of hport ?_
  have hself : (s.sys.chip.headTaken port vc).selfChip = s.sys.chip.selfChip := rfl
  have hcoord : (s.sys.chip.headTaken port vc).coord = s.sys.chip.coord := rfl
  have hnext : ∀ w, (s.sys.chip.headTaken port vc).nextHop w = s.sys.chip.nextHop w := fun _ => rfl
  have hpk : ∀ ls h c, (s.sys.chip.headTaken port vc).pickLink ls h c = s.sys.chip.pickLink ls h c := fun _ _ _ => rfl
  have hbu : ∀ d, (s.sys.chip.headTaken port vc).bundle d = s.sys.chip.bundle d := fun _ => rfl
  have hsa : (s.sys.chip.headTaken port vc).selfAt d = s.sys.chip.selfAt d := rfl
  have hto : (s.sys.chip.headTaken port vc).torus d = s.sys.chip.torus d := rfl
  have hlr : (s.sys.chip.headTaken port vc).linkRole port = s.sys.chip.linkRole port := rfl
  rw [Chip.routeTo, hself, if_neg hdst, Chip.route] at hexec
  dsimp only at hexec
  rw [hcoord, if_pos hbit, hnext, hhop] at hexec
  dsimp only at hexec
  rw [hbu, hpk, hpick] at hexec
  dsimp only at hexec
  rw [if_pos h4, hsa, hto, hlr] at hexec
  exact hexec

theorem forward_delivers (ha : s.sys.chip.addressed = true) (hport : port < 96) (hvc : vc < 8)
    (hrole : (s.sys.chip.linkRole port).1 = 2) (hdst : pkt.hdr.dstChip = s.sys.chip.selfChip) (hp : pkt.hdr.dstPort < 96)
    (hhost : (s.sys.chip.linkRole pkt.hdr.dstPort).1 = 1) (h4 : 4 ≤ vc) :
    packetLeaves s port vc pkt pkt.hdr.dstPort (lowVc pkt.hdr) := by
  have hexec := exec_forward_fabric (pkt := pkt) ha hport hvc hrole
  have hself : (s.sys.chip.headTaken port vc).selfChip = s.sys.chip.selfChip := rfl
  have hlr : (s.sys.chip.headTaken port vc).linkRole pkt.hdr.dstPort = s.sys.chip.linkRole pkt.hdr.dstPort := rfl
  refine packetLeaves_of hport ?_
  rw [Chip.routeTo, hself, if_pos hdst, Chip.deliver] at hexec
  dsimp only at hexec
  rw [if_neg (by omega), hlr, if_neg (by omega), if_pos (.inl h4)] at hexec
  exact hexec

theorem forward_unroutable (ha : s.sys.chip.addressed = true) (hport : port < 96) (hvc : vc < 8)
    (hrole : (s.sys.chip.linkRole port).1 = 2) (hdst : pkt.hdr.dstChip ≠ s.sys.chip.selfChip)
    (hbit : Word.bit (KMap.at s.sys.chip.coord 0 pkt.hdr.dstChip) 31 = false) (hresp : respClass pkt.hdr = true) :
    ∃ t, chipNext s (.forward port vc pkt) t ∧
      (t.reg (rtPg + 0x70)).toNat = min ((s.sys.chip.reg (rtPg + 0x70)).toNat + 1) 0xffffffff ∧
      ∀ j, j ≠ port → t.lk j = s.sys.chip.lk j := by
  have hexec := exec_forward_fabric (pkt := pkt) ha hport hvc hrole
  have hself : (s.sys.chip.headTaken port vc).selfChip = s.sys.chip.selfChip := rfl
  have hcoord : (s.sys.chip.headTaken port vc).coord = s.sys.chip.coord := rfl
  rw [Chip.routeTo, hself, if_neg hdst, Chip.route] at hexec
  dsimp only at hexec
  rw [hcoord, if_neg (ne_true_of_eq_false hbit)] at hexec
  dsimp only at hexec
  rw [Chip.unroute] at hexec
  dsimp only at hexec
  rw [if_pos (.inl hresp)] at hexec
  refine ⟨_, hexec, ?_, fun j hj => ?_⟩
  · rw [Chip.notice_reg _ _ _ (.inl (by decide)) (by decide) (by decide)]
    exact Chip.reg_bumpBy ..
  · refine (congrArg (fun m : KMap Lnk => KMap.at m {} j) ((Chip.reports_notice ..).links.trans (Chip.bump_links ..))).trans ?_
    exact Chip.lk_setLk_ne _ _ hj

theorem forward_own {o : OwnPkt} {q : List OwnPkt} (ha : s.sys.chip.addressed = true) (hown : s.sys.chip.own = o :: q)
    (ho : o.pkt = pkt) (hl : o.lone = true ∨ s.sys.chip.pairRole = 0) (hdst : pkt.hdr.dstChip = s.sys.chip.selfChip)
    (hp : pkt.hdr.dstPort < 96) (hhost : (s.sys.chip.linkRole pkt.hdr.dstPort).1 = 1) :
    ∃ u : Chip, chipNext s (.forward 127 vc pkt) u.reapReqs ∧ u.own = q ∧
      u.out = s.sys.chip.out ++ [.forward pkt.hdr.dstPort (lowVc pkt.hdr) pkt] := by
  have hexec : exec (.forward 127 vc pkt) s = execForward 127 vc pkt s := (rfl)
  have hgo : s.sys.chip.sendOwn o q = ({ s.sys.chip with own := q } : Chip).routeTo 127 4 false o := by
    unfold Chip.sendOwn
    dsimp only
    rw [if_pos (hl.imp id .inr)]
  have hroute : ({ s.sys.chip with own := q } : Chip).routeTo 127 4 false o =
      ({ s.sys.chip with own := q } : Chip).toLink pkt.hdr.dstPort (lowVc pkt.hdr) o := by
    have hself : ({ s.sys.chip with own := q } : Chip).selfChip = s.sys.chip.selfChip := rfl
    have hlr : ({ s.sys.chip with own := q } : Chip).linkRole pkt.hdr.dstPort = s.sys.chip.linkRole pkt.hdr.dstPort := rfl
    rw [Chip.routeTo, ho, hself, if_pos hdst, Chip.deliver]
    dsimp only
    rw [ho, if_neg (by omega), hlr, if_neg (by omega), if_pos (.inl (by decide)), Chip.sendOn, if_neg (by decide)]
  rw [execForward, liftC] at hexec
  dsimp only at hexec
  rw [if_neg (by simp [ha]), if_pos rfl, hown] at hexec
  dsimp only at hexec
  rw [if_pos ho, hgo, hroute] at hexec
  exact ⟨_, hexec, rfl, by rw [← ho]; rfl⟩

/-! ## Roles (R287, R288, R509) -/

/-- R287: the role of link l is r. -/
def Chip.setLinkRole (y : Chip) (l : Nat) (r : Nat × Nat) : Chip :=
  { y with roles := KMap.put y.roles none l (if r = role0 l then none else some r) }

/-- R288: a link that was or becomes a host's has no binding. -/
def Chip.unbound (y : Chip) (l r0 role : Nat) : Chip :=
  if r0 = 1 ∨ role = 1 then { y with rights.linkHost := KMap.put y.rights.linkHost none l none } else y

theorem exec_rtRole_eq (s : State) (v : Word) : chipNext s (.rtRole v)
    (if 96 ≤ s.sys.chip.fld (rtPg + 0x50) 6 0 then s.sys.chip.bump (glbPg + 0x7C)
      else if s.sys.chip.roleRefused (s.sys.chip.fld (rtPg + 0x50) 6 0) (Word.bits v 1 0) (Word.bits v 6 4) then s.sys.chip.notice rtPg 2
      else if s.sys.chip.linkRole (s.sys.chip.fld (rtPg + 0x50) 6 0) = (Word.bits v 1 0, Word.bits v 6 4) then s.sys.chip
      else if (s.sys.chip.linkRole (s.sys.chip.fld (rtPg + 0x50) 6 0)).1 = Word.bits v 1 0 ∧ Word.bits v 1 0 ≠ 2 then
        s.sys.chip.setLinkRole (s.sys.chip.fld (rtPg + 0x50) 6 0) (Word.bits v 1 0, Word.bits v 6 4)
      else s.sys.chip.changeRole (s.sys.chip.fld (rtPg + 0x50) 6 0) (Word.bits v 1 0) (Word.bits v 6 4)) := rfl

theorem Chip.linkRole_setLinkRole (y : Chip) (l : Nat) (r : Nat × Nat) :
    (y.setLinkRole l r).linkRole l = r ∧ ∀ k, k ≠ l → (y.setLinkRole l r).linkRole k = y.linkRole k := by
  unfold Chip.linkRole Chip.setLinkRole
  dsimp only
  refine ⟨?_, fun k hk => ?_⟩
  · rw [at_put_self]
    split
    next h => exact h.symm
    next => rfl
  · rw [at_put_ne _ _ (Ne.symm hk)]

theorem Chip.linkRole_congr {y t : Chip} (h : t.roles = y.roles) (k : Nat) : t.linkRole k = y.linkRole k := by
  unfold Chip.linkRole
  rw [h]

/-- R281, R379: what the reset of a link leaves of roles, and of the link. -/
theorem Chip.resetLink_facts (y : Chip) {l : Nat} (hl : l < 96) :
    (y.resetLink l).roles = y.roles ∧
    ((y.linkRole l).1 ≠ 0 → y.lkState l ∈ [2, 3, 4] → (y.lk l).resetting = false → (y.lk l).noPll = false →
      (y.resetLink l).lkState l = 1 ∧ ((y.resetLink l).lk l).noPll = false ∧ ∃ a, ((y.resetLink l).lk l).ask = some a ∧ a.reset = true) ∧
    (y.lkState l ∈ [0, 1, 5] → (y.lk l).ask = none → ((y.resetLink l).lk l).ask = none) := by
  rw [Chip.resetLink_eq]
  obtain ⟨hdown, hstate, q, hlk⟩ := y.resetCut_facts hl
  generalize y.resetCut l = c at hdown hstate hlk
  by_cases hskip : (y.linkRole l).1 = 0 ∨ (y.lk l).resetting = true
  · rw [if_pos hskip]
    refine ⟨rfl, fun hr _ hn _ => ?_, fun _ h => h⟩
    rcases hskip with h | h
    · exact absurd h hr
    · exact absurd (hn.symm.trans h) (by decide)
  · rw [if_neg hskip]
    by_cases hup : c.lkState l = 4 ∨ c.lkState l = 3
    · rw [if_pos hup]
      have h := c.linkDown_fell (l := l) (cause := 8) true true hl (by decide)
      obtain ⟨a, h1, h2, -, -⟩ := h.ask
      refine ⟨h.roles.trans hdown.roles, fun _ _ _ hn => ⟨h.state, h.noPll.trans (by rw [hlk]; exact hn), a, h1, h2⟩, fun hst _ => ?_⟩
      rw [hstate] at hup
      simp only [List.mem_cons, List.not_mem_nil, or_false] at hst
      omega
    · rw [if_neg hup]
      have hlk' : (c.setFld (lkPg l + 0x44) 11 8 0).lk l = c.lk l := rfl
      have hroles : (c.setFld (lkPg l + 0x44) 11 8 0).roles = y.roles := (Chip.setFld_roles ..).trans hdown.roles
      generalize c.setFld (lkPg l + 0x44) 11 8 0 = d at hlk' hroles
      rw [hlk', hlk, hstate]
      rw [hstate] at hup
      by_cases hask : y.lkState l = 2 ∨ (y.lkState l = 1 ∧ (y.lk l).ask.isSome = true)
      · rw [if_pos hask]
        have h := d.startAsk_asks l true true true
        refine ⟨(d.downs_startAsk l true true true).roles.trans hroles, fun _ _ _ hn => ⟨d.startAsk_state .., ?_, _, h.ask, rfl⟩,
          fun hst hno => ?_⟩
        · rw [h.noPll, hlk', hlk]
          exact hn
        · rw [hno] at hask
          simp only [List.mem_cons, List.not_mem_nil, or_false] at hst
          rcases hask with h | ⟨-, h⟩
          · omega
          · exact absurd h (by decide)
      · rw [if_neg hask]
        have hd : (d.setLkState l 1).lk l = c.lk l := hlk'
        refine ⟨(Chip.setFld_roles ..).trans hroles, fun _ hst _ _ => ?_, fun _ hno => ?_⟩
        · simp only [List.mem_cons, List.not_mem_nil, or_false] at hst
          omega
        · rw [hd, hlk]
          exact hno

theorem Chip.goIdle_state (y : Chip) (l : Nat) : (y.goIdle l).lkState l = 0 := y.lkState_setLkState l 0

/-- R288: a role changed, but for the choice of fabric time's parent. -/
def Chip.roleChanged (s : Chip) (l role dir : Nat) : Chip :=
  let (r0, _) := s.linkRole l
  let s := ((s.resetLink l).setLinkRole l (role, dir)).unbound l r0 role
  if role = 0 then if (s.lk l).ask.isSome && !(s.lk l).noPll then s else s.goIdle l
    else if r0 = 0 then
      ((s.setLkState l 1).setFld (lkPg l + 0x44) 11 8 0).setLk l { s.lk l with
        ask := none
        mustFull := true }
    else s

theorem Chip.changeRole_eq (s : Chip) (l role dir : Nat) : s.changeRole l role dir = (s.roleChanged l role dir).ftEval := rfl

theorem Chip.roleChanged_facts (y : Chip) {l : Nat} (hl : l < 96) (role dir : Nat) :
    (y.roleChanged l role dir).linkRole l = (role, dir) ∧
    (∀ k, k ≠ l → (y.roleChanged l role dir).linkRole k = y.linkRole k) ∧
    ((y.linkRole l).1 ≠ 0 → role = 0 →
      (y.lkState l ∈ [2, 3, 4] → (y.lk l).resetting = false → (y.lk l).noPll = false →
        (y.roleChanged l role dir).lkState l = 1 ∧ ∃ a, ((y.roleChanged l role dir).lk l).ask = some a ∧ a.reset = true) ∧
      (y.lkState l ∈ [0, 1, 5] → (y.lk l).ask = none → (y.roleChanged l role dir).lkState l = 0)) := by
  obtain ⟨hroles, hasks, hidle⟩ := y.resetLink_facts hl
  unfold Chip.roleChanged
  dsimp only
  generalize y.resetLink l = r at hroles hasks hidle
  obtain ⟨hself, hother⟩ := r.linkRole_setLinkRole l (role, dir)
  generalize hp : r.setLinkRole l (role, dir) = p at hself hother
  have hplk : p.lk l = r.lk l := by rw [← hp]; rfl
  have hpst : p.lkState l = r.lkState l := by rw [← hp]; rfl
  clear hp
  generalize hw : p.unbound l (y.linkRole l).1 role = w
  have hwroles : w.roles = p.roles := by rw [← hw]; unfold Chip.unbound; split <;> rfl
  have hwlk : w.lk l = r.lk l := by rw [← hplk, ← hw]; unfold Chip.unbound; split <;> rfl
  have hwst : w.lkState l = r.lkState l := by rw [← hpst, ← hw]; unfold Chip.unbound; split <;> rfl
  clear hw
  have hrole : ∀ {t : Chip}, t.roles = w.roles → t.linkRole l = (role, dir) ∧ ∀ k, k ≠ l → t.linkRole k = y.linkRole k :=
    fun ht => ⟨(Chip.linkRole_congr (ht.trans hwroles) l).trans hself, fun k hk =>
      (Chip.linkRole_congr (ht.trans hwroles) k).trans ((hother k hk).trans (Chip.linkRole_congr hroles k))⟩
  by_cases h0 : role = 0
  · rw [if_pos h0]
    by_cases hask : ((w.lk l).ask.isSome && !(w.lk l).noPll) = true
    · rw [if_pos hask]
      refine ⟨(hrole rfl).1, (hrole rfl).2, fun hr _ => ⟨fun hst hres hpll => ?_, fun hst hno => ?_⟩⟩
      · obtain ⟨a1, -, a3⟩ := hasks hr hst hres hpll
        exact ⟨hwst.trans a1, by rw [hwlk]; exact a3⟩
      · rw [hwlk, hidle hst hno] at hask
        exact absurd hask (by simp)
    · rw [if_neg hask]
      have hgr : (w.goIdle l).roles = w.roles := rfl
      refine ⟨(hrole hgr).1, (hrole hgr).2, fun hr _ => ⟨fun hst hres hpll => ?_, fun _ _ => w.goIdle_state l⟩⟩
      obtain ⟨-, a2, a, a3, -⟩ := hasks hr hst hres hpll
      rw [hwlk, a2, a3] at hask
      exact absurd rfl hask
  · rw [if_neg h0]
    split
    · exact ⟨(hrole (t := ((w.setLkState l 1).setFld (lkPg l + 0x44) 11 8 0).setLk l _) rfl).1,
        (hrole (t := ((w.setLkState l 1).setFld (lkPg l + 0x44) 11 8 0).setLk l _) rfl).2, fun _ h => absurd h h0⟩
    · exact ⟨(hrole rfl).1, (hrole rfl).2, fun _ h => absurd h h0⟩

theorem rtRole_sets (v : Word) (hsel : s.sys.chip.fld (rtPg + 0x50) 6 0 < 96)
    (href : s.sys.chip.roleRefused (s.sys.chip.fld (rtPg + 0x50) 6 0) (Word.bits v 1 0) (Word.bits v 6 4) = false) :
    ∃ t, chipNext s (.rtRole v) t ∧ t.linkRole (s.sys.chip.fld (rtPg + 0x50) 6 0) = (Word.bits v 1 0, Word.bits v 6 4) ∧
      (∀ k, k ≠ s.sys.chip.fld (rtPg + 0x50) 6 0 → t.linkRole k = s.sys.chip.linkRole k) ∧
      (s.sys.chip.linkRole (s.sys.chip.fld (rtPg + 0x50) 6 0) ≠ (Word.bits v 1 0, Word.bits v 6 4) →
        (s.sys.chip.linkRole (s.sys.chip.fld (rtPg + 0x50) 6 0)).1 ≠ 0 → Word.bits v 1 0 = 0 →
        (s.sys.chip.lkState (s.sys.chip.fld (rtPg + 0x50) 6 0) ∈ [2, 3, 4] →
          (s.sys.chip.lk (s.sys.chip.fld (rtPg + 0x50) 6 0)).resetting = false →
          (s.sys.chip.lk (s.sys.chip.fld (rtPg + 0x50) 6 0)).noPll = false →
          t.lkState (s.sys.chip.fld (rtPg + 0x50) 6 0) = 1 ∧
            ∃ a, (t.lk (s.sys.chip.fld (rtPg + 0x50) 6 0)).ask = some a ∧ a.reset = true) ∧
        (s.sys.chip.lkState (s.sys.chip.fld (rtPg + 0x50) 6 0) ∈ [0, 1, 5] →
          (s.sys.chip.lk (s.sys.chip.fld (rtPg + 0x50) 6 0)).ask = none → t.lkState (s.sys.chip.fld (rtPg + 0x50) 6 0) = 0)) := by
  have hexec := exec_rtRole_eq s v
  generalize s.sys.chip.fld (rtPg + 0x50) 6 0 = sel at hexec hsel href
  generalize Word.bits v 1 0 = role at hexec href
  generalize Word.bits v 6 4 = dir at hexec href
  rw [if_neg (Nat.not_le.2 hsel), if_neg (ne_true_of_eq_false href)] at hexec
  by_cases hsame : s.sys.chip.linkRole sel = (role, dir)
  · rw [if_pos hsame] at hexec
    exact ⟨_, hexec, hsame, fun _ _ => rfl, fun h => absurd hsame h⟩
  · rw [if_neg hsame] at hexec
    by_cases hdir : (s.sys.chip.linkRole sel).1 = role ∧ role ≠ 2
    · rw [if_pos hdir] at hexec
      obtain ⟨h1, h2⟩ := s.sys.chip.linkRole_setLinkRole sel (role, dir)
      exact ⟨_, hexec, h1, h2, fun _ hr h0 => absurd (hdir.1.trans h0) hr⟩
    · rw [if_neg hdir, Chip.changeRole_eq] at hexec
      obtain ⟨h1, h2, h3⟩ := s.sys.chip.roleChanged_facts hsel role dir
      generalize s.sys.chip.roleChanged sel role dir = w at hexec h1 h2 h3
      have hst : w.ftEval.lkState sel = w.lkState sel := congrArg (Word.bits · 2 0)
        (w.ftEval_reg (by unfold ftReg lkPg ftPg; omega) (lkPg_below hsel (by decide)))
      refine ⟨_, hexec, (Chip.linkRole_congr w.ftEval_roles sel).trans h1, fun k hk => (Chip.linkRole_congr w.ftEval_roles k).trans (h2 k hk),
        fun _ hr h0 => ?_⟩
      obtain ⟨g1, g2⟩ := h3 hr h0
      refine ⟨fun hm hres hpll => ?_, fun hm hask => hst.trans (g2 hm hask)⟩
      obtain ⟨k1, a, k2, k3⟩ := g1 hm hres hpll
      refine ⟨hst.trans k1, ?_⟩
      rcases w.ftEval_lk sel with h | ⟨n, h⟩
      · exact ⟨a, by rw [h]; exact k2, k3⟩
      · exact ⟨{ a with start := Machine.moved n a.start }, by rw [h]; exact congrArg (Option.map _) k2, k3⟩

end

/-- Settles O47: a packet by the router's cases, RT_ROLE by the cases of the write. -/
theorem routing : Obligations.Routing := by
  intro s port vc pkt v y h w gives leaves sel role dir
  refine ⟨fun ha hport hvc hrole => ⟨fun hdst d minus k first hbit hhop hpick h4 =>
      forward_routes ha hport hvc hrole hdst hbit hhop hpick h4, fun hdst hp hhost h4 => forward_delivers ha hport hvc hrole hdst hp hhost h4,
      fun hdst hbit hresp => forward_unroutable ha hport hvc hrole hdst hbit hresp⟩,
    fun o q ha hown ho hl hdst hp hhost => forward_own ha hown ho hl hdst hp hhost, fun hsel => ?_, fun hsel href => ?_,
    fun hsel href => rtRole_sets v hsel href⟩
  · have hexec := exec_rtRole_eq s v
    rw [if_pos hsel] at hexec
    exact ⟨_, hexec, ⟨rfl, fun a ha => Chip.reg_bump_ne _ fun e => ha (List.mem_singleton.2 e.symm)⟩, Chip.reg_bumpBy ..⟩
  · have hexec := exec_rtRole_eq s v
    rw [if_neg (Nat.not_le.2 hsel), if_pos href] at hexec
    exact ⟨_, hexec, (Chip.reports_notice ..).roles, (Chip.reports_notice ..).links⟩

end Sys2Proof.Machine

/-! PROOFS. Fabric time and the plan banks: O48 (R300 to R309). -/


namespace Sys2Proof.Machine

-- One after the other: side by side the proofs ask for more memory than the check grants.
set_option Elab.async false

open Laws

/-! ## Fabric time: the choice of the parent and a step towards it -/

/-- R302: a chip that has a usable parent, or has had one, does not step fabric time. -/
theorem Chip.ftEval_keepsLinks {s : Chip}
    (h : s.isMaster = true ∨ s.ft.had = true ∨ s.ftParent = none ∨ s.ftState = 1 ∨ s.ftState = 2) : s.ftEval.links = s.links := by
  by_cases hst : s.ftState = 1 ∨ s.ftState = 2
  · unfold Chip.ftEval
    split
    · rfl
    · split
      · exact s.loseParent_links
      · rw [if_neg (by omega)]
        split <;> rfl
  · refine Chip.ftEval_links ?_
    rcases h with h | h | h | h
    · exact .inl h
    · exact .inr (.inl h)
    · exact .inr (.inr h)
    · exact absurd h hst

/-- Registers that the choice of the parent and the steering leave alone. -/
def ftApart (a : Nat) : Prop := belowPt a ∧ a ≠ ftPg + 0x48 ∧ a ≠ ftPg + 0x54 ∧ a ≠ ftPg + 0x10 ∧ a ≠ ftPg + 0x18

theorem ftPg_below {k : Nat} (h : k < 0x1000) : belowPt (ftPg + k) := by
  unfold belowPt ftPg
  omega

theorem ftApart_60 : ftApart (ftPg + 0x60) := ⟨ftPg_below (by decide), by decide, by decide, by decide, by decide⟩

theorem Chip.setParent_reg_apart (s : Chip) (l : Nat) {a : Nat} (h : a ≠ ftPg + 0x48) : (s.setParent l).reg a = s.reg a :=
  (Chip.reg_setFld_ne _ _ _ _ (Ne.symm h)).trans (Chip.reg_setFld_ne _ _ _ _ (Ne.symm h))

theorem Chip.ftNotice_reg (s : Chip) (b : Nat) {a : Nat} (h : ftApart a) : (s.notice ftPg b).reg a = s.reg a := by
  obtain ⟨hb, -, -, h1, h2⟩ := h
  exact Chip.notice_reg _ _ _ hb h1 h2

theorem Chip.ftEval_reg_apart (s : Chip) {a : Nat} (h : ftApart a) : s.ftEval.reg a = s.reg a := by
  have h48 : a ≠ ftPg + 0x48 := h.2.1
  unfold Chip.ftEval
  split
  · rfl
  · split
    · split
      · unfold Chip.loseParent
        dsimp only
        split
        · rw [Chip.ftNotice_reg _ _ h, Chip.ftNotice_reg _ _ h]
          exact Chip.reg_setFld_ne _ _ _ _ (Ne.symm h48)
        · rw [Chip.ftNotice_reg _ _ h]
          exact Chip.reg_setFld_ne _ _ _ _ (Ne.symm h48)
      · rfl
    · split
      · unfold Chip.gainParent
        dsimp only
        rw [Chip.setParent_reg_apart _ _ h48]
        refine (Chip.reg_setFld_ne _ _ _ _ (Ne.symm h48)).trans ?_
        split <;> rfl
      · split <;> exact Chip.setParent_reg_apart _ _ h48

/-- R300: the offset to be slewed, and FT_OFS. -/
def Chip.withOffset (s : Chip) (ofs : Int) : Chip := { s with ft.debt := ofs }.setFld (ftPg + 0x54) 15 0 (unsigned 16 ofs)

/-- R302: the exchanges in a row within ±2 ticks. -/
def Chip.withRun (s : Chip) (n : Nat) : Chip := { s with ft.run := n }

/-- R302: the state a run of exchanges leads to. -/
def Chip.locks (s : Chip) : Chip := if 16 ≤ s.ft.run ∧ s.ftState = 1 then s.setFtState 2 else s

/-- R302: an exchange outside ±2 ticks ends LOCKED. -/
def Chip.unlocks (s : Chip) : Chip := if s.ftState = 2 then (s.setFtState 1).notice ftPg 2 else s

theorem Chip.steer_eq (s : Chip) (ofs : Int) : s.steer ofs = if ofs.natAbs ≤ 32
    then ((s.withOffset ofs).withRun ((s.withOffset ofs).ft.run + 1)).locks else ((s.withOffset ofs).withRun 0).unlocks := rfl

theorem Chip.withOffset_reg (s : Chip) (ofs : Int) (n : Nat) {a : Nat} (h : ftPg + 0x54 ≠ a) :
    ((s.withOffset ofs).withRun n).reg a = s.reg a := by
  have hrun : ((s.withOffset ofs).withRun n).reg a = (s.withOffset ofs).reg a := rfl
  rw [hrun, Chip.withOffset, Chip.reg_setFld_ne _ _ _ _ h]
  rfl

theorem Chip.withOffset_facts (s : Chip) (ofs : Int) (n : Nat) : ((s.withOffset ofs).withRun n).links = s.links ∧
    ((s.withOffset ofs).withRun n).ft.debt = ofs ∧ ((s.withOffset ofs).withRun n).ft.run = n ∧
    ((s.withOffset ofs).withRun n).ftState = s.ftState :=
  ⟨rfl, rfl, rfl, congrArg (Word.bits · 1 0) (s.withOffset_reg ofs n (by decide))⟩

theorem Chip.locks_reg (s : Chip) {a : Nat} (h : ftPg + 0x48 ≠ a) : s.locks.reg a = s.reg a := by
  unfold Chip.locks
  split
  · exact Chip.reg_setFld_ne _ _ _ _ h
  · rfl

theorem Chip.unlocks_reg (s : Chip) {a : Nat} (h : ftApart a) : s.unlocks.reg a = s.reg a := by
  unfold Chip.unlocks
  split
  · rw [Chip.ftNotice_reg _ _ h]
    exact Chip.reg_setFld_ne _ _ _ _ (Ne.symm h.2.1)
  · rfl

theorem Chip.locks_links (s : Chip) : s.locks.links = s.links := by
  unfold Chip.locks
  split <;> rfl

theorem Chip.unlocks_links (s : Chip) : s.unlocks.links = s.links := by
  unfold Chip.unlocks
  split
  · exact (Chip.reports_notice ..).links
  · rfl

theorem Chip.steer_links (s : Chip) (ofs : Int) : (s.steer ofs).links = s.links := by
  rw [Chip.steer_eq]
  split
  · exact (Chip.locks_links _).trans (s.withOffset_facts ..).1
  · exact (Chip.unlocks_links _).trans (s.withOffset_facts ..).1

theorem Chip.steer_reg (s : Chip) (ofs : Int) {a : Nat} (h : ftApart a) : (s.steer ofs).reg a = s.reg a := by
  have h54 : ftPg + 0x54 ≠ a := Ne.symm h.2.2.1
  rw [Chip.steer_eq]
  split
  · exact (Chip.locks_reg _ (Ne.symm h.2.1)).trans (s.withOffset_reg _ _ h54)
  · exact (Chip.unlocks_reg _ h).trans (s.withOffset_reg _ _ h54)

theorem Chip.ftState_setFtState (s : Chip) (v : Nat) : (s.setFtState v).ftState = v % 4 :=
  Chip.fld_setFld _ _ _ (by decide)

theorem Chip.setParent_ftState (s : Chip) (l : Nat) : (s.setParent l).ftState = s.ftState :=
  (Chip.fld_setFld_apart _ _ _ (by decide) (.inl (by decide))).trans (Chip.fld_setFld_apart _ _ _ (by decide) (.inl (by decide)))

theorem Chip.locks_facts (s : Chip) (hst : s.ftState = 1 ∨ s.ftState = 2) :
    s.locks.ft = s.ft ∧ s.locks.ftState = if s.ftState = 1 ∧ s.ft.run < 16 then 1 else 2 := by
  unfold Chip.locks
  by_cases h : 16 ≤ s.ft.run ∧ s.ftState = 1
  · rw [if_pos h, if_neg (by omega)]
    exact ⟨rfl, s.ftState_setFtState 2⟩
  · rw [if_neg h]
    refine ⟨rfl, ?_⟩
    split <;> omega

theorem Chip.unlocks_facts (s : Chip) (hst : s.ftState = 1 ∨ s.ftState = 2) : s.unlocks.ft = s.ft ∧ s.unlocks.ftState = 1 := by
  unfold Chip.unlocks
  by_cases h : s.ftState = 2
  · rw [if_pos h]
    exact ⟨(Chip.reports_notice ..).ft, (congrArg (Word.bits · 1 0)
      (Chip.notice_reg _ _ _ (ftPg_below (by decide)) (by decide) (by decide))).trans (s.ftState_setFtState 1)⟩
  · rw [if_neg h]
    exact ⟨rfl, by omega⟩

/-- R302, R303: an exchange within ±2 ticks locks from the 16th on; one outside leads to ACQUIRE. -/
theorem Chip.steer_facts (s : Chip) (ofs : Int) (hst : s.ftState = 1 ∨ s.ftState = 2) : (s.steer ofs).ft.debt = ofs ∧
    (ofs.natAbs ≤ 32 → (s.steer ofs).ftState = if s.ftState = 1 ∧ (s.steer ofs).ft.run < 16 then 1 else 2) ∧
    (32 < ofs.natAbs → (s.steer ofs).ft.run = 0 ∧ (s.steer ofs).ftState = 1) := by
  rw [Chip.steer_eq]
  by_cases h : ofs.natAbs ≤ 32
  · rw [if_pos h]
    obtain ⟨-, hdebt, -, hstate⟩ := s.withOffset_facts ofs ((s.withOffset ofs).ft.run + 1)
    generalize (s.withOffset ofs).withRun ((s.withOffset ofs).ft.run + 1) = w at hdebt hstate
    obtain ⟨hft, hlock⟩ := w.locks_facts (by rw [hstate]; exact hst)
    rw [hft, hlock, hstate]
    exact ⟨hdebt, fun _ => rfl, fun h' => absurd h (by omega)⟩
  · rw [if_neg h]
    obtain ⟨-, hdebt, hrun, hstate⟩ := s.withOffset_facts ofs 0
    generalize (s.withOffset ofs).withRun 0 = w at hdebt hrun hstate
    obtain ⟨hft, hlock⟩ := w.unlocks_facts (by rw [hstate]; exact hst)
    rw [hft]
    exact ⟨hdebt, fun h' => absurd h' h, fun _ => ⟨hrun, hlock⟩⟩

/-! ## A time record (R301) -/

/-- R301: the link with the partner's record. -/
def Lnk.heard (x : Lnk) (r : TimeRec) (ofs : Int) : Lnk :=
  { x with
    ofs := ofs
    nbrLocked := r.locked
    nbrDepth := r.depth
    nbrT1 := r.t1
    nbrT4 := r.t4 }

/-- R302: an offset beyond 4 ticks is counted. -/
def Chip.outlier (s : Chip) (ofs : Int) : Chip := if 64 < ofs.natAbs then (s.bump (ftPg + 0x60)).notice ftPg 0 else s

theorem exec_timeExchange_eq {s : State} {l : LinkNo} {r : TimeRec} {ofs : Int} (hofs : (((r.t2 : Int) - r.t1) - ((r.t4 : Int) - r.t3)) / 2 = ofs)
    {u : Chip} (hu : (s.sys.chip.setLk l ((s.sys.chip.lk l).heard r ofs)).outlier ofs = u) (h : s.sys.chip.timeLink l = true) :
    chipNext s (.timeExchange l r)
      (if !u.ftEval.isMaster && (u.ftState == 1 || u.ftState == 2) && u.ftEval.ftParent == some l.val then u.ftEval.steer ofs else u.ftEval) := by
  subst hu hofs
  have hexec : exec (.timeExchange l r) s = execTimeExchange l r s := (rfl)
  rw [chipNext, hexec, execTimeExchange, liftC]
  dsimp only
  rw [if_neg (by rw [h]; decide)]
  rfl

theorem Chip.outlier_links (s : Chip) (ofs : Int) : (s.outlier ofs).links = s.links := by
  unfold Chip.outlier
  split
  · exact (Chip.reports_notice ..).links
  · rfl

theorem Chip.outlier_ft (s : Chip) (ofs : Int) : (s.outlier ofs).ft = s.ft := by
  unfold Chip.outlier
  split
  · exact (Chip.reports_notice ..).ft
  · rfl

theorem Chip.outlier_reg (s : Chip) (ofs : Int) {a : Nat} (h : belowPt a) (h1 : a ≠ ftPg + 0x60) (h2 : a ≠ ftPg + 0x10)
    (h3 : a ≠ ftPg + 0x18) : (s.outlier ofs).reg a = s.reg a := by
  unfold Chip.outlier
  split
  · exact (Chip.notice_reg _ _ _ h h2 h3).trans (Chip.reg_bump_ne _ (Ne.symm h1))
  · rfl

theorem Chip.outlier_count (s : Chip) (ofs : Int) : ((s.outlier ofs).reg (ftPg + 0x60)).toNat =
    min ((s.reg (ftPg + 0x60)).toNat + if 64 < ofs.natAbs then 1 else 0) 0xffffffff := by
  have hlt : (s.reg (ftPg + 0x60)).toNat < 2 ^ 32 := BitVec.isLt _
  unfold Chip.outlier
  split
  · rw [Chip.notice_reg _ _ _ (ftPg_below (by decide)) (by decide) (by decide), Chip.bump, Chip.reg_bumpBy]
  · omega

/-- The parent is read from the links, the roles and the registers of the links and of fabric time. -/
theorem Chip.ftParent_congr {s t : Chip} (hl : t.links = s.links) (hroles : t.roles = s.roles)
    (hreg : ∀ a, belowPt a → a ≠ ftPg + 0x60 → a ≠ ftPg + 0x48 → a ≠ ftPg + 0x10 → a ≠ ftPg + 0x18 → t.reg a = s.reg a) :
    t.ftParent = s.ftParent := by
  have h44 : t.reg (ftPg + 0x44) = s.reg (ftPg + 0x44) := hreg _ (ftPg_below (by decide)) (by decide) (by decide) (by decide) (by decide)
  unfold Chip.ftParent
  simp only [Chip.flag, Chip.fld, h44]
  refine List.find?_congr fun k hk => ?_
  obtain ⟨j, -, rfl⟩ := List.mem_map.1 hk
  have hlt : Word.bits (s.reg (ftPg + 0x44)) (8 * j + 6) (8 * j) < 128 := by
    have h7 : 8 * j + 6 + 1 - 8 * j = 7 := by omega
    rw [Word.bits, h7]
    exact Nat.mod_lt _ (by decide)
  generalize Word.bits (s.reg (ftPg + 0x44)) (8 * j + 6) (8 * j) = k at hlt
  rw [Chip.lk, hl, ← Chip.lk, Chip.timeLink, Chip.linkRole, hroles, Chip.lkState, Chip.fld,
    hreg (lkPg k + 0x44) (by unfold lkPg belowPt; omega) (by unfold lkPg ftPg; omega) (by unfold lkPg ftPg; omega)
      (by unfold lkPg ftPg; omega) (by unfold lkPg ftPg; omega)]
  rfl

/-- A chip that follows a parent goes on following it. -/
theorem Chip.ftEval_follows {s : Chip} {l : Nat} (hm : s.isMaster = false) (hp : s.ftParent = some l) (hst : s.ftState = 1 ∨ s.ftState = 2) :
    s.ftEval.isMaster = false ∧ s.ftEval.ftParent = some l ∧ s.ftEval.ftState = s.ftState := by
  have hfacts : ∀ r : Chip, r.links = s.links → r.roles = s.roles → (∀ a, r.reg a = s.reg a) →
      (r.setParent l).isMaster = false ∧ (r.setParent l).ftParent = some l ∧ (r.setParent l).ftState = s.ftState := fun r h1 h2 h3 => by
    refine ⟨(congrArg (Word.bit · 0) ((r.setParent_reg_apart l (by decide)).trans (h3 (ftPg + 0x40)))).trans hm, ?_,
      (r.setParent_ftState l).trans (congrArg (Word.bits · 1 0) (h3 (ftPg + 0x48)))⟩
    exact (Chip.ftParent_congr (s := s) (t := r.setParent l) h1 h2 fun a _ _ h48 _ _ => (r.setParent_reg_apart l h48).trans (h3 a)).trans hp
  unfold Chip.ftEval
  rw [if_neg (by rw [hm]; decide), hp]
  dsimp only
  rw [if_neg (by omega)]
  split
  · exact hfacts s rfl rfl fun _ => rfl
  · exact hfacts (s.withRun 0) rfl rfl fun _ => rfl

section

variable {s : State} {l : LinkNo} {r : TimeRec} {ofs : Int}

theorem timeExchange_ignored (h : s.sys.chip.timeLink l = false) : exec (.timeExchange l r) s = .next s := by
  have hexec : exec (.timeExchange l r) s = execTimeExchange l r s := (rfl)
  rw [hexec, execTimeExchange, liftC]
  dsimp only
  rw [if_pos h]

theorem timeExchange_heard (hofs : (((r.t2 : Int) - r.t1) - ((r.t4 : Int) - r.t3)) / 2 = ofs) (h : s.sys.chip.timeLink l = true)
    {v : Chip} (hv : s.sys.chip.setLk l ((s.sys.chip.lk l).heard r ofs) = v)
    (hkeep : s.sys.chip.isMaster = true ∨ s.sys.chip.ft.had = true ∨ v.ftParent = none ∨ s.sys.chip.ftState = 1 ∨ s.sys.chip.ftState = 2) :
    ∃ t, chipNext s (.timeExchange l r) t ∧ t.lk l = (s.sys.chip.lk l).heard r ofs ∧
      (∀ k : Nat, k ≠ l.val → t.lk k = s.sys.chip.lk k) ∧
      (t.reg (ftPg + 0x60)).toNat = min ((s.sys.chip.reg (ftPg + 0x60)).toNat + if 64 < ofs.natAbs then 1 else 0) 0xffffffff ∧
      (ofs.natAbs ≤ 64 → s.sys.chip.isMaster = false → v.ftParent = some l.val →
        s.sys.chip.ftState = 1 ∨ s.sys.chip.ftState = 2 → t.ft.debt = ofs ∧
        (ofs.natAbs ≤ 32 → t.ftState = if s.sys.chip.ftState = 1 ∧ t.ft.run < 16 then 1 else 2) ∧
        (32 < ofs.natAbs → t.ft.run = 0 ∧ t.ftState = 1)) := by
  generalize hu : v.outlier ofs = u
  have hexec := exec_timeExchange_eq hofs (u := u) (by rw [hv, hu]) h
  have hvreg : ∀ a, v.reg a = s.sys.chip.reg a := fun a => by rw [← hv]; rfl
  have hvm : v.isMaster = s.sys.chip.isMaster := congrArg (Word.bit · 0) (hvreg (ftPg + 0x40))
  have hvs : v.ftState = s.sys.chip.ftState := congrArg (Word.bits · 1 0) (hvreg (ftPg + 0x48))
  have hvf : v.ft = s.sys.chip.ft := by rw [← hv]; rfl
  have hvl : v.lk l = (s.sys.chip.lk l).heard r ofs ∧ ∀ k : Nat, k ≠ l.val → v.lk k = s.sys.chip.lk k := by
    rw [← hv]
    exact ⟨Chip.lk_setLk .., fun k hk => Chip.lk_setLk_ne _ _ hk⟩
  have hul : u.links = v.links := by rw [← hu]; exact v.outlier_links ofs
  have hur : u.roles = v.roles := by
    rw [← hu]
    unfold Chip.outlier
    split
    · exact (Chip.reports_notice ..).roles
    · rfl
  have huf : u.ft = v.ft := by rw [← hu]; exact v.outlier_ft ofs
  have hureg : ∀ a, belowPt a → a ≠ ftPg + 0x60 → a ≠ ftPg + 0x10 → a ≠ ftPg + 0x18 → u.reg a = v.reg a := fun a h0 h1 h2 h3 => by
    rw [← hu]
    exact v.outlier_reg ofs h0 h1 h2 h3
  have hup : u.ftParent = v.ftParent := Chip.ftParent_congr hul hur fun a h0 h1 _ h2 h3 => hureg a h0 h1 h2 h3
  have hum : u.isMaster = s.sys.chip.isMaster :=
    (congrArg (Word.bit · 0) (hureg (ftPg + 0x40) (ftPg_below (by decide)) (by decide) (by decide) (by decide))).trans hvm
  have hus : u.ftState = s.sys.chip.ftState :=
    (congrArg (Word.bits · 1 0) (hureg (ftPg + 0x48) (ftPg_below (by decide)) (by decide) (by decide) (by decide))).trans hvs
  have hcount : (u.reg (ftPg + 0x60)).toNat =
      min ((s.sys.chip.reg (ftPg + 0x60)).toNat + if 64 < ofs.natAbs then 1 else 0) 0xffffffff := by
    rw [← hu, ← hvreg]
    exact v.outlier_count ofs
  have hel : u.ftEval.links = u.links := Chip.ftEval_keepsLinks (by rw [hum, huf, hvf, hup, hus]; exact hkeep)
  have her : u.ftEval.reg (ftPg + 0x60) = u.reg (ftPg + 0x60) := u.ftEval_reg_apart ftApart_60
  have hlk : ∀ t : Chip, t.links = v.links → t.lk l = (s.sys.chip.lk l).heard r ofs ∧ ∀ k : Nat, k ≠ l.val → t.lk k = s.sys.chip.lk k :=
    fun t ht => ⟨(congrArg (fun m : KMap Lnk => KMap.at m {} l) ht).trans hvl.1,
      fun k hk => (congrArg (fun m : KMap Lnk => KMap.at m {} k) ht).trans (hvl.2 k hk)⟩
  by_cases hsteer : (!u.ftEval.isMaster && (u.ftState == 1 || u.ftState == 2) && u.ftEval.ftParent == some l.val) = true
  · rw [if_pos hsteer] at hexec
    obtain ⟨h1, h2⟩ := hlk (u.ftEval.steer ofs) ((Chip.steer_links ..).trans (hel.trans hul))
    refine ⟨_, hexec, h1, h2, ?_, fun _ hm hp hst => ?_⟩
    · rw [Chip.steer_reg _ _ ftApart_60, her]
      exact hcount
    · obtain ⟨-, -, e3⟩ := Chip.ftEval_follows (hum.trans hm) (hup.trans hp) (by rw [hus]; exact hst)
      have := u.ftEval.steer_facts ofs (by rw [e3, hus]; exact hst)
      rw [e3, hus] at this
      exact this
  · rw [if_neg hsteer] at hexec
    obtain ⟨h1, h2⟩ := hlk u.ftEval (hel.trans hul)
    refine ⟨_, hexec, h1, h2, by rw [her]; exact hcount, fun _ hm hp hst => ?_⟩
    obtain ⟨e1, e2, -⟩ := Chip.ftEval_follows (hum.trans hm) (hup.trans hp) (by rw [hus]; exact hst)
    rw [e1, e2, hus] at hsteer
    exact absurd (by rcases hst with h | h <;> simp [h]) hsteer

end

/-! ## Requests to the triad's port (R304, R308) -/

/-- R184, R512: a packet that meets the checks of port 0x7E is carried out. -/
theorem Chip.toTriad_passed {s : Chip} {port : Nat} {pkt : Packet} (hturn : pkt.hdr.typ ≠ 0xC ∨ s.standsBy = false)
    (ha : s.addressed = true) (hs : s.spoofed port pkt.hdr.srcHost = false) (hc : pkt.hdr.cls = 4) (f : Chip → Chip) :
    s.toTriad port pkt f = f s := by
  have hgo : (if s.addressed = false then s
      else if s.spoofed port pkt.hdr.srcHost then s.spoofCount.respond pkt.hdr .noAccess
      else if pkt.hdr.cls ≠ 4 then s.respond pkt.hdr .noAccess
      else f s) = f s := by
    rw [if_neg (by rw [ha]; decide), if_neg (by rw [hs]; decide), if_neg (not_not.2 hc)]
  unfold Chip.toTriad
  dsimp only
  split
  next ht => exact (Chip.turnOf_alone (hturn.resolve_left (not_not.2 ht)) _ _).trans hgo
  next => exact hgo

theorem Chip.respond_out (s : Chip) (r : PktHdr) (st : Status) : (s.respond r st).out.getLast? = some (.packet ⟨s.respHd r st, []⟩) :=
  List.getLast?_concat ..

theorem Chip.respond_reg (s : Chip) (r : PktHdr) (st : Status) (a : Nat) : (s.respond r st).reg a = s.reg a := rfl

section

variable {s : State} {port : Nat} {pkt : Packet}

theorem time_answered (hty : pkt.hdr.typ ≠ 0xC) (ha : s.sys.chip.addressed = true) (hs : s.sys.chip.spoofed port pkt.hdr.srcHost = false)
    (hc : pkt.hdr.cls = 4) : ∃ p : Packet, p.hdr.typ = 8 ∧ p.hdr.status = stCode .ok ∧ p.hdr.tag = pkt.hdr.tag ∧
      p.hdr.ver = true ∧ p.payload = s.sys.chip.corrBytes ∧
      chipNext s (.time port pkt) { s.sys.chip with
        own := s.sys.chip.own ++ [⟨p, true, none, none, true⟩]
        out := s.sys.chip.out ++ [.packet p] } := by
  have hexec : exec (.time port pkt) s = execTime port pkt s := (rfl)
  refine ⟨⟨{ s.sys.chip.respHd pkt.hdr .ok with ver := true, value := s.sys.chip.now, len := s.sys.chip.corrBytes.length },
    s.sys.chip.corrBytes⟩, rfl, rfl, rfl, rfl, rfl, ?_⟩
  rw [chipNext, hexec, execTime, liftC]
  dsimp only
  rw [Chip.toTriad_passed (.inl hty) ha hs hc]

/-! ## The registers and the banks of plans -/

theorem planPg_below {k : Nat} (h : k < 0x1000) : belowPt (planPg + k) := by
  unfold belowPt planPg
  omega

/-- t keeps the banks of s, its promises and the registers of plans below the code of a refusal. -/
structure Chip.keepsPlan (s t : Chip) : Prop where
  plan : t.plan = s.plan
  regs : ∀ k, 0x40 ≤ k → k < 0x60 → t.reg (planPg + k) = s.reg (planPg + k)

theorem Chip.keepsPlan.refl (s : Chip) : s.keepsPlan s := ⟨rfl, fun _ _ _ => rfl⟩

theorem Chip.keepsPlan.trans {s t u : Chip} (h : s.keepsPlan t) (h' : t.keepsPlan u) : s.keepsPlan u :=
  ⟨h'.plan.trans h.plan, fun k h1 h2 => (h'.regs k h1 h2).trans (h.regs k h1 h2)⟩

theorem Chip.keepsPlan.pending {s t : Chip} (h : s.keepsPlan t) : t.planPending = s.planPending :=
  congrArg (Word.bit · 1) (h.regs 0x40 (by decide) (by decide))

theorem Chip.keepsPlan.pair {s t : Chip} (h : s.keepsPlan t) {k : Nat} (h1 : 0x40 ≤ k) (h2 : k + 4 < 0x60) :
    t.pair (planPg + k) = s.pair (planPg + k) := by
  unfold Chip.pair
  rw [h.regs k h1 (by omega), Nat.add_assoc, h.regs (k + 4) (by omega) h2]

/-- A chip other in registers outside the plans' alone. -/
theorem Chip.keepsPlan_setReg (s : Chip) {a : Nat} (w : Word) (h : a < planPg + 0x40 ∨ planPg + 0x60 ≤ a) : s.keepsPlan (s.setReg a w) :=
  ⟨rfl, fun _ _ _ => Chip.reg_setReg_ne _ _ (by omega)⟩

theorem Chip.keepsPlan_notice (s : Chip) (pg b : Nat) (h : pg = planPg ∨ pg = prPg) : s.keepsPlan (s.notice pg b) :=
  ⟨(Chip.reports_notice ..).plan, fun k _ _ => Chip.notice_reg _ _ _ (planPg_below (by omega))
    (by unfold planPg prPg at *; omega) (by unfold planPg prPg at *; omega)⟩

theorem Chip.keepsPlan_respond (s : Chip) (r : PktHdr) (st : Status) : s.keepsPlan (s.respond r st) := ⟨rfl, fun _ _ _ => rfl⟩

/-- R308: what a refusal says and shows. -/
theorem Chip.planRefuse_facts (s : Chip) (hd : PktHdr) {code : Nat} (h : code < 16) : (s.planRefuse hd code).plan = s.plan ∧
    (s.planRefuse hd code).out.getLast? = some (.packet ⟨s.respHd hd .noAccess, []⟩) ∧
    (s.planRefuse hd code).fld (planPg + 0x60) 3 0 = code ∧ (s.planRefuse hd code).planPending = s.planPending := by
  have hk : s.keepsPlan (s.planRefuse hd code) := ((s.keepsPlan_setReg (a := planPg + 0x60) _ (.inr (by omega))).trans
    (Chip.keepsPlan_notice _ _ _ (.inl rfl))).trans (Chip.keepsPlan_respond ..)
  refine ⟨hk.plan, Chip.respond_out .., ?_, hk.pending⟩
  refine (congrArg (Word.bits · 3 0) (Chip.notice_reg (s.setFld (planPg + 0x60) 3 0 code) planPg 0
    (planPg_below (k := 0x60) (by decide)) (by decide) (by decide))).trans ((Chip.fld_setFld _ _ _ (by decide)).trans ?_)
  omega

/-- R308: t is s after a request about plans refused with a code. -/
def Chip.refusesPlan (s : Chip) (hd : PktHdr) (code : Nat) (t : Chip) : Prop :=
  t.plan = s.plan ∧ t.out.getLast? = some (.packet ⟨s.respHd hd .noAccess, []⟩) ∧ t.fld (planPg + 0x60) 3 0 = code ∧
    t.planPending = s.planPending

theorem refuses_of {i : Instr} {code : Nat} (hcode : code < 16) (hexec : chipNext s i (s.sys.chip.planRefuse pkt.hdr code)) :
    ∃ t, chipNext s i t ∧ s.sys.chip.refusesPlan pkt.hdr code t := ⟨_, hexec, s.sys.chip.planRefuse_facts _ hcode⟩

/-! ## LOAD (R308) -/

/-- R308: a bank with the words of a LOAD at their places. -/
def loadWords (pay : List Byte) (first n : Nat) (m : KMap Nat) : KMap Nat :=
  (List.range n).foldl (fun m i => KMap.put m 0 (first + i) (payNat pay (16 + 8 * i) 8)) m

theorem at_loadWords (pay : List Byte) (first n : Nat) (m : KMap Nat) (k : Nat) : KMap.at (loadWords pay first n m) 0 k =
    if first ≤ k ∧ k < first + n then payNat pay (16 + 8 * (k - first)) 8 else KMap.at m 0 k := by
  induction n with
  | zero => rw [if_neg (by omega)]; rfl
  | succ n ih =>
    have hstep : loadWords pay first (n + 1) m = KMap.put (loadWords pay first n m) 0 (first + n) (payNat pay (16 + 8 * n) 8) := by
      unfold loadWords
      rw [List.range_succ, List.foldl_append]
      rfl
    rw [hstep]
    by_cases hk : k = first + n
    · rw [hk, at_put_self, if_pos (by omega), Nat.add_sub_cancel_left]
    · rw [at_put_ne _ _ (Ne.symm hk), ih]
      by_cases hin : first ≤ k ∧ k < first + n
      · rw [if_pos hin, if_pos (by omega)]
      · rw [if_neg hin, if_neg (by omega)]

/-- R308: the chip after a LOAD. -/
def Chip.loads (s : Chip) (hd : PktHdr) (m : KMap Nat) (pid top : Nat) : Chip :=
  let s := { s with plan.pend := m, plan.named := true }
  let s := s.setReg (planPg + 0x48) (BitVec.ofNat 32 pid)
  let s := s.setFld (planPg + 0x64) 30 16 (max (s.fld (planPg + 0x64) 30 16) top)
  s.respond hd .ok

theorem exec_planLoad_eq (hturn : s.sys.chip.standsBy = false) (ha : s.sys.chip.addressed = true)
    (hs : s.sys.chip.spoofed port pkt.hdr.srcHost = false) (hc : pkt.hdr.cls = 4) : chipNext s (.planLoad port pkt)
    (if s.sys.chip.planAuth pkt.hdr.srcHost = false then s.sys.chip.planRefuse pkt.hdr 1
      else if s.sys.chip.planPending then s.sys.chip.planRefuse pkt.hdr 7
      else if 16384 < payNat pkt.payload 8 2 + payNat pkt.payload 10 2 ∨ payNat pkt.payload 10 2 = 0 ∨ 1024 < payNat pkt.payload 10 2
        then s.sys.chip.planRefuse pkt.hdr 2
      else if s.sys.chip.plan.named ∧ (s.sys.chip.reg (planPg + 0x48)).toNat ≠ payNat pkt.payload 4 4 then s.sys.chip.planRefuse pkt.hdr 6
      else s.sys.chip.loads pkt.hdr (loadWords pkt.payload (payNat pkt.payload 8 2) (payNat pkt.payload 10 2) s.sys.chip.plan.pend)
        (payNat pkt.payload 4 4) (payNat pkt.payload 8 2 + payNat pkt.payload 10 2)) := by
  have hexec : exec (.planLoad port pkt) s = execPlanLoad port pkt s := (rfl)
  rw [chipNext, hexec, execPlanLoad, liftC]
  dsimp only
  rw [Chip.toTriad_passed (.inr hturn) ha hs hc]
  rfl

theorem Chip.loads_facts (s : Chip) (hd : PktHdr) (m : KMap Nat) (pid top : Nat) :
    (s.loads hd m pid top).out.getLast? = some (.packet ⟨s.respHd hd .ok, []⟩) ∧ (s.loads hd m pid top).plan.named = true ∧
    ((s.loads hd m pid top).reg (planPg + 0x48)).toNat = pid % 2 ^ 32 ∧ (s.loads hd m pid top).plan.cur = s.plan.cur ∧
    (s.loads hd m pid top).plan.pend = m := by
  refine ⟨Chip.respond_out .., rfl, ?_, rfl, rfl⟩
  have hreg : (s.loads hd m pid top).reg (planPg + 0x48) = BitVec.ofNat 32 pid :=
    (Chip.reg_setFld_ne _ _ _ _ (by decide)).trans (Chip.reg_setReg ..)
  rw [hreg, BitVec.toNat_ofNat]

/-! ## COMMIT (R235, R308, R309) -/

theorem Chip.keepsPlan_notices (s : Chip) (l : List Nat) : s.keepsPlan (forEach l (fun _ s => s.notice prPg 2) s) :=
  forEach_keeps (s.keepsPlan ·) (fun _ _ t ht => ht.trans (t.keepsPlan_notice _ _ (.inr rfl))) (.refl s)

/-- R235: the block slots of promises that a plan's reservations would take. -/
def Chip.keptBlocks (s : Chip) (take : Nat) (rs : List Nat) (org frame : Nat) : List (Nat × Nat × Nat) :=
  ((s.prom.ch.filter fun c => decide (take ≤ s.slotTick c.slot) &&
    (s.blockRec rs org frame c.n c.slot).isSome).map fun c => (org, c.n, c.slot)).eraseDups

/-- R235: the cells of promises in which entries of a plan do not fit, with the number of the entries and their flits. -/
def Chip.keptCells (s : Chip) (take : Nat) (rs : List Nat) (org frame : Nat) : List ((Nat × Nat) × Nat × Nat) :=
  let cells := ((s.prom.eg.filter fun e => decide (take ≤ 128 * e.cell) && e.port != 96).map
    fun e => (e.port, e.cell)).eraseDups
  let outs := cells.map fun c =>
    let used := ((s.prom.eg.filter fun x => x.port == c.1 && x.cell == c.2).map (·.amt)).sum
    (c, cellOut used ((cellRecs rs org frame c.1 (128 * c.2)).map recFlits))
  outs.filter fun o => o.2.1 != 0

/-- R235: what is kept out of a plan is listed and counted. -/
def Chip.listsOut (s : Chip) (bs : List (Nat × Nat × Nat)) (cs : List (Nat × Nat × Nat × Nat)) (k : Nat) : Chip :=
  let s := { s with
    plan.outBlocks := s.plan.outBlocks ++ bs
    plan.outCells := s.plan.outCells ++ cs }
  if k = 0 then s else forEach (List.range k) (fun _ s => s.notice prPg 2) (s.bumpBy (prPg + 0x54) k)

theorem Chip.enterPlan_some {s : Chip} {take : Nat} {rs : List Nat} {org frame : Nat} (h : s.planAt take = some (rs, org, frame)) :
    s.enterPlan take = s.listsOut (s.keptBlocks take rs org frame)
      ((s.keptCells take rs org frame).map fun o => (org, o.1.1, o.1.2, o.2.2))
      ((s.keptBlocks take rs org frame).length + ((s.keptCells take rs org frame).map (·.2.1)).sum) := by
  unfold Chip.enterPlan
  rw [h]
  rfl

theorem Chip.listsOut_facts (s : Chip) (bs : List (Nat × Nat × Nat)) (cs : List (Nat × Nat × Nat × Nat)) (k : Nat) :
    (s.listsOut bs cs k).plan = { s.plan with
      outBlocks := s.plan.outBlocks ++ bs
      outCells := s.plan.outCells ++ cs } ∧
    ∀ j, 0x40 ≤ j → j < 0x60 → (s.listsOut bs cs k).reg (planPg + j) = s.reg (planPg + j) := by
  unfold Chip.listsOut
  dsimp only
  split
  · exact ⟨rfl, fun _ _ _ => rfl⟩
  · generalize hw : ({ s with
      plan.outBlocks := s.plan.outBlocks ++ bs
      plan.outCells := s.plan.outCells ++ cs } : Chip) = w
    have hk := (w.keepsPlan_setReg (a := prPg + 0x54) (BitVec.ofNat 32 (min ((w.reg (prPg + 0x54)).toNat + k) 0xffffffff))
      (.inr (by decide))).trans (Chip.keepsPlan_notices _ (List.range k))
    refine ⟨hk.plan.trans (by rw [← hw]), fun j h1 h2 => (hk.regs j h1 h2).trans (by rw [← hw]; rfl)⟩

/-- R235: what a plan entered keeps out is listed with the plan; no promise, no entry kept out. -/
theorem Chip.enterPlan_adds (s : Chip) (take : Nat) : ∃ bs cs, (s.enterPlan take).plan = { s.plan with
      outBlocks := s.plan.outBlocks ++ bs
      outCells := s.plan.outCells ++ cs } ∧ (s.prom.ch = [] → bs = []) ∧ (s.prom.eg = [] → cs = []) ∧
    ∀ k, 0x40 ≤ k → k < 0x60 → (s.enterPlan take).reg (planPg + k) = s.reg (planPg + k) := by
  cases h : s.planAt take with
  | none =>
    have hnone : s.enterPlan take = s := by
      unfold Chip.enterPlan
      rw [h]
    rw [hnone]
    exact ⟨[], [], by simp, fun _ => rfl, fun _ => rfl, fun _ _ _ => rfl⟩
  | some p =>
    rw [Chip.enterPlan_some h]
    obtain ⟨hplan, hregs⟩ := s.listsOut_facts (s.keptBlocks take p.1 p.2.1 p.2.2)
      ((s.keptCells take p.1 p.2.1 p.2.2).map fun o => (p.2.1, o.1.1, o.1.2, o.2.2))
      ((s.keptBlocks take p.1 p.2.1 p.2.2).length + ((s.keptCells take p.1 p.2.1 p.2.2).map (·.2.1)).sum)
    refine ⟨_, _, hplan, fun hch => ?_, fun heg => ?_, hregs⟩
    · unfold Chip.keptBlocks
      rw [hch]
      rfl
    · unfold Chip.keptCells
      rw [heg]
      rfl

/-- R308, R309: the chip with a commit pending. -/
def Chip.commits (s : Chip) (frame take : Nat) : Chip :=
  let s := { s with plan.frame := frame }
  let s := s.setPair (planPg + 0x58) take
  s.setFlag (planPg + 0x40) 1 true

theorem Chip.commits_facts (s : Chip) (frame take : Nat) :
    (s.commits frame take).plan = { s.plan with frame := frame } ∧ (s.commits frame take).prom = s.prom ∧
    (s.commits frame take).planPending = true ∧ (s.commits frame take).pair (planPg + 0x58) = take % 2 ^ 64 := by
  refine ⟨rfl, rfl, Chip.flag_setFlag _ _ _ (by decide), ?_⟩
  refine Eq.trans ?_ (Chip.pair_setPair { s with plan.frame := frame } (planPg + 0x58) take)
  unfold Chip.commits Chip.pair
  dsimp only
  rw [Chip.reg_setFlag_ne _ _ _ (by decide), Chip.reg_setFlag_ne _ _ _ (by decide)]

/-- R308: TAKE comes 1 ms ahead and at the start of a frame of the plan in force, or of a cell. -/
def Chip.timely (s : Chip) (take : Nat) : Prop := s.now + 100000 ≤ take ∧ if s.planActive = true
  then s.pair (planPg + 0x50) ≤ take ∧ (take - s.pair (planPg + 0x50)) % (max (s.fld (planPg + 0x4C) 20 0) 1) = 0
  else take % 128 = 0

theorem Chip.not_timely (s : Chip) (take : Nat) : ¬ s.timely take ↔ (take < s.now + 100000 ∨
    (if s.planActive then take < s.pair (planPg + 0x50) ∨ (take - s.pair (planPg + 0x50)) % (max (s.fld (planPg + 0x4C) 20 0) 1) ≠ 0
      else take % 128 ≠ 0)) := by
  unfold Chip.timely
  rw [not_and_or]
  refine or_congr Nat.not_le ?_
  split
  · rw [not_and_or, Nat.not_le]
  · exact Iff.rfl

/-- R308: the pending bank is the one the request names. -/
def Chip.planNamed (s : Chip) (pid : Nat) : Prop := s.plan.named = true ∧ (s.reg (planPg + 0x48)).toNat = pid

theorem Chip.not_planNamed (s : Chip) (pid : Nat) :
    ¬ s.planNamed pid ↔ s.plan.named = false ∨ (s.reg (planPg + 0x48)).toNat ≠ pid := by
  unfold Chip.planNamed
  rw [not_and_or, Bool.not_eq_true]

/-- R308: FRAME of a COMMIT. -/
def planFrame (pay : List Byte) : Nat := payNat pay 8 2 + 65536 * (payNat pay 10 2 % 32)

section

variable (hturn : s.sys.chip.standsBy = false) (ha : s.sys.chip.addressed = true)
  (hs : s.sys.chip.spoofed port pkt.hdr.srcHost = false) (hc : pkt.hdr.cls = 4)

include hturn ha hs hc

theorem exec_planCommit_eq {frame take : Nat} (hframe : planFrame pkt.payload = frame) (htake : payNat pkt.payload 16 8 = take) :
    chipNext s (.planCommit port pkt)
    (if s.sys.chip.planAuth pkt.hdr.srcHost = false then s.sys.chip.planRefuse pkt.hdr 1
      else if s.sys.chip.planPending then s.sys.chip.planRefuse pkt.hdr 7
      else if s.sys.chip.plan.named = false ∨ (s.sys.chip.reg (planPg + 0x48)).toNat ≠ payNat pkt.payload 4 4
        then s.sys.chip.planRefuse pkt.hdr 6
      else if frame % 128 ≠ 0 ∨ frame < 4096 ∨ 1048576 < frame then s.sys.chip.planRefuse pkt.hdr 3
      else if take < s.sys.chip.now + 100000 ∨ (if s.sys.chip.planActive then take < s.sys.chip.pair (planPg + 0x50) ∨
          (take - s.sys.chip.pair (planPg + 0x50)) % (max (s.sys.chip.fld (planPg + 0x4C) 20 0) 1) ≠ 0 else take % 128 ≠ 0)
        then s.sys.chip.planRefuse pkt.hdr 4
      else match planList s.sys.chip.plan.pend 16384 0 with
        | none => s.sys.chip.planRefuse pkt.hdr 5
        | some l => if s.sys.chip.planOk frame l = false then s.sys.chip.planRefuse pkt.hdr 5
            else ((s.sys.chip.commits frame take).enterPlan take).respond pkt.hdr .ok) := by
  subst hframe htake
  have hexec : exec (.planCommit port pkt) s = execPlanCommit port pkt s := (rfl)
  rw [chipNext, hexec, execPlanCommit, liftC]
  dsimp only
  rw [Chip.toTriad_passed (.inr hturn) ha hs hc]
  rfl

/-- R308: a COMMIT is refused with the code of the first check that fails. -/
theorem planCommit_refused {take : Nat} (htake : payNat pkt.payload 16 8 = take)
    (hauth : s.sys.chip.planAuth pkt.hdr.srcHost = true) :
    (s.sys.chip.planPending = true → ∃ t, chipNext s (.planCommit port pkt) t ∧ s.sys.chip.refusesPlan pkt.hdr 7 t) ∧
    (s.sys.chip.planPending = false → ¬ s.sys.chip.planNamed (payNat pkt.payload 4 4) →
      ∃ t, chipNext s (.planCommit port pkt) t ∧ s.sys.chip.refusesPlan pkt.hdr 6 t) ∧
    (s.sys.chip.planPending = false → s.sys.chip.planNamed (payNat pkt.payload 4 4) →
      ((planFrame pkt.payload % 128 ≠ 0 ∨ planFrame pkt.payload < 4096 ∨ 1048576 < planFrame pkt.payload) → ∃ t, chipNext s (.planCommit port pkt) t ∧ s.sys.chip.refusesPlan pkt.hdr 3 t) ∧
      (¬ (planFrame pkt.payload % 128 ≠ 0 ∨ planFrame pkt.payload < 4096 ∨ 1048576 < planFrame pkt.payload) →
        (¬ s.sys.chip.timely take → ∃ t, chipNext s (.planCommit port pkt) t ∧ s.sys.chip.refusesPlan pkt.hdr 4 t) ∧
        (s.sys.chip.timely take →
          (∀ rs, planList s.sys.chip.plan.pend 16384 0 = some rs → s.sys.chip.planOk (planFrame pkt.payload) rs = false) →
          ∃ t, chipNext s (.planCommit port pkt) t ∧ s.sys.chip.refusesPlan pkt.hdr 5 t))) := by
  have hexec := exec_planCommit_eq hturn ha hs hc rfl htake
  rw [if_neg (ne_false_of_eq_true hauth)] at hexec
  by_cases hpend : s.sys.chip.planPending = true
  · rw [if_pos hpend] at hexec
    have hno : ∀ {q : Prop}, s.sys.chip.planPending = false → q := fun h => absurd (hpend.symm.trans h) (by decide)
    exact ⟨fun _ => refuses_of (by decide) hexec, hno, hno⟩
  rw [if_neg hpend] at hexec
  refine ⟨fun h => absurd h hpend, fun _ hn => ?_, fun _ hn => ?_⟩
  · rw [if_pos ((s.sys.chip.not_planNamed _).1 hn)] at hexec
    exact refuses_of (by decide) hexec
  rw [if_neg fun h => (s.sys.chip.not_planNamed _).2 h hn] at hexec
  refine ⟨fun hf => ?_, fun hf => ?_⟩
  · rw [if_pos hf] at hexec
    exact refuses_of (by decide) hexec
  rw [if_neg hf] at hexec
  refine ⟨fun ht => ?_, fun ht hbad => ?_⟩
  · rw [if_pos ((s.sys.chip.not_timely take).1 ht)] at hexec
    exact refuses_of (by decide) hexec
  rw [if_neg fun h => (s.sys.chip.not_timely take).2 h ht] at hexec
  cases hl : planList s.sys.chip.plan.pend 16384 0 with
  | none =>
    rw [hl] at hexec
    exact refuses_of (by decide) hexec
  | some rs =>
    rw [hl] at hexec
    dsimp only at hexec
    rw [if_pos (hbad rs hl)] at hexec
    exact refuses_of (by decide) hexec

/-- R308, R309: a COMMIT that passes its checks is pending. -/
theorem planCommit_pending {take : Nat} {rs : List Nat} (htake : payNat pkt.payload 16 8 = take)
    (hauth : s.sys.chip.planAuth pkt.hdr.srcHost = true) (hpend : s.sys.chip.planPending = false)
    (hn : s.sys.chip.planNamed (payNat pkt.payload 4 4)) (hf : ¬ (planFrame pkt.payload % 128 ≠ 0 ∨ planFrame pkt.payload < 4096 ∨ 1048576 < planFrame pkt.payload)) (ht : s.sys.chip.timely take)
    (hl : planList s.sys.chip.plan.pend 16384 0 = some rs) (hok : s.sys.chip.planOk (planFrame pkt.payload) rs = true) :
    ∃ t, chipNext s (.planCommit port pkt) t ∧ t.out.getLast? = some (.packet ⟨s.sys.chip.respHd pkt.hdr .ok, []⟩) ∧
      t.planPending = true ∧ t.pair (planPg + 0x58) = take % 2 ^ 64 ∧
      ∃ bs cs, t.plan = { s.sys.chip.plan with
        frame := planFrame pkt.payload
        outBlocks := s.sys.chip.plan.outBlocks ++ bs
        outCells := s.sys.chip.plan.outCells ++ cs } ∧ (s.sys.chip.prom.ch = [] → bs = []) ∧ (s.sys.chip.prom.eg = [] → cs = []) := by
  have hexec := exec_planCommit_eq hturn ha hs hc rfl htake
  rw [if_neg (ne_false_of_eq_true hauth), if_neg (ne_true_of_eq_false hpend),
    if_neg fun h => (s.sys.chip.not_planNamed _).2 h hn, if_neg hf, if_neg fun h => (s.sys.chip.not_timely take).2 h ht, hl] at hexec
  dsimp only at hexec
  rw [if_neg (ne_false_of_eq_true hok)] at hexec
  obtain ⟨hcplan, hcprom, hcpend, hcpair⟩ := s.sys.chip.commits_facts (planFrame pkt.payload) take
  generalize s.sys.chip.commits (planFrame pkt.payload) take = c at hexec hcplan hcprom hcpend hcpair
  obtain ⟨bs, cs, hplan, hbs, hcs, hregs⟩ := c.enterPlan_adds take
  generalize c.enterPlan take = e at hexec hplan hregs
  refine ⟨_, hexec, Chip.respond_out .., (congrArg (Word.bit · 1) (hregs 0x40 (by decide) (by decide))).trans hcpend, ?_,
    bs, cs, ?_, fun h => hbs (by rw [hcprom]; exact h), fun h => hcs (by rw [hcprom]; exact h)⟩
  · refine Eq.trans ?_ hcpair
    unfold Chip.pair
    rw [Chip.respond_reg, Chip.respond_reg, Nat.add_assoc, hregs 0x58 (by decide) (by decide), hregs (0x58 + 4) (by decide) (by decide)]
  · have : (e.respond pkt.hdr .ok).plan = e.plan := rfl
    rw [this, hplan, hcplan]

end

/-! ## ABORT and TAKE (R308, R309) -/

/-- R308: the chip without a pending bank. -/
def Chip.aborts (s : Chip) (hd : PktHdr) : Chip :=
  let s := { s with plan.pend := [], plan.named := false, plan.frame := 0 }
  let s := s.setFlag (planPg + 0x40) 1 false
  let s := (s.setReg (planPg + 0x48) 0).setFld (planPg + 0x64) 30 16 0
  s.respond hd .ok

theorem exec_planAbort_eq (hturn : s.sys.chip.standsBy = false) (ha : s.sys.chip.addressed = true)
    (hs : s.sys.chip.spoofed port pkt.hdr.srcHost = false) (hc : pkt.hdr.cls = 4) : chipNext s (.planAbort port pkt)
    (if s.sys.chip.planAuth pkt.hdr.srcHost = false then s.sys.chip.planRefuse pkt.hdr 1
      else (if s.sys.chip.planPending then s.sys.chip.forgetOuts fun o => o != s.sys.chip.pair (planPg + 0x58) else s.sys.chip).aborts pkt.hdr) := by
  have hexec : exec (.planAbort port pkt) s = execPlanAbort port pkt s := (rfl)
  rw [chipNext, hexec, execPlanAbort, liftC]
  dsimp only
  rw [Chip.toTriad_passed (.inr hturn) ha hs hc]
  rfl

theorem Chip.aborts_facts (s : Chip) (hd : PktHdr) : (s.aborts hd).out.getLast? = some (.packet ⟨s.respHd hd .ok, []⟩) ∧
    (s.aborts hd).planPending = false ∧ (s.aborts hd).plan = { s.plan with
      pend := []
      named := false
      frame := 0 } := by
  refine ⟨Chip.respond_out .., ?_, rfl⟩
  have hreg : ∀ z : Chip, ((z.setReg (planPg + 0x48) 0).setFld (planPg + 0x64) 30 16 0).flag (planPg + 0x40) 1 = z.flag (planPg + 0x40) 1 :=
    fun z => congrArg (Word.bit · 1) ((Chip.reg_setFld_ne _ _ _ _ (by decide)).trans (Chip.reg_setReg_ne _ _ (by decide)))
  exact (hreg _).trans (Chip.flag_setFlag _ _ _ (by decide))

theorem planAbort_facts (hturn : s.sys.chip.standsBy = false) (ha : s.sys.chip.addressed = true)
    (hs : s.sys.chip.spoofed port pkt.hdr.srcHost = false) (hc : pkt.hdr.cls = 4)
    (hauth : s.sys.chip.planAuth pkt.hdr.srcHost = true) :
    ∃ t, chipNext s (.planAbort port pkt) t ∧ t.out.getLast? = some (.packet ⟨s.sys.chip.respHd pkt.hdr .ok, []⟩) ∧ t.planPending = false ∧
      t.plan = { s.sys.chip.plan with
        pend := []
        named := false
        frame := 0
        outBlocks := s.sys.chip.plan.outBlocks.filter fun o => !s.sys.chip.planPending || o.1 != s.sys.chip.pair (planPg + 0x58)
        outCells := s.sys.chip.plan.outCells.filter fun o => !s.sys.chip.planPending || o.1 != s.sys.chip.pair (planPg + 0x58) } := by
  have hexec := exec_planAbort_eq hturn ha hs hc
  rw [if_neg (ne_false_of_eq_true hauth)] at hexec
  obtain ⟨h1, h2, h3⟩ := (if s.sys.chip.planPending then s.sys.chip.forgetOuts fun o => o != s.sys.chip.pair (planPg + 0x58)
    else s.sys.chip).aborts_facts pkt.hdr
  refine ⟨_, hexec, h1, h2, h3.trans ?_⟩
  cases s.sys.chip.planPending with
  | true => rfl
  | false =>
    simp only [Bool.false_eq_true, if_false, Bool.not_false, Bool.true_or, List.filter_true]

/-- R309: the banks at TAKE, and the name of the plan in force. -/
def Chip.takesBanks (s : Chip) (l : List Nat) (take : Nat) : Chip :=
  let s := s.forgetOuts fun o => o == take
  let s := { s with plan := { s.plan with cur := l, pend := [], named := false, frame := 0 } }
  s.setReg (planPg + 0x44) (s.reg (planPg + 0x48))

/-- R309: the chip at TAKE. -/
def Chip.takes (s : Chip) (l : List Nat) (frame take : Nat) : Chip :=
  let s := ((s.takesBanks l take).setReg (planPg + 0x48) 0).setFld (planPg + 0x4C) 20 0 frame
  let s := s.setPair (planPg + 0x50) take
  let s := s.setReg (planPg + 0x64) (BitVec.ofNat 32 (s.fld (planPg + 0x64) 30 16))
  s.setFld (planPg + 0x40) 2 0 (1 + 4 * (1 - s.fld (planPg + 0x40) 2 2))

theorem exec_planTake_eq (s : State) : chipNext s .planTake
    (if s.sys.chip.planPending ∧ s.sys.chip.pair (planPg + 0x58) ≤ s.sys.chip.now then
      (s.sys.chip.takes ((planList s.sys.chip.plan.pend 16384 0).getD []) s.sys.chip.plan.frame (s.sys.chip.pair (planPg + 0x58))).notice planPg 1
    else s.sys.chip) := rfl

theorem Chip.flag_setFld_within (s : Chip) (a : Nat) {hi lo n : Nat} (v : Nat) (hn : n < 32) (h : lo ≤ n ∧ n ≤ hi) :
    (s.setFld a hi lo v).flag a n = v.testBit (n - lo) := by
  unfold Chip.setFld Chip.flag
  rw [Chip.reg_setReg, Word.bit, getLsbD_setBits _ _ _ _ _ hn, if_pos (by omega)]

theorem Chip.takes_facts (s : Chip) (l : List Nat) (frame take : Nat) : (s.takes l frame take).plan.cur = l ∧
    (s.takes l frame take).plan.pend = [] ∧ (s.takes l frame take).planPending = false ∧ (s.takes l frame take).planActive = true ∧
    (s.takes l frame take).pair (planPg + 0x50) = take % 2 ^ 64 ∧ (s.takes l frame take).fld (planPg + 0x4C) 20 0 = frame % 2 ^ 21 := by
  refine ⟨rfl, rfl, ?_, ?_, ?_, ?_⟩
  · refine (Chip.flag_setFld_within _ _ _ (by decide) ⟨by decide, by decide⟩).trans ?_
    generalize Chip.fld _ _ 2 2 = x
    rcases Nat.eq_zero_or_pos x with rfl | hx
    · decide
    · rw [Nat.sub_eq_zero_of_le hx]
      decide
  · refine (Chip.flag_setFld_within _ _ _ (by decide) ⟨by decide, by decide⟩).trans ?_
    generalize Chip.fld _ _ 2 2 = x
    rcases Nat.eq_zero_or_pos x with rfl | hx
    · decide
    · rw [Nat.sub_eq_zero_of_le hx]
      decide
  · unfold Chip.takes Chip.pair
    dsimp only
    rw [Chip.reg_setFld_ne _ _ _ _ (by decide), Chip.reg_setFld_ne _ _ _ _ (by decide), Chip.reg_setReg_ne _ _ (by decide),
      Chip.reg_setReg_ne _ _ (by decide)]
    exact Chip.pair_setPair ..
  · refine Eq.trans ?_ (Chip.fld_setFld ((s.takesBanks l take).setReg (planPg + 0x48) 0) (planPg + 0x4C) (hi := 20) (lo := 0) frame (by decide))
    unfold Chip.takes Chip.fld
    dsimp only
    rw [Chip.reg_setFld_ne _ _ _ _ (by decide), Chip.reg_setReg_ne _ _ (by decide), Chip.setPair, Chip.reg_setReg_ne _ _ (by decide),
      Chip.reg_setReg_ne _ _ (by decide)]

theorem planTake_due (h : s.sys.chip.planPending = true) (hnow : s.sys.chip.pair (planPg + 0x58) ≤ s.sys.chip.now) :
    ∃ t, chipNext s .planTake t ∧ t.plan.cur = (planList s.sys.chip.plan.pend 16384 0).getD [] ∧ t.plan.pend = [] ∧
      t.planPending = false ∧ t.planActive = true ∧ t.pair (planPg + 0x50) = s.sys.chip.pair (planPg + 0x58) ∧
      t.fld (planPg + 0x4C) 20 0 = s.sys.chip.plan.frame % 2 ^ 21 := by
  have hexec := exec_planTake_eq s
  rw [if_pos ⟨h, hnow⟩] at hexec
  obtain ⟨h1, h2, h3, h4, h5, h6⟩ := s.sys.chip.takes_facts ((planList s.sys.chip.plan.pend 16384 0).getD []) s.sys.chip.plan.frame
    (s.sys.chip.pair (planPg + 0x58))
  generalize s.sys.chip.takes ((planList s.sys.chip.plan.pend 16384 0).getD []) s.sys.chip.plan.frame
    (s.sys.chip.pair (planPg + 0x58)) = w at hexec h1 h2 h3 h4 h5 h6
  have hk := w.keepsPlan_notice planPg 1 (.inl rfl)
  have hlt : s.sys.chip.pair (planPg + 0x58) < 2 ^ 64 := by
    have h1 : (s.sys.chip.reg (planPg + 0x58)).toNat < 2 ^ 32 := BitVec.isLt _
    have h2 : (s.sys.chip.reg (planPg + 0x58 + 4)).toNat < 2 ^ 32 := BitVec.isLt _
    unfold Chip.pair
    omega
  refine ⟨_, hexec, by rw [hk.plan, h1], by rw [hk.plan, h2], hk.pending.trans h3,
    (congrArg (Word.bit · 0) (hk.regs 0x40 (by decide) (by decide))).trans h4, ?_,
    (congrArg (Word.bits · 20 0) (hk.regs 0x4C (by decide) (by decide))).trans h6⟩
  rw [hk.pair (by decide) (by decide), h5, Nat.mod_eq_of_lt hlt]

theorem planTake_idle (h : s.sys.chip.planPending = false ∨ s.sys.chip.now < s.sys.chip.pair (planPg + 0x58)) :
    exec .planTake s = .next s := by
  have hexec := exec_planTake_eq s
  rw [if_neg fun hn => h.elim (ne_false_of_eq_true hn.1) (Nat.not_lt.2 hn.2)] at hexec
  exact chipNext_same hexec

end

/-- Settles O48: a time record by the choice of the parent, requests about plans check by check. -/
theorem timeAndPlans : Obligations.TimeAndPlans := by
  intro s l r port pkt y x h ofs x' gives passed first n pid take frame named timely said refuses
  refine ⟨timeExchange_ignored, fun hl hkeep => timeExchange_heard rfl hl rfl hkeep, fun hty hp => ?_, fun hp hturn => ?_,
    planTake_due, planTake_idle⟩
  · obtain ⟨ha, hs, hc⟩ := hp
    exact time_answered hty ha hs hc
  obtain ⟨ha, hs, hc⟩ := hp
  have hload := exec_planLoad_eq hturn ha hs hc
  have hdo : ∀ {i : Instr} {code : Nat}, (∃ t, chipNext s i t ∧ y.refusesPlan h code t) → refuses i code :=
    fun ⟨t, h0, h1, h2, h3, h4⟩ => ⟨t, h0, h1, h2, h3, h4⟩
  refine ⟨fun hauth => ⟨?_, ?_, ?_⟩, fun hauth => ?_⟩
  · rw [if_pos hauth] at hload
    exact hdo (refuses_of (by decide) hload)
  · have hexec := exec_planCommit_eq hturn ha hs hc rfl rfl
    rw [if_pos hauth] at hexec
    exact hdo (refuses_of (by decide) hexec)
  · have hexec := exec_planAbort_eq hturn ha hs hc
    rw [if_pos hauth] at hexec
    exact hdo (refuses_of (by decide) hexec)
  obtain ⟨hc7, hc6, hcrest⟩ := planCommit_refused hturn ha hs hc rfl hauth
  rw [if_neg (ne_false_of_eq_true hauth)] at hload
  refine ⟨fun hpend => ?_, fun hpend hbad => ?_, fun hpend h1 h2 h3 hn => ?_, fun hpend hn => hdo (hc6 hpend hn), fun hpend hn => ?_,
    planAbort_facts hturn ha hs hc hauth⟩
  · rw [if_pos hpend] at hload
    exact ⟨hdo (refuses_of (by decide) hload), hdo (hc7 hpend)⟩
  · rw [if_neg (ne_true_of_eq_false hpend), if_pos hbad] at hload
    exact hdo (refuses_of (by decide) hload)
  · rw [if_neg (ne_true_of_eq_false hpend), if_neg (by omega), if_neg (fun hm => hn.elim (ne_false_of_eq_true hm.1) fun hx => hm.2 hx.2)]
      at hload
    obtain ⟨g1, g2, g3, g4, g5⟩ := y.loads_facts h (loadWords pkt.payload first n y.plan.pend) pid (first + n)
    exact ⟨_, hload, g1, g2, g3, g4, fun k => by rw [g5]; exact at_loadWords ..⟩
  · obtain ⟨hc3, hc45⟩ := hcrest hpend hn
    refine ⟨fun hf => hdo (hc3 hf), fun f1 f2 f3 => ?_⟩
    have hf : ¬ (planFrame pkt.payload % 128 ≠ 0 ∨ planFrame pkt.payload < 4096 ∨ 1048576 < planFrame pkt.payload) := by
      rintro (hx | hx | hx)
      · exact hx f1
      · exact absurd f2 (Nat.not_le.2 hx)
      · exact absurd f3 (Nat.not_le.2 hx)
    obtain ⟨hc4, hc5⟩ := hc45 hf
    exact ⟨fun ht => hdo (hc4 ht), fun ht hb => hdo (hc5 ht hb), fun ht rs hl hok =>
      planCommit_pending hturn ha hs hc rfl hauth hpend hn hf ht hl hok⟩

end Sys2Proof.Machine

/-! PROOFS. A tick of the chip, shapers and gates: O2, O49 (R300, R324 to R330). -/


namespace Sys2Proof.Machine

-- One after the other: side by side the proofs ask for more memory than the check grants.
set_option Elab.async false

open Laws

/-! ## What it changes that waiting frames are tried again (R238, R339) -/

/-- Registers that frames leaving and clusters' events leave alone. -/
def tryQuiet (a : Nat) : Prop := belowPt a ∧ ∀ k, k = 0x10 ∨ k = 0x18 ∨ k = 0x60 ∨ k = 0x70 ∨ k = 0xAC ∨ k = 0xC8 →
  a ≠ enPg + k ∧ a ≠ gatePg true + k ∧ a ≠ rtPg + k

/-- t is s but for what the clusters' event queues and the ports pass on. -/
structure Chip.tries (s t : Chip) : Prop where
  rest : t = { s with
    free := t.free
    out := t.out
    regs := t.regs
    cls := t.cls
    accs := t.accs
    prom := t.prom
    dir := t.dir
    own := t.own
    eth := t.eth
    parts := { s.parts with pend := t.parts.pend, sealed := t.parts.sealed }
    errs := { s.errs with fq := t.errs.fq, nextSeq := t.errs.nextSeq, armed := t.errs.armed }
    chain := t.chain
    duo := t.duo
    held := t.held }
  tokens : t.duo.tokens = s.duo.tokens
  eth : t.eth = { s.eth with au := t.eth.au, cell := t.eth.cell, cellUsed := t.eth.cellUsed }
  regs : ∀ a, tryQuiet a → t.reg a = s.reg a

theorem Chip.tries.refl (s : Chip) : s.tries s := ⟨rfl, rfl, rfl, fun _ _ => rfl⟩

theorem Chip.tries.trans {s t u : Chip} (h : s.tries t) (h' : t.tries u) : s.tries u :=
  ⟨by rw [h'.rest, h.rest], h'.tokens.trans h.tokens, by rw [h'.eth, h.eth], fun a ha => (h'.regs a ha).trans (h.regs a ha)⟩

theorem Chip.tries.ite {s t u : Chip} {p : Prop} [Decidable p] (h : s.tries t) (h' : s.tries u) :
    s.tries (if p then t else u) := by
  split <;> assumption

theorem tries_forEach {α : Type} (l : List α) {f : α → Chip → Chip} (hf : ∀ a (s : Chip), s.tries (f a s)) (s : Chip) :
    s.tries (forEach l f s) :=
  forEach_keeps (s.tries ·) (fun a _ t ht => ht.trans (hf a t)) (.refl s)

theorem Chip.Reports.tries {s t : Chip} (h : s.Reports t) (hr : ∀ a, tryQuiet a → t.reg a = s.reg a) : s.tries t :=
  ⟨by rw [h.rest], by rw [h.rest], by rw [h.rest], hr⟩

/-- A count and its notice on a page of the ports. -/
theorem Chip.tries_counted (s : Chip) {pg k b : Nat} (hpg : pg = enPg ∨ pg = gatePg true ∨ pg = rtPg)
    (hk : k = 0x60 ∨ k = 0x70 ∨ k = 0xAC) : s.tries ((s.bump (pg + k)).notice pg b) :=
  ((s.reports_bump _).trans (Chip.reports_notice _ _ _)).tries fun a ⟨hb, hq⟩ => by
    obtain ⟨h1, h2, h3⟩ := hq 0x10 (.inl rfl)
    obtain ⟨g1, g2, g3⟩ := hq 0x18 (.inr (.inl rfl))
    obtain ⟨f1, f2, f3⟩ := hq k (by omega)
    rcases hpg with rfl | rfl | rfl
    · exact (Chip.notice_reg _ _ _ hb h1 g1).trans (Chip.reg_bump_ne _ (Ne.symm f1))
    · exact (Chip.notice_reg _ _ _ hb h2 g2).trans (Chip.reg_bump_ne _ (Ne.symm f2))
    · exact (Chip.notice_reg _ _ _ hb h3 g3).trans (Chip.reg_bump_ne _ (Ne.symm f3))

theorem Chip.tries.now {s t : Chip} (h : s.tries t) : t.now = s.now := by rw [h.rest]
theorem Chip.tries.paused {s t : Chip} (h : s.tries t) : t.eth.paused = s.eth.paused := by rw [h.eth]
theorem Chip.tries.ref {s t : Chip} (h : s.tries t) : t.ref = s.ref := by rw [h.rest]
theorem Chip.tries.ft {s t : Chip} (h : s.tries t) : t.ft = s.ft := by rw [h.rest]
theorem Chip.tries.gates {s t : Chip} (h : s.tries t) : t.gates = s.gates := by rw [h.rest]

theorem Chip.tries_emit (s : Chip) (o : Out) : s.tries (s.emit o) := ⟨rfl, rfl, rfl, fun _ _ => rfl⟩

theorem Chip.tries_wrapBy (s : Chip) (k : Nat) : s.tries (s.wrapBy (enPg + 0xC8) k) :=
  ⟨rfl, rfl, rfl, fun _ ⟨_, hq⟩ => Chip.reg_setReg_ne _ _ (Ne.symm (hq 0xC8 (by decide)).1)⟩

theorem Chip.tries_held (s : Chip) (l : List Held) : s.tries { s with held := l } := ⟨rfl, rfl, rfl, fun _ _ => rfl⟩

theorem Chip.tries_auditTick (s : Chip) (o : Out) : s.tries (s.auditTick o) := by
  unfold Chip.auditTick
  split
  · exact .ite ⟨rfl, rfl, rfl, fun _ _ => rfl⟩ (.refl s)
  · exact .refl s

theorem Chip.tries_enterOut (s : Chip) (o : Out) (cause due : Option Nat) : s.tries (s.enterOut o cause due) := by
  unfold Chip.enterOut
  split
  · exact .refl s
  · exact .ite ⟨rfl, rfl, rfl, fun _ _ => rfl⟩ ⟨rfl, rfl, rfl, fun _ _ => rfl⟩

theorem Chip.tries_ethLeave (s : Chip) (o : Out) (td : Option Nat) : s.tries (s.ethLeave o td) := by
  unfold Chip.ethLeave
  dsimp only
  generalize timeNow s.now o = o
  have h : s.tries (((s.auditTick o).wrapBy (enPg + 0xC8) 1).emit o) :=
    ((s.tries_auditTick o).trans (Chip.tries_wrapBy ..)).trans (Chip.tries_emit _ o)
  cases td with
  | some t => exact .ite (h.trans (Chip.tries_counted _ (.inl rfl) (.inr (.inr rfl)))) h
  | none => exact h.trans (Chip.tries_enterOut ..)

theorem Chip.tries_ethGo (s : Chip) (n : Nat) (o : Out) (td : Option Nat) (b : Bool) : s.tries (s.ethGo n o td b) := by
  have h : s.tries (if td.isSome then s else s.useEthRoom n) := .ite (.refl s) ⟨rfl, rfl, rfl, fun _ _ => rfl⟩
  have hover : ∀ s : Chip, s.tries (s.overrun true) := fun s => (s.tries_counted (.inr (.inl rfl)) (.inl rfl))
  unfold Chip.ethGo
  dsimp only
  exact (h.trans (.ite (hover _) (.refl _))).trans (Chip.tries_ethLeave ..)

theorem Chip.tries_ethOut (s : Chip) (p n : Nat) (o : Out) (td : Option Nat) : s.tries (s.ethOut p n o td) := by
  unfold Chip.ethOut
  dsimp only
  split
  · exact .ite (s.tries_held _) (s.tries_ethGo ..)
  · exact s.tries_held _

theorem Chip.tries_ethRetry (s : Chip) (l : List Held) : s.tries (s.ethRetry l) := by
  induction l generalizing s with
  | nil => exact .refl s
  | cons h l ih =>
    unfold Chip.ethRetry
    split
    · exact .ite (.refl s) (((s.tries_held _).trans (Chip.tries_ethGo ..)).trans (ih _))
    · exact ih s

theorem Chip.tries_dropReq (s : Chip) (id : Nat) : s.tries (s.dropReq id) := ⟨rfl, rfl, rfl, fun _ _ => rfl⟩

theorem Chip.tries_updTrk (s : Chip) (p : Trk → Bool) (f : Trk → Trk) : s.tries (s.updTrk p f) := ⟨rfl, rfl, rfl, fun _ _ => rfl⟩

theorem Chip.tries_setCl (s : Chip) (c : Nat) (x : Cl) : s.tries (s.setCl c x) := ⟨rfl, rfl, rfl, fun _ _ => rfl⟩

theorem Chip.tries_toHost (s : Chip) (h : Nat) (hd : PktHdr) (p : List Byte) : s.tries (s.toHost h hd p) := by
  unfold Chip.toHost
  dsimp only
  exact .ite (s.tries_emit _) (s.tries_counted (.inr (.inr rfl)) (.inr (.inl rfl)))

theorem Chip.tries_sendLate (s : Chip) : s.tries s.sendLate := by
  unfold Chip.sendLate
  refine tries_forEach _ (fun t s => ?_) s
  dsimp only
  exact (s.tries_updTrk ..).trans (tries_forEach _ (fun h s => s.tries_toHost ..) _)

theorem Chip.tries_reapReqs (s : Chip) : s.tries s.reapReqs := by
  unfold Chip.reapReqs
  split
  · exact .refl s
  · exact (tries_forEach _ (f := fun (r : Req) s => s.dropReq r.id) (fun r s => s.tries_dropReq r.id) s).trans (Chip.tries_sendLate _)

theorem Chip.tries_tryEth (s : Chip) : s.tries s.tryEth :=
  ((s.tries_ethRetry _).trans (Chip.tries_ethRetry _ _)).trans (Chip.tries_reapReqs _)

theorem Chip.tries_evDrain (s : Chip) (c : Nat) : s.tries (s.evDrain c) := by
  unfold Chip.evDrain
  dsimp only
  split
  · exact .refl s
  · refine .ite (.refl s) ?_
    exact (s.tries_setCl ..).trans ((Chip.reports_raise _ _ _ _ _ _ _ _).tries fun _ ha => Chip.raise_reg _ _ _ _ _ _ _ _ ha.1)

theorem Chip.tries_evDrains (s : Chip) : s.tries s.evDrains := tries_forEach _ (fun c s => s.tries_evDrain c) s

/-! ## A tick (R300) -/

/-- R300: without tokens of the peer a tick moves time alone. -/
theorem Chip.tick_time {s : Chip} (h : s.duo.tokens = []) :
    s.tick.now = s.tickTime.now ∧ s.tick.ref = s.tickTime.ref ∧ s.tick.ft = s.tickTime.ft := by
  have hall := s.tickTime.tries_evDrains.trans (Chip.tries_tryEth _)
  have htok : s.tickTime.evDrains.tryEth.duo.tokens = [] := hall.tokens.trans h
  unfold Chip.tick
  dsimp only
  rw [if_pos (by rw [htok]; rfl)]
  exact ⟨hall.now, hall.ref, hall.ft⟩

theorem Chip.tickTime_plain {s : Chip} (h : s.slew = 0) :
    s.tickTime.now = s.now + 1 ∧ s.tickTime.ref = s.ref + 1 ∧ s.tickTime.ft.debt = s.ft.debt := by
  unfold Chip.tickTime
  rw [h]
  exact ⟨rfl, rfl, Int.sub_zero _⟩

theorem Chip.tickTime_adds {s : Chip} (h : s.slew = 1) :
    s.tickTime.now = s.now + 1 ∧ s.tickTime.ref = s.ref ∧ s.tickTime.ft.debt = s.ft.debt - 16 := by
  unfold Chip.tickTime
  rw [h]
  exact ⟨rfl, rfl, rfl⟩

theorem Chip.tickTime_omits {s : Chip} (h : s.slew = -1) :
    s.tickTime.now = s.now ∧ s.tickTime.ref = s.ref + 1 ∧ s.tickTime.ft.debt = s.ft.debt + 16 := by
  unfold Chip.tickTime
  rw [h]
  exact ⟨rfl, rfl, by dsimp only; omega⟩

/-- Settles O2: a tick is the time's, and what the ports then pass on moves no time. -/
theorem idleTick : Obligations.IdleTick := by
  intro y
  have hstep : step ⟨[], y⟩ = .next ⟨[], onChip Chip.tick y⟩ := rfl
  refine ⟨_, hstep, rfl, fun hdebt htok => ?_, fun hdebt hat htok => ⟨fun hpos => ?_, fun hneg => ?_⟩⟩
  · obtain ⟨h1, h2, h3⟩ := Chip.tick_time htok
    have hslew : y.chip.slew = 0 := if_pos (.inl hdebt)
    obtain ⟨g1, g2, g3⟩ := Chip.tickTime_plain hslew
    exact ⟨h1.trans g1, h2.trans g2, (congrArg (·.debt) h3).trans g3⟩
  · obtain ⟨h1, h2, h3⟩ := Chip.tick_time htok
    have hslew : y.chip.slew = 1 := (if_neg (by omega)).trans (if_pos hpos)
    obtain ⟨g1, g2, g3⟩ := Chip.tickTime_adds hslew
    exact ⟨h1.trans g1, h2.trans g2, (congrArg (·.debt) h3).trans g3⟩
  · obtain ⟨h1, h2, h3⟩ := Chip.tick_time htok
    have hslew : y.chip.slew = -1 := (if_neg (by omega)).trans (if_neg (by omega))
    obtain ⟨g1, g2, g3⟩ := Chip.tickTime_omits hslew
    exact ⟨h1.trans g1, h2.trans g2, (congrArg (·.debt) h3).trans g3⟩

/-! ## The wheel of a port (R324 to R326) -/

@[simp] theorem Chip.shaper_setShaper (s : Chip) (port p : Nat) (x : Shaper) : (s.setShaper port p x).shaper port p = x :=
  at_put_self ..

theorem Chip.shaper_setShaper_ne (s : Chip) {port p port' p' : Nat} (x : Shaper) (h : 64 * port' + p' ≠ 64 * port + p) :
    (s.setShaper port p x).shaper port' p' = s.shaper port' p' := at_put_ne _ _ (Ne.symm h)

/-- R325, R326: neither an entry nor a configuration is due for partition p at slot k. -/
def Chip.quietPart (s : Chip) (port k p : Nat) : Prop :=
  (∀ e, (s.shaper port p).entry = some e → k < e) ∧ (∀ c, (s.shaper port p).cfgDue = some c → k < c.1)

theorem Chip.wheelPart_quiet {s : Chip} {port k p : Nat} (h : s.quietPart port k p) : s.wheelPart port p k = s := by
  obtain ⟨hentry, hcfg⟩ := h
  unfold Chip.wheelPart
  dsimp only
  cases he : (s.shaper port p).entry with
  | none => cases hc : (s.shaper port p).cfgDue with
    | none => rfl
    | some c => exact if_neg (Nat.not_le.2 (hcfg c hc))
  | some e =>
    dsimp only
    rw [if_neg (Nat.not_le.2 (hentry e he))]
    cases hc : (s.shaper port p).cfgDue with
    | none => rfl
    | some c => exact if_neg (Nat.not_le.2 (hcfg c hc))

theorem Chip.wheelPart_due {s : Chip} {port p k e : Nat} (he : (s.shaper port p).entry = some e) (hk : e ≤ k)
    (hc : (s.shaper port p).cfgDue = none) : s.wheelPart port p k = Chip.examine port p k (s.waiting port p) s := by
  unfold Chip.wheelPart
  dsimp only
  rw [he, hc]
  exact if_pos hk

/-- A wheel slot of a port. -/
def Chip.wheelParts (s : Chip) (port : Nat) (l : List Nat) : Chip := forEach l (fun p s => s.wheelPart port p (s.now / 8)) s

theorem Chip.wheelParts_quiet {s : Chip} {port : Nat} {l : List Nat} (h : ∀ p ∈ l, s.quietPart port (s.now / 8) p) :
    s.wheelParts port l = s :=
  forEach_keeps (· = s) (fun p hp t ht => by subst ht; exact Chip.wheelPart_quiet (h p hp)) rfl

/-- Where one partition alone has something due, the slot is its part. -/
theorem Chip.wheelParts_one {s t : Chip} {port p : Nat} (hp : p < 64) (hs : ∀ q < 64, q ≠ p → s.quietPart port (s.now / 8) q)
    (hpart : s.wheelPart port p (s.now / 8) = t) (hnow : t.now = s.now)
    (hothers : ∀ q < 64, q ≠ p → t.shaper port q = s.shaper port q) : s.wheelParts port (List.range 64) = t := by
  obtain ⟨l, l', hl⟩ := List.append_of_mem (List.mem_range.2 hp)
  have hnodup : (l ++ p :: l').Nodup := hl ▸ List.nodup_range
  have hin : ∀ q, q ∈ l ++ p :: l' → q < 64 := fun q hq => List.mem_range.1 (hl ▸ hq)
  have hp' : p ∉ l ++ l' := (List.nodup_cons.1 (List.nodup_middle.1 hnodup)).1
  have hl1 : s.wheelParts port l = s := Chip.wheelParts_quiet fun q hq =>
    hs q (hin q (List.mem_append_left _ hq)) fun e => hp' (e ▸ List.mem_append_left _ hq)
  have hl2 : t.wheelParts port l' = t := Chip.wheelParts_quiet fun q hq => by
    have hq64 : q < 64 := hin q (List.mem_append_right _ (List.mem_cons_of_mem _ hq))
    have hqp : q ≠ p := fun e => hp' (e ▸ List.mem_append_right _ hq)
    unfold Chip.quietPart
    rw [hothers q hq64 hqp, hnow]
    exact hs q hq64 hqp
  rw [hl]
  calc s.wheelParts port (l ++ p :: l') = ((s.wheelParts port l).wheelPart port p ((s.wheelParts port l).now / 8)).wheelParts port l' :=
        forEach_append l (p :: l') _ s
    _ = t := by rw [hl1, hpart, hl2]

theorem exec_wheelSlot_eq (s : State) (port : Nat) :
    chipNext s (.wheelSlot port) (s.sys.chip.wheelParts port (List.range 64)).reapReqs := rfl

/-- R324: a packet released by its shaper, the partition's only one. -/
def Chip.releases (s : Chip) (port p k : Nat) (h : Held) : Chip :=
  let x := { s.shaper port p with
    tok := tokAt (s.shaper port p) k - 1000 * ((shapedLen h + (s.shaper port p).ovh : Nat) : Int)
    slot := k }
  ({ s.setShaper port p x with held := s.held.erase h }.emit h.what).setShaper port p { x with entry := none }

/-- R325: a head that may not leave is entered for the slot in which it may. -/
def Chip.reenters (s : Chip) (port p k : Nat) : Chip :=
  s.setShaper port p { s.shaper port p with
    tok := tokAt (s.shaper port p) k
    slot := k
    entry := some (k + min (ceilDiv (-(tokAt (s.shaper port p) k)).toNat (max (s.shaper port p).rate 1)) 4095)
    count := min ((s.shaper port p).count + 1) 0xFFFFFFFF }

theorem Chip.shaper_emit_held (s : Chip) (port p : Nat) (x : Shaper) (l : List Held) (o : Out) :
    (Chip.emit { s.setShaper port p x with held := l } o).shaper port p = x := at_put_self ..

theorem Chip.examine_releases {s : Chip} {port p k : Nat} {h : Held} (hport : h.port ≠ 96) (ht : 0 ≤ tokAt (s.shaper port p) k) :
    Chip.examine port p k [h] s = s.releases port p k h := by
  unfold Chip.examine
  dsimp only
  rw [if_pos ht]
  unfold Chip.examine Chip.joinQueue
  rw [if_neg hport]
  rw [Chip.shaper_emit_held]
  rfl

theorem Chip.examine_reenters {s : Chip} {port p k : Nat} {h : Held} (ht : tokAt (s.shaper port p) k < 0) :
    Chip.examine port p k [h] s = s.reenters port p k := by
  unfold Chip.examine
  exact if_neg (Int.not_le.2 ht)

section

variable {s : State} {port p : Nat}

theorem wheelSlot_quiet (h : ∀ p < 64, s.sys.chip.quietPart port (s.sys.chip.now / 8) p) :
    chipNext s (.wheelSlot port) s.sys.chip.reapReqs := by
  have hexec := exec_wheelSlot_eq s port
  rwa [Chip.wheelParts_quiet fun p hp => h p (List.mem_range.1 hp)] at hexec

/-- R324, R325: the slot of a partition alone whose entry is due. -/
theorem wheelSlot_due {e : Nat} {t : Chip} (hp : p < 64) (hs : ∀ q < 64, q ≠ p → s.sys.chip.quietPart port (s.sys.chip.now / 8) q)
    (hc : (s.sys.chip.shaper port p).cfgDue = none) (he : (s.sys.chip.shaper port p).entry = some e) (hk : e ≤ s.sys.chip.now / 8)
    (ht : Chip.examine port p (s.sys.chip.now / 8) (s.sys.chip.waiting port p) s.sys.chip = t) (hnow : t.now = s.sys.chip.now)
    (hothers : ∀ q < 64, q ≠ p → t.shaper port q = s.sys.chip.shaper port q) : chipNext s (.wheelSlot port) t.reapReqs := by
  have hexec := exec_wheelSlot_eq s port
  rwa [Chip.wheelParts_one hp hs ((Chip.wheelPart_due he hk hc).trans ht) hnow hothers] at hexec

theorem waiting_port {y : Chip} {h : Held} (hw : y.waiting port p = [h]) : h.port = port := by
  have hin : h ∈ y.waiting port p := by rw [hw]; exact List.mem_singleton.2 rfl
  have := (List.mem_filter.1 hin).2
  simp only [Bool.and_eq_true, beq_iff_eq] at this
  exact this.1.2

end

/-! ## Configuration writes (R326, R331) -/

/-- R326: a configuration write waits for its slot at a port. -/
def Chip.awaitsCfg (s : Chip) (p : Nat) (v r b : Word) (port : Nat) : Chip :=
  s.setShaper port p { s.shaper port p with cfgDue := some (s.now / 8 + 1, v, r, b) }

theorem Chip.awaitsCfg_others (s : Chip) (p : Nat) (v r b : Word) (l : List Nat) :
    (forEach l (fun port s => s.awaitsCfg p v r b port) s).now = s.now ∧
    (forEach l (fun port s => s.awaitsCfg p v r b port) s).shpStage = s.shpStage ∧
    (forEach l (fun port s => s.awaitsCfg p v r b port) s).regs = s.regs ∧
    (forEach l (fun port s => s.awaitsCfg p v r b port) s).held = s.held ∧
    (forEach l (fun port s => s.awaitsCfg p v r b port) s).out = s.out :=
  forEach_keeps (f := fun port s => s.awaitsCfg p v r b port) (fun t => t.now = s.now ∧ t.shpStage = s.shpStage ∧ t.regs = s.regs ∧ t.held = s.held ∧ t.out = s.out)
    (fun _ _ _ ht => ht) ⟨rfl, rfl, rfl, rfl, rfl⟩

theorem Chip.awaitsCfg_shaper (s : Chip) (p : Nat) (v r b : Word) (l : List Nat) (d : Nat) :
    (forEach l (fun port s => s.awaitsCfg p v r b port) s).shaper d p =
      if d ∈ l then { s.shaper d p with cfgDue := some (s.now / 8 + 1, v, r, b) } else s.shaper d p := by
  induction l generalizing s with
  | nil => rfl
  | cons a l ih =>
    have hnow : (s.awaitsCfg p v r b a).now = s.now := rfl
    rw [forEach_cons, ih, hnow]
    by_cases hd : d = a
    · subst hd
      have hself : (s.awaitsCfg p v r b d).shaper d p = { s.shaper d p with cfgDue := some (s.now / 8 + 1, v, r, b) } :=
        Chip.shaper_setShaper ..
      rw [hself, if_pos List.mem_cons_self]
      split <;> rfl
    · have hother : (s.awaitsCfg p v r b a).shaper d p = s.shaper d p := Chip.shaper_setShaper_ne _ _ (by omega)
      rw [hother]
      refine if_congr ?_ rfl rfl
      simp [hd]

theorem exec_shpCfg_eq (s : State) (eth : Bool) (v : Word) {sel : Nat} (hsel : s.sys.chip.fld (shpPg eth + 0x40) 5 0 = sel) :
    chipNext s (.shpCfg eth v) (forEach (shpPorts eth) (fun port u => u.awaitsCfg sel v
      ((s.sys.chip.shpWords eth sel).getD 1 0) ((s.sys.chip.shpWords eth sel).getD 2 0) port)
      (s.sys.chip.setShpWords eth sel (v :: (s.sys.chip.shpWords eth sel).drop 1))) := by
  subst hsel
  rfl

theorem shpCfg_facts (s : State) (eth : Bool) (v : Word) {sel : Nat} (hsel : s.sys.chip.fld (shpPg eth + 0x40) 5 0 = sel) :
    ∃ t, chipNext s (.shpCfg eth v) t ∧ (∀ d ∈ shpPorts eth, t.shaper d sel = { s.sys.chip.shaper d sel with
        cfgDue := some (s.sys.chip.now / 8 + 1, v, (s.sys.chip.shpWords eth sel).getD 1 0, (s.sys.chip.shpWords eth sel).getD 2 0) }) ∧
      t.shpWords eth sel = v :: (s.sys.chip.shpWords eth sel).drop 1 ∧ t.regs = s.sys.chip.regs ∧ t.held = s.sys.chip.held ∧
      t.out = s.sys.chip.out := by
  have hexec := exec_shpCfg_eq s eth v hsel
  generalize (s.sys.chip.shpWords eth sel).getD 1 0 = r at hexec ⊢
  generalize (s.sys.chip.shpWords eth sel).getD 2 0 = b at hexec ⊢
  generalize v :: (s.sys.chip.shpWords eth sel).drop 1 = ws at hexec ⊢
  obtain ⟨-, hstage, hregs, hheld, hout⟩ := (s.sys.chip.setShpWords eth sel ws).awaitsCfg_others sel v r b (shpPorts eth)
  refine ⟨_, hexec, fun d hd => ?_, ?_, hregs, hheld, hout⟩
  · rw [Chip.awaitsCfg_shaper, if_pos hd]
    rfl
  · unfold Chip.shpWords
    rw [hstage]
    exact at_put_self ..

/-! ## Gate lists (R328 to R330) -/

@[simp] theorem Chip.gate_setGate (s : Chip) (i : Nat) (g : Gate) : (s.setGate i g).gate i = g := at_put_self ..

theorem Chip.gate_setGate_ne (s : Chip) {i j : Nat} (g : Gate) (h : j ≠ i) : (s.setGate i g).gate j = s.gate j := at_put_ne _ _ (Ne.symm h)

theorem Chip.gate_congr {s t : Chip} (h : t.gates = s.gates) (i : Nat) : t.gate i = s.gate i :=
  congrArg (fun m : KMap Gate => KMap.at m {} i) h

theorem exec_gateCommit_eq (s : State) (eth : Bool) {i : Nat} {g : Gate} (hi : s.sys.chip.gateSel eth = i) (hg : s.sys.chip.gate i = g) :
    chipNext s (.gateCommit eth) (if commitErr g s.sys.chip.now = 0
      then s.sys.chip.setGate i { g with pend := some (committed g, g.take) }
      else (s.sys.chip.setGate i { g with err := commitErr g s.sys.chip.now }).notice (gatePg eth) 0) := by
  subst hi hg
  rfl

theorem exec_gateTakeover_some (s : State) {eth : Bool} {list j : Nat} (hj : listNo eth list = some j) {o : GateOper} {a : Nat}
    (hp : (s.sys.chip.gate j).pend = some (o, a)) : chipNext s (.gateTakeover eth list)
      (if a ≤ s.sys.chip.now then ((s.sys.chip.setGate j { s.sys.chip.gate j with
        oper := some o
        cur := 0
        pend := none }).notice (gatePg eth) 2).tryEth else s.sys.chip) := by
  have hexec : exec (.gateTakeover eth list) s = execGateTakeover eth list s := (rfl)
  rw [chipNext, hexec, execGateTakeover, liftC]
  dsimp only
  rw [hj]
  dsimp only
  rw [hp]

theorem exec_gateEntryChange_some (s : State) {eth : Bool} {list j : Nat} (hj : listNo eth list = some j) {o : GateOper}
    (ho : (s.sys.chip.gate j).oper = some o) : chipNext s (.gateEntryChange eth list)
      (s.sys.chip.setGate j { s.sys.chip.gate j with
        cur := pieceAt (gatePieces o.entries o.cycle) (gateOffset o s.sys.chip.now) }).tryEth := by
  have hexec : exec (.gateEntryChange eth list) s = execGateEntryChange eth list s := (rfl)
  rw [chipNext, hexec, execGateEntryChange, liftC]
  dsimp only
  rw [hj]
  dsimp only
  rw [ho]

/-- Settles O49: a wheel slot by the one partition that has something due, a gate list by its commands. -/
theorem shapersAndGates : Obligations.ShapersAndGates := by
  intro s port p eth v list y k sh gives quietPart i g
  refine ⟨fun hq => wheelSlot_quiet hq, fun hp hport hothers hcfg e h he hk hw => ⟨fun htok => ?_, fun htok => ?_⟩,
    shpCfg_facts s eth v rfl, fun herr => ?_, fun herr => ?_, rfl, fun j o a hj hp => ⟨fun ha => ?_, fun ha => ?_⟩,
    fun j o hj ho => ?_⟩
  · have hex : Chip.examine port p k (y.waiting port p) y = y.releases port p k h := by
      rw [hw]
      exact Chip.examine_releases (by rw [waiting_port hw]; omega) htok
    have hne : ∀ q < 64, q ≠ p → (y.releases port p k h).shaper port q = y.shaper port q := fun q hq hqp =>
      (Chip.shaper_setShaper_ne _ _ (by omega)).trans (Chip.shaper_setShaper_ne _ _ (by omega))
    exact ⟨_, wheelSlot_due hp hothers hcfg he hk hex rfl hne, rfl, rfl, Chip.shaper_setShaper ..⟩
  · have hex : Chip.examine port p k (y.waiting port p) y = y.reenters port p k := by
      rw [hw]
      exact Chip.examine_reenters htok
    exact wheelSlot_due hp hothers hcfg he hk hex rfl fun q hq hqp => Chip.shaper_setShaper_ne _ _ (by omega)
  · have hexec := exec_gateCommit_eq s eth (i := i) (g := g) rfl rfl
    rwa [if_pos herr] at hexec
  · have hexec := exec_gateCommit_eq s eth (i := i) (g := g) rfl rfl
    rw [if_neg herr] at hexec
    have hgates := (Chip.reports_notice (y.setGate i { g with err := commitErr g y.now }) (gatePg eth) 0).gates
    exact ⟨_, hexec, (Chip.gate_congr hgates i).trans (Chip.gate_setGate ..),
      fun j hj => (Chip.gate_congr hgates j).trans (Chip.gate_setGate_ne _ _ hj)⟩
  · have hexec := exec_gateTakeover_some s hj hp
    rw [if_pos ha] at hexec
    exact ⟨_, hexec, (Chip.gate_congr (((Chip.tries_tryEth _).gates).trans (Chip.reports_notice ..).gates) j).trans (Chip.gate_setGate ..)⟩
  · have hexec := exec_gateTakeover_some s hj hp
    rw [if_neg (Nat.not_le.2 ha)] at hexec
    exact chipNext_same hexec
  · exact ⟨_, exec_gateEntryChange_some s hj ho, (Chip.gate_congr (Chip.tries_tryEth _).gates j).trans (Chip.gate_setGate ..)⟩

end Sys2Proof.Machine

/-! PROOFS. Frames at the Ethernet port: O50 (R334 to R349, R361). -/


namespace Sys2Proof.Machine

-- One after the other: side by side the proofs ask for more memory than the check grants.
set_option Elab.async false

open Laws

/-! ## A frame is counted (R336, R364) -/

/-- R364: the chip with a received frame counted. -/
def Chip.framed (s : Chip) : Chip := s.wrapBy (enPg + 0xC4) 1

theorem Chip.framed_reg (s : Chip) {a : Nat} (h : a ≠ enPg + 0xC4) : s.framed.reg a = s.reg a := Chip.reg_setReg_ne _ _ (Ne.symm h)

theorem Chip.framed_count (s : Chip) : (s.framed.reg (enPg + 0xC4)).toNat = ((s.reg (enPg + 0xC4)).toNat + 1) % 2 ^ 32 := by
  unfold Chip.framed Chip.wrapBy
  rw [Chip.reg_setReg, BitVec.toNat_ofNat]

theorem Chip.framed_flag (s : Chip) {a : Nat} (h : a ≠ enPg + 0xC4) (n : Nat) : s.framed.flag a n = s.flag a n :=
  congrArg (Word.bit · n) (s.framed_reg h)

theorem Chip.framed_fld (s : Chip) {a : Nat} (h : a ≠ enPg + 0xC4) (hi lo : Nat) : s.framed.fld a hi lo = s.fld a hi lo :=
  congrArg (Word.bits · hi lo) (s.framed_reg h)

theorem Chip.framed_bad (s : Chip) (f : EthFrame) : s.framed.frameBad f = s.frameBad f := by
  have hip : ∀ b n, s.framed.ownIp b n = s.ownIp b n := fun b n => by
    unfold Chip.ownIp Chip.pair
    simp only [List.any_cons, List.any_nil]
    simp (disch := decide) only [Chip.framed_reg]
  unfold Chip.frameBad Chip.notOurs
  rw [s.framed_flag (by decide), hip]

theorem frameBad_row {s : Chip} {f : EthFrame} {r : Nat} (h : s.frameBad f = some r) : r = 0x88 ∨ r = 0x8C ∨ r = 0x90 := by
  unfold Chip.frameBad at h
  generalize (if s.flag (enPg + 0x40) 2 then 9216 else 1522) = most at h
  split at h
  · exact .inl (Option.some.inj h).symm
  · split at h
    · exact .inr (.inl (Option.some.inj h).symm)
    · split at h
      · exact .inr (.inr (Option.some.inj h).symm)
      · split at h
        · exact .inl (Option.some.inj h).symm
        · exact absurd h (by simp)

section

variable {s : State} {f : EthFrame} {r : Nat}

/-- R338: a bad frame is counted, and counted once more in the first row that applies. -/
theorem frame_drops {i : Instr} (hexec : chipNext s i (s.sys.chip.framed.bump (enPg + r))) (hbad : s.sys.chip.frameBad f = some r) :
    ∃ t, chipNext s i t ∧ s.sys.onlyRegs { s.sys with chip := t } [enPg + 0xC4, enPg + r] ∧
      (t.reg (enPg + 0xC4)).toNat = ((s.sys.chip.reg (enPg + 0xC4)).toNat + 1) % 2 ^ 32 ∧
      (t.reg (enPg + r)).toNat = min ((s.sys.chip.reg (enPg + r)).toNat + 1) 0xffffffff := by
  have hr : r ≠ 0xC4 := by
    rcases frameBad_row hbad with rfl | rfl | rfl <;> decide
  refine ⟨_, hexec, ⟨rfl, fun a ha => ?_⟩, ?_, ?_⟩
  · simp only [List.mem_cons, List.not_mem_nil, or_false, not_or] at ha
    exact (Chip.reg_bump_ne _ (Ne.symm ha.2)).trans (s.sys.chip.framed_reg ha.1)
  · rw [Chip.reg_bump_ne _ (by omega), Chip.framed_count]
  · rw [Chip.bump, Chip.reg_bumpBy, Chip.framed_reg _ (by omega)]

/-! ## What the port does with a frame -/

theorem frame_ignored (h : s.sys.chip.ethUp = false) (sync : Option (Nat × Nat × Nat)) :
    exec (.frameReceive f) s = .next s ∧ exec (.firmwareFrame f sync) s = .next s ∧ exec (.discover f) s = .next s ∧
      exec (.pfcFrame f) s = .next s := by
  have h1 : exec (.frameReceive f) s = execFrameReceive f s := (rfl)
  have h2 : exec (.firmwareFrame f sync) s = execFirmwareFrame f sync s := (rfl)
  have h3 : exec (.discover f) s = execDiscover f s := (rfl)
  have h4 : exec (.pfcFrame f) s = execPfcFrame f s := (rfl)
  rw [h1, h2, h3, h4, execFrameReceive, execFirmwareFrame, execDiscover, execPfcFrame]
  unfold liftC
  dsimp only
  rw [if_pos (.inl h), if_pos (.inl h), if_pos (.inl h), if_pos (.inl h)]
  exact ⟨rfl, rfl, rfl, rfl⟩

theorem frameReceive_bad (hup : s.sys.chip.ethUp = true) (hbad : s.sys.chip.frameBad f = some r) (hk : f.kind = .udp ∨ f.kind = .other) :
    chipNext s (.frameReceive f) (s.sys.chip.framed.bump (enPg + r)) := by
  have hexec : exec (.frameReceive f) s = execFrameReceive f s := (rfl)
  rw [chipNext, hexec, execFrameReceive, liftC]
  dsimp only
  rw [if_neg (by rcases hk with h | h <;> simp [hup, h]), if_neg (by rcases hk with h | h <;> simp [h]), ← Chip.framed, Chip.framed_bad, hbad]

theorem firmwareFrame_bad (hup : s.sys.chip.ethUp = true) (hbad : s.sys.chip.frameBad f = some r) (hk : f.kind = .toFirmware) :
    chipNext s (.firmwareFrame f none) (s.sys.chip.framed.bump (enPg + r)) := by
  have hexec : exec (.firmwareFrame f none) s = execFirmwareFrame f none s := (rfl)
  rw [chipNext, hexec, execFirmwareFrame, liftC]
  dsimp only
  rw [if_neg (by simp [hup, hk]), ← Chip.framed, Chip.framed_bad, hbad]

theorem discover_bad (hup : s.sys.chip.ethUp = true) (hbad : s.sys.chip.frameBad f = some r) (hk : f.kind = .discovery) :
    chipNext s (.discover f) (s.sys.chip.framed.bump (enPg + r)) := by
  have hexec : exec (.discover f) s = execDiscover f s := (rfl)
  rw [chipNext, hexec, execDiscover, liftC]
  dsimp only
  rw [if_neg (by simp [hup, hk]), ← Chip.framed, Chip.framed_bad, hbad]

theorem pfcFrame_bad (hup : s.sys.chip.ethUp = true) (hbad : s.sys.chip.frameBad f = some r) (hk : f.kind = .pfc) :
    chipNext s (.pfcFrame f) (s.sys.chip.framed.bump (enPg + r)) := by
  have hexec : exec (.pfcFrame f) s = execPfcFrame f s := (rfl)
  rw [chipNext, hexec, execPfcFrame, liftC]
  dsimp only
  rw [if_neg (by simp [hup, hk]), ← Chip.framed, Chip.framed_bad, hbad]

theorem firmwareFrame_good (hup : s.sys.chip.ethUp = true) (hgood : s.sys.chip.frameBad f = none) (hk : f.kind = .toFirmware)
    (a : Nat × Nat × Nat) : chipNext s (.firmwareFrame f (some a)) (s.sys.chip.framed.emit (.firmware f)) := by
  have hexec : exec (.firmwareFrame f (some a)) s = execFirmwareFrame f (some a) s := (rfl)
  rw [chipNext, hexec, execFirmwareFrame, liftC]
  dsimp only
  rw [if_neg (by simp [hup, hk]), ← Chip.framed, Chip.framed_bad, hgood]
  dsimp only
  rw [if_neg (by simp [hk])]

theorem firmwareFrame_sync (hup : s.sys.chip.ethUp = true) (hgood : s.sys.chip.frameBad f = none) (hk : f.kind = .udp)
    (hport : f.dstPort = 319 ∨ f.dstPort = 320) (a : Nat × Nat × Nat) : chipNext s (.firmwareFrame f (some a))
      (Chip.setFlag { s.sys.chip.framed.emit (.firmware f) with eth.corr := some ⟨a.1, a.2.1, a.2.2⟩ } (enPg + 0x44) 3 true) := by
  have hexec : exec (.firmwareFrame f (some a)) s = execFirmwareFrame f (some a) s := (rfl)
  have hptp : (f.kind == .udp && (f.dstPort == 319 || f.dstPort == 320)) = true := by
    rcases hport with h | h <;> simp [hk, h]
  rw [chipNext, hexec, execFirmwareFrame, liftC]
  dsimp only
  rw [if_neg (by simp [hup, hptp]), ← Chip.framed, Chip.framed_bad, hgood]
  dsimp only
  rw [if_pos hptp]

/-! ## Discovery and flow control (R336, R343) -/

/-- R343: the chip answers a DISCOVER. -/
def Chip.advertises (s : Chip) (f : EthFrame) : Chip :=
  Chip.ethSend { s with eth.lastAdv := some s.now } 0 (14 + (if f.tpids.isEmpty then 0 else 4) + 59 + 4)
    (.advertise f.srcMac f.vid s.advertiseBody) none

theorem Chip.framed_mac (s : Chip) : s.framed.macAddr = s.macAddr := by
  unfold Chip.macAddr
  rw [s.framed_reg (by decide), s.framed_fld (by decide)]

theorem discover_first (hup : s.sys.chip.ethUp = true) (hgood : s.sys.chip.frameBad f = none) (hk : f.kind = .discovery)
    (hon : s.sys.chip.flag (enPg + 0x40) 3 = true) (hp : f.udpPayload.take 3 = [0x4B, 0x56, 0x01])
    (hmac : f.dstMac = s.sys.chip.macAddr ∨ f.dstMac = 2 ^ 48 - 1) (hadv : s.sys.chip.eth.lastAdv = none) :
    chipNext s (.discover f) (s.sys.chip.framed.advertises f) := by
  have hexec : exec (.discover f) s = execDiscover f s := (rfl)
  have hadv' : s.sys.chip.framed.eth.lastAdv = none := hadv
  rw [chipNext, hexec, execDiscover, liftC]
  dsimp only
  rw [if_neg (by simp [hup, hk]), ← Chip.framed, Chip.framed_bad, hgood]
  dsimp only
  rw [s.sys.chip.framed_flag (by decide), hon, hp, Chip.framed_mac, hadv', if_pos (by rcases hmac with h | h <;> simp [h])]
  rfl

theorem discover_soon {b : Nat} (hup : s.sys.chip.ethUp = true) (hgood : s.sys.chip.frameBad f = none) (hk : f.kind = .discovery)
    (hadv : s.sys.chip.eth.lastAdv = some b) (hb : s.sys.chip.now < b + 1000000) :
    chipNext s (.discover f) s.sys.chip.framed := by
  have hexec : exec (.discover f) s = execDiscover f s := (rfl)
  have hadv' : s.sys.chip.framed.eth.lastAdv = some b := hadv
  have hnow : s.sys.chip.framed.now < b + 1000000 := hb
  rw [chipNext, hexec, execDiscover, liftC]
  dsimp only
  rw [if_neg (by simp [hup, hk]), ← Chip.framed, Chip.framed_bad, hgood]
  dsimp only
  rw [hadv', if_neg (by simp [hnow])]

theorem Chip.advertises_lastAdv (s : Chip) (f : EthFrame) : (s.advertises f).eth.lastAdv = some s.now :=
  (Chip.sent_ethSend { s with eth.lastAdv := some s.now } 0 (14 + (if f.tpids.isEmpty then 0 else 4) + 59 + 4)
    (o := .advertise f.srcMac f.vid s.advertiseBody) none id (fun _ _ h => nomatch h)).told.eth_lastAdv

/-- R336: what a flow control frame asks of priority q. -/
def Chip.pauses (s : Chip) (p : List Byte) (q : Nat) : Chip :=
  match (if s.pfcOn q then pfcTime p q else none) with
  | none => s
  | some n =>
    let rest := s.eth.paused.filter fun e => e.1 != q
    let t := s.now + ceilDiv (512 * n) (if s.flag (enPg + 0x44) 2 then 800 else 1600)
    { s with eth.paused := if n = 0 then rest else rest ++ [(q, t)] }

theorem pfcFrame_good (hup : s.sys.chip.ethUp = true) (hgood : s.sys.chip.frameBad f = none) (hk : f.kind = .pfc) :
    chipNext s (.pfcFrame f) (forEach (List.range 8) (fun q s => s.pauses f.udpPayload q) (s.sys.chip.framed.bump (enPg + 0xB0))).tryEth := by
  have hexec : exec (.pfcFrame f) s = execPfcFrame f s := (rfl)
  rw [chipNext, hexec, execPfcFrame, liftC]
  dsimp only
  rw [if_neg (by simp [hup, hk]), ← Chip.framed, Chip.framed_bad, hgood]
  rfl

theorem Chip.pauses_same (s : Chip) (p : List Byte) (q : Nat) : (s.pauses p q).now = s.now ∧ (s.pauses p q).regs = s.regs ∧
    ∀ e ∈ s.eth.paused, e.1 ≠ q → e ∈ (s.pauses p q).eth.paused := by
  unfold Chip.pauses
  split
  · exact ⟨rfl, rfl, fun _ h _ => h⟩
  · refine ⟨rfl, rfl, fun e he hq => ?_⟩
    have hrest : e ∈ s.eth.paused.filter fun e => e.1 != q := List.mem_filter.2 ⟨he, by simp [hq]⟩
    dsimp only
    split
    · exact hrest
    · exact List.mem_append_left _ hrest

/-- R336: a priority that uses flow control is paused from now on. -/
theorem Chip.pauses_enters {s : Chip} {p : List Byte} {q n : Nat} (hon : s.pfcOn q = true) (hn : pfcTime p q = some n) (hpos : 0 < n) :
    ∃ b, (q, b) ∈ (s.pauses p q).eth.paused ∧ s.now ≤ b := by
  unfold Chip.pauses
  rw [if_pos hon, hn]
  dsimp only
  rw [if_neg (by omega)]
  exact ⟨_, List.mem_append_right _ (List.mem_singleton.2 rfl), Nat.le_add_right ..⟩

theorem Chip.pfcOn_congr {s t : Chip} (h : t.reg (enPg + 0x40) = s.reg (enPg + 0x40)) (q : Nat) : t.pfcOn q = s.pfcOn q := by
  unfold Chip.pfcOn Chip.flag Chip.fld
  rw [h]

/-- R336: each priority of the list is paused as asked, whatever the others are. -/
theorem Chip.pauses_all (s : Chip) (p : List Byte) {l : List Nat} (hl : l.Nodup) {q n : Nat} (hq : q ∈ l) (hon : s.pfcOn q = true)
    (hn : pfcTime p q = some n) (hpos : 0 < n) : ∃ b, (q, b) ∈ (forEach l (fun q s => s.pauses p q) s).eth.paused ∧ s.now ≤ b := by
  have hkeep : ∀ (m : List Nat) (t : Chip) (b : Nat), q ∉ m → (q, b) ∈ t.eth.paused →
      (q, b) ∈ (forEach m (fun q s => s.pauses p q) t).eth.paused := fun m t b hm ht =>
    forEach_keeps (f := fun q s => s.pauses p q) (fun u => (q, b) ∈ u.eth.paused)
      (fun a ha u hu => (u.pauses_same p a).2.2 _ hu fun e => hm ((show q = a from e) ▸ ha)) ht
  induction l generalizing s with
  | nil => exact absurd hq (by simp)
  | cons a l ih =>
    obtain ⟨hal, hnd⟩ := List.nodup_cons.1 hl
    obtain ⟨hnow, hregs, -⟩ := s.pauses_same p a
    rw [forEach_cons]
    by_cases ha : q = a
    · subst ha
      obtain ⟨b, hb, hle⟩ := Chip.pauses_enters hon hn hpos
      exact ⟨b, hkeep l _ b hal hb, hle⟩
    · have hin : q ∈ l := (List.mem_cons.1 hq).resolve_left ha
      have hon' : (s.pauses p a).pfcOn q = true := by
        rw [Chip.pfcOn_congr (s := s) (by unfold Chip.reg; rw [hregs])]
        exact hon
      obtain ⟨b, hb, hle⟩ := ih (s.pauses p a) hnd hin hon'
      exact ⟨b, hb, hnow ▸ hle⟩

theorem pfcFrame_pauses (hup : s.sys.chip.ethUp = true) (hgood : s.sys.chip.frameBad f = none) (hk : f.kind = .pfc) :
    ∃ t, chipNext s (.pfcFrame f) t ∧ ∀ q n, q < 8 → s.sys.chip.pfcOn q = true → pfcTime f.udpPayload q = some n → 0 < n →
      ∃ b, (q, b) ∈ t.eth.paused ∧ s.sys.chip.now ≤ b := by
  refine ⟨_, pfcFrame_good hup hgood hk, fun q n hq hon hn hpos => ?_⟩
  rw [(Chip.tries_tryEth _).paused]
  refine Chip.pauses_all (s.sys.chip.framed.bump (enPg + 0xB0)) f.udpPayload List.nodup_range (List.mem_range.2 hq) ?_ hn hpos
  rw [Chip.pfcOn_congr ((Chip.reg_bump_ne _ (by decide)).trans (s.sys.chip.framed_reg (by decide)))]
  exact hon

/-! ## A datagram of a session (R336, R346) -/

/-- R338, R341: the frame is a datagram of a session that may come. -/
structure Chip.comes (y : Chip) (f : EthFrame) (d : Datagram) : Prop where
  udp : f.kind = .udp
  ptp : ¬ (f.dstPort = 319 ∨ f.dstPort = 320)
  port : f.dstPort = y.fld (enPg + 0x78) 15 0
  datagram : datagramOf f.udpPayload = some d
  header : xhtBad d.hdr = false
  input : xhtInput d = false ∨ y.pairRole = 0
  session : y.sessMatches d.hdr.session f = true
  channel : y.chanBad d.hdr = false
  noCmd : d.hdr.typ ≠ 1
  room : y.inBytes + f.len ≤ 1048576

variable {d : Datagram}

theorem Chip.takeInput_alone {y : Chip} (h : y.pairRole = 0) (i : PairInput) (b : Bool) (go : Chip → Chip) : y.takeInput i b go = go y := by
  unfold Chip.takeInput
  simp only [h]

/-- R336: the entry of a datagram in the ingress buffer. -/
def ingressOf (y : Chip) (f : EthFrame) (d : Datagram) : InFrame := ⟨d.hdr.session, d.hdr.chan, d.hdr.seq, f.pcp, f.len, y.now⟩

theorem frameReceive_session (hup : s.sys.chip.ethUp = true) (hgood : s.sys.chip.frameBad f = none) (hc : s.sys.chip.comes f d) :
    chipNext s (.frameReceive f) (if 17 ≤ d.hdr.chan then s.sys.chip.framed.passOn f d
      else match seqPlace (s.sys.chip.winOf d.hdr.session d.hdr.chan) d.hdr.seq with
        | .old => s.sys.chip.framed.bump (enPg + 0xA0)
        | .inside => s.sys.chip.framed.takeDatagram f d
        | .new => (s.sys.chip.framed.setWin d.hdr.session d.hdr.chan
            (advanceWin (s.sys.chip.winOf d.hdr.session d.hdr.chan) d.hdr.seq)).takeDatagram f d) := by
  have hexec : exec (.frameReceive f) s = execFrameReceive f s := (rfl)
  have hport : ¬ f.dstPort ≠ s.sys.chip.framed.fld (enPg + 0x78) 15 0 := by
    rw [s.sys.chip.framed_fld (by decide)]
    exact not_not.2 hc.port
  have hat : s.sys.chip.framed.atSession f d = (if 17 ≤ d.hdr.chan then s.sys.chip.framed.passOn f d
      else match seqPlace (s.sys.chip.winOf d.hdr.session d.hdr.chan) d.hdr.seq with
        | .old => s.sys.chip.framed.bump (enPg + 0xA0)
        | .inside => s.sys.chip.framed.takeDatagram f d
        | .new => (s.sys.chip.framed.setWin d.hdr.session d.hdr.chan
            (advanceWin (s.sys.chip.winOf d.hdr.session d.hdr.chan) d.hdr.seq)).takeDatagram f d) := by
    have hs : s.sys.chip.framed.sessMatches d.hdr.session f = true := hc.session
    have hch : s.sys.chip.framed.chanBad d.hdr = false := hc.channel
    have hwin : s.sys.chip.framed.winOf d.hdr.session d.hdr.chan = s.sys.chip.winOf d.hdr.session d.hdr.chan := rfl
    unfold Chip.atSession
    dsimp only
    refine (if_neg (by rw [hs, hch]; simp)).trans (if_congr Iff.rfl rfl ?_)
    rw [hwin] <;> cases seqPlace (s.sys.chip.winOf d.hdr.session d.hdr.chan) d.hdr.seq <;> rfl
  rw [chipNext, hexec, execFrameReceive, liftC, ← hat]
  dsimp only
  rw [if_neg (by simp [hup, hc.udp]), if_neg (by simp [hc.udp]), ← Chip.framed, Chip.framed_bad, hgood]
  dsimp only
  rw [if_neg hc.ptp, if_neg hport, hc.datagram]
  dsimp only
  rw [if_neg (ne_true_of_eq_false hc.header)]
  by_cases hin : xhtInput d = true
  · have hrole : s.sys.chip.framed.pairRole = 0 :=
      (s.sys.chip.framed_fld (by decide) 2 0).trans (hc.input.resolve_left (ne_false_of_eq_true hin))
    rw [if_pos hin, Chip.takeInput_alone hrole]
  · rw [if_neg hin]

/-- R336, R354: a datagram enters the buffer and goes to the XHT engine. -/
theorem Chip.passOn_enters {y : Chip} (hroom : y.inBytes + f.len ≤ 1048576) (hp : y.pfcOn f.pcp = false) : y.passOn f d =
    { y with
      eth.ingress := y.eth.ingress ++ [ingressOf y f d]
      out := y.out ++ [.pass d] } := by
  unfold Chip.passOn
  dsimp only
  rw [if_neg (Nat.not_lt.2 hroom), if_neg]
  · rfl
  · have hp' : (Chip.emit { y with eth.ingress := y.eth.ingress ++ [ingressOf y f d] } (.pass d)).pfcOn f.pcp = false := hp
    unfold ingressOf at hp'
    rw [hp']
    simp

theorem Chip.winOf_setWin (y : Chip) (i chan : Nat) (w : SeqWin) : (y.setWin i chan w).winOf i chan = w := by
  unfold Chip.setWin Chip.winOf
  by_cases h : chan < 16
  · rw [if_pos h, if_pos h]
    exact at_put_self ..
  · rw [if_neg h, if_neg h]
    exact at_put_self ..

theorem Chip.setWin_rest (y : Chip) (i chan : Nat) (w : SeqWin) : (y.setWin i chan w).eth.ingress = y.eth.ingress ∧
    (y.setWin i chan w).regs = y.regs ∧ (y.setWin i chan w).now = y.now ∧ (y.setWin i chan w).out = y.out := by
  unfold Chip.setWin
  split <;> exact ⟨rfl, rfl, rfl, rfl⟩

theorem frame_atSession (hup : s.sys.chip.ethUp = true) (hgood : s.sys.chip.frameBad f = none) (hc : s.sys.chip.comes f d)
    (hpfc : s.sys.chip.pfcOn f.pcp = false) :
    (17 ≤ d.hdr.chan → ∃ t, chipNext s (.frameReceive f) t ∧
      t.eth = { s.sys.chip.eth with ingress := s.sys.chip.eth.ingress ++ [ingressOf s.sys.chip f d] } ∧ t.out = s.sys.chip.out ++ [.pass d]) ∧
    (d.hdr.chan < 17 → seqPlace (s.sys.chip.winOf d.hdr.session d.hdr.chan) d.hdr.seq = .new →
      (∀ e ∈ (s.sys.chip.winOf d.hdr.session d.hdr.chan).ents, e.seq ≠ d.hdr.seq) → ∃ t, chipNext s (.frameReceive f) t ∧
        (t.winOf d.hdr.session d.hdr.chan).h = some d.hdr.seq ∧
        t.eth.ingress = s.sys.chip.eth.ingress ++ [ingressOf s.sys.chip f d] ∧ t.out = s.sys.chip.out ++ [.pass d]) ∧
    (d.hdr.chan < 17 → seqPlace (s.sys.chip.winOf d.hdr.session d.hdr.chan) d.hdr.seq = .old → ∃ t, chipNext s (.frameReceive f) t ∧
      t.eth = s.sys.chip.eth ∧ t.out = s.sys.chip.out ∧
      (t.reg (enPg + 0xA0)).toNat = min ((s.sys.chip.reg (enPg + 0xA0)).toNat + 1) 0xffffffff) := by
  have hexec := frameReceive_session hup hgood hc
  have hp' : s.sys.chip.framed.pfcOn f.pcp = false := (Chip.pfcOn_congr (s.sys.chip.framed_reg (by decide)) _).trans hpfc
  refine ⟨fun h17 => ?_, fun h17 hnew hents => ?_, fun h17 hold => ?_⟩
  · rw [if_pos h17, Chip.passOn_enters (y := s.sys.chip.framed) hc.room hp'] at hexec
    exact ⟨_, hexec, rfl, rfl⟩
  · rw [if_neg (Nat.not_le.2 h17), hnew] at hexec
    dsimp only at hexec
    generalize hw : advanceWin (s.sys.chip.winOf d.hdr.session d.hdr.chan) d.hdr.seq = w at hexec
    have hown : (s.sys.chip.framed.setWin d.hdr.session d.hdr.chan w).winOf d.hdr.session d.hdr.chan = w := Chip.winOf_setWin ..
    have hent : winEnt w d.hdr.seq = none := by
      rw [← hw]
      exact List.find?_eq_none.2 fun e he => by simp [hents e (List.mem_filter.1 he).1]
    have htake : (s.sys.chip.framed.setWin d.hdr.session d.hdr.chan w).takeDatagram f d =
        (s.sys.chip.framed.setWin d.hdr.session d.hdr.chan w).passOn f d := by
      unfold Chip.takeDatagram
      dsimp only
      rw [hown, hent, if_neg (by simp), if_neg fun h => hc.noCmd h.1]
    obtain ⟨hin, hregs, hnow, hout⟩ := s.sys.chip.framed.setWin_rest d.hdr.session d.hdr.chan w
    rw [htake] at hexec
    generalize s.sys.chip.framed.setWin d.hdr.session d.hdr.chan w = z at hexec hown hin hregs hnow hout
    have hroom : z.inBytes + f.len ≤ 1048576 := by
      unfold Chip.inBytes
      rw [hin]
      exact hc.room
    rw [Chip.passOn_enters hroom ((Chip.pfcOn_congr (by unfold Chip.reg; rw [hregs]) _).trans hp')] at hexec
    refine ⟨_, hexec, ?_, ?_, ?_⟩
    · have hz : ∀ u : Chip, u.eth = { z.eth with ingress := z.eth.ingress ++ [ingressOf z f d] } →
          (u.winOf d.hdr.session d.hdr.chan) = z.winOf d.hdr.session d.hdr.chan := fun u hu => by
        unfold Chip.winOf Chip.sessPart Chip.sessW Chip.sessRec
        rw [hu]
      rw [hz _ rfl, hown, ← hw]
      rfl
    · dsimp only
      rw [hin, ingressOf, hnow]
      rfl
    · dsimp only
      rw [hout]
      rfl
  · rw [if_neg (Nat.not_le.2 h17), hold] at hexec
    refine ⟨_, hexec, rfl, rfl, ?_⟩
    rw [Chip.bump, Chip.reg_bumpBy, Chip.framed_reg _ (by decide)]

/-! ## The port's state (R334) -/

theorem enPg_below {k : Nat} (h : k < 0x1000) : belowPt (enPg + k) := by
  unfold belowPt enPg
  omega

theorem portDown_up (h : s.sys.chip.fld (enPg + 0x44) 1 0 = 2) (cause : Nat) :
    ∃ t, chipNext s (.portDown cause) t ∧ t.fld (enPg + 0x44) 1 0 = 1 := by
  have hexec : chipNext s (.portDown cause) s.sys.chip.portDown := rfl
  refine ⟨_, hexec, ?_⟩
  unfold Chip.portDown
  rw [if_pos h]
  exact (congrArg (Word.bits · 1 0) (Chip.notice_reg _ _ _ (enPg_below (by decide)) (by decide) (by decide))).trans
    (Chip.fld_setFld _ _ _ (by decide))

theorem portDown_idle (h : s.sys.chip.fld (enPg + 0x44) 1 0 ≠ 2) (cause : Nat) : exec (.portDown cause) s = .next s := by
  have hexec : chipNext s (.portDown cause) s.sys.chip.portDown := rfl
  have hsame : s.sys.chip.portDown = s.sys.chip := if_neg h
  rw [hsame] at hexec
  exact chipNext_same hexec

theorem Chip.heldBack_none {y : Chip} (h : y.held = []) (r : Req) : y.heldBack r = y := by
  unfold Chip.heldBack
  rw [h]
  rfl

/-- R334: the port's state as it comes up in a mode. -/
def Chip.upIn (y : Chip) (red : Bool) : Chip := (y.setFld (enPg + 0x44) 1 0 2).setFlag (enPg + 0x44) 2 red

/-- R251: requests whose response waited at the port as it comes up. -/
def Chip.settlesHeld (y : Chip) : Chip :=
  let due := y.prom.reqs.filter fun r => r.port == 96 && r.promise
  let s := forEach (due.filter (·.sent)) (fun r s => s.heldBack r) y
  forEach (due.filter fun r => !r.sent && decide (r.td < s.now)) (fun r s => s.loseResp r) s

theorem Chip.settlesHeld_none {y : Chip} (hheld : y.held = [])
    (hd : ∀ x ∈ y.prom.reqs, x.port = 96 → x.promise = true → y.now ≤ x.td) : y.settlesHeld = y := by
  unfold Chip.settlesHeld
  dsimp only
  have h1 : ∀ l : List Req, forEach l (fun r s => s.heldBack r) y = y := fun l =>
    forEach_keeps (f := fun (r : Req) s => s.heldBack r) (· = y) (fun r _ t ht => by rw [ht]; exact Chip.heldBack_none hheld r) rfl
  rw [h1]
  have h2 : ((y.prom.reqs.filter fun r => r.port == 96 && r.promise).filter fun r => !r.sent && decide (r.td < y.now)) = [] := by
    refine List.filter_eq_nil_iff.2 fun x hx hb => ?_
    obtain ⟨hin, hp⟩ := List.mem_filter.1 hx
    simp only [Bool.and_eq_true, beq_iff_eq, decide_eq_true_eq] at hp hb
    exact absurd (hd x hin hp.1 hp.2) (Nat.not_le.2 hb.2)
  rw [h2]
  rfl

theorem exec_portUp_eq {red : Bool} (h1 : s.sys.chip.fld (enPg + 0x44) 1 0 = 1) (hf : s.sys.chip.isFenced .eth = false)
    (hpll : (s.sys.chip.lk 40).noPll = false) : chipNext s (.portUp red)
      (((s.sys.chip.upIn (s.sys.chip.fld (enPg + 0x40) 1 0 == 2 || (red && s.sys.chip.fld (enPg + 0x40) 1 0 != 1))).settlesHeld).endReqs
        (fun r => r.port == 96) .fenced).tryEth := by
  have hexec : exec (.portUp red) s = execPortUp red s := (rfl)
  rw [chipNext, hexec, execPortUp, liftC]
  dsimp only
  rw [if_neg (by rw [h1, hf, hpll]; simp)]
  rfl

theorem portUp_facts {red : Bool} (h1 : s.sys.chip.fld (enPg + 0x44) 1 0 = 1) (hf : s.sys.chip.isFenced .eth = false)
    (hpll : (s.sys.chip.lk 40).noPll = false) (hheld : s.sys.chip.held = [])
    (hd : ∀ x ∈ s.sys.chip.prom.reqs, x.port = 96 → x.promise = true → s.sys.chip.now ≤ x.td) : ∃ t, chipNext s (.portUp red) t ∧
      t.fld (enPg + 0x44) 1 0 = 2 ∧
      t.flag (enPg + 0x44) 2 = (s.sys.chip.fld (enPg + 0x40) 1 0 == 2 || (red && s.sys.chip.fld (enPg + 0x40) 1 0 != 1)) := by
  have hexec := exec_portUp_eq (red := red) h1 hf hpll
  generalize (s.sys.chip.fld (enPg + 0x40) 1 0 == 2 || (red && s.sys.chip.fld (enPg + 0x40) 1 0 != 1)) = b at hexec ⊢
  rw [Chip.settlesHeld_none (y := s.sys.chip.upIn b) hheld hd] at hexec
  have hreg : (((s.sys.chip.upIn b).endReqs (fun r => r.port == 96) .fenced).tryEth).reg (enPg + 0x44) = (s.sys.chip.upIn b).reg (enPg + 0x44) :=
    (Chip.tries_tryEth _).regs _ ⟨enPg_below (by decide), by unfold enPg gatePg rtPg; simp⟩
  refine ⟨_, hexec, (congrArg (Word.bits · 1 0) hreg).trans ?_, (congrArg (Word.bit · 2) hreg).trans (Chip.flag_setFlag _ _ _ (by decide))⟩
  exact (Chip.fld_setFlag_apart _ _ _ (by decide) (.inl (by decide))).trans (Chip.fld_setFld _ _ _ (by decide))

/-! ## Acknowledgement and retransmission (R349) -/

variable {session seq : Nat}

theorem eventAck_facts (h : s.sys.chip.standsBy = false) (hv : s.sys.chip.sessValid session = true) : chipNext s (.eventAck session seq)
    { s.sys.chip.leaveIngress ⟨session, 17, seq, 0⟩ with
      eth.ev := KMap.put (s.sys.chip.leaveIngress ⟨session, 17, seq, 0⟩).eth.ev {} session
        (ackMsgs (KMap.at (s.sys.chip.leaveIngress ⟨session, 17, seq, 0⟩).eth.ev {} session) seq) } := by
  have hexec : exec (.eventAck session seq) s = execEventAck session seq s := (rfl)
  have hv' : (s.sys.chip.leaveIngress ⟨session, 17, seq, 0⟩).sessValid session = true := hv
  rw [chipNext, hexec, execEventAck, liftC]
  dsimp only
  rw [Chip.turnOf_alone h, if_neg (ne_false_of_eq_true hv')]

theorem auditAck_facts (h : s.sys.chip.standsBy = false) (hv : s.sys.chip.sessValid session = true) : chipNext s (.auditAck session seq)
    { s.sys.chip.leaveIngress ⟨session, 18, seq, 0⟩ with
      eth.au := KMap.put (s.sys.chip.leaveIngress ⟨session, 18, seq, 0⟩).eth.au {} session
        (ackMsgs (KMap.at (s.sys.chip.leaveIngress ⟨session, 18, seq, 0⟩).eth.au {} session) seq) } := by
  have hexec : exec (.auditAck session seq) s = execAuditAck session seq s := (rfl)
  have hv' : (s.sys.chip.leaveIngress ⟨session, 18, seq, 0⟩).sessValid session = true := hv
  rw [chipNext, hexec, execAuditAck, liftC]
  dsimp only
  rw [Chip.turnOf_alone h, if_neg (ne_false_of_eq_true hv')]

/-- R349: a message of channel 17 sent again. -/
def Chip.resends (y : Chip) (session seq : Nat) (m : MsgQ) (body : List Byte) : Chip :=
  Chip.xhtSend { y with eth.ev := KMap.put y.eth.ev {} session { m with
    unacked := updWhere m.unacked (fun x => x.seq == seq) fun x => { x with last := y.now } } } session (msgHdr session false true seq) body

theorem exec_enRto_eq {m : Msg} (hm : (KMap.at s.sys.chip.eth.ev {} session).unacked.find? (fun x => x.seq == seq) = some m) :
    chipNext s (.enRtoExpiry session 17 seq) (if ((17 : Nat) ≠ 17 ∧ (17 : Nat) ≠ 18) ∨ s.sys.chip.sessValid session = false ∨
        s.sys.chip.now < m.last + 1000 * max (s.sys.chip.fld (enPg + 0x84) 15 0) 10 then s.sys.chip
      else s.sys.chip.resends session seq (KMap.at s.sys.chip.eth.ev {} session) m.body) := by
  have hexec : exec (.enRtoExpiry session 17 seq) s = execEnRtoExpiry session 17 seq s := (rfl)
  rw [chipNext, hexec, execEnRtoExpiry, liftC]
  dsimp only
  rw [if_neg (by decide), hm]
  rfl

theorem Chip.xhtSend_ev (z : Chip) (i : Nat) {h : XhtHdr} (ht : h.typ ≠ 7) (p : List Byte) : (z.xhtSend i h p).eth.ev = z.eth.ev := by
  unfold Chip.xhtSend
  exact (Chip.sent_egress z 96 _ _ (o := .xht (z.sessRec i) ⟨{ h with session := i, len := p.length }, p⟩) ht
    (fun _ _ h => nomatch h)).told.eth_ev

theorem Chip.resends_ev (y : Chip) (session seq : Nat) (m : MsgQ) (body : List Byte) :
    (y.resends session seq m body).eth.ev = KMap.put y.eth.ev {} session { m with
      unacked := updWhere m.unacked (fun x => x.seq == seq) fun x => { x with last := y.now } } := by
  exact Chip.xhtSend_ev _ session (show (3 : Nat) ≠ 7 by decide) body

end

/-- Settles O50: a frame by the first row that applies to it, the port's state, the messages of channels 17 and 18. -/
theorem ethernetPort : Obligations.EthernetPort := by
  intro s f r d a session seq cause y h gives drops ptp comes entry acks
  refine ⟨fun hup i hi => ?_, fun hup hbad => ⟨fun hk => frame_drops (frameReceive_bad hup hbad hk) hbad,
      fun hk => frame_drops (firmwareFrame_bad hup hbad hk) hbad, fun hk => frame_drops (discover_bad hup hbad hk) hbad,
      fun hk => frame_drops (pfcFrame_bad hup hbad hk) hbad⟩,
    fun hup hgood => ⟨fun hc hpfc => ?_, fun hk => ⟨_, firmwareFrame_good hup hgood hk a, rfl, rfl⟩, fun hp => ?_,
      fun hk hon hpay hmac => ⟨fun hadv => ?_, fun b hadv hb => ?_⟩, fun hk => pfcFrame_pauses hup hgood hk⟩,
    fun hst => portDown_up hst cause, fun hst => portDown_idle hst cause, fun h1 hf hpll hheld hd red => portUp_facts h1 hf hpll hheld hd,
    eventAck_facts, auditAck_facts, fun m hm hv => ⟨fun hlast => ?_, fun hlast => ?_⟩⟩
  · obtain ⟨h1, h2, h3, h4⟩ := frame_ignored (f := f) hup (some a)
    rcases hi with rfl | rfl | rfl | rfl
    · exact h1
    · exact h2
    · exact h3
    · exact h4
  · obtain ⟨hudp, hptp, hport, hd, hx, hin, hs, hch, hty, hroom⟩ := hc
    exact frame_atSession hup hgood ⟨hudp, fun e => hptp ⟨hudp, e⟩, hport, hd, hx, hin, hs, hch, hty, hroom⟩ hpfc
  · exact ⟨_, firmwareFrame_sync hup hgood hp.1 hp.2 a, rfl, rfl, Chip.flag_setFlag _ _ _ (by decide)⟩
  · exact ⟨_, discover_first hup hgood hk hon hpay hmac hadv, Chip.advertises_lastAdv ..⟩
  · exact ⟨_, discover_soon hup hgood hk hadv hb, rfl, fun a ha => y.framed_reg fun e => ha (List.mem_singleton.2 e)⟩
  · have hexec := exec_enRto_eq hm
    rw [if_neg (by rw [hv]; simp; exact hlast)] at hexec
    exact ⟨_, hexec, Chip.resends_ev ..⟩
  · have hexec := exec_enRto_eq hm
    rw [if_pos (.inr (.inr hlast))] at hexec
    exact chipNext_same hexec

end Sys2Proof.Machine

/-! PROOFS. Sessions, MGMT and the voter: O51 (R344 to R361, R429, R430, R497, R505). -/


namespace Sys2Proof.Machine

-- One after the other: side by side the proofs ask for more memory than the check grants.
set_option Elab.async false

open Laws

section

variable {s : State} {q : CmdReq}

/-! ## TIME and NOP (R352, R361) -/

theorem Chip.tries.winOf {s t : Chip} (h : s.tries t) (i c : Nat) : t.winOf i c = s.winOf i c := by
  unfold Chip.winOf Chip.sessPart Chip.sessW Chip.sessRec
  rw [h.eth]

/-- R304, R361: what a TIME response carries: the correspondence and a tick. -/
def Chip.timeBody (y : Chip) (q : CmdReq) : List Byte :=
  y.corrBytes ++ leBytes 8 (match y.eth.ingress.find? fun e => e.session == q.session && e.chan == q.chan && e.seq == q.seq with
    | some e => e.tick
    | none => y.now)

/-- R347, R361: a TIME request is recorded and answered. -/
def Chip.answersTime (y : Chip) (q : CmdReq) (d : List Byte) : Chip :=
  let s := y.record q.session q.chan q.seq true .ok 0
  s.ethOut (s.sessPart q.session) (s.frameLen q.session d.length)
    (.time (s.sessRec q.session) ⟨{ respHdr q .ok 0 with hasValue := true, session := q.session, len := d.length }, d⟩) none

theorem xhtTime_answers (hnew : winEnt (s.sys.chip.winOf q.session q.chan) q.seq = none) (hv : s.sys.chip.sessValid q.session = true)
    (hc : q.chan = 16) : ∃ t, chipNext s (.xhtTime q) t ∧ t.answeredIs q .ok 0 := by
  have hexec : exec (.xhtTime q) s = execXhtTime q s := (rfl)
  have hnext : chipNext s (.xhtTime q) ((s.sys.chip.leaveIngress q).answersTime q (s.sys.chip.timeBody q)) := by
    have hnew' : winEnt ((s.sys.chip.leaveIngress q).winOf q.session q.chan) q.seq = none := hnew
    have hv' : (s.sys.chip.leaveIngress q).sessValid q.session = true := hv
    rw [chipNext, hexec, execXhtTime, liftC]
    dsimp only
    rw [hnew']
    dsimp only
    rw [if_neg (ne_false_of_eq_true hv'), if_neg (not_not.2 hc)]
    rfl
  refine ⟨_, hnext, ?_⟩
  unfold Chip.answersTime Chip.answeredIs
  dsimp only
  rw [(Chip.tries_ethOut ..).winOf]
  exact Chip.record_entry ..

theorem nop_answers (hnew : winEnt (s.sys.chip.winOf q.session q.chan) q.seq = none) (hv : s.sys.chip.sessValid q.session = true)
    (hw : s.sys.chip.mustWait q = false) (hst : s.sys.chip.standsBy = false)
    (hf : s.sys.chip.isFenced (.part (s.sys.chip.sessPart q.session)) = false)
    (hr : s.sys.chip.partResetting (s.sys.chip.sessPart q.session) = false) :
    Answers (.nop q) s s.sys.chip q (if q.chan = 16 then .ok else .noAccess) 0 := by
  have hexec : exec (.nop q) s = execNop q s := (rfl)
  have hrec : ((s.sys.chip.leaveIngress q).recorded q 2).isSome = false := by
    unfold Chip.recorded
    have hnew' : winEnt ((s.sys.chip.leaveIngress q).winOf q.session q.chan) q.seq = none := hnew
    rw [hnew']
    rfl
  have hv' : (s.sys.chip.leaveIngress q).sessValid q.session = true := hv
  have hf' : (s.sys.chip.leaveIngress q).isFenced (.part (s.sys.chip.sessPart q.session)) = false := hf
  have hr' : (s.sys.chip.leaveIngress q).partResetting (s.sys.chip.sessPart q.session) = false := hr
  refine answers_of_exec ?_
  rw [hexec, execNop, liftC]
  dsimp only
  rw [if_neg (ne_true_of_eq_false hw), Chip.turnOf_alone hst]
  rw [if_neg (ne_false_of_eq_true hv'), if_neg (ne_true_of_eq_false hrec), if_neg (ne_true_of_eq_false hf'),
    if_neg (ne_true_of_eq_false hr')]

/-! ## Session records (R344, R345) -/

/-- t is s but for session records, the windows and what errors report. -/
structure Chip.sessOnly (s t : Chip) : Prop where
  rights : t.rights = s.rights
  prom : t.prom = s.prom
  cls : t.cls = s.cls
  sess : t.eth.sess = s.eth.sess
  bad : t.eth.sessBad = s.eth.sessBad

theorem Chip.sessOnly.refl (s : Chip) : s.sessOnly s := ⟨rfl, rfl, rfl, rfl, rfl⟩

theorem Chip.sessOnly.trans {s t u : Chip} (h : s.sessOnly t) (h' : t.sessOnly u) : s.sessOnly u :=
  ⟨h'.rights.trans h.rights, h'.prom.trans h.prom, h'.cls.trans h.cls, h'.sess.trans h.sess, h'.bad.trans h.bad⟩

theorem Chip.Reports.sessOnly {s t : Chip} (h : s.Reports t) : s.sessOnly t := ⟨h.rights, h.prom, h.cls, by rw [h.eth], by rw [h.eth]⟩

theorem Chip.Told.sessOnly {s t : Chip} (h : s.Told t) : s.sessOnly t := ⟨h.rights, h.prom, h.cls, h.eth_sess, h.eth_sessBad⟩

theorem Chip.sessOnly_resetDataWins (s : Chip) (i : Nat) : s.sessOnly (s.resetDataWins i) := ⟨rfl, rfl, rfl, rfl, rfl⟩

theorem Chip.sessOnly_resetCmdWins (s old : Chip) (p : Nat) : s.sessOnly (s.resetCmdWins old p) :=
  forEach_keeps (s.sessOnly ·) (fun c _ t ht => by
    dsimp only
    split
    · exact ht
    · exact ht.trans ⟨rfl, rfl, rfl, rfl, rfl⟩) (.refl s)

/-- R345: record ws stands at i. -/
def Chip.storesSess (s : Chip) (i : Nat) (ws : List Word) : Chip :=
  { s with
    eth.sess := KMap.put s.eth.sess (List.replicate 8 0) i ws
    eth.sessBad := s.eth.sessBad.filter fun j => j != i }

/-- R345: the windows that a new record resets. -/
def Chip.resetWins (s old : Chip) (i : Nat) (was ws : List Word) : Chip :=
  let s := if sessMoved was ws then s.resetDataWins i else s
  (s.resetCmdWins old (Word.bits (was.getD 0 0) 9 4)).resetCmdWins old (Word.bits (ws.getD 0 0) 9 4)

/-- R365, R398: an injection that struck a record is found. -/
def Chip.struckSess (s : Chip) (i n : Nat) : Chip :=
  if n = 1 then s.corrected enPg 5 i
  else if n = 2 then
    Chip.itemErr { s with eth.sessBad := s.eth.sessBad ++ [i] } enPg 6 i
      { faultOf enPg 1 6 with inj := true, kind := 15, unit := i }
  else s

theorem Chip.writeSess_eq (s : Chip) (i : Nat) (ws : List Word) : s.writeSess i ws =
    ((((s.strike enPg).2.storesSess i ws).resetWins s i (s.sessRec i) ws).struckSess i (s.strike enPg).1) := by
  unfold Chip.writeSess
  generalize s.strike enPg = a
  obtain ⟨n, t⟩ := a
  unfold Chip.struckSess Chip.resetWins Chip.storesSess
  with_reducible rfl

theorem Chip.sessOnly_resetWins (s old : Chip) (i : Nat) (was ws : List Word) : s.sessOnly (s.resetWins old i was ws) := by
  unfold Chip.resetWins
  dsimp only
  refine Chip.sessOnly.trans ?_ ((Chip.sessOnly_resetCmdWins _ old _).trans (Chip.sessOnly_resetCmdWins _ old _))
  split
  · exact s.sessOnly_resetDataWins i
  · exact .refl s

theorem Chip.sessOnly_strike (s : Chip) (pg : Nat) : s.sessOnly (s.strike pg).2 := by
  have h : s.sessOnly (s.takeArmed pg).2 := by
    unfold Chip.takeArmed
    split
    · exact .refl s
    · exact ⟨rfl, rfl, rfl, rfl, rfl⟩
  unfold Chip.strike
  generalize s.takeArmed pg = a at h
  obtain ⟨m, t⟩ := a
  rcases m with - | - | - <;> exact h

theorem Chip.strike_unarmed {s : Chip} (h : s.errs.armed = []) (pg : Nat) : (s.strike pg).1 = 0 := by
  unfold Chip.strike Chip.takeArmed
  rw [h]
  rfl

/-- A record struck or not: the rights, the requests and the clusters stand, and the record is as written. -/
theorem Chip.struckSess_facts (s : Chip) (i n : Nat) : (s.struckSess i n).rights = s.rights ∧ (s.struckSess i n).prom = s.prom ∧
    (s.struckSess i n).cls = s.cls ∧ (s.struckSess i n).eth.sess = s.eth.sess ∧
    (n = 0 → (s.struckSess i n).eth.sessBad = s.eth.sessBad) := by
  unfold Chip.struckSess
  split
  · have h := (s.reports_corrected enPg 5 i).sessOnly
    exact ⟨h.rights, h.prom, h.cls, h.sess, fun _ => h.bad⟩
  · split
    · have h := (Chip.reports_itemErr { s with eth.sessBad := s.eth.sessBad ++ [i] } enPg 6 i
        { faultOf enPg 1 6 with inj := true, kind := 15, unit := i }).sessOnly
      exact ⟨h.rights, h.prom, h.cls, h.sess, fun h0 => absurd h0 (by omega)⟩
    · exact ⟨rfl, rfl, rfl, rfl, fun _ => rfl⟩

theorem Chip.writeSess_facts (s : Chip) (i : Nat) (ws : List Word) : (s.writeSess i ws).rights = s.rights ∧
    (s.writeSess i ws).prom = s.prom ∧ (s.writeSess i ws).cls = s.cls ∧
    (s.writeSess i ws).eth.sess = KMap.put s.eth.sess (List.replicate 8 0) i ws ∧
    (s.errs.armed = [] → i ∉ (s.writeSess i ws).eth.sessBad) := by
  rw [Chip.writeSess_eq]
  have hstrike := s.sessOnly_strike enPg
  have hzero := fun h => s.strike_unarmed (pg := enPg) h
  generalize s.strike enPg = a at hstrike hzero
  obtain ⟨n, t⟩ := a
  have hwins := (t.storesSess i ws).sessOnly_resetWins s i (s.sessRec i) ws
  generalize (t.storesSess i ws).resetWins s i (s.sessRec i) ws = w at hwins
  obtain ⟨h1, h2, h3, h4, h5⟩ := w.struckSess_facts i n
  refine ⟨h1.trans (hwins.rights.trans hstrike.rights), h2.trans (hwins.prom.trans hstrike.prom), h3.trans (hwins.cls.trans hstrike.cls),
    (h4.trans hwins.sess).trans ?_, fun harm => ?_⟩
  · unfold Chip.storesSess
    rw [hstrike.sess]
  · rw [h5 (hzero harm), hwins.bad]
    exact fun hin => absurd (List.mem_filter.1 hin).2 (by simp)

/-- R345: a session record is written at i with ws. -/
def setsSess (s : State) (i : Instr) (k : Nat) (ws : List Word) : Prop :=
  ∃ t, chipNext s i t ∧ t.eth.sess = KMap.put s.sys.chip.eth.sess (List.replicate 8 0) k ws ∧
    (s.sys.chip.errs.armed = [] → k ∉ t.eth.sessBad) ∧ t.rights = s.sys.chip.rights ∧ t.prom = s.sys.chip.prom ∧
    t.cls = s.sys.chip.cls

variable {k : Nat} {ws : List Word}

theorem exec_sessSet_eq (h : s.sys.chip.takesCmd q true) : chipNext s (.sessSet q k ws)
    (if k = 0 ∨ 256 ≤ k ∨ sessFormOk ws = false ∨ s.sys.chip.sessLimits k ws = false
      then (s.sys.chip.leaveIngress q).cmdAnswer q .noAccess 0
      else ((s.sys.chip.leaveIngress q).cmdAnswer q .ok 0).writeSess k ws) := by
  have hexec : exec (.sessSet q k ws) s = execSessSet q k ws s := (rfl)
  rw [chipNext, hexec, execSessSet, liftC]
  dsimp only
  rw [Chip.command_eq h]
  rfl

theorem exec_sessClear_eq (h : s.sys.chip.takesCmd q true) : chipNext s (.sessClear q k)
    (if k = 0 ∨ 256 ≤ k then (s.sys.chip.leaveIngress q).cmdAnswer q .noAccess 0
      else (((s.sys.chip.leaveIngress q).cmdAnswer q .ok 0).writeSess k (List.replicate 8 0)).resetDataWins k) := by
  have hexec : exec (.sessClear q k) s = execSessClear q k s := (rfl)
  rw [chipNext, hexec, execSessClear, liftC]
  dsimp only
  rw [Chip.command_eq h]

/-- R345: an answered command's record. -/
theorem Chip.writeSess_answered (y : Chip) (q : CmdReq) (k : Nat) (ws : List Word) :
    (((y.leaveIngress q).cmdAnswer q .ok 0).writeSess k ws).eth.sess = KMap.put y.eth.sess (List.replicate 8 0) k ws ∧
    (y.errs.armed = [] → k ∉ (((y.leaveIngress q).cmdAnswer q .ok 0).writeSess k ws).eth.sessBad) ∧
    (((y.leaveIngress q).cmdAnswer q .ok 0).writeSess k ws).rights = y.rights ∧
    (((y.leaveIngress q).cmdAnswer q .ok 0).writeSess k ws).prom = y.prom ∧
    (((y.leaveIngress q).cmdAnswer q .ok 0).writeSess k ws).cls = y.cls := by
  have htold := (y.told_leaveIngress q).trans (Chip.told_cmdAnswer _ q .ok 0)
  generalize (y.leaveIngress q).cmdAnswer q .ok 0 = a at htold
  obtain ⟨h1, h2, h3, h4, h5⟩ := a.writeSess_facts k ws
  exact ⟨by rw [h4, htold.eth_sess], fun h => h5 (by rw [htold.errs]; exact h), h1.trans htold.rights, h2.trans htold.prom, h3.trans htold.cls⟩

theorem sessSet_sets (h : s.sys.chip.takesCmd q true) (hk : 0 < k ∧ k < 256) (hf : sessFormOk ws = true)
    (hl : s.sys.chip.sessLimits k ws = true) : setsSess s (.sessSet q k ws) k ws := by
  have hexec := exec_sessSet_eq (k := k) (ws := ws) h
  rw [if_neg (by rw [hf, hl]; simp; omega)] at hexec
  exact ⟨_, hexec, s.sys.chip.writeSess_answered q k ws⟩

theorem sessClear_sets (h : s.sys.chip.takesCmd q true) (hk : 0 < k ∧ k < 256) : setsSess s (.sessClear q k) k (List.replicate 8 0) := by
  have hexec := exec_sessClear_eq (k := k) h
  rw [if_neg (by omega)] at hexec
  exact ⟨_, hexec, s.sys.chip.writeSess_answered q k (List.replicate 8 0)⟩

theorem sessSet_noAccess (h : s.sys.chip.takesCmd q true)
    (hbad : ¬ (0 < k ∧ k < 256) ∨ sessFormOk ws = false ∨ s.sys.chip.sessLimits k ws = false) :
    Answers (.sessSet q k ws) s s.sys.chip q .noAccess 0 := by
  have hexec := exec_sessSet_eq (k := k) (ws := ws) h
  rw [if_pos (hbad.elim (fun hb => by omega) fun hb => .inr (.inr hb))] at hexec
  exact answers_of_exec hexec

theorem sessClear_noAccess (h : s.sys.chip.takesCmd q true) (hbad : ¬ (0 < k ∧ k < 256)) :
    Answers (.sessClear q k) s s.sys.chip q .noAccess 0 := by
  have hexec := exec_sessClear_eq (k := k) h
  rw [if_pos (by omega)] at hexec
  exact answers_of_exec hexec

end

/-! ## MGMT of a fabric host (R184, R505) -/

section

variable {s : State} {p : Packet} {addr n : Nat} {data : List Word}

/-- R184, R505, R512: a message of a fabric host that may send it. -/
structure Chip.letsMgmt (y : Chip) (p : Packet) : Prop where
  cls : p.hdr.cls = 4
  addressed : y.addressed = true
  bound : y.spoofed (y.portOf p.hdr) p.hdr.srcHost = false
  auth : y.mgmtAuth p.hdr.srcHost = true
  whole : p.payload.length = p.hdr.len

theorem Sys.fabricMgmt_lets {y : Sys} {len : Nat} (h : y.chip.letsMgmt p) (hlen : p.hdr.len = len) (input : Bool)
    (hturn : y.chip.standsBy = false ∨ input = false) (act : Sys → List Byte × Sys) :
    y.fabricMgmt p input len true act = onChip (fun s => s.mgmtDone.fabricReply p.hdr input (act y).1) (act y).2 := by
  have hgo : ∀ f : Sys → Sys, y.mgmtTurn input (flesonId p.hdr.srcHost p.hdr.tag 0xD) f = f y := fun f => by
    unfold Sys.mgmtTurn
    split
    next hi =>
      unfold Sys.turnOf
      rw [if_neg (ne_true_of_eq_false (hturn.resolve_right (ne_false_of_eq_true hi)))]
    next => rfl
  unfold Sys.fabricMgmt
  dsimp only
  rw [hgo, if_neg (ne_false_of_eq_true h.addressed), if_neg (ne_true_of_eq_false h.bound), if_neg]
  rintro (hc | ha | hl | hp | ho)
  · exact hc h.cls
  · exact absurd (h.auth.symm.trans ha) (by decide)
  · exact hl hlen
  · exact hp (h.whole.trans hlen)
  · exact absurd ho (by decide)

theorem Chip.fabricReply_out (y : Chip) (h : PktHdr) (input : Bool) (d : List Byte) :
    (y.mgmtDone.fabricReply h input d).out = y.out ++ [.packet ⟨{ y.respHd h .ok with len := d.length }, d⟩] := by
  cases input <;> rfl

theorem mgmtRead_tells (h : s.sys.chip.letsMgmt p) (hlen : p.hdr.len = 8) (hrun : runOk addr n = true)
    (hpay : payloadIs p.payload 1 addr n [] = true) : ∃ z, exec (.mgmtRead (.fabric p) addr n) s = .next { s with sys := z } ∧
      z.mem = s.sys.mem ∧ z.chip.out = (s.sys.chip.readRun .fabric addr n).2.out ++
        [.packet ⟨{ s.sys.chip.respHd p.hdr .ok with len := (wordBytes (s.sys.chip.readRun .fabric addr n).1).length },
          wordBytes (s.sys.chip.readRun .fabric addr n).1⟩] := by
  have hexec : exec (.mgmtRead (.fabric p) addr n) s = execMgmtRead (.fabric p) addr n s := (rfl)
  rw [hexec, execMgmtRead, liftS]
  dsimp only
  rw [hrun, hpay, Bool.and_self, Sys.fabricMgmt_lets h hlen false (.inr rfl)]
  exact ⟨_, rfl, rfl, Chip.fabricReply_out ..⟩

theorem mgmtWrite_tells (h : s.sys.chip.letsMgmt p) (hlen : p.hdr.len = 8 + 4 * data.length) (hrun : runOk addr data.length = true)
    (hpay : payloadIs p.payload 2 addr data.length data = true) (hst : s.sys.chip.standsBy = false) :
    ∃ z, exec (.mgmtWrite (.fabric p) addr data) s = .next { s with sys := z } ∧ z.mem = (s.sys.writeRun .fabric addr data).mem ∧
      z.chip.out = (s.sys.writeRun .fabric addr data).chip.out ++
        [.packet ⟨{ s.sys.chip.respHd p.hdr .ok with len := ([] : List Byte).length }, []⟩] := by
  have hexec : exec (.mgmtWrite (.fabric p) addr data) s = execMgmtWrite (.fabric p) addr data s := (rfl)
  rw [hexec, execMgmtWrite, liftS]
  dsimp only
  rw [hrun, hpay, Bool.and_self, Sys.fabricMgmt_lets h hlen _ (.inl hst)]
  exact ⟨_, rfl, rfl, Chip.fabricReply_out ..⟩

theorem mgmtRead_refused (ha : s.sys.chip.addressed = true) (hs : s.sys.chip.spoofed (s.sys.chip.portOf p.hdr) p.hdr.srcHost = false)
    (hauth : s.sys.chip.mgmtAuth p.hdr.srcHost = false) : ∃ t, chipNext s (.mgmtRead (.fabric p) addr n) t ∧
      t.out.getLast? = some (.packet ⟨s.sys.chip.respHd p.hdr .noAccess, []⟩) ∧
      (t.reg (glbPg + 0x78)).toNat = min ((s.sys.chip.reg (glbPg + 0x78)).toNat + 1) 0xffffffff := by
  have hexec : exec (.mgmtRead (.fabric p) addr n) s = execMgmtRead (.fabric p) addr n s := (rfl)
  have hnext : chipNext s (.mgmtRead (.fabric p) addr n) (s.sys.chip.mgmtRefused.respond p.hdr .noAccess) := by
    rw [chipNext, hexec, execMgmtRead, liftS]
    dsimp only
    unfold Sys.fabricMgmt Sys.mgmtTurn
    rw [if_neg (by decide)]
    dsimp only
    rw [if_neg (ne_false_of_eq_true ha), if_neg (ne_true_of_eq_false hs), if_pos (.inr (.inl hauth))]
  refine ⟨_, hnext, Chip.respond_out .., ?_⟩
  rw [Chip.respond_reg, Chip.mgmtRefused, Chip.notice_reg _ _ _ (by unfold belowPt glbPg; omega) (by decide) (by decide), Chip.bump,
    Chip.reg_bumpBy]

/-! ## The voter and the triplicated registers (R429, R430) -/

theorem ballot_agreed (w : CoreWrite) : ballot [(1, some w), (2, some w), (3, some w)] = .issue w none none := by
  unfold ballot
  dsimp only
  rw [if_pos rfl, if_pos rfl]

theorem ballot_outvoted {w v : CoreWrite} (h : v ≠ w) : ballot [(1, some w), (2, some w), (3, some v)] = .issue w (some 3) none := by
  unfold ballot
  dsimp only
  rw [if_pos rfl, if_neg h]

/-- R429: with no core out all three votes count. -/
theorem vote_all (h : s.sys.chip.coreOut = 0) (a b c : Option CoreWrite) :
    [(1, a), (2, b), (3, c)].filter (fun e => e.1 != s.sys.chip.coreOut) = [(1, a), (2, b), (3, c)] := by
  rw [h]
  rfl

theorem vote_agreed (h : s.sys.chip.coreOut = 0) (w : CoreWrite) :
    exec (.vote (some w) (some w) (some w)) s = .next { s with sys := s.sys.regWrite .triad w.addr w.data } := by
  have hexec : exec (.vote (some w) (some w) (some w)) s = execVote (some w) (some w) (some w) s := (rfl)
  rw [hexec, execVote, liftS]
  dsimp only
  rw [vote_all h, ballot_agreed]

theorem vote_outvoted (h : s.sys.chip.coreOut = 0) {w v : CoreWrite} (hv : v ≠ w) :
    exec (.vote (some w) (some w) (some v)) s =
      .next { s with sys := (onChip (fun c => c.outvote 3) s.sys).regWrite .triad w.addr w.data } := by
  have hexec : exec (.vote (some w) (some w) (some v)) s = execVote (some w) (some w) (some v) s := (rfl)
  rw [hexec, execVote, liftS]
  dsimp only
  rw [vote_all h, ballot_outvoted hv]

theorem supPg_below {k : Nat} (h : k < 0x1000) : belowPt (supPg + k) := by
  unfold belowPt supPg
  omega

theorem Chip.corrected_supPg (y : Chip) (b : Nat) {k : Nat} (hk : 0x40 ≤ k) (hk' : k < 0x1000) :
    (y.corrected supPg b 0).reg (supPg + k) = y.reg (supPg + k) :=
  Chip.corrected_reg _ _ _ _ (supPg_below hk') (by omega) (by omega) (by omega)

theorem Chip.outvote_coreOut (y : Chip) : (y.outvote 3).coreOut = 3 := by
  have hreg : (y.outvote 3).reg (supPg + 0x40) = BitVec.ofNat 32 7 := by
    unfold Chip.outvote
    rw [Chip.corrected_supPg _ _ (by decide) (by decide), Chip.reg_bump_ne _ (by decide)]
    exact Chip.reg_setReg ..
  unfold Chip.coreOut Chip.fld
  rw [hreg]
  decide

theorem coreRejoin_facts : ∃ t, chipNext s .coreRejoin t ∧ s.sys.onlyRegs { s.sys with chip := t } [supPg + 0x40] ∧ t.coreOut = 0 := by
  have hexec : chipNext s .coreRejoin (s.sys.chip.setReg (supPg + 0x40) 0) := rfl
  refine ⟨_, hexec, ⟨rfl, fun a ha => Chip.reg_setReg_ne _ _ fun e => ha (List.mem_singleton.2 e.symm)⟩, ?_⟩
  unfold Chip.coreOut Chip.fld
  rw [Chip.reg_setReg]
  decide

theorem tmrSweep_one {e b : TmrBad} (he : s.sys.chip.tmr = [e]) (hb : s.sys.chip.badCopies e.addr = [b]) : ∃ t, chipNext s .tmrSweep t ∧
    t.tmr = [] ∧ (t.reg (supPg + 0x48)).toNat = min ((s.sys.chip.reg (supPg + 0x48)).toNat + 1) 0xffffffff := by
  have hexec : exec .tmrSweep s = execTmrSweep s := (rfl)
  have hnext : chipNext s .tmrSweep (s.sys.chip.tmrCheck e.addr) := by
    rw [chipNext, hexec, execTmrSweep, liftC]
    dsimp only
    rw [he]
    rfl
  have hcheck : s.sys.chip.tmrCheck e.addr =
      (Chip.bump { s.sys.chip with tmr := s.sys.chip.tmr.filter fun b => !(b.addr == e.addr) } (supPg + 0x48)).corrected supPg 1 0 := by
    unfold Chip.tmrCheck
    rw [hb]
  rw [hcheck, he] at hnext
  refine ⟨_, hnext, ?_, ?_⟩
  · rw [(Chip.reports_corrected ..).tmr, Chip.bump_tmr]
    simp
  · rw [Chip.corrected_supPg _ _ (by decide) (by decide), Chip.bump, Chip.reg_bumpBy]
    rfl

end

/-- Settles O51: TIME, NOP and session records by their commands, MGMT by the host's authority, the voter by the votes. -/
theorem sessionsAndMgmt : Obligations.SessionsAndMgmt := by
  intro s q k ws p addr n data w v y gives fresh sets good lets tells
  refine ⟨fun hf hc => xhtTime_answers hf.1 hf.2 hc, fun hf hw hst hp hr => nop_answers hf.1 hf.2 hw hst hp hr,
    fun h => ⟨fun hk hform hl => sessSet_sets h hk hform hl, fun hk => sessClear_sets h hk, sessSet_noAccess h, sessClear_noAccess h⟩,
    fun hl => ?_, mgmtRead_refused, fun h => ⟨vote_agreed h w, fun hv => ⟨vote_outvoted h hv, y.outvote_coreOut⟩⟩, coreRejoin_facts,
    fun e b => tmrSweep_one⟩
  obtain ⟨hc, ha, hs, hauth, hw⟩ := hl
  exact ⟨fun hlen hrun hpay => mgmtRead_tells ⟨hc, ha, hs, hauth, hw⟩ hlen hrun hpay,
    fun hlen hrun hpay hst => mgmtWrite_tells ⟨hc, ha, hs, hauth, hw⟩ hlen hrun hpay hst⟩

end Sys2Proof.Machine

/-! ## R374 to R382: event records, and the resets of clusters, of partitions and of the chip -/

namespace Sys2Proof.Machine

-- One after the other: side by side the proofs ask for more memory than the check grants.
set_option Elab.async false

open Laws

/-! ## What no report, fence or store write touches: the resets in progress -/

/-- The resets in progress are the same. -/
structure Chip.sameResets (s t : Chip) : Prop where
  clReset : t.parts.clReset = s.parts.clReset
  resetting : t.parts.resetting = s.parts.resetting

theorem Chip.sameResets.refl (s : Chip) : s.sameResets s := ⟨rfl, rfl⟩

theorem Chip.sameResets.trans {s t u : Chip} (h : s.sameResets t) (h' : t.sameResets u) : s.sameResets u :=
  ⟨h'.clReset.trans h.clReset, h'.resetting.trans h.resetting⟩

theorem Chip.sameResets_ite {s t u : Chip} {p : Prop} [Decidable p] (h : s.sameResets t) (h' : s.sameResets u) :
    s.sameResets (if p then t else u) := by
  split <;> assumption

theorem Chip.sameResets_of_parts {s t : Chip} (h : t.parts = s.parts) : s.sameResets t :=
  ⟨congrArg Parts.clReset h, congrArg Parts.resetting h⟩

theorem Chip.Reports.sameResets {s t : Chip} (h : s.Reports t) : s.sameResets t := ⟨h.parts_clReset, h.parts_resetting⟩

theorem Chip.Told.sameResets {s t : Chip} (h : s.Told t) : s.sameResets t := ⟨h.parts_clReset, h.parts_resetting⟩

theorem Chip.stops.sameResets {s t : Chip} (h : s.stops t) : s.sameResets t := Chip.sameResets_of_parts h.parts

theorem Chip.sameResets.clResetting {s t : Chip} (h : s.sameResets t) (c : Nat) : t.clResetting c = s.clResetting c :=
  congrArg (fun m => (KMap.at m none c).isSome) h.clReset

theorem Chip.sameResets.partResetting {s t : Chip} (h : s.sameResets t) (p : Nat) : t.partResetting p = s.partResetting p :=
  congrArg (fun m => (KMap.at m none p).isSome) h.resetting

theorem sameResets_forEach {α : Type} (l : List α) {f : α → Chip → Chip} (hf : ∀ a (s : Chip), s.sameResets (f a s))
    (s : Chip) : s.sameResets (forEach l f s) :=
  forEach_keeps (fun t => s.sameResets t) (fun a _ t ht => ht.trans (hf a t)) (.refl _)

theorem Chip.sameResets_pairFence (s : Chip) (u : UnitId) : s.sameResets (s.pairFence u) := by
  have h : s.sameResets (if s.standsBy then s.goOut else s.announce (.fence u)) := by
    refine Chip.sameResets_ite ⟨rfl, rfl⟩ ?_
    unfold Chip.announce
    exact Chip.sameResets_ite ⟨rfl, rfl⟩ (.refl _)
  have hsplit : s.pairFence u = (if s.standsBy then s.goOut else s.announce (.fence u)) ∨ s.pairFence u = s := by
    cases u <;> simp [Chip.pairFence]
  rcases hsplit with e | e <;> rw [e]
  · exact h
  · exact .refl _

theorem Chip.sameResets_fenceUnit (s : Chip) {u : UnitId} (cause : Cause)
    (h : (∃ c, u = .cluster c) ∨ ∃ p, u = .part p) : s.sameResets (s.fenceUnit u cause) := by
  unfold Chip.fenceUnit
  refine Chip.sameResets_ite (.refl _) ?_
  obtain ⟨c, rfl⟩ | ⟨p, rfl⟩ := h
  · refine Chip.sameResets.trans ?_ (Chip.stops_clusterStop ..).sameResets
    exact (s.sameResets_pairFence _).trans (Chip.sameResets_of_parts rfl)
  · exact (s.sameResets_pairFence _).trans (Chip.sameResets_of_parts rfl)

theorem Chip.sameResets_writeCopies (s : Chip) (u : UnitId) : s.sameResets (s.writeCopies u) := by
  have h : s.sameResets s.reconcile := by
    unfold Chip.reconcile
    refine Chip.sameResets.trans (t := { s with errs.stale := [] }) ⟨rfl, rfl⟩ (sameResets_forEach _ (fun _ t => ?_) _)
    exact ((t.reports_countErr fqPg 1 0 0 true).trans (Chip.reports_bump ..)).sameResets
  unfold Chip.writeCopies
  dsimp only
  have h' := h.trans (s.reconcile.reports_strike fqPg).sameResets
  exact Chip.sameResets_ite (h'.trans ⟨rfl, rfl⟩) h'

theorem Chip.sameResets_fenceAll (s : Chip) {u : UnitId} (cause : Cause)
    (h : (∃ c, u = .cluster c) ∨ ∃ p, u = .part p) : s.sameResets (s.fenceAll u cause) := by
  have h1 := (s.sameResets_fenceUnit cause h).trans (Chip.sameResets_writeCopies _ u)
  unfold Chip.fenceAll
  generalize Chip.writeCopies _ u = w at h1 ⊢
  obtain ⟨c, rfl⟩ | ⟨p, rfl⟩ := h
  · exact h1
  · exact h1.trans (sameResets_forEach _ (fun c t => t.sameResets_fenceUnit _ (.inl ⟨c, rfl⟩)) _)

theorem Chip.sameResets_wordUe (s : Chip) (c off : Nat) : s.sameResets (s.wordUe c off) := by
  unfold Chip.wordUe
  dsimp only
  generalize hu : Chip.countErr _ _ _ _ _ _ = u
  have h : s.sameResets u := by
    rw [← hu]
    refine Chip.sameResets.trans ?_ (Chip.reports_countErr ..).sameResets
    exact Chip.sameResets_ite (.refl _) ((Chip.Reports.refl s).setReg ..).sameResets
  refine Chip.sameResets_ite h ?_
  cases u.handling (.cluster c) with
  | none => exact h.trans (u.reports_fault _).sameResets
  | some f =>
    refine Chip.sameResets_ite h ?_
    cases hw : u.scopeOf f.unit with
    | none => exact h.trans (u.reports_unitRecord ..).sameResets
    | some w => exact (h.trans (Chip.sameResets_fenceAll _ _ (Chip.scopeOf_some hw))).trans (Chip.reports_fenceRecord ..).sameResets

theorem Sys.sameResets_stMeet (y : Sys) (c : Nat) (e : Nat × Mark) : y.chip.sameResets (y.stMeet c e).chip := by
  obtain ⟨k, m⟩ := e
  cases m with
  | good => exact .refl _
  | told => exact .refl _
  | one => exact (y.chip.reports_countErr _ _ _ _ _).sameResets
  | two => exact y.chip.sameResets_wordUe c _
  | poison => exact (y.chip.reports_setErr _ _).sameResets

theorem Sys.sameResets_stPut (y : Sys) (c off : Nat) (d : List Byte) : y.chip.sameResets (y.stPut c off d).chip := by
  rw [Sys.stPut_rest]
  exact ⟨rfl, rfl⟩

theorem Sys.sameResets_stMerge (y : Sys) (c off : Nat) (d : List Byte) : y.chip.sameResets (y.stMerge c off d).chip := by
  have hread : y.chip.sameResets (y.stRead c (off - off % 4) 4).2.2.chip :=
    forEachS_keeps (fun z => y.chip.sameResets z.chip) (fun e _ z hz => hz.trans (z.sameResets_stMeet c e)) (.refl _)
  unfold Sys.stMerge
  dsimp only
  split
  · exact hread.trans (Sys.sameResets_stPut ..)
  · exact hread

theorem Sys.sameResets_stRaw (y : Sys) (c off : Nat) (d : List Byte) : y.chip.sameResets (y.stRaw c off d).chip := by
  unfold Sys.stRaw
  dsimp only
  generalize hz : (if min ((4 - off % 4) % 4) d.length = 0 then y else _) = z
  have h : y.chip.sameResets z.chip := by
    rw [← hz]
    split
    · exact .refl _
    · exact y.sameResets_stMerge ..
  have h' := h.trans (z.sameResets_stPut c (off + min ((4 - off % 4) % 4) d.length)
    ((d.drop (min ((4 - off % 4) % 4) d.length)).take ((d.length - min ((4 - off % 4) % 4) d.length) / 4 * 4)))
  split
  · exact h'.trans (Sys.sameResets_stMerge ..)
  · exact h'

theorem Sys.sameResets_stWrite (y : Sys) (c off : Nat) (d : List Byte) : y.chip.sameResets (y.stWrite c off d).chip :=
  (Chip.sameResets_of_parts (y.recached_invLines c off d.length).parts).trans (Sys.sameResets_stRaw ..)

theorem Sys.sameResets_copyWordAt (y : Sys) (c : Nat) (d : Desc) (w : List Byte) :
    y.chip.sameResets (y.copyWordAt c d w).chip := by
  unfold Sys.copyWordAt
  dsimp only
  split
  · exact .refl _
  · split
    · split
      · exact .refl _
      · exact y.sameResets_stWrite ..
    · exact y.sameResets_stWrite ..

theorem Sys.sameResets_completeDesc (y : Sys) (c e : Nat) (d : Desc) : y.chip.sameResets (y.completeDesc c e d).chip := by
  unfold Sys.completeDesc
  dsimp only
  rw [onChip_chip]
  generalize hz : y.copyWordAt c d _ = z
  have h : y.chip.sameResets z.chip := hz ▸ y.sameResets_copyWordAt ..
  refine h.trans ?_
  generalize hu : Chip.wrapBy _ _ _ = u
  have h1 : z.chip.sameResets u := hu ▸ ⟨rfl, rfl⟩
  generalize hv : (if d.status = .ok then u else u.bump (cpPg c e + 0x60)) = v
  have h2 : z.chip.sameResets v := by
    rw [← hv]
    exact Chip.sameResets_ite h1 (h1.trans ⟨rfl, rfl⟩)
  have hend : ∀ w, z.chip.sameResets w → z.chip.sameResets (if db d.ws 0 5 then w.setFlag (cpPg c e + 0x54) 0 true else w) :=
    fun w h3 => Chip.sameResets_ite (h3.trans (Chip.reports_setFlag ..).sameResets) h3
  cases d.status with
  | ue => exact hend _ (h2.trans (v.reports_countErr ..).sameResets)
  | noAccess => exact hend _ (h2.trans (v.reports_notice ..).sameResets)
  | _ => exact hend _ h2

theorem Sys.sameResets_copyDone (c e n : Nat) : ∀ y : Sys, y.chip.sameResets (y.copyDone c e n).chip := by
  induction n with
  | zero => exact fun y => .refl _
  | succ n ih =>
    intro y
    unfold Sys.copyDone
    dsimp only
    split
    · exact .refl _
    · split
      · exact .refl _
      · split
        · refine Chip.sameResets.trans ?_ (ih _)
          exact Chip.sameResets_of_parts rfl
        · exact .refl _
      · split
        · exact (y.sameResets_completeDesc c e _).trans (ih _)
        · exact .refl _

theorem Sys.sameResets_copySettle (y : Sys) (c e : Nat) : y.chip.sameResets (y.copySettle c e).chip :=
  Sys.sameResets_copyDone c e _ y

end Sys2Proof.Machine

/-! PROOF of O52 (R369 to R378, R381, R382, R390): event records and reset scopes. -/

namespace Sys2Proof.Machine

-- One after the other: side by side the proofs ask for more memory than the check grants.
set_option Elab.async false

open Laws

/-! ## Event records (R371, R372) -/

theorem Chip.sealVec_seals {s : Chip} {p v : Nat} {r : EvRec} (h : s.evPend p v = some r) :
    (s.sealVec p v).evPend p v = none ∧ (s.sealVec p v).parts.sealed = s.parts.sealed ++ [(s.now, r)] := by
  unfold Chip.sealVec
  rw [h]
  exact ⟨at_put_self (d := none) s.parts.pend (256 * p + v) none, rfl⟩

section
variable {s : State} {p : PartNo} {v : Nat} {r : EvRec}

theorem sealTimeout_seals (h : s.sys.chip.evPend p v = some r) (hr : r.time ≠ 0) (hdue : r.first + 1000 * r.time ≤ s.sys.chip.now) :
    chipNext s (.vectorSealTimeout p v) (s.sys.chip.sealVec p v) := by
  have hexec : exec (.vectorSealTimeout p v) s = execVectorSealTimeout p v s := (rfl)
  rw [chipNext, hexec, execVectorSealTimeout, liftC]
  dsimp only
  rw [h]
  dsimp only
  rw [if_pos ⟨hr, hdue⟩]

theorem sealTimeout_early (h : s.sys.chip.evPend p v = some r) (hdue : s.sys.chip.now < r.first + 1000 * r.time) :
    exec (.vectorSealTimeout p v) s = .next s := by
  have hexec : exec (.vectorSealTimeout p v) s = execVectorSealTimeout p v s := (rfl)
  rw [hexec, execVectorSealTimeout, liftC]
  dsimp only
  rw [h]
  dsimp only
  rw [if_neg (fun e => Nat.not_le.2 hdue e.2)]

theorem vecDisable_seals (h : s.sys.chip.evPend p v = some r) (hv : v < 256) : ∃ t, chipNext s (.ptVecDisable p v) t ∧
    t.evPend p v = none ∧ t.parts.sealed = s.sys.chip.parts.sealed ++ [(s.sys.chip.now, r)] := by
  have hexec : exec (.ptVecDisable p v) s = execPtVecDisable p v s := (rfl)
  refine ⟨(s.sys.chip.setFlag (vecReg p v 0) 0 false).sealVec p v, ?_, Chip.sealVec_seals h⟩
  rw [chipNext, hexec, execPtVecDisable, liftC]
  dsimp only
  rw [if_neg (Nat.not_le.2 hv)]

theorem eventDeliver_early {t : Nat} (h : s.sys.chip.parts.sealed = [(t, r)]) (ht : s.sys.chip.now / 128 ≤ t / 128) :
    exec .eventDeliver s = .next s := by
  have hexec : exec .eventDeliver s = execEventDeliver s := (rfl)
  rw [hexec, execEventDeliver, liftC]
  dsimp only
  rw [h]
  dsimp only
  rw [if_pos ht]

/-- R372: one record leaves for its host over the fabric. -/
theorem Chip.sealed_sendEvents (s : Chip) (h : r.path = 1) : (s.sendEvents [r]).parts.sealed = s.parts.sealed ∨
    Word.bit (KMap.at s.hloc 0 r.host) 31 = false := by
  by_cases hbit : Word.bit (KMap.at s.hloc 0 r.host) 31 = true
  · left
    unfold Chip.sendEvents
    dsimp only
    rw [if_pos h, if_pos hbit, Chip.toHost]
    dsimp only
    rw [if_pos hbit]
    rfl
  · exact .inr (eq_false_of_ne_true hbit)

theorem eventDeliver_sends {t : Nat} (h : s.sys.chip.parts.sealed = [(t, r)]) (ht : t / 128 < s.sys.chip.now / 128)
    (hpath : r.path = 1) (hhost : Word.bit (KMap.at s.sys.chip.hloc 0 r.host) 31 = true) :
    ∃ z, chipNext s .eventDeliver z ∧ z.parts.sealed = [] := by
  have hexec : exec .eventDeliver s = execEventDeliver s := (rfl)
  refine ⟨Chip.sendEvents { s.sys.chip with parts.sealed := [] } [r], ?_, ?_⟩
  · rw [chipNext, hexec, execEventDeliver, liftC]
    dsimp only
    rw [h]
    dsimp only
    rw [if_neg (Nat.not_le.2 ht)]
    simp [EvRec.sameDest, insertRec]
  · refine (Chip.sealed_sendEvents { s.sys.chip with parts.sealed := [] } hpath).resolve_right ?_
    exact ne_false_of_eq_true hhost

end

/-! ## Cluster reset (R375 to R377, R382) -/

/-- No copy engine of the block has a descriptor. -/
structure Chip.idle (s : Chip) : Prop where
  none : ∀ d, (s.cl d).eng0.descs = [] ∧ (s.cl d).eng1.descs = []

theorem Chip.idle.eng {s : Chip} (h : s.idle) (c e : Nat) : (s.eng c e).descs = [] := by
  unfold Chip.eng
  split
  · exact (h.none c).1
  · exact (h.none c).2

theorem Chip.idle_of_eng {s : Chip} (h : ∀ d, ∀ e < 2, (s.eng d e).descs = []) : s.idle :=
  ⟨fun d => ⟨h d 0 (by decide), h d 1 (by decide)⟩⟩

theorem Chip.idle_ite {s t : Chip} {p : Prop} [Decidable p] (h : s.idle) (h' : t.idle) : (if p then s else t).idle := by
  split <;> assumption

theorem Chip.idle.of_cls {s t : Chip} (h : s.idle) (ht : t.cls = s.cls) : t.idle :=
  ⟨fun d => by rw [Chip.cl, ht]; exact h.none d⟩

theorem Chip.idle.setCl {s : Chip} (h : s.idle) (c : Nat) {x : Cl} (h0 : x.eng0.descs = []) (h1 : x.eng1.descs = []) :
    (s.setCl c x).idle := by
  refine ⟨fun d => ?_⟩
  by_cases hd : c = d
  · subst hd
    rw [Chip.cl_setCl]
    exact ⟨h0, h1⟩
  · rw [Chip.cl_setCl_ne _ _ hd]
    exact h.none d

theorem Chip.idle.setEng {s : Chip} (h : s.idle) (c e : Nat) {x : Eng} (hx : x.descs = []) : (s.setEng c e x).idle := by
  unfold Chip.setEng
  split
  · exact h.setCl c hx (h.none c).2
  · exact h.setCl c (h.none c).1 hx

theorem Chip.idle.setCore {s : Chip} (h : s.idle) (c m : Nat) (x : Core) : (s.setCore c m x).idle :=
  h.setCl c (h.none c).1 (h.none c).2

theorem Chip.idle.setFrog {s : Chip} (h : s.idle) (c : Nat) (f : Frog) : (s.setFrog c f).idle :=
  h.setCl c (h.none c).1 (h.none c).2

/-- R100: a core whose reset begins gives up the credits it holds. -/
def Chip.creditsGone (s : Chip) (c m : Nat) : Chip :=
  s.setCl c { s.cl c with credits := (s.cl c).credits.filter fun k => !(k.2 == m) }

theorem Chip.newtStop_five (s : Chip) (c m : Nat) : s.newtStop c m 5 =
    if (s.core c m).absent = true ∨ (s.core c m).st = 0 ∨ (s.core c m).flush = 2 then s
    else ((s.creditsGone c m).setCore c m
      { s.core c m with flush := 2, badDirty := false, haltReq := false }).setStop c m 5 := by
  unfold Chip.newtStop
  dsimp only
  by_cases h : (s.core c m).absent = true
  · rw [if_pos h, if_pos (.inl h)]
  · rw [if_neg h]
    exact if_congr (by simp [h]) rfl rfl

theorem Chip.idle.newtStop {s : Chip} (h : s.idle) (c m : Nat) : (s.newtStop c m 5).idle := by
  have hset : ∀ {t : Chip}, t.idle → (t.setStop c m 5).idle := fun {t} ht => by
    unfold Chip.setStop
    exact Chip.idle_ite (ht.of_cls rfl) ht
  have hgone : (s.creditsGone c m).idle := h.setCl c (h.none c).1 (h.none c).2
  rw [Chip.newtStop_five]
  exact Chip.idle_ite h (hset (hgone.setCore c m _))

theorem Chip.idle.postAbort {s : Chip} (h : s.idle) (c d n : Nat) (st : Status) : (s.postAbort c d n st).idle :=
  h.of_cls rfl

theorem Chip.idle.releaseTable {s : Chip} (h : s.idle) (c : Nat) (st : Status) : (s.releaseTable c st).idle := by
  unfold Chip.releaseTable
  dsimp only
  split
  · exact h
  · exact Chip.idle.setFrog (forEach_keeps Chip.idle (fun d _ t ht => ht.postAbort c d _ st) h) c _

theorem Chip.idle.leaveScan {s : Chip} (h : s.idle) (c n : Nat) (d : List Word) (st : Status) :
    (s.leaveScan c n d st).idle := by
  have h' : (if dw d 11 23 16 = c then s else s.postAbort c (dw d 11 23 16) (dw d 11 31 24) st).idle :=
    Chip.idle_ite h (h.postAbort ..)
  unfold Chip.leaveScan
  exact Chip.idle_ite h (Chip.idle_ite (h'.releaseTable c st) h')

theorem Chip.idle.frogStop {s : Chip} (h : s.idle) (c : Nat) : (s.frogStop c .reset).idle := by
  unfold Chip.frogStop
  dsimp only
  rw [if_neg (by decide)]
  generalize hu : Chip.setReg _ _ _ = u
  have hu' : u.idle := by
    rw [← hu]
    exact (h.setFrog c _).of_cls rfl
  refine Chip.idle.releaseTable ?_ c .reset
  split
  · exact hu'.leaveScan c _ _ _
  · exact hu'

theorem Chip.idle.copyStop {s : Chip} (h : s.idle) (c e : Nat) : (s.copyStop c e .reset).idle := by
  unfold Chip.copyStop
  dsimp only
  rw [if_neg (by decide)]
  have haccs : Chip.idle { s with accs := s.accs.filter fun a => !(a.src == BlkSrc.walk c e) } := h.of_cls rfl
  refine Chip.idle.setEng (Chip.idle.setCl haccs c ?_ ?_) c e ?_
  · exact (haccs.none c).1
  · exact (haccs.none c).2
  · rw [h.eng]
    rfl

theorem Chip.idle.clusterStop {s : Chip} (h : s.idle) (c : Nat) : (s.clusterStop c .reset 5).idle := by
  have hnewts : (forEach (List.range 129) (fun m s => s.newtStop c m 5) s).idle :=
    forEach_keeps Chip.idle (fun m _ t ht => ht.newtStop c m) h
  unfold Chip.clusterStop
  exact ((hnewts.frogStop c).copyStop c 0).copyStop c 1

/-- R376: a TLB that is empty, with no walk in flight. -/
def Chip.tlbGone (s : Chip) (c : Nat) : Chip :=
  let s := s.tlbDrop c fun _ => true
  let s := s.setCl c { s.cl c with walks := [] }
  { s with accs := s.accs.filter fun a => match a.src with
    | .walk d _ => !(d == c)
    | _ => true }

theorem Chip.clearTlb_eq (s : Chip) (c : Nat) : s.clearTlb c =
    if (s.tlbGone c).flag (tlbPg c + 0x54) 31 then (s.tlbGone c).preEnds c 0xB else s.tlbGone c := rfl

theorem Chip.parts_clearTlb (s : Chip) (c : Nat) : (s.clearTlb c).parts = s.parts := by
  rw [Chip.clearTlb_eq]
  split
  · exact (Chip.parts_preEnds ..).trans rfl
  · rfl

theorem Chip.cl_tlbGone (s : Chip) (c d : Nat) : ((s.tlbGone c).cl d).eng0 = (s.cl d).eng0 ∧
    ((s.tlbGone c).cl d).eng1 = (s.cl d).eng1 ∧ (d = c → ((s.tlbGone c).cl d).walks = []) := by
  have hcl : ∀ l, Chip.cl { (s.tlbGone c) with accs := l } d = (s.tlbGone c).cl d := fun _ => rfl
  have hset : (s.tlbGone c).cl d = ((s.tlbDrop c fun _ => true).setCl c
      { (s.tlbDrop c fun _ => true).cl c with walks := [] }).cl d := rfl
  rw [hset]
  by_cases hd : c = d
  · subst hd
    rw [Chip.cl_setCl, Chip.tlbDrop, Chip.cl_setCl]
    exact ⟨rfl, rfl, fun _ => rfl⟩
  · rw [Chip.cl_setCl_ne _ _ hd, Chip.tlbDrop, Chip.cl_setCl_ne _ _ hd]
    exact ⟨rfl, rfl, fun e => absurd e.symm hd⟩

theorem Chip.cl_preEnds (s : Chip) (c r d : Nat) : ((s.preEnds c r).cl d).eng0 = (s.cl d).eng0 ∧
    ((s.preEnds c r).cl d).eng1 = (s.cl d).eng1 ∧ ((s.preEnds c r).cl d).walks = (s.cl d).walks := by
  have hset : (s.preEnds c r).cl d = (s.setCl c { s.cl c with pre := none }).cl d := by
    unfold Chip.preEnds Chip.cl
    dsimp only
    rw [Chip.setReg_cls, Chip.setFlag_cls]
  rw [hset]
  by_cases hd : c = d
  · subst hd
    rw [Chip.cl_setCl]
    exact ⟨rfl, rfl, rfl⟩
  · rw [Chip.cl_setCl_ne _ _ hd]
    exact ⟨rfl, rfl, rfl⟩

theorem Chip.cl_clearTlb (s : Chip) (c d : Nat) : ((s.clearTlb c).cl d).eng0 = (s.cl d).eng0 ∧
    ((s.clearTlb c).cl d).eng1 = (s.cl d).eng1 ∧ (d = c → ((s.clearTlb c).cl d).walks = []) := by
  obtain ⟨h0, h1, hw⟩ := s.cl_tlbGone c d
  rw [Chip.clearTlb_eq]
  split
  · obtain ⟨p0, p1, pw⟩ := (s.tlbGone c).cl_preEnds c 0xB d
    exact ⟨p0.trans h0, p1.trans h1, fun e => pw.trans (hw e)⟩
  · exact ⟨h0, h1, hw⟩

theorem Chip.idle.clearTlb {s : Chip} (h : s.idle) (c : Nat) : (s.clearTlb c).idle := by
  refine ⟨fun d => ?_⟩
  obtain ⟨h0, h1, -⟩ := s.cl_clearTlb c d
  rw [h0, h1]
  exact h.none d

/-- R376: the cluster without queued events and without a broadcast. -/
def Chip.queuesGone (s : Chip) (c : Nat) : Chip := s.setCl c { s.cl c with evq := [], bcast := [] }

/-- R376: the registers show it. -/
def Chip.queueRegs (s : Chip) (c n : Nat) : Chip :=
  let s := s.bumpBy (ptPg (((s.ownerOf c).getD 0) / 32) + 0x58) n
  let s := s.bumpBy (clPg c + 0x48) n
  let s := (s.setFlag (nwPg c + 0x8C) 0 false).setFlag (nwPg c + 0x8C) 2 false
  forEach (List.range 17) (fun i s => s.setReg (nwPg c + 0xC0 + 4 * i) 0) s

theorem Chip.clearQueues_eq (s : Chip) (c : Nat) : s.clearQueues c = (s.queuesGone c).queueRegs c (s.cl c).evq.length := rfl

theorem Chip.queueRegs_rest (s : Chip) (c n : Nat) : (s.queueRegs c n).cls = s.cls ∧ (s.queueRegs c n).parts = s.parts := by
  unfold Chip.queueRegs
  dsimp only
  refine forEach_keeps (fun t => t.cls = s.cls ∧ t.parts = s.parts) (fun i _ t ht => ?_) ?_
  · rw [Chip.setReg_cls, Chip.setReg_parts]
    exact ht
  · rw [Chip.setFlag_cls, Chip.setFlag_cls, Chip.setFlag_parts, Chip.setFlag_parts]
    exact ⟨rfl, rfl⟩

theorem Chip.idle.clearQueues {s : Chip} (h : s.idle) (c : Nat) : (s.clearQueues c).idle := by
  have hgone : (s.queuesGone c).idle := h.setCl c (h.none c).1 (h.none c).2
  rw [Chip.clearQueues_eq]
  exact hgone.of_cls (Chip.queueRegs_rest ..).1

theorem Chip.cl_clearQueues (s : Chip) (c : Nat) : (s.clearQueues c).cl c = { s.cl c with evq := [], bcast := [] } := by
  rw [Chip.clearQueues_eq, Chip.cl, (Chip.queueRegs_rest ..).1]
  exact Chip.cl_setCl ..

theorem Chip.parts_clearQueues (s : Chip) (c : Nat) : (s.clearQueues c).parts = s.parts := by
  rw [Chip.clearQueues_eq]
  exact (Chip.queueRegs_rest ..).2

/-- R375, R376: a cluster whose reset has begun. -/
def Chip.resetMarked (s : Chip) (c : Nat) : Chip :=
  let s := { s with parts.clReset := KMap.put s.parts.clReset none c (some s.now) }
  let s := s.setFlag (clPg c + 0x40) 0 true
  s.endReqs (s.needsCl c) .reset

/-- R376: what a reset stops and clears. -/
def Chip.resetCleared (s : Chip) (c : Nat) : Chip :=
  (((s.resetMarked c).clusterStop c .reset 5).clearTlb c).clearQueues c

theorem Chip.clResetting_resetMarked (s : Chip) (c : Nat) : (s.resetMarked c).clResetting c = true :=
  congrArg Option.isSome (at_put_self (d := none) s.parts.clReset c (some s.now))

theorem Chip.clResetting_resetCleared (s : Chip) (c : Nat) : (s.resetCleared c).clResetting c = true := by
  have h : (s.resetMarked c).sameResets (s.resetCleared c) := by
    refine Chip.sameResets_of_parts ?_
    rw [Chip.resetCleared, Chip.parts_clearQueues, Chip.parts_clearTlb, (Chip.stops_clusterStop ..).parts]
  rw [h.clResetting, Chip.clResetting_resetMarked]

theorem Chip.idle.resetCleared {s : Chip} (h : s.idle) (c : Nat) : (s.resetCleared c).idle :=
  ((Chip.idle.clusterStop (s := s.resetMarked c) (h.of_cls rfl) c).clearTlb c).clearQueues c

theorem Chip.cl_resetCleared (s : Chip) (c : Nat) : ((s.resetCleared c).cl c).evq = [] ∧
    ((s.resetCleared c).cl c).bcast = [] ∧ ((s.resetCleared c).cl c).walks = [] := by
  rw [Chip.resetCleared, Chip.cl_clearQueues]
  exact ⟨rfl, rfl, (Chip.cl_clearTlb _ c c).2.2 rfl⟩

/-! ### The XC descriptors that run into the cluster (R128) -/

theorem Chip.sameResets_xcReset (s : Chip) (t c e : Nat) : s.sameResets (s.xcReset t c e) := by
  unfold Chip.xcReset
  exact Chip.sameResets_ite (.refl _) ⟨rfl, rfl⟩

theorem Sys.sameResets_xcEnds (c : Nat) (y : Sys) : y.chip.sameResets (execClusterReset.xcEnds c y).chip := by
  unfold execClusterReset.xcEnds
  refine forEachS_keeps (fun z => y.chip.sameResets z.chip) (fun d _ z hz => ?_) (.refl _)
  refine (hz.trans ?_).trans ((Sys.sameResets_copySettle ..).trans (Sys.sameResets_copySettle ..))
  exact (z.chip.sameResets_xcReset c d 0).trans (Chip.sameResets_xcReset _ c d 1)

theorem Chip.idle.xcReset {s : Chip} (h : s.idle) (t c e : Nat) : s.xcReset t c e = s := by
  unfold Chip.xcReset
  dsimp only
  rw [h.eng]
  rfl

theorem Chip.idle.copySettle {y : Sys} (h : y.chip.idle) (c e : Nat) : y.copySettle c e = y := by
  unfold Sys.copySettle
  rw [h.eng]
  rfl

theorem Chip.idle.xcEnds {y : Sys} (h : y.chip.idle) (c : Nat) : execClusterReset.xcEnds c y = y := by
  unfold execClusterReset.xcEnds
  refine forEachS_keeps (fun z => z = y) (fun d _ z hz => ?_) rfl
  subst hz
  have hxc : onChip (fun s => (s.xcReset c d 0).xcReset c d 1) z = z := by
    rw [onChip, h.xcReset, h.xcReset]
  rw [hxc]
  exact (congrArg (·.copySettle d 1) (h.copySettle d 0)).trans (h.copySettle d 1)

section
variable {s : State} {c : ClusterNo}

theorem clusterReset_begins (hc : s.sys.chip.clResetting c = false)
    (hp : ∀ x, s.sys.chip.ownerOf c = some x → s.sys.chip.partResetting (x / 32) = false) :
    exec (.clusterReset c) s = .next { s with
      sys := execClusterReset.xcEnds c { s.sys with chip := s.sys.chip.resetCleared c } } := by
  have hexec : exec (.clusterReset c) s = execClusterReset c s := (rfl)
  rw [hexec, execClusterReset, liftS]
  dsimp only
  rw [if_neg]
  · rfl
  rintro (h | h)
  · rw [hc] at h
    cases h
  · cases howner : s.sys.chip.ownerOf c with
    | none =>
      rw [howner] at h
      cases h
    | some x =>
      rw [howner] at h
      exact absurd h (ne_true_of_eq_false (hp x howner))

theorem clusterReset_again (hc : s.sys.chip.clResetting c = true) : exec (.clusterReset c) s = .next s := by
  have hexec : exec (.clusterReset c) s = execClusterReset c s := (rfl)
  rw [hexec, execClusterReset, liftS]
  dsimp only
  rw [if_pos (.inl hc)]

theorem clusterReset_resets (hc : s.sys.chip.clResetting c = false)
    (hp : ∀ x, s.sys.chip.ownerOf c = some x → s.sys.chip.partResetting (x / 32) = false) :
    ∃ z, exec (.clusterReset c) s = .next { s with sys := z } ∧ z.chip.clResetting c = true ∧
      ((∀ d, ∀ e < 2, (s.sys.chip.eng d e).descs = []) → z.mem = s.sys.mem ∧ (z.chip.cl c).evq = [] ∧
        (z.chip.cl c).bcast = [] ∧ (z.chip.cl c).walks = []) := by
  refine ⟨_, clusterReset_begins hc hp, ?_, fun hidle => ?_⟩
  · rw [(Sys.sameResets_xcEnds ..).clResetting, Chip.clResetting_resetCleared]
  · have h := (Chip.idle_of_eng hidle).resetCleared c
    rw [Chip.idle.xcEnds (y := { s.sys with chip := s.sys.chip.resetCleared c }) h]
    exact ⟨rfl, s.sys.chip.cl_resetCleared c⟩

end

end Sys2Proof.Machine

/-! ## R376 to R378, R381, R491: how cluster resets end, partition resets, chip resets -/

namespace Sys2Proof.Machine

-- One after the other: side by side the proofs ask for more memory than the check grants.
set_option Elab.async false

open Laws

/-! ## Registers that the events of a page do not write -/

/-- Register a is none of those that an event on vector v of partition p writes. -/
structure partApart (p v a : Nat) : Prop where
  lost : ptPg p + 0x58 ≠ a
  last : ptPg p + 0x5C ≠ a
  vec : vecReg p v 3 ≠ a

theorem Chip.sealVec_apart (s : Chip) {p v a : Nat} (h : partApart p v a) : (s.sealVec p v).reg a = s.reg a := by
  unfold Chip.sealVec
  split
  · rfl
  · dsimp only
    rw [Chip.reg_bump_ne _ h.vec, Chip.reg_setReg_ne _ _ h.last]
    rfl

theorem Chip.raise_apart (s : Chip) {p v a : Nat} (b i c d e : Nat) (h : partApart p v a) :
    (s.raise p v b i c d e).reg a = s.reg a := by
  have helapsed : (s.sealElapsed p v).reg a = s.reg a := by
    unfold Chip.sealElapsed
    split
    · rfl
    · split
      · exact s.sealVec_apart h
      · rfl
  have hdue : ∀ t : Chip, (t.sealIfDue p v).reg a = t.reg a := fun t => by
    unfold Chip.sealIfDue
    split
    · rfl
    · split
      · exact t.sealVec_apart h
      · rfl
  unfold Chip.raise
  split
  · exact Chip.reg_bump_ne _ h.lost
  · exact (hdue _).trans helapsed

/-- Register a is none of those that an event of page pg writes, whatever its routing. -/
def eventApart (pg a : Nat) : Prop := ∀ t : Chip, partApart (t.evPart pg) (t.fld (pg + 0x24) 15 8) a

theorem Chip.pageEventD_apart (s : Chip) {pg a : Nat} (c d e : Nat) (h : eventApart pg a) :
    (s.pageEventD pg c d e).reg a = s.reg a := by
  unfold Chip.pageEventD
  split
  · exact s.raise_apart _ _ _ _ _ (h s)
  · rfl

theorem Chip.notice_apart (s : Chip) {pg a : Nat} (b : Nat) (h : eventApart pg a) (h1 : a ≠ pg + 0x10) (h2 : a ≠ pg + 0x18) :
    (s.notice pg b).reg a = s.reg a := by
  have hlatch : (s.latchFirst pg b 0 0 false).reg a = s.reg a := Chip.latchFirst_reg _ _ _ _ _ _ h2
  unfold Chip.notice Chip.setErr
  dsimp only
  generalize s.latchFirst pg b 0 0 false = u at hlatch
  have hflag : (u.setFlag (errStat pg) b true).reg a = u.reg a := Chip.reg_setFlag_ne _ _ _ (Ne.symm h1)
  split
  · exact hflag.trans hlatch
  · exact ((Chip.pageEventD_apart _ _ _ _ h).trans hflag).trans hlatch

/-- Offsets beyond the vectors of a partition page. -/
def offVec (a : Nat) : Prop := 0x2000 ≤ a % 0x4000

theorem offVec.apart {a : Nat} (h : offVec a) (pg : Nat) : eventApart pg a := by
  intro t
  have hv := fld_lt t (pg + 0x24) 15 8
  unfold offVec at h
  refine ⟨?_, ?_, ?_⟩
  · unfold ptPg
    omega
  · unfold ptPg
    omega
  · unfold vecReg ptPg
    omega

theorem pwrPg_off {k : Nat} (h : k < 0x2000) : offVec (pwrPg + k) := by
  unfold offVec pwrPg
  omega

/-! ## The end of a cluster reset (R376, R390) -/

theorem Chip.resetDoneFor_done (s : Chip) {p : UnitId → Bool} {u : UnitId} (hu : p u = true) :
    ∀ f ∈ (s.resetDoneFor p).errs.fences, f.unit = u → f.resetDone = true := by
  intro f hf hunit
  obtain ⟨x, -, hx⟩ := List.mem_map.1 hf
  split at hx
  · rw [← hx]
  · rename_i hp
    have hpf : p f.unit = true := by rw [hunit, hu]
    exact absurd (hx ▸ hpf) hp

/-- R376: the cluster control core has restarted, and the reset is over. -/
def Chip.cccBack (s : Chip) (c : Nat) : Chip :=
  { s.startCcc c with parts.clReset := KMap.put s.parts.clReset none c none }

/-- R376: the registers show the end of the reset. -/
def Chip.resetShown (s : Chip) (c : Nat) : Chip :=
  ((s.setFlag (clPg c + 0x40) 0 false).bump (clPg c + 0x44)).notice (clPg c) 0

/-- R390: the units of a cluster that its reset covers. -/
def ofCluster (c : Nat) (u : UnitId) : Bool := u == .cluster c || u == .frog c || u == .copy c 0 || u == .copy c 1

theorem Chip.reports_resetShown (s : Chip) (c : Nat) : s.Reports (s.resetShown c) :=
  ((s.reports_setFlag ..).trans (Chip.reports_bump ..)).trans (Chip.reports_notice ..)

theorem Chip.core_cccBack (s : Chip) (c : Nat) : ((s.cccBack c).core c 128).st = 2 ∧ ((s.cccBack c).core c 128).pc = 0 := by
  have hcore : (s.cccBack c).core c 128 = (s.startCcc c).core c 128 := rfl
  rw [hcore, Chip.startCcc, Chip.core_setCore]
  exact ⟨rfl, rfl⟩

section
variable {s : State} {c : ClusterNo}

theorem clusterReset_ends (hc : s.sys.chip.clResetting c = true) (hoff : s.sys.chip.coresOff c = true)
    (hrest : s.sys.chip.copiesRest c = true) : ∃ t, chipNext s (.clusterResetDone c) t ∧ t.clResetting c = false ∧
      (t.core c 128).st = 2 ∧ (t.core c 128).pc = 0 ∧ (∀ f ∈ t.errs.fences, f.unit = .cluster c → f.resetDone = true) := by
  have hexec : exec (.clusterResetDone c) s = execClusterResetDone c s := (rfl)
  have hnext : chipNext s (.clusterResetDone c) (((s.sys.chip.cccBack c).resetShown c).resetDoneFor (ofCluster c)) := by
    rw [chipNext, hexec, execClusterResetDone, liftC]
    dsimp only
    rw [if_pos (by rw [hc, hoff, hrest]; rfl)]
    rfl
  have hreports := (s.sys.chip.cccBack c).reports_resetShown c
  have hcl : (((s.sys.chip.cccBack c).resetShown c).resetDoneFor (ofCluster c)).cls = (s.sys.chip.cccBack c).cls := hreports.cls
  have hcore : (((s.sys.chip.cccBack c).resetShown c).resetDoneFor (ofCluster c)).core c 128 =
      (s.sys.chip.cccBack c).core c 128 := by
    rw [Chip.core, Chip.cl, hcl]
    rfl
  obtain ⟨hst, hpc⟩ := s.sys.chip.core_cccBack c
  refine ⟨_, hnext, ?_, by rw [hcore, hst], by rw [hcore, hpc], Chip.resetDoneFor_done _ (by simp [ofCluster])⟩
  exact (hreports.sameResets.clResetting c).trans
    (congrArg Option.isSome (at_put_self (d := none) s.sys.chip.parts.clReset c none))

theorem clusterReset_waits (h : s.sys.chip.clResetting c = false ∨ s.sys.chip.coresOff c = false ∨
    s.sys.chip.copiesRest c = false) : exec (.clusterResetDone c) s = .next s := by
  have hexec : exec (.clusterResetDone c) s = execClusterResetDone c s := (rfl)
  rw [hexec, execClusterResetDone, liftC]
  dsimp only
  rw [if_neg]
  rcases h with h | h | h <;> simp [h]

end

/-! ## Partition resets (R378) -/

theorem Chip.sameResets_sealVec (s : Chip) (p v : Nat) : s.sameResets (s.sealVec p v) := (s.reports_sealVec p v).sameResets

theorem Chip.sameResets_killCtx (s : Chip) (x : Nat) (w : KillWhy) : s.sameResets (s.killCtx x w) := by
  by_cases h : 1 ≤ (s.ctxAt x).state ∧ (s.ctxAt x).state ≤ 3
  · exact Chip.sameResets.trans (t := s.killedCtx x w) ⟨rfl, rfl⟩ (Chip.told_killCtx w h).sameResets
  · unfold Chip.killCtx
    dsimp only
    rw [if_neg h]
    generalize hu : (if (s.ctxAt x).outranks w s.now = true then _ else s) = u
    have hsame : s.sameResets u := by
      rw [← hu]
      exact Chip.sameResets_ite ⟨rfl, rfl⟩ (.refl s)
    exact Chip.sameResets_ite (hsame.trans (u.reports_bump _).sameResets) hsame

theorem Chip.sameResets_resetCtx (s : Chip) (x : Nat) : s.sameResets (s.resetCtx x) := by
  unfold Chip.resetCtx
  have h := s.sameResets_killCtx x (killOf 9)
  exact Chip.sameResets_ite (h.trans ⟨rfl, rfl⟩) h

theorem Chip.sameResets_startReturn (s : Chip) (id : Nat) : s.sameResets (s.startReturn id) := by
  unfold Chip.startReturn
  cases s.rights.revs.find? fun r => r.id == id with
  | none => exact .refl s
  | some r =>
    dsimp only
    have hgone : s.sameResets { s with rights.revs := s.rights.revs.filter fun x => !(x.id == id) } := ⟨rfl, rfl⟩
    have hcommit : ∀ (u : Chip) (tc : Nat), u.sameResets (u.commitLater tc (.ret id)) := fun _ _ => ⟨rfl, rfl⟩
    have hshadow : ∀ (u : Chip) (ch : IsoChange), u.sameResets (u.toShadow ch) := fun _ _ => ⟨rfl, rfl⟩
    have hupd : ∀ p f, s.sameResets (s.updRevs p f) := fun _ _ => ⟨rfl, rfl⟩
    refine Chip.sameResets_ite ?_ ?_
    · exact ((hupd _ _).trans (sameResets_forEach _ (fun _ u => hshadow u _) _)).trans (hcommit _ _)
    · cases r.q with
      | none => exact hgone
      | some q => exact hgone.trans (Chip.told_cmdAnswer ..).sameResets

theorem Chip.sameResets_extReturnAt (s : Chip) (q : Option CmdReq) (p : Nat) (es : List Nat) :
    s.sameResets (s.extReturnAt q p es) := by
  have hopen : s.sameResets (s.openRev q .extReturn p 0 es []).2 := ⟨rfl, rfl⟩
  unfold Chip.extReturnAt
  dsimp only
  exact Chip.sameResets_ite (hopen.trans ⟨rfl, rfl⟩) (hopen.trans (Chip.sameResets_startReturn ..))

/-- R378: a partition whose reset has begun. -/
def Chip.partMarked (s : Chip) (p : Nat) : Chip :=
  { s with parts.resetting := KMap.put s.parts.resetting none p (some s.now) }

/-- R378 steps 1 and 2. -/
def Chip.partStopped (s : Chip) (p : Nat) : Chip :=
  forEach (List.range 32) (fun k s => s.resetCtx (32 * p + k))
    (((s.setFlag (ptPg p + 0x44) 0 true).sealAll p).endReqs (fun r => r.part == p) .reset)

theorem Chip.partReset_eq (s : Chip) {p : Nat} (hp : p ≠ 0) (h : s.partResetting p = false) : s.partReset p =
    if ((s.partMarked p).partStopped p).flag (ptPg p + 0x40) 0 && !(((s.partMarked p).partStopped p).ownedExts p).isEmpty
    then ((s.partMarked p).partStopped p).extReturnAt none p (((s.partMarked p).partStopped p).ownedExts p)
    else (s.partMarked p).partStopped p := by
  unfold Chip.partReset
  rw [if_neg (by simp [hp, h])]
  rfl

theorem Chip.sameResets_partStopped (s : Chip) (p : Nat) : s.sameResets (s.partStopped p) := by
  have hseal : s.sameResets ((s.setFlag (ptPg p + 0x44) 0 true).sealAll p) := by
    unfold Chip.sealAll
    exact (s.reports_setFlag ..).sameResets.trans (sameResets_forEach _ (fun e t => t.sameResets_sealVec p _) _)
  unfold Chip.partStopped
  generalize (s.setFlag (ptPg p + 0x44) 0 true).sealAll p = u at hseal
  have hend : u.sameResets (u.endReqs (fun r => r.part == p) .reset) := ⟨rfl, rfl⟩
  exact (hseal.trans hend).trans (sameResets_forEach _ (fun k t => t.sameResets_resetCtx _) _)

section
variable {s : State} {p : PartNo}

theorem partitionReset_begins (hp : p.val ≠ 0) (h : s.sys.chip.partResetting p = false) :
    ∃ t, chipNext s (.partitionReset p) t ∧ t.partResetting p = true := by
  have hexec : chipNext s (.partitionReset p) (s.sys.chip.partReset p) := (rfl)
  have hsame : (s.sys.chip.partMarked p).sameResets (s.sys.chip.partReset p) := by
    have hstop := (s.sys.chip.partMarked p).sameResets_partStopped p
    rw [Chip.partReset_eq _ hp h]
    exact Chip.sameResets_ite (hstop.trans (Chip.sameResets_extReturnAt ..)) hstop
  refine ⟨_, hexec, (hsame.partResetting p).trans ?_⟩
  exact congrArg Option.isSome (at_put_self (d := none) s.sys.chip.parts.resetting p.val (some s.sys.chip.now))

theorem partitionReset_same (h : p.val = 0 ∨ s.sys.chip.partResetting p = true) : exec (.partitionReset p) s = .next s := by
  have hexec : chipNext s (.partitionReset p) (s.sys.chip.partReset p) := (rfl)
  have hsame : s.sys.chip.partReset p = s.sys.chip := by
    unfold Chip.partReset
    rw [if_pos]
    rcases h with h | h <;> simp [h]
  rw [hsame] at hexec
  exact hexec

/-- R378: the partition runs again: its windows are reset. -/
def Chip.partBack (s : Chip) (p : Nat) : Chip :=
  { s with
    eth.cmdWin := s.eth.cmdWin.filter fun e => !(e.1 / 16 == p)
    parts.resetting := KMap.put s.parts.resetting none p none }

/-- R378: the registers show the end of the partition's reset, and its event is raised. -/
def Chip.partShown (s : Chip) (p t : Nat) : Chip :=
  let s := ((s.setFlag (ptPg p + 0x44) 0 false).bump (ptPg p + 0x48)).setPair (ptPg p + 0x4C) t
  s.pageEventD (ptPg p) 0 (s.reg (ptPg p + 0x48)).toNat 0

theorem Chip.reports_partShown (s : Chip) (p t : Nat) : s.Reports (s.partShown p t) := by
  unfold Chip.partShown
  dsimp only
  refine Chip.Reports.trans ?_ (Chip.reports_pageEventD ..)
  exact ((s.reports_setFlag ..).trans (Chip.reports_bump ..)).trans (((Chip.Reports.refl _).setReg ..).setReg ..)

theorem partitionReset_ends {a : Nat} (h : KMap.at s.sys.chip.parts.resetting none p = some a)
    (hfree : ∀ k < 32, (s.sys.chip.ctxAt (32 * p + k)).state = 0) (hdone : s.sys.chip.channelsDone p = true) :
    ∃ t, chipNext s (.partitionResetDone p) t ∧ t.partResetting p = false ∧
      ∀ f ∈ t.errs.fences, f.unit = .part p → f.resetDone = true := by
  have hexec : exec (.partitionResetDone p) s = execPartitionResetDone p s := (rfl)
  have hnext : chipNext s (.partitionResetDone p)
      (((s.sys.chip.partBack p).partShown p a).resetDoneFor fun u => u == .part p) := by
    rw [chipNext, hexec, execPartitionResetDone, liftC]
    dsimp only
    rw [h]
    dsimp only
    rw [if_pos ⟨by simpa using hfree, hdone⟩]
    rfl
  refine ⟨_, hnext, ?_, Chip.resetDoneFor_done _ (by simp)⟩
  exact (((s.sys.chip.partBack p).reports_partShown p a).sameResets.partResetting p).trans
    (congrArg Option.isSome (at_put_self (d := none) s.sys.chip.parts.resetting p.val none))

end

/-! ## Chip resets (R381, R434, R490, R491) -/

section
variable {s : State}

/-- R381, R421: what a chip reset leaves: the board's flash and the time the chip has run. -/
theorem Sys.chipReset_facts (y : Sys) : y.chipReset.mem = { flash := y.mem.flash } ∧
    y.chipReset.chip.boot = { tripped := y.chip.boot.tripped } ∧ y.chipReset.chip.cls = [] ∧
    y.chipReset.chip.rights = {} ∧ y.chipReset.chip.ref = y.chip.ref := by
  have hout : ∀ c : Chip, c.alertOut.boot = c.boot ∧ c.alertOut.cls = c.cls ∧ c.alertOut.rights = c.rights ∧
      c.alertOut.ref = c.ref := fun c => ⟨rfl, rfl, rfl, rfl⟩
  unfold Sys.chipReset
  dsimp only
  refine ⟨rfl, ?_⟩
  split
  · obtain ⟨hboot, hcls, hrights, href⟩ := hout { ref := y.chip.ref, free := y.chip.free, out := y.chip.out, boot := { tripped := y.chip.boot.tripped } }
    rw [hboot, hcls, hrights, href]
    exact ⟨rfl, rfl, rfl, rfl⟩
  · exact ⟨rfl, rfl, rfl, rfl⟩

theorem chipReset_restarts (h : s.sys.chip.errs.chipUe.isSome = true ∨ s.sys.chip.boot.resetDue = true)
    (ht : s.sys.chip.boot.tripped = false) : ∃ z, exec .chipReset s = .next { s with sys := z } ∧
      z.mem = { flash := s.sys.mem.flash } ∧ z.chip.boot.on = true ∧ z.chip.cls = [] ∧ z.chip.rights = {} ∧
      z.chip.ref = s.sys.chip.ref := by
  have hexec : exec .chipReset s = execChipReset s := (rfl)
  obtain ⟨hmem, hboot, hcls, hrights, href⟩ := s.sys.chipReset_facts
  refine ⟨onChip Chip.startBoot s.sys.chipReset, ?_, hmem, rfl, hcls, hrights, href⟩
  rw [hexec, execChipReset, liftS]
  dsimp only
  rw [if_neg (by rcases h with h | h <;> simp [h]; intro e; simp [e] at h), hboot]
  dsimp only
  rw [ht, if_neg (by decide)]

theorem chipReset_same (h : s.sys.chip.errs.chipUe = none) (hdue : s.sys.chip.boot.resetDue = false)
    (ht : s.sys.chip.boot.tripped = false) : exec .chipReset s = .next s := by
  have hexec : exec .chipReset s = execChipReset s := (rfl)
  rw [hexec, execChipReset, liftS]
  dsimp only
  rw [if_pos ⟨by simp [h], hdue, by simp [ht]⟩]

theorem powerGood_starts (hon : s.sys.chip.boot.on = false) (ht : s.sys.chip.boot.tripped = false) :
    chipNext s .powerGood s.sys.chip.startBoot := by
  have hexec : exec .powerGood s = execPowerGood s := (rfl)
  rw [chipNext, hexec, execPowerGood, liftC]
  dsimp only
  rw [if_neg (by simp [hon, ht])]

theorem Sys.heldReset_facts (y : Sys) : y.heldReset.mem = { flash := y.mem.flash } ∧ y.heldReset.chip.boot.low = true ∧
    y.heldReset.chip.boot.on = false ∧ y.heldReset.chip.flag (pairPg + 0x48) 14 = true := by
  obtain ⟨hmem, hboot, -, -, -⟩ := y.chipReset_facts
  unfold Sys.heldReset onChip
  dsimp only
  generalize hu : ({ y.chipReset.chip with boot.low := true } : Chip) = u
  have hlow : u.boot.low = true ∧ u.boot.on = false := by
    rw [← hu]
    exact ⟨rfl, congrArg Boot.on hboot⟩
  have hflag : u.alertOut.flag (pairPg + 0x48) 14 = true := by
    have hpass : u.alertOut.flag (pairPg + 0x48) 14 = (u.setFlag (pairPg + 0x48) 14 true).flag (pairPg + 0x48) 14 := rfl
    rw [hpass, Chip.flag_setFlag _ _ _ (by decide)]
  refine ⟨hmem, ?_⟩
  split
  · rename_i h
    exact ⟨hlow.1, hlow.2, h⟩
  · exact ⟨hlow.1, hlow.2, hflag⟩

theorem resetN_short {us : Nat} (h : us < 1) : exec (.resetN us) s = .next s := by
  have hexec : exec (.resetN us) s = execResetN us s := (rfl)
  rw [hexec, execResetN, liftS, if_pos (.inl h)]

/-- R491: a glitch is counted and noticed. -/
theorem resetN_glitch {us : Nat} (hlow : s.sys.chip.boot.low = false) (h1 : 1 ≤ us) (h10 : us < 10) :
    ∃ t, chipNext s (.resetN us) t ∧ t.boot = s.sys.chip.boot ∧
      (t.reg (pwrPg + 0x5C)).toNat = min ((s.sys.chip.reg (pwrPg + 0x5C)).toNat + 1) 0xffffffff := by
  have hexec : exec (.resetN us) s = execResetN us s := (rfl)
  refine ⟨(s.sys.chip.bump (pwrPg + 0x5C)).notice pwrPg 2, ?_, ?_, ?_⟩
  · rw [chipNext, hexec, execResetN, liftS, if_neg (by simp [hlow]; omega), if_pos h10]
    rfl
  · exact (Chip.reports_notice ..).boot.trans (s.sys.chip.reports_bump _).boot
  · rw [Chip.notice_apart _ _ ((pwrPg_off (by decide)).apart pwrPg) (by decide) (by decide)]
    exact s.sys.chip.reg_bumpBy (pwrPg + 0x5C) 1

theorem resetN_long {us : Nat} (hlow : s.sys.chip.boot.low = false) (h10 : 10 ≤ us) :
    exec (.resetN us) s = .next { s with sys := s.sys.heldReset } := by
  have hexec : exec (.resetN us) s = execResetN us s := (rfl)
  rw [hexec, execResetN, liftS, if_neg (by simp [hlow]; omega), if_neg (by omega)]

end

/-- Settles O52: records are sealed in time and leave; the resets of a cluster, a partition and the chip begin, wait and
end. -/
theorem eventsAndResets : Obligations.EventsAndResets := by
  intro s p c v us y gives seals
  refine ⟨fun r h => ⟨fun hr hdue => ⟨_, sealTimeout_seals h hr hdue, Chip.sealVec_seals h⟩, sealTimeout_early h,
      fun hv => vecDisable_seals h hv⟩,
    fun r h => eventDeliver_early h (Nat.le_refl _), fun t r h ht hpath hhost => eventDeliver_sends h ht hpath hhost,
    clusterReset_resets, clusterReset_again, clusterReset_ends, clusterReset_waits, partitionReset_begins, partitionReset_same,
    fun a h hfree hdone => partitionReset_ends h hfree hdone, chipReset_restarts, chipReset_same, powerGood_starts,
    fun hlow => ⟨resetN_short, resetN_glitch hlow, fun h => ⟨_, resetN_long hlow h, s.sys.heldReset_facts⟩⟩, ?_⟩
  obtain ⟨hmem, hlow, hon, -⟩ := s.sys.heldReset_facts
  exact ⟨_, (rfl : exec .pwrgoodFall s = _), hmem, hlow, hon, rfl⟩

end Sys2Proof.Machine

/-! PROOF of O53 (R386, R395, R475, R485, R486, R488 to R490, R492): errors of the chip, clocks, rails, temperatures and
alert lines. -/

namespace Sys2Proof.Machine

-- One after the other: side by side the proofs ask for more memory than the check grants.
set_option Elab.async false

open Laws

/-! ## An error of the chip (R395) -/

theorem headPage_aligned {pg : Nat} (h : (headPage pg).isSome = true) : pg % 0x1000 = 0 := by
  unfold headPage at h
  split at h
  · rename_i r hr
    split at h
    · rename_i hoff
      unfold pageRef at hr
      dsimp only at hr
      split at hr
      · obtain ⟨⟨ty, i⟩, -, rfl⟩ := Option.map_eq_some_iff.1 hr
        exact hoff
      · split at hr
        · cases hr
          exact hoff
        · split at hr
          · cases hr
            exact hoff
          · split at hr
            · cases hr
              dsimp only at hoff
              omega
            · split at hr
              · cases hr
                exact hoff
              · split at hr
                · cases hr
                  dsimp only at hoff
                  omega
                · obtain ⟨ty, -, rfl⟩ := Option.map_eq_some_iff.1 hr
                  exact hoff
    · cases h
  · cases h

theorem Chip.reg_of_regs {s t : Chip} (h : t.regs = s.regs) (a : Nat) : t.reg a = s.reg a := by
  unfold Chip.reg
  rw [h]

theorem Chip.chainCond_apart (s : Chip) (b : Nat) {a : Nat} (h44 : chPg + 0x44 ≠ a) (h48 : chPg + 0x48 ≠ a) :
    (s.chainCond b).reg a = s.reg a := by
  have hset : (s.setFlag (chPg + 0x48) b true).reg a = s.reg a := Chip.reg_setFlag_ne _ _ _ h48
  have hpull : ∀ t : Chip, t.chainPull.reg a = t.reg a := fun t => by
    unfold Chip.chainPull
    split
    · rfl
    · exact (Chip.reg_of_regs (s := t.setFlag (chPg + 0x44) 8 true) rfl a).trans (Chip.reg_setFlag_ne _ _ _ h44)
  unfold Chip.chainCond
  dsimp only
  split
  · rfl
  · split
    · exact (hpull _).trans hset
    · exact hset

theorem Chip.chainCond_reg (s : Chip) (b : Nat) {a : Nat} (h : a < chPg ∨ chPg + 0x1000 ≤ a) :
    (s.chainCond b).reg a = s.reg a := s.chainCond_apart b (by omega) (by omega)

theorem Chip.reg_ite {s t : Chip} {p : Prop} [Decidable p] {a : Nat} {w : Word} (h : s.reg a = w) (h' : t.reg a = w) :
    (if p then s else t).reg a = w := by
  split <;> assumption

/-- R474: a STATE frame leaves, and its tick is kept. -/
def Chip.stateSent (s : Chip) (d : List Byte) : Chip :=
  let (_, s) := s.chainSend 8 none d
  { s with chain.stateAt := some s.ref }

theorem Chip.sendState_reg (s : Chip) (code : Nat) (d : List Byte) {a : Nat} (hb : belowPt a)
    (h : a < chPg ∨ chPg + 0x1000 ≤ a) : (s.sendState code d).reg a = s.reg a := by
  have h58 : chPg + 0x58 ≠ a := by omega
  have h10 : a ≠ chPg + 0x10 := by omega
  have h18 : a ≠ chPg + 0x18 := by omega
  have hsent : ∀ d, (s.stateSent d).reg a = s.reg a := fun d => Chip.reg_of_regs rfl a
  have hlate : ((s.bump (chPg + 0x58)).notice chPg 3).reg a = s.reg a :=
    (Chip.notice_reg _ _ _ hb h10 h18).trans (Chip.reg_bump_ne _ h58)
  unfold Chip.sendState
  exact Chip.reg_ite hlate (Chip.reg_ite ((Chip.chainCond_reg (s.stateSent _) 2 h).trans (hsent _)) (hsent _))

/-- R395: what an error of the chip reports before the chip reset follows. -/
def Chip.chipTold (s : Chip) (pg bit : Nat) (inj : Bool) : Chip :=
  let s := s.countErr pg bit 3 0 inj
  let n := s.errs.nextSeq
  let s := s.fault { faultOf pg 3 bit with inj := inj }
  s.sendState 3 (faultBytes { faultOf pg 3 bit with inj := inj, tick := s.now, seq := n })

theorem Chip.reports_chipTold (s : Chip) (pg bit : Nat) (inj : Bool) : s.Reports (s.chipTold pg bit inj) :=
  ((s.reports_countErr ..).trans (Chip.reports_fault ..)).trans (Chip.reports_sendState ..)

theorem stagePg_below : belowPt (stagePg + 0x40) := .inl (by decide)

theorem Chip.stageState_chipTold (s : Chip) {pg : Nat} (bit : Nat) (inj : Bool) (h : pg % 0x1000 = 0) :
    (s.chipTold pg bit inj).stageState = s.stageState := by
  have hcount : (s.countErr pg bit 3 0 inj).reg (stagePg + 0x40) = s.reg (stagePg + 0x40) :=
    Chip.countErr_reg _ _ _ _ _ _ stagePg_below (by unfold stagePg; omega) (by unfold stagePg; omega) (by unfold stagePg; omega)
  unfold Chip.chipTold
  dsimp only
  generalize s.countErr pg bit 3 0 inj = u at hcount
  have hfault : ∀ r, (u.fault r).reg (stagePg + 0x40) = u.reg (stagePg + 0x40) := fun r =>
    Chip.fault_reg _ _ stagePg_below (.inl (by decide))
  have hsend : ∀ (v : Chip) (d : List Byte), (v.sendState 3 d).reg (stagePg + 0x40) = v.reg (stagePg + 0x40) := fun v d =>
    Chip.sendState_reg _ _ _ stagePg_below (.inl (by decide))
  exact congrArg (Word.bits · 5 4) (((hsend _ _).trans (hfault _)).trans hcount)

theorem Chip.stageState_alertOut (s : Chip) : s.alertOut.stageState = s.stageState := by
  have hreg : s.alertOut.reg (stagePg + 0x40) = (s.setFlag (pairPg + 0x48) 14 true).reg (stagePg + 0x40) := rfl
  exact congrArg (Word.bits · 5 4) (hreg.trans (Chip.reg_setFlag_ne _ _ _ (by decide)))

/-- R395: on a chip that runs, the chip reset is due from the tick of the error on. -/
theorem Chip.chipError_kills (s : Chip) {pg : Nat} (bit : Nat) (inj : Bool) (hpg : pg % 0x1000 = 0)
    (hrun : s.stageState = 1) (hue : s.errs.chipUe = none) : (s.chipError pg bit inj).errs.chipUe = some s.now := by
  have hsplit : s.chipError pg bit inj = (let t := if (s.chipTold pg bit inj).paired then (s.chipTold pg bit inj).alertOut else s.chipTold pg bit inj
      if t.stageState = 1 then (if t.errs.chipUe.isSome then t else { t with errs.chipUe := some t.now })
      else if t.boot.on ∧ t.stageState ≠ 2 then t.failStage 2 0 (t.stageData t.stageNo) else t) := rfl
  rw [hsplit]
  dsimp only
  generalize ht : (if (s.chipTold pg bit inj).paired = true then (s.chipTold pg bit inj).alertOut else s.chipTold pg bit inj) = t
  have hreports := s.reports_chipTold pg bit inj
  have hold : t.stageState = 1 ∧ t.errs.chipUe = none ∧ t.now = s.now := by
    rw [← hrun, ← hue, ← s.stageState_chipTold bit inj hpg, ← hreports.errs_chipUe, ← hreports.now, ← ht]
    split
    · exact ⟨Chip.stageState_alertOut _, rfl, rfl⟩
    · exact ⟨rfl, rfl, rfl⟩
  obtain ⟨hst, hchip, hnow⟩ := hold
  rw [if_pos hst, hchip, if_neg (by decide), hnow]

section
variable {s : State}

theorem ueChip_kills {page bit : Nat} (hp : (headPage page).isSome = true) (hb : bit < 32)
    (hrun : s.sys.chip.stageState = 1) (hue : s.sys.chip.errs.chipUe = none) :
    ∃ t, chipNext s (.ueChip page bit) t ∧ t.errs.chipUe = some s.sys.chip.now := by
  have hexec : exec (.ueChip page bit) s = execUeChip page bit s := (rfl)
  refine ⟨s.sys.chip.chipError page bit false, ?_, Chip.chipError_kills _ _ _ (headPage_aligned hp) hrun hue⟩
  rw [chipNext, hexec, execUeChip, liftC, if_pos ⟨hp, hb⟩]

/-! ## Clocks (R485) -/

theorem clkPg_apart {k : Nat} (h : k < 0x1000) : clkPg + k ≠ stagePg + 0x40 := by
  unfold clkPg stagePg
  omega

theorem Chip.stageState_lolMark (s : Chip) (clk : Nat) : (s.lolMark clk).stageState = s.stageState := by
  refine congrArg (Word.bits · 5 4) ?_
  rw [Chip.lolMark, Chip.reg_setFlag_ne _ _ _ (clkPg_apart (by decide)), Chip.reg_bump_ne _ (clkPg_apart (by decide)),
    Chip.reg_setFlag_ne _ _ _ (clkPg_apart (by decide))]

theorem Chip.reports_lolMark (s : Chip) (clk : Nat) : s.Reports (s.lolMark clk) :=
  ((s.reports_setFlag ..).trans (Chip.reports_bump ..)).trans (Chip.reports_setFlag ..)

theorem lossOfLock_kills {clk : Nat} (hpast : s.sys.chip.pastS0 = true) (hclk : clk ∈ [0, 1, 2, 5, 6])
    (hrun : s.sys.chip.stageState = 1) (hue : s.sys.chip.errs.chipUe = none) :
    ∃ t, chipNext s (.lossOfLock clk) t ∧ t.errs.chipUe = some s.sys.chip.now := by
  have hexec : exec (.lossOfLock clk) s = execLossOfLock clk s := (rfl)
  have hreports := s.sys.chip.reports_lolMark clk
  refine ⟨(s.sys.chip.lolMark clk).chipError clkPg 0 false, ?_, ?_⟩
  · rw [chipNext, hexec, execLossOfLock, liftC]
    dsimp only
    rw [if_neg (ne_false_of_eq_true hpast), if_pos (by simpa using hclk)]
  · rw [← hreports.now]
    exact Chip.chipError_kills _ _ _ (by decide) ((s.sys.chip.stageState_lolMark clk).trans hrun) (hreports.errs_chipUe.trans hue)

/-! ### The links of a lane PLL group -/

/-- The links other than l have the lane PLLs they had. -/
def Chip.otherPlls (s t : Chip) (l : Nat) : Prop := ∀ k, k ≠ l → (t.lk k).noPll = (s.lk k).noPll

theorem Lnk.stepped.noPll {x z : Lnk} (h : x.stepped z) : z.noPll = x.noPll := by
  rcases h with rfl | ⟨d, rfl⟩ <;> rfl

theorem Chip.otherPlls_linkDown (s : Chip) (l cause : Nat) (reset lead : Bool) :
    s.otherPlls (s.linkDown l cause reset lead) l := by
  intro k hk
  have hdown := ((s.downs_cutDown l cause).trans (Chip.downs_startAsk _ l reset (cause != 5) lead)).trans
    (Chip.downs_toldDown _ l (s.lkState l))
  rw [Chip.linkDown_eq, (Chip.ftEval_lk _ k).noPll, hdown.others k hk]

theorem Chip.linkNoPll_noPll (s : Chip) (l : Nat) : ((s.linkNoPll l).lk l).noPll = true := by
  unfold Chip.linkNoPll
  rw [Chip.lk_setLk]

theorem Chip.otherPlls_linkNoPll (s : Chip) (l : Nat) : s.otherPlls (s.linkNoPll l) l := by
  intro k hk
  unfold Chip.linkNoPll
  dsimp only
  rw [Chip.lk_setLk_ne _ _ hk]
  split
  · exact s.otherPlls_linkDown l 2 false true k hk
  · split
    · rfl
    · rfl

/-- What each operation on a link of a list does to that link's lane PLL, and to no other's, holds of all of them. -/
theorem noPll_forEach {f : Nat → Chip → Chip} {g : Nat} {b : Bool} (hf : ∀ k s, ((f k s).lk (8 * g + k)).noPll = b)
    (hother : ∀ k (s : Chip), s.otherPlls (f k s) (8 * g + k)) (l : List Nat) (s : Chip) :
    ∀ k ∈ l, ((forEach l f s).lk (8 * g + k)).noPll = b := by
  induction l using List.reverseRecOn with
  | nil => simp
  | append_singleton l a ih =>
    intro k hk
    rw [forEach_append]
    by_cases hka : k = a
    · subst hka
      exact hf k _
    · have hmem : k ∈ l := by simpa [hka] using hk
      exact (hother a _ (8 * g + k) (by omega)).trans (ih k hmem)

/-- R485: the links of a group that has lost lock. -/
def Chip.groupLost (s : Chip) (clk : Nat) : Chip :=
  forEach (List.range 8) (fun k s => s.linkNoPll (8 * (clk - 16) + k))
    (((s.lolMark clk).setFlag (clkPg + 0x40) 3 false).notice clkPg 0)

theorem Chip.portDown_links (s : Chip) : s.portDown.links = s.links := by
  unfold Chip.portDown
  split
  · exact (Chip.reports_notice ..).links.trans rfl
  · rfl

theorem lossOfLock_group {clk : Nat} (hpast : s.sys.chip.pastS0 = true) (h1 : 16 ≤ clk) (h2 : clk < 28) :
    ∃ t, chipNext s (.lossOfLock clk) t ∧ ∀ k < 8, (t.lk (8 * (clk - 16) + k)).noPll = true := by
  have hexec : exec (.lossOfLock clk) s = execLossOfLock clk s := (rfl)
  have hlost : ∀ k < 8, ((s.sys.chip.groupLost clk).lk (8 * (clk - 16) + k)).noPll = true := fun k hk =>
    noPll_forEach (fun k t => t.linkNoPll_noPll _) (fun k t => t.otherPlls_linkNoPll _) _ _ k (List.mem_range.2 hk)
  refine ⟨if clk - 16 = 5 then ((s.sys.chip.groupLost clk).setFlag (clkPg + 0x40) 4 false).portDown else s.sys.chip.groupLost clk, ?_, ?_⟩
  · rw [chipNext, hexec, execLossOfLock, liftC]
    dsimp only
    rw [if_neg (ne_false_of_eq_true hpast), if_neg (by simp; omega), if_pos ⟨h1, h2⟩]
    rfl
  · intro k hk
    split
    · rw [Chip.lk, Chip.portDown_links]
      exact hlost k hk
    · exact hlost k hk

theorem lossOfLock_early {clk : Nat} (hpast : s.sys.chip.pastS0 = false) : exec (.lossOfLock clk) s = .next s := by
  have hexec : exec (.lossOfLock clk) s = execLossOfLock clk s := (rfl)
  rw [hexec, execLossOfLock, liftC]
  dsimp only
  rw [if_pos hpast]

theorem relock_early {g : Nat} (hpast : s.sys.chip.pastS0 = false) : exec (.lanePllRelock g) s = .next s := by
  have hexec : exec (.lanePllRelock g) s = execLanePllRelock g s := (rfl)
  rw [hexec, execLanePllRelock, liftC]
  dsimp only
  rw [if_pos (.inr hpast)]

theorem railFault_early {rail : Nat} (hpast : s.sys.chip.pastS0 = false) : exec (.railFault rail) s = .next s := by
  have hexec : exec (.railFault rail) s = execRailFault rail s := (rfl)
  rw [hexec, execRailFault, liftC]
  dsimp only
  rw [if_pos (.inr hpast)]

/-- R485: the flags of group g that has lock again. -/
def Chip.groupShown (s : Chip) (g : Nat) : Chip :=
  let s := s.setFlag (clkPg + 0x40) (16 + g) true
  let s := s.setFlag (clkPg + 0x40) 3 (s.fld (clkPg + 0x40) 27 16 == 0xFFF)
  if g = 5 then s.setFlag (clkPg + 0x40) 4 true else s

theorem Chip.flag_groupShown (s : Chip) {g : Nat} (hg : g < 12) : (s.groupShown g).flag (clkPg + 0x40) (16 + g) = true := by
  have hset : (s.setFlag (clkPg + 0x40) (16 + g) true).flag (clkPg + 0x40) (16 + g) = true := Chip.flag_setFlag _ _ _ (by omega)
  unfold Chip.groupShown
  dsimp only
  generalize s.setFlag (clkPg + 0x40) (16 + g) true = u at hset
  have hall : (u.setFlag (clkPg + 0x40) 3 (u.fld (clkPg + 0x40) 27 16 == 0xFFF)).flag (clkPg + 0x40) (16 + g) = true := by
    rw [Chip.flag_setFlag_apart _ _ _ (by omega) (by omega), hset]
  split
  · rw [Chip.flag_setFlag_apart _ _ _ (by omega) (by omega), hall]
  · exact hall

/-- R485: link k of group g has its lane PLL again. -/
def Chip.pllBack (g k : Nat) (s : Chip) : Chip := s.setLk (8 * g + k) { s.lk (8 * g + k) with noPll := false }

theorem relock_shows {g : Nat} (hpast : s.sys.chip.pastS0 = true) (hg : g < 12) : ∃ t, chipNext s (.lanePllRelock g) t ∧
    t.flag (clkPg + 0x40) (16 + g) = true ∧ ∀ k < 8, (t.lk (8 * g + k)).noPll = false := by
  have hexec : exec (.lanePllRelock g) s = execLanePllRelock g s := (rfl)
  have hregs : ∀ t : Chip, (forEach (List.range 8) (Chip.pllBack g) t).regs = t.regs := fun t =>
    forEach_keeps (f := Chip.pllBack g) (fun u => u.regs = t.regs) (fun k _ u hu => hu) rfl
  refine ⟨forEach (List.range 8) (Chip.pllBack g) (s.sys.chip.groupShown g), ?_, ?_, ?_⟩
  · rw [chipNext, hexec, execLanePllRelock, liftC]
    dsimp only
    rw [if_neg (by simp [hpast]; omega)]
    rfl
  · rw [Chip.flag, Chip.reg_of_regs (hregs _)]
    exact s.sys.chip.flag_groupShown hg
  · refine fun k hk => noPll_forEach (fun k t => ?_) (fun k t j hj => ?_) _ _ k (List.mem_range.2 hk)
    · rw [Chip.pllBack, Chip.lk_setLk]
    · rw [Chip.pllBack, Chip.lk_setLk_ne _ _ hj]

/-! ## Rails and temperatures (R486, R488, R489) -/

theorem railFault_kills {rail : Nat} (hpast : s.sys.chip.pastS0 = true) (hrail : rail < 7)
    (hrun : s.sys.chip.stageState = 1) (hue : s.sys.chip.errs.chipUe = none) :
    ∃ t, chipNext s (.railFault rail) t ∧ t.errs.chipUe = some s.sys.chip.now := by
  have hexec : exec (.railFault rail) s = execRailFault rail s := (rfl)
  refine ⟨(s.sys.chip.setFlag (pwrPg + 0x48) rail true).chipError pwrPg 1 false, ?_, ?_⟩
  · rw [chipNext, hexec, execRailFault, liftC]
    dsimp only
    rw [if_neg (by simp [hpast]; omega)]
  · refine Chip.chipError_kills _ _ _ (by decide) ?_ hue
    exact (congrArg (Word.bits · 5 4) (Chip.reg_setFlag_ne _ _ _ (by decide))).trans hrun

theorem pwrErr_below : belowPt (errStat pwrPg) := .inr ⟨by decide, by decide⟩

theorem twarn_notices {temp : Nat} (h : s.sys.chip.twarnAt ≤ temp) : ∃ t, chipNext s (.twarn temp) t ∧
    t.flag (errStat pwrPg) 0 = true := by
  have hexec : exec (.twarn temp) s = execTwarn temp s := (rfl)
  refine ⟨s.sys.chip.notice pwrPg 0, ?_, Chip.notice_flag _ _ (by decide) pwrErr_below⟩
  rw [chipNext, hexec, execTwarn, liftC, if_pos h]

theorem twarn_cool {temp : Nat} (h : (temp : Int) < s.sys.chip.twarnAt) : exec (.twarn temp) s = .next s := by
  have hexec : exec (.twarn temp) s = execTwarn temp s := (rfl)
  rw [hexec, execTwarn, liftC, if_neg (Int.not_le.2 h)]

theorem thermalTrip_holds (h : s.sys.chip.boot.tripped = false) : ∃ t, chipNext s .thermalTrip t ∧ t.boot.tripped = true ∧
    t.out.getLast? = some (.pin "THERM_TRIP_N" true) := by
  have hexec : exec .thermalTrip s = execThermalTrip s := (rfl)
  refine ⟨Chip.emit { s.sys.chip.chipError pwrPg 0 false with boot.tripped := true } (.pin "THERM_TRIP_N" true), ?_, rfl, ?_⟩
  · rw [chipNext, hexec, execThermalTrip, liftC]
    dsimp only
    rw [if_neg (ne_true_of_eq_false h)]
  · exact List.getLast?_concat

theorem thermalTrip_same (h : s.sys.chip.boot.tripped = true) : exec .thermalTrip s = .next s := by
  have hexec : exec .thermalTrip s = execThermalTrip s := (rfl)
  rw [hexec, execThermalTrip, liftC]
  dsimp only
  rw [if_pos h]

/-- R488: controller i of a stack shows its temperature. -/
def Chip.hot (s : Chip) (i temp : Nat) : Chip :=
  let s := s.setFld (mcPg i + 0x40) 15 8 temp
  if s.fld (mcPg i + 0x50) 15 8 ≤ temp then s.notice (mcPg i) 6 else s

theorem mcReg_below {i k : Nat} (hi : i < 256) (hk : k < 0x1000) : belowPt (mcPg i + k) := by
  unfold belowPt mcPg
  omega

theorem Chip.hot_facts (s : Chip) {i : Nat} (hi : i < 256) (temp : Nat) :
    (s.hot i temp).fld (mcPg i + 0x40) 15 8 = temp % 256 ∧
      (s.fld (mcPg i + 0x50) 15 8 ≤ temp → (s.hot i temp).flag (errStat (mcPg i)) 6 = true) := by
  have hset : (s.setFld (mcPg i + 0x40) 15 8 temp).fld (mcPg i + 0x40) 15 8 = temp % 256 := Chip.fld_setFld _ _ _ (by decide)
  have hlimit : (s.setFld (mcPg i + 0x40) 15 8 temp).fld (mcPg i + 0x50) 15 8 = s.fld (mcPg i + 0x50) 15 8 :=
    congrArg (Word.bits · 15 8) (Chip.reg_setFld_ne _ _ _ _ (by omega))
  unfold Chip.hot
  dsimp only
  rw [hlimit]
  generalize s.setFld (mcPg i + 0x40) 15 8 temp = u at hset
  split
  · refine ⟨?_, fun _ => Chip.notice_flag _ _ (by decide) (mcReg_below hi (by decide))⟩
    rw [← hset]
    exact congrArg (Word.bits · 15 8) (Chip.notice_reg _ _ _ (mcReg_below hi (by decide)) (by omega) (by omega))
  · rename_i h
    exact ⟨hset, fun h' => absurd h' h⟩

theorem Chip.hot_other (s : Chip) {i j : Nat} (hj : j < 256) (h : j ≠ i) (temp : Nat) {k : Nat} (hk : k < 0x1000) :
    (s.hot i temp).reg (mcPg j + k) = s.reg (mcPg j + k) := by
  have hset : (s.setFld (mcPg i + 0x40) 15 8 temp).reg (mcPg j + k) = s.reg (mcPg j + k) :=
    Chip.reg_setFld_ne _ _ _ _ (by unfold mcPg; omega)
  unfold Chip.hot
  dsimp only
  split
  · exact (Chip.notice_reg _ _ _ (mcReg_below hj hk) (by unfold mcPg; omega) (by unfold mcPg; omega)).trans hset
  · exact hset

theorem Chip.hot_limit (s : Chip) {i j : Nat} (hj : j < 256) (temp : Nat) :
    (s.hot i temp).reg (mcPg j + 0x50) = s.reg (mcPg j + 0x50) := by
  have hset : (s.setFld (mcPg i + 0x40) 15 8 temp).reg (mcPg j + 0x50) = s.reg (mcPg j + 0x50) :=
    Chip.reg_setFld_ne _ _ _ _ (by unfold mcPg; omega)
  unfold Chip.hot
  dsimp only
  split
  · exact (Chip.notice_reg _ _ _ (mcReg_below hj (by decide)) (by unfold mcPg; omega) (by unfold mcPg; omega)).trans hset
  · exact hset

/-- R488: the controllers of a list of one stack show its temperature. -/
theorem Chip.hot_forEach {n temp : Nat} (hn : n < 8) (l : List Nat) (hl : ∀ k ∈ l, k < 32) (s : Chip) : ∀ k < 32,
    (k ∈ l → (forEach l (fun k s => s.hot (32 * n + k) temp) s).fld (mcPg (32 * n + k) + 0x40) 15 8 = temp % 256 ∧
      (s.fld (mcPg (32 * n + k) + 0x50) 15 8 ≤ temp →
        (forEach l (fun k s => s.hot (32 * n + k) temp) s).flag (errStat (mcPg (32 * n + k))) 6 = true)) ∧
    (forEach l (fun k s => s.hot (32 * n + k) temp) s).reg (mcPg (32 * n + k) + 0x50) = s.reg (mcPg (32 * n + k) + 0x50) := by
  induction l using List.reverseRecOn with
  | nil => exact fun k _ => ⟨fun h => absurd h List.not_mem_nil, rfl⟩
  | append_singleton l a ih =>
    intro k hk
    have ha : a < 32 := hl a (by simp)
    obtain ⟨hin, hreg⟩ := ih (fun k hk => hl k (by simp [hk])) k hk
    rw [forEach_append]
    generalize forEach l (fun k s => s.hot (32 * n + k) temp) s = u at hin hreg
    show (_ → Chip.fld (u.hot (32 * n + a) temp) _ _ _ = _ ∧ (_ → Chip.flag (u.hot (32 * n + a) temp) _ _ = _)) ∧
      (u.hot (32 * n + a) temp).reg _ = _
    by_cases hka : k = a
    · subst hka
      obtain ⟨htemp, hflag⟩ := u.hot_facts (i := 32 * n + k) (by omega) temp
      refine ⟨fun _ => ⟨htemp, fun h => hflag ?_⟩, (u.hot_limit (by omega) temp).trans hreg⟩
      rw [Chip.fld, hreg]
      exact h
    · have hother : ∀ {j}, j < 0x1000 → (u.hot (32 * n + a) temp).reg (mcPg (32 * n + k) + j) = u.reg (mcPg (32 * n + k) + j) :=
        fun hj => u.hot_other (by omega) (by omega) temp hj
      refine ⟨fun h => ?_, (hother (by decide)).trans hreg⟩
      have hmem : k ∈ l := by simpa [hka] using h
      obtain ⟨htemp, hflag⟩ := hin hmem
      unfold Chip.fld Chip.flag errStat at *
      rw [hother (by decide), hother (by decide)]
      exact ⟨htemp, hflag⟩

/-- R488: a stack's controllers show its temperature, and those that reach their limit say so. -/
theorem stackHot_shows {n temp : Nat} (hn : n < 8) : ∃ t, chipNext s (.stackHot n temp) t ∧
    ∀ k < 32, t.fld (mcPg (32 * n + k) + 0x40) 15 8 = temp % 256 ∧
      (s.sys.chip.fld (mcPg (32 * n + k) + 0x50) 15 8 ≤ temp → t.flag (errStat (mcPg (32 * n + k))) 6 = true) := by
  have hexec : exec (.stackHot n temp) s = execStackHot n temp s := (rfl)
  refine ⟨forEach (List.range 32) (fun k s => s.hot (32 * n + k) temp) s.sys.chip, ?_, fun k hk => ?_⟩
  · rw [chipNext, hexec, execStackHot, liftC]
    dsimp only
    rw [if_neg (by omega)]
    rfl
  · exact (Chip.hot_forEach hn _ (by simp) _ k hk).1 (List.mem_range.2 hk)

theorem stackHot_none {n temp : Nat} (hn : 8 ≤ n) : exec (.stackHot n temp) s = .next s := by
  have hexec : exec (.stackHot n temp) s = execStackHot n temp s := (rfl)
  rw [hexec, execStackHot, liftC]
  dsimp only
  rw [if_pos hn]

/-! ## Alert lines (R421, R475, R490, R492) -/

theorem chPg_below {k : Nat} (h : k % 16 ≠ 12) (h' : k % 0x4000 ≠ 0x58) : belowPt (chPg + k) := by
  unfold belowPt chPg
  omega

theorem pairPg_below {k : Nat} (h : k % 16 ≠ 12) (h' : k % 0x4000 ≠ 0x58) : belowPt (pairPg + k) := by
  unfold belowPt pairPg
  omega

theorem Chip.chainRelease_flag (s : Chip) : s.chainRelease.flag (chPg + 0x44) 8 = false := by
  unfold Chip.chainRelease
  split
  · have hset : (s.setFlag (chPg + 0x44) 8 false).flag (chPg + 0x44) 8 = false := Chip.flag_setFlag _ _ _ (by decide)
    exact hset
  · rename_i h
    exact eq_false_of_ne_true h

theorem Chip.chainRelease_latched (s : Chip) (h : s.flag (chPg + 0x44) 9 = true) : s.chainRelease.flag (chPg + 0x44) 9 = true := by
  unfold Chip.chainRelease
  split
  · have hset : (s.setFlag (chPg + 0x44) 8 false).flag (chPg + 0x44) 9 = true := by
      rw [Chip.flag_setFlag_apart _ _ _ (by decide) (by decide), h]
    exact hset
  · exact h

theorem alertStuck_chain {a : Nat} (hin : s.sys.chip.chain.inAt = some a) (ha : a + 100000 ≤ s.sys.chip.ref)
    (hfree : s.sys.chip.flag (chPg + 0x44) 9 = false) :
    ∃ t, chipNext s (.alertStuck true) t ∧ t.flag (chPg + 0x44) 9 = true := by
  have hexec : exec (.alertStuck true) s = execAlertStuck true s := (rfl)
  refine ⟨((s.sys.chip.setFlag (chPg + 0x44) 9 true).chainRelease).notice chPg 2, ?_, ?_⟩
  · rw [chipNext, hexec, execAlertStuck, liftC]
    dsimp only
    rw [if_pos rfl, hin]
    dsimp only
    rw [if_neg (by simp [ha]), if_pos rfl, if_neg (ne_true_of_eq_false hfree)]
  · have hlatch := (s.sys.chip.setFlag (chPg + 0x44) 9 true).chainRelease_latched (Chip.flag_setFlag _ _ _ (by decide))
    refine Eq.trans ?_ hlatch
    exact congrArg (Word.bit · 9) (Chip.notice_reg _ _ _ (chPg_below (by decide) (by decide)) (by decide) (by decide))

theorem alertStuck_pair {a : Nat} (hin : s.sys.chip.duo.inAt = some a) (ha : a + 100000 ≤ s.sys.chip.ref)
    (hfree : s.sys.chip.flag (pairPg + 0x48) 13 = false) :
    ∃ t, chipNext s (.alertStuck false) t ∧ t.flag (pairPg + 0x48) 13 = true := by
  have hexec : exec (.alertStuck false) s = execAlertStuck false s := (rfl)
  refine ⟨(Chip.setFlag { s.sys.chip with duo.seenLow := false } (pairPg + 0x48) 13 true).notice pairPg 3, ?_, ?_⟩
  · rw [chipNext, hexec, execAlertStuck, liftC]
    dsimp only
    rw [if_neg Bool.false_ne_true, hin]
    dsimp only
    rw [if_neg (by simp [ha]), if_neg Bool.false_ne_true, if_neg (ne_true_of_eq_false hfree)]
  · have hset : (Chip.setFlag { s.sys.chip with duo.seenLow := false } (pairPg + 0x48) 13 true).flag (pairPg + 0x48) 13 = true :=
      Chip.flag_setFlag _ _ _ (by decide)
    refine Eq.trans ?_ hset
    exact congrArg (Word.bit · 13) (Chip.notice_reg _ _ _ (pairPg_below (by decide) (by decide)) (by decide) (by decide))

theorem alertStuck_high {chain : Bool} (h : (if chain then s.sys.chip.chain.inAt else s.sys.chip.duo.inAt) = none) :
    exec (.alertStuck chain) s = .next s := by
  have hexec : exec (.alertStuck chain) s = execAlertStuck chain s := (rfl)
  rw [hexec, execAlertStuck, liftC]
  dsimp only
  rw [h]
  dsimp only
  rw [if_pos rfl]

theorem chRearm_clears : ∃ t, chipNext s .chRearm t ∧ s.sys.onlyRegs { s.sys with chip := t } [chPg + 0x44] ∧
    t.flag (chPg + 0x44) 9 = false := by
  have hexec : chipNext s .chRearm (s.sys.chip.setFlag (chPg + 0x44) 9 false) := (rfl)
  exact ⟨_, hexec, ⟨rfl, fun a ha => Chip.reg_setFlag_ne _ _ _ fun e => ha (List.mem_singleton.2 e.symm)⟩,
    Chip.flag_setFlag _ _ _ (by decide)⟩

theorem chainAlert_sampled (hfree : s.sys.chip.flag (chPg + 0x44) 9 = false) (hin : s.sys.chip.chain.inAt = none) :
    ∃ t, chipNext s .chainAlertSample t ∧ t.chain.inAt = some (s.sys.chip.ref - 1000) ∧
      (t.reg (chPg + 0x5C)).toNat = min ((s.sys.chip.reg (chPg + 0x5C)).toNat + 1) 0xffffffff := by
  have hexec : exec .chainAlertSample s = execChainAlertSample s := (rfl)
  refine ⟨Chip.bump { s.sys.chip with chain.inAt := some (s.sys.chip.ref - 1000) } (chPg + 0x5C), ?_, rfl, ?_⟩
  · rw [chipNext, hexec, execChainAlertSample, liftC]
    dsimp only
    rw [if_neg (by simp [hfree, hin])]
  · exact Chip.reg_bumpBy { s.sys.chip with chain.inAt := some (s.sys.chip.ref - 1000) } (chPg + 0x5C) 1

theorem pairAlert_returns (h : s.sys.chip.duo.inAt ≠ none) : ∃ t, chipNext s (.alertInputDeassert false) t ∧
    t.duo.inAt = none ∧ t.flag (pairPg + 0x48) 12 = false := by
  have hexec : exec (.alertInputDeassert false) s = execAlertInputDeassert false s := (rfl)
  refine ⟨Chip.setFlag { s.sys.chip with
    duo.inAt := none
    duo.seenLow := true } (pairPg + 0x48) 12 false, ?_, rfl, Chip.flag_setFlag _ _ _ (by decide)⟩
  rw [chipNext, hexec, execAlertInputDeassert, liftC]
  dsimp only
  rw [if_neg Bool.false_ne_true, if_neg (by simpa using h)]

theorem chainPulse_ends {a : Nat} (h : s.sys.chip.chain.alertAt = some a) (ha : a + 10000 ≤ s.sys.chip.ref) :
    ∃ t, chipNext s (.alertPulseEnd true) t ∧ t.flag (chPg + 0x44) 8 = false := by
  have hexec : exec (.alertPulseEnd true) s = execAlertPulseEnd true s := (rfl)
  refine ⟨s.sys.chip.chainRelease, ?_, s.sys.chip.chainRelease_flag⟩
  rw [chipNext, hexec, execAlertPulseEnd, liftC]
  dsimp only
  rw [if_pos rfl, h]
  dsimp only
  rw [if_neg (by simp [ha]), if_pos rfl]

/-- R421: the chip lets go of the pair's alert line. -/
def Chip.pairLetGo (s : Chip) : Chip :=
  (Chip.setFlag { s with duo.outAt := none } (pairPg + 0x48) 14 false).emit (.pin "PAIR_ALERT_OUT" false)

theorem Chip.pairLetGo_flag (s : Chip) : s.pairLetGo.flag (pairPg + 0x48) 14 = false := by
  have hset : (Chip.setFlag { s with duo.outAt := none } (pairPg + 0x48) 14 false).flag (pairPg + 0x48) 14 = false :=
    Chip.flag_setFlag _ _ _ (by decide)
  exact Eq.trans (congrArg (Word.bit · 14) (Chip.reg_of_regs rfl _)) hset

theorem pairPulse_ends {a : Nat} (h : s.sys.chip.duo.outAt = some a) (ha : a + 10000 ≤ s.sys.chip.ref)
    (hlow : s.sys.chip.boot.low = false) :
    ∃ t, chipNext s (.alertPulseEnd false) t ∧ t.flag (pairPg + 0x48) 14 = false ∧ t.duo.outAt = none := by
  have hexec : exec (.alertPulseEnd false) s = execAlertPulseEnd false s := (rfl)
  refine ⟨s.sys.chip.pairLetGo, ?_, s.sys.chip.pairLetGo_flag, rfl⟩
  rw [chipNext, hexec, execAlertPulseEnd, liftC]
  dsimp only
  rw [if_neg Bool.false_ne_true, h]
  dsimp only
  rw [if_neg (by simp [ha]), if_neg Bool.false_ne_true, if_neg (ne_true_of_eq_false hlow)]
  rfl

theorem Chip.chainPull_pulls (s : Chip) (h : s.flag (chPg + 0x44) 9 = false) :
    s.chainPull.flag (chPg + 0x44) 8 = true ∧ s.chainPull.chain.alertAt = some s.ref := by
  have hset : (s.setFlag (chPg + 0x44) 8 true).flag (chPg + 0x44) 8 = true := Chip.flag_setFlag _ _ _ (by decide)
  unfold Chip.chainPull
  rw [if_neg (ne_true_of_eq_false h)]
  refine ⟨?_, rfl⟩
  exact Eq.trans (congrArg (Word.bit · 8) (Chip.reg_of_regs rfl _)) hset

theorem alertRepeat_pulls (hon : s.sys.chip.alertsOn ≠ 0)
    (hdue : ∀ a, s.sys.chip.chain.alertAt = some a → a + 10000000 ≤ s.sys.chip.ref)
    (hfree : s.sys.chip.flag (chPg + 0x44) 9 = false) : ∃ t, chipNext s .alertRepeat t ∧ t.flag (chPg + 0x44) 8 = true ∧
      t.chain.alertAt = some s.sys.chip.ref := by
  have hexec : exec .alertRepeat s = execAlertRepeat s := (rfl)
  refine ⟨s.sys.chip.chainPull, ?_, s.sys.chip.chainPull_pulls hfree⟩
  rw [chipNext, hexec, execAlertRepeat, liftC]
  dsimp only
  cases h : s.sys.chip.chain.alertAt with
  | none =>
    dsimp only
    rw [if_neg (by simp [hon])]
  | some a =>
    dsimp only
    rw [if_neg (by simp [hon, hdue a h])]

theorem alertRepeat_quiet (hoff : s.sys.chip.alertsOn = 0) : exec .alertRepeat s = .next s := by
  have hexec : exec .alertRepeat s = execAlertRepeat s := (rfl)
  rw [hexec, execAlertRepeat, liftC]
  dsimp only
  rw [if_pos (.inl hoff)]

end

/-- Settles O53: errors that end in a chip reset by the record they leave, clocks, temperatures and alert lines by the flags
they set and clear. -/
theorem pinsAndClocks : Obligations.PinsAndClocks := by
  intro s page bit clk g rail temp n chain y gives kills same
  exact ⟨fun hp hb => ueChip_kills hp hb, lossOfLock_kills, lossOfLock_group,
    fun h => ⟨lossOfLock_early h, relock_early h, railFault_early h⟩, relock_shows, railFault_kills, twarn_notices, twarn_cool,
    thermalTrip_holds, thermalTrip_same, stackHot_shows, stackHot_none, fun a => alertStuck_chain, fun a => alertStuck_pair,
    alertStuck_high, chRearm_clears, chainAlert_sampled, (rfl), pairAlert_returns, fun a => chainPulse_ends,
    fun a => pairPulse_ends, alertRepeat_pulls, alertRepeat_quiet⟩

end Sys2Proof.Machine

/-! PROOF of O54 (R381, R496, R502, R506): writes of registers. -/

namespace Sys2Proof.Machine

-- One after the other: side by side the proofs ask for more memory than the check grants.
set_option Elab.async false

open Laws

section
variable {s : State} {ag : Agent} {addr : Nat} {v : Word}

theorem registerWrite_none (h : addr % 4 ≠ 0 ∨ pageRef addr = none) :
    exec (.registerWrite ag addr v) s = .fault .noSuchRegister := by
  have hexec : exec (.registerWrite ag addr v) s = execRegisterWrite ag addr v s := (rfl)
  rw [hexec, execRegisterWrite, if_pos (h.imp_right Option.isNone_iff_eq_none.2)]

/-- R496: a write of a register that there is. -/
theorem registerWrite_eq {r : PageRef} (ha : addr % 4 = 0) (hr : pageRef addr = some r) :
    exec (.registerWrite ag addr v) s = .next { s with sys := s.sys.regWrite ag addr v } := by
  have hexec : exec (.registerWrite ag addr v) s = execRegisterWrite ag addr v s := (rfl)
  rw [hexec, execRegisterWrite, if_neg (by simp [ha, hr]), liftS]

theorem registerWrite_ignored {r : PageRef} (ha : addr % 4 = 0) (hr : pageRef addr = some r)
    (h : mayWrite ag r = false ∨ commandWindow r = true ∨ s.sys.chip.beyond r = true) :
    chipNext s (.registerWrite ag addr v) s.sys.chip.ignoredWrite := by
  rw [chipNext, registerWrite_eq ha hr, Sys.regWrite, hr]
  dsimp only
  rw [if_pos h]
  rfl

/-- R504: the low word of a pair waits for the high one. -/
theorem registerWrite_held {r : PageRef} (ha : addr % 4 = 0) (hr : pageRef addr = some r) (hmay : mayWrite ag r = true)
    (hcmd : commandWindow r = false) (hbeyond : s.sys.chip.beyond r = false) (hhigh : isHigh addr = false)
    (hlow : isLow addr = true) (hw : writable addr = true) :
    chipNext s (.registerWrite ag addr v) { s.sys.chip with
      holds := KMap.put s.sys.chip.holds none (latchKey addr ag) (some v) } := by
  rw [chipNext, registerWrite_eq ha hr, Sys.regWrite, hr]
  dsimp only
  rw [if_neg (by simp [hmay, hcmd, hbeyond]), if_neg (ne_true_of_eq_false hhigh), if_pos hlow, if_pos hw]
  rfl

/-! ## The scratch registers of the global page (R506) -/

/-- R506: scratch register k. -/
def scratchRef (k : Nat) : PageRef := ⟨1, 0, glbPg, 0x80 + 4 * k⟩

theorem scratchRef_page {k : Nat} (h : k < 4) : pageRef (glbPg + 0x80 + 4 * k) = some (scratchRef k) ∧
    isHigh (glbPg + 0x80 + 4 * k) = false ∧ isLow (glbPg + 0x80 + 4 * k) = false ∧
    triplicated (glbPg + 0x80 + 4 * k) = false ∧ (rowOf (scratchRef k)).rw = 0xFFFFFFFF ∧ (rowOf (scratchRef k)).w1c = 0 := by
  revert k
  decide

/-- R502: a register all of whose bits can be written takes the word. -/
theorem storeWord_all {row : RegRow} (hrw : row.rw = 0xFFFFFFFF) (hw1c : row.w1c = 0) (old w : Word) : storeWord row old w 0 = w := by
  have hall : BitVec.ofNat 32 0xFFFFFFFF = BitVec.allOnes 32 := by decide
  unfold storeWord
  rw [hrw, hw1c]
  simp only [BitVec.ofNat_eq_ofNat, BitVec.zero_and, BitVec.or_zero, BitVec.not_zero, BitVec.and_allOnes, hall,
    BitVec.not_allOnes, BitVec.and_zero, BitVec.zero_or]

theorem storeReg_scratch (t : Chip) {k : Nat} (h : k < 4) (w : Word) :
    t.storeReg (scratchRef k) w = t.setReg (glbPg + 0x80 + 4 * k) w := by
  obtain ⟨-, -, -, -, hrw, hw1c⟩ := scratchRef_page h
  have hlocked : t.lockedBits (scratchRef k) = 0 := rfl
  have haddr : (scratchRef k).base + (scratchRef k).off = glbPg + 0x80 + 4 * k := by
    show glbPg + (0x80 + 4 * k) = _
    omega
  unfold Chip.storeReg
  dsimp only
  rw [hlocked, if_pos rfl, storeWord_all hrw hw1c, haddr]

theorem regEffect_scratch (y : Sys) {k : Nat} (h : k < 4) (w : Word) :
    y.regEffect .triad (scratchRef k) w = onChip (fun t => t.setReg (glbPg + 0x80 + 4 * k) w) y := by
  have hhead : hasHeader (scratchRef k) = false := by
    exact decide_eq_false (by show ¬ 0x80 + 4 * k < 0x40; omega)
  have heffect : ((y.nearEffect .triad (scratchRef k) w).orElse fun _ => (y.farEffect (scratchRef k) w).orElse fun _ =>
      y.poolEffect (scratchRef k) w) = none := by
    interval_cases k <;> rfl
  unfold Sys.regEffect
  rw [if_neg (ne_true_of_eq_false hhead), heffect]
  exact congrArg (fun c => ({ y with chip := c } : Sys)) (storeReg_scratch y.chip h w)

theorem registerWrite_scratch {k : Nat} (h : k < 4) : ∃ t, chipNext s (.registerWrite .triad (glbPg + 0x80 + 4 * k) v) t ∧
    t.reg (glbPg + 0x80 + 4 * k) = v ∧ s.sys.onlyRegs { s.sys with chip := t } [glbPg + 0x80 + 4 * k] := by
  obtain ⟨hr, hhigh, hlow, htri, -, -⟩ := scratchRef_page h
  have ha : (glbPg + 0x80 + 4 * k) % 4 = 0 := by
    unfold glbPg
    omega
  refine ⟨s.sys.chip.setReg (glbPg + 0x80 + 4 * k) v, ?_, Chip.reg_setReg .., rfl, fun a hn =>
    Chip.reg_setReg_ne _ _ fun e => hn (List.mem_singleton.2 e.symm)⟩
  have hopen : ¬(mayWrite .triad (scratchRef k) = false ∨ commandWindow (scratchRef k) = true ∨
      s.sys.chip.beyond (scratchRef k) = true) := by
    have hmay : mayWrite .triad (scratchRef k) = true := by interval_cases k <;> rfl
    have hcmd : commandWindow (scratchRef k) = false := rfl
    have hbeyond : s.sys.chip.beyond (scratchRef k) = false := rfl
    simp [hmay, hcmd, hbeyond]
  have hstrike : ∀ t : Chip, t.strikeCopies (glbPg + 0x80 + 4 * k) = t := fun t => by
    unfold Chip.strikeCopies
    rw [if_pos htri]
  rw [chipNext, registerWrite_eq ha hr, Sys.regWrite, hr]
  dsimp only
  rw [if_neg hopen, if_neg (ne_true_of_eq_false hhigh), if_neg (ne_true_of_eq_false hlow), regEffect_scratch _ h,
    onChip, hstrike]
  rfl

/-! ## GLB_RESET (R381, R506) -/

theorem glbReset_orders (hkey : Word.bits v 31 24 = 0xE1) (hchip : Word.bit v 0 = true) :
    chipNext s (.glbReset v) { s.sys.chip with boot.resetDue := true } := by
  have hexec : exec (.glbReset v) s = execGlbReset v s := (rfl)
  rw [chipNext, hexec, execGlbReset, liftC]
  dsimp only
  rw [if_pos ⟨hkey, hchip⟩]

theorem glbReset_ignored (h : Word.bits v 31 24 ≠ 0xE1 ∨ Word.bit v 0 = false) : exec (.glbReset v) s = .next s := by
  have hexec : exec (.glbReset v) s = execGlbReset v s := (rfl)
  rw [hexec, execGlbReset, liftC]
  dsimp only
  rw [if_neg (by rcases h with h | h <;> simp [h])]

end

/-- Settles O54: a write is refused, ignored, held or stored by what its address and its path say of it. -/
theorem registerWrites : Obligations.RegisterWrites := by
  intro s ag addr v y gives
  exact ⟨registerWrite_none, fun r ha hr => ⟨registerWrite_ignored ha hr, registerWrite_held ha hr⟩,
    fun k hk _ _ => registerWrite_scratch hk, glbReset_orders, glbReset_ignored⟩

end Sys2Proof.Machine

/-! ## R386 to R394, R398, R400: fences, their release, and injected errors -/

namespace Sys2Proof.Machine

-- One after the other: side by side the proofs ask for more memory than the check grants.
set_option Elab.async false

open Laws

/-! ## A fence is recorded (R386, R387) -/

/-- Every fence of s is one of t, and the tick is the same. -/
structure Chip.keepsFences (s t : Chip) : Prop where
  fences : ∀ f ∈ s.errs.fences, f ∈ t.errs.fences
  now : t.now = s.now

theorem Chip.keepsFences.trans {s t u : Chip} (h : s.keepsFences t) (h' : t.keepsFences u) : s.keepsFences u :=
  ⟨fun f hf => h'.fences f (h.fences f hf), h'.now.trans h.now⟩

theorem Chip.keepsFences_of {s t : Chip} (h : t.errs.fences = s.errs.fences) (hn : t.now = s.now) : s.keepsFences t :=
  ⟨fun f hf => by rw [h]; exact hf, hn⟩

theorem Chip.keepsFences_ite {s t u : Chip} {p : Prop} [Decidable p] (h : s.keepsFences t) (h' : s.keepsFences u) :
    s.keepsFences (if p then t else u) := by
  split <;> assumption

theorem Chip.reqsGoOn.keepsFences {s t : Chip} (h : s.reqsGoOn t) : s.keepsFences t := ⟨h.fences, h.now⟩

theorem Chip.keepsFences_failTick (s : Chip) (a w : Nat) (l : List (UnitId × Nat)) :
    s.keepsFences { (s.setFld a 4 0 w) with errs.failTick := l } := Chip.keepsFences_of rfl rfl

theorem Chip.keepsFences_cvEnd (s : Chip) (u : Nat) (st : Status) : s.keepsFences (s.cvEnd u st) := by
  unfold Chip.cvEnd
  exact Chip.keepsFences_ite (Chip.keepsFences_of rfl rfl) (Chip.keepsFences_of rfl rfl)

/-- R387: the unit's state shows the fence and its cause. -/
def Chip.fenceShown (s : Chip) (u : UnitId) (cause : Cause) : Chip :=
  match u with
  | .newt _ _ => s
  | .part _ | .cv _ => s.setFld (blkStat (unitPg u)) 4 0 (1 + 4 * causeCode cause)
  | _ =>
    let s := s.setFld (blkStat (unitPg u)) 4 0 (1 + 4 * causeCode cause)
    { s with errs.failTick := (u, s.now) :: s.errs.failTick.filter fun x => !(x.1 == u) }

/-- R388: what the fence of a unit stops. -/
def Chip.fenceStops (s : Chip) (u : UnitId) : Chip :=
  match u with
  | .newt c m => s.newtStop c m 4
  | .frog c => s.frogStop c .fenced
  | .copy c e => s.copyStop c e .fenced
  | .cluster c => (s.endReqs (s.needsCl c) .fenced).clusterStop c .fenced 4
  | .mc n =>
    let s := s.endReqs (s.needsMc n) .fenced
    let s := s.failAccs n .fenced
    let s := s.setFlag (memPg + 0x88 + 4 * (n / 32)) (n % 32) true
    let s := s.setFld (mcPg n + 0x40) 2 0 3
    s.loseSetsOf n
  | .link l => (s.cutReqs (fun r => r.port == l) .fenced).cutLink l .fenced
  | .eth => (s.cutReqs (fun r => r.port == 96) .fenced).setFld (enPg + 0x44) 1 0 0
  | .cv n => s.cvEnd n .fenced
  | .part p => s.endReqs (fun r => r.promise && r.part == p) .fenced

/-- R387: the fence is recorded with its tick. -/
def Chip.fenceListed (s : Chip) (u : UnitId) (cause : Cause) : Chip :=
  { s with errs.fences := s.errs.fences ++ [FenceRec.mk u cause s.now false false] }

theorem Chip.fenceUnit_eq (s : Chip) (u : UnitId) (cause : Cause) : s.fenceUnit u cause =
    if s.fenced1 u then s else (((s.pairFence u).fenceListed u cause).fenceShown u cause).fenceStops u := by
  unfold Chip.fenceUnit
  cases u <;> rfl

theorem Chip.keepsFences_fenceShown (s : Chip) (u : UnitId) (cause : Cause) : s.keepsFences (s.fenceShown u cause) := by
  cases u with
  | newt | part | cv => exact Chip.keepsFences_of rfl rfl
  | _ => exact s.keepsFences_failTick _ _ _

theorem Chip.keepsFences_fenceStops (s : Chip) (u : UnitId) : s.keepsFences (s.fenceStops u) := by
  cases u with
  | newt c m => exact (s.stops_newtStop c m 4).reqsGoOn.keepsFences
  | frog c => exact (s.stops_frogStop c .fenced).reqsGoOn.keepsFences
  | copy c e => exact (s.stops_copyStop c e .fenced).reqsGoOn.keepsFences
  | cluster c =>
    have h := s.reqsGoOn_endReqs (s.needsCl c) .fenced
    unfold Chip.fenceStops
    dsimp only
    generalize Chip.endReqs s _ _ = t at h ⊢
    exact (h.trans (t.stops_clusterStop c .fenced 4).reqsGoOn).keepsFences
  | mc n =>
    have h := (s.reqsGoOn_endReqs (s.needsMc n) .fenced).trans (Chip.reqsGoOn_failAccs _ n .fenced)
    unfold Chip.fenceStops
    dsimp only
    generalize Chip.failAccs _ n .fenced = t at h ⊢
    exact (((h.trans (t.reports_setFlag ..).reqsGoOn).trans (Chip.reports_setFld ..).reqsGoOn).trans
      (Chip.reqsGoOn_loseSetsOf _ n)).keepsFences
  | link | eth => exact Chip.keepsFences_of rfl rfl
  | cv n => exact s.keepsFences_cvEnd n .fenced
  | part p => exact (s.reqsGoOn_endReqs _ _).keepsFences

theorem Chip.keepsFences_fenceUnit (s : Chip) (u : UnitId) (cause : Cause) : s.keepsFences (s.fenceUnit u cause) := by
  rw [Chip.fenceUnit_eq]
  split
  · exact Chip.keepsFences_of rfl rfl
  · have hlisted : (s.pairFence u).keepsFences ((s.pairFence u).fenceListed u cause) :=
      ⟨fun f hf => List.mem_append_left _ hf, rfl⟩
    exact (((s.reqsGoOn_pairFence u).keepsFences.trans hlisted).trans (Chip.keepsFences_fenceShown ..)).trans
      (Chip.keepsFences_fenceStops ..)

theorem Chip.fenceUnit_lists {s : Chip} {u : UnitId} (cause : Cause) (h : s.fenced1 u = false) :
    FenceRec.mk u cause s.now false false ∈ (s.fenceUnit u cause).errs.fences := by
  rw [Chip.fenceUnit_eq, if_neg (ne_true_of_eq_false h)]
  have hin : FenceRec.mk u cause s.now false false ∈ ((s.pairFence u).fenceListed u cause).errs.fences := by
    rw [← (s.reqsGoOn_pairFence u).now]
    exact List.mem_append_right _ (List.mem_singleton.2 rfl)
  exact (Chip.keepsFences_fenceStops ..).fences _ ((Chip.keepsFences_fenceShown ..).fences _ hin)

/-- R387, R399: a fenced unit is recorded whatever its fence brings about. -/
theorem Chip.fence_lists {s : Chip} {u : UnitId} (cause : Cause) (pg bit : Nat) (inj : Bool) (h : s.fenced1 u = false) :
    FenceRec.mk u cause s.now false false ∈ (s.fence u cause pg bit inj).errs.fences := by
  have hcopies := (Chip.reqsGoOn_writeCopies (s.fenceUnit u cause) u).keepsFences.fences _ (Chip.fenceUnit_lists cause h)
  refine (Chip.reports_fenceRecord ..).reqsGoOn.keepsFences.fences _ ?_
  unfold Chip.fenceAll
  generalize (s.fenceUnit u cause).writeCopies u = t at hcopies
  cases u with
  | part p =>
    have hall : t.keepsFences (forEach (t.clustersOf p) (fun c s => s.fenceUnit (.cluster c) .widen) t) :=
      forEach_keeps (t.keepsFences ·) (fun c _ v hv => hv.trans (v.keepsFences_fenceUnit _ _)) (Chip.keepsFences_of rfl rfl)
    exact hall.fences _ hcopies
  | _ => exact hcopies

theorem Chip.unitError_lists {s : Chip} {u : UnitId} (cause : Cause) (pg bit info : Nat) (inj : Bool)
    (hc : s.isContained u = false) (hh : s.handling u = none) (hf : s.fenced1 u = false) :
    FenceRec.mk u cause s.now false false ∈ (s.unitError u cause pg bit info inj).errs.fences := by
  have hcount := s.reports_countErr pg bit 1 info inj
  unfold Chip.unitError
  dsimp only
  generalize s.countErr pg bit 1 info inj = t at hcount
  have howner : t.parts.owner = s.parts.owner := by rw [hcount.rest]
  rw [Chip.isContained_congr hcount.errs_fences howner, hc, Chip.handling_congr hcount.errs_fences howner, hh, ← hcount.now]
  exact Chip.fence_lists cause pg bit inj
    ((congrArg (fun m : List FenceRec => m.any fun f => f.unit == u) hcount.errs_fences).trans hf)

section
variable {s : State} {u : UnitId} {cause : Cause}

theorem fence_records (hknown : unitOfKind (unitKind u).1 (unitKind u).2 = some u) (hfits : causeFits u cause = true)
    (horder : cause ≠ .order) (hpart : ∀ p, u ≠ .part p)
    (hc : s.sys.chip.isContained u = false) (hh : s.sys.chip.handling u = none) (hf : s.sys.chip.fenced1 u = false) :
    ∃ t, chipNext s (.fence u cause) t ∧ FenceRec.mk u cause s.sys.chip.now false false ∈ t.errs.fences := by
  have hexec : exec (.fence u cause) s = execFence u cause s := (rfl)
  refine ⟨_, ?_, Chip.unitError_lists cause (errorAt u).1 (errorAt u).2 0 false hc hh hf⟩
  rw [chipNext, hexec, execFence, liftC]
  dsimp only
  rw [if_neg (by simp [hknown, hfits])]
  cases cause with
  | order => exact absurd rfl horder
  | _ =>
    cases u with
    | part p => exact absurd rfl (hpart p)
    | _ => rfl

theorem fence_ordered (hknown : unitOfKind (unitKind u).1 (unitKind u).2 = some u) (hpart : u ≠ .part 0)
    (hf : s.sys.chip.fenced1 u = false) (hnewt : ∀ c m, u ≠ .newt c m) : ∃ t, chipNext s (.fence u .order) t ∧
      FenceRec.mk u .order s.sys.chip.now false false ∈ t.errs.fences := by
  have hexec : exec (.fence u .order) s = execFence u .order s := (rfl)
  have hfits : causeFits u .order = true := by
    cases u with
    | part p => simpa [causeFits] using hpart
    | _ => rfl
  have horder : s.sys.chip.orderFence u = s.sys.chip.fence u .order (unitPg u) 0 false := by
    unfold Chip.orderFence
    rw [if_neg (ne_true_of_eq_false hf)]
  refine ⟨s.sys.chip.orderFence u, ?_, ?_⟩
  · rw [chipNext, hexec, execFence, liftC]
    dsimp only
    rw [if_neg (by simp [hknown, hfits])]
    cases u with
    | newt c m => exact absurd rfl (hnewt c m)
    | _ => rfl
  · rw [horder]
    exact Chip.fence_lists .order _ _ _ hf

theorem fence_unfit (h : causeFits u cause = false) : exec (.fence u cause) s = .next s := by
  have hexec : exec (.fence u cause) s = execFence u cause s := (rfl)
  rw [hexec, execFence, liftC]
  dsimp only
  rw [if_pos (.inr h)]

/-! ## Containment and release (R387, R390) -/

theorem fenceContained_link {n : Nat} (hf : s.sys.chip.fenced1 (.link n) = true) (hc : s.sys.chip.contained1 (.link n) = false) :
    ∃ t, chipNext s (.fenceContained (.link n)) t ∧ t.errs.fences =
      updWhere s.sys.chip.errs.fences (fun f => f.unit == .link n) (fun f => { f with contained := true }) ∧
      t.fld (blkStat (lkPg n)) 1 0 = 2 := by
  have hexec : exec (.fenceContained (.link n)) s = execFenceContained (.link n) s := (rfl)
  refine ⟨s.sys.chip.markContained (.link n), ?_, rfl, Chip.fld_setFld _ _ _ (by decide)⟩
  rw [chipNext, hexec, execFenceContained, liftS]
  dsimp only
  rw [if_pos ⟨hf, hc, rfl⟩]
  rfl

theorem fenceContained_same (h : s.sys.chip.fenced1 u = false ∨ s.sys.chip.contained1 u = true) :
    exec (.fenceContained u) s = .next s := by
  have hexec : exec (.fenceContained u) s = execFenceContained u s := (rfl)
  rw [hexec, execFenceContained, liftS]
  rw [if_neg]
  rcases h with h | h <;> simp [h]

/-- R390: lifting a fence leaves the others. -/
theorem Chip.fences_liftFence (s : Chip) (u : UnitId) :
    (s.liftFence u).errs.fences = s.errs.fences.filter fun f => !(f.unit == u) := by
  have hcopies : ∀ t : Chip, (t.writeCopies u).errs.fences = t.errs.fences := fun t => by
    have hrec : t.reconcile.errs.fences = t.errs.fences := by
      unfold Chip.reconcile
      refine forEach_keeps (fun v => v.errs.fences = t.errs.fences) (fun _ _ v hv => ?_) rfl
      rw [Chip.bump, Chip.bumpBy_errs, (v.reports_countErr ..).errs_fences, hv]
    unfold Chip.writeCopies
    dsimp only
    split
    · exact ((Chip.reports_strike ..).errs_fences).trans hrec
    · exact ((Chip.reports_strike ..).errs_fences).trans hrec
  unfold Chip.liftFence
  dsimp only
  generalize hv : Chip.sendState _ _ _ = v
  have hstate : v.errs.fences = s.errs.fences.filter fun f => !(f.unit == u) := by
    rw [← hv, (Chip.reports_sendState ..).errs_fences]
    cases u <;> rfl
  cases u with
  | mc n => rw [Chip.setFld_errs, Chip.setFlag_errs, hcopies, hstate]
  | eth => rw [Chip.setFld_errs, hcopies, hstate]
  | _ => rw [hcopies, hstate]

theorem supUnfence_lifts {v : Word} {f : FenceRec} (hu : unitOfKind (Word.bits v 3 0) (Word.bits v 23 8) = some u)
    (hf : (s.sys.chip.errs.fences.find? fun f => f.unit == u) = some f) (hlift : s.sys.chip.mayLift f = true)
    (hscope : ∀ w ∈ (s.sys.chip.chainOf u).drop 1, s.sys.chip.fenced1 w = false) : ∃ t, chipNext s (.supUnfence v) t ∧
      t.errs.fences = s.sys.chip.errs.fences.filter (fun f => !(f.unit == u)) ∧ t.fld (fqPg + 0x74) 1 0 = 1 := by
  have hexec : exec (.supUnfence v) s = execSupUnfence v s := (rfl)
  refine ⟨(s.sys.chip.liftFence u).setFld (fqPg + 0x74) 1 0 1, ?_, ?_, Chip.fld_setFld _ _ _ (by decide)⟩
  · have hall : (((s.sys.chip.chainOf u).drop 1).all fun w => !s.sys.chip.fenced1 w) = true := by
      rw [List.all_eq_true]
      intro w hw
      rw [hscope w hw]
      rfl
    rw [chipNext, hexec, execSupUnfence, liftC]
    dsimp only
    rw [hu, Option.bind_some, hf]
    dsimp only
    rw [if_pos ⟨hlift, hall⟩]
  · rw [Chip.setFld_errs, Chip.fences_liftFence]

theorem supUnfence_refused {v : Word}
    (h : ∀ u, unitOfKind (Word.bits v 3 0) (Word.bits v 23 8) = some u → s.sys.chip.fenced1 u = false) :
    ∃ t, chipNext s (.supUnfence v) t ∧ t.errs.fences = s.sys.chip.errs.fences ∧ t.fld (fqPg + 0x74) 1 0 = 2 := by
  have hexec : exec (.supUnfence v) s = execSupUnfence v s := (rfl)
  refine ⟨(s.sys.chip.setFld (fqPg + 0x74) 1 0 2).notice fqPg 2, ?_, (Chip.reports_notice ..).errs_fences, ?_⟩
  · rw [chipNext, hexec, execSupUnfence, liftC]
    dsimp only
    cases hu : unitOfKind (Word.bits v 3 0) (Word.bits v 23 8) with
    | none => rfl
    | some u =>
      have hnone : (s.sys.chip.errs.fences.find? fun f => f.unit == u) = none := by
        have hany := h u hu
        unfold Chip.fenced1 at hany
        rw [List.any_eq_false] at hany
        exact List.find?_eq_none.2 hany
      rw [Option.bind_some, hnone]
  · have hset : (s.sys.chip.setFld (fqPg + 0x74) 1 0 2).fld (fqPg + 0x74) 1 0 = 2 := Chip.fld_setFld _ _ _ (by decide)
    refine Eq.trans ?_ hset
    exact congrArg (Word.bits · 1 0) (Chip.notice_reg _ _ _ (.inl (by decide)) (by decide) (by decide))

theorem reconcile_clears : ∃ t, chipNext s .reconcile t ∧ t.errs.stale = [] ∧ t.errs.fences = s.sys.chip.errs.fences := by
  have hexec : chipNext s .reconcile s.sys.chip.reconcile := (rfl)
  have hkeep : s.sys.chip.reconcile.errs.stale = [] ∧ s.sys.chip.reconcile.errs.fences = s.sys.chip.errs.fences := by
    unfold Chip.reconcile
    refine forEach_keeps (fun v => v.errs.stale = [] ∧ v.errs.fences = s.sys.chip.errs.fences) (fun _ _ v hv => ?_) ⟨rfl, rfl⟩
    have hcount := v.reports_countErr fqPg 1 0 0 true
    rw [Chip.bump, Chip.bumpBy_errs, hcount.errs_fences]
    exact ⟨(congrArg (fun t : Chip => t.errs.stale) hcount.rest).trans hv.1, hv.2⟩
  exact ⟨_, hexec, hkeep⟩

/-! ## Injected errors (R398) -/

theorem errInjectReport_notes {page : Nat} {bit : Fin 32} {r : PageRef} (hr : headPage page = some r)
    (hrep : repOf r.ty r.inst bit = some .note) (hpg : page < ptPg 0) : ∃ t, chipNext s (.errInjectReport page bit) t ∧
      t.flag (errStat page) bit = true ∧ t.errs.fences = s.sys.chip.errs.fences := by
  have hexec : exec (.errInjectReport page bit) s = execErrInjectReport page bit s := (rfl)
  have hal := headPage_aligned (pg := page) (by rw [hr]; rfl)
  have hbelow : belowPt (errStat page) := .inl (by unfold errStat ptPg at *; omega)
  refine ⟨s.sys.chip.noticeInj page bit, ?_, Chip.setErr_flag _ _ bit.isLt hbelow, (Chip.reports_noticeInj ..).errs_fences⟩
  rw [chipNext, hexec, execErrInjectReport, liftC]
  dsimp only
  rw [hr, Option.bind_some, hrep]
  rfl

theorem Chip.arm_armed (s : Chip) {page : Nat} {r : PageRef} (hr : headPage page = some r) (h : r.ty ≠ 0x30) (bit k : Nat) :
    s.arm page bit k = { s with
      errs.armed := (s.errs.armed.filter fun a => !(a.page == page)) ++ [⟨page, bit, k⟩] } := by
  unfold Chip.arm
  rw [hr]
  dsimp only
  rw [if_neg h]

theorem Chip.arm_mc (s : Chip) {page : Nat} {r : PageRef} (hr : headPage page = some r) (h : r.ty = 0x30) (bit k : Nat) :
    (KMap.at (s.arm page bit k).mcs {} r.inst).inject = k := by
  unfold Chip.arm
  rw [hr]
  dsimp only
  rw [if_pos h]
  dsimp only
  rw [at_put_self]

/-- R321, R501: FREEZE of a page where nothing waits for it. -/
theorem freeze_sets {page : Nat} {on : Bool} {r : PageRef} (hr : headPage page = some r) (hacts : freezeActs r.ty = true) :
    exec (.freeze page on) s = .next { s with sys := (onChip (fun s => s.setFlag (blkCtrl page) 1 on) s.sys).thaw r } := by
  have hexec : exec (.freeze page on) s = execFreeze page on s := (rfl)
  rw [hexec, execFreeze, liftS]
  rw [hr]
  dsimp only
  rw [if_pos hacts]

theorem freeze_none {page : Nat} {on : Bool} {r : PageRef} (hr : headPage page = some r) (hacts : freezeActs r.ty = false) :
    exec (.freeze page on) s = .next s := by
  have hexec : exec (.freeze page on) s = execFreeze page on s := (rfl)
  rw [hexec, execFreeze, liftS]
  rw [hr]
  dsimp only
  rw [if_neg (ne_true_of_eq_false hacts)]

end

end Sys2Proof.Machine

/-! ## R118, R500: what a store that gives grants again leaves of the BLK_CTRL registers -/

namespace Sys2Proof.Machine

-- One after the other: side by side the proofs ask for more memory than the check grants.
set_option Elab.async false

open Laws

/-! ## Registers at the offset of BLK_CTRL -/

/-- BLK_CTRL of every page reads as before. -/
structure Chip.ctlKept (s t : Chip) : Prop where
  regs : ∀ a, a % 0x1000 = 8 → t.reg a = s.reg a

theorem Chip.ctlKept.refl (s : Chip) : s.ctlKept s := ⟨fun _ _ => rfl⟩

theorem Chip.ctlKept.trans {s t u : Chip} (h : s.ctlKept t) (h' : t.ctlKept u) : s.ctlKept u :=
  ⟨fun a ha => (h'.regs a ha).trans (h.regs a ha)⟩

theorem Chip.ctlKept_ite {s t u : Chip} {p : Prop} [Decidable p] (h : s.ctlKept t) (h' : s.ctlKept u) :
    s.ctlKept (if p then t else u) := by
  split <;> assumption

theorem Chip.ctlKept_of_regs {s t : Chip} (h : t.regs = s.regs) : s.ctlKept t := ⟨fun a _ => Chip.reg_of_regs h a⟩

theorem ctlKept_forEach {α : Type} (l : List α) {f : α → Chip → Chip} (hf : ∀ a (s : Chip), s.ctlKept (f a s)) (s : Chip) :
    s.ctlKept (forEach l f s) :=
  forEach_keeps (s.ctlKept ·) (fun a _ t ht => ht.trans (hf a t)) (.refl s)

theorem Chip.ctlKept_setReg (s : Chip) {a : Nat} (w : Word) (h : a % 0x1000 ≠ 8) : s.ctlKept (s.setReg a w) :=
  ⟨fun _ hb => Chip.reg_setReg_ne _ _ fun e => h (e ▸ hb)⟩

theorem Chip.ctlKept_setFld (s : Chip) {a : Nat} (hi lo v : Nat) (h : a % 0x1000 ≠ 8) : s.ctlKept (s.setFld a hi lo v) :=
  s.ctlKept_setReg _ h

theorem Chip.ctlKept_setFlag (s : Chip) {a : Nat} (n : Nat) (b : Bool) (h : a % 0x1000 ≠ 8) : s.ctlKept (s.setFlag a n b) :=
  s.ctlKept_setReg _ h

theorem Chip.ctlKept_bump (s : Chip) {a : Nat} (h : a % 0x1000 ≠ 8) : s.ctlKept (s.bump a) := s.ctlKept_setReg _ h

theorem Chip.ctlKept_wrapBy (s : Chip) {a : Nat} (k : Nat) (h : a % 0x1000 ≠ 8) : s.ctlKept (s.wrapBy a k) := s.ctlKept_setReg _ h

theorem ctl_below {a : Nat} (h : a % 0x1000 = 8) : belowPt a := by
  unfold belowPt
  omega

section
variable {pg : Nat} (hpg : pg % 0x1000 = 0)
include hpg

theorem Chip.ctlKept_countErr (s : Chip) (b c i : Nat) (inj : Bool) : s.ctlKept (s.countErr pg b c i inj) :=
  ⟨fun a ha => Chip.countErr_reg _ _ _ _ _ _ (ctl_below ha) (by omega) (by omega) (by omega)⟩

theorem Chip.ctlKept_notice (s : Chip) (b : Nat) : s.ctlKept (s.notice pg b) :=
  ⟨fun a ha => Chip.notice_reg _ _ _ (ctl_below ha) (by omega) (by omega)⟩

theorem Chip.ctlKept_setErr (s : Chip) (b : Nat) : s.ctlKept (s.setErr pg b) :=
  ⟨fun a ha => Chip.setErr_reg _ _ _ (ctl_below ha) (by unfold errStat; omega)⟩

end

theorem Chip.ctlKept_fault (s : Chip) (r : FaultRec) : s.ctlKept (s.fault r) := by
  refine ⟨fun a ha => ?_⟩
  have h68 : fqPg + 0x68 ≠ a := by unfold fqPg; omega
  have h10 : errStat fqPg ≠ a := by unfold errStat fqPg; omega
  have h18 : fqPg + 0x18 ≠ a := by unfold fqPg; omega
  have hevent : ∀ t : Chip, t.reg a = s.reg a → (t.pageEvent fqPg).reg a = s.reg a := fun t ht =>
    (t.pageEvent_reg _ (ctl_below ha)).trans ht
  have hfull : ∀ t : Chip, t.reg a = s.reg a → ((t.bump (fqPg + 0x68)).setFlag (errStat fqPg) 0 true).reg a = s.reg a :=
    fun t ht => ((Chip.reg_setFlag_ne _ _ _ h10).trans (Chip.reg_bump_ne _ h68)).trans ht
  have hlatch : ∀ t : Chip, t.reg a = s.reg a →
      (if t.flag (fqPg + 0x18) 31 then t else t.setReg (fqPg + 0x18) 0x80000000).reg a = s.reg a :=
    fun t ht => Chip.reg_ite ht ((Chip.reg_setReg_ne _ _ h18).trans ht)
  unfold Chip.fault
  exact Chip.reg_ite (hevent _ rfl) (Chip.reg_ite (hlatch _ (hfull _ rfl)) (hevent _ (hlatch _ (hfull _ rfl))))

theorem Chip.ctlKept_chainCond (s : Chip) (b : Nat) : s.ctlKept (s.chainCond b) := by
  have hpull : ∀ t : Chip, t.ctlKept t.chainPull := fun t => by
    unfold Chip.chainPull
    have hset := t.ctlKept_setFlag (a := chPg + 0x44) 8 true (by decide)
    exact Chip.ctlKept_ite (.refl t) (hset.trans (Chip.ctlKept_of_regs rfl))
  have hset := s.ctlKept_setFlag (a := chPg + 0x48) b true (by decide)
  unfold Chip.chainCond
  exact Chip.ctlKept_ite (.refl s) (Chip.ctlKept_ite (hset.trans (hpull _)) hset)

theorem Chip.ctlKept_sendState (s : Chip) (code : Nat) (d : List Byte) : s.ctlKept (s.sendState code d) := by
  have hlate : s.ctlKept ((s.bump (chPg + 0x58)).notice chPg 3) :=
    (s.ctlKept_bump (by decide)).trans (Chip.ctlKept_notice (by decide) _ _)
  have hsent : ∀ d, s.ctlKept (s.stateSent d) := fun d => Chip.ctlKept_of_regs rfl
  unfold Chip.sendState
  exact Chip.ctlKept_ite hlate (Chip.ctlKept_ite ((hsent _).trans (Chip.ctlKept_chainCond ..)) (hsent _))

theorem Chip.ctlKept_unitRecord (s : Chip) (u : UnitId) (cause : Cause) (pg bit info : Nat) (inj widen second : Bool) :
    s.ctlKept (s.unitRecord u cause pg bit info inj widen second) := s.ctlKept_fault _

theorem Chip.ctlKept_fenceRecord (s : Chip) (u : UnitId) (cause : Cause) (pg bit info : Nat) (inj widen second : Bool) :
    s.ctlKept (s.fenceRecord u cause pg bit info inj widen second) :=
  (s.ctlKept_unitRecord ..).trans (Chip.ctlKept_sendState ..)

theorem Chip.ctlKept_strike (s : Chip) (pg : Nat) : s.ctlKept (s.strike pg).2 := by
  have htake : s.ctlKept (s.takeArmed pg).2 := by
    unfold Chip.takeArmed
    split
    · exact .refl s
    · exact Chip.ctlKept_of_regs rfl
  unfold Chip.strike
  split <;> rename_i h <;> rw [h] at htake <;> exact htake

/-! ## What a fence of a newt, a cluster or a partition stops (R388) -/

theorem clPage_aligned (c : Nat) {k : Nat} (h : k % 0x1000 ≠ 8) : (clPg c + k) % 0x1000 ≠ 8 := by
  unfold clPg
  omega

theorem Chip.ctlKept_setStop (s : Chip) (c m v : Nat) : s.ctlKept (s.setStop c m v) := by
  unfold Chip.setStop
  exact Chip.ctlKept_ite (s.ctlKept_setFld _ _ _ (by unfold nwRec nwRecPg clPg; omega)) (.refl s)

theorem Chip.ctlKept_trapPend (s : Chip) (c : Nat) {m : Nat} (b : Bool) (h : m < 129) : s.ctlKept (s.trapPend c m b) := by
  unfold Chip.trapPend
  exact s.ctlKept_setFlag _ _ (by unfold nwPg clPg; omega)

theorem Chip.ctlKept_newtStop (s : Chip) (c : Nat) {m : Nat} : s.ctlKept (s.newtStop c m 4) := by
  unfold Chip.newtStop
  dsimp only
  refine Chip.ctlKept_ite (.refl s) ?_
  refine Chip.ctlKept.trans ?_ (Chip.ctlKept_setStop ..)
  generalize hu : s.setCore c m _ = u
  have hset : s.ctlKept u := hu ▸ Chip.ctlKept_of_regs rfl
  split
  · rename_i hm
    exact hset.trans (Chip.ctlKept_trapPend _ _ _ (by omega))
  · exact hset

theorem Chip.ctlKept_releaseTable (s : Chip) (c : Nat) (st : Status) : s.ctlKept (s.releaseTable c st) := by
  have hpost : ∀ d n (t : Chip), t.ctlKept (t.postAbort c d n st) := fun d n t => Chip.ctlKept_of_regs rfl
  unfold Chip.releaseTable
  dsimp only
  split
  · exact .refl s
  · exact (ctlKept_forEach _ (fun d t => hpost d _ t) s).trans (Chip.ctlKept_of_regs rfl)

theorem Chip.ctlKept_leaveScan (s : Chip) (c n : Nat) (d : List Word) (st : Status) : s.ctlKept (s.leaveScan c n d st) := by
  have hpost : s.ctlKept (if dw d 11 23 16 = c then s else s.postAbort c (dw d 11 23 16) (dw d 11 31 24) st) :=
    Chip.ctlKept_ite (.refl s) (Chip.ctlKept_of_regs rfl)
  unfold Chip.leaveScan
  exact Chip.ctlKept_ite (.refl s) (Chip.ctlKept_ite (hpost.trans (Chip.ctlKept_releaseTable ..)) hpost)

theorem Chip.ctlKept_frogFenced (s : Chip) (c : Nat) (d : List Word) (n : Nat) : s.ctlKept (s.frogFenced c d n) := by
  have hdone : ∀ t : Chip, t.ctlKept (t.frogDone c d) := fun t => by
    have h := t.ctlKept_wrapBy (a := fgPg c + 0x68) 1 (by unfold fgPg clPg; omega)
    unfold Chip.frogDone
    exact Chip.ctlKept_ite (h.trans (Chip.ctlKept_setFlag _ _ _ (by unfold nwPg clPg; omega))) h
  have hset : ∀ x, s.ctlKept (s.setCl c x) := fun x => Chip.ctlKept_of_regs rfl
  unfold Chip.frogFenced
  exact Chip.ctlKept_ite ((hset _).trans (hdone _)) (.refl s)

theorem Chip.ctlKept_frogStop (s : Chip) (c : Nat) : s.ctlKept (s.frogStop c .fenced) := by
  unfold Chip.frogStop
  dsimp only
  rw [if_pos rfl]
  generalize hu : Chip.setReg _ _ _ = u
  have h0 : s.ctlKept u := by
    rw [← hu]
    refine Chip.ctlKept.trans ?_ (Chip.ctlKept_setReg _ _ (by unfold fgPg clPg; omega))
    exact Chip.ctlKept_of_regs rfl
  generalize hv : Chip.releaseTable _ c .fenced = v
  have h1 : s.ctlKept v := by
    rw [← hv]
    refine Chip.ctlKept.trans ?_ (Chip.ctlKept_releaseTable ..)
    split
    · exact h0.trans (Chip.ctlKept_leaveScan ..)
    · exact h0
  refine Chip.ctlKept.trans ?_ (ctlKept_forEach _ (fun q t => t.ctlKept_frogFenced c (Prod.snd q) 0) _)
  split
  · exact h1.trans (Chip.ctlKept_frogFenced ..)
  · exact h1

theorem Chip.ctlKept_copyStop (s : Chip) (c e : Nat) (st : Status) : s.ctlKept (s.copyStop c e st) := by
  unfold Chip.copyStop
  exact Chip.ctlKept_ite (Chip.ctlKept_of_regs rfl) (Chip.ctlKept_of_regs rfl)

theorem Chip.ctlKept_clusterStop (s : Chip) (c : Nat) : s.ctlKept (s.clusterStop c .fenced 4) := by
  have hnewts : s.ctlKept (forEach (List.range 129) (fun m s => s.newtStop c m 4) s) :=
    ctlKept_forEach _ (fun m t => t.ctlKept_newtStop c) s
  unfold Chip.clusterStop
  exact ((hnewts.trans (Chip.ctlKept_frogStop ..)).trans (Chip.ctlKept_copyStop ..)).trans (Chip.ctlKept_copyStop ..)

theorem Chip.ctlKept_pairFence (s : Chip) (u : UnitId) : s.ctlKept (s.pairFence u) := by
  have hout : ∀ t : Chip, t.ctlKept t.alertOut := fun t =>
    (t.ctlKept_setFlag (a := pairPg + 0x48) 14 true (by decide)).trans (Chip.ctlKept_of_regs rfl)
  have hgo : s.ctlKept s.goOut := by
    unfold Chip.goOut
    refine Chip.ctlKept.trans (Chip.ctlKept.trans (Chip.ctlKept.trans ?_ (Chip.ctlKept_setFld _ _ _ _ (by decide)))
      (Chip.ctlKept_setFlag _ _ _ (by decide))) (hout _)
    exact Chip.ctlKept_of_regs rfl
  have hnote : ∀ k, s.ctlKept (s.announce k) := fun k => by
    have hord : s.ctlKept s.takeOrd.2 := by
      unfold Chip.takeOrd
      refine Chip.ctlKept.trans ?_ (Chip.ctlKept_setReg _ _ (by decide))
      exact Chip.ctlKept_of_regs rfl
    unfold Chip.announce
    exact Chip.ctlKept_ite (hord.trans (Chip.ctlKept_of_regs rfl)) (.refl s)
  have hsplit : s.pairFence u = (if s.standsBy then s.goOut else s.announce (.fence u)) ∨ s.pairFence u = s := by
    cases u <;> simp [Chip.pairFence]
  rcases hsplit with e | e <;> rw [e]
  · exact Chip.ctlKept_ite hgo (hnote _)
  · exact .refl s

/-- A newt, or a scope around it: a cluster or a partition. -/
def inCluster (u : UnitId) : Prop := (∃ c m, u = .newt c m) ∨ (∃ c, u = .cluster c) ∨ ∃ p, u = .part p

theorem Chip.ctlKept_fenceUnit (s : Chip) {u : UnitId} (cause : Cause) (h : inCluster u) : s.ctlKept (s.fenceUnit u cause) := by
  have hlisted : s.ctlKept ((s.pairFence u).fenceListed u cause) := (s.ctlKept_pairFence u).trans (Chip.ctlKept_of_regs rfl)
  rw [Chip.fenceUnit_eq]
  refine Chip.ctlKept_ite (.refl s) ?_
  generalize (s.pairFence u).fenceListed u cause = t at hlisted
  refine hlisted.trans ?_
  obtain ⟨c, m, rfl⟩ | ⟨c, rfl⟩ | ⟨p, rfl⟩ := h
  · exact t.ctlKept_newtStop c
  · have hshown : t.ctlKept (t.fenceShown (.cluster c) cause) := by
      have hset := t.ctlKept_setFld (a := blkStat (unitPg (.cluster c))) 4 0 (1 + 4 * causeCode cause)
        (by show (clPg c + 0x0C) % 0x1000 ≠ 8; unfold clPg; omega)
      exact hset.trans (Chip.ctlKept_of_regs rfl)
    have hend : ∀ v : Chip, v.ctlKept (v.endReqs (v.needsCl c) .fenced) := fun v => Chip.ctlKept_of_regs rfl
    exact (hshown.trans (hend _)).trans (Chip.ctlKept_clusterStop ..)
  · have hset := t.ctlKept_setFld (a := blkStat (unitPg (.part p))) 4 0 (1 + 4 * causeCode cause)
      (by show (ptPg p + 0x0C) % 0x1000 ≠ 8; unfold ptPg; omega)
    exact hset.trans (Chip.ctlKept_of_regs rfl)

theorem Chip.ctlKept_writeCopies (s : Chip) (u : UnitId) : s.ctlKept (s.writeCopies u) := by
  have h : s.ctlKept s.reconcile := by
    unfold Chip.reconcile
    refine Chip.ctlKept.trans (t := { s with errs.stale := [] }) (Chip.ctlKept_of_regs rfl) (ctlKept_forEach _ (fun _ t => ?_) _)
    exact (Chip.ctlKept_countErr (by decide) t _ _ _ _).trans (Chip.ctlKept_bump _ (by decide))
  have h' := h.trans (Chip.ctlKept_strike s.reconcile fqPg)
  unfold Chip.writeCopies
  exact Chip.ctlKept_ite (h'.trans (Chip.ctlKept_of_regs rfl)) h'

theorem Chip.ctlKept_fenceAll (s : Chip) {u : UnitId} (cause : Cause) (h : inCluster u) : s.ctlKept (s.fenceAll u cause) := by
  have h1 := (s.ctlKept_fenceUnit cause h).trans (Chip.ctlKept_writeCopies _ u)
  unfold Chip.fenceAll
  generalize Chip.writeCopies _ u = w at h1 ⊢
  obtain ⟨c, m, rfl⟩ | ⟨c, rfl⟩ | ⟨p, rfl⟩ := h
  · exact h1
  · exact h1
  · exact h1.trans (ctlKept_forEach _ (fun c t => t.ctlKept_fenceUnit _ (.inr (.inl ⟨c, rfl⟩))) _)

theorem Chip.scopeOf_scoped {s : Chip} {u w : UnitId} (h : s.scopeOf u = some w) : inCluster w := .inr (Chip.scopeOf_some h)

theorem Chip.ctlKept_unitError (s : Chip) {u : UnitId} (cause : Cause) {pg : Nat} (bit info : Nat) (inj : Bool)
    (hu : inCluster u) (hpg : pg % 0x1000 = 0) : s.ctlKept (s.unitError u cause pg bit info inj) := by
  have hcount := Chip.ctlKept_countErr hpg s bit 1 info inj
  unfold Chip.unitError
  dsimp only
  generalize s.countErr pg bit 1 info inj = t at hcount
  refine Chip.ctlKept_ite hcount ?_
  cases t.handling u with
  | none => exact hcount.trans ((t.ctlKept_fenceAll cause hu).trans (Chip.ctlKept_fenceRecord ..))
  | some f =>
    refine Chip.ctlKept_ite hcount ?_
    cases hw : t.scopeOf f.unit with
    | none => exact hcount.trans (t.ctlKept_unitRecord ..)
    | some w => exact hcount.trans ((t.ctlKept_fenceAll .widen (Chip.scopeOf_scoped hw)).trans (Chip.ctlKept_fenceRecord ..))

theorem Chip.ctlKept_wordUe (s : Chip) (c off : Nat) : s.ctlKept (s.wordUe c off) := by
  have hpg : stPg c % 0x1000 = 0 := by unfold stPg clPg; omega
  unfold Chip.wordUe
  dsimp only
  generalize hu : Chip.countErr _ _ _ _ _ _ = u
  have h : s.ctlKept u := by
    rw [← hu]
    refine Chip.ctlKept.trans ?_ (Chip.ctlKept_countErr hpg _ _ _ _ _)
    exact Chip.ctlKept_ite (.refl s) (s.ctlKept_setReg _ (by omega))
  refine Chip.ctlKept_ite h ?_
  cases u.handling (.cluster c) with
  | none => exact h.trans (u.ctlKept_fault _)
  | some f =>
    refine Chip.ctlKept_ite h ?_
    cases hw : u.scopeOf f.unit with
    | none => exact h.trans (u.ctlKept_unitRecord ..)
    | some w => exact h.trans ((u.ctlKept_fenceAll .widen (Chip.scopeOf_scoped hw)).trans (Chip.ctlKept_fenceRecord ..))

/-! ## Reads and writes of a store -/

theorem Sys.ctlKept_stMeet (y : Sys) (c : Nat) (e : Nat × Mark) : y.chip.ctlKept (y.stMeet c e).chip := by
  have hpg : stPg c % 0x1000 = 0 := by unfold stPg clPg; omega
  obtain ⟨k, m⟩ := e
  cases m with
  | good => exact .refl _
  | told => exact .refl _
  | one => exact Chip.ctlKept_countErr hpg _ _ _ _ _
  | two => exact y.chip.ctlKept_wordUe c _
  | poison => exact Chip.ctlKept_setErr hpg _ _

theorem Sys.ctlKept_stRead (y : Sys) (c off n : Nat) : y.chip.ctlKept (y.stRead c off n).2.2.chip :=
  forEachS_keeps (fun z => y.chip.ctlKept z.chip) (fun e _ z hz => hz.trans (z.ctlKept_stMeet c e)) (.refl _)

theorem Sys.ctlKept_stPut (y : Sys) (c off : Nat) (d : List Byte) : y.chip.ctlKept (y.stPut c off d).chip := by
  rw [Sys.stPut_rest]
  exact Chip.ctlKept_of_regs rfl

theorem Sys.ctlKept_stMerge (y : Sys) (c off : Nat) (d : List Byte) : y.chip.ctlKept (y.stMerge c off d).chip := by
  have hread := y.ctlKept_stRead c (off - off % 4) 4
  unfold Sys.stMerge
  dsimp only
  split
  · exact hread.trans (Sys.ctlKept_stPut ..)
  · exact hread

theorem Sys.ctlKept_stRaw (y : Sys) (c off : Nat) (d : List Byte) : y.chip.ctlKept (y.stRaw c off d).chip := by
  unfold Sys.stRaw
  dsimp only
  generalize hz : (if min ((4 - off % 4) % 4) d.length = 0 then y else _) = z
  have h : y.chip.ctlKept z.chip := by
    rw [← hz]
    split
    · exact .refl _
    · exact y.ctlKept_stMerge ..
  have h' := h.trans (z.ctlKept_stPut c (off + min ((4 - off % 4) % 4) d.length)
    ((d.drop (min ((4 - off % 4) % 4) d.length)).take ((d.length - min ((4 - off % 4) % 4) d.length) / 4 * 4)))
  split
  · exact h'.trans (Sys.ctlKept_stMerge ..)
  · exact h'

theorem Sys.ctlKept_stWrite (y : Sys) (c off : Nat) (d : List Byte) : y.chip.ctlKept (y.stWrite c off d).chip :=
  (Chip.ctlKept_of_regs (y.regs_invLines c off d.length)).trans (Sys.ctlKept_stRaw ..)

theorem Sys.ctlKept_writeLine (y : Sys) (c : Nat) (l : Line) : y.chip.ctlKept (y.writeLine c l).chip := by
  rw [Sys.writeLine_rest]
  exact Chip.ctlKept_of_regs rfl

/-! ## Transactions of the order point (R117) -/

theorem Chip.ctlKept_setCore (s : Chip) (c m : Nat) (x : Core) : s.ctlKept (s.setCore c m x) := Chip.ctlKept_of_regs rfl

theorem Sys.ctlKept_fillLine (y : Sys) (c line : Nat) : y.chip.ctlKept (y.fillLine c line).2.chip := y.ctlKept_stRead c line 64

theorem Sys.ctlKept_ringRd (y : Sys) (c line m : Nat) : y.chip.ctlKept (y.ringRd c line m).2.chip := by
  unfold Sys.ringRd
  dsimp only
  generalize hz : forEachS _ _ y = z
  have h : y.chip.ctlKept z.chip := by
    rw [← hz]
    refine forEachS_keeps (fun w => y.chip.ctlKept w.chip) (fun h _ w hw => ?_) (.refl _)
    refine Chip.ctlKept.trans ?_ (Chip.ctlKept_setCore ..)
    split
    · exact hw.trans (w.ctlKept_writeLine c h.2.2)
    · exact hw
  split
  · exact h
  · exact h.trans (z.ctlKept_fillLine c line)

/-- R117: a line leaves the caches that hold it. -/
theorem Chip.ctlKept_dropHolders (s : Chip) (c : Nat) (hs : List (Nat × Nat × Line)) :
    s.ctlKept (forEach hs (fun h s => s.setCore c h.1 ((s.core c h.1).setLine h.2.1 none)) s) :=
  ctlKept_forEach hs (fun h t => t.ctlKept_setCore c h.1 ((t.core c h.1).setLine h.2.1 none)) s

theorem Sys.ctlKept_ringRdx (y : Sys) (c line m : Nat) : y.chip.ctlKept (y.ringRdx c line m).2.chip := by
  unfold Sys.ringRdx
  dsimp only
  generalize hz : onChip _ y = z
  have h : y.chip.ctlKept z.chip := by
    rw [← hz]
    exact y.chip.ctlKept_dropHolders c _
  split
  · exact h
  · exact h.trans (z.ctlKept_fillLine c line)

theorem Chip.ctlKept_ringUpg (s : Chip) (c line m : Nat) : s.ctlKept (s.ringUpg c line m) := s.ctlKept_dropHolders c _

theorem Chip.ctlKept_retire (s : Chip) (c m next : Nat) : s.ctlKept (s.retire c m next) := by
  unfold Chip.retire
  dsimp only
  split
  · have hpc := s.ctlKept_setReg (a := nwRec c m + 12) (BitVec.ofNat 32 next) (by unfold nwRec nwRecPg clPg; omega)
    exact (hpc.trans (Chip.ctlKept_setCore ..)).trans (Chip.ctlKept_setStop ..)
  · exact s.ctlKept_setCore ..

theorem Chip.ctlKept_finish (s : Chip) (c m rd : Nat) (w : Word) (next : Nat) : s.ctlKept (s.finish c m rd w next) :=
  (s.ctlKept_setCore ..).trans (Chip.ctlKept_retire ..)

/-- R97, R112: a core traps at a word that it loads. -/
theorem Chip.ctlKept_trap (s : Chip) (c m tval : Nat) : s.ctlKept (s.trap c m 25 tval) := by
  have hcause := s.ctlKept_setFld (a := nwRec c m) 12 8 25 (by unfold nwRec nwRecPg clPg; omega)
  have hpc := hcause.trans (Chip.ctlKept_setReg _ (a := nwRec c m + 4) (BitVec.ofNat 32 (s.core c m).pc)
    (by unfold nwRec nwRecPg clPg; omega))
  have hval := hpc.trans (Chip.ctlKept_setReg _ (a := nwRec c m + 8) (BitVec.ofNat 32 tval) (by unfold nwRec nwRecPg clPg; omega))
  unfold Chip.trap
  dsimp only
  split
  · rename_i hm
    rw [if_neg (by decide)]
    exact ((hval.trans (Chip.ctlKept_setCore ..)).trans (Chip.ctlKept_trapPend _ _ _ (by omega))).trans (Chip.ctlKept_setStop ..)
  · rw [if_neg (by decide)]
    exact s.ctlKept_setCore ..

theorem Chip.ctlKept_loadArrives (s : Chip) (c m : Nat) (ms : Miss) (k : Nat) (l : Line) : s.ctlKept (s.loadArrives c m ms k l) := by
  have hover : s.ctlKept (s.missOver c m) := s.ctlKept_setCore ..
  unfold Chip.loadArrives
  dsimp only
  refine Chip.ctlKept_ite hover (hover.trans ?_)
  unfold Chip.loadLine
  exact Chip.ctlKept_ite ((Chip.ctlKept_setCore ..).trans (Chip.ctlKept_trap ..))
    ((Chip.ctlKept_setCore ..).trans (Chip.ctlKept_finish ..))

theorem Chip.ctlKept_storeArrives (s : Chip) (c m : Nat) (ms : Miss) (k : Nat) (l : Line) :
    s.ctlKept (s.storeArrives c m ms k l) := by
  have hover : s.ctlKept (s.missOver c m) := s.ctlKept_setCore ..
  have hstored := hover.trans (Chip.ctlKept_setCore _ c m (((s.missOver c m).core c m).useLine k
    (l.stored ms.addr (storeBytes ms.f3 (BitVec.ofNat 32 ms.val)))))
  unfold Chip.storeArrives
  exact Chip.ctlKept_ite (hstored.trans (Chip.ctlKept_retire ..)) hstored

theorem Chip.ctlKept_latchFirst (s : Chip) {pg : Nat} (b c i : Nat) (inj : Bool) (h : pg % 0x1000 = 0) :
    s.ctlKept (s.latchFirst pg b c i inj) :=
  ⟨fun _ ha => Chip.latchFirst_reg _ _ _ _ _ _ (by omega)⟩

theorem nwPages_aligned (c m : Nat) : nwRecPg c m % 0x1000 = 0 ∧ nwPg c % 0x1000 = 0 := by
  unfold nwRecPg nwPg clPg
  omega

theorem Sys.ctlKept_evictLine (y : Sys) (c m k : Nat) (l : Line) : y.chip.ctlKept (y.evictLine c m k l).chip := by
  obtain ⟨hrec, hpg⟩ := nwPages_aligned c m
  have hwrite := (y.ctlKept_writeLine c l).trans (Chip.ctlKept_setCore _ c m (((y.writeLine c l).chip.core c m).setLine k none))
  have hdiscard : y.chip.ctlKept (y.chip.discardLine c m k l) := by
    unfold Chip.discardLine
    dsimp only
    split
    · exact (y.chip.ctlKept_setCore ..).trans (Chip.ctlKept_latchFirst _ _ _ _ _ hrec)
    · exact (y.chip.ctlKept_setCore ..).trans (Chip.ctlKept_unitError _ _ _ _ _ (.inr (.inl ⟨c, rfl⟩)) hpg)
  unfold Sys.evictLine
  dsimp only
  split
  · exact hdiscard
  · split
    · refine hwrite.trans ?_
      split
      · exact Chip.ctlKept_unitError _ _ _ _ _ (.inl ⟨c, m, rfl⟩) hrec
      · exact Chip.ctlKept_unitError _ _ _ _ _ (.inr (.inl ⟨c, rfl⟩)) hpg
    · exact hwrite

theorem Sys.ctlKept_ringTurn (y : Sys) (c : Nat) (t : Nat × Nat) : y.chip.ctlKept (y.ringTurn c t).chip := by
  have hrd : ∀ m ms k, y.chip.ctlKept (y.missRd c m ms k).chip := fun m ms k => by
    unfold Sys.missRd
    dsimp only
    rw [onChip_chip]
    exact (y.ctlKept_ringRd c _ m).trans (Chip.ctlKept_loadArrives ..)
  have hrdx : ∀ m ms k, y.chip.ctlKept (y.missRdx c m ms k).chip := fun m ms k => by
    unfold Sys.missRdx
    dsimp only
    rw [onChip_chip]
    exact (y.ctlKept_ringRdx c _ m).trans (Chip.ctlKept_storeArrives ..)
  have hupg : ∀ m ms k l, y.chip.ctlKept (onChip (fun s => (s.ringUpg c t.1 m).storeArrives c m ms k l) y).chip := fun m ms k l => by
    rw [onChip_chip]
    exact (y.chip.ctlKept_ringUpg c t.1 m).trans (Chip.ctlKept_storeArrives ..)
  unfold Sys.ringTurn
  split
  · unfold Sys.coreTurn
    dsimp only
    split
    · split
      · exact hrd _ _ _
      · exact hupg _ _ _ _
      · exact hrdx _ _ _
    · split
      · split
        · exact y.ctlKept_evictLine ..
        · exact .refl _
      · exact .refl _
  · exact Chip.ctlKept_of_regs (y.regs_invLines ..)

theorem Sys.ctlKept_ringDrain (y : Sys) (c : Nat) : y.chip.ctlKept (y.ringDrain c).chip := by
  have hcl : y.chip.ctlKept (y.chip.setCl c { y.chip.cl c with opens := [], credits := [] }) := Chip.ctlKept_of_regs rfl
  unfold Sys.ringDrain
  exact forEachS_keeps (fun z => y.chip.ctlKept z.chip) (fun t _ z hz => hz.trans (z.ctlKept_ringTurn c t)) hcl

/-! ## Completions of the copy engines (R127, R500) -/

theorem Sys.ctlKept_copyWordAt (y : Sys) (c : Nat) (d : Desc) (w : List Byte) :
    y.chip.ctlKept (y.copyWordAt c d w).chip := by
  unfold Sys.copyWordAt
  dsimp only
  split
  · exact .refl _
  · split
    · split
      · exact .refl _
      · exact y.ctlKept_stWrite ..
    · exact y.ctlKept_stWrite ..

/-- R127: the counts of a completion, its error and its interrupt. -/
theorem Chip.ctlKept_completion (s : Chip) (c e : Nat) (st : Status) (b : Bool) (x : Eng) : s.ctlKept (
    let s := (s.setEng c e x).wrapBy (cpPg c e + 0x48) 1
    let s := if st = .ok then s else s.bump (cpPg c e + 0x60)
    let s := match st with
      | .ue => s.countErr (cpPg c e) 1 1 0 false
      | .noAccess => s.notice (cpPg c e) 2
      | _ => s
    if b then s.setFlag (cpPg c e + 0x54) 0 true else s) := by
  have hpg : cpPg c e % 0x1000 = 0 := by unfold cpPg clPg; omega
  have hset : s.ctlKept (s.setEng c e x) := Chip.ctlKept_of_regs rfl
  have hcount := hset.trans (Chip.ctlKept_wrapBy _ (a := cpPg c e + 0x48) 1 (by omega))
  have hfail : s.ctlKept (if st = .ok then (s.setEng c e x).wrapBy (cpPg c e + 0x48) 1
      else ((s.setEng c e x).wrapBy (cpPg c e + 0x48) 1).bump (cpPg c e + 0x60)) :=
    Chip.ctlKept_ite hcount (hcount.trans (Chip.ctlKept_bump _ (by omega)))
  have hend : ∀ t, s.ctlKept t → s.ctlKept (if b then t.setFlag (cpPg c e + 0x54) 0 true else t) := fun t ht =>
    Chip.ctlKept_ite (ht.trans (Chip.ctlKept_setFlag _ _ _ (by omega))) ht
  dsimp only
  generalize (if st = .ok then (s.setEng c e x).wrapBy (cpPg c e + 0x48) 1
    else ((s.setEng c e x).wrapBy (cpPg c e + 0x48) 1).bump (cpPg c e + 0x60)) = v at hfail
  cases st with
  | ue => exact hend _ (hfail.trans (Chip.ctlKept_countErr hpg _ _ _ _ _))
  | noAccess => exact hend _ (hfail.trans (Chip.ctlKept_notice hpg _ _))
  | _ => exact hend _ hfail

theorem Sys.ctlKept_completeDesc (y : Sys) (c e : Nat) (d : Desc) : y.chip.ctlKept (y.completeDesc c e d).chip :=
  (y.ctlKept_copyWordAt c d _).trans (Chip.ctlKept_completion ..)

theorem Sys.ctlKept_copyDone (c e n : Nat) : ∀ y : Sys, y.chip.ctlKept (y.copyDone c e n).chip := by
  induction n with
  | zero => exact fun y => .refl _
  | succ n ih =>
    intro y
    unfold Sys.copyDone
    dsimp only
    split
    · exact .refl _
    · split
      · exact .refl _
      · split
        · refine Chip.ctlKept.trans ?_ (ih _)
          exact Chip.ctlKept_of_regs rfl
        · exact .refl _
      · split
        · exact (y.ctlKept_completeDesc c e _).trans (ih _)
        · exact .refl _

theorem Sys.ctlKept_thaw (y : Sys) (r : PageRef) : y.chip.ctlKept (y.thaw r).chip := by
  unfold Sys.thaw
  split
  · exact .refl _
  · refine forEachS_keeps (fun z => y.chip.ctlKept z.chip) (fun c _ z hz => ?_) (y.ctlKept_ringDrain r.inst)
    exact (hz.trans (Sys.ctlKept_copyDone c 0 _ z)).trans (Sys.ctlKept_copyDone c 1 _ _)

/-! ## FREEZE (R321, R500, R501) -/

section
variable {s : State} {page : Nat} {on : Bool} {r : PageRef}

theorem headPage_ctl (hr : headPage page = some r) : blkCtrl page % 0x1000 = 8 := by
  have hal := headPage_aligned (pg := page) (by rw [hr]; rfl)
  unfold blkCtrl
  omega

theorem freeze_shows (hr : headPage page = some r) (hacts : freezeActs r.ty = true) :
    ∃ z, exec (.freeze page on) s = .next { s with sys := z } ∧ z.chip.flag (blkCtrl page) 1 = on := by
  refine ⟨_, freeze_sets hr hacts, ?_⟩
  have hset : (s.sys.chip.setFlag (blkCtrl page) 1 on).flag (blkCtrl page) 1 = on := Chip.flag_setFlag _ _ _ (by decide)
  exact (congrArg (Word.bit · 1) ((Sys.ctlKept_thaw (onChip (fun s => s.setFlag (blkCtrl page) 1 on) s.sys) r).regs _
    (headPage_ctl hr))).trans hset

theorem clusterPage_store {n q i : Nat} (h : clusterPage n q = some (0x23, i)) : q = 5 ∧ i = n := by
  unfold clusterPage at h
  split at h <;> simp_all

theorem singlePages_types {p ty : Nat} (h : singlePages.lookup p = some ty) : ty ≠ 0x23 := by
  obtain ⟨l1, l2, hl, -⟩ := List.lookup_eq_some_iff.1 h
  have hmem : (p, ty) ∈ singlePages := by rw [hl]; simp
  have hall : ∀ e ∈ singlePages, e.2 ≠ 0x23 := by decide
  exact hall _ hmem

/-- R499: the first page of a store's block is the store's page. -/
theorem headPage_store (hr : headPage page = some r) (hty : r.ty = 0x23) : page = stPg r.inst := by
  have hal := headPage_aligned (pg := page) (by rw [hr]; rfl)
  have href : pageRef page = some r := by
    unfold headPage at hr
    cases hp : pageRef page with
    | none => rw [hp] at hr; cases hr
    | some q =>
      rw [hp] at hr
      dsimp only at hr
      split at hr
      · exact hr
      · cases hr
  unfold pageRef at href
  dsimp only at href
  split at href
  · rename_i hcl
    obtain ⟨⟨ty, i⟩, hpage, rfl⟩ := Option.map_eq_some_iff.1 href
    have hty' : ty = 0x23 := hty
    rw [hty'] at hpage
    obtain ⟨hoff, hinst⟩ := clusterPage_store hpage
    show page = stPg i
    unfold stPg clPg
    omega
  · have hother : ∀ {a b c d : Nat}, PageRef.mk a b c d = r → a ≠ 0x23 → False := fun h hne => hne ((congrArg PageRef.ty h).trans hty)
    split at href
    · exact (hother (Option.some.inj href) (by decide)).elim
    · split at href
      · exact (hother (Option.some.inj href) (by decide)).elim
      · split at href
        · exact (hother (Option.some.inj href) (by decide)).elim
        · split at href
          · exact (hother (Option.some.inj href) (by decide)).elim
          · split at href
            · exact (hother (Option.some.inj href) (by decide)).elim
            · obtain ⟨ty, hlook, hmk⟩ := Option.map_eq_some_iff.1 href
              exact (hother hmk (singlePages_types hlook)).elim

theorem freeze_only (hr : headPage page = some r) (hacts : freezeActs r.ty = true) (hty : r.ty ≠ 0x23 ∨ on = true) :
    ∃ t, chipNext s (.freeze page on) t ∧ s.sys.onlyRegs { s.sys with chip := t } [blkCtrl page] ∧ t.flag (blkCtrl page) 1 = on := by
  have hset : (s.sys.chip.setFlag (blkCtrl page) 1 on).flag (blkCtrl page) 1 = on := Chip.flag_setFlag _ _ _ (by decide)
  have hthaw : ¬(r.ty = 0x23 ∧ (s.sys.chip.setFlag (blkCtrl page) 1 on).stFrozen r.inst = false) := by
    rintro ⟨h23, hopen⟩
    have hfrozen : (s.sys.chip.setFlag (blkCtrl page) 1 on).stFrozen r.inst = on := by
      unfold Chip.stFrozen Chip.frozen
      rw [← headPage_store hr h23]
      exact hset
    rw [hfrozen] at hopen
    exact hty.elim (fun h => h h23) fun h => by rw [h] at hopen; cases hopen
  refine ⟨s.sys.chip.setFlag (blkCtrl page) 1 on, ?_, ⟨rfl, fun a ha => Chip.reg_setFlag_ne _ _ _ fun e => ha (List.mem_singleton.2 e.symm)⟩, hset⟩
  rw [chipNext, freeze_sets hr hacts, Sys.thaw, if_pos]
  · rfl
  · by_contra h
    exact hthaw (by simpa using h)

end

end Sys2Proof.Machine

/-! PROOF of O55 (R386 to R395, R398, R400 to R407, R501, R508): fences and their release, injected errors, and check-value
units. -/

namespace Sys2Proof.Machine

-- One after the other: side by side the proofs ask for more memory than the check grants.
set_option Elab.async false

open Laws

/-! ## The page of a check-value unit -/

theorem cvPg_ref : ∀ u < 32, (pageRef (cvPg u)).map (·.ty) = some 0x90 := by decide

/-- Events of a check-value unit go to a partition that its routing names. -/
theorem cvPg_apart {u k : Nat} (hu : u < 32) (hk : k < 0x1000) : eventApart (cvPg u) (cvPg u + k) := by
  intro t
  have hv := fld_lt t (cvPg u + 0x24) 15 8
  have hpart : t.evPart (cvPg u) < 64 := by
    obtain ⟨r, hr, hty⟩ := Option.map_eq_some_iff.1 (cvPg_ref u hu)
    unfold Chip.evPart
    rw [hr]
    dsimp only
    rw [hty, if_neg (by decide), if_neg (by decide)]
    exact fld_lt t (cvPg u + 0x24) 5 0
  generalize t.evPart (cvPg u) = p at hpart
  generalize t.fld (cvPg u + 0x24) 15 8 = v at hv
  refine ⟨?_, ?_, ?_⟩
  · unfold ptPg cvPg
    omega
  · unfold ptPg cvPg
    omega
  · unfold vecReg ptPg cvPg
    omega

theorem Chip.cvNotice_reg (s : Chip) {u k : Nat} (hu : u < 32) (b : Nat) (hk : 0x20 ≤ k) (hk' : k < 0x1000) :
    (s.notice (cvPg u) b).reg (cvPg u + k) = s.reg (cvPg u + k) :=
  Chip.notice_apart _ _ (cvPg_apart hu hk') (by omega) (by omega)

/-! ## Streams (R402 to R404, R407) -/

@[simp] theorem Chip.cv_setCv (s : Chip) (u : Nat) (v : Cv) : (s.setCv u v).cv u = v := at_put_self ..

theorem Chip.cv_setCv_ne (s : Chip) {u w : Nat} (v : Cv) (h : w ≠ u) : (s.setCv u v).cv w = s.cv w :=
  at_put_ne _ _ (Ne.symm h)

theorem Chip.Reports.cvs {s t : Chip} (h : s.Reports t) : t.errs.cvs = s.errs.cvs := by rw [h.rest]

/-- R403: the first block of a stream leaves what the stream is. -/
theorem Chip.cv_cvNext (s : Chip) (u : Nat) : ((s.cvNext u).cv u).queue = (s.cv u).queue ∧ ((s.cvNext u).cv u).run = (s.cv u).run ∧
    ((s.cvNext u).cv u).pos = (s.cv u).pos := by
  have hstop : ∀ st, Chip.cv { s with errs.cvs := KMap.put s.errs.cvs {} u { KMap.at s.errs.cvs {} u with ended := some st } } u =
      { s.cv u with ended := some st } := fun st => s.cv_setCv u _
  unfold Chip.cvNext
  dsimp only
  split
  · exact ⟨rfl, rfl, rfl⟩
  · split
    · exact ⟨rfl, rfl, rfl⟩
    · split
      · rw [hstop]
        exact ⟨rfl, rfl, rfl⟩
      · split
        · rw [hstop]
          exact ⟨rfl, rfl, rfl⟩
        · exact ⟨rfl, rfl, rfl⟩

/-- R404: a stream has ended: its unit, the status and the count show it. -/
def Chip.cvClosed (s : Chip) (u : Nat) (l : List CvStream) (st : Status) : Chip :=
  ((s.setCv u { queue := l }).setFld (cvPg u + 0x5C) 3 0 (stCode st)).wrapBy (cvPg u + 0x68) 1

/-- R404: the value of a stream is compared with the one it brought. -/
def Chip.cvCompared (s : Chip) (u : Nat) (same : Bool) : Chip :=
  if same then s.setFlag (cvPg u + 0x5C) 4 true
  else ((s.setFlag (cvPg u + 0x5C) 4 false).notice (cvPg u) 0).bump (cvPg u + 0x6C)

theorem Chip.cvClosed_facts (s : Chip) (u : Nat) (l : List CvStream) (st : Status) : (s.cvClosed u l st).cv u = { queue := l } ∧
    (s.cvClosed u l st).fld (cvPg u + 0x5C) 3 0 = stCode st % 16 ∧
    ((s.cvClosed u l st).reg (cvPg u + 0x68)).toNat = ((s.reg (cvPg u + 0x68)).toNat + 1) % 2 ^ 32 := by
  refine ⟨?_, ?_, ?_⟩
  · have hcvs : (s.cvClosed u l st).cv u = (s.setCv u { queue := l }).cv u := rfl
    rw [hcvs, Chip.cv_setCv]
  · have hfld : ((s.setCv u { queue := l }).setFld (cvPg u + 0x5C) 3 0 (stCode st)).fld (cvPg u + 0x5C) 3 0 = stCode st % 16 :=
      Chip.fld_setFld _ _ _ (by decide)
    refine Eq.trans ?_ hfld
    exact congrArg (Word.bits · 3 0) (Chip.reg_setReg_ne _ _ (by omega))
  · have hreg : ((s.setCv u { queue := l }).setFld (cvPg u + 0x5C) 3 0 (stCode st)).reg (cvPg u + 0x68) = s.reg (cvPg u + 0x68) :=
      (Chip.reg_setFld_ne _ _ _ _ (by omega)).trans (Chip.reg_of_regs rfl _)
    unfold Chip.cvClosed Chip.wrapBy
    rw [Chip.reg_setReg, hreg, BitVec.toNat_ofNat]

theorem Chip.cvCompared_facts (s : Chip) {u : Nat} (hu : u < 32) (same : Bool) : (s.cvCompared u same).errs.cvs = s.errs.cvs ∧
    (s.cvCompared u same).fld (cvPg u + 0x5C) 3 0 = s.fld (cvPg u + 0x5C) 3 0 ∧
    (s.cvCompared u same).flag (cvPg u + 0x5C) 4 = same ∧
    (∀ k, 0x60 ≤ k → k < 0x6C → (s.cvCompared u same).reg (cvPg u + k) = s.reg (cvPg u + k)) := by
  cases same with
  | true =>
    exact ⟨rfl, Chip.fld_setFlag_apart _ _ _ (by decide) (by decide), Chip.flag_setFlag _ _ _ (by decide),
      fun k h1 h2 => Chip.reg_setFlag_ne _ _ _ (by omega)⟩
  | false =>
    have hcomp : s.cvCompared u false = ((s.setFlag (cvPg u + 0x5C) 4 false).notice (cvPg u) 0).bump (cvPg u + 0x6C) := rfl
    have hreg : ∀ k, 0x5C ≤ k → k < 0x6C → (s.cvCompared u false).reg (cvPg u + k) =
        (s.setFlag (cvPg u + 0x5C) 4 false).reg (cvPg u + k) := fun k h1 h2 => by
      rw [hcomp, Chip.reg_bump_ne _ (by omega), Chip.cvNotice_reg _ hu 0 (by omega) (by omega)]
    refine ⟨?_, ?_, ?_, fun k h1 h2 => ?_⟩
    · rw [hcomp, Chip.bump, Chip.bumpBy_errs, (Chip.reports_notice ..).cvs]
      rfl
    · have hfld : (s.setFlag (cvPg u + 0x5C) 4 false).fld (cvPg u + 0x5C) 3 0 = s.fld (cvPg u + 0x5C) 3 0 :=
        Chip.fld_setFlag_apart _ _ _ (by decide) (by decide)
      exact (congrArg (Word.bits · 3 0) (hreg 0x5C (by decide) (by decide))).trans hfld
    · have hflag : (s.setFlag (cvPg u + 0x5C) 4 false).flag (cvPg u + 0x5C) 4 = false := Chip.flag_setFlag _ _ _ (by decide)
      exact (congrArg (Word.bit · 4) (hreg 0x5C (by decide) (by decide))).trans hflag
    · rw [hreg k (by omega) h2, Chip.reg_setFlag_ne _ _ _ (by omega)]

/-- R404: a stream whose every block is read: its value, compared where asked. -/
theorem Chip.cvFinish_ok (s : Chip) (u : Nat) (v : Cv) (r : CvStream) : s.cvFinish u v r .ok =
    if r.cmp = false then (s.cvClosed u v.queue .ok).setPair (cvPg u + 0x60) (v.crc ^^^ (crcAlg r.poly).fin)
    else ((s.cvClosed u v.queue .ok).setPair (cvPg u + 0x60) (v.crc ^^^ (crcAlg r.poly).fin)).cvCompared u
      (decide (v.crc ^^^ (crcAlg r.poly).fin = r.exp % 2 ^ (crcAlg r.poly).w)) := by
  unfold Chip.cvFinish Chip.cvCompared
  dsimp only
  refine if_congr Iff.rfl rfl ?_
  simp only [decide_eq_true_eq]
  rfl

theorem Chip.cvFinish_facts (s : Chip) {u : Nat} (hu : u < 32) (v : Cv) (r : CvStream) :
    (s.cvFinish u v r .ok).cv u = { queue := v.queue } ∧
    (s.cvFinish u v r .ok).fld (cvPg u + 0x5C) 3 0 = stCode .ok ∧
    (s.cvFinish u v r .ok).pair (cvPg u + 0x60) = (v.crc ^^^ (crcAlg r.poly).fin) % 2 ^ 64 ∧
    ((s.cvFinish u v r .ok).reg (cvPg u + 0x68)).toNat = ((s.reg (cvPg u + 0x68)).toNat + 1) % 2 ^ 32 ∧
    (r.cmp = true → (s.cvFinish u v r .ok).flag (cvPg u + 0x5C) 4 =
      ((v.crc ^^^ (crcAlg r.poly).fin) == r.exp % 2 ^ (crcAlg r.poly).w)) := by
  obtain ⟨hcv, hfld, hcount⟩ := s.cvClosed_facts u v.queue .ok
  rw [Chip.cvFinish_ok]
  generalize v.crc ^^^ (crcAlg r.poly).fin = res
  generalize s.cvClosed u v.queue .ok = c at hcv hfld hcount
  have hpair : (c.setPair (cvPg u + 0x60) res).pair (cvPg u + 0x60) = res % 2 ^ 64 := c.pair_setPair _ _
  have hreg : ∀ k, (k = 0x5C ∨ k = 0x68) → (c.setPair (cvPg u + 0x60) res).reg (cvPg u + k) = c.reg (cvPg u + k) := fun k hk =>
    (Chip.reg_setReg_ne _ _ (by omega)).trans (Chip.reg_setReg_ne _ _ (by omega))
  have hcvs : (c.setPair (cvPg u + 0x60) res).cv u = { queue := v.queue } := hcv
  have hfld' : (c.setPair (cvPg u + 0x60) res).fld (cvPg u + 0x5C) 3 0 = stCode .ok :=
    (congrArg (Word.bits · 3 0) (hreg 0x5C (.inl rfl))).trans hfld
  have hcount' : ((c.setPair (cvPg u + 0x60) res).reg (cvPg u + 0x68)).toNat = ((s.reg (cvPg u + 0x68)).toNat + 1) % 2 ^ 32 :=
    (congrArg BitVec.toNat (hreg 0x68 (.inr rfl))).trans hcount
  generalize c.setPair (cvPg u + 0x60) res = d at hpair hcvs hfld' hcount'
  split
  · rename_i hcmp
    exact ⟨hcvs, hfld', hpair, hcount', fun h => absurd h (ne_true_of_eq_false hcmp)⟩
  · obtain ⟨hc, hf, hflag, hk⟩ := d.cvCompared_facts hu (decide (res = r.exp % 2 ^ (crcAlg r.poly).w))
    refine ⟨?_, hf.trans hfld', ?_, ?_, fun _ => hflag⟩
    · rw [Chip.cv, hc]
      exact hcvs
    · rw [Chip.pair, hk 0x60 (by decide) (by decide), Nat.add_assoc, hk 0x64 (by decide) (by decide)]
      exact hpair
    · rw [hk 0x68 (by decide) (by decide), hcount']

/-- R404: a stream that ended with a failure. -/
theorem Chip.cvFinish_failed (s : Chip) {u : Nat} (hu : u < 32) (v : Cv) (r : CvStream) {st : Status} (hst : st ≠ .ok) :
    ((s.cvFinish u v r st).cv u).run = none ∧ (s.cvFinish u v r st).fld (cvPg u + 0x5C) 3 0 = stCode st % 16 := by
  obtain ⟨hcv, hfld, -⟩ := s.cvClosed_facts u v.queue st
  have hnotice : ∀ b, (((s.cvClosed u v.queue st).notice (cvPg u) b).cv u).run = none ∧
      ((s.cvClosed u v.queue st).notice (cvPg u) b).fld (cvPg u + 0x5C) 3 0 = stCode st % 16 := fun b => by
    refine ⟨?_, (congrArg (Word.bits · 3 0) (Chip.cvNotice_reg _ hu b (by decide) (by decide))).trans hfld⟩
    rw [Chip.cv, (Chip.reports_notice ..).cvs]
    exact congrArg Cv.run hcv
  cases st with
  | ok => exact absurd rfl hst
  | ue => exact hnotice 2
  | noAccess => exact hnotice 3
  | _ => exact ⟨congrArg Cv.run hcv, hfld⟩

section
variable {s : State} {u : CvNo}

theorem cvPost_fenced (h : s.sys.chip.isFenced (.cv u) = true) : exec (.cvPost u) s = .next s := by
  have hexec : exec (.cvPost u) s = execCvPost u s := (rfl)
  rw [hexec, execCvPost, liftC]
  dsimp only
  rw [if_pos h]

theorem cvPost_queues (h : s.sys.chip.isFenced (.cv u) = false) (hroom : (s.sys.chip.cv u).queue.length < 8) :
    chipNext s (.cvPost u) (s.sys.chip.setCv u { s.sys.chip.cv u with
      queue := (s.sys.chip.cv u).queue ++ [s.sys.chip.cvStaged u] }) := by
  have hexec : exec (.cvPost u) s = execCvPost u s := (rfl)
  rw [chipNext, hexec, execCvPost, liftC]
  dsimp only
  rw [if_neg (ne_true_of_eq_false h), if_neg (Nat.not_le.2 hroom)]

theorem cvPost_full (h : s.sys.chip.isFenced (.cv u) = false) (hfull : 8 ≤ (s.sys.chip.cv u).queue.length) :
    ∃ t, chipNext s (.cvPost u) t ∧ t.errs.cvs = s.sys.chip.errs.cvs := by
  have hexec : exec (.cvPost u) s = execCvPost u s := (rfl)
  refine ⟨s.sys.chip.notice (cvPg u) 1, ?_, (Chip.reports_notice ..).cvs⟩
  rw [chipNext, hexec, execCvPost, liftC]
  dsimp only
  rw [if_neg (ne_true_of_eq_false h), if_pos hfull]

/-- R403: the stream that starts. -/
def Cv.starts (r : CvStream) (l : List CvStream) : Cv :=
  { queue := l, run := some r, pos := 0, ended := none, crc := crcStart (crcAlg r.poly) r.fabric r.off r.tag }

theorem cvStream_starts {r : CvStream} {l : List CvStream} (hrun : (s.sys.chip.cv u).run = none)
    (hqueue : (s.sys.chip.cv u).queue = r :: l) (hon : s.sys.chip.flag (blkCtrl (cvPg u)) 0 = true) :
    ∃ t, chipNext s (.cvStreamStart u) t ∧ (t.cv u).queue = l ∧ (t.cv u).run = some r ∧ (t.cv u).pos = 0 := by
  have hexec : exec (.cvStreamStart u) s = execCvStreamStart u s := (rfl)
  have hnext := (s.sys.chip.setCv u (Cv.starts r l)).cv_cvNext u
  rw [Chip.cv_setCv] at hnext
  refine ⟨(s.sys.chip.setCv u (Cv.starts r l)).cvNext u, ?_, hnext⟩
  rw [chipNext, hexec, execCvStreamStart, liftC]
  dsimp only
  rw [hrun, hqueue]
  dsimp only
  rw [if_pos hon]
  rfl

theorem cvStream_none (h : (s.sys.chip.cv u).run ≠ none ∨ (s.sys.chip.cv u).queue = []) :
    exec (.cvStreamStart u) s = .next s := by
  have hexec : exec (.cvStreamStart u) s = execCvStreamStart u s := (rfl)
  rw [hexec, execCvStreamStart, liftC]
  dsimp only
  cases hrun : (s.sys.chip.cv u).run with
  | some r => rfl
  | none =>
    rw [h.resolve_left (not_not.2 hrun)]

theorem cvStream_ends {r : CvStream} (hrun : (s.sys.chip.cv u).run = some r) (hended : (s.sys.chip.cv u).ended = none)
    (hpos : r.len ≤ (s.sys.chip.cv u).pos) :
    chipNext s (.cvStreamEnd u) (s.sys.chip.cvFinish u (s.sys.chip.cv u) r .ok) := by
  have hexec : exec (.cvStreamEnd u) s = execCvStreamEnd u s := (rfl)
  rw [chipNext, hexec, execCvStreamEnd, liftC]
  dsimp only
  rw [hrun, hended]
  dsimp only
  rw [if_pos hpos]

theorem cvStream_fails {r : CvStream} {st : Status} (hrun : (s.sys.chip.cv u).run = some r)
    (hended : (s.sys.chip.cv u).ended = some st) :
    chipNext s (.cvStreamEnd u) (s.sys.chip.cvFinish u (s.sys.chip.cv u) r st) := by
  have hexec : exec (.cvStreamEnd u) s = execCvStreamEnd u s := (rfl)
  rw [chipNext, hexec, execCvStreamEnd, liftC]
  dsimp only
  rw [hrun, hended]

theorem cvStream_idle (hrun : (s.sys.chip.cv u).run = none) : exec (.cvStreamEnd u) s = .next s := by
  have hexec : exec (.cvStreamEnd u) s = execCvStreamEnd u s := (rfl)
  rw [hexec, execCvStreamEnd, liftC]
  dsimp only
  rw [hrun]

theorem cvReset_drops : ∃ t, chipNext s (.cvReset u) t ∧ t.cv u = {} ∧
    (∀ f ∈ t.errs.fences, f.unit = .cv u → f.resetDone = true) ∧ ∀ w : Nat, w ≠ u.val → t.cv w = s.sys.chip.cv w := by
  have hexec : exec (.cvReset u) s = execCvReset u s := (rfl)
  refine ⟨_, by rw [chipNext, hexec, execCvReset, liftC], ?_, Chip.resetDoneFor_done _ (by simp), fun w hw => ?_⟩
  · exact s.sys.chip.cv_setCv u {}
  · exact s.sys.chip.cv_setCv_ne {} hw

end

/-- Settles O55: errors fence by the record of their unit, fences end by the cause's conditions, FREEZE by what a store's
transactions leave of BLK_CTRL, and streams by the value of every block. -/
theorem fencesAndChecks : Obligations.FencesAndChecks := by
  refine ⟨?_, ?_⟩
  · intro s u cause v n page bit on y gives known part arms
    have hpart : part = false → ∀ p, u ≠ .part p := fun h p e => by
      subst e
      exact Bool.noConfusion (show true = false from h)
    refine ⟨fun hk hf ho hp hc hh hx => fence_records hk hf ho (hpart hp) hc hh hx, fence_ordered, fence_unfit,
      fenceContained_link, fenceContained_same,
      fun f hu hf hlift hscope => supUnfence_lifts hu hf hlift hscope, supUnfence_refused, reconcile_clears, (rfl),
      fun r hr hrep hpg => errInjectReport_notes hr hrep hpg, ?_, ?_, fun r hr => ⟨freeze_only hr, freeze_shows hr, freeze_none hr⟩⟩
    · intro r hr
      refine ⟨fun hty => ?_, fun hty => ⟨_, rfl, Chip.arm_mc _ hr hty bit 2⟩⟩
      rw [← Chip.arm_armed y hr hty bit 2]
      rfl
    · intro r hr
      refine ⟨fun hty => ?_, fun hty => ⟨_, rfl, Chip.arm_mc _ hr hty bit 3⟩⟩
      rw [← Chip.arm_armed y hr hty bit 3]
      rfl
  · intro s u y x pg gives
    refine ⟨cvPost_fenced, fun h => ⟨cvPost_queues h, cvPost_full h⟩, fun r l hrun hq hon => cvStream_starts hrun hq hon,
      cvStream_none, fun r hrun hended hpos => ?_, fun r st hrun hended hst => ?_, cvStream_idle, cvReset_drops⟩
    · obtain ⟨hcv, hfld, hpair, hcount, hcmp⟩ := y.cvFinish_facts u.isLt x r
      exact ⟨_, cvStream_ends hrun hended hpos, by rw [hcv], by rw [hcv], hfld, hpair, hcount, hcmp⟩
    · exact ⟨_, cvStream_fails hrun hended, y.cvFinish_failed u.isLt x r hst⟩

end Sys2Proof.Machine

/-! PROOF of O56 (R410, R413 to R417, R422, R423): messages and order of the redundant pair. -/

namespace Sys2Proof.Machine

-- One after the other: side by side the proofs ask for more memory than the check grants.
set_option Elab.async false

open Laws

/-! ## Messages (R410, R414) -/

/-- R410: a message came in by a MIRROR link whose partner is the peer. -/
def Chip.fromPeerChip (s : Chip) (m : PairMsg) : Prop :=
  (s.linkRole m.link).1 = 3 ∧ s.paired = true ∧ s.flag (pairPg + 0x44) 31 = true ∧
    s.fld (lkPg m.link + 0x48) 11 0 = s.fld (pairPg + 0x44) 11 0

theorem Chip.isPeer_iff (s : Chip) (l : Nat) : s.isPeer l = true ↔ s.paired = true ∧
    s.flag (pairPg + 0x44) 31 = true ∧ s.fld (lkPg l + 0x48) 11 0 = s.fld (pairPg + 0x44) 11 0 := by
  unfold Chip.isPeer
  rw [Bool.and_eq_true, Bool.and_eq_true, beq_iff_eq, and_assoc]

theorem Chip.peerSays_iff (s : Chip) (m : PairMsg) (k : Nat) :
    s.peerSays m k = true ↔ s.fromPeerChip m ∧ m.kind = k := by
  unfold Chip.peerSays Chip.fromPeerChip
  rw [Bool.and_eq_true, Bool.and_eq_true, beq_iff_eq, beq_iff_eq, Chip.isPeer_iff, and_assoc, and_assoc, and_assoc]

theorem Chip.peerSays_of {s : Chip} {m : PairMsg} {k : Nat} (h : s.fromPeerChip m) (hk : m.kind = k) : s.peerSays m k = true :=
  (s.peerSays_iff m k).2 ⟨h, hk⟩

theorem Chip.fromPeer_of {s : Chip} {m : PairMsg} {k : Nat} (h : s.fromPeerChip m) (hk : m.kind = k) (f : Chip → Chip) :
    s.fromPeer m k f = f s := if_pos (Chip.peerSays_of h hk)

/-- Instruction i acts on messages of its KIND of the peer alone; of another it leaves what strayMsg says. -/
def strays (s : State) (m : PairMsg) (k : Nat) (i : Instr) : Prop :=
  s.sys.chip.peerSays m k = false → chipNext s i (s.sys.chip.strayMsg m)

theorem strays_of_fromPeer {s : State} {m : PairMsg} {k : Nat} {i : Instr} {f : Chip → Chip}
    (h : exec i s = liftC (fun y => y.fromPeer m k f) s) : strays s m k i := fun hs => by
  rw [chipNext, h, liftC]
  unfold Chip.fromPeer
  rw [if_neg (ne_true_of_eq_false hs)]

/-- R410, R414: a message that does not act is counted, or carried by no MIRROR link. -/
theorem stray_outcomes {s : State} {m : PairMsg} {k : Nat} {i : Instr} (h : strays s m k i) :
    ((s.sys.chip.linkRole m.link).1 ≠ 3 → exec i s = .next s) ∧
      ((s.sys.chip.linkRole m.link).1 = 3 → ¬ s.sys.chip.fromPeerChip m → chipNext s i (s.sys.chip.bump (risoPg + 0x60))) ∧
      (s.sys.chip.fromPeerChip m → m.kind ≠ k → if 1 ≤ m.kind ∧ m.kind ≤ 0xB then exec i s = .next s
        else chipNext s i (s.sys.chip.bump (lkPg m.link + 0x78))) := by
  have hstray : ¬ (s.sys.chip.fromPeerChip m ∧ m.kind = k) → chipNext s i (s.sys.chip.strayMsg m) := fun hn =>
    h (eq_false_of_ne_true fun ht => hn ((s.sys.chip.peerSays_iff m k).1 ht))
  refine ⟨fun hm => ?_, fun hm hp => ?_, fun hp hk => ?_⟩
  · have hx := hstray fun hp => hm hp.1.1
    unfold Chip.strayMsg at hx
    rw [if_pos hm] at hx
    exact chipNext_same hx
  · have hx := hstray fun hq => hp hq.1
    have hpeer : s.sys.chip.isPeer m.link = false :=
      eq_false_of_ne_true fun ht => hp ⟨hm, (s.sys.chip.isPeer_iff m.link).1 ht⟩
    unfold Chip.strayMsg at hx
    rwa [if_neg (not_not.2 hm), if_pos hpeer] at hx
  · have hx := hstray fun hq => hk hq.2
    have hpeer : s.sys.chip.isPeer m.link = true := (s.sys.chip.isPeer_iff m.link).2 hp.2
    unfold Chip.strayMsg at hx
    rw [if_neg (not_not.2 hp.1), if_neg (ne_false_of_eq_true hpeer)] at hx
    by_cases hr : 1 ≤ m.kind ∧ m.kind ≤ 0xB
    · rw [if_pos hr] at hx ⊢
      exact chipNext_same hx
    · rwa [if_neg hr] at hx ⊢

/-! ## Carrying out in order (R413, R415) -/

/-- R415: no token or note has the next place in the order. -/
theorem Chip.catchUp_waits {s : Chip} (h : ∀ t ∈ s.duo.tokens, t.ord ≠ s.prom.seq) : s.catchUp = s := by
  have hfind : s.duo.tokens.find? (fun t => t.ord == s.prom.seq) = none :=
    List.find?_eq_none.2 fun t ht hb => h t ht (beq_iff_eq.1 hb)
  unfold Chip.catchUp
  cases s.duo.tokens.length with
  | zero => rfl
  | succ n => rw [Chip.applyTokens, hfind]

/-- R415: the only token has its turn, and its body is held. -/
theorem Chip.catchUp_applies {s : Chip} {t : PairTok} (htok : s.duo.tokens = [t]) (hord : t.ord = s.prom.seq)
    (hs : s.standsBy = true) (hl : s.duo.live = []) (hw : t.what = none) (hb : s.bodiesOf t.arg0 ≠ []) :
    s.catchUp = Chip.applyInput { s with duo.tokens := s.duo.tokens.erase t } t := by
  have hfind : s.duo.tokens.find? (fun t => t.ord == s.prom.seq) = some t := by
    rw [htok, List.find?_singleton, if_pos (beq_iff_eq.2 hord)]
  unfold Chip.catchUp
  rw [htok, List.length_singleton, Chip.applyTokens, hfind]
  dsimp only
  rw [if_neg (by rw [hs, hl]; decide), hw]
  dsimp only
  rw [if_neg (by rw [List.isEmpty_iff]; exact hb), ← htok]
  rfl

/-- R413: the only note has its turn. -/
theorem Chip.catchUp_notes {s : Chip} {t : PairTok} {k : NoteKind} (htok : s.duo.tokens = [t]) (hord : t.ord = s.prom.seq)
    (hs : s.standsBy = true) (hl : s.duo.live = []) (hw : t.what = some k) :
    s.catchUp = Chip.applyNote { s with duo.tokens := s.duo.tokens.erase t } t k := by
  have hfind : s.duo.tokens.find? (fun t => t.ord == s.prom.seq) = some t := by
    rw [htok, List.find?_singleton, if_pos (beq_iff_eq.2 hord)]
  unfold Chip.catchUp
  rw [htok, List.length_singleton, Chip.applyTokens, hfind]
  dsimp only
  rw [if_neg (by rw [hs, hl]; decide), hw, ← htok]
  rfl

/-- R415: an input that was carried out is reported, and nothing acts as its cause. -/
theorem Chip.applyInput_done (s : Chip) (t : PairTok) :
    Out.apply t.ord ∈ (s.applyInput t).out ∧ (s.applyInput t).duo.cause = none := by
  unfold Chip.applyInput
  dsimp only
  generalize forEach _ _ _ = u
  have hout : Out.apply t.ord ∈ u.out ++ [.apply t.ord] := List.mem_append_right _ (List.mem_singleton.2 rfl)
  split
  · exact ⟨hout, rfl⟩
  · exact ⟨hout, rfl⟩

/-! ## ORDER, NOTE, ORDER_ACK (R413 to R417) -/

theorem Chip.lag_setLag (s : Chip) (b : Bool) : (s.setLag b).lag = b := s.flag_setFlag _ b (by decide)

/-- R414: a message of this chip with no tick, body or link. -/
def Chip.bareMsg (s : Chip) (kind ord arg0 arg1 : Nat) : PairMsg :=
  .mk kind s.selfChip (ord % 2 ^ 32) 0 arg0 arg1 [] 0

/-- R415: a token has joined those that wait and is acknowledged. -/
def Chip.tokened (s : Chip) (m : PairMsg) (w : Option NoteKind) (b : Bool) : Chip :=
  Chip.ackTok { s with duo.tokens := s.duo.tokens ++ [PairTok.mk m.ord m.tick m.arg0 m.arg1 w] } m.ord b

theorem Chip.out_tokened (s : Chip) (m : PairMsg) (w : Option NoteKind) (b : Bool) :
    (s.tokened m w b).out = s.out ++ [.pair (s.bareMsg 2 m.ord m.ord (if b then 1 else 0))] := rfl

theorem Chip.tokened_waits {s : Chip} {m : PairMsg} (w : Option NoteKind)
    (h : (∀ t ∈ s.duo.tokens, t.ord ≠ s.prom.seq) ∧ m.ord ≠ s.prom.seq) :
    ∀ t ∈ s.duo.tokens ++ [PairTok.mk m.ord m.tick m.arg0 m.arg1 w], t.ord ≠ s.prom.seq := fun t ht => by
  rcases List.mem_append.1 ht with ht | ht
  · exact h.1 t ht
  · rw [List.mem_singleton.1 ht]
    exact h.2

section
variable {s : State} {m : PairMsg} {k : NoteKind} {body : PairInput} {n : Nat}

theorem order_eq (hp : s.sys.chip.fromPeerChip m) (hk : m.kind = 1) : chipNext s (.order m)
    (if s.sys.chip.standsBy = false then s.sys.chip
      else Chip.catchUp (if !(s.sys.chip.bodiesOf m.arg0).isEmpty
        then s.sys.chip.tokened m none (!(s.sys.chip.bodiesOf m.arg0).isEmpty)
        else (s.sys.chip.tokened m none (!(s.sys.chip.bodiesOf m.arg0).isEmpty)).askBody m.ord)) := by
  have hexec : exec (.order m) s = execOrder m s := (rfl)
  rw [chipNext, hexec, execOrder, liftC, Chip.fromPeer_of hp hk]
  rfl

theorem order_ignored (hp : s.sys.chip.fromPeerChip m) (hk : m.kind = 1) (hs : s.sys.chip.standsBy = false) :
    exec (.order m) s = .next s := by
  have h := order_eq hp hk
  rw [if_pos hs] at h
  exact chipNext_same h

theorem order_bodied (hp : s.sys.chip.fromPeerChip m) (hk : m.kind = 1) (hs : s.sys.chip.standsBy = true)
    (hb : s.sys.chip.bodiesOf m.arg0 ≠ []) : chipNext s (.order m) (s.sys.chip.tokened m none true).catchUp := by
  have h := order_eq hp hk
  have hbody : (!(s.sys.chip.bodiesOf m.arg0).isEmpty) = true := by
    rw [Bool.not_eq_true', ← Bool.not_eq_true, List.isEmpty_iff]
    exact hb
  rwa [if_neg (ne_false_of_eq_true hs), hbody, if_pos rfl] at h

theorem order_waits (hp : s.sys.chip.fromPeerChip m) (hk : m.kind = 1) (hs : s.sys.chip.standsBy = true)
    (hw : (∀ t ∈ s.sys.chip.duo.tokens, t.ord ≠ s.sys.chip.prom.seq) ∧ m.ord ≠ s.sys.chip.prom.seq)
    (hb : s.sys.chip.bodiesOf m.arg0 ≠ []) : ∃ t, chipNext s (.order m) t ∧
      t.out = s.sys.chip.out ++ [s.sys.chip.bareMsg 2 m.ord m.ord 1].map .pair ∧
      t.duo = { s.sys.chip.duo with tokens := s.sys.chip.duo.tokens ++ [PairTok.mk m.ord m.tick m.arg0 m.arg1 none] } := by
  refine ⟨s.sys.chip.tokened m none true, ?_, s.sys.chip.out_tokened m none true, rfl⟩
  have h := order_bodied hp hk hs hb
  rwa [Chip.catchUp_waits (s.sys.chip.tokened_waits none hw)] at h

theorem order_asks (hp : s.sys.chip.fromPeerChip m) (hk : m.kind = 1) (hs : s.sys.chip.standsBy = true)
    (hw : (∀ t ∈ s.sys.chip.duo.tokens, t.ord ≠ s.sys.chip.prom.seq) ∧ m.ord ≠ s.sys.chip.prom.seq)
    (hb : s.sys.chip.bodiesOf m.arg0 = []) : ∃ t, chipNext s (.order m) t ∧
      t.out = s.sys.chip.out ++ [s.sys.chip.bareMsg 2 m.ord m.ord 0, s.sys.chip.bareMsg 8 m.ord 0 0].map .pair ∧
      t.lag = true ∧
      (t.reg (pairPg + 0x7C)).toNat = min ((s.sys.chip.reg (pairPg + 0x7C)).toNat + 1) 0xffffffff ∧
      t.duo = { s.sys.chip.duo with
        tokens := s.sys.chip.duo.tokens ++ [PairTok.mk m.ord m.tick m.arg0 m.arg1 none]
        relays := s.sys.chip.duo.relays ++ [m.ord] } := by
  have h := order_eq hp hk
  have hbody : (!(s.sys.chip.bodiesOf m.arg0).isEmpty) = false := by rw [hb]; rfl
  rw [if_neg (ne_false_of_eq_true hs), hbody, if_neg Bool.false_ne_true] at h
  have hself : ((Chip.bump { s.sys.chip.tokened m none false with
      duo.relays := s.sys.chip.duo.relays ++ [m.ord] } (pairPg + 0x7C)).setLag true).selfChip = s.sys.chip.selfChip := by
    unfold Chip.selfChip Chip.setLag
    refine congrArg (Word.bits · 11 0) ?_
    rw [Chip.reg_setFlag_ne _ _ _ (by decide), Chip.reg_bump_ne _ (by decide)]
    rfl
  refine ⟨(s.sys.chip.tokened m none false).askBody m.ord, ?_, ?_, ?_, ?_, rfl⟩
  · rwa [Chip.catchUp_waits (s.sys.chip.tokened_waits none hw)] at h
  · refine Eq.trans (congrArg (fun c => (s.sys.chip.tokened m none false).out ++ [.pair ⟨8, c, m.ord % 2 ^ 32, 0, 0, 0, [], 0⟩]) hself) ?_
    rw [Chip.out_tokened, List.append_assoc]
    rfl
  · exact Chip.lag_setLag _ true
  · have hreg : ∀ c : Chip, ((c.setLag true).reg (pairPg + 0x7C)) = c.reg (pairPg + 0x7C) := fun c =>
      Chip.reg_setFlag_ne _ _ _ (by decide)
    refine Eq.trans (congrArg BitVec.toNat (hreg _)) ?_
    exact Chip.reg_bumpBy _ _ 1

theorem order_applies (hp : s.sys.chip.fromPeerChip m) (hk : m.kind = 1) (hs : s.sys.chip.standsBy = true)
    (hord : m.ord = s.sys.chip.prom.seq) (ht : s.sys.chip.duo.tokens = []) (hl : s.sys.chip.duo.live = [])
    (hb : s.sys.chip.bodiesOf m.arg0 ≠ []) :
    ∃ t, chipNext s (.order m) t ∧ Out.apply m.ord ∈ t.out ∧ t.duo.cause = none := by
  have h := order_bodied hp hk hs hb
  have htok : (s.sys.chip.tokened m none true).duo.tokens = [PairTok.mk m.ord m.tick m.arg0 m.arg1 none] := by
    refine Eq.trans (congrArg (· ++ [_]) ht) ?_
    rfl
  rw [Chip.catchUp_applies htok hord hs hl rfl hb] at h
  exact ⟨_, h, Chip.applyInput_done _ (PairTok.mk m.ord m.tick m.arg0 m.arg1 none)⟩

theorem note_eq (hp : s.sys.chip.fromPeerChip m) (hk : m.kind = 3) : chipNext s (.note m k)
    (if s.sys.chip.standsBy = false then s.sys.chip else (s.sys.chip.tokened m (some k) true).catchUp) := by
  have hexec : exec (.note m k) s = execNote m k s := (rfl)
  rw [chipNext, hexec, execNote, liftC, Chip.fromPeer_of hp hk]
  rfl

theorem note_ignored (hp : s.sys.chip.fromPeerChip m) (hk : m.kind = 3) (hs : s.sys.chip.standsBy = false) :
    exec (.note m k) s = .next s := by
  have h := note_eq (k := k) hp hk
  rw [if_pos hs] at h
  exact chipNext_same h

theorem note_waits (hp : s.sys.chip.fromPeerChip m) (hk : m.kind = 3) (hs : s.sys.chip.standsBy = true)
    (hw : (∀ t ∈ s.sys.chip.duo.tokens, t.ord ≠ s.sys.chip.prom.seq) ∧ m.ord ≠ s.sys.chip.prom.seq) :
    ∃ t, chipNext s (.note m k) t ∧ t.out = s.sys.chip.out ++ [s.sys.chip.bareMsg 2 m.ord m.ord 1].map .pair ∧
      t.duo = { s.sys.chip.duo with
        tokens := s.sys.chip.duo.tokens ++ [PairTok.mk m.ord m.tick m.arg0 m.arg1 (some k)] } := by
  have h := note_eq (k := k) hp hk
  rw [if_neg (ne_false_of_eq_true hs), Chip.catchUp_waits (s.sys.chip.tokened_waits (some k) hw)] at h
  exact ⟨_, h, s.sys.chip.out_tokened m (some k) true, rfl⟩

/-- R413: the note at its turn. -/
theorem note_applies (hp : s.sys.chip.fromPeerChip m) (hk : m.kind = 3) (hs : s.sys.chip.standsBy = true)
    (hord : m.ord = s.sys.chip.prom.seq) (ht : s.sys.chip.duo.tokens = []) (hl : s.sys.chip.duo.live = []) :
    chipNext s (.note m k) (Chip.applyNote { s.sys.chip.tokened m (some k) true with
      duo.tokens := (s.sys.chip.tokened m (some k) true).duo.tokens.erase (.mk m.ord m.tick m.arg0 m.arg1 (some k)) }
      (.mk m.ord m.tick m.arg0 m.arg1 (some k)) k) := by
  have h := note_eq (k := k) hp hk
  have htok : (s.sys.chip.tokened m (some k) true).duo.tokens = [PairTok.mk m.ord m.tick m.arg0 m.arg1 (some k)] := by
    refine Eq.trans (congrArg (· ++ [_]) ht) ?_
    rfl
  rwa [if_neg (ne_false_of_eq_true hs), Chip.catchUp_notes htok hord hs hl rfl] at h

theorem Chip.applyNote_status (s : Chip) (t : PairTok) (id : Nat) (st : Status) :
    (s.applyNote t (.status id st)).out = s.out ∧ (s.applyNote t (.status id st)).prom.seq = max s.prom.seq (t.ord + 1) ∧
      (s.applyNote t (.status id st)).prom.reqs = updWhere s.prom.reqs (fun r => r.id == id)
        (fun r => { r with fixed := some (s.now, st) }) := ⟨rfl, rfl, rfl⟩

theorem note_status (hp : s.sys.chip.fromPeerChip m) (hk : m.kind = 3) (hs : s.sys.chip.standsBy = true)
    (hord : m.ord = s.sys.chip.prom.seq) (ht : s.sys.chip.duo.tokens = []) (hl : s.sys.chip.duo.live = [])
    (id : Nat) (st : Status) : ∃ t, chipNext s (.note m (.status id st)) t ∧
      t.out = s.sys.chip.out ++ [s.sys.chip.bareMsg 2 m.ord m.ord 1].map .pair ∧ t.prom.seq = m.ord + 1 ∧
      t.prom.reqs = updWhere s.sys.chip.prom.reqs (fun r => r.id == id)
        (fun r => { r with fixed := some (s.sys.chip.now, st) }) := by
  refine ⟨_, note_applies hp hk hs hord ht hl, ?_⟩
  obtain ⟨hout, hseq, hreqs⟩ := Chip.applyNote_status { s.sys.chip.tokened m (some (.status id st)) true with
      duo.tokens := (s.sys.chip.tokened m (some (.status id st)) true).duo.tokens.erase
        (.mk m.ord m.tick m.arg0 m.arg1 (some (.status id st))) } (.mk m.ord m.tick m.arg0 m.arg1 (some (.status id st))) id st
  refine ⟨hout.trans (s.sys.chip.out_tokened m _ true), hseq.trans ?_, hreqs⟩
  exact Nat.max_eq_right (by rw [hord]; exact Nat.le_succ _)

end

/-! ## OUT (R419) -/

/-- R419: a chip that goes OUT shows it, lags no more and asserts its alert. -/
def Chip.showsOut (s : Chip) : Chip := ((s.setRole 5).setLag false).alertOut

theorem Chip.goOut_eq (s : Chip) : ∃ d, s.goOut = Chip.showsOut { s with duo := d } := ⟨_, rfl⟩

theorem Chip.pairRole_showsOut (s : Chip) : s.showsOut.pairRole = 5 := by
  have hrole : (((s.setFld (pairPg + 0x48) 2 0 5).setFlag (pairPg + 0x48) 3 false).setFlag (pairPg + 0x48) 14 true).pairRole = 5 := by
    unfold Chip.pairRole
    rw [Chip.fld_setFlag_apart _ _ _ (by decide) (by decide), Chip.fld_setFlag_apart _ _ _ (by decide) (by decide),
      Chip.fld_setFld _ _ _ (by decide)]
    rfl
  exact hrole

theorem Chip.reg_showsOut (s : Chip) {a : Nat} (h : a ≠ pairPg + 0x48) : s.showsOut.reg a = s.reg a := by
  have hreg : (((s.setFld (pairPg + 0x48) 2 0 5).setFlag (pairPg + 0x48) 3 false).setFlag (pairPg + 0x48) 14 true).reg a =
      s.reg a := by
    rw [Chip.reg_setFlag_ne _ _ _ (Ne.symm h), Chip.reg_setFlag_ne _ _ _ (Ne.symm h), Chip.reg_setFld_ne _ _ _ _ (Ne.symm h)]
  exact hreg

theorem Chip.pairRole_goOut (s : Chip) : s.goOut.pairRole = 5 := by
  obtain ⟨d, h⟩ := s.goOut_eq
  rw [h]
  exact Chip.pairRole_showsOut _

theorem Chip.reg_goOut (s : Chip) {a : Nat} (h : a ≠ pairPg + 0x48) : s.goOut.reg a = s.reg a := by
  obtain ⟨d, he⟩ := s.goOut_eq
  rw [he]
  exact Chip.reg_showsOut _ h

/-- R423: a standby that has diverged is OUT and shows the epoch. -/
theorem Chip.diverge_facts (s : Chip) (n : Nat) : (s.diverge n).pairRole = 5 ∧
    (s.diverge n).pair (pairPg + 0x64) = n % 2 ^ 64 := by
  refine ⟨Chip.pairRole_goOut _, Eq.trans ?_ (s.pair_setPair (pairPg + 0x64) n)⟩
  have hreg : ∀ k, k = 0x64 ∨ k = 0x68 → (s.diverge n).reg (pairPg + k) = (s.setPair (pairPg + 0x64) n).reg (pairPg + k) := by
    rintro k (rfl | rfl)
    · exact (Chip.reg_goOut _ (by decide)).trans (Chip.notice_reg _ _ _ (pairPg_below (by decide) (by decide)) (by decide) (by decide))
    · exact (Chip.reg_goOut _ (by decide)).trans (Chip.notice_reg _ _ _ (pairPg_below (by decide) (by decide)) (by decide) (by decide))
  unfold Chip.pair
  rw [hreg 0x64 (.inl rfl)]
  rw [show pairPg + 0x64 + 4 = pairPg + 0x68 from rfl, hreg 0x68 (.inr rfl)]

/-! ## At its place and at its end (R413 to R417) -/

section
variable {s : State} {m : PairMsg} {k : NoteKind} {body : PairInput} {n : Nat}

theorem note_fence (hp : s.sys.chip.fromPeerChip m) (hk : m.kind = 3) (hs : s.sys.chip.standsBy = true)
    (hord : m.ord = s.sys.chip.prom.seq) (ht : s.sys.chip.duo.tokens = []) (hl : s.sys.chip.duo.live = []) (u : UnitId) :
    ∃ t, chipNext s (.note m (.fence u)) t ∧ t.pairRole = 5 :=
  ⟨_, note_applies hp hk hs hord ht hl, Chip.pairRole_goOut _⟩

/-- R416: nothing that waits at the Ethernet port, and no response that has left. -/
theorem Chip.tryEth_idle {s : Chip} (hh : s.held = []) (hr : ∀ r ∈ s.prom.reqs, r.sent = true → s.respLeft r = true) :
    s.tryEth = s := by
  have hflush : s.flushEth = s := by
    unfold Chip.flushEth Chip.ethWaits
    rw [hh]
    rfl
  have hreap : s.prom.reqs.filter (fun r => r.sent && !s.respLeft r) = [] := by
    refine List.filter_eq_nil_iff.2 fun r hm h => ?_
    rw [Bool.and_eq_true, Bool.not_eq_true'] at h
    exact ne_false_of_eq_true (hr r hm h.1) h.2
  unfold Chip.tryEth
  rw [hflush, Chip.reapReqs, hreap]

/-- R416: what an acknowledgement of ORD n leaves of the order log. -/
def Chip.ackFreed (s : Chip) (n : Nat) : Chip := { s with
  duo.acked := s.duo.acked ++ [n]
  duo.log := s.duo.log.filter fun b => !((s.duo.ids.filter fun e => e.2 == n).map (·.1)).contains b.arg0 }

theorem Chip.mem_ackFreed {s : Chip} {n : Nat} {b : PairIn} (h : b ∈ s.duo.log) :
    b ∈ (s.ackFreed n).duo.log ↔ (b.arg0, n) ∉ s.duo.ids := by
  unfold Chip.ackFreed
  rw [List.mem_filter, and_iff_right h, Bool.not_eq_true', ← Bool.not_eq_true, List.contains_iff_mem, List.mem_map, not_iff_not]
  refine ⟨fun ⟨e, he, hb⟩ => ?_, fun hm => ⟨(b.arg0, n), List.mem_filter.2 ⟨hm, beq_self_eq_true n⟩, rfl⟩⟩
  obtain ⟨hm, hn⟩ := List.mem_filter.1 he
  rwa [← hb, ← beq_iff_eq.1 hn]

theorem orderAck_frees (hp : s.sys.chip.fromPeerChip m) (hk : m.kind = 2)
    (hrole : s.sys.chip.pairRole = 1 ∨ s.sys.chip.pairRole = 3) (ha : m.arg1 % 2 = 1) (hh : s.sys.chip.held = [])
    (hr : ∀ r ∈ s.sys.chip.prom.reqs, r.sent = true → s.sys.chip.respLeft r = true) :
    ∃ t, chipNext s (.orderAck m) t ∧ t.duo.acked = s.sys.chip.duo.acked ++ [m.ord] ∧ t.lag = false ∧
      ∀ b ∈ s.sys.chip.duo.log, b ∈ t.duo.log ↔ (b.arg0, m.ord) ∉ s.sys.chip.duo.ids := by
  have hexec : exec (.orderAck m) s = execOrderAck m s := (rfl)
  have htry : ((s.sys.chip.ackFreed m.ord).setLag false).tryEth = (s.sys.chip.ackFreed m.ord).setLag false :=
    Chip.tryEth_idle hh hr
  refine ⟨(s.sys.chip.ackFreed m.ord).setLag false, ?_, rfl, Chip.lag_setLag _ false, fun b hb => Chip.mem_ackFreed hb⟩
  rw [chipNext, hexec, execOrderAck, liftC, Chip.fromPeer_of hp hk]
  dsimp only
  rw [if_neg (by omega), if_neg (by omega)]
  exact congrArg (fun c => Host.Outcome.next { s with sys := { s.sys with chip := c } }) htry

theorem orderAck_ignored (hp : s.sys.chip.fromPeerChip m) (hk : m.kind = 2)
    (h : (s.sys.chip.pairRole ≠ 1 ∧ s.sys.chip.pairRole ≠ 3) ∨ m.arg1 % 2 = 0) : exec (.orderAck m) s = .next s := by
  have hexec : exec (.orderAck m) s = execOrderAck m s := (rfl)
  rw [hexec, execOrderAck, liftC, Chip.fromPeer_of hp hk]
  dsimp only
  by_cases hr : s.sys.chip.pairRole ≠ 1 ∧ s.sys.chip.pairRole ≠ 3
  · rw [if_pos hr]
  · rw [if_neg hr, if_pos (h.resolve_left hr)]

/-! ## RELAY and bodies without a token (R415) -/

theorem relay_sends {b : PairIn} (hp : s.sys.chip.fromPeerChip m) (hk : m.kind = 8)
    (hb : s.sys.chip.duo.log.find? (fun b => ((s.sys.chip.duo.ids.filter fun e => e.2 == m.ord).map (·.1)).contains b.arg0) =
      some b) : chipNext s (.relay m none) (s.sys.chip.emit (.pair
        ⟨8, s.sys.chip.selfChip, m.ord % 2 ^ 32, b.tick, b.arg0, 0, inputBytes b.body, 0⟩)) := by
  have hexec : exec (.relay m none) s = execRelay m none s := (rfl)
  rw [chipNext, hexec, execRelay, liftC, Chip.fromPeer_of hp hk]
  dsimp only
  rw [hb]
  rfl

theorem relay_ignored (hp : s.sys.chip.fromPeerChip m) (hk : m.kind = 8)
    (h : s.sys.chip.standsBy = false ∨ m.ord ∉ s.sys.chip.duo.relays) : exec (.relay m (some body)) s = .next s := by
  have hexec : exec (.relay m (some body)) s = execRelay m (some body) s := (rfl)
  rw [hexec, execRelay, liftC, Chip.fromPeer_of hp hk]
  dsimp only
  rw [if_pos (h.imp_right fun hn => by rwa [← Bool.not_eq_true, List.contains_iff_mem])]

/-- R415: a body that was asked for has come: it is held under the identity id. -/
def Chip.bodyCame (s : Chip) (n id : Nat) (body : PairInput) : Chip := { s with
  duo.relays := s.duo.relays.filter fun k => k != n
  duo.inbuf := s.duo.inbuf ++ [PairIn.mk id s.now body] }

theorem relay_takes (hp : s.sys.chip.fromPeerChip m) (hk : m.kind = 8) (hs : s.sys.chip.standsBy = true)
    (hr : m.ord ∈ s.sys.chip.duo.relays) (hw : ∀ t ∈ s.sys.chip.duo.tokens, t.ord ≠ s.sys.chip.prom.seq) :
    ∃ t, chipNext s (.relay m (some body)) t ∧ t.out = s.sys.chip.out ++ [s.sys.chip.bareMsg 2 m.ord m.ord 1].map .pair ∧
      m.ord ∉ t.duo.relays ∧ ∃ id, t.duo.inbuf = s.sys.chip.duo.inbuf ++ [⟨id, s.sys.chip.now, body⟩] ∧
        ((∀ x ∈ s.sys.chip.duo.tokens, x.ord ≠ m.ord) → id = inputId body) ∧
        (∀ x, s.sys.chip.duo.tokens.find? (fun t => t.ord == m.ord) = some x → id = x.arg0) := by
  have hexec : exec (.relay m (some body)) s = execRelay m (some body) s := (rfl)
  generalize hid : (s.sys.chip.duo.tokens.find? fun t => t.ord == m.ord).elim (inputId body) (·.arg0) = id at *
  generalize hl : (!(s.sys.chip.duo.relays.filter fun k => k != m.ord).isEmpty) = lag
  have hcatch : ((((s.sys.chip.bodyCame m.ord id body).setLag lag).ackTok m.ord true).catchUp) =
      ((s.sys.chip.bodyCame m.ord id body).setLag lag).ackTok m.ord true := Chip.catchUp_waits hw
  have hself : ((s.sys.chip.bodyCame m.ord id body).setLag lag).selfChip = s.sys.chip.selfChip := by
    unfold Chip.selfChip Chip.setLag
    refine congrArg (Word.bits · 11 0) ?_
    rw [Chip.reg_setFlag_ne _ _ _ (by decide)]
    rfl
  refine ⟨((s.sys.chip.bodyCame m.ord id body).setLag lag).ackTok m.ord true, ?_, ?_, fun h => ?_, id, rfl, fun h => ?_, fun x h => ?_⟩
  · rw [chipNext, hexec, execRelay, liftC, Chip.fromPeer_of hp hk]
    dsimp only
    rw [if_neg (by rw [hs, List.contains_iff_mem.2 hr]; decide), hid, hl]
    exact congrArg (fun c => Host.Outcome.next { s with sys := { s.sys with chip := c } }) hcatch
  · exact congrArg (fun c => s.sys.chip.out ++ [.pair ⟨2, c, m.ord % 2 ^ 32, 0, m.ord, 1, [], 0⟩]) hself
  · exact absurd (List.mem_filter.1 h).2 (by rw [bne_self_eq_false]; decide)
  · rw [← hid, List.find?_eq_none.2 fun x hx hb => h x hx (beq_iff_eq.1 hb)]
    rfl
  · rw [← hid, h]
    rfl

theorem orphan_drops {b : PairIn} (hb : s.sys.chip.duo.inbuf[n]? = some b) (hs : s.sys.chip.standsBy = true)
    (hn : (s.sys.chip.duo.tokens.any fun t => t.what.isNone && t.arg0 == b.arg0) = false)
    (ht : b.tick + 1000 * max (s.sys.chip.fld (pairPg + 0x6C) 31 16) 1 ≤ s.sys.chip.now) :
    ∃ t, chipNext s (.orphanTimeout n) t ∧ t.duo = { s.sys.chip.duo with inbuf := s.sys.chip.duo.inbuf.eraseIdx n } ∧
      (t.reg (pairPg + 0x84)).toNat = min ((s.sys.chip.reg (pairPg + 0x84)).toNat + 1) 0xffffffff := by
  have hexec : exec (.orphanTimeout n) s = execOrphanTimeout n s := (rfl)
  refine ⟨Chip.bump { s.sys.chip with duo.inbuf := s.sys.chip.duo.inbuf.eraseIdx n } (pairPg + 0x84), ?_, rfl,
    Chip.reg_bumpBy _ _ 1⟩
  rw [chipNext, hexec, execOrphanTimeout, liftC]
  dsimp only
  rw [hb]
  dsimp only
  rw [if_neg]
  rintro (h | h | h)
  · exact ne_false_of_eq_true hs h
  · exact ne_true_of_eq_false hn h
  · omega

theorem orphan_waits {b : PairIn} (hb : s.sys.chip.duo.inbuf[n]? = some b)
    (ht : s.sys.chip.now < b.tick + 1000 * max (s.sys.chip.fld (pairPg + 0x6C) 31 16) 1) :
    exec (.orphanTimeout n) s = .next s := by
  have hexec : exec (.orphanTimeout n) s = execOrphanTimeout n s := (rfl)
  rw [hexec, execOrphanTimeout, liftC]
  dsimp only
  rw [hb]
  dsimp only
  rw [if_pos (.inr (.inr ht))]

end

end Sys2Proof.Machine

/-! PROOF of O56, its second part (R417, R422, R423): repairs, due epochs, digests and their comparison. -/

namespace Sys2Proof.Machine

-- One after the other: side by side the proofs ask for more memory than the check grants.
set_option Elab.async false

open Laws

/-! ## Repairs (R172, R417) -/

theorem parity_le (n v : Nat) : parity n v ≤ 1 := by
  cases n with
  | zero => exact Nat.zero_le 1
  | succ n => exact Nat.le_of_lt_succ (Nat.mod_lt _ (by decide))

/-- R160: a chip has 256 controllers. -/
theorem Chip.ctrlOf_lt (s : Chip) (b : Nat) : s.ctrlOf b < 256 := by
  have h : ∀ i, s.hashBit (memPg + 0x44 + 4 * i) b ≤ 1 := fun i => parity_le 28 _
  have h0 := h 0
  have h1 := h 1
  have h2 := h 2
  have h3 := h 3
  have h4 := h 4
  have h5 := h 5
  have h6 := h 6
  have h7 := h 7
  have hsum : s.ctrlOf b = 0 + 2 ^ 0 * s.hashBit (memPg + 0x44 + 4 * 0) b + 2 ^ 1 * s.hashBit (memPg + 0x44 + 4 * 1) b +
      2 ^ 2 * s.hashBit (memPg + 0x44 + 4 * 2) b + 2 ^ 3 * s.hashBit (memPg + 0x44 + 4 * 3) b +
      2 ^ 4 * s.hashBit (memPg + 0x44 + 4 * 4) b + 2 ^ 5 * s.hashBit (memPg + 0x44 + 4 * 5) b +
      2 ^ 6 * s.hashBit (memPg + 0x44 + 4 * 6) b + 2 ^ 7 * s.hashBit (memPg + 0x44 + 4 * 7) b := rfl
  omega

/-- The pair's registers are no controller's. -/
theorem pairPg_quiet {n k : Nat} (hn : n < 256) (h : k % 16 ≠ 12) (h' : k % 0x4000 ≠ 0x58) : mcQuiet n (pairPg + k) := by
  refine ⟨pairPg_below h h', .inr ?_, .inr ?_⟩
  · unfold mcPg pairPg
    omega
  · unfold fqPg pairPg
    omega

/-- R156: a whole block is written where no injection is armed. -/
theorem Sys.writeBlk_plain {y : Sys} {n b : Nat} (h : y.chip.isDefect n b = false) (hi : (y.chip.mc n).inject = 0)
    (d : List Byte) : (y.writeBlk n b 0 d).mem.pool = KMap.store y.mem.pool (2048 * b) d ∧
      (y.writeBlk n b 0 d).chip.regs = y.chip.regs := by
  unfold Sys.writeBlk
  rw [if_neg (ne_true_of_eq_false h)]
  dsimp only
  rw [if_neg (by rw [hi]; decide)]
  exact ⟨rfl, rfl⟩

section
variable {s : State} {m : PairMsg} {n : Nat}

/-- R417: the block read for the peer is sent; a chip that cannot read it does not answer. -/
def Sys.repairSent (b : Nat) : Option (List Byte) × Sys → Sys
  | (none, z) => z
  | (some d, z) => onChip (fun c => c.duoSend 9 0 0 b 0 d) z

theorem repair_eq (hp : s.sys.chip.fromPeerChip m) (hk : m.kind = 9) (hb : m.arg0 < s.sys.chip.dataBlocks) :
    exec (.repair m) s = .next { s with sys := (
      let c := s.sys.chip.ctrlOf m.arg0
      if m.body.isEmpty then
        Sys.repairSent m.arg0 ((onChip (fun t => t.activateBlk c m.arg0 0) s.sys).readBlk c m.arg0 3 64)
      else if m.body.length = 2048 ∧ (s.sys.chip.leads ∨ s.sys.chip.standsBy) then
        onChip (fun t => (t.activateBlk c m.arg0 0).bump (pairPg + 0x80)) (s.sys.writeBlk c m.arg0 0 m.body)
      else s.sys) } := by
  have hexec : exec (.repair m) s = execRepair m s := (rfl)
  rw [hexec, execRepair, liftS]
  dsimp only
  refine congrArg (fun y => Host.Outcome.next { s with sys := y }) ?_
  refine (if_neg (ne_false_of_eq_true (Chip.peerSays_of hp hk))).trans ((if_neg (Nat.not_le.2 hb)).trans ?_)
  by_cases he : m.body.isEmpty = true
  · rw [if_pos he, if_pos he]
    cases Sys.readBlk _ _ _ _ _ with
    | mk o z => cases o <;> rfl
  · rw [if_neg he, if_neg he]

theorem repair_answers (hp : s.sys.chip.fromPeerChip m) (hk : m.kind = 9) (hb : m.arg0 < s.sys.chip.dataBlocks)
    {d : List Byte} {z : Sys} (he : m.body = [])
    (hr : (onChip (fun c => c.activateBlk (s.sys.chip.ctrlOf m.arg0) m.arg0 0) s.sys).readBlk
      (s.sys.chip.ctrlOf m.arg0) m.arg0 3 64 = (some d, z)) :
    exec (.repair m) s = .next { s with sys := onChip (fun c => c.duoSend 9 0 0 m.arg0 0 d) z } := by
  refine (repair_eq hp hk hb).trans ?_
  dsimp only
  rw [if_pos (by rw [he]; rfl), hr, Sys.repairSent]

theorem repair_writes (hp : s.sys.chip.fromPeerChip m) (hk : m.kind = 9) (hb : m.arg0 < s.sys.chip.dataBlocks)
    (hl : m.body.length = 2048) (hrole : s.sys.chip.leads = true ∨ s.sys.chip.standsBy = true)
    (hd : s.sys.chip.isDefect (s.sys.chip.ctrlOf m.arg0) m.arg0 = false)
    (hi : (s.sys.chip.mc (s.sys.chip.ctrlOf m.arg0)).inject = 0) :
    ∃ z, exec (.repair m) s = .next { s with sys := z } ∧ KMap.bytes z.mem.pool (2048 * m.arg0) 2048 = m.body ∧
      (z.chip.reg (pairPg + 0x80)).toNat = min ((s.sys.chip.reg (pairPg + 0x80)).toNat + 1) 0xffffffff := by
  have h := repair_eq hp hk hb
  have hne : ¬ m.body.isEmpty = true := fun he => by
    rw [List.isEmpty_iff.1 he] at hl
    exact absurd hl (by decide)
  dsimp only at h
  rw [if_neg hne, if_pos ⟨hl, hrole⟩] at h
  obtain ⟨hpool, hregs⟩ := Sys.writeBlk_plain hd hi m.body
  generalize s.sys.writeBlk (s.sys.chip.ctrlOf m.arg0) m.arg0 0 m.body = w at *
  have hn := s.sys.chip.ctrlOf_lt m.arg0
  generalize s.sys.chip.ctrlOf m.arg0 = c at *
  refine ⟨_, h, ?_, ?_⟩
  · refine Eq.trans (congrArg (KMap.bytes · (2048 * m.arg0) 2048) hpool) ?_
    exact bytes_store_of_length hl
  · have hreg : (w.chip.activateBlk c m.arg0 0).reg (pairPg + 0x80) = s.sys.chip.reg (pairPg + 0x80) :=
      ((w.chip.mcActs_activateBlk c m.arg0 0).regs _ (pairPg_quiet hn (by decide) (by decide))).trans
        (Chip.reg_of_regs hregs _)
    refine Eq.trans (Chip.reg_bumpBy (w.chip.activateBlk c m.arg0 0) (pairPg + 0x80) 1) ?_
    rw [hreg]

/-! ## Due epochs and digests (R422, R423) -/

theorem out_due (hp : s.sys.chip.fromPeerChip m) (hk : m.kind = 6) (hs : s.sys.chip.standsBy = true)
    (h : s.sys.chip.duo.outs.any (fun o => o.ord == m.ord && o.idx == m.arg0) = true) : chipNext s (.out m) { s.sys.chip with
      duo.outs := updWhere s.sys.chip.duo.outs (fun o => o.ord == m.ord && o.idx == m.arg0)
        fun o => { o with due := some m.arg1 } } := by
  have hexec : exec (.out m) s = execOut m s := (rfl)
  rw [chipNext, hexec, execOut, liftC, Chip.fromPeer_of hp hk]
  dsimp only
  rw [if_neg (ne_false_of_eq_true hs), if_pos h]

theorem out_keeps (hp : s.sys.chip.fromPeerChip m) (hk : m.kind = 6) (hs : s.sys.chip.standsBy = true)
    (h : s.sys.chip.duo.outs.any (fun o => o.ord == m.ord && o.idx == m.arg0) = false) : chipNext s (.out m) { s.sys.chip with
      duo.dues := s.sys.chip.duo.dues ++ [(m.ord, m.arg0, m.arg1)] } := by
  have hexec : exec (.out m) s = execOut m s := (rfl)
  rw [chipNext, hexec, execOut, liftC, Chip.fromPeer_of hp hk]
  dsimp only
  rw [if_neg (ne_false_of_eq_true hs), if_neg (ne_true_of_eq_false h)]

theorem digest_keeps (hp : s.sys.chip.fromPeerChip m) (hk : m.kind = 7) (hs : s.sys.chip.standsBy = true) :
    chipNext s (.digest m) { s.sys.chip with
      duo.digests := (s.sys.chip.duo.digests.filter fun e => e.1 != m.arg0) ++ [(m.arg0, m.arg1)] } := by
  have hexec : exec (.digest m) s = execDigest m s := (rfl)
  rw [chipNext, hexec, execDigest, liftC, Chip.fromPeer_of hp hk]
  dsimp only
  rw [if_pos hs]

/-- R422: what is done at the end of epoch m. -/
def Chip.epochEnds (s : Chip) (m : Nat) : Chip :=
  let k := max (s.fld (pairPg + 0x70) 9 0) 2
  let s := { s with duo.epoch := some m }
  match s.pairRole with
  | 1 => (s.duoSend 7 0 0 m (s.digestOf m) []).dropOuts m
  | 2 => if m < k ∨ m - k < s.duo.cmpFrom then s else s.compareEpoch (m - k)
  | _ => s

/-- R422: the last epoch that has ended was looked at. -/
def Chip.epochSeen (s : Chip) : Bool :=
  match s.duo.epoch with
  | some e => decide (epochOf s.now - 1 ≤ e)
  | none => false

theorem epochCompare_eq (s : State) : chipNext s .epochCompare
    (if epochOf s.sys.chip.now = 0 ∨ s.sys.chip.epochSeen = true then s.sys.chip
      else s.sys.chip.epochEnds (epochOf s.sys.chip.now - 1)) := (rfl)

theorem epoch_seen {l : Nat} (hl : s.sys.chip.duo.epoch = some l) (h : epochOf s.sys.chip.now - 1 ≤ l) :
    exec .epochCompare s = .next s := by
  have hx := epochCompare_eq s
  have hseen : s.sys.chip.epochSeen = true := by
    unfold Chip.epochSeen
    rw [hl]
    exact decide_eq_true h
  rw [if_pos (.inr hseen)] at hx
  exact chipNext_same hx

theorem epoch_ends (h0 : 0 < epochOf s.sys.chip.now)
    (hl : ∀ l, s.sys.chip.duo.epoch = some l → l < epochOf s.sys.chip.now - 1) :
    chipNext s .epochCompare (s.sys.chip.epochEnds (epochOf s.sys.chip.now - 1)) := by
  have hx := epochCompare_eq s
  have hseen : s.sys.chip.epochSeen = false := by
    unfold Chip.epochSeen
    cases he : s.sys.chip.duo.epoch with
    | none => rfl
    | some l => exact decide_eq_false (Nat.not_le.2 (hl l he))
  rwa [if_neg (fun h => h.elim (by omega) (ne_true_of_eq_false hseen))] at hx

theorem Chip.epochEnds_holder {c : Chip} (m : Nat) (hr : c.pairRole = 1) :
    (c.epochEnds m).out = c.out ++ [c.bareMsg 7 0 m (c.digestOf m)].map .pair ∧ (c.epochEnds m).duo.epoch = some m := by
  have hrole : ({ c with duo.epoch := some m } : Chip).pairRole = 1 := hr
  unfold Chip.epochEnds
  dsimp only
  rw [hrole]
  exact ⟨rfl, rfl⟩

theorem Chip.epochEnds_standby {c : Chip} {m : Nat} (hr : c.pairRole = 2) (hq : max (c.fld (pairPg + 0x70) 9 0) 2 ≤ m)
    (hc : c.duo.cmpFrom ≤ m - max (c.fld (pairPg + 0x70) 9 0) 2) :
    c.epochEnds m = Chip.compareEpoch { c with duo.epoch := some m } (m - max (c.fld (pairPg + 0x70) 9 0) 2) := by
  have hrole : ({ c with duo.epoch := some m } : Chip).pairRole = 2 := hr
  unfold Chip.epochEnds
  dsimp only
  rw [hrole]
  exact if_neg (by omega)

theorem Chip.compareEpoch_agrees {c : Chip} {n : Nat} (h : c.epochAgrees n = true) : (c.compareEpoch n).pairRole = c.pairRole ∧
    (c.compareEpoch n).reg (pairPg + 0x60) = BitVec.ofNat 32 n := by
  unfold Chip.compareEpoch
  rw [if_pos h]
  have hrole : (c.setReg (pairPg + 0x60) (BitVec.ofNat 32 n)).pairRole = c.pairRole := Chip.fld_setReg_ne _ _ _ _ (by decide)
  exact ⟨hrole, Chip.reg_setReg ..⟩

theorem Chip.compareEpoch_differs {c : Chip} {n : Nat} (h : c.epochAgrees n = false) : (c.compareEpoch n).pairRole = 5 ∧
    (c.compareEpoch n).pair (pairPg + 0x64) = n % 2 ^ 64 := by
  unfold Chip.compareEpoch
  rw [if_neg (ne_true_of_eq_false h)]
  exact c.diverge_facts n

theorem epoch_compares (h0 : 0 < epochOf s.sys.chip.now)
    (hl : ∀ l, s.sys.chip.duo.epoch = some l → l < epochOf s.sys.chip.now - 1) (hr : s.sys.chip.pairRole = 2)
    {e q : Nat} (he : e = epochOf s.sys.chip.now - 1) (hq : q = max (s.sys.chip.fld (pairPg + 0x70) 9 0) 2) (hqe : q ≤ e)
    (hc : s.sys.chip.duo.cmpFrom ≤ e - q) :
    (s.sys.chip.epochAgrees (e - q) = true → ∃ t, chipNext s .epochCompare t ∧ t.pairRole = 2 ∧
        t.reg (pairPg + 0x60) = BitVec.ofNat 32 (e - q)) ∧
      (s.sys.chip.epochAgrees (e - q) = false → ∃ t, chipNext s .epochCompare t ∧ t.pairRole = 5 ∧
        t.pair (pairPg + 0x64) = (e - q) % 2 ^ 64) := by
  subst he hq
  have hx := epoch_ends h0 hl
  rw [Chip.epochEnds_standby hr hqe hc] at hx
  refine ⟨fun ha => ⟨_, hx, ?_⟩, fun ha => ⟨_, hx, Chip.compareEpoch_differs ha⟩⟩
  obtain ⟨hrole, hreg⟩ := Chip.compareEpoch_agrees
    (c := { s.sys.chip with duo.epoch := some (epochOf s.sys.chip.now - 1) }) ha
  exact ⟨hrole.trans hr, hreg⟩

end

/-! ## The statement -/

/-- Which instruction acts on which KIND (R414). -/
theorem pairMsgs_stray (s : State) (m : PairMsg) (k : NoteKind) (body : PairInput) :
    ∀ i ∈ [(1, Instr.order m), (2, .orderAck m), (3, .note m k), (8, .relay m none), (8, .relay m (some body)),
      (9, .repair m), (6, .out m), (7, .digest m)], strays s m i.1 i.2 := by
  have hrepair : strays s m 9 (.repair m) := fun h => by
    have hexec : exec (.repair m) s = execRepair m s := (rfl)
    rw [chipNext, hexec, execRepair, liftS]
    dsimp only
    rw [if_pos h]
    rfl
  simp only [List.forall_mem_cons]
  exact ⟨strays_of_fromPeer rfl, strays_of_fromPeer rfl, strays_of_fromPeer rfl, strays_of_fromPeer rfl,
    strays_of_fromPeer rfl, hrepair, strays_of_fromPeer rfl, strays_of_fromPeer rfl, fun _ h => absurd h List.not_mem_nil⟩

/-- Settles O56: each message by whether it is the peer's and what stands at its turn, each epoch by the role. -/
theorem pairMessages : Obligations.PairMessages := by
  intro s m k body n y gives mir peer tells msg tok waits msgs
  refine ⟨fun i hi => stray_outcomes (pairMsgs_stray s m k body i hi), fun hp hk => ⟨order_ignored hp hk, fun hs hw =>
      ⟨order_waits hp hk hs hw, order_asks hp hk hs hw⟩⟩, order_applies, fun hp hk => ⟨note_ignored hp hk, fun hs =>
      ⟨note_waits hp hk hs, fun ho ht hl => ⟨note_status hp hk hs ho ht hl, note_fence hp hk hs ho ht hl⟩⟩⟩,
    fun hp hk => ⟨orderAck_frees hp hk, orderAck_ignored hp hk⟩,
    fun hp hk => ⟨fun b hb => relay_sends hp hk hb, relay_takes hp hk, relay_ignored hp hk⟩,
    fun b hb hs hn => ⟨orphan_drops hb hs hn, orphan_waits hb⟩,
    fun hp hk hb => ⟨fun d z => repair_answers hp hk hb, repair_writes hp hk hb⟩,
    fun hp hk hs => ⟨out_due hp hk hs, out_keeps hp hk hs⟩, digest_keeps, fun l => epoch_seen, fun h0 hl => ⟨fun hr => ?_, fun hr hq hc =>
      epoch_compares h0 hl hr rfl rfl hq hc⟩⟩
  obtain ⟨hout, hepoch⟩ := Chip.epochEnds_holder (epochOf s.sys.chip.now - 1) hr
  exact ⟨_, epoch_ends h0 hl, hout, hepoch⟩

end Sys2Proof.Machine

/-! PROOF of ¬ O57. The statement speaks of every state, also of one whose map of links is in no canonical form and lists a
link twice. PAIR_CMD_FORCE (R428) ends the hold of such a link and with it the response that waits at its other entry. -/

namespace Sys2Proof.Machine

-- One after the other: side by side the proofs ask for more memory than the check grants.
set_option Elab.async false

open Laws

/-! ## What a notice leaves (R369, R508) -/

/-- t is s but for registers and event records. -/
structure Chip.notes (s t : Chip) : Prop where
  rest : t = { s with
    regs := t.regs
    parts := { s.parts with pend := t.parts.pend, sealed := t.parts.sealed } }

theorem Chip.notes.refl (s : Chip) : s.notes s := ⟨rfl⟩

theorem Chip.notes.trans {s t u : Chip} (h : s.notes t) (h' : t.notes u) : s.notes u := by
  refine ⟨?_⟩
  rw [h'.rest, h.rest]

theorem Chip.notes.ite {s t u : Chip} {p : Prop} [Decidable p] (h : s.notes t) (h' : s.notes u) :
    s.notes (if p then t else u) := by
  split <;> assumption

theorem Chip.notes_setReg (s : Chip) (a : Nat) (w : Word) : s.notes (s.setReg a w) := ⟨rfl⟩

theorem Chip.notes_setFlag (s : Chip) (a n : Nat) (b : Bool) : s.notes (s.setFlag a n b) := s.notes_setReg _ _

theorem Chip.notes_bump (s : Chip) (a : Nat) : s.notes (s.bump a) := s.notes_setReg _ _

theorem Chip.notes_sealVec (s : Chip) (p v : Nat) : s.notes (s.sealVec p v) := by
  unfold Chip.sealVec
  split
  · exact .refl s
  · dsimp only
    refine Chip.notes.trans ?_ ((Chip.notes_setReg _ _ _).trans (Chip.notes_bump _ _))
    exact ⟨rfl⟩

theorem Chip.notes_raise (s : Chip) (p v b i c d e : Nat) : s.notes (s.raise p v b i c d e) := by
  have helapsed : s.notes (s.sealElapsed p v) := by
    unfold Chip.sealElapsed
    split
    · exact .refl s
    · exact .ite (s.notes_sealVec p v) (.refl s)
  have hdue : ∀ s : Chip, s.notes (s.sealIfDue p v) := fun s => by
    unfold Chip.sealIfDue
    split
    · exact .refl s
    · exact .ite (s.notes_sealVec p v) (.refl s)
  unfold Chip.raise
  refine .ite (s.notes_bump _) (helapsed.trans (Chip.notes.trans ?_ (hdue _)))
  exact ⟨rfl⟩

theorem Chip.notes_notice (s : Chip) (pg b : Nat) : s.notes (s.notice pg b) := by
  have hset : ∀ s : Chip, s.notes (s.setErr pg b) := fun s => by
    unfold Chip.setErr Chip.pageEvent Chip.pageEventD
    dsimp only
    exact .ite (s.notes_setFlag _ _ _) ((s.notes_setFlag _ _ _).trans (.ite (Chip.notes_raise ..) (.refl _)))
  refine Chip.notes.trans ?_ (hset _)
  unfold Chip.latchFirst
  exact .ite (.refl s) (s.notes_setReg _ _)

theorem Chip.notes.own {s t : Chip} (h : s.notes t) : t.own = s.own := by rw [h.rest]
theorem Chip.notes.out {s t : Chip} (h : s.notes t) : t.out = s.out := by rw [h.rest]
theorem Chip.notes.chain {s t : Chip} (h : s.notes t) : t.chain = s.chain := by rw [h.rest]

/-! ## A request whose response has left (R216, R238) -/

/-- Nothing waits at the Ethernet port or for a RECALL, and the one request's response has left. -/
theorem Chip.tryEth_drops {s : Chip} {r : Req} (hh : s.held = []) (ht : s.dir.trk = []) (hr : s.prom.reqs = [r])
    (hsent : r.sent = true) (hleft : s.respLeft r = false) : s.tryEth = s.dropReq r.id := by
  have hflush : s.flushEth = s := by
    unfold Chip.flushEth Chip.ethWaits
    rw [hh]
    rfl
  have hlate : (s.dropReq r.id).sendLate = s.dropReq r.id := by
    have htrk : (s.dropReq r.id).dir.trk = [] := ht
    unfold Chip.sendLate
    rw [htrk]
    rfl
  have hreap : s.prom.reqs.filter (fun r => r.sent && !s.respLeft r) = [r] := by
    rw [hr, List.filter_cons_of_pos (by rw [hsent, hleft]; rfl), List.filter_nil]
  unfold Chip.tryEth
  rw [hflush, Chip.reapReqs, hreap]
  exact hlate

theorem Chip.reqs_dropReq (s : Chip) (id : Nat) : (s.dropReq id).prom.reqs = s.prom.reqs.filter fun r => !(r.id == id) := rfl

theorem Chip.duo_dropReq (s : Chip) (id : Nat) : (s.dropReq id).duo = s.duo := rfl

/-- R420: nothing is held that no token named. -/
theorem Chip.orderHeld_none {s : Chip} (h : s.duo.inbuf = []) : s.orderHeld.prom = s.prom := by
  unfold Chip.orderHeld
  rw [h]
  rfl

/-- R251: what ending requests leaves. -/
theorem Chip.endReqs_leaves (s : Chip) (p : Req → Bool) (st : Status) : (s.endReqs p st).links = s.links ∧
    (s.endReqs p st).own = s.own ∧ (s.endReqs p st).held = s.held ∧ (s.endReqs p st).dir = s.dir ∧
    (s.endReqs p st).duo = s.duo ∧ (s.endReqs p st).prom.reqs = updWhere s.prom.reqs (fun r => !r.sent && !flipped r && p r)
      (fun r => { r with fixed := fixStatus r.fixed s.now st }) := ⟨rfl, rfl, rfl, rfl, rfl, rfl⟩

/-! ## FORCE on a FROZEN chip (R428) -/

/-- R428: a FROZEN chip is HOLDER at once and says so. -/
def Chip.crowned (s : Chip) : Chip :=
  ((Chip.setRole { s.freeOuts with
    duo.frozenAt := none
    duo.alone := true } 1).bump (pairPg + 0x78)).notice pairPg 5

/-- R428: no promise is past its T_d. -/
theorem force_eq {s : State} {y : Chip} (hy : s.sys.chip = y) (hp : y.paired = true) (hr : y.pairRole = 3)
    (hnone : (y.crowned.prom.reqs.filter fun r => r.promise && !r.sent && decide (r.td < y.crowned.now)) = []) :
    chipNext s (.pairCmdForce 0xC3) ((y.crowned.endReqs (fun r => r.promise) .fenced).tryEth).orderHeld := by
  subst hy
  have hexec : exec (.pairCmdForce 0xC3) s = execPairCmdForce 0xC3 s := (rfl)
  have hlate : forEach (s.sys.chip.crowned.prom.reqs.filter fun r => r.promise && !r.sent &&
      decide (r.td < s.sys.chip.crowned.now)) (fun r s => s.loseResp r) s.sys.chip.crowned = s.sys.chip.crowned := by
    rw [hnone]
    rfl
  rw [chipNext, hexec, execPairCmdForce, liftC]
  dsimp only
  rw [if_neg (by rw [hp, hr]; decide), if_pos hr]
  exact congrArg (fun c => Host.Outcome.next { s with sys := { s.sys with
    chip := ((Chip.endReqs c (fun r => r.promise) .fenced).tryEth).orderHeld } }) hlate

/-! ## The state -/

/-- A request whose response has been handed to link 0. -/
def handedReq : Req :=
  { id := 1, kind := .rd, cls := 0, part := 0, port := 0, host := 7, srcChip := 0, srcPort := 0, tag := 9, session := 0, addr := []
    chan := 0, seq := 0, th := 0, td := 0, off := 0, len := 0, excl := false, chk := 0, data := [], promise := true, gens := []
    region := none, body := 0, base := 0, new := 0, fixed := none, check := 0, entry := 0, cluster := 0, svcSlot := 0, occ0 := 0
    occ := 0, dispatched := false, resp := none, model := [], dig := [], nblks := 0, sent := true }

/-- A FROZEN chip of a pair that lists link 0 twice: in HOLD, and with the response of handedReq. -/
def twiceListed : Chip :=
  { prom := { reqs := [handedReq] }
    regs := [(pairPg + 0x40, 1#32), (pairPg + 0x48, 3#32)]
    links := [(0, { holdAt := some 0 }), (0, { txq := [(0, [⟨0, 1, 1, false, none, [], some (7, 9)⟩])] })] }

/-- The end of link 0's hold removes every entry of link 0. -/
theorem twiceListed_holdEnd : (twiceListed.holdEnd 0).links = [] := by decide

theorem Chip.holdEnd_unlisted {s : Chip} (h : s.links = []) (l : Nat) : s.holdEnd l = s := by
  have hlk : s.lk l = {} := by
    unfold Chip.lk
    rw [h]
    rfl
  unfold Chip.holdEnd
  rw [hlk]

theorem twiceListed_freeOuts : twiceListed.freeOuts = twiceListed.holdEnd 0 := by
  obtain ⟨l, hl⟩ : ∃ l, twiceListed.hostLinks = 0 :: l := ⟨_, rfl⟩
  unfold Chip.freeOuts
  rw [hl, forEach_cons]
  exact forEach_keeps (f := fun l s => s.holdEnd l) (fun t => t = twiceListed.holdEnd 0)
    (fun l _ t ht => by rw [ht, Chip.holdEnd_unlisted twiceListed_holdEnd]) rfl

theorem twiceListed_crowned : twiceListed.crowned.links = [] ∧ twiceListed.crowned.own = [] ∧ twiceListed.crowned.held = [] ∧
    twiceListed.crowned.dir = {} ∧ twiceListed.crowned.prom = twiceListed.prom ∧ twiceListed.crowned.duo.inbuf = [] := by
  have hrep := Chip.reports_notice ((Chip.setRole { twiceListed.freeOuts with
    duo.frozenAt := none
    duo.alone := true } 1).bump (pairPg + 0x78)) pairPg 5
  have hown := Chip.notes_notice ((Chip.setRole { twiceListed.freeOuts with
    duo.frozenAt := none
    duo.alone := true } 1).bump (pairPg + 0x78)) pairPg 5
  rw [twiceListed_freeOuts] at hrep hown
  unfold Chip.crowned
  rw [twiceListed_freeOuts]
  exact ⟨hrep.links.trans twiceListed_holdEnd, hown.own, hrep.held, hrep.dir, hrep.prom, congrArg Pair.inbuf hrep.duo⟩

/-- Its open promises end; none is open. -/
def twiceListedEnds : Chip := twiceListed.crowned.endReqs (fun r => r.promise) .fenced

theorem twiceListedEnds_is : twiceListedEnds.links = [] ∧ twiceListedEnds.own = [] ∧ twiceListedEnds.held = [] ∧
    twiceListedEnds.dir.trk = [] ∧ twiceListedEnds.duo.inbuf = [] ∧ twiceListedEnds.prom.reqs = [handedReq] := by
  obtain ⟨hlinks, hown, hheld, hdir, hprom, hin⟩ := twiceListed_crowned
  obtain ⟨elinks, eown, eheld, edir, eduo, ereqs⟩ := twiceListed.crowned.endReqs_leaves (fun r => r.promise) .fenced
  unfold twiceListedEnds
  refine ⟨elinks.trans hlinks, eown.trans hown, eheld.trans hheld, ?_, ?_, ?_⟩
  · rw [edir, hdir]
  · rw [eduo, hin]
  · rw [ereqs, hprom]
    rfl

theorem twiceListedEnds_drops : twiceListedEnds.tryEth = twiceListedEnds.dropReq 1 := by
  obtain ⟨hlinks, hown, hheld, htrk, -, hreqs⟩ := twiceListedEnds_is
  refine Chip.tryEth_drops (r := handedReq) hheld htrk hreqs rfl ?_
  unfold Chip.respLeft Chip.respWaits Chip.respFlit
  rw [hown, hheld, hlinks]
  rfl

/-- The request whose response the hold's end has lost is dropped. -/
theorem twiceListed_forced : ∃ t, chipNext ⟨[], {}, twiceListed⟩ (.pairCmdForce 0xC3) t ∧ t.prom.reqs = [] := by
  obtain ⟨-, -, -, -, hprom, -⟩ := twiceListed_crowned
  have hnone : (twiceListed.crowned.prom.reqs.filter fun r => r.promise && !r.sent &&
      decide (r.td < twiceListed.crowned.now)) = [] := by
    rw [hprom]
    rfl
  have hexec := force_eq (s := ⟨[], {}, twiceListed⟩) (y := twiceListed) rfl (by decide) (by decide) hnone
  rw [← twiceListedEnds] at hexec
  refine ⟨_, hexec, ?_⟩
  obtain ⟨-, -, -, -, hin, hreqs⟩ := twiceListedEnds_is
  rw [twiceListedEnds_drops, Chip.orderHeld_none ((congrArg Pair.inbuf (Chip.duo_dropReq ..)).trans hin), Chip.reqs_dropReq, hreqs]
  rfl

/-- Refutes O57: of a FROZEN chip whose map of links lists link 0 twice, with a hold first and a response after it, FORCE
removes both entries as it ends the hold, and the request whose response waited there is gone from the requests, where the
statement keeps it. A map of links in canonical form lists each link once, which the statement does not ask. -/
theorem not_pairCrown : ¬ Obligations.PairCrown := by
  intro h
  obtain ⟨-, -, -, -, -, -, -, -, -, -, -, -, -, -, -, -, -, -, -, -, -, -, -, -, hforce, -⟩ :=
    h ⟨[], {}, twiceListed⟩ ⟨0, 0, 0, 0, 0, 0, [], 0⟩ 0 false false false none
  have hidle : twiceListed.held = [] ∧ (∀ r ∈ twiceListed.prom.reqs, r.sent = true → twiceListed.respLeft r = true) ∧
      twiceListed.duo.inbuf = [] ∧ twiceListed.duo.tokens = [] ∧ twiceListed.duo.live = [] ∧ twiceListed.duo.ready = [] := by
    decide
  obtain ⟨t, hexec, -, -, -, hreqs, -⟩ := hforce (by decide) (.inr (by decide)) hidle (by decide)
  obtain ⟨u, hexec', hnone⟩ := twiceListed_forced
  have heq : t = u := by
    have hnext := hexec.symm.trans hexec'
    injection hnext with hstate
    injection hstate with _ hsys
    injection hsys
  rw [heq, hnone] at hreqs
  exact absurd hreqs (by decide)

end Sys2Proof.Machine

/-! PROOF of ¬ O58. The statement speaks of every state, also of one whose poison table lists a block more than once. S4 lists
a DEFECT block once (R179): a controller with 65 entries for one block passes the fill. -/

namespace Sys2Proof.Machine

-- One after the other: side by side the proofs ask for more memory than the check grants.
set_option Elab.async false

open Laws

/-! ## The fill (R178, R179, R434) -/

/-- R434: a stage within its bound does its part. -/
theorem Sys.stageRun_live {y : Sys} {k : Nat} (h : y.chip.inStage k = true) (hb : y.chip.pastBound = false) (f : Sys → Sys) :
    y.stageRun k f = f y := by
  unfold Sys.stageRun
  rw [if_neg (ne_false_of_eq_true h), if_neg (ne_true_of_eq_false hb)]

/-- R179: the blocks that the passes of the fill make DEFECT blocks. -/
def Sys.defectsOf (y : Sys) (fails : List (Nat × Nat × Nat)) : List Nat :=
  (((fails.filter fun f => decide (f.1 < y.chip.dataBlocks)).filter fun f => decide (y.chip.codeT < 2 * f.2.1)).map (·.1)).eraseDups

/-- R179: with no channel above 64 DEFECT blocks the fill leaves the stage running. -/
theorem Sys.fillPasses_stage {y : Sys} {fails : List (Nat × Nat × Nat)}
    (h : ∀ n < 256, (forEach (y.defectsOf fails) (fun b s => s.addDefect (s.ctrlOf b) b) y.chip).defects n ≤ 64) :
    (y.fillPasses fails).chip.stageState =
      (forEach (y.defectsOf fails) (fun b s => s.addDefect (s.ctrlOf b) b) y.chip).stageState := by
  have hany : ((List.range 256).any fun n => decide (64 <
      (forEach (y.defectsOf fails) (fun b s => s.addDefect (s.ctrlOf b) b) y.chip).defects n)) = false :=
    List.any_eq_false.2 fun n hn => by
      rw [decide_eq_true_iff]
      exact Nat.not_lt.2 (h n (List.mem_range.1 hn))
  unfold Sys.fillPasses
  refine (congrArg (fun z : Sys => z.chip.stageState) (if_neg (ne_true_of_eq_false hany))).trans ?_
  exact Chip.fld_setFld_ne _ _ _ _ _ _ (by decide)

/-- R178: a STAGE_S4 that does not complete the passes. -/
theorem exec_stageS4 {s : State} {fails : List (Nat × Nat × Nat)} (hin : s.sys.chip.inStage 4 = true)
    (hb : s.sys.chip.pastBound = false) (hph : s.sys.chip.fld (memPg + 0xAC) 1 0 ≠ 2) :
    exec (.stageS4 ⟨fails, false⟩) s = .next { s with sys := s.sys.fillPasses fails } := by
  have hexec : exec (.stageS4 ⟨fails, false⟩) s = execStageS4 ⟨fails, false⟩ s := (rfl)
  rw [hexec, execStageS4, liftS, Sys.stageRun_live hin hb, Sys.runS4, if_neg hph]
  dsimp only
  rw [if_neg fun h => Bool.false_ne_true h.1]

/-! ## The state -/

/-- Bring-up in S4, with a poison table of controller 0 that lists block 0 as DEFECT 65 times. -/
def repeatedDefects : Chip :=
  { boot := { on := true }
    regs := [(stagePg + 0x40, 4#32)]
    mcs := [(0, { poison := List.replicate 65 (0, true) })] }

/-- R179: block 0 fails once more and is listed once. -/
theorem repeatedDefects_marked : (repeatedDefects.addDefect 0 0).mcs = [(0, { poison := [(0, true)] })] := by decide

theorem repeatedDefects_defects (n : Nat) : (repeatedDefects.addDefect 0 0).defects n ≤ 64 := by
  unfold Chip.defects
  rw [repeatedDefects_marked]
  cases n with
  | zero => decide
  | succ n => exact Nat.zero_le _

theorem repeatedDefects_fills : (Sys.fillPasses ⟨{}, repeatedDefects⟩ [(0, 1000, 0)]).chip.stageState = 0 := by
  have hmarks : forEach (Sys.defectsOf ⟨{}, repeatedDefects⟩ [(0, 1000, 0)]) (fun b s => s.addDefect (s.ctrlOf b) b) repeatedDefects =
      repeatedDefects.addDefect 0 0 := by
    have hone : Sys.defectsOf ⟨{}, repeatedDefects⟩ [(0, 1000, 0)] = [0] := by decide
    have hctrl : repeatedDefects.ctrlOf 0 = 0 := by decide
    rw [hone, forEach_cons, hctrl]
    rfl
  have hstage := Sys.fillPasses_stage (y := ⟨{}, repeatedDefects⟩) (fails := [(0, 1000, 0)]) fun n _ => by
    rw [hmarks]
    exact repeatedDefects_defects n
  rw [hmarks] at hstage
  exact hstage

/-- Refutes O58: S4 of a chip whose controller 0 lists block 0 as a DEFECT block 65 times, and block 0 fails again: its table
lists the block once then, so that no channel has more than 64 and the stage goes on, where the statement has it fail. -/
theorem not_bringUp : ¬ Obligations.BringUp := by
  intro h
  obtain ⟨-, -, -, -, -, -, -, -, h4, -⟩ := h ⟨[], {}, repeatedDefects⟩ 0 0 [] 0 0 false [] [(0, 1000, 0)] false
  obtain ⟨-, hfails, -⟩ := h4 ⟨by decide, by decide⟩
  obtain ⟨z, hexec, -, hstate, -⟩ := hfails (by decide) 0 (by decide) (by decide)
  have hdone : exec (.stageS4 ⟨[(0, 1000, 0)], false⟩) ⟨[], {}, repeatedDefects⟩ = _ :=
    exec_stageS4 (by decide) (by decide) (by decide)
  have hnext := hexec.symm.trans hdone
  injection hnext with hsys
  injection hsys with _ hz
  rw [hz, repeatedDefects_fills] at hstate
  exact absurd hstate (by decide)

end Sys2Proof.Machine

/-! PROOF of O59 (R452 to R455): quotes and the measurement of models. -/

namespace Sys2Proof.Machine

-- One after the other: side by side the proofs ask for more memory than the check grants.
set_option Elab.async false

open Laws

/-! ## A quote that cannot be made (R455) -/

/-- R455: a quote has failed with a RESULT, and none is made or held. -/
structure Chip.quoteFailed (s : Chip) (res : Nat) : Prop where
  result : s.fld (attPg + 0x74) 6 4 = res
  len : s.fld (attPg + 0x78) 13 0 = 0
  making : s.att.making = none
  quote : s.att.quote = []

theorem Chip.quoteFailed_quoteFails {s : Chip} {res : Nat} (h : s.att.making = none) (hr : res < 8) :
    (Chip.quoteFails { s with att.quote := [] } res).quoteFailed res := by
  refine ⟨?_, ?_, h, rfl⟩
  · unfold Chip.quoteFails
    rw [Chip.fld_setFld _ _ _ (by decide)]
    exact Nat.mod_eq_of_lt hr
  · unfold Chip.quoteFails
    rw [Chip.fld_setFld_ne _ _ _ _ _ _ (by decide), Chip.fld_setFld _ _ _ (by decide)]
    rfl

/-- R452: an attempt that this boot has no more, or a block index beyond 2^40. -/
theorem Sys.lmsTry_fails {y : Sys} (h : 3 ≤ y.chip.boot.tries) :
    y.lmsTry = (.fails, onChip (fun s => s.setFlag (attPg + 0x74) 2 false) y) := by
  unfold Sys.lmsTry
  rw [Nat.sub_eq_zero_of_le h, Sys.lmsReserve]

theorem Sys.lmsTry_exhausted {y : Sys} (h : y.chip.boot.tries < 3)
    (hn : 2 ^ 40 < max ((y.lmsNext 0).getD 0) ((y.lmsNext 1).getD 0) + 65536) : y.lmsTry = (.exhausted, y) := by
  obtain ⟨k, hk⟩ : ∃ k, 3 - y.chip.boot.tries = k + 1 := ⟨2 - y.chip.boot.tries, by omega⟩
  unfold Sys.lmsTry
  rw [hk, Sys.lmsReserve]
  exact if_pos hn

section
variable {s : State}

theorem quote_busy (h : s.sys.chip.att.making.isSome = true) : exec .quote s = .next s := by
  have hexec : exec .quote s = execQuote s := (rfl)
  rw [hexec, execQuote, liftS]
  dsimp only
  rw [if_pos h]

/-- R452, R455: a reservation has ended one way or another. -/
def quoteReserved : LmsEnd × Sys → Sys
  | (.done, y) => { y with chip := y.chip.quoteStart }
  | (.fails, y) => { y with chip := Chip.quoteFails { y.chip with att.quote := [] } 3 }
  | (.exhausted, y) => { y with chip := Chip.quoteFails { y.chip with att.quote := [] } 4 }

/-- R455: what GO leaves where no quote is being made. -/
def Sys.quoteGo (y : Sys) : Sys :=
  if y.chip.flag (attPg + 0x74) 1 = false then { y with chip := Chip.quoteFails { y.chip with att.quote := [] } 2 }
  else if y.chip.pair (attPg + 0x8C) < y.chip.pair (attPg + 0x94) then { y with chip := y.chip.quoteStart }
  else quoteReserved y.lmsTry

theorem quote_eq (h : s.sys.chip.att.making = none) : exec .quote s = .next { s with sys := s.sys.quoteGo } := by
  have hexec : exec .quote s = execQuote s := (rfl)
  rw [hexec, execQuote, liftS]
  refine congrArg (fun y => Host.Outcome.next { s with sys := y }) ?_
  refine (if_neg (by rw [h]; decide)).trans ?_
  unfold Sys.quoteGo
  refine congrArg (ite _ _) (congrArg (ite _ _) ?_)
  cases s.sys.lmsTry with
  | mk e z => cases e <;> rfl

/-- R455: GO has failed with a RESULT. -/
def quoteFailsWith (s : State) (res : Nat) : Prop := ∃ z, exec .quote s = .next { s with sys := z } ∧
  z.chip.fld (attPg + 0x74) 6 4 = res ∧ z.chip.fld (attPg + 0x78) 13 0 = 0 ∧ z.chip.att.making = none ∧
  z.chip.att.quote = []

theorem quoteFailsWith_of {y : Sys} {res : Nat} (hm : y.chip.att.making = none) (hr : res < 8)
    (hexec : exec .quote s = .next { s with sys :=
      { y with chip := Chip.quoteFails { y.chip with att.quote := [] } res } }) : quoteFailsWith s res := by
  obtain ⟨hres, hlen, hmaking, hquote⟩ := Chip.quoteFailed_quoteFails hm hr
  exact ⟨_, hexec, hres, hlen, hmaking, hquote⟩

theorem quote_noIdentity (hm : s.sys.chip.att.making = none) (h : s.sys.chip.flag (attPg + 0x74) 1 = false) :
    quoteFailsWith s 2 := by
  refine quoteFailsWith_of hm (by decide) ((quote_eq hm).trans ?_)
  rw [Sys.quoteGo, if_pos h]

theorem quote_noAttempt (hm : s.sys.chip.att.making = none) (h : s.sys.chip.flag (attPg + 0x74) 1 = true)
    (hn : s.sys.chip.pair (attPg + 0x94) ≤ s.sys.chip.pair (attPg + 0x8C)) (ht : 3 ≤ s.sys.chip.boot.tries) :
    quoteFailsWith s 3 := by
  refine quoteFailsWith_of (y := onChip (fun s => s.setFlag (attPg + 0x74) 2 false) s.sys) hm (by decide) ((quote_eq hm).trans ?_)
  rw [Sys.quoteGo, if_neg (ne_false_of_eq_true h), if_neg (Nat.not_lt.2 hn), Sys.lmsTry_fails ht]
  rfl

theorem quote_exhausted (hm : s.sys.chip.att.making = none) (h : s.sys.chip.flag (attPg + 0x74) 1 = true)
    (hn : s.sys.chip.pair (attPg + 0x94) ≤ s.sys.chip.pair (attPg + 0x8C)) (ht : s.sys.chip.boot.tries < 3)
    (hx : 2 ^ 40 < max ((s.sys.lmsNext 0).getD 0) ((s.sys.lmsNext 1).getD 0) + 65536) : quoteFailsWith s 4 := by
  refine quoteFailsWith_of hm (by decide) ((quote_eq hm).trans ?_)
  rw [Sys.quoteGo, if_neg (ne_false_of_eq_true h), if_neg (Nat.not_lt.2 hn), Sys.lmsTry_exhausted ht hx]
  rfl

/-! ## A quote (R455) -/

theorem Chip.pair_lt (c : Chip) (a : Nat) : c.pair a < 2 ^ 64 := by
  unfold Chip.pair
  have h := (c.reg a).isLt
  have h' := (c.reg (a + 4)).isLt
  omega

theorem Chip.quoteStart_facts {c : Chip} (h : c.pair (attPg + 0x8C) + 1 < 2 ^ 64) :
    c.quoteStart.att.making = some (c.quoteBody, c.pair (attPg + 0x8C)) ∧
      c.quoteStart.pair (attPg + 0x8C) = c.pair (attPg + 0x8C) + 1 ∧ c.quoteStart.fld (attPg + 0x74) 6 4 = 0 ∧
      c.quoteStart.att.log = c.att.log := by
  refine ⟨rfl, ?_, ?_, rfl⟩
  · have hpair := Chip.pair_setPair { c with
      att.making := some (c.quoteBody, c.pair (attPg + 0x8C))
      att.quote := [] } (attPg + 0x8C) (c.pair (attPg + 0x8C) + 1)
    rw [Nat.mod_eq_of_lt h] at hpair
    refine Eq.trans ?_ hpair
    unfold Chip.quoteStart Chip.pair
    rw [Chip.reg_setFld_ne _ _ _ _ (by decide), Chip.reg_setFld_ne _ _ _ _ (by decide),
      Chip.reg_setFld_ne _ _ _ _ (by decide), Chip.reg_setFld_ne _ _ _ _ (by decide)]
  · unfold Chip.quoteStart
    rw [Chip.fld_setFld _ _ _ (by decide)]
    rfl

theorem quote_starts (hm : s.sys.chip.att.making = none) (h : s.sys.chip.flag (attPg + 0x74) 1 = true)
    (hn : s.sys.chip.pair (attPg + 0x8C) < s.sys.chip.pair (attPg + 0x94)) : ∃ t, chipNext s .quote t ∧
      t.att.making = some (s.sys.chip.quoteBody, s.sys.chip.pair (attPg + 0x8C)) ∧
      t.pair (attPg + 0x8C) = s.sys.chip.pair (attPg + 0x8C) + 1 ∧ t.fld (attPg + 0x74) 6 4 = 0 ∧
      t.att.log = s.sys.chip.att.log := by
  refine ⟨s.sys.chip.quoteStart, ?_, Chip.quoteStart_facts ?_⟩
  · refine (quote_eq hm).trans ?_
    rw [Sys.quoteGo, if_neg (ne_false_of_eq_true h), if_pos hn]
  · have hlt := s.sys.chip.pair_lt (attPg + 0x94)
    omega

theorem quoteDone_none (h : s.sys.chip.att.making = none) : exec .quoteDone s = .next s := by
  have hexec : exec .quoteDone s = execQuoteDone s := (rfl)
  rw [hexec, execQuoteDone, liftC, h]

theorem length_fit (n : Nat) (d : List Byte) : (fit n d).length = n := by
  unfold fit
  rw [List.length_take, List.length_append, List.length_replicate]
  omega

/-- R455: the quote is there, with its length. -/
def Chip.quoted (c : Chip) (q : List Byte) : Chip :=
  (Chip.setFld { c with
    att.making := none
    att.quote := q } (attPg + 0x78) 13 0 10492).setFld (attPg + 0x74) 6 4 1

theorem quoteDone_eq {b : List Byte} {i : Nat} (h : s.sys.chip.att.making = some (b, i)) : chipNext s .quoteDone
    (s.sys.chip.quoted (b ++ fit 96 (Config.ecdsaSign i (beBytes 48 (deviceKey s.sys.chip.boot.kdev)) (sha384 b)) ++
      fit 10204 (Config.hssSign i s.sys.chip.boot.kdev b))) := by
  have hexec : exec .quoteDone s = execQuoteDone s := (rfl)
  rw [chipNext, hexec, execQuoteDone, liftC, h]
  rfl

theorem Chip.quoted_facts (c : Chip) (q : List Byte) : (c.quoted q).att.making = none ∧ (c.quoted q).att.quote = q ∧
    (c.quoted q).fld (attPg + 0x74) 6 4 = 1 ∧ (c.quoted q).fld (attPg + 0x78) 13 0 = 10492 := by
  refine ⟨rfl, rfl, ?_, ?_⟩
  · unfold Chip.quoted
    rw [Chip.fld_setFld _ _ _ (by decide)]
    rfl
  · unfold Chip.quoted
    rw [Chip.fld_setFld_ne _ _ _ _ _ _ (by decide), Chip.fld_setFld _ _ _ (by decide)]
    rfl

theorem quoteDone_ready {b : List Byte} {i : Nat} (h : s.sys.chip.att.making = some (b, i)) : ∃ t, chipNext s .quoteDone t ∧
    t.att.making = none ∧ t.fld (attPg + 0x74) 6 4 = 1 ∧ t.fld (attPg + 0x78) 13 0 = 10492 ∧
    t.att.quote.length = b.length + 10300 ∧ t.att.quote.take b.length = b := by
  obtain ⟨e, f, he, hf, hexec⟩ : ∃ e f, e.length = 96 ∧ f.length = 10204 ∧
      chipNext s .quoteDone (s.sys.chip.quoted (b ++ e ++ f)) :=
    ⟨_, _, length_fit .., length_fit .., quoteDone_eq h⟩
  obtain ⟨hmaking, hquote, hres, hlen⟩ := s.sys.chip.quoted_facts (b ++ e ++ f)
  refine ⟨_, hexec, hmaking, hres, hlen, ?_, ?_⟩
  · have hsum : (b ++ e ++ f).length = b.length + e.length + f.length := by rw [List.length_append, List.length_append]
    rw [hquote]
    omega
  · rw [hquote, List.append_assoc, List.take_left]

/-! ## The measurement of models (R453, R454) -/

theorem Chip.reg_setBytes (c : Chip) {a n b : Nat} (d : List Byte) (h : b < a ∨ a + 4 * n ≤ b) :
    (c.setBytes a n d).reg b = c.reg b := by
  unfold Chip.setBytes
  refine forEach_keeps (fun t => t.reg b = c.reg b) (fun i hi t ht => ?_) rfl
  have hin := List.mem_range.1 hi
  exact (Chip.reg_setReg_ne _ _ (by omega)).trans ht

/-- R453: what a measurement at run time leaves of the rest, and its entry of the log. -/
theorem Chip.measure_log (c : Chip) {typ : Nat} (h : 16 ≤ typ) (d : List Byte) :
    (c.measure typ d).att.mboot = c.att.mboot ∧ (c.measure typ d).att.models = c.att.models ∧
      (c.att.log.length < 4096 → (c.measure typ d).att.log = c.att.log ++
        [⟨typ, c.att.log.length, if c.stageNo < 6 then 0 else c.now, d⟩]) := by
  unfold Chip.measure
  dsimp only
  rw [decide_eq_true h]
  simp only [if_true]
  generalize sha384 (c.att.mrun ++ leBytes 4 typ ++ d) = m
  generalize hu : Chip.setBytes _ _ _ _ = u
  have hrest : u = { c with
      att.mrun := m
      regs := u.regs } := by
    rw [← hu]
    exact Chip.setBytes_rest ..
  have hlog : u.att.log = c.att.log := by rw [hrest]
  have hstage : u.fld (stagePg + 0x40) 3 0 = c.stageNo := by
    unfold Chip.stageNo Chip.fld
    rw [← hu, Chip.reg_setBytes _ _ (.inl (by decide))]
    rfl
  have hnow : u.now = c.now := by rw [hrest]
  rw [hlog, hstage, hnow]
  split
  · exact ⟨by rw [hrest]; rfl, by rw [hrest]; rfl, fun _ => rfl⟩
  · rename_i hfull
    exact ⟨by rw [hrest]; rfl, by rw [hrest]; rfl, fun hn => absurd hn hfull⟩

variable {p : PartNo} {slot : SlotNo} {h : List Byte}

theorem modelHash_none (hn : (s.sys.chip.ctxAt (32 * p.val + slot.val)).starting = none ∨ h.length ≠ 48) :
    exec (.modelHash p slot h) s = .next s := by
  have hexec : exec (.modelHash p slot h) s = execModelHash p slot h s := (rfl)
  rw [hexec, execModelHash, liftC]
  dsimp only
  cases hst : (s.sys.chip.ctxAt (32 * p.val + slot.val)).starting with
  | none => rfl
  | some q =>
    dsimp only
    rw [if_pos (hn.resolve_left (by rw [hst]; exact Option.some_ne_none q))]

/-- R454: the hash of a model is stored for context x and measured, and x starts no more. -/
def Chip.modelled (c : Chip) (x : Nat) (h : List Byte) : Chip :=
  (Chip.measure { c with att.models := KMap.put c.att.models [] x h } 0x10 h).setCtx x { c.ctxAt x with starting := none }

theorem modelHash_starts {q : CmdReq} (hq : (s.sys.chip.ctxAt (32 * p.val + slot.val)).starting = some q) (hl : h.length = 48) :
    chipNext s (.modelHash p slot h) ((s.sys.chip.modelled (32 * p.val + slot.val) h).cmdAnswer q .ok 0) := by
  have hexec : exec (.modelHash p slot h) s = execModelHash p slot h s := (rfl)
  rw [chipNext, hexec, execModelHash, liftC]
  dsimp only
  rw [hq]
  dsimp only
  rw [if_neg (not_not.2 hl)]
  rfl

theorem Chip.modelled_facts (c : Chip) (x : Nat) (h : List Byte) :
    (c.modelled x h).ctxAt x = { c.ctxAt x with starting := none } ∧ KMap.at (c.modelled x h).att.models [] x = h ∧
      (c.modelled x h).att.mrun = sha384 (c.att.mrun ++ leBytes 4 0x10 ++ h) ∧ (c.modelled x h).att.mboot = c.att.mboot ∧
      (c.att.log.length < 4096 → (c.modelled x h).att.log = c.att.log ++
        [⟨0x10, c.att.log.length, if c.stageNo < 6 then 0 else c.now, h⟩]) := by
  obtain ⟨-, hrun⟩ := Chip.measure_run { c with att.models := KMap.put c.att.models [] x h } (Nat.le_refl 16) h
  obtain ⟨hboot, hmodels, hlog⟩ := Chip.measure_log { c with att.models := KMap.put c.att.models [] x h } (Nat.le_refl 16) h
  refine ⟨Chip.ctxAt_setCtx .., ?_, hrun, hboot, hlog⟩
  exact (congrArg (KMap.at · [] x) hmodels).trans (at_put_self ..)

end

/-- Settles O59: GO by the identity and the reservation, the quote by its two signatures, MODEL_HASH by the context that
starts. -/
theorem attestation : Obligations.Attestation := by
  intro s p slot h y gives fails next slots
  refine ⟨quote_busy, fun hm => ⟨quote_noIdentity hm, fun hid => ⟨quote_starts hm hid, fun hn =>
    ⟨quote_noAttempt hm hid hn, quote_exhausted hm hid hn⟩⟩⟩, quoteDone_none, fun b i => quoteDone_ready, modelHash_none,
    fun q hq hl => ?_⟩
  obtain ⟨hctx, hmodel, hrun, hboot, hlog⟩ := s.sys.chip.modelled_facts (32 * p.val + slot.val) h
  have htold := Chip.told_cmdAnswer (s.sys.chip.modelled (32 * p.val + slot.val) h) q .ok 0
  have hatt := htold.att
  refine ⟨_, modelHash_starts hq hl, ?_, ?_, ?_, ?_, fun hn => ?_, Chip.answeredIs_cmdAnswer ..⟩
  · refine Eq.trans ?_ hctx
    exact congrArg (KMap.at · {} _) htold.parts_ctxs
  · rw [hatt, hmodel]
  · rw [hatt, hrun]
  · rw [hatt, hboot]
  · rw [hatt, hlog hn]

end Sys2Proof.Machine

/-! PROOF of O60, its first part (R462 to R469, R475): frames that go on, requests and their answers, ENUM and POLL. -/

namespace Sys2Proof.Machine

-- One after the other: side by side the proofs ask for more memory than the check grants.
set_option Elab.async false

open Laws

/-! ## Which frames a unit acts on (R462, R465, R466, R469) -/

/-- R462, R465: the chain is up and the frame is good. -/
def Chip.chainOn (c : Chip) (f : ChainFrame) : Prop := c.chainUp = true ∧ chainGood f = true

/-- R469: a good frame names this unit. -/
def Chip.chainNamed (c : Chip) (f : ChainFrame) : Prop := c.chainOn f ∧ c.chainTarget f = true

/-- R466: a good frame asks this unit alone, and not once more. -/
def Chip.chainAsks (c : Chip) (f : ChainFrame) : Prop :=
  c.chainNamed f ∧ f.bcast = false ∧ ∀ r, c.chain.kept = some r → r.1 ≠ f.seq

/-- R463: the frame has gone on along the chain. -/
def Sys.forwarded (y : Sys) (f : ChainFrame) : Sys := onChip (fun s => s.emit (.chain f)) y

/-- R466: the RESP has left and is kept. -/
def Sys.answered (y : Sys) (f : ChainFrame) (st : Status) (d : List Byte) : Sys :=
  let (r, s) := y.chip.chainSend 3 (some f.seq) (respPay st f.typ d)
  { y with chip := { s with chain.kept := some (f.seq, r) } }

section
variable {y : Sys} {f : ChainFrame} {kind : Bool} {act : Sys → (Status × List Byte) × Sys}

theorem Sys.chainPass_down (h : y.chip.chainUp = false) : y.chainPass f = y := by
  unfold Sys.chainPass
  rw [if_pos h]

theorem Sys.chainPass_other (h : y.chip.chainUp = true) (ht : y.chip.chainTarget f = false) :
    y.chainPass f = y.forwarded f := by
  unfold Sys.chainPass
  rw [if_neg (ne_false_of_eq_true h)]
  exact if_pos ht

theorem Sys.chainPass_bad (h : y.chip.chainUp = true) (ht : y.chip.chainTarget f = true) (hg : chainGood f = false) :
    y.chainPass f = onChip Chip.chainBad (y.forwarded f) := by
  unfold Sys.chainPass
  rw [if_neg (ne_false_of_eq_true h)]
  exact (if_neg (ne_false_of_eq_true ht)).trans (if_pos hg)

theorem Sys.chainPass_named (h : y.chip.chainNamed f) : y.chainPass f =
    if unknownOp f then (y.forwarded f).chainAct f fun y => ((.noAccess, []), y) else y.forwarded f := by
  obtain ⟨⟨hup, hgood⟩, htarget⟩ := h
  unfold Sys.chainPass
  rw [if_neg (ne_false_of_eq_true hup)]
  exact (if_neg (ne_false_of_eq_true htarget)).trans (if_neg (ne_false_of_eq_true hgood))

/-- R463: a good frame whose OP the tables name, or that is no request, goes on. -/
theorem Sys.chainPass_good (hon : y.chip.chainOn f) (hu : unknownOp f = false) : y.chainPass f = y.forwarded f := by
  cases ht : y.chip.chainTarget f with
  | false => exact Sys.chainPass_other hon.1 ht
  | true => rw [Sys.chainPass_named ⟨hon, ht⟩, if_neg (ne_true_of_eq_false hu)]

theorem Sys.chainReq_passes (h : (y.chip.chainUp && y.chip.chainTarget f) = false) : y.chainReq f kind act = y.chainPass f := by
  unfold Sys.chainReq
  rw [h]
  rfl

theorem Sys.chainReq_acts (h : y.chip.chainNamed f) (hk : kind = true) :
    y.chainReq f kind act = (y.forwarded f).chainAct f act := by
  obtain ⟨⟨hup, hgood⟩, htarget⟩ := h
  unfold Sys.chainReq
  rw [hup, htarget, hgood, hk]
  rfl

theorem Sys.chainAct_again {r : ChainFrame} (hb : f.bcast = false) (h : y.chip.chain.kept = some (f.seq, r)) :
    y.chainAct f act = onChip (fun s => s.emit (.chain r)) y := by
  unfold Sys.chainAct
  rw [h]
  exact if_pos ⟨rfl, hb⟩

/-- R466: a request is carried out and answered. -/
theorem Sys.chainAct_answers {st : Status} {d : List Byte} {w : Sys} (hb : f.bcast = false)
    (h : ∀ r, y.chip.chain.kept = some r → r.1 ≠ f.seq) (hact : act y = ((st, d), w)) :
    y.chainAct f act = w.answered f st d := by
  have hdo : y.chainDo f act = w.answered f st d := by
    unfold Sys.chainDo
    rw [hact]
    exact if_neg (ne_true_of_eq_false hb)
  unfold Sys.chainAct
  cases hk : y.chip.chain.kept with
  | none => exact hdo
  | some r => exact (if_neg fun hs => h r hk hs.1).trans hdo

end

/-! ## The seven requests (R471 to R473) -/

/-- The requests that act, each with its kind. -/
noncomputable def chainRows (f : ChainFrame) : List (Instr × Prop) :=
  [(.continueHold f, f.typ = 4 ∧ payNat f.payload 0 1 = 1), (.chainReset f, f.typ = 4 ∧ payNat f.payload 0 1 = 2),
    (.retire f, f.typ = 4 ∧ payNat f.payload 0 1 = 3), (.alertAck f, f.typ = 4 ∧ payNat f.payload 0 1 = 4),
    (.flashRead f, f.typ = 5 ∧ payNat f.payload 0 1 = 1), (.flashErase f, f.typ = 5 ∧ payNat f.payload 0 1 = 2),
    (.flashProgram f, f.typ = 5 ∧ payNat f.payload 0 1 = 3)]

/-- a is a request that is forwarded and carried out as chainReq says, where that leaves SVC. -/
def chainRow (s : State) (f : ChainFrame) (a : Instr × Prop) : Prop :=
  ∃ kind act, (a.2 → kind = true) ∧ ((s.sys.chainReq f kind act).chip.svc = s.sys.chip.svc →
    exec a.1 s = .next { s with sys := s.sys.chainReq f kind act })

theorem isCtl_of {f : ChainFrame} {op : Nat} (h : f.typ = 4 ∧ payNat f.payload 0 1 = op) : isCtl f op = true := by
  unfold isCtl
  rw [h.1, h.2, beq_self_eq_true op]
  rfl

theorem isFlash_of {f : ChainFrame} {op : Nat} (h : f.typ = 5 ∧ payNat f.payload 0 1 = op) : isFlash f op = true := by
  unfold isFlash
  rw [h.1, h.2, beq_self_eq_true op]
  rfl

/-- R471: a CTL request's KEY and condition. -/
def ctlAct (f : ChainFrame) (key : Nat) (ok : Chip → Bool) (act : Sys → Sys) (y : Sys) : (Status × List Byte) × Sys :=
  if ctlKey f key && ok y.chip then ((.ok, []), act y) else ((.noAccess, []), y)

/-- R472: a RETIRING chip. -/
def Chip.retireStarts (s : Chip) (f : ChainFrame) : Chip :=
  let s := (s.setFld (chPg + 0x44) 1 0 1).setFld (chPg + 0x44) 4 2 1
  { s with chain.retireBy := s.now + 1000000 * ctlArg f }

def retireOk (f : ChainFrame) (s : Chip) : Bool := s.svc == 0 && s.isReady && decide (1 ≤ ctlArg f ∧ ctlArg f ≤ 600000)

/-- R471: a RETIRE before its first step is reported. -/
def Sys.retireAsked (y : Sys) (f : ChainFrame) : Sys :=
  y.chainReq f (isCtl f 3) (ctlAct f 0x96 (retireOk f) (onChip fun c => c.retireStarts f))

/-- R472: step 1 is reported. -/
def Sys.retireTold (y : Sys) (f : ChainFrame) : Sys :=
  if y.chip.svc = 0 ∧ (y.retireAsked f).chip.svc = 1 then onChip (fun c => c.tellStep 1) (y.retireAsked f) else y.retireAsked f

section
variable {s : State} {f : ChainFrame}

theorem retire_eq (s : State) (f : ChainFrame) : exec (.retire f) s = .next { s with sys := s.sys.retireTold f } := (rfl)

theorem retire_quiet (h : (s.sys.retireAsked f).chip.svc = s.sys.chip.svc) :
    exec (.retire f) s = .next { s with sys := s.sys.retireAsked f } := by
  rw [retire_eq, Sys.retireTold, if_neg]
  rw [h]
  exact fun hn => absurd (hn.1.symm.trans hn.2) (by decide)

/-- R473: the conditions and acts of the FLASH requests. -/
def flashAct (ok : Chip → Bool) (act : Sys → (Status × List Byte) × Sys) (y : Sys) : (Status × List Byte) × Sys :=
  if ok y.chip then act y else ((.noAccess, []), y)

theorem chainRows_are (s : State) (f : ChainFrame) : ∀ a ∈ chainRows f, chainRow s f a := by
  have hrow : ∀ (i : Instr) (kind : Bool) (p : Prop) (act : Sys → (Status × List Byte) × Sys), (p → kind = true) →
      exec i s = .next { s with sys := s.sys.chainReq f kind act } → chainRow s f (i, p) := fun i kind p act hk he =>
    ⟨kind, act, hk, fun _ => he⟩
  unfold chainRows
  simp only [List.forall_mem_cons]
  exact ⟨hrow _ _ _ _ isCtl_of rfl, hrow _ _ _ _ isCtl_of rfl, ⟨_, _, isCtl_of, retire_quiet⟩, hrow _ _ _ _ isCtl_of rfl,
    hrow _ _ _ _ isFlash_of rfl, hrow _ _ _ _ isFlash_of rfl, hrow _ _ _ _ isFlash_of rfl,
    fun _ h => absurd h List.not_mem_nil⟩

theorem chainRow_down {a : Instr × Prop} (h : chainRow s f a) (hd : s.sys.chip.chainUp = false) : exec a.1 s = .next s := by
  obtain ⟨kind, act, -, hexec⟩ := h
  have hpass : s.sys.chainReq f kind act = s.sys := by
    rw [Sys.chainReq_passes (by rw [hd]; rfl), Sys.chainPass_down hd]
  rw [hpass] at hexec
  exact hexec rfl

theorem chainRow_other {a : Instr × Prop} (h : chainRow s f a) (hup : s.sys.chip.chainUp = true)
    (ht : s.sys.chip.chainTarget f = false) : chipNext s a.1 (s.sys.chip.emit (.chain f)) := by
  obtain ⟨kind, act, -, hexec⟩ := h
  have hpass : s.sys.chainReq f kind act = s.sys.forwarded f := by
    rw [Sys.chainReq_passes (by rw [hup, ht]; rfl), Sys.chainPass_other hup ht]
  rw [hpass] at hexec
  exact hexec rfl

/-- R466: a request that is repeated gets the RESP that was kept. -/
theorem chainRow_again {a : Instr × Prop} {r : ChainFrame} (h : chainRow s f a) (hn : s.sys.chip.chainNamed f)
    (hb : f.bcast = false) (hk : s.sys.chip.chain.kept = some (f.seq, r)) (ha : a.2) :
    chipNext s a.1 { s.sys.chip with out := s.sys.chip.out ++ [.chain f, .chain r] } := by
  obtain ⟨kind, act, hkind, hexec⟩ := h
  have hacts : s.sys.chainReq f kind act =
      { s.sys with chip := { s.sys.chip with out := s.sys.chip.out ++ [.chain f, .chain r] } } := by
    rw [Sys.chainReq_acts hn (hkind ha)]
    refine (Sys.chainAct_again (y := s.sys.forwarded f) hb hk).trans ?_
    refine congrArg (fun l => Sys.mk s.sys.mem { s.sys.chip with out := l }) ?_
    exact List.append_assoc ..
  rw [hacts] at hexec
  exact hexec rfl

/-! ## Answers (R465, R466) -/

/-- R465, R466: instruction i forwards the frame, answers with a status and data, keeps the RESP, and leaves what p says. -/
def chainTells (s : State) (f : ChainFrame) (i : Instr) (st : Status) (d : List Byte) (p : Sys → Prop) : Prop :=
  ∃ z r, exec i s = .next { s with sys := z } ∧ z.chip.out = s.sys.chip.out ++ [.chain f, .chain r] ∧
    r.typ = 3 ∧ r.seq = f.seq ∧ r.payload = respPay st f.typ d ∧ r.crc = chainCrc r ∧
    z.chip.chain.kept = some (f.seq, r) ∧ p z

/-- R471, R473: a request whose conditions fail. -/
def chainRefuses (s : State) (f : ChainFrame) (i : Instr) : Prop :=
  chainTells s f i .noAccess [] fun z => z.mem = s.sys.mem ∧ z.chip.regs = s.sys.chip.regs

theorem chainTells_of {i : Instr} {st : Status} {d : List Byte} {p : Sys → Prop} {w : Sys}
    (hexec : exec i s = .next { s with sys := w.answered f st d }) (hout : w.chip.out = s.sys.chip.out ++ [.chain f])
    (hp : p (w.answered f st d)) : chainTells s f i st d p := by
  refine ⟨_, (w.chip.chainSend 3 (some f.seq) (respPay st f.typ d)).1, hexec, ?_, rfl, rfl, rfl, rfl, rfl, hp⟩
  refine Eq.trans (congrArg (· ++ [_]) hout) ?_
  rw [List.append_assoc]
  rfl

section
variable {i : Instr} {kind : Bool} {act : Sys → (Status × List Byte) × Sys}

theorem req_answers {st : Status} {d : List Byte} {w : Sys} (ha : s.sys.chip.chainAsks f) (hk : kind = true)
    (hact : act (s.sys.forwarded f) = ((st, d), w)) : s.sys.chainReq f kind act = w.answered f st d := by
  obtain ⟨hn, hb, hkept⟩ := ha
  rw [Sys.chainReq_acts hn hk]
  exact Sys.chainAct_answers hb hkept hact

theorem req_tells {st : Status} {d : List Byte} {p : Sys → Prop} {w : Sys} (ha : s.sys.chip.chainAsks f) (hk : kind = true)
    (hexec : exec i s = .next { s with sys := s.sys.chainReq f kind act })
    (hact : act (s.sys.forwarded f) = ((st, d), w)) (hout : w.chip.out = s.sys.chip.out ++ [.chain f])
    (hp : p (w.answered f st d)) : chainTells s f i st d p := by
  rw [req_answers ha hk hact] at hexec
  exact chainTells_of hexec hout hp

theorem req_refuses (ha : s.sys.chip.chainAsks f) (hk : kind = true)
    (hexec : exec i s = .next { s with sys := s.sys.chainReq f kind act })
    (hact : act (s.sys.forwarded f) = ((.noAccess, []), s.sys.forwarded f)) : chainRefuses s f i :=
  req_tells ha hk hexec hact rfl ⟨rfl, rfl⟩

end

/-! ## CHAIN_FRAME_FORWARD (R463, R465) -/

theorem forward_eq (s : State) (f : ChainFrame) :
    exec (.chainFrameForward f) s = .next { s with sys := s.sys.chainPass f } := (rfl)

theorem forward_down (h : s.sys.chip.chainUp = false) : exec (.chainFrameForward f) s = .next s := by
  rw [forward_eq, Sys.chainPass_down h]

theorem forward_other (h : s.sys.chip.chainUp = true) (ht : s.sys.chip.chainTarget f = false) :
    chipNext s (.chainFrameForward f) (s.sys.chip.emit (.chain f)) := by
  rw [chipNext, forward_eq, Sys.chainPass_other h ht]
  rfl

end

end Sys2Proof.Machine

/-! PROOF of O60, its second part (R463 to R469, R471 to R475): forwarding, ENUM, POLL, the CTL requests. -/

namespace Sys2Proof.Machine

-- One after the other: side by side the proofs ask for more memory than the check grants.
set_option Elab.async false

open Laws

/-! ## Frames that go on (R463, R465) -/

section
variable {s : State} {f : ChainFrame}

theorem forward_bad (h : s.sys.chip.chainUp = true) (ht : s.sys.chip.chainTarget f = true) (hg : chainGood f = false) :
    ∃ t, chipNext s (.chainFrameForward f) t ∧ (∃ l, t.out = s.sys.chip.out ++ .chain f :: l) ∧
      (t.reg (chPg + 0x54)).toNat = min ((s.sys.chip.reg (chPg + 0x54)).toNat + 1) 0xffffffff := by
  refine ⟨(s.sys.chip.emit (.chain f)).chainBad, ?_, ⟨[], ?_⟩, ?_⟩
  · rw [chipNext, forward_eq, Sys.chainPass_bad h ht hg]
    rfl
  · exact (Chip.notes_notice ..).out
  · unfold Chip.chainBad
    rw [Chip.notice_reg _ _ _ (chPg_below (by decide) (by decide)) (by decide) (by decide)]
    exact Chip.reg_bumpBy (s.sys.chip.emit (.chain f)) (chPg + 0x54) 1

theorem forward_good (hon : s.sys.chip.chainOn f) (hu : unknownOp f = false) :
    chipNext s (.chainFrameForward f) (s.sys.chip.emit (.chain f)) := by
  rw [chipNext, forward_eq, Sys.chainPass_good hon hu]
  rfl

theorem forward_unknown (ha : s.sys.chip.chainAsks f) (hu : unknownOp f = true) : chainRefuses s f (.chainFrameForward f) := by
  obtain ⟨hn, hb, hkept⟩ := ha
  have hpass : s.sys.chainPass f = (s.sys.forwarded f).answered f .noAccess [] := by
    rw [Sys.chainPass_named hn, if_pos hu]
    exact Sys.chainAct_answers hb hkept rfl
  refine chainTells_of (w := s.sys.forwarded f) ?_ rfl ⟨rfl, rfl⟩
  rw [forward_eq, hpass]

/-! ## ENUM (R467 to R469) -/

/-- R467: an ENUM that the chip acts on, or any other frame. -/
def Sys.enumTaken (y : Sys) (f : ChainFrame) : Sys :=
  if y.chip.chainUp && chainGood f && f.typ == 1 && f.payload.length == 16 then onChip (fun c => c.enumerate f) y
  else y.chainPass f

theorem enum_eq (s : State) (f : ChainFrame) : exec (.enum f) s = .next { s with sys := s.sys.enumTaken f } := (rfl)

theorem enum_down (h : s.sys.chip.chainUp = false) : exec (.enum f) s = .next s := by
  rw [enum_eq, Sys.enumTaken, if_neg (by rw [h]; exact Bool.false_ne_true), Sys.chainPass_down h]

theorem enum_acts (hon : s.sys.chip.chainOn f) (ht : f.typ = 1) (hl : f.payload.length = 16) :
    chipNext s (.enum f) (s.sys.chip.enumerate f) := by
  rw [chipNext, enum_eq, Sys.enumTaken, if_pos (by rw [hon.1, hon.2, ht, hl]; rfl)]
  rfl

/-- R467: the frame an enumerated unit passes on. -/
def enumNext (f : ChainFrame) : ChainFrame :=
  chainEdit f ((f.payload.set 1 (BitVec.ofNat 8 (nextPos (payNat f.payload 1 1 % 128) (payNat f.payload 4 8)))).set 2
    (BitVec.ofNat 8 (payNat f.payload 2 1 + 1)))

theorem nextPos_le (pos skip : Nat) : nextPos pos skip ≤ 64 := by
  unfold nextPos
  cases h : (List.range 64).find? fun k => decide (pos < k) && skip / 2 ^ k % 2 == 0 with
  | none => exact Nat.le_refl 64
  | some k => exact Nat.le_of_lt (List.mem_range.1 (List.mem_of_find?_eq_some h))

/-- The number in one byte is the byte. -/
theorem payNat_one {p : List Byte} {k : Nat} (h : k < p.length) : payNat p k 1 = byteAt p k := by
  unfold payNat byteAt
  rw [List.drop_eq_getElem_cons h, List.take_succ_cons, List.take_zero, List.getD_eq_getElem _ _ h, leNat, leNat,
    Nat.mul_zero, Nat.add_zero]

theorem enumNext_facts {f : ChainFrame} (hl : f.payload.length = 16) :
    byteAt (enumNext f).payload 1 = nextPos (payNat f.payload 1 1 % 128) (payNat f.payload 4 8) ∧
      byteAt (enumNext f).payload 2 = (byteAt f.payload 2 + 1) % 256 ∧ (enumNext f).crc = chainCrc (enumNext f) := by
  have hn := nextPos_le (payNat f.payload 1 1 % 128) (payNat f.payload 4 8)
  refine ⟨?_, ?_, rfl⟩
  · unfold enumNext chainEdit byteAt
    rw [List.getD_eq_getElem _ _ (by simp [hl]), List.getElem_set_ne (by decide), List.getElem_set_self, BitVec.toNat_ofNat]
    exact Nat.mod_eq_of_lt (by omega)
  · unfold enumNext chainEdit
    rw [payNat_one (k := 2) (by omega)]
    refine Eq.trans (congrArg BitVec.toNat (List.getD_eq_getElem _ _ (by simp [hl]))) ?_
    rw [List.getElem_set_self, BitVec.toNat_ofNat]

theorem bits_low (w : Word) : Word.bits w 5 0 = Word.bits w 11 0 % 64 := by
  unfold Word.bits
  omega

/-- R467: a unit has taken its address. -/
theorem Chip.takeAddress_facts (c : Chip) {id pos : Nat} (hi : id < 64) (hp : pos < 64) :
    (c.takeAddress id pos).chainValid = true ∧ (c.takeAddress id pos).chainPos = pos ∧
      (c.takeAddress id pos).fld (rtPg + 0x40) 11 0 = 64 * id + pos ∧ (c.takeAddress id pos).addressed = true := by
  have hmod : (64 * id + pos) % 2 ^ (11 + 1 - 0) = 64 * id + pos := Nat.mod_eq_of_lt (by omega)
  unfold Chip.takeAddress
  dsimp only
  generalize hu : (c.setFld (rtPg + 0x40) 11 0 (64 * id + pos)).setFlag (rtPg + 0x40) 31 true = u
  have hrt : ((u.setFld (chPg + 0x40) 11 0 (64 * id + pos)).setFlag (chPg + 0x40) 31 true).reg (rtPg + 0x40) =
      u.reg (rtPg + 0x40) :=
    (Chip.reg_setFlag_ne _ _ _ (by decide)).trans (Chip.reg_setFld_ne _ _ _ _ (by decide))
  refine ⟨Chip.flag_setFlag _ _ _ (by decide), ?_, ?_, ?_⟩
  · have hall : ((u.setFld (chPg + 0x40) 11 0 (64 * id + pos)).setFlag (chPg + 0x40) 31 true).fld (chPg + 0x40) 11 0 =
        64 * id + pos := by
      rw [Chip.fld_setFlag_apart _ _ _ (by decide) (by decide), Chip.fld_setFld _ _ _ (by decide), hmod]
    unfold Chip.chainPos Chip.fld
    rw [bits_low]
    unfold Chip.fld at hall
    omega
  · refine (congrArg (Word.bits · 11 0) hrt).trans ?_
    rw [← hu]
    refine (Chip.fld_setFlag_apart _ _ _ (by decide) (by decide)).trans ?_
    rw [Chip.fld_setFld _ _ _ (by decide), hmod]
  · refine (congrArg (Word.bit · 31) hrt).trans ?_
    rw [← hu]
    exact Chip.flag_setFlag _ _ _ (by decide)

/-! ## Another address than ENUM names (R467, R474) -/

/-- A notice sets its own bit alone. -/
theorem Chip.notice_flag_apart (c : Chip) (pg : Nat) {b n : Nat} (hn : n < 32) (hne : n ≠ b) (h : belowPt (errStat pg)) :
    (c.notice pg b).flag (errStat pg) n = c.flag (errStat pg) n := by
  have hlatch : (c.latchFirst pg b 0 0 false).flag (errStat pg) n = c.flag (errStat pg) n :=
    congrArg (Word.bit · n) (Chip.latchFirst_reg _ _ _ _ _ _ (by unfold errStat; omega))
  unfold Chip.notice Chip.setErr
  dsimp only
  generalize c.latchFirst pg b 0 0 false = u at hlatch
  have hset : (u.setFlag (errStat pg) b true).flag (errStat pg) n = c.flag (errStat pg) n :=
    (Chip.flag_setFlag_apart _ _ _ hn hne).trans hlatch
  split
  · exact hset
  · exact (congrArg (Word.bit · n) (Chip.pageEvent_reg _ _ h)).trans hset

/-- R474: a STATE frame that names no alert is sent, or is too soon and counted. -/
theorem Chip.sendState_cases (c : Chip) {code : Nat} (d : List Byte) (hc : code = 7 ∨ code = 8) :
    c.sendState code d = (c.bump (chPg + 0x58)).notice chPg 3 ∨ ∃ e, c.sendState code d = c.stateSent e := by
  have hsent : ∀ e, (if code = 1 ∨ code = 3 ∨ code = 4 then (c.stateSent e).chainCond 2 else c.stateSent e) = c.stateSent e :=
    fun e => if_neg (by omega)
  unfold Chip.sendState
  exact (ite_eq_or_eq _ _ _).imp_right fun h => ⟨_, h.trans (hsent _)⟩

theorem Chip.sendState_apart (c : Chip) {code : Nat} (d : List Byte) (hc : code = 7 ∨ code = 8) {a : Nat} (hb : belowPt a)
    (h10 : a ≠ chPg + 0x10) (h18 : a ≠ chPg + 0x18) (h58 : chPg + 0x58 ≠ a) : (c.sendState code d).reg a = c.reg a := by
  rcases c.sendState_cases d hc with h | ⟨e, h⟩
  · rw [h, Chip.notice_reg _ _ _ hb h10 h18, Chip.reg_bump_ne _ h58]
  · rw [h]
    exact Chip.reg_of_regs rfl a

theorem Chip.sendState_kept (c : Chip) {code : Nat} (d : List Byte) (hc : code = 7 ∨ code = 8) :
    (c.sendState code d).chain.kept = c.chain.kept ∧ (c.sendState code d).chain.retireBy = c.chain.retireBy := by
  rcases c.sendState_cases d hc with h | ⟨e, h⟩
  · rw [h, (Chip.notes_notice ..).chain]
    exact ⟨rfl, rfl⟩
  · rw [h]
    exact ⟨rfl, rfl⟩

/-- R467: the unit counts the difference, and its own address stands. -/
theorem Chip.enumDiff_facts (c : Chip) (pos : Nat) : (c.enumDiff pos).flag (errStat chPg) 1 = true ∧
    (c.enumDiff pos).fld (rtPg + 0x40) 11 0 = c.fld (rtPg + 0x40) 11 0 := by
  have hb : belowPt (errStat chPg) := chPg_below (by decide) (by decide)
  have hr : belowPt (rtPg + 0x40) := .inl (by decide)
  unfold Chip.enumDiff
  dsimp only
  generalize leBytes 2 (c.fld (rtPg + 0x40) 11 0) ++ leBytes 1 pos = d
  have hown : (c.notice chPg 1).reg (rtPg + 0x40) = c.reg (rtPg + 0x40) := Chip.notice_reg _ _ _ hr (by decide) (by decide)
  have hset : (c.notice chPg 1).flag (errStat chPg) 1 = true := Chip.notice_flag _ _ (by decide) hb
  generalize c.notice chPg 1 = u at hown hset
  have hcond : ((u.sendState 8 d).chainCond 4).reg (errStat chPg) = (u.sendState 8 d).reg (errStat chPg) :=
    Chip.chainCond_apart _ _ (by decide) (by decide)
  have hkeep : (u.sendState 8 d).flag (errStat chPg) 1 = true := by
    rcases u.sendState_cases d (.inr rfl) with h | ⟨e, h⟩
    · rw [h, Chip.notice_flag_apart _ _ (by decide) (by decide) hb]
      exact (congrArg (Word.bit · 1) (Chip.reg_bump_ne _ (by decide))).trans hset
    · rw [h]
      exact hset
  refine ⟨(congrArg (Word.bit · 1) hcond).trans hkeep, congrArg (Word.bits · 11 0) ?_⟩
  exact (Chip.chainCond_reg _ _ (.inl (by decide))).trans ((u.sendState_reg 8 d hr (.inl (by decide))).trans hown)

section
variable (hon : s.sys.chip.chainOn f) (ht : f.typ = 1) (hl : f.payload.length = 16)
include hon ht hl

theorem enum_addresses (hp : payNat f.payload 1 1 % 128 < 64) (hv : s.sys.chip.chainValid = false) :
    ∃ t g, chipNext s (.enum f) t ∧ t.chainValid = true ∧ t.chainPos = payNat f.payload 1 1 % 128 ∧
      t.fld (rtPg + 0x40) 11 0 = 64 * (payNat f.payload 0 1 % 64) + payNat f.payload 1 1 % 128 ∧ t.addressed = true ∧
      t.out = s.sys.chip.out ++ [.chain g] ∧
      byteAt g.payload 1 = nextPos (payNat f.payload 1 1 % 128) (payNat f.payload 4 8) ∧
      byteAt g.payload 2 = (byteAt f.payload 2 + 1) % 256 ∧ g.crc = chainCrc g := by
  have hdef : s.sys.chip.enumerate f = (s.sys.chip.emit (.chain (enumNext f))).takeAddress
      (payNat f.payload 0 1 % 64) (payNat f.payload 1 1 % 128) := by
    unfold Chip.enumerate
    exact (if_neg (Nat.not_le.2 hp)).trans (if_pos hv)
  obtain ⟨hvalid, hpos, haddr, hset⟩ := (s.sys.chip.emit (.chain (enumNext f))).takeAddress_facts
    (Nat.mod_lt (payNat f.payload 0 1) (by decide : 0 < 64)) hp
  have hexec := enum_acts hon ht hl
  rw [hdef] at hexec
  exact ⟨_, enumNext f, hexec, hvalid, hpos, haddr, hset, rfl, enumNext_facts hl⟩

theorem enum_same (hp : payNat f.payload 1 1 % 128 < 64) (hv : s.sys.chip.chainValid = true)
    (ho : s.sys.chip.fld (rtPg + 0x40) 11 0 = 64 * (payNat f.payload 0 1 % 64) + payNat f.payload 1 1 % 128) :
    ∃ t, chipNext s (.enum f) t ∧ t.regs = s.sys.chip.regs := by
  have hdef : s.sys.chip.enumerate f = s.sys.chip.emit (.chain (enumNext f)) := by
    unfold Chip.enumerate
    exact (if_neg (Nat.not_le.2 hp)).trans ((if_neg (ne_false_of_eq_true hv)).trans (if_pos ho))
  have hexec := enum_acts hon ht hl
  rw [hdef] at hexec
  exact ⟨_, hexec, rfl⟩

theorem enum_past (hp : 64 ≤ payNat f.payload 1 1 % 128) (hv : s.sys.chip.chainValid = false) :
    chipNext s (.enum f) (s.sys.chip.emit (.chain f)) := by
  have hdef : s.sys.chip.enumerate f = s.sys.chip.emit (.chain f) := by
    unfold Chip.enumerate
    exact (if_pos hp).trans (if_neg (ne_true_of_eq_false hv))
  have hexec := enum_acts hon ht hl
  rwa [hdef] at hexec

theorem enum_differs (hv : s.sys.chip.chainValid = true) (h : 64 ≤ payNat f.payload 1 1 % 128 ∨
    s.sys.chip.fld (rtPg + 0x40) 11 0 ≠ 64 * (payNat f.payload 0 1 % 64) + payNat f.payload 1 1 % 128) :
    ∃ t, chipNext s (.enum f) t ∧ t.flag (errStat chPg) 1 = true ∧
      t.fld (rtPg + 0x40) 11 0 = s.sys.chip.fld (rtPg + 0x40) 11 0 := by
  obtain ⟨g, hdef⟩ : ∃ g, s.sys.chip.enumerate f = (s.sys.chip.emit (.chain g)).enumDiff (payNat f.payload 1 1 % 128) := by
    unfold Chip.enumerate
    by_cases hp : 64 ≤ payNat f.payload 1 1 % 128
    · exact ⟨f, (if_pos hp).trans (if_pos hv)⟩
    · exact ⟨enumNext f, (if_neg hp).trans ((if_neg (ne_false_of_eq_true hv)).trans (if_neg (h.resolve_left hp)))⟩
  have hexec := enum_acts hon ht hl
  rw [hdef] at hexec
  exact ⟨_, hexec, Chip.enumDiff_facts _ _⟩

end

/-! ## POLL (R475) -/

/-- R475: a POLL that the chip acts on, or any other frame. -/
def Sys.pollTaken (y : Sys) (f : ChainFrame) : Sys :=
  if y.chip.chainUp && chainGood f && f.typ == 6 && f.payload.length == 8 && y.chip.chainValid &&
      y.chip.fld (chPg + 0x48) 4 0 != 0 then
    { y with chip := y.chip.emit (.chain (chainEdit f (leBytes 8 (payNat f.payload 0 8 ||| 2 ^ y.chip.chainPos)))) }
  else y.chainPass f

theorem poll_eq (s : State) (f : ChainFrame) : exec (.poll f) s = .next { s with sys := s.sys.pollTaken f } := (rfl)

theorem poll_down (h : s.sys.chip.chainUp = false) : exec (.poll f) s = .next s := by
  rw [poll_eq, Sys.pollTaken, if_neg (by rw [h]; exact Bool.false_ne_true), Sys.chainPass_down h]

theorem poll_acts (hon : s.sys.chip.chainOn f) (ht : f.typ = 6) (hl : f.payload.length = 8) (hv : s.sys.chip.chainValid = true) :
    chipNext s (.poll f) (s.sys.chip.emit (.chain (if s.sys.chip.fld (chPg + 0x48) 4 0 = 0 then f
      else chainEdit f (leBytes 8 (payNat f.payload 0 8 ||| 2 ^ s.sys.chip.chainPos))))) := by
  have hcond : (s.sys.chip.chainUp && chainGood f && f.typ == 6 && f.payload.length == 8 && s.sys.chip.chainValid &&
      s.sys.chip.fld (chPg + 0x48) 4 0 != 0) = (s.sys.chip.fld (chPg + 0x48) 4 0 != 0) := by
    rw [hon.1, hon.2, ht, hl, hv]
    rfl
  rw [chipNext, poll_eq, Sys.pollTaken, hcond]
  by_cases h : s.sys.chip.fld (chPg + 0x48) 4 0 = 0
  · have hu : unknownOp f = false := by
      unfold unknownOp
      rw [ht]
      rfl
    rw [if_neg (by rw [h]; decide), if_pos h, Sys.chainPass_good hon hu]
    rfl
  · rw [if_pos (bne_iff_ne.2 h), if_neg h]

end

end Sys2Proof.Machine

/-! PROOF of O60, its last part (R441, R470 to R473): the CTL and FLASH requests and the way out of service. -/

namespace Sys2Proof.Machine

-- One after the other: side by side the proofs ask for more memory than the check grants.
set_option Elab.async false

open Laws

/-! ## CTL (R471) -/

theorem ctlKey_iff (f : ChainFrame) (k : Nat) : ctlKey f k = true ↔ 9 ≤ f.payload.length ∧ payNat f.payload 8 1 = k := by
  unfold ctlKey
  rw [Bool.and_eq_true, decide_eq_true_iff, beq_iff_eq]

section
variable {s : State} {f : ChainFrame} {key : Nat} {ok : Chip → Bool} {act : Sys → Sys}

theorem ctlAct_ok {y : Sys} (hk : ctlKey f key = true) (h : ok y.chip = true) : ctlAct f key ok act y = ((.ok, []), act y) :=
  if_pos (by rw [hk, h]; rfl)

theorem ctlAct_no {y : Sys} (h : ¬ (ctlKey f key = true ∧ ok y.chip = true)) : ctlAct f key ok act y = ((.noAccess, []), y) :=
  if_neg (by rwa [Bool.and_eq_true])

theorem chainReset_ok (ha : s.sys.chip.chainAsks f) (hc : f.typ = 4 ∧ payNat f.payload 0 1 = 2)
    (hk : 9 ≤ f.payload.length ∧ payNat f.payload 8 1 = 0xA7) : chainTells s f (.chainReset f) .ok [] fun z =>
      z.mem = s.sys.mem ∧ z.chip.boot.resetDue = true :=
  req_tells (act := ctlAct f 0xA7 (fun _ => true) (onChip fun c => { c with boot.resetDue := true })) ha (isCtl_of hc) rfl
    (ctlAct_ok ((ctlKey_iff f _).2 hk) rfl) rfl ⟨rfl, rfl⟩

theorem chainReset_refused (ha : s.sys.chip.chainAsks f) (hc : f.typ = 4 ∧ payNat f.payload 0 1 = 2)
    (hk : ¬ (9 ≤ f.payload.length ∧ payNat f.payload 8 1 = 0xA7)) : chainRefuses s f (.chainReset f) :=
  req_refuses (act := ctlAct f 0xA7 (fun _ => true) (onChip fun c => { c with boot.resetDue := true })) ha (isCtl_of hc) rfl
    (ctlAct_no fun h => hk ((ctlKey_iff f _).1 h.1))

/-- R475: the conditions of ARG are no longer pending. -/
def Chip.alertsAcked (c : Chip) (f : ChainFrame) : Chip :=
  c.setReg (chPg + 0x48) (c.reg (chPg + 0x48) &&& ~~~ (BitVec.ofNat 32 (ctlArg f)))

theorem alertAck_ok (ha : s.sys.chip.chainAsks f) (hc : f.typ = 4 ∧ payNat f.payload 0 1 = 4)
    (hk : 9 ≤ f.payload.length ∧ payNat f.payload 8 1 = 0) : chainTells s f (.alertAck f) .ok [] fun z =>
      z.mem = s.sys.mem ∧
        z.chip.reg (chPg + 0x48) = s.sys.chip.reg (chPg + 0x48) &&& ~~~ (BitVec.ofNat 32 (payNat f.payload 4 4)) :=
  req_tells (act := ctlAct f 0 (fun _ => true) (onChip fun c => c.alertsAcked f)) ha (isCtl_of hc) rfl
    (ctlAct_ok ((ctlKey_iff f _).2 hk) rfl) rfl ⟨rfl, Chip.reg_setReg (s.sys.chip.emit (.chain f)) (chPg + 0x48) _⟩

theorem alertAck_refused (ha : s.sys.chip.chainAsks f) (hc : f.typ = 4 ∧ payNat f.payload 0 1 = 4)
    (hk : ¬ (9 ≤ f.payload.length ∧ payNat f.payload 8 1 = 0)) : chainRefuses s f (.alertAck f) :=
  req_refuses (act := ctlAct f 0 (fun _ => true) (onChip fun c => c.alertsAcked f)) ha (isCtl_of hc) rfl
    (ctlAct_no fun h => hk ((ctlKey_iff f _).1 h.1))

/-! ## CONTINUE (R441) -/

/-- Training the links leaves the stage and the boot state. -/
theorem Chip.trainLinks_stage (c : Chip) : c.trainLinks.reg (stagePg + 0x40) = c.reg (stagePg + 0x40) ∧
    c.trainLinks.boot = c.boot := by
  unfold Chip.trainLinks
  refine forEach_keeps (fun t => t.reg (stagePg + 0x40) = c.reg (stagePg + 0x40) ∧ t.boot = c.boot) (fun l hl t ht => ?_) ⟨rfl, rfl⟩
  have hne : lkPg l + 0x44 ≠ stagePg + 0x40 := by
    unfold lkPg stagePg
    omega
  obtain ⟨hreg, hboot⟩ := ht
  split
  · exact ⟨hreg, hboot⟩
  · refine ⟨Eq.trans ?_ hreg, hboot⟩
    refine Eq.trans (Chip.reg_of_regs (s := (t.setLkState l 1).setFld (lkPg l + 0x44) 11 8 0) rfl _) ?_
    exact (Chip.reg_setFld_ne _ _ _ _ hne).trans (Chip.reg_setFld_ne _ _ _ _ hne)

/-- R434: stage k is shown, from now on. -/
def Chip.stageShown (c : Chip) (k : Nat) : Chip := Chip.setFld { c with boot.stageStart := c.ref } (stagePg + 0x40) 3 0 k

/-- R302, R434: what S6 starts with. -/
def Chip.sixStarts (c : Chip) : Chip :=
  if c.trainLinks.isMaster then c.trainLinks.stepTime (c.trainLinks.pair (ftPg + 0x64)) else c.trainLinks

theorem Sys.beginStage_six_eq (y : Sys) : y.beginStage 6 = onChip Chip.sixStarts
    (forEachS ((onChip (fun c => c.stageShown 6) y).chip.boot.cfg.filter fun e => e.stage == 6) (fun e z => z.applyCfg e)
      (onChip (fun c => c.stageShown 6) y)) := by
  unfold Sys.beginStage
  rfl

theorem Chip.boot_stageShown (c : Chip) (k : Nat) : (c.stageShown k).boot = { c.boot with stageStart := c.ref } := rfl

theorem Sys.beginStage_six {y : Sys} (h : ∀ e ∈ y.chip.boot.cfg, e.stage ≠ 6) :
    y.beginStage 6 = onChip Chip.sixStarts (onChip (fun c => c.stageShown 6) y) := by
  have hcfg : (onChip (fun c => c.stageShown 6) y).chip.boot.cfg.filter (fun e => e.stage == 6) = [] := by
    rw [onChip_chip, Chip.boot_stageShown]
    exact List.filter_eq_nil_iff.2 fun e he hb => h e he (beq_iff_eq.1 hb)
  rw [Sys.beginStage_six_eq, hcfg]
  rfl

theorem Chip.stepTime_rest (c : Chip) (n : Nat) : (c.stepTime n).regs = c.regs ∧ (c.stepTime n).boot = c.boot := ⟨rfl, rfl⟩

theorem Chip.sixStarts_stage (c : Chip) : c.sixStarts.reg (stagePg + 0x40) = c.reg (stagePg + 0x40) ∧ c.sixStarts.boot = c.boot := by
  have hs : c.sixStarts = c.trainLinks ∨ ∃ n, c.sixStarts = c.trainLinks.stepTime n := by
    unfold Chip.sixStarts
    exact (ite_eq_or_eq _ _ _).elim (fun h => .inr ⟨_, h⟩) .inl
  obtain ⟨hreg, hboot⟩ := c.trainLinks_stage
  rcases hs with h | ⟨n, h⟩
  · rw [h]
    exact ⟨hreg, hboot⟩
  · obtain ⟨hregs, hb⟩ := c.trainLinks.stepTime_rest n
    rw [h]
    exact ⟨(Chip.reg_of_regs hregs _).trans hreg, hb.trans hboot⟩

/-- R441: the hold has ended. -/
def continueAct (y : Sys) : Sys := (onChip (fun c => c.setFld (stagePg + 0x40) 5 4 0) y).beginStage 6

def continueOk (c : Chip) : Bool := c.boot.on && c.stageState == 3

theorem continueAct_facts {y : Sys} (h : ∀ e ∈ y.chip.boot.cfg, e.stage ≠ 6) : (continueAct y).chip.stageNo = 6 ∧
    (continueAct y).chip.stageState = 0 ∧ (continueAct y).chip.boot.stageStart = y.chip.ref := by
  unfold continueAct
  have hboot : (y.chip.setFld (stagePg + 0x40) 5 4 0).boot = y.chip.boot := Chip.setFld_boot ..
  have href : (y.chip.setFld (stagePg + 0x40) 5 4 0).ref = y.chip.ref := Chip.setFld_ref ..
  have hstate : (y.chip.setFld (stagePg + 0x40) 5 4 0).stageState = 0 :=
    (Chip.fld_setFld _ _ _ (by decide)).trans rfl
  rw [Sys.beginStage_six (by rw [onChip_chip, hboot]; exact h), onChip_chip, onChip_chip, onChip_chip]
  generalize y.chip.setFld (stagePg + 0x40) 5 4 0 = u at href hstate
  obtain ⟨hreg, hstart⟩ := (u.stageShown 6).sixStarts_stage
  have hshown : (u.stageShown 6).reg (stagePg + 0x40) = (u.setFld (stagePg + 0x40) 3 0 6).reg (stagePg + 0x40) :=
    Chip.reg_of_regs rfl _
  rw [hshown] at hreg
  refine ⟨?_, ?_, ?_⟩
  · exact (congrArg (Word.bits · 3 0) hreg).trans ((Chip.fld_setFld _ _ _ (by decide)).trans rfl)
  · exact (congrArg (Word.bits · 5 4) hreg).trans ((Chip.fld_setFld_apart _ _ _ (by decide) (by decide)).trans hstate)
  · rw [hstart, Chip.boot_stageShown]
    exact href

theorem continue_ok (ha : s.sys.chip.chainAsks f) (hc : f.typ = 4 ∧ payNat f.payload 0 1 = 1)
    (hk : 9 ≤ f.payload.length ∧ payNat f.payload 8 1 = 0) (hon : s.sys.chip.boot.on = true)
    (hst : s.sys.chip.stageState = 3) (hcfg : ∀ e ∈ s.sys.chip.boot.cfg, e.stage ≠ 6) :
    ∃ z, exec (.continueHold f) s = .next { s with sys := z } ∧ z.chip.stageNo = 6 ∧ z.chip.stageState = 0 ∧
      z.chip.boot.stageStart = s.sys.chip.ref ∧ ∃ r, z.chip.chain.kept = some (f.seq, r) := by
  have hexec : exec (.continueHold f) s =
      .next { s with sys := s.sys.chainReq f (isCtl f 1) (ctlAct f 0 continueOk continueAct) } := (rfl)
  have hok : continueOk (s.sys.forwarded f).chip = true := by
    have hshow : (s.sys.chip.boot.on && s.sys.chip.stageState == 3) = true := by
      rw [hon, hst]
      rfl
    exact hshow
  rw [req_answers ha (isCtl_of hc) (ctlAct_ok ((ctlKey_iff f _).2 hk) hok)] at hexec
  obtain ⟨hno, hstate, hstart⟩ := continueAct_facts (y := s.sys.forwarded f) hcfg
  exact ⟨_, hexec, hno, hstate, hstart, _, rfl⟩

theorem continue_refused (ha : s.sys.chip.chainAsks f) (hc : f.typ = 4 ∧ payNat f.payload 0 1 = 1)
    (h : ¬ (9 ≤ f.payload.length ∧ payNat f.payload 8 1 = 0) ∨ s.sys.chip.stageState ≠ 3) :
    chainRefuses s f (.continueHold f) := by
  refine req_refuses (act := ctlAct f 0 continueOk continueAct) ha (isCtl_of hc) rfl (ctlAct_no fun hn => ?_)
  have hst : s.sys.chip.stageState = 3 := beq_iff_eq.1 ((Bool.and_eq_true _ _).mp hn.2).2
  exact h.elim (fun h => h ((ctlKey_iff f _).1 hn.1)) (fun h => h hst)

/-! ## RETIRE (R470 to R472) -/

theorem stepDone_reg (c : Chip) (n : Nat) {a : Nat} (hb : belowPt a) (h10 : a ≠ chPg + 0x10) (h18 : a ≠ chPg + 0x18)
    (h58 : chPg + 0x58 ≠ a) : (c.stepDone n).reg a = (c.setFld (chPg + 0x44) 4 2 n).reg a :=
  Chip.sendState_apart _ _ (.inl rfl) hb h10 h18 h58

/-- R472: step n of the way out is done. -/
theorem Chip.stepDone_facts (c : Chip) {n : Nat} (hn : n < 8) : (c.stepDone n).svc = c.svc ∧ (c.stepDone n).retireStep = n ∧
    (c.stepDone n).paired = c.paired := by
  have hreg : (c.stepDone n).reg (chPg + 0x44) = (c.setFld (chPg + 0x44) 4 2 n).reg (chPg + 0x44) :=
    stepDone_reg c n (chPg_below (by decide) (by decide)) (by decide) (by decide) (by decide)
  refine ⟨?_, ?_, ?_⟩
  · exact (congrArg (Word.bits · 1 0) hreg).trans (Chip.fld_setFld_apart _ _ _ (by decide) (by decide))
  · refine (congrArg (Word.bits · 4 2) hreg).trans ((Chip.fld_setFld _ _ _ (by decide)).trans ?_)
    exact Nat.mod_eq_of_lt hn
  · refine congrArg (Word.bit · 0) ?_
    exact (stepDone_reg c n (pairPg_below (by decide) (by decide)) (by decide) (by decide) (by decide)).trans
      (Chip.reg_setFld_ne _ _ _ _ (by decide))

theorem Chip.retireStarts_facts (c : Chip) (f : ChainFrame) : (c.retireStarts f).svc = 1 ∧ (c.retireStarts f).retireStep = 1 ∧
    (c.retireStarts f).chain.retireBy = c.now + 1000000 * ctlArg f := by
  have hsvc : ((c.setFld (chPg + 0x44) 1 0 1).setFld (chPg + 0x44) 4 2 1).svc = 1 := by
    unfold Chip.svc
    rw [Chip.fld_setFld_apart _ _ _ (by decide) (by decide), Chip.fld_setFld _ _ _ (by decide)]
    rfl
  have hstep : ((c.setFld (chPg + 0x44) 1 0 1).setFld (chPg + 0x44) 4 2 1).retireStep = 1 := by
    unfold Chip.retireStep
    rw [Chip.fld_setFld _ _ _ (by decide)]
    rfl
  exact ⟨hsvc, hstep, rfl⟩

theorem retireOk_iff (f : ChainFrame) (c : Chip) : retireOk f c = true ↔
    c.svc = 0 ∧ c.isReady = true ∧ 1 ≤ payNat f.payload 4 4 ∧ payNat f.payload 4 4 ≤ 600000 := by
  unfold retireOk ctlArg
  rw [Bool.and_eq_true, Bool.and_eq_true, decide_eq_true_iff, beq_iff_eq, and_assoc]

theorem retire_ok (ha : s.sys.chip.chainAsks f) (hc : f.typ = 4 ∧ payNat f.payload 0 1 = 3)
    (hm : (9 ≤ f.payload.length ∧ payNat f.payload 8 1 = 0x96) ∧ s.sys.chip.svc = 0 ∧ s.sys.chip.isReady = true ∧
      1 ≤ payNat f.payload 4 4 ∧ payNat f.payload 4 4 ≤ 600000) :
    ∃ t, chipNext s (.retire f) t ∧ t.svc = 1 ∧ t.retireStep = 1 ∧
      t.chain.retireBy = s.sys.chip.now + 1000000 * payNat f.payload 4 4 ∧ ∃ r, t.chain.kept = some (f.seq, r) := by
  obtain ⟨hk, hcond⟩ := hm
  have hok : retireOk f (s.sys.forwarded f).chip = true := (retireOk_iff f s.sys.chip).2 hcond
  have hasked : s.sys.retireAsked f = (onChip (fun c => c.retireStarts f) (s.sys.forwarded f)).answered f .ok [] :=
    req_answers ha (isCtl_of hc) (ctlAct_ok ((ctlKey_iff f _).2 hk) hok)
  obtain ⟨hsvc, hstep, hby⟩ := (s.sys.forwarded f).chip.retireStarts_facts f
  have hone : (s.sys.retireAsked f).chip.svc = 1 := by
    rw [hasked]
    exact hsvc
  have htold : s.sys.retireTold f = onChip (fun c => c.tellStep 1) (s.sys.retireAsked f) := if_pos ⟨hcond.1, hone⟩
  have hmem : (s.sys.retireAsked f).mem = s.sys.mem := by
    rw [hasked]
    rfl
  have hkept : ∃ r, (s.sys.retireAsked f).chip.chain.kept = some (f.seq, r) := by
    rw [hasked]
    exact ⟨_, rfl⟩
  have hstep' : (s.sys.retireAsked f).chip.retireStep = 1 := by
    rw [hasked]
    exact hstep
  have hby' : (s.sys.retireAsked f).chip.chain.retireBy = s.sys.chip.now + 1000000 * payNat f.payload 4 4 := by
    rw [hasked]
    exact hby
  have hexec := retire_eq s f
  rw [htold] at hexec
  generalize s.sys.retireAsked f = z at *
  have hreg : (z.chip.tellStep 1).reg (chPg + 0x44) = z.chip.reg (chPg + 0x44) :=
    Chip.sendState_apart _ _ (.inl rfl) (chPg_below (by decide) (by decide)) (by decide) (by decide) (by decide)
  obtain ⟨hk', hr'⟩ := z.chip.sendState_kept (leBytes 8 1 ++ leBytes 8 z.chip.now) (code := 7) (.inl rfl)
  refine ⟨z.chip.tellStep 1, ?_, ?_, ?_, hr'.trans hby', ?_⟩
  · rw [chipNext, hexec]
    exact congrArg (fun m => Host.Outcome.next { s with sys := ⟨m, z.chip.tellStep 1⟩ }) hmem
  · exact (congrArg (Word.bits · 1 0) hreg).trans hone
  · exact (congrArg (Word.bits · 4 2) hreg).trans hstep'
  · obtain ⟨r, hr⟩ := hkept
    exact ⟨r, hk'.trans hr⟩

theorem retire_refused (ha : s.sys.chip.chainAsks f) (hc : f.typ = 4 ∧ payNat f.payload 0 1 = 3)
    (hm : ¬ ((9 ≤ f.payload.length ∧ payNat f.payload 8 1 = 0x96) ∧ s.sys.chip.svc = 0 ∧ s.sys.chip.isReady = true ∧
      1 ≤ payNat f.payload 4 4 ∧ payNat f.payload 4 4 ≤ 600000)) : chainRefuses s f (.retire f) := by
  have hact : ctlAct f 0x96 (retireOk f) (onChip fun c => c.retireStarts f) (s.sys.forwarded f) =
      ((.noAccess, []), s.sys.forwarded f) :=
    ctlAct_no fun h => hm ⟨(ctlKey_iff f _).1 h.1, (retireOk_iff f s.sys.chip).1 h.2⟩
  have hasked : s.sys.retireAsked f = (s.sys.forwarded f).answered f .noAccess [] := req_answers ha (isCtl_of hc) hact
  refine req_refuses ha (isCtl_of hc) (retire_quiet ?_) hact
  rw [hasked]
  rfl

/-! The three parts of the drain (R472 step 2). -/

def Chip.leasesClosed (c : Chip) : Chip := forEach (c.rights.leases.map (·.1)) (fun i s => s.closeLease i) c

def Chip.ctxsKilled (c : Chip) : Chip :=
  forEach (c.parts.ctxs.map (·.1)) (fun x s =>
    if 1 ≤ (s.ctxAt x).state ∧ (s.ctxAt x).state ≤ 3 then s.killCtx x (killOf 8) else s) c

def Chip.extsReturned (c : Chip) : Chip :=
  let owned := (c.rights.exts.map (·.1)).filter fun e => c.extState e == 1
  forEach (List.range 64) (fun p s =>
    let es := owned.filter fun e => (s.ext e).part == p
    if es.isEmpty then s else s.extReturnAt none p es) c

theorem Chip.drain_eq (c : Chip) : c.drain = c.leasesClosed.ctxsKilled.extsReturned := rfl

/-- R472: with nothing leased, owned or running there is nothing to drain. -/
theorem Chip.drain_idle {c : Chip} (hl : c.rights.leases = []) (he : c.rights.exts = []) (hx : c.parts.ctxs = []) :
    c.drain = c := by
  have hclosed : c.leasesClosed = c := by
    unfold Chip.leasesClosed
    rw [hl]
    rfl
  have hkilled : c.ctxsKilled = c := by
    unfold Chip.ctxsKilled
    rw [hx]
    rfl
  have hreturned : c.extsReturned = c := by
    unfold Chip.extsReturned
    rw [he]
    exact forEach_keeps (fun t => t = c) (fun p _ t ht => ht) rfl
  rw [Chip.drain_eq, hclosed, hkilled, hreturned]

theorem retireDrain_eq (s : State) : chipNext s .retireDrain
    (if s.sys.chip.svc = 1 ∧ s.sys.chip.retireStep = 1 ∧ (s.sys.chip.allFree = true ∨ s.sys.chip.chain.retireBy ≤ s.sys.chip.now)
      then (s.sys.chip.drain.stepDone 2).retirePair else s.sys.chip) := (rfl)

theorem retireDrain_single (hs : s.sys.chip.svc = 1) (hr : s.sys.chip.retireStep = 1) (hp : s.sys.chip.paired = false)
    (hl : s.sys.chip.rights.leases = []) (he : s.sys.chip.rights.exts = []) (hx : s.sys.chip.parts.ctxs = []) :
    ∃ t, chipNext s .retireDrain t ∧ t.svc = 1 ∧ t.retireStep = 3 := by
  have hfree : s.sys.chip.allFree = true := by
    unfold Chip.allFree
    rw [hl, he]
    rfl
  have hexec := retireDrain_eq s
  rw [if_pos ⟨hs, hr, .inl hfree⟩, Chip.drain_idle hl he hx] at hexec
  obtain ⟨hsvc, hstep, hpair⟩ := s.sys.chip.stepDone_facts (n := 2) (by decide)
  generalize s.sys.chip.stepDone 2 = u at hexec hsvc hstep hpair
  have hdone : u.retirePair = u.stepDone 3 := by
    unfold Chip.retirePair
    rw [if_neg (not_not.2 hstep), if_pos (hpair.trans hp)]
  rw [hdone] at hexec
  obtain ⟨hsvc3, hstep3, -⟩ := u.stepDone_facts (n := 3) (by decide)
  exact ⟨_, hexec, (hsvc3.trans hsvc).trans hs, hstep3⟩

theorem retireDrain_same (h : s.sys.chip.svc ≠ 1 ∨ s.sys.chip.retireStep ≠ 1 ∨
    (s.sys.chip.allFree = false ∧ s.sys.chip.now < s.sys.chip.chain.retireBy)) : exec .retireDrain s = .next s := by
  have hexec := retireDrain_eq s
  rw [if_neg] at hexec
  · exact chipNext_same hexec
  · rintro ⟨hs, hr, hd⟩
    rcases h with h | h | ⟨hf, hn⟩
    · exact h hs
    · exact h hr
    · exact hd.elim (ne_true_of_eq_false hf) (Nat.not_le.2 hn)

theorem retired_eq (s : State) : chipNext s .retired
    (if s.sys.chip.svc ≠ 1 then s.sys.chip
      else if s.sys.chip.retirePair.retireStep = 3 ∧ s.sys.chip.retirePair.reclaimed = true
        then (s.sys.chip.retirePair.setFld (chPg + 0x44) 1 0 2).stepDone 4 else s.sys.chip.retirePair) := (rfl)

theorem retired_same (h : s.sys.chip.svc ≠ 1) : exec .retired s = .next s := by
  have hexec := retired_eq s
  rw [if_pos h] at hexec
  exact chipNext_same hexec

theorem retired_ends (hs : s.sys.chip.svc = 1) (hr : s.sys.chip.retireStep = 3) :
    if s.sys.chip.reclaimed = true then ∃ t, chipNext s .retired t ∧ t.svc = 2 ∧ t.retireStep = 4
      else exec .retired s = .next s := by
  have hpair : s.sys.chip.retirePair = s.sys.chip := if_pos (by rw [hr]; decide)
  have hexec := retired_eq s
  rw [if_neg (not_not.2 hs), hpair] at hexec
  by_cases hc : s.sys.chip.reclaimed = true
  · rw [if_pos ⟨hr, hc⟩] at hexec
    rw [if_pos hc]
    obtain ⟨hsvc, hstep, -⟩ := (s.sys.chip.setFld (chPg + 0x44) 1 0 2).stepDone_facts (n := 4) (by decide)
    refine ⟨_, hexec, hsvc.trans ?_, hstep⟩
    exact (Chip.fld_setFld _ _ _ (by decide)).trans rfl
  · rw [if_neg fun h => hc h.2] at hexec
    rw [if_neg hc]
    exact chipNext_same hexec

end

end Sys2Proof.Machine

/-! PROOF of O60, its end (R442, R473): the FLASH requests, and the statement. -/

namespace Sys2Proof.Machine

-- One after the other: side by side the proofs ask for more memory than the check grants.
set_option Elab.async false

open Laws

/-! ## FLASH (R442, R473) -/

section
variable {s : State} {f : ChainFrame}

theorem flashAct_ok {y : Sys} {ok : Chip → Bool} {act : Sys → (Status × List Byte) × Sys} (h : ok y.chip = true) :
    flashAct ok act y = act y := if_pos h

theorem flashAct_no {y : Sys} {ok : Chip → Bool} {act : Sys → (Status × List Byte) × Sys} (h : ¬ ok y.chip = true) :
    flashAct ok act y = ((.noAccess, []), y) := if_neg h

/-- R473: when the flash may be read, erased and programmed. -/
def flashReadOk (f : ChainFrame) (c : Chip) : Bool :=
  (c.straps % 4 == 3 || c.stageState == 2) && decide (1 ≤ flashCount f ∧ flashCount f ≤ 256)

def flashEraseOk (f : ChainFrame) (c : Chip) : Bool := c.straps % 4 == 3 && flashOff f % 4096 == 0

def flashProgramOk (f : ChainFrame) (c : Chip) : Bool :=
  c.straps % 4 == 3 && decide (1 ≤ flashCount f ∧ flashOff f % 256 + flashCount f ≤ 256) &&
    f.payload.length == 16 + flashCount f

theorem flashReadOk_iff (f : ChainFrame) (c : Chip) : flashReadOk f c = true ↔
    (c.straps % 4 = 3 ∨ c.stageState = 2) ∧ 1 ≤ payNat f.payload 8 2 ∧ payNat f.payload 8 2 ≤ 256 := by
  unfold flashReadOk flashCount
  rw [Bool.and_eq_true, Bool.or_eq_true, decide_eq_true_iff, beq_iff_eq, beq_iff_eq]

theorem flashEraseOk_iff (f : ChainFrame) (c : Chip) : flashEraseOk f c = true ↔
    c.straps % 4 = 3 ∧ payNat f.payload 4 4 % 4096 = 0 := by
  unfold flashEraseOk flashOff
  rw [Bool.and_eq_true, beq_iff_eq, beq_iff_eq]

theorem flashProgramOk_iff (f : ChainFrame) (c : Chip) : flashProgramOk f c = true ↔
    c.straps % 4 = 3 ∧ 1 ≤ payNat f.payload 8 2 ∧ payNat f.payload 4 4 % 256 + payNat f.payload 8 2 ≤ 256 ∧
      f.payload.length = 16 + payNat f.payload 8 2 := by
  unfold flashProgramOk flashCount flashOff
  rw [Bool.and_eq_true, Bool.and_eq_true, decide_eq_true_iff, beq_iff_eq, beq_iff_eq, and_assoc, and_assoc]

/-- R473: what is read. -/
def readAct (f : ChainFrame) (y : Sys) : (Status × List Byte) × Sys := ((.ok, y.flashRead (flashOff f) (flashCount f)), y)

def eraseAct (f : ChainFrame) (y : Sys) : (Status × List Byte) × Sys := ((.ok, []), y.flashErase (flashOff f))

def programAct (f : ChainFrame) (y : Sys) : (Status × List Byte) × Sys :=
  let (good, y) := y.flashProgram (flashOff f) (f.payload.drop 16)
  ((if good then .ok else .ue, []), y)

theorem flashRead_ok (ha : s.sys.chip.chainAsks f) (hc : f.typ = 5 ∧ payNat f.payload 0 1 = 1)
    (h : (s.sys.chip.straps % 4 = 3 ∨ s.sys.chip.stageState = 2) ∧ 1 ≤ payNat f.payload 8 2 ∧ payNat f.payload 8 2 ≤ 256) :
    chainTells s f (.flashRead f) .ok (KMap.bytes s.sys.mem.flash (payNat f.payload 4 4) (payNat f.payload 8 2)) fun z =>
      z.mem = s.sys.mem ∧ z.chip.regs = s.sys.chip.regs :=
  req_tells (act := flashAct (flashReadOk f) (readAct f)) ha (isFlash_of hc) rfl
    (flashAct_ok ((flashReadOk_iff f s.sys.chip).2 h)) rfl ⟨rfl, rfl⟩

theorem flashRead_refused (ha : s.sys.chip.chainAsks f) (hc : f.typ = 5 ∧ payNat f.payload 0 1 = 1)
    (h : ¬ ((s.sys.chip.straps % 4 = 3 ∨ s.sys.chip.stageState = 2) ∧ 1 ≤ payNat f.payload 8 2 ∧ payNat f.payload 8 2 ≤ 256)) :
    chainRefuses s f (.flashRead f) :=
  req_refuses (act := flashAct (flashReadOk f) (readAct f)) ha (isFlash_of hc) rfl
    (flashAct_no fun hn => h ((flashReadOk_iff f s.sys.chip).1 hn))

/-- R442: what the store of bytes leaves of the flash. -/
theorem Sys.flashPut_facts (y : Sys) (a : Nat) {n : Nat} {d : List Byte} (h : d.length = n) :
    (y.flashPut a d).mem = { y.mem with flash := (y.flashPut a d).mem.flash } ∧
      KMap.bytes (y.flashPut a d).mem.flash a n = d ∧
      ∀ i, i < a ∨ a + n ≤ i → KMap.at (y.flashPut a d).mem.flash 0 i = KMap.at y.mem.flash 0 i :=
  ⟨rfl, bytes_store_of_length h, fun _ hi => at_store_out y.mem.flash a d (by rw [h]; exact hi)⟩

theorem flashErase_ok (ha : s.sys.chip.chainAsks f) (hc : f.typ = 5 ∧ payNat f.payload 0 1 = 2)
    (h : s.sys.chip.straps % 4 = 3 ∧ payNat f.payload 4 4 % 4096 = 0) : chainTells s f (.flashErase f) .ok [] fun z =>
      z.mem = { s.sys.mem with flash := z.mem.flash } ∧
        KMap.bytes z.mem.flash (payNat f.payload 4 4) 4096 = List.replicate 4096 0xFF ∧
        ∀ a, a < payNat f.payload 4 4 ∨ payNat f.payload 4 4 + 4096 ≤ a →
          KMap.at z.mem.flash 0 a = KMap.at s.sys.mem.flash 0 a := by
  have hfacts := (s.sys.forwarded f).flashPut_facts (payNat f.payload 4 4)
    (List.length_replicate (n := 4096) (a := (0xFF : Byte)))
  exact req_tells (act := flashAct (flashEraseOk f) (eraseAct f)) ha (isFlash_of hc) rfl
    (flashAct_ok ((flashEraseOk_iff f s.sys.chip).2 h)) rfl hfacts

theorem flashErase_refused (ha : s.sys.chip.chainAsks f) (hc : f.typ = 5 ∧ payNat f.payload 0 1 = 2)
    (h : ¬ (s.sys.chip.straps % 4 = 3 ∧ payNat f.payload 4 4 % 4096 = 0)) : chainRefuses s f (.flashErase f) :=
  req_refuses (act := flashAct (flashEraseOk f) (eraseAct f)) ha (isFlash_of hc) rfl
    (flashAct_no fun hn => h ((flashEraseOk_iff f s.sys.chip).1 hn))

theorem length_kmapBytes (m : KMap Byte) (a n : Nat) : (KMap.bytes m a n).length = n := by
  induction n generalizing a with
  | zero => rfl
  | succ n ih => rw [KMap.bytes, List.length_cons, ih]

/-- R442: programming stores as many bytes as it is given, and says whether they read as written. -/
theorem Sys.flashProgram_stores (y : Sys) (a : Nat) (d : List Byte) : ∃ got : List Byte, got.length = d.length ∧
    y.flashProgram a d = (got == d, Sys.flashPut { y with chip := y.chip.fresh.2 } a got) := by
  refine ⟨if y.chip.fresh.1 % 2 = 0 then List.zipWith (· &&& ·) (y.flashRead a d.length) d
    else leBytes d.length (y.chip.fresh.1 / 2), ?_, rfl⟩
  split
  · rw [List.length_zipWith, Sys.flashRead, length_kmapBytes, Nat.min_self]
  · exact length_leBytes ..

theorem flashProgram_ok (ha : s.sys.chip.chainAsks f) (hc : f.typ = 5 ∧ payNat f.payload 0 1 = 3)
    (h : s.sys.chip.straps % 4 = 3 ∧ 1 ≤ payNat f.payload 8 2 ∧ payNat f.payload 4 4 % 256 + payNat f.payload 8 2 ≤ 256 ∧
      f.payload.length = 16 + payNat f.payload 8 2) : ∃ st, chainTells s f (.flashProgram f) st [] fun z =>
      z.mem = { s.sys.mem with flash := z.mem.flash } ∧ (st = .ok ∨ st = .ue) ∧
        (st = .ok ↔ KMap.bytes z.mem.flash (payNat f.payload 4 4) (payNat f.payload 8 2) = f.payload.drop 16) ∧
        ∀ a, a < payNat f.payload 4 4 ∨ payNat f.payload 4 4 + payNat f.payload 8 2 ≤ a →
          KMap.at z.mem.flash 0 a = KMap.at s.sys.mem.flash 0 a := by
  obtain ⟨got, hgot, hprog⟩ := (s.sys.forwarded f).flashProgram_stores (payNat f.payload 4 4) (f.payload.drop 16)
  have hlen : got.length = payNat f.payload 8 2 := by
    rw [hgot, List.length_drop, h.2.2.2, Nat.add_sub_cancel_left]
  obtain ⟨hmem, hbytes, hrest⟩ := Sys.flashPut_facts { (s.sys.forwarded f) with chip := (s.sys.forwarded f).chip.fresh.2 }
    (payNat f.payload 4 4) hlen
  have hact : programAct f (s.sys.forwarded f) = ((if got == f.payload.drop 16 then .ok else .ue, []),
      Sys.flashPut { (s.sys.forwarded f) with chip := (s.sys.forwarded f).chip.fresh.2 } (payNat f.payload 4 4) got) := by
    unfold programAct flashOff
    rw [hprog]
  have hcond : flashAct (flashProgramOk f) (programAct f) (s.sys.forwarded f) = _ :=
    (flashAct_ok (y := s.sys.forwarded f) ((flashProgramOk_iff f s.sys.chip).2 h)).trans hact
  refine ⟨_, req_tells ha (isFlash_of hc) rfl hcond rfl ⟨hmem, ?_, ?_, hrest⟩⟩
  · exact ite_eq_or_eq _ _ _
  · refine Iff.trans ?_ (iff_of_eq (congrArg (· = f.payload.drop 16) hbytes.symm))
    by_cases he : got = f.payload.drop 16
    · rw [if_pos (beq_iff_eq.2 he)]
      exact iff_of_true rfl he
    · rw [if_neg (fun hb => he (beq_iff_eq.1 hb))]
      exact iff_of_false (by decide) he

theorem flashProgram_refused (ha : s.sys.chip.chainAsks f) (hc : f.typ = 5 ∧ payNat f.payload 0 1 = 3)
    (h : ¬ (s.sys.chip.straps % 4 = 3 ∧ 1 ≤ payNat f.payload 8 2 ∧ payNat f.payload 4 4 % 256 + payNat f.payload 8 2 ≤ 256 ∧
      f.payload.length = 16 + payNat f.payload 8 2)) : chainRefuses s f (.flashProgram f) :=
  req_refuses (act := flashAct (flashProgramOk f) (programAct f)) ha (isFlash_of hc) rfl
    (flashAct_no fun hn => h ((flashProgramOk_iff f s.sys.chip).1 hn))

end

/-- Settles O60: each frame by whether the chain is up, the frame is good and names the unit, each request by its conditions. -/
theorem managementChain : Obligations.ManagementChain := by
  intro s f y mem same gives tells refuses on named asks ctl flash key arg n rows fwd own id pos recov
  have hrows := chainRows_are s f
  refine ⟨fun h => ⟨forward_down h, enum_down h, poll_down h, fun r hr => chainRow_down (hrows r hr) h⟩,
    fun h ht => ⟨forward_other h ht, fun r hr => chainRow_other (hrows r hr) h ht⟩, forward_bad,
    fun hn hu => forward_good hn.1 hu, forward_unknown, fun a r hn hb hk hr ha => chainRow_again (hrows a hr) hn hb hk ha,
    fun hon ht hl => ⟨enum_addresses hon ht hl, enum_same hon ht hl, enum_past hon ht hl, enum_differs hon ht hl⟩, poll_acts,
    fun ha hc => ⟨continue_ok ha hc, continue_refused ha hc⟩, fun ha hc => ⟨chainReset_ok ha hc, chainReset_refused ha hc⟩,
    fun ha hc => ⟨alertAck_ok ha hc, alertAck_refused ha hc⟩, fun ha hc => ⟨retire_ok ha hc, retire_refused ha hc⟩,
    fun ha hc => ⟨flashRead_ok ha hc, flashRead_refused ha hc⟩, fun ha hc => ⟨flashErase_ok ha hc, flashErase_refused ha hc⟩,
    fun ha hc => ⟨flashProgram_ok ha hc, flashProgram_refused ha hc⟩, retireDrain_single, retireDrain_same, retired_same,
    retired_ends⟩

end Sys2Proof.Machine
